-- ==== Sys2Proof/Word.lean ====
section
/-! DEFINITION. The word types of the block and the sparse table type that every banked register uses. -/

namespace Sys2Proof

/-- One byte. -/
abbrev Byte := BitVec 8
/-- A 32-bit register or instruction word. -/
abbrev W32 := BitVec 32
/-- A 64-bit register, the Pacer general register (R247). -/
abbrev W64 := BitVec 64
/-- A 128-bit value: a rein (R278) or a wide register. -/
abbrev W128 := BitVec 128

/-- A sparse table: the entries that differ from the table's default, keys strictly rising. -/
abbrev Tab (α : Type) := List (Nat × α)

end Sys2Proof
end

