-- ==== Sys2Proof/Syntax.lean ====
section
/-! DEFINITION. The commands of the block: one constructor for each row of the table of operations and events, with
the operands a sender gives. -/

namespace Sys2Proof

/-- Where a request came from: window `w` of Pacer `c`, the descriptor `seq` of queue `q` of function `fn`, or a
durable command that the device carries on by itself in Cinch slot `slot`. -/
inductive Src where
  | win (c w : Nat)
  | host (fn q seq : Nat)
  | auto (slot : Nat)
deriving DecidableEq, Repr

/-- A contactless token in the field: its complete UID, final SAK and ATQA (R386). -/
structure TokenInfo where
  uid : List Byte
  sak : Nat
  atqa : Nat
deriving DecidableEq, Repr

/-- What a card or token exchange brings from outside. `kind`: 0 answered, 1 error after retries, 2 response timeout,
3 MAC or nonce mismatch, 4 error result or unresolvable collision, 5 absent, or a key already programmed, 6 no valid ATR.
`value` is a card's counter, the classes an ATR offers (bit 0 A, bit 1 B) or a token's highest rate; `resp` is the response data of a
token's read-back APDU (R161, R164). -/
structure ExAnswer where
  kind : Nat
  data : List Byte
  sw : Nat
  value : Nat
  tokens : List TokenInfo
  resp : List Byte
deriving DecidableEq, Repr

/-- What initialisation finds of a saddlebag card (R366). -/
structure CardInfo where
  cid : List Byte
  secCount : Nat
  rpmb : Nat
  width : Nat
  mode : Nat
  byteMode : Bool
  answered : Bool
deriving DecidableEq, Repr

/-- A fault of the hardware that shows in a stride: its kind and the physical unit. -/
inductive HwFault where
  | laneMismatch (lane pair kind which : Nat)
  | engineCheck (engine : Nat)
  | engineMemory (engine : Nat)
  | cvuMismatch (unit : Nat)
deriving DecidableEq, Repr

/-- The dataset of an Announce message that best master selection compares (R37). -/
structure PtpDataset where
  prio1 : Nat
  cls : Nat
  accuracy : Nat
  variance : Nat
  prio2 : Nat
  gm : W64
  steps : Nat
deriving DecidableEq, Repr

/-- An enrolled custodian card or token (R199): identity, its kind (0 a contactless UID, 1 ATR historical bytes) and ECDH P-384
public key. -/
structure Custodian where
  ident : List Byte
  idsrc : Nat
  key : List Byte
deriving DecidableEq, Repr

/-- The head of a PTP message: domainNumber, the clock identity of its sender and logMessageInterval. -/
structure PtpSource where
  dom : Nat
  clockId : W64
  logInt : Int
deriving DecidableEq, Repr

/-- When a Pdelay_Req came in and the Pdelay_Resp went out. -/
structure PdelayStay where
  ingress : Nat
  egress : Nat
deriving DecidableEq, Repr

/-- Which answer of a peer it is: a Pdelay_Resp, of one step or two, with its receive time, or the Pdelay_Resp_Follow_Up. -/
inductive PdelayPart where
  | resp (twoStep : Bool) (ingress : Nat)
  | followUp
deriving DecidableEq, Repr

/-- How a die-link transfer is sealed: the key it is sealed under, and whether it arrives as sent (R9). -/
structure LinkSeal where
  key : List Byte
  intact : Bool
deriving DecidableEq, Repr

/-- Where new shares go: the custodians enrolled for them, 1 first, and the interface each of them is at (R199, R374, R384). -/
structure ShareTargets where
  enrol : List Custodian
  places : List Nat
deriving DecidableEq, Repr

/-- A threshold of m shares out of n (R199). -/
structure ShareScheme where
  m : Nat
  n : Nat
deriving DecidableEq, Repr

/-- What the card of a BACKUP gives: the image as it reads back, and the answer with its RPMB write counter (R202, R352). -/
structure CardAnswer where
  readBack : List Byte
  counter : ExAnswer
deriving DecidableEq, Repr

/-- What a JOIN expects: the KID of the key and the custodians that hold its shares (R200). -/
structure ExpectedKey where
  kid : Nat
  enrol : List Custodian
deriving DecidableEq, Repr

/-- A configuration request to a function of the endpoint (R205–R207): a read, SR-IOV's VF Enable and NumVFs, D0 or D3hot, the payload
and read-request sizes in bytes, the MSI-X enable and function mask, or a write of ones to the AER uncorrectable status. -/
inductive ConfigReq where
  | read
  | sriov (enable : Bool) (numVFs : Nat)
  | power (d3hot : Bool)
  | sizes (payload readReq : Nat)
  | msix (enable mask : Bool)
  | aerClear (val : W32)
deriving DecidableEq, Repr

/-- A configuration request and the function it goes to. -/
structure ConfigAccess where
  fn : Nat
  req : ConfigReq
deriving DecidableEq, Repr

/-- Who writes a register: a core's load-store unit, the Warden level of the device, or the host through BAR0 or BAR2 of a
function (R208, R209). -/
inductive RegSrc where
  | core (c : Nat)
  | warden
  | bar0 (fn : Nat)
  | bar2 (fn : Nat)
deriving DecidableEq, Repr

/-- An SRAM word: one that is mapped, one of the tack cache that holds part of a tack, or one of a PKE operand bank (R16). -/
inductive SramWord where
  | addr (a : Nat)
  | tack (handle : Nat)
  | bank (engine bank word : Nat)
deriving DecidableEq, Repr

/-- A request at the debug access port (R430, R431): a memory or CSR access, a register of a halted core (`bank` 0 general,
1 rein, 2 special), the trace ring, or a write of LC_DBGSEL. -/
inductive DapReq where
  | mem (write : Bool) (addr width : Nat) (val : W64)
  | reg (write : Bool) (core bank idx : Nat) (val : W128)
  | ring
  | select (paddock : Nat)
deriving DecidableEq, Repr

/-- What a boot meets outside itself: whether the backup domain kept its state (R414) and its counter (R35), how long its
oscillator counted while nothing else did (ns), the sensors in alarm, the ms after POR_N release by which the work of each
step from 1 on is done (R487), the (pool, unit) pairs that fail their test, and whether the NAND mounts (R489). -/
structure BootFacts where
  retained : Bool
  backupOk : Bool
  offTime : Nat
  mask : Nat
  ends : List Nat
  badUnits : List (Nat × Nat)
  nandOk : Bool
  badNor : List Nat
deriving DecidableEq, Repr

/-- One constructor per row of the table of operations and events. -/
inductive Instr where
  /-- STRIDE_BOUNDARY (R31). A new stride begins at every whole microsecond of TI_NOW: every block samples the stride number, admits work and runs the slices of that stride. -/
  | strideBoundary (faults : List HwFault)
  /-- FRAME_BOUNDARY (R41). The first stride of a 256-stride frame begins, and staged shares, CF_ values and pacing take effect. -/
  | frameBoundary
  /-- PTP_SYNC (R36). A Sync message is received, completing a sample that is accepted, discarded or ignored by the servo. -/
  | ptpSync (src : PtpSource) (seq : Nat) (twoStep : Bool) (origin ingress corr : Nat)
  /-- PTP_FOLLOW_UP (R36). A Follow_Up message from a two-step master is received and completes a sample. -/
  | ptpFollowUp (src : PtpSource) (seq origin corr : Nat)
  /-- PTP_DELAY_RESP (R37). A Delay_Resp message is received and the mean path delay is updated. -/
  | ptpDelayResp (src : PtpSource) (seq receive corr : Nat)
  /-- DELAY_REQ_SEND (R37). The device sends a Delay_Req under the default profile when its interval falls due. -/
  | delayReqSend (seq egress : Nat)
  /-- PTP_ANNOUNCE (R37). An Announce message is received and best master selection is run. -/
  | ptpAnnounce (src : PtpSource) (data : PtpDataset) (utc : BitVec 16) (utcValid : Bool)
  /-- PTP_PDELAY_REQ (R37). A Pdelay_Req is received under the power profile and the device answers it. -/
  | ptpPdelayReq (dom seq : Nat) (stay : PdelayStay)
  /-- PTP_PDELAY_RESP (R37). A Pdelay_Resp or Pdelay_Resp_Follow_Up is received and the peer delay is updated. -/
  | ptpPdelayResp (src : PtpSource) (seq : Nat) (part : PdelayPart) (time corr : Nat)
  /-- MASTER_LOSS (R37). The announce receipt timeout or the Sync timeout expires, and the master is lost. -/
  | masterLoss
  /-- REACQUIRE (R36). A write of TI_CTRL.REACQUIRE or of object 0x2010:00 clears DISAGREE and allows one forward step. -/
  | reacquire
  /-- BACKUP_COUNTER_COPY (R35). Once a second the backup domain copies TI_NOW into its own counter. -/
  | backupCounterCopy
  /-- PPS_RISE (R39). PTP_PPS_OUT rises at each whole TAI second while the time state is LOCKED or HOLDOVER. -/
  | ppsRise
  /-- PPS_FALL (R39). PTP_PPS_OUT falls when TI_PPS.WIDTH microseconds have passed. -/
  | ppsFall
  /-- SHARE_WRITE (R43). A write of TI_SHR_DATA stages a share, or it is refused and sets REFUSED. -/
  | shareWrite (core : Nat) (val : W32)
  /-- UNIT_OVERRUN (R46). A unit has not finished its slice when the stride's cycle budget ends, so it is fenced and its job completes UNIT_FENCED. -/
  | unitOverrun (pool unit : Nat)
  /-- REGISTER_WRITE (R4). A write to a register that has no row of its own, including W1C and dropped writes. -/
  | registerWrite (src : RegSrc) (addr width : Nat) (val : W64)
  /-- RESULT_DONE_READ (R77). A read of a window's RC DONE bit returns it and clears it. -/
  | resultDoneRead (core addr : Nat)
  /-- DIE_LINK_TRANSFER (R9). A transfer over the die link is authenticated and acted on. -/
  | dieLinkTransfer (auth : LinkSeal) (addr : Nat) (val : W64)
  /-- SRAM_SCRUB (R17). The scrubber's 10 s period comes round and it reads and corrects every word of the six SRAM areas. -/
  | sramScrub (bad corrected : List SramWord)
  /-- CIPHER_JOB (R77). A cipher job is submitted by a GO to a Pacer cipher window or handed over from an admitted host descriptor, and is checked and admitted. -/
  | cipherJob (src : Src)
  /-- CIPHER_JOB_COMPLETE (R78). A cipher job's result is written in the stride after its last slice, with the status that row order gives. -/
  | cipherJobComplete (src : Src)
  /-- CF_RSV_WRITE (R83). A write of CF_RSV stages an inline reservation, or it is refused and sets RSV_REFUSED. -/
  | cfRsvWrite (core : Nat) (val : W32)
  /-- CF_CTX_WRITE (R83). A write of CF_CTX stages a paddock's context entries, or it is refused and sets CTX_REFUSED. -/
  | cfCtxWrite (core : Nat) (val : W32)
  /-- STALL_ALLOC (R93). The ALLOC command draws a random FREE stall for the paddock and makes it LOADING. -/
  | stallAlloc (src : Src)
  /-- STALL_LOAD (R93). The LOAD command reads a 256-byte image and copies the loader fields into a LOADING stall. -/
  | stallLoad (src : Src)
  /-- STALL_ARM (R94). The ARM command checks a LOADING stall, charges the tack, writes CHECK and makes the stall LIVE. -/
  | stallArm (src : Src)
  /-- STALL_EXPIRE (R93). The EXPIRE command moves a LIVE stall to EXPIRED with reason COMMAND. -/
  | stallExpire (src : Src)
  /-- STALL_RETIRE (R93). The RETIRE command moves a LOADING or EXPIRED stall to RETIRING. -/
  | stallRetire (src : Src)
  /-- STALL_READ (R93). The READ command writes a snapshot of a stall's counters and window to an address. -/
  | stallRead (src : Src)
  /-- STALL_COMMAND_COMPLETE (R96). A Stable command completes in the stride after admission and its result is written. -/
  | stallCommandComplete (src : Src)
  /-- STALL_RETIRING_END (R89). The single stride a stall spends in RETIRING ends and the stall enters WIPING. -/
  | stallRetiringEnd (stall : Nat)
  /-- STALL_WIPING_END (R91). The single stride a stall spends in WIPING ends and the stall becomes FREE and leaves its quota. -/
  | stallWipingEnd (stall : Nat)
  /-- STALL_WINDOW_EXPIRY (R102). A stall is certainly outside a window it cannot re-enter, and it becomes EXPIRED from the next stride. -/
  | stallWindowExpiry (stall : Nat)
  /-- ST_QUOTA_WRITE (R104). A write of ST_QUOTA sets a paddock's stall quota at once, or it is refused. -/
  | stQuotaWrite (core : Nat) (val : W32)
  /-- EXPQ_READ (R104). A 64-bit read of ST_EXPQ returns and removes the oldest entry. -/
  | expqRead (core rd : Nat)
  /-- RSA_PRIVATE_RAW (R107). PKE OP 0x01 computes a raw RSA private operation under a tack. -/
  | rsaPrivateRaw (src : Src)
  /-- RSA_PUBLIC_RAW (R107). PKE OP 0x02 computes a raw RSA public operation. -/
  | rsaPublicRaw (src : Src)
  /-- RSASSA_PSS_SIGN (R107). PKE OP 0x03 makes an RSASSA-PSS signature. -/
  | rsassaPssSign (src : Src)
  /-- RSASSA_PKCS1_V1_5_SIGN (R107). PKE OP 0x04 makes an RSASSA-PKCS1-v1_5 signature. -/
  | rsassaPkcs1V15Sign (src : Src)
  /-- RSASSA_PSS_VERIFY (R107). PKE OP 0x05 verifies an RSASSA-PSS signature. -/
  | rsassaPssVerify (src : Src)
  /-- RSASSA_PKCS1_V1_5_VERIFY (R107). PKE OP 0x06 verifies an RSASSA-PKCS1-v1_5 signature. -/
  | rsassaPkcs1V15Verify (src : Src)
  /-- RSAES_OAEP_ENCRYPT (R107). PKE OP 0x07 performs RSAES-OAEP encryption, optionally of a tack. -/
  | rsaesOaepEncrypt (src : Src)
  /-- RSAES_OAEP_DECRYPT (R107). PKE OP 0x08 performs RSAES-OAEP decryption into memory or a tack slot. -/
  | rsaesOaepDecrypt (src : Src)
  /-- MODULAR_EXPONENTIATION (R107). PKE OP 0x09 computes a modular exponentiation. -/
  | modularExponentiation (src : Src)
  /-- FFDH (R107). PKE OP 0x0A derives an FFDH shared secret into a tack slot. -/
  | ffdh (src : Src)
  /-- ECDSA_SIGN (R107). PKE OP 0x10 makes an ECDSA signature. -/
  | ecdsaSign (src : Src)
  /-- ECDSA_VERIFY (R107). PKE OP 0x11 verifies an ECDSA signature. -/
  | ecdsaVerify (src : Src)
  /-- ECDH (R107). PKE OP 0x12 derives an ECDH shared secret into a tack slot. -/
  | ecdh (src : Src)
  /-- EDDSA_SIGN (R107). PKE OP 0x13 makes an Ed25519 or Ed448 signature. -/
  | eddsaSign (src : Src)
  /-- EDDSA_VERIFY (R107). PKE OP 0x14 verifies an EdDSA signature. -/
  | eddsaVerify (src : Src)
  /-- X25519_OR_X448 (R107). PKE OP 0x15 derives an X25519 or X448 shared secret into a tack slot. -/
  | x25519OrX448 (src : Src)
  /-- KEY_PAIR_CURVE_OR_GROUP (R114). PKE OP 0x18 generates a curve or group key pair. -/
  | keyPairCurveOrGroup (src : Src)
  /-- KEY_PAIR_RSA (R114). PKE OP 0x19 generates an RSA key pair. -/
  | keyPairRsa (src : Src)
  /-- PKE_JOB_COMPLETE (R128). A PKE job's result is written in the stride after its final slice. -/
  | pkeJobComplete (src : Src)
  /-- DRBG_RESEED (R113). An engine DRBG reseeds after 2^16 generate requests or 1 s. -/
  | drbgReseed
  /-- ENTROPY_HEALTH_FAIL (R113). The entropy source reports a failed health test, ENTROPY_OK drops, and secret-using jobs complete BUSY_RETRY. -/
  | entropyHealthFail
  /-- PK_DIAG_READ (R131). A Warden read of PK_DIAG_DATA returns a word of an idle bank, or zeros with DIAG_DENIED for a bank in use. -/
  | pkDiagRead (core rd : Nat)
  /-- CINCH_OPEN (R141). OPEN takes a Cinch slot of class VOLATILE or DURABLE for the core. -/
  | cinchOpen (src : Src)
  /-- CINCH_STAGE (R142). STAGE validates an action, takes its locks or reservations and copies its data block into a hold page. -/
  | cinchStage (src : Src)
  /-- CINCH_COMMIT (R146). COMMIT moves an OPEN Cinch to COMMITTING to wait for its decision point. -/
  | cinchCommit (src : Src)
  /-- CINCH_ABORT (R141). ABORT ends an OPEN Cinch with cause REQUEST. -/
  | cinchAbort (src : Src)
  /-- CINCH_QUERY (R141). QUERY reports a Cinch's state and collects an ENDED Cinch. -/
  | cinchQuery (src : Src)
  /-- CINCH_LOOKUP (R141). LOOKUP asks the record store for a token-vault record's committed value. -/
  | cinchLookup (src : Src)
  /-- CINCH_RESOLVE (R164). RESOLVE reads an in-doubt external object again on the named interface. -/
  | cinchResolve (src : Src)
  /-- RECORD_STORE_ANSWER (R141). The record store answers a VAULT staging or a LOOKUP and the request completes. -/
  | recordStoreAnswer (core : Nat) (full : Bool)
  /-- CINCH_REQUEST_COMPLETE (R143). A Cinch window request's result is written in the stride after GO. -/
  | cinchRequestComplete (core : Nat)
  /-- CINCH_DECISION (R146). At the first boundary where all its conditions hold, a COMMITTING Cinch prepares and decides. -/
  | cinchDecision (slot : Nat)
  /-- JOURNAL_BATCH_DURABLE (R166). All programs of a stride's journal batch end, and the batch is durable. -/
  | journalBatchDurable (batch : Nat)
  /-- CINCH_APPLY (R147). A decided Cinch applies its actions in staging order and its COMMIT result is written. -/
  | cinchApply (slot : Nat)
  /-- CINCH_EXTERNAL_WRITE (R158). In the stride after its pending decide record is durable, the Cinch checks the external identity and starts the card or token write. -/
  | cinchExternalWrite (slot : Nat) (answer : ExAnswer)
  /-- EXTERNAL_WRITE_END (R161). The external write ends applied, not applied or unknown, and the Cinch applies, aborts or enters INDOUBT. -/
  | externalWriteEnd (slot step : Nat) (answer : ExAnswer)
  /-- RESOLUTION_END (R164). A resolution exchange ends and the in-doubt Cinch applies, aborts or stays INDOUBT. -/
  | resolutionEnd (slot : Nat) (answer : ExAnswer)
  /-- CINCH_TIMEOUT (R157). CN_TIMEOUT strides after OPEN, an OPEN or COMMITTING Cinch aborts and an ENDED one is freed. -/
  | cinchTimeout (slot : Nat)
  /-- FORCE_COMMIT (R165). An officer's write of 1 to 0x6010:02 forces an INDOUBT Cinch to commit. -/
  | forceCommit (cred : Nat)
  /-- FORCE_ABORT (R165). An officer's write of 2 to 0x6010:02 forces an INDOUBT Cinch to abort. -/
  | forceAbort (cred : Nat)
  /-- CHECKPOINT (R169). Every 2^20 strides the counter table is written as a checkpoint image in the SLC region. -/
  | checkpoint
  /-- NOTEQ_READ (R173). A 64-bit read of CN_NOTEQ returns and removes the oldest entry. -/
  | noteqRead (core rd : Nat)
  /-- CN_QUOTA_WRITE (R173). A write of CN_QUOTA or CN_HOLDQ sets a paddock's Cinch quotas at once, or it is refused. -/
  | cnQuotaWrite (core : Nat) (hold : Bool) (val : W32)
  /-- PADDOCK_CREATE (R177). The CREATE act, through object 0x4010:02 or TK_PCMD, draws and seals a paddock master key at a new generation. -/
  | paddockCreate (paddock cred : Nat)
  /-- PADDOCK_DELETE (R177). The DELETE act advances the generation, destroys the master key and makes the paddock DELETING. -/
  | paddockDelete (paddock cred : Nat)
  /-- PADDOCK_REVOKE (R177). The REVOKE act advances the paddock's generation. -/
  | paddockRevoke (paddock cred : Nat)
  /-- PADDOCK_ACT_EFFECT (R178). At the first boundary after the new sealed record is durable, the act takes effect and old reins, stalls, Cinches and jobs are revoked. -/
  | paddockActEffect (paddock : Nat)
  /-- PADDOCK_ABSENT (R179). The last entry of a DELETING paddock is reclaimed and the paddock becomes ABSENT. -/
  | paddockAbsent (paddock : Nat)
  /-- TACK_RESERVE (R192). RESERVE issues a handle with an attribute block, and with RANDOM fills it. -/
  | tackReserve (src : Src)
  /-- TACK_INSTALL (R192). INSTALL writes a FILLED tack's envelope and links it as a one-action DURABLE Cinch. -/
  | tackInstall (src : Src)
  /-- TACK_RETIRE (R192). RETIRE retires a tack, durably for a LIVE non-volatile one, and expires its stalls. -/
  | tackRetire (src : Src)
  /-- TACK_RESTRICT (R193). RESTRICT durably narrows a LIVE tack's attributes. -/
  | tackRestrict (src : Src)
  /-- TACK_PIN (R192). PIN sets or clears a tack's PINNED flag. -/
  | tackPin (src : Src)
  /-- TACK_DESCRIBE (R192). DESCRIBE writes a tack's attributes, state, residency and usage count. -/
  | tackDescribe (src : Src)
  /-- TACK_COMMAND_COMPLETE (R192). A tack custody command completes, in k + 1 or after durability, and its result is written. -/
  | tackCommandComplete (src : Src)
  /-- RESERVATION_EXPIRY (R191). A RESERVED or FILLED tack not made LIVE within TK_RSV_TO strides is released with its material wiped. -/
  | reservationExpiry (handle : Nat)
  /-- TACK_FETCH_COMPLETE (R196). A fetch from the tack vault ends, and the tack is unwrapped into the cache or the waiting job ends MEDIA_ERROR. -/
  | tackFetchComplete (handle outcome : Nat)
  /-- LEASE_DURABLE (R198). A new usage bound becomes durable and the uses waiting on it are admitted. -/
  | leaseDurable (handle : Nat)
  /-- TK_MINT_READ (R204). A read of TK_MINT by a core returns a tagged key rein, or an untagged zero rein. -/
  | tkMintRead (core kd : Nat)
  /-- TK_QUOTA_WRITE (R204). A write of TK_QUOTA or TK_VQUOTA takes effect at once, or it is refused. -/
  | tkQuotaWrite (core : Nat) (vault : Bool) (val : W32)
  /-- QUORUM_SPLIT (R200). The SPLIT act draws the saddlebag key and writes its shares to all custodians. -/
  | quorumSplit (cred m n : Nat) (dest : ShareTargets)
  /-- QUORUM_BACKUP (R202). The BACKUP act writes a backup image to a saddlebag card and commits it by its generation record. -/
  | quorumBackup (cred slot : Nat) (paddocks : List Byte) (record : List Byte) (card : CardAnswer)
  /-- QUORUM_JOIN (R200). The JOIN act rebuilds and seals the saddlebag key from a quorum. -/
  | quorumJoin (cred m n : Nat) (expects : ExpectedKey)
  /-- QUORUM_RESPLIT (R200). The RESPLIT act writes new shares under a new m and n. -/
  | quorumResplit (cred : Nat) (scheme : ShareScheme) (dest : ShareTargets)
  /-- QUORUM_RESTORE (R203). The RESTORE act reads back a backup image under a quorum. -/
  | quorumRestore (cred : Nat) (scheme : ShareScheme) (addr : Nat) (enrol : List Custodian) (record image : List Byte)
  /-- QUORUM_SHARE_RECEIVED (R201). A custodian share is unwrapped and accepted, ignored or discarded within the session. -/
  | quorumShareReceived (place custodian : Nat) (wrapped : List Byte)
  /-- QUORUM_WINDOW_END (R201). The quorum session window ends, and shares and the rebuilt key are wiped. -/
  | quorumWindowEnd
  /-- SQ_DOORBELL (R216). A write of an SQ tail doorbell is acted on in the next stride, or raises a doorbell fault. -/
  | sqDoorbell (fn q : Nat) (val : W32)
  /-- CQ_DOORBELL (R212). A write of a CQ head doorbell frees CQ slots, or raises a doorbell fault. -/
  | cqDoorbell (fn q : Nat) (val : W32)
  /-- QUEUE_CREATE (R211). CQ_QCMD CREATE makes an ABSENT queue ACTIVE at the next boundary, or is refused. -/
  | queueCreate (fn : Nat)
  /-- QUEUE_DELETE (R211). CQ_QCMD DELETE moves a queue to DRAINING and then ABSENT. -/
  | queueDelete (fn : Nat)
  /-- QUEUE_RESET (R211). CQ_QCMD RESET moves an ERROR queue to DRAINING and then ACTIVE. -/
  | queueReset (fn : Nat)
  /-- QUEUE_DRAINED (R211). The last admitted job of a DRAINING queue completes and the queue becomes ABSENT or ACTIVE. -/
  | queueDrained (fn q : Nat)
  /-- DESCRIPTOR_ARRIVAL (R216). The bytes of a fetched descriptor arrive, or the read fails. -/
  | descriptorArrival (fn q fail : Nat)
  /-- DESCRIPTOR_ADMIT (R220). A descriptor is admitted once its allowance, CQ room, FENCE and FIFO conditions hold, and it is checked and handed to its class. -/
  | descriptorAdmit (fn q : Nat)
  /-- CONTROL_NOP (R225). A CONTROL NOP completes OK with EFFECT 0. -/
  | controlNop (fn q seq : Nat)
  /-- CONTROL_CANCEL (R225). A CONTROL CANCEL cancels a target descriptor, job or firmware entry. -/
  | controlCancel (fn q seq : Nat)
  /-- NOTIFY_COMPLETION (R221). In the stride after an ST_EXPQ push, a NOTIFY completion is written to the paddock's event queue or dropped. -/
  | notifyCompletion
  /-- MSIX_MESSAGE (R222). An MSI-X message for a CQ is sent as its coalescing period allows. -/
  | msixMessage (fn q : Nat)
  /-- MSIX_UNMASK (R222). A masked vector is unmasked and sends its pending message once. -/
  | msixUnmask (fn v : Nat) (mask : Bool)
  /-- FUNCTION_LEVEL_RESET (R207). A Function Level Reset of one function is requested. -/
  | functionLevelReset (fn : Nat)
  /-- HOT_RESET (R207). A PCIe hot reset is received and resets every function. -/
  | hotReset
  /-- PCIE_LINK_DOWN (R207). The PCIe link leaves L0, resetting every function. -/
  | pcieLinkDown
  /-- PERST (R486). PERST_N is asserted, retraining the link during boot or resetting every function after it. -/
  | perst
  /-- FUNCTION_RESET_EFFECT (R207). At the first boundary after a reset request, the function's queues, jobs and firmware entries are withdrawn. -/
  | functionResetEffect (fn : Nat)
  /-- FUNCTION_RESET_READY (R207). Ten strides after the reset boundary, the function accepts configuration and BAR0 writes again. -/
  | functionResetReady (fn : Nat)
  /-- PCIE_CONFIG_REQUEST (R486). A configuration request is answered, with Retry Status until boot step 3 is complete. -/
  | pcieConfigRequest (access : ConfigAccess)
  /-- CQ_ALLOT_WRITE (R228). A write of CQ_ALLOT or CQ_ADM stages a function's allotments for its next reset, or it is refused. -/
  | cqAllotWrite (core : Nat) (adm : Bool) (val : W32)
  /-- FW_TAKE (R223). A write of TAKE in CQ_FW takes the firmware FIFO's head entry into the lowest free slot. -/
  | fwTake (core : Nat)
  /-- FW_POST (R223). A write of POST posts RESULT for a holding slot and frees the slot. -/
  | fwPost (core slot : Nat)
  /-- FIRMWARE_RESULT_COMPLETION (R223). In the stride after a POST, the FIRMWARE completion is written. -/
  | firmwareResultCompletion
  /-- FRAME_RECEIVED (R230). A frame ends on an inline sub-port and its FCS is checked. -/
  | frameReceived (pair sub : Nat) (outbound : Bool) (bytes : List Byte) (fcsOk : Bool)
  /-- FRAME_HANDOFF (R240). At the first boundary after its FCS check, a frame is classified, judged, placed and given its verdict. -/
  | frameHandoff (faults : List HwFault)
  /-- PAUSE_REPEAT (R243). While a buffer stays above XOFF, PAUSE is repeated every 40 or 160 strides. -/
  | pauseRepeat (pair : Nat) (outbound : Bool)
  /-- PAUSE_RECEIVED (R243). A PAUSE frame is received and halts the egress sub-port. -/
  | pauseReceived (pair sub : Nat) (outbound : Bool) (quanta : Nat)
  /-- FRAME_EGRESS (R242). A forwarded frame leaves its egress sub-port, or is dropped as TAIL, and its buffer is zeroed. -/
  | frameEgress (pair sub : Nat) (outbound : Bool)
  /-- PORT_LINK_CHANGE (R229). An inline sub-port link goes up or down. -/
  | portLinkChange (pair : Nat) (system : Bool) (sub : Nat) (up : Bool)
  /-- IL_PORTCFG_WRITE (R230). A write of IL_PORTCFG enables a pair or changes its policy or breakout. -/
  | ilPortcfgWrite (core pair : Nat) (val : W32)
  /-- LD8 (R258). Loads a zero-extended byte through a rein. -/
  | ld8 (core : Nat) (r : BitVec 6) (k : BitVec 4) (a : BitVec 6) (imm : BitVec 9)
  /-- LD16 (R258). Loads zero-extended 16 bits through a rein. -/
  | ld16 (core : Nat) (r : BitVec 6) (k : BitVec 4) (a : BitVec 6) (imm : BitVec 9)
  /-- LD32 (R258). Loads zero-extended 32 bits through a rein. -/
  | ld32 (core : Nat) (r : BitVec 6) (k : BitVec 4) (a : BitVec 6) (imm : BitVec 9)
  /-- LD64 (R258). Loads 64 bits through a rein. -/
  | ld64 (core : Nat) (r : BitVec 6) (k : BitVec 4) (a : BitVec 6) (imm : BitVec 9)
  /-- LDS8 (R258). Loads a sign-extended byte. -/
  | lds8 (core : Nat) (r : BitVec 6) (k : BitVec 4) (a : BitVec 6) (imm : BitVec 9)
  /-- LDS16 (R258). Loads sign-extended 16 bits. -/
  | lds16 (core : Nat) (r : BitVec 6) (k : BitVec 4) (a : BitVec 6) (imm : BitVec 9)
  /-- LDS32 (R258). Loads sign-extended 32 bits. -/
  | lds32 (core : Nat) (r : BitVec 6) (k : BitVec 4) (a : BitVec 6) (imm : BitVec 9)
  /-- ST8 (R258). Stores a byte into the write buffer. -/
  | st8 (core : Nat) (r : BitVec 6) (k : BitVec 4) (a : BitVec 6) (imm : BitVec 9)
  /-- ST16 (R258). Stores 16 bits into the write buffer. -/
  | st16 (core : Nat) (r : BitVec 6) (k : BitVec 4) (a : BitVec 6) (imm : BitVec 9)
  /-- ST32 (R258). Stores 32 bits into the write buffer. -/
  | st32 (core : Nat) (r : BitVec 6) (k : BitVec 4) (a : BitVec 6) (imm : BitVec 9)
  /-- ST64 (R258). Stores 64 bits into the write buffer. -/
  | st64 (core : Nat) (r : BitVec 6) (k : BitVec 4) (a : BitVec 6) (imm : BitVec 9)
  /-- STORE_PERFORMED (R256). A buffered store is performed against the configuration then in force, and may raise an imprecise fault. -/
  | storePerformed (core : Nat)
  /-- KLD (R258). Loads a 16-byte rein with its granule tag. -/
  | kld (core : Nat) (r : BitVec 6) (k : BitVec 4) (a : BitVec 6) (imm : BitVec 9)
  /-- KST (R258). Stores a rein and sets the granule tag. -/
  | kst (core : Nat) (r : BitVec 6) (k : BitVec 4) (a : BitVec 6) (imm : BitVec 9)
  /-- ADD (R259). Adds two registers. -/
  | opAdd (core : Nat) (d a b : BitVec 6)
  /-- SUB (R259). Subtracts two registers. -/
  | opSub (core : Nat) (d a b : BitVec 6)
  /-- AND (R259). Bitwise AND. -/
  | opAnd (core : Nat) (d a b : BitVec 6)
  /-- OR (R259). Bitwise OR. -/
  | opOr (core : Nat) (d a b : BitVec 6)
  /-- XOR (R259). Bitwise XOR. -/
  | opXor (core : Nat) (d a b : BitVec 6)
  /-- ANDN (R259). AND with the complement. -/
  | andn (core : Nat) (d a b : BitVec 6)
  /-- SHL (R259). Shifts left. -/
  | shl (core : Nat) (d a b : BitVec 6)
  /-- SHR (R259). Shifts right, logical. -/
  | shr (core : Nat) (d a b : BitVec 6)
  /-- SAR (R259). Shifts right, arithmetic. -/
  | sar (core : Nat) (d a b : BitVec 6)
  /-- ROL (R259). Rotates left. -/
  | rol (core : Nat) (d a b : BitVec 6)
  /-- ROR (R259). Rotates right. -/
  | ror (core : Nat) (d a b : BitVec 6)
  /-- MIN (R259). Signed minimum. -/
  | opMin (core : Nat) (d a b : BitVec 6)
  /-- MAX (R259). Signed maximum. -/
  | opMax (core : Nat) (d a b : BitVec 6)
  /-- MINU (R259). Unsigned minimum. -/
  | minu (core : Nat) (d a b : BitVec 6)
  /-- MAXU (R259). Unsigned maximum. -/
  | maxu (core : Nat) (d a b : BitVec 6)
  /-- CLZ (R259). Counts leading zero bits. -/
  | clz (core : Nat) (d a b : BitVec 6)
  /-- POPC (R259). Counts set bits. -/
  | popc (core : Nat) (d a b : BitVec 6)
  /-- BSWAP (R259). Reverses byte order. -/
  | bswap (core : Nat) (d a b : BitVec 6)
  /-- MUL (R260). Low 64 bits of a product. -/
  | mul (core : Nat) (d a b : BitVec 6)
  /-- MULH (R260). High 64 bits of a signed product. -/
  | mulh (core : Nat) (d a b : BitVec 6)
  /-- MULHU (R260). High 64 bits of an unsigned product. -/
  | mulhu (core : Nat) (d a b : BitVec 6)
  /-- DIV (R260). Signed quotient, with cause 0x0B for a zero divisor. -/
  | div (core : Nat) (d a b : BitVec 6)
  /-- DIVU (R260). Unsigned quotient. -/
  | divu (core : Nat) (d a b : BitVec 6)
  /-- REM (R260). Signed remainder. -/
  | rem (core : Nat) (d a b : BitVec 6)
  /-- REMU (R260). Unsigned remainder. -/
  | remu (core : Nat) (d a b : BitVec 6)
  /-- CEQ (R261). Writes 1 if the registers are equal. -/
  | ceq (core : Nat) (d a b : BitVec 6)
  /-- CNE (R261). Writes 1 if the registers differ. -/
  | cne (core : Nat) (d a b : BitVec 6)
  /-- CLT (R261). Signed less-than compare. -/
  | clt (core : Nat) (d a b : BitVec 6)
  /-- CLTU (R261). Unsigned less-than compare. -/
  | cltu (core : Nat) (d a b : BitVec 6)
  /-- CLE (R261). Signed less-or-equal compare. -/
  | cle (core : Nat) (d a b : BitVec 6)
  /-- CLEU (R261). Unsigned less-or-equal compare. -/
  | cleu (core : Nat) (d a b : BitVec 6)
  /-- ADDI (R262). Adds a sign-extended immediate. -/
  | addi (core : Nat) (d a : BitVec 6) (imm : BitVec 13)
  /-- ANDI (R262). ANDs a zero-extended immediate. -/
  | andi (core : Nat) (d a : BitVec 6) (imm : BitVec 13)
  /-- ORI (R262). ORs a zero-extended immediate. -/
  | ori (core : Nat) (d a : BitVec 6) (imm : BitVec 13)
  /-- XORI (R262). XORs a zero-extended immediate. -/
  | xori (core : Nat) (d a : BitVec 6) (imm : BitVec 13)
  /-- SHLI (R262). Shifts left by an immediate. -/
  | shli (core : Nat) (d a : BitVec 6) (imm : BitVec 13)
  /-- SHRI (R262). Shifts right, logical, by an immediate. -/
  | shri (core : Nat) (d a : BitVec 6) (imm : BitVec 13)
  /-- SARI (R262). Shifts right, arithmetic, by an immediate. -/
  | sari (core : Nat) (d a : BitVec 6) (imm : BitVec 13)
  /-- CEQI (R262). Compares for equality with an immediate. -/
  | ceqi (core : Nat) (d a : BitVec 6) (imm : BitVec 13)
  /-- CNEI (R262). Compares for inequality with an immediate. -/
  | cnei (core : Nat) (d a : BitVec 6) (imm : BitVec 13)
  /-- CLTI (R262). Signed less-than compare with an immediate. -/
  | clti (core : Nat) (d a : BitVec 6) (imm : BitVec 13)
  /-- CLTUI (R262). Unsigned less-than compare with an immediate. -/
  | cltui (core : Nat) (d a : BitVec 6) (imm : BitVec 13)
  /-- CLEI (R262). Signed less-or-equal compare with an immediate. -/
  | clei (core : Nat) (d a : BitVec 6) (imm : BitVec 13)
  /-- CLEUI (R262). Unsigned less-or-equal compare with an immediate. -/
  | cleui (core : Nat) (d a : BitVec 6) (imm : BitVec 13)
  /-- LUI (R262). Loads a shifted upper immediate. -/
  | lui (core : Nat) (a : BitVec 6) (imm : BitVec 19)
  /-- BZ (R263). Branches if the register is zero. -/
  | bz (core : Nat) (a : BitVec 6) (imm : BitVec 19)
  /-- BNZ (R263). Branches if the register is non-zero. -/
  | bnz (core : Nat) (a : BitVec 6) (imm : BitVec 19)
  /-- LOOP (R266). Arms a hardware loop body. -/
  | loop (core : Nat) (a : BitVec 6) (imm : BitVec 19)
  /-- JMP (R263). Jumps PC-relative. -/
  | jmp (core : Nat) (disp : BitVec 25)
  /-- CALL (R263). Pushes a RETURN entry and jumps. -/
  | call (core : Nat) (disp : BitVec 25)
  /-- RET (R264). Pops a RETURN entry and returns, refilling when needed. -/
  | ret (core : Nat) (d a b : BitVec 6)
  /-- JMPR (R263). Jumps through a code rein, replacing K14. -/
  | jmpr (core : Nat) (d a b : BitVec 6)
  /-- TRAP (R263). Raises cause 0x10 with service number n. -/
  | trap (core : Nat) (d a b : BitVec 6)
  /-- BRK (R263). Raises cause 0x11 as a breakpoint. -/
  | brk (core : Nat) (d a b : BitVec 6)
  /-- WRET (R299). Pops a FRAME entry and restores the interrupted context. -/
  | wret (core : Nat) (d a b : BitVec 6)
  /-- PUSH (R265). Pushes a register on the data stack. -/
  | push (core : Nat) (d a b : BitVec 6)
  /-- POP (R265). Pops a register from the data stack. -/
  | pop (core : Nat) (d a b : BitVec 6)
  /-- SYNC (R256). Waits until every earlier store is performed. -/
  | sync (core : Nat) (d a b : BitVec 6)
  /-- WAIT (R263). Halts issue until an interrupt source of the core is pending. -/
  | wait (core : Nat) (d a b : BitVec 6)
  /-- MFS (R252). Reads a special register. -/
  | mfs (core : Nat) (d a : BitVec 6) (imm : BitVec 13)
  /-- MTS (R252). Writes a special register. -/
  | mts (core : Nat) (d a : BitVec 6) (imm : BitVec 13)
  /-- KMOV (R268). Copies a rein with its tag. -/
  | kmov (core : Nat) (d a b : BitVec 6)
  /-- KBOUND (R268). Narrows a rein's base and length. -/
  | kbound (core : Nat) (d a b : BitVec 6)
  /-- KPERM (R268). Narrows a rein's permissions. -/
  | kperm (core : Nat) (d a b : BitVec 6)
  /-- KBASE (R268). Reads a rein's base. -/
  | kbase (core : Nat) (d a b : BitVec 6)
  /-- KLEN (R268). Reads a rein's length. -/
  | klen (core : Nat) (d a b : BitVec 6)
  /-- KINFO (R268). Reads a rein's tag and header bits. -/
  | kinfo (core : Nat) (d a b : BitVec 6)
  /-- KCLR (R268). Clears a rein register. -/
  | kclr (core : Nat) (d a b : BitVec 6)
  /-- KSEAL (R283). Seals a rein under another. -/
  | kseal (core : Nat) (d a b : BitVec 6)
  /-- KUNSEAL (R283). Unseals a rein under another. -/
  | kunseal (core : Nat) (d a b : BitVec 6)
  /-- ENTER (R288). Passes through a sealed paddock door into that paddock's code. -/
  | enter (core : Nat) (d a b : BitVec 6)
  /-- MOVB (R269). Copies SCNT bytes between rein-relative spans. -/
  | movb (core : Nat) (d a b : BitVec 6)
  /-- CMPB (R269). Compares two spans to the first difference. -/
  | cmpb (core : Nat) (d a b : BitVec 6)
  /-- SCANB (R269). Scans a span for a byte. -/
  | scanb (core : Nat) (d a b : BitVec 6)
  /-- FILLB (R269). Fills a span with a byte. -/
  | fillb (core : Nat) (d a b : BitVec 6)
  /-- XORB (R269). XORs a source span into a destination span. -/
  | xorb (core : Nat) (d a b : BitVec 6)
  /-- CRCB (R355). Feeds a span into the accumulator of a CVU. -/
  | crcb (core : Nat) (d a b : BitVec 6)
  /-- DADD (R275). Adds packed decimal digits. -/
  | dadd (core : Nat) (d a b : BitVec 6)
  /-- DSUB (R275). Subtracts packed decimal digits. -/
  | dsub (core : Nat) (d a b : BitVec 6)
  /-- DCRY_A (R275). Returns the carry out of a decimal addition. -/
  | dcryA (core : Nat) (d a b : BitVec 6)
  /-- DCRY_S (R275). Returns the borrow out of a decimal subtraction. -/
  | dcryS (core : Nat) (d a b : BitVec 6)
  /-- DADDM (R275). Adds decimal digits modulo 10 without carry. -/
  | daddm (core : Nat) (d a b : BitVec 6)
  /-- DADJ (R275). Reduces invalid nibbles by 10. -/
  | dadj (core : Nat) (d a b : BitVec 6)
  /-- DVAL (R275). Tests that every nibble is a digit. -/
  | dval (core : Nat) (d a b : BitVec 6)
  /-- DDEC (R275). Decimalises nibbles through a table. -/
  | ddec (core : Nat) (d a b : BitVec 6)
  /-- DCVB (R275). Converts packed decimal to binary. -/
  | dcvb (core : Nat) (d a b : BitVec 6)
  /-- DCVD (R275). Converts binary to packed decimal. -/
  | dcvd (core : Nat) (d a b : BitVec 6)
  /-- DSHL (R275). Shifts digits left. -/
  | dshl (core : Nat) (d a b : BitVec 6)
  /-- DSHR (R275). Shifts digits right. -/
  | dshr (core : Nat) (d a b : BitVec 6)
  /-- INTERRUPT_TAKEN (R292). At an instruction boundary with MASK clear, the lowest pending enabled interrupt is taken. -/
  | interruptTaken (core : Nat) (monitor : Bool)
  /-- IMPRECISE_FAULT_TAKEN (R292). An imprecise Bridle write fault that has arrived is taken at the next boundary, whatever MASK is. -/
  | impreciseFaultTaken (core : Nat)
  /-- TIMER_EXPIRY (R293). The stride named by a core's TIMER begins and PEND bit 8 is set. -/
  | timerExpiry (core : Nat)
  /-- MASK_BUDGET_EXCEEDED (R294). A core holds MASK past PC_MASKBUD cycles with an interrupt pending and is fenced. -/
  | maskBudgetExceeded (core cycles : Nat)
  /-- PC_FENCE_WRITE (R305). A write of PC_FENCE with the right key fences a core with reason REQUEST. -/
  | pcFenceWrite (core : Nat) (val : W32)
  /-- WARDEN_MESSAGE (R306). A write of WMSG sets PEND bit 9 on the target core, or is refused. -/
  | wardenMessage (core target : Nat) (val : W32)
  /-- SPILL_WRITE (R300). A write of the spill rein is accepted or dropped. -/
  | spillWrite (core target : Nat) (tag : Bool) (bits : W128)
  /-- RETURN_STACK_CLEAR (R300). A write of RSTAT.CLEAR empties the return stack. -/
  | returnStackClear (core target : Nat)
  /-- MONITOR_YIELD (R303). TRAP 0x00 releases the rest of the stride's slot. -/
  | monitorYield (core : Nat)
  /-- MONITOR_RESUME (R303). TRAP 0x01 returns from a door handler to the interrupted context. -/
  | monitorResume (core : Nat)
  /-- MONITOR_DOORS (R303). TRAP 0x02 registers the fault and event doors. -/
  | monitorDoors (core : Nat)
  /-- MONITOR_SEND (R303). TRAP 0x03 posts a message to the core that a queue rein names. -/
  | monitorSend (core : Nat)
  /-- MONITOR_KEYREIN (R303). TRAP 0x04 mints a key rein into K0. -/
  | monitorKeyrein (core : Nat)
  /-- REGION_WRITE (R317). A 64-bit write of BR_RGN sets a region, or is refused. -/
  | regionWrite (warden : Bool) (unit rgn width : Nat) (val : W64)
  /-- NOR_PROGRAM_DONE (R318). A NOR word program ends after its pulse and verify loops. -/
  | norProgramDone (addr : Nat) (val : W64) (ecc : Bool) (loops : Nat)
  /-- NOR_ERASE_DONE (R318). A NOR sector erase ends after its pulse and verify loops. -/
  | norEraseDone (sector loops : Nat)
  /-- NAND_PROGRAM_DONE (R337). A NAND segment or page program ends, closing a wordline after its upper page. -/
  | nandProgramDone (pca : Nat) (data : List Byte) (loops : Nat) (failed : Bool) (slot : Option Nat)
  /-- NAND_ERASE_DONE (R330). A NAND block erase ends and its mode is set. -/
  | nandEraseDone (stack blk : Nat) (slc : Bool) (loops : Nat) (failed : Bool)
  /-- NAND_READ_DONE (R334). A NAND read decodes and checks its unit, rebuilding it from parity when needed. -/
  | nandReadDone (pca corrected : Nat) (ok rebuilt erasing : Bool)
  /-- STAGE_MIGRATION (R336). Farrier migrates staged writes from the SLC region into the data role in the background. -/
  | stageMigration (index : Nat) (entry : Bool)
  /-- STACK_LOST (R345). A NAND stack fails whole, and the stores continue without it and rebuild stripes. -/
  | stackLost (stack : Nat) (rewritten : Bool)
  /-- RAW_READ (R340). A Warden read of FV_RAW_DATA returns the selected cells uncorrected. -/
  | rawRead (core rd : Nat)
  /-- CVU_CONFIG (R357). CONFIG loads a CVU's parameters and sets the accumulator to INIT. -/
  | cvuConfig (core : Nat)
  /-- CVU_RESET (R357). RESET sets the accumulator to INIT and feeds the fold. -/
  | cvuReset (core : Nat)
  /-- CVU_READ (R357). READ returns r from the accumulator. -/
  | cvuRead (core : Nat) (mismatch : Bool)
  /-- SCAN_GEN (R357). SCAN_GEN computes a check value over memory and writes it after the data. -/
  | scanGen (core : Nat)
  /-- SCAN_CHECK (R357). SCAN_CHECK computes a check value over memory and compares it with the stored one. -/
  | scanCheck (core : Nat)
  /-- CVU_REQUEST_COMPLETE (R360). A CVU window request or scan completes and its result is written. -/
  | cvuRequestComplete (core : Nat)
  /-- CV_OWN_WRITE (R353). A write of CV_OWN assigns a unit, aborts its scan and resets it to CRC-32C. -/
  | cvOwnWrite (core unit : Nat) (val : W32)
  /-- MC_DETECT_CHANGE (R366). MCn_DET changes level. -/
  | mcDetectChange (slot : Nat) (level : Bool)
  /-- MC_INSERT (R366). DET holds present for 10,000 strides, and the slot powers and starts initialising the card. -/
  | mcInsert (slot : Nat)
  /-- MC_INIT_COMPLETE (R366). Card initialisation ends, and the card becomes READY or is rejected. -/
  | mcInitComplete (slot : Nat) (card : CardInfo)
  /-- MC_REMOVE (R366). At the first boundary where DET shows absent, the card is powered off and its exchange ends. -/
  | mcRemove (slot : Nat)
  /-- MC_BUSY_TIMEOUT (R370). Busy outlasts BUSYTO and the card is power-cycled. -/
  | mcBusyTimeout (slot : Nat)
  /-- MC_READ (R378). The monitor reads user-area blocks from a saddlebag card. -/
  | mcRead (slot : Nat)
  /-- MC_WRITE (R378). The monitor writes user-area blocks to a saddlebag card. -/
  | mcWrite (slot : Nat)
  /-- RPMB_COUNTER (R378). The monitor reads a card's RPMB write counter. -/
  | rpmbCounter (slot : Nat)
  /-- RPMB_READ (R378). The monitor reads an RPMB half-sector with a fresh nonce. -/
  | rpmbRead (slot : Nat)
  /-- RPMB_KEYPROG (R369). The monitor programs the RPMB authentication key into a blank card. -/
  | rpmbKeyprog (slot : Nat)
  /-- SC_ACTIVATE (R374). ACTIVATE powers a contact card and receives its ATR. -/
  | scActivate (iface : Nat)
  /-- SC_APDU (R378). APDU exchanges one APDU with the active contact card. -/
  | scApdu (iface : Nat)
  /-- SC_DEACTIVATE (R378). DEACTIVATE deactivates the contact card. -/
  | scDeactivate (iface : Nat)
  /-- SC_INSERT (R376). SCn_DET holds present through its debounce and a contact card is inserted. -/
  | scInsert (iface : Nat)
  /-- SC_REMOVE (R376). A contact card is removed and the interface deactivates within one stride. -/
  | scRemove (iface : Nat)
  /-- SC_RESPONSE_TIMEOUT (R375). A contact card's response time passes, the exchange ends and the card is deactivated. -/
  | scResponseTimeout (iface : Nat)
  /-- CARD_EXCHANGE_COMPLETE (R380). A card exchange window's exchange ends and its result is written. -/
  | cardExchangeComplete (slot : Nat) (answer : ExAnswer)
  /-- CS_MEASURE (R385). Every PERIOD ms the capacitance at NF_CSENSE is measured, and a wake runs a poll. -/
  | csMeasure (level baseline : Nat) (field : ExAnswer)
  /-- NF_POLL (R392). POLL turns the carrier on, enumerates tokens and turns it off. -/
  | nfPoll
  /-- NF_ACTIVATE (R387). ACTIVATE selects and activates the named token. -/
  | nfActivate
  /-- NF_APDU (R392). APDU exchanges one APDU with the active token. -/
  | nfApdu
  /-- NF_DEACTIVATE (R392). DEACTIVATE sends S(DESELECT) and turns the carrier off. -/
  | nfDeactivate
  /-- FIELD_COLLAPSE (R389). The carrier or load moves past its threshold, or the driver faults, and the exchange is abandoned. -/
  | fieldCollapse (driver : Bool)
  /-- NF_RESPONSE_TIMEOUT (R387). FWT or NF_TO passes without a token response. -/
  | nfResponseTimeout
  /-- FIELD_RESET_END (R384). The 10 ms carrier-off period ends. -/
  | fieldResetEnd
  /-- NF_EXCHANGE_COMPLETE (R393). A contactless exchange window's exchange ends and its result is written. -/
  | nfExchangeComplete (answer : ExAnswer)
  /-- WITNESS_WAKE (R394). An external field wakes the witness logic on the cell. -/
  | witnessWake
  /-- WITNESS_REQA (R394). The witness answers REQA or WUPA with its ATQA and begins a session. -/
  | witnessReqa
  /-- WITNESS_ANTICOLLISION (R394). The witness answers anticollision and SELECT with its UID and SAK. -/
  | witnessAnticollision (level : Nat)
  /-- WITNESS_RATS (R394). The witness answers RATS with its ATS. -/
  | witnessRats
  /-- WITNESS_SELECT (R395). A SELECT APDU makes the witness file current. -/
  | witnessSelect (apdu : List Byte)
  /-- WITNESS_READ_BINARY (R395). READ BINARY returns bytes of the witness file. -/
  | witnessReadBinary (apdu : List Byte)
  /-- WITNESS_SESSION_END (R398). A witness session ends at field loss, S(DESELECT) or HLTA. -/
  | witnessSessionEnd
  /-- WITNESS_SESSION_TIMEOUT (R398). A witness session ends 500 ms after it began. -/
  | witnessSessionTimeout
  /-- WITNESS_DAY_WINDOW (R398). A new day window of the backup counter begins and the session count restarts. -/
  | witnessDayWindow
  /-- TAMPER_EVAL_TICK (R411). An evaluation tick samples the sensors and executes the most severe response among new alarms. -/
  | tamperEvalTick (mask vbat : Nat)
  /-- SENSOR_REARM (R404). A sensor's condition has been absent for 1 s and it is re-armed. -/
  | sensorRearm (sensor : Nat)
  /-- SHED_BOUNDARY (R407). At the first boundary after detection, engines stop, scramble keys are replaced and wiping begins. -/
  | shedBoundary
  /-- SHED_WIPE_COMPLETE (R407). Sixty-four strides after the SHED boundary, wiping is complete and waiting work runs. -/
  | shedWipeComplete
  /-- SHED_RELOAD_COMPLETE (R407). Every Pacer is tested, reloaded and entered, and OD_CTRL.READY is set again. -/
  | shedReloadComplete
  /-- BIST_DAILY (R415). The TAI hour in TM_BIST.HOUR begins and a BIST run starts. -/
  | bistDaily (outcomes : Nat)
  /-- BIST_NOW (R415). A write of TM_BIST.NOW or of object 0x8001:00 starts a BIST run. -/
  | bistNow (outcomes : Nat)
  /-- TM_RESP_WRITE (R406). A write of TM_RESP or object 0x8010 sets a sensor's response and mode before the lock, or is refused. -/
  | tmRespWrite (core : Option Nat) (sensor : Nat) (val : W32)
  /-- TAMPER_LOCK (R406). A write of 0x5A to TM_LOCK copies the responses into OTP and locks them. -/
  | tamperLock (core : Nat) (val : W32)
  /-- TRANSITION_TO_TEST (R419). A request for BLANK to TEST is checked and starts fuse programming. -/
  | transitionToTest
  /-- TRANSITION_TO_CUSTODY (R419). A request for TEST to CUSTODY draws the keep key and starts fuse programming. -/
  | transitionToCustody
  /-- TRANSITION_TO_FIELD (R419). An officer's request for CUSTODY to FIELD is checked and starts fuse programming. -/
  | transitionToField
  /-- TRANSITION_TO_RETURN (R419). An officer's request for FIELD to RETURN runs ZERO and starts fuse programming. -/
  | transitionToReturn
  /-- TRANSITION_TO_SCRAP (R419). A request for SCRAP runs SHED or ZERO and starts fuse programming. -/
  | transitionToScrap (jtag : Bool)
  /-- TRANSITION_COMPLETE (R421). The three life-cycle copies are programmed and the transition completes. -/
  | transitionComplete
  /-- TAP_BYPASS (R423). The TAP selects BYPASS. -/
  | tapBypass
  /-- TAP_IDCODE (R423). The TAP selects IDCODE. -/
  | tapIdcode
  /-- TAP_SAMPLE_PRELOAD (R423). The TAP selects SAMPLE/PRELOAD. -/
  | tapSamplePreload
  /-- TAP_EXTEST (R424). The TAP selects EXTEST, causing a SHED first in CUSTODY and FIELD. -/
  | tapExtest
  /-- TAP_CLAMP (R424). The TAP selects CLAMP, causing a SHED first in CUSTODY and FIELD. -/
  | tapClamp
  /-- TAP_HIGHZ (R424). The TAP selects HIGHZ, causing a SHED first in CUSTODY and FIELD. -/
  | tapHighz
  /-- BSCAN_EFFECT (R424). A boundary-scan instruction takes effect at the first boundary after its SHED completes. -/
  | bscanEffect
  /-- TAP_MAILBOX (R423). The TAP selects the mailbox register. -/
  | tapMailbox
  /-- TAP_DAP (R423). The TAP selects the debug access port. -/
  | tapDap
  /-- TEST_LOGIC_RESET (R423). TRST_N low or Test-Logic-Reset selects IDCODE and ends a JTAG-delivered session. -/
  | testLogicReset
  /-- MAILBOX_NONCE (R425). The mailbox NONCE request draws a new debug nonce. -/
  | mailboxNonce
  /-- MAILBOX_PRESENT (R425). The mailbox PRESENT request presents a debug certificate. -/
  | mailboxPresent (cert : List Byte)
  /-- MAILBOX_END (R425). The mailbox END request ends the open session. -/
  | mailboxEnd
  /-- MAILBOX_STATUS (R425). The mailbox STATUS request returns LC_STAT and LC_DBGSTAT. -/
  | mailboxStatus
  /-- MAILBOX_FWKEY (R425). The mailbox FWKEY request writes the owner firmware key hash to OTP once. -/
  | mailboxFwkey (hash : List Byte)
  /-- NONCE_READ (R427). A read of LC_NONCE or object 0x1011:00 draws and returns a new nonce. -/
  | nonceRead
  /-- CERTIFICATE_PRESENT (R428). A write of object 0x1012:00 presents a debug certificate, which consumes the nonce and starts verification. -/
  | certificatePresent (cert : List Byte)
  /-- CERT_VERIFY_COMPLETE (R429). Certificate verification completes, and a session opens or the certificate is refused. -/
  | certVerifyComplete
  /-- DEBUG_END_REQUEST (R433). A write of 1 to object 0x1013:00 ends the session. -/
  | debugEndRequest
  /-- DEBUG_SESSION_EXPIRY (R433). The first stride at or after UNTIL ends the session. -/
  | debugSessionExpiry
  /-- OWNER_DEBUG_KEY_ENROL (R426). A write of object 0x1020:00 enrols the owner debug key hash once. -/
  | ownerDebugKeyEnrol (hash : List Byte)
  /-- DAP_ACCESS (R431). A debug read or write through the DAP is checked by unit 39 for the named paddock. -/
  | dapAccess (req : DapReq)
  /-- DEBUG_HALT (R430). A DAP HALT halts a core in the halted paddock's slots. -/
  | debugHalt (core : Nat)
  /-- DEBUG_STEP (R430). A DAP STEP executes one instruction or chunk on a halted core. -/
  | debugStep (core : Nat)
  /-- DEBUG_RESUME (R430). A DAP resume releases a halted core. -/
  | debugResume (core : Nat)
  /-- HELLO (R441). A HELLO opens a management session and is answered with a signed HELLO_REPLY. -/
  | hello (dgram : List Byte) (addr : Nat)
  /-- DICT_READ (R447). A REQUEST READ returns an object's value, with its side effect once. -/
  | dictRead (msg : List Byte)
  /-- DICT_WRITE (R446). A REQUEST WRITE stores a value by its persistence class. -/
  | dictWrite (msg : List Byte)
  /-- DICT_WRITE_APPLY (R446). A written value is applied at the boundary after its record counts as written, and the response is sent. -/
  | dictWriteApply (ok : Bool)
  /-- DICT_DESCRIBE (R445). A REQUEST DESCRIBE returns an object's attribute record. -/
  | dictDescribe (msg : List Byte)
  /-- DICT_SUBSCRIBE (R450). A REQUEST SUBSCRIBE returns the value and starts NOTICE pushes. -/
  | dictSubscribe (msg : List Byte)
  /-- DICT_UNSUBSCRIBE (R447). A REQUEST UNSUBSCRIBE ends a subscription. -/
  | dictUnsubscribe (msg : List Byte)
  /-- SESSION_CLOSE (R443). A CLOSE from the client ends the session. -/
  | sessionClose (msg : List Byte)
  /-- SESSION_IDLE_TIMEOUT (R443). OD_IDLE seconds without an accepted REQUEST close the session. -/
  | sessionIdleTimeout
  /-- CREDENTIAL_WRITE (R438). An officer writes a role credential, or is refused. -/
  | credentialWrite (msg : List Byte)
  /-- ADDRESS_CONFIG_WRITE (R437). A write of 0xB010:00 or 0xB011:00 changes the address after its response and closes bound sessions. -/
  | addressConfigWrite (msg : List Byte)
  /-- ARP_REQUEST (R436). An ARP request on the management port is answered. -/
  | arpRequest (frame : List Byte)
  /-- NEIGHBOR_SOLICITATION (R436). A Neighbor Discovery message on the management port is answered. -/
  | neighborSolicitation (frame : List Byte)
  /-- ICMP_ECHO (R436). An ICMP or ICMPv6 echo request is answered. -/
  | icmpEcho (frame : List Byte)
  /-- MGMT_LINK_CHANGE (R464). The SGMII link of the management port goes up or down. -/
  | mgmtLinkChange (up : Bool)
  /-- LEDGER_PERIOD (R458). The periodic interval of 0xA010:00 ends and the periodic items are queued. -/
  | ledgerPeriod (minutes : List Nat)
  /-- LEDGER_WORD_DRAIN (R460). Queued ledger words are written to NOR as the pace of R328 allows. -/
  | ledgerWordDrain (count : Nat)
  /-- LEDGER_CURSOR_READ (R461). A read of 0xA100:02 returns whole direct events from the cursor and advances it. -/
  | ledgerCursorRead (msg : List Byte)
  /-- FEED_READ (R462). A read of 0xA200:p returns and removes up to 16 of a paddock's feed entries. -/
  | feedRead (msg : List Byte)
  /-- UNIT_REQUEST (R471). A write of a requested unit state acts on the unit or is latched. -/
  | unitRequest (pool unit : Nat) (enabled : Bool)
  /-- UNIT_DRAIN_END (R470). A DRAINING unit's drain ends and it enters WIPING. -/
  | unitDrainEnd (pool unit : Nat)
  /-- FENCED_TO_WIPING (R469). At the next boundary a FENCED unit enters WIPING. -/
  | fencedToWiping (pool unit : Nat)
  /-- UNIT_WIPE_END (R470). A unit's wiping ends and it enters TESTING. -/
  | unitWipeEnd (pool unit : Nat)
  /-- UNIT_TEST_END (R469). A unit's self-test ends and it becomes ACTIVE or IDLE. -/
  | unitTestEnd (pool unit : Nat) (pass : Bool)
  /-- FW_CHUNK (R475). A write of 0x3200:01 writes an image chunk into the target bank. -/
  | fwChunk (chunk : List Byte)
  /-- FW_VERIFY (R475). VERIFY checks the image's signature and IMGSEQ and makes the bank LOADED. -/
  | fwVerify
  /-- FW_SWITCH (R476). SWITCH starts moving each paddock's cores to the target image. -/
  | fwSwitch
  /-- FW_CANCEL (R477). CANCEL moves the paddocks already moved back to the booted bank. -/
  | fwCancel
  /-- FW_CORE_DRAINED (R476). At the end of a slot a paddock holds nothing on the core, so it is reloaded from the target bank. -/
  | fwCoreDrained
  /-- FW_DRAIN_TIMEOUT (R477). A core's drain passes US_FWDRAIN strides and the replacement becomes FAILED. -/
  | fwDrainTimeout
  /-- BROWN_OUT_TRIP (R482). VDD_VAULT or VHOLD trips its brown-out detector and a flush starts. -/
  | brownOutTrip (vhold : Bool)
  /-- FLUSH_COMPLETE (R482). The flush's flash operations end and the device holds itself in reset. -/
  | flushComplete
  /-- BROWN_OUT_RESTART (R483). The rails have stood good for 10 ms and a tripped device restarts from boot step 1. -/
  | brownOutRestart (facts : BootFacts)
  /-- CELL_SWITCH (R484). VDD_VAULT falls below 1.65 V and the backup domain moves to VBAT. -/
  | cellSwitch
  /-- POR_ASSERT (R485). POR_N held low for 10 µs runs the flush and holds the device in reset. -/
  | porAssert
  /-- BOOT_START (R487). POR_N release starts boot, whose steps run in order to open queues. -/
  | bootStart (facts : BootFacts)
  /-- HOLDUP_RECOVERED (R488). VHOLD reaches 11.0 V and the boot step waiting at its first flash write continues. -/
  | holdupRecovered
  /-- LOCKWAIT_EXPIRY (R489). Boot step 6 ends without lock after LOCKWAIT ms. -/
  | lockwaitExpiry
  /-- RAIL_MEASURE (R490). Every 100 µs the rails are measured and excursions are recorded. -/
  | railMeasure (mv : List Nat)
  /-- VDD_VAULT_PRESENT (R481). VDD_VAULT rises past 1.74 V, the backup domain leaves VBAT, and any witness session in progress ends at once. -/
  | vddVaultPresent
  /-- PCIE_LINK_UP (R205). The PCI Express link completes training and enters L0, setting CQ_LINK.UP, RATE, WIDTH and FLIT. -/
  | pcieLinkUp (rate width : Nat) (flit : Bool)
  /-- PAUSE_TIMER_EXPIRY (R243). The pause time of a received PAUSE frame runs out and the halted egress sub-port resumes sending. -/
  | pauseTimerExpiry (pair sub : Nat) (outbound : Bool)
  /-- ENTROPY_HEALTH_RECOVERED (R113). The entropy source passes its health tests again, ENTROPY_OK returns to 1, and secret-using PKE jobs are admitted again. -/
  | entropyHealthRecovered
  /-- STAGE_COUNTER_READ (R141). The card's RPMB write counter and CID read for a CARD_RPMB staging completes, and the STAGE request completes. -/
  | stageCounterRead (core : Nat) (answer : ExAnswer)
  /-- TAMPER_LOCK_COMPLETE (R406). The 2 ms programming of three OTP copies of the responses ends, TM_STAT.LOCKED reads 1, and a held POR_N reset may take hold. -/
  | tamperLockComplete
deriving DecidableEq, Repr

end Sys2Proof
end

