-- ==== Sys2Proof/Decode.lean ====
section
/-! DEFINITION. The Pacer's instruction words (R253, R254): from op and fn to the instruction, and the word of an
instruction. The table of operations and events gives its rows no bits, so the only words a row's command has are these. -/

namespace Sys2Proof

/-- Group 0x01, by `fn` (R259). -/
def decodeAlu (c fn : Nat) (d a b : BitVec 6) : Option Instr :=
  match fn with
  | 0x00 => some (.opAdd c d a b)
  | 0x01 => some (.opSub c d a b)
  | 0x02 => some (.opAnd c d a b)
  | 0x03 => some (.opOr c d a b)
  | 0x04 => some (.opXor c d a b)
  | 0x05 => some (.andn c d a b)
  | 0x06 => some (.shl c d a b)
  | 0x07 => some (.shr c d a b)
  | 0x08 => some (.sar c d a b)
  | 0x09 => some (.rol c d a b)
  | 0x0A => some (.ror c d a b)
  | 0x0B => some (.opMin c d a b)
  | 0x0C => some (.opMax c d a b)
  | 0x0D => some (.minu c d a b)
  | 0x0E => some (.maxu c d a b)
  | 0x10 => some (.clz c d a b)
  | 0x11 => some (.popc c d a b)
  | 0x12 => some (.bswap c d a b)
  | _ => none

/-- Group 0x02, by `fn` (R260). -/
def decodeMulDiv (c fn : Nat) (d a b : BitVec 6) : Option Instr :=
  match fn with
  | 0x00 => some (.mul c d a b)
  | 0x01 => some (.mulh c d a b)
  | 0x02 => some (.mulhu c d a b)
  | 0x03 => some (.div c d a b)
  | 0x04 => some (.divu c d a b)
  | 0x05 => some (.rem c d a b)
  | 0x06 => some (.remu c d a b)
  | _ => none

/-- Group 0x03, by `fn` (R261). -/
def decodeCompare (c fn : Nat) (d a b : BitVec 6) : Option Instr :=
  match fn with
  | 0x00 => some (.ceq c d a b)
  | 0x01 => some (.cne c d a b)
  | 0x02 => some (.clt c d a b)
  | 0x03 => some (.cltu c d a b)
  | 0x04 => some (.cle c d a b)
  | 0x05 => some (.cleu c d a b)
  | _ => none

/-- Group 0x04, by `fn` (R275). -/
def decodeDecimal (c fn : Nat) (d a b : BitVec 6) : Option Instr :=
  match fn with
  | 0x00 => some (.dadd c d a b)
  | 0x01 => some (.dsub c d a b)
  | 0x02 => some (.dcryA c d a b)
  | 0x03 => some (.dcryS c d a b)
  | 0x04 => some (.daddm c d a b)
  | 0x05 => some (.dadj c d a b)
  | 0x06 => some (.dval c d a b)
  | 0x07 => some (.ddec c d a b)
  | 0x08 => some (.dcvb c d a b)
  | 0x09 => some (.dcvd c d a b)
  | 0x0A => some (.dshl c d a b)
  | 0x0B => some (.dshr c d a b)
  | _ => none

/-- Group 0x05, by `fn` (R268). -/
def decodeRein (c fn : Nat) (d a b : BitVec 6) : Option Instr :=
  match fn with
  | 0x00 => some (.kmov c d a b)
  | 0x01 => some (.kbound c d a b)
  | 0x02 => some (.kperm c d a b)
  | 0x03 => some (.kbase c d a b)
  | 0x04 => some (.klen c d a b)
  | 0x05 => some (.kinfo c d a b)
  | 0x06 => some (.kclr c d a b)
  | 0x07 => some (.kseal c d a b)
  | 0x08 => some (.kunseal c d a b)
  | 0x09 => some (.enter c d a b)
  | _ => none

/-- Group 0x06, by `fn` (R263). -/
def decodeControl (c fn : Nat) (d a b : BitVec 6) : Option Instr :=
  match fn with
  | 0x00 => some (.ret c d a b)
  | 0x01 => some (.jmpr c d a b)
  | 0x02 => some (.trap c d a b)
  | 0x03 => some (.brk c d a b)
  | 0x04 => some (.wret c d a b)
  | 0x05 => some (.push c d a b)
  | 0x06 => some (.pop c d a b)
  | 0x07 => some (.sync c d a b)
  | 0x08 => some (.wait c d a b)
  | _ => none

/-- Group 0x07, by `fn` (R269). -/
def decodeString (c fn : Nat) (d a b : BitVec 6) : Option Instr :=
  match fn with
  | 0x00 => some (.movb c d a b)
  | 0x01 => some (.cmpb c d a b)
  | 0x02 => some (.scanb c d a b)
  | 0x03 => some (.fillb c d a b)
  | 0x04 => some (.xorb c d a b)
  | 0x05 => some (.crcb c d a b)
  | _ => none

/-- The M format, by `op` (R258). -/
def decodeM (c op : Nat) (r : BitVec 6) (k : BitVec 4) (a : BitVec 6) (imm : BitVec 9) : Option Instr :=
  match op with
  | 0x20 => some (.ld8 c r k a imm)
  | 0x21 => some (.ld16 c r k a imm)
  | 0x22 => some (.ld32 c r k a imm)
  | 0x23 => some (.ld64 c r k a imm)
  | 0x24 => some (.lds8 c r k a imm)
  | 0x25 => some (.lds16 c r k a imm)
  | 0x26 => some (.lds32 c r k a imm)
  | 0x28 => some (.st8 c r k a imm)
  | 0x29 => some (.st16 c r k a imm)
  | 0x2A => some (.st32 c r k a imm)
  | 0x2B => some (.st64 c r k a imm)
  | 0x2C => some (.kld c r k a imm)
  | 0x2D => some (.kst c r k a imm)
  | _ => none

/-- The I format, by `op` (R262, R263). -/
def decodeI (c op : Nat) (d a : BitVec 6) (imm : BitVec 13) : Option Instr :=
  match op with
  | 0x08 => some (.addi c d a imm)
  | 0x09 => some (.andi c d a imm)
  | 0x0A => some (.ori c d a imm)
  | 0x0B => some (.xori c d a imm)
  | 0x0C => some (.shli c d a imm)
  | 0x0D => some (.shri c d a imm)
  | 0x0E => some (.sari c d a imm)
  | 0x10 => some (.ceqi c d a imm)
  | 0x11 => some (.cnei c d a imm)
  | 0x12 => some (.clti c d a imm)
  | 0x13 => some (.cltui c d a imm)
  | 0x14 => some (.clei c d a imm)
  | 0x15 => some (.cleui c d a imm)
  | 0x1C => some (.mfs c d a imm)
  | 0x1D => some (.mts c d a imm)
  | _ => none

/-- The B format, by `op` (R262, R263). -/
def decodeB (c op : Nat) (a : BitVec 6) (imm : BitVec 19) : Option Instr :=
  match op with
  | 0x18 => some (.lui c a imm)
  | 0x38 => some (.bz c a imm)
  | 0x39 => some (.bnz c a imm)
  | 0x3A => some (.loop c a imm)
  | _ => none

/-- The J format, by `op` (R263). -/
def decodeJ (c op : Nat) (disp : BitVec 25) : Option Instr :=
  match op with
  | 0x3C => some (.jmp c disp)
  | 0x3D => some (.call c disp)
  | _ => none

/-- The R format: `op` is the group (R253). -/
def decodeR (c op fn : Nat) (d a b : BitVec 6) : Option Instr :=
  match op with
  | 0x01 => decodeAlu c fn d a b
  | 0x02 => decodeMulDiv c fn d a b
  | 0x03 => decodeCompare c fn d a b
  | 0x04 => decodeDecimal c fn d a b
  | 0x05 => decodeRein c fn d a b
  | 0x06 => decodeControl c fn d a b
  | 0x07 => decodeString c fn d a b
  | _ => none

/-- The instruction that core `c` reads from a word; none for 0x0000_0000 and for an op or fn that no table assigns (R254).
Fields that a table marks 0 and rein fields are judged by the instruction itself. -/
def decodeWord (c : Nat) (w : W32) : Option Instr :=
  let op := (w.extractLsb' 25 7).toNat
  let d := w.extractLsb' 19 6
  let a := w.extractLsb' 13 6
  if op < 0x08 then decodeR c op (w.extractLsb' 0 7).toNat d a (w.extractLsb' 7 6)
  else if op = 0x18 ∨ (0x38 ≤ op ∧ op ≤ 0x3A) then decodeB c op d (w.extractLsb' 0 19)
  else if op < 0x20 then decodeI c op d a (w.extractLsb' 0 13)
  else if op < 0x38 then decodeM c op d (w.extractLsb' 15 4) (w.extractLsb' 9 6) (w.extractLsb' 0 9)
  else decodeJ c op (w.extractLsb' 0 25)

/-- A word of the R format. -/
def wordR (op fn : Nat) (d a b : BitVec 6) : W32 := BitVec.ofNat 7 op ++ d ++ a ++ b ++ BitVec.ofNat 7 fn

/-- A word of the I format. -/
def wordI (op : Nat) (d a : BitVec 6) (imm : BitVec 13) : W32 := BitVec.ofNat 7 op ++ d ++ a ++ imm

/-- A word of the M format. -/
def wordM (op : Nat) (r : BitVec 6) (k : BitVec 4) (a : BitVec 6) (imm : BitVec 9) : W32 := BitVec.ofNat 7 op ++ r ++ k ++ a ++ imm

/-- A word of the B format. -/
def wordB (op : Nat) (a : BitVec 6) (disp : BitVec 19) : W32 := BitVec.ofNat 7 op ++ a ++ disp

/-- A word of the J format. -/
def wordJ (op : Nat) (disp : BitVec 25) : W32 := BitVec.ofNat 7 op ++ disp

/-- The word of an instruction row; none for a command that is no instruction of a Pacer. -/
def encodeWord : Instr → Option W32
  | .ld8 _ r k a imm => some (wordM 0x20 r k a imm)
  | .ld16 _ r k a imm => some (wordM 0x21 r k a imm)
  | .ld32 _ r k a imm => some (wordM 0x22 r k a imm)
  | .ld64 _ r k a imm => some (wordM 0x23 r k a imm)
  | .lds8 _ r k a imm => some (wordM 0x24 r k a imm)
  | .lds16 _ r k a imm => some (wordM 0x25 r k a imm)
  | .lds32 _ r k a imm => some (wordM 0x26 r k a imm)
  | .st8 _ r k a imm => some (wordM 0x28 r k a imm)
  | .st16 _ r k a imm => some (wordM 0x29 r k a imm)
  | .st32 _ r k a imm => some (wordM 0x2A r k a imm)
  | .st64 _ r k a imm => some (wordM 0x2B r k a imm)
  | .kld _ r k a imm => some (wordM 0x2C r k a imm)
  | .kst _ r k a imm => some (wordM 0x2D r k a imm)
  | .opAdd _ d a b => some (wordR 0x01 0x00 d a b)
  | .opSub _ d a b => some (wordR 0x01 0x01 d a b)
  | .opAnd _ d a b => some (wordR 0x01 0x02 d a b)
  | .opOr _ d a b => some (wordR 0x01 0x03 d a b)
  | .opXor _ d a b => some (wordR 0x01 0x04 d a b)
  | .andn _ d a b => some (wordR 0x01 0x05 d a b)
  | .shl _ d a b => some (wordR 0x01 0x06 d a b)
  | .shr _ d a b => some (wordR 0x01 0x07 d a b)
  | .sar _ d a b => some (wordR 0x01 0x08 d a b)
  | .rol _ d a b => some (wordR 0x01 0x09 d a b)
  | .ror _ d a b => some (wordR 0x01 0x0A d a b)
  | .opMin _ d a b => some (wordR 0x01 0x0B d a b)
  | .opMax _ d a b => some (wordR 0x01 0x0C d a b)
  | .minu _ d a b => some (wordR 0x01 0x0D d a b)
  | .maxu _ d a b => some (wordR 0x01 0x0E d a b)
  | .clz _ d a b => some (wordR 0x01 0x10 d a b)
  | .popc _ d a b => some (wordR 0x01 0x11 d a b)
  | .bswap _ d a b => some (wordR 0x01 0x12 d a b)
  | .mul _ d a b => some (wordR 0x02 0x00 d a b)
  | .mulh _ d a b => some (wordR 0x02 0x01 d a b)
  | .mulhu _ d a b => some (wordR 0x02 0x02 d a b)
  | .div _ d a b => some (wordR 0x02 0x03 d a b)
  | .divu _ d a b => some (wordR 0x02 0x04 d a b)
  | .rem _ d a b => some (wordR 0x02 0x05 d a b)
  | .remu _ d a b => some (wordR 0x02 0x06 d a b)
  | .ceq _ d a b => some (wordR 0x03 0x00 d a b)
  | .cne _ d a b => some (wordR 0x03 0x01 d a b)
  | .clt _ d a b => some (wordR 0x03 0x02 d a b)
  | .cltu _ d a b => some (wordR 0x03 0x03 d a b)
  | .cle _ d a b => some (wordR 0x03 0x04 d a b)
  | .cleu _ d a b => some (wordR 0x03 0x05 d a b)
  | .addi _ d a imm => some (wordI 0x08 d a imm)
  | .andi _ d a imm => some (wordI 0x09 d a imm)
  | .ori _ d a imm => some (wordI 0x0A d a imm)
  | .xori _ d a imm => some (wordI 0x0B d a imm)
  | .shli _ d a imm => some (wordI 0x0C d a imm)
  | .shri _ d a imm => some (wordI 0x0D d a imm)
  | .sari _ d a imm => some (wordI 0x0E d a imm)
  | .ceqi _ d a imm => some (wordI 0x10 d a imm)
  | .cnei _ d a imm => some (wordI 0x11 d a imm)
  | .clti _ d a imm => some (wordI 0x12 d a imm)
  | .cltui _ d a imm => some (wordI 0x13 d a imm)
  | .clei _ d a imm => some (wordI 0x14 d a imm)
  | .cleui _ d a imm => some (wordI 0x15 d a imm)
  | .lui _ a imm => some (wordB 0x18 a imm)
  | .bz _ a imm => some (wordB 0x38 a imm)
  | .bnz _ a imm => some (wordB 0x39 a imm)
  | .loop _ a imm => some (wordB 0x3A a imm)
  | .jmp _ disp => some (wordJ 0x3C disp)
  | .call _ disp => some (wordJ 0x3D disp)
  | .ret _ d a b => some (wordR 0x06 0x00 d a b)
  | .jmpr _ d a b => some (wordR 0x06 0x01 d a b)
  | .trap _ d a b => some (wordR 0x06 0x02 d a b)
  | .brk _ d a b => some (wordR 0x06 0x03 d a b)
  | .wret _ d a b => some (wordR 0x06 0x04 d a b)
  | .push _ d a b => some (wordR 0x06 0x05 d a b)
  | .pop _ d a b => some (wordR 0x06 0x06 d a b)
  | .sync _ d a b => some (wordR 0x06 0x07 d a b)
  | .wait _ d a b => some (wordR 0x06 0x08 d a b)
  | .mfs _ d a imm => some (wordI 0x1C d a imm)
  | .mts _ d a imm => some (wordI 0x1D d a imm)
  | .kmov _ d a b => some (wordR 0x05 0x00 d a b)
  | .kbound _ d a b => some (wordR 0x05 0x01 d a b)
  | .kperm _ d a b => some (wordR 0x05 0x02 d a b)
  | .kbase _ d a b => some (wordR 0x05 0x03 d a b)
  | .klen _ d a b => some (wordR 0x05 0x04 d a b)
  | .kinfo _ d a b => some (wordR 0x05 0x05 d a b)
  | .kclr _ d a b => some (wordR 0x05 0x06 d a b)
  | .kseal _ d a b => some (wordR 0x05 0x07 d a b)
  | .kunseal _ d a b => some (wordR 0x05 0x08 d a b)
  | .enter _ d a b => some (wordR 0x05 0x09 d a b)
  | .movb _ d a b => some (wordR 0x07 0x00 d a b)
  | .cmpb _ d a b => some (wordR 0x07 0x01 d a b)
  | .scanb _ d a b => some (wordR 0x07 0x02 d a b)
  | .fillb _ d a b => some (wordR 0x07 0x03 d a b)
  | .xorb _ d a b => some (wordR 0x07 0x04 d a b)
  | .crcb _ d a b => some (wordR 0x07 0x05 d a b)
  | .dadd _ d a b => some (wordR 0x04 0x00 d a b)
  | .dsub _ d a b => some (wordR 0x04 0x01 d a b)
  | .dcryA _ d a b => some (wordR 0x04 0x02 d a b)
  | .dcryS _ d a b => some (wordR 0x04 0x03 d a b)
  | .daddm _ d a b => some (wordR 0x04 0x04 d a b)
  | .dadj _ d a b => some (wordR 0x04 0x05 d a b)
  | .dval _ d a b => some (wordR 0x04 0x06 d a b)
  | .ddec _ d a b => some (wordR 0x04 0x07 d a b)
  | .dcvb _ d a b => some (wordR 0x04 0x08 d a b)
  | .dcvd _ d a b => some (wordR 0x04 0x09 d a b)
  | .dshl _ d a b => some (wordR 0x04 0x0A d a b)
  | .dshr _ d a b => some (wordR 0x04 0x0B d a b)
  | _ => none

/-- The command that a word of `nbits` bits spells: a Pacer instruction of 32 bits, as core 0 executes it (DESIGN CHOICE, log
10: the word does not name the core). -/
def decodeTableWord (nbits w : Nat) : Option Instr := if nbits = 32 then decodeWord 0 (BitVec.ofNat 32 w) else none

end Sys2Proof
end

