-- ==== Sys2Proof/Machine/Bits.lean ====
section
/-! DEFINITION. Bit fields, byte order and byte-string helpers. -/

namespace Sys2Proof

/-- Bits `[lo+len-1 : lo]` of a natural number. -/
def natBits (v lo len : Nat) : Nat := v / 2 ^ lo % 2 ^ len

/-- Bit `i` of a natural number. -/
def natBit (v i : Nat) : Bool := v / 2 ^ i % 2 == 1

/-- One bit as a number. -/
def b2n (b : Bool) : Nat := if b then 1 else 0

/-- Ceiling division. -/
def ceilDiv (a b : Nat) : Nat := (a + b - 1) / b

/-- Little-endian bytes of a natural number, `n` of them. -/
def natToLE : Nat → Nat → List Byte
  | 0, _ => []
  | n + 1, v => BitVec.ofNat 8 v :: natToLE n (v / 256)

/-- The natural number that little-endian bytes spell. -/
def leToNat : List Byte → Nat
  | [] => 0
  | b :: bs => b.toNat + 256 * leToNat bs

/-- The natural number that big-endian bytes spell. -/
def beToNat (bs : List Byte) : Nat := bs.foldl (fun a b => a * 256 + b.toNat) 0

/-- Big-endian bytes of a natural number, `n` of them. -/
def natToBE (n v : Nat) : List Byte := (natToLE n v).reverse

/-- `n` zero bytes. -/
def zeros (n : Nat) : List Byte := List.replicate n 0

/-- The first `n` bytes, with zeros where the list is shorter. -/
def takePad (n : Nat) (bs : List Byte) : List Byte := (bs ++ zeros n).take n

/-- Bytewise exclusive-or, as long as the shorter list. -/
def xorBytes : List Byte → List Byte → List Byte
  | a :: as, b :: bs => (a ^^^ b) :: xorBytes as bs
  | _, _ => []

/-- Cut a list into blocks of `n` (the last may be shorter); `fuel` bounds the count of blocks. -/
def chunksAux {α : Type} (n : Nat) : Nat → List α → List (List α)
  | 0, _ => []
  | fuel + 1, l => if l.isEmpty then [] else l.take n :: chunksAux n fuel (l.drop n)

/-- Cut a list into blocks of `n`, the last one maybe shorter. -/
def chunks {α : Type} (n : Nat) (l : List α) : List (List α) := chunksAux n l.length l

end Sys2Proof
end

