-- ==== Sys2Proof/Machine/Check.lean ====
section
/-! DEFINITION. Check values (R348–R352): the parametrised CRC, its presets, and the device's own uses of it. -/

namespace Sys2Proof.Machine

/-- A CVU parameter set (R348). -/
structure CrcParams where
  w : Nat
  poly : Nat
  init : Nat
  refin : Bool
  refout : Bool
  xorout : Nat
deriving DecidableEq, Repr

/-- The low `n` bits of `v` in reverse order. -/
def revBits : Nat → Nat → Nat
  | 0, _ => 0
  | n + 1, v => v % 2 * 2 ^ n + revBits n (v / 2)

/-- One shift of the accumulator (R348). -/
def crcShift (p : CrcParams) (c : Nat) : Nat :=
  if natBit c (p.w - 1) then (c * 2 % 2 ^ p.w) ^^^ p.poly else c * 2 % 2 ^ p.w

/-- Feed one byte. -/
def crcFeed (p : CrcParams) (c : Nat) (b : Byte) : Nat :=
  let v := if p.refin then revBits 8 b.toNat else b.toNat
  (List.range 8).foldl (fun a _ => crcShift p a) (c ^^^ (v * 2 ^ (p.w - 8)))

/-- Feed bytes in order. -/
def crcFeedAll (p : CrcParams) (c : Nat) (bs : List Byte) : Nat := bs.foldl (crcFeed p) c

/-- The result of an accumulator. -/
def crcResult (p : CrcParams) (c : Nat) : Nat := (if p.refout then revBits p.w c else c) ^^^ p.xorout

/-- The value over an optional fold and bytes (R348, R349). -/
def crcValue (p : CrcParams) (fold : Option Nat) (bs : List Byte) : Nat :=
  let c0 := match fold with | some v => crcFeedAll p p.init (natToLE 8 v) | none => p.init
  crcResult p (crcFeedAll p c0 bs)

/-- Preset 0x01 CRC-32C (R351). -/
def crc32c : CrcParams :=
  { w := 32, poly := 0x1EDC6F41, init := 0xFFFFFFFF, refin := true, refout := true, xorout := 0xFFFFFFFF }

/-- Preset 0x02 CRC-64 (R351). -/
def crc64 : CrcParams :=
  { w := 64, poly := 0x42F0E1EBA9EA3693, init := 0xFFFFFFFFFFFFFFFF, refin := true, refout := true,
    xorout := 0xFFFFFFFFFFFFFFFF }

/-- Preset 0x03 CRC-12 (R351). -/
def crc12 : CrcParams := { w := 12, poly := 0x80F, init := 0xFFF, refin := false, refout := false, xorout := 0 }

/-- The check value of a descriptor or completion: CRC-32C with a sequence fold (R214, R352). -/
def seqCrc (seq : Nat) (bs : List Byte) : Nat := crcValue crc32c (some seq) bs

/-- The CHECK of a stall whose first byte lies at `base` (R86, R352). -/
def stallCheck (base : Nat) (bs : List Byte) : Nat :=
  crcValue crc32c (some base) ((0 :: (bs.take 0x30).drop 1) ++ (bs.drop 0xE0).take 16)

end Sys2Proof.Machine
end

