-- ==== Sys2Proof/Config.lean ====
section
/-! DEFINITION. What the spec leaves open and what an implementation fixes, as constants without a body: no proof can
see a value of them, so a claim holds whatever they are. -/

namespace Sys2Proof.Config

/-- A fresh free value: the draw numbered by the state's counter (entropy, unstated values; log 3). -/
opaque freeNat : Nat → Nat

/-- The AES block transform (FIPS 197) of a key and a 16-byte block; `true` enciphers (log 4). -/
opaque aesBlock : Bool → List Byte → List Byte → List Byte
/-- The final round key of an AES key (FIPS 197; log 4). -/
opaque aesFinalKey : List Byte → List Byte
/-- The DES or TDEA block transform of a key bundle and an 8-byte block; `true` enciphers (log 4). -/
opaque desBlock : Bool → List Byte → List Byte → List Byte
/-- A hash function by its number of bits (FIPS 180-4, FIPS 202; log 4). -/
opaque hash : Nat → List Byte → List Byte
/-- The raw function of a named elliptic-curve operation: (operation, curve code, operands) to result bytes, or none
where the standard rejects the operands; an operation on a secret takes its blinding values as the last operand (R111; log 4). -/
opaque curveOp : Nat → Nat → List (List Byte) → Option (List Byte)

/-- The field prime of a curve or the prime of a group, by CURVE (FIPS 186-5, RFC 5639, RFC 7748, RFC 7919; log 4). -/
opaque curvePrime : Nat → Nat
/-- The order of a curve's base point (log 4). -/
opaque curveOrder : Nat → Nat
/-- Whether (x, y) lies on a curve (log 4). -/
opaque onCurve : Nat → Nat → Nat → Bool
/-- Whether a string is a canonical encoding of a point of an Edwards curve (RFC 8032; log 4). -/
opaque edPoint : Nat → List Byte → Bool
/-- The RSA key of FIPS 186-5 A.1.3 for modulus bytes, public exponent and random input: its material as R196 lays it
out, or none where the search finds no prime (log 4). -/
opaque rsaKey : Nat → Nat → Nat → Option (List Byte)

/-- Which leaf of the alert tree rises for an uncorrectable word of an SRAM area (0 to 5, in the order of R16): R18 raises
one, and no EVENTS register names it (log 126). -/
opaque eccLeaf : Nat → Nat

/-- The content of the Warden ROM (R19): vendor firmware, which the spec does not give (log 6). -/
opaque rom : Nat → Byte

/-- The content of a firmware image, which the spec does not lay out (log 25): whether it carries a valid ECDSA P-384
signature under the owner key of this hash, its IMGSEQ, the bytes (offset in the core's local SRAM, byte) of a paddock's
code, the start door (region offset, length, entry word) of a paddock, and its credential block. -/
opaque imageSigned : List Byte → List Byte → Bool
opaque imageSeq : List Byte → Nat
opaque imageCode : List Byte → Nat → List (Nat × Byte)
opaque imageDoor : List Byte → Nat → Nat × Nat × Nat
opaque imageCreds : List Byte → List (List Byte)

/-- The device identity key pair and its vendor certificate, and the vendor key behind the hash of R426 (R438, R441): made
at vendor test, held in OTP (log 32). -/
opaque identityPriv : List Byte
opaque identityPub : List Byte
opaque identityCert : List Byte
opaque vendorPub : List Byte
/-- The NAME attribute of an object, by 256·index + subindex, which the spec does not list (R445; log 33). -/
opaque objectName : Nat → List Byte

/-- Which of the four lookaside DMA engines serves a Pacer's jobs: the spec does not say (log 8). -/
opaque dmaEngine : Nat → Nat
/-- The key-encryption key of a share from the ECDH shared secret: the spec names no derivation (R199; log 155). -/
opaque shareKek : List Byte → List Byte
/-- The write APDU and the read-back APDU that carry a wrapped share to a custodian, and the token fields COFS to POST of its
TOKEN action: the spec names no framing (R142, R199; log 155). -/
opaque shareApdu : Nat → List Byte → List Byte
opaque shareFields : Nat → List Byte → List Byte

end Sys2Proof.Config
end

