-- ==== Sys2Proof/Machine/State.lean ====
section
/-! DEFINITION. The whole state of the KD3265 as plain data, one structure per unit of R11, the queue of waiting
commands, the reasons a step can stop, and the state after reset. -/

namespace Sys2Proof.Machine

/-- The reasons the block stops with a fault. -/
inductive Fault where
  /-- Raised by nothing in this model: every behaviour of the spec's rows has an effect, a refusal status or an
  exception of its own. Kept so that the type is inhabited. Safe. -/
  | none
deriving DecidableEq, Repr

/-- The reasons a command has no meaning here. -/
inductive Refusal where
  /-- Answered by an arm of `exec` whose command has no meaning yet. Safe: nothing is claimed of it. -/
  | notModelled (mnemonic : String)
deriving DecidableEq, Repr

/-! ### Values shared by the units -/

/-- A capability register: the 128 bits of R278 and the tag held outside them. -/
structure Rein where
  tag : Bool
  bits : W128
deriving DecidableEq, Repr

/-- The untagged zero rein. -/
def Rein.zero : Rein := { tag := false, bits := 0 }

/-- A submission window's registers (R77, R93, R119, R140, R192, R356): BODY and RESULT as 64-bit words, the rein
fields, the small request fields, and the status bits. -/
structure Win where
  body : Tab W64
  key : Rein
  aux : Rein
  handle : W32
  opc : W32
  ie : Bool
  busyWr : Bool
  done : Bool
  busy : Bool
  result : Tab W64
deriving DecidableEq, Repr

/-- A window after reset: every field zero. -/
def Win.reset : Win :=
  { body := [], key := Rein.zero, aux := Rein.zero, handle := 0, opc := 0, ie := false, busyWr := false,
    done := false, busy := false, result := [] }

/-- What a request sampled at GO or carries from its descriptor (R507, R213): its source, the paddock it acts for,
its class, and the paddock's generation then in force. -/
structure Req where
  src : Src
  paddock : Nat
  warden : Bool
  gen : Nat
deriving DecidableEq, Repr

/-- A result that waits for its completion stride: due in that executed stride or later. -/
structure Pend where
  req : Req
  due : Nat
  status : Nat
  result : List Byte
deriving DecidableEq, Repr

/-- A window request that waits unadmitted (R30, R51, R64, R198): the unit it is for (0 cipher, 1 PKE, 2 Stable, 3 tack
custody, 4 Cinch), the request, and, for a HOLD job, the OUTPUT staged at its GO: 0 not tried, 1 refused, 2 + action. -/
structure WaitReq where
  unit : Nat
  req : Req
  staged : Nat
deriving DecidableEq, Repr

/-! ### Memory common state (R16–R20, R284) -/

/-- SRAM and host memory: bytes, poisoned 8-byte words, tagged 16-byte granules. Unlisted bytes read zero (R17). -/
structure Memory where
  ram : List Host.Cell
  poison : Tab Bool
  tags : Tab Bool
  host : List Host.Cell
  hostBad : List (Nat × Nat)
deriving DecidableEq, Repr

/-- Memory after the zero fill of boot step 1 (R17). -/
def Memory.reset : Memory := { ram := [], poison := [], tags := [], host := [], hostBad := [] }

/-! ### Bridle (R307–R317) -/

/-- The Bridle units: 41 × 32 regions (key 32·u + r), the last fault and count of each unit. -/
structure Bridle where
  rgn : Tab W64
  ufault : Tab W64
  count : Tab Nat
  fresh : Tab Bool
  faults : Nat
  warn : Tab Bool
deriving DecidableEq, Repr

/-- Every region disabled (R310). -/
def Bridle.reset : Bridle := { rgn := [], ufault := [], count := [], fresh := [], faults := 0, warn := [] }

/-! ### Alert tree and ledger (R453–R463) -/

/-- The alert tree's own registers; the leaves are `State.events`. -/
structure AlertTree where
  pinen : W32
  msien : W32
  leafOff : Tab W32
  force : Bool
  pin : Bool
  rose : Bool
deriving DecidableEq, Repr

/-- Alert tree at reset: every enable all-ones (R463). -/
def AlertTree.reset : AlertTree :=
  { pinen := 0xFFFFFFFF, msien := 0xFFFFFFFF, leafOff := [], force := false, pin := false, rose := false }

/-- One ledger word: CODE and ARG (R326). -/
structure LWord where
  code : Nat
  arg : Nat
deriving DecidableEq, Repr

/-- One entry of a paddock's feed (R462). -/
structure FeedEntry where
  code : Nat
  index : Nat
  handle : Nat
  dseq : Nat
  stride : Nat
  data : List Byte
deriving DecidableEq, Repr

/-- The ledger engine: exact items, waiting words, the window's sectors oldest first (R327), how many sectors START has
left, EVENTNO, the cursor, the words admitted to NOR of late (executed stride, count), the period of 0xA010:00, and the
paddock feeds. -/
structure Ledger where
  items : Tab Nat
  snapQ : List LWord
  eventQ : List (List LWord)
  itemQ : List LWord
  window : List (List LWord)
  erased : Nat
  eventNo : Nat
  cursor : Nat
  paceHist : List (Nat × Nat)
  period : Nat
  lastPeriod : Nat
  feeds : Tab (List FeedEntry)
deriving DecidableEq, Repr

/-- A ledger that nothing has been written to. -/
def Ledger.reset : Ledger :=
  { items := [], snapQ := [], eventQ := [], itemQ := [], window := [], erased := 0, eventNo := 0, cursor := 0, paceHist := [],
    period := 3600, lastPeriod := 0, feeds := [] }


/-! ### Time unit (R31–R54) -/

/-- How the time unit forms its uncertainty U (R50). -/
inductive TimeMode where
  | unknown | provisional | locked | holdover
deriving DecidableEq, Repr

/-- A foreign master heard through Announce (R37): its domain and identity, its dataset, its UTC offset, the executed stride of
its last Announce and the logarithm of the interval between them. -/
structure ForeignMaster where
  dom : Nat
  clockId : W64
  data : PtpDataset
  utc : BitVec 16
  utcValid : Bool
  heard : Nat
  logInt : Int
deriving DecidableEq, Repr

/-- The time unit's registers, servo and share tables. `syncAt` is the executed stride of the master's last Sync and its
logSyncInterval; `pdelayPend` a two-step Pdelay_Resp that waits for its Follow_Up: clock, sequence, t2, t4, correction. -/
structure TimeUnit where
  now : Nat
  executed : Nat
  mode : TimeMode
  u : Nat
  u0 : Nat
  t0 : Nat
  accepted : List Nat
  discards : Nat
  reacquire : Bool
  stepPending : Nat
  cellValid : Bool
  disagree : Bool
  holdStartUsed : Bool
  firstLock : Bool
  unsureWas : Bool
  offset : W64
  cfg : W32
  tol : W32
  drift : W32
  path : W32
  pathKnown : Bool
  rate : W32
  overruns : W32
  phyLat : W32
  pps : W32
  utc : W32
  master : W64
  masters : List ForeignMaster
  shrSel : W32
  shrRefused : Bool
  staged : Tab Nat
  inForce : Tab Nat
  eff : Tab Nat
  frameDone : Option Nat
  ppsOut : Bool
  ppsFall : Nat
  syncPend : Option (W64 × Nat × Nat)
  lastSync : Option (Nat × Nat)
  syncAt : Option (Nat × Int)
  delayReq : Option (Nat × Nat)
  pdelayAnswer : Option (Nat × Nat × Nat)
  pdelayPend : Option (W64 × Nat × Nat × Nat × Nat)
  backupValid : Bool
  backupValue : Nat
  backupSince : Nat
deriving DecidableEq, Repr

/-- The time unit at power-up with the backup counter lost (R35, R54). -/
def TimeUnit.reset : TimeUnit :=
  { now := 0, executed := 0, mode := .unknown, u := 0, u0 := 0, t0 := 0, accepted := [], discards := 0,
    reacquire := false, stepPending := 0, cellValid := false, disagree := false, holdStartUsed := false,
    firstLock := false, unsureWas := false, offset := 0, cfg := 0, tol := 0xC350, drift := 0x3E8, path := 0,
    pathKnown := false, rate := 0, overruns := 0, phyLat := 0, pps := 0x03E80001, utc := 0, master := 0,
    masters := [], shrSel := 0, shrRefused := false, staged := [], inForce := [], eff := [],
    frameDone := none, ppsOut := false, ppsFall := 0, syncPend := none, lastSync := none, syncAt := none,
    delayReq := none, pdelayAnswer := none, pdelayPend := none,
    backupValid := false, backupValue := 0, backupSince := 0 }

/-! ### Cipher fabric (R55–R83) -/

/-- A context entry (R64): the chaining value or counter, the GHASH or CBC-MAC accumulator, source bytes that wait for a later
slice, the AAD and data bytes read so far, and the count of blocks done. -/
structure CtxEntry where
  chain : List Byte
  acc : List Byte
  hold : List Byte
  aadN : Nat
  dataN : Nat
  blocks : Nat
deriving DecidableEq, Repr

/-- An entry before its first slice. -/
def CtxEntry.empty : CtxEntry := { chain := [], acc := [], hold := [], aadN := 0, dataN := 0, blocks := 0 }

/-- One admitted cipher job. `row` is the status that rows 2 to 4 of R78 give at the first slice (0: runs), `cut` the
status that ends it at the next boundary, `ctx` its context entry, `res` and `out` its outcome and the output of the slices
run so far, `wrote` the bytes landed so far, `old` what the written span held before, `held` its OUTPUT (Cinch slot,
action). -/
structure CJob where
  no : Nat
  req : Req
  body : List Byte
  tack : Nat
  tack2 : Nat
  row : Nat
  blocks : Nat
  ghash : Nat
  slices : Nat
  span : Nat
  done : Nat
  cut : Nat
  lane : Nat
  adm : Nat
  admTick : Nat
  ctx : CtxEntry
  res : Nat
  out : List Byte
  wrote : Nat
  old : List Byte
  held : Option (Nat × Nat)
deriving DecidableEq, Repr

/-- The cipher fabric. `ghashUsed` counts GHASH steps of the stride by logical lane, `frameCyc` the cycles inline
frames took of a slot in the stride, `dead` the pairs stopped in the stride (lane, pair), `fenceDue` the lanes to be
fenced at the boundary (lane, reason, paddock). -/
structure CipherUnit where
  wins : Tab Win
  jobs : List CJob
  pend : List Pend
  nextNo : Nat
  psel : Nat
  rsvStaged : Tab Nat
  ctxStaged : Tab Nat
  rsvEff : Tab Nat
  ctxEff : Tab Nat
  mismatches : Nat
  fault : W64
  reasons : Tab Nat
  ghashUsed : Tab Nat
  frameCyc : Tab Nat
  dead : List (Nat × Nat)
  fenceDue : List (Nat × Nat × Nat)
deriving DecidableEq, Repr

/-- The fabric after reset. The context tables (staged, in force) are read with default 2 (R64, R83). -/
def CipherUnit.reset : CipherUnit :=
  { wins := [], jobs := [], pend := [], nextNo := 0, psel := 0, rsvStaged := [], ctxStaged := [], rsvEff := [],
    ctxEff := [], mismatches := 0, fault := 0, reasons := [], ghashUsed := [], frameCyc := [], dead := [], fenceDue := [] }

/-! ### Stable (R84–R104). The stalls themselves are bytes of `Memory.ram` at the addresses of R19. -/

/-- A stall command whose result waits for its completion stride; `snap` says that a READ's snapshot is still due. -/
structure StReq where
  pend : Pend
  op : Nat
  stall : Nat
  addr : Nat
  snap : Bool
deriving DecidableEq, Repr

/-- A STALL action of an applied Cinch (R97): the stall, OP, TYPE, paddock and LOAD image, the tack that an ARM charges, and the
Cinch's DSEQ with the action's index. -/
structure StallApply where
  stall : Nat
  op : Nat
  typ : Nat
  paddock : Nat
  img : List Byte
  tack : Nat
  dseq : Nat
  index : Nat
deriving DecidableEq, Repr

/-- The Stable. `leave` holds the recorded REASON of stalls that leave at the next boundary, `move` the state that a
command moves a stall to, `drawn` the header (TYPE, PADDOCK, GEN) of stalls drawn by an ALLOC command, `applies` the STALL
actions that applied Cinches perform at the next boundary, `since` the executed stride of entry to RETIRING or WIPING, `spent` the stalls whose PN_LIMIT was used in the stride (R98),
`keys` the classifier's key fields (R235). -/
structure StableUnit where
  leave : Tab Nat
  move : Tab Nat
  drawn : Tab (List Byte)
  loads : List (Nat × List Byte)
  applies : List StallApply
  since : Tab Nat
  pnLow : Tab Bool
  spent : List Nat
  keys : Tab (List Byte)
  psel : Nat
  quota : Tab Nat
  expq : List W64
  wins : Tab Win
  pend : List StReq
deriving DecidableEq, Repr

/-- The Stable after reset: every stall FREE (R87). -/
def StableUnit.reset : StableUnit :=
  { leave := [], move := [], drawn := [], loads := [], applies := [], since := [], pnLow := [], spent := [], keys := [], psel := 0, quota := [],
    expq := [], wins := [], pend := [] }

/-! ### Public-key engines (R105–R133) -/

/-- A CTR_DRBG (R113): its reseed counter, 0 before the first seed, the executed stride of the last seed, Key and V. -/
structure Drbg where
  count : Nat
  seeded : Nat
  key : List Byte
  v : List Byte
deriving DecidableEq, Repr

/-- A DRBG without a state. -/
def Drbg.empty : Drbg := { count := 0, seeded := 0, key := [], v := [] }

/-- One admitted PKE job. `eng` is its logical engine once it has started, on physical engine `phys` and bank `bank`;
`row` the status found at or before slice 2 (rows 4 to 7 of R128; 0: runs), `res`, `out` and `fill` its outcome, memory
output and key material once slice 1 has run. -/
structure PJob where
  no : Nat
  req : Req
  body : List Byte
  tack : Nat
  tack2 : Nat
  usesKey : Bool
  row : Nat
  slices : Nat
  wide : Bool
  done : Nat
  eng : Option Nat
  phys : Nat
  bank : Nat
  cut : Nat
  adm : Nat
  admTick : Nat
  res : Nat
  out : List Byte
  fill : List Byte
  held : Option (Nat × Nat)
deriving DecidableEq, Repr

/-- The public-key engines. `wiped` lists the tracks (256·physical engine + paddock) whose bank is being wiped in the stride,
`fenceDue` the engines to be fenced at the boundary (engine, reason, paddock); `words` is operand memory and `poison` its
uncorrectable words, both by 8192·engine + 1024·bank + word (R16, R105); `mult` and `outlet` are the multiplier's and the
outlet's registers of an engine with the number, plus one, of the job they serve (R131); `drbgs` are the engines' DRBGs and
`sourceBad` says that the entropy source reports a failed health test (R113). -/
structure PkeUnit where
  wins : Tab Win
  jobs : List PJob
  pend : List Pend
  nextNo : Nat
  checkfails : Nat
  entropyOk : Bool
  reseedFails : Nat
  diagSel : W32
  fault : W64
  reasons : Tab Nat
  wiped : List Nat
  fenceDue : List (Nat × Nat × Nat)
  words : Tab W64
  poison : Tab Bool
  mult : Tab (Nat × List Byte)
  outlet : Tab (Nat × List Byte)
  drbgs : Tab Drbg
  sourceBad : Bool
deriving DecidableEq, Repr

/-- The engines after reset. -/
def PkeUnit.reset : PkeUnit :=
  { wins := [], jobs := [], pend := [], nextNo := 0, checkfails := 0, entropyOk := false, reseedFails := 0, diagSel := 0,
    fault := 0, reasons := [], wiped := [], fenceDue := [], words := [], poison := [],
    mult := [], outlet := [], drbgs := [], sourceBad := false }

/-! ### Cinch (R134–R173) -/

/-- The held output of a job (R144): its number, whether it has ended, its status, where it goes and the bytes. -/
structure Held where
  job : Nat
  ended : Bool
  status : Nat
  dst : Nat
  host : Bool
  span : Nat
  data : List Byte
  core : Nat
  warden : Bool
  dropped : Bool
deriving DecidableEq, Repr

/-- One staged action (R135, R142) and its action record. -/
structure Action where
  typ : Nat
  sub : Nat
  obj : Nat
  arg : Nat
  inl : List Byte
  data : List Byte
  key : Rein
  tack : Nat
  stall : Nat
  pages : Nat
  cidHash : Nat
  wstaged : Nat
  held : Option Held
deriving DecidableEq, Repr

/-- One Cinch slot (R134, R145). `cmd` is the tack command that the slot carries out, where no core owns it (R192). -/
structure Cinch where
  st : Nat
  seq : Nat
  durable : Bool
  owner : Nat
  paddock : Nat
  gen : Nat
  actions : List Action
  openedAt : Nat
  commitAt : Nat
  commitPending : Bool
  cause : Nat
  status : Nat
  failing : Nat
  dseq : Nat
  decidedAt : Nat
  batchDurable : Bool
  abortCause : Nat
  abortAt : Nat
  abortStatus : Nat
  applyDue : Nat
  applyPos : Nat
  outcomeForced : Nat
  outcome : Nat
  outcomeDurable : Bool
  fenced : Bool
  cmd : Option Req
  cmdOp : Nat
  cmdAdmit : Nat
  cmdBlock : List Byte
  envelopeDurable : Bool
  freeAt : Nat
deriving DecidableEq, Repr

/-- A FREE slot never used. -/
def Cinch.free : Cinch :=
  { st := 0, seq := 0, durable := false, owner := 0, paddock := 0, gen := 0, actions := [], openedAt := 0, commitAt := 0,
    commitPending := false, cause := 0, status := 0, failing := 255, dseq := 0, decidedAt := 0, batchDurable := false,
    abortCause := 0, abortAt := 0, abortStatus := 0, applyDue := 0, applyPos := 0, outcomeForced := 0, outcome := 0,
    outcomeDurable := false, fenced := false, cmd := none,
    cmdOp := 0, cmdAdmit := 0, cmdBlock := [], envelopeDurable := false, freeAt := 0 }

/-- A paddock counter (R137) with the DSEQ of the last Cinch that changed it (R169). -/
structure Counter where
  value : Nat
  limit : Nat
  dseq : Nat
deriving DecidableEq, Repr

/-- A token-vault record; no value is a tombstone (R137, R169). -/
structure VRec where
  paddock : Nat
  table : Nat
  key : List Byte
  value : Option (List Byte)
  dseq : Nat
deriving DecidableEq, Repr

/-- A journal batch (R166): its stride, the JSEQ of its header, its records of 64 bytes with the header first, and whether it is
durable. -/
structure JBatch where
  stride : Nat
  first : Nat
  recs : List (List Byte)
  durable : Bool
deriving DecidableEq, Repr

/-- A checkpoint whose naming batch is not durable yet (R169): that batch's stride, the JSEQ that names it, the counter table. -/
structure Checkpoint where
  stride : Nat
  ckid : Nat
  counters : Tab Counter
deriving DecidableEq, Repr

/-- A DONE record that waits for STAGE writes (R336): the record, its DSEQ, and the writes: store, handle index or table, key. -/
structure DoneWait where
  record : List Byte
  dseq : Nat
  left : List (Nat × Nat × List Byte)
deriving DecidableEq, Repr

/-- A Cinch window request in progress or done (R141, R143). `rows` is what rows 3 to 5 of R150 said at the GO of a STAGE that waits
for the record store; `live` says that STATE and CAUSE are those of the slot when the result is written. -/
structure CnReq where
  req : Req
  core : Nat
  opc : Nat
  slot : Nat
  handle : Nat
  due : Nat
  waitsStore : Bool
  waitsCard : Bool
  result : Option (List Byte)
  act : Option Action
  dest : Nat
  vkey : List Byte
  table : Nat
  readFault : Bool
  rows : Nat
  live : Bool
deriving DecidableEq, Repr

/-- The Cinch engine. `jwait` are records that wait for a batch with room (R147); `doubted` are the DSEQs of Cinches whose doubt the
ledger has counted (R163, log 149), `nothing` the STALL actions applied as nothing (R97, log 137): DSEQ and action index. -/
structure CinchUnit where
  slots : Tab Cinch
  wins : Tab Win
  reqs : List CnReq
  psel : Nat
  quotaOpen : Tab Nat
  quotaAct : Tab Nat
  quotaHold : Tab Nat
  timeout : W32
  counters : Tab Counter
  vault : List VRec
  noteq : List W64
  jseq : Nat
  journal : List JBatch
  jwait : List (List Byte)
  doneWait : List DoneWait
  ckpt : Nat
  ckptCounters : Tab Counter
  ckptNext : Option Checkpoint
  doubted : List Nat
  nothing : List (Nat × Nat)
  forceHandle : W32
  decided : List (Nat × Nat)
  decidedStride : Nat
deriving DecidableEq, Repr

/-- The Cinch engine after reset, its stores empty. -/
def CinchUnit.reset : CinchUnit :=
  { slots := [], wins := [], reqs := [], psel := 0, quotaOpen := [], quotaAct := [], quotaHold := [], timeout := 0x1000,
    counters := [], vault := [], noteq := [], jseq := 0, journal := [], jwait := [], doneWait := [], ckpt := 0,
    ckptCounters := [], ckptNext := none, doubted := [], nothing := [], forceHandle := 0, decided := [], decidedStride := 0 }

/-! ### Tack custody (R174–R204) -/

/-- One paddock's record (R176, R181): `sealed` is the record's KEY and TAG as NOR holds them, empty for zeros. `master` is the
unsealed copy of the master key in tack custody (R182). -/
structure Paddock where
  st : Nat
  gen : Nat
  sealSeq : Nat
  sealed : List Byte
  master : Option (List Byte)
deriving DecidableEq, Repr

/-- A paddock never created. -/
def Paddock.absent : Paddock := { st := 0, gen := 0, sealSeq := 0, sealed := [], master := none }

/-- One tack: its attribute block (R183), state (R189), count and bound (R198), and key material (R196). `finalKey` and
`hashKey` are the final round key and the hash subkey H that its cache slot holds (R56, R195); `bad` says that a word of its
cache slots is uncorrectable (R18). `material` stands in the cache only. `unlinked` is an envelope written to the tack vault that no
decision has linked yet (R192), and `fillCinch` the Cinch of the held job that filled the slot (R190). -/
structure Tack where
  handle : Nat
  paddock : Nat
  algo : Nat
  param : Nat
  lenb : Nat
  usage : Nat
  policy : Nat
  volatile : Bool
  pinned : Bool
  fromT : Nat
  untilT : Nat
  limit : Nat
  label : List Byte
  st : Nat
  resident : Bool
  material : List Byte
  wcount : Nat
  count : Nat
  bound : Nat
  boundNext : Option Nat
  pendingUses : Nat
  fillPending : Bool
  rsvAt : Nat
  lru : Nat
  fetching : Bool
  errAt : Nat
  retired : Bool
  finalKey : List Byte
  hashKey : List Byte
  bad : Bool
  dseq : Nat
  unlinked : Option (List Byte)
  fillCinch : Option Nat
deriving DecidableEq, Repr

/-- An act of R177 on its way to durability: paddock, act, the stride it was asked in. -/
structure PadAct where
  paddock : Nat
  act : Nat
  asked : Nat
  cred : Nat
deriving DecidableEq, Repr

/-- An open quorum session (R201). `m` shares of `n` make a quorum, `next` are a RESPLIT's new m and n. `record` and `image` are what a RESTORE reads of the card (R203).
`dev` is the device's fresh ECDH key of the session (R199), `places` the interfaces where a RESPLIT's custodians are. -/
structure Quorum where
  openAt : Nat
  act : Nat
  cred : Nat
  m : Nat
  n : Nat
  kid : Nat
  next : Nat × Nat
  acc : List (Nat × List Byte)
  addr : Nat
  record : List Byte
  image : List Byte
  dev : List Byte
  places : List Nat
deriving DecidableEq, Repr

/-- The writes of an act of the quorum (R199, R202): the share writes of a SPLIT (1) or RESPLIT (4), or the CARD_RPMB action of a
BACKUP (2). Each is an action of its own DURABLE Cinch: `todo` those not begun, `slot` the one in progress. `sums` are the hashes
of the shares. -/
structure QuorumJob where
  act : Nat
  key : List Byte
  m : Nat
  n : Nat
  gen : Nat
  sums : Tab (List Byte)
  todo : List Action
  slot : Option Nat
deriving DecidableEq, Repr

/-- Tack custody. `vault` holds the envelopes of the tack vault by handle (R196). `sbRec` and `placeRec` are the sealed records of the
saddlebag key (R199) and the placement key (R332). `actEnd` is the quorum act that completed last, with its status. `drbg` is its
own DRBG (R190). `shareSum` keeps the SHA-256 of the share last written to each custodian (R200). -/
structure TackUnit where
  paddocks : Tab Paddock
  keep : Option (List Byte)
  held : Bool
  sbRec : Option (List Byte)
  placeRec : Option (List Byte)
  sbShares : Option (Nat × Nat)
  shareSum : Tab (List Byte)
  nextIndex : Nat
  tacks : Tab Tack
  vault : Tab (List Byte)
  acts : List PadAct
  retire : List Nat
  psel : Nat
  quota : Tab Nat
  vquota : Tab Nat
  lease : W32
  rsvTo : W32
  qwin : W32
  mint : Tab W64
  wins : Tab Win
  pend : List Pend
  actPaddock : Nat
  custodians : Tab Custodian
  quorum : Option Quorum
  job : Option QuorumJob
  actEnd : Nat × Nat
  generation : Nat
  drbg : Drbg
deriving DecidableEq, Repr

/-- Tack custody of a device in BLANK: no keep key, no paddock ever created (R174, R176, R204). -/
def TackUnit.reset : TackUnit :=
  { paddocks := [], keep := none, held := false, sbRec := none, placeRec := none, sbShares := none, shareSum := [],
    nextIndex := 1, tacks := [], vault := [], acts := [], retire := [], psel := 0,
    quota := [], vquota := [], lease := 0x400, rsvTo := 0x100000, qwin := 0x258, mint := [], wins := [], pend := [],
    actPaddock := 0, custodians := [], quorum := none, job := none, actEnd := (0, 0), generation := 0, drbg := Drbg.empty }

/-! ### Casrun (R205–R228) -/

/-- An admitted descriptor whose completion is not yet written. -/
structure Admitted where
  seq : Nat
  cid : Nat
  cls : Nat
  order : Nat
deriving DecidableEq, Repr

/-- One queue pair (R210–R212, R227). -/
structure Queue where
  st : Nat
  sqb : W64
  cqb : W64
  cfg : W32
  seq : Nat
  seqAdm : Nat
  tail : Nat
  readTo : Nat
  sqDoors : List W32
  cqDoors : List W32
  arrived : List (Nat × Option (List Byte))
  cqSeq : Nat
  cqUsed : Nat
  err : Nat
  evLost : Bool
  admitted : List Admitted
  afterDrain : Nat
  changeAt : Nat
  lastMsg : Option Nat
  msgDue : Bool
deriving DecidableEq, Repr

/-- An ABSENT queue: registers at reset. -/
def Queue.absent : Queue :=
  { st := 0, sqb := 0, cqb := 0, cfg := 0x00040000, seq := 0, seqAdm := 0, tail := 0, readTo := 0, sqDoors := [], cqDoors := [],
    arrived := [], cqSeq := 0, cqUsed := 0, err := 0, evLost := false, admitted := [], afterDrain := 0, changeAt := 0,
    lastMsg := none, msgDue := false }

/-- One function (R205–R207, R222, R227): its registers, live allotments, pending cancels, reset, MSI-X enable, function mask and
unmasked vectors, power state, payload and read-request sizes, AER uncorrectable status. -/
structure Func where
  qsel : Nat
  ferr : W32
  quota : Nat
  vectors : Nat
  adm : Nat
  cancels : List (Nat × Nat)
  resetAsked : Option Nat
  readyAt : Nat
  lastServed : Nat
  admStride : Nat
  admCount : Nat
  msixEn : Bool
  msixMask : Bool
  unmasked : Tab Bool
  pendMsg : Tab Bool
  sent : Tab Nat
  d3hot : Bool
  payload : Nat
  readReq : Nat
  aer : W32
deriving DecidableEq, Repr

/-- A function with nothing allotted. -/
def Func.reset : Func :=
  { qsel := 0, ferr := 0, quota := 0, vectors := 0, adm := 0, cancels := [], resetAsked := none, readyAt := 0,
    lastServed := 0, admStride := 0, admCount := 0, msixEn := false, msixMask := false, unmasked := [], pendMsg := [], sent := [],
    d3hot := false, payload := 128, readReq := 512, aer := 0 }

/-- A FIRMWARE entry (R223); `gone` says that its function has been reset. -/
structure FwEntry where
  fn : Nat
  q : Nat
  seq : Nat
  desc : List Byte
  order : Nat
  redelivered : Bool
  cancelled : Bool
  gone : Bool
deriving DecidableEq, Repr

/-- The firmware window of a Pacer (R228) with its four holding slots. -/
structure FwWin where
  entry : List Byte
  valid : Bool
  redelivered : Bool
  slot : Nat
  ie : Bool
  result : Tab W64
  held : Tab (Option FwEntry)
deriving DecidableEq, Repr

/-- A firmware window after reset. -/
def FwWin.reset : FwWin :=
  { entry := [], valid := false, redelivered := false, slot := 0, ie := false, result := [], held := [] }

/-- A completion that waits for its stride (R221). -/
structure HostPend where
  fn : Nat
  q : Nat
  seq : Nat
  due : Nat
  result : List Byte
deriving DecidableEq, Repr

/-- Casrun. Queue key: 4096·function + local queue. `vfEnable` and `numVFs` are SR-IOV's (R205, R206). -/
structure Casrun where
  funcs : Tab Func
  queues : Tab Queue
  link : W32
  psel : Nat
  allotQ : Tab Nat
  allotV : Tab Nat
  allotA : Tab Nat
  fifo : Tab (List FwEntry)
  fwWins : Tab FwWin
  comps : List HostPend
  notes : List (Nat × Nat × Nat × Nat)
  orderNo : Nat
  cfgReady : Bool
  lastConfig : Option (Nat × Bool)
  vfEnable : Bool
  numVFs : Nat
deriving DecidableEq, Repr

/-- Casrun after reset. -/
def Casrun.reset : Casrun :=
  { funcs := [], queues := [], link := 0, psel := 0, allotQ := [], allotV := [], allotA := [], fifo := [],
    fwWins := [], comps := [], notes := [], orderNo := 0, cfgReady := false, lastConfig := none, vfEnable := false,
    numVFs := 0 }

/-! ### Inline ports (R229–R245) -/

/-- A received frame that waits for its hand-off: where it came in, its bytes without the FCS, whether the FCS check
passed, and the executed stride and order in which it was checked. -/
structure RxFrame where
  pair : Nat
  sub : Nat
  outbound : Bool
  bytes : List Byte
  fcsOk : Bool
  at_ : Nat
deriving DecidableEq, Repr

/-- A forwarded frame in an egress queue: its bytes without the FCS, the counter block, whether it was protected (or
bypass), and the executed stride from which it may leave. -/
structure TxFrame where
  bytes : List Byte
  block : Nat
  guarded : Bool
  ready : Nat
deriving DecidableEq, Repr

/-- The inline ports. Keys: counters 32·block + counter; egress queues, frames sent, halts and the last PAUSE quanta
sent (plus one) by block; the PAUSE state of a direction buffer by 2·pair + direction. `brk` is the BREAKOUT in force,
`halted` the TAI ns at which a received PAUSE ends (0: not halted), by the block the PAUSE came in on. -/
structure InlineUnit where
  xoff : W32
  portcfg : Tab W32
  brk : Tab Bool
  link : Tab W32
  cnt : Tab Nat
  rx : List RxFrame
  egress : Tab (List TxFrame)
  sent : Tab (List (List Byte))
  pausing : Tab Bool
  pauseAt : Tab Nat
  halted : Tab Nat
  pauseSent : Tab Nat
deriving DecidableEq, Repr

/-- Inline ports after reset: every pair disabled; IL_PORTCFG is read with default 0x1C0 (R245). -/
def InlineUnit.reset : InlineUnit :=
  { xoff := 0x10000800, portcfg := [], brk := [], link := [], cnt := [], rx := [], egress := [], sent := [],
    pausing := [], pauseAt := [], halted := [], pauseSent := [] }

/-! ### Pacer cores (R246–R306) -/

/-- One return-stack entry: the eight primary words of R295 and their shadow copy (R296). -/
structure RsEntry where
  prim : List W64
  shad : List W64
deriving DecidableEq, Repr

/-- A store that waits in a core's write buffer, with the paddock and level it issued at (R256, R314). -/
structure BufStore where
  addr : Nat
  width : Nat
  val : W64
  paddock : Nat
  warden : Bool
deriving DecidableEq, Repr

/-- A paddock's context as the monitor saves it (R302): its return stack is listed newest entry first. -/
structure SavedCtx where
  g : Tab W64
  k : Tab Rein
  dsp : W64
  pc : Nat
  status : W64
  lstart : W64
  lend : W64
  lcount : W64
  stack : List RsEntry
deriving DecidableEq, Repr

/-- The fixed reset code rein of R281. -/
def resetCodeRein : Rein := { tag := true, bits := 0x00010041000500000400000000000000#128 }

/-- The fixed root rein of R281: GEN 1, TYPE 0x41, PERM 0x007B, LENGTH all ones, BASE zero. -/
def rootRein : Rein := { tag := true, bits := 0x00010041007BFFFFFFFFFF0000000000#128 }

/-- One physical Pacer. -/
structure Core where
  g : Tab W64
  k : Tab Rein
  pc : Nat
  dsp : W64
  lstart : W64
  lend : W64
  lcount : W64
  status : W64
  wcause : W64
  wpc : W64
  winfo : W64
  onchip : List RsEntry
  spilled : Nat
  spill : Rein
  water : Nat
  ie : W32
  pend : W32
  timer : W64
  msg : W32
  sender : Nat
  wbuf : List BufStore
  imprecise : Option Nat
  maskCount : Nat
  waiting : Bool
  yielded : Bool
  halted : Bool
  reason : Nat
deriving DecidableEq, Repr

/-- A core after core reset (R248–R251, R306). -/
def Core.reset : Core :=
  { g := [], k := [(14, resetCodeRein)], pc := 0, dsp := 0, lstart := 0, lend := 0, lcount := 0, status := 0x201,
    wcause := 0, wpc := 0, winfo := 0, onchip := [], spilled := 0, spill := Rein.zero, water := 0, ie := 0, pend := 0,
    timer := 0xFFFFFFFFFFFFFFFF, msg := 0, sender := 0, wbuf := [], imprecise := none, maskCount := 0, waiting := false,
    yielded := false, halted := false, reason := 0 }

/-- The Pacer cores and what the monitor keeps, keyed by 256·core + paddock: doors, the saved context of a paddock whose
slot has passed, the context a door handler interrupted, and held events as PEND bits; `evFor` keeps, by 16·core + PEND bit,
the paddock (plus one) that a pending event of a window request is for (R302, R304). -/
structure PacerUnit where
  cores : Tab Core
  mint : Rein
  maskBud : W32
  fault : W64
  rsMask : W64
  rsRot : List Nat
  startDoor : Tab Rein
  faultDoor : Tab Rein
  eventDoor : Tab Rein
  ctx : Tab (Option SavedCtx)
  handler : Tab (Option SavedCtx)
  heldEv : Tab W32
  evFor : Tab Nat
deriving DecidableEq, Repr

/-- The Pacers after reset (R306). -/
def PacerUnit.reset : PacerUnit :=
  { cores := [], mint := Rein.zero, maskBud := 0x7D0, fault := 0, rsMask := 0, rsRot := [], startDoor := [],
    faultDoor := [], eventDoor := [], ctx := [], handler := [], heldEv := [], evFor := [] }

/-! ### Vault storage (R318–R347) -/

/-- A staged write of the SLC region (R335, R336): the page that holds it, its store, paddock, handle index or table, DSEQ, and whether its page
and its map entry have reached closed wordlines. -/
structure StageRec where
  pca : Nat
  store : Nat
  paddock : Nat
  key : Nat
  dseq : Nat
  page : Bool
  map : Bool
deriving DecidableEq, Repr

/-- A firmware bank (R322): 0 empty, 1 written, 2 LOADED, 3 ACTIVE. -/
structure Bank where
  st : Nat
  seq : Nat
  sectors : Nat
  image : List Byte
deriving DecidableEq, Repr

/-- The storage controller. NOR words by word number, read with default all ones; block keys are 4096·stack + block,
wordline keys 256·block key + wordline; `cells` keeps the data of programmed units by PCA; `redo` holds the pages of a failed
superblock that are to be programmed again (R337), `fails` the failed units of the last second by block (R345); `bucket` is B in
2⁻⁶⁴ units. -/
structure VaultUnit where
  nor : Tab W64
  norProg : Tab Nat
  norLoops : Tab (Nat × Nat)
  spent : Tab Nat
  slc : Tab Bool
  loops : Tab (Nat × Nat)
  retired : Tab Bool
  lines : Tab Nat
  cells : Tab (List Byte)
  blkMap : Tab Nat
  spareUsed : Tab Nat
  lost : Tab Bool
  rebuilding : Bool
  relocate : List Nat
  stage : List StageRec
  redo : List (List Byte)
  fails : List (Nat × Nat)
  charged : Nat
  days : List (Nat × Nat)
  bucket : Int
  g : Nat
  pace : W32
  watch : W32
  retireCfg : W32
  pool : W32
  fault : W64
  hist : Tab W32
  rawSel : W64
  life : Tab Nat
  banks : Tab Bank
deriving DecidableEq, Repr

/-- The controller after reset, its media never written (R347). -/
def VaultUnit.reset : VaultUnit :=
  { nor := [], norProg := [], norLoops := [], spent := [], slc := [], loops := [], retired := [], lines := [], cells := [],
    blkMap := [], spareUsed := [], lost := [], rebuilding := false, relocate := [], stage := [], redo := [], fails := [], charged := 0,
    days := [],
    bucket := 0, g := 512, pace := 0x00015180, watch := 0x080A1800, retireCfg := 0x28140050, pool := 0x04080000, fault := 0,
    hist := [], rawSel := 0, life := [], banks := [] }

/-! ### Check-value units (R348–R362) -/

/-- One unit: its parameter set, accumulator, owner, and whether a mismatch lost the accumulator (R361). -/
structure CvRec where
  w : Nat
  poly : Nat
  init : Nat
  refin : Bool
  refout : Bool
  xorout : Nat
  acc : Nat
  own : W32
  lost : Bool
deriving DecidableEq, Repr

/-- A unit after reset: CRC-32C, accumulator wiped, unassigned (R353, R362). -/
def CvRec.reset : CvRec :=
  { w := 32, poly := 0x1EDC6F41, init := 0xFFFFFFFF, refin := true, refout := true, xorout := 0xFFFFFFFF, acc := 0,
    own := 0, lost := false }

/-- A window's GO of this stride, judged at its end: for a READ the value, or none where the accumulator is lost. -/
structure CvGo where
  req : Req
  core : Nat
  body : List Byte
  unit : Rein
  value : Option Nat
deriving DecidableEq, Repr

/-- A scan job (R358); `par` is the unit's record at its admission. -/
structure CvJob where
  req : Req
  unit : Nat
  par : CvRec
  body : List Byte
  slices : Nat
  done : Nat
  admTick : Nat
  acc : Nat
  bad : Bool
  cut : Bool
deriving DecidableEq, Repr

/-- The pool of sixteen units. -/
structure CvPool where
  units : Tab CvRec
  wins : Tab Win
  gos : List CvGo
  jobs : List CvJob
  pend : List Pend
deriving DecidableEq, Repr

/-- The pool after reset. -/
def CvPool.reset : CvPool := { units := [], wins := [], gos := [], jobs := [], pend := [] }

/-! ### Card interfaces and the contactless front end (R363–R400) -/

/-- How an exchange ended before its completion was written: status, SW, OUTLEN, VALUE, DATA. -/
structure ExEnd where
  status : Nat
  sw : Nat
  outlen : Nat
  value : Nat
  data : Option (List Byte)
deriving DecidableEq, Repr

/-- An exchange in progress: BODY and DATA as the GO sampled them, and the nonce of its RPMB request (R368). -/
structure ExRun where
  body : List Byte
  data : List Byte
  nonce : List Byte
  ended : Option ExEnd
deriving DecidableEq, Repr

/-- An exchange window (R377, R391). -/
structure ExWin where
  win : Win
  data : Tab W64
  run : Option ExRun
deriving DecidableEq, Repr

/-- A window after reset. -/
def ExWin.reset : ExWin := { win := Win.reset, data := [], run := none }

/-- A saddlebag slot (R365–R372): its CD_MCCFG, MCn_DET, power, the READY card, and the Cinch whose write runs on it. -/
structure McSlot where
  cfg : W32
  det : Bool
  since : Nat
  powered : Bool
  ready : Bool
  rejected : Bool
  expired : Bool
  cid : List Byte
  secCount : Nat
  rpmb : Nat
  width : Nat
  mode : Nat
  ext : Option Nat
deriving DecidableEq, Repr

/-- A slot after reset, MCn_DET high (R381). -/
def McSlot.reset : McSlot :=
  { cfg := 0x00FA0014, det := true, since := 0, powered := false, ready := false, rejected := false, expired := false, cid := [],
    secCount := 0, rpmb := 0, width := 0, mode := 0, ext := none }

/-- A contact interface (R373–R376). -/
structure ScSlot where
  cfg : W32
  det : Bool
  inserted : Bool
  active : Bool
  atr : List Byte
  fi : Nat
  di : Nat
  proto : Nat
  timeout : W32
  ext : Option Nat
deriving DecidableEq, Repr

/-- An interface after reset, SCn_DET high (R381). -/
def ScSlot.reset : ScSlot :=
  { cfg := 0x00FA0008, det := true, inserted := false, active := false, atr := [], fi := 1, di := 1, proto := 0,
    timeout := 0x1388, ext := none }

/-- Cards and contactless: windows keyed by SLOT code (0x00–0x03 contact, 0x10–0x11 saddlebag, 0x20 contactless). `toCard`
is what the monitor last wrote to a card (slot, LBA, bytes), `keySent` the RPMB key sent (slot, key), `toRpmb` the RPMB frames sent
(slot, frame). -/
structure CardUnit where
  mc : Tab McSlot
  sc : Tab ScSlot
  wins : Tab ExWin
  toCard : List (Nat × Nat × List Byte)
  keySent : List (Nat × List Byte)
  toRpmb : List (Nat × List Byte)
deriving DecidableEq, Repr

/-- Card interfaces after reset. -/
def CardUnit.reset : CardUnit := { mc := [], sc := [], wins := [], toCard := [], keySent := [], toRpmb := [] }

/-- The front end: reader side and witness side. `departs` counts consecutive departures of the wake electrode, `offAt`
is the executed stride of the last carrier-off, `resetting` its 10 ms; `witStart` the backup-counter ns at which the
session in progress began. -/
structure NfUnit where
  cfg : W32
  cs : W32
  fieldCfg : W32
  timeout : W32
  witEn : Bool
  csLevel : Nat
  csAt : Nat
  departs : Nat
  tokens : List TokenInfo
  active : Option (List Byte)
  rate : Nat
  carrier : Bool
  offAt : Nat
  resetting : Bool
  ext : Option Nat
  uid : List Byte
  sig : List Byte
  sessions : Nat
  day : Nat
  limited : Bool
  counted : Nat
  woke : Bool
  witStart : Option Nat
  witLevel : Nat
  selected : Bool
  witOut : List Byte
deriving DecidableEq, Repr

/-- The front end after reset (R400). -/
def NfUnit.reset : NfUnit :=
  { cfg := 0x30C, cs := 0x00640040, fieldCfg := 0x3C19, timeout := 0x1388, witEn := false, csLevel := 0, csAt := 0, departs := 0,
    tokens := [], active := none, rate := 0, carrier := false, offAt := 0, resetting := false, ext := none, uid := [], sig := [],
    sessions := 0, day := 0, limited := false, counted := 0, woke := false, witStart := none, witLevel := 0, selected := false,
    witOut := [] }
/-! ### Tamper monitors and the backup domain (R401–R417) -/

/-- The vault die's tamper state. By sensor: `alarm` (condition holds now), `fired` (not yet re-armed), `absent` (backup-
domain ns plus one since which a fired sensor's condition is absent), assigned `resp` and `mode` (backup domain, or OTP
once locked). `latches` keeps occupied latches by number. `running` is the response that is executing (R411), `shedDue`
the executed stride of the detection of a SHED that takes effect at the next boundary, `shedStart` the executed stride
of the SHED boundary. -/
structure TamperUnit where
  alarm : Tab Bool
  fired : Tab Bool
  absent : Tab Nat
  resp : Tab Nat
  mode : Tab Nat
  locked : Bool
  lockSets : Nat
  lockDue : Option Nat
  latches : Tab (Option W64)
  ovf : Nat
  shedPending : Bool
  hour : W32
  bistBusy : Bool
  bistDay : Nat
  bistRes : W64
  vbat : W32
  last : W64
  seeds : List Nat
  running : Nat
  shedDue : Option Nat
  shedStart : Option Nat
  shedBusy : Bool
deriving DecidableEq, Repr

/-- The tamper state of a device never provisioned, on main power with nothing in alarm (R406, R417). -/
def TamperUnit.reset : TamperUnit :=
  { alarm := [], fired := [], absent := [], resp := [], mode := [], locked := false, lockSets := 0, lockDue := none,
    latches := [], ovf := 0, shedPending := false, hour := 2, bistBusy := false, bistDay := 0, bistRes := 0, vbat := 0,
    last := 0, seeds := [], running := 0, shedDue := none, shedStart := none, shedBusy := false }


/-! ### Life cycle and debug (R418–R435) -/

/-- An open debug session (R430). -/
structure DbgSession where
  rights : Nat
  signer : Nat
  jtag : Bool
  fromT : Nat
  untilT : Nat
  mask : List Byte
  csrMask : Nat
deriving DecidableEq, Repr

/-- A presented certificate under verification (R428): its bytes, how it came, the executed stride of presentation, and
whether its nonce was the fresh one. -/
structure CertJob where
  bytes : List Byte
  jtag : Bool
  since : Nat
  nonceOk : Bool
deriving DecidableEq, Repr

/-- The life cycle and the debug port. `busy` is the transition in progress: its target, and the executed stride in which
fuse programming began (none while a SHED runs first); `tap` the JTAG instruction, `bscan` a boundary-scan instruction
that waits for its SHED, `halts` the paddock (plus one) a DAP HALT names on a core, `steps` the cores that may issue one
instruction, `trace` the last 256 taken branches (core, from, to), `reply` the mailbox's reply, `dapData` what the debug
access port last read. -/
structure LifeUnit where
  copies : Tab W64
  word : W64
  skew : Bool
  busy : Option (Nat × Option Nat)
  fwHash : List Byte
  dkeyHash : List Byte
  vkeyHash : List Byte
  serial : W64
  nonce : List Byte
  nonceFresh : Bool
  session : Option DbgSession
  verify : List CertJob
  result : Nat
  denied : Bool
  sel : Nat
  tap : Nat
  bscan : Option Nat
  bscanOn : Bool
  halts : Tab Nat
  steps : Tab Bool
  trace : List (Nat × Nat × Nat)
  reply : List Byte
  dapData : List Byte
deriving DecidableEq, Repr

/-- A BLANK device (R420): no fuse set. -/
def LifeUnit.reset : LifeUnit :=
  { copies := [], word := 0, skew := false, busy := none, fwHash := [], dkeyHash := [], vkeyHash := [], serial := 0, nonce := [],
    nonceFresh := false, session := none, verify := [], result := 0, denied := false, sel := 0, tap := 1, bscan := none,
    bscanOn := false, halts := [], steps := [], trace := [], reply := [], dapData := [] }
/-! ### Dictionary (R436–R464) -/

/-- A role credential (R438): ROLE, CRED_ID, PUBKEY. -/
structure Cred where
  role : Nat
  ident : Nat
  key : List Byte
deriving DecidableEq, Repr

/-- A subscription (R450): object key 256·index + subindex, and the value last reported. -/
structure Sub where
  key : Nat
  value : List Byte
deriving DecidableEq, Repr

/-- An open management session (R441–R443): the local address it is bound to (0 link-local, 1 global IPv6, 2 IPv4), its
keys, role (0: unknown credential), the greatest accepted SEQ plus one, the next NOTICE number, consecutive MAC failures,
and the executed stride of the last accepted REQUEST (or of the HELLO). -/
structure MgmtSession where
  sid : Nat
  addr : Nat
  role : Nat
  cred : Nat
  kc : List Byte
  kd : List Byte
  seqNext : Nat
  noticeNo : Nat
  fails : Nat
  used : Bool
  lastAt : Nat
  subs : List Sub
deriving DecidableEq, Repr

/-- An accepted REQUEST: its session, SEQ and body. -/
structure MgmtReq where
  sid : Nat
  seq : Nat
  body : List Byte
deriving DecidableEq, Repr

/-- A WRITE that waits for its boundary (R446): the request, the writer's role and CRED_ID, the value, whether it is
NOR-persisted, the executed stride it was taken in, and whether it has been applied and waits for its act to end. -/
structure MgmtWrite where
  req : MgmtReq
  role : Nat
  cred : Nat
  value : List Byte
  nor : Bool
  asked : Nat
  begun : Bool
deriving DecidableEq, Repr

/-- The dictionary engine. `values` holds the NOR-persisted records by object key; `kept` what was last written to each
object that has a partner; `settle` the executed stride (or frame) a pair settles at; `sent` every datagram or frame that
left the management port; `hellos` the executed strides of the HELLOs handled in the last second. -/
structure DictUnit where
  creds : Tab (Option Cred)
  sessions : List MgmtSession
  inbox : List MgmtReq
  write : Option MgmtWrite
  values : Tab (List Byte)
  kept : Tab (Option Nat)
  settle : Tab Nat
  disagree : List Nat
  sent : List (List Byte)
  hellos : List Nat
  ready : Bool
  idle : W32
  mac : W64
  link : Bool
  actKind : Nat
  actCred : Nat
  quorumArg : List Byte
deriving DecidableEq, Repr

/-- The engine after reset: nothing persisted, no credential, no session (R464). -/
def DictUnit.reset : DictUnit :=
  { creds := [], sessions := [], inbox := [], write := none, values := [], kept := [], settle := [], disagree := [], sent := [],
    hellos := [], ready := false, idle := 0x12C, mac := 0, link := false, actKind := 0, actCred := 0, quorumArg := [] }


/-! ### Unit service (R465–R478) -/

/-- One managed unit: its state (R468), requested state, latched request, the executed stride in which its present state
may end, whether its last test failed, whether a chain that a request set off runs (R473), and its last fence's reason. -/
structure UnitRec where
  st : Nat
  enabled : Bool
  latched : Option Bool
  due : Nat
  testFailed : Bool
  settling : Bool
  faultReason : Nat
deriving DecidableEq, Repr

/-- A unit before the boot self-test: IDLE, requested ENABLED. -/
def UnitRec.reset : UnitRec :=
  { st := 0, enabled := true, latched := none, due := 0, testFailed := false, settling := false, faultReason := 0 }

/-- Live firmware replacement (R475–R477): state, paddock and logical core in progress or recorded, reason, the (paddock,
logical core) pairs on the target image, whether a CANCEL is moving them back, since when the present core drains, and the
booted bank. -/
structure FwReplace where
  st : Nat
  paddock : Nat
  core : Nat
  reason : Nat
  moved : List (Nat × Nat)
  cancelling : Bool
  since : Nat
  bootedBank : Nat
deriving DecidableEq, Repr

/-- Unit service. Unit key: 128·pool + unit; map key: 128·pool + logical number, value one above the physical unit,
0 when unbound; `parked` the physical core (plus one) that last served an unbound logical core, `overruns` the units
(pool, unit) that overran in the stride. -/
structure UnitService where
  units : Tab UnitRec
  maps : Tab Nat
  parked : Tab Nat
  stops : Nat
  lost : Nat
  fwDrain : W32
  overruns : List (Nat × Nat)
  fw : FwReplace
deriving DecidableEq, Repr

/-- Unit service at reset: logical numbers bound to the units of the same number (R306, R478). -/
def UnitService.reset : UnitService :=
  { units := [],
    maps := (List.range 32).map (fun l => (l, l + 1)) ++ (List.range 64).map (fun l => (128 + l, l + 1)) ++
      (List.range 24).map (fun l => (256 + l, l + 1)),
    parked := [], stops := 0, lost := 0, fwDrain := 0x1000, overruns := [],
    fw := { st := 0, paddock := 0, core := 0, reason := 0, moved := [], cancelling := false, since := 0, bootedBank := 0 } }

/-! ### Power, reset and boot (R479–R490) -/

/-- Power and boot. `step` is PM_STAT.STEP; `porLow` that POR_N is low; `running` that boot has begun since the last reset;
`held` that the device holds itself in reset; `stopped` that boot stopped under R489; `onCell` that the backup domain runs
on VBAT; `flushing` that a flush runs, `tripped` that a brown-out began it, `porPending` that a POR_N reset waits for fuses;
`rails` are PM_RAIL, `dev` counts the consecutive measurements a rail has been off nominal and its largest deviation in per
cent; `bootTick` is the executed stride of step 1 and `stepTick` that in which the present step began, `ends` the ms by
which each step's own work is done, `badUnits` and `nandOk` what steps 3 and 4 find, `hold` that step 4 waits for VHOLD; `linkKey` is the key of the die link and `scramble`
that of the SRAM, both drawn at step 1 (R9, R17). -/
structure PowerUnit where
  step : Nat
  porLow : Bool
  running : Bool
  held : Bool
  stopped : Bool
  onCell : Bool
  vaultBo : Bool
  vholdBo : Bool
  flushing : Bool
  tripped : Bool
  porPending : Bool
  powerUp : Bool
  cause : Nat
  bootCfg : W32
  bootT : Tab W32
  rails : Tab W64
  dev : Tab (Nat × Nat)
  bootTick : Nat
  stepTick : Nat
  ends : List Nat
  badUnits : List (Nat × Nat)
  badNor : List Nat
  nandOk : Bool
  hold : Bool
  noFw : Bool
  nandFail : Bool
  linkKey : List Byte
  scramble : List Byte
deriving DecidableEq, Repr

/-- Power after reset, at boot step 1 before POR_N is released (R481, R490). -/
def PowerUnit.reset : PowerUnit :=
  { step := 1, porLow := true, running := false, held := false, stopped := false, onCell := false, vaultBo := false,
    vholdBo := false, flushing := false, tripped := false, porPending := false, powerUp := true, cause := 0, bootCfg := 0x1F4,
    bootT := [], rails := [], dev := [], bootTick := 0, stepTick := 0, ends := [], badUnits := [], badNor := [], nandOk := false,
    hold := false, noFw := false, nandFail := false,
    linkKey := [], scramble := [] }


/-! ### The block -/

/-- The whole block: every unit, memory, the model's own draw counter, and the queue of waiting commands. -/
structure State where
  mem : Memory
  time : TimeUnit
  br : Bridle
  al : AlertTree
  ledger : Ledger
  tk : TackUnit
  cn : CinchUnit
  cq : Casrun
  pc : PacerUnit
  us : UnitService
  st : StableUnit
  cf : CipherUnit
  pk : PkeUnit
  il : InlineUnit
  tm : TamperUnit
  fv : VaultUnit
  cv : CvPool
  cd : CardUnit
  nf : NfUnit
  pm : PowerUnit
  lc : LifeUnit
  od : DictUnit
  events : Tab W32
  free : Nat
  waits : List WaitReq
  pending : List Instr
deriving DecidableEq, Repr

/-- The block right after reset, before boot step 1, as a device never provisioned. -/
def State.reset : State :=
  { mem := Memory.reset,
    time := TimeUnit.reset,
    br := Bridle.reset,
    al := AlertTree.reset,
    ledger := Ledger.reset,
    tk := TackUnit.reset,
    cn := CinchUnit.reset,
    cq := Casrun.reset,
    pc := PacerUnit.reset,
    us := UnitService.reset,
    st := StableUnit.reset,
    cf := CipherUnit.reset,
    pk := PkeUnit.reset,
    il := InlineUnit.reset,
    tm := TamperUnit.reset,
    fv := VaultUnit.reset,
    cv := CvPool.reset,
    cd := CardUnit.reset,
    nf := NfUnit.reset,
    pm := PowerUnit.reset,
    lc := LifeUnit.reset,
    od := DictUnit.reset,
    events := [], free := 0, waits := [], pending := [] }

end Sys2Proof.Machine
end

