-- ==== Sys2Proof/Machine/Tab.lean ====
section
/-! DEFINITION. Operations on sparse tables: a read of an unlisted key gives the default, and a write keeps the keys
strictly rising and lists no default, so that equal tables are equal data. -/

namespace Sys2Proof.Tab

/-- The value at key `k`, or `d` where the table lists none. -/
def get {α : Type} (d : α) : Tab α → Nat → α
  | [], _ => d
  | (j, v) :: t, k => if k < j then d else if k = j then v else get d t k

/-- Put `v` at key `k`; a default is not listed. -/
def set {α : Type} [DecidableEq α] (d : α) : Tab α → Nat → α → Tab α
  | [], k, v => if v = d then [] else [(k, v)]
  | (j, w) :: t, k, v =>
    if k < j then (if v = d then (j, w) :: t else (k, v) :: (j, w) :: t)
    else if k = j then (if v = d then t.dropWhile (fun p => p.1 ≤ k) else (k, v) :: t)
    else (j, w) :: set d t k v

/-- Change the value at key `k`. -/
def upd {α : Type} [DecidableEq α] (d : α) (t : Tab α) (k : Nat) (f : α → α) : Tab α := set d t k (f (get d t k))

/-- Keys strictly rising above `lo` and no entry equal to the default. -/
def wfFrom {α : Type} [DecidableEq α] (d : α) : Option Nat → Tab α → Bool
  | _, [] => true
  | lo, (k, v) :: t => (match lo with | none => true | some l => decide (l < k)) && decide (v ≠ d) && wfFrom d (some k) t

/-- The canonical form. -/
def wf {α : Type} [DecidableEq α] (d : α) (t : Tab α) : Bool := wfFrom d none t

/-- `len` consecutive values from key `k`. -/
def slice {α : Type} (d : α) (t : Tab α) (k : Nat) : Nat → List α
  | 0 => []
  | n + 1 => get d t k :: slice d t (k + 1) n

/-- Put consecutive values from key `k`. -/
def setSlice {α : Type} [DecidableEq α] (d : α) (t : Tab α) (k : Nat) : List α → Tab α
  | [] => t
  | v :: vs => setSlice d (set d t k v) (k + 1) vs

/-- Apply `f` to every listed value, dropping those that become the default. -/
def mapVals {α : Type} [DecidableEq α] (d : α) (f : Nat → α → α) (t : Tab α) : Tab α :=
  t.foldl (fun acc p => set d acc p.1 (f p.1 (get d t p.1))) []

/-- The listed entries whose key is in `[lo, hi)` are removed. -/
def clearRange {α : Type} [DecidableEq α] (d : α) (t : Tab α) (lo hi : Nat) : Tab α :=
  t.foldl (fun acc p => if lo ≤ p.1 ∧ p.1 < hi then set d acc p.1 d else acc) t

/-- Sum of a measure over the listed entries. -/
def total {α : Type} (t : Tab α) (f : Nat → α → Nat) : Nat := t.foldl (fun a p => a + f p.1 p.2) 0

end Sys2Proof.Tab
end

