-- ==== Sys2Proof/Machine/Ops.lean ====
section
/-! DEFINITION. The named operations every unit shares: the stride number, fresh free values, event leaves and the
alert tree, ledger items and events, SRAM with its poison and rein tags, host memory, and register-field writes. -/

namespace Sys2Proof.Machine

/-! ### Time and free values -/

/-- The current stride number (R31). -/
def State.stride (s : State) : Nat := s.time.now / 1000

/-- Strides run: boot has begun and the device neither holds itself in reset nor runs on its cell (R10, R35, R482, R487). -/
def stridesRun (s : State) : Bool := s.pm.running && !s.pm.held && !s.pm.onCell

/-- The logic die does nothing: it has no power on the cell, and the device may hold itself in reset (R10, R482). -/
def State.off (s : State) : Bool := s.pm.onCell || s.pm.held

/-- Strides executed so far (R34): durations are counted in these. -/
def State.tick (s : State) : Nat := s.time.executed

/-- A free natural number; the next draw is another one (log 3). -/
def drawNat (s : State) : Nat × State := (Config.freeNat s.free, { s with free := s.free + 1 })

/-- `n` free bytes. -/
def drawBytes : Nat → State → List Byte × State
  | 0, s => ([], s)
  | n + 1, s =>
    let (v, s1) := drawNat s
    let (rest, s2) := drawBytes n s1
    (BitVec.ofNat 8 v :: rest, s2)

/-- A free value below `n` (0 where `n` is 0). -/
def drawBelow (n : Nat) (s : State) : Nat × State := let (v, s1) := drawNat s; (v % n, s1)

/-! ### Register fields (R4, R23) -/

/-- The bits a 64-bit slot write reaches: the bytes of its width at its place in the slot. -/
def laneMask (off width : Nat) : W64 := BitVec.ofNat 64 ((2 ^ (8 * width) - 1) * 2 ^ (8 * (off % 8)))

/-- An RW field set `f` of a register under a masked write. -/
def rwField (old mask val f : W64) : W64 := (old &&& ~~~(mask &&& f)) ||| (val &&& mask &&& f)

/-- The same for a 32-bit register in the low half of its slot. -/
def rw32 (old : W32) (mask val : W64) (f : Nat) : W32 :=
  (rwField (old.setWidth 64) mask val (BitVec.ofNat 64 f)).setWidth 32

/-- A W1C field set of a 32-bit register. -/
def w1c32 (old : W32) (mask val : W64) (f : Nat) : W32 := old &&& ~~~((mask &&& val).setWidth 32 &&& BitVec.ofNat 32 f)

/-- Whether a masked write writes 1 to bit `i`. -/
def writes1 (mask val : W64) (i : Nat) : Bool := (mask &&& val).getLsbD i

/-- The value of a field `[lo+len-1:lo]` after a masked write. -/
def fieldAfter (old : Nat) (mask val : W64) (lo len : Nat) : Nat :=
  natBits (rwField (BitVec.ofNat 64 (old * 2 ^ lo)) mask val (BitVec.ofNat 64 ((2 ^ len - 1) * 2 ^ lo))).toNat lo len

/-! ### Alert tree (R453, R454) -/

/-- Leaves each unit's EVENTS register defines, by CSR window number (R22, R453). -/
def eventMask : Nat → Nat
  | 0 => 0x3 | 1 => 0x3F | 2 => 0x3F | 3 => 0x7F | 4 => 0x7F | 5 => 0x3FF | 6 => 0xFF | 7 => 0x3F | 8 => 0x7F
  | 9 => 0xFF | 10 => 0xF | 11 => 0x7FF | 12 => 0xF | 13 => 0x3FF | 14 => 0xFF | 15 => 0x7F | 16 => 0x3F | 17 => 0x7F
  | 18 => 0x7F | 19 => 0x7F | _ => 0

/-- AL_LEAFEN[w]; the table keeps the leaves switched off, so reset is all-ones. -/
def State.leafEn (s : State) (w : Nat) : W32 := ~~~(Tab.get 0 s.al.leafOff w)

/-- AL_BRANCH[w] (R454). -/
def State.branch (s : State) (w : Nat) : W32 := Tab.get 0 s.events w &&& s.leafEn w

/-- AL_SUMMARY (R454). -/
def State.summary (s : State) : W32 :=
  (List.range 20).foldl (fun a w => if s.branch w = 0 then a else a ||| BitVec.ofNat 32 (2 ^ w)) 0

/-- After a change of `s0` to `s1`: remember that a bit of AL_SUMMARY & AL_MSIEN rose (R455). -/
def noteRise (s0 s1 : State) : State :=
  if (s1.summary &&& s1.al.msien) &&& ~~~(s0.summary &&& s0.al.msien) = 0 then s1
  else { s1 with al := { s1.al with rose := true } }

/-- Set leaf `bit` of the EVENTS register of window `w`. -/
def setEvent (w bit : Nat) (s : State) : State :=
  noteRise s { s with events := Tab.upd 0 s.events w (fun v => v ||| BitVec.ofNat 32 (2 ^ bit)) }

/-- Write 1 to clear leaves of window `w` (R454). -/
def clearEvents (w : Nat) (ones : W32) (s : State) : State :=
  { s with events := Tab.upd 0 s.events w (fun v => v &&& ~~~ones) }

/-- `setEvent` under a condition. -/
def setEventIf (c : Bool) (w bit : Nat) (s : State) : State := if c then setEvent w bit s else s

/-! ### Ledger (R457–R460) -/

/-- What one unit of an item's ledger word counts (R457). -/
def itemUnit (code : Nat) : Nat := if 0x1050 ≤ code ∧ code ≤ 0x107F then 65536 else 1

/-- Words waiting in the ledger queue. -/
def Ledger.waiting (l : Ledger) : Nat := l.snapQ.length + (l.eventQ.map List.length).sum + l.itemQ.length

/-- The ledger word of an item's present value, its ARG saturating. -/
def itemWord (l : Ledger) (code : Nat) : LWord :=
  { code := code, arg := min (Tab.get 0 l.items code / itemUnit code) 0xFFFFFFFF }

/-- Queue an item's word: one of the same CODE not yet written is replaced; one that finds no room among the 4,096 words
waits behind them (R458, R460). -/
def queueItem (code : Nat) (l : Ledger) : Ledger :=
  let w := itemWord l code
  if l.itemQ.any (fun x => x.code == code) then
    { l with itemQ := l.itemQ.map (fun x => if x.code == code then w else x) }
  else { l with itemQ := l.itemQ ++ [w] }

/-- Add to an item on chip. -/
def itemAddQuiet (code n : Nat) (s : State) : State :=
  { s with ledger := { s.ledger with items := Tab.upd 0 s.ledger.items code (· + n) } }

/-- Add to an on-change item: its word is queued (R458). -/
def itemAdd (code n : Nat) (s : State) : State :=
  let s1 := itemAddQuiet code n s
  { s1 with ledger := queueItem code s1.ledger }

/-- Set an on-change item. -/
def itemSet (code v : Nat) (s : State) : State :=
  if Tab.get 0 s.ledger.items code = v then s
  else
    let s1 := { s with ledger := { s.ledger with items := Tab.set 0 s.ledger.items code v } }
    { s1 with ledger := queueItem code s1.ledger }

/-- The words of a direct event (R459): head, TAI seconds, then the continuations given. -/
def eventWords (code detail : Nat) (conts : List Nat) (taiSec : Nat) : List LWord :=
  { code := code, arg := (conts.length + 1) * 2 ^ 28 + detail % 2 ^ 28 } ::
    (taiSec :: conts).zipIdx.map (fun p => { code := 0x3000 + p.2, arg := p.1 % 2 ^ 32 })

/-- Queue a direct event; one without room is dropped, counted and raised (R460). -/
def ledgerEvent (code detail : Nat) (conts : List Nat) (s : State) : State :=
  let ws := eventWords code detail conts (s.time.now / 1000000000)
  if s.ledger.waiting + ws.length ≤ 4096 then
    { s with ledger := { s.ledger with eventQ := s.ledger.eventQ ++ [ws] } }
  else setEvent 0 1 (itemAdd 0x1181 1 s)

/-- A 64-bit value as two ledger continuations, low then high. -/
def lowHigh (v : Nat) : List Nat := [v % 2 ^ 32, v / 2 ^ 32 % 2 ^ 32]

/-! ### SRAM (R16–R19, R284) -/

/-- The areas of R19 that hold bytes: Pacer local SRAM, shared scratch, Stable and frame buffer. -/
def isSram (a : Nat) : Bool :=
  (0x10000000 ≤ a && a < 0x10D00000) || (0x20000000 ≤ a && a < 0x20AC0000) ||
  (0x40000000 ≤ a && a < 0x41000000) || (0x60000000 ≤ a && a < 0x62C00000)

/-- Warden ROM. -/
def isRom (a : Nat) : Bool := a < 0x40000
/-- CSR space, the part R22 assigns to units. -/
def isCsr (a : Nat) : Bool := 0x100000000 ≤ a && a < 0x101400000
/-- Stable addresses. -/
def isStable (a : Nat) : Bool := 0x40000000 ≤ a && a < 0x41000000
/-- The Cinch's own scratch regions and hold area (R138). -/
def isCinchArea (a : Nat) : Bool := 0x20400000 ≤ a && a < 0x20AC0000
/-- The frame buffer (R242). -/
def isFrameBuf (a : Nat) : Bool := 0x60000000 ≤ a && a < 0x62C00000
/-- An address within the ranges of R20. -/
def isMapped (a : Nat) : Bool := isRom a || isSram a || isCsr a
/-- Memory whose granules hold a rein tag (R284). -/
def isTagged (a : Nat) : Bool := (0x10000000 ≤ a && a < 0x10D00000) || (0x20000000 ≤ a && a < 0x20400000)

/-- The canonical form of memory: in each of its tables the addresses rise strictly, and nothing is listed that an unlisted
address reads as. -/
def Memory.wf (m : Memory) : Bool := Tab.wf 0 m.ram && Tab.wf false m.poison && Tab.wf false m.tags && Tab.wf 0 m.host

/-- One byte of internal memory. -/
def ramByte (s : State) (a : Nat) : Byte := Tab.get 0 s.mem.ram a

/-- `n` bytes of internal memory. -/
def ramBytes (s : State) (a n : Nat) : List Byte := Tab.slice 0 s.mem.ram a n

/-- Whether a span meets a poisoned word (R18). -/
def meetsPoison (s : State) (a n : Nat) : Bool := s.mem.poison.any (fun p => p.2 && decide (a < p.1 * 8 + 8) && decide (p.1 * 8 < a + n))

/-- Put one byte, clearing its granule's tag (R284). -/
def putByte (s : State) (a : Nat) (b : Byte) : State :=
  { s with mem := { s.mem with ram := Tab.set 0 s.mem.ram a b, tags := Tab.set false s.mem.tags (a / 16) false } }

/-- Put bytes from address `a` upward. -/
def putBytes : State → Nat → List Byte → State
  | s, _, [] => s
  | s, a, b :: bs => putBytes (putByte s a b) (a + 1) bs

/-- Write bytes word by word: a poisoned word wholly covered is cleared, one partly covered keeps its poison and the
write to it is dropped; the flag says that this happened (R18). -/
def ramWrite (s : State) (a : Nat) (bs : List Byte) : State × Bool :=
  let bad := s.mem.poison.filter (fun p => p.2 && decide (a < p.1 * 8 + 8) && decide (p.1 * 8 < a + bs.length))
  let cleared := bad.filter (fun p => a ≤ p.1 * 8 && p.1 * 8 + 8 ≤ a + bs.length)
  let stuck := bad.filter (fun p => !(a ≤ p.1 * 8 && p.1 * 8 + 8 ≤ a + bs.length))
  let s1 := { s with mem := { s.mem with poison := cleared.foldl (fun t p => Tab.set false t p.1 false) s.mem.poison } }
  if stuck.isEmpty then (putBytes s1 a bs, false)
  else
    (bs.zipIdx.foldl (fun st p => if stuck.any (fun q => q.1 == (a + p.2) / 8) then st else putByte st (a + p.2) p.1) s1, true)

/-- The area of R16 that an SRAM address lies in: Stable, frame buffer, Pacer local, scratch; 4 is the tack cache, 5 PKE
operand memory. -/
def sramArea (a : Nat) : Nat := if isStable a then 0 else if isFrameBuf a then 1 else if a < 0x20000000 then 2 else 3

/-- The ledger's correction item of an area (R457); the next code counts its uncorrectable words. -/
def eccItem (area : Nat) : Nat := 0x1041 + 2 * area

/-- A leaf of the alert tree, by a number that names any leaf some EVENTS register defines (R453). -/
def raiseLeaf (v : Nat) (s : State) : State :=
  let w := v / 32 % 20
  setEvent w (v % 32 % Nat.log2 (eventMask w + 1)) s

/-- An uncorrectable word of an area was met: it is counted, and an alert is raised (R18). -/
def eccFound (area : Nat) (s : State) : State := raiseLeaf (Config.eccLeaf area) (itemAdd (eccItem area + 1) 1 s)

/-- An uncorrectable mapped word was met. -/
def noteUncorrectable (a : Nat) (s : State) : State := eccFound (sramArea a) s

/-! ### Host memory (R21, R224) -/

/-- Whether the device's read or write of this host span fails on the bus (an input of the environment; log 5). -/
def hostFails (s : State) (a n : Nat) : Bool := s.mem.hostBad.any (fun r => a < r.1 + r.2 && r.1 < a + n)

/-- `n` bytes of host memory. -/
def hostBytes (s : State) (a n : Nat) : List Byte := Tab.slice 0 s.mem.host a n

/-- Write host memory. -/
def hostPut (s : State) (a : Nat) (bs : List Byte) : State :=
  { s with mem := { s.mem with host := Tab.setSlice 0 s.mem.host a bs } }

/-! ### Windows -/

/-- Words of a window field as bytes, little-endian. -/
def wordsBytes (t : Tab W64) (n : Nat) : List Byte := (Tab.slice 0 t 0 n).flatMap (fun w => natToLE 8 w.toNat)

/-- Bytes as the words of a window field. -/
def bytesWords (bs : List Byte) : Tab W64 :=
  Tab.setSlice 0 [] 0 ((chunks 8 bs).map (fun c => BitVec.ofNat 64 (leToNat c)))

/-- A window when its request ends: RESULT written, DONE set, BUSY clear. -/
def Win.finish (w : Win) (bs : List Byte) : Win := { w with result := bytesWords bs, done := true, busy := false }

/-- One 64-bit slot of a window field after a masked write, dropped with BUSYWR set while BUSY (R77). -/
def Win.writeBody (w : Win) (i : Nat) (mask val : W64) : Win :=
  if w.busy then { w with busyWr := true }
  else { w with body := Tab.upd 0 w.body i (fun v => rwField v mask val (-1)) }

/-- Little-endian number of a span of bytes. -/
def field (bs : List Byte) (off n : Nat) : Nat := leToNat ((bs.drop off).take n)

/-! ### Reins (R278) -/

/-- GEN field. -/
def Rein.gen (r : Rein) : Nat := natBits r.bits.toNat 112 16
/-- PADDOCK field. -/
def Rein.pad (r : Rein) : Nat := natBits r.bits.toNat 104 8
/-- SEALED, TYPE bit 7. -/
def Rein.isSealed (r : Rein) : Bool := natBit r.bits.toNat 103
/-- WARDEN, TYPE bit 6. -/
def Rein.isWarden (r : Rein) : Bool := natBit r.bits.toNat 102
/-- KIND, TYPE bits [5:0]. -/
def Rein.kind (r : Rein) : Nat := natBits r.bits.toNat 96 6
/-- PERM field. -/
def Rein.perm (r : Rein) : Nat := natBits r.bits.toNat 80 16
/-- LENGTH field. -/
def Rein.len (r : Rein) : Nat := natBits r.bits.toNat 40 40
/-- BASE field. -/
def Rein.base (r : Rein) : Nat := natBits r.bits.toNat 0 40

/-- Build a rein from its fields; `typ` is the whole TYPE byte. -/
def Rein.make (tag : Bool) (gen pad typ perm len base : Nat) : Rein :=
  { tag := tag,
    bits := BitVec.ofNat 128 (gen % 65536 * 2 ^ 112 + pad % 256 * 2 ^ 104 + typ % 256 * 2 ^ 96 + perm % 65536 * 2 ^ 80 +
      len % 2 ^ 40 * 2 ^ 40 + base % 2 ^ 40) }

/-! ### Paddock generations (R180, R286) -/

/-- One paddock's record. -/
def State.paddock (s : State) (p : Nat) : Paddock := Tab.get Paddock.absent s.tk.paddocks p

/-- Whether `gen` is the current generation of ACTIVE paddock `p` (R180, R286). -/
def genCurrent (s : State) (p gen : Nat) : Bool := (s.paddock p).st == 1 && (s.paddock p).gen == gen

/-- The generation test of R255: a Warden rein's owner has generation 1 always (R281). -/
def Rein.genOk (s : State) (r : Rein) : Bool := if r.isWarden then r.gen == 1 else genCurrent s r.pad r.gen

end Sys2Proof.Machine
end

