-- ==== Sys2Proof/Machine/Bridle.lean ====
section
/-! DEFINITION. Bridle access control (R307–R317): regions, the judgement of an access byte by byte, fault reports, and
reads and writes of internal memory by any master. -/

namespace Sys2Proof.Machine

/-- One access as a Bridle unit sees it (R307): unit, paddock, class (0 PADDOCK, 1 WARDEN, 2 DEBUG). -/
structure Access where
  unit : Nat
  paddock : Nat
  cls : Nat
deriving DecidableEq, Repr

/-- LIVE of a region register. -/
def rgnLive (r : W64) : Bool := natBit r.toNat 63
/-- ORDER. -/
def rgnOrder (r : W64) : Nat := natBits r.toNat 58 5
/-- FRAME. -/
def rgnFrame (r : W64) : Nat := natBits r.toNat 30 28
/-- HOLES. -/
def rgnHoles (r : W64) : Nat := natBits r.toNat 22 8
/-- Size in bytes (R308). -/
def rgnSize (r : W64) : Nat := 2 ^ (rgnOrder r + 12)
/-- First byte address. -/
def rgnBase (r : W64) : Nat := rgnFrame r * 4096

/-- Whether an enabled region covers an address: its sub-region is not a hole (R308). -/
def rgnCovers (r : W64) (a : Nat) : Bool :=
  rgnLive r && decide (rgnBase r ≤ a) && decide (a < rgnBase r + rgnSize r) &&
    !natBit (rgnHoles r) ((a - rgnBase r) / (rgnSize r / 8))

/-- Whether a region admits the class, paddock and direction (R309). -/
def rgnAdmits (r : W64) (acc : Access) (wr : Bool) : Bool :=
  natBit r.toNat (3 + acc.cls) &&
    (BitVec.ofNat 8 acc.paddock &&& BitVec.ofNat 8 (natBits r.toNat 6 8) ==
      BitVec.ofNat 8 (natBits r.toNat 14 8) &&& BitVec.ofNat 8 (natBits r.toNat 6 8)) &&
    natBit r.toNat (if wr then 2 else 1)

/-- The 32 region registers of a unit. -/
def unitRegions (s : State) (u : Nat) : List W64 := Tab.slice 0 s.br.rgn (u * 32) 32

/-- Areas a master is not entitled to (R138, R242). -/
def isReserved (u a : Nat) : Bool := isCinchArea a || (isFrameBuf a && !(26 ≤ u && u ≤ 33))

/-- The outcome of R310 for one byte: `none` permits, else the fault code. `badWidth` says the access is a CSR access
of a width or alignment that R23 does not perform, from a master other than a Pacer. -/
def bridleCode (s : State) (acc : Access) (wr badWidth : Bool) (a : Nat) : Option Nat :=
  if !isMapped a then some 1
  else if isReserved acc.unit a then some 4
  else if isCsr a && badWidth then some 6
  else if 26 ≤ acc.unit ∧ acc.unit ≤ 33 then (if isFrameBuf a then none else some 1)
  else
    match (unitRegions s acc.unit).filter (fun r => rgnCovers r a) with
    | [] => if acc.cls = 1 ∧ acc.unit ≤ 25 then none else some 1
    | [r] => if rgnAdmits r acc wr then none else some 2
    | _ => some 3

/-- Paddock a stall belongs to, and its state, by an address inside it (R84). -/
def stallBaseOf (a : Nat) : Nat := a / 256 * 256

/-- The Stable's own refusal of a read (R88): a FREE stall or another paddock's. -/
def stallReadRefused (s : State) (p a : Nat) : Bool :=
  isStable a && (ramByte s (stallBaseOf a) == 0 || (ramByte s (stallBaseOf a + 2)).toNat != p)

/-- The Stable's own refusal of an ordinary store (R88). -/
def stallStoreRefused (s : State) (p a : Nat) : Bool :=
  isStable a &&
    !(ramByte s (stallBaseOf a) == 1 && (ramByte s (stallBaseOf a + 2)).toNat == p &&
      ((6 ≤ a % 256 && a % 256 ≤ 0x3F) || (0xE0 ≤ a % 256 && a % 256 ≤ 0xEF)))

/-- Code of a byte after the Bridle unit and the Stable have judged it. -/
def accessCode (s : State) (acc : Access) (wr badWidth : Bool) (a : Nat) : Option Nat :=
  match bridleCode s acc wr badWidth a with
  | some c => some c
  | none =>
    if wr then (if stallStoreRefused s acc.paddock a then some 5 else none)
    else (if stallReadRefused s acc.paddock a then some 5 else none)

/-- Record a fault (R313): BR_UFAULT, COUNT, NEW, BR_FAULTS and BR_EVENTS.FAULT; a store that the Stable drops sets
ST_EVENTS.LIVE_WRITE (R88). -/
def bridleFault (acc : Access) (wr : Bool) (a code : Nat) (s : State) : State :=
  let v := acc.paddock % 256 * 2 ^ 56 + code % 256 * 2 ^ 48 + acc.cls % 4 * 2 ^ 41 + b2n wr * 2 ^ 40 + a % 2 ^ 40
  setEventIf (wr && code == 5) 3 6 (setEvent 10 0 { s with br := { s.br with
    ufault := Tab.set 0 s.br.ufault acc.unit (BitVec.ofNat 64 v),
    count := Tab.upd 0 s.br.count acc.unit (fun n => min (n + 1) 0xFFFF),
    fresh := Tab.set false s.br.fresh acc.unit true,
    faults := min (s.br.faults + 1) 0xFFFFFFFF } })

/-- The lowest refused byte of a span and its code (R312). -/
def firstRefused (s : State) (acc : Access) (wr badWidth : Bool) : Nat → Nat → Option (Nat × Nat)
  | _, 0 => none
  | a, n + 1 =>
    match accessCode s acc wr badWidth a with
    | some c => some (a, c)
    | none => firstRefused s acc wr badWidth (a + 1) n

/-- A byte as memory gives it. -/
def plainByte (s : State) (a : Nat) : Byte := if isRom a then Config.rom a else if isSram a then ramByte s a else 0

/-- The answer of a read: data with zeros for refused bytes, the fault, and whether an uncorrectable word was met. -/
structure BusRead where
  data : List Byte
  refused : Option (Nat × Nat)
  ecc : Bool
deriving DecidableEq, Repr

/-- A CSR access R23 does not perform; ST_EXPQ and CN_NOTEQ are reached whole only. -/
def csrWidthBad (a n : Nat) : Bool :=
  isCsr a && !((n == 4 || n == 8) && a % n == 0 && !(n == 4 && (a / 8 * 8 == 0x100300040 || a / 8 * 8 == 0x100500050)))

/-- Move `n` bytes from `a` for a master (R310, R312, R18). A transfer of bytes is no CSR access of R23, so a part of it in
CSR space is refused (log 76). -/
def busRead (s : State) (acc : Access) (a n : Nat) : BusRead :=
  { data := (List.range n).map (fun i =>
      if (accessCode s acc false true (a + i)).isNone then plainByte s (a + i) else 0),
    refused := firstRefused s acc false true a n, ecc := meetsPoison s a n }

/-- The state after a read's faults have been recorded. -/
def noteRead (acc : Access) (a : Nat) (r : BusRead) (s : State) : State :=
  let s1 := match r.refused with | some (fa, c) => bridleFault acc false fa c s | none => s
  if r.ecc then noteUncorrectable a s1 else s1

/-- The permitted bytes of a write, as maximal runs of (address, bytes). -/
def permittedRuns (s : State) (acc : Access) : Nat → List Byte → List (Nat × List Byte)
  | _, [] => []
  | a, b :: bs =>
    let rest := permittedRuns s acc (a + 1) bs
    if (accessCode s acc true true a).isNone && isSram a then
      match rest with
      | (a2, run) :: more => if a2 = a + 1 then (a, b :: run) :: more else (a, [b]) :: rest
      | [] => [(a, [b])]
    else rest

/-- The answer of a write: the state, the fault, and whether a poisoned word was met in part. -/
structure BusWrite where
  st : State
  refused : Option (Nat × Nat)
  ecc : Bool

/-- Write bytes for a master: permitted parts land in ascending order, refused parts are dropped and reported (R312). -/
def busWrite (s : State) (acc : Access) (a : Nat) (bs : List Byte) : BusWrite :=
  let ref := firstRefused s acc true true a bs.length
  let (s1, ecc) := (permittedRuns s acc a bs).foldl
    (fun st r => let (x, e) := ramWrite st.1 r.1 r.2; (x, st.2 || e)) (s, false)
  let s2 := match ref with
    | some (fa, c) => bridleFault acc true fa c s1
    | none => s1
  { st := if ecc then noteUncorrectable a s2 else s2, refused := ref, ecc := ecc }

/-- Whether a whole span may be read or written, without performing it. -/
def busAllowed (s : State) (acc : Access) (wr : Bool) (a n : Nat) : Bool :=
  (firstRefused s acc wr true a n).isNone

/-- Record the fault of a span that a check refuses, with nothing accessed (R152, R153, R313). -/
def noteRefused (s : State) (acc : Access) (wr : Bool) (a n : Nat) : State :=
  match firstRefused s acc wr true a n with
  | some (fa, c) => bridleFault acc wr fa c s
  | none => s

/-! ### Region writes (R311, R317) -/

/-- The sub-regions a region covers, as intervals. -/
def rgnSpans (r : W64) : List (Nat × Nat) :=
  if rgnLive r then
    (List.range 8).filterMap (fun i =>
      if natBit (rgnHoles r) i then none
      else some (rgnBase r + i * (rgnSize r / 8), rgnBase r + (i + 1) * (rgnSize r / 8)))
  else []

/-- Two enabled regions cover a common address. -/
def rgnsOverlap (r q : W64) : Bool :=
  (rgnSpans r).any (fun x => (rgnSpans q).any (fun y => decide (x.1 < y.2 ∧ y.1 < x.2)))

/-- Some pair of a unit's regions overlaps (R311). -/
def unitOverlap : List W64 → Bool
  | [] => false
  | r :: rs => rs.any (rgnsOverlap r) || unitOverlap rs

/-- A value R317 refuses. -/
def rgnBad (v : W64) : Bool :=
  natBit v.toNat 0 || (rgnLive v && (rgnOrder v > 28 || rgnFrame v % 2 ^ rgnOrder v != 0))

/-- A write of BR_RGN[u][r] (R311, R317): `whole` says it is a single 64-bit access. -/
def writeRegion (u r : Nat) (whole : Bool) (v : W64) (s : State) : State :=
  if !whole || rgnBad v then setEvent 10 2 s
  else
    let s1 := { s with br := { s.br with rgn := Tab.set 0 s.br.rgn (u * 32 + r) v } }
    let ov := unitOverlap (unitRegions s1 u)
    let s2 := { s1 with br := { s1.br with warn := Tab.set false s1.br.warn u ov } }
    setEventIf ov 10 1 s2

/-- REGION_WRITE: the Warden level's write of a region register (R316, R317). A write from the paddock level or the
debug access port is dropped (R10). -/
def execRegionWrite (warden : Bool) (u r width : Nat) (v : W64) (s : State) : Host.Outcome State Fault Refusal :=
  if warden && u < 41 && r < 32 && !s.off then .next (writeRegion u r (width == 8) v s) else .next s

end Sys2Proof.Machine
end

