-- ==== Sys2Proof/Machine/Time.lean ====
section
/-! DEFINITION. The time unit (R31–R54): the count and its steps, the servo's acceptance of samples, uncertainty and
state, windows of validity, the slot layout of the frame, and the pulse output. -/

namespace Sys2Proof.Machine

/-! ### Uncertainty and state (R50–R53) -/

/-- TI_TOL with its floor (R52). -/
def tolEff (t : TimeUnit) : Nat := max t.tol.toNat 1000

/-- TI_CFG.HOLD_START. -/
def holdStart (t : TimeUnit) : Bool := t.cfg.getLsbD 0

/-- TI_DRIFT held to its range (R52, R54). -/
def driftEff (t : TimeUnit) : Nat := max 100 (min t.drift.toNat 50000)

/-- U rounded up to whole ns while it grows from `u0` at `t0` (R50). -/
def grownU (t : TimeUnit) : Nat := t.u0 + ceilDiv ((t.now - t.t0) * driftEff t) 1000000000

/-- The U in force now (R50); meaningless while the mode is unknown. -/
def TimeUnit.uNow (t : TimeUnit) : Nat :=
  match t.mode with
  | .locked => t.u
  | .unknown => 0
  | _ => grownU t

/-- TI_STATE.STATE (R50): 0 UNSET, 1 LOCKED, 2 HOLDOVER, 3 UNSURE. -/
def timeState (t : TimeUnit) : Nat :=
  match t.mode with
  | .unknown => 0
  | .provisional => if holdStart t then (if t.uNow ≤ tolEff t then 2 else 3) else 0
  | .locked => if t.uNow ≤ tolEff t then 1 else 3
  | .holdover => if t.uNow ≤ tolEff t then 2 else 3

/-- TI_UNCERT.UNCERT: all ones while U is unknown or at least that (R54). -/
def uncertReg (t : TimeUnit) : W32 := BitVec.ofNat 32 (if t.mode = .unknown then 0xFFFFFFFF else min t.uNow 0xFFFFFFFF)

/-- The time state lets PTP_PPS_OUT be high, and EN is set (R39). -/
def ppsMay (t : TimeUnit) : Bool := (timeState t == 1 || timeState t == 2) && t.pps.getLsbD 0

/-- After a change that may move the time state: entering UNSURE sets TI_EVENTS.TOL_EXCEEDED (R50), PTP_PPS_OUT is held low
outside LOCKED and HOLDOVER and with EN clear (R39), and HOLD_START_USED follows (R53). -/
def noteUnsure (s : State) : State :=
  let now3 := timeState s.time == 3
  let s1 := if now3 && !s.time.unsureWas then setEvent 1 2 s else s
  { s1 with time := { s1.time with
    unsureWas := now3, u := s1.time.uNow, ppsOut := s1.time.ppsOut && ppsMay s1.time,
    holdStartUsed := holdStart s1.time && s1.time.mode == .provisional } }

/-- The open end of a window (R48). -/
def noEnd : Nat := 0xFFFFFFFFFFFFFFFF

/-- A window with a start or an end makes its job time-bound (R48). -/
def windowBound (w : Nat × Nat) : Bool := w.1 != 0 || w.2 != noEnd

/-- How a window is judged. -/
inductive Judged where
  | inside | closed | unsure | waits
deriving DecidableEq, Repr

/-- One window judged at the current stride (R47, R51). -/
def judgeWindow (t : TimeUnit) (w : Nat × Nat) : Judged :=
  let tm := t.now / 1000 * 1000
  let u := t.uNow
  if !windowBound w then .inside
  else if timeState t = 0 then .waits
  else if timeState t = 3 then
    (if w.1 + u ≤ tm ∨ w.1 = 0 then
      (if tm + u < w.2 ∨ w.2 = noEnd then .inside
       else if w.2 + u ≤ tm then .closed else .unsure)
     else if tm + u < w.1 ∨ (w.2 + u ≤ tm ∧ w.2 ≠ noEnd) then .closed else .unsure)
  else if w.1 ≤ tm ∧ (tm < w.2 ∨ w.2 = noEnd) then .inside else .closed

/-- Several windows combined (R51): outside wins, then an edge in the band. -/
def judgeAll (t : TimeUnit) (ws : List (Nat × Nat)) : Judged :=
  let js := ws.map (judgeWindow t)
  if js.contains .waits then .waits
  else if js.contains .closed then .closed
  else if js.contains .unsure then .unsure
  else .inside

/-! ### Servo (R33, R36) -/

/-- The U of a locked servo: twice the mean accepted offset plus 50 ns, rounded up (R50). -/
def lockedU (acc : List Nat) : Nat := ceilDiv (2 * acc.sum) acc.length + 50

/-- The rate correction the servo chooses, within 50 ppm (R32); its value is free. -/
def freeRate (s : State) : W32 × State :=
  let (v, s1) := drawNat s
  (BitVec.ofInt 32 ((v % 100000001 : Nat) - 50000000 : Int), s1)

/-- Take a valid sample: lock, step where a step is due, and form U from the accepted offsets (R33, R36, R50; log 128). -/
def acceptSample (off : Int) (clockId : W64) (s : State) : State :=
  let t := s.time
  let mag := off.natAbs
  let stepOk := !t.firstLock || t.reacquire
  let steps := if stepOk && off < 0 then mag / 1000 else 0
  let fresh := t.mode != .locked
  let acc := (mag :: (if fresh then [] else t.accepted)).take 16
  let (r, s1) := freeRate s
  let s2 := { s1 with time := { s1.time with
    mode := .locked, accepted := acc, u := lockedU acc, discards := 0, reacquire := false, firstLock := true,
    offset := BitVec.ofInt 64 off, rate := r, master := clockId,
    stepPending := s1.time.stepPending + steps } }
  noteUnsure (setEventIf fresh 1 0 s2)

/-- The power profile is selected (R54). -/
def powerProfile (t : TimeUnit) : Bool := natBits t.cfg.toNat 1 2 == 2

/-- TI_CFG.DOMAIN. -/
def ptpDomain (t : TimeUnit) : Nat := natBits t.cfg.toNat 16 8

/-- Lists of equal length in lexicographic order. -/
def lexLess : List Nat → List Nat → Bool
  | a :: as, b :: bs => decide (a < b) || (a == b && lexLess as bs)
  | _, _ => false

/-- The default BMCA prefers `m` to `x` (R37; log 129): of one grandmaster the shorter way, else the better dataset. -/
def masterBetter (m x : ForeignMaster) : Bool :=
  let key (d : PtpDataset) : List Nat := [d.prio1, d.cls, d.accuracy, d.variance, d.prio2, d.gm.toNat]
  if m.data.gm = x.data.gm then lexLess [m.data.steps, m.clockId.toNat] [x.data.steps, x.clockId.toNat]
  else lexLess (key m.data) (key x.data)

/-- The best of some foreign masters (R37). -/
def bestMaster (ms : List ForeignMaster) : Option ForeignMaster :=
  ms.foldl (fun b m => match b with
    | none => some m
    | some x => if masterBetter m x then some m else some x) none

/-- The selected master: the best of the domain that TI_CFG names. -/
def selected (t : TimeUnit) : Option ForeignMaster := bestMaster (t.masters.filter (fun m => m.dom == ptpDomain t))

/-- Whether a message comes from the selected master (R36). -/
def fromMaster (t : TimeUnit) (clockId : W64) : Bool := (selected t).any (fun m => m.clockId == clockId)

/-- Forget the exchanges with a master: no sample takes its path delay from another clock's exchange (R36). The peer delay of
the power profile is no master's. -/
def newExchange (t : TimeUnit) : TimeUnit :=
  if powerProfile t then { t with syncPend := none, lastSync := none, syncAt := none }
  else { t with syncPend := none, lastSync := none, syncAt := none, delayReq := none, pathKnown := false }

/-- Put a list of foreign masters, run the selection, and show the selected one and its UTC offset (R37, R54). -/
def setMasters (ms : List ForeignMaster) (t0 : TimeUnit) : TimeUnit :=
  let t := { t0 with masters := ms }
  match selected t with
  | none => { newExchange t with master := 0, utc := 0 }
  | some b =>
    { (if b.clockId = t.master then t else newExchange t) with
      master := b.clockId, utc := BitVec.ofNat 32 (b.utc.toNat + b2n b.utcValid * 65536) }

/-- The master is lost: holdover from the U in force (R36, R37, R50), and the selection runs without it. Without a first lock
the provisional or unknown time goes on. -/
def loseMaster (s : State) : State :=
  let ms := match selected s.time with
    | some b => s.time.masters.filter (fun m => !(m.dom == b.dom && m.clockId == b.clockId))
    | none => s.time.masters
  let t := setMasters ms (newExchange s.time)
  if s.time.mode = .locked then
    noteUnsure (setEvent 1 1 { s with time := { t with mode := .holdover, u0 := s.time.u, t0 := s.time.now, accepted := [] } })
  else { s with time := t }

/-- Judge one valid sample (R36). -/
def takeSample (off : Int) (clockId : W64) (s : State) : State :=
  let t := s.time
  if t.disagree then s
  else if !t.firstLock || t.reacquire then acceptSample off clockId s
  else if off.natAbs > t.uNow + 1000 then
    let n := t.discards + 1
    if n < 8 then { s with time := { t with discards := n } }
    else
      let s1 := setEvent 1 3 { s with time := { t with discards := 0, disagree := true } }
      loseMaster s1
  else acceptSample off clockId s

/-- A message that the port takes: strides run and it is of the domain (R37). -/
def ptpTakes (s : State) (dom : Nat) : Bool := stridesRun s && dom == ptpDomain s.time

/-- A Sync with its origin time is complete: the times t1 and t2 with the receive latency added (R38) and, once a path
delay is known, the sample (R36). -/
def completeSync (clockId : W64) (t1 t2 corr : Nat) (s : State) : State :=
  let rx := t2 + natBits s.time.phyLat.toNat 16 16
  let s1 := { s with time := { s.time with lastSync := some (t1 + corr, rx), syncPend := none } }
  if s.time.pathKnown then
    takeSample ((rx : Int) - (t1 : Int) - (corr : Int) - (s.time.path.toNat : Int)) clockId s1
  else s1

/-- A Sync interval that is accepted: logSyncInterval −4 to +1 (R37). -/
def syncIntervalOk (l : Int) : Bool := decide (-4 ≤ l) && decide (l ≤ 1)

/-- PTP_SYNC (R36, R37). -/
def execPtpSync (src : PtpSource) (seq : Nat) (twoStep : Bool) (origin ingress corr : Nat) (s : State) :
    Host.Outcome State Fault Refusal :=
  if ptpTakes s src.dom && fromMaster s.time src.clockId && syncIntervalOk src.logInt then
    let s1 := { s with time := { s.time with syncAt := some (s.tick, src.logInt) } }
    if twoStep then .next { s1 with time := { s1.time with syncPend := some (src.clockId, seq, ingress) } }
    else .next (completeSync src.clockId origin ingress corr s1)
  else .next s

/-- PTP_FOLLOW_UP: completes the two-step Sync of the same clock and sequence (R36). -/
def execPtpFollowUp (src : PtpSource) (seq origin corr : Nat) (s : State) : Host.Outcome State Fault Refusal :=
  match s.time.syncPend with
  | some (c, q, ingress) =>
    if ptpTakes s src.dom && c == src.clockId && q == seq && fromMaster s.time src.clockId then
      .next (completeSync src.clockId origin ingress corr s)
    else .next s
  | none => .next s

/-- DELAY_REQ_SEND: its egress time, with the transmit latency added (R37, R38). Under the power profile the same
event sends the Pdelay_Req. -/
def execDelayReqSend (seq egress : Nat) (s : State) : Host.Outcome State Fault Refusal :=
  if stridesRun s then
    .next { s with time := { s.time with delayReq := some (seq, egress + natBits s.time.phyLat.toNat 0 16), pdelayPend := none } }
  else .next s

/-- Set the mean path delay, not below zero. -/
def setPath (d : Int) (s : State) : State :=
  { s with time := { s.time with
    path := BitVec.ofNat 32 (min d.toNat 0xFFFFFFFF), pathKnown := true, delayReq := none, pdelayPend := none } }

/-- PTP_DELAY_RESP: the mean path delay of the default profile (R37). -/
def execPtpDelayResp (src : PtpSource) (seq receive corr : Nat) (s : State) : Host.Outcome State Fault Refusal :=
  match s.time.delayReq, s.time.lastSync with
  | some (q, t3), some (t1, t2) =>
    if ptpTakes s src.dom && q == seq && fromMaster s.time src.clockId && !powerProfile s.time then
      .next (setPath ((((t2 : Int) - t1) + ((receive : Int) - corr - t3)) / 2) s)
    else .next s
  | _, _ => .next s

/-- PTP_PDELAY_RESP: the peer delay of the power profile (R37). A one-step Pdelay_Resp carries the turnaround in its correction;
a two-step one carries t2 as `time` and waits for the Pdelay_Resp_Follow_Up of the same clock, which carries t3. -/
def execPtpPdelayResp (src : PtpSource) (seq : Nat) (part : PdelayPart) (time corr : Nat) (s : State) :
    Host.Outcome State Fault Refusal :=
  match s.time.delayReq with
  | none => .next s
  | some (q, t1) =>
    if !(ptpTakes s src.dom && q == seq && powerProfile s.time) then .next s
    else match part with
      | .followUp =>
        match s.time.pdelayPend with
        | some (c, n, t2, t4, corr1) =>
          if c == src.clockId && n == seq then
            .next (setPath (((t4 : Int) - t1 - ((time : Int) - t2) - corr1 - corr) / 2) s)
          else .next s
        | none => .next s
      | .resp twoStep ingress =>
        let t4 := ingress + natBits s.time.phyLat.toNat 16 16
        if twoStep then .next { s with time := { s.time with pdelayPend := some (src.clockId, seq, time, t4, corr) } }
        else .next (setPath (((t4 : Int) - t1 - corr) / 2) s)

/-- PTP_PDELAY_REQ: under the power profile the device answers with its receive and transmit times (R37). -/
def execPtpPdelayReq (dom seq : Nat) (stay : PdelayStay) (s : State) : Host.Outcome State Fault Refusal :=
  if ptpTakes s dom && powerProfile s.time then
    .next { s with time := { s.time with
      pdelayAnswer := some (seq, stay.ingress + natBits s.time.phyLat.toNat 16 16,
        stay.egress + natBits s.time.phyLat.toNat 0 16) } }
  else .next s

/-- PTP_ANNOUNCE: enter or renew the foreign master and run the selection (R37, R54). At most 8 are kept: while 8 are, a further
one is ignored, which the spec does not say (DESIGN CHOICE, log 130). -/
def execPtpAnnounce (src : PtpSource) (data : PtpDataset) (utc : BitVec 16) (utcValid : Bool) (s : State) :
    Host.Outcome State Fault Refusal :=
  if !ptpTakes s src.dom then .next s
  else
    let m : ForeignMaster := {
      dom := src.dom, clockId := src.clockId, data := data, utc := utc, utcValid := utcValid, heard := s.tick, logInt := src.logInt }
    let same (x : ForeignMaster) : Bool := x.dom == src.dom && x.clockId == src.clockId
    let ms := if s.time.masters.any same then s.time.masters.map (fun x => if same x then m else x)
      else if s.time.masters.length < 8 then s.time.masters ++ [m] else s.time.masters
    .next { s with time := setMasters ms s.time }

/-- `n` intervals of 2^`l` seconds have passed in so many strides. -/
def intervalsPassed (n : Nat) (l : Int) (strides : Nat) : Bool := decide (n * 1000000 * 2 ^ l.toNat ≤ strides * 2 ^ (-l).toNat)

/-- The selected master is silent: no Announce for 3 intervals, or no Sync for 4 (R37). -/
def masterSilent (s : State) : Bool :=
  (selected s.time).any (fun b => intervalsPassed 3 b.logInt (s.tick - b.heard)) ||
    s.time.syncAt.any (fun p => intervalsPassed 4 p.2 (s.tick - p.1))

/-- MASTER_LOSS: the selected master has been silent, is dropped, and a locked counter goes into holdover (R37, R50). -/
def execMasterLoss (s : State) : Host.Outcome State Fault Refusal :=
  if stridesRun s && masterSilent s then .next (loseMaster s) else .next s

/-- The re-acquire request (R36). -/
def reacquire (s : State) : State := { s with time := { s.time with disagree := false, reacquire := true, discards := 0 } }

/-- REACQUIRE: an officer's or the monitor's request (R36). -/
def execReacquire (s : State) : Host.Outcome State Fault Refusal := if stridesRun s then .next (reacquire s) else .next s

/-- TI_CFG is written (R54): another domain or profile begins without exchanges, and a master it does not know is lost. -/
def setCfg (v : W32) (s : State) : State :=
  let old := s.time
  let s1 := { s with time := { old with cfg := v } }
  if ptpDomain s1.time = ptpDomain old ∧ natBits v.toNat 1 2 = natBits old.cfg.toNat 1 2 then noteUnsure s1
  else
    let s2 := { s1 with time := setMasters old.masters { newExchange s1.time with pathKnown := false, delayReq := none, pdelayPend := none } }
    noteUnsure (if (selected s2.time).isNone then loseMaster s2 else s2)

/-! ### Counter, step, backup (R31, R33, R35) -/

/-- The next stride begins: TI_NOW gains a stride and any pending step, which is recorded (R31, R33). -/
def advanceTime (s : State) : State :=
  let k := s.time.stepPending
  let s1 := { s with time := { s.time with
    now := s.time.now + 1000 + 1000 * k, executed := s.time.executed + 1, stepPending := 0,
    backupSince := s.time.backupSince + 1000 } }
  noteUnsure (if k = 0 then s1 else ledgerEvent 0x2020 0 (lowHigh k) (setEvent 1 4 s1))

/-- BACKUP_COUNTER_COPY: while main power is present and TI_NOW runs, the backup domain copies it (R35). The spec does not say
whether the copy of a TI_NOW that was never locked, whose U is unknown, makes a lost backup counter valid again: here it does
(DESIGN CHOICE, log 131). -/
def execBackupCounterCopy (s : State) : Host.Outcome State Fault Refusal :=
  if stridesRun s then
    .next { s with time := { s.time with backupValid := true, backupValue := s.time.now, backupSince := 0 } }
  else .next s

/-- TI_NOW and U at a power-up or restart (R35), `off` ns after the last strides ran; the unit's registers return to
their reset values. The spec does not say what TI_NOW starts at where the backup counter's value is below E: here it starts at
0 (DESIGN CHOICE, log 132). -/
def restartTime (off : Nat) (t : TimeUnit) : TimeUnit :=
  let d := t.backupSince + off
  if t.backupValid then
    let e := ceilDiv (d * 250) 1000000 + 1000000
    let raw := t.backupValue + d - e
    { TimeUnit.reset with
      now := raw / 1000 * 1000, mode := .provisional, u0 := 2 * e + raw % 1000, t0 := raw / 1000 * 1000,
      u := 2 * e + raw % 1000, cellValid := true, backupValid := true, backupValue := t.backupValue, backupSince := d }
  else TimeUnit.reset

/-! ### Pulse output (R39) -/

/-- PPS_RISE: at a whole TAI second while LOCKED or HOLDOVER and enabled. -/
def execPpsRise (s : State) : Host.Outcome State Fault Refusal :=
  if stridesRun s && s.time.now % 1000000000 == 0 && ppsMay s.time then
    .next { s with time := { s.time with
      ppsOut := true, ppsFall := s.time.now + 1000 * max 1 (natBits s.time.pps.toNat 16 16) } }
  else .next s

/-- PPS_FALL: the width has passed, or the state or enable no longer allows the pulse. -/
def execPpsFall (s : State) : Host.Outcome State Fault Refusal :=
  if s.time.ppsFall ≤ s.time.now ∨ !ppsMay s.time then
    .next { s with time := { s.time with ppsOut := false } }
  else .next s

/-! ### Shares and the slot layout (R41–R44) -/

/-- Key of a share. -/
def shareKey (res p : Nat) : Nat := res * 256 + p

/-- Slots per frame at full count (R41). -/
def fullTotal (res : Nat) : Nat := match res with | 0 => 65536 | 1 => 16384 | 2 => 6144 | _ => 512

/-- Sum of the staged shares of a resource. -/
def stagedSum (t : TimeUnit) (res : Nat) : Nat := t.staged.foldl (fun a e => if e.1 / 256 = res then a + e.2 else a) 0

/-- Write of TI_SHR_DATA (R43); a PKE share is a multiple of 64 (R123). -/
def writeShare (v : Nat) (s : State) : State :=
  let t := s.time
  let res := natBits t.shrSel.toNat 8 2
  let k := shareKey res (natBits t.shrSel.toNat 0 8)
  let slots := v % 2 ^ 20
  if stagedSum t res - Tab.get 0 t.staged k + slots > fullTotal res ∨ (res = 1 ∧ slots % 64 ≠ 0) then
    { s with time := { t with shrRefused := true } }
  else { s with time := { t with staged := Tab.set 0 t.staged k slots } }

/-- The effective share of paddock `p` in resource `res` (R44). -/
def effShare (t : TimeUnit) (res p : Nat) : Nat := Tab.get 0 t.eff (shareKey res p)

/-- First slot position of paddock `p`'s run (R42). -/
def runStart (t : TimeUnit) (res p : Nat) : Nat :=
  t.eff.foldl (fun a e => if e.1 / 256 = res ∧ e.1 % 256 < p then a + e.2 else a) 0

/-- Slots of paddock `p` in stride `k` of the frame: positions i of its run with i mod 256 = k mod 256 (R42). -/
def slotsIn (t : TimeUnit) (res p stride : Nat) : Nat :=
  let a := runStart t res p
  let b := a + effShare t res p
  let r := stride % 256
  (b + 255 - r) / 256 - (a + 255 - r) / 256

end Sys2Proof.Machine
end

