-- ==== Sys2Proof/Machine/Units.lean ====
section
/-! DEFINITION. Access to managed units and cores: unit states and logical numbers (R467, R468), the fence of a unit,
core registers, interrupts, and effective shares under lost capacity (R44). -/

namespace Sys2Proof.Machine

/-! ### Units and logical numbers -/

/-- One unit's record; pools: 0 lanes, 1 engines, 2 Pacers, 3 CVUs (R467). -/
def getUnit (s : State) (pool u : Nat) : UnitRec := Tab.get UnitRec.reset s.us.units (pool * 128 + u)

/-- Change a unit's record. -/
def updUnit (pool u : Nat) (f : UnitRec → UnitRec) (s : State) : State :=
  { s with us := { s.us with units := Tab.upd UnitRec.reset s.us.units (pool * 128 + u) f } }

/-- Physical units of a pool (R467). -/
def poolPhys : Nat → Nat | 0 => 34 | 1 => 68 | 2 => 26 | _ => 16
/-- Logical numbers of a pool (R467). -/
def poolLogical : Nat → Nat | 0 => 32 | 1 => 64 | 2 => 24 | _ => 0

/-- The unit is ACTIVE. -/
def isActive (s : State) (pool u : Nat) : Bool := (getUnit s pool u).st == 1

/-- The physical unit a logical number is bound to. -/
def physOf (s : State) (pool l : Nat) : Option Nat :=
  match Tab.get 0 s.us.maps (pool * 128 + l) with
  | 0 => none
  | n + 1 => some n

/-- The logical number a unit serves. -/
def logicalOf (s : State) (pool u : Nat) : Option Nat :=
  (List.range (poolLogical pool)).find? (fun l => physOf s pool l == some u)

/-- Bind (or unbind) a logical number. -/
def bindLogical (pool l : Nat) (u : Option Nat) (s : State) : State :=
  { s with us := { s.us with maps := Tab.set 0 s.us.maps (pool * 128 + l) (match u with | some n => n + 1 | none => 0) } }

/-- The lowest standby unit of a pool: ACTIVE without a logical number (R468). -/
def standbyOf (s : State) (pool : Nat) : Option Nat :=
  if poolLogical pool = 0 then none
  else (List.range (poolPhys pool)).find? (fun u => isActive s pool u && (logicalOf s pool u).isNone)

/-- A spare is left for one more logical number (R82, R132): the standby units outnumber the logical numbers whose unit has left
service and that no unit has taken yet. -/
def spareLeft (s : State) (pool : Nat) : Bool :=
  let spares := (List.range (poolPhys pool)).filter (fun u => isActive s pool u && (logicalOf s pool u).isNone)
  let orphans := (List.range (poolLogical pool)).filter (fun l => match physOf s pool l with
    | none => true
    | some u => let st := (getUnit s pool u).st; !(st == 1 || st == 2))
  orphans.length < spares.length

/-- Logical numbers bound to an ACTIVE unit. -/
def boundActive (s : State) (pool : Nat) : Nat :=
  ((List.range (poolLogical pool)).filter (fun l => match physOf s pool l with
    | some u => isActive s pool u || (getUnit s pool u).st == 2
    | none => false)).length

/-- Fence a unit in the stride of its fault (R469): FENCED, with the FENCE event and the fence-event item of its pool
(R457, R459); a request of the same stride is latched (R472). -/
def fenceUnit (pool u reason paddock : Nat) (s : State) : State :=
  let s1 := updUnit pool u (fun r => { r with
    st := 5, faultReason := reason, due := s.tick + 1, latched := if r.st = 1 ∧ !r.enabled then some false else r.latched }) s
  ledgerEvent 0x2010 (pool * 256 + u) [reason, paddock] (itemAdd (0x1160 + pool) 1 s1)

/-- A job lost to a fence (R466). -/
def noteLostJob (s : State) : State :=
  setEvent 18 2 { s with us := { s.us with lost := min (s.us.lost + 1) 0xFFFFFFFF } }

/-! ### Effective shares (R44) -/

/-- Active and full counts that scale a resource's shares: lanes, engines, Pacers (R44). -/
def effOf (s : State) (res n : Nat) : Nat :=
  if res < 3 then
    (let full := poolLogical res
     let act := boundActive s res
     if act = 0 then n else n * act / full)
  else n * s.fv.g / 512

/-! ### Cores -/

/-- One core. -/
def getCore (s : State) (c : Nat) : Core := Tab.get Core.reset s.pc.cores c

/-- Replace a core. -/
def setCore (c : Nat) (k : Core) (s : State) : State :=
  { s with pc := { s.pc with cores := Tab.set Core.reset s.pc.cores c k } }

/-- Change a core. -/
def updCore (c : Nat) (f : Core → Core) (s : State) : State := setCore c (f (getCore s c)) s

/-- STATUS.PADDOCK. -/
def Core.paddock (k : Core) : Nat := natBits k.status.toNat 16 8
/-- STATUS.LEVEL = 1. -/
def Core.warden (k : Core) : Bool := k.status.getLsbD 9
/-- STATUS.MASK. -/
def Core.masked (k : Core) : Bool := k.status.getLsbD 0
/-- STATUS.DTRAP. -/
def Core.dtrap (k : Core) : Bool := k.status.getLsbD 1

/-- STATUS from its fields (R251). -/
def mkStatus (paddock : Nat) (warden dtrap mask : Bool) : W64 :=
  BitVec.ofNat 64 (paddock % 256 * 65536 + b2n warden * 512 + b2n dtrap * 2 + b2n mask)

/-- Set PEND bit `i` of core `c`; a waiting core goes on (R263, R293). -/
def setPend (c i : Nat) (s : State) : State :=
  updCore c (fun k => { k with pend := k.pend ||| BitVec.ofNat 32 (2 ^ i), waiting := false }) s

/-- The event of core `c`'s window request for paddock `p`: PEND bit `i`, with the paddock it is for where another one runs
on the core (R302). -/
def setPendFor (c i p : Nat) (s : State) : State :=
  let k := getCore s c
  let n := if k.paddock = p ∧ !k.yielded then 0 else p + 1
  setPend c i { s with pc := { s.pc with evFor := Tab.set 0 s.pc.evFor (16 * c + i) n } }

/-- A core's access as its Bridle unit sees it now (R307). -/
def coreAccess (s : State) (c : Nat) : Access :=
  { unit := c, paddock := (getCore s c).paddock, cls := b2n (getCore s c).warden }

/-- The core's Bridle unit lets it reach an address now (R25, R310); on the cell, or held in reset, no core runs (R10, R482). -/
def coreMay (s : State) (c : Nat) (wr : Bool) (a : Nat) : Bool :=
  !s.pm.onCell && !s.pm.held && c < 26 && (accessCode s (coreAccess s c) wr false a).isNone

/-- A core at the Warden level whose Bridle unit lets it write an address now. -/
def wardenMay (s : State) (c a : Nat) : Bool := (getCore s c).warden && coreMay s c true a

/-- What a window request samples at GO (R507). -/
def sampleReq (s : State) (c w : Nat) : Req :=
  let k := getCore s c
  { src := .win c w, paddock := k.paddock, warden := k.warden, gen := (s.paddock k.paddock).gen }

/-- The access a window request makes through its core's data port (R507). -/
def Req.access (r : Req) (u : Nat) : Access := { unit := u, paddock := r.paddock, cls := b2n r.warden }

/-- An answer to a read for a request: bytes, or none where the address cannot be read. -/
def reqRead (r : Req) (a n : Nat) (s : State) : Option (List Byte) × State :=
  match r.src with
  | .win c _ =>
    let b := busRead s (r.access c) a n
    let s1 := noteRead (r.access c) a b s
    if b.refused.isSome || b.ecc then (none, s1) else (some b.data, s1)
  | .host _ _ _ => if hostFails s a n then (none, s) else (some (hostBytes s a n), s)
  | .auto _ => (none, s)

/-- A write for a request: whether it landed whole. -/
def reqWrite (r : Req) (a : Nat) (bs : List Byte) (s : State) : Bool × State :=
  match r.src with
  | .win c _ =>
    let b := busWrite s (r.access c) a bs
    (b.refused.isNone && !b.ecc, b.st)
  | .host _ _ _ => if hostFails s a bs.length then (false, s) else (true, hostPut s a bs)
  | .auto _ => (false, s)

/-- Status codes of R6. -/
def stOK : Nat := 0x00
def stDistrust : Nat := 0x01
def stOperandRange : Nat := 0x02
def stPointInvalid : Nat := 0x03
def stAborted : Nat := 0x04
def stDenied : Nat := 0x05
def stWindowClosed : Nat := 0x06
def stQuota : Nat := 0x07
def stCheckFail : Nat := 0x08
def stCinchConflict : Nat := 0x09
def stCinchIndoubt : Nat := 0x0A
def stUnitFenced : Nat := 0x0B
def stTimeUnsure : Nat := 0x0C
def stMediaError : Nat := 0x0D
def stBusyRetry : Nat := 0x0E
def stSuspended : Nat := 0x0F
def stCardAbsent : Nat := 0x10
def stFieldLost : Nat := 0x11
def stReplay : Nat := 0x12
def stMalformed : Nat := 0x13

/-- A byte as a number. -/
def byteAt (bs : List Byte) (i : Nat) : Nat := (bs.getD i 0).toNat

/-- Whether every byte of a span is zero. -/
def zeroSpan (bs : List Byte) (off n : Nat) : Bool := ((bs.drop off).take n).all (· == 0)

/-- The first condition that holds decides a status (R78, R95, R128, R150, R192, R360, R380). -/
def firstStatus : List (Bool × Nat) → Nat
  | [] => stOK
  | (c, v) :: rest => if c then v else firstStatus rest

end Sys2Proof.Machine
end

