-- ==== Sys2Proof/Machine/Casrun.lean ====
section
/-! DEFINITION. Casrun host queues (R205–R228): BAR0 queue control, doorbells, descriptor arrival, completions, MSI-X,
firmware entries and host references, and function resets. Admission itself is in Submit. -/

namespace Sys2Proof.Machine

/-! ### Access -/

/-- One function. -/
def getFunc (s : State) (fn : Nat) : Func := Tab.get Func.reset s.cq.funcs fn
/-- Change a function. -/
def updFunc (fn : Nat) (f : Func → Func) (s : State) : State :=
  { s with cq := { s.cq with funcs := Tab.upd Func.reset s.cq.funcs fn f } }
/-- One queue pair. -/
def getQueue (s : State) (fn q : Nat) : Queue := Tab.get Queue.absent s.cq.queues (fn * 4096 + q)
/-- Change a queue pair. -/
def updQueue (fn q : Nat) (f : Queue → Queue) (s : State) : State :=
  { s with cq := { s.cq with queues := Tab.upd Queue.absent s.cq.queues (fn * 4096 + q) f } }

/-- Ring entries, 2^LOG2SIZE. -/
def Queue.size (q : Queue) : Nat := 2 ^ natBits q.cfg.toNat 16 5
/-- VECTOR. -/
def Queue.vector (q : Queue) : Nat := natBits q.cfg.toNat 0 13
/-- COAL. -/
def Queue.coal (q : Queue) : Nat := natBits q.cfg.toNat 24 8
/-- EVENT. -/
def Queue.event (q : Queue) : Bool := natBit q.cfg.toNat 15
/-- SQ head index after the latest fetch. -/
def Queue.sqHead (q : Queue) : Nat := q.seq % q.size
/-- Room for one more completion after the count of R218. -/
def Queue.room (q : Queue) : Bool := q.admitted.length + (q.cqSeq - q.cqUsed) + 1 ≤ q.size - 1

/-- The function's event queue. -/
def eventQueue (s : State) (fn : Nat) : Option Nat :=
  (s.cq.queues.find? (fun p => p.1 / 4096 = fn && p.2.event && p.2.st != 0)).map (fun p => p.1 % 4096)

/-- Queues of a function that are not ABSENT. -/
def queuesInUse (s : State) (fn : Nat) : Nat := (s.cq.queues.filter (fun p => p.1 / 4096 = fn && p.2.st != 0)).length

/-- One above the highest queue in use (the use an allotment may not fall below; log 20). -/
def queueUse (s : State) (fn : Nat) : Nat :=
  s.cq.queues.foldl (fun a p => if p.1 / 4096 = fn && p.2.st != 0 then max a (p.1 % 4096 + 1) else a) 0

/-- One above the highest vector in use. -/
def vectorUse (s : State) (fn : Nat) : Nat :=
  s.cq.queues.foldl (fun a p => if p.1 / 4096 = fn && p.2.st != 0 then max a (p.2.vector + 1) else a) 0

/-- The function exists: the physical one, or a virtual one that the host has enabled (R206). -/
def funcThere (s : State) (fn : Nat) : Bool := fn == 0 || (s.cq.vfEnable && fn ≤ s.cq.numVFs && fn < 256)

/-- The function accepts configuration accesses, after a reset 10 strides from its boundary (R207). -/
def funcOpen (s : State) (fn : Nat) : Bool := funcThere s fn && (getFunc s fn).readyAt ≤ s.tick

/-- The function accepts BAR0 writes and works on its queues: in D3hot it does not (R205, R207). -/
def funcReady (s : State) (fn : Nat) : Bool := funcOpen s fn && !(getFunc s fn).d3hot

/-! ### Completions (R214, R221) -/

/-- The 32 bytes of a completion with its CRC (R221). -/
def completionBytes (q : Queue) (qn cid cls seq : Nat) (lost : Bool) (result : List Byte) : List Byte :=
  let phase := (q.cqSeq / q.size + 1) % 2
  let body := natToLE 2 cid ++ natToLE 2 qn ++ natToLE 2 q.sqHead ++
    [BitVec.ofNat 8 (phase + 2 * b2n lost), BitVec.ofNat 8 cls] ++ takePad 16 result ++ natToLE 4 seq
  body ++ natToLE 4 (seqCrc q.cqSeq body)

/-- Write a completion into its CQ and mark its message due (R221, R222). -/
def putCompletion (fn qn cid cls seq : Nat) (lost : Bool) (result : List Byte) (s : State) : State :=
  let q := getQueue s fn qn
  let bs := completionBytes q qn cid cls seq lost result
  let s1 := hostPut s (q.cqb.toNat + 32 * (q.cqSeq % q.size)) bs
  updQueue fn qn (fun q => { q with cqSeq := q.cqSeq + 1, msgDue := true }) s1

/-- Complete an admitted descriptor with its class result (R221). A queue reset away keeps nothing to complete. -/
def hostComplete (fn qn seq : Nat) (result : List Byte) (s : State) : State :=
  match (getQueue s fn qn).admitted.find? (fun a => a.seq == seq) with
  | none => s
  | some a =>
    let s1 := putCompletion fn qn a.cid a.cls seq false result s
    updQueue fn qn (fun q => { q with admitted := q.admitted.filter (fun x => x.seq != seq) }) s1

/-- A completion due in the stride after (R220, R223, R225). -/
def hostCompleteLater (fn qn seq : Nat) (result : List Byte) (s : State) : State :=
  { s with cq := { s.cq with comps := s.cq.comps ++
    [{ fn := fn, q := qn, seq := seq, due := s.tick + 1, result := result }] } }

/-- Place in the order of admission of a descriptor whose completion is not yet written. -/
def orderOf (s : State) (src : Src) : Option Nat :=
  match src with
  | .host fn q seq => ((getQueue s fn q).admitted.find? (fun a => a.seq == seq)).map (fun a => a.order)
  | _ => none

/-- The sources whose completions are due by now, in any unit. -/
def dueSources (s : State) : List Src :=
  (s.cf.pend.filter (fun p => p.due ≤ s.tick)).map (fun p => p.req.src) ++
  (s.pk.pend.filter (fun p => p.due ≤ s.tick)).map (fun p => p.req.src) ++
  (s.st.pend.filter (fun p => p.pend.due ≤ s.tick)).map (fun p => p.pend.req.src) ++
  (s.tk.pend.filter (fun p => p.due ≤ s.tick)).map (fun p => p.req.src) ++
  (s.cq.comps.filter (fun p => p.due ≤ s.tick)).map (fun p => .host p.fn p.q p.seq) ++
  s.cn.slots.filterMap (fun e => if e.2.st = 7 then e.2.cmd.map (fun r => r.src) else none)

/-- A completion may be written: no other that is due was admitted before it (R221). -/
def hostTurn (s : State) (src : Src) : Bool :=
  (orderOf s src).all (fun o => (dueSources s).all (fun x => (orderOf s x).all (fun n => o ≤ n)))

/-- Insert a waiting completion in the order of admission. -/
def insertPend (s : State) (p : HostPend) : List HostPend → List HostPend
  | [] => [p]
  | x :: xs =>
    if (orderOf s (.host p.fn p.q p.seq)).getD 0 ≤ (orderOf s (.host x.fn x.q x.seq)).getD 0 then p :: x :: xs
    else x :: insertPend s p xs

/-- Completions whose stride has come are written in admission order (R221). -/
def flushCompletions (s : State) : State :=
  let due := (s.cq.comps.filter (fun p => p.due ≤ s.tick)).foldr (insertPend s) []
  due.foldl (fun st p => if hostTurn st (.host p.fn p.q p.seq) then
      hostComplete p.fn p.q p.seq p.result { st with cq := { st.cq with comps := st.cq.comps.erase p } } else st) s

/-! ### MSI-X (R222) -/

/-- A vector's messages go out: MSI-X is enabled, and neither the function nor the vector is masked. -/
def Func.sends (f : Func) (v : Nat) : Bool := f.msixEn && !f.msixMask && !f.d3hot && Tab.get false f.unmasked v

/-- Send, or hold pending while masked, one message of a function's vector. -/
def sendVector (fn v : Nat) (s : State) : State :=
  updFunc fn (fun f => if f.sends v then { f with sent := Tab.upd 0 f.sent v (· + 1) }
    else { f with pendMsg := Tab.set false f.pendMsg v true }) s

/-- The pending messages that may go out now are sent, once each (R222). -/
def sendPending (fn : Nat) (s : State) : State :=
  updFunc fn (fun f =>
    let vs := (f.pendMsg.filter (fun e => e.2 && f.sends e.1)).map (fun e => e.1)
    vs.foldl (fun g v => { g with pendMsg := Tab.set false g.pendMsg v false, sent := Tab.upd 0 g.sent v (· + 1) }) f) s

/-- MSIX_MESSAGE: a CQ's message as its coalescing period allows (R222). -/
def execMsixMessage (fn q : Nat) (s : State) : Host.Outcome State Fault Refusal :=
  let k := getQueue s fn q
  let free := match k.lastMsg with | none => true | some t => t + max 1 k.coal ≤ s.tick
  if k.msgDue && free then
    .next (sendVector fn k.vector (updQueue fn q (fun x => { x with msgDue := false, lastMsg := some s.tick }) s))
  else .next s

/-- MSIX_UNMASK: the pending message is sent once (R222). `mask` true masks the vector instead. -/
def execMsixUnmask (fn v : Nat) (mask : Bool) (s : State) : Host.Outcome State Fault Refusal :=
  .next (sendPending fn (updFunc fn (fun f => { f with unmasked := Tab.set false f.unmasked v (!mask) }) s))

/-! ### Queue control (R211, R227) -/

/-- Set a CQ_FERR bit. -/
def setFerr (fn bit : Nat) (s : State) : State :=
  updFunc fn (fun f => { f with ferr := f.ferr ||| BitVec.ofNat 32 (2 ^ bit) }) s

/-- Move a queue to ERROR with the fault code (R226). -/
def queueError (fn q code : Nat) (s : State) : State :=
  setEvent 7 2 (setFerr fn (code - 1) (updQueue fn q (fun x => { x with st := 2, err := code, arrived := [] }) s))

/-- A CREATE that R211 refuses. -/
def createRefused (s : State) (fn j : Nat) : Bool :=
  let f := getFunc s fn
  let q := getQueue s fn j
  let lg := natBits q.cfg.toNat 16 5
  f.quota ≤ j || q.st != 0 || lg < 4 || 16 < lg || q.sqb.toNat % 4096 != 0 || q.cqb.toNat % 4096 != 0 ||
    f.vectors ≤ q.vector || (fn == 0 && q.vector == 0) || (q.event && (eventQueue s fn).isSome) ||
    (s.paddock fn).st != 1

/-- A queue started afresh: sequences, heads and tail zero (R211); a message held back stays due (R222). -/
def Queue.start (q : Queue) : Queue :=
  { q with st := 1, seq := 0, seqAdm := 0, tail := 0, readTo := 0, sqDoors := [], cqDoors := [], arrived := [], cqSeq := 0, cqUsed := 0,
           err := 0, evLost := false, afterDrain := 0 }

/-- Pending cancels that name a queue are dropped with its descriptors. -/
def dropCancels (fn q : Nat) (s : State) : State := updFunc fn (fun f => { f with cancels := f.cancels.filter (fun c => c.1 != q) }) s

/-- A refused queue command (R211). -/
def refuseCmd (fn : Nat) (s : State) : State := setFerr fn 4 s

/-- QUEUE_CREATE: the CREATE command of the selected queue (R211). It holds from the next boundary. -/
def queueCreate (fn : Nat) (s : State) : State :=
  let j := (getFunc s fn).qsel
  if !funcReady s fn then s
  else if createRefused s fn j then refuseCmd fn s
  else updQueue fn j (fun q => { q.start with changeAt := s.tick + 1 }) s

/-- DELETE (R211). -/
def queueDelete (fn : Nat) (s : State) : State :=
  let j := (getFunc s fn).qsel
  if !funcReady s fn then s
  else if (getQueue s fn j).st = 0 then refuseCmd fn s
  else updQueue fn j (fun q => { q with st := 3, afterDrain := 1, arrived := [], changeAt := s.tick + 1 }) s

/-- RESET (R211). -/
def queueReset (fn : Nat) (s : State) : State :=
  let j := (getFunc s fn).qsel
  if !funcReady s fn then s
  else if (getQueue s fn j).st = 0 ∨ (getQueue s fn j).st = 1 then refuseCmd fn s
  else updQueue fn j (fun q => { q with st := 3, afterDrain := if q.afterDrain = 1 then 1 else 2, arrived := [],
                                        changeAt := s.tick + 1 }) s

def execQueueCreate (fn : Nat) (s : State) : Host.Outcome State Fault Refusal := .next (queueCreate fn s)
def execQueueDelete (fn : Nat) (s : State) : Host.Outcome State Fault Refusal := .next (queueDelete fn s)
def execQueueReset (fn : Nat) (s : State) : Host.Outcome State Fault Refusal := .next (queueReset fn s)

/-- QUEUE_DRAINED: no admitted job is left, so the DRAINING queue becomes ABSENT, or ACTIVE from the next boundary (R211). -/
def execQueueDrained (fn q : Nat) (s : State) : Host.Outcome State Fault Refusal :=
  let k := getQueue s fn q
  if k.st = 3 ∧ k.admitted = [] ∧ k.changeAt ≤ s.tick then
    .next (dropCancels fn q (updQueue fn q (fun x =>
      if x.afterDrain = 2 then { x.start with changeAt := s.tick + 1 } else { x.start with st := 0, changeAt := 0 }) s))
  else .next s

/-! ### Doorbells and arrival (R212, R216, R226) -/

/-- A doorbell of the queue is taken: the function answers, and the queue stands (R211, R212). -/
def bellTaken (s : State) (fn q : Nat) : Bool :=
  let k := getQueue s fn q
  funcReady s fn && k.st != 0 && !(k.st == 1 && s.tick < k.changeAt)

/-- A write of the SQ tail doorbell waits for the boundary (R212, R216). -/
def ringSq (fn q : Nat) (v : W32) (s : State) : State :=
  if bellTaken s fn q then updQueue fn q (fun x => { x with sqDoors := x.sqDoors ++ [v] }) s else s

/-- A write of the CQ head doorbell waits for the boundary (R212, R216). -/
def ringCq (fn q : Nat) (v : W32) (s : State) : State :=
  if bellTaken s fn q then updQueue fn q (fun x => { x with cqDoors := x.cqDoors ++ [v] }) s else s

/-- SQ_DOORBELL. -/
def execSqDoorbell (fn q : Nat) (v : W32) (s : State) : Host.Outcome State Fault Refusal := .next (ringSq fn q v s)
/-- CQ_DOORBELL. -/
def execCqDoorbell (fn q : Nat) (v : W32) (s : State) : Host.Outcome State Fault Refusal := .next (ringCq fn q v s)

/-- The index that a doorbell's bits [15:0] carry (R227). -/
def doorIndex (v : W32) : Nat := natBits v.toNat 0 16

/-- An SQ tail doorbell is acted on (R212, R226). -/
def actTail (fn q : Nat) (v : W32) (s : State) : State :=
  let k := getQueue s fn q
  if doorIndex v ≥ k.size ∨ k.event then
    (if k.st = 1 then queueError fn q 3 s else if k.st = 0 then s else setEvent 7 2 (setFerr fn 2 s))
  else if k.st = 1 then updQueue fn q (fun x => { x with tail := doorIndex v }) s
  else s

/-- Completions that a CQ head doorbell value says are consumed: from the last head up to the new one. -/
def cqHeadMove (k : Queue) (head : Nat) : Nat := (head + k.size - k.cqUsed % k.size) % k.size

/-- A CQ head doorbell is acted on (R212, R226). -/
def actHead (fn q : Nat) (v : W32) (s : State) : State :=
  let k := getQueue s fn q
  if doorIndex v ≥ k.size ∨ k.cqUsed + cqHeadMove k (doorIndex v) > k.cqSeq then
    (if k.st = 1 then queueError fn q 4 s else if k.st = 0 then s else setEvent 7 2 (setFerr fn 3 s))
  else if k.st = 0 then s
  else updQueue fn q (fun x => { x with cqUsed := x.cqUsed + cqHeadMove k (doorIndex v) }) s

/-- A queue's doorbells of the stride that ended are served; slots whose reads were issued in that stride may arrive from
now on (R216). -/
def serveQueue (s : State) (e : Nat × Queue) : State :=
  let fn := e.1 / 4096
  let q := e.1 % 4096
  let s1 := updQueue fn q (fun x => { x with readTo := x.tail, sqDoors := [], cqDoors := [] }) s
  e.2.cqDoors.foldl (fun st v => actHead fn q v st) (e.2.sqDoors.foldl (fun st v => actTail fn q v st) s1)

/-- Doorbells are served at the boundary (R216). -/
def serveDoorbells (s : State) : State := s.cq.queues.foldl serveQueue s

/-- What AER records of a failed read: 1 a completion timeout, 4 poisoned data; an Unsupported Request (2) or Completer Abort (3) that
comes back is not this function's error (R205; log 163). -/
def aerBit (fail : Nat) : W32 := if fail = 1 then 0x4000 else if fail = 4 then 0x1000 else 0

/-- DESCRIPTOR_ARRIVAL: the bytes of the next descriptor of an ACTIVE queue arrive, or (`fail` not 0) the read fails (R205, R216,
R220). -/
def execDescriptorArrival (fn q fail : Nat) (s : State) : Host.Outcome State Fault Refusal :=
  let k := getQueue s fn q
  if k.st = 1 ∧ k.changeAt ≤ s.tick ∧ k.seq % k.size ≠ k.readTo then
    let a := k.sqb.toNat + 64 * (k.seq % k.size)
    let bytes := if fail = 0 && !hostFails s a 64 then some (hostBytes s a 64) else none
    .next (updFunc fn (fun f => { f with aer := f.aer ||| aerBit fail }) <| updQueue fn q (fun x => { x with seq := x.seq + 1, arrived := x.arrived ++ [(x.seq, bytes)] }) s)
  else .next s

/-! ### Event queues (R221) -/

/-- Owe a NOTIFY for a stall that left LIVE (R221): written in the next stride. -/
def oweNotify (p stall reason : Nat) (s : State) : State :=
  { s with cq := { s.cq with notes := s.cq.notes ++ [(p, stall, reason, s.stride)] } }

/-- NOTIFY_COMPLETION: the oldest owed NOTIFY of an earlier stride is written or dropped (R221). -/
def execNotifyCompletion (s : State) : Host.Outcome State Fault Refusal :=
  match s.cq.notes with
  | [] => .next s
  | (p, stall, reason, k) :: rest =>
    if s.stride ≤ k then .next s
    else
      let s1 := { s with cq := { s.cq with notes := rest } }
      match eventQueue s p with
      | none => .next s1
      | some qn =>
        let q := getQueue s1 p qn
        if q.room then
          let r := [0, 1, BitVec.ofNat 8 reason, 0] ++ natToLE 4 stall ++ natToLE 4 k
          .next (updQueue p qn (fun x => { x with evLost := false }) (putCompletion p qn 0xFFFF 7 0 q.evLost r s1))
        else .next (updQueue p qn (fun x => { x with evLost := true }) s1)

/-! ### Firmware entries (R223, R224) -/

/-- One core's firmware window. -/
def getFwWin (s : State) (c : Nat) : FwWin := Tab.get FwWin.reset s.cq.fwWins c
/-- Change a firmware window. -/
def updFwWin (c : Nat) (f : FwWin → FwWin) (s : State) : State :=
  { s with cq := { s.cq with fwWins := Tab.upd FwWin.reset s.cq.fwWins c f } }
/-- A paddock's firmware FIFO. -/
def fwFifo (s : State) (p : Nat) : List FwEntry := Tab.get [] s.cq.fifo p
/-- Replace a FIFO. -/
def setFifo (p : Nat) (l : List FwEntry) (s : State) : State :=
  { s with cq := { s.cq with fifo := Tab.set [] s.cq.fifo p l } }
/-- The entry in holding slot `i` of core `c`. -/
def heldEntry (s : State) (c i : Nat) : Option FwEntry := Tab.get none (getFwWin s c).held i

/-- Raise the queue interrupt on every core of a paddock whose window enables it (R223). -/
def raiseQueueIrq (p : Nat) (s : State) : State :=
  (List.range 26).foldl (fun st c =>
    if (getCore st c).paddock = p && (getFwWin st c).ie then setPend c 1 st else st) s

/-- FW_TAKE: the FIFO's head entry goes into the lowest free slot (R223, R228). -/
def fwTake (c : Nat) (s : State) : State :=
  let p := (getCore s c).paddock
  let w := getFwWin s c
  match (List.range 4).find? (fun i => (Tab.get none w.held i).isNone), fwFifo s p with
  | some i, e :: rest =>
    setFifo p rest (updFwWin c (fun w => { w with
      entry := e.desc, valid := true, redelivered := e.redelivered, slot := i, held := Tab.set none w.held i (some e) }) s)
  | _, _ => updFwWin c (fun w => { w with valid := false }) s

def execFwTake (c : Nat) (s : State) : Host.Outcome State Fault Refusal := .next (fwTake c s)

/-- FW_POST: RESULT is posted for a holding slot, which is freed; a cancelled function's post is discarded (R223). A
POST naming an empty slot has no effect (log 21). -/
def fwPost (c slot : Nat) (s : State) : State :=
  let w := getFwWin s c
  match Tab.get none w.held slot with
  | none => s
  | some e =>
    let s1 := updFwWin c (fun w => { w with held := Tab.set none w.held slot none }) s
    if e.gone then s1 else hostCompleteLater e.fn e.q e.seq (wordsBytes w.result 2) s1

def execFwPost (c slot : Nat) (s : State) : Host.Outcome State Fault Refusal := .next (fwPost c slot s)

/-- FIRMWARE_RESULT_COMPLETION: in the stride after a POST the completion is written (R223). -/
def execFirmwareResultCompletion (s : State) : Host.Outcome State Fault Refusal := .next (flushCompletions s)

/-- A fenced core's held entries return to the head of their FIFOs in their original order, but for those whose function has been
reset (R223). -/
def redeliver (c : Nat) (s : State) : State :=
  let es := ((List.range 4).filterMap (fun i => Tab.get none (getFwWin s c).held i)).filter (fun e => !e.gone)
  if es.isEmpty then updFwWin c (fun w => { w with held := [] }) s
  else
    let sorted := es.foldr (fun e acc => (acc.filter (fun x => x.order < e.order)) ++ [e] ++
      acc.filter (fun x => !(x.order < e.order))) []
    let s1 := updFwWin c (fun w => { w with held := [], valid := false }) s
    let s2 := sorted.foldr (fun e st => setFifo e.fn ({ e with redelivered := true } :: fwFifo st e.fn) st) s1
    setEvent 7 5 (sorted.foldl (fun st e => raiseQueueIrq e.fn st) s2)

/-- Whether an address is a host reference (R224). -/
def isHostRef (a : Nat) : Bool := natBit a 63

/-- A host reference resolved for a core (R224): the PCIe address of the span, or none where it is bad. -/
def hostRef (s : State) (c a n : Nat) (wr : Bool) : Option Nat :=
  if natBits a 44 19 != 0 || natBits a 40 2 > 1 then none
  else
    match heldEntry s c (natBits a 42 2) with
    | none => none
    | some e =>
      let b := natBits a 40 2
      let buf := field e.desc (if b = 0 then 8 else 24) 8
      let len := field e.desc (if b = 0 then 16 else 20) 4
      let writable := natBit (byteAt e.desc 0x20) b
      let off := natBits a 0 40
      if e.gone then none
      else if off + n > len || (wr && !writable) then none else some (buf + off)

/-! ### Resets and link (R205, R207, R486) -/

/-- Ask for a reset of one function (R207). -/
def askReset (fn : Nat) (s : State) : State :=
  updFunc fn (fun f => if f.resetAsked.isSome then f else { f with resetAsked := some s.tick }) s

/-- Ask for a reset of every function. -/
def askResetAll (s : State) : State := (List.range 256).foldl (fun st fn => askReset fn st) s

def execFunctionLevelReset (fn : Nat) (s : State) : Host.Outcome State Fault Refusal := .next (askReset fn s)
def execHotReset (s : State) : Host.Outcome State Fault Refusal := .next (askResetAll s)

/-- PCIE_LINK_DOWN: the link leaves L0 and every function is reset (R207). -/
def execPcieLinkDown (s : State) : Host.Outcome State Fault Refusal :=
  .next (setEvent 7 0 (askResetAll { s with cq := { s.cq with link := 0 } }))

/-- PCIE_LINK_UP: CQ_LINK shows the trained link (R205, R228). A rate or width the part does not train leaves it down. -/
def execPcieLinkUp (rate width : Nat) (flit : Bool) (s : State) : Host.Outcome State Fault Refusal :=
  if 1 ≤ rate ∧ rate ≤ 3 ∧ (width = 1 ∨ width = 2 ∨ width = 4 ∨ width = 8 ∨ width = 16) ∧ (rate = 3 → flit = true) then
    .next { s with cq := { s.cq with link := BitVec.ofNat 32 (1 + rate * 2 + width * 8 + b2n flit * 256) } }
  else .next s

/-- The queue, doorbell, entry and message side of a function reset at its boundary (R207, R223). -/
def resetFunctionQueues (fn : Nat) (s : State) : State :=
  let s1 := { s with cq := { s.cq with
    queues := s.cq.queues.filter (fun p => p.1 / 4096 != fn),
    comps := s.cq.comps.filter (fun p => p.fn != fn),
    fifo := Tab.set [] s.cq.fifo fn [] } }
  let s2 := (List.range 26).foldl (fun st c => updFwWin c (fun w => { w with
    held := Tab.mapVals none (fun _ e => e.map (fun x => if x.fn = fn then { x with cancelled := true, gone := true } else x)) w.held }) st) s1
  setEvent 7 1 (updFunc fn (fun _ => { Func.reset with
    quota := Tab.get 0 s.cq.allotQ fn, vectors := Tab.get 0 s.cq.allotV fn, adm := Tab.get 0 s.cq.allotA fn,
    readyAt := s.tick + 10 })
    { s2 with od := { s2.od with settle := Tab.set 0 (Tab.set 0 s2.od.settle (0x450000 + fn) 0) (0x450100 + fn) 0 } })

/-- FUNCTION_RESET_READY: ten strides after the boundary the function accepts accesses again (R207). -/
def execFunctionResetReady (fn : Nat) (s : State) : Host.Outcome State Fault Refusal :=
  if (getFunc s fn).readyAt ≤ s.tick then .next (updFunc fn (fun f => { f with readyAt := 0 }) s) else .next s

/-- A configuration write that is served: sizes outside R205 and SR-IOV writes to a virtual function change nothing, and virtual
functions that cease to exist are reset (log 163). -/
def configWrite (fn : Nat) (req : ConfigReq) (s : State) : State :=
  match req with
  | .read => s
  | .sriov on n =>
    if fn ≠ 0 ∨ 255 < n then s
    else
      let gone := (List.range 256).filter (fun v => v != 0 && funcThere s v && !(on && v ≤ n))
      let s1 := gone.foldl (fun st v => askReset v st) s
      { s1 with cq := { s1.cq with vfEnable := on, numVFs := n } }
  | .power d3 => sendPending fn (updFunc fn (fun f => { f with d3hot := d3 }) s)
  | .sizes p r => updFunc fn (fun f => { f with
      payload := if p = 128 ∨ p = 256 ∨ p = 512 then p else f.payload,
      readReq := if r = 128 ∨ r = 256 ∨ r = 512 ∨ r = 1024 ∨ r = 2048 ∨ r = 4096 then r else f.readReq }) s
  | .msix on mask => sendPending fn (updFunc fn (fun f => { f with msixEn := on, msixMask := mask }) s)
  | .aerClear v => updFunc fn (fun f => { f with aer := f.aer &&& ~~~v }) s

/-- PCIE_CONFIG_REQUEST: before boot step 3 is complete the request is answered with Retry Status, and a function in reset, or one that
the host has not enabled, accepts nothing (R205–R207, R486). -/
def execPcieConfigRequest (access : ConfigAccess) (s : State) : Host.Outcome State Fault Refusal :=
  let ok := s.cq.cfgReady && funcOpen s access.fn
  let s1 := { s with cq := { s.cq with lastConfig := some (access.fn, ok) } }
  .next (if ok then configWrite access.fn access.req s1 else s1)

/-! ### Allotments (R210, R228) -/

/-- The allotments of a function are written: CQ_ALLOT (`adm` false) or CQ_ADM of the selected function (R228). -/
def writeAllot (adm : Bool) (v : W32) (s : State) : State :=
  let fn := s.cq.psel
  let total (t : Tab Nat) (n : Nat) : Nat := t.foldl (fun a p => a + p.2) 0 - Tab.get 0 t fn + n
  if adm then
    (let n := natBits v.toNat 0 11
     if total s.cq.allotA n > 1024 then setEvent 7 3 s
     else { s with cq := { s.cq with allotA := Tab.set 0 s.cq.allotA fn n } })
  else
    (let q := natBits v.toNat 0 13
     let k := natBits v.toNat 16 13
     if total s.cq.allotQ q > 4096 ∨ total s.cq.allotV k > 4096 ∨ q < queueUse s fn ∨ k < vectorUse s fn then setEvent 7 3 s
     else { s with cq := { s.cq with allotQ := Tab.set 0 s.cq.allotQ fn q, allotV := Tab.set 0 s.cq.allotV fn k } })

/-- CQ_ALLOT_WRITE by core `c`: accepted from the Warden level only (R228). -/
def execCqAllotWrite (c : Nat) (adm : Bool) (v : W32) (s : State) : Host.Outcome State Fault Refusal :=
  if wardenMay s c (if adm then 0x100700030 else 0x100700028) then .next (writeAllot adm v s) else .next s

end Sys2Proof.Machine
end

