-- ==== Sys2Proof/Machine/CinchBase.lean ====
section
/-! DEFINITION. What other units need of the Cinch engine: its slots, locks and reservations (R148, R149), the notice
queue, and the marking of an abort that waits for its boundary (R151). -/

namespace Sys2Proof.Machine

/-- One Cinch slot. -/
def getCinch (s : State) (i : Nat) : Cinch := Tab.get Cinch.free s.cn.slots i
/-- Replace a slot. -/
def setCinch (i : Nat) (x : Cinch) (s : State) : State :=
  { s with cn := { s.cn with slots := Tab.set Cinch.free s.cn.slots i x } }
/-- Change a slot. -/
def updCinch (i : Nat) (f : Cinch → Cinch) (s : State) : State := setCinch i (f (getCinch s i)) s

/-- States that hold objects: OPEN to APPLYING (R145). -/
def Cinch.holds (x : Cinch) : Bool := 1 ≤ x.st && x.st ≤ 6
/-- Reservations and staged records still count: not once APPLY has run (R137, R149). -/
def Cinch.reserves (x : Cinch) : Bool := 1 ≤ x.st && x.st ≤ 5
/-- A Cinch of tack custody itself, for a write of a quorum act (R199, R202); it belongs to no paddock. -/
def Cinch.custody (x : Cinch) : Bool := x.cmdOp == 0x40
/-- Before the decision point. -/
def Cinch.undecided (x : Cinch) : Bool := x.st == 1 || x.st == 2

/-- A handle: SEQ and slot (R141). -/
def cinchHandle (x : Cinch) (i : Nat) : Nat := x.seq * 4096 + i

/-- Objects of locks and reservations (R135). -/
inductive Obj where
  | stall (n : Nat)
  | tack (h : Nat)
  | counter (p i : Nat)
  | record (p table : Nat) (key : List Byte)
  | card (slot : Nat)
  | iface (i : Nat)
  | token (ident : List Byte)
deriving DecidableEq, Repr

/-- What an action holds: objects, with `true` for a lock and `false` for a reservation (R135); an ALLOC holds the stall it drew. -/
def Action.objects (p : Nat) (a : Action) : List (Obj × Bool) :=
  if a.typ = 1 then [(.stall a.stall, true)]
  else if a.typ = 2 then [(.tack a.tack, true)]
  else if a.typ = 3 then
    (if a.sub = 1 then [(.counter p a.obj, false)] else if a.sub = 2 then [(.tack a.tack, false)]
     else [(.counter p a.obj, true)])
  else if a.typ = 4 then [(.record p a.obj (a.inl.take 32), true)]
  else if a.typ = 7 then [(.card a.obj, true)]
  else if a.typ = 8 then [(.iface a.obj, true), (.token (a.inl.take (byteAt a.inl 16)), true)]
  else []

/-- A Cinch of the submitter of a direct command: of the core and paddock that a window request acts for (R97). -/
def Req.owns (r : Req) (x : Cinch) : Bool :=
  match r.src with
  | .win c _ => x.owner == c && x.paddock == r.paddock && x.cmd.isNone
  | _ => false

/-- The status of taking a lock or reservation on `o` (R148): 0 when granted. Slot `me` and the Cinches that `own` names are no
other submitter's; an in-doubt Cinch holds its objects against all (R95, R97). -/
def lockStatus (s : State) (me : Option Nat) (own : Cinch → Bool) (o : Obj) (lock : Bool) : Nat :=
  let holders := s.cn.slots.filter (fun p => p.2.holds && some p.1 != me &&
    p.2.actions.any (fun a => (a.objects p.2.paddock).any (fun x => x.1 == o && (x.2 || lock))))
  let waiting := s.cn.reqs.any (fun q => some q.slot != me && !own (getCinch s q.slot) && q.rows == stOK &&
    q.act.any (fun a => (a.objects (getCinch s q.slot).paddock).any (fun x => x.1 == o && (x.2 || lock))))
  if waiting || holders.any (fun p => p.2.st != 5 && !own p.2) then stCinchConflict
  else if holders.any (fun p => p.2.st == 5) then stCinchIndoubt else stOK

/-- Reserved increments of a paddock counter (R149). -/
def counterReserved (s : State) (p i : Nat) : Nat :=
  Tab.total s.cn.slots (fun _ x => if x.reserves && x.paddock == p then
    (x.actions.filter (fun a => a.typ = 3 && a.sub = 1 && a.obj = i)).foldl (fun n a => n + a.arg) 0 else 0)

/-- Reserved increments of a tack's usage counter (R149, R198). -/
def tackReserved (s : State) (h : Nat) : Nat :=
  Tab.total s.cn.slots (fun _ x => if x.reserves then
    (x.actions.filter (fun a => a.typ = 3 && a.sub = 2 && a.tack = h)).foldl (fun n a => n + a.arg) 0 else 0)

/-- Push an entry into CN_NOTEQ, or lose it (R173). -/
def pushNoteq (handle paddock status cause : Nat) (s : State) : State :=
  if s.cn.noteq.length < 1024 then
    { s with cn := { s.cn with noteq := s.cn.noteq ++
      [BitVec.ofNat 64 (2 ^ 63 + cause % 256 * 2 ^ 48 + status % 256 * 2 ^ 40 + paddock % 256 * 2 ^ 32 + handle % 2 ^ 32)] } }
  else setEvent 5 5 s

/-- An abort cause arises: it takes effect at the next stride boundary, the first to arise winning (R151). -/
def markAbort (i cause status : Nat) (failing : Nat) (s : State) : State :=
  updCinch i (fun x => if x.undecided && x.abortCause = 0 then
    { x with abortCause := cause, abortAt := s.tick + 1, abortStatus := status, failing := failing } else x) s

/-- Mark an abort on every undecided Cinch that satisfies a test. -/
def markAbortAll (test : Cinch → Bool) (cause status : Nat) (s : State) : State :=
  s.cn.slots.foldl (fun st p => if p.2.undecided && test p.2 then markAbort p.1 cause status 255 st else st) s

/-- A Bridle fault taken by a core aborts its OPEN and COMMITTING Cinches (R152). -/
def abortOnBridle (c : Nat) (s : State) : State :=
  markAbortAll (fun x => x.owner == c && x.cmd.isNone) 0x03 stDenied s

/-- Hold pages in use by a paddock (R139, R173). -/
def holdUsed (s : State) (p : Nat) : Nat :=
  Tab.total s.cn.slots (fun _ x => if x.holds && x.paddock == p then x.actions.foldl (fun n a => n + a.pages) 0 else 0)
/-- Slots in use by a paddock, INDOUBT and ENDED and those of its durable tack commands included (R173, R192). -/
def openUsed (s : State) (p : Nat) : Nat :=
  Tab.total s.cn.slots (fun _ x => if x.st != 0 && x.paddock == p then 1 else 0)
/-- Action records in use by a paddock. -/
def actionsUsed (s : State) (p : Nat) : Nat :=
  Tab.total s.cn.slots (fun _ x => if x.st != 0 && x.paddock == p then x.actions.length else 0)

/-- The lowest FREE slot (the choice among free slots is the model's, log 22). -/
def freeSlot (s : State) : Option Nat :=
  (List.range 4096).find? (fun i => (getCinch s i).st == 0 && (getCinch s i).freeAt ≤ s.tick)

/-- The next SEQ of a slot: 1 to 0xF_FFFF and then 1 again (R141). -/
def nextSeq (n : Nat) : Nat := if n ≥ 0xFFFFF then 1 else n + 1

end Sys2Proof.Machine
end

