-- ==== Sys2Proof/Machine/Journal.lean ====
section
/-! DEFINITION. The Cinch journal (R166–R172): its 64-byte records, batches and their headers, checkpoints, the reclaim point,
and what a boot reads back from them. -/

namespace Sys2Proof.Machine

/-! ### Records (R167) -/

/-- Bytes 0x00 to 0x3B of a record. -/
def jRecord (kind index typ paddock handle dseq : Nat) (payload : List Byte) : List Byte :=
  [BitVec.ofNat 8 kind, BitVec.ofNat 8 index, BitVec.ofNat 8 typ, BitVec.ofNat 8 paddock] ++ natToLE 4 handle ++ natToLE 8 dseq ++
    takePad 44 payload

/-- A record with its CHECK, JSEQ `j` folded in. -/
def jSealed (j : Nat) (r : List Byte) : List Byte := takePad 60 r ++ natToLE 4 (crcValue crc32c (some j) (takePad 60 r))

/-- A record's CHECK is right at JSEQ `j`. -/
def jGood (j : Nat) (r : List Byte) : Bool := r.length == 64 && field r 0x3C 4 == crcValue crc32c (some j) (r.take 60)

/-- KIND without CARRIED. -/
def rKind (r : List Byte) : Nat := byteAt r 0 % 128
/-- CARRIED. -/
def rCarried (r : List Byte) : Bool := natBit (byteAt r 0) 7
/-- DSEQ. -/
def rDseq (r : List Byte) : Nat := field r 8 8
/-- HANDLE. -/
def rHandle (r : List Byte) : Nat := field r 4 4
/-- PAYLOAD. -/
def rPayload (r : List Byte) : List Byte := (r.drop 0x10).take 44

/-! ### Payloads (R168; their fields one after the other, log 148) -/

/-- First logical byte of a handle's envelope in the tack vault (R332). -/
def vaultAddr (h : Nat) : Nat := 128 * h

/-- The INTENT payload of an action. -/
def intentPayload (a : Action) : List Byte :=
  let sub := natToLE 1 a.sub
  match a.typ with
  | 1 => sub ++ natToLE 4 a.stall
  | 2 => sub ++ natToLE 4 a.tack ++ (if a.sub = 1 then natToLE 8 (vaultAddr a.tack) else zeros 8)
  | 3 => sub ++ natToLE 4 (if a.sub = 2 then a.tack else a.obj) ++ natToLE 8 a.arg ++ (if a.sub = 3 then takePad 8 a.inl else zeros 8)
  | 4 => sub ++ natToLE 1 a.obj ++ natToLE 2 a.data.length ++ takePad 32 a.inl
  | 5 => natToLE 2 a.obj ++ takePad 32 a.inl
  | 6 => natToLE 4 ((a.held.map (fun h => h.span)).getD 0)
  | 7 => natToLE 1 a.obj ++ natToLE 2 a.arg ++ natToLE 4 a.wstaged ++ natToLE 8 a.cidHash
  | _ => natToLE 1 a.obj ++ takePad 36 a.inl ++ natToLE 2 a.arg

/-- The action carries a data block into the journal. -/
def Action.journals (a : Action) : Bool := a.typ == 4 || a.typ == 7 || a.typ == 8

/-- The INTENT and CONT records of a Cinch with handle `h`. -/
def intentRecords (x : Cinch) (h dseq : Nat) : List (List Byte) :=
  x.actions.zipIdx.flatMap (fun p =>
    jRecord 2 p.2 p.1.typ x.paddock h dseq (intentPayload p.1) ::
      (if p.1.journals then (chunks 44 p.1.data).zipIdx.map (fun q => jRecord 3 q.2 p.1.typ x.paddock h dseq q.1) else []))

/-- Bytes 0x00 to 0x3B of records in order, of which ICRC is formed. -/
def intentCrc (rs : List (List Byte)) : Nat := crcValue crc32c none (rs.flatMap (takePad 60))

/-- The index of the external action, or 0xFF. -/
def extIndex (x : Cinch) : Nat := (x.actions.findIdx? (fun a => a.typ == 7 || a.typ == 8)).getD 0xFF

/-- The DECIDE record over the Cinch's INTENT and CONT records. -/
def decideRecord (x : Cinch) (h dseq stride : Nat) (rs : List (List Byte)) : List Byte :=
  jRecord 4 0 0 x.paddock h dseq
    (natToLE 1 (if extIndex x = 0xFF then 1 else 2) ++ natToLE 1 rs.length ++ natToLE 4 (intentCrc rs) ++ natToLE 8 stride ++
      natToLE 1 (extIndex x))

/-- An OUTCOME record. -/
def outcomeRecord (x : Cinch) (h result cause cred : Nat) : List Byte :=
  jRecord 5 0 0 x.paddock h x.dseq (natToLE 1 result ++ natToLE 1 cause ++ natToLE 8 cred)

/-- A DONE record. -/
def doneRecord (paddock h dseq : Nat) : List Byte := jRecord 6 0 0 paddock h dseq []

/-! ### Batches (R166, R168, R169) -/

/-- The JSEQ a batch header names in CKPT: of the checkpoint just written, else of the newest durable one. -/
def ckptNamed (s : State) : Nat := (s.cn.ckptNext.map (fun k => k.ckid)).getD s.cn.ckpt

/-- Durable records with their JSEQs, in order. -/
def durableRecs (bs : List JBatch) : List (Nat × List Byte) :=
  (bs.filter (fun b => b.durable)).flatMap (fun b => b.recs.zipIdx.map (fun p => (b.first + p.2, p.1)))

/-- The last whole copy of a decision, of the first writing or carried: its INTENT and CONT records in order with their JSEQs, and
its DECIDE record (R170, R171). -/
def decisionCopy (recs : List (Nat × List Byte)) (d : Nat) (carried : Bool) : Option (List (Nat × List Byte) × List Byte) :=
  let mine := recs.filter (fun r => rDseq r.2 == d && rCarried r.2 == carried && (2 ≤ rKind r.2 && rKind r.2 ≤ 4))
  match mine.reverse.dropWhile (fun r => rKind r.2 != 4) with
  | [] => none
  | dec :: prev =>
    let n := byteAt (rPayload dec.2) 1
    let ints := (prev.take n).reverse
    if ints.length = n && ints.all (fun r => rKind r.2 != 4) && intentCrc (ints.map (fun r => r.2)) == field (rPayload dec.2) 2 4 then
      some (ints, dec.2)
    else none

/-- DSEQs of the DECIDE records among records, each once, ascending. -/
def decisions (recs : List (Nat × List Byte)) : List Nat :=
  recs.foldl (fun l r => if rKind r.2 = 4 ∧ !l.contains (rDseq r.2) then
    l.takeWhile (fun d => decide (d < rDseq r.2)) ++ rDseq r.2 :: l.dropWhile (fun d => decide (d < rDseq r.2)) else l) []

/-- A DONE record of the decision is among the records. -/
def isDone (recs : List (Nat × List Byte)) (d : Nat) : Bool := recs.any (fun r => rKind r.2 == 6 && rDseq r.2 == d)

/-- The reclaim point: the newest durable checkpoint, or the oldest decided Cinch without a durable DONE, which counts from its
carried records once they are durable (R170). -/
def reclaimPoint (s : State) : Nat :=
  let recs := durableRecs s.cn.journal
  ((decisions recs).filter (fun d => !isDone recs d)).foldl (fun m d =>
    min m (match decisionCopy recs d true with | some ((j, _) :: _, _) => j | _ => d)) s.cn.ckpt

/-- A record with CARRIED set. -/
def carryRecord (r : List Byte) : List Byte := BitVec.ofNat 8 (rKind r + 128) :: (r.take 60).drop 1

/-- The records of a decision as they are carried forward: intents, DECIDE with the ICRC of these, and the last OUTCOME (R170). -/
def carriedRecords (recs : List (Nat × List Byte)) (d : Nat) : List (List Byte) :=
  match (decisionCopy recs d true).or (decisionCopy recs d false) with
  | none => []
  | some (ints, dec) =>
    let cs := ints.map (fun r => carryRecord r.2)
    let out := (recs.filter (fun r => rKind r.2 == 5 && rDseq r.2 == d)).getLast?
    cs ++ [(carryRecord dec).take 0x12 ++ natToLE 4 (intentCrc cs) ++ (carryRecord dec).drop 0x16] ++
      (out.map (fun r => carryRecord r.2)).toList

/-- The batch of this stride, empty where the stride has none yet. -/
def openBatch (s : State) : JBatch :=
  match s.cn.journal.getLast? with
  | some b => if b.stride = s.stride ∧ !b.durable then b else { stride := s.stride, first := s.cn.jseq, recs := [[]], durable := false }
  | none => { stride := s.stride, first := s.cn.jseq, recs := [[]], durable := false }

/-- A BATCH header. -/
def batchHeader (s : State) (first count : Nat) : List Byte :=
  jRecord 1 0 0 0 0 0 (natToLE 8 s.stride ++ natToLE 8 first ++ natToLE 2 count ++ natToLE 8 (ckptNamed s) ++ natToLE 8 (reclaimPoint s))

/-- JSEQ of the next record that joins this stride's batch. -/
def nextRecord (s : State) : Nat := (openBatch s).first + (openBatch s).recs.length

/-- Records join this stride's batch, whose header counts them. -/
def putRecords (rs : List (List Byte)) (s : State) : State :=
  let b := openBatch s
  let recs := b.recs.drop 1 ++ rs.zipIdx.map (fun p => jSealed (nextRecord s + p.2) p.1)
  { s with cn := { s.cn with
    journal := s.cn.journal.filter (fun x => x.first != b.first) ++
      [{ b with recs := jSealed b.first (batchHeader s b.first (recs.length + 1)) :: recs }],
    jseq := nextRecord s + rs.length } }

/-- Decide records taken in this stride. -/
def decidedAll (s : State) : Nat :=
  if s.cn.decidedStride = s.stride then (s.cn.decided.map (fun d => d.2)).sum else 0

/-- Room in this stride's batch for records that are not metered: 512 records, those of two decisions kept free (R166, R168). -/
def batchRoom (s : State) : Nat := 512 - (openBatch s).recs.length - 177 * (2 - decidedAll s)

/-- Records that wait join the batch as far as it has room. -/
def flushJournal (s : State) : State :=
  let n := min s.cn.jwait.length (batchRoom s)
  if n = 0 then s else putRecords (s.cn.jwait.take n) { s with cn := { s.cn with jwait := s.cn.jwait.drop n } }

/-- OUTCOME, DONE and carried records join the next batch that has room (R147, R158, R159, R170). -/
def joinBatch (rs : List (List Byte)) (s : State) : State := flushJournal { s with cn := { s.cn with jwait := s.cn.jwait ++ rs } }

/-! ### DONE and the writes it waits for (R147, R336) -/

/-- Writes of a Cinch's APPLY to the tack vault (1) and the record store (2): store, handle index or table, and key. -/
def storeWrites (x : Cinch) : List (Nat × Nat × List Byte) :=
  x.actions.filterMap (fun a =>
    if a.typ = 2 then some (1, a.tack, zeros 32) else if a.typ = 4 then some (2, a.obj, takePad 32 a.inl) else none)

/-- The DONE record of an applied Cinch: it joins a batch once every STAGE write of the APPLY is durable. -/
def journalDone (h : Nat) (x : Cinch) (s : State) : State :=
  let r := doneRecord x.paddock h x.dseq
  if (storeWrites x).isEmpty then joinBatch [r] s
  else { s with cn := { s.cn with doneWait := s.cn.doneWait ++ [{ record := r, dseq := x.dseq, left := storeWrites x }] } }

/-- STAGE heads have become durable: the DONE records that waited for the last of them join a batch. -/
def stageLanded (heads : List (List Byte)) (s : State) : State :=
  let hit (w : DoneWait) (e : Nat × Nat × List Byte) : Bool :=
    heads.any (fun r => field r 8 8 == w.dseq && byteAt r 2 == e.1 && field r 4 4 == e.2.1 && (r.drop 0x14).take 32 == e.2.2)
  let ws := s.cn.doneWait.map (fun w => { w with left := w.left.filter (fun e => !hit w e) })
  let ready := ws.filter (fun w => w.left.isEmpty)
  if heads.isEmpty then s
  else joinBatch (ready.map (fun w => w.record)) { s with cn := { s.cn with doneWait := ws.filter (fun w => !w.left.isEmpty) } }

/-! ### Reading the journal back (R171) -/

/-- A batch counts: its header names it and every record's CHECK is right (R166, R168). -/
def batchValid (b : JBatch) : Bool :=
  let h := b.recs.headD []
  b.durable && b.recs.zipIdx.all (fun p => jGood (b.first + p.2) p.1) && rKind h == 1 && field (rPayload h) 8 8 == b.first &&
    field (rPayload h) 0x10 2 == b.recs.length

/-- The batches that are read: those that count, from the reclaim point of the newest. -/
def validBatches (bs : List JBatch) : List JBatch :=
  let vs := bs.filter batchValid
  match vs.getLast? with
  | none => []
  | some b => vs.filter (fun v => decide (field (rPayload (b.recs.headD [])) 0x1A 8 < v.first + v.recs.length))

/-- The action that an INTENT record spells; STALL and OUTPUT actions are never replayed and do nothing (R171). -/
def intentAction (r : List Byte) : Action :=
  let p := rPayload r
  let a : Action := {
    typ := 6, sub := 0, obj := 0, arg := 0, inl := [], data := [], key := Rein.zero, tack := 0, stall := 0, pages := 0, cidHash := 0,
    wstaged := 0, held := none }
  match byteAt r 2 with
  | 2 => { a with typ := 2, sub := byteAt p 0, tack := field p 1 4 }
  | 3 => { a with
      typ := 3, sub := byteAt p 0, obj := if byteAt p 0 = 2 then 0 else field p 1 4, tack := if byteAt p 0 = 2 then field p 1 4 else 0,
      arg := field p 5 8, inl := takePad 36 ((p.drop 13).take 8) }
  | 4 => { a with
      typ := 4, sub := byteAt p 0, obj := byteAt p 1, inl := takePad 36 ((p.drop 4).take 32), pages := if field p 2 2 = 0 then 0 else 1 }
  | 5 => { a with typ := 5, obj := field p 0 2, inl := takePad 36 ((p.drop 2).take 32) }
  | 7 => { a with typ := 7, sub := 1, obj := byteAt p 0, arg := field p 1 2, wstaged := field p 3 4, cidHash := field p 7 8, pages := 1 }
  | 8 => { a with typ := 8, sub := 1, obj := byteAt p 0, inl := (p.drop 1).take 36, arg := field p 37 2, pages := 1 }
  | _ => a

/-- Bytes of an action's data block that its INTENT tells; of a TOKEN's APDUs what the CONT records hold (log 148). -/
def intentLen (r : List Byte) (held : Nat) : Nat :=
  match byteAt r 2 with
  | 4 => field (rPayload r) 2 2
  | 7 => 256
  | _ => held

/-- The actions that INTENT and CONT records spell. -/
def intentActions : List (List Byte) → List Action
  | [] => []
  | r :: rs =>
    let conts := rs.takeWhile (fun c => rKind c == 3)
    let data := conts.flatMap rPayload
    if rKind r = 2 then { intentAction r with data := data.take (intentLen r data.length) } :: intentActions rs
    else intentActions rs

/-- What the journal says of a decision (R171, R172). -/
structure Found where
  dseq : Nat
  handle : Nat
  paddock : Nat
  external : Bool
  lost : Bool
  actions : List Action
  outcome : Nat
  stride : Nat
  isDone : Bool
deriving DecidableEq, Repr

/-- A decision found at boot: the first writing, or a carried copy, is whole. -/
def findDecision (recs : List (Nat × List Byte)) (d : Nat) : Option Found :=
  match (decisionCopy recs d false).or (decisionCopy recs d true) with
  | none => none
  | some (ints, dec) =>
    let out := (recs.filter (fun r => rKind r.2 == 5 && rDseq r.2 == d)).getLast?
    some {
      dseq := d, handle := rHandle dec, paddock := byteAt dec 3, external := byteAt (rPayload dec) 0 == 2,
      lost := ints.any (fun r => rKind r.2 == 2 && (byteAt r.2 2 == 1 || byteAt r.2 2 == 6)),
      actions := intentActions (ints.map (fun r => r.2)), stride := field (rPayload dec) 6 8, outcome := (out.map (fun r => byteAt (rPayload r.2) 0)).getD 0,
      isDone := isDone recs d }

/-- Decisions of which only INTENT records are found (R172): DSEQ, handle and paddock. -/
def orphanIntents (recs : List (Nat × List Byte)) : List (Nat × Nat × Nat) :=
  recs.foldl (fun l r =>
    if rKind r.2 = 2 ∧ (findDecision recs (rDseq r.2)).isNone ∧ !l.any (fun e => e.1 == rDseq r.2) then
      l ++ [(rDseq r.2, rHandle r.2, byteAt r.2 3)] else l) []

end Sys2Proof.Machine
end

