-- ==== Sys2Proof/Machine/Crypto.lean ====
section
/-! DEFINITION. Block-cipher modes (R68–R72) and the CTR_DRBG (R113) written over the block transforms that Config leaves opaque:
the chaining, counters, GHASH, padding, MACs, key wrapping and derivation are the standards' own. -/

namespace Sys2Proof.Machine

/-- A block transform in both directions, with its block size. -/
structure BlockFn where
  size : Nat
  enc : List Byte → List Byte
  dec : List Byte → List Byte

/-- The transform of a cipher ALG (R67) under key bytes; ALG 0x6 is single DES under half a key. -/
def blockFn (alg : Nat) (key : List Byte) : BlockFn :=
  if alg < 4 then { size := 16, enc := fun b => takePad 16 (Config.aesBlock true key b), dec := fun b => takePad 16 (Config.aesBlock false key b) }
  else { size := 8, enc := fun b => takePad 8 (Config.desBlock true key b), dec := fun b => takePad 8 (Config.desBlock false key b) }

/-! ### Plain modes -/

/-- ECB over whole blocks. -/
def ecb (f : List Byte → List Byte) (blocks : List (List Byte)) : List Byte := blocks.flatMap f

/-- CBC encryption. -/
def cbcEnc (c : BlockFn) : List Byte → List (List Byte) → List Byte
  | _, [] => []
  | iv, b :: bs => let y := c.enc (xorBytes b iv); y ++ cbcEnc c y bs

/-- CBC decryption. -/
def cbcDec (c : BlockFn) : List Byte → List (List Byte) → List Byte
  | _, [] => []
  | iv, b :: bs => xorBytes (c.dec b) iv ++ cbcDec c b bs

/-- CFB128; `enc` tells the direction. -/
def cfb (c : BlockFn) (enc : Bool) : List Byte → List (List Byte) → List Byte
  | _, [] => []
  | iv, b :: bs => let y := xorBytes b (c.enc iv); y ++ cfb c enc (if enc then y else b) bs

/-- OFB. -/
def ofb (c : BlockFn) : List Byte → List (List Byte) → List Byte
  | _, [] => []
  | iv, b :: bs => let k := c.enc iv; xorBytes b k ++ ofb c k bs

/-- CTR with a counter stepped by `step`. -/
def ctr (c : BlockFn) (step : List Byte → List Byte) : List Byte → List (List Byte) → List Byte
  | _, [] => []
  | n, b :: bs => xorBytes b (c.enc n) ++ ctr c step (step n) bs

/-- Increment of a 128-bit big-endian counter (R71). -/
def inc128 (b : List Byte) : List Byte := natToBE 16 ((beToNat b + 1) % 2 ^ 128)
/-- inc32 of SP 800-38D. -/
def inc32 (b : List Byte) : List Byte := b.take 12 ++ natToBE 4 ((beToNat (b.drop 12) + 1) % 2 ^ 32)

/-! ### GCM (SP 800-38D) -/

/-- One step of the GF(2^128) product: the bit of X from the top, the running product and the shifted V. -/
def gfStep (x : Nat) (st : Nat × Nat) (i : Nat) : Nat × Nat :=
  (if natBit x (127 - i) then st.1 ^^^ st.2 else st.1,
   if natBit st.2 0 then (st.2 / 2) ^^^ (0xE1 * 2 ^ 120) else st.2 / 2)

/-- Product in GF(2^128). -/
def gfMul (x y : Nat) : Nat := ((List.range 128).foldl (gfStep x) (0, y)).1

/-- GHASH over whole blocks, going on from an accumulator. -/
def ghashFrom (h y : Nat) (blocks : List (List Byte)) : Nat :=
  blocks.foldl (fun y b => gfMul (y ^^^ beToNat (takePad 16 b)) h) y

/-- GHASH over whole blocks. -/
def ghash (h : Nat) (blocks : List (List Byte)) : Nat := ghashFrom h 0 blocks

/-- J0 of an IV. -/
def gcmJ0 (h : Nat) (iv : List Byte) : List Byte :=
  if iv.length = 12 then iv ++ [0, 0, 0, 1]
  else natToBE 16 (ghash h (chunks 16 iv ++ [natToBE 16 (8 * iv.length)]))

/-- The last GHASH block: the lengths of AAD and ciphertext in bits. -/
def gcmLens (a l : Nat) : List Byte := natToBE 8 (8 * a) ++ natToBE 8 (8 * l)

/-- The full GCM tag of a GHASH accumulator over AAD, ciphertext and lengths. -/
def gcmSeal (c : BlockFn) (h s : Nat) (iv : List Byte) : List Byte := xorBytes (natToBE 16 s) (c.enc (gcmJ0 h iv))

/-- The full GCM tag. -/
def gcmTag (c : BlockFn) (iv aad ct : List Byte) : List Byte :=
  let h := beToNat (c.enc (zeros 16))
  gcmSeal c h (ghash h (chunks 16 aad ++ chunks 16 ct ++ [gcmLens aad.length ct.length])) iv

/-- GCM's data transform, the same both ways. -/
def gcmData (c : BlockFn) (iv d : List Byte) : List Byte :=
  ctr c inc32 (inc32 (gcmJ0 (beToNat (c.enc (zeros 16))) iv)) (chunks 16 d)

/-! ### CBC-MAC family -/

/-- CBC-MAC's last block. -/
def cbcMac (c : BlockFn) (iv : List Byte) (blocks : List (List Byte)) : List Byte :=
  blocks.foldl (fun y b => c.enc (xorBytes b y)) iv

/-- Doubling in the CMAC field (SP 800-38B). -/
def cmacDbl (n : Nat) (b : List Byte) : List Byte :=
  let v := beToNat b
  natToBE n (if natBit v (8 * n - 1) then (2 * v % 2 ^ (8 * n)) ^^^ (if n = 16 then 0x87 else 0x1B) else 2 * v)

/-- CMAC (SP 800-38B) of what follows the blocks already chained into `acc`. -/
def cmacFrom (c : BlockFn) (acc m : List Byte) : List Byte :=
  let k1 := cmacDbl c.size (c.enc (zeros c.size))
  let bs := chunks c.size m
  let last := bs.getLastD []
  let fin := if last.length = c.size then xorBytes last k1
    else xorBytes (takePad c.size (last ++ [0x80])) (cmacDbl c.size k1)
  cbcMac c acc (bs.dropLast ++ [fin])

/-- CMAC. -/
def cmac (c : BlockFn) (m : List Byte) : List Byte := cmacFrom c (zeros c.size) m

/-- The end of ISO/IEC 9797-1 MAC algorithm 3 (R71), from DES under K over the padded data: K is the first half of the key, K′
the second. -/
def macAlg3End (key acc : List Byte) : List Byte :=
  (blockFn 6 (key.take 8)).enc ((blockFn 6 ((key.drop 8).take 8)).dec acc)

/-! ### CCM (SP 800-38C) -/

/-- The head of the AAD encoding. -/
def ccmHead (a : Nat) : List Byte :=
  if a = 0 then [] else if a < 65280 then natToBE 2 a else [0xFF, 0xFE] ++ natToBE 4 a

/-- Blocks of a byte string, the last padded with zeros. -/
def padBlocks (d : List Byte) : List (List Byte) := (chunks 16 d).map (takePad 16)

/-- The first block of CCM's CBC-MAC. -/
def ccmB0 (nonce : List Byte) (a l tlen : Nat) : List Byte :=
  let q := 15 - nonce.length
  [BitVec.ofNat 8 ((if a = 0 then 0 else 64) + (tlen - 2) / 2 * 8 + (q - 1))] ++ nonce ++ natToBE q l

/-- CCM's counter block `i`. -/
def ccmCtr (nonce : List Byte) (i : Nat) : List Byte :=
  let q := 15 - nonce.length
  [BitVec.ofNat 8 (q - 1)] ++ nonce ++ natToBE q i

/-! ### XTS (IEEE 1619) -/

/-- Multiply the tweak by alpha. -/
def xtsNext (t : List Byte) : List Byte :=
  let v := leToNat t
  natToLE 16 (if natBit v 127 then (2 * v % 2 ^ 128) ^^^ 0x87 else 2 * v)

/-- One XTS block. -/
def xtsBlock (f : List Byte → List Byte) (t b : List Byte) : List Byte := xorBytes (f (xorBytes b t)) t

/-- XTS over the blocks of a data unit, with ciphertext stealing on a final partial block. -/
def xtsBlocks (enc : Bool) (f : List Byte → List Byte) : List Byte → List (List Byte) → List Byte
  | _, [] => []
  | t, [b] => xtsBlock f t b
  | t, [b, p] =>
    if p.length = 16 then xtsBlock f t b ++ xtsBlock f (xtsNext t) p
    else
      let t1 := if enc then t else xtsNext t
      let t2 := if enc then xtsNext t else t
      let cc := xtsBlock f t1 b
      xtsBlock f t2 (p ++ cc.drop p.length) ++ cc.take p.length
  | t, b :: bs => xtsBlock f t b ++ xtsBlocks enc f (xtsNext t) bs

/-- The first tweak of a data unit: its IV under the second half of the key. -/
def xtsTweak (alg : Nat) (key iv : List Byte) : List Byte := (blockFn alg (key.drop (key.length / 2))).enc iv

/-- XTS from a tweak on, under the first half of the key. -/
def xts (alg : Nat) (enc : Bool) (key tweak d : List Byte) : List Byte :=
  let c := blockFn alg (key.take (key.length / 2))
  xtsBlocks enc (if enc then c.enc else c.dec) tweak (chunks 16 d)

/-- A step of a counter or tweak, `n` times. -/
def stepTimes (step : List Byte → List Byte) (n : Nat) (v : List Byte) : List Byte :=
  (List.range n).foldl (fun a _ => step a) v

/-- The last `n` bytes of a string, or the value before where it is shorter. -/
def lastBlock (n : Nat) (before bs : List Byte) : List Byte := if bs.length < n then before else bs.drop (bs.length - n)

/-! ### Key wrap (RFC 3394, RFC 5649) -/

/-- One wrap step at count `t` on A and the semiblocks, the first of which is processed and moved to the end. -/
def kwStep (c : BlockFn) (st : List Byte × List (List Byte)) (t : Nat) : List Byte × List (List Byte) :=
  match st.2 with
  | [] => st
  | r :: rs => let b := c.enc (st.1 ++ r); (xorBytes (b.take 8) (natToBE 8 t), rs ++ [b.drop 8])

/-- Wrap semiblocks under an initial value. -/
def kwWrap (c : BlockFn) (iv : List Byte) (rs : List (List Byte)) : List Byte :=
  let r := (List.range (6 * rs.length)).foldl (fun st i => kwStep c st (i + 1)) (iv, rs)
  r.1 ++ r.2.flatten

/-- One unwrap step: the last semiblock is undone and moved to the front. -/
def kwUnstep (c : BlockFn) (st : List Byte × List (List Byte)) (t : Nat) : List Byte × List (List Byte) :=
  match st.2.getLast? with
  | none => st
  | some r => let b := c.dec (xorBytes st.1 (natToBE 8 t) ++ r); (b.take 8, b.drop 8 :: st.2.dropLast)

/-- Unwrap: the initial value found and the semiblocks. -/
def kwUnwrap (c : BlockFn) (d : List Byte) : List Byte × List Byte :=
  let rs := chunks 8 (d.drop 8)
  let r := ((List.range (6 * rs.length)).reverse).foldl (fun st i => kwUnstep c st (i + 1)) (d.take 8, rs)
  (r.1, r.2.flatten)

/-- The RFC 3394 initial value. -/
def kwIv : List Byte := List.replicate 8 0xA6

/-- KWP wrap. -/
def kwpWrap (c : BlockFn) (p : List Byte) : List Byte :=
  let iv := [0xA6, 0x59, 0x59, 0xA6] ++ natToBE 4 p.length
  let rs := (chunks 8 p).map (takePad 8)
  if rs.length = 1 then c.enc (iv ++ rs.flatten) else kwWrap c iv rs

/-- KWP unwrap: the key, or none when the integrity check fails. -/
def kwpUnwrap (c : BlockFn) (d : List Byte) : Option (List Byte) :=
  let (a, p) := if d.length = 16 then (let b := c.dec d; (b.take 8, b.drop 8)) else kwUnwrap c d
  let mli := beToNat ((a.drop 4).take 4)
  if a.take 4 = [0xA6, 0x59, 0x59, 0xA6] ∧ p.length < mli + 8 ∧ mli ≤ p.length ∧ 0 < mli ∧ (p.drop mli).all (· == 0)
  then some (p.take mli) else none

/-! ### KDF (SP 800-108, counter mode with CMAC) -/

/-- `n` bytes derived from the fixed input. -/
def kdfCtr (c : BlockFn) (fixed : List Byte) (n : Nat) : List Byte :=
  ((List.range (ceilDiv n 16)).flatMap (fun i => cmac c (natToBE 4 (i + 1) ++ fixed))).take n

/-! ### CTR_DRBG with AES-256 and a derivation function (SP 800-90A; R113) -/

/-- CTR_DRBG_Update: 48 bytes of provided data. -/
def ctrUpdate (key v data : List Byte) : List Byte × List Byte :=
  let c := blockFn 2 key
  let t := xorBytes (([1, 2, 3] : List Nat).flatMap (fun i => c.enc (stepTimes inc128 i v))) data
  (t.take 32, t.drop 32)

/-- Block_Cipher_df to 48 bytes. -/
def ctrDf (input : List Byte) : List Byte :=
  let s := natToBE 4 input.length ++ natToBE 4 48 ++ input ++ [0x80]
  let blocks := (chunks 16 s).map (takePad 16)
  let c := blockFn 2 ((List.range 32).map (BitVec.ofNat 8))
  let t := (List.range 3).flatMap (fun i => cbcMac c (zeros 16) ((natToBE 4 i ++ zeros 12) :: blocks))
  let k := blockFn 2 (t.take 32)
  (List.range 3).flatMap (fun i => stepTimes k.enc (i + 1) (t.drop 32))

/-- Instantiate or reseed a DRBG with 384 bits of entropy, in executed stride `now`. -/
def Drbg.seed (d : Drbg) (entropy : List Byte) (now : Nat) : Drbg :=
  let old := if d.count = 0 then (zeros 32, zeros 16) else (d.key, d.v)
  let u := ctrUpdate old.1 old.2 (ctrDf entropy)
  { count := 1, seeded := now, key := u.1, v := u.2 }

/-- One generate request: `n` bytes and the DRBG after it. -/
def Drbg.generate (d : Drbg) (n : Nat) : List Byte × Drbg :=
  let c := blockFn 2 d.key
  let out := ((List.range (ceilDiv n 16)).flatMap (fun i => c.enc (stepTimes inc128 (i + 1) d.v))).take n
  let u := ctrUpdate d.key (stepTimes inc128 (ceilDiv n 16) d.v) (zeros 48)
  (out, { d with count := d.count + 1, key := u.1, v := u.2 })

/-- The DRBG reseeds: 2¹⁶ generate requests or 1 s since its last seed (R113). -/
def Drbg.due (d : Drbg) (now : Nat) : Bool := d.count != 0 && (65536 < d.count || d.seeded + 1000000 ≤ now)

/-! ### Padding (R70) -/

/-- Pad to a multiple of `s`. -/
def padTo (pad s : Nat) (d : List Byte) : List Byte :=
  let r := d.length % s
  match pad with
  | 1 => d ++ List.replicate (s - r) (BitVec.ofNat 8 (s - r))
  | 2 => if d.isEmpty then zeros s else if r = 0 then d else d ++ zeros (s - r)
  | 3 => d ++ [0x80] ++ zeros (s - r - 1)
  | _ => d

/-- Strip padding, or none when it is invalid. -/
def unpad (pad s : Nat) (d : List Byte) : Option (List Byte) :=
  match pad with
  | 1 =>
    let k := byteAt' d
    if 1 ≤ k ∧ k ≤ s ∧ k ≤ d.length ∧ (d.drop (d.length - k)).all (fun b => b.toNat == k) then some (d.take (d.length - k)) else none
  | 3 =>
    let body := d.reverse.dropWhile (· == 0)
    if body.headD 0 = 0x80 ∧ d.length - body.length < s then some ((body.drop 1).reverse) else none
  | _ => some d
where
  /-- The last byte as a number. -/
  byteAt' (d : List Byte) : Nat := (d.getLastD 0).toNat

/-! ### HMAC-SHA-256 (R368) -/

/-- HMAC-SHA-256 over the opaque hash (FIPS 198-1). -/
def hmac256 (key m : List Byte) : List Byte :=
  let k := takePad 64 (if 64 < key.length then Config.hash 256 key else key)
  Config.hash 256 (xorBytes k (List.replicate 64 0x5C) ++ Config.hash 256 (xorBytes k (List.replicate 64 0x36) ++ m))

end Sys2Proof.Machine
end

