-- ==== Sys2Proof/Machine/Nor.lean ====
section
/-! DEFINITION. The NOR of the vault die (R318–R329): words and sectors, the areas and their order, the reserve, the words of
the ledger and of the life counters, the firmware banks, wear and retirement. Farrier's own writes land whole (log 170). -/

namespace Sys2Proof.Machine

/-! ### NOR words (R319, R321) -/

/-- The erased NOR word. -/
def norBlank : W64 := 0xFFFFFFFFFFFFFFFF

/-- The NOR word at a byte address. -/
def norWord (s : State) (a : Nat) : W64 := Tab.get norBlank s.fv.nor (a / 8)

/-- CHECK of a twice-word with a CONTENT at a NOR address: CRC-12 with the address folded in (R319, R352). -/
def twiceCheck (a content : Nat) : Nat := crcValue crc12 (some a) (natToBE 6 content)

/-- A twice-word after its first (`commit` false) or second program. -/
def twiceWord (a content : Nat) (commit : Bool) : W64 :=
  BitVec.ofNat 64 (content % 2 ^ 48 * 65536 + twiceCheck a (content % 2 ^ 48) * 16 + if commit then 0 else 15)

/-- The readings of a twice-word (R319). -/
inductive NorReading where
  | erased | written (content : Nat) | committed (content : Nat) | torn
deriving DecidableEq, Repr

/-- Read a twice-word. -/
def twiceRead (a : Nat) (w : W64) : NorReading :=
  let v := w.toNat
  if w = norBlank then .erased
  else if natBits v 4 12 = twiceCheck a (v / 65536) then
    (if v % 16 = 15 then .written (v / 65536) else if v % 16 = 0 then .committed (v / 65536) else .torn)
  else .torn

/-- A once-word is set when 48 or more of its bits read 0. -/
def onceSet (w : W64) : Bool := decide (48 ≤ ((List.range 64).filter (fun i => !w.getLsbD i)).length)

/-- First byte of a sector. -/
def sectorBase (n : Nat) : Nat := n * 65536

/-- ROLE of a sector: (ROLE, INDEX, SSEQ, committed), or none (R321). -/
def sectorRole (s : State) (n : Nat) : Option (Nat × Nat × Nat × Bool) :=
  let a := sectorBase n
  match twiceRead a (norWord s a) with
  | .written c => some (natBits c 40 8, natBits c 32 8, natBits c 0 32, false)
  | .committed c => some (natBits c 40 8, natBits c 32 8, natBits c 0 32, true)
  | _ => none

/-- A sector is retired (R321). -/
def sectorRetired (s : State) (n : Nat) : Bool := onceSet (norWord s (sectorBase n + 8))

/-- A sector of an area: its number, INDEX, SSEQ, and whether it is in use (R321). -/
structure Sector where
  n : Nat
  index : Nat
  sseq : Nat
  used : Bool
deriving DecidableEq, Repr

/-- The sectors of an area that are not retired (R320). -/
def sectorsOf (s : State) (role : Nat) : List Sector :=
  ((List.range 512).filter (fun n => natBits (norWord s (sectorBase n)).toNat 56 8 == role)).filterMap (fun n =>
    match sectorRole s n with
    | some (_, i, q, c) => if sectorRetired s n then none else some { n := n, index := i, sseq := q, used := c }
    | none => none)

/-- Members of an area (R320). -/
def areaSectors (s : State) (role : Nat) : List Nat := (sectorsOf s role).map (fun e => e.n)

/-- Sectors of an area as the table of R320 shows. -/
def areaSize : Nat → Nat | 0x01 => 128 | 0x02 => 128 | 0x03 => 96 | 0x04 => 16 | 0x05 => 32 | _ => 112

/-- Spare NOR sectors. -/
def norSpares (s : State) : Nat := (areaSectors s 0x0F).length

/-- A sector put into a list ordered by SSEQ. -/
def placeSector (e : Sector) : List Sector → List Sector
  | [] => [e]
  | f :: r => if e.sseq < f.sseq then e :: f :: r else f :: placeSector e r

/-- The sectors of an area in use, in the order of SSEQ: START first, HEAD last (R327). -/
def usedSectors (s : State) (role : Nat) : List Sector :=
  ((sectorsOf s role).filter (fun e => e.used)).foldl (fun l e => placeSector e l) []

/-- The next place in an area's order. -/
def nextSseq (s : State) (role : Nat) : Nat := (sectorsOf s role).foldl (fun m e => max m (e.sseq + 1)) 0

/-- The erased members of an area, in physical order around it from after HEAD (R327). -/
def gapSectors (s : State) (role : Nat) : List Sector :=
  let g := (sectorsOf s role).filter (fun e => !e.used)
  match (usedSectors s role).getLast? with
  | none => g
  | some h => g.filter (fun e => h.n < e.n) ++ g.filter (fun e => e.n < h.n)

/-- Address of data word `i` of a sector (R321). -/
def dataAddr (n i : Nat) : Nat := sectorBase n + 64 + 8 * i

/-- Data words of a sector. -/
def dataWords : Nat := 8184

/-- Put a NOR word as Farrier does. -/
def putNor (a : Nat) (w : W64) (s : State) : State :=
  { s with fv := { s.fv with nor := Tab.set norBlank s.fv.nor (a / 8) w, norProg := Tab.upd 0 s.fv.norProg (a / 8) (· + 1) } }

/-- Program ROLE of a sector: WRITTEN, or COMMITTED. -/
def putRole (n role index sseq : Nat) (commit : Bool) (s : State) : State :=
  putNor (sectorBase n) (twiceWord (sectorBase n) (role * 2 ^ 40 + index * 2 ^ 32 + sseq % 2 ^ 32) commit) s

/-- Every word of a sector reads erased. -/
def eraseSector (n : Nat) (s : State) : State :=
  let lo := n * 8192
  { s with fv := { s.fv with nor := Tab.clearRange norBlank s.fv.nor lo (lo + 8192), norProg := Tab.clearRange 0 s.fv.norProg lo (lo + 8192),
                             norLoops := Tab.set (0, 0) s.fv.norLoops n (0, 0) } }

/-- Take a sector into use: its ROLE is committed. -/
def useSector (role : Nat) (e : Sector) (s : State) : State := if e.used then s else putRole e.n role e.index e.sseq true s

/-- Farrier erases a sector of an area and programs ROLE at once (R321). -/
def renewSector (role index n : Nat) (s : State) : State := putRole n role index (nextSseq s role) false (eraseSector n s)

/-- Take the next gap sector of an area into use as its HEAD (R327). -/
def openHead (role : Nat) (s : State) : State :=
  match gapSectors s role with
  | e :: _ => useSector role e s
  | [] => s

/-- HEAD of an area. -/
def headSector (s : State) (role : Nat) : Option Sector := (usedSectors s role).getLast?

/-- The first data word of a sector that is still erased. -/
def freeWord (s : State) (n : Nat) : Option Nat := (List.range dataWords).find? (fun i => norWord s (dataAddr n i) == norBlank)

/-- Program and commit a twice-word with a CONTENT. -/
def putTwice (a content : Nat) (s : State) : State := putNor a (twiceWord a content true) (putNor a (twiceWord a content false) s)

/-! ### Events of the media (R341–R345, R459) -/

/-- Fill FV_FAULT (R347). -/
def vaultFault (medium reason addr : Nat) (s : State) : State :=
  { s with fv := { s.fv with fault := BitVec.ofNat 64 (medium % 4 * 2 ^ 62 + reason % 16 * 2 ^ 58 + addr % 2 ^ 30) } }

/-- Set an FV_EVENTS bit that goes to the ledger as event 0x2011 (R459). -/
def flashEvent (bit : Nat) (s : State) : State :=
  ledgerEvent 0x2011 bit (lowHigh s.fv.fault.toNat) (setEvent 11 bit s)

/-- Bin of a loop count in FV_LOOPHIST (R347). -/
def loopBin (m loops : Nat) : Nat := min 15 (if m = 0 then loops - 1 else (loops - 1) / 2)

/-- Count a program's loops in FV_LOOPHIST and in the ledger's histogram (R341). -/
def noteLoops (m loops : Nat) (s : State) : State :=
  let i := 16 * m + loopBin m loops
  itemAddQuiet (0x1050 + i) 1
    { s with fv := { s.fv with hist := Tab.upd 0 s.fv.hist i (fun v => if v = -1 then v else v + 1) } }

/-- Threshold of FV_WATCH for a medium. -/
def watchOf (s : State) (m : Nat) : Nat := natBits s.fv.watch.toNat (24 - 8 * m) 8

/-- The mean loop count crosses its threshold (R341). -/
def watchCrossed (s : State) (m : Nat) (old new : Nat × Nat) : Bool :=
  decide (old.1 ≤ watchOf s m * old.2) && decide (watchOf s m * new.2 < new.1)

/-! ### The reserve (R323–R325) -/

/-- CONTENT of a reserve record's HEAD: KIND, KEY, LEN (R323). -/
def resvContent (kind key len : Nat) : Nat := kind * 2 ^ 40 + key % 2 ^ 24 * 2 ^ 16 + len % 256 * 2 ^ 8

/-- A COMMITTED copy of a reserve record that nothing superseded: its slot, KIND, KEY, LEN and RSEQ. -/
structure ResvCopy where
  addr : Nat
  kind : Nat
  key : Nat
  len : Nat
  rseq : Nat
deriving DecidableEq, Repr

/-- The copy that a programmed word is the HEAD of. -/
def resvCopyAt (s : State) (a : Nat) : Option ResvCopy :=
  if a % 65536 < 0x100 ∨ a % 256 ≠ 0 then none
  else
    match sectorRole s (a / 65536), twiceRead a (norWord s a) with
    | some (0x05, _, _, _), .committed c =>
      if onceSet (norWord s (a + 0x10)) || sectorRetired s (a / 65536) then none
      else some { addr := a, kind := natBits c 40 8, key := natBits c 16 24, len := natBits c 8 8, rseq := (norWord s (a + 8)).toNat }
    | _, _ => none

/-- The copies that count. -/
def resvCopies (s : State) : List ResvCopy := s.fv.nor.filterMap (fun e => resvCopyAt s (8 * e.1))

/-- The payload of a copy. -/
def resvPayload (s : State) (c : ResvCopy) : List Byte :=
  (List.range c.len).flatMap (fun i => natToLE 8 (norWord s (c.addr + 0x20 + 8 * i)).toNat)

/-- A free slot of a reserve sector. -/
def resvSlot (s : State) (n : Nat) : Option Nat :=
  ((List.range 255).map (fun j => sectorBase n + 0x100 + 256 * j)).find? (fun a => norWord s a == norBlank)

/-- Reserve sectors with free slots: those in use first, then erased ones. -/
def resvFree (s : State) : List Sector := (usedSectors s 0x05 ++ gapSectors s 0x05).filter (fun e => (resvSlot s e.n).isSome)

/-- Write one copy: the first program of HEAD, RSEQ and the payload, the second program of HEAD (R324). -/
def putCopy (a kind key rseq : Nat) (ws : List W64) (s : State) : State :=
  let h := resvContent kind key ws.length
  let s1 := putNor (a + 8) (BitVec.ofNat 64 rseq) (putNor a (twiceWord a h false) s)
  putNor a (twiceWord a h true) (ws.zipIdx.foldl (fun st p => putNor (a + 0x20 + 8 * p.2) p.1 st) s1)

/-- Write a record into slots of two reserve sectors and supersede the copies of the one it replaces (R324). -/
def putCopies (kind key : Nat) (ws : List W64) (s : State) : State :=
  match (resvFree s).take 2 with
  | [] => s
  | es =>
    let all := resvCopies s
    let rseq := all.foldl (fun m c => max m (c.rseq + 1)) 1
    let s1 := es.foldl (fun st e => match resvSlot st e.n with
      | some a => putCopy a kind key rseq ws (useSector 0x05 e st)
      | none => st) s
    (all.filter (fun c => c.kind == kind && c.key == key)).foldl (fun st c => putNor (c.addr + 0x10) 0 st) s1

/-- 8-byte words of a payload, the last one padded with zeros. -/
def payloadWords (bs : List Byte) : List W64 := (chunks 8 bs).map (fun c => BitVec.ofNat 64 (leToNat c))

/-- One sector compacted where fewer than 2 reserve sectors with free slots remain beside the pair in use: the current records of the
sector with the lowest SSEQ outside the pair are written again, and it is erased (R325; log 171). -/
def compactOne (s : State) : Option State :=
  let free := (resvFree s).map (fun e => e.n)
  if 4 ≤ free.length then none
  else ((usedSectors s 0x05).find? (fun e => !(free.take 2).contains e.n)).map (fun e =>
    renewSector 0x05 0 e.n (((resvCopies s).filter (fun c => c.addr / 65536 == e.n)).foldl
      (fun st c => putCopies c.kind c.key (payloadWords (resvPayload st c)) st) s))

/-- Compaction until there is room again, of at most `fuel` sectors. -/
def compactReserve : Nat → State → State
  | 0, s => s
  | fuel + 1, s => (compactOne s).elim s (compactReserve fuel)

/-- Write a reserve record (R323–R325). -/
def reservePut (kind key : Nat) (bs : List Byte) (s : State) : State :=
  let ws := payloadWords bs
  if ws.isEmpty ∨ 28 < ws.length then s else putCopies kind key ws (compactReserve 32 s)

/-- A copy's words can all be read: none of them is in the list of uncorrectable words. -/
def copyReadable (bad : List Nat) (c : ResvCopy) : Bool := !bad.any (fun a => c.addr + 8 ≤ a && a < c.addr + 0x20 + 8 * c.len)

/-- What mount makes of one record: the payload of a readable current copy, or none where neither can be read (R324). -/
structure ResvFound where
  kind : Nat
  key : Nat
  data : Option (List Byte)
deriving DecidableEq, Repr

/-- The record of a (KIND, KEY) pair at mount. -/
def resvFound (bad : List Nat) (s : State) (kind key : Nat) : ResvFound :=
  let cs := (resvCopies s).filter (fun c => c.kind == kind && c.key == key)
  let top := cs.foldl (fun m c => max m c.rseq) 0
  { kind := kind, key := key,
    data := (cs.find? (fun c => c.rseq == top && copyReadable bad c)).map (fun c => resvPayload s c) }

/-- The records of the reserve at mount. -/
def resvAll (bad : List Nat) (s : State) : List ResvFound :=
  ((resvCopies s).map (fun c => (c.kind, c.key))).eraseDups.map (fun k => resvFound bad s k.1 k.2)

/-- Farrier supersedes every copy but those of the greatest RSEQ, and a record that cannot be read sets MEDIA (R324). -/
def resvResolve (bad : List Nat) (s : State) : State :=
  let all := resvCopies s
  let old := all.filter (fun c => all.any (fun d => d.kind == c.kind && d.key == c.key && c.rseq < d.rseq))
  setEventIf ((resvAll bad s).any (fun r => r.data.isNone)) 11 3 (old.foldl (fun st c => putNor (c.addr + 0x10) 0 st) s)

/-! ### Life counters (R329) -/

/-- Append a life-counter word in the LIFE area. -/
def putLife (id v : Nat) (s : State) : State :=
  match headSector s 0x04 with
  | some h => match freeWord s h.n with
    | some i => putTwice (dataAddr h.n i) (id % 64 * 2 ^ 42 + v % 2 ^ 42) s
    | none => s
  | none => s

/-- HEAD of the LIFE area has room; a new HEAD opens by rewriting every non-zero counter, and the oldest sector is erased after
the last of those. -/
def lifeRoom (s : State) : State :=
  match headSector s 0x04 with
  | none => openHead 0x04 s
  | some h =>
    if (freeWord s h.n).isSome then s
    else
      let s1 := s.fv.life.foldl (fun st e => putLife e.1 e.2 st) (openHead 0x04 s)
      match usedSectors s 0x04 with
      | e :: _ => renewSector 0x04 0 e.n s1
      | [] => s1

/-- Write a life counter: a value not greater than the present one is refused. -/
def writeLife (id v : Nat) (s : State) : State :=
  if Tab.get 0 s.fv.life id < v ∧ v < 2 ^ 42 then
    let s1 := putLife id v (lifeRoom s)
    { s1 with fv := { s1.fv with life := Tab.set 0 s1.fv.life id v } }
  else s

/-! ### Firmware banks (R322) -/

/-- The sectors of a bank. -/
def bankSectors (s : State) (b : Nat) : List Sector := sectorsOf s (b + 1)

/-- The sector of a bank with an INDEX. -/
def bankSector (l : List Sector) (i : Nat) : Option Sector := l.find? (fun e => e.index == i)

/-- Erase a bank, its INDEX 0 sector first. -/
def eraseBank (b : Nat) (s : State) : State :=
  let l := bankSectors s b
  ((l.filter (fun e => e.index == 0)) ++ l.filter (fun e => e.index != 0)).foldl (fun st e => renewSector (b + 1) e.index e.n st) s

/-- Write the words of an image that hold its bytes from `off` to `lim`. -/
def putImage (b : Nat) (img : List Byte) (off lim : Nat) (s : State) : State :=
  let l := bankSectors s b
  (List.range (ceilDiv lim 8 - off / 8)).foldl (fun st k =>
    let w := off / 8 + k
    match bankSector l (w / dataWords) with
    | some e => putNor (dataAddr e.n (w % dataWords)) (BitVec.ofNat 64 (leToNat (takePad 8 (img.drop (8 * w)))))
        (useSector (b + 1) e st)
    | none => st) s

/-- Program the BANK word of a bank: the first program makes it LOADED, the second ACTIVE. -/
def putBankWord (b seq sectors : Nat) (commit : Bool) (s : State) : State :=
  match bankSector (bankSectors s b) 0 with
  | some e =>
    let a := sectorBase e.n + 16
    putNor a (twiceWord a (seq % 2 ^ 32 * 2 ^ 16 + sectors % 2 ^ 16) commit) s
  | none => s

/-! ### Retirement and the ends of operations (R318, R321, R341, R342) -/

/-- A twice-word stands at an offset of a sector of area `role`, beside ROLE itself (R321–R323, R326, R329). -/
def isTwice (role off : Nat) : Bool :=
  if role = 0x03 ∨ role = 0x04 then decide (64 ≤ off) else if role = 0x05 then decide (0x100 ≤ off) && off % 256 == 0
  else off == 16 && (role == 0x01 || role == 0x02)

/-- A word of a sector of area `role` as it stands at another address: a twice-word carries its address in CHECK. -/
def movedWord (role off src dst : Nat) (w : W64) : W64 :=
  if !isTwice role off then w
  else match twiceRead src w with
    | .written c => twiceWord dst c false
    | .committed c => twiceWord dst c true
    | _ => w

/-- The live content of a sector moves to another one (R342). -/
def moveSector (role src dst : Nat) (s : State) : State :=
  (s.fv.nor.filter (fun e => e.1 / 8192 == src && 2 ≤ e.1 % 8192)).foldl (fun st e =>
    let off := e.1 % 8192 * 8
    let a := sectorBase dst + off
    putNor a (movedWord role off (sectorBase src + off) a e.2) st) s

/-- A NOR sector is retired: a SPARE sector takes its ROLE, its INDEX and its content, and RETIRED is set (R321, R342, R344). -/
def retireSector (n : Nat) (s : State) : State :=
  if sectorRetired s n then s
  else
    let s1 := flashEvent 1 (vaultFault 0 3 (sectorBase n) s)
    let s2 := match (areaSectors s1 0x0F).filter (fun m => m != n), sectorRole s n with
      | [], _ => setEvent 11 10 s1
      | m :: _, some (r, i, q, c) => if r = 0x0F then s1 else moveSector r n m (putRole m r i q c (eraseSector m s1))
      | _, none => s1
    let s3 := putNor (sectorBase n + 8) 0 s2
    if norSpares s3 ≤ natBits s3.fv.pool.toNat 16 8 then flashEvent 2 s3 else s3

/-- NOR_PROGRAM_DONE: a word program ends. A program that the controller never issues (a bit from 0 to 1, a third
program, a second one of an ECC word, a retired sector) changes nothing. More than 16 loops retire the sector. -/
def execNorProgramDone (addr : Nat) (val : W64) (ecc : Bool) (loops : Nat) (s : State) : Host.Outcome State Fault Refusal :=
  let n := addr / 65536
  let old := norWord s addr
  let times := Tab.get 0 s.fv.norProg (addr / 8)
  if 512 ≤ n ∨ addr % 8 ≠ 0 ∨ loops = 0 ∨ sectorRetired s n ∨ (if ecc then 1 ≤ times else 2 ≤ times ∨ val &&& ~~~old ≠ 0) then .next s
  else
    let l := Tab.get (0, 0) s.fv.norLoops n
    let l1 := (l.1 + loops, l.2 + 1)
    let s1 := noteLoops 0 (min loops 16) (putNor addr val s)
    let s2 := { s1 with fv := { s1.fv with norLoops := Tab.set (0, 0) s1.fv.norLoops n l1 } }
    let s3 := if watchCrossed s 0 l l1 then flashEvent 0 s2 else s2
    .next (if 16 < loops then retireSector n s3 else s3)

/-- NOR_ERASE_DONE: a sector erase ends, and ROLE is programmed at once; past NOR_ERASE_LOOPS the sector is retired (R318, R321,
R342). -/
def execNorEraseDone (sector loops : Nat) (s : State) : Host.Outcome State Fault Refusal :=
  if 512 ≤ sector ∨ sectorRetired s sector then .next s
  else if natBits s.fv.retireCfg.toNat 24 8 < loops then .next (retireSector sector s)
  else match sectorRole s sector with
    | some (r, i, _, _) => .next (renewSector r i sector s)
    | none => .next (eraseSector sector s)

/-! ### Mount (R321, R339) -/

/-- The members that areas lack, as (ROLE, INDEX, SSEQ) in the order of R320. -/
def missingRoles (s : State) : List (Nat × Nat × Nat) :=
  let have_ := ((List.range 512).filter (fun n => !sectorRetired s n)).filterMap (sectorRole s)
  let bank (r : Nat) : List (Nat × Nat × Nat) :=
    ((List.range 128).filter (fun i => !(have_.any (fun e => e.1 == r && e.2.1 == i)))).map (fun i => (r, i, 0))
  let area (r : Nat) : List (Nat × Nat × Nat) :=
    (List.range (areaSize r - (have_.filter (fun e => e.1 == r)).length)).map (fun k => (r, 0, nextSseq s r + k))
  bank 1 ++ bank 2 ++ area 3 ++ area 4 ++ area 5

/-- Sectors whose header is wholly erased are given to the first area that lacks a member, else to SPARE (R321). -/
def adoptSectors : List Nat → List (Nat × Nat × Nat) → State → State
  | [], _, s => s
  | n :: ns, m, s =>
    match m with
    | (r, i, q) :: ms => adoptSectors ns ms (putRole n r i q false s)
    | [] => adoptSectors ns [] (putRole n 0x0F 0 0 false s)

/-- Sectors with no header word at all. -/
def blankSectors (s : State) : List Nat :=
  (List.range 512).filter (fun n => (List.range 8).all (fun i => norWord s (sectorBase n + 8 * i) == norBlank))

/-- Addresses of the twice-words that read torn. -/
def tornWords (s : State) : List Nat :=
  (s.fv.nor.filter (fun e =>
    (e.1 % 8192 == 0 || (sectorRole s (e.1 / 8192)).any (fun r => isTwice r.1 (e.1 % 8192 * 8))) &&
      decide (twiceRead (8 * e.1) e.2 = .torn))).map (fun e => 8 * e.1)

/-- TORN at mount, with the lowest torn word in FV_FAULT (R339, R347). -/
def noteTorn (s : State) : State :=
  match tornWords s with
  | [] => s
  | a :: _ => setEvent 11 7 (vaultFault 0 4 a s)

/-- The NOR at mount: torn words are recorded, lost headers are given out, and the reserve is resolved; `bad` are the words that
read uncorrectable. -/
def norMount (bad : List Nat) (s : State) : State :=
  let s1 := noteTorn s
  resvResolve bad (adoptSectors (blankSectors s1) (missingRoles s1) s1)

end Sys2Proof.Machine
end

