-- ==== Sys2Proof/Machine/Tack.lean ====
section
/-! DEFINITION. Tack custody's objects (R174–R198): attributes and their limits, cache and vault use, usage counts and
leases, fills and fetches, and the paddock acts. The commands themselves are in TackCmd. -/

namespace Sys2Proof.Machine

/-! ### Randomness (R113) -/

/-- A DRBG takes 384 bits of entropy over the die link: a free value (log 3). -/
def drbgSeed (d : Drbg) (s : State) : Drbg × State := let (v, s1) := drawNat s; (d.seed (natToBE 48 v) s.tick, s1)

/-- A DRBG before a generate request: without a state it takes its first seed; a reseed that is due takes place, or is refused for
lack of entropy and counted (R113; log 143). -/
def drbgReady (d : Drbg) (s : State) : Drbg × State :=
  if d.count = 0 then drbgSeed d s
  else if !d.due s.tick then (d, s)
  else if s.pk.entropyOk then drbgSeed d s
  else (d, { s with pk := { s.pk with reseedFails := min (s.pk.reseedFails + 1) 0xFFFF } })

/-- The DRBG of engine `u`. -/
def engineDrbg (s : State) (u : Nat) : Drbg := Tab.get Drbg.empty s.pk.drbgs u

/-- Replace an engine's DRBG. -/
def setDrbg (u : Nat) (d : Drbg) (s : State) : State := { s with pk := { s.pk with drbgs := Tab.set Drbg.empty s.pk.drbgs u d } }

/-- `n` bytes from the DRBG of engine `u`: one generate request. -/
def engineBytes (u n : Nat) (s : State) : List Byte × State :=
  if n = 0 then ([], s)
  else
    let (d, s1) := drbgReady (engineDrbg s u) s
    let (bs, d1) := d.generate n
    (bs, setDrbg u d1 s1)

/-- `n` bytes from tack custody's own DRBG (R190). -/
def custodyBytes (n : Nat) (s : State) : List Byte × State :=
  let (d, s1) := drbgReady s.tk.drbg s
  let (bs, d1) := d.generate n
  (bs, { s1 with tk := { s1.tk with drbg := d1 } })

/-- Every DRBG takes its first seed, at boot (R113, R133). -/
def seedDrbgs (s : State) : State :=
  let s1 := (List.range 68).foldl (fun st u => let r := drbgSeed Drbg.empty st; setDrbg u r.1 r.2) s
  let r := drbgSeed Drbg.empty s1
  { r.2 with tk := { r.2.tk with drbg := r.1 }, pk := { r.2.pk with entropyOk := true } }

/-- Tacks may be cited: the keep key is present, and no SHED or ZERO sensor holds custody (R175, R410). -/
def State.keepPresent (s : State) : Bool := s.tk.keep.isSome && !s.tk.held

/-- An admitted job still uses a tack. -/
def tackInUse (s : State) (h : Nat) : Bool :=
  s.cf.jobs.any (fun j => j.row == 0 && (j.tack == h || j.tack2 == h)) ||
    s.pk.jobs.any (fun j => j.row == 0 && (j.tack == h || j.tack2 == h))

/-- Change a tack. -/
def updTack (h : Nat) (f : Tack → Tack) (s : State) : State :=
  { s with tk := { s.tk with tacks := s.tk.tacks.map (fun p => if p.1 = h then (p.1, f p.2) else p) } }

/-- A tack record by handle. -/
def tackRec (s : State) (h : Nat) : Option Tack := (s.tk.tacks.find? (fun p => p.1 == h)).map (fun p => p.2)

/-- The tack a handle names for a paddock: absent where it is another paddock's or retired (R188, R189). -/
def getTack (s : State) (p h : Nat) : Option Tack :=
  match tackRec s h with
  | some t => if t.paddock = p ∧ t.st ≠ 4 then some t else none
  | none => none

/-- What the cache slot of an AES tack holds beside its key (R56): the final round key, of an XTS key its data half's, and,
where the usage permits GCM or GMAC, H = AES_K(0¹²⁸). -/
def loadedKeys (t : Tack) : List Byte × List Byte :=
  if t.algo < 3 then
    (Config.aesFinalKey t.material, if t.usage % 16 = 0 then [] else takePad 16 (Config.aesBlock true t.material (zeros 16)))
  else if t.algo < 5 then (Config.aesFinalKey (t.material.take (t.material.length / 2)), [])
  else ([], [])

/-- The 64-byte attribute block of a tack (R183). -/
def attrBlock (t : Tack) : List Byte :=
  [BitVec.ofNat 8 t.algo, BitVec.ofNat 8 t.param] ++ natToLE 2 t.lenb ++ natToLE 2 t.usage ++
    [BitVec.ofNat 8 t.policy, BitVec.ofNat 8 t.paddock] ++ natToLE 4 t.handle ++
    [BitVec.ofNat 8 (b2n t.volatile + 2 * b2n t.pinned), 0, 0, 0] ++ natToLE 8 t.fromT ++ natToLE 8 t.untilT ++
    natToLE 8 t.limit ++ takePad 16 t.label ++ zeros 8

/-- The tack stands in the cache, with the values custody computes as it loads it (R56, R195). -/
def Tack.load (t : Tack) : Tack :=
  { t with resident := true, finalKey := (loadedKeys t).1, hashKey := (loadedKeys t).2, bad := false }

/-- The tack's cache slots are given up and wiped. -/
def Tack.unload (t : Tack) : Tack := { t with resident := false, material := [], finalKey := [], hashKey := [], bad := false }

/-- The hash subkey of a tack (R56). -/
def Tack.hashSub (t : Tack) : Nat := beToNat t.hashKey

/-- A LIVE tack of the paddock. -/
def liveTack (s : State) (p h : Nat) : Option Tack := (getTack s p h).filter (fun t => t.st == 3)

/-! ### Attributes (R183, R184, R196) -/

/-- Field length in bytes of a curve code (R108). -/
def curveLen : Nat → Nat
  | 0x01 => 32 | 0x02 => 48 | 0x03 => 66 | 0x04 => 32 | 0x05 => 48 | 0x06 => 64 | 0x07 => 32 | 0x08 => 57 | _ => 0

/-- ALGO is symmetric. -/
def algoSym (a : Nat) : Bool := a ≤ 0x08

/-- LENB allowed for an ALGO (R184). -/
def lenbOk (algo lenb : Nat) : Bool :=
  match algo with
  | 0x00 => lenb == 16 | 0x01 => lenb == 24 | 0x02 => lenb == 32 | 0x03 => lenb == 32 | 0x04 => lenb == 64
  | 0x05 => lenb == 16 | 0x06 => lenb == 24 | 0x07 => lenb == 16 | 0x08 => lenb == 32
  | 0x10 => 128 ≤ lenb && lenb ≤ 1024 && lenb % 8 == 0
  | 0x11 => 128 ≤ lenb && lenb ≤ 1024 && lenb % 8 == 0
  | 0x12 => 1 ≤ lenb && lenb ≤ 66 | 0x13 => 1 ≤ lenb && lenb ≤ 66 | 0x14 => lenb == 32 || lenb == 57
  | 0x15 => lenb == 32 || lenb == 57 | 0x16 => lenb == 32 || lenb == 56 | 0x17 => lenb == 64
  | _ => false

/-- Cache entries a tack takes (R184). -/
def algoEntries (algo : Nat) : Nat := if algo = 0x04 then 2 else 1

/-- Large units a tack takes (R184). -/
def algoUnits (algo lenb : Nat) : Nat :=
  if algo = 0x10 then ceilDiv (lenb * 7 / 2 + 8) 256
  else if algo = 0x11 then ceilDiv (lenb + 8) 256
  else if 0x12 ≤ algo then 1 else 0

/-- Bytes of key material (R196). -/
def materialLen (algo lenb : Nat) : Nat :=
  match algo with
  | 0x10 => lenb * 7 / 2 + 8 | 0x11 => lenb + 8 | 0x12 => 3 * lenb | 0x13 => 2 * lenb | 0x14 => 2 * lenb
  | 0x15 => lenb | 0x16 => 2 * lenb | 0x17 => 64 | _ => lenb

/-! ### Sealing (R181, R182, R196) -/

/-- The first 8 bytes of a sealed record: PADDOCK, STATE, GEN, SEALSEQ. -/
def sealHead (p st gen seq : Nat) : List Byte := [BitVec.ofNat 8 p, BitVec.ofNat 8 st] ++ natToLE 2 gen ++ natToLE 4 seq

/-- IV of a sealed record: PADDOCK, DOMAIN, 0x0000, SEALSEQ big-endian, 0x0000_0000. -/
def sealIv (domain : Nat) (head : List Byte) : List Byte :=
  head.take 1 ++ [BitVec.ofNat 8 domain, 0, 0] ++ natToBE 4 (field head 4 4) ++ zeros 4

/-- KEY and TAG: AES-256-GCM under the keep key, with the first 8 bytes as AAD. -/
def sealKey (keep : List Byte) (domain : Nat) (head key : List Byte) : List Byte :=
  let c := blockFn 2 keep
  let ct := gcmData c (sealIv domain head) (takePad 32 key)
  ct ++ gcmTag c (sealIv domain head) head ct

/-- The key of a sealed record: none where its tag fails. -/
def unsealKey (keep : List Byte) (domain : Nat) (head body : List Byte) : Option (List Byte) :=
  let c := blockFn 2 keep
  if gcmTag c (sealIv domain head) head (body.take 32) = (body.drop 32).take 16 then some (gcmData c (sealIv domain head) (body.take 32))
  else none

/-- A paddock record's first 8 bytes. -/
def Paddock.head (q : Paddock) (p : Nat) : List Byte := sealHead p q.st q.gen q.sealSeq

/-- The 64-byte record of a paddock (R181). -/
def padRecord (p : Nat) (q : Paddock) : List Byte := q.head p ++ takePad 48 q.sealed ++ zeros 8

/-- A record of another sealed key (R199, R332): PADDOCK 0x00, STATE 0xFF, GEN 0, SEALSEQ 1. -/
def keyRecord (keep : List Byte) (domain : Nat) (key : List Byte) : List Byte :=
  let head := sealHead 0 0xFF 0 1
  head ++ sealKey keep domain head key ++ zeros 8

/-- The key that such a record seals, while custody may unseal it. -/
def State.openRecord (s : State) (domain : Nat) (rec : Option (List Byte)) : Option (List Byte) :=
  if !s.keepPresent then none
  else match rec, s.tk.keep with
    | some r, some k => unsealKey k domain (r.take 8) ((r.drop 8).take 48)
    | _, _ => none

/-- The saddlebag key (R199). -/
def State.sbKey (s : State) : Option (List Byte) := s.openRecord 1 s.tk.sbRec

/-- The master key that the vault die finds in the record of an ACTIVE paddock (R181). -/
def sealedMaster (s : State) (p : Nat) : Option (List Byte) :=
  let q := s.paddock p
  if q.st ≠ 1 then none else s.tk.keep.bind (fun k => unsealKey k 0 (q.head p) q.sealed)

/-- A paddock's master key: the unsealed copy, or what the vault die unseals for tack custody (R182). -/
def masterKey (s : State) (p : Nat) : Option (List Byte) :=
  if (s.paddock p).master.isSome then (s.paddock p).master else if s.keepPresent then sealedMaster s p else none

/-- Replace a paddock's record. -/
def setPaddock (p : Nat) (q : Paddock) (s : State) : State :=
  { s with tk := { s.tk with paddocks := Tab.set Paddock.absent s.tk.paddocks p q } }

/-- Replace a paddock's record and write it to the reserve (R181, R324). -/
def keepPaddock (p : Nat) (q : Paddock) (s : State) : State := reservePut 0x01 p (padRecord p q) (setPaddock p q s)

/-- The vault die unseals the master key of an ACTIVE paddock: a record whose tag fails is treated as absent (R181, R182). -/
def unsealMaster (p : Nat) (s : State) : State :=
  let q := s.paddock p
  if q.st ≠ 1 ∨ q.master.isSome ∨ !s.keepPresent then s
  else match masterKey s p with
    | some k => setPaddock p { q with master := some k } s
    | none => setEvent 6 2 (setPaddock p Paddock.absent s)

/-- An envelope under key `c` with an IV: head, encrypted material padded to 16 bytes, tag (R196, R202). -/
def sealedEnvelope (key iv head material : List Byte) : List Byte :=
  let c := blockFn 2 key
  let ct := gcmData c iv (takePad (ceilDiv material.length 16 * 16) material)
  head ++ ct ++ gcmTag c iv head ct

/-- The padded material of an envelope: none where its tag fails. -/
def openedEnvelope (key iv env : List Byte) : Option (List Byte) :=
  let c := blockFn 2 key
  let ct := (env.drop 0x50).take (env.length - 0x60)
  if env.length < 0x60 ∨ gcmTag c iv (env.take 0x50) ct ≠ env.drop (env.length - 16) then none else some (gcmData c iv ct)

/-- IV of an envelope of the tack vault: HANDLE and WCOUNT, big-endian (R196). -/
def envelopeIv (env : List Byte) : List Byte := natToBE 4 (field env 8 4) ++ natToBE 8 (field env 0x40 8)

/-- The envelope of a tack (R196). -/
def tackEnvelope (key material : List Byte) (t : Tack) : List Byte :=
  let head := attrBlock t ++ natToLE 8 t.wcount ++ zeros 8
  sealedEnvelope key (envelopeIv head) head material

/-- The key material that an envelope of the tack vault holds. -/
def envelopeMaterial (key env : List Byte) : Option (List Byte) :=
  (openedEnvelope key (envelopeIv env) env).map (fun m => m.take (materialLen (byteAt env 0) (field env 2 2)))

/-- The material that the tack vault gives for a tack (R182, R196). -/
def vaultMaterial (s : State) (t : Tack) : Option (List Byte) :=
  let env := Tab.get [] s.tk.vault t.handle
  match masterKey s t.paddock with
  | some k => if env.isEmpty then none else envelopeMaterial k env
  | none => none

/-- A tack's material: in the cache, or else as the tack vault gives it (log 156). -/
def tackMaterial (s : State) (t : Tack) : List Byte :=
  if !t.material.isEmpty then t.material else (vaultMaterial s t).getD []

/-- Write a tack's envelope to the tack vault under the next WCOUNT, not linked yet (R192, R196). -/
def writeEnvelope (h : Nat) (f : Tack → Tack) (s : State) : State :=
  updTack h (fun t =>
    let n := { f t with wcount := t.wcount + 1 }
    { t with wcount := n.wcount, unlinked := some (tackEnvelope ((masterKey s t.paddock).getD []) (tackMaterial s t) n) }) s

/-- Handle indices an envelope takes (R196, R332). -/
def envelopeSlots (algo lenb : Nat) : Nat := ceilDiv (0x60 + ceilDiv (materialLen algo lenb) 16 * 16) 128

/-- Entries held against TK_QUOTA (R189). -/
def Tack.entries (t : Tack) : Nat := if t.st = 1 ∨ t.st = 2 ∨ (t.st = 3 ∧ t.resident) then algoEntries t.algo else 0
/-- Large units held against TK_QUOTA. -/
def Tack.unitsHeld (t : Tack) : Nat := if t.st = 1 ∨ t.st = 2 ∨ (t.st = 3 ∧ t.resident) then algoUnits t.algo t.lenb else 0
/-- Vault entries held: one for a LIVE tack that is not VOLATILE (R189). -/
def Tack.vaultHeld (t : Tack) : Nat := if t.st = 3 ∧ !t.volatile then 1 else 0

/-- Entries, units and vault entries a paddock holds (TK_USED, TK_VUSED). -/
def entriesUsed (s : State) (p : Nat) : Nat := Tab.total s.tk.tacks (fun _ t => if t.paddock = p then t.entries else 0)
def unitsUsed (s : State) (p : Nat) : Nat := Tab.total s.tk.tacks (fun _ t => if t.paddock = p then t.unitsHeld else 0)
def vaultUsed (s : State) (p : Nat) : Nat := Tab.total s.tk.tacks (fun _ t => if t.paddock = p then t.vaultHeld else 0)

/-- INSTALLs staged or in progress that will each take a vault entry (R192). -/
def installsHeld (s : State) (p : Nat) : Nat :=
  Tab.total s.cn.slots (fun _ x => if x.holds && x.paddock == p then
    (x.actions.filter (fun a => a.typ == 2 && a.sub == 1 && (tackRec s a.tack).any (fun t => t.st == 2))).length else 0)

/-- One more vault entry passes TK_VQUOTA. -/
def vaultFull (s : State) (p : Nat) : Bool := decide (vaultUsed s p + installsHeld s p + 1 > Tab.get 0 s.tk.vquota p)

/-- TK_QUOTA fields of a paddock. -/
def quotaEntries (s : State) (p : Nat) : Nat := natBits (Tab.get 0 s.tk.quota p) 0 17
def quotaUnits (s : State) (p : Nat) : Nat := natBits (Tab.get 0 s.tk.quota p) 17 15

/-- Write of TK_QUOTA (`vault` false) or TK_VQUOTA for the selected paddock (R204). -/
def writeTkQuota (vault : Bool) (v : W32) (s : State) : State :=
  let p := s.tk.psel
  if vault then
    (let n := natBits v.toNat 0 28
     let sum := Tab.total s.tk.vquota (fun q n => if q = p then 0 else n) + n
     if sum > 2 ^ 28 ∨ n < vaultUsed s p then setEvent 6 7 s
     else { s with tk := { s.tk with vquota := Tab.set 0 s.tk.vquota p n } })
  else
    (let e := natBits v.toNat 0 17
     let u := natBits v.toNat 17 15
     let es := Tab.total s.tk.quota (fun q n => if q = p then 0 else natBits n 0 17) + e
     let us := Tab.total s.tk.quota (fun q n => if q = p then 0 else natBits n 17 15) + u
     if es > 65536 ∨ us > 16384 ∨ e < entriesUsed s p ∨ u < unitsUsed s p then setEvent 6 7 s
     else { s with tk := { s.tk with quota := Tab.set 0 s.tk.quota p v.toNat } })

/-- TK_QUOTA_WRITE of TK_QUOTA or TK_VQUOTA. -/
def execTkQuotaWrite (c : Nat) (vault : Bool) (v : W32) (s : State) : Host.Outcome State Fault Refusal :=
  if coreMay s c true (if vault then 0x100600038 else 0x100600030) then .next (writeTkQuota vault v s) else .next s

/-- TK_LEASE as it acts (R204). -/
def leaseEff (s : State) : Nat := max 2 (s.tk.lease.toNat / 2 * 2)
/-- TK_RSV_TO as it acts (R204). -/
def rsvEff (s : State) : Nat := max 1024 s.tk.rsvTo.toNat

/-! ### Usage counts and leases (R149, R197, R198) -/

/-- A further use would pass LIMIT (R149). -/
def useOverLimit (s : State) (t : Tack) : Bool :=
  t.limit != noEnd && decide (t.count + t.pendingUses + tackReserved s t.handle + 1 > t.limit)

/-- A further use stays within the durable bound (R198); a VOLATILE tack has no durable bound. -/
def useWithinBound (s : State) (t : Tack) : Bool :=
  t.volatile || decide (t.count + t.pendingUses + tackReserved s t.handle + 1 ≤ t.bound)

/-- Write a new bound ahead of a count that has reached bound − TK_LEASE / 2 (R198). -/
def leaseCheck (h : Nat) (s : State) : State :=
  updTack h (fun t => if t.st = 3 ∧ !t.volatile ∧ t.boundNext = none ∧ t.bound < t.limit ∧ t.bound ≤ t.count + leaseEff s / 2
    then { t with boundNext := some (min (t.bound + leaseEff s) t.limit) } else t) s

/-- A use waits for a bound: the event, and the bound is asked for (R198). -/
def leaseWait (h : Nat) (s : State) : State :=
  updTack h (fun t => if t.boundNext = none ∧ t.bound < t.limit
    then { t with boundNext := some (min (t.bound + leaseEff s) t.limit) } else t) (setEvent 6 5 s)

/-- A use is admitted: held against the bound until it is counted (R198). -/
def pendUse (h : Nat) (s : State) : State :=
  updTack h (fun t => { t with pendingUses := t.pendingUses + 1, lru := s.tick }) s

/-- A pending use is counted, in slice 1 of its job (R197, R198). -/
def countUse (h : Nat) (s : State) : State :=
  leaseCheck h (updTack h (fun t => { t with pendingUses := t.pendingUses - 1, count := t.count + 1 }) s)

/-- A pending use that will never be counted is given back. -/
def dropUse (h : Nat) (s : State) : State := updTack h (fun t => { t with pendingUses := t.pendingUses - 1 }) s

/-- Count without a pending use: an ARM, or a committed TACK_ADD of `n` (R197). -/
def countNow (h n : Nat) (s : State) : State :=
  leaseCheck h (updTack h (fun t => { t with count := t.count + n, lru := s.tick }) s)

/-- LEASE_DURABLE: the bound being written becomes the durable bound (R198). -/
def execLeaseDurable (h : Nat) (s : State) : Host.Outcome State Fault Refusal :=
  .next (leaseCheck h (updTack h (fun t => match t.boundNext with
    | some b => { t with bound := b, boundNext := none }
    | none => t) s))

/-! ### Fills (R190) and fetches (R182, R195, R196) -/

/-- A held job's fill stands only if its Cinch commits (R190). -/
def fillUnder (held : Option (Nat × Nat)) (h : Nat) (s : State) : State :=
  match held with
  | some (i, _) => updTack h (fun t => { t with fillCinch := some (cinchHandle (getCinch s i) i) }) s
  | none => s

/-- A Cinch ends: the slots its held jobs filled keep their keys where it committed, or are RESERVED again with nothing in them (R190). -/
def settleFills (cinch : Nat) (ok : Bool) (s : State) : State :=
  (s.tk.tacks.filter (fun e => e.2.fillCinch == some cinch)).foldl (fun st e => updTack e.1 (fun t =>
    if ok || t.st = 4 || (t.st = 3 && !t.volatile) then { t with fillCinch := none }
    else { t.unload with st := 1, fillCinch := none }) st) s

/-- Fill a RESERVED tack: FILLED, or LIVE for a VOLATILE one (R190). -/
def fillTack (h : Nat) (key : List Byte) (s : State) : State :=
  updTack h (fun t => { t with st := if t.volatile then 3 else 2, material := key, fillPending := false }.load) s

/-- The fill did not happen: the slot is RESERVED again with nothing in it (R190). -/
def unfillTack (h : Nat) (s : State) : State :=
  updTack h (fun t => if t.st = 1 then { t with material := [], fillPending := false } else { t with fillPending := false }) s

/-- A fetch from the tack vault begins (R30). -/
def startFetch (h : Nat) (s : State) : State := updTack h (fun t => { t with fetching := true, errAt := 0 }) s

/-- A fetch of the tack failed just now: the jobs that waited for it end MEDIA_ERROR (R196). -/
def fetchFailed (s : State) (t : Tack) : Bool := t.errAt != 0 && s.tick ≤ t.errAt + 1

/-- A LIVE tack that a job must wait for: it starts a fetch where none runs (R30). -/
def needFetch (s : State) (t : Tack) : Bool := t.st == 3 && !t.resident && !fetchFailed s t

/-- A paddock's evictable tacks: LIVE, resident, not VOLATILE, not PINNED, used by no admitted job (R195). -/
def evictable (s : State) (p : Nat) : List Tack :=
  (s.tk.tacks.filter (fun e => e.2.paddock = p && e.2.st == 3 && e.2.resident && !e.2.volatile && !e.2.pinned &&
    e.2.pendingUses == 0 && !tackInUse s e.1)).map (fun e => e.2)

/-- The least recently used of some tacks. -/
def lruOf (ts : List Tack) : Option Tack :=
  ts.foldl (fun b t => match b with | none => some t | some x => if t.lru < x.lru then some t else some x) none

/-- Room for a tack's entries and units within the paddock's quota. -/
def cacheRoom (s : State) (t : Tack) : Bool :=
  entriesUsed s t.paddock + algoEntries t.algo ≤ quotaEntries s t.paddock &&
    unitsUsed s t.paddock + algoUnits t.algo t.lenb ≤ quotaUnits s t.paddock

/-- Evict least recently used tacks until there is room (R195); `fuel` bounds the evictions. -/
def makeRoom (t : Tack) : Nat → State → State
  | 0, s => s
  | n + 1, s =>
    if cacheRoom s t then s
    else
      match lruOf ((evictable s t.paddock).filter (fun x => x.handle != t.handle)) with
      | none => s
      | some v => makeRoom t n (updTack v.handle Tack.unload s)

/-- A fetch ends without the tack: the event, and the jobs that wait end MEDIA_ERROR (R196). -/
def failFetch (h bit : Nat) (s : State) : State :=
  setEvent 6 bit (updTack h (fun t => { t with fetching := false, errAt := s.tick + 1 }) s)

/-- TACK_FETCH_COMPLETE: outcome 0 opens the envelope and brings the tack into the cache, evicting within its paddock or waiting; 1 is
an envelope read back otherwise than it was written, 2 a fetch vault storage cannot complete, as with no NAND mounted (R182, R195,
R196, R489). -/
def execTackFetchComplete (h outcome : Nat) (s : State) : Host.Outcome State Fault Refusal :=
  match tackRec s h with
  | none => .next s
  | some t =>
    if !t.fetching then .next s
    else if outcome = 0 ∧ !s.pm.nandFail then
      let s1 := makeRoom t s.tk.tacks.length s
      if cacheRoom s1 t then
        let s2 := unsealMaster t.paddock s1
        match vaultMaterial s2 t with
        | some m => .next (updTack h (fun t => { t with fetching := false, lru := s.tick, material := m }.load) s2)
        | none => .next (failFetch h (if (Tab.get [] s.tk.vault h).isEmpty then 3 else 2) s2)
      else .next s1
    else .next (failFetch h (if outcome = 1 then 2 else 3) s)

/-- Wipe retired tacks that no admitted job uses any more (R194). -/
def sweepRetired (s : State) : State :=
  { s with tk := { s.tk with tacks := s.tk.tacks.filter (fun e => !(e.2.st == 4 && e.2.pendingUses == 0 && !tackInUse s e.1)) } }

/-! ### Handles (R188) -/

/-- An index lies inside the indices of some tack. -/
def indexUsed (s : State) (i : Nat) : Bool :=
  s.tk.tacks.any (fun e => e.1 ≤ i && i < e.1 + envelopeSlots e.2.algo e.2.lenb)

/-- The next run of `n` free indices at or after the allocator's place, wrapping from 0x0FFF_FFFF to 1 (R188). -/
def findHandle (s : State) (n : Nat) : Option Nat :=
  let span := s.tk.tacks.foldl (fun a e => a + envelopeSlots e.2.algo e.2.lenb + n) 1
  (List.range (span + n + 1)).findSome? (fun k =>
    let i := (s.tk.nextIndex - 1 + k) % 0x0FFFFFFF + 1
    if i + n ≤ 0x10000000 ∧ (List.range n).all (fun j => !indexUsed s (i + j)) then some i else none)

/-- Insert a new tack in handle order. -/
def addTack (t : Tack) (s : State) : State :=
  { s with tk := { s.tk with
    tacks := s.tk.tacks.filter (fun e => e.1 < t.handle) ++ [(t.handle, t)] ++ s.tk.tacks.filter (fun e => t.handle < e.1),
    nextIndex := (t.handle + envelopeSlots t.algo t.lenb - 1) % 0x0FFFFFFF + 1 } }

/-! ### Minting (R185, R204) -/

/-- The key rein a read of TK_MINT gives for a paddock, or the untagged zero rein (R185, R204). -/
def mintKeyRein (s : State) (p handle perm : Nat) : Rein :=
  match getTack s p handle with
  | some t =>
    if (s.paddock p).st = 1 ∧ BitVec.ofNat 16 perm &&& ~~~(BitVec.ofNat 16 t.usage) = 0 then
      Rein.make true (s.paddock p).gen p 0x02 perm 0 handle
    else Rein.zero
  | none => Rein.zero

/-- What core `c` reads from TK_MINT (R204). -/
def readMint (s : State) (c : Nat) : Rein :=
  let v := (Tab.get 0 s.tk.mint 0).toNat + (Tab.get 0 s.tk.mint 1).toNat * 2 ^ 64
  mintKeyRein s (getCore s c).paddock (natBits v 0 32) (natBits v 80 16)

/-- Put a rein register of a core. -/
def Core.setK (k : Core) (i : Nat) (r : Rein) : Core := { k with k := Tab.set Rein.zero k.k i r }

/-- TK_MINT_READ: core `c` reads TK_MINT into K[kd] (R185, R204). -/
def execTkMintRead (c kd : Nat) (s : State) : Host.Outcome State Fault Refusal :=
  if coreMay s c false 0x100600070 then .next (updCore c (fun k => k.setK (kd % 16) (readMint s c)) s) else .next s

/-! ### Paddock acts (R177–R182) -/

/-- What an act leaves of a paddock's STATE and GEN (R177). -/
def actLeaves (act : Nat) (q : Paddock) : Paddock :=
  if act = 1 then { q with st := 1, gen := q.gen + 1 }
  else if act = 2 then { q with st := 2, gen := if q.gen < 0xFFFF then q.gen + 1 else q.gen }
  else { q with gen := q.gen + 1 }

/-- A paddock's record once the acts that wait have taken effect (R178). -/
def paddockAhead (s : State) (p : Nat) : Paddock :=
  (s.tk.acts.filter (fun a => a.paddock == p)).foldl (fun q a => actLeaves a.act q) (s.paddock p)

/-- Whether an act is accepted (R177): 1 CREATE, 2 DELETE, 3 REVOKE. -/
def actAccepted (s : State) (p act : Nat) : Bool :=
  let q := paddockAhead s p
  if act = 1 then q.st == 0 && q.gen < 0xFFFF && s.tk.keep.isSome
  else if act = 2 then q.st == 1
  else act == 3 && q.st == 1 && q.gen < 0xFFFF

/-- Ask for an act: its new sealed record goes to NOR (R177, R178). -/
def askAct (p act cred : Nat) (s : State) : State :=
  if actAccepted s p act then
    { s with tk := { s.tk with acts := s.tk.acts ++ [{ paddock := p, act := act, asked := s.tick, cred := cred }] } }
  else s

def execPaddockCreate (p cred : Nat) (s : State) : Host.Outcome State Fault Refusal := .next (askAct (p % 256) 1 cred s)
def execPaddockDelete (p cred : Nat) (s : State) : Host.Outcome State Fault Refusal := .next (askAct (p % 256) 2 cred s)
def execPaddockRevoke (p cred : Nat) (s : State) : Host.Outcome State Fault Refusal := .next (askAct (p % 256) 3 cred s)

/-- A record sealed anew under the next SEALSEQ (R181); a key that cannot be unsealed leaves KEY and TAG as they stand. -/
def resealed (s : State) (p : Nat) (q : Paddock) (key : Option (List Byte)) : Paddock :=
  let n := { q with sealSeq := q.sealSeq + 1 }
  match s.tk.keep, key with
  | some k, some m => { n with sealed := sealKey k 0 (n.head p) m, master := if s.keepPresent then some m else none }
  | _, _ => n

/-- The act's effect on the paddock's own record (R177). -/
def actPaddock (a : PadAct) (s : State) : State :=
  let q := s.paddock a.paddock
  let n := actLeaves a.act q
  if a.act = 1 then
    let (key, s1) := drawBytes 32 s
    let s2 := keepPaddock a.paddock (resealed s a.paddock n (some key)) s1
    { s2 with tk := { s2.tk with quota := Tab.set 0 s2.tk.quota a.paddock 0, vquota := Tab.set 0 s2.tk.vquota a.paddock 0 } }
  else if a.act = 2 then setEvent 6 1 (keepPaddock a.paddock { n with sealSeq := q.sealSeq + 1, sealed := [], master := none } s)
  else setEvent 6 1 (keepPaddock a.paddock (resealed s a.paddock n
    (if q.master.isSome then q.master else sealedMaster s a.paddock)) s)

/-- PADDOCK_ABSENT: the last entry of a DELETING paddock is reclaimed (R179). -/
def execPaddockAbsent (p : Nat) (s : State) : Host.Outcome State Fault Refusal :=
  if (s.paddock p).st = 2 then
    .next (keepPaddock p { s.paddock p with st := 0 } { s with tk := { s.tk with
      tacks := s.tk.tacks.filter (fun e => e.2.paddock != p),
      vault := s.tk.vault.filter (fun e => byteAt e.2 7 != p) } })
  else .next s

end Sys2Proof.Machine
end

