-- ==== Sys2Proof/Machine/Stable.lean ====
section
/-! DEFINITION. The Stable (R84–R104): stalls as bytes of SRAM, their commands and checks, packet numbers and the
anti-replay window, transitions at stride boundaries, and the expiry queue. -/

namespace Sys2Proof.Machine

/-! ### Stall fields (R84) -/

/-- Address of stall `n` (R19, R84). -/
def stallAddr (n : Nat) : Nat := 0x40000000 + n * 256
/-- A field of a stall as a number. -/
def stallField (s : State) (n off len : Nat) : Nat := leToNat (ramBytes s (stallAddr n + off) len)
/-- STATE: 0 FREE, 1 LOADING, 2 LIVE, 3 EXPIRED, 4 RETIRING, 5 WIPING. -/
def stallState (s : State) (n : Nat) : Nat := stallField s n 0 1
def stallType (s : State) (n : Nat) : Nat := stallField s n 1 1
def stallPad (s : State) (n : Nat) : Nat := stallField s n 2 1
def stallFlags (s : State) (n : Nat) : Nat := stallField s n 6 2
def stallTack (s : State) (n : Nat) : Nat := stallField s n 0x10 4
def stallPN (s : State) (n : Nat) : Nat := stallField s n 0x30 8
def stallLimit (s : State) (n : Nat) : Nat := stallField s n 0x38 8
/-- W of RWIN. -/
def stallW (s : State) (n : Nat) : Nat := natBits (stallField s n 0x0A 2) 0 11
/-- RP_OFF of RWIN. -/
def stallRpOff (s : State) (n : Nat) : Bool := natBit (stallField s n 0x0A 2) 15
/-- The stall's window (R47). -/
def stallWindow (s : State) (n : Nat) : Nat × Nat := (stallField s n 0xE0 8, stallField s n 0xE8 8)

/-- The device's own write of stall bytes. -/
def putStall (n off : Nat) (bs : List Byte) (s : State) : State := putBytes s (stallAddr n + off) bs

/-- Add to a stall counter, saturating (R84). -/
def stallCount (n off k : Nat) (s : State) : State :=
  putStall n off (natToLE 8 (min (stallField s n off 8 + k) 0xFFFFFFFFFFFFFFFF)) s

/-- Transmit and outbound types (R85). -/
def typeTx (t : Nat) : Bool := t % 2 == 1
/-- The largest PN of a type (R85). -/
def typePnMax (t : Nat) : Nat := if t = 3 ∨ t = 4 ∨ t = 7 ∨ t = 8 then 0xFFFFFFFFFFFFFFFF else 0xFFFFFFFF
/-- TLEN allowed for a type (R85). -/
def typeTlen (t l : Nat) : Bool := if t ≤ 4 then l == 16 else l == 8 || l == 12 || l == 16
/-- ALGO allowed for a type (R233). -/
def typeAlgo (t a : Nat) : Bool := a == 2 || (5 ≤ t && a == 0)
/-- SALT and SCI bytes that a type does not use are zero (R94). -/
def saltZero (bs : List Byte) (t : Nat) : Bool :=
  if t = 3 ∨ t = 4 then true else zeroSpan bs 0x18 8 && zeroSpan bs 0x28 8

/-! ### Use and quota (R91, R97, R104) -/

/-- Stalls drawn by staged ALLOC actions of open Cinches; a draw that a SHED response cleared is void (R87). -/
def stagedAllocs (s : State) : List (Nat × Nat) :=
  s.cn.slots.flatMap (fun e => if 1 ≤ e.2.st && e.2.st ≤ 5 then
    (e.2.actions.filter (fun a => a.typ = 1 && a.sub = 1 && a.stall < 65536)).map (fun a => (a.stall, e.2.paddock)) else [])

/-- Whether a stall is drawn and still reads FREE. -/
def stallDrawn (s : State) (n : Nat) : Bool :=
  !(Tab.get [] s.st.drawn n).isEmpty || (stagedAllocs s).any (fun p => p.1 == n)

/-- Listed stalls that are not FREE. -/
def stallsHeld (s : State) : List Nat :=
  s.mem.ram.filterMap (fun c => if isStable c.1 && c.1 % 256 == 0 && c.2 != 0 then some (c.1 % 0x1000000 / 256) else none)

/-- ST_USED of a paddock. -/
def stallsUsed (s : State) (p : Nat) : Nat :=
  ((stallsHeld s).filter (fun n => stallPad s n == p)).length +
    (s.st.drawn.filter (fun e => byteAt e.2 1 == p)).length + ((stagedAllocs s).filter (fun e => e.2 == p)).length

/-- ST_FREE. -/
def stallsFree (s : State) : Nat := 65536 - (stallsHeld s).length - s.st.drawn.length - (stagedAllocs s).length

/-- The first FREE stall at or after `n`, `fuel` stalls at most. -/
def freeStallFrom (s : State) : Nat → Nat → Nat
  | 0, n => n
  | fuel + 1, n => if stallState s n = 0 && !stallDrawn s n then n else freeStallFrom s fuel ((n + 1) % 65536)

/-- A FREE stall drawn at random: a free value picks it (R93, log 3). -/
def drawStall (s : State) : Nat × State :=
  let (v, s1) := drawBelow 65536 s
  (freeStallFrom s1 65536 v, s1)

/-- ST_QUOTA write for the selected paddock (R104). -/
def writeStQuota (v : W32) (s : State) : State :=
  let p := s.st.psel
  let n := natBits v.toNat 0 17
  let sum := Tab.total s.st.quota (fun q k => if q = p then 0 else k) + n
  if sum > 65536 ∨ n < stallsUsed s p then setEvent 3 3 s
  else { s with st := { s.st with quota := Tab.set 0 s.st.quota p n } }

def execStQuotaWrite (c : Nat) (v : W32) (s : State) : Host.Outcome State Fault Refusal :=
  if coreMay s c true 0x100300028 then .next (writeStQuota v s) else .next s

/-! ### Expiry queue (R92, R104) -/

/-- Push an entry into ST_EXPQ, or lose it; the paddock's NOTIFY follows either way (R92, R221). -/
def pushExpq (reason p n : Nat) (s : State) : State :=
  let s1 := if s.st.expq.length < 1024 then
      { s with st := { s.st with expq := s.st.expq ++
        [BitVec.ofNat 64 (2 ^ 63 + reason % 256 * 2 ^ 40 + p % 256 * 2 ^ 32 + n % 2 ^ 32)] } }
    else setEvent 3 4 s
  oweNotify p n reason s1

/-- A read of ST_EXPQ: the head entry leaves; an empty queue reads zero. -/
def readExpq (s : State) : W64 × State :=
  match s.st.expq with
  | [] => (0, s)
  | e :: rest => (e, { s with st := { s.st with expq := rest } })

/-- EXPQ_READ: core `c` reads ST_EXPQ into G[rd]. -/
def execExpqRead (c rd : Nat) (s : State) : Host.Outcome State Fault Refusal :=
  if !coreMay s c false 0x100300040 then .next s else
  let (v, s1) := readExpq s
  .next (updCore c (fun k => { k with g := if rd % 64 = 0 then k.g else Tab.set 0 k.g (rd % 64) v }) s1)

/-! ### Leaving LIVE (R89, R92, R103) -/

/-- Order of a REASON in R92. -/
def reasonRank : Nat → Nat | 6 => 1 | 5 => 2 | 3 => 3 | 7 => 4 | 1 => 5 | 2 => 6 | 4 => 7 | _ => 9

/-- Record a cause for a stall to leave at the next boundary; the first in the order of R92 stands. -/
def causeLeave (n reason : Nat) (s : State) : State :=
  let old := Tab.get 0 s.st.leave n
  if reasonRank reason < reasonRank old then { s with st := { s.st with leave := Tab.set 0 s.st.leave n reason } } else s

/-- The stall's window is over for good (R102). -/
def windowOver (t : TimeUnit) (w : Nat × Nat) : Bool :=
  let tm := t.now / 1000 * 1000
  if w.2 = noEnd ∨ timeState t = 0 then false
  else if timeState t = 3 then decide (w.2 + t.uNow ≤ tm) else decide (w.2 ≤ tm)

/-- STALL_WINDOW_EXPIRY: the first stride in which a LIVE stall lies outside its own or its tack's window for good
(R102). -/
def execStallWindowExpiry (n : Nat) (s : State) : Host.Outcome State Fault Refusal :=
  if stallState s n = 2 then
    let s1 := match tackRec s (stallTack s n) with
      | some t => if windowOver s.time (t.fromT, t.untilT) then causeLeave n 7 s else s
      | none => s
    .next (if windowOver s1.time (stallWindow s n) then causeLeave n 1 s1 else s1)
  else .next s

/-- The retirement of a tack moves the LIVE stalls that cite it, and one whose ARM has passed in the stride (R103). -/
def expireByTack (h : Nat) (s : State) : State :=
  (stallsHeld s).foldl (fun st n => if (stallState s n == 2 || Tab.get 0 s.st.move n == 2) && stallTack s n == h then
    causeLeave n 3 st else st) s

/-- The tack retires at this boundary, or is LIVE no more. -/
def tackGoing (s : State) (h : Nat) : Bool := s.tk.retire.contains h || (tackRec s h).all (fun t => t.st != 3)

/-- A revocation of a paddock's generation (R92, R103): KGEN counts once ARM has checked it. -/
def revokeStalls (p : Nat) (s : State) : State :=
  (stallsHeld s).foldl (fun st n =>
    if stallPad s n == p && (1 ≤ stallState s n && stallState s n ≤ 3) then
      causeLeave n 6 st
    else st)
    (s.st.drawn.foldl (fun st e => if byteAt e.2 1 == p then causeLeave e.1 6 st else st) s)

/-! ### Classifier keys (R234, R235) -/

/-- The key fields of a stall: TYPE, FLAGS, SCI, SALT. -/
def stallKey (s : State) (n : Nat) : List Byte :=
  ramBytes s (stallAddr n + 1) 1 ++ ramBytes s (stallAddr n + 6) 2 ++ ramBytes s (stallAddr n + 0x18) 24

/-- FLAGS break a rule of R234's table for a type, without regard to the sub-port. -/
def flagsBad (t f : Nat) : Bool :=
  natBits f 12 4 != 0 || natBit f 9 || natBits f 6 2 != 0 ||
    (natBit f 11 && !(t == 6 || t == 8)) || (natBit f 10 && !(t == 1 || t == 3)) ||
    (5 ≤ t && (!natBit f 8 || natBits f 4 2 != 0))

/-- The sub-port that FLAGS name exists under the BREAKOUT in force (R229, R234). -/
def subExists (s : State) (f : Nat) : Bool := natBits f 2 2 == 0 || Tab.get false s.il.brk (natBits f 0 2)

/-- Give the classifier the key that the stall's fields now give (R235). -/
def takeKey (n : Nat) (s : State) : State :=
  { s with st := { s.st with keys := Tab.set [] s.st.keys n (stallKey s n) } }

/-! ### Commands (R93–R96) -/

/-- The ranges of a LOAD image that are not copied are zero (R93). -/
def imageClean (img : List Byte) : Bool :=
  zeroSpan img 0 6 && zeroSpan img 0x40 0xA0 && zeroSpan img 0xF0 16

/-- The ARM checks of R94 that give DENIED. -/
def armDenied (s : State) (p n : Nat) : Bool :=
  let t := stallType s n
  let bs := ramBytes s (stallAddr n) 256
  !s.keepPresent || (match liveTack s p (stallTack s n) with
   | none => true
   | some k => !natBit k.usage (if typeTx t then 0 else 1) || !typeAlgo t k.algo) ||
  stallField s n 0x14 2 != (s.paddock p).gen || !typeTlen t (stallField s n 8 1) || stallW s n > 1024 || !saltZero bs t

/-- The PN and window checks of R94. -/
def armRange (s : State) (n : Nat) : Bool :=
  let w := stallWindow s n
  w.1 < w.2 && 1 ≤ stallPN s n && stallPN s n ≤ stallLimit s n && stallLimit s n ≤ typePnMax (stallType s n)

/-- The tack's usage counter is at its limit for an ARM. -/
def armQuota (s : State) (p n : Nat) : Bool := (getTack s p (stallTack s n)).any (useOverLimit s)

/-- A command body's reserved fields, OP or TYPE are bad (R93, R95). -/
def stallBodyBad (b : List Byte) : Bool :=
  let op := byteAt b 0
  !(1 ≤ op && op ≤ 6) || (if op = 1 then !(1 ≤ byteAt b 1 && byteAt b 1 ≤ 8) else byteAt b 1 != 0) ||
    !zeroSpan b 2 2 || (op == 1 && field b 4 4 != 0) || (!(op == 2 || op == 6) && field b 8 8 != 0)

/-- States in which a command is accepted (R93). -/
def stallStateOk (op st : Nat) : Bool :=
  match op with
  | 2 => st == 1 | 3 => st == 1 | 4 => st == 2 | 5 => st == 1 || st == 3 | 6 => 1 ≤ st && st ≤ 3 | _ => true

/-- The status of a command by R95, for a paddock; `me` is the Cinch slot that stages it, `own` names the submitter's Cinches,
`img` is the LOAD image (none: unreadable). -/
def stallStatus (s : State) (p : Nat) (me : Option Nat) (own : Cinch → Bool) (b : List Byte) (img : Option (List Byte)) : Nat :=
  let op := byteAt b 0
  let n := field b 4 4
  let lock := if op = 1 then stOK else lockStatus s me own (.stall n) true
  firstStatus [
    (stallBodyBad b || (op == 2 && img.any (fun i => !imageClean i)), stMalformed),
    ((s.paddock p).st != 1, stDenied),
    (op != 1 && (n ≥ 65536 || stallState s n == 0 || stallPad s n != p || !stallStateOk op (stallState s n)), stDenied),
    (op == 3 && armDenied s p n, stDenied),
    (op == 1 && stallsUsed s p ≥ Tab.get 0 s.st.quota p, stQuota),
    (op == 3 && armQuota s p n, stQuota),
    (op == 3 && !armRange s n, stMalformed),
    (lock == stCinchConflict, stCinchConflict),
    (lock == stCinchIndoubt, stCinchIndoubt),
    (op == 2 && img.isNone, stMediaError)]

/-- An ARM whose charge would pass the tack's durable bound waits (R198). -/
def armWaits (s : State) (p n : Nat) : Bool := (getTack s p (stallTack s n)).any (fun t => !useWithinBound s t)

/-- ALLOC's draw of a stall for a paddock, its header kept until the boundary. -/
def allocStall (p typ n : Nat) (s : State) : State :=
  { s with st := { s.st with
    drawn := Tab.set [] s.st.drawn n ([BitVec.ofNat 8 typ, BitVec.ofNat 8 p] ++ natToLE 2 (s.paddock p).gen),
    move := Tab.set 0 s.st.move n 1 } }

/-- The effect of a command that passed, to hold from the next boundary (R93): LOAD, ARM, EXPIRE, RETIRE. Each command of a stride
is judged, and an ARM forms CHECK, on the stall as it stands in the stride (log 138). -/
def stallEffect (op n : Nat) (img : List Byte) (s : State) : State :=
  match op with
  | 2 => { s with st := { s.st with loads := s.st.loads ++ [(n, img)] } }
  | 3 =>
    let s1 := countNow (stallTack s n) 1 s
    let chk := stallCheck (stallAddr n) (ramBytes s1 (stallAddr n) 256)
    let s2 := takeKey n (putStall n 0xF0 (natToLE 4 chk) s1)
    let s3 := if tackGoing s2 (stallTack s2 n) then causeLeave n 3 s2 else s2
    { s3 with st := { s3.st with move := Tab.set 0 s3.st.move n 2 } }
  | 4 => causeLeave n 4 s
  | 5 => { s with st := { s.st with move := Tab.set 0 s.st.move n 4 } }
  | _ => s

/-- Put a request's result where its source reads it: the Stable's window, or the completion queue (R96, R221). -/
def finishStall (r : Req) (bs : List Byte) (s : State) : State :=
  match r.src with
  | .win c _ => { s with st := { s.st with wins := Tab.upd Win.reset s.st.wins c (fun w => w.finish bs) } }
  | .host fn q seq => hostComplete fn q seq bs s
  | .auto _ => s

/-- Admit a stall command (R93, R95). False: it waits for a durable bound (R198). -/
def stallSubmit (r : Req) (b : List Byte) (s : State) : Bool × State :=
  let op := byteAt b 0
  let n := field b 4 4
  let read := op == 2 && !stallBodyBad b && (s.paddock r.paddock).st == 1
  let (img, s1) := if read then reqRead r (field b 8 8) 256 s else (some [], s)
  let st := stallStatus s1 r.paddock none r.owns b img
  if st = stOK && op == 3 && armWaits s r.paddock n then (false, leaseWait (stallTack s n) s)
  else
    let (num, s2) := if st = stOK && op == 1 then drawStall s1 else (if op = 1 then 0xFFFFFFFF else n, s1)
    let s3 := if st ≠ stOK then s2
      else if op = 1 then allocStall r.paddock (byteAt b 1) num s2 else stallEffect op n (img.getD []) s2
    (true, { s3 with st := { s3.st with pend := s3.st.pend ++
      [{ pend := { req := r, due := s.tick + 1, status := st, result := natToLE 4 s.stride },
         op := op, stall := num, addr := field b 8 8, snap := st = stOK && op == 6 }] } })

/-- STALL_COMMAND_COMPLETE: the result of R96 in the stride after admission. -/
def execStallCommandComplete (src : Src) (s : State) : Host.Outcome State Fault Refusal :=
  match s.st.pend.find? (fun q => decide (q.pend.req.src = src)) with
  | none => .next s
  | some q =>
    if s.tick < q.pend.due ∨ q.snap ∨ !hostTurn s src then .next s
    else
      let ok := q.pend.status == stOK
      let bs := [BitVec.ofNat 8 q.pend.status,
          if ok then BitVec.ofNat 8 (stallState s q.stall) else 0,
          if ok then BitVec.ofNat 8 (stallField s q.stall 3 1) else 0, 0] ++
        natToLE 4 q.stall ++ q.pend.result ++ natToLE 4 s.stride
      .next (finishStall q.pend.req bs
        { s with st := { s.st with pend := s.st.pend.filter (fun x => decide (x.pend.req.src ≠ src)) } })

/-! ### Boundaries (R89, R91) -/

/-- The snapshot of a READ, taken at the end of its admission stride (R93). -/
def snapOne (q : StReq) (s : State) : StReq × State :=
  if !q.snap then (q, s)
  else
    let a := stallAddr q.stall + 0xC0
    if meetsPoison s a 64 then ({ q with snap := false, pend := { q.pend with status := stMediaError } }, noteUncorrectable a s)
    else
      let (ok, s1) := reqWrite q.pend.req q.addr (ramBytes s a 64) s
      ({ q with snap := false, pend := { q.pend with status := if ok then stOK else stMediaError } }, s1)

/-- All snapshots due. -/
def snapReads (s : State) : State :=
  let r := s.st.pend.foldl (fun acc q => let x := snapOne q acc.2; (acc.1 ++ [x.1], x.2)) (([] : List StReq), s)
  { r.2 with st := { r.2.st with pend := r.1 } }

/-- A stall enters RETIRING: no mapping holds from now on (R90). -/
def enterRetiring (n : Nat) (s : State) : State :=
  { putStall n 0 [4] s with st := { s.st with keys := Tab.set [] s.st.keys n [], since := Tab.set 0 s.st.since n s.tick,
                                              pnLow := Tab.set false s.st.pnLow n false } }

/-- One LOAD copy (R93): bytes 0x06 to 0x3F and 0xE0 to 0xEF, the classifier's key, FLAGS_BAD (R234). -/
def loadCopy (n : Nat) (img : List Byte) (s : State) : State :=
  if stallState s n ≠ 1 then s
  else
    let s1 := takeKey n (putStall n 0xE0 ((img.drop 0xE0).take 16) (putStall n 6 ((img.drop 6).take 58) s))
    setEventIf (flagsBad (stallType s1 n) (stallFlags s1 n) || !subExists s1 (stallFlags s1 n)) 8 5 s1

/-- One command move (R89): 1 to LOADING with its drawn header, 2 to LIVE, 4 to RETIRING. -/
def moveStall (n m : Nat) (s : State) : State :=
  let st := stallState s n
  if m = 1 then
    (let h := Tab.get [] s.st.drawn n
     putStall n 0 ([1] ++ h.take 2 ++ [0] ++ h.drop 2)
       { s with st := { s.st with drawn := Tab.set [] s.st.drawn n [] } })
  else if m = 2 ∧ st = 1 then putStall n 0 [2] s
  else if m = 4 ∧ (st = 1 ∨ st = 3) then enterRetiring n s
  else s

/-- One recorded leaving (R89, R92). -/
def leaveStall (n reason : Nat) (s : State) : State :=
  let st := stallState s n
  let p := stallPad s n
  let s0 := setEventIf (st == 2) 3 0 s
  if reason = 6 then
    (if 1 ≤ st ∧ st ≤ 3 then setEvent 3 5 (pushExpq 6 p n (enterRetiring n (putStall n 3 [6] s0))) else s)
  else if st = 2 then pushExpq reason p n (putStall n 0 [3] (putStall n 3 [BitVec.ofNat 8 reason] s0))
  else s

/-- A stall leaves LIVE now, for the first in the order of R92 of a cause recorded before and `reason`. -/
def leaveNow (n reason : Nat) (s : State) : State :=
  let s1 := causeLeave n reason s
  leaveStall n (Tab.get 0 s1.st.leave n) { s1 with st := { s1.st with leave := Tab.set 0 s1.st.leave n 0 } }

/-- A STALL action finds its stall in the state it requires (R97). -/
def stallFits (s : State) (n op p : Nat) : Bool :=
  n < 65536 && (if op = 1 then stallState s n == 0 else stallStateOk op (stallState s n) && stallPad s n == p)

/-- A STALL action's effect, whole and at once, where the stall is in the state it requires (R97): OP, TYPE, paddock,
LOAD image. -/
def stallNow (n op typ p : Nat) (img : List Byte) (s : State) : State :=
  if !stallFits s n op p then s
  else
    match op with
    | 1 => putStall n 0 ([1, BitVec.ofNat 8 typ, BitVec.ofNat 8 p, 0] ++ natToLE 2 (s.paddock p).gen)
        { s with st := { s.st with drawn := Tab.set [] s.st.drawn n [] } }
    | 2 => loadCopy n img s
    | 3 => moveStall n 2 (takeKey n (putStall n 0xF0 (natToLE 4 (stallCheck (stallAddr n) (ramBytes s (stallAddr n) 256))) s))
    | 4 => leaveNow n 4 s
    | 5 => moveStall n 4 s
    | _ => s

/-- A STALL action of an applied Cinch (R97): an ARM that takes effect charges its tack, and leaves LIVE again where the tack
retires; one whose stall has left the state it required is applied as nothing, and recorded so. -/
def stallApply (s : State) (a : StallApply) : State :=
  if !stallFits s a.stall a.op a.paddock then
    (let s1 := if a.op = 3 then dropUse a.tack s else s
     { s1 with cn := { s1.cn with nothing := s1.cn.nothing ++ [(a.dseq, a.index)] } })
  else
    let s1 := stallNow a.stall a.op a.typ a.paddock a.img (if a.op = 3 then countUse a.tack s else s)
    if a.op = 3 ∧ tackGoing s1 a.tack then causeLeave a.stall 3 s1 else s1

/-- What takes effect at a stride boundary: stalls drawn by ALLOC commands, revocations, LOAD copies, command moves, the STALL
actions of applied Cinches, and the other recorded leavings (R89, R92, R97; log 139). -/
def stableBoundary (s : State) : State :=
  let s1 := (s.st.move.filter (fun p => p.2 = 1)).foldl (fun st p => moveStall p.1 p.2 st) s
  let s2 := (s.st.leave.filter (fun p => p.2 = 6)).foldl (fun st p => leaveStall p.1 p.2 st) s1
  let s3 := s.st.loads.foldl (fun st p => loadCopy p.1 p.2 st) { s2 with st := { s2.st with
    leave := s2.st.leave.filter (fun p => p.2 ≠ 6) } }
  let s4 := (s.st.move.filter (fun p => p.2 ≠ 1)).foldl (fun st p => moveStall p.1 p.2 st) s3
  let s5 := s.st.applies.foldl stallApply s4
  let s6 := s5.st.leave.foldl (fun st p => leaveStall p.1 p.2 st) s5
  { s6 with st := { s6.st with loads := [], move := [], applies := [], leave := [], spent := [] } }

/-- STALL_RETIRING_END: the single stride in RETIRING is over; every byte but STATE and PADDOCK is zeroed (R89, R91). -/
def execStallRetiringEnd (n : Nat) (s : State) : Host.Outcome State Fault Refusal :=
  if stallState s n = 4 ∧ Tab.get 0 s.st.since n < s.tick then
    let p := stallPad s n
    .next { putStall n 0 ([5, 0, BitVec.ofNat 8 p] ++ zeros 253) s with
      st := { s.st with since := Tab.set 0 s.st.since n s.tick } }
  else .next s

/-- STALL_WIPING_END: the stall is FREE with all 256 bytes zero (R89, R91). -/
def execStallWipingEnd (n : Nat) (s : State) : Host.Outcome State Fault Refusal :=
  if stallState s n = 5 ∧ Tab.get 0 s.st.since n < s.tick then
    .next { putStall n 0 (zeros 256) s with st := { s.st with since := Tab.set 0 s.st.since n 0 } }
  else .next s

/-! ### Packet numbers and replay (R98–R100) -/

/-- lowestPN of a receive stall (R99). -/
def lowestPN (s : State) (n : Nat) : Nat := max 1 (stallPN s n - stallW s n)

/-- The full PN of a received frame from its low 32 bits (R99). -/
def recoverPN (s : State) (n low : Nat) : Nat :=
  let t := stallType s n
  if t = 4 ∨ t = 8 then
    (let l := lowestPN s n
     let hi := l / 2 ^ 32
     if low ≥ l % 2 ^ 32 then hi * 2 ^ 32 + low else (hi + 1) * 2 ^ 32 + low)
  else low

/-- BITMAP bit of a PN. -/
def bitmapBit (s : State) (n pn : Nat) : Bool :=
  natBit (stallField s n (0x40 + pn % 1024 / 8) 1) (pn % 8)

/-- Write a BITMAP bit. -/
def setBitmap (n pn : Nat) (v : Bool) (s : State) : State :=
  let off := 0x40 + pn % 1024 / 8
  let b : Byte := BitVec.ofNat 8 (stallField s n off 1)
  putStall n off [if v then b ||| BitVec.ofNat 8 (2 ^ (pn % 8)) else b &&& ~~~(BitVec.ofNat 8 (2 ^ (pn % 8)))] s

/-- Steps 1 and 2 of R100. -/
def replayRefused (s : State) (n pn : Nat) : Bool :=
  pn == 0 || (!stallRpOff s n && (decide (pn < lowestPN s n) || (decide (pn < stallPN s n) && bitmapBit s n pn)))

/-- PN_LOW once for the stall when PN_LIMIT − PN falls below PN_WARN (R98). -/
def checkPnLow (n : Nat) (s : State) : State :=
  let warn := stallField s n 0x0C 4
  if warn ≠ 0 ∧ !Tab.get false s.st.pnLow n ∧ stallLimit s n < stallPN s n + warn then
    setEvent 3 1 { s with st := { s.st with pnLow := Tab.set false s.st.pnLow n true } }
  else s

/-- Clear the bits of `k` PNs from `pn` upward. -/
def clearBits (n : Nat) : Nat → Nat → State → State
  | 0, _, s => s
  | k + 1, pn, s => clearBits n k (pn + 1) (setBitmap n pn false s)

/-- PN_LIMIT has been used: the stall leaves LIVE, and later frames of the stride are exhausted (R98). -/
def spendPN (n : Nat) (s : State) : State := causeLeave n 2 { s with st := { s.st with spent := n :: s.st.spent } }

/-- Step 5 of R100: an accepted frame of `octets` data bytes. -/
def acceptPN (n pn octets : Nat) (s : State) : State :=
  let next := stallPN s n
  let s1 := if pn ≥ next then
      putStall n 0x30 (natToLE 8 (min (pn + 1) 0xFFFFFFFFFFFFFFFF)) (clearBits n (min (pn + 1 - next) 1024) (max next (pn + 1 - 1024)) s)
    else s
  let s2 := stallCount n 0xC0 octets (stallCount n 0xC8 1 (setBitmap n pn true s1))
  checkPnLow n (if pn = stallLimit s n then spendPN n s2 else s2)

/-- A transmit stall assigns its PN (R98); with PN_LIMIT the stall is exhausted. -/
def assignPN (n : Nat) (s : State) : Nat × State :=
  let pn := stallPN s n
  let s1 := putStall n 0x30 (natToLE 8 (min (pn + 1) 0xFFFFFFFFFFFFFFFF)) s
  (pn, checkPnLow n (if pn = stallLimit s n then spendPN n s1 else s1))

/-- PN_LIMIT has been used (R98, row 4 of R240). -/
def pnExhausted (s : State) (n : Nat) : Bool :=
  s.st.spent.contains n || decide (stallPN s n > stallLimit s n)

end Sys2Proof.Machine
end

