-- ==== Sys2Proof/Machine/TackCmd.lean ====
section
/-! DEFINITION. Tack custody's commands (R183, R190–R194): RESERVE, INSTALL, RETIRE, RESTRICT, PIN, DESCRIBE, their
status rows, and the release of reservations. INSTALL, RESTRICT and a durable RETIRE run on as one-action Cinches. -/

namespace Sys2Proof.Machine

/-! ### The attribute block (R183, R184) -/

/-- PARAM and LENB fit ALGO (R108, R183, R184). -/
def paramOk (algo param lenb : Nat) : Bool :=
  if algo = 0x12 ∨ algo = 0x13 then 1 ≤ param && param ≤ 6 && lenb == curveLen param
  else if algo = 0x14 ∨ algo = 0x15 then (param == 7 || param == 8) && lenb == curveLen param
  else if algo = 0x16 then (param == 7 && lenb == 32) || (param == 8 && lenb == 56)
  else if algo = 0x17 then 9 ≤ param && param ≤ 13 && lenb == 64
  else param == 0 && lenbOk algo lenb

/-- An attribute block that row 1 of R192 refuses. -/
def attrBad (b : List Byte) : Bool :=
  !paramOk (byteAt b 0) (byteAt b 1) (field b 2 2) || 0x400 ≤ field b 4 2 || 2 < byteAt b 6 || 4 ≤ byteAt b 0x0C ||
    !zeroSpan b 0x0D 3 || !zeroSpan b 0x38 8 || field b 0x18 8 ≤ field b 0x10 8

/-- The RESERVED tack that a block describes. -/
def tackOfBlock (b : List Byte) (p h now : Nat) : Tack :=
  { handle := h, paddock := p, algo := byteAt b 0, param := byteAt b 1, lenb := field b 2 2, usage := field b 4 2,
    policy := byteAt b 6, volatile := natBit (byteAt b 0x0C) 0, pinned := natBit (byteAt b 0x0C) 1,
    fromT := field b 0x10 8, untilT := field b 0x18 8, limit := field b 0x20 8, label := (b.drop 0x28).take 16,
    st := 1, resident := false, material := [], wcount := 0, count := 0, bound := 0, boundNext := none, pendingUses := 0,
    fillPending := false, rsvAt := now, lru := now, fetching := false, errAt := 0, retired := false,
    finalKey := [], hashKey := [], bad := false, dseq := 0, unlinked := none, fillCinch := none }

/-- RESTRICT only narrows (R193). -/
def narrows (t : Tack) (b : List Byte) : Bool :=
  let n := tackOfBlock b t.paddock t.handle 0
  (BitVec.ofNat 16 n.usage &&& ~~~(BitVec.ofNat 16 t.usage) == 0) && n.policy ≤ t.policy && t.fromT ≤ n.fromT &&
    n.untilT ≤ t.untilT && n.limit ≤ t.limit && (n.limit == t.limit || t.bound ≤ n.limit) &&
    attrBlock { n with usage := t.usage, policy := t.policy, fromT := t.fromT, untilT := t.untilT, limit := t.limit } ==
      attrBlock t && byteAt b 7 == t.paddock && field b 8 4 == t.handle

/-- The narrowed tack. -/
def narrowed (t : Tack) (b : List Byte) : Tack :=
  let n := tackOfBlock b t.paddock t.handle 0
  { t with usage := n.usage, policy := n.policy, fromT := n.fromT, untilT := n.untilT, limit := n.limit,
           bound := min t.bound n.limit }

/-! ### Status (R192) -/

/-- OP and reserved fields of a body. -/
def tackBodyBad (b : List Byte) : Bool :=
  let op := byteAt b 0
  !(1 ≤ op && op ≤ 6) || !zeroSpan b 2 2 || (if op = 1 ∨ op = 5 then 2 ≤ byteAt b 1 else byteAt b 1 != 0) ||
    (op == 1 && field b 4 4 != 0) || ((op == 2 || op == 3 || op == 5) && field b 8 8 != 0)

/-- States a command accepts. -/
def tackStateOk (op st : Nat) : Bool :=
  match op with
  | 2 => st == 2 | 3 => 1 ≤ st && st ≤ 3 | 4 => st == 3 | 5 => st == 3 | 6 => 1 ≤ st && st ≤ 3 | _ => true

/-- A new tack fits the paddock's quota, after what may be evicted for it (R192 row 3, R195). -/
def reserveRoom (s : State) (t : Tack) : Bool := cacheRoom (makeRoom t s.tk.tacks.length s) t

/-- The status of a command by R192; `own` names the submitter's Cinches, `blk` is the attribute block (none: unreadable). -/
def tackStatus (s : State) (p : Nat) (own : Cinch → Bool) (b : List Byte) (blk : Option (List Byte)) : Nat :=
  let op := byteAt b 0
  let h := field b 4 4
  let lock := if op = 1 ∨ op = 6 then stOK else lockStatus s none own (.tack h) true
  let t := getTack s p h
  let blkUsed := op == 1 || op == 4
  firstStatus [
    (tackBodyBad b, stMalformed),
    (blkUsed && blk.any attrBad, stMalformed),
    (op == 1 && natBit (byteAt b 1) 0 && blk.any (fun x => !algoSym (byteAt x 0)), stMalformed),
    (!s.keepPresent || (s.paddock p).st != 1, stDenied),
    (op != 1 && !(t.any (fun k => tackStateOk op k.st)) , stDenied),
    (op == 4 && (match t, blk with | some k, some x => !narrows k x | _, _ => false), stDenied),
    (op == 1 && blk.any (fun x => !reserveRoom s (tackOfBlock x p 0 0)), stQuota),
    (op == 1 && blk.any (fun x => (findHandle s (envelopeSlots (byteAt x 0) (field x 2 2))).isNone), stQuota),
    (op == 2 && vaultFull s p, stQuota),
    (lock == stCinchConflict, stCinchConflict),
    (lock == stCinchIndoubt, stCinchIndoubt),
    (blkUsed && blk.isNone, stMediaError),
    (op == 4 && t.any (fun k => !k.volatile && k.material.isEmpty && (vaultMaterial s k).isNone), stMediaError),
    (s.pm.nandFail && (op == 2 || ((op == 3 || op == 4) && t.any (fun k => k.st == 3 && !k.volatile))), stMediaError)]

/-! ### Effects -/

/-- Retire a tack: from the next boundary its handle fails; stalls that cite it expire (R103, R194). -/
def retireTack (h : Nat) (s : State) : State :=
  expireByTack h { s with tk := { s.tk with retire := s.tk.retire ++ [h] } }

/-- The tacks that retire at this boundary (R194). -/
def retireBoundary (s : State) : State :=
  let s1 := s.tk.retire.foldl (fun st h => updTack h (fun t =>
    let kept := if t.pendingUses != 0 || tackInUse s h then t else t.unload
    { kept with st := 4, retired := true }) st) s
  sweepRetired { s1 with tk := { s1.tk with retire := [], vault := s1.tk.vault.filter (fun e => !s.tk.retire.contains e.1) } }

/-- The link of an envelope in the tack vault: an INSTALL's tack is LIVE with its bound, a RESTRICT's has the narrowed attributes (R192,
R193, R198); the vault records the decide sequence (R147). A VOLATILE tack has no envelope there (R189). -/
def linkTack (h dseq : Nat) (s : State) : State :=
  match (tackRec s h).bind (fun t => t.unlinked) with
  | none => s
  | some env =>
    let s1 := if (tackRec s h).any (fun t => t.volatile) then s
      else { s with tk := { s.tk with vault := Tab.set [] s.tk.vault h env } }
    updTack h (fun t =>
      if t.st = 3 then { narrowed t (env.take 64) with unlinked := none, dseq := dseq }
      else { t with st := 3, unlinked := none, bound := min (leaseEff s) t.limit, dseq := dseq }) s1

/-- RESERVE: a new handle, its slot, and the random fill where ARG asks for one (R190, R192). -/
def reserveTack (p : Nat) (blk : List Byte) (random : Bool) (s : State) : Nat × State :=
  match findHandle s (envelopeSlots (byteAt blk 0) (field blk 2 2)) with
  | none => (0xFFFFFFFF, s)
  | some h =>
    let t := tackOfBlock blk p h s.tick
    let s1 := addTack t (makeRoom t s.tk.tacks.length s)
    if random then
      (let (key, s2) := custodyBytes t.lenb s1
       (h, fillTack h key s2))
    else (h, s1)

/-- The Cinch slot that carries a durable command on (R192): COMMITTING at once, owned by no core. The envelope of an INSTALL, or of a
RESTRICT as it narrows the tack, is written and stands unlinked until then. -/
def tackCinch (r : Req) (op h : Nat) (blk : List Byte) (i : Nat) (s : State) : State :=
  let old := getCinch s i
  let act : Action := {
    typ := 2, sub := if op = 3 then 2 else 1, obj := 0, arg := 0, inl := [],
    data := blk, key := Rein.zero, tack := h, stall := 0, pages := 0, cidHash := 0, wstaged := 0, held := none }
  setCinch i { Cinch.free with
    st := 2, seq := nextSeq old.seq, durable := true, owner := 255, paddock := r.paddock,
    gen := (s.paddock r.paddock).gen, actions := [act], openedAt := s.tick, commitAt := s.tick, cmd := some r, cmdOp := op,
    cmdAdmit := s.stride, cmdBlock := blk, envelopeDurable := op == 3 } (if op = 4 then writeEnvelope h (fun t => narrowed t blk) s else if op = 2 then writeEnvelope h id s else s)

/-- DESCRIBE's 80 bytes. -/
def describeBytes (t : Tack) : List Byte :=
  attrBlock t ++ [BitVec.ofNat 8 t.st, BitVec.ofNat 8 (b2n t.resident)] ++ zeros 6 ++ natToLE 8 t.count

/-- The 16-byte result (R96, R192). -/
def tackResult (status state h adm done : Nat) : List Byte :=
  [BitVec.ofNat 8 status, BitVec.ofNat 8 (if status = stOK then state else 0), 0, 0] ++ natToLE 4 h ++ natToLE 4 adm ++
    natToLE 4 done

/-- Put a request's result where its source reads it. -/
def finishTack (r : Req) (bs : List Byte) (s : State) : State :=
  match r.src with
  | .win c _ => { s with tk := { s.tk with wins := Tab.upd Win.reset s.tk.wins c (fun w => w.finish bs) } }
  | .host fn q seq => hostComplete fn q seq bs s
  | .auto _ => s

/-- Note a result for the stride after; the bytes carry STATE, handle, ADMIT, the operation and, for a PIN, the flag it
replaced. -/
def pendTack (op was : Nat) (r : Req) (status state h : Nat) (s : State) : State :=
  { s with tk := { s.tk with pend := s.tk.pend ++
    [{ req := r, due := s.tick + 1, status := status, result := BitVec.ofNat 8 state :: natToLE 4 h ++ natToLE 4 s.stride ++ natToLE 2 (op + 256 * was) }] } }

/-- Admit a tack command (R192). False: no Cinch slot is free for a durable command, which waits (log 22). -/
def tackSubmit (r : Req) (b : List Byte) (s : State) : Bool × State :=
  let op := byteAt b 0
  let h := field b 4 4
  let blkUsed := op == 1 || op == 4
  let (blk, s1) := if blkUsed && !tackBodyBad b then reqRead r (field b 8 8) 64 s else (if blkUsed then none else some [], s)
  let st := tackStatus s1 r.paddock r.owns b blk
  let hOut := if op = 1 then 0xFFFFFFFF else h
  if st ≠ stOK then (true, pendTack op 0 r st 0 hOut s1)
  else
    let t := (getTack s1 r.paddock h).getD (tackOfBlock [] 0 0 0)
    match op with
    | 1 =>
      let (n, s2) := reserveTack r.paddock (blk.getD []) (natBit (byteAt b 1) 0) s1
      (true, pendTack op 0 r stOK (((tackRec s2 n).map (fun x => x.st)).getD 0) n s2)
    | 5 => (true, pendTack op (b2n t.pinned) r stOK 3 h (updTack h (fun x => { x with pinned := natBit (byteAt b 1) 0 }) s1))
    | 6 =>
      let (ok, s2) := reqWrite r (field b 8 8) (describeBytes t) s1
      (true, pendTack op 0 r (if ok then stOK else stMediaError) t.st h s2)
    | 3 =>
      if t.st ≠ 3 ∨ t.volatile then (true, pendTack op 0 r stOK 4 h (retireTack h s1))
      else
        match freeSlot s1 with
        | none => (false, s)
        | some i => (true, tackCinch r op h [] i s1)
    | _ =>
      match freeSlot s1 with
      | none => (false, s)
      | some i => (true, tackCinch r op h (blk.getD []) i s1)

/-- TACK_COMMAND_COMPLETE: the result in the stride after admission, or once the command's Cinch has ended (R192). -/
def execTackCommandComplete (src : Src) (s : State) : Host.Outcome State Fault Refusal :=
  match s.tk.pend.find? (fun q => decide (q.req.src = src)) with
  | some q =>
    if s.tick < q.due ∨ !hostTurn s src then .next s
    else
      .next (finishTack q.req (tackResult q.status (byteAt q.result 0) (field q.result 1 4) (field q.result 5 4) s.stride)
        { s with tk := { s.tk with pend := s.tk.pend.filter (fun x => decide (x.req.src ≠ src)) } })
  | none =>
    match s.cn.slots.find? (fun p => p.2.st == 7 && p.2.cmd.any (fun r => decide (r.src = src))) with
    | none => .next s
    | some (i, x) =>
      if !hostTurn s src then .next s else
      let h := (x.actions.map (fun a => a.tack)).headD 0
      let state := if x.cmdOp = 3 then 4 else 3
      .next (updCinch i (fun y => { Cinch.free with seq := y.seq, freeAt := s.tick + 1 })
        (finishTack { src := src, paddock := x.paddock, warden := false, gen := x.gen }
          (tackResult x.status state h x.cmdAdmit s.stride) s))

/-- An INSTALL staged or in progress cites the tack (R191). -/
def installCites (s : State) (h : Nat) : Bool :=
  s.cn.slots.any (fun e => e.2.holds && e.2.actions.any (fun a => a.typ == 2 && a.sub == 1 && a.tack == h)) ||
    s.cn.reqs.any (fun q => q.rows == stOK && q.act.any (fun a => a.typ == 2 && a.sub == 1 && a.tack == h))

/-- Release a RESERVED or FILLED tack whose time has passed, but for a FILLED one that an INSTALL cites (R191). -/
def releaseLate (h : Nat) (s : State) : State :=
  match tackRec s h with
  | none => s
  | some t =>
    if (t.st = 1 ∨ (t.st = 2 ∧ !installCites s h)) ∧ t.rsvAt + rsvEff s ≤ s.tick then
      setEvent 6 4 { s with tk := { s.tk with tacks := s.tk.tacks.filter (fun e => e.1 != h) } }
    else s

/-- RESERVATION_EXPIRY: a tack not made LIVE in time is released (R191). -/
def execReservationExpiry (h : Nat) (s : State) : Host.Outcome State Fault Refusal := .next (releaseLate h s)

end Sys2Proof.Machine
end

