-- ==== Sys2Proof/Machine/Cinch.lean ====
section
/-! DEFINITION. The Cinch engine (R134–R173): requests and their status rows, staging, aborts, the decision point, the
journal, APPLY, and boot replay. External participants are in CinchExt. -/

namespace Sys2Proof.Machine

/-! ### Small helpers -/

/-- Address bytes read for a request: the data, or none with whether a Bridle unit refused them (R150 row 6, R507). -/
def cinchRead (r : Req) (a n : Nat) (s : State) : Option (List Byte) × Bool × State :=
  match r.src with
  | .win c _ =>
    let b := busRead s (r.access c) a n
    let s1 := noteRead (r.access c) a b s
    if b.refused.isSome then (none, true, s1) else if b.ecc then (none, false, s1) else (some b.data, false, s1)
  | _ => (none, true, s)

/-- CN_TIMEOUT as it acts (R173). -/
def cinchTimeout (s : State) : Nat := max 16 s.cn.timeout.toNat

/-- A key rein that a staging may cite (R150 row 2): tagged, unsealed, KIND key, of the paddock's current generation. -/
def keyReinOk (s : State) (p : Nat) (k : Rein) : Bool :=
  k.tag && !k.isSealed && !k.isWarden && k.kind == 2 && k.pad == p && genCurrent s p k.gen

/-- Tack handle in a key rein's base (R185). -/
def reinHandle (k : Rein) : Nat := k.base % 2 ^ 32

/-- Free a slot from the next stride. -/
def freeCinch (i : Nat) (s : State) : State :=
  updCinch i (fun x => { Cinch.free with seq := x.seq, freeAt := s.tick + 1 }) s

/-! ### Reservation and record views (R136, R149) -/

/-- A paddock counter. -/
def getCounter (s : State) (p i : Nat) : Counter := Tab.get { value := 0, limit := 0, dseq := 0 } s.cn.counters (p * 128 + i)

/-- Value and limit of a counter after a Cinch's own earlier actions. -/
def counterAfter (s : State) (x : Cinch) (i : Nat) : Nat × Nat :=
  x.actions.foldl (fun v a =>
    if a.typ = 3 ∧ a.obj = i ∧ a.sub = 1 then (v.1 + a.arg, v.2)
    else if a.typ = 3 ∧ a.obj = i ∧ a.sub = 3 then (a.arg, field a.inl 0 8) else v)
    ((getCounter s x.paddock i).value, (getCounter s x.paddock i).limit)

/-- Increments other Cinches have reserved on a counter. -/
def othersReserved (s : State) (me : Nat) (p i : Nat) : Nat :=
  Tab.total s.cn.slots (fun j x => if j ≠ me ∧ x.reserves ∧ x.paddock = p then
    (x.actions.filter (fun a => a.typ = 3 && a.sub = 1 && a.obj = i)).foldl (fun n a => n + a.arg) 0 else 0)

/-- A token-vault record's committed value: none when absent or a tombstone. -/
def vaultValue (s : State) (p table : Nat) (key : List Byte) : Option (List Byte) :=
  ((s.cn.vault.find? (fun r => r.paddock == p && r.table == table && r.key == key)).map (fun r => r.value)).join

/-- Whether a record is present after a Cinch's own earlier actions. -/
def recordPresent (s : State) (x : Cinch) (table : Nat) (key : List Byte) : Bool :=
  x.actions.foldl (fun v a =>
    if a.typ = 4 ∧ a.obj = table ∧ a.inl.take 32 = key then a.sub != 3 else v) (vaultValue s x.paddock table key).isSome

/-- Committed records and staged INSERTs of a paddock (R137). -/
def recordCount (s : State) (p : Nat) : Nat :=
  (s.cn.vault.filter (fun r => r.paddock == p && r.value.isSome)).length +
    Tab.total s.cn.slots (fun _ x => if x.reserves ∧ x.paddock = p then
      (x.actions.filter (fun a => a.typ = 4 && a.sub = 1)).length else 0)

/-- A tack's state after a Cinch's own earlier actions. -/
def tackAfter (x : Cinch) (t : Tack) : Nat :=
  x.actions.foldl (fun v a => if a.typ = 2 ∧ a.tack = t.handle then (if a.sub = 1 then 3 else 4) else v) t.st

/-- The state that a Cinch's earlier STALL actions leave. -/
def stallsAfter (s : State) (x : Cinch) : State :=
  (x.actions.filter (fun a => a.typ = 1)).foldl (fun st a => stallNow a.stall a.sub (a.arg % 256) x.paddock a.data st) s

/-! ### Staging (R142, R150) -/

/-- LEN, ARG, INL or OBJ of a STAGE body outside R142 (row 1). -/
def stageBodyBad (b : List Byte) : Bool :=
  let typ := byteAt b 0
  let sub := byteAt b 1
  let obj := field b 4 4
  let arg := field b 8 8
  let addr := field b 0x10 8
  let len := field b 0x18 4
  let inl := b.drop 0x1C
  let noData := addr == 0 && len == 0
  !zeroSpan b 2 2 ||
  !(match typ with
    | 1 => 1 ≤ sub && sub ≤ 5 && (sub != 1 || obj == 0) && (if sub = 1 then arg < 256 else arg == 0) &&
           (if sub = 2 then len == 256 else noData) && zeroSpan inl 0 36
    | 2 => (sub == 1 || sub == 2) && obj == 0 && arg == 0 && noData && zeroSpan inl 0 36
    | 3 => (match sub with
        | 1 => obj < 128 && 1 ≤ arg && arg < 2 ^ 32 && zeroSpan inl 0 36
        | 2 => obj == 0 && 1 ≤ arg && arg < 2 ^ 32 && zeroSpan inl 0 36
        | 3 => obj < 128 && zeroSpan inl 8 28
        | _ => false) && noData
    | 4 => 1 ≤ sub && sub ≤ 3 && obj < 256 && arg == 0 && (if sub = 3 then noData else len ≤ 440) && zeroSpan inl 32 4
    | 5 => sub == 0 && 0x8000 ≤ obj && obj ≤ 0xFFFF && arg == 0 && noData && zeroSpan inl 32 4
    | 7 => sub == 1 && obj < 2 && arg < 65536 && len == 256 && zeroSpan inl 0 36
    | 8 => sub == 1 && obj < 5 && 5 ≤ arg && arg ≤ 261 && arg + 4 ≤ len && len ≤ arg + 16 &&
           1 ≤ byteAt inl 16 && byteAt inl 16 ≤ 16 && byteAt inl 17 < 2 && byteAt inl 18 ≤ 247 &&
           1 ≤ byteAt inl 19 && byteAt inl 19 ≤ 8 && (inl.drop 20).take 8 != (inl.drop 28).take 8
    | _ => false)

/-- A key rein is needed by the action (R142). -/
def stageNeedsKey (typ sub : Nat) : Bool := typ == 2 || (typ == 3 && sub == 2) || typ == 7

/-- Pages of an action's data block (R139). -/
def stagePages (typ len : Nat) : Nat := if (typ == 4 && len != 0) || typ == 7 || typ == 8 then 1 else 0

/-- The action a STAGE body spells. -/
def stageAction (b : List Byte) (key : Rein) : Action :=
  { typ := byteAt b 0, sub := byteAt b 1, obj := field b 4 4, arg := field b 8 8, inl := b.drop 0x1C, data := [],
    key := key, tack := if stageNeedsKey (byteAt b 0) (byteAt b 1) then reinHandle key else 0,
    stall := field b 4 4, pages := stagePages (byteAt b 0) (field b 0x18 4), cidHash := 0, wstaged := 0, held := none }

/-- The stall command that a STALL action carries, as a body of R93. -/
def stallBody (a : Action) : List Byte :=
  [BitVec.ofNat 8 a.sub, BitVec.ofNat 8 (if a.sub = 1 then a.arg else 0), 0, 0] ++ natToLE 4 (if a.sub = 1 then 0 else a.obj) ++ zeros 8

/-- The stall status of a STALL action: an ALLOC against the state itself, the others after the Cinch's own actions. -/
def stageStallStatus (s : State) (i : Nat) (x : Cinch) (a : Action) (img : Option (List Byte)) : Nat :=
  stallStatus (if a.sub = 1 then s else stallsAfter s x) x.paddock (some i) (fun _ => false) (stallBody a) img

/-- A key rein that cites a tack the action accepts (row 2). -/
def stageKeyDenied (s : State) (x : Cinch) (a : Action) : Bool :=
  if !stageNeedsKey a.typ a.sub then a.key.tag
  else
    !s.keepPresent || !keyReinOk s x.paddock a.key ||
    (match getTack s x.paddock a.tack with
     | none => true
     | some t =>
       let st := tackAfter x t
       if a.typ = 2 then !(if a.sub = 1 then st == 2 else 1 ≤ st && st ≤ 3)
       else if a.typ = 3 then st != 3
       else st != 3 || t.algo != 8 || !natBit t.usage 2 || !natBit a.key.perm 2)

/-- Rows 1 to 5 of R150 for an action on slot `i`; `rec` is the record store's answer, whether the key's probe range is full (R137,
R332), where it has come. -/
def stageStatus (s : State) (i : Nat) (x : Cinch) (a : Action) (bad : Bool) (img : Option (List Byte)) (rec : Option Bool) : Nat :=
  let ext := a.typ == 7 || a.typ == 8
  let here := recordPresent s x a.obj (a.inl.take 32)
  let locks := if a.typ = 1 ∧ a.sub = 1 then [] else
    (a.objects x.paddock).map (fun o => lockStatus s (some i) (fun _ => false) o.1 o.2)
  let stall := if a.typ = 1 then stageStallStatus s i x a img else stOK
  firstStatus [
    (bad || x.actions.length ≥ 16 || (ext && x.actions.any (fun y => y.typ == 7 || y.typ == 8)) ||
      (!x.durable && !(a.typ == 1 || a.typ == 6)), stMalformed),
    (stall == stMalformed && a.sub != 3, stMalformed),
    (stageKeyDenied s x a, stDenied),
    (stall == stDenied, stDenied),
    (a.typ == 4 && rec.isSome && (if a.sub = 1 then here else !here), stDenied),
    (actionsUsed s x.paddock + 1 > Tab.get 0 s.cn.quotaAct x.paddock ||
      (a.pages != 0 && holdUsed s x.paddock + a.pages > Tab.get 0 s.cn.quotaHold x.paddock), stQuota),
    (a.typ == 3 && a.sub == 1 &&
      (counterAfter s x a.obj).1 + othersReserved s i x.paddock a.obj + a.arg > (counterAfter s x a.obj).2, stQuota),
    (a.typ == 3 && a.sub == 2 && (getTack s x.paddock a.tack).any (fun t =>
      t.limit != noEnd && t.count + t.pendingUses + tackReserved s a.tack + a.arg > t.limit), stQuota),
    (a.typ == 2 && a.sub == 1 && vaultFull s x.paddock, stQuota),
    (stall == stQuota, stQuota),
    (a.typ == 4 && a.sub == 1 && rec.any (fun full => full || recordCount s x.paddock ≥ 2 ^ 20), stQuota),
    (stall == stMalformed, stMalformed),
    (locks.contains stCinchConflict, stCinchConflict),
    (locks.contains stCinchIndoubt, stCinchIndoubt)]

/-- The status of a STAGE VAULT once the record store has answered, rows 3 to 5 having said `rows` at its GO. -/
def recordStatus (s : State) (i : Nat) (x : Cinch) (a : Action) (rows : Nat) (full : Bool) : Nat :=
  let now := stageStatus s i x a false none (some full)
  if now = stMalformed ∨ now = stDenied then now
  else if rows = stQuota ∨ now = stQuota then stQuota
  else if rows ≠ stOK then rows else now

/-- Stage an action: an ALLOC draws its stall, an ARM holds its use; answers VALUE (R97, R198). -/
def stageIt (i : Nat) (a : Action) (s : State) : Nat × State :=
  if a.typ = 1 ∧ a.sub = 1 then
    (let (n, s1) := drawStall s
     (n, updCinch i (fun x => { x with actions := x.actions ++ [{ a with stall := n }] }) s1))
  else if a.typ = 1 ∧ a.sub = 3 then
    (let h := stallTack (stallsAfter s (getCinch s i)) a.stall
     (0, updCinch i (fun x => { x with actions := x.actions ++ [{ a with tack := h }] }) (pendUse h s)))
  else (0, updCinch i (fun x => { x with actions := x.actions ++ [a] }) s)

/-! ### Requests (R140, R141, R143) -/

/-- The first twelve bytes of a result (R143). -/
def cinchHead (status st cause action handle value : Nat) : List Byte :=
  [BitVec.ofNat 8 status, BitVec.ofNat 8 st, BitVec.ofNat 8 cause, BitVec.ofNat 8 action] ++ natToLE 4 handle ++ natToLE 4 value

/-- The result a slot's present state gives: its ending when ENDED. -/
def slotHead (x : Cinch) (i : Nat) : List Byte :=
  if x.st = 7 then cinchHead x.status 7 x.cause x.failing (cinchHandle x i) 0
  else cinchHead stOK x.st 0 255 (cinchHandle x i) 0

/-- A request as it is submitted. -/
def cnReq (r : Req) (c opc i h due : Nat) (res : Option (List Byte)) : CnReq :=
  { req := r, core := c, opc := opc, slot := i, handle := h, due := due, waitsStore := false, waitsCard := false,
    result := res, act := none, dest := 0, vkey := [], table := 0, readFault := false, rows := stOK, live := false }

/-- Enter a request. -/
def addReq (q : CnReq) (s : State) : State := { s with cn := { s.cn with reqs := s.cn.reqs ++ [q] } }

/-- A handle that names the requester's own Cinch (R141); `owner` asks for the owning core too. -/
def handleOk (s : State) (r : Req) (c h : Nat) (owner : Bool) : Bool :=
  let x := getCinch s (h % 4096)
  x.st != 0 && x.cmd.isNone && cinchHandle x (h % 4096) == h && x.paddock == r.paddock && (!owner || x.owner == c)

/-- OPEN (R134, R141). -/
def cinchOpen (r : Req) (c : Nat) (b : List Byte) (h : Nat) (s : State) : State :=
  let st := firstStatus [
    (1 < byteAt b 0 || !zeroSpan b 1 63 || h != 0, stMalformed),
    ((s.paddock r.paddock).st != 1, stDenied),
    (openUsed s r.paddock + 1 > Tab.get 0 s.cn.quotaOpen r.paddock || (freeSlot s).isNone, stQuota),
    (s.pm.nandFail && byteAt b 0 == 1, stMediaError)]
  match freeSlot s with
  | some i =>
    if st = stOK then
      let old := getCinch s i
      let x := { Cinch.free with st := 1, seq := nextSeq old.seq, durable := byteAt b 0 == 1, owner := c, paddock := r.paddock,
                                 gen := (s.paddock r.paddock).gen, openedAt := s.tick }
      addReq (cnReq r c 1 i (cinchHandle x i) (s.tick + 1) (some (cinchHead stOK 1 0 255 (cinchHandle x i) 0))) (setCinch i x s)
    else addReq (cnReq r c 1 0 0 (s.tick + 1) (some (cinchHead st 0 0 255 0 0))) s
  | none => addReq (cnReq r c 1 0 0 (s.tick + 1) (some (cinchHead st 0 0 255 0 0))) s

/-- A refused request on a handle: the Cinch stays as it is. -/
def refuseReq (r : Req) (c opc h st : Nat) (s : State) : State :=
  addReq { cnReq r c opc (h % 4096) h (s.tick + 1) (some (cinchHead st 0 0 255 h 0)) with live := handleOk s r c h false } s

/-- The end of a STAGE that needs no answer from outside: its data read and the action taken (rows 6 and 7), unless a held job has
staged a sixteenth action meanwhile. -/
def stageFinish (r : Req) (c i h : Nat) (a : Action) (fault : Bool) (s : State) : State :=
  let x := getCinch s i
  if fault then
    addReq { cnReq r c 2 i h (s.tick + 1) (some (cinchHead stDenied 1 0 255 h 0)) with live := true } (markAbort i 3 stDenied 255 s)
  else if 16 ≤ x.actions.length then refuseReq r c 2 h stMalformed s
  else
    let (v, s1) := stageIt i a s
    addReq { cnReq r c 2 i h (s.tick + 1) (some (cinchHead stOK 1 0 x.actions.length h v)) with live := true } s1

/-- The action that a STAGE request has been granted, or waits with. -/
def grantedAction (s : State) (q : CnReq) : Option Action :=
  if q.act.isSome then q.act
  else match q.result with
    | some head => if byteAt head 0 = 0 then (getCinch s q.slot).actions[byteAt head 3]? else none
    | none => none

/-- STAGE requests granted in this stride to cores of greater numbers that hold what an action of paddock `p` asks for (R148). -/
def laterGrants (s : State) (c i p : Nat) (a : Action) : List CnReq :=
  s.cn.reqs.filter (fun q => q.opc == 2 && q.due == s.tick + 1 && decide (c < q.core) && q.slot != i && q.rows == stOK &&
    (grantedAction s q).any (fun b => (b.objects (getCinch s q.slot).paddock).any (fun o =>
      (a.objects p).any (fun x => x.1 == o.1 && (x.2 || o.2)))))

/-- Change the request of a core. -/
def mapReq (c : Nat) (f : CnReq → CnReq) (s : State) : State :=
  { s with cn := { s.cn with reqs := s.cn.reqs.map (fun q => if q.core = c then f q else q) } }

/-- A grant of this stride falls to a STAGE of a core with a lower number: its action is taken back, and it is refused. -/
def ungrant (s : State) (q : CnReq) : State :=
  let refused (y : CnReq) : CnReq := { y with
    waitsCard := false, act := none, result := some (cinchHead stCinchConflict 0 0 255 q.handle 0), live := true }
  if q.waitsStore then mapReq q.core (fun y => { y with rows := stCinchConflict }) s
  else if q.waitsCard then mapReq q.core refused s
  else
    let k := byteAt (q.result.getD []) 3
    let s1 := if (grantedAction s q).any (fun a => a.typ == 1 && a.sub == 3) then
        dropUse (((grantedAction s q).map (fun a => a.tack)).getD 0) s else s
    mapReq q.core refused (updCinch q.slot (fun x => { x with
      actions := if k + 1 = x.actions.length then x.actions.dropLast else x.actions.set k (stageAction [] Rein.zero) }) s1)

/-- STAGE (R142, R148, R150); one that needs a record store that could not be mounted ends MEDIA_ERROR (R489). False: an ARM waits for its tack's durable bound (R198). -/
def cinchStage (r : Req) (c : Nat) (b : List Byte) (h : Nat) (key : Rein) (s0 : State) : Bool × State :=
  let i := h % 4096
  let a := stageAction b key
  let bad := stageBodyBad b
  let mine := handleOk s0 r c h true && (getCinch s0 i).st == 1
  let rows (st : State) : Nat := if mine then stageStatus st i (getCinch st i) a bad (some (zeros 256)) none
    else (if bad then stMalformed else stDenied)
  let s1 := if rows s0 = stCinchConflict then (laterGrants s0 c i r.paddock a).foldl ungrant s0 else s0
  let s := if rows s1 = stOK then s1 else s0
  let row := rows s
  let x := getCinch s i
  if (s.paddock r.paddock).st ≠ 1 then (true, refuseReq r c 2 h (if bad then stMalformed else stDenied) s)
  else if row ≠ stOK ∧ (a.typ ≠ 4 ∨ row = stMalformed ∨ row = stDenied) then (true, refuseReq r c 2 h row s)
  else if a.typ = 4 ∧ s.pm.nandFail then (true, refuseReq r c 2 h stMediaError s)
  else if row ≠ stOK then
    (true, addReq { cnReq r c 2 i h (s.tick + 1) none with waitsStore := true, act := some a, rows := row } s)
  else if a.typ = 1 ∧ a.sub = 3 ∧ armWaits (stallsAfter s x) x.paddock a.obj then
    (false, leaseWait (stallTack (stallsAfter s x) a.obj) s)
  else
    let len := field b 0x18 4
    let (data, refused, s2) := if len = 0 then (some [], false, s) else cinchRead r (field b 0x10 8) len s
    let a1 := { a with data := data.getD [] }
    if a.typ = 4 then
      (true, addReq { cnReq r c 2 i h (s.tick + 1) none with waitsStore := true, act := some a1, readFault := refused } s2)
    else if data.isNone && !refused then (true, refuseReq r c 2 h stMediaError s2)
    else if a.typ = 7 then
      (if refused then (true, stageFinish r c i h a1 true s2)
       else (true, addReq { cnReq r c 2 i h (s.tick + 1) none with waitsCard := true, act := some a1 } s2))
    else if a.typ = 1 ∧ a.sub = 2 ∧ !refused ∧ !imageClean a1.data then (true, refuseReq r c 2 h stMalformed s2)
    else (true, stageFinish r c i h a1 refused s2)

/-- COMMIT: the Cinch waits for its decision point; bounds of TACK_ADD tacks are asked for (R145, R146, R198). -/
def cinchCommit (r : Req) (c : Nat) (b : List Byte) (h : Nat) (s : State) : State :=
  let i := h % 4096
  let x := getCinch s i
  let st := firstStatus [(!zeroSpan b 0 64, stMalformed), (!handleOk s r c h true || x.st != 1, stDenied)]
  if st ≠ stOK then refuseReq r c 3 h st s
  else
    let s1 := updCinch i (fun y => { y with st := 2, commitAt := s.tick, commitPending := true,
                                            envelopeDurable := !(y.actions.any (fun a => a.typ == 2 && a.sub == 1)) }) s
    let s2 := (x.actions.filter (fun a => a.typ = 3 && a.sub = 2)).foldl (fun st a =>
      updTack a.tack (fun t => if t.volatile ∨ t.count + tackReserved s a.tack ≤ t.bound then t
        else { t with boundNext := some (min (t.count + tackReserved s a.tack + leaseEff s) t.limit) }) st) s1
    let s3 := (x.actions.filter (fun a => a.typ = 2 && a.sub = 1)).foldl (fun st a => writeEnvelope a.tack id st) s2
    addReq (cnReq r c 3 i h (s.tick + 1) none) s3

/-- ABORT, accepted in OPEN only (R141, R151). -/
def cinchAbort (r : Req) (c : Nat) (b : List Byte) (h : Nat) (s : State) : State :=
  let i := h % 4096
  let st := firstStatus [(!zeroSpan b 0 64, stMalformed), (!handleOk s r c h true || (getCinch s i).st != 1, stDenied)]
  if st ≠ stOK then refuseReq r c 4 h st s
  else addReq (cnReq r c 4 i h (s.tick + 1) none) (markAbort i 1 stAborted 255 s)

/-- QUERY (R141): answered with the state of the stride after. -/
def cinchQuery (r : Req) (c : Nat) (b : List Byte) (h : Nat) (s : State) : State :=
  let st := firstStatus [(!zeroSpan b 0 64, stMalformed), (!handleOk s r c h false, stDenied)]
  if st ≠ stOK then refuseReq r c 5 h st s else addReq (cnReq r c 5 (h % 4096) h (s.tick + 1) none) s

/-- LOOKUP (R141): the record store is asked. -/
def cinchLookup (r : Req) (c : Nat) (b : List Byte) (h : Nat) (s : State) : State :=
  let st := firstStatus [
    (!zeroSpan b 0 4 || 255 < field b 4 4 || !zeroSpan b 8 8 || !zeroSpan b 0x18 4 || !zeroSpan b 0x3C 4 || h != 0, stMalformed),
    ((s.paddock r.paddock).st != 1, stDenied), (s.pm.nandFail, stMediaError)]
  if st ≠ stOK then addReq (cnReq r c 6 0 0 (s.tick + 1) (some (cinchHead st 0 0 255 0 0))) s
  else addReq { cnReq r c 6 4096 0 (s.tick + 1) none with
    waitsStore := true, dest := field b 0x10 8, vkey := (b.drop 0x1C).take 32, table := field b 4 4 } s

/-- RECORD_STORE_ANSWER: the record store answers core `c`'s STAGE VAULT or LOOKUP; `full` says that the probe range
of the key has no room (R137, R141, R332). -/
def execRecordStoreAnswer (c : Nat) (full : Bool) (s : State) : Host.Outcome State Fault Refusal :=
  match s.cn.reqs.find? (fun q => q.core == c && q.waitsStore) with
  | none => .next s
  | some q =>
    let clear (st : State) : State := { st with cn := { st.cn with reqs := st.cn.reqs.filter (fun x => x.core != c) } }
    if q.opc = 6 then
      match vaultValue s q.req.paddock q.table q.vkey with
      | none => .next (addReq (cnReq q.req c 6 0 0 (s.tick + 1) (some (cinchHead stOK 0 0 255 0 0xFFFFFFFF))) (clear s))
      | some v =>
        let (ok, s1) := if v.isEmpty then (true, s) else reqWrite q.req q.dest v s
        .next (addReq (cnReq q.req c 6 0 0 (s.tick + 1)
          (some (cinchHead (if ok then stOK else stMediaError) 0 0 255 0 (if ok then v.length else 0)))) (clear s1))
    else
      match q.act with
      | none => .next s
      | some a =>
        let s1 := clear s
        let x := getCinch s1 q.slot
        let st := if x.st ≠ 1 then stDenied else recordStatus s1 q.slot x a q.rows full
        if st ≠ stOK then .next (refuseReq q.req c 2 q.handle st s1)
        else if a.data.isEmpty && a.pages != 0 && !q.readFault then .next (refuseReq q.req c 2 q.handle stMediaError s1)
        else .next (stageFinish q.req c q.slot q.handle a q.readFault s1)

/-- A result whose STATE and CAUSE are those of the Cinch as it stands (R143). -/
def liveHead (x : Cinch) (i h : Nat) (head : List Byte) : List Byte :=
  if x.st ≠ 0 ∧ cinchHandle x i = h then
    head.take 1 ++ [BitVec.ofNat 8 x.st, BitVec.ofNat 8 (if x.st = 7 then x.cause else 0)] ++ head.drop 3
  else head.take 1 ++ [0, 0] ++ head.drop 3

/-- CINCH_REQUEST_COMPLETE: the result of core `c`'s request is written into its window (R143), and a result that carries an
ending collects the Cinch (R145). -/
def execCinchRequestComplete (c : Nat) (s : State) : Host.Outcome State Fault Refusal :=
  match s.cn.reqs.find? (fun q => q.core == c) with
  | none => .next s
  | some q =>
    let x := getCinch s q.slot
    if s.tick < q.due ∨ q.waitsStore ∨ q.waitsCard ∨ (q.result.isNone ∧ (q.opc = 3 ∨ q.opc = 7)) then .next s
    else
      let head := match q.result with
        | none => slotHead x q.slot
        | some hd => if q.live then liveHead x q.slot q.handle hd else hd
      let collects := byteAt head 1 == 7 && x.st == 7 && cinchHandle x q.slot == q.handle && !q.live
      let s1 := { s with cn := { s.cn with
        reqs := s.cn.reqs.filter (fun y => y.core != c),
        wins := Tab.upd Win.reset s.cn.wins c (fun w => w.finish (head ++ natToLE 4 s.stride)) } }
      let s2 := if collects then freeCinch q.slot s1 else s1
      .next (if (Tab.get Win.reset s.cn.wins c).ie then setPendFor c 3 q.req.paddock s2 else s2)

/-! ### Aborts (R151, R156, R157) -/

/-- A write of a quorum act has ended: the next may begin, or the act is over without effect (R200, R202). -/
def custodyEnded (status : Nat) (s : State) : State :=
  match s.tk.job with
  | none => s
  | some j => { s with tk := { s.tk with
      job := if status = stOK then some { j with slot := none } else none,
      actEnd := if status = stOK then s.tk.actEnd else (j.act, status) } }

/-- A Cinch ends: ENDED with its cause and status, its pages wiped; the pending COMMIT takes the result, and a Cinch
without a reader reports to CN_NOTEQ and is freed (R151, R156, R192); tack custody itself reads the end of its own (R199). -/
def endCinch (i cause status failing : Nat) (s : State) : State :=
  let x := getCinch s i
  let y := { x with st := 7, cause := cause, status := status, failing := failing,
                    actions := x.actions.map (fun a => { a with data := [], pages := 0, held := none }) }
  let s0 := settleFills (cinchHandle x i) (status == stOK) (setCinch i y s)
  let s1 := if x.custody then custodyEnded status s0 else s0
  let noReader := x.fenced || (match x.cmd with | some { src := .auto _, .. } => true | _ => false)
  if x.custody && !x.fenced then freeCinch i s1
  else if noReader then freeCinch i (pushNoteq (cinchHandle x i) x.paddock status cause s1)
  else if x.commitPending then
    { s1 with cn := { s1.cn with reqs := s1.cn.reqs.map (fun q =>
      if q.opc = 3 ∧ q.slot = i ∧ q.handle = cinchHandle x i then { q with result := some (slotHead y i), due := s.tick } else q) } }
  else s1

/-- The effects of an abort: pending ARM uses are given back, unlinked envelopes reclaimed, then the Cinch ends (R151). -/
def abortCinch (i cause status failing : Nat) (s : State) : State :=
  let x := getCinch s i
  let s1 := (x.actions.filter (fun a => a.typ = 1 && a.sub = 3)).foldl (fun st a => dropUse a.tack st) s
  let s2 := (x.actions.filter (fun a => a.typ = 2 && a.sub = 1)).foldl (fun st a => updTack a.tack (fun t => { t with unlinked := none }) st) s1
  (x.actions.filter (fun a => a.typ = 2 && a.sub = 1)).foldl (fun st a => releaseLate a.tack st) (endCinch i cause status failing s2)

/-- Aborts that take effect at this boundary (R151), those of an external write not applied among them (R158). -/
def cinchBoundary (s : State) : State :=
  s.cn.slots.foldl (fun st p =>
    let x := getCinch st p.1
    if (x.undecided || x.st == 4) && x.abortCause != 0 && x.abortAt ≤ st.tick then abortCinch p.1 x.abortCause x.abortStatus x.failing st
    else st) s

/-- CINCH_TIMEOUT: an OPEN or COMMITTING Cinch aborts, an ENDED one is freed with a CN_NOTEQ entry (R145, R157). -/
def execCinchTimeout (i : Nat) (s : State) : Host.Outcome State Fault Refusal :=
  let x := getCinch s i
  if x.openedAt + cinchTimeout s ≤ s.tick ∧ x.cmd.isNone then
    if x.undecided && x.abortCause == 0 then .next (setEvent 5 3 (markAbort i 5 stAborted 255 s))
    else if x.st = 7 then .next (freeCinch i (pushNoteq (cinchHandle x i) x.paddock x.status x.cause s))
    else .next s
  else .next s

/-- The owning core is fenced: undecided Cinches abort with cause FENCE, and every result goes to CN_NOTEQ (R156). A
durable tack command of the core loses its reader. -/
def cinchCoreFence (c : Nat) (s : State) : State :=
  let s1 := { s with cn := { s.cn with
    reqs := s.cn.reqs.filter (fun q => q.core != c),
    wins := Tab.set Win.reset s.cn.wins c Win.reset } }
  s1.cn.slots.foldl (fun st p =>
    let own := p.2.owner == c && p.2.cmd.isNone && p.2.st != 0
    let cmdOwn := (match p.2.cmd with | some { src := .win k _, .. } => k == c | _ => false)
    if own && p.2.st == 7 then freeCinch p.1 (pushNoteq (cinchHandle p.2 p.1) p.2.paddock p.2.status p.2.cause st)
    else if own then
      (let st1 := updCinch p.1 (fun x => { x with fenced := true }) st
       if p.2.undecided then markAbort p.1 6 stUnitFenced 255 st1 else st1)
    else if cmdOwn then
      (if p.2.st = 7 then freeCinch p.1 (pushNoteq (cinchHandle p.2 p.1) p.2.paddock p.2.status p.2.cause st)
       else updCinch p.1 (fun x => { x with cmd := x.cmd.map (fun r => { r with src := .auto p.1 }) }) st)
    else st) s1

/-! ### Held output (R144, R152) -/

/-- A HOLD job stages its OUTPUT action at GO: none when staging refuses, else the slot and action (R144). -/
def stageOutput (r : Req) (c h job span dst : Nat) (hostDst : Bool) (s : State) : Option (Nat × Nat) × State :=
  let i := h % 4096
  let x := getCinch s i
  let a : Action := {
    typ := 6, sub := 0, obj := 0, arg := 0, inl := [], data := [], key := Rein.zero, tack := 0, stall := 0,
    pages := ceilDiv span 4096, cidHash := 0, wstaged := 0,
    held := some { job := job, ended := false, status := 0, dst := dst, host := hostDst, span := span, data := [], core := c,
                   warden := r.warden, dropped := false } }
  if handleOk s r c h true && x.st == 1 && stageStatus s i x a false none none == stOK then
    (some (i, x.actions.length), updCinch i (fun y => { y with actions := y.actions ++ [a] }) s)
  else (none, s)

/-- A held job ends: its bytes stay held, or its Cinch aborts with the job's status (R79, R151). -/
def endHeld (slot act job status : Nat) (data : List Byte) (s : State) : State :=
  let x := getCinch s slot
  if (x.actions.getD act (stageAction [] Rein.zero)).held.any (fun h => h.job == job) then
    let s1 := updCinch slot (fun x => { x with actions := x.actions.zipIdx.map (fun p => if p.2 = act then
      { p.1 with held := p.1.held.map (fun h => { h with ended := true, status := status, data := data }) } else p.1) }) s
    if status = stOK then s1 else markAbort slot 2 status act s1
  else s

/-! ### Decision and journal (R146, R158, R166–R170) -/

/-- An OUTCOME record of slot `i` joins the next batch with room (R158, R165). -/
def journalOutcome (i result cause cred : Nat) (s : State) : State :=
  let x := getCinch s i
  joinBatch [outcomeRecord x (cinchHandle x i) result cause cred] (updCinch i (fun y => { y with outcome := result }) s)

/-- The DONE record of a Cinch that applies nothing. -/
def journalClosed (i : Nat) (s : State) : State :=
  joinBatch [doneRecord (getCinch s i).paddock (cinchHandle (getCinch s i) i) (getCinch s i).dseq] s

/-- Decide records a paddock has taken in this stride. -/
def decidedNow (s : State) (p : Nat) : Nat :=
  if s.cn.decidedStride = s.stride then ((s.cn.decided.filter (fun d => d.1 == p)).map (fun d => d.2)).sum else 0

/-- The paddock holds a free durable-commit slot in this stride (R41, R146). -/
def commitSlotFree (s : State) (p : Nat) : Bool := decidedNow s p < slotsIn s.time 3 p s.stride

/-- Take a durable-commit slot. -/
def takeCommitSlot (p : Nat) (s : State) : State :=
  { s with cn := { s.cn with
    decided := (p, 1) :: (if s.cn.decidedStride = s.stride then s.cn.decided else []), decidedStride := s.stride } }

/-- Batches older than the reclaim point are erased, and tombstones that it has passed are gone (R169, R170). -/
def reclaimJournal (s : State) : State :=
  let r := reclaimPoint s
  { s with cn := { s.cn with
    journal := s.cn.journal.filter (fun b => !b.durable || decide (r < b.first + b.recs.length)),
    vault := s.cn.vault.filter (fun v => v.value.isSome || decide (r ≤ v.dseq)) } }

/-- An OUTCOME record of a decision stands in the batch of a stride. -/
def outcomeIn (s : State) (batch dseq : Nat) : Bool :=
  s.cn.journal.any (fun b => b.stride == batch && b.recs.any (fun r => rKind r == 5 && rDseq r == dseq))

/-- JOURNAL_BATCH_DURABLE: the batch of an earlier stride is durable, and the checkpoint that it names (R158, R166, R169). -/
def execJournalBatchDurable (batch : Nat) (s : State) : Host.Outcome State Fault Refusal :=
  if s.stride ≤ batch then .next s
  else
    let s1 := { s with cn := { s.cn with
      journal := s.cn.journal.map (fun b => if b.stride = batch then { b with durable := true } else b),
      slots := Tab.mapVals Cinch.free (fun _ x =>
        if (x.st = 3 ∨ x.st = 4) ∧ x.decidedAt = batch ∧ !x.batchDurable then
          { x with batchDurable := true, applyDue := s.tick + 1 }
        else if x.st = 5 ∧ x.outcome ≠ 0 ∧ outcomeIn s batch x.dseq then { x with outcomeDurable := true } else x) s.cn.slots } }
    .next (reclaimJournal (match s.cn.ckptNext with
      | some k => if k.stride = batch then
          { s1 with cn := { s1.cn with ckpt := k.ckid, ckptCounters := k.counters, ckptNext := none } } else s1
      | none => s1))

/-- CHECKPOINT: every 2^20 strides the counter table is written, this stride's batch names it, and the records of INDOUBT Cinches
are carried forward (R169, R170). -/
def execCheckpoint (s : State) : Host.Outcome State Fault Refusal :=
  if s.tick % 2 ^ 20 = 0 ∧ s.cn.ckptNext.isNone then
    let doubts := (s.cn.slots.filter (fun e => e.2.st == 5)).map (fun e => e.2.dseq)
    let carried := doubts.flatMap (carriedRecords (durableRecs s.cn.journal))
    let k : Checkpoint := { stride := s.stride, ckid := (openBatch s).first, counters := s.cn.counters }
    .next (joinBatch carried (putRecords [] { s with cn := { s.cn with ckptNext := some k } }))
  else .next s

/-! ### Decision and APPLY (R146, R147, R153) -/

/-- The re-check of action `k` at the decision point fails (R146): what staging asked of it does not hold of the state that the
earlier actions leave. -/
def recheckFails (s : State) (i : Nat) (x : Cinch) (k : Nat) : Bool :=
  match x.actions[k]? with
  | none => false
  | some a =>
    let y := { x with actions := x.actions.take k }
    let here := recordPresent s y a.obj (a.inl.take 32)
    match a.typ with
    | 1 => if a.sub = 1 then decide (65536 ≤ a.stall) || (s.paddock x.paddock).st != 1
           else stageStallStatus (if a.sub = 3 then dropUse a.tack s else s) i y a (some a.data) != stOK
    | 2 => if x.cmd.isNone then stageKeyDenied s y a
           else (match getTack s x.paddock a.tack with
             | none => true
             | some t => if a.sub = 2 then !(1 ≤ t.st && t.st ≤ 3) else t.st != 2 && !(t.st == 3 && t.unlinked.isSome))
    | 3 => if a.sub = 1 then
             (counterAfter s y a.obj).1 + othersReserved s i x.paddock a.obj + a.arg > (counterAfter s y a.obj).2
           else a.sub == 2 && (stageKeyDenied s y a || (getTack s x.paddock a.tack).any (fun t =>
             t.limit != noEnd && t.count + t.pendingUses + tackReserved s a.tack > t.limit))
    | 4 => if a.sub = 1 then here else !here
    | 6 => a.held.any (fun h => h.ended && h.status != stOK)
    | 7 => x.cmd.isNone && stageKeyDenied s y a
    | _ => false

/-- The first action whose re-check fails. -/
def failingAction (s : State) (i : Nat) (x : Cinch) : Option Nat := (List.range x.actions.length).find? (recheckFails s i x)

/-- The conditions of the decision point but the commit slot (R146). -/
def decisionReady (s : State) (x : Cinch) : Bool :=
  x.st == 2 && x.commitAt < s.tick && x.abortCause == 0 && x.envelopeDurable &&
    x.actions.all (fun a => a.held.all (fun h => h.ended) &&
      (!(a.typ == 3 && a.sub == 2) || (tackRec s a.tack).all (fun t => t.volatile || t.count + tackReserved s a.tack ≤ t.bound)))

/-- Put a token-vault record with its decide sequence (R169). -/
def putRecord (p table : Nat) (key : List Byte) (v : Option (List Byte)) (dseq : Nat) (s : State) : State :=
  { s with cn := { s.cn with
    vault := s.cn.vault.filter (fun r => !(r.paddock == p && r.table == table && r.key == key)) ++
      [{ paddock := p, table := table, key := key, value := v, dseq := dseq }] } }

/-- Hand an entry to a paddock's feed (R462). -/
def feedEntry (p code idx handle dseq : Nat) (data : List Byte) (s : State) : State :=
  let old := Tab.get [] s.ledger.feeds p
  let e : FeedEntry := { code := code, index := idx, handle := handle, dseq := dseq, stride := s.stride, data := takePad 32 data }
  let s1 := { s with ledger := { s.ledger with
    feeds := Tab.set [] s.ledger.feeds p ((if old.length < 64 then old else old.drop 1) ++ [e]) } }
  setEventIf (64 ≤ old.length) 0 0 s1

/-- One action's effect at APPLY (R135, R147); OUTPUT copies are made apart. -/
def applyAction (x : Cinch) (i idx : Nat) (a : Action) (s : State) : State :=
  let p := x.paddock
  match a.typ with
  | 1 =>
    { s with st := { s.st with
      applies := s.st.applies ++ [{
        stall := a.stall, op := a.sub, typ := a.arg % 256, paddock := p, img := a.data, tack := a.tack, dseq := x.dseq, index := idx }],
      drawn := if a.sub = 1 ∧ a.stall < 65536 then Tab.set [] s.st.drawn a.stall [BitVec.ofNat 8 a.arg, BitVec.ofNat 8 p, 0, 0]
        else s.st.drawn } }
  | 2 => if a.sub = 1 then linkTack a.tack x.dseq s
         else retireTack a.tack (updTack a.tack (fun t => { t with dseq := x.dseq }) s)
  | 3 =>
    if a.sub = 2 then updTack a.tack (fun t => { t with dseq := x.dseq }) (countNow a.tack a.arg s)
    else
      let c := getCounter s p a.obj
      let c1 : Counter := if a.sub = 1 then { c with value := c.value + a.arg, dseq := x.dseq }
        else { value := a.arg, limit := field a.inl 0 8, dseq := x.dseq }
      { s with cn := { s.cn with counters := Tab.set { value := 0, limit := 0, dseq := 0 } s.cn.counters (p * 128 + a.obj) c1 } }
  | 4 => putRecord p a.obj (a.inl.take 32) (if a.sub = 3 then none else some a.data) x.dseq s
  | 5 => feedEntry p a.obj idx (cinchHandle x i) x.dseq (a.inl.take 32) s
  | _ => s

/-- Where a held output may land now: an access check or a host reference (R153). -/
def copyAllowed (s : State) (p : Nat) (h : Held) : Bool :=
  if h.host then (match hostRef s h.core h.dst h.data.length true with
    | none => false | some a => !hostFails s a h.data.length)
  else busAllowed s { unit := 34 + Config.dmaEngine h.core % 4, paddock := p, cls := b2n h.warden } true h.dst h.data.length

/-- Land bytes of a held output from offset `off` (a part of one stride). -/
def copyPart (p : Nat) (h : Held) (off : Nat) (bs : List Byte) (s : State) : State :=
  if h.host then (match hostRef s h.core (h.dst + off) bs.length true with | some a => hostPut s a bs | none => s)
  else (busWrite s { unit := 34 + Config.dmaEngine h.core % 4, paddock := p, cls := b2n h.warden } (h.dst + off) bs).st

/-- Land the bytes at positions [lo, lo + 64 KiB) of the Cinch's outputs taken one after the other (R147). -/
def copySlice (p lo : Nat) (outs : List Held) (s : State) : State :=
  (outs.foldl (fun acc h =>
    let base := acc.1
    let n := h.data.length
    let from_ := max lo base
    let stop := min (lo + 65536) (base + n)
    (base + n, if from_ < stop ∧ !h.dropped then
      copyPart p h (from_ - base) ((h.data.drop (from_ - base)).take (stop - from_)) acc.2 else acc.2)) (0, s)).2

/-- The held outputs of a Cinch in staging order. -/
def Cinch.outputs (x : Cinch) : List Held := x.actions.filterMap (fun a => a.held)

/-- Mark the output copies that fault at APPLY; answers the first such action (R153). -/
def checkCopies (i : Nat) (s : State) : State :=
  let x := getCinch s i
  let acts := x.actions.map (fun a => { a with held := a.held.map (fun h => { h with dropped := h.dropped || !copyAllowed s x.paddock h }) })
  let first := acts.findIdx? (fun a => a.held.any (fun h => h.dropped))
  let s1 := (acts.filterMap (fun a => a.held)).foldl (fun st h => if h.dropped && !h.host && h.data.length != 0 then
      noteRefused st { unit := 34 + Config.dmaEngine h.core % 4, paddock := x.paddock, cls := b2n h.warden } true h.dst h.data.length
    else st) s
  match first with
  | none => s1
  | some k => setEvent 5 4 (updCinch i (fun y => { y with
      actions := acts, failing := k, cause := 0x0B }) s1)

/-- The rest of APPLY: the next 64 KiB of copies, and the end when they have all landed. -/
def applyCopies (i : Nat) (s : State) : State :=
  let x := getCinch s i
  let total := (x.outputs.map (fun h => h.data.length)).sum
  let s1 := copySlice x.paddock x.applyPos x.outputs s
  if x.applyPos + 65536 < total then
    updCinch i (fun y => { y with applyPos := y.applyPos + 65536, applyDue := s.tick + 1 }) s1
  else
    let s2 := if x.durable then journalDone (cinchHandle x i) x s1 else s1
    endCinch i x.cause stOK x.failing s2

/-- APPLY (R147): every action in staging order, then the first copies. -/
def applyCinch (i : Nat) (s : State) : State :=
  let s0 := checkCopies i (updCinch i (fun x => { x with st := 6, applyPos := 0 }) s)
  let x := getCinch s0 i
  applyCopies i (x.actions.zipIdx.foldl (fun st p => applyAction x i p.2 p.1 st) s0)

/-- CINCH_DECISION: the decision point of a COMMITTING Cinch (R146). -/
def execCinchDecision (i : Nat) (s : State) : Host.Outcome State Fault Refusal :=
  let x := getCinch s i
  if !decisionReady s x || (x.durable && !x.custody && !commitSlotFree s x.paddock) then .next s
  else
    match failingAction s i x with
    | some k => .next (markAbort i 2 stDenied k s)
    | none =>
      if !x.durable then .next (applyCinch i s)
      else
        let s1 := if x.custody then s else takeCommitSlot x.paddock s
        let h := cinchHandle x i
        let d := nextRecord s1 + (intentRecords x h 0).length
        let rs := intentRecords x h d
        .next (putRecords (rs ++ [decideRecord x h d s.stride rs])
          (setCinch i { x with st := 3, dseq := d, decidedAt := s.stride, batchDurable := false } s1))

/-- The Cinch carries an external action. -/
def Cinch.external (x : Cinch) : Bool := x.actions.any (fun a => a.typ == 7 || a.typ == 8)

/-- CINCH_APPLY: a decided Cinch applies in the first stride after its batch (or its outcome) is durable or known, and
long copies go on one stride at a time (R147, R158, R165). -/
def execCinchApply (i : Nat) (s : State) : Host.Outcome State Fault Refusal :=
  let x := getCinch s i
  if x.st = 6 ∧ x.applyDue ≤ s.tick then .next (applyCopies i s)
  else if x.st = 3 ∧ x.batchDurable ∧ x.applyDue ≤ s.tick ∧ !x.external then .next (applyCinch i s)
  else if x.outcomeForced ≠ 0 ∧ x.st = 5 ∧ x.outcomeDurable then
    if x.outcomeForced = 1 then .next (applyCinch i (updCinch i (fun y => { y with cause := 0x12 }) s))
    else .next (abortCinch i 0x13 stAborted 255 (journalClosed i s))
  else if x.st = 4 ∧ x.applyDue ≤ s.tick ∧ x.outcome = 1 then
    .next (applyCinch i s)
  else .next s

/-! ### Officer force (R165) -/

/-- A forced outcome of the Cinch that 0x6010:01 names; false where the write is refused. -/
def forceOutcome (commit : Bool) (cred : Nat) (s : State) : Bool × State :=
  let h := s.cn.forceHandle.toNat
  let i := h % 4096
  let x := getCinch s i
  if x.st = 5 ∧ cinchHandle x i = h ∧ x.outcomeForced = 0 then
    let k := if commit then 1 else 2
    let s1 := journalOutcome i (if commit then 3 else 4) (if commit then 0x12 else 0x13) cred
      (updCinch i (fun y => { y with outcomeForced := k }) s)
    (true, setEvent 5 9 (ledgerEvent 0x2042 k (h :: lowHigh cred) (itemAdd 0x1171 1 s1)))
  else (false, s)

def execForceCommit (cred : Nat) (s : State) : Host.Outcome State Fault Refusal := .next (forceOutcome true cred s).2
def execForceAbort (cred : Nat) (s : State) : Host.Outcome State Fault Refusal := .next (forceOutcome false cred s).2

/-! ### Registers (R173) -/

/-- CN_QUOTA (`hold` false) or CN_HOLDQ write for the selected paddock (R173). -/
def writeCnQuota (hold : Bool) (v : W32) (s : State) : State :=
  let p := s.cn.psel
  let sum (t : Tab Nat) (n : Nat) : Nat := Tab.total t (fun q k => if q = p then 0 else k) + n
  if hold then
    (let n := natBits v.toNat 0 11
     if sum s.cn.quotaHold n > 1024 ∨ n < holdUsed s p then setEvent 5 6 s
     else { s with cn := { s.cn with quotaHold := Tab.set 0 s.cn.quotaHold p n } })
  else
    (let o := natBits v.toNat 16 13
     let a := natBits v.toNat 0 16
     if sum s.cn.quotaOpen o > 4096 ∨ sum s.cn.quotaAct a > 32768 ∨ o < openUsed s p ∨ a < actionsUsed s p then setEvent 5 6 s
     else { s with cn := { s.cn with
       quotaOpen := Tab.set 0 s.cn.quotaOpen p o, quotaAct := Tab.set 0 s.cn.quotaAct p a } })

/-- CN_QUOTA_WRITE of CN_QUOTA or CN_HOLDQ. -/
def execCnQuotaWrite (c : Nat) (hold : Bool) (v : W32) (s : State) : Host.Outcome State Fault Refusal :=
  if coreMay s c true (if hold then 0x100500030 else 0x100500028) then .next (writeCnQuota hold v s) else .next s

/-- A read of CN_NOTEQ removes its head entry. -/
def readNoteq (s : State) : W64 × State :=
  match s.cn.noteq with
  | [] => (0, s)
  | e :: rest => (e, { s with cn := { s.cn with noteq := rest } })

/-- NOTEQ_READ: core `c` reads CN_NOTEQ into G[rd]; from the Warden level only (R173). -/
def execNoteqRead (c rd : Nat) (s : State) : Host.Outcome State Fault Refusal :=
  if (getCore s c).warden && coreMay s c false 0x100500050 then
    let (v, s1) := readNoteq s
    .next (updCore c (fun k => { k with g := if rd % 64 = 0 then k.g else Tab.set 0 k.g (rd % 64) v }) s1)
  else .next s

/-! ### Boot replay (R171, R172) -/

/-- The ledger's in-doubt count rises once for a Cinch (R163). -/
def countDoubt (dseq : Nat) (s : State) : State :=
  if s.cn.doubted.contains dseq then s
  else itemAdd 0x1170 1 { s with cn := { s.cn with doubted := s.cn.doubted ++ [dseq] } }

/-- An action's object has not yet seen this decision (R171). A tack's count starts at a bound that covers its TACK_ADDs (R198). -/
def actionFresh (s : State) (p dseq : Nat) (a : Action) : Bool :=
  match a.typ with
  | 2 => (getTack s p a.tack).any (fun t => t.dseq < dseq && (if a.sub = 1 then t.st == 2 || t.unlinked.isSome else 1 ≤ t.st && t.st ≤ 3))
  | 3 => if a.sub = 2 then false else (getCounter s p a.obj).dseq < dseq
  | 4 => (s.cn.vault.find? (fun r => r.paddock == p && r.table == a.obj && r.key == a.inl.take 32)).all (fun r => r.dseq < dseq)
  | 5 => true
  | _ => false

/-- Re-apply a decision's durable actions, its LEDGER entries where `feed` says so; answers the actions that were applied. -/
def replayActions (f : Found) (feed : Bool) (s : State) : List Action × State :=
  let x : Cinch := { Cinch.free with seq := f.handle / 4096, paddock := f.paddock, dseq := f.dseq }
  f.actions.zipIdx.foldl (fun acc p =>
    if actionFresh acc.2 f.paddock f.dseq p.1 && (feed || p.1.typ != 5) then
      (acc.1 ++ [p.1], applyAction x (f.handle % 4096) p.2 p.1 acc.2) else acc) ([], s)

/-- A Cinch whose external write's outcome is unknown stands INDOUBT again in its slot (R172); the ledger counts it once (R163). -/
def restoreDoubt (f : Found) (s : State) : State :=
  let s1 := setEventIf f.lost 5 8 (setEvent 5 0 (setCinch (f.handle % 4096) { Cinch.free with
    st := 5, seq := f.handle / 4096, durable := true, owner := 255, paddock := f.paddock, gen := (s.paddock f.paddock).gen,
    actions := f.actions, openedAt := s.tick, dseq := f.dseq, decidedAt := f.stride, batchDurable := true, fenced := true } s))
  countDoubt f.dseq s1

/-- Replay of one decision (R172). -/
def replayFound (f : Found) (s : State) : State :=
  let none_ := f.outcome = 2 ∨ f.outcome = 4
  let x : Cinch := { Cinch.free with paddock := f.paddock, dseq := f.dseq }
  if f.isDone then (if none_ then s else (replayActions f false s).2)
  else if f.external && f.outcome == 0 then restoreDoubt f s
  else if none_ then joinBatch [doneRecord f.paddock f.handle f.dseq] s
  else
    let cause := if f.outcome = 1 then 0x10 else if f.outcome = 3 then 0x12 else 0x20
    let (acts, s1) := replayActions f true s
    pushNoteq f.handle f.paddock stOK cause
      (journalDone f.handle { x with actions := acts } (setEvent 5 7 (setEventIf f.lost 5 8 s1)))

/-- The journal step of boot (R171): SRAM state is gone, the newest durable checkpoint is loaded, decided Cinches are processed in
DSEQ order, and intents without a decision are rolled back (R172). The next JSEQ follows the newest batch that counts (R166). -/
def cinchReplay (s : State) : State :=
  let bs := validBatches s.cn.journal
  let recs := durableRecs bs
  let next := match bs.getLast? with | some b => b.first + b.recs.length | none => s.cn.ckpt
  let s1 := { s with cn := { s.cn with
    slots := [], wins := [], reqs := [], noteq := [], counters := s.cn.ckptCounters, journal := bs, jwait := [], doneWait := [],
    jseq := next, decided := [], ckptNext := none } }
  let s2 := (decisions recs).foldl (fun st d => match findDecision recs d with | some f => replayFound f st | none => st) s1
  (orphanIntents recs).foldl (fun st e => setEvent 5 7 (pushNoteq e.2.1 e.2.2 stAborted 0x21 st)) s2

/-- Power is lost: batches issued in earlier strides complete, and the checkpoint that one of them names; the batch of this stride
is never issued (R166). -/
def cinchPowerLoss (s : State) : State :=
  let s1 := { s with cn := { s.cn with
    journal := (s.cn.journal.filter (fun b => b.durable || decide (b.stride < s.stride))).map (fun b => { b with durable := true }) } }
  match s.cn.ckptNext with
  | some k => if k.stride < s.stride then
      { s1 with cn := { s1.cn with ckpt := k.ckid, ckptCounters := k.counters, ckptNext := none } } else s1
  | none => s1

end Sys2Proof.Machine
end

