-- ==== Sys2Proof/Machine/Jobs.lean ====
section
/-! DEFINITION. What cipher and PKE jobs share: memory access through a lookaside DMA engine or the host's buses
(R73, R224, R313), the check of key reins and second tacks (R77, R119), waiting, held output, and results. -/

namespace Sys2Proof.Machine

/-- The access of a lookaside DMA engine for a window job (R307, R507). -/
def Req.dma (r : Req) (c : Nat) : Access := { unit := 34 + Config.dmaEngine c % 4, paddock := r.paddock, cls := b2n r.warden }

/-- Bytes read for a job: none where unreadable, with whether a Bridle unit refused. -/
def jobRead (r : Req) (a n : Nat) (s : State) : Option (List Byte) × Bool × State :=
  if n = 0 then (some [], false, s)
  else
    match r.src with
    | .win c _ =>
      if isHostRef a then
        (match hostRef s c a n false with
         | some h => if hostFails s h n then (none, false, s) else (some (hostBytes s h n), false, s)
         | none => (none, false, s))
      else
        let b := busRead s (r.dma c) a n
        let s1 := noteRead (r.dma c) a b s
        if b.refused.isSome then (none, true, s1) else if b.ecc then (none, false, s1) else (some b.data, false, s1)
    | .host _ _ _ => if hostFails s a n then (none, false, s) else (some (hostBytes s a n), false, s)
    | .auto _ => (none, false, s)

/-- Bytes written for a job: whether they landed whole. -/
def jobWrite (r : Req) (a : Nat) (bs : List Byte) (s : State) : Bool × State :=
  if bs.isEmpty then (true, s)
  else
    match r.src with
    | .win c _ =>
      if isHostRef a then
        (match hostRef s c a bs.length true with
         | some h => if hostFails s h bs.length then (false, s) else (true, hostPut s h bs)
         | none => (false, s))
      else
        let b := busWrite s (r.dma c) a bs
        (b.refused.isNone && !b.ecc, b.st)
    | .host _ _ _ => if hostFails s a bs.length then (false, s) else (true, hostPut s a bs)
    | .auto _ => (false, s)

/-- A host reference that R224 makes MALFORMED at admission. -/
def badHostRef (s : State) (r : Req) (a n : Nat) (wr : Bool) : Bool :=
  match r.src with
  | .win c _ => n != 0 && isHostRef a && (hostRef s c a n wr).isNone
  | _ => false

/-- Two spans overlap. -/
def spansMeet (a n b m : Nat) : Bool := n != 0 && m != 0 && a < b + m && b < a + n

/-- A job's key rein passes (R77, R119): tagged, unsealed, KIND key, of the sampled paddock and generation. -/
def reinPasses (s : State) (r : Req) (k : Rein) : Bool := keyReinOk s r.paddock k

/-- The permissions a citing rein gives; a host job cites its tack with all of the tack's usage (R185). -/
def citedPerm (r : Req) (k : Rein) : Nat := match r.src with | .win _ _ => k.perm | _ => 0xFFFF

/-- Handle of a job's key: the key rein's, or KEYREF for a host job (R73). -/
def citedHandle (r : Req) (k : Rein) (keyref : Nat) : Nat := match r.src with | .win _ _ => reinHandle k | _ => keyref

/-- A usage bit that both the tack and the citing rein hold (R185). -/
def mayUse (t : Tack) (perm bit : Nat) : Bool := natBit t.usage bit && natBit perm bit

/-- The second tack of a window job is named by a passing AUX rein that agrees with the address field; a host names it
alone (R77, R119). -/
def auxPasses (s : State) (r : Req) (aux : Rein) (h : Nat) : Bool :=
  match r.src with
  | .win _ _ => reinPasses s r aux && reinHandle aux == h
  | _ => true

/-- What the time windows of cited tacks say (R51): 0 inside, else the status; 255 the job waits. -/
def windowStatus (s : State) (ts : List Tack) : Nat :=
  match judgeAll s.time (ts.map (fun t => (t.fromT, t.untilT))) with
  | .inside => stOK
  | .closed => stWindowClosed
  | .unsure => stTimeUnsure
  | .waits => 255

/-- Start the fetches that a job's tacks need. -/
def startFetches (s : State) (ts : List Tack) : State :=
  ts.foldl (fun st t => if needFetch s t && !t.fetching then startFetch t.handle st else st) s

/-- The 16-byte result of a job (R76, R118). -/
def jobResult (status unit slices outlen adm done : Nat) : List Byte :=
  [BitVec.ofNat 8 status, BitVec.ofNat 8 unit] ++ natToLE 2 slices ++ natToLE 4 outlen ++ natToLE 4 adm ++ natToLE 4 done

/-- A pending result: unit, slices, OUTLEN and ADMIT as bytes, written in the next stride or later. -/
def jobPend (r : Req) (due status unit slices outlen adm : Nat) : Pend :=
  { req := r, due := due, status := status, result := BitVec.ofNat 8 unit :: natToLE 2 slices ++ natToLE 4 outlen ++ natToLE 4 adm }

/-- The result bytes of a pending result completed now. -/
def Pend.bytes (p : Pend) (now : Nat) : List Byte :=
  [BitVec.ofNat 8 p.status] ++ p.result ++ natToLE 4 now

/-- What a destination span holds, whoever may read it. -/
def rawSpan (r : Req) (a n : Nat) (s : State) : List Byte :=
  match r.src with
  | .win c _ =>
    if isHostRef a then (match hostRef s c a n true with | some h => hostBytes s h n | none => zeros n) else ramBytes s a n
  | _ => hostBytes s a n

/-- The content that an unfinished job leaves at its destination (R80): each 16-byte-aligned unit holds what it held or
what the job computed, and which of the two is free. -/
def partialUnits (r : Req) : Nat → Nat → List Byte → List Byte → State → State
  | 0, _, _, _, s => s
  | fuel + 1, base, old, out, s =>
    if out.isEmpty then s
    else
      let n := 16 - base % 16
      let (v, s1) := drawNat s
      let s2 := (jobWrite r base ((if v % 2 = 1 then out else old).take n) s1).2
      partialUnits r fuel (base + n) (old.drop n) (out.drop n) s2

/-- Staging of a HOLD job's OUTPUT at its GO, once (R144): code 0 not tried, 1 refused, 2 + action staged. -/
def holdStage (r : Req) (cinch span dst code : Nat) (s : State) : Nat × State :=
  if code ≠ 0 then (code, s)
  else
    match r.src with
    | .win c _ =>
      match stageOutput r c cinch cinch span dst (isHostRef dst) s with
      | (some (i, k), s1) =>
        if isHostRef dst || busAllowed s1 (r.dma c) true dst span then (k + 2, s1)
        else
          (k + 2, markAbort i 3 stDenied k (noteRefused s1 (r.dma c) true dst span))
      | (none, s1) => (1, s1)
    | _ => (1, s)

end Sys2Proof.Machine
end

