-- ==== Sys2Proof/Machine/Cipher.lean ====
section
/-! DEFINITION. The cipher fabric (R55–R83): job bodies and their checks, cost and class, admission, placement of
slices on slots, mismatches, and results. -/

namespace Sys2Proof.Machine

/-! ### The job body (R67–R75) -/

/-- CTL. -/
def cCtl (b : List Byte) : Nat := field b 0 4
def cAlg (b : List Byte) : Nat := natBits (cCtl b) 28 4
def cMode (b : List Byte) : Nat := natBits (cCtl b) 23 5
/-- DIR = 1. -/
def cDir (b : List Byte) : Bool := natBit (cCtl b) 22
def cPad (b : List Byte) : Nat := natBits (cCtl b) 20 2
def cIvLen (b : List Byte) : Nat := natBits (cCtl b) 15 5
def cTlen (b : List Byte) : Nat := natBits (cCtl b) 10 5
def cHold (b : List Byte) : Bool := natBit (cCtl b) 9
def cSrct (b : List Byte) : Bool := natBit (cCtl b) 8
def cDstt (b : List Byte) : Bool := natBit (cCtl b) 7
def cKeyref (b : List Byte) : Nat := field b 4 4
def cSrc (b : List Byte) : Nat := field b 8 8
def cDst (b : List Byte) : Nat := field b 0x10 8
def cLen (b : List Byte) : Nat := field b 0x18 4
def cAlen (b : List Byte) : Nat := field b 0x1C 4
/-- The leading IVLEN bytes of the IV field. -/
def cIv (b : List Byte) : List Byte := (b.drop 0x20).take (cIvLen b)
/-- Lout of a KDF in bits: the first 4 bytes of the IV field, big-endian (R71). -/
def cLout (b : List Byte) : Nat := beToNat ((b.drop 0x20).take 4)

/-- Block size s (R55). -/
def algSize (alg : Nat) : Nat := if alg < 4 then 16 else 8
/-- Rounds per block r (R55). -/
def algRounds : Nat → Nat | 0 => 10 | 1 => 12 | 2 => 14 | 6 => 16 | _ => 48
/-- b_max of a long job's slice (R62). -/
def algMax : Nat → Nat | 0 => 195 | 1 => 163 | 2 => 139 | 6 => 122 | _ => 40
/-- ALG is an AES. -/
def algAes (alg : Nat) : Bool := alg < 3
/-- ALG is an AES or TDEA. -/
def algAny (alg : Nat) : Bool := alg < 3 || alg == 4 || alg == 5

/-- ALG allowed for MODE (R68). -/
def modeAlg (m alg : Nat) : Bool :=
  match m with
  | 0x00 => algAny alg | 0x01 => algAny alg | 0x08 => alg == 0 || alg == 2
  | 0x09 => algAny alg | 0x0C => algAny alg | 0x0D => algAny alg | 0x0E => alg == 6
  | _ => m < 0x10 && algAes alg

/-- IVLEN allowed (R68). -/
def modeIv (m alg n : Nat) : Bool :=
  match m with
  | 0x01 => n == algSize alg | 0x02 => n == 16 | 0x03 => n == 16 | 0x04 => n == 16
  | 0x05 => 1 ≤ n && n ≤ 16 | 0x06 => 1 ≤ n && n ≤ 16 | 0x07 => 7 ≤ n && n ≤ 13 | 0x08 => n == 16
  | 0x0C => n == algSize alg | 0x0F => n == 4 | _ => n == 0

/-- TLEN allowed (R68). -/
def modeTag (m alg n : Nat) : Bool :=
  match m with
  | 0x05 => n == 4 || n == 8 || (12 ≤ n && n ≤ 16) | 0x06 => n == 4 || n == 8 || (12 ≤ n && n ≤ 16)
  | 0x07 => 4 ≤ n && n ≤ 16 && n % 2 == 0
  | 0x09 => 1 ≤ n && n ≤ algSize alg | 0x0C => 1 ≤ n && n ≤ algSize alg | 0x0D => 1 ≤ n && n ≤ algSize alg
  | 0x0E => 4 ≤ n && n ≤ 8 | _ => n == 0

/-- PAD allowed (R68). -/
def modePad (m p : Nat) : Bool :=
  match m with
  | 0x00 => true | 0x01 => true | 0x0C => true | 0x0D => p == 2 || p == 3 | 0x0E => p == 2 || p == 3 | _ => p == 0

/-- Lp: L after padding; decryption in ECB and CBC adds none (R70). -/
def paddedLen (b : List Byte) : Nat :=
  let s := algSize (cAlg b)
  let l := cLen b
  if cPad b = 0 ∨ (cMode b < 2 ∧ cDir b) then l
  else if cPad b = 2 then max s (ceilDiv l s * s)
  else (l / s + 1) * s

/-- LEN allowed (R68, R70). -/
def modeLen (b : List Byte) : Bool :=
  let l := cLen b
  let s := algSize (cAlg b)
  match cMode b with
  | 0x00 => paddedLen b % s == 0 && (!(cDir b && cPad b == 1) || s ≤ l)
  | 0x01 => paddedLen b % s == 0 && (!(cDir b && cPad b == 1) || s ≤ l)
  | 0x06 => l == 0
  | 0x07 => l < 2 ^ (8 * (15 - cIvLen b))
  | 0x08 => 16 ≤ l
  | 0x0A => if cDir b then l % 8 == 0 && 24 ≤ l else l == 0
  | 0x0B => if cDir b then l % 8 == 0 && 16 ≤ l else l == 0
  | 0x0C => paddedLen b % s == 0
  | 0x0F => 1 ≤ l && l ≤ 4096 && !cDir b
  | _ => true

/-- KW or KWP. -/
def modeKw (m : Nat) : Bool := m == 0x0A || m == 0x0B
/-- Modes that make or check a MAC alone (R69). -/
def modeMac (m : Nat) : Bool := m == 0x06 || m == 0x09 || m == 0x0C || m == 0x0D || m == 0x0E

/-- Bytes read at SRC (R69). -/
def readSpan (b : List Byte) : Nat :=
  let m := cMode b
  let t := if cDir b then cTlen b else 0
  if m = 5 ∨ m = 7 then cAlen b + cLen b + t
  else if m = 6 then cAlen b + t
  else if modeMac m then cLen b + t
  else if modeKw m && !cDir b then 0
  else cLen b

/-- Bytes written at DST (R69); `lenb` is the LENB of a wrapped tack (R68). -/
def writeSpan (b : List Byte) (lenb : Nat) : Nat :=
  let m := cMode b
  if m < 2 then (if cDir b then cLen b else paddedLen b)
  else if m = 5 ∨ m = 7 then (if cDir b then cLen b else cLen b + cTlen b)
  else if modeMac m then (if cDir b then 0 else cTlen b)
  else if modeKw m then (if cDir b then 0 else lenb + 8)
  else if m = 0x0F then 0 else cLen b

/-- Row 1 of R78: what R75 makes MALFORMED, apart from host references. -/
def cipherBad (b : List Byte) (win : Bool) (lenb cinch : Nat) : Bool :=
  let m := cMode b
  let alg := cAlg b
  natBits (cCtl b) 0 7 != 0 || (win && cKeyref b != 0) || !modeAlg m alg || 16 < cIvLen b || 16 < cTlen b ||
    !modeIv m alg (cIvLen b) || !modeTag m alg (cTlen b) || !modePad m (cPad b) || !modeLen b ||
    !zeroSpan b (0x20 + cIvLen b) (16 - cIvLen b) || (cAlen b != 0 && !(5 ≤ m && m ≤ 7)) || cAlen b + cLen b > 0x1000000 ||
    (cSrct b != (modeKw m && !cDir b)) || (cDstt b != ((modeKw m && cDir b) || m == 0x0F)) ||
    (cSrct b && cSrc b ≥ 2 ^ 32) || (cDstt b && cDst b ≥ 2 ^ 32) ||
    (!cSrct b && !cDstt b && cDst b != cSrc b + cAlen b && spansMeet (cSrc b) (readSpan b) (cDst b) (writeSpan b lenb)) ||
    (cHold b && (!win || cinch == 0 || 65536 < writeSpan b lenb))

/-! ### Cost and class (R61, R62, R68) -/

/-- Block computations B (R68). -/
def costBlocks (b : List Byte) (lenb : Nat) : Nat :=
  let l := cLen b
  let s := algSize (cAlg b)
  match cMode b with
  | 0x00 => paddedLen b / s | 0x01 => paddedLen b / s
  | 0x05 => ceilDiv l 16 + 1 | 0x06 => 1
  | 0x07 =>
    let a := cAlen b
    let ae := if a = 0 then 0 else if a < 65280 then a + 2 else a + 6
    2 + ceilDiv ae 16 + 2 * ceilDiv l 16
  | 0x08 => ceilDiv l 16 + 1
  | 0x09 => max 1 (ceilDiv l s) + 1
  | 0x0A => 6 * (if cDir b then l / 8 - 1 else ceilDiv lenb 8)
  | 0x0B => let n := if cDir b then l / 8 - 1 else ceilDiv lenb 8
            if n = 1 then 1 else 6 * n
  | 0x0C => paddedLen b / s | 0x0D => paddedLen b / s | 0x0E => paddedLen b / 8 + 2
  | 0x0F => 1 + ceilDiv (cLout b) 128 * ceilDiv (4 + l) 16
  | _ => ceilDiv l 16

/-- GHASH steps G (R68). -/
def costGhash (b : List Byte) : Nat :=
  if cMode b = 5 ∨ cMode b = 6 then ceilDiv (cAlen b) 16 + ceilDiv (cLen b) 16 + 1 + (if cIvLen b = 12 then 0 else 2) else 0

/-- The mode is parallel for its direction (R68). -/
def modeParallel (b : List Byte) : Bool :=
  match cMode b with
  | 0x00 => true | 0x01 => cDir b | 0x02 => cDir b | 0x04 => true | 0x05 => true | 0x06 => true | 0x08 => true | _ => false

/-- Slice count n: 1 for a short job (R62). -/
def costSlices (b : List Byte) (lenb : Nat) : Nat :=
  let n := costBlocks b lenb
  let g := costGhash b
  let r := algRounds (cAlg b)
  if n * r ≤ 1956 ∧ g ≤ 1968 then 1 else max (ceilDiv n (algMax (cAlg b))) (ceilDiv g 246)

/-! ### Who may (R77, R184–R187) -/

/-- Usage bit that MODE and DIR need (R77). -/
def cipherUse (b : List Byte) : Nat :=
  let d := b2n (cDir b)
  if modeKw (cMode b) then 4 + d else if cMode b = 0x0F then 6 else if modeMac (cMode b) then 2 + d else d

/-- The tack's ALGO is the one that ALG names (R67, R184). -/
def algMatches (m alg algo : Nat) : Bool :=
  if m = 8 then (alg == 0 && algo == 3) || (alg == 2 && algo == 4)
  else (alg < 3 && algo == alg) || (alg == 4 && algo == 5) || (alg == 5 && algo == 6) || (alg == 6 && algo == 7)

/-- PIN_XLATE allows the job (R186). -/
def pinOk (r : Req) (b : List Byte) (lenb : Nat) : Bool :=
  match r.src with
  | .win c _ =>
    cMode b < 2 && cLen b ≤ 16 &&
      (if cDir b then
        decide (0x10040000 + c * 0x80000 ≤ cDst b) && decide (cDst b + writeSpan b lenb ≤ 0x10080000 + c * 0x80000)
       else cHold b)
  | _ => false

/-- Row 2 of R78. -/
def cipherDenied (s : State) (r : Req) (b : List Byte) (key aux : Rein) (lenb : Nat) : Bool :=
  let h := citedHandle r key (cKeyref b)
  let perm := citedPerm r key
  !s.keepPresent || (match r.src with | .win _ _ => !reinPasses s r key | _ => false) || (s.paddock r.paddock).st != 1 ||
  (match liveTack s r.paddock h with
   | none => true
   | some t => !(mayUse t perm (cipherUse b) || (mayUse t perm 9 && pinOk r b lenb)) || !algMatches (cMode b) (cAlg b) t.algo) ||
  (cSrct b && (!auxPasses s r aux (cSrc b) ||
    (match liveTack s r.paddock (cSrc b) with | none => true | some t => t.policy == 0))) ||
  (cDstt b && (!auxPasses s r aux (cDst b) ||
    (match getTack s r.paddock (cDst b) with
     | none => true
     | some t => t.st != 1 || t.fillPending || (cMode b == 0x0F && cLout b != 8 * t.lenb))))

/-! ### Admission (R30, R51, R64, R77, R78, R198) -/

/-- Context entries in use by a paddock (R64). -/
def ctxUsed (s : State) (p : Nat) : Nat := (s.cf.jobs.filter (fun j => j.req.paddock == p && 1 < j.slices)).length
/-- Context entries in force for a paddock. -/
def ctxAllowed (s : State) (p : Nat) : Nat := Tab.get 2 s.cf.ctxEff p

/-- A result without slots, in the stride after admission (R75, R507). -/
def cipherRefuse (r : Req) (status : Nat) (s : State) : State :=
  { s with cf := { s.cf with pend := s.cf.pend ++ [jobPend r (s.tick + 1) status 0xFF 0 0 (s.stride % 2 ^ 32)] } }

/-- LENB that a wrap is costed by: that of the LIVE tack of the paddock that SRC names, else 32 (R68). -/
def wrapLenb (s : State) (r : Req) (b : List Byte) : Nat :=
  if cSrct b then ((liveTack s r.paddock (cSrc b)).map (fun t => t.lenb)).getD 32 else 32

/-- Admit a cipher job, or let it wait: whether it was admitted, the staging code of its OUTPUT, and the state. -/
def cipherSubmit (r : Req) (b : List Byte) (key aux : Rein) (cinch staged : Nat) (s : State) : Bool × Nat × State :=
  let win := match r.src with | .win _ _ => true | _ => false
  let lenb := wrapLenb s r b
  if win && (s.paddock r.paddock).st != 1 then (true, staged, cipherRefuse r stDenied s)
  else if cipherBad b win lenb cinch || (!cSrct b && badHostRef s r (cSrc b) (readSpan b) false) ||
      (!cDstt b && badHostRef s r (cDst b) (writeSpan b lenb) true) then (true, staged, cipherRefuse r stMalformed s)
  else
    let (code, s1) := if cHold b then holdStage r cinch (writeSpan b lenb) (cDst b) staged s else (0, s)
    let h := citedHandle r key (cKeyref b)
    let kt := liveTack s1 r.paddock h
    let st := if cSrct b then liveTack s1 r.paddock (cSrc b) else none
    let dt := if cDstt b then getTack s1 r.paddock (cDst b) else none
    let w := windowStatus s1 (kt.toList ++ st.toList ++ dt.toList)
    let denied := code == 1 || cipherDenied s1 r b key aux lenb
    let used := kt.toList ++ st.toList
    if w = 255 then (false, code, s1)
    else if !denied && used.any (fetchFailed s1) then
      (true, code, (match code with
        | 0 => cipherRefuse r stMediaError s1
        | 1 => cipherRefuse r stMediaError s1
        | k + 2 => endHeld (cinch % 4096) k cinch stMediaError [] (cipherRefuse r stMediaError s1)))
    else if !denied && used.any (needFetch s1) then (false, code, startFetches s1 used)
    else
      let n := costSlices b lenb
      let row := if denied then stDenied else if w ≠ stOK then w
        else if kt.any (useOverLimit s1) then stQuota else stOK
      if 1 < n && ctxAllowed s1 r.paddock ≤ ctxUsed s1 r.paddock then (false, code, s1)
      else if row = stOK ∧ !kt.all (useWithinBound s1) then (false, code, leaseWait h s1)
      else
        let s2 := if row = stOK then pendUse h s1 else s1
        let s3 := if row = stOK && cDstt b then updTack (cDst b) (fun t => { t with fillPending := true }) s2 else s2
        let j : CJob := {
          no := s3.cf.nextNo, req := r, body := b, tack := h, tack2 := if cSrct b then cSrc b else if cDstt b then cDst b else 0,
          row := row, blocks := costBlocks b lenb, ghash := costGhash b, slices := n, span := writeSpan b lenb, done := 0,
          cut := 0, lane := 0xFF, adm := s3.stride % 2 ^ 32, admTick := s3.tick,
          ctx := CtxEntry.empty, res := 0, out := [], wrote := 0, old := [],
          held := match code with | 0 => none | 1 => none | k + 2 => some (cinch % 4096, k) }
        (true, code, { s3 with cf := { s3.cf with jobs := s3.cf.jobs ++ [j], nextNo := s3.cf.nextNo + 1 } })

/-! ### What a job computes (R69–R72) -/

/-- Outcome of a tag comparison. -/
def tagStatus (ok : Bool) : Nat := if ok then stOK else stDistrust

/-- AAD bytes that the slices before and with slice `k` of a long job have read, where `x` blocks are done by then: GHASH takes
246 blocks a slice (R62), CCM's CBC-MAC one block each after B0 (log 78). -/
def aadBy (b : List Byte) (k x : Nat) : Nat :=
  match cMode b with
  | 0x05 => min (cAlen b) (3936 * k) | 0x06 => min (cAlen b) (3936 * k)
  | 0x07 => min (cAlen b) (16 * (x - 1) - (ccmHead (cAlen b)).length)
  | _ => 0

/-- Data bytes read by then: those of the blocks done, where the last block of a padded or chained input, the last two of an
XTS unit that ends in a part of one, wait for the final slice (R70, R71), and a key wrap or derivation reads its input at
once (log 78). -/
def dataBy (b : List Byte) (x : Nat) : Nat :=
  let l := cLen b
  let s := algSize (cAlg b)
  match cMode b with
  | 0x02 => min l (16 * x) | 0x03 => min l (16 * x) | 0x04 => min l (16 * x)
  | 0x05 => min l (16 * (x - 1)) | 0x06 => 0
  | 0x07 => min l (16 * ((x - 1 - ceilDiv ((ccmHead (cAlen b)).length + cAlen b) 16) / 2))
  | 0x08 => min (16 * (x - 1)) (if l % 16 = 0 then l else (l / 16 - 1) * 16)
  | 0x09 => min ((x - 1) * s) ((max 1 (ceilDiv l s) - 1) * s)
  | 0x0A => l | 0x0B => l | 0x0F => l
  | _ => min (x * s) ((paddedLen b / s - 1) * s)

/-- A job's context entry as its first slice begins (R71): the IV, first counter or tweak, and the accumulator. -/
def ctxStart (b key : List Byte) (h : Nat) : CtxEntry :=
  let c := blockFn (cAlg b) key
  let iv := cIv b
  let x := CtxEntry.empty
  match cMode b with
  | 0x05 => { x with chain := inc32 (gcmJ0 h iv), acc := zeros 16 }
  | 0x06 => { x with acc := zeros 16 }
  | 0x07 => { x with chain := ccmCtr iv 1, acc := c.enc (ccmB0 iv (cAlen b) (cLen b) (cTlen b)) }
  | 0x08 => { x with chain := xtsTweak (cAlg b) key iv }
  | 0x09 => { x with acc := zeros c.size } | 0x0D => { x with acc := zeros c.size } | 0x0E => { x with acc := zeros c.size }
  | 0x0C => { x with acc := iv }
  | _ => { x with chain := iv }

/-- GHASH of a slice's AAD and ciphertext: ciphertext waits until all of the AAD is in. -/
def ghashSlice (b : List Byte) (h : Nat) (x : CtxEntry) (aad ct : List Byte) : CtxEntry :=
  let y := ghashFrom h (beToNat x.acc) (padBlocks aad)
  if x.aadN < cAlen b then { x with acc := natToBE 16 y, hold := x.hold ++ ct }
  else { x with acc := natToBE 16 (ghashFrom h y (padBlocks (x.hold ++ ct))), hold := [] }

/-- The accumulator with a slice's whole blocks chained in. -/
def macSlice (c : BlockFn) (x : CtxEntry) (blocks : List (List Byte)) : CtxEntry := { x with acc := cbcMac c x.acc blocks }

/-- What the final slice of a MAC does: the value is made, or compared over TLEN bytes (R72). -/
def macEnd (b mac tag : List Byte) (x : CtxEntry) : Nat × List Byte × CtxEntry :=
  let v := mac.take (cTlen b)
  if cDir b then (tagStatus (v == tag), [], x) else (stOK, v, x)

/-- One slice of a job (R64, R69–R72): from the context entry `x`, which already counts the bytes read, under key bytes `key` and
hash subkey `h`, over the AAD, data and expected tag that the slice reads; `fin` says that it is the final one and `wrapped`
is the material that a wrap takes. It answers a status, the output of the slice, and the entry after it. -/
def sliceRun (b key : List Byte) (h : Nat) (wrapped : List Byte) (x : CtxEntry) (aad data tag : List Byte) (fin : Bool) :
    Nat × List Byte × CtxEntry :=
  let alg := cAlg b
  let c := blockFn alg key
  let d := cDir b
  let s := c.size
  let full := if fin then padTo (cPad b) s data else data
  let strip (p : List Byte) (y : CtxEntry) : Nat × List Byte × CtxEntry :=
    if fin then (match unpad (cPad b) s p with | some q => (stOK, q, y) | none => (stMalformed, [], y)) else (stOK, p, y)
  match cMode b with
  | 0x00 => if d then strip (ecb c.dec (chunks s data)) x else (stOK, ecb c.enc (chunks s full), x)
  | 0x01 =>
    if d then strip (cbcDec c x.chain (chunks s data)) { x with chain := lastBlock s x.chain data }
    else (let y := cbcEnc c x.chain (chunks s full); (stOK, y, { x with chain := lastBlock s x.chain y }))
  | 0x02 =>
    let y := cfb c (!d) x.chain (chunks 16 data)
    (stOK, y, { x with chain := lastBlock 16 x.chain (if d then data else y) })
  | 0x03 =>
    let y := ofb c x.chain (chunks 16 data)
    (stOK, y, { x with chain := lastBlock 16 x.chain (xorBytes y data) })
  | 0x04 => (stOK, ctr c inc128 x.chain (chunks 16 data), { x with chain := stepTimes inc128 (data.length / 16) x.chain })
  | 0x05 =>
    let y := ctr c inc32 x.chain (chunks 16 data)
    let x1 := ghashSlice b h { x with chain := stepTimes inc32 (data.length / 16) x.chain } aad (if d then data else y)
    if !fin then (stOK, y, x1)
    else
      let t := (gcmSeal c h (ghashFrom h (beToNat x1.acc) [gcmLens (cAlen b) (cLen b)]) (cIv b)).take (cTlen b)
      if d then (tagStatus (t == tag), y, x1) else (stOK, y ++ t, x1)
  | 0x06 =>
    let x1 := ghashSlice b h x aad []
    if !fin then (stOK, [], x1)
    else macEnd b (gcmSeal c h (ghashFrom h (beToNat x1.acc) [gcmLens (cAlen b) 0]) (cIv b)) tag x1
  | 0x07 =>
    let y := ctr c inc128 x.chain (chunks 16 data)
    let head := if x.blocks = 0 then ccmHead (cAlen b) else []
    let x1 := macSlice c { x with chain := stepTimes inc128 (data.length / 16) x.chain }
      (padBlocks (head ++ aad) ++ padBlocks (if d then y else data))
    if !fin then (stOK, y, x1)
    else
      let t := (xorBytes x1.acc (c.enc (ccmCtr (cIv b) 0))).take (cTlen b)
      if d then (tagStatus (t == tag), y, x1) else (stOK, y ++ t, x1)
  | 0x08 => (stOK, xts alg (!d) key x.chain data, { x with chain := stepTimes xtsNext (data.length / 16) x.chain })
  | 0x09 => if fin then macEnd b (cmacFrom c x.acc data) tag x else (stOK, [], macSlice c x (chunks s data))
  | 0x0A =>
    let x1 := { x with hold := x.hold ++ data }
    if !fin then (stOK, [], x1)
    else if d then (let u := kwUnwrap c x1.hold; (tagStatus (u.1 == kwIv), u.2, x1))
    else (stOK, kwWrap c kwIv (chunks 8 wrapped), x1)
  | 0x0B =>
    let x1 := { x with hold := x.hold ++ data }
    if !fin then (stOK, [], x1)
    else if d then (match kwpUnwrap c x1.hold with | some k => (stOK, k, x1) | none => (stDistrust, [], x1))
    else (stOK, kwpWrap c wrapped, x1)
  | 0x0F =>
    let x1 := { x with hold := x.hold ++ data }
    if fin then (stOK, kdfCtr c x1.hold (ceilDiv (cLout b) 8), x1) else (stOK, [], x1)
  | m =>
    let x1 := macSlice (if m = 0x0E then blockFn 6 (key.take 8) else c) x (chunks s full)
    if fin then macEnd b (if m = 0x0E then macAlg3End key x1.acc else x1.acc) tag x1 else (stOK, [], x1)

/-- The output goes to memory at once: no HOLD, no tack. -/
def CJob.toMemory (j : CJob) : Bool := j.held.isNone && !cDstt j.body && j.span != 0

/-- The source bytes of a slice: AAD, data and, in the final one, the expected tag (R69): none where one of them is unreadable,
with whether a Bridle unit refused. -/
def sliceRead (j : CJob) (a1 d1 : Nat) (fin : Bool) (s : State) : Option (List Byte × List Byte × List Byte) × Bool × State :=
  let b := j.body
  let x := jobRead j.req (cSrc b + j.ctx.aadN) (a1 - j.ctx.aadN) s
  let y := jobRead j.req (cSrc b + cAlen b + j.ctx.dataN) (d1 - j.ctx.dataN) x.2.2
  let z := jobRead j.req (cSrc b + cAlen b + cLen b) (if fin then readSpan b - cAlen b - cLen b else 0) y.2.2
  (match x.1, y.1, z.1 with | some p, some q, some r => some (p, q, r) | _, _, _ => none, x.2.1 || y.2.1 || z.2.1, z.2.2)

/-- The work of one slice of a job that runs: the first counts the use; each reads its part of the source (R78 row 7: unreadable,
or a word of a cited tack is) and goes on from the context entry. -/
def cipherWork (j : CJob) (s : State) : CJob × State :=
  let s1 := if j.done = 0 then countUse j.tack s else s
  let t := tackRec s1 j.tack
  let key := (t.map (fun t => t.material)).getD []
  let h := (t.map Tack.hashSub).getD 0
  let j1 := if j.done = 0 then
      { j with ctx := ctxStart j.body key h, old := if j.toMemory then rawSpan j.req (cDst j.body) j.span s1 else [] } else j
  if j1.res ≠ stOK then (j1, s1)
  else if [j.tack, j.tack2].any (fun n => (tackRec s1 n).any (fun t => t.bad)) then ({ j1 with res := stMediaError }, eccFound 4 s1)
  else
    let b := j.body
    let k := j.done + 1
    let fin := k == j.slices
    let x := if fin then j.blocks else min j.blocks (k * algMax (cAlg b))
    let a1 := if fin then cAlen b else aadBy b k x
    let d1 := if fin then cLen b else dataBy b x
    let t2 := tackRec s1 j.tack2
    if cSrct b && fin && !t2.any (fun t => algoSym t.algo) then
      (let (fb, s2) := drawBytes j.span s1; ({ j1 with out := fb }, s2))
    else
      match (if cSrct b then (some ([], [], []), false, s1) else sliceRead j1 a1 d1 fin s1) with
      | (none, refused, s2) =>
        ({ j1 with res := stMediaError },
          match j.held with
          | some (i, n) => if refused then markAbort i 3 stDenied n s2 else s2
          | none => s2)
      | (some (aad, data, tag), _, s2) =>
        let r := sliceRun b key h ((t2.map (fun t => t.material)).getD []) { j1.ctx with aadN := a1, dataN := d1 } aad data tag fin
        ({ j1 with res := r.1, out := j1.out ++ r.2.1, ctx := { r.2.2 with blocks := x } }, s2)

/-- Land the output made so far. -/
def cipherLand (j : CJob) (s : State) : CJob × State :=
  let (ok, s1) := jobWrite j.req (cDst j.body + j.wrote) (j.out.drop j.wrote) s
  ({ j with wrote := j.out.length, res := if ok then j.res else stMediaError }, s1)

/-- Take a finished job out and leave its result: `lane`, slices run and OUTLEN of R76. Its tack slot is given back
unless filled, a use never counted is given back. -/
def cipherEnd (j : CJob) (status outlen due : Nat) (s : State) : State :=
  let s1 := { s with cf := { s.cf with
    jobs := s.cf.jobs.filter (fun x => x.no != j.no),
    pend := s.cf.pend ++ [jobPend j.req due status (if j.done = 0 then 0xFF else j.lane) j.done outlen j.adm] } }
  let s2 := if j.row = stOK && j.done = 0 then dropUse j.tack s1 else s1
  let s3 := if j.row = stOK && cDstt j.body && status ≠ stOK then unfillTack j.tack2 s2 else s2
  match j.held with
  | some (i, k) => endHeld i k (match (getCinch s3 i).actions[k]? with
      | some a => ((a.held.map (fun x => x.job)).getD 0) | none => 0) status (if status = stOK then j.out else []) s3
  | none => s3

/-- A job that ends ABORTED, UNIT_FENCED or MEDIA_ERROR: what its destination holds is free unit by unit over the output made so
far (R80). -/
def cipherBreak (j : CJob) (status due : Nat) (s : State) : State :=
  let s1 := if j.toMemory && j.row == stOK then partialUnits j.req (j.out.length + 1) (cDst j.body) j.old j.out s else s
  cipherEnd j status 0 due s1

/-- The final slice of a job (R78, R79). -/
def cipherFinal (j : CJob) (s : State) : State :=
  let due := s.tick + 1
  let zero (st : State) : State := if j.toMemory then (jobWrite j.req (cDst j.body) (zeros j.span) st).2 else st
  if j.row ≠ stOK then cipherEnd j j.row 0 due (zero s)
  else if j.res = stMediaError then cipherBreak j stMediaError due s
  else if j.res = stMalformed then cipherEnd j stMalformed 0 due (zero s)
  else if cDstt j.body then
    let fits := (tackRec s j.tack2).any (fun t => t.lenb == j.out.length && t.st == 1)
    if j.res = stOK ∧ fits then cipherEnd j stOK 0 due (fillUnder j.held j.tack2 (fillTack j.tack2 j.out s))
    else cipherEnd j stDistrust 0 due s
  else if j.held.isSome then cipherEnd j j.res (if j.res = stOK then j.out.length else 0) due s
  else
    let (j1, s1) := cipherLand j s
    if j1.res = stMediaError then cipherBreak j1 stMediaError due s1 else cipherEnd j1 j1.res j1.out.length due s1

/-- Replace a job. -/
def putJob (j : CJob) (s : State) : State :=
  { s with cf := { s.cf with jobs := s.cf.jobs.map (fun x => if x.no = j.no then j else x) } }

/-- One slice that nothing disturbs, on the lane of its last part. -/
def cipherSlice (j : CJob) (lane : Nat) (s : State) : State :=
  let (j1, s1) := if j.row = stOK then cipherWork j s else (j, s)
  let j2 := { j1 with done := j1.done + 1, lane := if j.row = stOK then lane else j1.lane }
  if j2.done = j2.slices then cipherFinal j2 (putJob j2 s1)
  else
    let (j3, s2) := if j2.row = stOK && j2.res = stOK && j2.toMemory then cipherLand j2 s1 else (j2, s1)
    putJob j3 s2

/-! ### Slots and placement (R62, R63, R65, R66) -/

/-- A slot of the stride: its index, physical lane, the cycles left. -/
structure Cell where
  q : Nat
  phys : Nat
  room : Nat
deriving DecidableEq, Repr

/-- Round pair of a slot. -/
def Cell.pair (c : Cell) : Nat := c.q % 8

/-- Slot indices of paddock `p` in this stride (R42, R66). -/
def slotIndices (s : State) (res p : Nat) : List Nat :=
  let first := (runStart s.time res p + 255 - s.stride % 256) / 256
  (List.range (slotsIn s.time res p s.stride)).map (fun i => first + i)

/-- The paddock's usable slots in this stride: reserved for inline frames, or not (R63). -/
def cipherCells (s : State) (p : Nat) (inline : Bool) : List Cell :=
  let all := slotIndices s 0 p
  let n := Tab.get 0 s.cf.rsvEff p
  (if inline then all.take n else all.drop n).filterMap (fun q =>
    match physOf s 0 (q / 8) with
    | some u =>
      if (isActive s 0 u || (getUnit s 0 u).st == 2) && !s.cf.dead.contains (u, q % 8) then
        some { q := q, phys := u, room := 1968 - Tab.get 0 s.cf.frameCyc q }
      else none
    | none => none)

/-- Split `left` blocks of `r` cycles over slots, 12 cycles a part (R61, R62): the parts (slot, blocks), or none. -/
def splitParts (r : Nat) : Nat → Bool → List Cell → Option (List (Cell × Nat))
  | left, any, [] => if left = 0 ∧ any then some [] else none
  | left, any, c :: cs =>
    if left = 0 ∧ any then some []
    else
      let k := min left ((c.room - 12) / r)
      if c.room < 12 ∨ (k = 0 ∧ left ≠ 0) then splitParts r left any cs
      else (splitParts r (left - k) true cs).map (fun ps => (c, k) :: ps)

/-- A short job's parts: split if parallel, whole in one slot if chained (R62). -/
def fitParts (parallel : Bool) (r blocks : Nat) (cells : List Cell) : Option (List (Cell × Nat)) :=
  if parallel then splitParts r blocks false cells
  else (cells.find? (fun c => 12 + blocks * r ≤ c.room)).map (fun c => [(c, blocks)])

/-- The slots after the cycles of some parts are taken. -/
def takeParts (r : Nat) (parts : List (Cell × Nat)) (cells : List Cell) : List Cell :=
  cells.map (fun c => match parts.find? (fun p => p.1.q == c.q) with
    | some p => { c with room := c.room - (12 + p.2 * r) }
    | none => c)

/-- The GHASH pair of a physical lane was stopped in the stride (R81). -/
def ghashDead (s : State) (phys : Nat) : Bool := s.cf.dead.contains (phys, 8)

/-- GHASH steps of a logical lane still free in the stride (R61): none once its pair was stopped (R81). -/
def ghashFree (s : State) (lane : Nat) : Nat :=
  if (physOf s 0 lane).any (ghashDead s) then 0 else 1968 - Tab.get 0 s.cf.ghashUsed lane

/-- Take GHASH steps of a lane. -/
def useGhash (lane g : Nat) (s : State) : State :=
  { s with cf := { s.cf with ghashUsed := Tab.upd 0 s.cf.ghashUsed lane (fun n => min 1968 (n + g)) } }

/-! ### Mismatches (R81, R82) -/

/-- The first fault that strikes parts on `places` (physical lane, pair), a GHASH pair on `gl` or a context reload on
`cl`, as (lane, pair code, kind), and the faults left. Kind 3 is an overrun of any pair. -/
def strike (places : List (Nat × Nat)) (gl cl : Option Nat) :
    List HwFault → Option (Nat × Nat × Nat) × List HwFault
  | [] => (none, [])
  | .laneMismatch lane pair kind which :: fs =>
    let meets := if kind = 0 then places.contains (lane, pair) else if kind = 1 then gl == some lane
      else if kind = 2 then cl == some lane else places.any (fun p => p.1 == lane)
    if meets && which == 0 then
      (some (lane, if kind = 1 then 8 else if kind = 2 then 9 else pair, kind), fs)
    else
      let r := strike places gl cl fs
      (r.1, .laneMismatch lane pair kind (if meets then which - 1 else which) :: r.2)
  | f :: fs => let r := strike places gl cl fs; (r.1, f :: r.2)

/-- Record a mismatch: the events, CF_FAULT, CF_MISMATCHES, the lane's life count, and the fence due (R81, R82). -/
def noteMismatch (lane pair kind paddock : Nat) (s : State) : State :=
  let s1 := if kind = 3 then s
    else itemAdd (0x10C0 + lane) 1 (setEvent 2 (if kind = 0 then 0 else 1) { s with cf := { s.cf with
      mismatches := min (s.cf.mismatches + 1) 0xFFFFFFFF,
      fault := BitVec.ofNat 64 (s.stride % 2 ^ 32 * 2 ^ 32 + paddock % 256 * 2 ^ 24 + lane % 256 * 2 ^ 8 + pair % 16),
      dead := if kind = 2 then s.cf.dead else (lane, pair) :: s.cf.dead } })
  { s1 with cf := { s1.cf with
    reasons := Tab.set 0 s1.cf.reasons lane (kind + 1), fenceDue := s1.cf.fenceDue ++ [(lane, kind + 1, paddock)] } }

/-- One slice of job `j` on some parts, with the faults of the stride. -/
def runParts (j : CJob) (parts : List Cell) (fs : List HwFault) (s : State) : List HwFault × State :=
  let places := parts.map (fun c => (c.phys, c.pair))
  let first := parts.head?.map (fun c => c.phys)
  let last := (places.getLast?.map (fun p => p.1)).getD 0xFF
  let hit := if j.row ≠ stOK then (none, fs)
    else strike places (if j.ghash = 0 then none else first) (if j.done = 0 then none else first) fs
  match hit.1 with
  | some (lane, pair, kind) =>
    let (j1, s1) := cipherWork j s
    let j2 := { j1 with done := j1.done + 1, lane := last }
    (hit.2, cipherBreak j2 stUnitFenced (s.tick + 1) (noteMismatch lane pair kind j.req.paddock s1))
  | none => (hit.2, cipherSlice j last s)

/-- Long jobs of a paddock, one whole slot each (R63 step 2); answers the slots left. -/
def runLong : List CJob → List Cell → List HwFault → State → List Cell × List HwFault × State
  | j :: js, c :: cs, fs, s =>
    let g := min 246 (j.ghash - 246 * j.done)
    if s.cf.dead.contains (c.phys, c.pair) ∨ (g ≠ 0 ∧ ghashDead s c.phys) then runLong (j :: js) cs fs s
    else
      let r := runParts j [c] fs (if g = 0 then s else useGhash (c.q / 8) g s)
      runLong js cs r.1 r.2
  | _, cs, fs, s => (cs, fs, s)
termination_by structural _ cs => cs

/-- Short jobs of a paddock in admission order, none overtaking one that does not fit (R63 step 3). -/
def runShort : List CJob → List Cell → List HwFault → State → List HwFault × State
  | [], _, fs, s => (fs, s)
  | j :: js, cells, fs, s =>
    let r := algRounds (cAlg j.body)
    let live := cells.filter (fun c => !s.cf.dead.contains (c.phys, c.pair))
    match fitParts (modeParallel j.body) r j.blocks live with
    | none => (fs, s)
    | some parts =>
      let lane := (parts.head?.map (fun p => p.1.q / 8)).getD 0
      if j.ghash != 0 && ghashFree s lane < j.ghash then (fs, s)
      else
        let s1 := if j.ghash = 0 then s else useGhash lane j.ghash s
        let x := runParts j (parts.map (fun p => p.1)) fs s1
        runShort js (takeParts r parts live) x.1 x.2

/-- A paddock's lookaside work of the stride (R63). -/
def servePaddock (p : Nat) (fs : List HwFault) (s : State) : List HwFault × State :=
  let mine := s.cf.jobs.filter (fun j => j.req.paddock == p && decide (j.admTick < s.tick))
  let long := mine.filter (fun j => 1 < j.slices)
  let x := runLong (long.filter (fun j => j.done != 0) ++ long.filter (fun j => j.done == 0)) (cipherCells s p false) fs s
  runShort (mine.filter (fun j => j.slices == 1)) x.1 x.2.1 x.2.2

/-- A lane that overran is fenced, whatever ran on it (R46). -/
def fenceOverrun (s : State) (lane : Nat) : State :=
  if s.cf.fenceDue.any (fun f => f.1 == lane) then s else noteMismatch lane 0 3 0 s

/-- Every paddock's lookaside slices of the stride that ends, with the mismatches and overruns that show in it. -/
def cipherSlices (fs : List HwFault) (s : State) : State :=
  let overs := (s.us.overruns.filter (fun o => o.1 == 0)).map (fun o => o.2)
  let here := fs.filter (fun f => match f with | .laneMismatch _ _ kind _ => kind < 3 | _ => false)
  let busy := (List.range 256).filter (fun p => s.cf.jobs.any (fun j => j.req.paddock == p))
  overs.foldl fenceOverrun
    (busy.foldl (fun acc p => servePaddock p acc.1 acc.2) (here ++ overs.map (fun l => HwFault.laneMismatch l 0 3 0), s)).2

/-! ### Boundaries (R80–R82) -/

/-- Fences due, once for each lane, and the stride's use of slots forgotten. -/
def cipherFences (s : State) : State :=
  let s1 := s.cf.fenceDue.foldl (fun st f =>
    if (getUnit st 0 f.1).st = 3 then st
    else
      let st1 := setEvent 2 2 (fenceUnit 0 f.1 f.2.1 f.2.2 st)
      setEventIf (!spareLeft st 0 && (logicalOf st 0 f.1).isSome) 2 3 st1) s
  { s1 with cf := { s1.cf with fenceDue := [], dead := [], ghashUsed := [], frameCyc := [] } }

/-- Jobs that a cancel, a revocation or a fence ends at this boundary complete ABORTED in the stride that begins. -/
def cipherCuts (s : State) : State :=
  s.cf.jobs.foldl (fun st j => if j.cut = 0 then st else cipherBreak j j.cut st.tick st) s

/-- Mark the jobs that satisfy a test to end at the next boundary (R80). -/
def cutCipher (test : CJob → Bool) (status : Nat) (s : State) : State :=
  { s with cf := { s.cf with jobs := s.cf.jobs.map (fun j => if test j && j.cut == 0 then { j with cut := status } else j) } }

/-- Staged CF_RSV and CF_CTX take effect (R83). -/
def cipherFrame (s : State) : State := { s with cf := { s.cf with rsvEff := s.cf.rsvStaged, ctxEff := s.cf.ctxStaged } }

/-! ### Results and registers (R76, R77, R83) -/

/-- CIPHER_JOB_COMPLETE: the result is written where its source reads it (R45, R76, R78). -/
def execCipherJobComplete (src : Src) (s : State) : Host.Outcome State Fault Refusal :=
  match s.cf.pend.find? (fun p => decide (p.req.src = src)) with
  | none => .next s
  | some p =>
    if s.tick < p.due || !hostTurn s src then .next s
    else
      let s1 := { s with cf := { s.cf with pend := s.cf.pend.filter (fun x => decide (x.req.src ≠ src)) } }
      let s2 := if p.status = stUnitFenced then noteLostJob s1 else s1
      match src with
      | .win c w =>
        let s3 := { s2 with cf := { s2.cf with
          wins := Tab.upd Win.reset s2.cf.wins (c * 8 + w) (fun x => x.finish (p.bytes (s.stride % 2 ^ 32))) } }
        .next (if (Tab.get Win.reset s.cf.wins (c * 8 + w)).ie then setPendFor c 5 p.req.paddock s3 else s3)
      | .host fn q seq => .next (hostComplete fn q seq (p.bytes (s.stride % 2 ^ 32)) s2)
      | .auto _ => .next s2

/-- CF_RSV write for the selected paddock: above 256 it is refused (R83). -/
def writeCfRsv (v : W32) (s : State) : State :=
  let n := natBits v.toNat 0 9
  if n > 256 then setEvent 2 4 s
  else { s with cf := { s.cf with rsvStaged := Tab.set 0 s.cf.rsvStaged s.cf.psel n } }

/-- CF_CTX write: a staged sum above 512 is refused (R83). -/
def writeCfCtx (v : W32) (s : State) : State :=
  let n := natBits v.toNat 0 10
  let sum := (List.range 256).foldl (fun a p => a + (if p = s.cf.psel then n else Tab.get 2 s.cf.ctxStaged p)) 0
  if sum > 512 then setEvent 2 5 s
  else { s with cf := { s.cf with ctxStaged := Tab.set 2 s.cf.ctxStaged s.cf.psel n } }

/-- CF_RSV_WRITE: a write that core `c`'s Bridle unit lets pass. -/
def execCfRsvWrite (c : Nat) (v : W32) (s : State) : Host.Outcome State Fault Refusal :=
  if coreMay s c true 0x100200028 then .next (writeCfRsv v s) else .next s
/-- CF_CTX_WRITE. -/
def execCfCtxWrite (c : Nat) (v : W32) (s : State) : Host.Outcome State Fault Refusal :=
  if coreMay s c true 0x100200030 then .next (writeCfCtx v s) else .next s

end Sys2Proof.Machine
end

