-- ==== Sys2Proof/Machine/Inline.lean ====
section
/-! DEFINITION. Inline Ethernet protection (R229–R245): ports, classification, MACsec and ESP frames, the verdict
table, egress queues and PAUSE. A frame is held without its FCS, which the ports check and form. -/

namespace Sys2Proof.Machine

/-! ### Ports and counters (R229, R243–R245) -/

/-- Counter block of a sub-port and direction. -/
def ilBlock (pair sub : Nat) (outbound : Bool) : Nat := 8 * pair + 2 * sub + b2n outbound

/-- IL_PORTCFG of a pair. -/
def portCfg (s : State) (pair : Nat) : W32 := Tab.get 0x1C0 s.il.portcfg pair
/-- A bit of IL_PORTCFG. -/
def portBit (s : State) (pair bit : Nat) : Bool := natBit (portCfg s pair).toNat bit
/-- BREAKOUT in force (R230). -/
def broken (s : State) (pair : Nat) : Bool := Tab.get false s.il.brk pair
/-- The sub-ports that exist (R229). -/
def portSubs (s : State) (pair : Nat) : List Nat := if broken s pair then [0, 1, 2, 3] else [0]
/-- A sub-port that exists of an enabled pair. -/
def portLive (s : State) (pair sub : Nat) : Bool := pair < 4 && portBit s pair 0 && (portSubs s pair).contains sub

/-- Count in a counter block, saturating (R245). -/
def ilCount (block c : Nat) (s : State) : State :=
  { s with il := { s.il with cnt := Tab.upd 0 s.il.cnt (32 * block + c) (fun v => min (v + 1) 0xFFFFFFFFFFFFFFFF) } }

/-- Bytes a direction buffer holds: its queued frames, FCS included. -/
def bufFill (s : State) (pair : Nat) (outbound : Bool) : Nat :=
  ([0, 1, 2, 3].map (fun u => ((Tab.get [] s.il.egress (ilBlock pair u outbound)).map (fun f => f.bytes.length + 4)).sum)).sum

/-- Size of a direction buffer, 5.5 MiB (R243). -/
def bufSize : Nat := 5767168

/-- The XOFF threshold in KiB as it acts (R245). -/
def xoffKib (s : State) : Nat := min (natBits s.il.xoff.toNat 16 16) 5632
/-- The XON threshold in KiB as it acts (R245). -/
def xonKib (s : State) : Nat := let x := natBits s.il.xoff.toNat 0 16; if x ≥ xoffKib s then xoffKib s - 64 else x

/-- The pair sends PAUSE: it is enabled, so that its transmitters are not idle, and PAUSE_EN = 1 (R229, R243). -/
def pauses (s : State) (pair : Nat) : Bool := portBit s pair 0 && portBit s pair 8

/-- A direction buffer holds more than XOFF KiB while the pair sends PAUSE. -/
def bufAbove (s : State) (pair : Nat) (outbound : Bool) : Bool :=
  pauses s pair && decide (xoffKib s * 1024 < bufFill s pair outbound)

/-- Send PAUSE with some quanta on every ingress sub-port of a direction (R243). -/
def sendPause (pair : Nat) (outbound : Bool) (quanta : Nat) (s : State) : State :=
  let s1 := (portSubs s pair).foldl (fun st u =>
    let b := ilBlock pair u outbound
    ilCount b 19 { st with il := { st.il with pauseSent := Tab.set 0 st.il.pauseSent b (quanta + 1) } }) s
  let d := 2 * pair + b2n outbound
  { s1 with il := { s1.il with
    pausing := Tab.set false s1.il.pausing d (quanta != 0), pauseAt := Tab.set 0 s1.il.pauseAt d s.tick } }

/-- After a direction buffer has moved from `was` bytes: PAUSE when it rises above XOFF, quanta 0 when it falls below
XON after a PAUSE. -/
def bufMoved (pair : Nat) (outbound : Bool) (was : Nat) (s : State) : State :=
  if bufAbove s pair outbound && decide (was ≤ xoffKib s * 1024) then sendPause pair outbound 0xFFFF s
  else if Tab.get false s.il.pausing (2 * pair + b2n outbound) && pauses s pair
      && decide (bufFill s pair outbound < xonKib s * 1024) then sendPause pair outbound 0 s
  else s

/-- PAUSE_REPEAT: every 40 strides on a 400GbE sub-port, every 160 on a 100GbE one, while the buffer stands above XOFF. -/
def execPauseRepeat (pair : Nat) (outbound : Bool) (s : State) : Host.Outcome State Fault Refusal :=
  let d := 2 * pair + b2n outbound
  let wait := if broken s pair then 160 else 40
  if pair < 4 && portBit s pair 0 && bufAbove s pair outbound
      && (!Tab.get false s.il.pausing d || decide (Tab.get 0 s.il.pauseAt d + wait ≤ s.tick)) then
    .next (sendPause pair outbound 0xFFFF s)
  else .next s

/-- A SHED has begun and step 3 of R407 is not complete: frames are dropped, admissions wait (R244, R408). -/
def State.shedding (s : State) : Bool := match s.tm.shedStart with | some t => decide (s.tick < t + 64) | none => false

/-- Halt of the egress sub-port that faces a received PAUSE, for its quanta of 512 bit times; quanta 0 resumes
(R243, Annex 31B). -/
def pauseHalt (block quanta : Nat) (broken : Bool) (s : State) : State :=
  let ns := if broken then ceilDiv (quanta * 512) 100 else ceilDiv (quanta * 128) 100
  { s with il := { s.il with halted := Tab.set 0 s.il.halted block (if quanta = 0 then 0 else s.time.now + ns) } }

/-- PAUSE_RECEIVED: counted, consumed and honoured while PAUSE_EN = 1; dropped unclassified during a SHED. -/
def execPauseReceived (pair sub : Nat) (outbound : Bool) (quanta : Nat) (s : State) : Host.Outcome State Fault Refusal :=
  if portLive s pair sub then
    let b := ilBlock pair sub outbound
    let s1 := ilCount b 0 s
    if s.shedding then .next (ilCount b 14 s1)
    else
      let s2 := ilCount b 2 s1
      .next (if portBit s pair 8 then pauseHalt b (quanta % 65536) (broken s pair) s2 else s2)
  else .next s

/-- PAUSE_TIMER_EXPIRY: the pause time ends within the current stride at the latest. -/
def execPauseTimerExpiry (pair sub : Nat) (outbound : Bool) (s : State) : Host.Outcome State Fault Refusal :=
  let b := ilBlock pair sub outbound
  let e := Tab.get 0 s.il.halted b
  if e ≠ 0 ∧ e ≤ s.time.now + 1000 then .next { s with il := { s.il with halted := Tab.set 0 s.il.halted b 0 } }
  else .next s

/-- PORT_LINK_CHANGE: IL_LINK follows the link, and LINK_CHANGE is set (R245). -/
def execPortLinkChange (pair : Nat) (system : Bool) (sub : Nat) (up : Bool) (s : State) : Host.Outcome State Fault Refusal :=
  if pair < 4 && (portSubs s pair).contains sub then
    let bit : W32 := BitVec.ofNat 32 (2 ^ (sub + if system then 4 else 0))
    let old := Tab.get 0 s.il.link pair
    let new := if up then old ||| bit else old &&& ~~~bit
    .next (setEventIf (old != new) 8 0 { s with il := { s.il with link := Tab.set 0 s.il.link pair new } })
  else .next s

/-- The egress link of a block is up: the system side for inbound frames, the line side for outbound ones. -/
def egressUp (s : State) (pair sub : Nat) (outbound : Bool) : Bool :=
  (Tab.get 0 s.il.link pair).getLsbD (sub + if outbound then 0 else 4)

/-- A write of IL_PORTCFG under a mask (R245). -/
def writePortCfg (pair : Nat) (mask val : W64) (s : State) : State :=
  let was := bufAbove s pair false
  let was1 := bufAbove s pair true
  let s1 := { s with il := { s.il with portcfg := Tab.set 0x1C0 s.il.portcfg pair (rw32 (portCfg s pair) mask val 0x1F3) } }
  let s2 := if bufAbove s1 pair false && !was then sendPause pair false 0xFFFF s1 else s1
  if bufAbove s2 pair true && !was1 then sendPause pair true 0xFFFF s2 else s2

/-- IL_PORTCFG_WRITE (R230, R245). -/
def execIlPortcfgWrite (c pair : Nat) (val : W32) (s : State) : Host.Outcome State Fault Refusal :=
  if pair < 4 ∧ coreMay s c true (0x100800100 + 8 * pair) then .next (writePortCfg pair 0xFFFFFFFF (val.setWidth 64) s) else .next s

/-- A dropped frame counts under TAIL alone (R243, R244). -/
def ilTail (block : Nat) (s : State) : State := setEvent 8 3 (ilCount block 17 s)

/-- Drop what the egress queues of a pair hold, as TAIL. -/
def dropEgress (pair : Nat) (s : State) : State :=
  (List.range 8).foldl (fun st i =>
    let b := 8 * pair + i
    let st1 := (Tab.get [] st.il.egress b).foldl (fun a _ => ilTail b a) st
    { st1 with il := { st1.il with egress := Tab.set [] st1.il.egress b [] } }) s

/-- A change of BREAKOUT at a stride boundary: both sides of the pair drop, and the links train again (R230). -/
def ilBoundary (s : State) : State :=
  [0, 1, 2, 3].foldl (fun st n =>
    if portBit st n 1 != broken st n then
      let st1 := setEventIf (Tab.get 0 st.il.link n != 0) 8 0 (dropEgress n st)
      { st1 with il := { st1.il with
        brk := Tab.set false st1.il.brk n (portBit st n 1), link := Tab.set 0 st1.il.link n 0,
        halted := Tab.clearRange 0 st1.il.halted (8 * n) (8 * n + 8),
        pausing := Tab.clearRange false st1.il.pausing (2 * n) (2 * n + 2) } }
    else st) s

/-! ### Frames (R230–R232, R239) -/

/-- Bytes of a frame from `off`. -/
def span (bs : List Byte) (off n : Nat) : List Byte := (bs.drop off).take n
/-- A big-endian field. -/
def beField (bs : List Byte) (off n : Nat) : Nat := beToNat (span bs off n)

/-- Step 1 of R236 drops the frame as RX_ERR: a bad FCS, or a size outside R230. -/
def rxBad (bs : List Byte) (fcsOk : Bool) : Bool := !fcsOk || bs.length < 60 || 9212 < bs.length

/-- A MAC Control frame's PAUSE quanta (Annex 31B), sent to the address 01-80-C2-00-00-01 (log 168). -/
def pauseQuanta (bs : List Byte) : Option Nat :=
  if bs.take 6 = [0x01, 0x80, 0xC2, 0x00, 0x00, 0x01] ∧ beField bs 12 2 = 0x8808 ∧ beField bs 14 2 = 1 then some (beField bs 16 2)
  else none

/-- FRAME_RECEIVED: a frame ends on a sub-port of an enabled pair, is counted, and waits for the next boundary. A PAUSE
among them takes effect at once. -/
def execFrameReceived (pair sub : Nat) (outbound : Bool) (bytes : List Byte) (fcsOk : Bool) (s : State) :
    Host.Outcome State Fault Refusal :=
  if portLive s pair sub then
    let b := ilBlock pair sub outbound
    let s1 := ilCount b 0 s
    if s.shedding then .next (ilCount b 14 s1)
    else
      let s2 := match pauseQuanta bytes with
        | some q => if !rxBad bytes fcsOk && portBit s pair 8 then pauseHalt b q (broken s pair) s1 else s1
        | none => s1
      .next { s2 with il := { s2.il with rx := s2.il.rx ++
        [{ pair := pair, sub := sub, outbound := outbound, bytes := bytes, fcsOk := fcsOk, at_ := s.tick }] } }
  else .next s

/-- Offset of the EtherType behind up to two VLAN tags. -/
def etherOff (bs : List Byte) : Nat :=
  let tag (o : Nat) : Bool := beField bs o 2 == 0x8100 || beField bs o 2 == 0x88A8
  if tag 12 then (if tag 16 then 20 else 16) else 12

/-- An IP packet that carries ESP: offset of the IP header, whether IPv6, header length, payload length. -/
structure EspAt where
  ip : Nat
  six : Bool
  hdr : Nat
  len : Nat
deriving DecidableEq, Repr

/-- What step 4 of R236 recognises: protocol 50 directly after the IP header, and no fragment (R232). -/
def espAt (bs : List Byte) : Option EspAt :=
  let o := etherOff bs
  let ip := o + 2
  let v := byteAt bs ip
  if beField bs o 2 = 0x0800 ∧ v / 16 = 4 ∧ 5 ≤ v % 16 ∧ byteAt bs (ip + 9) = 50 ∧ beField bs (ip + 6) 2 % 0x4000 = 0 then
    some { ip := ip, six := false, hdr := 4 * (v % 16), len := beField bs (ip + 2) 2 - 4 * (v % 16) }
  else if beField bs o 2 = 0x86DD ∧ v / 16 = 6 ∧ byteAt bs (ip + 6) = 50 then
    some { ip := ip, six := true, hdr := 40, len := beField bs (ip + 4) 2 }
  else none

/-- The ones-complement IPv4 header checksum. -/
def ipSum (hdr : List Byte) : Nat :=
  let t := ((chunks 2 hdr).map beToNat).sum
  let f (x : Nat) : Nat := x % 65536 + x / 65536
  65535 - f (f t)

/-- Rewrite an IP header for a protocol and payload length (R239). -/
def fixIp (six : Bool) (hdr : List Byte) (proto len : Nat) : List Byte :=
  if six then hdr.take 4 ++ natToBE 2 len ++ [BitVec.ofNat 8 proto] ++ hdr.drop 7
  else
    let h := hdr.take 2 ++ natToBE 2 (hdr.length + len) ++ span hdr 4 5 ++ [BitVec.ofNat 8 proto, 0, 0] ++ hdr.drop 12
    h.take 10 ++ natToBE 2 (ipSum h) ++ h.drop 12

/-- A frame short of 64 bytes is padded with zeros (R242). -/
def padFrame (bs : List Byte) : List Byte := bs ++ zeros (60 - bs.length)

/-! ### Classification (R235–R238) -/

/-- The classifier's TYPE, FLAGS, SCI and SALT of a key. -/
def keyType (k : List Byte) : Nat := byteAt k 0
def keyFlags (k : List Byte) : Nat := field k 1 2
def keySci (k : List Byte) : List Byte := if keyType k ≤ 2 then span k 11 8 else span k 3 8
def keySpi (k : List Byte) : Nat := field k 15 4

/-- Stalls that take part in classification on a sub-port and satisfy a test on their key. -/
def stallsWith (s : State) (pair sub : Nat) (test : List Byte → Bool) : List Nat :=
  (s.st.keys.filter (fun e =>
    let k := e.2
    !flagsBad (keyType k) (keyFlags k) && natBits (keyFlags k) 0 2 == pair && natBits (keyFlags k) 2 2 == sub && test k)).map
    (fun e => e.1)

/-- The stall of a frame among those with its key (R238). -/
def pickStall (s : State) (c : List Nat) : Option Nat :=
  let t := s.stride * 1000
  let best := (c.filter (fun n => (stallWindow s n).1 ≤ t && t < (stallWindow s n).2)).foldl (fun (a : Option Nat) n =>
    match a with
    | none => some n
    | some m => if (stallWindow s m).1 < (stallWindow s n).1 ∨ ((stallWindow s m).1 = (stallWindow s n).1 ∧ n < m) then some n else a) none
  match best with
  | some n => some n
  | none => c.foldl (fun (a : Option Nat) n => some (match a with | none => n | some m => min m n)) none

/-- What a frame matched to a stall asks of the fabric: AAD and data lengths, the octets it counts, the PN it carries,
the length it would leave with (FCS included), and its parts to protect or to check. -/
structure FrameJob where
  stall : Nat
  aadLen : Nat
  dataLen : Nat
  octets : Nat
  pn : Nat
  outLen : Nat
  bytes : List Byte
  esp : Option EspAt
  tag : Nat
deriving DecidableEq, Repr

/-- What classification answers: an outcome counter, or a stall's job. -/
inductive Classified where
  | drop (counter : Nat)
  | bypass
  | job (j : FrameJob)
deriving DecidableEq, Repr

/-- Steps 3 of R236 with R231: SecTAG checks, key and lengths. -/
def classMacsecIn (f : RxFrame) (s : State) : Classified :=
  let bs := f.bytes
  let tci := byteAt bs 14
  let sl := byteAt bs 15
  let sc := natBit tci 5
  let st := if sc then 16 else 8
  let room := bs.length - 12 - st - 16
  let dl := if sl = 0 then room else sl
  if bs.length < 28 + st ∨ natBit tci 7 ∨ natBit tci 4 ∨ natBit tci 3 != natBit tci 2 ∨ 48 ≤ sl ∨
      (sl = 0 ∧ room < 48) ∨ (sl ≠ 0 ∧ room ≠ sl ∧ ¬(bs.length = 60 ∧ sl < room)) then .drop 6
  else
    let sci := if sc then span bs 20 8 else span bs 6 6 ++ [0, 1]
    match pickStall s (stallsWith s f.pair f.sub (fun k => (keyType k == 2 || keyType k == 4) && keySci k == sci &&
        natBits (keyFlags k) 4 2 == tci % 4)) with
    | none => .drop 5
    | some n =>
      let conf := natBit tci 3
      .job { stall := n, aadLen := 12 + st + (if conf then 0 else dl), dataLen := if conf then dl else 0, octets := dl,
             pn := beField bs 16 4, outLen := max 64 (12 + dl + 4), bytes := bs.take (12 + st + dl + 16), esp := none, tag := st }

/-- Step 4 of R236: an ESP packet from the line. Lengths that leave no room for header, trailer and ICV are BAD_TAG. -/
def classEspIn (f : RxFrame) (e : EspAt) (s : State) : Classified :=
  let o := e.ip + e.hdr
  match pickStall s (stallsWith s f.pair f.sub (fun k => (keyType k == 6 || keyType k == 8) && keySpi k == beField f.bytes o 4)) with
  | none => .drop 5
  | some n =>
    let tl := stallField s n 8 1
    if e.len < 18 + tl ∨ f.bytes.length < o + e.len then .drop 6
    else
      let enc := e.len - 16 - tl
      .job { stall := n, aadLen := if stallType s n = 8 then 12 else 8, dataLen := enc, octets := enc - 2,
             pn := beField f.bytes (o + 4) 4, outLen := 64, bytes := f.bytes, esp := some e, tag := tl }

/-- Step 2 of R237: the placeholder of R239 is there. -/
def hasPlaceholder (bs : List Byte) (e : EspAt) : Bool :=
  let o := e.ip + e.hdr
  8 ≤ e.len && decide (o + e.len ≤ bs.length) && zeroSpan bs (o + 4) 3

/-- Length of P, padding, pad length and Next Header (R239). -/
def espInner (p : Nat) : Nat := ceilDiv (p + 2) 4 * 4

/-- Step 2 of R237: an ESP packet from the system side. -/
def classEspOut (f : RxFrame) (e : EspAt) (s : State) : Classified :=
  match pickStall s (stallsWith s f.pair f.sub (fun k => (keyType k == 5 || keyType k == 7) &&
      keySpi k == beField f.bytes (e.ip + e.hdr) 4)) with
  | none => .drop 5
  | some n =>
    let p := e.len - 8
    let tl := stallField s n 8 1
    .job { stall := n, aadLen := if stallType s n = 7 then 12 else 8, dataLen := espInner p, octets := p, pn := 0,
           outLen := e.ip + e.hdr + 16 + espInner p + tl + 4, bytes := f.bytes, esp := some e, tag := tl }

/-- Step 3 of R237: a frame for the sub-port's transmit stall. -/
def jobMacsecOut (f : RxFrame) (n : Nat) (s : State) : FrameJob :=
  let fl := stallFlags s n
  let st := if natBit fl 10 then 16 else 8
  let dl := f.bytes.length - 12
  { stall := n, aadLen := 12 + st + (if natBit fl 8 then 0 else dl), dataLen := if natBit fl 8 then dl else 0, octets := dl,
    pn := 0, outLen := f.bytes.length + st + 20, bytes := f.bytes, esp := none, tag := st }

/-- R236 and R237, in their order. -/
def classify (f : RxFrame) (s : State) : Classified :=
  let bs := f.bytes
  let et := beField bs 12 2
  let policy (bit : Nat) : Classified := if portBit s f.pair bit then .bypass else .drop 4
  if rxBad bs f.fcsOk then .drop 1
  else if et = 0x8808 then .drop 2
  else if et = 0x888E then policy (if f.outbound then 7 else 6)
  else if f.outbound then
    match (espAt bs).filter (hasPlaceholder bs) with
    | some e => classEspOut f e s
    | none =>
      match pickStall s (stallsWith s f.pair f.sub (fun k => keyType k == 1 || keyType k == 3)) with
      | some n => .job (jobMacsecOut f n s)
      | none => policy 5
  else if et = 0x88E5 then classMacsecIn f s
  else
    match espAt bs with
    | some e => classEspIn f e s
    | none => policy 4

/-! ### The verdict (R240, R241) -/

/-- Rows 1 to 6 of R240: the counter of the first that holds. -/
def rowsBefore (f : RxFrame) (j : FrameJob) (pn : Nat) (s : State) : Option Nat :=
  let n := j.stall
  let addr := stallAddr n
  let ws := stallWindow s n :: (match tackRec s (stallTack s n) with | some t => [(t.fromT, t.untilT)] | none => [])
  if stallState s n ≠ 2 then some 7
  else if meetsPoison s addr 256 || stallField s n 0xF0 4 != stallCheck addr (ramBytes s addr 256) then some 8
  else if judgeAll s.time ws != .inside then some 9
  else if pnExhausted s n || (!f.outbound && decide (stallLimit s n < pn)) then some 10
  else if !f.outbound && replayRefused s n pn then some 11
  else if f.outbound && decide (9216 < j.outLen) then some 12
  else none

/-- Place a frame in its paddock's inline reservation (R65, R241): the parts and the lane of the first, or none. -/
def placeFrame (j : FrameJob) (s : State) : Option (List (Cell × Nat) × Nat × Nat) :=
  let rounds := match tackRec s (stallTack s j.stall) with | some t => algRounds (if t.algo = 0 then 0 else 2) | none => 14
  let g := ceilDiv j.aadLen 16 + ceilDiv j.dataLen 16 + 1
  match splitParts rounds (ceilDiv j.dataLen 16 + 1) false (cipherCells s (stallPad s j.stall) true) with
  | none => none
  | some parts =>
    let lane := (parts.head?.map (fun p => p.1.q / 8)).getD 0
    if ghashFree s lane < g then none else some (parts, lane, rounds)

/-- Take the slots and GHASH steps of a placed frame. -/
def chargeFrame (j : FrameJob) (parts : List (Cell × Nat)) (lane rounds : Nat) (s : State) : State :=
  let s1 := useGhash lane (ceilDiv j.aadLen 16 + ceilDiv j.dataLen 16 + 1) s
  parts.foldl (fun st p => { st with cf := { st.cf with frameCyc := Tab.upd 0 st.cf.frameCyc p.1.q (· + (12 + p.2 * rounds)) } }) s1

/-- The 12-byte nonce of a stall's frame (R232, R85): SCI ‖ PN, (SSCI ‖ PN) xor Salt, or salt ‖ IV. -/
def frameNonce (s : State) (n pn : Nat) (iv : List Byte) : List Byte :=
  let a := stallAddr n
  let t := stallType s n
  if t ≤ 2 then ramBytes s (a + 0x20) 8 ++ natToBE 4 pn
  else if t ≤ 4 then xorBytes (ramBytes s (a + 0x2C) 4 ++ natToBE 8 pn) (ramBytes s (a + 0x20) 12)
  else ramBytes s (a + 0x20) 4 ++ iv

/-- The GCM block function under a stall's tack. -/
def frameCipher (s : State) (n : Nat) : BlockFn :=
  match tackRec s (stallTack s n) with
  | some t => blockFn (if t.algo = 0 then 0 else 2) (tackMaterial s t)
  | none => blockFn 2 []

/-- Protect an outbound frame with PN `pn`. -/
def protectFrame (j : FrameJob) (pn : Nat) (s : State) : List Byte :=
  let n := j.stall
  let bs := j.bytes
  let c := frameCipher s n
  match j.esp with
  | none =>
    let fl := stallFlags s n
    let conf := natBit fl 8
    let dl := bs.length - 12
    let tci := (if natBit fl 10 then 0x20 else 0x40) + (if conf then 0x0C else 0) + natBits fl 4 2
    let sci := span (stallKey s n) (if stallType s n ≤ 2 then 11 else 3) 8
    let head := bs.take 12 ++ natToBE 2 0x88E5 ++ [BitVec.ofNat 8 tci, BitVec.ofNat 8 (if dl < 48 then dl else 0)] ++
      natToBE 4 pn ++ (if natBit fl 10 then sci else [])
    let iv := frameNonce s n pn []
    if conf then
      (let ct := gcmData c iv (bs.drop 12)
       head ++ ct ++ gcmTag c iv head ct)
    else head ++ bs.drop 12 ++ gcmTag c iv (head ++ bs.drop 12) []
  | some e =>
    let o := e.ip + e.hdr
    let p := e.len - 8
    let pad := espInner p - p - 2
    let nh := span bs (o + 7) 1
    let pt := span bs (o + 8) p ++ (List.range pad).map (fun i => BitVec.ofNat 8 (i + 1)) ++ [BitVec.ofNat 8 pad] ++ nh
    let ivb := natToBE 8 pn
    let iv := frameNonce s n pn ivb
    let aad := span bs o 4 ++ (if stallType s n = 7 then natToBE 8 pn else natToBE 4 pn)
    let ct := gcmData c iv pt
    bs.take e.ip ++ fixIp e.six (span bs e.ip e.hdr) 50 (16 + pt.length + j.tag) ++ span bs o 4 ++ natToBE 4 pn ++ ivb ++
      ct ++ (gcmTag c iv aad ct).take j.tag

/-- The data of a checked inbound frame: ICV correct, and the frame to forward with its octets, none where the ESP
trailer is wrong. -/
def openFrame (j : FrameJob) (pn : Nat) (s : State) : Bool × Option (List Byte × Nat) :=
  let n := j.stall
  let bs := j.bytes
  let c := frameCipher s n
  match j.esp with
  | none =>
    let iv := frameNonce s n pn []
    let ct := span bs (12 + j.tag) j.octets
    let icv := bs.drop (12 + j.tag + j.octets)
    if j.dataLen = 0 then (gcmTag c iv (bs.take (12 + j.tag + j.octets)) [] == icv, some (bs.take 12 ++ ct, j.octets))
    else (gcmTag c iv (bs.take (12 + j.tag)) ct == icv, some (bs.take 12 ++ gcmData c iv ct, j.octets))
  | some e =>
    let o := e.ip + e.hdr
    let iv := frameNonce s n pn (span bs (o + 8) 8)
    let aad := span bs o 4 ++ (if stallType s n = 8 then natToBE 8 pn else natToBE 4 pn)
    let ct := span bs (o + 16) j.dataLen
    let icv := span bs (o + 16 + j.dataLen) j.tag
    let pt := gcmData c iv ct
    let k := byteAt pt (j.dataLen - 2)
    let nh := byteAt pt (j.dataLen - 1)
    let tunnel := natBit (stallFlags s n) 11
    let p := j.dataLen - 2 - k
    let bad := decide (j.dataLen % 4 ≠ 0) || decide (j.dataLen < k + 2) ||
      span pt p k != (List.range k).map (fun i => BitVec.ofNat 8 (i + 1)) || (tunnel && nh != 4 && nh != 41)
    let out := if tunnel then bs.take (e.ip - 2) ++ natToBE 2 (if nh = 4 then 0x0800 else 0x86DD) ++ pt.take p
      else bs.take e.ip ++ fixIp e.six (span bs e.ip e.hdr) nh p ++ pt.take p
    ((gcmTag c iv aad ct).take j.tag == icv, if bad then none else some (out, p))

/-- An outcome of a frame, and the leaf it sets (R244, R245). -/
def frameDrop (block counter : Nat) (s : State) : State :=
  let s1 := ilCount block counter s
  match counter with
  | 5 => setEvent 8 6 s1
  | 13 => setEvent 8 2 s1
  | 14 => setEvent 8 4 s1
  | 15 => setEvent 8 1 s1
  | 17 => setEvent 8 3 s1
  | _ => s1

/-- A forwarded frame enters its egress queue at the end of the stride (R240, R242). -/
def enqueueFrame (f : RxFrame) (bytes : List Byte) (guarded : Bool) (s : State) : State :=
  let b := ilBlock f.pair f.sub f.outbound
  let was := bufFill s f.pair f.outbound
  let s1 := { s with il := { s.il with
    egress := Tab.upd [] s.il.egress b (· ++ [{ bytes := padFrame bytes, block := b, guarded := guarded, ready := s.tick + 1 }]) } }
  bufMoved f.pair f.outbound was s1

/-- Rows 7 to 11 of R240 for a frame that passed rows 1 to 6, with the faults of the stride. -/
def runFrame (f : RxFrame) (j : FrameJob) (pn0 : Nat) (fs : List HwFault) (s : State) : State :=
  let b := ilBlock f.pair f.sub f.outbound
  match placeFrame j s with
  | none => frameDrop b 13 s
  | some (parts, lane, rounds) =>
    let s1 := chargeFrame j parts lane rounds s
    let (pn, s2) := if f.outbound then assignPN j.stall s1 else (pn0, s1)
    let places := parts.map (fun p => (p.1.phys, p.1.pair))
    match (strike places (parts.head?.map (fun p => p.1.phys)) none fs).1 with
    | some (l, pr, kind) => frameDrop b 14 (noteMismatch l pr kind (stallPad s j.stall) s2)
    | none =>
      if f.outbound then
        let s3 := stallCount j.stall 0xC0 j.octets (stallCount j.stall 0xC8 1 s2)
        enqueueFrame f (protectFrame j pn s1) true s3
      else
        match openFrame j pn s2 with
        | (false, _) => frameDrop b 15 (stallCount j.stall 0xD0 1 s2)
        | (true, none) => frameDrop b 6 (acceptPN j.stall pn j.octets s2)
        | (true, some (out, oct)) => enqueueFrame f out true (acceptPN j.stall pn oct s2)

/-- The verdict of one frame in its ingress stride. -/
def judgeFrame (f : RxFrame) (fs : List HwFault) (s : State) : State :=
  let b := ilBlock f.pair f.sub f.outbound
  let full := decide (bufSize < bufFill s f.pair f.outbound + f.bytes.length + 4)
  match classify f s with
  | .drop 1 => frameDrop b 1 s
  | .drop 2 => frameDrop b 2 s
  | c =>
    if full || !(portSubs s f.pair).contains f.sub then frameDrop b 17 s
    else
      match c with
      | .drop k => frameDrop b k s
      | .bypass => enqueueFrame f f.bytes false s
      | .job j =>
        let pn := if f.outbound then 0 else recoverPN s j.stall j.pn
        match rowsBefore f j pn s with
        | some 8 => frameDrop b 8 (setEvent 3 2 (causeLeave j.stall 5 s))
        | some 11 => frameDrop b 11 (stallCount j.stall 0xD8 1 s)
        | some k => frameDrop b k s
        | none => runFrame f j pn fs s

/-- Order of R241: pair, sub-port, direction; arrival order keeps within. -/
def frameRank (f : RxFrame) : Nat := ilBlock f.pair f.sub f.outbound

/-- The next frame to hand off in this stride: its place in the list and the frame. -/
def nextFrame (s : State) : Option RxFrame :=
  (s.il.rx.filter (fun f => f.at_ < s.tick)).foldl (fun (a : Option RxFrame) f =>
    match a with
    | none => some f
    | some g => if frameRank f < frameRank g then some f else a) none

/-- FRAME_HANDOFF: the next frame of the stride gets its verdict. -/
def execFrameHandoff (faults : List HwFault) (s : State) : Host.Outcome State Fault Refusal :=
  match nextFrame s with
  | none => .next s
  | some f => .next (judgeFrame f faults { s with il := { s.il with rx := s.il.rx.erase f } })

/-- FRAME_EGRESS: the head of an egress queue leaves, or is dropped as TAIL where the link is down (R242, R243); a
halted sub-port and a disabled pair send nothing. -/
def execFrameEgress (pair sub : Nat) (outbound : Bool) (s : State) : Host.Outcome State Fault Refusal :=
  let b := ilBlock pair sub outbound
  match Tab.get [] s.il.egress b with
  | [] => .next s
  | f :: fs =>
    if s.tick < f.ready || !portLive s pair sub || Tab.get 0 s.il.halted (ilBlock pair sub (!outbound)) != 0 then .next s
    else
      let was := bufFill s pair outbound
      let s1 := { s with il := { s.il with egress := Tab.set [] s.il.egress b fs } }
      let s2 := if egressUp s pair sub outbound then
          ilCount b 18 (ilCount b (if f.guarded then 16 else 3)
            { s1 with il := { s1.il with sent := Tab.upd [] s1.il.sent b (fun l => l ++ [f.bytes]) } })
        else ilTail b s1
      .next (bufMoved pair outbound was s2)

/-- Frames present are lost at a SHED boundary, counted FENCED (R407); a direction buffer that falls below XON so sends quanta 0
(R243). -/
def shedFrames (s : State) : State :=
  let s1 := s.il.rx.foldl (fun st f => ilCount (ilBlock f.pair f.sub f.outbound) 14 st) s
  let s2 := s1.il.egress.foldl (fun st e => e.2.foldl (fun a _ => ilCount e.1 14 a) st) s1
  let s3 := { s2 with il := { s2.il with rx := [], egress := [] } }
  (List.range 8).foldl (fun st d => bufMoved (d / 2) (d % 2 == 1) (bufFill s (d / 2) (d % 2 == 1)) st) s3

end Sys2Proof.Machine
end

