-- ==== Sys2Proof/Machine/Cvu.lean ====
section
/-! DEFINITION. Check-value units (R348–R362): CONFIG, RESET, READ, scans, ownership and mismatches. -/

namespace Sys2Proof.Machine

/-- One unit's record. -/
def getCv (s : State) (u : Nat) : CvRec := Tab.get CvRec.reset s.cv.units u
/-- Change a unit's record. -/
def updCv (u : Nat) (f : CvRec → CvRec) (s : State) : State :=
  { s with cv := { s.cv with units := Tab.upd CvRec.reset s.cv.units u f } }
/-- The parameter set of a unit (R348). -/
def CvRec.params (r : CvRec) : CrcParams :=
  { w := r.w, poly := r.poly, init := r.init, refin := r.refin, refout := r.refout, xorout := r.xorout }
/-- Load a parameter set and set the accumulator. -/
def CvRec.load (r : CvRec) (p : CrcParams) (acc : Nat) : CvRec :=
  { r with w := p.w, poly := p.poly, init := p.init, refin := p.refin, refout := p.refout, xorout := p.xorout, acc := acc, lost := false }

/-- CV_OWN.VALID. -/
def CvRec.valid (r : CvRec) : Bool := r.own.getLsbD 0
/-- CV_OWN.PADDOCK. -/
def CvRec.owner (r : CvRec) : Nat := natBits r.own.toNat 8 8

/-- A unit rein that names a CVU, whoever owns it: its unit number (R279, R354). -/
def cvUnitOf (k : Rein) : Option Nat := if k.kind = 3 ∧ natBits k.base 8 8 = 0x0C ∧ k.base % 256 < 16 then some (k.base % 256) else none

/-- The refusals of R354 beside tag and generation. -/
def cvRefused (s : State) (k : Rein) : Bool :=
  match cvUnitOf k with
  | none => true
  | some u => (getCv s u).owner != k.pad || !(getCv s u).valid || !isActive s 3 u || !natBit k.perm 1

/-- Feed bytes into a unit's accumulator (R355). -/
def cvFeed (u : Nat) (bs : List Byte) (s : State) : State :=
  updCv u (fun r => { r with acc := crcFeedAll r.params r.acc bs }) s

/-- A scan runs on the unit. -/
def cvBusy (s : State) (u : Nat) : Bool := s.cv.jobs.any (fun j => j.unit == u)

/-! ### Requests (R357, R360) -/

def vOp (b : List Byte) : Nat := byteAt b 0
def vFlags (b : List Byte) : Nat := byteAt b 2
def vFold (b : List Byte) : Nat := natBits (vFlags b) 2 2
def vClen (b : List Byte) : Nat := byteAt b 3
def vLen (b : List Byte) : Nat := field b 4 4
def vAddr (b : List Byte) : Nat := field b 8 8
def vSeq (b : List Byte) : Nat := field b 0x10 8

/-- The fold value a RESET or scan feeds (R349). -/
def vFoldValue (b : List Byte) : Option Nat := match vFold b with | 1 => some (vAddr b) | 2 => some (vSeq b) | _ => none

/-- The preset or custom parameters of a CONFIG, or none where they break R357. -/
def vParams (b : List Byte) : Option CrcParams :=
  match byteAt b 1 with
  | 0 =>
    let w := byteAt b 0x30
    let p : CrcParams := { w := w, poly := field b 0x18 8, init := field b 0x20 8, refin := natBit (vFlags b) 0,
                           refout := natBit (vFlags b) 1, xorout := field b 0x28 8 }
    if 8 ≤ w ∧ w ≤ 64 ∧ p.poly < 2 ^ w ∧ p.init < 2 ^ w ∧ p.xorout < 2 ^ w then some p else none
  | 1 => some crc32c
  | 2 => some crc64
  | 3 => some crc12
  | _ => none

/-- MALFORMED of R360; `w` is the width that bounds CLEN. -/
def cvBad (b : List Byte) (w : Nat) : Bool :=
  let op := vOp b
  op == 0 || 5 < op || natBits (vFlags b) 5 3 != 0 || !zeroSpan b 0x31 15 ||
    (op == 1 && (vParams b).isNone) || ((op == 2 || 4 ≤ op) && vFold b == 3) ||
    (4 ≤ op && (vClen b == 0 || ceilDiv w 8 < vClen b || 0x1000000 < vLen b || (op == 5 && vLen b < vClen b)))

/-- The 16-byte result of R359. -/
def cvResult (status unit slices outlen value : Nat) : List Byte :=
  [BitVec.ofNat 8 status, BitVec.ofNat 8 unit] ++ natToLE 2 slices ++ natToLE 4 outlen ++ natToLE 8 value

/-- Queue a result for a completion stride. -/
def cvPend (r : Req) (due status unit slices outlen value : Nat) (s : State) : State :=
  { s with cv := { s.cv with pend := s.cv.pend ++ [{ req := r, due := due, status := status, result := cvResult status unit slices outlen value }] } }

/-- A GO: BODY and UNIT are sampled with the paddock and level of R507; a READ takes the accumulator now. -/
def cvGo (c : Nat) (s : State) : State :=
  let w := Tab.get Win.reset s.cv.wins c
  if w.busy then s
  else
    let v := match cvUnitOf w.key with
      | some u => if (getCv s u).lost then none else some (crcResult (getCv s u).params (getCv s u).acc)
      | none => none
    { s with cv := { s.cv with
      wins := Tab.set Win.reset s.cv.wins c { w with busy := true, done := false },
      gos := s.cv.gos ++ [{ req := sampleReq s c 0, core := c, body := wordsBytes w.body 8, unit := w.key, value := v }] } }

/-- DENIED of R360: the unit rein is untagged, stale, sealed, not the request's paddock's, or refused. -/
def cvDenied (s : State) (r : Req) (k : Rein) : Bool :=
  !k.tag || !k.genOk s || k.isSealed || k.isWarden || k.pad != r.paddock || cvRefused s k

/-- One request of the stride, judged in ascending core number; `taken` are the units an earlier request acts on. -/
def cvServe (g : CvGo) (taken : List Nat) (s : State) : List Nat × State :=
  let u := (cvUnitOf g.unit).getD 0xFF
  let op := vOp g.body
  let due := s.tick + 1
  let rec_ := getCv s u
  if cvBad g.body (if u = 0xFF then 64 else rec_.w) then (taken, cvPend g.req due stMalformed u 0 0 0 s)
  else if cvDenied s g.req g.unit then (taken, cvPend g.req due stDenied u 0 0 0 s)
  else if op = 3 then
    (taken, match g.value with
      | some v => cvPend g.req due stOK u 0 0 v s
      | none => cvPend g.req due stUnitFenced u 0 0 0 s)
  else if cvBusy s u || taken.contains u then (taken, cvPend g.req due stBusyRetry u 0 0 0 s)
  else if op = 1 then
    (u :: taken, cvPend g.req due stOK u 0 0 0 (match vParams g.body with
      | some p => updCv u (fun r => r.load p p.init) s
      | none => s))
  else if op = 2 then
    let p := rec_.params
    let acc := match vFoldValue g.body with | some v => crcFeedAll p p.init (natToLE 8 v) | none => p.init
    (u :: taken, cvPend g.req due stOK u 0 0 0 (updCv u (fun r => { r with acc := acc, lost := false }) s))
  else
    let p := rec_.params
    let acc := match vFoldValue g.body with | some v => crcFeedAll p p.init (natToLE 8 v) | none => p.init
    (u :: taken, { s with cv := { s.cv with jobs := s.cv.jobs ++
      [{ req := g.req, unit := u, par := rec_, body := g.body, slices := max 1 (ceilDiv (vLen g.body) 15360), done := 0, admTick := s.tick,
         acc := acc, bad := false, cut := false }] } })

/-- The requests of the stride that ends, unless a SHED holds them (R360 row 3, R408). -/
def cvRequests (s : State) : State :=
  if s.shedding then s
  else
    let order := (List.range 26).flatMap (fun c => s.cv.gos.filter (fun g => g.core == c))
    (order.foldl (fun (st : List Nat × State) g => cvServe g st.1 st.2) ([], { s with cv := { s.cv with gos := [] } })).2

/-! ### Scans (R357, R358) -/

/-- The data bytes of a scan: LEN, less CLEN for SCAN_CHECK. -/
def vData (b : List Byte) : Nat := if vOp b = 5 then vLen b - vClen b else vLen b

/-- The check value bytes as stored (R350). -/
def vStored (b : List Byte) (r : Nat) : List Byte :=
  if natBit (vFlags b) 4 then natToBE (vClen b) r else natToLE (vClen b) r

/-- The scan engine's access (R307). -/
def scanAccess (r : Req) : Access := { unit := 40, paddock := r.paddock, cls := b2n r.warden }

/-- A read by the scan engine: the bytes, a refused part as zeros (R312), and whether a part was refused or uncorrectable. -/
def scanRead (r : Req) (a n : Nat) (s : State) : (List Byte × Bool) × State :=
  if n = 0 then (([], false), s)
  else
    let b := busRead s (scanAccess r) a n
    ((b.data, b.refused.isSome || b.ecc), noteRead (scanAccess r) a b s)

/-- End a scan in the next stride. -/
def scanEnd (j : CvJob) (status outlen value due : Nat) (s : State) : State :=
  let s1 := { s with cv := { s.cv with jobs := s.cv.jobs.filter (fun x => x.unit != j.unit) } }
  let s2 := setEventIf (status == stMediaError) 12 3 (setEventIf (status == stCheckFail) 12 0 s1)
  cvPend j.req due status j.unit j.slices (if status = stOK then outlen else 0) (if status = stOK then value else 0) s2

/-- The last slice: compare, or write the check value; its permitted parts are written even where the scan ends MEDIA_ERROR
(R360 row 6, log 173). -/
def scanFinal (j : CvJob) (s : State) : State :=
  let b := j.body
  let r := crcResult j.par.params j.acc
  let due := s.tick + 1
  if vOp b = 4 then
    let w := busWrite s (scanAccess j.req) (vAddr b + vLen b) (vStored b r)
    if j.bad || w.refused.isSome || w.ecc then scanEnd j stMediaError 0 0 due w.st
    else scanEnd j stOK (vClen b) r due w.st
  else
    let (e, s1) := scanRead j.req (vAddr b + vData b) (vClen b) s
    if j.bad || e.2 then scanEnd j stMediaError 0 0 due s1
    else if e.1 = vStored b r then scanEnd j stOK (vData b) 0 due s1 else scanEnd j stCheckFail 0 0 due s1

/-- One slice of a scan: 15,360 bytes. -/
def scanSlice (j : CvJob) (s : State) : State :=
  let off := j.done * 15360
  let n := min 15360 (vData j.body - off)
  let (d, s1) := scanRead j.req (vAddr j.body + off) n s
  let j1 := { j with done := j.done + 1, acc := crcFeedAll j.par.params j.acc d.1, bad := j.bad || d.2 }
  if j1.done = j1.slices then scanFinal j1 s1
  else { s1 with cv := { s1.cv with jobs := s1.cv.jobs.map (fun x => if x.unit = j.unit then j1 else x) } }

/-- A unit's two datapaths disagree, or it overran: it is fenced, its scan ends and its accumulator is lost (R361). -/
def cvFence (u reason : Nat) (s : State) : State :=
  if !isActive s 3 u then s
  else
    let s1 := if reason = 1 then itemAdd (0x1150 + u) 1 (setEvent 12 1 s) else s
    let s2 := setEvent 12 2 (fenceUnit 3 u reason (getCv s u).owner (updCv u (fun r => { r with lost := true, acc := 0 }) s1))
    match s2.cv.jobs.find? (fun j => j.unit == u) with
    | some j => scanEnd j stUnitFenced 0 0 (s.tick + 1) s2
    | none => s2

/-- The pool's work of the stride that ends: mismatches and overruns, scan slices, then the stride's requests. -/
def cvSlices (fs : List HwFault) (s : State) : State :=
  let s1 := fs.foldl (fun st f => match f with | .cvuMismatch u => if u < 16 then cvFence u 1 st else st | _ => st) s
  let s2 := s1.us.overruns.foldl (fun st o => if o.1 = 3 ∧ o.2 < 16 then cvFence o.2 2 st else st) s1
  let s3 := (s2.cv.jobs.filter (fun j => j.admTick < s2.tick)).foldl (fun st j => scanSlice j st) s2
  cvRequests s3

/-- Mark the scans that satisfy a test to end ABORTED at the next boundary (R358). -/
def cutCv (test : CvJob → Bool) (s : State) : State :=
  { s with cv := { s.cv with jobs := s.cv.jobs.map (fun j => if test j then { j with cut := true } else j) } }

/-- Scans that a cut ends at this boundary. -/
def cvCuts (s : State) : State :=
  (s.cv.jobs.filter (fun j => j.cut)).foldl (fun st j => scanEnd j stAborted 0 0 st.tick st) s

/-- A write of CV_OWN (R353). -/
def writeCvOwn (u : Nat) (mask val : W64) (s : State) : State :=
  let s1 := updCv u (fun r => ({ r with own := rw32 r.own mask val 0xFF01 }).load crc32c 0) s
  cutCv (fun j => j.unit == u) s1

/-- CV_OWN_WRITE by core `c`: Warden level only (R362). -/
def execCvOwnWrite (c u : Nat) (v : W32) (s : State) : Host.Outcome State Fault Refusal :=
  if u < 16 && wardenMay s c (0x100C00100 + 4 * u) then .next (writeCvOwn u 0xFFFFFFFF (v.setWidth 64) s) else .next s

/-- A GO of a window whose BODY names operation `op`. -/
def cvGoIf (op c : Nat) (s : State) : State :=
  if c < 26 && vOp (wordsBytes (Tab.get Win.reset s.cv.wins c).body 8) == op then cvGo c s else s

def execCvuConfig (c : Nat) (s : State) : Host.Outcome State Fault Refusal := .next (cvGoIf 1 c s)
def execCvuReset (c : Nat) (s : State) : Host.Outcome State Fault Refusal := .next (cvGoIf 2 c s)
def execScanGen (c : Nat) (s : State) : Host.Outcome State Fault Refusal := .next (cvGoIf 4 c s)
def execScanCheck (c : Nat) (s : State) : Host.Outcome State Fault Refusal := .next (cvGoIf 5 c s)

/-- CVU_READ: the GO of a READ; `mismatch` says that the two copies of the value disagree as it is formed (R361). -/
def execCvuRead (c : Nat) (mismatch : Bool) (s : State) : Host.Outcome State Fault Refusal :=
  let u := cvUnitOf (Tab.get Win.reset s.cv.wins c).key
  .next (cvGoIf 3 c (if mismatch then (match u with | some n => cvFence n 1 s | none => s) else s))

/-- CVU_REQUEST_COMPLETE: a window's result is written in its completion stride or later (R358). -/
def execCvuRequestComplete (c : Nat) (s : State) : Host.Outcome State Fault Refusal :=
  match s.cv.pend.find? (fun p => decide (p.req.src = .win c 0)) with
  | none => .next s
  | some p =>
    if s.tick < p.due then .next s
    else
      let s1 := { s with cv := { s.cv with
        pend := s.cv.pend.filter (fun x => decide (x.req.src ≠ .win c 0)),
        wins := Tab.upd Win.reset s.cv.wins c (fun x => x.finish p.result) } }
      .next (if p.status = stUnitFenced then noteLostJob s1 else s1)

end Sys2Proof.Machine
end

