-- ==== Sys2Proof/Machine/Cards.lean ====
section
/-! DEFINITION. Saddlebag slots, contact interfaces and their exchange windows (R363–R381). -/

namespace Sys2Proof.Machine

/-! ### Slots and windows -/

/-- One saddlebag slot. -/
def getMc (s : State) (n : Nat) : McSlot := Tab.get McSlot.reset s.cd.mc n
/-- Change a saddlebag slot. -/
def updMc (n : Nat) (f : McSlot → McSlot) (s : State) : State := { s with cd := { s.cd with mc := Tab.upd McSlot.reset s.cd.mc n f } }
/-- One contact interface. -/
def getSc (s : State) (n : Nat) : ScSlot := Tab.get ScSlot.reset s.cd.sc n
/-- Change a contact interface. -/
def updSc (n : Nat) (f : ScSlot → ScSlot) (s : State) : State := { s with cd := { s.cd with sc := Tab.upd ScSlot.reset s.cd.sc n f } }
/-- One exchange window, by SLOT code. -/
def getEx (s : State) (k : Nat) : ExWin := Tab.get ExWin.reset s.cd.wins k
/-- Change an exchange window. -/
def updEx (k : Nat) (f : ExWin → ExWin) (s : State) : State := { s with cd := { s.cd with wins := Tab.upd ExWin.reset s.cd.wins k f } }

/-- DET shows present under DETPOL (R366, R376). -/
def McSlot.present (m : McSlot) : Bool := m.det == m.cfg.getLsbD 7
/-- The same for a contact interface. -/
def ScSlot.present (m : ScSlot) : Bool := m.det == m.cfg.getLsbD 7
/-- The slot is enabled. -/
def McSlot.en (m : McSlot) : Bool := m.cfg.getLsbD 0
/-- The interface is enabled. -/
def ScSlot.en (m : ScSlot) : Bool := m.cfg.getLsbD 0

/-- The object a SLOT code stands for (R148). -/
def exObject (k : Nat) : Obj := if k = 0x20 then .iface 4 else if 0x10 ≤ k then .card (k - 0x10) else .iface k

/-- A Cinch that holds the object of a SLOT code (R364): 0 none, 1 one that lives, 2 an INDOUBT one. -/
def exHolder (s : State) (k : Nat) : Nat :=
  let hs := s.cn.slots.filter (fun p => p.2.holds && p.2.actions.any (fun a => (a.objects p.2.paddock).any (fun x => x.1 == exObject k)))
  if hs.any (fun p => p.2.st == 5) then 2 else if hs.isEmpty then 0 else 1

/-- Raise an interrupt source on every core: the spec names none (log). -/
def setPendAll (i : Nat) (s : State) : State := (List.range 26).foldl (fun st c => setPend c i st) s

/-- The class-WARDEN access of the lookaside engine that serves the monitor (R378). -/
def monitorAccess : Access := { unit := 34 + Config.dmaEngine 26 % 4, paddock := 0, cls := 1 }

def xOp (b : List Byte) : Nat := byteAt b 0
def xLen (b : List Byte) : Nat := field b 2 2
def xCount (b : List Byte) : Nat := field b 4 4
def xLba (b : List Byte) : Nat := field b 8 8
def xAddr (b : List Byte) : Nat := field b 0x10 8

/-- MALFORMED of R380 and R393. -/
def exBad (k : Nat) (b : List Byte) : Bool :=
  let op := xOp b
  if k = 0x20 then
    op < 0x21 || 0x24 < op || !zeroSpan b 0x0E 18 || (op == 0x22 && !([4, 7, 10].contains (byteAt b 1))) ||
      (op == 0x23 && (xLen b < 4 || 261 < xLen b))
  else
    !zeroSpan b 1 1 || !zeroSpan b 0x1D 3 ||
      (if 0x10 ≤ k then op == 0 || 5 < op || (op ≤ 2 && (xCount b == 0 || 32768 < xCount b))
       else op < 0x11 || 0x13 < op || (op == 0x12 && (xLen b < 4 || 261 < xLen b)))

/-- CARD_ABSENT at GO (R380). -/
def exAbsent (s : State) (k : Nat) : Bool :=
  if k = 0x20 then false else if 0x10 ≤ k then !(getMc s (k - 0x10)).ready else !(getSc s k).inserted

/-- The tack of a KEYPROG (R369, R378): ALGO 0x08 of its paddock, with the keep key present. -/
def keyprogTack (s : State) (b : List Byte) : Option Tack :=
  if s.keepPresent then (liveTack s (byteAt b 0x1C) (field b 0x18 4)).filter (fun t => t.algo == 8) else none

/-- DENIED at GO (R380, R393). -/
def exDenied (s : State) (k : Nat) (b : List Byte) : Bool :=
  let op := xOp b
  if k = 0x20 then !s.nf.cfg.getLsbD 0 || (0x23 ≤ op && s.nf.active.isNone)
  else if 0x10 ≤ k then
    let m := getMc s (k - 0x10)
    !m.en || (op ≤ 2 && m.secCount < xLba b + xCount b) || (op == 5 && (keyprogTack s b).isNone)
  else
    let m := getSc s k
    let cls := natBits m.cfg.toNat 1 2
    !m.en || (op == 0x11 && cls != 1 && cls != 2) || (0x12 ≤ op && !m.active)

/-- Status of R380 and R393 that a GO gives at once; 0 where the exchange runs. -/
def exRefusal (s : State) (k : Nat) (b : List Byte) : Nat :=
  firstStatus [(exBad k b, stMalformed), (exAbsent s k, stCardAbsent), (exDenied s k b, stDenied),
    (exHolder s k == 1, stCinchConflict), (exHolder s k == 2, stCinchIndoubt)]

/-! ### RPMB frames (R365, R368, R371) -/

/-- An RPMB frame as JEDEC eMMC 5.1 lays it out: stuff bytes, key or MAC, data, nonce, write counter, address, block count, result,
request or response type; its fields are big-endian. -/
def rpmbFrame (mac data nonce : List Byte) (counter addr count result typ : Nat) : List Byte :=
  zeros 196 ++ takePad 32 mac ++ takePad 256 data ++ takePad 16 nonce ++ natToBE 4 counter ++ natToBE 2 addr ++ natToBE 2 count ++
    natToBE 2 result ++ natToBE 2 typ

/-- Bytes 228 to 511, which the MAC covers. -/
def rpmbBody (f : List Byte) : List Byte := f.drop 228
/-- The MAC of a frame under a key. -/
def rpmbMac (key f : List Byte) : List Byte := takePad 32 (hmac256 key (rpmbBody f))
/-- Data of a frame. -/
def rpmbData (f : List Byte) : List Byte := (f.drop 228).take 256
/-- Write counter of a frame. -/
def rpmbCount (f : List Byte) : Nat := beToNat ((f.drop 500).take 4)
/-- Result of a frame. -/
def rpmbResult (f : List Byte) : Nat := beToNat ((f.drop 508).take 2)

/-- An authenticated write (request 0x0003) of 256 bytes with its MAC, block count 1. -/
def rpmbWrite (mac data : List Byte) (counter addr : Nat) : List Byte := rpmbFrame mac data (zeros 16) counter addr 1 0 3

/-- A frame goes to the card of a slot. -/
def sendRpmb (n : Nat) (f : List Byte) (s : State) : State := { s with cd := { s.cd with toRpmb := s.cd.toRpmb ++ [(n, f)] } }

/-- A read request of a type goes to the card of a slot with a fresh nonce (R368). -/
def rpmbAsk (n typ addr : Nat) (s : State) : List Byte × State :=
  let (nonce, s1) := drawBytes 16 s
  (nonce, sendRpmb n (rpmbFrame [] [] nonce 0 addr 0 0 typ) s1)

/-- What a response is worth: 0 where it is believed, 3 where its nonce or, under a known key, its MAC does not match, otherwise what
became of the exchange (R368). -/
def rpmbFinding (key nonce : Option (List Byte)) (kind : Nat) (f : List Byte) : Nat :=
  if kind ≠ 0 then kind
  else if nonce.any (fun n => n != (f.drop 484).take 16) || key.any (fun k => rpmbMac k f != (f.drop 196).take 32) then 3
  else 0

/-- A response's effect on its slot: RPMB_MAC, and an expired write counter (R368). -/
def noteRpmb (n kind : Nat) (f : List Byte) (s : State) : State :=
  let s1 := setEventIf (kind == 3) 13 9 s
  if 0x80 ≤ rpmbResult f ∧ kind = 0 then updMc n (fun m => { m with expired := true }) s1 else s1

/-- The key of a CARD_RPMB action, where the action names a tack (R142, log 174). -/
def cardKey (s : State) (a : Action) : Option (List Byte) := if a.tack = 0 then none else (tackRec s a.tack).map (fun t => tackMaterial s t)

/-- The write of a CARD_RPMB action goes to its card. -/
def sendCardWrite (a : Action) (s : State) : State :=
  let f := rpmbWrite [] a.data a.wstaged (a.arg % 65536)
  match cardKey s a with
  | some k => sendRpmb a.obj (rpmbWrite (rpmbMac k f) a.data a.wstaged (a.arg % 65536)) s
  | none =>
    let (m, s1) := drawBytes 32 s
    sendRpmb a.obj (rpmbWrite m a.data a.wstaged (a.arg % 65536)) s1

/-- The RPMB request of a window's operation, with its nonce: the counter, or the half-sector (R378). -/
def exAsk (k : Nat) (b : List Byte) (s : State) : List Byte × State :=
  if 0x10 ≤ k ∧ k < 0x12 ∧ 3 ≤ xOp b then
    (if xOp b = 4 then rpmbAsk (k - 0x10) 4 (xLba b % 65536) s else rpmbAsk (k - 0x10) 2 0 s)
  else ([], s)

/-- A GO: BODY and DATA are sampled (R377). -/
def exGo (k : Nat) (s : State) : State :=
  let w := getEx s k
  if w.win.busy then updEx k (fun w => { w with win := { w.win with busyWr := true } }) s
  else
    let b := wordsBytes w.win.body 4
    let st := exRefusal s k b
    let (nonce, s) := if st = stOK then exAsk k b s else ([], s)
    let run : ExRun := { body := b, data := wordsBytes w.data 96, nonce := nonce,
                         ended := if st = stOK then none else some { status := st, sw := 0, outlen := 0, value := 0, data := none } }
    let s1 := updEx k (fun w => { w with win := { w.win with busy := true, done := false }, run := some run }) s
    if k = 0x20 ∧ st = stOK ∧ !s.nf.resetting then { s1 with nf := { s1.nf with carrier := true } } else s1

/-- Write an exchange's result (R379). -/
def exFinish (k : Nat) (e : ExEnd) (s : State) : State :=
  let bytes := [BitVec.ofNat 8 e.status, BitVec.ofNat 8 k, BitVec.ofNat 8 (e.sw / 256), BitVec.ofNat 8 e.sw] ++
    natToLE 4 e.outlen ++ natToLE 8 e.value
  let ie := (getEx s k).win.ie
  let s1 := updEx k (fun w => { w with
    win := w.win.finish bytes, run := none,
    data := match e.data with | some d => bytesWords (takePad 768 d) | none => w.data }) s
  if ie then setPendAll (if k = 0x20 then 7 else 6) s1 else s1

/-- Write a result; after CARD_ABSENT or MEDIA_ERROR the DATA it leaves is undefined (R380). -/
def exDone (k : Nat) (e : ExEnd) (s : State) : State :=
  if (e.status = stMediaError ∨ e.status = stCardAbsent) ∧ e.data = none then
    (let y := drawBytes 768 s
     exFinish k { e with data := some y.1 } y.2)
  else exFinish k e s

/-- An exchange that ends before its completion is written; its target and DATA are then undefined (R380). -/
def exEnd (k status : Nat) (s : State) : State :=
  match (getEx s k).run with
  | some r =>
    if r.ended.isSome then s
    else
      let (d, s1) := drawBytes 768 s
      updEx k (fun w => { w with run := some { r with ended := some { status := status, sw := 0, outlen := 0, value := 0, data := some d } } }) s1
  | none => s

/-- A plain failure of an exchange. -/
def exFail (status : Nat) : ExEnd := { status := status, sw := 0, outlen := 0, value := 0, data := none }

/-- GO of a window whose BODY names operation `op`. -/
def exGoIf (op k : Nat) (s : State) : State := if xOp (wordsBytes (getEx s k).win.body 4) == op then exGo k s else s

def execMcRead (n : Nat) (s : State) : Host.Outcome State Fault Refusal := .next (if n < 2 then exGoIf 0x01 (0x10 + n) s else s)
def execMcWrite (n : Nat) (s : State) : Host.Outcome State Fault Refusal := .next (if n < 2 then exGoIf 0x02 (0x10 + n) s else s)
def execRpmbCounter (n : Nat) (s : State) : Host.Outcome State Fault Refusal := .next (if n < 2 then exGoIf 0x03 (0x10 + n) s else s)
def execRpmbRead (n : Nat) (s : State) : Host.Outcome State Fault Refusal := .next (if n < 2 then exGoIf 0x04 (0x10 + n) s else s)
def execRpmbKeyprog (n : Nat) (s : State) : Host.Outcome State Fault Refusal := .next (if n < 2 then exGoIf 0x05 (0x10 + n) s else s)
def execScActivate (n : Nat) (s : State) : Host.Outcome State Fault Refusal := .next (if n < 4 then exGoIf 0x11 n s else s)
def execScApdu (n : Nat) (s : State) : Host.Outcome State Fault Refusal := .next (if n < 4 then exGoIf 0x12 n s else s)
def execScDeactivate (n : Nat) (s : State) : Host.Outcome State Fault Refusal := .next (if n < 4 then exGoIf 0x13 n s else s)

/-! ### Saddlebag cards (R366–R372) -/

/-- MC_DETECT_CHANGE: MCn_DET changes level. -/
def execMcDetectChange (n : Nat) (level : Bool) (s : State) : Host.Outcome State Fault Refusal :=
  if n < 2 ∧ (getMc s n).det ≠ level then .next (updMc n (fun m => { m with det := level, since := s.tick }) s) else .next s

/-- MC_INSERT: 10,000 strides of presence power the slot, and initialisation starts. -/
def execMcInsert (n : Nat) (s : State) : Host.Outcome State Fault Refusal :=
  let m := getMc s n
  if n < 2 && m.present && m.en && !m.powered && !m.rejected && decide (m.since + 10000 ≤ s.tick) then
    .next (updMc n (fun m => { m with powered := true }) s)
  else .next s

/-- The mode in use: the highest that CD_MCCFG and the card allow, HS200 at 4 or 8 bits only. -/
def mcMode (cfg : W32) (c : CardInfo) : Nat × Nat :=
  let w := min (min 2 (natBits cfg.toNat 1 2)) (min 2 c.width)
  let m := min (min 2 (natBits cfg.toNat 3 2)) (min 2 c.mode)
  (w, if m = 2 ∧ w = 0 then 1 else m)

/-- MC_INIT_COMPLETE: the card becomes READY, or is rejected (R366). -/
def execMcInitComplete (n : Nat) (c : CardInfo) (s : State) : Host.Outcome State Fault Refusal :=
  let m := getMc s n
  if n < 2 && m.powered && !m.ready then
    if c.byteMode || c.rpmb == 0 || !c.answered then
      .next (setEvent 13 2 (updMc n (fun m => { m with powered := false, rejected := true }) s))
    else
      let (w, md) := mcMode m.cfg c
      .next (itemAdd (0x1178 + n) 1 (setEvent 13 0 (updMc n (fun m => { m with
        ready := true, expired := false, cid := takePad 16 c.cid, secCount := c.secCount % 2 ^ 32, rpmb := c.rpmb % 256,
        width := w, mode := md }) s)))
  else .next s

/-- The slot with no card in it. -/
def McSlot.empty (m : McSlot) : McSlot :=
  { m with powered := false, ready := false, rejected := false, expired := false, cid := [], secCount := 0, rpmb := 0, width := 0, mode := 0 }

/-- MC_REMOVE: at the first boundary at which DET shows absent (R366). -/
def execMcRemove (n : Nat) (s : State) : Host.Outcome State Fault Refusal :=
  let m := getMc s n
  if n < 2 && !m.present && (m.powered || m.rejected) && decide (m.since < s.tick) then
    let s1 := updMc n McSlot.empty (exEnd (0x10 + n) stCardAbsent s)
    .next (setEventIf m.powered 13 1 s1)
  else .next s

/-! ### Contact cards (R373–R376) -/

/-- Deactivate an interface. -/
def scOff (n : Nat) (s : State) : State := updSc n (fun m => { m with active := false, atr := [], fi := 1, di := 1, proto := 0 }) s

/-- SC_INSERT: SCn_DET has held present through its debounce. -/
def execScInsert (n : Nat) (s : State) : Host.Outcome State Fault Refusal :=
  let m := getSc s n
  if n < 4 && m.en && !m.inserted then
    .next (itemAdd (0x117A + n) 1 (setEvent 13 4 (updSc n (fun m => { m with inserted := true, det := m.cfg.getLsbD 7 }) s)))
  else .next s

/-- SC_REMOVE: the interface deactivates within one stride (R376). -/
def execScRemove (n : Nat) (s : State) : Host.Outcome State Fault Refusal :=
  let m := getSc s n
  if n < 4 && m.inserted then
    .next (setEvent 13 5 (scOff n (updSc n (fun m => { m with inserted := false, det := !m.cfg.getLsbD 7 }) (exEnd n stCardAbsent s))))
  else .next s

/-- Interface bytes of an ATR after T0: TA, TB, TC, TD of each group as Y says (ISO/IEC 7816-3): the offset of the
historical bytes, the first TD. -/
def atrWalk (atr : List Byte) : Nat → Nat → Nat → Nat
  | 0, off, _ => off
  | fuel + 1, off, y =>
    let n := b2n (natBit y 0) + b2n (natBit y 1) + b2n (natBit y 2)
    if natBit y 3 then atrWalk atr fuel (off + n + 1) (byteAt atr (off + n) / 16) else off + n

/-- Historical bytes of an ATR. -/
def atrHistory (atr : List Byte) : List Byte :=
  (atr.drop (atrWalk atr 32 2 (byteAt atr 1 / 16))).take (byteAt atr 1 % 16)

/-- The T values that the TD bytes of an ATR give. -/
def atrTs (atr : List Byte) : Nat → Nat → Nat → List Nat
  | 0, _, _ => []
  | fuel + 1, off, y =>
    let n := b2n (natBit y 0) + b2n (natBit y 1) + b2n (natBit y 2)
    if natBit y 3 then
      let td := byteAt atr (off + n)
      (td % 16) :: atrTs atr fuel (off + n + 1) (td / 16)
    else []

/-- An ATR passes: its TS, its length, and TCK where a protocol other than T=0 is offered (R374). -/
def atrOk (atr : List Byte) : Bool :=
  let y := byteAt atr 1 / 16
  let tck := (atrTs atr 32 2 y).any (· != 0)
  (byteAt atr 0 == 0x3B || byteAt atr 0 == 0x3F) && atr.length == atrWalk atr 32 2 y + byteAt atr 1 % 16 + b2n tck &&
    (!tck || (atr.drop 1).foldl (· ^^^ ·) 0 == 0)

/-- Classes that the first TA after T=15 indicates; without one the card is class A only (R374). -/
def atrClasses (atr : List Byte) : Nat → Nat → Nat → Bool → Nat
  | 0, _, _, _ => 1
  | fuel + 1, off, y, t15 =>
    if t15 && natBit y 0 then byteAt atr off % 64
    else
      let n := b2n (natBit y 0) + b2n (natBit y 1) + b2n (natBit y 2)
      if natBit y 3 then
        let td := byteAt atr (off + n)
        atrClasses atr fuel (off + n + 1) (td / 16) (td % 16 == 15)
      else 1

/-- An ATR puts a card in use: Fi and Di through PPS, and the protocol (R373). -/
def scOn (n : Nat) (atr : List Byte) (s : State) : State :=
  let y := byteAt atr 1 / 16
  let ta := natBit y 0
  let td := 2 + b2n ta + b2n (natBit y 1) + b2n (natBit y 2)
  updSc n (fun m => { m with
    active := true, atr := atr,
    fi := if ta && m.cfg.getLsbD 3 then byteAt atr 2 / 16 else 1,
    di := if ta && m.cfg.getLsbD 3 then byteAt atr 2 % 16 else 1,
    proto := if natBit y 3 then byteAt atr td % 2 else 0 }) s

/-- ACTIVATE ends (R374): no ATR that passes, a class mismatch, or the card is active. -/
def scActivated (n : Nat) (a : ExAnswer) (s : State) : ExEnd × State :=
  let cls := natBits (getSc s n).cfg.toNat 1 2
  if a.kind ≠ 0 ∨ !atrOk a.data then (exFail stMediaError, setEvent 13 (if a.kind = 2 then 8 else 6) (scOff n s))
  else if atrClasses a.data 32 2 (byteAt a.data 1 / 16) false &&& cls = 0 then (exFail stDenied, setEvent 13 7 (scOff n s))
  else ({ status := stOK, sw := 0, outlen := a.data.length, value := 0, data := some a.data }, scOn n a.data s)

/-! ### Completion (R379, R380) -/

/-- How an RPMB_KEYPROG ends (R369): `f` answers the counter read, and the key is sent only where it says that none is programmed; `sw`
is the result of the programming. -/
def keyprogAnswered (n : Nat) (b : List Byte) (kind sw : Nat) (f : List Byte) (s : State) : ExEnd × State :=
  if kind = 3 then (exFail stCheckFail, s)
  else if kind ≠ 0 then (exFail stMediaError, s)
  else if rpmbResult f ≠ 7 then (exFail stDenied, s)
  else
    match keyprogTack s b with
    | none => (exFail stDenied, s)
    | some t =>
      let key := tackMaterial s t
      let s1 := sendRpmb n (rpmbFrame key [] [] 0 0 0 0 1) { s with cd := { s.cd with keySent := s.cd.keySent ++ [(n, key)] } }
      (exFail (if sw = 0 then stOK else stMediaError), s1)

/-- How a saddlebag exchange ends; `a.data` is the response frame of an RPMB operation. No rule names the key of a monitor's RPMB read,
so that `a.kind` 3 says that its MAC does not match (log 174). -/
def mcAnswered (n : Nat) (r : ExRun) (a : ExAnswer) (s : State) : ExEnd × State :=
  let b := r.body
  let len := 512 * xCount b
  let kind := if 3 ≤ xOp b then rpmbFinding none (some r.nonce) a.kind a.data else a.kind
  let s0 := if 3 ≤ xOp b then noteRpmb n kind a.data s else s
  if xOp b = 5 then keyprogAnswered n b kind a.sw a.data s0
  else if kind = 3 then (exFail stCheckFail, s0)
  else if kind ≠ 0 ∨ (3 ≤ xOp b ∧ rpmbResult a.data ≠ 0) then (exFail stMediaError, s0)
  else
    match xOp b with
    | 1 =>
      let w := busWrite s0 monitorAccess (xAddr b) (takePad len a.data)
      if w.refused.isSome || w.ecc then (exFail stMediaError, w.st)
      else ({ exFail stOK with outlen := xCount b }, w.st)
    | 2 =>
      let r := busRead s0 monitorAccess (xAddr b) len
      let s1 := noteRead monitorAccess (xAddr b) r s0
      if r.refused.isSome || r.ecc then (exFail stMediaError, s1)
      else ({ exFail stOK with outlen := xCount b }, { s1 with cd := { s1.cd with toCard := s1.cd.toCard ++ [(n, xLba b, r.data)] } })
    | 3 => ({ exFail stOK with value := rpmbCount a.data }, s0)
    | _ => ({ exFail stOK with outlen := 256, data := some (takePad 256 (rpmbData a.data)) }, s0)

/-- How a contact exchange ends. -/
def scAnswered (n : Nat) (b : List Byte) (a : ExAnswer) (s : State) : ExEnd × State :=
  match xOp b with
  | 0x11 => scActivated n a s
  | 0x12 =>
    if a.kind ≠ 0 then (exFail stMediaError, if a.kind = 2 then setEvent 13 8 (scOff n s) else s)
    else ({ status := stOK, sw := a.sw % 65536, outlen := (a.data.take 256).length, value := 0, data := some (a.data.take 256) }, s)
  | _ => (exFail stOK, scOff n s)

/-- CARD_EXCHANGE_COMPLETE: the exchange of a card window ends and its result is written (R379, R380). -/
def execCardExchangeComplete (k : Nat) (a : ExAnswer) (s : State) : Host.Outcome State Fault Refusal :=
  match (getEx s k).run with
  | none => .next s
  | some r =>
    if k = 0x20 then .next s
    else
      match r.ended with
      | some e => .next (exDone k e s)
      | none =>
        let x := if 0x10 ≤ k then mcAnswered (k - 0x10) r a s else scAnswered k r.body a s
        .next (exDone k x.1 x.2)

/-! ### Registers (R381) -/

/-- CD_MCSTAT. -/
def mcStat (s : State) (n : Nat) : W64 :=
  let m := getMc s n
  let h := exHolder s (0x10 + n)
  BitVec.ofNat 64 (m.secCount * 2 ^ 32 + m.rpmb * 2 ^ 24 + m.width * 64 + m.mode * 16 + b2n (h != 0) * 8 + b2n (h == 2) * 4 +
    b2n m.ready * 2 + b2n m.present)

/-- CD_SCSTAT. -/
def scStat (s : State) (n : Nat) : W32 :=
  let m := getSc s n
  let h := exHolder s n
  BitVec.ofNat 32 (m.atr.length % 256 * 2 ^ 24 + m.fi * 2 ^ 20 + m.di * 2 ^ 16 + m.proto * 16 + b2n (h != 0) * 8 + b2n (h == 2) * 4 +
    b2n m.active * 2 + b2n m.present)

/-- Write of CD_MCCFG; a change of DETPOL starts the debounce anew. -/
def writeMcCfg (n : Nat) (mask val : W64) (s : State) : State :=
  updMc n (fun m =>
    let c := rw32 m.cfg mask val 0xFFFF009F
    { m with cfg := c, since := if c.getLsbD 7 = m.cfg.getLsbD 7 then m.since else s.tick }) s

/-- Write of CD_SCCFG. -/
def writeScCfg (n : Nat) (mask val : W64) (s : State) : State :=
  updSc n (fun m => { m with cfg := rw32 m.cfg mask val 0x03FF008F }) s

end Sys2Proof.Machine
end

