-- ==== Sys2Proof/Machine/Contactless.lean ====
section
/-! DEFINITION. The contactless front end (R382–R400): reader mode, field collapse, the exchange window, and the witness
tag on the cell. -/

namespace Sys2Proof.Machine

/-! ### Anticollision (R386) -/

/-- UID bytes of all cascade levels as they are sent, cascade tags included. -/
def uidCascade (u : List Byte) : List Byte :=
  if u.length = 4 then u
  else if u.length = 7 then 0x88 :: u.take 3 ++ u.drop 3
  else 0x88 :: u.take 3 ++ (0x88 :: (u.drop 3).take 3) ++ u.drop 6

/-- Order of enumeration: at the first collision the bit is taken as 1, bits being sent least significant first. -/
def uidRank (u : List Byte) : Nat :=
  (takePad 12 (uidCascade u)).foldl (fun a b => a * 256 + (List.range 8).foldl (fun x i => x * 2 + b2n (b.getLsbD i)) 0) 0

/-- Insert a token in the order of enumeration. -/
def insertToken (t : TokenInfo) : List TokenInfo → List TokenInfo
  | [] => [t]
  | x :: xs => if uidRank x.uid ≤ uidRank t.uid then t :: x :: xs else x :: insertToken t xs

/-- The tokens a poll enumerates of those in the field: one for each REQA, at most 8 (R385). -/
def pollTokens (s : State) (field : List TokenInfo) : List TokenInfo :=
  (field.foldr insertToken []).take (min 8 (max 1 (natBits s.nf.cfg.toNat 8 4)))

/-- BCC of four UID bytes. -/
def bcc (b : List Byte) : Byte := b.foldl (· ^^^ ·) 0

/-! ### Carrier (R384, R385, R389) -/

/-- The carrier is turned off: any active token is lost, and the 10 ms field reset begins (R384). -/
def carrierOff (s : State) : State :=
  if s.nf.carrier then
    { s with nf := { s.nf with carrier := false, active := none, rate := 0, offAt := s.tick, resetting := true } }
  else { s with nf := { s.nf with active := none, rate := 0 } }

/-- A poll's outcome: the UIDs found, TOKEN_SEEN, and COLLISION_ERR where an unresolvable collision ended it (R385, R386). -/
def pollResult (a : ExAnswer) (s : State) : State :=
  let ts := pollTokens s a.tokens
  setEventIf (a.kind == 4) 14 3 (setEventIf (!ts.isEmpty) 14 0 { s with nf := { s.nf with tokens := ts } })

/-- A part-4 token (R386). -/
def tokenPart4 (t : TokenInfo) : Bool := natBit t.sak 5 && !natBit t.sak 2

/-- The rate of PPS: the highest that MAXRATE and, in both directions, TA(1) of the ATS allow (R387). -/
def atsRate (maxRate : Nat) (ats : List Byte) : Nat :=
  let ta := if natBit (byteAt ats 1) 4 then byteAt ats 2 else 0
  let both := natBits ta 0 3 &&& natBits ta 4 3
  if natBit both 2 ∧ 3 ≤ maxRate then 3 else if natBit both 1 ∧ 2 ≤ maxRate then 2 else if natBit both 0 ∧ 1 ≤ maxRate then 1 else 0

/-- A token is activated with its ATS. -/
def tokenOn (t : TokenInfo) (ats : List Byte) (s : State) : State :=
  itemAdd 0x117E 1 { s with nf := { s.nf with active := some t.uid, rate := atsRate (natBits s.nf.cfg.toNat 2 2) ats } }

/-- FIELD_RESET_END: the carrier has been off for 10 ms; an exchange that waits turns it on (R384). -/
def execFieldResetEnd (s : State) : Host.Outcome State Fault Refusal :=
  if s.nf.resetting && decide (s.nf.offAt + 10000 ≤ s.tick) then
    .next { s with nf := { s.nf with
      resetting := false,
      carrier := (match (getEx s 0x20).run with | some r => r.ended.isNone | none => false) } }
  else .next s

/-- CS_MEASURE: the wake electrode is measured; two consecutive departures wake the reader for one poll (R385). The
baseline comes with the measurement. A wake during an exchange or a field reset runs no poll (log 175). -/
def execCsMeasure (level baseline : Nat) (field : ExAnswer) (s : State) : Host.Outcome State Fault Refusal :=
  let period := max 10 (natBits s.nf.cs.toNat 16 16) * 1000
  if s.nf.cfg.getLsbD 0 && s.nf.cfg.getLsbD 1 && !s.pm.onCell && decide (s.nf.csAt + period ≤ s.tick) then
    let off := decide (natBits s.nf.cs.toNat 0 16 < max level baseline - min level baseline)
    let n := if off then s.nf.departs + 1 else 0
    let s1 := { s with nf := { s.nf with csLevel := level % 65536, csAt := s.tick, departs := n } }
    let s2 := { s1 with nf := { s1.nf with departs := 0 } }
    if n < 2 then .next s1
    else if s.nf.resetting || s.nf.ext.isSome || (getEx s 0x20).run.isSome then .next (setEvent 14 4 s2)
    else .next (carrierOff (pollResult field (setEvent 14 4 { s2 with nf := { s2.nf with carrier := true } })))
  else .next s

/-- FIELD_COLLAPSE: the carrier goes off, the exchange is abandoned (R389). -/
def execFieldCollapse (driver : Bool) (s : State) : Host.Outcome State Fault Refusal :=
  if s.nf.carrier then .next (setEventIf driver 14 7 (setEvent 14 1 (carrierOff (exEnd 0x20 stFieldLost s)))) else .next s

/-- NF_RESPONSE_TIMEOUT: no response in time; the exchange ends and the token is no longer active (R387, R393). -/
def execNfResponseTimeout (s : State) : Host.Outcome State Fault Refusal :=
  match (getEx s 0x20).run with
  | some r => if r.ended.isNone && s.nf.carrier then .next (setEvent 14 2 (carrierOff (exEnd 0x20 stMediaError s))) else .next s
  | none => .next s

/-! ### Exchange window (R391–R393) -/

def execNfPoll (s : State) : Host.Outcome State Fault Refusal := .next (exGoIf 0x21 0x20 s)
def execNfActivate (s : State) : Host.Outcome State Fault Refusal := .next (exGoIf 0x22 0x20 s)
def execNfApdu (s : State) : Host.Outcome State Fault Refusal := .next (exGoIf 0x23 0x20 s)
def execNfDeactivate (s : State) : Host.Outcome State Fault Refusal := .next (exGoIf 0x24 0x20 s)

/-- The 16-byte entry of a token in POLL's list (R392). -/
def tokenEntry (t : TokenInfo) : List Byte :=
  [BitVec.ofNat 8 t.uid.length, BitVec.ofNat 8 t.sak] ++ natToLE 2 t.atqa ++ takePad 10 t.uid ++ [0, 0]

/-- How an exchange of interface 4 ends (R392, R393). -/
def nfAnswered (b : List Byte) (a : ExAnswer) (s : State) : ExEnd × State :=
  let failed : ExEnd × State := (exFail stMediaError, carrierOff (setEventIf (a.kind == 2) 14 2 s))
  match xOp b with
  | 0x21 =>
    let s1 := carrierOff (pollResult a s)
    if a.kind ≠ 0 then (exFail stMediaError, s1)
    else
      let d := (pollTokens s a.tokens).flatMap tokenEntry
      ({ exFail stOK with outlen := d.length, data := some d }, s1)
  | 0x22 =>
    let want := ((b.drop 4).take (byteAt b 1))
    let s1 := pollResult a s
    match (pollTokens s a.tokens).find? (fun t => t.uid == want) with
    | none => (exFail stCardAbsent, carrierOff s1)
    | some t =>
      if !tokenPart4 t then (exFail stDenied, carrierOff s1)
      else if a.kind ≠ 0 then (exFail stMediaError, carrierOff (setEventIf (a.kind == 2) 14 2 s1))
      else ({ exFail stOK with outlen := a.data.length, data := some a.data }, tokenOn t a.data s1)
  | 0x23 =>
    if a.kind ≠ 0 then failed
    else ({ status := stOK, sw := a.sw % 65536, outlen := (a.data.take 256).length, value := 0, data := some (a.data.take 256) }, s)
  | _ => (exFail stOK, carrierOff s)

/-- NF_EXCHANGE_COMPLETE: the window's exchange ends and its result is written (R393); an exchange that waits for the
field reset has not begun. -/
def execNfExchangeComplete (a : ExAnswer) (s : State) : Host.Outcome State Fault Refusal :=
  match (getEx s 0x20).run with
  | none => .next s
  | some r =>
    match r.ended with
    | some e => .next (exDone 0x20 e s)
    | none =>
      if !s.nf.carrier then .next s
      else
        let x := nfAnswered r.body a s
        .next (exDone 0x20 x.1 x.2)

/-- NF_STAT (R400). -/
def nfStat (s : State) : W32 :=
  let h := exHolder s 0x20
  BitVec.ofNat 32 (s.nf.csLevel * 65536 + s.nf.tokens.length % 16 * 256 + s.nf.rate * 16 + b2n (h == 2) * 8 + b2n (h != 0) * 4 +
    b2n s.nf.active.isSome * 2 + b2n s.nf.carrier)

/-! ### Witness tag (R394–R399) -/

/-- The backup counter's value (R35): its last copy and what it has counted since. -/
def State.cellNow (s : State) : Nat := s.time.backupValue + s.time.backupSince

/-- Day window of the backup counter. -/
def cellDay (s : State) : Nat := s.cellNow / 86400000000000

/-- The state code that the fuses give (R418, R420). -/
def lcCode (w : W64) : Nat :=
  let v := w.toNat
  if v = 0 then 0 else if v = 0xFFFF then 1 else if v = 0xFFFFFFFF then 2 else if v = 0xFFFFFFFFFFFF then 3
  else if v = 0x00FFFFFFFFFFFFFF then 4
  else if v / 2 ^ 56 = 0xFF ∧ [0, 0xFFFF, 0xFFFFFFFF, 0xFFFFFFFFFFFF, 0x00FFFFFFFFFFFFFF].contains (v % 2 ^ 56) then 5
  else 0xFF

/-- LC_STAT.STATE. -/
def State.life (s : State) : Nat := lcCode s.lc.word

/-- The witness file as it stands (R396). -/
def witnessFile (s : State) : List Byte :=
  let map := (s.tm.latches.map (fun e => if e.2.isSome then 2 ^ e.1 else 0)).sum
  let n := (s.tm.latches.filter (fun e => e.2.isSome)).length
  ([1, BitVec.ofNat 8 s.life, BitVec.ofNat 8 (b2n s.tk.keep.isSome + 2 * b2n s.tm.shedPending), BitVec.ofNat 8 n,
    BitVec.ofNat 8 s.nf.sessions, 0, 0, 0] : List Byte) ++ natToLE 8 s.lc.serial.toNat ++ takePad 7 s.nf.uid ++ zeros 1 ++
    natToLE 8 s.cellNow ++ natToLE 8 map ++ takePad 64 s.nf.sig ++ zeros 24 ++
    (List.range 64).flatMap (fun i => natToLE 8 (match Tab.get none s.tm.latches i with | some w => w.toNat | none => 0))

/-- WITNESS_WAKE: an external field wakes the witness logic, on the cell with WIT_EN and VBAT at 2.5 V or more (R394). -/
def execWitnessWake (s : State) : Host.Outcome State Fault Refusal :=
  if s.nf.witEn && s.pm.onCell && decide (2500 ≤ s.tm.vbat.toNat) then
    .next { s with nf := { s.nf with woke := true, witLevel := 0, selected := false, witOut := [] } }
  else .next s

/-- Sessions counted in the current window (R398). -/
def sessionsNow (s : State) : Nat := if s.nf.day < cellDay s then 0 else s.nf.sessions

/-- WITNESS_REQA: ATQA; the first one of a wake begins a session, unless the day's 64 are used (R398). -/
def execWitnessReqa (s : State) : Host.Outcome State Fault Refusal :=
  if !s.nf.woke then .next s
  else
    let out : List Byte := [0x44, 0x00]
    match s.nf.witStart with
    | some _ => .next { s with nf := { s.nf with witOut := out, witLevel := 1 } }
    | none =>
      if 64 ≤ sessionsNow s then .next { s with nf := { s.nf with limited := true, witOut := [] } }
      else .next { s with nf := { s.nf with
        day := max s.nf.day (cellDay s), sessions := sessionsNow s + 1, counted := s.nf.counted + 1, witStart := some s.cellNow, witOut := out, witLevel := 1,
        selected := false } }

/-- WITNESS_ANTICOLLISION: UID CLn with its BCC, and the SAK of the level (R394). -/
def execWitnessAnticollision (level : Nat) (s : State) : Host.Outcome State Fault Refusal :=
  if s.nf.witStart.isSome && s.nf.witLevel == level && (level == 1 || level == 2) then
    let u := takePad 7 s.nf.uid
    let cl : List Byte := if level = 1 then 0x88 :: u.take 3 else u.drop 3
    .next { s with nf := { s.nf with witOut := cl ++ [bcc cl, if level = 1 then 0x04 else 0x20], witLevel := level + 1 } }
  else .next s

/-- WITNESS_RATS: the fixed ATS (R394). -/
def execWitnessRats (s : State) : Host.Outcome State Fault Refusal :=
  if s.nf.witStart.isSome && s.nf.witLevel == 3 then
    .next { s with nf := { s.nf with witOut := [0x05, 0x75, 0x00, 0x40, 0x00], witLevel := 4 } }
  else .next s

/-- Answer of the witness logic to an APDU, and whether the file is then current (R395). -/
def witnessAnswer (s : State) (p : List Byte) : List Byte × Bool :=
  let sel := s.nf.selected
  if byteAt p 0 ≠ 0 then ([0x6E, 0x00], sel)
  else if byteAt p 1 = 0xA4 then
    (if p = [0x00, 0xA4, 0x04, 0x00, 0x07, 0xF0, 0x45, 0x4C, 0x56, 0x57, 0x54, 0x01, 0x00] then ([0x90, 0x00], true) else ([0x6A, 0x82], sel))
  else if byteAt p 1 = 0xB0 then
    (let off := byteAt p 2 * 256 + byteAt p 3
     let le := if byteAt p 4 = 0 then 256 else byteAt p 4
     if !sel then ([0x69, 0x86], sel)
     else if 0x280 ≤ off then ([0x6B, 0x00], sel)
     else if 0x280 - off < le then ((witnessFile s).drop off ++ [0x62, 0x82], sel)
     else (((witnessFile s).drop off).take le ++ [0x90, 0x00], sel))
  else ([0x6D, 0x00], sel)

/-- An APDU in an activated session. -/
def witnessApdu (p : List Byte) (s : State) : State :=
  if s.nf.witStart.isSome && s.nf.witLevel == 4 then
    let a := witnessAnswer s p
    { s with nf := { s.nf with witOut := a.1, selected := a.2 } }
  else s

def execWitnessSelect (apdu : List Byte) (s : State) : Host.Outcome State Fault Refusal := .next (witnessApdu apdu s)
def execWitnessReadBinary (apdu : List Byte) (s : State) : Host.Outcome State Fault Refusal := .next (witnessApdu apdu s)

/-- The witness logic stops answering until the next wake. -/
def witnessStop (s : State) : State :=
  { s with nf := { s.nf with woke := false, witStart := none, witLevel := 0, selected := false, witOut := [] } }

/-- WITNESS_SESSION_END: field loss, S(DESELECT) or HLTA (R398). -/
def execWitnessSessionEnd (s : State) : Host.Outcome State Fault Refusal := .next (witnessStop s)

/-- WITNESS_SESSION_TIMEOUT: 500 ms after it began (R398). -/
def execWitnessSessionTimeout (s : State) : Host.Outcome State Fault Refusal :=
  match s.nf.witStart with
  | some t => if t + 500000000 ≤ s.cellNow then .next (witnessStop s) else .next s
  | none => .next s

/-- WITNESS_DAY_WINDOW: a new day window of the backup counter restarts the count (R398). -/
def execWitnessDayWindow (s : State) : Host.Outcome State Fault Refusal :=
  if s.nf.day < cellDay s then .next { s with nf := { s.nf with day := cellDay s, sessions := 0 } } else .next s

end Sys2Proof.Machine
end

