-- ==== Sys2Proof/Machine/CinchExt.lean ====
section
/-! DEFINITION. External participants of a Cinch (R158–R164): the staging read of a card, the external write, its end, and
the resolution of an in-doubt Cinch. -/

namespace Sys2Proof.Machine

/-- First 8 bytes of SHA-256 over a CID (R372). -/
def cidHash (cid : List Byte) : Nat := beToNat ((Config.hash 256 cid).take 8)

/-- The write counter of a card is read for an action with a fresh nonce: what the response `f` is worth, and the state (R160, R368). -/
def cardCounter (a : Action) (kind : Nat) (f : List Byte) (s : State) : Nat × State :=
  let (nonce, s1) := rpmbAsk a.obj 2 0 s
  let k := rpmbFinding (cardKey s a) (some nonce) kind f
  (if k = 0 ∧ rpmbResult f ≠ 0 then 1 else k, noteRpmb a.obj k f s1)

/-- STAGE_COUNTER_READ: the counter and CID of a CARD_RPMB staging have been read, and its STAGE completes (R141, R372). `a.data` is the
response frame. -/
def execStageCounterRead (c : Nat) (a : ExAnswer) (s : State) : Host.Outcome State Fault Refusal :=
  match s.cn.reqs.find? (fun q => q.core == c && q.waitsCard && q.opc == 2) with
  | none => .next s
  | some q =>
    match q.act with
    | none => .next s
    | some act =>
      let s1 := { s with cn := { s.cn with reqs := s.cn.reqs.filter (fun x => x.core != c) } }
      let m := getMc s act.obj
      let r := if m.ready then cardCounter act a.kind a.data s1 else (1, s1)
      let st := firstStatus [
        ((getCinch s q.slot).st != 1, stDenied), (!m.ready, stCardAbsent), ((getMc r.2 act.obj).expired, stDenied),
        (r.1 == 3, stCheckFail), (r.1 != 0, stMediaError)]
      if st ≠ stOK then .next (refuseReq q.req c 2 q.handle st r.2)
      else .next (stageFinish q.req c q.slot q.handle { act with cidHash := cidHash m.cid, wstaged := rpmbCount a.data } false r.2)

/-- The external action of a Cinch, with its index. -/
def extAction (x : Cinch) : Option (Nat × Action) := (x.actions.zipIdx.find? (fun p => p.1.typ == 7 || p.1.typ == 8)).map (fun p => (p.2, p.1))

/-- SLOT code of an external action's object. -/
def extCode (a : Action) : Nat := if a.typ = 7 then 0x10 + a.obj else if a.obj = 4 then 0x20 else a.obj

/-- IDLEN of a TOKEN action. -/
def tokIdLen (a : Action) : Nat := byteAt a.inl 16
/-- ID of a TOKEN action. -/
def tokId (a : Action) : List Byte := a.inl.take (tokIdLen a)
/-- PRE and POST. -/
def tokPre (a : Action) : Nat := field a.inl 20 8
def tokPost (a : Action) : Nat := field a.inl 28 8

/-- The check of a token on an interface (R160, R164): whether the object of the action is there, and the state. On interface 4 the front
end polls and activates the token whose UID is ID (R388); an inactive contact card is activated, and its ATR's historical bytes are
ID (R374). -/
def tokenCheck (a : Action) (iface : Nat) (ans : ExAnswer) (s : State) : Bool × State :=
  if iface = 4 then
    (if !s.nf.cfg.getLsbD 0 then (false, s)
     else
       let s1 := pollResult ans { s with nf := { s.nf with carrier := true } }
       match (pollTokens s ans.tokens).find? (fun t => t.uid == tokId a && tokenPart4 t) with
       | some t => if byteAt a.inl 17 = 0 ∧ ans.kind = 0 then (true, tokenOn t ans.data s1) else (false, carrierOff s1)
       | none => (false, carrierOff s1))
  else
    let m := getSc s iface
    if !m.inserted || !m.en then (false, s)
    else if m.active then (byteAt a.inl 17 == 1 && atrHistory m.atr == tokId a, s)
    else
      let r := scActivated iface ans s
      (r.1.status == stOK && byteAt a.inl 17 == 1 && atrHistory ans.data == tokId a, r.2)

/-- Remember the Cinch whose external exchange runs on an object. -/
def setExt (k : Nat) (i : Option Nat) (s : State) : State :=
  if k = 0x20 then { s with nf := { s.nf with ext := i } }
  else if 0x10 ≤ k then updMc (k - 0x10) (fun m => { m with ext := i }) s
  else updSc k (fun m => { m with ext := i }) s

/-- The external write was not applied: an OUTCOME record, and the Cinch aborts at the next boundary (R158). -/
def extNotApplied (i cause status idx : Nat) (s : State) : State :=
  journalClosed i (journalOutcome i 2 cause 0
    (updCinch i (fun y => { y with st := 4, abortCause := cause, abortStatus := status, abortAt := s.tick + 1, failing := idx }) s))

/-- The external write was applied: an OUTCOME record, and APPLY in the next stride (R158). -/
def extApplied (i cause : Nat) (s : State) : State :=
  journalOutcome i 1 cause 0 (updCinch i (fun y => { y with st := 4, cause := cause, applyDue := s.tick + 1 }) s)

/-- The outcome is unknown: the Cinch enters INDOUBT, and its COMMIT result says so (R158, R163). A later ending reports
to CN_NOTEQ (R164). -/
def extIndoubt (i : Nat) (s : State) : State :=
  let x := getCinch s i
  let h := cinchHandle x i
  let s1 := setEvent 5 0 (countDoubt x.dseq (updCinch i (fun y => { y with st := 5, commitPending := false, fenced := true }) s))
  { s1 with cn := { s1.cn with reqs := s1.cn.reqs.map (fun q =>
    if q.opc = 3 ∧ q.slot = i ∧ q.handle = h ∧ q.result.isNone then
      { q with result := some (cinchHead stCinchIndoubt 5 0 255 h 0), due := s.tick + 1 } else q) } }

/-- A monitor exchange runs on the object (R364). -/
def exBusy (s : State) (k : Nat) : Bool := (getEx s k).run.isSome

/-- CINCH_EXTERNAL_WRITE: the pending decide record is durable; the identity and the card's counter are checked, and the
write starts or is not applied (R158, R160). It waits for a monitor exchange on the same slot (R364) and for the field reset of
interface 4 (R384). `a.data` is the response frame of a card, or the ATR or ATS of a token. -/
def execCinchExternalWrite (i : Nat) (a : ExAnswer) (s : State) : Host.Outcome State Fault Refusal :=
  let x := getCinch s i
  match extAction x with
  | none => .next s
  | some (idx, act) =>
    let k := extCode act
    if x.st ≠ 3 ∨ !x.batchDurable ∨ s.tick < x.applyDue ∨ exBusy s k ∨ (k = 0x20 ∧ s.nf.resetting) then .next s
    else if act.typ = 7 then
      let m := getMc s act.obj
      if !m.ready || cidHash m.cid != act.cidHash then .next (extNotApplied i 0x09 stCardAbsent idx s)
      else
        let r := cardCounter act a.kind a.data s
        if r.1 ≠ 0 ∨ rpmbCount a.data ≠ act.wstaged then .next (extNotApplied i 0x0A stMediaError idx r.2)
        else .next (setExt k (some i) (updCinch i (fun y => { y with st := 4, applyDue := 0 }) (sendCardWrite act r.2)))
    else
      let r := tokenCheck act act.obj a s
      if !r.1 then .next (extNotApplied i 0x09 stCardAbsent idx r.2)
      else .next (setExt k (some i) (updCinch i (fun y => { y with st := 4, applyDue := 0 }) r.2))

/-- The finding of a TOKEN's read-back response (R142, R164), whose counter stands big-endian in CLEN bytes from COFS: 1 applied, 2
not applied, 0 another value or no counter there. -/
def tokFinding (act : Action) (resp : List Byte) : Nat :=
  let o := byteAt act.inl 18
  let n := byteAt act.inl 19
  let v := beToNat ((resp.drop o).take n)
  if resp.length < o + n then 0 else if v = tokPost act then 1 else if v = tokPre act then 2 else 0

/-- EXTERNAL_WRITE_END. For a TOKEN, `step` is the step of R161 in flight, and at step 4 the answer's status word decides,
with the read-back counter for a warning. For a card, `step` is the row of R162: 1 command or data phase, 2 negative CRC
status, 3 busy, 4 before the result read, 5 the result read, whose response frame is `a.data`. -/
def execExternalWriteEnd (i step : Nat) (a : ExAnswer) (s : State) : Host.Outcome State Fault Refusal :=
  let x := getCinch s i
  match extAction x with
  | none => .next s
  | some (idx, act) =>
    let k := extCode act
    let running : Bool := if k = 0x20 then s.nf.ext == some i else if 0x10 ≤ k then (getMc s (k - 0x10)).ext == some i else (getSc s k).ext == some i
    if x.st ≠ 4 ∨ !running then .next s
    else
      let s1 := setExt k none s
      let kind := rpmbFinding (cardKey s act) none a.kind a.data
      let s2 := if act.typ = 7 then (if step = 5 then noteRpmb act.obj kind a.data s1 else s1)
        else if act.obj = 4 then carrierOff s1 else s1
      if act.typ = 7 then
        match step with
        | 1 => .next (extNotApplied i 0x09 stCardAbsent idx s2)
        | 2 => .next (extNotApplied i 0x0A stMediaError idx s2)
        | 5 =>
          if kind = 0 ∧ rpmbResult a.data = 0 ∧ rpmbCount a.data = act.wstaged + 1 then .next (extApplied i 0 s2)
          else if kind = 0 ∧ rpmbResult a.data ≠ 0 ∧ rpmbCount a.data = act.wstaged then .next (extNotApplied i 0x0A stMediaError idx s2)
          else .next (extIndoubt i s2)
        | _ => .next (extIndoubt i s2)
      else
        match step with
        | 1 => .next (extNotApplied i (if act.obj = 4 then 0x08 else 0x09) (if act.obj = 4 then stFieldLost else stCardAbsent) idx s2)
        | 4 =>
          if a.sw = 0x9000 then .next (extApplied i 0 s2)
          else if a.sw / 256 = 0x62 ∨ a.sw / 256 = 0x63 then
            (if a.kind ≠ 0 then .next (extIndoubt i s2)
             else match tokFinding act a.resp with
              | 1 => .next (extApplied i 0x10 s2)
              | 2 => .next (extNotApplied i 0x11 stAborted idx s2)
              | _ => .next (setEvent 5 2 (extIndoubt i s2)))
          else .next (extNotApplied i 0x0A stDenied idx s2)
        | _ => .next (extIndoubt i s2)

/-- RESOLVE (R141, R164): it waits for the resolution exchange of an INDOUBT Cinch of the requester's paddock. -/
def cinchResolve (r : Req) (c : Nat) (b : List Byte) (h : Nat) (s : State) : State :=
  let x := getCinch s (h % 4096)
  let card := (extAction x).any (fun p => p.2.typ == 7)
  let st := firstStatus [
    (4 < byteAt b 0 || !zeroSpan b 1 63, stMalformed), (!handleOk s r c h false, stDenied), (x.st != 5 || x.outcomeForced != 0, stDenied),
    (card && byteAt b 0 != 0, stMalformed)]
  if st ≠ stOK then refuseReq r c 7 h st s
  else addReq { cnReq r c 7 (h % 4096) h (s.tick + 1) none with waitsCard := true, dest := byteAt b 0 } s

/-- Answer the RESOLVE that waits on a Cinch, if one does. -/
def answerResolve (i : Nat) (head : List Byte) (s : State) : State :=
  { s with cn := { s.cn with reqs := s.cn.reqs.map (fun q =>
    if q.opc = 7 ∧ q.slot = i ∧ q.waitsCard then { q with waitsCard := false, result := some head, due := s.tick + 1 } else q) } }

/-- A resolved outcome (R164): the Cinch goes on as under R158. -/
def resolved (i idx : Nat) (applied : Bool) (s : State) : State :=
  let h := cinchHandle (getCinch s i) i
  let s1 := setEvent 5 1 s
  if applied then answerResolve i (cinchHead stOK 7 0x10 255 h 0) (extApplied i 0x10 s1)
  else answerResolve i (cinchHead stAborted 7 0x11 255 h 0) (extNotApplied i 0x11 stAborted idx s1)

/-- RESOLUTION_END: a resolution exchange ends (R164). A card is read again when it is inserted or on RESOLVE, a token on
RESOLVE of the interface where it now is. `a.data` is a card's counter response and `a.resp` its half-sector response. -/
def execResolutionEnd (i : Nat) (a : ExAnswer) (s : State) : Host.Outcome State Fault Refusal :=
  let x := getCinch s i
  let h := cinchHandle x i
  match extAction x with
  | none => .next s
  | some (idx, act) =>
    if x.st ≠ 5 ∨ x.outcomeForced ≠ 0 then .next s
    else
      let stay (st : Nat) (st1 : State) : State := answerResolve i (cinchHead st 5 0 255 h 0) st1
      if act.typ = 7 then
        let m := getMc s act.obj
        if !m.ready || cidHash m.cid != act.cidHash then .next (stay stCardAbsent s)
        else
          let r := cardCounter act a.kind a.data s
          if r.1 = 0 ∧ rpmbCount a.data = act.wstaged then .next (resolved i idx false r.2)
          else
            let (nonce, s2) := rpmbAsk act.obj 4 (act.arg % 65536) r.2
            let k2 := rpmbFinding (cardKey s act) (some nonce) 0 a.resp
            let s3 := noteRpmb act.obj k2 a.resp s2
            if r.1 = 0 ∧ rpmbCount a.data = act.wstaged + 1 ∧ k2 = 0 ∧ rpmbResult a.resp = 0 ∧ rpmbData a.resp = takePad 256 act.data then
              .next (resolved i idx true s3)
            else .next (setEvent 5 2 (stay stCinchIndoubt s3))
      else
        match s.cn.reqs.find? (fun q => q.opc == 7 && q.slot == i && q.waitsCard) with
        | none => .next s
        | some q =>
          if q.dest = 4 ∧ s.nf.resetting then .next s
          else
            let off (st1 : State) : State := if q.dest = 4 then carrierOff st1 else st1
            let r := tokenCheck act q.dest a s
            if a.kind = 1 ∨ a.kind = 2 then .next (off (stay stCinchIndoubt r.2))
            else if !r.1 then .next (off (stay stCardAbsent r.2))
            else
              match tokFinding act a.resp with
              | 1 => .next (off (resolved i idx true r.2))
              | 2 => .next (off (resolved i idx false r.2))
              | _ => .next (off (setEvent 5 2 (stay stCinchIndoubt r.2)))

/-- MC_BUSY_TIMEOUT: busy outlasts BUSYTO (R370): an RPMB write ends as during busy, another write MEDIA_ERROR; the card is
power-cycled and initialised again. -/
def execMcBusyTimeout (n : Nat) (s : State) : Host.Outcome State Fault Refusal :=
  let m := getMc s n
  let writes := (getEx s (0x10 + n)).run.any (fun r => r.ended.isNone && (xOp r.body == 2 || xOp r.body == 5)) || m.ext.isSome
  if n < 2 ∧ m.ready ∧ writes then
    let s1 := exEnd (0x10 + n) stMediaError s
    let s2 := match m.ext with
      | some i => extIndoubt i (setExt (0x10 + n) none s1)
      | none => s1
    .next (setEvent 13 3 (updMc n (fun k => { k.empty with powered := true, ext := none }) s2))
  else .next s

/-- SC_RESPONSE_TIMEOUT: a response time passes and the card is deactivated (R375): a monitor exchange ends MEDIA_ERROR, and a TOKEN write
ends at step 2 of R161. -/
def execScResponseTimeout (n : Nat) (s : State) : Host.Outcome State Fault Refusal :=
  if 4 ≤ n then .next s
  else
    match (getSc s n).ext, (getEx s n).run with
    | some i, _ => .next (setEvent 13 8 (scOff n (extIndoubt i (setExt n none s))))
    | none, some r => if r.ended = none then .next (setEvent 13 8 (scOff n (exEnd n stMediaError s))) else .next s
    | none, none => .next s

end Sys2Proof.Machine
end

