-- ==== Sys2Proof/Machine/Vault.lean ====
section
/-! DEFINITION. Vault storage and Farrier in the NAND stacks (R330–R347): units, blocks and superblocks, staged writes, wear
signals, retirement, lost stacks and pacing. -/

namespace Sys2Proof.Machine

/-! ### NAND blocks and superblocks (R330, R331, R342–R344) -/

/-- Key of a block. -/
def blkKey (stack blk : Nat) : Nat := 4096 * stack + blk
/-- Stack of a PCA (R333). -/
def pcaStack (p : Nat) : Nat := natBits p 27 2
/-- Block of a PCA. -/
def pcaBlk (p : Nat) : Nat := natBits p 15 12
/-- MODE of a PCA. -/
def pcaSlc (p : Nat) : Bool := natBit p 29
/-- Medium of a PCA: 1 SLC, 2 TLC. -/
def pcaMedium (p : Nat) : Nat := if pcaSlc p then 1 else 2

/-- A superblock position that has left service (R344). -/
def outOfService : Nat := 4097

/-- The block of superblock `b` in a stack, through the stack's block map (R331). -/
def superBlk (s : State) (stack b : Nat) : Option Nat :=
  let v := Tab.get 0 s.fv.blkMap (blkKey stack b)
  if v = 0 then some b else if v = outOfService then none else some (v - 1)

/-- The superblock a block serves. -/
def blkSuper (s : State) (stack blk : Nat) : Option Nat :=
  match s.fv.blkMap.find? (fun e => e.1 / 4096 == stack && e.2 == blk + 1) with
  | some e => some (e.1 % 4096)
  | none => if blk < 4064 ∧ Tab.get 0 s.fv.blkMap (blkKey stack blk) = 0 then some blk else none

/-- Spare blocks left in a stack. -/
def spareBlocks (s : State) (stack : Nat) : Nat := 32 - Tab.get 0 s.fv.spareUsed stack

/-- Retire a block and replace it from its stack's spares, or take its superblock position out of service
(R342–R344). -/
def retireBlock (stack blk : Nat) (s : State) : State :=
  if Tab.get false s.fv.retired (blkKey stack blk) then s
  else
    let s1 := { s with fv := { s.fv with retired := Tab.set false s.fv.retired (blkKey stack blk) true } }
    let s2 := match blkSuper s stack blk with
      | none => s1
      | some b =>
        let used := Tab.get 0 s.fv.spareUsed stack
        if used < 32 then
          { s1 with fv := { s1.fv with spareUsed := Tab.set 0 s1.fv.spareUsed stack (used + 1),
                                       blkMap := Tab.set 0 s1.fv.blkMap (blkKey stack b) (4064 + used + 1) } }
        else { s1 with fv := { s1.fv with blkMap := Tab.set 0 s1.fv.blkMap (blkKey stack b) outOfService } }
    let s3 := flashEvent 1 s2
    if spareBlocks s3 stack < spareBlocks s stack ∧ spareBlocks s3 stack ≤ natBits s3.fv.pool.toNat 24 8 then flashEvent 2 s3 else s3

/-- The heads of STAGE records that a programmed SLC segment holds (R335): KIND 0x10. -/
def stageHeads (data : List Byte) : List (List Byte) := (chunks 64 data).filter (fun r => byteAt r 0 == 0x10)

/-- What is kept of STAGE records. -/
def stageKept (pca : Nat) (heads : List (List Byte)) : List StageRec :=
  heads.map (fun r =>
    { pca := pca, store := byteAt r 2, paddock := byteAt r 3, key := field r 4 4, dseq := field r 8 8, page := false, map := false })

/-- CHECK of an SLC-region record with its segment's PCA folded in (R335). -/
def slcCheck (pca : Nat) (rec : List Byte) : Nat := crcValue crc32c (some pca) (rec.take 60)

/-- The STAGE records of a write (R335): a head with the first 8 data bytes, continuations of 44 bytes each. -/
def stageRecords (pca store paddock key dseq op : Nat) (vkey data : List Byte) : List (List Byte) :=
  let head := [0x10, 0, BitVec.ofNat 8 store, BitVec.ofNat 8 paddock] ++ natToLE 4 key ++ natToLE 8 dseq ++
    natToLE 2 data.length ++ [BitVec.ofNat 8 op, 0] ++ takePad 32 vkey ++ takePad 8 data
  let conts := ((chunks 44 (data.drop 8)).zipIdx).map (fun p =>
    [0x11, BitVec.ofNat 8 (p.2 + 1), BitVec.ofNat 8 store, BitVec.ofNat 8 paddock] ++ natToLE 4 key ++ natToLE 8 dseq ++ takePad 44 p.1)
  (head :: conts).map (fun r => r ++ natToLE 4 (slcCheck pca r))

/-- The LEASE record of a new bound (R335). -/
def leaseRecord (pca paddock handle bound : Nat) : List Byte :=
  let r := [0x20, 0, 0, BitVec.ofNat 8 paddock] ++ natToLE 4 handle ++ natToLE 8 bound ++ zeros 44
  r ++ natToLE 4 (slcCheck pca r)

/-- Key of a wordline. -/
def lineKey (p : Nat) : Nat := blkKey (pcaStack p) (pcaBlk p) * 256 + natBits p 7 8

/-- A wordline closed: its upper page, or its SLC page, has verified (R337). -/
def lineClosed (s : State) (p : Nat) : Bool := pcaSlc p || Tab.get 0 s.fv.lines (lineKey p) == 3

/-- The check units that a program writes (R333): one segment, or the eight codewords of a page. -/
def unitsOf (pca : Nat) (data : List Byte) : List (Nat × List Byte) :=
  if pcaSlc pca then [(pca, data)]
  else (List.range 8).map (fun i => (pca / 32 * 32 + i, takePad 2048 (data.drop (2048 * i))))

/-- Put the units of a program into the cells. -/
def putUnits (pca : Nat) (data : List Byte) (cells : Tab (List Byte)) : Tab (List Byte) :=
  (unitsOf pca data).foldl (fun t u => Tab.set [] t u.1 u.2) cells

/-- The pages of an open wordline that stand in the controller's buffer when its program of `data` at `pca` fails (R337). -/
def openPages (s : State) (pca : Nat) (data : List Byte) : List (List Byte) :=
  let page := natBits pca 5 2
  (List.range page).map (fun i =>
    (List.range 8).flatMap (fun c => Tab.get [] s.fv.cells (pca / 128 * 128 + 32 * i + c))) ++ [data]

/-- NAND_PROGRAM_DONE: a segment or page program ends. Its loops are counted, its data is held, an upper page closes its
wordline, STAGE records become durable, and with them the envelope writes of the Cinch slot they complete and the writes that a
DONE record waits for (R335–R337).
A failed program retires its block (R343), and the pages of its wordline wait in the buffer to be written again, which a later
program of the same page does (R337). -/
def execNandProgramDone (pca : Nat) (data : List Byte) (loops : Nat) (failed : Bool) (slot : Option Nat) (s : State) :
    Host.Outcome State Fault Refusal :=
  let st := pcaStack pca
  let b := pcaBlk pca
  let m := pcaMedium pca
  if 2 ^ 30 ≤ pca ∨ loops = 0 ∨ Tab.get false s.fv.retired (blkKey st b) ∨ Tab.get false s.fv.lost st then .next s
  else
    let l := Tab.get (0, 0) s.fv.loops (blkKey st b)
    let l1 := (l.1 + loops, l.2 + 1)
    let s1 := noteLoops m loops { s with fv := { s.fv with loops := Tab.set (0, 0) s.fv.loops (blkKey st b) l1 } }
    let s2 := if watchCrossed s m l l1 then flashEvent 0 s1 else s1
    if failed then
      let s3 := if pcaSlc pca then s2 else { s2 with fv := { s2.fv with redo := s2.fv.redo ++ openPages s2 pca data } }
      .next (retireBlock st b (vaultFault m 3 pca s3))
    else
      let s3 := { s2 with fv := { s2.fv with
        cells := putUnits pca data s2.fv.cells, redo := if pcaSlc pca then s2.fv.redo else s2.fv.redo.erase data,
        lines := if pcaSlc pca then s2.fv.lines else Tab.set 0 s2.fv.lines (lineKey pca) (natBits pca 5 2 + 1),
        stage := if pcaSlc pca then s2.fv.stage ++ stageKept pca (stageHeads data) else s2.fv.stage } }
      let s4 := if pcaSlc pca then stageLanded (stageHeads data) s3 else s3
      .next (match slot with
        | some i => if (getCinch s4 i).holds then updCinch i (fun x => { x with envelopeDurable := true }) s4 else s4
        | none => s4)

/-- Days of TAI since the epoch. -/
def dayNo (s : State) : Nat := s.time.now / 86400000000000

/-- Charge an erase's wear units (R330, R346). -/
def chargeErase (stack blk units : Nat) (s : State) : State :=
  let d := dayNo s
  let days := match s.fv.days.reverse with
    | (e, n) :: r => if e = d then (r.reverse ++ [(e, n + units)]) else s.fv.days ++ [(d, units)]
    | [] => [(d, units)]
  { s with fv := { s.fv with
    spent := Tab.upd 0 s.fv.spent (blkKey stack blk) (fun n => min 150000 (n + units)), charged := s.fv.charged + units,
    days := days.filter (fun e => d < e.1 + 30) } }

/-- A staged write that keeps its block from being erased: one that is neither reclaimable nor superseded by a later write of the same
envelope (R336). -/
def stageHolds (stack blk : Nat) : List StageRec → Bool
  | [] => false
  | r :: rs =>
    (pcaStack r.pca == stack && pcaBlk r.pca == blk &&
      !(r.store == 1 && rs.any (fun x => x.store == 1 && x.paddock == r.paddock && x.key == r.key))) || stageHolds stack blk rs

/-- NAND_ERASE_DONE: a block erase ends, costs 3 units in SLC mode or 50 in TLC mode, and sets the block's mode; a failed
erase retires the block (R330, R343). The erase of a block that holds staged writes is never issued (R336). -/
def execNandEraseDone (stack blk : Nat) (slc : Bool) (loops : Nat) (failed : Bool) (s : State) :
    Host.Outcome State Fault Refusal :=
  if 4 ≤ stack ∨ 4096 ≤ blk ∨ loops = 0 ∨ Tab.get false s.fv.retired (blkKey stack blk) ∨ Tab.get false s.fv.lost stack ∨
      stageHolds stack blk s.fv.stage then .next s
  else
    let s1 := chargeErase stack blk (if slc then 3 else 50) s
    let k := blkKey stack blk
    if failed then .next (retireBlock stack blk (vaultFault (if slc then 1 else 2) 3 ((if slc then 2 ^ 29 else 0) + stack * 2 ^ 27 + blk * 2 ^ 15) s1))
    else
      .next { s1 with fv := { s1.fv with
        slc := Tab.set false s1.fv.slc k slc, loops := Tab.set (0, 0) s1.fv.loops k (0, 0),
        lines := Tab.clearRange 0 s1.fv.lines (k * 256) (k * 256 + 256),
        cells := s1.fv.cells.filter (fun e => !(pcaStack e.1 == stack && pcaBlk e.1 == blk)) } }

/-- Queue a superblock for relocation (R334). -/
def queueRelocation (stack blk : Nat) (s : State) : State :=
  match blkSuper s stack blk with
  | some b => { s with fv := { s.fv with relocate := (s.fv.relocate.filter (· != b)) ++ [b] } }
  | none => s

/-- Corrected bits at which a block retires (R342, R347). -/
def retireBits (s : State) (slc : Bool) : Nat :=
  if slc then min 31 (natBits s.fv.retireCfg.toNat 16 8) else min 127 (natBits s.fv.retireCfg.toNat 0 16)

/-- A stack fails whole (R345). -/
def loseStack (stack : Nat) (s : State) : State :=
  if Tab.get false s.fv.lost stack then s
  else
    let s1 := { s with fv := { s.fv with lost := Tab.set false s.fv.lost stack true, rebuilding := true } }
    flashEvent 5 (writeLife 3 (Tab.get 0 s1.fv.life 3 + 1) s1)

/-- A unit of a block fails: more than 64 blocks of its stack that fail within 1 s lose the stack (R345). -/
def noteFail (stack blk : Nat) (s : State) : State :=
  let l := s.fv.fails.filter (fun e => decide (s.tick < e.1 + 1000000)) ++ [(s.tick, blkKey stack blk)]
  let s1 := { s with fv := { s.fv with fails := l } }
  if 64 < (((l.map (fun e => e.2)).filter (fun k => k / 4096 == stack)).eraseDups).length then loseStack stack s1 else s1

/-- NAND_READ_DONE: a unit decodes, is rebuilt from its stripe, or ends MEDIA_ERROR; a read of a block under a suspended
erase is refused (R334, R340, R342, R345). -/
def execNandReadDone (pca corrected : Nat) (ok rebuilt erasing : Bool) (s : State) : Host.Outcome State Fault Refusal :=
  let st := pcaStack pca
  let m := pcaMedium pca
  if 2 ^ 30 ≤ pca then .next s
  else if erasing then .next (setEvent 11 6 (vaultFault m 2 pca s))
  else
    let gone := Tab.get false s.fv.lost st
    let anyLost := s.fv.lost.any (fun e => e.2)
    if ok && !gone then
      .next (if retireBits s (pcaSlc pca) < corrected then retireBlock st (pcaBlk pca) (queueRelocation st (pcaBlk pca) s) else s)
    else
      let s0 := if gone then s else noteFail st (pcaBlk pca) s
      if rebuilt && (gone || !anyLost) then .next (setEvent 11 4 (queueRelocation st (pcaBlk pca) s0))
      else .next (setEvent 11 3 (vaultFault m 1 pca s0))

/-- STAGE_MIGRATION: the page, or after it the map entry, of a staged write reaches a closed wordline; with both the
record is reclaimable (R336). -/
def execStageMigration (index : Nat) (entry : Bool) (s : State) : Host.Outcome State Fault Refusal :=
  let f (r : StageRec) : StageRec := if entry then { r with map := r.map || r.page } else { r with page := true }
  let l := (s.fv.stage.zipIdx.map (fun p => if p.2 = index then f p.1 else p.1)).filter (fun r => !(r.page && r.map))
  .next { s with fv := { s.fv with stage := l } }

/-! ### Lost stacks (R345) -/

/-- STACK_LOST: a stack fails whole, or (`rewritten`) the background rewrite of its stripes ends (R345). -/
def execStackLost (stack : Nat) (rewritten : Bool) (s : State) : Host.Outcome State Fault Refusal :=
  if 4 ≤ stack then .next s
  else if rewritten then
    .next (if Tab.get false s.fv.lost stack then { s with fv := { s.fv with rebuilding := false } } else s)
  else .next (loseStack stack s)

/-! ### Pacing (R346) -/

/-- U: unspent credit of all blocks in service and spare. -/
def wearCredit (s : State) : Nat :=
  let blocks := 4096 * (4 - (s.fv.lost.filter (fun e => e.2)).length) -
    (s.fv.retired.filter (fun e => e.2 && !Tab.get false s.fv.lost (e.1 / 4096))).length
  let spent := Tab.total s.fv.spent (fun k v =>
    if Tab.get false s.fv.retired k || Tab.get false s.fv.lost (k / 4096) then 0 else v)
  blocks * 150000 - spent

/-- T_end in TAI seconds. -/
def designEnd (s : State) : Nat := Tab.get 0 s.fv.life 2 + 631152000

/-- Strides from now to max(T_end, now + 1 year). -/
def strideBudget (s : State) : Nat :=
  max (designEnd s * 1000000 - s.stride) (31557600 * 1000000)

/-- C in 2⁻⁶⁴ units. -/
def bucketCap (s : State) : Int :=
  (wearCredit s * 2 ^ 64 * (max 3600 s.fv.pace.toNat) * 1000000 / strideBudget s : Nat)

/-- Farrier's pacing at a frame boundary. -/
def wearPacing (s : State) : State :=
  let inc : Int := (256 * wearCredit s * 2 ^ 64 / strideBudget s : Nat)
  let b := min (s.fv.bucket + inc) (bucketCap s) - (s.fv.charged * 2 ^ 64 : Nat)
  let g := if 0 < b then min 512 (max 1 (2 * s.fv.g)) else s.fv.g / 2
  setEventIf (decide (g < 512) && s.fv.g == 512) 11 8 { s with fv := { s.fv with bucket := b, g := g, charged := 0 } }

/-- FV_LIFE (R347). -/
def fvLife (s : State) : W32 :=
  let total := (s.fv.days.map (fun e => e.2)).sum
  let proj := if total = 0 then 0xFFFF else min 0xFFFF (wearCredit s * 30 / total)
  BitVec.ofNat 32 (proj * 65536 + min 0xFFFF ((designEnd s - s.time.now / 1000000000) / 86400))

/-- FV_STAT (R347). -/
def fvStat (s : State) : W32 :=
  BitVec.ofNat 32 (([0, 1, 2, 3].map (fun k => if Tab.get false s.fv.lost k then 0 else 2 ^ (28 + k))).sum +
    (if s.fv.lost.any (fun e => e.2) then 2 ^ 27 else 0) + (if s.fv.rebuilding then 2 ^ 26 else 0) + s.fv.g % 1024)

/-- FV_SPARE. -/
def fvSpare (s : State) : W32 := BitVec.ofNat 32 ([0, 1, 2, 3].map (fun k => spareBlocks s k * 2 ^ (8 * k))).sum

/-- FV_RAW_DATA: a NOR word as it stands; of a NAND unit the words of its programmed data and its CRC-64, the LDPC bytes
being free (R333, R340). -/
def readRaw (warden : Bool) (s : State) : W64 × State :=
  if !warden then (0, s)
  else
    let sel := s.fv.rawSel.toNat
    let a := natBits sel 0 30
    let w := natBits sel 53 9
    if natBits sel 62 2 = 0 then (if a < 0x2000000 then norWord s (a / 8 * 8) else 0, s)
    else
      let pca := a % 2 ^ 29 + if natBits sel 62 2 = 1 then 2 ^ 29 else 0
      let n := if natBits sel 62 2 = 1 then 512 else 2048
      let d := Tab.get [] s.fv.cells pca
      if d.isEmpty ∨ n / 8 < w then (let (v, s1) := drawNat s; (BitVec.ofNat 64 v, s1))
      else if w = n / 8 then (BitVec.ofNat 64 (crcValue crc64 (some pca) (takePad n d)), s)
      else (BitVec.ofNat 64 (field (takePad n d) (8 * w) 8), s)

/-- Put a value in G[rd] of a core; G0 stays zero (R247). -/
def putG (c rd : Nat) (v : W64) (s : State) : State :=
  updCore c (fun k => { k with g := if rd % 64 = 0 then k.g else Tab.set 0 k.g (rd % 64) v }) s

/-- RAW_READ: core `c` reads FV_RAW_DATA into G[rd]. -/
def execRawRead (c rd : Nat) (s : State) : Host.Outcome State Fault Refusal :=
  if !coreMay s c false 0x100B00208 then .next s else
  let (v, s1) := readRaw (getCore s c).warden s
  .next (putG c rd v s1)

/-! ### Mount (R339) -/

/-- Farrier at mount: open wordlines hold nothing (R339), and pacing starts (R346). -/
def vaultMount (s : State) : State :=
  let openL := s.fv.lines.filter (fun e => e.2 != 0 && e.2 != 3)
  let s1 := if openL.isEmpty then s
    else setEvent 11 7 { s with fv := { s.fv with
      lines := s.fv.lines.filter (fun e => e.2 == 3),
      cells := s.fv.cells.filter (fun c => pcaSlc c.1 || !(openL.any (fun e => e.1 == lineKey c.1))) } }
  let s2 := { s1 with fv := { s1.fv with g := 512, charged := 0, hist := [], redo := [], fails := [] } }
  { s2 with fv := { s2.fv with bucket := bucketCap s2 / 2 } }

end Sys2Proof.Machine
end

