-- ==== Sys2Proof/Machine/Tamper.lean ====
section
/-! DEFINITION. Tamper monitors and the backup domain (R401–R417): evaluation ticks, firings and their latches, the
responses, re-arming, the response table and its lock, built-in test. The SHED itself is in Shed.lean. -/

namespace Sys2Proof.Machine

/-- The device runs its backup domain only, or its fuses match no pattern (R413, R418). -/
def cellRun (s : State) : Bool := s.pm.onCell || s.life == 0xFF

/-- The sensors that run on the cell (R401). -/
def runsOnCell (i : Nat) : Bool := i ≤ 13 || i == 15 || (18 ≤ i && i ≤ 20)

/-- A sensor's floor (R401). -/
def tamperFloor (i : Nat) : Nat := if i = 21 then 3 else if 12 ≤ i ∧ i ≤ 17 then 2 else 0

/-- MODE of a sensor: loops and case switches as set, the others 0b01 (R417). -/
def tamperMode (s : State) (i : Nat) : Nat := if i < 12 then Tab.get 0 s.tm.mode i else 1

/-- The response in effect now (R406): WARN in BLANK and TEST, ZERO for RETENTION, else as assigned. -/
def effResp (s : State) (i : Nat) : Nat :=
  if i = 21 then 3 else if s.life ≤ 1 then 1 else Tab.get 0 s.tm.resp i

/-- TAI of the backup domain: the time unit's on main power, the backup counter's on the cell (R412). -/
def tamperTime (s : State) : Nat := if s.pm.onCell then s.cellNow else s.time.now

/-- HELD: a sensor that would shed or zero has fired and is not re-armed (R410). Entering it closes tack custody. -/
def updHeld (s : State) : State :=
  let h := (List.range 22).any (fun i => Tab.get false s.tm.fired i && decide (2 ≤ effResp s i))
  { s with tk := { s.tk with
    held := h,
    paddocks := if h then Tab.mapVals Paddock.absent (fun _ p => { p with master := none }) s.tk.paddocks else s.tk.paddocks } }

/-- The lowest free latch. -/
def freeLatch (s : State) : Option Nat := (List.range 64).find? (fun i => (Tab.get none s.tm.latches i).isNone)

/-- One firing takes a latch, or is counted where none is free (R412), and counts in its item (R457). -/
def takeLatch (i resp : Nat) (simul bist : Bool) (s : State) : State :=
  let w := BitVec.ofNat 64 (i * 2 ^ 56 + resp * 2 ^ 54 + b2n s.pm.onCell * 2 ^ 53 + b2n simul * 2 ^ 52 + b2n bist * 2 ^ 51 +
    tamperTime s / 1000000 % 2 ^ 48)
  let s1 := { s with tm := { s.tm with fired := Tab.set false s.tm.fired i true, last := w } }
  let s2 := if s.pm.onCell then s1 else itemAdd (0x10A0 + i) 1 s1
  match freeLatch s with
  | some k => { s2 with tm := { s2.tm with latches := Tab.set none s2.tm.latches k (some w) } }
  | none =>
    let s3 := { s2 with tm := { s2.tm with ovf := min (s2.tm.ovf + 1) 0xFFFF } }
    setEventIf (!s.pm.onCell) 15 5 s3

/-- The keep key register is overwritten (R175, R409): with it go the sealed keys that only it opens. -/
def zeroKeep (s : State) : State :=
  let s1 := { s with tk := { s.tk with
    keep := none, sbRec := none,
    paddocks := Tab.mapVals Paddock.absent (fun _ p => { p with master := none }) s.tk.paddocks } }
  setEventIf (!s.pm.onCell) 6 0 (setEventIf (!s.pm.onCell) 15 2 s1)

/-- The logic die runs, so that a SHED takes effect at a stride boundary; else it is latched as pending (R413). -/
def shedNow (s : State) : Bool := !s.pm.onCell && s.pm.running && !s.pm.held && !s.pm.flushing

/-- Ask for a SHED (R407, R413); one already executing covers it (R411). -/
def askShed (s : State) : State :=
  if !shedNow s then { s with tm := { s.tm with shedPending := true } }
  else if s.tm.shedBusy || s.tm.shedDue.isSome then s
  else { s with tm := { s.tm with shedDue := some s.tick } }

/-- Execute a response (R405, R411): one that is not above what executes adds nothing. -/
def respond (r : Nat) (s : State) : State :=
  if r ≤ s.tm.running ∧ 2 ≤ s.tm.running then s
  else if 3 ≤ r then
    (let s1 := zeroKeep s
     let s2 := if s.pm.onCell then s1 else askShed s1
     { s2 with tm := { s2.tm with running := if shedNow s then 3 else if s2.tm.shedPending then 2 else 0 } })
  else if r = 2 then
    (let s1 := askShed s
     { s1 with tm := { s1.tm with running := 2 } })
  else s

/-- Simultaneous firings (R411): each takes a latch carrying the response executed for it; the most severe is executed. -/
def fireGroup (ss : List Nat) (bist : Bool) (s : State) : State :=
  if ss.isEmpty then s
  else
    let own := ss.foldl (fun a i => max a (effResp s i)) 0
    let r := max own s.tm.running
    let s1 := ss.foldl (fun st i => takeLatch i r (1 < ss.length) bist st) s
    updHeld (respond own (setEventIf (!s.pm.onCell && decide (1 ≤ own)) 15 0 s1))

/-- Whether a sensor's condition can put it in alarm now (R401, R402). -/
def sensorLive (s : State) (i : Nat) : Bool :=
  i < 21 && tamperMode s i != 0 && (runsOnCell i || !cellRun s)

/-- Seeds of the PRBS sequences of the eight loops, drawn at every power-up and at every entry to the cell (R402). -/
def drawSeeds (s : State) : State :=
  let r := (List.range 8).foldl (fun (st : List Nat × State) _ =>
    let v := drawBelow 32767 st.2
    (st.1 ++ [v.1 + 1], v.2)) ([], s)
  { r.2 with tm := { r.2.tm with seeds := r.1 } }

/-- The conditions of the sensors: bits 8 to 11 of `mask` are the levels of TP_CASE, each at its open level under its MODE (R403); every
other bit is its sensor's condition. -/
def conditions (s : State) (mask : Nat) : Nat :=
  ((List.range 22).map (fun i =>
    let b := if 8 ≤ i ∧ i ≤ 11 ∧ tamperMode s i = 2 then !natBit mask i else natBit mask i
    if b then 2 ^ i else 0)).sum

/-- One evaluation of the sensors under the conditions `mask` (R404, R411). -/
def evalSensors (mask : Nat) (s : State) : State :=
  let on := (List.range 21).filter (fun i => natBit (conditions s mask) i && sensorLive s i)
  let now := s.cellNow + 1
  let s1 := { s with tm := { s.tm with
    alarm := Tab.setSlice false s.tm.alarm 0 ((List.range 21).map (fun i => on.contains i)),
    absent := (List.range 21).foldl (fun t i =>
      if on.contains i || !Tab.get false s.tm.fired i then Tab.set 0 t i 0
      else if Tab.get 0 t i = 0 then Tab.set 0 t i now else t) s.tm.absent } }
  fireGroup (on.filter (fun i => !Tab.get false s.tm.fired i)) false s1

/-- TAMPER_EVAL_TICK: conditions by sensor number, but for VBAT_LOW, and VBAT in mV, below 2,550 of which VBAT_LOW is in alarm (R401); on
the cell a tick lasts 1 ms (R411). -/
def execTamperEvalTick (mask vbat : Nat) (s : State) : Host.Outcome State Fault Refusal :=
  let s1 := if s.pm.onCell then { s with time := { s.time with backupSince := s.time.backupSince + 1000000 } } else s
  let m := mask % 2 ^ 20 + (if vbat < 2550 then 2 ^ 20 else 0)
  .next (evalSensors m { s1 with tm := { s1.tm with vbat := BitVec.ofNat 32 (min vbat 0xFFFF) } })

/-- A sensor fires outside an evaluation: its condition does not last (die link, built-in test). One that has fired only begins its time of
absence anew (R404). -/
def fireBrief (i : Nat) (bist : Bool) (s : State) : State :=
  if Tab.get false s.tm.fired i then { s with tm := { s.tm with absent := Tab.set 0 s.tm.absent i (s.cellNow + 1) } }
  else
    let s1 := fireGroup [i] bist s
    { s1 with tm := { s1.tm with absent := Tab.set 0 s1.tm.absent i (s.cellNow + 1) } }

/-- SENSOR_REARM: the condition has been absent for 1 s without a break (R404, R410). -/
def execSensorRearm (i : Nat) (s : State) : Host.Outcome State Fault Refusal :=
  let a := Tab.get 0 s.tm.absent i
  if Tab.get false s.tm.fired i && a != 0 && decide (a + 1000000000 ≤ s.cellNow + 1) then
    .next (updHeld { s with tm := { s.tm with fired := Tab.set false s.tm.fired i false, absent := Tab.set 0 s.tm.absent i 0 } })
  else .next s

/-! ### The response table and its lock (R406) -/

/-- A refused write of TM_RESP or TM_LOCK. -/
def cfgRefused (s : State) : State := setEvent 15 4 s

/-- Whether MODE is a value the sensor takes. -/
def modeOk (i mode : Nat) : Bool := if i < 12 then mode ≤ 2 else true

/-- Write RESP and, where given, MODE of a sensor; false where R406 refuses it. -/
def writeResp (i resp : Nat) (mode : Option Nat) (s : State) : Bool × State :=
  let m := if i < 12 then mode.getD (tamperMode s i) else 1
  if s.life ≠ 2 ∨ s.tm.locked ∨ s.tm.lockDue.isSome ∨ 21 ≤ i ∨ resp < tamperFloor i ∨ !modeOk i m then (false, cfgRefused s)
  else (true, updHeld { s with tm := { s.tm with
    resp := Tab.set 0 s.tm.resp i resp,
    mode := if i < 12 then Tab.set 0 s.tm.mode i m else s.tm.mode } })

/-- TM_RESP_WRITE: by the Warden level of a core, or through object 0x8010 as a U8 (no core), which mirrors RESP. -/
def execTmRespWrite (core : Option Nat) (i : Nat) (v : W32) (s : State) : Host.Outcome State Fault Refusal :=
  if 22 ≤ i then .next s
  else match core with
    | some c =>
      if wardenMay s c (0x100F00100 + 4 * i) then .next (writeResp i (natBits v.toNat 0 2) (some (natBits v.toNat 2 2)) s).2 else .next s
    | none => if v.toNat < 4 then .next (writeResp i v.toNat none s).2 else .next (cfgRefused s)

/-- A write of TM_LOCK (R406). -/
def writeLock (v : Nat) (s : State) : State :=
  if v % 256 ≠ 0x5A then s
  else if s.life ≠ 2 ∨ s.tm.locked ∨ s.tm.lockDue.isSome ∨ 2 ≤ s.tm.lockSets then cfgRefused s
  else { s with tm := { s.tm with lockDue := some (s.tick + 2000), lockSets := s.tm.lockSets + 1 } }

/-- TAMPER_LOCK by core `c`: Warden level only. -/
def execTamperLock (c : Nat) (v : W32) (s : State) : Host.Outcome State Fault Refusal :=
  if wardenMay s c 0x100F00028 then .next (writeLock v.toNat s) else .next s

/-- TAMPER_LOCK_COMPLETE: 2 ms later the three copies are in OTP; a held POR_N reset takes hold then (R406, R485). -/
def execTamperLockComplete (s : State) : Host.Outcome State Fault Refusal :=
  match s.tm.lockDue with
  | none => .next s
  | some t =>
    if s.tick < t then .next s
    else
      let s1 := { s with tm := { s.tm with locked := true, lockDue := none } }
      .next { s1 with pm := { s1.pm with held := s1.pm.held || s1.pm.porPending, porPending := false } }

/-- What entry to CUSTODY assigns (R406); a sensor still in alarm is then held (R410). -/
def custodyResp (s : State) : State :=
  updHeld { s with tm := { s.tm with
    resp := (List.range 22).foldl (fun t i => Tab.set 0 t i (if (12 ≤ i ∧ i ≤ 17) ∨ i = 21 then 3 else 1)) [],
    mode := [] } }

/-! ### Built-in test (R415) -/

/-- The outcome of one sensor's test: SILENT fires it with BIST set, STUCK is a real alarm. -/
def bistOne (out i : Nat) (s : State) : State :=
  let o := natBits out (2 * i) 2
  if o = 0 ∨ (i < 12 ∧ tamperMode s i = 0) then s
  else
    let old := Tab.get 0 s.ledger.items (0x1080 + i)
    let up (lo len : Nat) : Nat := old + (if natBits old lo len + 1 < 2 ^ len then 2 ^ lo else 0)
    let s1 := itemSet (0x1080 + i) (if o = 1 then up 16 16 else if o = 2 then up 8 8 else up 0 8)
      { s with tm := { s.tm with bistRes :=
          (s.tm.bistRes &&& ~~~(BitVec.ofNat 64 (3 * 2 ^ (2 * i)))) ||| BitVec.ofNat 64 (o * 2 ^ (2 * i)) } }
    if o = 1 then s1
    else if o = 2 then setEvent 15 3 (fireBrief i true s1)
    else setEvent 15 3 (fireBrief i false s1)

/-- A whole run with the outcomes given, two bits a sensor. -/
def bistRun (out : Nat) (s : State) : State :=
  if s.pm.onCell then s
  else
    let s1 := (List.range 22).foldl (fun st i => bistOne out i st) s
    let bad := ((List.range 22).filter (fun i => !(i < 12 && tamperMode s i == 0) && decide (2 ≤ natBits out (2 * i) 2))).length
    ledgerEvent 0x2002 bad (lowHigh s1.tm.bistRes.toNat) { s1 with tm := { s1.tm with bistBusy := false } }

/-- The TAI hour of the day. -/
def taiHour (s : State) : Nat := s.time.now / 3600000000000 % 24

/-- BIST_DAILY: the first stride of the TAI hour that TM_BIST.HOUR names. -/
def execBistDaily (out : Nat) (s : State) : Host.Outcome State Fault Refusal :=
  if taiHour s = min (natBits s.tm.hour.toNat 0 5) 23 ∧ s.tm.bistDay < dayNo s + 1 then
    .next (bistRun out { s with tm := { s.tm with bistDay := dayNo s + 1 } })
  else .next s

/-- BIST_NOW: a run asked for. -/
def execBistNow (out : Nat) (s : State) : Host.Outcome State Fault Refusal := .next (bistRun out s)

/-! ### Registers (R417) -/

/-- TM_STAT. -/
def tmStat (s : State) : W32 :=
  BitVec.ofNat 32 ((s.tm.latches.filter (fun e => e.2.isSome)).length * 256 + b2n s.tm.bistBusy * 16 + b2n s.tm.shedBusy * 8 +
    b2n s.tm.shedPending * 4 + b2n s.tk.held * 2 + b2n s.tm.locked)

/-- TM_ALARM. -/
def tmAlarm (s : State) : W32 :=
  BitVec.ofNat 32 ((List.range 22).map (fun i => if Tab.get false s.tm.alarm i then 2 ^ i else 0)).sum

/-- TM_RESP[i]. -/
def tmResp (s : State) (i : Nat) : W32 :=
  BitVec.ofNat 32 (effResp s i * 64 + tamperFloor i * 16 + tamperMode s i * 4 + (if i = 21 then 3 else Tab.get 0 s.tm.resp i))

end Sys2Proof.Machine
end

