-- ==== Sys2Proof/Machine/Ledger.lean ====
section
/-! DEFINITION. The ledger engine's NOR side (R326–R328, R457–R462): draining in order and within the pace, snapshots and
the rotation of the window, the items at mount, direct events through the cursor, and the paddock feeds. -/

namespace Sys2Proof.Machine

/-- The item codes of R457 in order, 296 words. -/
def itemCodes : List Nat :=
  [(0x1000, 16), (0x1010, 36), (0x1040, 13), (0x1050, 48), (0x1080, 22), (0x10A0, 22), (0x10C0, 34), (0x1100, 68),
   (0x1150, 16), (0x1160, 4), (0x1170, 5), (0x1178, 8), (0x1180, 2)].flatMap (fun r => (List.range r.2).map (fun i => r.1 + i))

/-- The periodic items: temperature, excursions, corrections, histograms (R457). -/
def periodicCodes : List Nat :=
  (List.range 52).map (0x1000 + ·) ++ (List.range 6).map (fun k => 0x1041 + 2 * k) ++ (List.range 48).map (0x1050 + ·)

/-- A snapshot (R327): SNAP_BEGIN, every item and EVENTNO, SNAP_END with the number of words between. -/
def snapshotWords (l : Ledger) : List LWord :=
  let ws := itemCodes.map (itemWord l) ++
    [{ code := 0x11F0, arg := l.eventNo % 2 ^ 32 }, { code := 0x11F1, arg := l.eventNo / 2 ^ 32 % 2 ^ 32 }]
  { code := 1, arg := 0 } :: ws ++ [{ code := 2, arg := ws.length }]

/-- The words of HEAD. -/
def headWords (l : Ledger) : List LWord := (l.window.getLast?).getD []

/-- The next word opens a new HEAD. -/
def headFull (l : Ledger) : Bool := l.window.isEmpty || decide (dataWords ≤ (headWords l).length)

/-- Put a word at the end of HEAD; a full HEAD is followed by a new one, which opens with a snapshot where the window then
holds 32 sectors; START is erased after SNAP_END (R327; log 172). -/
def pushWord (w : LWord) (l : Ledger) : Ledger :=
  let l1 := if headFull l then { l with window := l.window ++ [[w]] }
    else { l with window := l.window.dropLast ++ [headWords l ++ [w]] }
  let l2 := if headFull l1 ∧ 31 ≤ l1.window.length then { l1 with snapQ := snapshotWords l1 } else l1
  if w.code = 2 ∧ 32 ≤ l2.window.length then { l2 with window := l2.window.drop 1, erased := l2.erased + 1 } else l2

/-- Put a word in the ledger and in NOR: a twice-word in HEAD, programmed and committed in immediate succession (R326, R327). -/
def pushLedger (w : LWord) (s : State) : State :=
  let full := headFull s.ledger
  let s1 := if full then openHead 0x03 s else s
  let s2 := match headSector s1 0x03 with
    | some h => putTwice (dataAddr h.n (if full then 0 else (headWords s.ledger).length)) (w.code % 65536 * 2 ^ 32 + w.arg % 2 ^ 32) s1
    | none => s1
  let s3 := { s2 with ledger := pushWord w s.ledger }
  if s3.ledger.erased = s.ledger.erased then s3
  else match usedSectors s3 0x03 with
    | e :: _ => renewSector 0x03 0 e.n s3
    | [] => s3

/-- Words admitted to NOR in the last `n` strides, the present one included. -/
def paceUsed (s : State) (n : Nat) : Nat := ((s.ledger.paceHist.filter (fun e => s.tick < e.1 + n)).map (fun e => e.2)).sum

/-- How many words the pace of R328 still admits. -/
def paceRoom (s : State) : Nat := min (100000 - paceUsed s 1000000000) (8184 - paceUsed s 10000000)

/-- The words of a TAMPER event, from a latch (R412, R459). -/
def tamperWords (i : Nat) (w : W64) : List LWord :=
  eventWords 0x2001 i (lowHigh w.toNat) (natBits w.toNat 0 48 / 1000)

/-- The words to be written next (R460), and the state without them: a snapshot word, a TAMPER event and its latch, the
oldest other direct event, an item word. -/
def nextWords (s : State) : Option (List LWord × Bool × State) :=
  match s.ledger.snapQ with
  | w :: ws => some ([w], false, { s with ledger := { s.ledger with snapQ := ws } })
  | [] =>
    match (s.tm.latches.filterMap (fun e => e.2.map (fun w => (e.1, w)))).head? with
    | some (i, w) => some (tamperWords i w, true, { s with tm := { s.tm with latches := Tab.set none s.tm.latches i none } })
    | none =>
      match s.ledger.eventQ with
      | e :: es => some (e, true, { s with ledger := { s.ledger with eventQ := es } })
      | [] =>
        match s.ledger.itemQ with
        | w :: ws => some ([w], false, { s with ledger := { s.ledger with itemQ := ws } })
        | [] => none

/-- Write waiting words while `left` more are taken; an event is written whole. -/
def drainWords : Nat → Nat → State → State
  | 0, _, s => s
  | fuel + 1, left, s =>
    match nextWords s with
    | none => s
    | some (ws, ev, s1) =>
      if left < ws.length then s
      else if paceRoom s < ws.length then setEvent 11 9 s
      else
        let sp := ws.foldl (fun st w => pushLedger w st) s1
        let l := sp.ledger
        let laps := s1.ledger.erased / 96 < l.erased / 96
        let s2 := { sp with ledger := { l with
          eventNo := if ev then l.eventNo + 1 else l.eventNo,
          paceHist := (l.paceHist.filter (fun e => s.tick < e.1 + 1000000000)) ++ [(s.tick, ws.length)] } }
        drainWords fuel (left - ws.length) (if laps then writeLife 1 (l.erased / 96) s2 else s2)

/-- LEDGER_WORD_DRAIN: NOR takes up to `count` words. -/
def execLedgerWordDrain (count : Nat) (s : State) : Host.Outcome State Fault Refusal := .next (drainWords count count s)

/-- LEDGER_PERIOD: the interval of 0xA010:00 is over; `minutes` were spent in each temperature bin meanwhile (R457, R458). -/
def execLedgerPeriod (minutes : List Nat) (s : State) : Host.Outcome State Fault Refusal :=
  if s.tick < s.ledger.lastPeriod + s.ledger.period * 1000000 then .next s
  else
    let s1 := ((minutes.take 16).zipIdx).foldl (fun st m => itemAddQuiet (0x1000 + m.2) m.1 st) s
    let l := periodicCodes.foldl (fun l c => queueItem c l) s1.ledger
    .next { s1 with ledger := { l with lastPeriod := s.tick } }

/-- The words that count at mount: a snapshot without a COMMITTED SNAP_END is ignored (R327). -/
def settledWords (ws : List LWord) : List LWord :=
  match ws.reverse.find? (fun w => w.code == 1 || w.code == 2) with
  | some w => if w.code = 1 then ((ws.reverse.dropWhile (fun w => w.code != 1)).drop 1).reverse else ws
  | none => ws

/-- Items at mount (R458): the newest of each item's words in the window; what waited is lost. A new snapshot is written where one
was due (R327). -/
def ledgerMount (l : Ledger) : Ledger :=
  let items := (settledWords l.window.flatten).foldl (fun t w =>
    if 0x1000 ≤ w.code ∧ w.code < 0x11F0 then Tab.set 0 t w.code (w.arg * itemUnit w.code) else t) ([] : Tab Nat)
  let m := { Ledger.reset with items := items, window := l.window, erased := l.erased, eventNo := l.eventNo }
  if 32 ≤ l.window.length ∨ (31 ≤ l.window.length ∧ headFull l) then { m with snapQ := snapshotWords m } else m

/-- The direct events in a run of words: heads followed by all their continuations (R459). -/
def eventsIn (ws : List LWord) : List (List LWord) :=
  (ws.foldl (fun (acc : List (List LWord) × List LWord × Nat) w =>
    if acc.2.2 = 0 then
      (if 0x2000 ≤ w.code ∧ w.code < 0x3000 then (acc.1, [w], w.arg / 2 ^ 28) else acc)
    else if acc.2.2 = 1 then (acc.1 ++ [acc.2.1 ++ [w]], [], 0)
    else (acc.1, acc.2.1 ++ [w], acc.2.2 - 1)) ([], [], 0)).1

/-- The events still in the window. -/
def windowEvents (s : State) : List (List LWord) := eventsIn s.ledger.window.flatten

/-- Number of the oldest event still in the window (R461). -/
def oldestEvent (s : State) : Nat := s.ledger.eventNo - (windowEvents s).length

/-- A ledger word as the cursor reads it: CONTENT in bits [63:16] (R461). -/
def LWord.bytes (w : LWord) : List Byte := natToLE 8 ((w.code % 65536 * 2 ^ 32 + w.arg % 2 ^ 32) * 65536)

/-- Whole events from the front that fit in `room` bytes: their bytes and how many they are. -/
def takeEvents : Nat → List (List LWord) → List Byte × Nat
  | _, [] => ([], 0)
  | room, e :: es =>
    let b := e.flatMap LWord.bytes
    if room < b.length then ([], 0) else let r := takeEvents (room - b.length) es; (b ++ r.1, r.2 + 1)

/-- A read of 0xA100:02: up to 1,024 bytes of whole events from the cursor, which moves past them (R461). -/
def readCursor (s : State) : List Byte × State :=
  let c := max s.ledger.cursor (oldestEvent s)
  let r := takeEvents 1024 ((windowEvents s).drop (c - oldestEvent s))
  (r.1, { s with ledger := { s.ledger with cursor := c + r.2 } })

/-- A feed entry's 64 bytes (R462). -/
def FeedEntry.bytes (e : FeedEntry) (p : Nat) : List Byte :=
  natToLE 2 e.code ++ natToLE 1 p ++ natToLE 1 e.index ++ natToLE 4 e.handle ++ natToLE 8 e.dseq ++ natToLE 8 e.stride ++
    takePad 32 e.data ++ zeros 8

/-- A read of 0xA200:p: up to 16 of the oldest entries, removed (R462). -/
def readFeed (p : Nat) (s : State) : List Byte × State :=
  let l := Tab.get [] s.ledger.feeds p
  ((l.take 16).flatMap (fun e => e.bytes p), { s with ledger := { s.ledger with feeds := Tab.set [] s.ledger.feeds p (l.drop 16) } })

end Sys2Proof.Machine
end

