-- ==== Sys2Proof/Machine/PkeOps.lean ====
section
/-! DEFINITION. What the public-key operations compute (R107–R114, R130): modular exponentiation, RSA with its paddings
and the checks of inputs are written out; curve arithmetic, hashes and prime search are the standards', opaque in
Config. -/

namespace Sys2Proof.Machine

/-! ### Integers -/

/-- Square and multiply over the bits of `e`. -/
def powModAux (m : Nat) : Nat → Nat → Nat → Nat → Nat
  | 0, _, _, acc => acc
  | f + 1, b, e, acc => powModAux m f (b * b % m) (e / 2) (if e % 2 = 1 then acc * b % m else acc)

/-- b^e mod m. -/
def powMod (b e m : Nat) : Nat := powModAux m (Nat.log2 e + 1) (b % m) e (1 % m)

/-- Extended Euclid: the coefficient of the second number in the greatest common divisor. -/
def euclid : Nat → Nat → Nat → Int → Int → Nat × Int
  | 0, r0, _, t0, _ => (r0, t0)
  | f + 1, r0, r1, t0, t1 => if r1 = 0 then (r0, t0) else euclid f r1 (r0 % r1) t1 (t0 - (r0 / r1 : Nat) * t1)

/-- The inverse of `a` modulo `n`, where there is one. -/
def invMod (a n : Nat) : Option Nat :=
  let r := euclid (2 * Nat.log2 n + 4) n (a % n) 0 1
  if r.1 = 1 then some (r.2 % (n : Int)).toNat else none

/-- Number of significant bits. -/
def bitLen (n : Nat) : Nat := if n = 0 then 0 else Nat.log2 n + 1

/-! ### Hashes (R107, R116) -/

/-- Hash length h that HASH selects. -/
def hashLen : Nat → Nat | 1 => 32 | 2 => 48 | 3 => 64 | _ => 0

/-- A hash value. -/
def hashOf (sel : Nat) (d : List Byte) : List Byte := takePad (hashLen sel) (Config.hash (8 * hashLen sel) d)

/-- MGF1 (RFC 8017 B.2.1). -/
def mgf1 (sel : Nat) (seed : List Byte) (n : Nat) : List Byte :=
  ((List.range (ceilDiv n (max 1 (hashLen sel)))).flatMap (fun i => hashOf sel (seed ++ natToBE 4 i))).take n

/-! ### Paddings (R110) -/

/-- Clear the top bits of the first byte that an encoded message of `bits` bits in `8·⌈bits / 8⌉` does not use. -/
def clearTop (bits : Nat) (em : List Byte) : List Byte :=
  match em with
  | [] => []
  | b :: bs => BitVec.ofNat 8 (b.toNat % 2 ^ (8 - (8 * ceilDiv bits 8 - bits))) :: bs

/-- EMSA-PSS hash H over the message hash and salt. -/
def pssH (sel : Nat) (mh salt : List Byte) : List Byte := hashOf sel (zeros 8 ++ mh ++ salt)

/-- EMSA-PSS encoding to `bits` bits. -/
def pssEncode (sel bits : Nat) (mh salt : List Byte) : List Byte :=
  let n := ceilDiv bits 8
  let h := pssH sel mh salt
  let dbLen := n - hashLen sel - 1
  let db := zeros (dbLen - salt.length - 1) ++ [1] ++ salt
  clearTop bits (xorBytes db (mgf1 sel h dbLen)) ++ h ++ [0xBC]

/-- EMSA-PSS verification with the salt length given. -/
def pssVerify (sel bits saltLen : Nat) (mh em : List Byte) : Bool :=
  let n := ceilDiv bits 8
  let dbLen := n - hashLen sel - 1
  let masked := em.take dbLen
  let h := (em.drop dbLen).take (hashLen sel)
  let db := clearTop bits (xorBytes masked (mgf1 sel h dbLen))
  let salt := db.drop (dbLen - saltLen)
  em.length == n && em.getLastD 0 == 0xBC && clearTop bits masked == masked && hashLen sel + saltLen + 2 ≤ n &&
    db == zeros (dbLen - saltLen - 1) ++ [1] ++ salt && pssH sel mh salt == h

/-- The DigestInfo prefix of a hash (RFC 8017 9.2). -/
def digestInfo : Nat → List Byte
  | 1 => [0x30, 0x31, 0x30, 0x0D, 0x06, 0x09, 0x60, 0x86, 0x48, 0x01, 0x65, 0x03, 0x04, 0x02, 0x01, 0x05, 0x00, 0x04, 0x20]
  | 2 => [0x30, 0x41, 0x30, 0x0D, 0x06, 0x09, 0x60, 0x86, 0x48, 0x01, 0x65, 0x03, 0x04, 0x02, 0x02, 0x05, 0x00, 0x04, 0x30]
  | _ => [0x30, 0x51, 0x30, 0x0D, 0x06, 0x09, 0x60, 0x86, 0x48, 0x01, 0x65, 0x03, 0x04, 0x02, 0x03, 0x05, 0x00, 0x04, 0x40]

/-- EMSA-PKCS1-v1_5. -/
def pkcs1Encode (sel k : Nat) (mh : List Byte) : List Byte :=
  let t := digestInfo sel ++ mh
  [0, 1] ++ List.replicate (k - t.length - 3) 0xFF ++ [0] ++ t

/-- EME-OAEP encoding. -/
def oaepEncode (sel k : Nat) (label seed m : List Byte) : List Byte :=
  let h := hashLen sel
  let db := hashOf sel label ++ zeros (k - m.length - 2 * h - 2) ++ [1] ++ m
  let mdb := xorBytes db (mgf1 sel seed (k - h - 1))
  [0] ++ xorBytes seed (mgf1 sel mdb h) ++ mdb

/-- EME-OAEP decoding. -/
def oaepDecode (sel k : Nat) (label em : List Byte) : Option (List Byte) :=
  let h := hashLen sel
  let mdb := em.drop (h + 1)
  let seed := xorBytes ((em.drop 1).take h) (mgf1 sel mdb h)
  let db := xorBytes mdb (mgf1 sel seed (k - h - 1))
  let rest := (db.drop h).dropWhile (· == 0)
  if em.headD 1 = 0 ∧ db.take h = hashOf sel label ∧ rest.headD 0 = 1 ∧ 2 * h + 2 ≤ k then some (rest.drop 1) else none

/-! ### RSA keys -/

/-- A public key (n, e). -/
def rsaPub (mat : List Byte) (k : Nat) : Nat × Nat := (beToNat (mat.take k), beToNat ((mat.drop k).take 8))

/-- The private operation by CRT over the material of R196, blinded (R111): r and r′ are 8 bytes each of `blind`, t the k bytes
after them; a t without an inverse stands for 1. -/
def rsaPrivate (mat : List Byte) (k c : Nat) (blind : List Byte) : Nat :=
  let f := fun i => beToNat ((mat.drop (k + 8 + i * (k / 2))).take (k / 2))
  let n := (rsaPub mat k).1
  let p := f 0
  let q := f 1
  let t0 := beToNat ((blind.drop 16).take k) % n
  let (t, ti) := match invMod t0 n with | some i => (t0, i) | none => (1, 1)
  let x := c * powMod t (rsaPub mat k).2 n % n
  let m1 := powMod x (f 2 + leToNat (blind.take 8) * (p - 1)) p
  let m2 := powMod x (f 3 + leToNat ((blind.drop 8).take 8) * (q - 1)) q
  (m2 + q * ((m1 + p - m2 % p) * f 4 % p)) * ti % n

/-! ### Curves (R108) -/

/-- Field length f of a curve for an operation (R108); an FFDH group's prime length. -/
def fieldLen (op curve : Nat) : Nat :=
  match curve with
  | 1 => 32 | 2 => 48 | 3 => 66 | 4 => 32 | 5 => 48 | 6 => 64 | 7 => 32 | 8 => if op = 0x15 then 56 else 57
  | 9 => 256 | 10 => 384 | 11 => 512 | 12 => 768 | 13 => 1024 | _ => 0

/-- A point given as x ‖ y is refused (R130). -/
def pointBad (curve : Nat) (pt : List Byte) (f : Nat) : Bool :=
  let x := beToNat (pt.take f)
  let y := beToNat ((pt.drop f).take f)
  Config.curvePrime curve ≤ x || Config.curvePrime curve ≤ y || !Config.onCurve curve x y

/-- A representative is refused (R130). -/
def reprBad (x n : Nat) : Bool := x == 0 || n ≤ x

/-- A KEYIN RSA key is refused (R130). -/
def rsaKeyBad (n e : Nat) : Bool := n % 2 == 0 || e % 2 == 0 || e < 3

/-- The key that an agreed secret fills a slot with (R190). -/
def agreeKey (z label : List Byte) (lenb : Nat) : List Byte :=
  (hashOf (if lenb > 32 then 3 else 1) ([0, 0, 0, 1] ++ z ++ label)).take lenb

/-! ### Outcomes -/

/-- What an operation gives: status, bytes for DST or DST2, key material or shared secret. -/
structure PkeOut where
  status : Nat
  out : List Byte
  fill : List Byte
deriving DecidableEq, Repr

/-- An outcome without output. -/
def PkeOut.fail (status : Nat) : PkeOut := { status := status, out := [], fill := [] }
/-- An outcome with memory output. -/
def PkeOut.ok (out : List Byte) : PkeOut := { status := 0, out := out, fill := [] }

/-- OPERAND_RANGE, POINT_INVALID, DISTRUST, BUSY_RETRY of R6. -/
def peRange : Nat := 0x02
def pePoint : Nat := 0x03
def peDistrust : Nat := 0x01
def peRetry : Nat := 0x0E

/-- A verdict on a signature. -/
def verdict (ok : Bool) : PkeOut := if ok then .ok [] else .fail peDistrust

/-- The operands of an operation: OP, CURVE, HASH, AUX, k (or 8 × WORDS), KEYIN; the key's material, the input area,
the tack that OAEP encrypts, what the engine's DRBG gives for the operation and for its blinding (R110, R111, R114), the DRBG's
own state as a number, and the target slot's ALGO and LENB. -/
structure PkeArgs where
  op : Nat
  curve : Nat
  sel : Nat
  aux : Nat
  k : Nat
  keyin : Bool
  mat : List Byte
  input : List Byte
  wrapped : Option (List Byte)
  seed : List Byte
  blind : List Byte
  draw : Nat
  algo : Nat
  lenb : Nat

/-- Bytes of the operation's own randomness: the PSS salt, the OAEP seed, an ECDSA nonce, a new private key (R110, R114). -/
def seedLen (op curve sel aux lenb : Nat) : Nat :=
  if op = 3 then aux
  else if op = 7 then hashLen sel
  else if op = 0x10 then fieldLen op curve + 8
  else if op = 0x18 then (if curve ≤ 6 then ceilDiv (bitLen (Config.curveOrder curve) + 64) 8 else if curve ≤ 8 then lenb else 64)
  else if op = 0x19 then 64
  else 0

/-- Bytes of a job's blinding values (R111): r, r′ and t for RSA; r and the first Z for curves; r for FFDH. -/
def blindLen (op curve k : Nat) : Nat :=
  if op = 1 ∨ op = 3 ∨ op = 4 ∨ op = 8 then 16 + k
  else if op = 0x0A then 8
  else if op = 0x10 ∨ op = 0x12 ∨ op = 0x13 ∨ op = 0x15 then 8 + fieldLen op curve
  else 0

/-- MODEXP (R130). -/
def runModexp (a : PkeArgs) : PkeOut :=
  let b := beToNat (a.input.take a.k)
  let e := beToNat ((a.input.drop a.k).take a.k)
  let m := beToNat ((a.input.drop (2 * a.k)).take a.k)
  if (b ≠ 0 ∧ m ≤ b) ∨ m % 2 = 0 ∨ m / 2 ^ (8 * a.k - 64) = 0 then .fail peRange
  else .ok (natToBE a.k (if b = 0 then 0 else if e = 0 then 1 else powMod b e m))

/-- RSA operations 0x01 to 0x08. -/
def runRsa (a : PkeArgs) : PkeOut :=
  let h := hashLen a.sel
  let keyAt := if a.op = 2 then a.k else if a.op = 5 ∨ a.op = 6 then h + a.k else 0
  let ne := if a.keyin then rsaPub (a.input.drop keyAt) a.k else rsaPub a.mat a.k
  let n := ne.1
  let bad := a.keyin && rsaKeyBad n ne.2
  let body := a.input.drop (if a.op = 7 ∧ a.keyin then a.k + 8 else 0)
  match a.op with
  | 0x01 =>
    let c := beToNat (a.input.take a.k)
    if reprBad c n then .fail peRange else .ok (natToBE a.k (rsaPrivate a.mat a.k c a.blind))
  | 0x02 =>
    let m := beToNat (a.input.take a.k)
    if reprBad m n || bad then .fail peRange else .ok (natToBE a.k (powMod m ne.2 n))
  | 0x03 => .ok (natToBE a.k (rsaPrivate a.mat a.k (beToNat (pssEncode a.sel (bitLen n - 1) (a.input.take h) (takePad a.aux a.seed))) a.blind))
  | 0x04 => .ok (natToBE a.k (rsaPrivate a.mat a.k (beToNat (pkcs1Encode a.sel a.k (a.input.take h))) a.blind))
  | 0x05 =>
    let sg := beToNat ((a.input.drop h).take a.k)
    if reprBad sg n || bad then .fail peRange
    else verdict (pssVerify a.sel (bitLen n - 1) a.aux (a.input.take h)
      (natToBE (ceilDiv (bitLen n - 1) 8) (powMod sg ne.2 n)))
  | 0x06 =>
    let sg := beToNat ((a.input.drop h).take a.k)
    if reprBad sg n || bad then .fail peRange
    else verdict (natToBE a.k (powMod sg ne.2 n) == pkcs1Encode a.sel a.k (a.input.take h))
  | 0x07 =>
    if bad then .fail peRange
    else
      let m := match a.wrapped with | some w => w | none => body.drop a.aux
      .ok (natToBE a.k (powMod (beToNat (oaepEncode a.sel a.k (body.take a.aux) (takePad h a.seed) m)) ne.2 n))
  | _ =>
    let c := beToNat (a.input.take a.k)
    if reprBad c n then .fail peRange
    else match oaepDecode a.sel a.k ((a.input.drop a.k).take a.aux) (natToBE a.k (rsaPrivate a.mat a.k c a.blind)) with
      | some m => { status := 0, out := m, fill := m }
      | none => .fail peDistrust

/-- Curve and group operations. -/
def runCurve (a : PkeArgs) : PkeOut :=
  let f := fieldLen a.op a.curve
  let h := hashLen a.sel
  let call (xs : List (List Byte)) : Option (List Byte) := Config.curveOp a.op a.curve xs
  match a.op with
  | 0x0A =>
    let p := Config.curvePrime a.curve
    let y := beToNat a.input
    if y < 2 ∨ p - 2 < y then .fail peRange
    else { status := 0, out := [], fill := natToBE f (powMod y (beToNat (a.mat.take 64) + leToNat (a.blind.take 8) * ((p - 1) / 2)) p) }
  | 0x10 => .ok (takePad (2 * f) ((call [a.mat.take f, a.input.take h, a.seed, a.blind]).getD []))
  | 0x11 =>
    let n := Config.curveOrder a.curve
    let r := beToNat ((a.input.drop h).take f)
    let sg := beToNat ((a.input.drop (h + f)).take f)
    let q := if a.keyin then (a.input.drop (h + 2 * f)).take (2 * f) else a.mat.take (2 * f)
    if reprBad r n || reprBad sg n then .fail peRange
    else if a.keyin && pointBad a.curve q f then .fail pePoint
    else verdict (call [q, a.input.take h, natToBE f r, natToBE f sg]).isSome
  | 0x12 =>
    if pointBad a.curve (a.input.take (2 * f)) f then .fail pePoint
    else { status := 0, out := [], fill := takePad f ((call [a.mat.take f, a.input.take (2 * f), a.blind]).getD []) }
  | 0x13 => .ok (takePad (2 * f) ((call [a.mat.take f, a.input, a.blind]).getD []))
  | 0x14 =>
    let r := a.input.take f
    let sg := (a.input.drop f).take f
    let pk := if a.keyin then (a.input.drop (2 * f)).take f else a.mat.take f
    let m := a.input.drop (if a.keyin then 3 * f else 2 * f)
    if !Config.edPoint a.curve r then .fail pePoint
    else if Config.curveOrder a.curve ≤ leToNat sg then .fail peRange
    else if a.keyin && !Config.edPoint a.curve pk then .fail pePoint
    else verdict (call [pk, r, sg, m]).isSome
  | 0x15 =>
    let z := takePad f ((call [a.mat.take f, a.input.take f, a.blind]).getD [])
    if z.all (· == 0) then .fail pePoint else { status := 0, out := [], fill := z }
  | 0x18 =>
    if a.curve ≤ 6 then
      let n := Config.curveOrder a.curve
      let d := natToBE f (beToNat a.seed % 2 ^ (bitLen n + 64) % (n - 1) + 1)
      let q := takePad (2 * f) ((call [d]).getD [])
      { status := 0, out := q, fill := d ++ q }
    else if a.curve ≤ 8 then
      let d := takePad a.lenb a.seed
      let base := natToLE a.lenb (if a.curve = 7 then 9 else 5)
      let q := takePad a.lenb ((if a.algo = 0x16 then Config.curveOp 0x15 a.curve [d, base] else call [d]).getD [])
      { status := 0, out := q, fill := d ++ q }
    else
      let x := beToNat a.seed % 2 ^ 511 + 2 ^ 511
      { status := 0, out := natToBE f (powMod 2 x (Config.curvePrime a.curve)), fill := natToBE 64 x }
  | _ =>
    match Config.rsaKey a.k a.aux a.draw with
    | none => .fail peRetry
    | some mat => let m := takePad (a.k * 7 / 2 + 8) mat
                  { status := 0, out := m.take a.k, fill := m }

/-- Any operation. -/
def pkeRun (a : PkeArgs) : PkeOut := if a.op = 9 then runModexp a else if a.op ≤ 8 then runRsa a else runCurve a

end Sys2Proof.Machine
end

