-- ==== Sys2Proof/Machine/Pke.lean ====
section
/-! DEFINITION. The public-key engines (R105–R133): job bodies and their checks, slice counts, admission, tracks and
slices, fences, randomness and results. What an operation computes is in PkeOps. -/

namespace Sys2Proof.Machine

/-! ### The job body (R107, R115–R117) -/

/-- OP. -/
def pOp (b : List Byte) : Nat := natBits (field b 0 4) 26 6
def pWords (b : List Byte) : Nat := natBits (field b 0 4) 18 8
def pCurve (b : List Byte) : Nat := natBits (field b 0 4) 14 4
def pHash (b : List Byte) : Nat := natBits (field b 0 4) 11 3
def pKeyin (b : List Byte) : Bool := natBit (field b 0 4) 10
def pSrct (b : List Byte) : Bool := natBit (field b 0 4) 9
def pDstt (b : List Byte) : Bool := natBit (field b 0 4) 8
def pHold (b : List Byte) : Bool := natBit (field b 0 4) 7
def pKeyref (b : List Byte) : Nat := field b 4 4
def pSrc (b : List Byte) : Nat := field b 8 8
def pDst (b : List Byte) : Nat := field b 0x10 8
def pLen (b : List Byte) : Nat := field b 0x18 4
def pAux (b : List Byte) : Nat := field b 0x1C 4
def pDst2 (b : List Byte) : Nat := field b 0x20 8

/-- RSA operations, 0x19 included. -/
def opRsa (op : Nat) : Bool := (1 ≤ op && op ≤ 8) || op == 0x19
/-- Operations that cite no tack (R107). -/
def opKeyless (op : Nat) : Bool := op == 9 || op == 0x18 || op == 0x19
/-- Operations that allow KEYIN (R107). -/
def opKeyin (op : Nat) : Bool := op == 2 || op == 5 || op == 6 || op == 7 || op == 0x11 || op == 0x14
/-- Operations that HASH must select a hash for (R116). -/
def opHashed (op : Nat) : Bool := (3 ≤ op && op ≤ 8) || op == 0x10 || op == 0x11
/-- Operations whose DSTT is required (R116). -/
def opFills (op : Nat) : Bool := op == 0x0A || op == 0x12 || op == 0x15 || op == 0x18 || op == 0x19
/-- OP is defined (R107). -/
def opKnown (op : Nat) : Bool := (1 ≤ op && op ≤ 0x0A) || (0x10 ≤ op && op ≤ 0x15) || op == 0x18 || op == 0x19

/-- CURVE allowed for OP (R108, R116). -/
def opCurve (op c : Nat) : Bool :=
  match op with
  | 0x10 => 1 ≤ c && c ≤ 6 | 0x11 => 1 ≤ c && c ≤ 6 | 0x12 => 1 ≤ c && c ≤ 6
  | 0x13 => c == 7 || c == 8 | 0x14 => c == 7 || c == 8 | 0x15 => c == 7 || c == 8
  | 0x18 => 1 ≤ c && c ≤ 0xD | 0x0A => 9 ≤ c && c ≤ 0xD | _ => c == 0

/-- WORDS allowed (R116). -/
def opWords (op w : Nat) : Bool :=
  if op = 0x19 then w == 32 || w == 48 || w == 64 else if opRsa op then 16 ≤ w && w ≤ 128
  else if op = 9 then 1 ≤ w && w ≤ 128 else w == 0

/-- AUX allowed (R110, R114, R115). -/
def opAux (b : List Byte) : Bool :=
  let k := 8 * pWords b
  let h := hashLen (pHash b)
  match pOp b with
  | 0x03 => pAux b + h + 2 ≤ k | 0x05 => pAux b + h + 2 ≤ k | 0x07 => pAux b ≤ 256 && 2 * h + 2 ≤ k | 0x08 => pAux b ≤ 256
  | 0x19 => pAux b % 2 == 1 && 65537 ≤ pAux b | _ => pAux b == 0

/-- Bytes of the fixed part of the input area (R107). -/
def inputBase (b : List Byte) : Nat :=
  let op := pOp b
  let k := 8 * pWords b
  let h := hashLen (pHash b)
  let f := fieldLen op (pCurve b)
  let key := if pKeyin b then k + 8 else 0
  match op with
  | 0x01 => k | 0x02 => k + key | 0x03 => h | 0x04 => h | 0x05 => h + k + key | 0x06 => h + k + key
  | 0x07 => key + pAux b | 0x08 => k + pAux b | 0x09 => 3 * k | 0x0A => f | 0x10 => h
  | 0x11 => h + 2 * f + (if pKeyin b then 2 * f else 0) | 0x12 => 2 * f | 0x13 => 0
  | 0x14 => 2 * f + (if pKeyin b then f else 0) | 0x15 => f | _ => 0

/-- LEN allowed (R107, R117). -/
def opLen (b : List Byte) : Bool :=
  let n := inputBase b
  let l := pLen b
  match pOp b with
  | 0x07 => if pSrct b then l == n else n ≤ l && l ≤ n + (8 * pWords b - 2 * hashLen (pHash b) - 2)
  | 0x13 => l ≤ 1024
  | 0x14 => n ≤ l && l ≤ n + 1024
  | _ => l == n

/-- Bytes at DST (R107); a job with DSTT writes none. -/
def dstSpan (b : List Byte) : Nat :=
  let k := 8 * pWords b
  if pDstt b then 0
  else
    match pOp b with
    | 0x01 => k | 0x02 => k | 0x03 => k | 0x04 => k | 0x07 => k | 0x08 => k - 2 * hashLen (pHash b) - 2 | 0x09 => k
    | 0x10 => 2 * fieldLen 0x10 (pCurve b) | 0x13 => 2 * fieldLen 0x13 (pCurve b) | _ => 0

/-- Bytes at DST2 (R107). -/
def dst2Span (b : List Byte) : Nat :=
  if pOp b = 0x19 then 8 * pWords b
  else if pOp b = 0x18 then (if pCurve b ≤ 6 then 2 * fieldLen 0x18 (pCurve b) else fieldLen 0x18 (pCurve b))
  else 0

/-- Row 1 of R128: what R117 makes MALFORMED, apart from host references. -/
def pkeBad (b : List Byte) (win keyTag : Bool) (cinch : Nat) : Bool :=
  let op := pOp b
  let keyless := opKeyless op || pKeyin b
  !opKnown op || natBits (field b 0 4) 0 7 != 0 || !zeroSpan b 0x28 8 || !opCurve op (pCurve b) || !opWords op (pWords b) ||
    3 < pHash b || ((pHash b != 0) != opHashed op) || (pKeyin b && !opKeyin op) || (pSrct b && op != 7) ||
    (pDstt b != opFills op && !(op == 8 && pDstt b)) || !opAux b || !opLen b ||
    (pKeyref b != 0 && (win || keyless)) || (pKeyin b && win && keyTag) || (pDst2 b != 0 && !(op == 0x18 || op == 0x19)) ||
    (pSrct b && pSrc b ≥ 2 ^ 32) || (pDstt b && pDst b ≥ 2 ^ 32) ||
    (!pSrct b && (spansMeet (pSrc b) (pLen b) (pDst b) (dstSpan b) || spansMeet (pSrc b) (pLen b) (pDst2 b) (dst2Span b))) ||
    (pHold b && (!win || cinch == 0 || pDstt b))

/-! ### Slice counts (R121, R122) -/

/-- Band index of a modulus length in bits (R121). -/
def bandOf (bits : Nat) : Nat :=
  if bits ≤ 1024 then 0 else if bits ≤ 1536 then 1 else if bits ≤ 2048 then 2 else if bits ≤ 3072 then 3
  else if bits ≤ 4096 then 4 else if bits ≤ 6144 then 5 else 6

/-- Slice counts of R121 by column: CRT private, public, MODEXP, key pair. -/
def rsaSlices (op band : Nat) : Nat :=
  let pick (l : List Nat) := l.getD band 0
  if op = 1 ∨ op = 3 ∨ op = 4 ∨ op = 8 then pick [18, 50, 108, 320, 711, 2380, 5600]
  else if op = 9 then pick [60, 188, 420, 1268, 2832, 9508, 22388]
  else if op = 0x19 then pick [140000, 140000, 140000, 420000, 1000000, 1000000, 1000000]
  else pick [5, 7, 10, 18, 30, 64, 112]

/-- Slice counts of R122 by CURVE: sign, verify, agree, key pair. -/
def curveSlices (op curve : Nat) : Nat :=
  let row : List Nat := match curve with
    | 1 => [27, 64, 34, 26] | 2 => [72, 170, 100, 70] | 3 => [170, 400, 230, 165] | 4 => [36, 86, 45, 35]
    | 5 => [96, 228, 132, 94] | 6 => [200, 470, 270, 195] | 7 => [21, 48, 18, 20] | 8 => [64, 150, 55, 62]
    | 9 => [0, 0, 118, 118] | 10 => [0, 0, 236, 236] | 11 => [0, 0, 395, 395] | 12 => [0, 0, 885, 885]
    | _ => [0, 0, 1565, 1565]
  row.getD (if op = 0x10 ∨ op = 0x13 then 0 else if op = 0x11 ∨ op = 0x14 then 1 else if op = 0x18 then 3 else 2) 0

/-- Slices of a job. -/
def pkeSlices (b : List Byte) : Nat :=
  if opRsa (pOp b) || pOp b == 9 then rsaSlices (pOp b) (bandOf (64 * pWords b)) else curveSlices (pOp b) (pCurve b)

/-- A wide job (R106, R121, R122). -/
def pkeWide (b : List Byte) : Bool :=
  if opRsa (pOp b) || pOp b == 9 then 4096 < 64 * pWords b else pCurve b == 12 || pCurve b == 13

/-! ### Who may (R107, R114, R119, R184, R187, R190) -/

/-- Usages of which one is needed (R107). -/
def pkeUses (b : List Byte) : List Nat :=
  match pOp b with
  | 0x01 => [7, 1] | 0x02 => [8, 0] | 0x03 => [7] | 0x04 => [7] | 0x05 => [8] | 0x06 => [8] | 0x07 => [0]
  | 0x08 => if pDstt b then [5] else [1] | 0x0A => [6] | 0x10 => [7] | 0x11 => [8] | 0x12 => [6] | 0x13 => [7] | 0x14 => [8]
  | 0x15 => [6] | _ => []

/-- ALGO, PARAM and size of a cited tack match the job (R107, R184). -/
def pkeAlgo (b : List Byte) (t : Tack) : Bool :=
  let op := pOp b
  match t.algo with
  | 0x10 => (op == 1 || op == 3 || op == 4 || op == 8) && t.lenb == 8 * pWords b
  | 0x11 => (op == 2 || op == 5 || op == 6 || op == 7) && t.lenb == 8 * pWords b
  | 0x12 => (op == 0x10 || op == 0x12) && t.param == pCurve b
  | 0x13 => op == 0x11 && t.param == pCurve b | 0x14 => op == 0x13 && t.param == pCurve b
  | 0x15 => op == 0x14 && t.param == pCurve b | 0x16 => op == 0x15 && t.param == pCurve b
  | 0x17 => op == 0x0A && t.param == pCurve b | _ => false

/-- A reserved slot's attributes match the job (R114, R190). -/
def pkeSlot (b : List Byte) (t : Tack) : Bool :=
  let op := pOp b
  if op = 0x19 then t.algo == 0x10 && t.lenb == 8 * pWords b
  else if op = 0x18 then
    t.param == pCurve b &&
      (if pCurve b ≤ 6 then t.algo == 0x12 else if pCurve b ≤ 8 then t.algo == 0x14 || t.algo == 0x16 else t.algo == 0x17)
  else if op = 8 then true else algoSym t.algo

/-- The job cites a tack. -/
def pkeCites (b : List Byte) : Bool := !(opKeyless (pOp b) || pKeyin b)

/-- Row 4 of R128. -/
def pkeDenied (s : State) (r : Req) (b : List Byte) (key aux : Rein) : Bool :=
  let win := match r.src with | .win _ _ => true | _ => false
  let h := citedHandle r key (pKeyref b)
  let perm := citedPerm r key
  (s.paddock r.paddock).st != 1 || ((pkeCites b || pSrct b || pDstt b) && !s.keepPresent) ||
  (win && opKeyless (pOp b) && key.tag) || (win && !pSrct b && !pDstt b && aux.tag) ||
  (pkeCites b && ((win && !reinPasses s r key) ||
    (match liveTack s r.paddock h with
     | none => true
     | some t => !(pkeUses b).any (mayUse t perm) || !pkeAlgo b t))) ||
  (pSrct b && (!auxPasses s r aux (pSrc b) ||
    (match liveTack s r.paddock (pSrc b) with
     | none => true
     | some t => t.policy == 0 || 8 * pWords b < materialLen t.algo t.lenb + 2 * hashLen (pHash b) + 2))) ||
  (pDstt b && (!auxPasses s r aux (pDst b) ||
    (match getTack s r.paddock (pDst b) with
     | none => true | some t => t.st != 1 || t.fillPending || !pkeSlot b t)))

/-! ### Admission (R113, R117, R125, R128) -/

/-- A result without slots, in the stride after admission. -/
def pkeRefuse (r : Req) (status : Nat) (s : State) : State :=
  { s with pk := { s.pk with pend := s.pk.pend ++ [jobPend r (s.tick + 1) status 0xFF 0 0 (s.stride % 2 ^ 32)] } }

/-- The same for a job whose OUTPUT may be staged: its Cinch aborts with the status. -/
def pkeRefuseHeld (r : Req) (status cinch code : Nat) (s : State) : State :=
  match code with
  | 0 => pkeRefuse r status s
  | 1 => pkeRefuse r status s
  | k + 2 => endHeld (cinch % 4096) k cinch status [] (pkeRefuse r status s)

/-- Operations that run without the entropy source (R113). -/
def opNoEntropy (op : Nat) : Bool := op == 2 || op == 5 || op == 6 || op == 9 || op == 0x11 || op == 0x14

/-- Admit a PKE job, or let it wait: whether it was admitted, the staging code of its OUTPUT, and the state. -/
def pkeSubmit (r : Req) (b : List Byte) (key aux : Rein) (cinch staged : Nat) (s : State) : Bool × Nat × State :=
  let win := match r.src with | .win _ _ => true | _ => false
  if win && (s.paddock r.paddock).st != 1 then (true, staged, pkeRefuse r stDenied s)
  else if pkeBad b win key.tag cinch || (!pSrct b && badHostRef s r (pSrc b) (pLen b) false) ||
      badHostRef s r (pDst b) (dstSpan b) true || badHostRef s r (pDst2 b) (dst2Span b) true then
    (true, staged, pkeRefuse r stMalformed s)
  else
    let (code, s1) := if pHold b then holdStage r cinch (dstSpan b) (pDst b) staged s else (0, s)
    let h := citedHandle r key (pKeyref b)
    let kt := if pkeCites b then liveTack s1 r.paddock h else none
    let st := if pSrct b then liveTack s1 r.paddock (pSrc b) else none
    let dt := if pDstt b then getTack s1 r.paddock (pDst b) else none
    let w := windowStatus s1 (kt.toList ++ st.toList ++ dt.toList)
    let denied := code == 1 || pkeDenied s1 r b key aux
    let used := kt.toList ++ st.toList
    if !s1.pk.entropyOk && !opNoEntropy (pOp b) then (true, code, pkeRefuseHeld r stBusyRetry cinch code s1)
    else if w = 255 then (false, code, s1)
    else if !denied && used.any (fetchFailed s1) then (true, code, pkeRefuseHeld r stMediaError cinch code s1)
    else if !denied && used.any (needFetch s1) then (false, code, startFetches s1 used)
    else
      let row := if denied then stDenied else if w ≠ stOK then w else if kt.any (useOverLimit s1) then stQuota else stOK
      if row = stOK ∧ !kt.all (useWithinBound s1) then (false, code, leaseWait h s1)
      else
        let s2 := if row = stOK && kt.isSome then pendUse h s1 else s1
        let s3 := if row = stOK && pDstt b then updTack (pDst b) (fun t => { t with fillPending := true }) s2 else s2
        let j : PJob := {
          no := s3.pk.nextNo, req := r, body := b, tack := if kt.isSome then h else 0,
          tack2 := if pSrct b then pSrc b else if pDstt b then pDst b else 0, usesKey := row == stOK && kt.isSome, row := row,
          slices := pkeSlices b, wide := pkeWide b, done := 0, eng := none, phys := 0xFF, bank := 0, cut := 0,
          adm := s3.stride % 2 ^ 32, admTick := s3.tick, res := 0, out := [], fill := [],
          held := match code with | 0 => none | 1 => none | k + 2 => some (cinch % 4096, k) }
        (true, code, { s3 with pk := { s3.pk with jobs := s3.pk.jobs ++ [j], nextNo := s3.pk.nextNo + 1 } })

/-! ### Tracks (R123–R125) -/

/-- Jobs on the track of paddock `p` and logical engine `e`. -/
def trackJobs (s : State) (p e : Nat) : List PJob := s.pk.jobs.filter (fun j => j.req.paddock == p && j.eng == some e)

/-- The lowest quarter of logical engine `e` that paddock `p` owns (R124). -/
def trackQuarter (s : State) (p e : Nat) : Nat :=
  let a := runStart s.time 1 p
  let b := a + effShare s.time 1 p
  ((List.range 4).find? (fun j => decide (a ≤ e * 256 + 64 * j) && decide (e * 256 + 64 * j < b))).getD 0

/-- A track offers slice 1 of a job in this stride (R125). -/
def trackOffers (s : State) (p e : Nat) (wide : Bool) : Bool :=
  (match physOf s 1 e with | some u => isActive s 1 u && !s.pk.wiped.contains (256 * u + p) | none => false) &&
  (match trackJobs s p e with
   | [] => true
   | [x] => !x.wide && !wide && decide (x.slices ≤ x.done + 2)
   | _ => false)

/-- Replace a job. -/
def putPJob (j : PJob) (s : State) : State :=
  { s with pk := { s.pk with jobs := s.pk.jobs.map (fun x => if x.no = j.no then j else x) } }

/-- Put a job on a track (R106, R124). -/
def startJob (j : PJob) (e : Nat) (s : State) : State :=
  let q := trackQuarter s j.req.paddock e
  let taken := (trackJobs s j.req.paddock e).any (fun x => x.bank == 2 * q)
  putPJob { j with eng := some e, phys := (physOf s 1 e).getD 0xFF, bank := if taken then 2 * q + 1 else 2 * q } s

/-- Start a paddock's jobs in admission order while a track offers this stride; the lowest engine wins (R125). -/
def startJobs (p : Nat) : List PJob → State → State
  | [], s => s
  | j :: js, s =>
    match (slotIndices s 1 p).find? (fun e => trackOffers s p e j.wide) with
    | none => s
    | some e => startJobs p js (startJob j e s)

/-! ### Operand memory (R105, R106, R124, R131) -/

/-- The first operand-memory word of a job's bank, and how many words it holds. -/
def bankSpan (j : PJob) : Nat × Nat := (8192 * j.phys + 1024 * j.bank, if j.wide then 2048 else 1024)

/-- Operands move into the job's bank; its other words are zeros (R120; log 144). -/
def loadBank (j : PJob) (bs : List Byte) (s : State) : State :=
  let (a, n) := bankSpan j
  let ws := ((chunks 8 bs).map (fun c => BitVec.ofNat 64 (leToNat c))).take n
  { s with pk := { s.pk with
    words := Tab.setSlice 0 (Tab.clearRange 0 s.pk.words a (a + n)) a ws,
    poison := Tab.clearRange false s.pk.poison a (a + n) } }

/-- The job's bank is wiped with the multiplier's and the outlet's registers for the job (R131). -/
def wipeBank (j : PJob) (s : State) : State :=
  let gone (t : Tab (Nat × List Byte)) : Tab (Nat × List Byte) :=
    if (Tab.get (0, []) t j.phys).1 = j.no + 1 then Tab.set (0, []) t j.phys (0, []) else t
  let s1 := loadBank j [] s
  { s1 with pk := { s1.pk with mult := gone s1.pk.mult, outlet := gone s1.pk.outlet } }

/-- A word of the job's bank is uncorrectable (R18). -/
def bankBad (s : State) (j : PJob) : Bool :=
  let (a, n) := bankSpan j
  s.pk.poison.any (fun p => p.2 && decide (a ≤ p.1) && decide (p.1 < a + n))

/-- Substitute operands of the job's size (R128): from the engine's DRBG, or 0x5A bytes while the entropy source fails. -/
def substitute (j : PJob) (s : State) : State :=
  let n := max (8 * pWords j.body) (2 * fieldLen (pOp j.body) (pCurve j.body))
  let (bs, s1) := if s.pk.entropyOk then engineBytes j.phys n s else (List.replicate n 0x5A, s)
  loadBank j bs s1

/-- Slice 1: the use is counted, the input read, the key moved into the bank, random values drawn, and the outcome formed (R120,
R128 rows 7 and 10 to 12); for rows 4 to 7 the bank holds substitute operands. -/
def pkeStart (j : PJob) (s : State) : PJob × State :=
  if j.row ≠ stOK then (j, substitute j s)
  else
    let s1 := if j.usesKey then countUse j.tack s else s
    let t2 := tackRec s1 j.tack2
    let (inp, s2) :=
      if (j.usesKey && (tackRec s1 j.tack).any (fun t => t.bad)) || (pSrct j.body && t2.any (fun t => t.bad)) then (none, eccFound 4 s1)
      else if pSrct j.body then (let (fb, st) := drawBytes (pLen j.body) s1; (some fb, st))
      else
        let (d, refused, st) := jobRead j.req (pSrc j.body) (pLen j.body) s1
        (d, match d, j.held with
          | none, some (i, k) => if refused then markAbort i 3 stDenied k st else st
          | _, _ => st)
    match inp with
    | none => ({ j with res := stMediaError }, s2)
    | some d =>
      let op := pOp j.body
      let lenb := (t2.map (fun t => t.lenb)).getD 0
      let mat := ((tackRec s2 j.tack).map (fun t => t.material)).getD []
      let (seed, s3) := engineBytes j.phys (seedLen op (pCurve j.body) (pHash j.body) (pAux j.body) lenb) s2
      let (blind, s4) := engineBytes j.phys (blindLen op (pCurve j.body) (8 * pWords j.body)) s3
      let a : PkeArgs := {
        op := op, curve := pCurve j.body, sel := pHash j.body, aux := pAux j.body, k := 8 * pWords j.body,
        keyin := pKeyin j.body, mat := mat, input := d,
        wrapped := if pSrct j.body then t2.map (fun t => t.material) else none, seed := seed, blind := blind,
        draw := beToNat ((engineDrbg s4 j.phys).key ++ (engineDrbg s4 j.phys).v),
        algo := (t2.map (fun t => t.algo)).getD 0, lenb := lenb }
      let o := pkeRun a
      let row := if o.status = peRange ∨ o.status = pePoint then o.status else stOK
      ({ j with row := row, res := o.status, out := o.out, fill := o.fill },
        if row = stOK then loadBank j (mat ++ d) s4 else substitute j s4)

/-- Take a finished job out, its bank wiped, and leave its result (R118, R128, R131). -/
def pkeEnd (j : PJob) (status outlen due : Nat) (s : State) : State :=
  let s0 := if j.eng.isSome then wipeBank j s else s
  let s1 := { s0 with pk := { s0.pk with
    jobs := s0.pk.jobs.filter (fun x => x.no != j.no),
    pend := s0.pk.pend ++ [jobPend j.req due status (if j.done = 0 then 0xFF else j.phys) j.done outlen j.adm] } }
  let s2 := if j.usesKey && j.done = 0 then dropUse j.tack s1 else s1
  let s3 := if pDstt j.body && status ≠ stOK && (tackRec s2 j.tack2).any (fun t => t.fillPending) &&
      (j.row = stOK || j.row == peRange || j.row == pePoint) then unfillTack j.tack2 s2 else s2
  match j.held with
  | some (i, k) => endHeld i k (match (getCinch s3 i).actions[k]? with
      | some a => ((a.held.map (fun x => x.job)).getD 0) | none => 0) status (if status = stOK then j.out else []) s3
  | none => s3

/-- Zeros over the whole output span (R128). -/
def pkeZeros (j : PJob) (s : State) : State :=
  if j.held.isSome then s
  else
    let s1 := (jobWrite j.req (pDst j.body) (zeros (dstSpan j.body)) s).2
    (jobWrite j.req (pDst2 j.body) (zeros (dst2Span j.body)) s1).2

/-- The key material that fills the slot, or none where its length does not fit (R190). -/
def pkeFill (j : PJob) (t : Tack) : Option (List Byte) :=
  let op := pOp j.body
  if op = 8 then (if j.fill.length = t.lenb then some j.fill else none)
  else if op = 0x0A ∨ op = 0x12 ∨ op = 0x15 then some (agreeKey j.fill t.label t.lenb)
  else some j.fill

/-- The final slice (R120, R128). -/
def pkeFinal (j : PJob) (s : State) : State :=
  let due := s.tick + 1
  if j.row ≠ stOK then pkeEnd j j.row 0 due (pkeZeros j s)
  else if j.res = stMediaError then pkeEnd j stMediaError 0 due s
  else if j.res = stBusyRetry then pkeEnd j stBusyRetry 0 due (setEvent 4 6 s)
  else if j.res = stDistrust then pkeEnd j stDistrust 0 due (if pOp j.body = 8 then pkeZeros j s else s)
  else if j.held.isSome then pkeEnd j stOK j.out.length due s
  else if pDstt j.body then
    match (tackRec s j.tack2).bind (fun t => if t.st = 1 then pkeFill j t else none) with
    | none => pkeEnd j stDistrust 0 due s
    | some key =>
      let pub := if pOp j.body = 0x18 ∨ pOp j.body = 0x19 then j.out else []
      let (ok, s1) := jobWrite j.req (pDst2 j.body) pub s
      if ok then pkeEnd j stOK pub.length due (fillTack j.tack2 key s1) else pkeEnd j stMediaError 0 due s1
  else
    let (ok, s1) := jobWrite j.req (pDst j.body) j.out s
    if ok then pkeEnd j stOK j.out.length due s1 else pkeEnd j stMediaError 0 due s1

/-- One slice that nothing disturbs: the inlet's, the multiplier's, or the outlet's, with their registers (R105, R120). -/
def pkeSlice (j : PJob) (s : State) : State :=
  let (j1, s1) := if j.done = 0 then pkeStart j s else (j, s)
  let j2 := { j1 with done := j1.done + 1 }
  let s2 := putPJob j2 s1
  if j2.done = j2.slices then
    pkeFinal j2 { s2 with pk := { s2.pk with outlet := Tab.set (0, []) s2.pk.outlet j2.phys (j2.no + 1, j2.out) } }
  else if j.done = 0 then s2
  else { s2 with pk := { s2.pk with mult := Tab.set (0, []) s2.pk.mult j2.phys (j2.no + 1, j2.out ++ j2.fill) } }

/-- Operations that R112 checks. -/
def opChecked (op : Nat) : Bool :=
  op == 1 || op == 3 || op == 4 || op == 8 || op == 0x10 || op == 0x13 || opFills op

/-- An engine fault in the stride: 1 result check, 2 overrun, 3 operand memory (PK_ENGINE_STAT.REASON), or 0. -/
def engineFault (fs : List HwFault) (s : State) (j : PJob) : Nat :=
  if s.us.overruns.contains (1, j.phys) then 2
  else if fs.any (fun f => f == .engineCheck j.phys) && opChecked (pOp j.body) then 1
  else if fs.any (fun f => f == .engineMemory j.phys) || (j.done != 0 && bankBad s j) then 3 else 0

/-- Note an engine's fault: events, PK_CHECKFAILS, the life count, PK_FAULT and the fence due (R132). -/
def noteEngine (j : PJob) (reason : Nat) (s : State) : State :=
  let s1 := if reason = 1 then
      itemAdd (0x1100 + j.phys) 1 (setEvent 4 0 { s with pk := { s.pk with checkfails := min (s.pk.checkfails + 1) 0xFFFFFFFF } })
    else s
  { s1 with pk := { s1.pk with
    fenceDue := s1.pk.fenceDue ++ [(j.phys, reason, j.req.paddock)],
    reasons := Tab.set 0 s1.pk.reasons j.phys reason,
    fault := BitVec.ofNat 64 (s1.stride % 2 ^ 32 * 2 ^ 32 + j.req.paddock % 256 * 2 ^ 24 + pOp j.body * 2 ^ 16 + j.phys * 2 ^ 8 + j.bank) } }

/-- A job's slice of the stride with the faults that show: the job that finds one ends (R128 rows 8 and 10). -/
def pkeStep (fs : List HwFault) (s : State) (no : Nat) : State :=
  match s.pk.jobs.find? (fun j => j.no == no) with
  | none => s
  | some j =>
    let k := if s.pk.fenceDue.any (fun f => f.1 == j.phys) then 0 else engineFault fs s j
    if k = 0 then pkeSlice j s
    else
      let (j1, s1) := if j.done = 0 then pkeStart j s else (j, s)
      let j2 := { j1 with done := j1.done + 1 }
      let s2 := noteEngine j2 k s1
      if k = 3 then pkeEnd j2 stMediaError 0 (s.tick + 1) (eccFound 5 s2)
      else pkeEnd j2 stUnitFenced 0 (s.tick + 1) s2

/-- Every paddock's starts and slices of the stride that ends. -/
def pkeSlicesRun (fs : List HwFault) (s : State) : State :=
  let busy := (List.range 256).filter (fun p => s.pk.jobs.any (fun j => j.req.paddock == p))
  let s1 := busy.foldl (fun st p => startJobs p
    (st.pk.jobs.filter (fun j => j.req.paddock == p && j.eng.isNone && decide (j.admTick < st.tick))) st) s
  let runs := (s1.pk.jobs.filter (fun j => match j.eng with
    | some e => (slotIndices s1 1 j.req.paddock).contains e | none => false)).map (fun j => j.no)
  let s2 := runs.foldl (pkeStep fs) s1
  { s2 with pk := { s2.pk with wiped := [] } }

/-! ### Boundaries (R127, R129, R132) -/

/-- A job ends ABORTED in the stride that begins: its bank is wiped in it (R129, R131). -/
def pkeAbort (j : PJob) (status : Nat) (s : State) : State :=
  let s1 := pkeEnd j status 0 s.tick s
  if j.eng.isSome then { s1 with pk := { s1.pk with wiped := (256 * j.phys + j.req.paddock) :: s1.pk.wiped } } else s1

/-- Mark the jobs that satisfy a test to end at the next boundary (R129). -/
def cutPke (test : PJob → Bool) (status : Nat) (s : State) : State :=
  { s with pk := { s.pk with jobs := s.pk.jobs.map (fun j => if test j && j.cut == 0 then { j with cut := status } else j) } }

/-- Jobs that a cancel or a revocation ends at this boundary. -/
def pkeCuts (s : State) : State :=
  s.pk.jobs.foldl (fun st j => if j.cut = 0 then st else pkeAbort j j.cut st) s

/-- Fences due: the engine is fenced, the other jobs in its banks end ABORTED and are lost (R132, R466). -/
def pkeFences (s : State) : State :=
  let s1 := s.pk.fenceDue.foldl (fun st f =>
    if (getUnit st 1 f.1).st = 3 then st
    else
      let st1 := setEvent 4 1 (fenceUnit 1 f.1 f.2.1 f.2.2 st)
      let st2 := setEventIf (!spareLeft st 1 && (logicalOf st 1 f.1).isSome) 4 2 st1
      (st2.pk.jobs.filter (fun j => j.eng.isSome && j.phys == f.1)).foldl (fun x j => noteLostJob (pkeAbort j stAborted x)) st2) s
  { s1 with pk := { s1.pk with fenceDue := [] } }

/-- A layout change at a frame boundary: a started job whose paddock no longer owns its quarter ends (R127). -/
def pkeLayout (s : State) : State :=
  s.pk.jobs.foldl (fun st j => match j.eng with
    | none => st
    | some e =>
      let a := runStart s.time 1 j.req.paddock
      let pos := e * 256 + 64 * (j.bank / 2)
      if a ≤ pos ∧ pos < a + effShare s.time 1 j.req.paddock then st else setEvent 4 5 (pkeAbort j stAborted st)) s

/-! ### Results, randomness, diagnostics (R113, R118, R131, R133) -/

/-- PKE_JOB_COMPLETE: the result is written where its source reads it (R45, R118, R128). -/
def execPkeJobComplete (src : Src) (s : State) : Host.Outcome State Fault Refusal :=
  match s.pk.pend.find? (fun p => decide (p.req.src = src)) with
  | none => .next s
  | some p =>
    if s.tick < p.due || !hostTurn s src then .next s
    else
      let s1 := { s with pk := { s.pk with pend := s.pk.pend.filter (fun x => decide (x.req.src ≠ src)) } }
      let s2 := if p.status = stUnitFenced then noteLostJob s1 else s1
      match src with
      | .win c w =>
        let s3 := { s2 with pk := { s2.pk with
          wins := Tab.upd Win.reset s2.pk.wins (c * 8 + w) (fun x => x.finish (p.bytes (s.stride % 2 ^ 32))) } }
        .next (if (Tab.get Win.reset s.pk.wins (c * 8 + w)).ie then setPendFor c 4 p.req.paddock s3 else s3)
      | .host fn q seq => .next (hostComplete fn q seq (p.bytes (s.stride % 2 ^ 32)) s2)
      | .auto _ => .next s2

/-- The DRBG of an engine, or of tack custody (68), reseeds if it is due, or is refused for lack of entropy (R113). -/
def reseedDue (u : Nat) (s : State) : State :=
  let d := if u < 68 then engineDrbg s u else s.tk.drbg
  if !d.due s.tick then s
  else
    let (d1, s1) := drbgReady d s
    if u < 68 then setDrbg u d1 s1 else { s1 with tk := { s1.tk with drbg := d1 } }

/-- DRBG_RESEED: every DRBG that is due, engine by engine and custody's last (R113). -/
def execDrbgReseed (s : State) : Host.Outcome State Fault Refusal :=
  .next ((List.range 69).foldl (fun st u => reseedDue u st) s)

/-- ENTROPY_HEALTH_FAIL (R113). -/
def execEntropyHealthFail (s : State) : Host.Outcome State Fault Refusal :=
  if s.pm.onCell then .next s
  else .next (setEvent 4 3 { s with pk := { s.pk with entropyOk := false, sourceBad := true } })

/-- ENTROPY_HEALTH_RECOVERED (R113): ENTROPY_OK returns once the first seeds have been taken, which a boot that found the source
failing takes now. -/
def execEntropyHealthRecovered (s : State) : Host.Outcome State Fault Refusal :=
  let s1 := { s with pk := { s.pk with sourceBad := false } }
  if s.pm.onCell ∨ s.pm.step < 4 then .next s1
  else if s.pk.drbgs.isEmpty then .next (seedDrbgs s1)
  else .next { s1 with pk := { s1.pk with entropyOk := true } }

/-- The bank that PK_DIAG_SEL names holds a job (R131). -/
def diagBusy (s : State) : Bool :=
  let u := natBits s.pk.diagSel.toNat 16 7
  let k := natBits s.pk.diagSel.toNat 10 3
  s.pk.jobs.any (fun j => j.eng.isSome && j.phys == u && (j.bank == k || (j.wide && j.bank / 2 == k / 2)))

/-- A read of PK_DIAG_DATA: the word of a bank that holds no job, which is zero after any wipe, or zeros with DIAG_DENIED where it
holds one (R131); an uncorrectable word is not returned (R18). -/
def readDiag (warden : Bool) (s : State) : W64 × State :=
  let a := 8192 * natBits s.pk.diagSel.toNat 16 7 + natBits s.pk.diagSel.toNat 0 13
  if !warden then (0, s)
  else if diagBusy s then (0, setEvent 4 4 s)
  else if Tab.get false s.pk.poison a then (0, eccFound 5 s)
  else (Tab.get 0 s.pk.words a, s)

/-- PK_DIAG_READ: core `c` reads PK_DIAG_DATA into G[rd] (R131, R133). -/
def execPkDiagRead (c rd : Nat) (s : State) : Host.Outcome State Fault Refusal :=
  if !coreMay s c false 0x100400030 then .next s else
  let (v, s1) := readDiag (getCore s c).warden s
  .next (updCore c (fun k => { k with g := if rd % 64 = 0 then k.g else Tab.set 0 k.g (rd % 64) v }) s1)

end Sys2Proof.Machine
end

