-- ==== Sys2Proof/Machine/LifeCycle.lean ====
section
/-! DEFINITION. Life cycle and debug authorisation (R418–R435): transitions and their fuses, the TAP and its mailbox,
certificates, and sessions with the regions the monitor gives them. -/

namespace Sys2Proof.Machine

/-! ### Registers (R435) -/

/-- LC_STAT. -/
def lcStat (s : State) : W32 :=
  BitVec.ofNat 32 (s.life + 256 * b2n s.lc.busy.isSome + 512 * b2n s.lc.skew + 1024 * b2n (!s.lc.fwHash.isEmpty) +
    2048 * b2n (!s.lc.dkeyHash.isEmpty) + 4096 * b2n (!s.lc.vkeyHash.isEmpty))

/-- LC_DBGSTAT. -/
def lcDbgStat (s : State) : W32 :=
  BitVec.ofNat 32 (s.lc.result * 2 ^ 24 + 2 * b2n s.lc.denied + (match s.lc.session with
    | some d => d.rights * 2 ^ 18 + d.signer * 2 ^ 16 + 4 * b2n d.jtag + 1
    | none => 0))

/-! ### Rights (R418, R430) -/

/-- The rights in force: all of them in BLANK and TEST, else the open session's. -/
def dbgRights (s : State) : Nat :=
  if s.life ≤ 1 then 0x3F else match s.lc.session with | some d => d.rights | none => 0

/-- A right is in force. -/
def hasRight (s : State) (i : Nat) : Bool := natBit (dbgRights s) i

/-- A paddock lies in the mask. -/
def dbgMask (s : State) (p : Nat) : Bool :=
  if s.life ≤ 1 then true else match s.lc.session with | some d => natBit (leToNat d.mask) p | none => false

/-- A CSR window lies in the mask. -/
def dbgWindow (s : State) (w : Nat) : Bool :=
  if s.life ≤ 1 then true else match s.lc.session with | some d => natBit d.csrMask w | none => false

/-- A DAP HALT holds core `c` now: the core runs for the halted paddock, at a level the rights cover (R430). -/
def isHalted (s : State) (c : Nat) : Bool :=
  let k := getCore s c
  Tab.get 0 s.lc.halts c == k.paddock + 1 && hasRight s 0 && dbgMask s k.paddock && (!k.warden || hasRight s 5)

/-! ### Sessions (R431, R433) -/

/-- A region of a Pacer unit as unit 39 gets it for paddock `p`, where it admits the paddock's own level (R431). -/
def debugRegion (p : Nat) (r : W64) : Option W64 :=
  let acc : Access := { unit := 0, paddock := p, cls := 0 }
  if rgnLive r && (rgnAdmits r acc false || rgnAdmits r acc true) then
    some ((r &&& 0xFFFFFFFFFFC00006) ||| BitVec.ofNat 64 (p % 256 * 2 ^ 14 + 255 * 2 ^ 6 + 2 ^ 5))
  else none

/-- The regions the monitor writes for a mask (R431); unit 39 holds 32 of them. -/
def debugRegions (s : State) (mask : Nat) : List W64 :=
  let all := ((List.range 256).filter (natBit mask)).flatMap (fun p =>
    (List.range 26).flatMap (fun u => (unitRegions s u).filterMap (debugRegion p)))
  (all.foldl (fun acc r => if acc.contains r then acc else acc ++ [r]) []).take 32

/-- A session opens (R429, R431, R459). -/
def openSession (d : DbgSession) (s : State) : State :=
  let s1 := { s with lc := { s.lc with session := some d } }
  let s2 := (debugRegions s (leToNat d.mask)).zipIdx.foldl (fun st r => writeRegion 39 r.2 true r.1 st) s1
  ledgerEvent 0x2032 d.rights ((List.range 8).map (fun i => field d.mask (4 * i) 4)) (itemAdd 0x1172 1 (setEvent 16 3 s2))

/-- A session ends: halted cores resume and unit 39 is disabled (R433); causes 1 time, 2 END, 3 TAP, 4 SHED,
5 transition. -/
def endSession (cause : Nat) (s : State) : State :=
  match s.lc.session with
  | none => s
  | some _ =>
    let s1 := { s with
      lc := { s.lc with session := none, halts := [], steps := [] },
      br := { s.br with rgn := Tab.clearRange 0 s.br.rgn (39 * 32) (40 * 32), warn := Tab.set false s.br.warn 39 false } }
    ledgerEvent 0x2033 cause [] (setEvent 16 4 s1)

/-- DEBUG_END_REQUEST: 1 written to 0x1013:00 (R433). -/
def execDebugEndRequest (s : State) : Host.Outcome State Fault Refusal := .next (endSession 2 s)

/-- DEBUG_SESSION_EXPIRY: the first stride at or after UNTIL, in UNSURE with t + U ≥ UNTIL (R433). -/
def execDebugSessionExpiry (s : State) : Host.Outcome State Fault Refusal :=
  match s.lc.session with
  | none => .next s
  | some d =>
    let t := s.time.now / 1000 * 1000
    if d.untilT ≤ (if timeState s.time = 3 then t + s.time.uNow else t) then .next (endSession 1 s) else .next s

/-- A debug access was refused (R315, R431): DBG_DENIED in both places, the item and the event. -/
def dbgDenied (wr : Bool) (code a : Nat) (s : State) : State :=
  ledgerEvent 0x2034 (b2n wr * 2 ^ 24 + code * 2 ^ 16) (lowHigh (a % 2 ^ 40))
    (itemAdd 0x1174 1 (setEvent 10 3 { s with lc := { s.lc with denied := true } }))

/-! ### Transitions (R418–R422) -/

/-- Fuses of the pattern of a state, from the word before it (R420). -/
def lcPattern (target : Nat) (old : W64) : W64 :=
  match target with
  | 1 => 0xFFFF | 2 => 0xFFFFFFFF | 3 => 0xFFFFFFFFFFFF | 4 => 0x00FFFFFFFFFFFFFF
  | _ => old ||| 0xFF00000000000000

/-- The majority of three words. -/
def majority (a b c : W64) : W64 := (a &&& b) ||| (a &&& c) ||| (b &&& c)

/-- Majority word and SKEW of the copies as they stand. -/
def readCopies (s : State) : State :=
  let c (i : Nat) : W64 := Tab.get 0 s.lc.copies i
  let m := majority (c 0) (c 1) (c 2)
  { s with lc := { s.lc with word := m, skew := [c 0, c 1, c 2].any (fun x => x &&& ~~~m != 0) } }

/-- The hold-up bank stands at 11.0 V or more and no brown-out holds (R419). -/
def holdupOk (s : State) : Bool :=
  !s.pm.vaultBo && !s.pm.vholdBo && decide (11000 ≤ natBits (Tab.get 0 s.pm.rails 8).toNat 0 16)

/-- The transition exists, from the present state, for this requester (R419). -/
def transitionListed (s : State) (target : Nat) (jtag : Bool) : Bool :=
  match target with
  | 1 => jtag && s.life == 0
  | 2 => jtag && s.life == 1 && !s.lc.fwHash.isEmpty
  | 3 => !jtag && s.life == 2 && s.tm.locked && !s.lc.dkeyHash.isEmpty
  | 4 => !jtag && s.life == 3
  | 5 => if jtag then s.life ≤ 1 else 2 ≤ s.life && s.life ≤ 4
  | _ => false

/-- The device executes no SHED and waits for none. -/
def shedIdle (s : State) : Bool := !s.tm.shedBusy && s.tm.shedDue.isNone

/-- A requested transition (R419): refused, or what precedes the fuses is done and their programming begins. The number
is the status answered: OK or DENIED. -/
def transition (target : Nat) (jtag : Bool) (s : State) : Nat × State :=
  if !transitionListed s target jtag || s.lc.busy.isSome then (stDenied, s)
  else if !holdupOk s then (stDenied, setEvent 19 1 (setEvent 16 1 s))
  else
    let s1 := endSession 5 s
    let s2 :=
      if target = 2 then (let r := drawBytes 32 s1
                           let k := drawBytes 32 r.2
                           let rec_ := keyRecord r.1 2 k.1
                           reservePut 0x05 0 rec_ { k.2 with tk := { k.2.tk with keep := some r.1, placeRec := some rec_ } })
      else if target = 4 ∨ (target = 5 ∧ 2 ≤ s.life) then respond 3 s1
      else if target = 5 then respond 2 s1
      else s1
    (stOK, { s2 with lc := { s2.lc with busy := some (target, if shedIdle s2 then some s2.tick else none) } })

/-- A transition through the mailbox: it is selected and answers (R425). -/
def mailboxOpen (s : State) : Bool := s.lc.tap == 0x10 && s.life != 0xFF

/-- Put the mailbox's reply. -/
def mailReply (bs : List Byte) (s : State) : State := { s with lc := { s.lc with reply := bs } }

/-- A TRANSITION request of the mailbox, accepted in BLANK and TEST only. -/
def mailTransition (target : Nat) (s : State) : State :=
  if mailboxOpen s && s.life ≤ 1 then
    (let r := transition target true s
     mailReply [BitVec.ofNat 8 r.1] r.2)
  else s

def execTransitionToTest (s : State) : Host.Outcome State Fault Refusal := .next (mailTransition 1 s)
def execTransitionToCustody (s : State) : Host.Outcome State Fault Refusal := .next (mailTransition 2 s)
def execTransitionToField (s : State) : Host.Outcome State Fault Refusal := .next (transition 3 false s).2
def execTransitionToReturn (s : State) : Host.Outcome State Fault Refusal := .next (transition 4 false s).2

/-- TRANSITION_TO_SCRAP: by the mailbox in BLANK and TEST, by an officer afterwards. -/
def execTransitionToScrap (jtag : Bool) (s : State) : Host.Outcome State Fault Refusal :=
  .next (if jtag then mailTransition 5 s else (transition 5 false s).2)

/-- The fuses of the target are in all three copies. -/
def programCopies (target : Nat) (s : State) : State :=
  let p := lcPattern target s.lc.word
  { s with lc := { s.lc with copies := (List.range 3).foldl (fun t i => Tab.upd 0 t i (fun v => v ||| p)) s.lc.copies, busy := none } }

/-- TRANSITION_COMPLETE: 1.2 ms of programming are over (R421). -/
def execTransitionComplete (s : State) : Host.Outcome State Fault Refusal :=
  match s.lc.busy with
  | some (target, some start) =>
    if s.tick < start + 1200 then .next s
    else
      let s1 := readCopies (programCopies target s)
      let s2 := if target = 2 then custodyResp s1 else s1
      let s3 := ledgerEvent 0x2030 s2.life [] (setEvent 16 0 (updHeld s2))
      .next { s3 with pm := { s3.pm with held := s3.pm.held || s3.pm.porPending, porPending := false } }
  | _ => .next s

/-- VDD_VAULT is lost while fuses are programmed (R421): whole copies by the time elapsed, some of the next one's fuses. -/
def cutTransition (s : State) : State :=
  match s.lc.busy with
  | some (target, some start) =>
    let whole := min 3 ((s.tick - start) / 400)
    let p := lcPattern target s.lc.word
    let (n, s1) := drawNat s
    let part := p &&& BitVec.ofNat 64 n
    { s1 with lc := { s1.lc with
      busy := none,
      copies := (List.range 3).foldl (fun t i =>
        if i < whole then Tab.upd 0 t i (fun v => v ||| p) else if i = whole then Tab.upd 0 t i (fun v => v ||| part) else t) s1.lc.copies } }
  | _ => { s with lc := { s.lc with busy := none } }

/-- Boot step 1 (R420, R422): the majority word, completion of a copy that lacks fuses where hold-up allows, and a keep
key that no state holds is destroyed. -/
def lifeBoot (s0 : State) : State :=
  let s := readCopies s0
  let m := s.lc.word
  let s1 := if holdupOk s then readCopies { s with lc := { s.lc with
      copies := (List.range 3).foldl (fun t i => Tab.upd 0 t i (fun v => if v &&& ~~~m = 0 then m else v)) s.lc.copies } } else s
  if s1.life ≤ 1 then { s1 with tk := { s1.tk with keep := none } } else s1

/-! ### TAP (R423, R424) -/

/-- Select an instruction; one that waited for its SHED no longer takes effect. -/
def tapSelect (code : Nat) (s : State) : State :=
  { s with lc := { s.lc with tap := code, bscan := none, bscanOn := code == 0 || code == 4 || code == 5 } }

/-- Select a boundary-scan instruction: in CUSTODY and FIELD it first sheds (R424). -/
def tapBscan (code : Nat) (s : State) : State :=
  if s.life = 2 ∨ s.life = 3 then
    (let s1 := ledgerEvent 0x2035 code [] (setEvent 16 5 (respond 2 s))
     { s1 with lc := { s1.lc with bscan := some code } })
  else tapSelect code s

def execTapBypass (s : State) : Host.Outcome State Fault Refusal := .next (tapSelect 0xFF s)
def execTapIdcode (s : State) : Host.Outcome State Fault Refusal := .next (tapSelect 0x01 s)
def execTapSamplePreload (s : State) : Host.Outcome State Fault Refusal := .next (tapSelect 0x02 s)
def execTapExtest (s : State) : Host.Outcome State Fault Refusal := .next (tapBscan 0x00 s)
def execTapClamp (s : State) : Host.Outcome State Fault Refusal := .next (tapBscan 0x04 s)
def execTapHighz (s : State) : Host.Outcome State Fault Refusal := .next (tapBscan 0x05 s)

/-- BSCAN_EFFECT: the first boundary after the SHED has completed (R424). -/
def execBscanEffect (s : State) : Host.Outcome State Fault Refusal :=
  match s.lc.bscan with
  | some code => if shedIdle s && !s.tm.shedPending then .next (tapSelect code s) else .next s
  | none => .next s

/-- TAP_MAILBOX: in INERT the code acts as BYPASS (R423). -/
def execTapMailbox (s : State) : Host.Outcome State Fault Refusal := .next (tapSelect (if s.life = 0xFF then 0xFF else 0x10) s)

/-- TAP_DAP: while a right is in force, else as BYPASS. -/
def execTapDap (s : State) : Host.Outcome State Fault Refusal := .next (tapSelect (if dbgRights s = 0 then 0xFF else 0x11) s)

/-- TEST_LOGIC_RESET: IDCODE, and a session delivered over JTAG ends (R423, R433). -/
def execTestLogicReset (s : State) : Host.Outcome State Fault Refusal :=
  .next (tapSelect 0x01 (if s.lc.session.any (fun d => d.jtag) then endSession 3 s else s))

/-! ### Nonce and certificates (R425–R429) -/

/-- A new nonce replaces the old one (R427). -/
def newNonce (s : State) : State :=
  let r := drawBytes 16 s
  { r.2 with lc := { r.2.lc with nonce := r.1, nonceFresh := true } }

/-- The state admits a certificate request (R425). -/
def certState (s : State) : Bool := 2 ≤ s.life && s.life ≤ 4

/-- MAILBOX_NONCE. -/
def execMailboxNonce (s : State) : Host.Outcome State Fault Refusal :=
  if mailboxOpen s && certState s then (let s1 := newNonce s; .next (mailReply s1.lc.nonce s1)) else .next s

/-- NONCE_READ: a read of LC_NONCE or 0x1011:00. -/
def execNonceRead (s : State) : Host.Outcome State Fault Refusal := .next (newNonce s)

/-- Row 1 of R429. -/
def certMalformed (b : List Byte) : Bool :=
  b.length != 288 || byteAt b 0 != 1 || !(byteAt b 2 == 1 || byteAt b 2 == 2) || byteAt b 3 != 0 ||
    field b 4 2 ≥ 64 || field b 6 2 != 0 || field b 0x50 4 ≥ 2 ^ 20 || !zeroSpan b 0x54 12 ||
    field b 0x20 8 == 0 || field b 0x28 8 == noEnd

/-- A presentation: one that passes row 1 consumes the nonce; in one stride the one over JTAG is taken first (R427). -/
def presentCert (b : List Byte) (jtag : Bool) (s : State) : State :=
  if certMalformed b then
    { s with lc := { s.lc with verify := s.lc.verify ++ [{ bytes := b, jtag := jtag, since := s.tick, nonceOk := false }] } }
  else
    let late (j : CertJob) : Bool := jtag && !j.jtag && j.since == s.tick
    let fresh := s.lc.nonceFresh || s.lc.verify.any (fun j => late j && !certMalformed j.bytes)
    { s with lc := { s.lc with
      nonceFresh := false,
      verify := s.lc.verify.map (fun j => if late j then { j with nonceOk := false } else j) ++
        [{ bytes := b, jtag := jtag, since := s.tick, nonceOk := fresh && (b.drop 0x10).take 16 == s.lc.nonce }] } }

/-- MAILBOX_PRESENT. -/
def execMailboxPresent (cert : List Byte) (s : State) : Host.Outcome State Fault Refusal :=
  if mailboxOpen s && certState s then .next (presentCert cert true s) else .next s

/-- CERTIFICATE_PRESENT: object 0x1012:00. -/
def execCertificatePresent (cert : List Byte) (s : State) : Host.Outcome State Fault Refusal := .next (presentCert cert false s)

/-- Whether an ECDSA signature r ‖ s over SHA-384 of a message holds under a P-384 key. -/
def p384Verify (pub sig msg : List Byte) : Bool :=
  let n := Config.curveOrder 2
  let r := beToNat (sig.take 48)
  let t := beToNat ((sig.drop 48).take 48)
  !reprBad r n && !reprBad t n && !pointBad 2 pub 48 &&
    (Config.curveOp 0x11 2 [pub, hashOf 2 msg, natToBE 48 r, natToBE 48 t]).isSome

/-- The result code of R429. -/
def certResult (j : CertJob) (s : State) : Nat :=
  let b := j.bytes
  let signer := byteAt b 2
  let keyHash := if signer = 1 then s.lc.dkeyHash else s.lc.vkeyHash
  firstStatus [(certMalformed b, 1),
    (byteAt b 1 != s.life || !certState s || (signer == 2 && s.life != 4) || (signer == 1 && s.lc.dkeyHash.isEmpty), 2),
    (field b 8 8 != s.lc.serial.toNat, 3), (!j.nonceOk, 4),
    (hashOf 2 ((b.drop 0x60).take 96) != keyHash, 5),
    (!p384Verify ((b.drop 0x60).take 96) ((b.drop 0xC0).take 96) (b.take 0xC0), 6),
    (decide (judgeWindow s.time (field b 0x20 8, field b 0x28 8) ≠ .inside), 7), (s.lc.session.isSome, 8)]

/-- CERT_VERIFY_COMPLETE: the oldest presentation is judged, and its session opens or it is refused (R428, R429). -/
def execCertVerifyComplete (s : State) : Host.Outcome State Fault Refusal :=
  match s.lc.verify with
  | [] => .next s
  | j :: js =>
    let r := certResult j s
    let b := j.bytes
    let s1 := { s with lc := { s.lc with verify := js, result := r } }
    let s2 := ledgerEvent 0x2031 (byteAt b 2 * 256 + r) [] (if j.jtag then mailReply [BitVec.ofNat 8 r] s1 else s1)
    if r = 0 then
      .next (openSession { rights := field b 4 2, signer := byteAt b 2, jtag := j.jtag, fromT := field b 0x20 8,
                           untilT := field b 0x28 8, mask := (b.drop 0x30).take 32, csrMask := field b 0x50 4 } s2)
    else .next (itemAdd 0x1173 1 (setEvent 16 2 s2))

/-- MAILBOX_END: accepted in any state. -/
def execMailboxEnd (s : State) : Host.Outcome State Fault Refusal := if mailboxOpen s then .next (endSession 2 s) else .next s

/-- MAILBOX_STATUS: LC_STAT and LC_DBGSTAT. -/
def execMailboxStatus (s : State) : Host.Outcome State Fault Refusal :=
  if mailboxOpen s then .next (mailReply (natToLE 4 (lcStat s).toNat ++ natToLE 4 (lcDbgStat s).toNat) s) else .next s

/-- MAILBOX_FWKEY: the owner firmware key hash, once, in TEST. -/
def execMailboxFwkey (hash : List Byte) (s : State) : Host.Outcome State Fault Refusal :=
  if mailboxOpen s && s.life == 1 && s.lc.fwHash.isEmpty then .next { s with lc := { s.lc with fwHash := takePad 48 hash } } else .next s

/-- Enrol the owner debug key: accepted once, in CUSTODY (R426, R434). -/
def enrolDebugKey (hash : List Byte) (s : State) : Bool × State :=
  if s.life = 2 ∧ s.lc.dkeyHash.isEmpty ∧ hash.length = 48 then (true, { s with lc := { s.lc with dkeyHash := hash } }) else (false, s)

/-- OWNER_DEBUG_KEY_ENROL: object 0x1020:00. -/
def execOwnerDebugKeyEnrol (hash : List Byte) (s : State) : Host.Outcome State Fault Refusal := .next (enrolDebugKey hash s).2

/-! ### Halts (R430) -/

/-- DEBUG_HALT: of core `c` for the paddock that LC_DBGSEL names; without the right the request is refused (R431). -/
def execDebugHalt (c : Nat) (s : State) : Host.Outcome State Fault Refusal :=
  if c < 26 && hasRight s 0 && dbgMask s s.lc.sel then
    .next { s with lc := { s.lc with halts := Tab.set 0 s.lc.halts c (s.lc.sel + 1) } }
  else .next (dbgDenied true 0 0 s)

/-- DEBUG_RESUME: the core is released. -/
def execDebugResume (c : Nat) (s : State) : Host.Outcome State Fault Refusal :=
  if hasRight s 0 && dbgMask s (Tab.get 0 s.lc.halts c - 1) then
    .next { s with lc := { s.lc with halts := Tab.set 0 s.lc.halts c 0, steps := Tab.set false s.lc.steps c false } }
  else .next (dbgDenied true 0 0 s)

end Sys2Proof.Machine
end

