-- ==== Sys2Proof/Machine/Waits.lean ====
section
/-! DEFINITION. Submission windows as one kind (R77, R93, R119, R140, R192, R507): their fields, a GO, requests that wait
unadmitted (R30, R51, R64, R198), and how a waiting request ends. -/

namespace Sys2Proof.Machine

/-- Window of unit `u` (0 cipher, 1 PKE, 2 Stable, 3 tack custody, 4 Cinch): window `w` of core `c`. -/
def getWin (u c w : Nat) (s : State) : Win :=
  match u with
  | 0 => Tab.get Win.reset s.cf.wins (c * 8 + w)
  | 1 => Tab.get Win.reset s.pk.wins (c * 8 + w)
  | 2 => Tab.get Win.reset s.st.wins c
  | 3 => Tab.get Win.reset s.tk.wins c
  | _ => Tab.get Win.reset s.cn.wins c

/-- Change a window. -/
def updWin (u c w : Nat) (f : Win → Win) (s : State) : State :=
  match u with
  | 0 => { s with cf := { s.cf with wins := Tab.upd Win.reset s.cf.wins (c * 8 + w) f } }
  | 1 => { s with pk := { s.pk with wins := Tab.upd Win.reset s.pk.wins (c * 8 + w) f } }
  | 2 => { s with st := { s.st with wins := Tab.upd Win.reset s.st.wins c f } }
  | 3 => { s with tk := { s.tk with wins := Tab.upd Win.reset s.tk.wins c f } }
  | _ => { s with cn := { s.cn with wins := Tab.upd Win.reset s.cn.wins c f } }

/-- 64-bit words of a unit's BODY. -/
def bodyWords : Nat → Nat | 0 => 6 | 1 => 6 | 4 => 8 | _ => 2

/-- BODY as bytes. -/
def winBody (u c w : Nat) (s : State) : List Byte := wordsBytes (getWin u c w s).body (bodyWords u)

/-- Submit a window's request once: whether it was admitted or refused, else how far its OUTPUT was staged. -/
def submitWin (u : Nat) (r : Req) (c w staged : Nat) (s : State) : Bool × Nat × State :=
  let x := getWin u c w s
  let b := winBody u c w s
  let h := x.handle.toNat
  match u with
  | 0 => cipherSubmit r b x.key x.aux h staged s
  | 1 => pkeSubmit r b x.key x.aux h staged s
  | 2 => let (ok, s1) := stallSubmit r b s; (ok, 0, s1)
  | 3 => let (ok, s1) := tackSubmit r b s; (ok, 0, s1)
  | _ =>
    match x.opc.toNat with
    | 1 => (true, 0, cinchOpen r c b h s)
    | 2 => let (ok, s1) := cinchStage r c b h x.key s; (ok, 0, s1)
    | 3 => (true, 0, cinchCommit r c b h s)
    | 4 => (true, 0, cinchAbort r c b h s)
    | 5 => (true, 0, cinchQuery r c b h s)
    | 6 => (true, 0, cinchLookup r c b h s)
    | 7 => (true, 0, cinchResolve r c b h s)
    | n => (true, 0, refuseReq r c n h stMalformed s)

/-- Try a waiting request; it goes on waiting in its place where it is not admitted. -/
def tryWait (w : WaitReq) (s : State) : State :=
  match w.req.src with
  | .win c i =>
    let (done, staged, s1) := submitWin w.unit w.req c i w.staged s
    if done then s1 else { s1 with waits := s1.waits ++ [{ w with staged := staged }] }
  | _ => s

/-- Every waiting request is tried again, oldest first; none is while a SHED is executing (R408). -/
def retryWaits (s : State) : State :=
  if s.shedding then s else s.waits.foldl (fun st w => tryWait w st) { s with waits := [] }

/-- A GO (R77, R507): a window in progress drops the write and sets BUSYWR. -/
def winGo (u c w : Nat) (s : State) : State :=
  if (getWin u c w s).busy then updWin u c w (fun x => { x with busyWr := true }) s
  else
    let r := sampleReq s c w
    let s1 := updWin u c w (fun x => { x with busy := true, done := false }) s
    let q : WaitReq := { unit := u, req := r, staged := 0 }
    if s.shedding then { s1 with waits := s1.waits ++ [q] } else tryWait q s1

/-- A waiting request ends ABORTED in the next stride (R51). -/
def abortWait (w : WaitReq) (s : State) : State :=
  match w.req.src with
  | .win c i =>
    let h := (getWin w.unit c i s).handle.toNat
    let b := winBody w.unit c i s
    (match w.unit with
     | 0 =>
       (match w.staged with
        | k + 2 => endHeld (h % 4096) k h stAborted [] (cipherRefuse w.req stAborted s)
        | _ => cipherRefuse w.req stAborted s)
     | 1 => pkeRefuseHeld w.req stAborted h w.staged s
     | 2 => { s with st := { s.st with pend := s.st.pend ++
         [{ pend := { req := w.req, due := s.tick + 1, status := stAborted, result := natToLE 4 s.stride },
            op := byteAt b 0, stall := if byteAt b 0 = 1 then 0xFFFFFFFF else field b 4 4, addr := 0, snap := false }] } }
     | 3 => pendTack (byteAt b 0) 0 w.req stAborted 0 (if byteAt b 0 = 1 then 0xFFFFFFFF else field b 4 4) s
     | _ => refuseReq w.req c 2 h stAborted s)
  | _ => s

/-- The waiting requests that satisfy a test end. -/
def endWaits (test : Req → Bool) (s : State) : State :=
  (s.waits.filter (fun w => test w.req)).foldl (fun st w => abortWait w st)
    { s with waits := s.waits.filter (fun w => !test w.req) }

end Sys2Proof.Machine
end

