-- ==== Sys2Proof/Machine/CoreCtl.lean ====
section
/-! DEFINITION. What the Dadrin monitor and the fabric do to a core as a whole: return-stack entries (R295–R297), paddock
contexts and start doors (R288, R302), slots of a core (R42), the fence of a core (R305) and a move to another one (R474). -/

namespace Sys2Proof.Machine

/-! ### Return-stack entries (R295, R296) -/

/-- The shadow copy of word `i`: ROTL64(NOT p ⊕ M, ρᵢ). -/
def shadowWord (s : State) (i : Nat) (p : W64) : W64 := ((~~~p) ^^^ s.pc.rsMask).rotateLeft (s.pc.rsRot.getD i 0 % 64)

/-- An entry with its shadow. -/
def mkEntry (s : State) (ws : List W64) : RsEntry := { prim := ws, shad := ws.zipIdx.map (fun p => shadowWord s p.2 p.1) }

/-- The two copies agree. -/
def entryGood (s : State) (e : RsEntry) : Bool := e.shad == e.prim.zipIdx.map (fun p => shadowWord s p.2 p.1)

/-- Word `i` of the primary copy as a number. -/
def RsEntry.word (e : RsEntry) (i : Nat) : Nat := (e.prim.getD i 0).toNat

/-- KIND: 1 RETURN, 2 FRAME. -/
def RsEntry.kind (e : RsEntry) : Nat := natBits (e.word 0) 40 2

/-- The 128 bytes of a spilled entry: the primary copy, then the shadow (R297). -/
def entryBytes (e : RsEntry) : List Byte := (e.prim ++ e.shad).flatMap (fun w => natToLE 8 w.toNat)

/-- An entry read back. -/
def entryOf (bs : List Byte) : RsEntry :=
  let ws := (chunks 8 bs).map (fun c => BitVec.ofNat 64 (leToNat c))
  { prim := ws.take 8, shad := ws.drop 8 }

/-- Address of spilled entry `n` of core `k`. -/
def spillAddr (k : Core) (n : Nat) : Nat := k.spill.base + 128 * n

/-- The whole return stack, newest entry first: on chip, then spilled. -/
def wholeStack (s : State) (k : Core) : List RsEntry :=
  k.onchip ++ ((List.range k.spilled).reverse.map (fun n => entryOf (ramBytes s (spillAddr k n) 128)))

/-- A spilled entry of core `k` that meets an uncorrectable word, by its address (R18). -/
def stackBad (s : State) (k : Core) : Option Nat :=
  ((List.range k.spilled).map (spillAddr k)).find? (fun a => meetsPoison s a 128)

/-- Give core `c` a return stack: the 64 newest entries on chip, the others in its spill area. -/
def putStack (c : Nat) (es : List RsEntry) (s : State) : State :=
  let k := getCore s c
  let old := (es.drop 64).reverse
  let s1 := old.zipIdx.foldl (fun st p => putBytes st (spillAddr k p.2) (entryBytes p.1)) s
  updCore c (fun k => { k with onchip := es.take 64, spilled := old.length }) s1

/-! ### Contexts and doors (R288, R302) -/

/-- A rein from an entry's two words and its tag. -/
def entryRein (e : RsEntry) (i : Nat) (tag : Bool) : Rein := { tag := tag, bits := BitVec.ofNat 128 (e.word i + e.word (i + 1) * 2 ^ 64) }

/-- The context that the FRAME on top of core `c`'s stack interrupted, with the rest of the stack. -/
def frameCtx (s : State) (c : Nat) : Option SavedCtx :=
  let k := getCore s c
  match wholeStack s k with
  | [] => none
  | e :: rest =>
    if e.kind ≠ 2 then none
    else some {
      g := k.g, k := Tab.set Rein.zero (Tab.set Rein.zero k.k 13 (entryRein e 4 (natBit (e.word 0) 42))) 14
        (entryRein e 6 (natBit (e.word 0) 43)),
      dsp := k.dsp, pc := natBits (e.word 0) 0 40, status := BitVec.ofNat 64 (natBits (e.word 1) 0 24),
      lstart := BitVec.ofNat 64 (natBits (e.word 1) 24 40), lend := BitVec.ofNat 64 (natBits (e.word 2) 0 40),
      lcount := BitVec.ofNat 64 (e.word 3), stack := rest }

/-- Load a context into core `c`. -/
def loadCtx (c : Nat) (x : SavedCtx) (s : State) : State :=
  putStack c x.stack (updCore c (fun k => { k with
    g := x.g, k := x.k, dsp := x.dsp, pc := x.pc, status := x.status, lstart := x.lstart, lend := x.lend, lcount := x.lcount,
    waiting := false, yielded := false }) s)

/-- Key of the monitor's tables. -/
def ctxKey (c p : Nat) : Nat := 256 * c + p

/-- What ENTER does once its checks pass (R288). -/
def enterDoor (c : Nat) (d : Rein) (s : State) : State :=
  let code := Rein.make true d.gen d.pad 0x01 0x0005 d.len d.base
  updCore c (fun k => { k with
    status := mkStatus d.pad false k.dtrap k.masked,
    k := Tab.set Rein.zero (Tab.set Rein.zero (Tab.mapVals Rein.zero (fun _ r => if r.tag && r.isWarden then Rein.zero else r) k.k) 14 code)
      15 Rein.zero,
    dsp := 0, lcount := 0, pc := d.base + 4 * d.perm }) s

/-- Enter paddock `p`'s start door on core `c` with a fresh context (R302): registers zero, stack empty, reins of the
current generation. -/
def enterStart (c p : Nat) (s : State) : State :=
  let d := Tab.get Rein.zero s.pc.startDoor (ctxKey c p)
  let door := Rein.make true (s.paddock p).gen p 0x84 d.perm d.len d.base
  enterDoor c door (updCore c (fun k => { k with
    g := [], k := [], status := mkStatus p true false false, onchip := [], spilled := 0, lstart := 0, lend := 0,
    waiting := false, yielded := false }) s)

/-- The core idles at the Warden level until a slot's owner is entered. -/
def idleCore (c : Nat) (s : State) : State :=
  updCore c (fun k => { k with yielded := true, status := mkStatus k.paddock true false true }) s

/-! ### Slots of a core (R41, R42) -/

/-- The paddock that owns logical core `l` in a stride. -/
def slotOwner (s : State) (l stride : Nat) : Option Nat :=
  let pos := 256 * l + stride % 256
  (List.range 256).find? (fun p => let a := runStart s.time 2 p
                                   a ≤ pos && pos < a + effShare s.time 2 p)

/-- The paddocks that own a slot of logical core `l` in some stride. -/
def paddocksOn (s : State) (l : Nat) : List Nat :=
  (List.range 256).filter (fun p => let a := runStart s.time 2 p
                                    let b := a + effShare s.time 2 p
                                    a < b && a < 256 * l + 256 && 256 * l < b)

/-- The paddock is inside a door handler on core `c` (R304). -/
def inHandler (s : State) (c p : Nat) : Bool := (Tab.get none s.pc.handler (ctxKey c p)).isSome

/-- Events held for paddock `p` come up again on core `c`, where it has an event door and is in no handler (R302, R304). -/
def raiseHeld (c p : Nat) (s : State) : State :=
  let held := Tab.get 0 s.pc.heldEv (ctxKey c p)
  if held = 0 ∨ Tab.get Rein.zero s.pc.eventDoor (ctxKey c p) = Rein.zero ∨ inHandler s c p then s
  else updCore c (fun k => { k with pend := k.pend ||| held }) { s with pc := { s.pc with heldEv := Tab.set 0 s.pc.heldEv (ctxKey c p) 0 } }

/-- Enter the owner of the present slot on core `c`: its saved context, else its start door (R302). -/
def scheduleCore (c : Nat) (s : State) : State :=
  match (logicalOf s 2 c).bind (fun l => slotOwner s l s.stride) with
  | none => idleCore c s
  | some p =>
    if (s.paddock p).st ≠ 1 then idleCore c s
    else
      match Tab.get none s.pc.ctx (ctxKey c p) with
      | some x => raiseHeld c p (loadCtx c x { s with pc := { s.pc with ctx := Tab.set none s.pc.ctx (ctxKey c p) none } })
      | none =>
        if Tab.get Rein.zero s.pc.startDoor (ctxKey c p) = Rein.zero then idleCore c s else raiseHeld c p (enterStart c p s)

/-- A context is discarded (R302): the item and the event with the paddock, the cause and WPC. -/
def discardCtx (c p cause : Nat) (wpc : W64) (s : State) : State :=
  let s1 := { s with pc := { s.pc with
    ctx := Tab.set none s.pc.ctx (ctxKey c p) none, handler := Tab.set none s.pc.handler (ctxKey c p) none } }
  let s2 := updCore c (fun k => { k with onchip := [], spilled := 0 }) s1
  ledgerEvent 0x2050 (cause % 256 * 256 + p) (lowHigh wpc.toNat) (itemAdd 0x1180 1 s2)

/-! ### Paddock code (R302, R407, R476) -/

/-- First byte of a core's local SRAM (R19). -/
def coreSram (c : Nat) : Nat := 0x10000000 + c * 0x80000

/-- The image that paddock `p` runs on logical core `l`: the booted bank's, or the target's once moved (R476, R477). -/
def paddockImage (s : State) (p l : Nat) : List Byte :=
  let b := if s.us.fw.moved.contains (p, l) then 1 - s.us.fw.bootedBank else s.us.fw.bootedBank
  (Tab.get { st := 0, seq := 0, sectors := 0, image := [] } s.fv.banks b).image

/-- Load paddock `p`'s code on core `c` and note its start door there. -/
def loadCode (c p : Nat) (image : List Byte) (s : State) : State :=
  let s1 := (Config.imageCode image p).foldl (fun st b => putByte st (coreSram c + b.1 % 0x80000) b.2) s
  let d := Config.imageDoor image p
  let door := Rein.make true 0 p 0x84 (d.2.2 % 65536) (d.2.1 % 0x80000) (coreSram c + d.1 % 0x20000 * 4)
  { s1 with pc := { s1.pc with startDoor := Tab.set Rein.zero s1.pc.startDoor (ctxKey c p) door } }

/-- Load core `c`, serving logical core `l`, with the code of every paddock that owns slots on it; nothing where no bank
verified (R489). -/
def loadCore (c l : Nat) (s : State) : State :=
  if s.pm.noFw then s else (paddocksOn s l).foldl (fun st p => loadCode c p (paddockImage st p l) st) s

/-- Zeros over a span of memory, its tags and its poison. -/
def wipeSpan (a n : Nat) (s : State) : State :=
  { s with mem := { s.mem with
    ram := Tab.clearRange 0 s.mem.ram a (a + n),
    tags := Tab.clearRange false s.mem.tags (a / 16) ((a + n) / 16),
    poison := Tab.clearRange false s.mem.poison (a / 8) ((a + n) / 8) } }

/-- A core is wiped and reset in place: registers at reset, local SRAM zero (R305, R470). -/
def wipeCore (c : Nat) (s : State) : State :=
  setCore c { Core.reset with reason := (getCore s c).reason, yielded := true } (wipeSpan (coreSram c) 0x80000 s)

/-! ### Fence and move (R305, R474) -/

/-- Whether a request came from a window of core `c`. -/
def fromCore (c : Nat) (r : Req) : Bool := match r.src with | .win k _ => k == c | _ => false

/-- Forget what the monitor keeps for core `c`. -/
def dropCtxs (c : Nat) (s : State) : State :=
  let lo := 256 * c
  let hi := 256 * c + 256
  { s with pc := { s.pc with
    ctx := Tab.clearRange none s.pc.ctx lo hi, handler := Tab.clearRange none s.pc.handler lo hi,
    heldEv := Tab.clearRange 0 s.pc.heldEv lo hi, evFor := Tab.clearRange 0 s.pc.evFor (16 * c) (16 * c + 16), faultDoor := Tab.clearRange Rein.zero s.pc.faultDoor lo hi,
    eventDoor := Tab.clearRange Rein.zero s.pc.eventDoor lo hi, startDoor := Tab.clearRange Rein.zero s.pc.startDoor lo hi } }

/-- Fill PC_FAULT (R306). -/
def fillPcFault (c reason : Nat) (s : State) : State :=
  { s with pc := { s.pc with
    fault := BitVec.ofNat 64 (s.stride % 2 ^ 32 * 2 ^ 32 + (getCore s c).paddock * 2 ^ 24 + reason * 2 ^ 16 + c) } }

/-- Jobs of a core's windows end as on a host cancel (R80, R129, R305) and are lost jobs (R466). -/
def cutCoreJobs (c : Nat) (s : State) : State :=
  let n := (s.cf.jobs.filter (fun j => fromCore c j.req)).length + (s.pk.jobs.filter (fun j => fromCore c j.req)).length +
    (s.cv.jobs.filter (fun j => fromCore c j.req)).length
  let s1 := cutCv (fun j => fromCore c j.req) (cutPke (fun j => fromCore c j.req) stAborted
    (cutCipher (fun j => fromCore c j.req) stAborted s))
  endWaits (fromCore c) ((List.range n).foldl (fun st _ => noteLostJob st) s1)

/-- A core is fenced (R305). One that is not in service is left as it is. -/
def fenceCore (c reason : Nat) (s : State) : State :=
  let st := (getUnit s 2 c).st
  if 26 ≤ c ∨ (st ≠ 1 ∧ st ≠ 2) then s
  else
    let s1 := setEvent 9 1 (fillPcFault c reason (fenceUnit 2 c reason (getCore s c).paddock s))
    let s2 := setEventIf ((logicalOf s 2 c).isSome && !spareLeft s 2) 9 2 s1
    let s3 := updCore c (fun k => { k with halted := true, wbuf := [], imprecise := none, waiting := false, reason := reason }) s2
    dropCtxs c (cutCoreJobs c (redeliver c (cinchCoreFence c s3)))

/-- The monitor reads the return stack of core `c` to keep its context; an uncorrectable word fences the core (R18). -/
def stackRead (c : Nat) (f : State → State) (s : State) : State :=
  match stackBad s (getCore s c) with
  | some a => fenceCore c 4 (noteUncorrectable a s)
  | none => f s

/-- Keep the context under the top FRAME for paddock `p` of core `c`. -/
def saveCtx (c p : Nat) (s : State) : State :=
  stackRead c (fun s => { s with pc := { s.pc with ctx := Tab.set none s.pc.ctx (ctxKey c p) (frameCtx s c) } }) s

/-- A request readdressed from core `a` to core `b`. -/
def moveReq (a b : Nat) (r : Req) : Req :=
  match r.src with
  | .win c w => if c = a then { r with src := .win b w } else r
  | _ => r

/-- Entries of a table keyed by `n` keys a core, moved from core `a` to core `b`. -/
def moveKeys {α : Type} [DecidableEq α] (d : α) (n a b : Nat) (t : Tab α) : Tab α :=
  (List.range n).foldl (fun t i => Tab.set d (Tab.set d t (n * b + i) (Tab.get d t (n * a + i))) (n * a + i) d) t

/-- The queues of every unit, with the requests of core `a` readdressed to core `b`. -/
def moveReqs (a b : Nat) (s : State) : State :=
  let f := moveReq a b
  { s with
    cf := { s.cf with
      jobs := s.cf.jobs.map (fun j => { j with req := f j.req }), pend := s.cf.pend.map (fun p => { p with req := f p.req }),
      wins := moveKeys Win.reset 8 a b s.cf.wins },
    pk := { s.pk with
      jobs := s.pk.jobs.map (fun j => { j with req := f j.req }), pend := s.pk.pend.map (fun p => { p with req := f p.req }),
      wins := moveKeys Win.reset 8 a b s.pk.wins },
    st := { s.st with
      pend := s.st.pend.map (fun q => { q with pend := { q.pend with req := f q.pend.req } }),
      wins := moveKeys Win.reset 1 a b s.st.wins },
    tk := { s.tk with pend := s.tk.pend.map (fun p => { p with req := f p.req }), wins := moveKeys Win.reset 1 a b s.tk.wins },
    cv := { s.cv with
      gos := s.cv.gos.map (fun g => { g with req := f g.req, core := if g.core = a then b else g.core }),
      jobs := s.cv.jobs.map (fun j => { j with req := f j.req }), pend := s.cv.pend.map (fun p => { p with req := f p.req }),
      wins := moveKeys Win.reset 1 a b s.cv.wins },
    cn := { s.cn with
      reqs := s.cn.reqs.map (fun q => { q with req := f q.req, core := if q.core = a then b else q.core }),
      wins := moveKeys Win.reset 1 a b s.cn.wins,
      slots := Tab.mapVals Cinch.free (fun _ x => { x with
        owner := if x.owner = a ∧ x.cmd.isNone then b else x.owner, cmd := x.cmd.map f,
        actions := x.actions.map (fun e => { e with held := e.held.map (fun h => { h with core := if h.core = a then b else h.core }) }) })
        s.cn.slots },
    cq := { s.cq with fwWins := moveKeys FwWin.reset 1 a b s.cq.fwWins },
    waits := s.waits.map (fun w => { w with req := f w.req }) }

/-- Core `a`'s work moves to core `b`, which takes its logical number (R474): contexts, doors, Cinches, firmware entries and
windows. A running context whose stack cannot be read is not kept, and its work restarts (R18). -/
def moveCore (a b : Nat) (s : State) : State :=
  let k := getCore s a
  let s1 := if k.warden then s else match stackBad s k with
    | some e => noteUncorrectable e s
    | none => { s with pc := { s.pc with ctx := Tab.set none s.pc.ctx (ctxKey a k.paddock) (some {
        g := k.g, k := k.k, dsp := k.dsp, pc := k.pc, status := k.status, lstart := k.lstart, lend := k.lend, lcount := k.lcount,
        stack := wholeStack s k }) } }
  let s2 := moveReqs a b s1
  let s3 := { s2 with pc := { s2.pc with
    ctx := moveKeys none 256 a b s2.pc.ctx, handler := moveKeys none 256 a b s2.pc.handler, heldEv := moveKeys 0 256 a b s2.pc.heldEv,
    faultDoor := moveKeys Rein.zero 256 a b s2.pc.faultDoor, eventDoor := moveKeys Rein.zero 256 a b s2.pc.eventDoor } }
  updCore b (fun k => { k with yielded := true }) (updCore a (fun k => { k with halted := true, onchip := [], spilled := 0 }) s3)

end Sys2Proof.Machine
end

