-- ==== Sys2Proof/Machine/UnitService.lean ====
section
/-! DEFINITION. Unit service (R465–R474, R478): requests, the states' durations and ends, standby takeover, stops,
overruns. -/

namespace Sys2Proof.Machine

/-! ### Durations (R470) -/

/-- Strides of DRAINING at least. -/
def drainStrides : Nat := 1
/-- Strides of WIPING. -/
def wipeStrides (pool : Nat) : Nat := if pool = 2 then 64 else 1
/-- Strides of TESTING. -/
def testStrides : Nat → Nat | 0 => 200 | 1 => 2000 | 2 => 5000 | _ => 20

/-- The unit exists. -/
def unitOk (pool u : Nat) : Bool := pool < 4 && u < poolPhys pool

/-- Reason code of R473. -/
def unitReason (s : State) (pool u : Nat) : Nat :=
  let r := getUnit s pool u
  match r.st with
  | 1 => if pool < 3 ∧ (logicalOf s pool u).isNone then 1 else 0
  | 2 => 4 | 3 => 4 | 4 => 4 | 5 => 2
  | _ => if r.testFailed then 3 else 0

/-- US_UNIT[pool][u]. -/
def usUnit (s : State) (pool u : Nat) : W32 :=
  let r := getUnit s pool u
  BitVec.ofNat 32 (((logicalOf s pool u).getD 0xFF) * 2 ^ 24 + unitReason s pool u * 2 ^ 16 + b2n r.latched.isSome * 256 +
    b2n (r.latched.getD r.enabled) * 16 + r.st)

/-! ### Requests (R471, R474) -/

/-- A write of the requested state. -/
def unitRequest (pool u : Nat) (en : Bool) (s : State) : State :=
  if !unitOk pool u then s
  else
    let r := getUnit s pool u
    if 2 ≤ r.st then
      setEventIf r.latched.isSome 18 1 (updUnit pool u (fun r => { r with latched := some en, settling := true }) s)
    else
      let s1 := updUnit pool u (fun r => { r with
        enabled := en, testFailed := if en then false else r.testFailed, settling := en != (r.st == 1) }) s
      setEventIf (r.st == 1 && r.enabled && !en && (logicalOf s pool u).isSome && (standbyOf s pool).isNone) 18 6 s1

/-- UNIT_REQUEST. -/
def execUnitRequest (pool u : Nat) (en : Bool) (s : State) : Host.Outcome State Fault Refusal := .next (unitRequest pool u en s)

/-- One unit's request takes effect at a boundary (R469): ACTIVE to DRAINING, or a standby to IDLE; IDLE to WIPING. -/
def unitBoundary (s : State) (pool u : Nat) : State :=
  let r := getUnit s pool u
  if r.st = 1 ∧ !r.enabled then
    (if pool < 3 ∧ (logicalOf s pool u).isNone then updUnit pool u (fun r => { r with st := 0, settling := false }) s
     else updUnit pool u (fun r => { r with st := 2, due := s.tick + drainStrides }) s)
  else if r.st = 0 ∧ r.enabled ∧ !r.testFailed then
    updUnit pool u (fun r => { r with st := 3, due := s.tick + wipeStrides pool }) s
  else s

/-- Every unit of every pool. -/
def allUnits : List (Nat × Nat) := [0, 1, 2, 3].flatMap (fun p => (List.range (poolPhys p)).map (fun u => (p, u)))

/-- Requests at a stride boundary, once boot has tested the units. -/
def unitsBoundary (s : State) : State :=
  if s.pm.step < 4 then s else allUnits.foldl (fun st e => unitBoundary st e.1 e.2) s

/-! ### Takeover (R468, R469) -/

/-- Logical number `l` goes to unit `u`. For a core the work that was parked or left moves with it, and its code is loaded. -/
def bindTo (pool l u : Nat) (s : State) : State :=
  let s1 := bindLogical pool l (some u) s
  if pool ≠ 2 then s1
  else
    let s2 := match Tab.get 0 s.us.parked l with
      | 0 => s1
      | a + 1 => if a = u then s1 else moveCore a u s1
    let s3 := { s2 with us := { s2.us with parked := Tab.set 0 s2.us.parked l 0 } }
    updCore u (fun k => { k with yielded := true, halted := false }) (loadCore u l s3)

/-- One logical number at a boundary: left by its unit, it goes to the lowest standby unit or stays unbound. -/
def takeover (s : State) (pool l : Nat) : State :=
  match physOf s pool l with
  | none => match standbyOf s pool with
    | some u => bindTo pool l u s
    | none => s
  | some a =>
    let st := (getUnit s pool a).st
    if st = 1 ∨ st = 2 then s
    else
      let s0 := bindLogical pool l none s
      let s1 := if pool = 2 ∧ st ≠ 5 then { s0 with us := { s0.us with parked := Tab.set 0 s0.us.parked l (a + 1) } } else s0
      match standbyOf s1 pool with
      | some u => bindTo pool l u s1
      | none => s1

/-- STANDBY_TAKEOVER for every logical number. -/
def standbyTakeover (s : State) : State :=
  [0, 1, 2].foldl (fun st p => (List.range (poolLogical p)).foldl (fun st l => takeover st p l) st) s

/-! ### Ends of the states (R469, R470) -/

/-- A DRAINING unit still has work that ends there (R470). -/
def unitBusy (s : State) (pool u : Nat) : Bool :=
  if pool = 1 then s.pk.jobs.any (fun j => j.eng.isSome && j.phys == u) else if pool = 3 then cvBusy s u else false

/-- UNIT_DRAIN_END: the drain is over; the logical number moves at this boundary. -/
def execUnitDrainEnd (pool u : Nat) (s : State) : Host.Outcome State Fault Refusal :=
  let r := getUnit s pool u
  if unitOk pool u && r.st == 2 && decide (r.due ≤ s.tick) && !unitBusy s pool u then
    .next (standbyTakeover (updUnit pool u (fun r => { r with st := 3, due := s.tick + wipeStrides pool }) s))
  else .next s

/-- FENCED_TO_WIPING: at the boundary after the fence. -/
def execFencedToWiping (pool u : Nat) (s : State) : Host.Outcome State Fault Refusal :=
  let r := getUnit s pool u
  if unitOk pool u && r.st == 5 && decide (r.due ≤ s.tick) then
    .next (updUnit pool u (fun r => { r with st := 3, due := s.tick + wipeStrides pool }) s)
  else .next s

/-- What wiping leaves: a core at reset with its local SRAM zero, a CVU's accumulator zero (R468). -/
def wipeUnit (pool u : Nat) (s : State) : State :=
  if pool = 2 then wipeCore u s else if pool = 3 then updCv u (fun r => { r with acc := 0 }) s else s

/-- UNIT_WIPE_END. -/
def execUnitWipeEnd (pool u : Nat) (s : State) : Host.Outcome State Fault Refusal :=
  let r := getUnit s pool u
  if unitOk pool u && r.st == 3 && decide (r.due ≤ s.tick) then
    .next (wipeUnit pool u (updUnit pool u (fun r => { r with st := 4, due := s.tick + testStrides pool }) s))
  else .next s

/-- REASON of CF_LANE_STAT or PK_ENGINE_STAT after a failed self-test (R83, R133). -/
def statReason (pool u : Nat) (s : State) : State :=
  if pool = 0 then { s with cf := { s.cf with reasons := Tab.set 0 s.cf.reasons u 5 } }
  else if pool = 1 then { s with pk := { s.pk with reasons := Tab.set 0 s.pk.reasons u 4 } }
  else s

/-- A self-test's outcome (R469, R473): ACTIVE or IDLE as requested; a failed test leaves the unit IDLE and counts as a
fence event of its pool, for a Pacer with reason SELFTEST. -/
def testEnd (pool u : Nat) (pass : Bool) (s : State) : State :=
  let r := getUnit s pool u
  let en := r.latched.getD r.enabled
  let s1 := updUnit pool u (fun r => { r with
    st := if pass && en then 1 else 0, enabled := en, latched := none, testFailed := !pass, settling := false,
    faultReason := if pass then 0 else if pool = 2 then 6 else r.faultReason }) s
  if pass then (if pool = 2 then updCore u (fun k => { k with halted := false }) s1 else s1)
  else
    let s2 := statReason pool u (setEvent 18 0 (itemAdd (0x1160 + pool) 1 s1))
    if pool = 2 then updCore u (fun k => { k with reason := 6 }) (fillPcFault u 6 s2) else s2

/-- UNIT_TEST_END: a unit that passed takes an unbound logical number, or is standby. -/
def execUnitTestEnd (pool u : Nat) (pass : Bool) (s : State) : Host.Outcome State Fault Refusal :=
  let r := getUnit s pool u
  if unitOk pool u && r.st == 4 && decide (r.due ≤ s.tick) then .next (standbyTakeover (testEnd pool u pass s)) else .next s

/-- Every unit is wiped and tested at boot (R469): those in `bad` fail, the others follow their requested state; logical
numbers go to the lowest-numbered ACTIVE units. -/
def bootUnits (bad : List (Nat × Nat)) (s : State) : State :=
  let s0 := { s with us := { s.us with maps := [], parked := [] } }
  let s1 := allUnits.foldl (fun st e => testEnd e.1 e.2 (!bad.contains e) (wipeUnit e.1 e.2 st)) s0
  [0, 1, 2].foldl (fun st p => (List.range (poolLogical p)).foldl (fun st l =>
    match standbyOf st p with | some u => bindLogical p l (some u) st | none => st) st) s1

/-! ### Overruns and stops (R46, R465) -/

/-- UNIT_OVERRUN: a unit in service has not finished its slice when the budget ends (R46). -/
def execUnitOverrun (pool u : Nat) (s : State) : Host.Outcome State Fault Refusal :=
  let st := (getUnit s pool u).st
  if unitOk pool u && pool != 2 && (st == 1 || st == 2) then
    .next (setEvent 1 5 (itemAdd 0x1040 1 { s with
      us := { s.us with overruns := s.us.overruns ++ [(pool, u)] },
      time := { s.time with overruns := if s.time.overruns = -1 then s.time.overruns else s.time.overruns + 1 } }))
  else .next s

/-- A pool with no ACTIVE unit bound while admitted work for it waits (R465). -/
def poolStopped (s : State) (pool : Nat) : Bool :=
  boundActive s pool == 0 &&
    (match pool with
     | 0 => !s.cf.jobs.isEmpty
     | 1 => !s.pk.jobs.isEmpty
     | _ => s.cq.fifo.any (fun e => !e.2.isEmpty))

/-- Stops of the stride that ends (R465, R466). -/
def countStops (s : State) : State :=
  if s.tm.shedBusy ∨ s.pm.step ≠ 15 then s
  else [0, 1, 2].foldl (fun st p => if poolStopped st p then
      setEvent 18 3 { st with us := { st.us with stops := min (st.us.stops + 1) 0xFFFFFFFF } } else st) s

end Sys2Proof.Machine
end

