-- ==== Sys2Proof/Machine/Shed.lean ====
section
/-! DEFINITION. SHED (R407, R408): its boundary, what it aborts and clears, the end of wiping and of reloading; and the
scrubber (R17, R18). -/

namespace Sys2Proof.Machine

/-- Zeros over the areas of R407, PKE operand memory and the DRBG states among them, and no rein tag anywhere in memory (R284). A
DRBG without a state is seeded before its next use. -/
def shedMemory (s : State) : State :=
  let s1 := wipeSpan 0x60000000 0x2C00000 (wipeSpan 0x40000000 0x1000000 (wipeSpan 0x10000000 0xD00000 s))
  { s1 with
    mem := { s1.mem with tags := [] },
    pk := { s1.pk with words := [], poison := [], mult := [], outlet := [], drbgs := [] },
    tk := { s1.tk with drbg := Drbg.empty } }

/-- The SRAM takes a new scramble key (R17, R407). -/
def rescramble (s : State) : State :=
  let r := drawBytes 16 s
  { r.2 with pm := { r.2.pm with scramble := r.1 } }

/-- A rein field without its tag. -/
def Rein.untag (r : Rein) : Rein := { r with tag := false }

/-- Rein fields of the windows and of the action pool lose their tags (R284). -/
def shedReins (s : State) : State :=
  let w (t : Tab Win) : Tab Win := Tab.mapVals Win.reset (fun _ x => { x with key := x.key.untag, aux := x.aux.untag }) t
  { s with
    cf := { s.cf with wins := w s.cf.wins }, pk := { s.pk with wins := w s.pk.wins }, cn := { s.cn with
      wins := w s.cn.wins,
      slots := Tab.mapVals Cinch.free (fun _ x => { x with actions := x.actions.map (fun a => { a with key := a.key.untag }) }) s.cn.slots },
    cv := { s.cv with wins := w s.cv.wins, units := Tab.mapVals CvRec.reset (fun _ r => { r with acc := 0 }) s.cv.units } }

/-- Every stall is FREE (R87): nothing of the Stable waits for a boundary, the classifier maps nothing (R90), and the draws of
staged ALLOCs are void, so that every count of stalls in use is zero. -/
def clearStable (s : State) : State :=
  let void (a : Action) : Action := if a.typ = 1 ∧ a.sub = 1 then { a with stall := 65536 } else a
  { s with
    st := { s.st with
      leave := [], move := [], drawn := [], loads := [], applies := [], since := [], pnLow := [], spent := [], keys := [] },
    cn := { s.cn with
      slots := Tab.mapVals Cinch.free (fun _ x => if x.holds then { x with actions := x.actions.map void } else x) s.cn.slots } }

/-- The Stable (R407): every stall FREE; commands due now or later end ABORTED (R408). -/
def shedStable (s0 : State) : State :=
  let s := clearStable s0
  { s with st := { s.st with
    pend := s.st.pend.map (fun q => if s.tick ≤ q.pend.due then
      { q with pend := { q.pend with status := stAborted }, snap := false, stall := if q.op = 1 then 0xFFFFFFFF else q.stall } else q) } }

/-- A decided Cinch still needs this tack, to install it or to retire it. -/
def tackDecided (s : State) (h : Nat) : Bool :=
  s.cn.slots.any (fun e => 3 ≤ e.2.st && e.2.st ≤ 6 && e.2.actions.any (fun a => a.typ == 2 && a.tack == h))

/-- The tack cache (R407): VOLATILE tacks and reservations are lost, counts restart at their bounds, no master key is
unsealed; commands due now or later end ABORTED and change nothing (R408). -/
def shedTacks (s : State) : State :=
  let late := s.tk.pend.filter (fun q => decide (s.tick ≤ q.due) && q.status == stOK && field q.result 9 1 == 5)
  let s1 := late.foldl (fun st q => updTack (field q.result 1 4) (fun t => { t with pinned := field q.result 10 1 == 1 }) st) s
  { s1 with tk := { s1.tk with
    tacks := (s1.tk.tacks.filter (fun e => !(e.2.volatile || e.2.st == 1 || e.2.st == 2) || tackDecided s e.1)).map
      (fun e => (e.1, { e.2.unload with fetching := false, fillPending := false, count := e.2.bound })),
    paddocks := Tab.mapVals Paddock.absent (fun _ p => { p with master := none }) s1.tk.paddocks,
    pend := s1.tk.pend.map (fun q => if s.tick ≤ q.due then
      { q with status := stAborted,
               result := (0 : Byte) :: (if field q.result 9 1 = 1 then natToLE 4 0xFFFFFFFF else (q.result.drop 1).take 4) ++ q.result.drop 5 }
      else q) } }

/-- The hold area (R407): held output of decided Cinches is lost, and a copy in progress ends as dropped (R153, R408). -/
def shedHeld (s : State) : State :=
  s.cn.slots.foldl (fun st e =>
    let x := getCinch st e.1
    if 3 ≤ x.st ∧ x.st ≤ 6 ∧ x.actions.any (fun a => a.held.isSome) then
      (let st1 := updCinch e.1 (fun y => { y with
         actions := y.actions.map (fun a => { a with held := a.held.map (fun h => { h with data := [], dropped := true }) }),
         cause := if y.st = 6 ∧ y.cause = 0 then 0x0B else y.cause,
         failing := if y.st = 6 ∧ y.cause = 0 then y.actions.findIdx (fun a => a.held.isSome) else y.failing }) st
       setEventIf (x.st == 6) 5 4 st1)
    else st) s

/-- Work in flight and the cores at the SHED boundary (R407 steps 1 to 3, R408). -/
def shedWork (s : State) : State :=
  let s1 := cutCv (fun _ => true) (cutPke (fun _ => true) stAborted (cutCipher (fun _ => true) stAborted s))
  let s2 := markAbortAll (fun _ => true) 6 stUnitFenced s1
  let s3 := (List.range 26).foldl (fun st c => redeliver c (cinchCoreFence c st)) s2
  let s4 := (List.range 26).foldl (fun st c => setCore c { Core.reset with reason := (getCore st c).reason, halted := true } st) s3
  { s4 with pc := { s4.pc with ctx := [], handler := [], heldEv := [], evFor := [], startDoor := [], faultDoor := [], eventDoor := [] } }

/-- The SHED boundary. -/
def shedBoundary (s : State) : State :=
  let s1 := shedHeld (shedTacks (shedStable (shedReins (shedMemory (rescramble (shedFrames (shedWork s)))))))
  let s2 := endSession 4 { s1 with ledger := { s1.ledger with feeds := [] }, od := { s1.od with ready := false } }
  { s2 with tm := { s2.tm with shedDue := none, shedStart := some s.tick, shedBusy := true } }

/-- SHED_BOUNDARY: the first stride boundary after detection (R407). -/
def execShedBoundary (s : State) : Host.Outcome State Fault Refusal :=
  match s.tm.shedDue with
  | some t => if t < s.tick then .next (shedBoundary s) else .next s
  | none => .next s

/-- SHED_WIPE_COMPLETE: 64 strides after the boundary every area holds zeros, and waiting work runs (R407, R408). -/
def execShedWipeComplete (s : State) : Host.Outcome State Fault Refusal :=
  match s.tm.shedStart with
  | some t => if t + 64 ≤ s.tick ∧ s.tm.shedBusy then .next (clearStable (shedMemory s)) else .next s
  | none => .next s

/-- Every Pacer in service reset, reloaded and, once the boot is over, entered. -/
def reloadCores (s : State) : State :=
  let s1 := (List.range 26).foldl (fun st c => wipeCore c st) s
  (List.range 24).foldl (fun st l => match physOf st 2 l with
    | some c => if isActive st 2 c && s.pm.step == 15 then scheduleCore c (loadCore c l st) else st
    | none => st) s1

/-- The end of step 4. -/
def shedReload (s : State) : State :=
  let s2 := reloadCores s
  let s3 := setEvent 15 1 { s2 with
    tm := { s2.tm with shedBusy := false, shedStart := none, shedPending := false, running := 0 },
    od := { s2.od with ready := decide (4 ≤ s.pm.step) } }
  match s3.lc.busy with
  | some (target, none) => { s3 with lc := { s3.lc with busy := some (target, some s.tick) } }
  | _ => s3

/-! ### Scrubber (R17, R18) -/

/-- A word of one of the six areas of R16 that exists: the tack cache holds the resident tacks. -/
def wordExists (s : State) : SramWord → Bool
  | .addr a => isSram a
  | .tack h => (tackRec s h).any (fun t => t.resident)
  | .bank e b w => decide (e < 68) && decide (b < 8) && decide (w < 1024)

/-- The area of a word. -/
def wordArea : SramWord → Nat
  | .addr a => sramArea a
  | .tack _ => 4
  | .bank _ _ _ => 5

/-- Mark a word poisoned (R18). -/
def poisonWord (w : SramWord) (s : State) : State :=
  match w with
  | .addr a => { s with mem := { s.mem with poison := Tab.set false s.mem.poison (a / 8) true } }
  | .tack h => updTack h (fun t => { t with bad := true }) s
  | .bank e b i => { s with pk := { s.pk with poison := Tab.set false s.pk.poison ((8192 * e + 1024 * b + i)) true } }

/-- SRAM_SCRUB: one round over the six areas; the words in `bad` are found uncorrectable and poisoned, those in `corrected` are
corrected (R10). -/
def execSramScrub (bad corrected : List SramWord) (s : State) : Host.Outcome State Fault Refusal :=
  if s.off then .next s
  else
    let s1 := (corrected.filter (wordExists s)).foldl (fun st w => itemAddQuiet (eccItem (wordArea w)) 1 st) s
    .next ((bad.filter (wordExists s)).foldl (fun st w => eccFound (wordArea w) (poisonWord w st)) s1)

end Sys2Proof.Machine
end

