-- ==== Sys2Proof/Machine/Firmware.lean ====
section
/-! DEFINITION. Live firmware replacement (R475–R477) over the two banks of R322. -/

namespace Sys2Proof.Machine

/-- An empty bank. -/
def noBank : Bank := { st := 0, seq := 0, sectors := 0, image := [] }

/-- Firmware bank `b`. -/
def getBank (s : State) (b : Nat) : Bank := Tab.get noBank s.fv.banks b

/-- Put a bank. -/
def setBank (b : Nat) (k : Bank) (s : State) : State := { s with fv := { s.fv with banks := Tab.set noBank s.fv.banks b k } }

/-- The target bank: the one that was not booted (R475). -/
def fwTarget (s : State) : Nat := 1 - s.us.fw.bootedBank

/-- Change the replacement's record. -/
def updFw (f : FwReplace → FwReplace) (s : State) : State := { s with us := { s.us with fw := f s.us.fw } }

/-- The replacement fails (R475, R477). -/
def fwFail (reason : Nat) (s : State) : State := setEvent 18 5 (updFw (fun w => { w with st := 5, reason := reason }) s)

/-- Bytes that a bank holds (R322). -/
def bankLimit : Nat := 8380416

/-- The target bank has every sector that holds the image's bytes from `off` to `lim`; an area may work with fewer (R321). -/
def bankHolds (s : State) (b off lim : Nat) : Bool :=
  let l := bankSectors s b
  (List.range 128).all (fun i => (bankSector l i).isSome || decide (lim ≤ i * 65472) || decide ((i + 1) * 65472 ≤ off))

/-- One chunk of 0x3200:01: false where it is refused. -/
def fwChunk (chunk : List Byte) (s : State) : Bool × State :=
  let off := field chunk 0 4
  let data := chunk.drop 4
  if s.us.fw.st = 3 ∨ chunk.length < 4 ∨ bankLimit < off + data.length then (false, s)
  else if !bankHolds s (fwTarget s) off (off + data.length) then (false, fwFail 4 s)
  else
    let old := if off = 0 then [] else (getBank s (fwTarget s)).image
    let img := takePad off old ++ data ++ old.drop (off + data.length)
    let b := fwTarget s
    let s1 := if off = 0 ∨ 2 ≤ (getBank s b).st then putImage b img 0 img.length (eraseBank b s)
      else putImage b img off (off + data.length) s
    (true, updFw (fun w => { w with st := 1, reason := 0, paddock := 0, core := 0, moved := [], cancelling := false })
      (setBank b { st := 1, seq := 0, sectors := 0, image := img } s1))

/-- VERIFY (R475): false where it completes DENIED. -/
def fwVerify (s : State) : Bool × State :=
  let b := getBank s (fwTarget s)
  if s.us.fw.st = 3 ∨ s.us.fw.st = 4 then (false, s)
  else if b.st = 0 ∨ !Config.imageSigned b.image s.lc.fwHash then (false, fwFail 1 s)
  else if Config.imageSeq b.image ≤ (getBank s s.us.fw.bootedBank).seq then (false, fwFail 2 s)
  else
    let n := ceilDiv b.image.length 65472
    let s1 := if 2 ≤ b.st then s else putBankWord (fwTarget s) (Config.imageSeq b.image) n false s
    (true, updFw (fun w => { w with st := 2, reason := 0 }) (setBank (fwTarget s)
      { b with st := max 2 b.st, seq := Config.imageSeq b.image, sectors := n } s1))

/-- The (paddock, logical core) pairs of ACTIVE paddocks in the order of R476. -/
def fwOrder (s : State) : List (Nat × Nat) :=
  (List.range 256).flatMap (fun p => if (s.paddock p).st = 1 then
    ((List.range 24).filter (fun l => (paddocksOn s l).contains p)).map (fun l => (p, l)) else [])

/-- The next pair to move, forward or back. -/
def fwNext (s : State) : Option (Nat × Nat) :=
  if s.us.fw.cancelling then s.us.fw.moved.head? else (fwOrder s).find? (fun e => !s.us.fw.moved.contains e)

/-- Step 1 of R476 on the next pair; with none left the replacement is DONE, or IDLE after a CANCEL. -/
def fwBegin (s : State) : State :=
  match fwNext s with
  | none =>
    if s.us.fw.cancelling then updFw (fun w => { w with st := 0, cancelling := false, paddock := 0, core := 0, reason := 0 }) s
    else
      let b := getBank s (fwTarget s)
      setEvent 18 4 (updFw (fun w => { w with st := 4, reason := 0 })
        (setBank (fwTarget s) { b with st := 3 } (putBankWord (fwTarget s) b.seq b.sectors true s)))
  | some (p, l) =>
    let s1 := updFw (fun w => { w with st := 3, reason := 0, paddock := p, core := l, since := s.tick }) s
    match physOf s 2 l with
    | none => s1
    | some c =>
      let s2 := updCore c (fun k => { k with msg := 0xD001, sender := 0 }) s1
      if (getCore s c).paddock = p ∧ !(getCore s c).yielded then setPend c 9 s2
      else { s2 with pc := { s2.pc with heldEv := Tab.upd 0 s2.pc.heldEv (ctxKey c p) (fun v => v ||| 0x200) } }

/-- SWITCH (R476, R477): false where it is not accepted. -/
def fwSwitch (s : State) : Bool × State :=
  let w := s.us.fw
  if w.st = 2 ∨ (w.st = 5 ∧ w.reason = 3) then
    (true, fwBegin (updFw (fun w => { w with cancelling := false, moved := if w.st = 2 then [] else w.moved }) s))
  else (false, s)

/-- CANCEL (R477). -/
def fwCancel (s : State) : Bool × State :=
  let w := s.us.fw
  if w.st = 4 then (false, s)
  else if w.moved.isEmpty then
    (true, updFw (fun w => { w with st := 0, reason := 0, paddock := 0, core := 0, cancelling := false }) s)
  else (true, fwBegin (updFw (fun w => { w with cancelling := true }) s))

/-- FW_CHUNK. -/
def execFwChunk (chunk : List Byte) (s : State) : Host.Outcome State Fault Refusal := .next (fwChunk chunk s).2
/-- FW_VERIFY. -/
def execFwVerify (s : State) : Host.Outcome State Fault Refusal := .next (fwVerify s).2
/-- FW_SWITCH. -/
def execFwSwitch (s : State) : Host.Outcome State Fault Refusal := .next (fwSwitch s).2
/-- FW_CANCEL. -/
def execFwCancel (s : State) : Host.Outcome State Fault Refusal := .next (fwCancel s).2

/-- A request of paddock `p` from a window of core `c`. -/
def ofCore (c p : Nat) (r : Req) : Bool := fromCore c r && r.paddock == p

/-- Step 2 of R476: paddock `p` holds on core `c` no firmware entry, no open Cinch and no busy window. -/
def fwDrained (s : State) (c p : Nat) : Bool :=
  (getFwWin s c).held.all (fun e => match e.2 with | some f => f.fn != p | none => true) &&
  s.cn.slots.all (fun e => !(e.2.st == 1 && e.2.owner == c && e.2.paddock == p && e.2.cmd.isNone)) &&
  s.cf.jobs.all (fun j => !ofCore c p j.req) && s.cf.pend.all (fun q => !ofCore c p q.req) &&
  s.pk.jobs.all (fun j => !ofCore c p j.req) && s.pk.pend.all (fun q => !ofCore c p q.req) &&
  s.st.pend.all (fun q => !ofCore c p q.pend.req) && s.tk.pend.all (fun q => !ofCore c p q.req) &&
  s.cn.reqs.all (fun q => !ofCore c p q.req) && s.waits.all (fun w => !ofCore c p w.req) &&
  s.cv.gos.all (fun g => !ofCore c p g.req) && s.cv.jobs.all (fun j => !ofCore c p j.req) &&
  s.cv.pend.all (fun q => !ofCore c p q.req)

/-- Step 3 of R476: the old context goes and the image of the other bank is loaded; the start door is entered in the
paddock's next slot. -/
def fwMove (c p l : Nat) (s : State) : State :=
  let back := s.us.fw.cancelling
  let s1 := updFw (fun w => { w with moved := if back then w.moved.filter (· != (p, l)) else w.moved ++ [(p, l)] }) s
  let k := ctxKey c p
  let s2 := { s1 with pc := { s1.pc with
    ctx := Tab.set none s1.pc.ctx k none, handler := Tab.set none s1.pc.handler k none, heldEv := Tab.set 0 s1.pc.heldEv k 0 } }
  let s3 := if (getCore s c).paddock = p ∧ !(getCore s c).warden then
      idleCore c (updCore c (fun x => { x with onchip := [], spilled := 0, waiting := false }) s2) else s2
  loadCode c p (paddockImage s3 p l) s3

/-- FW_CORE_DRAINED: at the end of one of the paddock's slots on the core. -/
def execFwCoreDrained (s : State) : Host.Outcome State Fault Refusal :=
  let w := s.us.fw
  match physOf s 2 w.core with
  | none => .next s
  | some c =>
    if w.st == 3 && !s.tm.shedBusy && slotOwner s w.core s.stride == some w.paddock && fwDrained s c w.paddock then
      .next (fwBegin (fwMove c w.paddock w.core s))
    else .next s

/-- FW_DRAIN_TIMEOUT: step 2 did not complete within US_FWDRAIN strides (R477). -/
def execFwDrainTimeout (s : State) : Host.Outcome State Fault Refusal :=
  let w := s.us.fw
  if w.st == 3 && !s.tm.shedBusy && decide (w.since + max 256 s.us.fwDrain.toNat ≤ s.tick) then .next (fwFail 3 s) else .next s

/-- SHED_RELOAD_COMPLETE: after the wiping and testing of R470 at the earliest. A switch that was under way goes on from its recorded
core, which is moved again (R477). -/
def execShedReloadComplete (s : State) : Host.Outcome State Fault Refusal :=
  match s.tm.shedStart with
  | some t =>
    if s.tm.shedBusy ∧ t + wipeStrides 2 + testStrides 2 ≤ s.tick then
      .next (if s.us.fw.st = 3 then fwBegin (shedReload s) else shedReload s)
    else .next s
  | none => .next s

end Sys2Proof.Machine
end

