-- ==== Sys2Proof/Machine/Revoke.lean ====
section
/-! DEFINITION. What takes effect on other units' work: paddock acts (R178, R180), function resets (R207), fences of cores
by the Warden fabric (R294, R305), and the Warden's writes of another core's registers (R300, R306). -/

namespace Sys2Proof.Machine

/-- The jobs and scans that satisfy a test end at this boundary (R80, R129, R358). -/
def endJobs (test : Req → Bool) (s : State) : State :=
  endWaits test <| cvCuts (cutCv (fun j => test j.req) (pkeCuts (cutPke (fun j => test j.req) stAborted
    (cipherCuts (cutCipher (fun j => test j.req) stAborted s)))))

/-- What a revocation or a deletion of paddock `p` does to stalls, Cinches and jobs (R103, R151, R178, R180). -/
def revokeWork (p : Nat) (s : State) : State :=
  endJobs (fun r => r.paddock == p) (markAbortAll (fun x => x.paddock == p) 0x04 stAborted (revokeStalls p s))

/-- One act at its boundary: the record, the event, and for an advanced generation its consequences (R178, R180). -/
def actEffect (a : PadAct) (s : State) : State :=
  let s0 := { s with tk := { s.tk with acts := s.tk.acts.erase a } }
  let s1 := actPaddock a s0
  let s2 := ledgerEvent 0x2040 (a.act * 256 + a.paddock) ((s1.paddock a.paddock).gen :: lowHigh a.cred) s1
  if a.act = 1 ∧ s.tk.keep.isNone then s0 else if a.act = 1 then s2 else revokeWork a.paddock s2

/-- PADDOCK_ACT_EFFECT: the first boundary after the paddock's new sealed record is durable (R178). -/
def execPaddockActEffect (p : Nat) (s : State) : Host.Outcome State Fault Refusal :=
  match s.tk.acts.find? (fun a => a.paddock == p) with
  | some a => if a.asked < s.tick then .next (actEffect a s) else .next s
  | none => .next s

/-! ### Function reset (R207) -/

/-- A request from a queue of function `fn`. -/
def fromFn (fn : Nat) (r : Req) : Bool := match r.src with | .host f _ _ => f == fn | _ => false

/-- A function reset takes effect: its queues, jobs, entries, messages and OUTPUT copies (R153, R207, R223). -/
def functionReset (fn : Nat) (s : State) : State :=
  let s1 := endJobs (fromFn fn) (resetFunctionQueues fn s)
  let drop (h : Held) : Held := if h.host then { h with dropped := true } else h
  { s1 with
    cf := { s1.cf with pend := s1.cf.pend.filter (fun q => !fromFn fn q.req) },
    pk := { s1.pk with pend := s1.pk.pend.filter (fun q => !fromFn fn q.req) },
    st := { s1.st with pend := s1.st.pend.filter (fun q => !fromFn fn q.pend.req) },
    tk := { s1.tk with pend := s1.tk.pend.filter (fun q => !fromFn fn q.req) },
    cv := { s1.cv with pend := s1.cv.pend.filter (fun q => !fromFn fn q.req) },
    cn := { s1.cn with slots := Tab.mapVals Cinch.free (fun i x =>
      let y := if x.cmd.any (fromFn fn) then { x with cmd := x.cmd.map (fun r => { r with src := .auto i }) } else x
      if y.paddock = fn then { y with actions := y.actions.map (fun a => { a with held := a.held.map drop }) } else y) s1.cn.slots } }

/-- A reset of the physical function takes the virtual ones with it (SR-IOV; log 163). -/
def resetVFs (s : State) : State :=
  let vs := (List.range 256).filter (fun v => v != 0 && funcThere s v)
  let s1 := vs.foldl (fun st v => askReset v st) s
  { s1 with cq := { s1.cq with vfEnable := false, numVFs := 0 } }

/-- FUNCTION_RESET_EFFECT: the first boundary after the request. -/
def execFunctionResetEffect (fn : Nat) (s : State) : Host.Outcome State Fault Refusal :=
  match (getFunc s fn).resetAsked with
  | some t => if t < s.tick then .next (functionReset fn (if fn = 0 then resetVFs s else s)) else .next s
  | none => .next s

/-! ### Fences of cores (R294, R305) -/

/-- A write of PC_FENCE. -/
def writeFence (v : W32) (s : State) : State :=
  if natBits v.toNat 8 8 = 0xA5 then fenceCore (natBits v.toNat 0 5) 5 s else s

/-- PC_FENCE_WRITE by core `c`, from the Warden level (R277). -/
def execPcFenceWrite (c : Nat) (v : W32) (s : State) : Host.Outcome State Fault Refusal :=
  if wardenMay s c 0x100900020 then .next (writeFence v s) else .next s

/-- The mask budget in force (R306). -/
def maskBudget (s : State) : Nat := min (max s.pc.maskBud.toNat 100) 20000

/-- An enabled interrupt is pending on a core. -/
def Core.wanted (k : Core) : Bool := natBits (k.ie &&& k.pend).toNat 0 10 != 0

/-- MASK_BUDGET_EXCEEDED: the Warden fabric's count of consecutive cycles with MASK = 1 and an enabled interrupt pending. -/
def execMaskBudgetExceeded (c cycles : Nat) (s : State) : Host.Outcome State Fault Refusal :=
  let k := getCore s c
  if c < 26 && k.masked && k.wanted && !k.halted then
    (let s1 := updCore c (fun k => { k with maskCount := cycles }) s
     if maskBudget s < cycles then .next (fenceCore c 1 (setEvent 9 3 s1)) else .next s1)
  else .next s

/-! ### The Warden's registers of a core (R300, R306) -/

/-- Address of PC_CORE[t] (R306). -/
def coreRegs (t : Nat) : Nat := 0x100910000 + 0x100 * t

/-- A write of PC_CORE[t].SPILL: accepted with nothing spilled, or with the same BASE and room for what is. -/
def writeSpill (t : Nat) (r : Rein) (s : State) : State :=
  let k := getCore s t
  if k.spilled = 0 ∨ (r.base = k.spill.base ∧ k.spilled * 128 ≤ r.len) then updCore t (fun k => { k with spill := r }) s
  else setEvent 9 6 s

/-- SPILL_WRITE by core `c` of core `t`'s spill rein. -/
def execSpillWrite (c t : Nat) (tag : Bool) (bits : W128) (s : State) : Host.Outcome State Fault Refusal :=
  if t < 26 ∧ wardenMay s c (coreRegs t) then .next (writeSpill t { tag := tag, bits := bits } s) else .next s

/-- RSTAT.CLEAR empties the return stack, on chip and spilled. -/
def clearStack (t : Nat) (s : State) : State := updCore t (fun k => { k with onchip := [], spilled := 0 }) s

/-- RETURN_STACK_CLEAR by core `c` of core `t`. -/
def execReturnStackClear (c t : Nat) (s : State) : Host.Outcome State Fault Refusal :=
  if t < 26 ∧ wardenMay s c (coreRegs t + 0x10) then .next (clearStack t s) else .next s

/-- A write of PC_CORE[t].WMSG by core `c`: refused while PEND bit 9 is set (R306). -/
def writeWmsg (c t : Nat) (v : W32) (s : State) : State :=
  if (getCore s t).pend.getLsbD 9 then setEvent 9 7 s
  else setPend t 9 (updCore t (fun k => { k with msg := v, sender := c }) s)

/-- WARDEN_MESSAGE. -/
def execWardenMessage (c t : Nat) (v : W32) (s : State) : Host.Outcome State Fault Refusal :=
  if t < 26 ∧ wardenMay s c (coreRegs t + 0x30) then .next (writeWmsg c t v s) else .next s

/-- TIMER_EXPIRY: the stride that a core's TIMER names has begun (R293). -/
def execTimerExpiry (c : Nat) (s : State) : Host.Outcome State Fault Refusal :=
  if c < 26 ∧ (getCore s c).timer.toNat = s.stride ∧ !(getCore s c).halted then .next (setPend c 8 s) else .next s

end Sys2Proof.Machine
end

