-- ==== Sys2Proof/Machine/Quorum.lean ====
section
/-! DEFINITION. The saddlebag key, its shares and the acts of the quorum (R199–R203, R371). An act runs once the officer's write of
0x4610 has asked for it; what its argument says, and what custodians and cards answer, comes as operands (log 26). -/

namespace Sys2Proof.Machine

/-! ### Sharing over GF(2⁸) (R199) -/

/-- Multiplication by x modulo x⁸ + x⁴ + x³ + x + 1. -/
def gf8Dbl (a : Nat) : Nat := if a < 128 then 2 * a else Nat.xor ((2 * a) % 256) 0x1B

/-- Product of two field elements, bit by bit from the top of `b`. -/
def gf8Mul (a b : Nat) : Nat :=
  (List.range 8).foldl (fun r i => let d := gf8Dbl r
                                   if natBit b (7 - i) then Nat.xor d a else d) 0

/-- Inverse: a²⁵⁴. -/
def gf8Inv (a : Nat) : Nat := (fun r => gf8Mul r r) ((List.range 6).foldl (fun r _ => gf8Mul (gf8Mul r r) a) a)

/-- The polynomial's value at `x`, coefficients lowest first. -/
def gf8Eval (cs : List Nat) (x : Nat) : Nat := cs.foldr (fun c r => Nat.xor (gf8Mul r x) c) 0

/-- Share `i` of a secret: bytewise, each byte with its own coefficients. -/
def shamirShare (secret : List Byte) (coeffs : List (List Byte)) (i : Nat) : List Byte :=
  secret.zipIdx.map (fun p => BitVec.ofNat 8 (gf8Eval (p.1.toNat :: coeffs.map (fun c => byteAt c p.2)) i))

/-- Lagrange weight at zero of point `x` among `xs`. -/
def lagrange0 (xs : List Nat) (x : Nat) : Nat :=
  xs.foldl (fun r y => if y = x then r else gf8Mul r (gf8Mul y (gf8Inv (Nat.xor y x)))) 1

/-- The secret that shares (number, bytes) spell. -/
def shamirJoin (shares : List (Nat × List Byte)) : List Byte :=
  (List.range 32).map (fun k => BitVec.ofNat 8 (shares.foldl (fun r e =>
    Nat.xor r (gf8Mul (byteAt e.2 k) (lagrange0 (shares.map (fun f => f.1)) e.1))) 0))

/-- KID: the leading 8 bytes of AES_K(0¹²⁸), as a little-endian number. -/
def keyId (key : List Byte) : Nat := leToNat ((takePad 16 (Config.aesBlock true key (zeros 16))).take 8)

/-! ### Sessions and shares (R200, R201) -/

/-- Quorum acts as the ledger names them, in the order of R200: 1 SPLIT, 2 BACKUP, 3 JOIN, 4 RESPLIT, 5 RESTORE (log 26). -/
def noteAct (act cred : Nat) (s : State) : State := ledgerEvent 0x2041 act (lowHigh cred) s

/-- The officer's write of 0x4610:01 asks for the act (R200). -/
def actAsked (s : State) (act cred : Nat) : Bool := s.od.actKind == act && s.od.actCred == cred

/-- The act asked for begins, and its write is spent. -/
def beginAct (act cred : Nat) (s : State) : State := noteAct act cred { s with od := { s.od with actKind := 0 } }

/-- An act of the quorum is in progress. -/
def quorumBusy (s : State) : Bool := s.tk.quorum.isSome || s.tk.job.isSome

/-- A custodian enrolment as its reserve record holds it (R323; log 171): its kind, the length of its identity, the length of its
key, the identity in 20 bytes, the key. -/
def custodianRecord (c : Custodian) : List Byte :=
  let b := [BitVec.ofNat 8 c.idsrc, BitVec.ofNat 8 c.ident.length] ++ natToLE 2 c.key.length ++ takePad 20 c.ident ++ c.key
  takePad (8 * ceilDiv b.length 8) b

/-- The enrolment that a record holds. -/
def custodianOf (b : List Byte) : Custodian :=
  { ident := (b.drop 4).take (byteAt b 1), idsrc := byteAt b 0, key := (b.drop 24).take (field b 2 2) }

/-- Custodians enrolled with the act: the officer gives their identities and keys (R199; log 155). -/
def enrolCustodians (es : List Custodian) (s : State) : State :=
  if es.isEmpty then s
  else
    let s1 := { s with tk := { s.tk with custodians := es.zipIdx.map (fun p => (p.2 + 1, p.1)) } }
    es.zipIdx.foldl (fun st p => reservePut 0x03 (p.2 + 1) (custodianRecord p.1) st) s1

/-- The saddlebag key's sealed record, kept in the reserve (R199, R324). -/
def keepSaddlebag (rec : Option (List Byte)) (s : State) : State :=
  let s1 := { s with tk := { s.tk with sbRec := rec } }
  match rec with
  | some r => reservePut 0x04 0 r s1
  | none => s1

/-- m and n are in range and custodians 1 to n are enrolled. -/
def sharesOk (s : State) (m n : Nat) : Bool :=
  2 ≤ m && m ≤ n && n ≤ 8 && (List.range n).all (fun i => s.tk.custodians.any (fun e => e.1 == i + 1))

/-- Custodian `i`. -/
def custodian (s : State) (i : Nat) : Custodian :=
  ((s.tk.custodians.find? (fun e => e.1 == i)).map (fun e => e.2)).getD { ident := [], idsrc := 0, key := [] }

/-- A fresh device key for ECDH on P-384 (R199). -/
def freshKey (s : State) : List Byte × State :=
  let (seed, s1) := custodyBytes 72 s
  (natToBE 48 (beToNat seed % (Config.curveOrder 2 - 1) + 1), s1)

/-- The KWP key that a device key and a custodian's enrolled key agree. -/
def shareCipher (dev : List Byte) (c : Custodian) : BlockFn :=
  blockFn 2 (takePad 32 (Config.shareKek (takePad 48 ((Config.curveOp 0x12 2 [dev, c.key]).getD []))))

/-- Coefficients above the secret for a threshold of `m`. -/
def drawCoeffs : Nat → State → List (List Byte) × State
  | 0, s => ([], s)
  | n + 1, s =>
    let (c, s1) := custodyBytes 32 s
    let (cs, s2) := drawCoeffs n s1
    (c :: cs, s2)

/-- The TOKEN action that writes share `i` to its custodian on interface `place`: the device's public key and the share under KWP
(R142, R199). -/
def shareAction (s : State) (i place : Nat) (dev share : List Byte) : Action :=
  let c := custodian s i
  let w := takePad 96 ((Config.curveOp 0x18 2 [dev]).getD []) ++ kwpWrap (shareCipher dev c) share
  { typ := 8, sub := 1, obj := place, arg := (Config.shareApdu i w).length,
    inl := takePad 16 c.ident ++ [BitVec.ofNat 8 (min 16 c.ident.length), BitVec.ofNat 8 c.idsrc] ++ takePad 18 (Config.shareFields i w),
    data := Config.shareApdu i w, key := Rein.zero, tack := 0, stall := 0, pages := 1, cidHash := 0, wstaged := 0, held := none }

/-- New shares of a key for custodians 1 to n: their writes, one Cinch each (R199, R200). -/
def splitJob (act : Nat) (key : List Byte) (m n : Nat) (places : List Nat) (s : State) : State :=
  let (cs, s1) := drawCoeffs (m - 1) s
  let share (i : Nat) : List Byte := shamirShare key cs i
  let r := (List.range n).foldl (fun (acc : List Action × State) i =>
    let (dev, st) := freshKey acc.2
    (acc.1 ++ [shareAction st (i + 1) (places.getD i 0) dev (share (i + 1))], st)) ([], s1)
  { r.2 with tk := { r.2.tk with job := some {
      act := act, key := key, m := m, n := n, gen := 0,
      sums := (List.range n).map (fun i => (i + 1, Config.hash 256 (share (i + 1)))), todo := r.1, slot := none } } }

/-- Every write has committed: a SPLIT's key is sealed, and only the new shares are accepted (R200). -/
def finishJob (j : QuorumJob) (s : State) : State :=
  let s1 := { s with tk := { s.tk with job := none, actEnd := (j.act, stOK) } }
  if j.act = 2 then { s1 with tk := { s1.tk with generation := j.gen } }
  else
    let s2 := if j.act = 1 then keepSaddlebag (s.tk.keep.map (fun k => keyRecord k 1 j.key)) s1 else s1
    { s2 with tk := { s2.tk with sbShares := some (j.m, j.n), shareSum := j.sums, quorum := none } }

/-- The next write of an act begins, as a one-action DURABLE Cinch of no paddock (R199), once its card, interface and token are free. -/
def openWrite (j : QuorumJob) (a : Action) (rest : List Action) (s : State) : State :=
  let free := (a.objects 256).all (fun o => lockStatus s none (fun _ => false) o.1 o.2 == stOK)
  match freeSlot s with
  | some i =>
    if !free then s
    else
      { setCinch i { Cinch.free with
          st := 2, seq := nextSeq (getCinch s i).seq, durable := true, owner := 255, paddock := 256, actions := [a],
          openedAt := s.tick, commitAt := s.tick, cmd := some { src := .auto (4096 + i), paddock := 256, warden := true, gen := 1 },
          cmdOp := 0x40, cmdAdmit := s.stride, envelopeDurable := true } s with
        tk := { s.tk with job := some { j with todo := rest, slot := some i } } }
  | none => s

/-- The act in progress goes on: its next write, or its end. -/
def quorumBoundary (s : State) : State :=
  match s.tk.job with
  | none => s
  | some j =>
    if j.slot.isSome then s
    else match j.todo with
      | [] => finishJob j s
      | a :: rest => openWrite j a rest s

/-- End the session: shares and the rebuilt copy are wiped (R201). -/
def endQuorum (s : State) : State := { s with tk := { s.tk with quorum := none } }

/-- QUORUM_SPLIT of a key drawn now (R200). -/
def execQuorumSplit (cred m n : Nat) (dest : ShareTargets) (s : State) : Host.Outcome State Fault Refusal :=
  let s0 := enrolCustodians dest.enrol s
  if !actAsked s 1 cred || s.tk.sbRec.isSome || !s.keepPresent || !sharesOk s0 m n || quorumBusy s then .next s
  else
    let (key, s1) := drawBytes 32 (beginAct 1 cred s0)
    .next (quorumBoundary (splitJob 1 key m n dest.places s1))

/-- Open a session. -/
def openQuorum (act cred m n kid addr : Nat) (next : Nat × Nat) (places : List Nat) (record image : List Byte) (s : State) : State :=
  let (dev, s1) := freshKey (beginAct act cred s)
  { s1 with tk := { s1.tk with quorum := some {
      openAt := s.time.now, act := act, cred := cred, m := m, n := n, kid := kid, next := next, acc := [], addr := addr,
      record := record, image := image, dev := dev, places := places } } }

/-- QUORUM_JOIN. -/
def execQuorumJoin (cred m n : Nat) (expects : ExpectedKey) (s : State) : Host.Outcome State Fault Refusal :=
  let s0 := enrolCustodians expects.enrol s
  if !actAsked s 3 cred || s.tk.sbRec.isSome || !s.keepPresent || !sharesOk s0 m n || quorumBusy s then .next s
  else .next (openQuorum 3 cred m n expects.kid 0 (0, 0) [] [] [] s0)

/-- QUORUM_RESPLIT: a quorum under the present m and n gives new shares. -/
def execQuorumResplit (cred : Nat) (scheme : ShareScheme) (dest : ShareTargets) (s : State) : Host.Outcome State Fault Refusal :=
  match s.sbKey, s.tk.sbShares with
  | some key, some (m0, n0) =>
    let s0 := enrolCustodians dest.enrol s
    if !actAsked s 4 cred || !sharesOk s0 scheme.m scheme.n || quorumBusy s then .next s
    else .next (openQuorum 4 cred m0 n0 (keyId key) 0 (scheme.m, scheme.n) dest.places [] [] s0)
  | _, _ => .next s

/-- QUORUM_RESTORE: the officer names the quorum and an address; `record` and `image` are the card's generation record and
the image it names. -/
def execQuorumRestore (cred : Nat) (scheme : ShareScheme) (addr : Nat) (enrol : List Custodian) (record image : List Byte)
    (s : State) : Host.Outcome State Fault Refusal :=
  let s0 := enrolCustodians enrol s
  if !actAsked s 5 cred || !sharesOk s0 scheme.m scheme.n || quorumBusy s then .next s
  else .next (openQuorum 5 cred scheme.m scheme.n (field record 0x40 8) addr (0, 0) [] record image s0)

/-! ### Images (R202, R203, R371) -/

/-- IV of entry `i`: GENERATION ‖ index. -/
def imageIv (gen i : Nat) : List Byte := natToBE 4 gen ++ natToBE 8 i

/-- One entry of an image (R196, R202): sealed under the saddlebag key, with the durable bound in place of WCOUNT. -/
def imageEntry (s : State) (key : List Byte) (gen i : Nat) (t : Tack) : List Byte :=
  sealedEnvelope key (imageIv gen i) (attrBlock t ++ natToLE 8 t.bound ++ zeros 8) (tackMaterial s t)

/-- The whole image: a header of FORMAT, GENERATION, serial, KID, paddock mask and count, then the entries (log 26). -/
def backupImage (s : State) (key : List Byte) (gen : Nat) (mask : List Byte) (ts : List Tack) : List Byte :=
  natToLE 4 1 ++ natToLE 4 gen ++ natToLE 8 s.lc.serial.toNat ++ natToLE 8 (keyId key) ++ takePad 32 mask ++ natToLE 8 ts.length ++
    (ts.zipIdx.flatMap (fun p => imageEntry s key gen p.2 p.1))

/-- The tacks a backup of the selected paddocks holds, by handle. -/
def backupTacks (s : State) (mask : List Byte) : List Tack :=
  (s.tk.tacks.filter (fun e => e.2.st == 3 && !e.2.volatile && e.2.policy == 2 && !e.2.retired &&
    natBit (byteAt mask (e.2.paddock / 8)) (e.2.paddock % 8))).map (fun e => e.2)

/-- The generation record of R371. -/
def genRecord (s : State) (area gen : Nat) (image key : List Byte) : List Byte :=
  [1, BitVec.ofNat 8 area, 0, 0] ++ natToLE 4 gen ++ natToLE 8 image.length ++ takePad 48 (Config.hash 384 image) ++
    natToLE 8 (keyId key) ++ natToLE 8 s.lc.serial.toNat ++ zeros 176

/-- The CARD_RPMB action that commits an image, with the write counter and CID its staging has read (R202, R372). -/
def backupAction (slot counter : Nat) (cid rec : List Byte) : Action :=
  { typ := 7, sub := 1, obj := slot, arg := 0, inl := zeros 36, data := rec, key := Rein.zero, tack := 0, stall := 0, pages := 1,
    cidHash := cidHash cid, wstaged := counter % 2 ^ 32, held := none }

/-- GENERATION and image area of a new image on a card that holds `record`: one above a valid record's in the area that it does not
name, else 1 in area 0 (R371). -/
def nextImage (record : List Byte) : Nat × Nat :=
  if record.length = 256 ∧ byteAt record 0 = 1 ∧ byteAt record 1 ≤ 1 then (field record 4 4 + 1, 1 - byteAt record 1) else (1, 0)

/-- CRC-64 over an image with no fold (R352). -/
def imageCrc (img : List Byte) : Nat := crcValue crc64 none img

/-- QUORUM_BACKUP onto the READY card of a slot: `record` is what half-sector 0 of its RPMB holds, and the card
gives the image as it reads back and its counter. The image goes to the user area; where it reads back with the same CRC-64 a CARD_RPMB action of its
own Cinch commits it, otherwise the act fails with CHECK_FAIL (R202, R352). -/
def execQuorumBackup (cred slot : Nat) (mask record : List Byte) (card : CardAnswer) (s : State) : Host.Outcome State Fault Refusal :=
  match s.sbKey with
  | none => .next s
  | some key =>
    let c := getMc s slot
    let (gen, area) := nextImage record
    let img := backupImage s key gen mask (backupTacks s mask)
    let h := (c.secCount - 2048) / 2
    if !actAsked s 2 cred ∨ quorumBusy s ∨ 2 ≤ slot ∨ !c.ready then .next s
    else if h * 512 < img.length then .next { beginAct 2 cred s with tk := { s.tk with actEnd := (2, stDenied) } }
    else
      let s1 := beginAct 2 cred { s with cd := { s.cd with toCard := s.cd.toCard ++ [(0x10 + slot, 2048 + area * h, img)] } }
      if imageCrc card.readBack ≠ imageCrc img then .next { s1 with tk := { s1.tk with actEnd := (2, stCheckFail) } }
      else
        let act := backupAction slot (rpmbCount card.counter.data) c.cid (genRecord s area gen img key)
        let r := cardCounter act card.counter.kind card.counter.data s1
        if r.1 = 3 then .next { r.2 with tk := { r.2.tk with actEnd := (2, stCheckFail) } }
        else if r.1 ≠ 0 ∨ (getMc r.2 slot).expired then .next { r.2 with tk := { r.2.tk with actEnd := (2, stMediaError) } }
        else .next (quorumBoundary { r.2 with tk := { r.2.tk with job := some {
          act := 2, key := [], m := 0, n := 0, gen := gen, sums := [], todo := [act], slot := none } } })

/-- Bring one entry of an image back (R203): what is left of the image, the pairs of handles so far, the next index. An entry that fails
its tag, or beyond the paddock's vault quota, is skipped (log 157). -/
def restoreOne (key : List Byte) (gen : Nat) (st : List Byte × List Byte × Nat × State) : List Byte × List Byte × Nat × State :=
  let (rest, pairs, i, s) := st
  let t := tackOfBlock rest (byteAt rest 7) 0 s.tick
  let n := 0x60 + ceilDiv (materialLen t.algo t.lenb) 16 * 16
  let env := rest.take n
  let left := rest.drop n
  match if env.length < n then none else openedEnvelope key (imageIv gen i) env with
  | none => (left, pairs, i + 1, setEvent 6 2 s)
  | some m =>
    match findHandle s (envelopeSlots t.algo t.lenb) with
    | none => (left, pairs, i + 1, s)
    | some h =>
      if (s.paddock t.paddock).st ≠ 1 ∨ vaultFull s t.paddock then (left, pairs, i + 1, s)
      else
        let x := { t with handle := h, st := 3, count := field env 0x40 8, bound := field env 0x40 8, wcount := 1 }
        let s1 := addTack x s
        let e := tackEnvelope ((masterKey s t.paddock).getD []) (m.take (materialLen t.algo t.lenb)) x
        (left, pairs ++ natToLE 4 (field env 8 4) ++ natToLE 4 h, i + 1,
          { s1 with tk := { s1.tk with vault := Tab.set [] s1.tk.vault h e } })

/-- RESTORE with the rebuilt key: an image whose GENERATION or digest its generation record does not name completes CHECK_FAIL
(R203). -/
def restoreImage (q : Quorum) (key : List Byte) (s : State) : State :=
  let gen := field q.image 4 4
  let ends (status : Nat) (st : State) : State := { st with tk := { st.tk with actEnd := (5, status) } }
  if field q.record 4 4 ≠ gen ∨ (q.record.drop 0x10).take 48 ≠ takePad 48 (Config.hash 384 q.image) then ends stCheckFail s
  else
    let n := field q.image 56 8
    let (_, pairs, _, s1) := (List.range (min n q.image.length)).foldl (fun st _ => restoreOne key gen st) (q.image.drop 64, [], 0, s)
    ends stOK (busWrite s1 monitorAccess q.addr pairs).st

/-- The m-th share has been accepted: the key is rebuilt and the act completes; a RESPLIT's session goes on while its new shares are
written. -/
def quorumMet (q : Quorum) (s : State) : State :=
  let key := shamirJoin q.acc
  let s1 := endQuorum s
  if keyId key ≠ q.kid then setEvent 6 6 { s1 with tk := { s1.tk with actEnd := (q.act, stCheckFail) } }
  else if q.act = 3 then
    let s2 := keepSaddlebag (if s.keepPresent then s.tk.keep.map (fun k => keyRecord k 1 key) else none) s1
    { s2 with tk := { s2.tk with
      sbShares := some (q.m, q.n), shareSum := q.acc.map (fun e => (e.1, Config.hash 256 e.2)), actEnd := (3, stOK) } }
  else if q.act = 4 then quorumBoundary (splitJob 4 key q.next.1 q.next.2 q.places s)
  else restoreImage q key s1

/-- Insert a share by custodian number. -/
def insertShare (e : Nat × List Byte) : List (Nat × List Byte) → List (Nat × List Byte)
  | [] => [e]
  | f :: fs => if e.1 < f.1 then e :: f :: fs else f :: insertShare e fs

/-- The half-open window of the session has not ended (R47, R201). -/
def Quorum.opened (q : Quorum) (s : State) : Bool := decide (s.time.now < q.openAt + s.tk.qwin.toNat * 1000000000)

/-- QUORUM_SHARE_RECEIVED: a share as a custodian gives it, wrapped under KWP (R199, R201). It is judged alike at whichever interface
it comes in. -/
def execQuorumShareReceived (_place who : Nat) (wrapped : List Byte) (s : State) : Host.Outcome State Fault Refusal :=
  match s.tk.quorum with
  | none => .next s
  | some q =>
    if !q.opened s || s.tk.job.isSome || q.acc.any (fun e => e.1 == who) then .next s
    else
      let known := (s.tk.shareSum.find? (fun e => e.1 == who)).map (fun e => e.2)
      let good := (kwpUnwrap (shareCipher q.dev (custodian s who)) wrapped).filter (fun b =>
        1 ≤ who && who ≤ q.n && b.length == 32 && !(known.any (fun h => h != Config.hash 256 b)))
      match good with
      | none => .next (setEvent 6 6 s)
      | some b =>
        let q1 := { q with acc := insertShare (who, b) q.acc }
        let s1 := { s with tk := { s.tk with quorum := some q1 } }
        if q1.acc.length = q.m then .next (quorumMet q1 s1) else .next s1

/-- QUORUM_WINDOW_END: TK_QWIN seconds after it opened, with the writes of a RESPLIT not begun (R201). -/
def execQuorumWindowEnd (s : State) : Host.Outcome State Fault Refusal :=
  match s.tk.quorum with
  | some q =>
    if q.opened s then .next s
    else .next (endQuorum { s with tk := { s.tk with job := if q.act = 4 then none else s.tk.job } })
  | none => .next s

end Sys2Proof.Machine
end

