-- ==== Sys2Proof/Machine/Submit.lean ====
section
/-! DEFINITION. Admission of descriptors (R215–R220, R225) and the commands that submit a job, a stall or tack command, or a
Cinch request, through a Pacer's window or a host queue. -/

namespace Sys2Proof.Machine

/-! ### Descriptors (R213, R215, R220) -/

/-- CLASS of a descriptor. -/
def dClass (d : List Byte) : Nat := byteAt d 0
/-- Its 48-byte BODY. -/
def dBody (d : List Byte) : List Byte := (d.drop 8).take 48

/-- Reserved bits of the header or of the class body are set, or CLASS or a CONTROL's OP is reserved (row 3 of R220). -/
def dBad (d : List Byte) : Bool :=
  let b := dBody d
  dClass d == 0 || 6 < dClass d || 1 < byteAt d 1 || !zeroSpan d 4 4 || !zeroSpan d 0x38 4 ||
    (dClass d == 2 && !zeroSpan b 0x28 8) || ((dClass d == 3 || dClass d == 4) && !zeroSpan b 2 2) ||
    ((dClass d == 3 || dClass d == 4 || dClass d == 6) && !zeroSpan b 16 32) ||
    (dClass d == 5 && 3 < byteAt b 0x18) ||
    (dClass d == 6 && (byteAt b 0 == 0 || 2 < byteAt b 0 || byteAt b 1 != 0 || !zeroSpan b 4 4))

/-- The request a descriptor makes. -/
def hostReq (s : State) (fn q seq : Nat) : Req :=
  { src := .host fn q seq, paddock := fn, warden := false, gen := (s.paddock fn).gen }

/-- A host cancel of an admitted cipher or PKE job (R80, R129). -/
def hostCancel (fn q seq : Nat) (s : State) : State :=
  let test (r : Req) : Bool := decide (r.src = .host fn q seq)
  cutPke (fun j => test j.req) stAborted (cutCipher (fun j => test j.req) stAborted s)

/-- CANCEL's EFFECT and what follows (R225). -/
def cancelEffect (fn tq ts : Nat) (s : State) : Nat × State :=
  let k := getQueue s fn tq
  if 4096 ≤ tq ∨ (k.st ≠ 1 ∧ k.st ≠ 2) then (0, s)
  else if k.seqAdm ≤ ts then (1, updFunc fn (fun f => { f with cancels := f.cancels ++ [(tq, ts)] }) s)
  else
    match k.admitted.find? (fun a => a.seq == ts) with
    | none => (0, s)
    | some a =>
      if a.cls = 1 ∨ a.cls = 2 then (2, hostCancel fn tq ts s)
      else if a.cls ≠ 5 then (0, s)
      else if (fwFifo s fn).any (fun e => e.q == tq && e.seq == ts) then
        (2, hostCompleteLater fn tq ts [BitVec.ofNat 8 stAborted]
          (setFifo fn ((fwFifo s fn).filter (fun e => !(e.q == tq && e.seq == ts))) s))
      else
        let isIt (e : FwEntry) : Bool := e.fn == fn && e.q == tq && e.seq == ts
        let held := (List.range 26).any (fun c => (getFwWin s c).held.any (fun e => e.2.any isIt))
        if held then
          (3, (List.range 26).foldl (fun st c => updFwWin c (fun w => { w with
            held := Tab.mapVals none (fun _ e => e.map (fun x => if isIt x then { x with cancelled := true } else x)) w.held }) st) s)
        else (0, s)

/-- A CONTROL command (R225): it completes in the next stride. -/
def control (fn q seq : Nat) (b : List Byte) (s : State) : State :=
  if byteAt b 0 = 1 then hostCompleteLater fn q seq [0, 0] s
  else if 16 ≤ (getFunc s fn).cancels.length then hostCompleteLater fn q seq [BitVec.ofNat 8 stQuota, 0] s
  else
    let (e, s1) := cancelEffect fn (field b 2 2) (field b 8 8) s
    hostCompleteLater fn q seq [0, BitVec.ofNat 8 e] s1

/-- A FIRMWARE descriptor enters its paddock's FIFO (R223). -/
def fwEnter (fn q seq : Nat) (d : List Byte) (s : State) : State :=
  let e : FwEntry := { fn := fn, q := q, seq := seq, desc := d, order := s.cq.orderNo, redelivered := false, cancelled := false, gone := false }
  raiseQueueIrq fn (setFifo fn (fwFifo s fn ++ [e]) s)

/-- Hand a descriptor to its class (R215): whether it was taken. -/
def handOver (fn q seq : Nat) (d : List Byte) (s : State) : Bool × State :=
  let r := hostReq s fn q seq
  let b := dBody d
  match dClass d with
  | 1 => let (ok, _, s1) := cipherSubmit r b Rein.zero Rein.zero 0 0 s; (ok, s1)
  | 2 => let (ok, _, s1) := pkeSubmit r b Rein.zero Rein.zero 0 0 s; (ok, s1)
  | 3 => stallSubmit r (b.take 16) s
  | 4 => tackSubmit r (b.take 16) s
  | 5 => (true, fwEnter fn q seq d s)
  | _ => (true, control fn q seq b s)

/-- The descriptor at the head of a queue leaves it admitted, and a pending cancel of it is spent. -/
def takeDescriptor (fn q seq cid cls : Nat) (s : State) : State :=
  let s1 := updQueue fn q (fun k => { k with
    seqAdm := k.seqAdm + 1, arrived := k.arrived.drop 1,
    admitted := k.admitted ++ [{ seq := seq, cid := cid, cls := cls, order := s.cq.orderNo }] }) s
  let s2 := updFunc fn (fun f => { f with
    admStride := s.tick, admCount := if f.admStride = s.tick then f.admCount + 1 else 1, lastServed := q,
    cancels := f.cancels.filter (· != (q, seq)) }) s1
  { s2 with cq := { s2.cq with orderNo := s2.cq.orderNo + 1 } }

/-- A descriptor ends at admission (R220). -/
def refuseDescriptor (fn q seq : Nat) (d : List Byte) (status : Nat) (s : State) : State :=
  hostCompleteLater fn q seq [BitVec.ofNat 8 status] (takeDescriptor fn q seq (field d 2 2) (dClass d) s)

/-- Try the descriptor at the head of queue `q` (R217–R220): whether it was admitted. -/
def tryHead (fn q : Nat) (s : State) : Bool × State :=
  let k := getQueue s fn q
  match k.arrived with
  | [] => (false, s)
  | (seq, data) :: _ =>
    let d := data.getD []
    if k.st ≠ 1 ∨ !k.room then (false, s)
    else if data.isNone then (true, queueError fn q 1 (refuseDescriptor fn q seq d stMediaError s))
    else if seqCrc seq (d.take 0x3C) ≠ field d 0x3C 4 then (true, queueError fn q 2 (refuseDescriptor fn q seq d stCheckFail s))
    else if natBit (byteAt d 1) 0 ∧ !k.admitted.isEmpty then (false, s)
    else if dClass d = 5 ∧ 256 ≤ (fwFifo s fn).length then (false, setEvent 7 4 s)
    else if dBad d then (true, refuseDescriptor fn q seq d stMalformed s)
    else if (s.paddock fn).st ≠ 1 then (true, refuseDescriptor fn q seq d stDenied s)
    else if (getFunc s fn).cancels.contains (q, seq) then
      (true, refuseDescriptor fn q seq d stAborted s)
    else
      let (ok, s1) := handOver fn q seq d s
      if ok then (true, takeDescriptor fn q seq (field d 2 2) (dClass d) s1) else (false, s1)

/-- Queues of a function with fetched descriptors, in the order of R217. -/
def serveOrder (s : State) (fn : Nat) : List Nat :=
  let qs := (s.cq.queues.filter (fun e => e.1 / 4096 == fn && !e.2.arrived.isEmpty)).map (fun e => e.1 % 4096)
  let last := (getFunc s fn).lastServed
  qs.filter (fun q => last < q) ++ qs.filter (fun q => q ≤ last)

/-- Descriptors are admitted now: the function has allowance left in this stride, is not in reset, and no SHED executes. -/
def admitOpen (s : State) (fn : Nat) : Bool :=
  let f := getFunc s fn
  !s.shedding && funcReady s fn && (f.admStride != s.tick || f.admCount < f.adm) && 0 < f.adm

/-- Admit the next descriptor of function `fn`, if it is queue `q`'s: every queue served before it has none to admit. -/
def admitFrom (fn q : Nat) (s : State) : State :=
  if !admitOpen s fn then s
  else
    let before := (serveOrder s fn).takeWhile (· != q)
    if before.any (fun p => (tryHead fn p s).1) then s else (tryHead fn q s).2

/-- DESCRIPTOR_ADMIT. -/
def execDescriptorAdmit (fn q : Nat) (s : State) : Host.Outcome State Fault Refusal := .next (admitFrom fn q s)

/-- Admit descriptor `seq` of queue `q` where it is the next one and of the class and operation asked for. -/
def admitIf (cls : Nat) (op : List Byte → Bool) (fn q seq : Nat) (s : State) : State :=
  match (getQueue s fn q).arrived with
  | (n, some d) :: _ => if n = seq ∧ dClass d = cls ∧ op (dBody d) then admitFrom fn q s else s
  | _ => s

/-- CONTROL_NOP. -/
def execControlNop (fn q seq : Nat) (s : State) : Host.Outcome State Fault Refusal :=
  .next (admitIf 6 (fun b => byteAt b 0 == 1) fn q seq s)
/-- CONTROL_CANCEL. -/
def execControlCancel (fn q seq : Nat) (s : State) : Host.Outcome State Fault Refusal :=
  .next (admitIf 6 (fun b => byteAt b 0 == 2) fn q seq s)

/-! ### Submission by either way -/

/-- Submit through window `w` of core `c` where its BODY asks for the operation, or admit the descriptor that does. -/
def submitBy (u cls : Nat) (op : List Byte → Bool) (src : Src) (s : State) : State :=
  match src with
  | .win c w => if c < 26 ∧ w < 8 ∧ op (winBody u c w s) then winGo u c w s else s
  | .host fn q seq => admitIf cls op fn q seq s
  | .auto _ => s

/-- A Cinch request of window OPC `opc`. -/
def cinchBy (opc : Nat) (src : Src) (s : State) : State :=
  match src with
  | .win c w => if c < 26 ∧ w = 0 ∧ (getWin 4 c 0 s).opc.toNat = opc then winGo 4 c 0 s else s
  | _ => s

/-- CIPHER_JOB. -/
def execCipherJob (src : Src) (s : State) : Host.Outcome State Fault Refusal := .next (submitBy 0 1 (fun _ => true) src s)

/-- STALL_ALLOC. -/
def execStallAlloc (src : Src) (s : State) : Host.Outcome State Fault Refusal := .next (submitBy 2 3 (fun b => byteAt b 0 == 1) src s)
/-- STALL_LOAD. -/
def execStallLoad (src : Src) (s : State) : Host.Outcome State Fault Refusal := .next (submitBy 2 3 (fun b => byteAt b 0 == 2) src s)
/-- STALL_ARM. -/
def execStallArm (src : Src) (s : State) : Host.Outcome State Fault Refusal := .next (submitBy 2 3 (fun b => byteAt b 0 == 3) src s)
/-- STALL_EXPIRE. -/
def execStallExpire (src : Src) (s : State) : Host.Outcome State Fault Refusal := .next (submitBy 2 3 (fun b => byteAt b 0 == 4) src s)
/-- STALL_RETIRE. -/
def execStallRetire (src : Src) (s : State) : Host.Outcome State Fault Refusal := .next (submitBy 2 3 (fun b => byteAt b 0 == 5) src s)
/-- STALL_READ. -/
def execStallRead (src : Src) (s : State) : Host.Outcome State Fault Refusal := .next (submitBy 2 3 (fun b => byteAt b 0 == 6) src s)

/-- RSA_PRIVATE_RAW. -/
def execRsaPrivateRaw (src : Src) (s : State) : Host.Outcome State Fault Refusal := .next (submitBy 1 2 (fun b => pOp b == 0x01) src s)
/-- RSA_PUBLIC_RAW. -/
def execRsaPublicRaw (src : Src) (s : State) : Host.Outcome State Fault Refusal := .next (submitBy 1 2 (fun b => pOp b == 0x02) src s)
/-- RSASSA_PSS_SIGN. -/
def execRsassaPssSign (src : Src) (s : State) : Host.Outcome State Fault Refusal := .next (submitBy 1 2 (fun b => pOp b == 0x03) src s)
/-- RSASSA_PKCS1_V15_SIGN. -/
def execRsassaPkcs1V15Sign (src : Src) (s : State) : Host.Outcome State Fault Refusal := .next (submitBy 1 2 (fun b => pOp b == 0x04) src s)
/-- RSASSA_PSS_VERIFY. -/
def execRsassaPssVerify (src : Src) (s : State) : Host.Outcome State Fault Refusal := .next (submitBy 1 2 (fun b => pOp b == 0x05) src s)
/-- RSASSA_PKCS1_V15_VERIFY. -/
def execRsassaPkcs1V15Verify (src : Src) (s : State) : Host.Outcome State Fault Refusal := .next (submitBy 1 2 (fun b => pOp b == 0x06) src s)
/-- RSAES_OAEP_ENCRYPT. -/
def execRsaesOaepEncrypt (src : Src) (s : State) : Host.Outcome State Fault Refusal := .next (submitBy 1 2 (fun b => pOp b == 0x07) src s)
/-- RSAES_OAEP_DECRYPT. -/
def execRsaesOaepDecrypt (src : Src) (s : State) : Host.Outcome State Fault Refusal := .next (submitBy 1 2 (fun b => pOp b == 0x08) src s)
/-- MODULAR_EXPONENTIATION. -/
def execModularExponentiation (src : Src) (s : State) : Host.Outcome State Fault Refusal := .next (submitBy 1 2 (fun b => pOp b == 0x09) src s)
/-- FFDH. -/
def execFfdh (src : Src) (s : State) : Host.Outcome State Fault Refusal := .next (submitBy 1 2 (fun b => pOp b == 0x0A) src s)
/-- ECDSA_SIGN. -/
def execEcdsaSign (src : Src) (s : State) : Host.Outcome State Fault Refusal := .next (submitBy 1 2 (fun b => pOp b == 0x10) src s)
/-- ECDSA_VERIFY. -/
def execEcdsaVerify (src : Src) (s : State) : Host.Outcome State Fault Refusal := .next (submitBy 1 2 (fun b => pOp b == 0x11) src s)
/-- ECDH. -/
def execEcdh (src : Src) (s : State) : Host.Outcome State Fault Refusal := .next (submitBy 1 2 (fun b => pOp b == 0x12) src s)
/-- EDDSA_SIGN. -/
def execEddsaSign (src : Src) (s : State) : Host.Outcome State Fault Refusal := .next (submitBy 1 2 (fun b => pOp b == 0x13) src s)
/-- EDDSA_VERIFY. -/
def execEddsaVerify (src : Src) (s : State) : Host.Outcome State Fault Refusal := .next (submitBy 1 2 (fun b => pOp b == 0x14) src s)
/-- X25519_OR_X448. -/
def execX25519OrX448 (src : Src) (s : State) : Host.Outcome State Fault Refusal := .next (submitBy 1 2 (fun b => pOp b == 0x15) src s)
/-- KEY_PAIR_CURVE_OR_GROUP. -/
def execKeyPairCurveOrGroup (src : Src) (s : State) : Host.Outcome State Fault Refusal := .next (submitBy 1 2 (fun b => pOp b == 0x18) src s)
/-- KEY_PAIR_RSA. -/
def execKeyPairRsa (src : Src) (s : State) : Host.Outcome State Fault Refusal := .next (submitBy 1 2 (fun b => pOp b == 0x19) src s)

/-- TACK_RESERVE. -/
def execTackReserve (src : Src) (s : State) : Host.Outcome State Fault Refusal := .next (submitBy 3 4 (fun b => byteAt b 0 == 1) src s)
/-- TACK_INSTALL. -/
def execTackInstall (src : Src) (s : State) : Host.Outcome State Fault Refusal := .next (submitBy 3 4 (fun b => byteAt b 0 == 2) src s)
/-- TACK_RETIRE. -/
def execTackRetire (src : Src) (s : State) : Host.Outcome State Fault Refusal := .next (submitBy 3 4 (fun b => byteAt b 0 == 3) src s)
/-- TACK_RESTRICT. -/
def execTackRestrict (src : Src) (s : State) : Host.Outcome State Fault Refusal := .next (submitBy 3 4 (fun b => byteAt b 0 == 4) src s)
/-- TACK_PIN. -/
def execTackPin (src : Src) (s : State) : Host.Outcome State Fault Refusal := .next (submitBy 3 4 (fun b => byteAt b 0 == 5) src s)
/-- TACK_DESCRIBE. -/
def execTackDescribe (src : Src) (s : State) : Host.Outcome State Fault Refusal := .next (submitBy 3 4 (fun b => byteAt b 0 == 6) src s)

/-- CINCH_OPEN. -/
def execCinchOpen (src : Src) (s : State) : Host.Outcome State Fault Refusal := .next (cinchBy 1 src s)
/-- CINCH_STAGE. -/
def execCinchStage (src : Src) (s : State) : Host.Outcome State Fault Refusal := .next (cinchBy 2 src s)
/-- CINCH_COMMIT. -/
def execCinchCommit (src : Src) (s : State) : Host.Outcome State Fault Refusal := .next (cinchBy 3 src s)
/-- CINCH_ABORT. -/
def execCinchAbort (src : Src) (s : State) : Host.Outcome State Fault Refusal := .next (cinchBy 4 src s)
/-- CINCH_QUERY. -/
def execCinchQuery (src : Src) (s : State) : Host.Outcome State Fault Refusal := .next (cinchBy 5 src s)
/-- CINCH_LOOKUP. -/
def execCinchLookup (src : Src) (s : State) : Host.Outcome State Fault Refusal := .next (cinchBy 6 src s)
/-- CINCH_RESOLVE. -/
def execCinchResolve (src : Src) (s : State) : Host.Outcome State Fault Refusal := .next (cinchBy 7 src s)

end Sys2Proof.Machine
end

