-- ==== Sys2Proof/Machine/Csr.lean ====
section
/-! DEFINITION. CSR space (R22–R24): what a read of each register gives and does, and what a write does, window by window,
by 8-byte slots; a write gives the low and high half of the slot it reaches. -/

namespace Sys2Proof.Machine

/-! ### Slots -/

/-- A slot of two 32-bit halves. -/
def halves (lo hi : W32) : W64 := hi ++ lo
/-- A slot whose low half is a 32-bit register. -/
def low (v : W32) : W64 := v.setWidth 64
/-- A number as a 32-bit register. -/
def n32 (n : Nat) : W32 := BitVec.ofNat 32 n
/-- A number as a 64-bit register. -/
def n64 (n : Nat) : W64 := BitVec.ofNat 64 n

/-- A write as it reaches a slot: its low and its high half, where written. -/
structure Put where
  lo : Option W32
  hi : Option W32

/-- How far a slot lies above offset 0x10000 of its window. -/
def winOff (o : Nat) : Nat := (o / 0x1000 - 0x10) * 0x1000 + o % 0x1000

/-- The mask of the bits written. -/
def Put.mask (p : Put) : W64 := halves (if p.lo.isSome then -1 else 0) (if p.hi.isSome then -1 else 0)
/-- The value, zero where nothing is written. -/
def Put.val (p : Put) : W64 := halves (p.lo.getD 0) (p.hi.getD 0)
/-- A 64-bit register after the write. -/
def Put.onto (p : Put) (old : W64) : W64 := rwField old p.mask p.val (-1)

/-- A write of a 32-bit register at the slot's low half. -/
def onLow (p : Put) (f : W32 → State → State) (s : State) : State := match p.lo with | some v => f v s | none => s
/-- A write of a 32-bit register at the slot's high half. -/
def onHigh (p : Put) (f : W32 → State → State) (s : State) : State := match p.hi with | some v => f v s | none => s

/-- Who makes a CSR access: a core, or none for the debug access port and the die link; and whether at the Warden level. -/
structure Who where
  core : Option Nat
  warden : Bool

/-! ### Submission windows (R77, R119, R140, R192, R356, R377) -/

/-- A status word: BUSYWR, DONE, BUSY. -/
def winStatus (w : Win) : W64 := n64 (4 * b2n w.busyWr + 2 * b2n w.done + b2n w.busy)

/-- Half `i` of a rein field. -/
def reinHalf (r : Rein) (i : Nat) : W64 := if i = 0 then r.bits.setWidth 64 else (r.bits >>> 64).setWidth 64

/-- A rein field after an ordinary write of half `i`: its tag is cleared (R284). -/
def putHalf (r : Rein) (i : Nat) (p : Put) : Rein :=
  { tag := false, bits := if i = 0 then (r.bits >>> 64).setWidth 64 ++ p.onto (reinHalf r 0) else p.onto (reinHalf r 1) ++ r.bits.setWidth 64 }

/-- Window slot of a cipher or PKE window, or the fields that a window has at other places: (kind, index). -/
inductive Field where
  | body (i : Nat) | key (i : Nat) | aux (i : Nat) | ctl | status | result (i : Nat) | none

/-- Fields of units 0 and 1 (R77). -/
def fieldJob (o : Nat) : Field :=
  if o < 0x30 then .body (o / 8) else if o < 0x40 then .key (o / 8 % 2) else if o = 0x40 then .ctl else if o = 0x48 then .status
  else if o < 0x60 then .result ((o - 0x50) / 8) else if o < 0x70 then .aux ((o - 0x60) / 8) else .none

/-- Fields of units 2 and 3. -/
def fieldCmd (o : Nat) : Field :=
  if o < 0x10 then .body (o / 8) else if o = 0x10 then .ctl else if o = 0x18 then .status
  else if o < 0x30 then .result ((o - 0x20) / 8) else .none

/-- Fields of unit 4 (R140). -/
def fieldCinch (o : Nat) : Field :=
  if o < 0x40 then .body (o / 8) else if o = 0x40 then .ctl else if o = 0x48 then .status
  else if o < 0x60 then .result ((o - 0x50) / 8) else if o < 0x70 then .key ((o - 0x60) / 8) else .none

/-- Unit `u`'s field, window and owner at window-space offset `o` (from 0x1_0000): (owner core, window, field). -/
def winField (u o : Nat) : Nat × Nat × Field :=
  if u ≤ 1 then (o / 0x400, o % 0x400 / 0x80, fieldJob (o % 0x80))
  else if u = 4 then (o / 0x100, 0, fieldCinch (o % 0x100)) else (o / 0x40, 0, fieldCmd (o % 0x40))

/-- The control word: what is kept of it reads back. -/
def ctlWord (u : Nat) (w : Win) : W64 :=
  if u = 2 ∨ u = 3 then 0 else halves (n32 ((if u = 4 then w.opc.toNat % 16 * 16 else 0) + 2 * b2n w.ie)) w.handle

/-- Read a window field; DONE clears where the read reaches the low half, which holds it (R23, R77). -/
def winRead (lo : Bool) (u c w : Nat) (f : Field) (s : State) : W64 × State :=
  let x := getWin u c w s
  match f with
  | .body i => (Tab.get 0 x.body i, s)
  | .key i => (reinHalf x.key i, s)
  | .aux i => (reinHalf x.aux i, s)
  | .ctl => (ctlWord u x, s)
  | .status => (winStatus x, if lo then updWin u c w (fun x => { x with done := false }) s else s)
  | .result i => (Tab.get 0 x.result i, s)
  | .none => (0, s)

/-- A write to a field that a request in progress protects. -/
def winPut (u c w : Nat) (f : Win → Win) (s : State) : State :=
  updWin u c w (fun x => if x.busy then { x with busyWr := true } else f x) s

/-- Write a window field; a GO submits the window as it then stands. While BUSY a write of the control word is dropped; it sets
BUSYWR in the windows whose table names a field there (R77, R104, R140, R204). -/
def winWrite (u c w : Nat) (f : Field) (p : Put) (s : State) : State :=
  match f with
  | .body i => updWin u c w (fun x => x.writeBody i p.mask p.val) s
  | .key i => winPut u c w (fun x => { x with key := putHalf x.key i p }) s
  | .aux i => winPut u c w (fun x => { x with aux := putHalf x.aux i p }) s
  | .ctl =>
    if (getWin u c w s).busy then (if u = 2 ∨ u = 3 then s else winPut u c w id s)
    else
      let s1 := if u = 2 ∨ u = 3 then s else updWin u c w (fun x => { x with
        handle := p.hi.getD x.handle,
        opc := match p.lo with | some v => if u = 4 then n32 (natBits v.toNat 4 4) else x.opc | none => x.opc,
        ie := match p.lo with | some v => v.getLsbD 1 | none => x.ie }) s
      if (p.lo.getD 0).getLsbD 0 then winGo u c w s1 else s1
  | .status => if (p.lo.getD 0).getLsbD 2 then updWin u c w (fun x => { x with busyWr := false }) s else s
  | _ => s

/-- Read in a unit's window space: only the owner reaches its window. -/
def winsRead (who : Who) (lo : Bool) (u o : Nat) (s : State) : W64 × State :=
  let (c, w, f) := winField u o
  if who.core = some c ∧ c < 26 then winRead lo u c w f s else (0, s)

/-- Write in a unit's window space. -/
def winsWrite (who : Who) (u o : Nat) (p : Put) (s : State) : State :=
  let (c, w, f) := winField u o
  if who.core = some c ∧ c < 26 then winWrite u c w f p s else s

/-- Change a CVU window. -/
def updCvWin (c : Nat) (f : Win → Win) (s : State) : State :=
  { s with cv := { s.cv with wins := Tab.upd Win.reset s.cv.wins c f } }

/-- A CVU window (R356). -/
def cvWinRead (who : Who) (lo : Bool) (o : Nat) (s : State) : W64 × State :=
  let c := o / 0x80
  let i := o % 0x80
  let w := Tab.get Win.reset s.cv.wins c
  if who.core ≠ some c ∨ 26 ≤ c then (0, s)
  else if i < 0x40 then (Tab.get 0 w.body (i / 8), s)
  else if i < 0x50 then (reinHalf w.key (i / 8 % 2), s)
  else if i = 0x58 then (winStatus w, if lo then updCvWin c (fun x => { x with done := false }) s else s)
  else if 0x60 ≤ i ∧ i < 0x70 then (Tab.get 0 w.result ((i - 0x60) / 8), s) else (0, s)

/-- A write of a CVU window. -/
def cvWinWrite (who : Who) (o : Nat) (p : Put) (s : State) : State :=
  let c := o / 0x80
  let i := o % 0x80
  if who.core ≠ some c ∨ 26 ≤ c then s
  else if i < 0x40 then updCvWin c (fun x => x.writeBody (i / 8) p.mask p.val) s
  else if i < 0x50 then updCvWin c (fun x => if x.busy then { x with busyWr := true } else { x with key := putHalf x.key (i / 8 % 2) p }) s
  else if i = 0x50 then (if (p.lo.getD 0).getLsbD 0 then cvGo c s else s)
  else if i = 0x58 then (if (p.lo.getD 0).getLsbD 2 then updCvWin c (fun x => { x with busyWr := false }) s else s)
  else s

/-- An exchange window (R377, R391), from the Warden level. -/
def exRead (who : Who) (lo : Bool) (k i : Nat) (s : State) : W64 × State :=
  let x := getEx s k
  if !who.warden then (0, s)
  else if i < 0x20 then (Tab.get 0 x.win.body (i / 8), s)
  else if i = 0x40 then (n64 (2 * b2n x.win.ie), s)
  else if i = 0x48 then (winStatus x.win, if lo then updEx k (fun w => { w with win := { w.win with done := false } }) s else s)
  else if 0x50 ≤ i ∧ i < 0x60 then (Tab.get 0 x.win.result ((i - 0x50) / 8), s)
  else if 0x100 ≤ i ∧ i < 0x400 then (Tab.get 0 x.data ((i - 0x100) / 8), s) else (0, s)

/-- A write of an exchange window. -/
def exWrite (who : Who) (k i : Nat) (p : Put) (s : State) : State :=
  let x := getEx s k
  if !who.warden then s
  else if i < 0x20 then updEx k (fun w => { w with win := w.win.writeBody (i / 8) p.mask p.val }) s
  else if i = 0x40 then
    onLow p (fun v st =>
      let s1 := updEx k (fun w => { w with win := { w.win with ie := v.getLsbD 1 } }) st
      if v.getLsbD 0 then exGo k s1 else s1) s
  else if i = 0x48 then
    (if (p.lo.getD 0).getLsbD 2 then updEx k (fun w => { w with win := { w.win with busyWr := false } }) s else s)
  else if 0x100 ≤ i ∧ i < 0x400 then
    updEx k (fun w => if x.win.busy then { w with win := { w.win with busyWr := true } }
      else { w with data := Tab.upd 0 w.data ((i - 0x100) / 8) p.onto }) s
  else s

/-- A firmware window (R228). -/
def fwWinRead (who : Who) (o : Nat) (s : State) : W64 × State :=
  let c := o / 0x100
  let i := o % 0x100
  let w := getFwWin s c
  if who.core ≠ some c ∨ 26 ≤ c then (0, s)
  else if i < 0x40 then (n64 (field w.entry i 8), s)
  else if i = 0x40 then (n64 (128 * b2n w.valid + 64 * b2n w.redelivered + 16 * w.slot + b2n w.ie), s)
  else if i = 0x48 then
    (n64 ((List.range 4).map (fun k => match heldEntry s c k with
      | some e => if e.cancelled then 2 ^ k else 0 | none => 0)).sum, s)
  else if i = 0x50 ∨ i = 0x58 then (Tab.get 0 w.result ((i - 0x50) / 8), s) else (0, s)

/-- A write of a firmware window. -/
def fwWinWrite (who : Who) (o : Nat) (p : Put) (s : State) : State :=
  let c := o / 0x100
  let i := o % 0x100
  if who.core ≠ some c ∨ 26 ≤ c then s
  else if i = 0x40 then
    onLow p (fun v st =>
      let s1 := updFwWin c (fun w => { w with ie := v.getLsbD 0 }) st
      if v.getLsbD 1 then fwTake c s1 else s1) s
  else if i = 0x50 ∨ i = 0x58 then updFwWin c (fun w => { w with result := Tab.upd 0 w.result ((i - 0x50) / 8) p.onto }) s
  else if i = 0x60 then onLow p (fun v st => if v.getLsbD 0 then fwPost c (natBits v.toNat 1 2) st else st) s
  else s

/-! ### Reads, window by window -/

/-- Units' EVENTS. -/
def eventsReg (s : State) (n : Nat) : W32 := Tab.get 0 s.events n

/-- Index of an array element: slot `o` lies in `n` elements of `step` bytes from `base`. -/
def slotIn (o base step n : Nat) : Option Nat := if base ≤ o ∧ o < base + step * n then some ((o - base) / step) else none

/-- AL_ (R463). -/
def alRead (s : State) (o : Nat) : W64 :=
  match o with
  | 0x000 => low 0x01200000
  | 0x010 => low (eventsReg s 0)
  | 0x018 => low s.summary
  | 0x020 => low s.al.pinen
  | 0x028 => low s.al.msien
  | 0x030 => low (n32 (b2n s.al.pin))
  | 0x038 => low (n32 (b2n s.al.force))
  | _ =>
    match slotIn o 0x100 8 32, slotIn o 0x200 8 32, slotIn o 0x300 8 32 with
    | some w, _, _ => low (s.branch w)
    | _, some w, _ => low (eventsReg s w)
    | _, _, some w => low (s.leafEn w)
    | _, _, _ => 0

/-- TI_ (R54). -/
def tiRead (s : State) (o : Nat) : W64 :=
  let t := s.time
  let sel := t.shrSel.toNat
  match o with
  | 0x000 => n64 t.now
  | 0x008 => n64 s.stride
  | 0x010 => low (n32 (128 * b2n t.cellValid + 64 * b2n t.disagree + 32 * b2n t.holdStartUsed + 16 * b2n t.firstLock + timeState t))
  | 0x018 => low (uncertReg t)
  | 0x020 => low t.cfg
  | 0x028 => low t.tol
  | 0x030 => low t.drift
  | 0x038 => t.offset
  | 0x040 => low t.path
  | 0x048 => low t.rate
  | 0x050 => low t.phyLat
  | 0x058 => low t.pps
  | 0x060 => low t.utc
  | 0x068 => t.master
  | 0x070 => low (eventsReg s 1)
  | 0x080 => low t.overruns
  | 0x088 => low t.shrSel
  | 0x090 => low (n32 (Tab.get 0 t.staged (shareKey (natBits sel 8 2) (natBits sel 0 8))))
  | 0x098 => low (n32 (2 ^ 31 * b2n t.shrRefused + fullTotal (natBits sel 8 2)))
  | 0x0A0 => low (n32 (effShare t (natBits sel 8 2) (natBits sel 0 8)))
  | _ => 0

/-- A map register: VALID and PHYS of a logical number (R83, R133, R306). -/
def mapReg (s : State) (pool l : Nat) : W32 := match physOf s pool l with | some u => n32 (128 + u) | none => 0

/-- A pool's status register: life count, REASON, LOGICAL and STATE. -/
def statReg (s : State) (pool u life reason : Nat) : W64 :=
  n64 (min life 0xFFFFFFFF * 2 ^ 32 + reason % 256 * 2 ^ 16 + ((logicalOf s pool u).getD 0xFF) * 256 + (getUnit s pool u).st)

/-- An item of the ledger on chip. -/
def itemOf (s : State) (code : Nat) : Nat := Tab.get 0 s.ledger.items code

/-- CF_ (R83). -/
def cfRead (s : State) (o : Nat) : W64 :=
  let p := s.cf.psel
  match o with
  | 0x000 => low 0x22200801
  | 0x010 => low (eventsReg s 2)
  | 0x018 => low (n32 s.cf.mismatches)
  | 0x020 => low (n32 p)
  | 0x028 => low (n32 (Tab.get 0 s.cf.rsvStaged p))
  | 0x030 => low (n32 (Tab.get 2 s.cf.ctxStaged p))
  | 0x038 => low (n32 (Tab.get 0 s.cf.rsvEff p * 2 ^ 20 + Tab.get 2 s.cf.ctxEff p * 2 ^ 10 + ctxUsed s p))
  | 0x400 => s.cf.fault
  | _ =>
    match slotIn o 0x100 8 16, slotIn o 0x200 8 34 with
    | some i, _ => halves (mapReg s 0 (2 * i)) (mapReg s 0 (2 * i + 1))
    | _, some u => statReg s 0 u (itemOf s (0x10C0 + u)) (Tab.get 0 s.cf.reasons u)
    | _, _ => 0

/-- ST_ (R104). -/
def stRead (s : State) (o : Nat) : W64 :=
  let p := s.st.psel
  match o with
  | 0x000 => low 0x01010000
  | 0x010 => low (eventsReg s 3)
  | 0x018 => low (n32 (stallsFree s))
  | 0x020 => low (n32 p)
  | 0x028 => low (n32 (Tab.get 0 s.st.quota p))
  | 0x030 => low (n32 (stallsUsed s p))
  | _ => 0

/-- PK_ (R133). -/
def pkRead (s : State) (warden : Bool) (o : Nat) : W64 :=
  match o with
  | 0x000 => low 0x44400801
  | 0x010 => low (eventsReg s 4)
  | 0x018 => low (n32 s.pk.checkfails)
  | 0x020 => low (n32 (2 ^ 31 * b2n s.pk.entropyOk + min s.pk.reseedFails 0xFFFF))
  | 0x028 => if warden then low s.pk.diagSel else 0
  | 0x500 => s.pk.fault
  | _ =>
    match slotIn o 0x100 8 32, slotIn o 0x200 8 68 with
    | some i, _ => halves (mapReg s 1 (2 * i)) (mapReg s 1 (2 * i + 1))
    | _, some u => statReg s 1 u (itemOf s (0x1100 + u)) (Tab.get 0 s.pk.reasons u)
    | _, _ => 0

/-- CN_ (R173). -/
def cnRead (s : State) (o : Nat) : W64 :=
  let p := s.cn.psel
  match o with
  | 0x000 => low 0x01101000
  | 0x010 => low (eventsReg s 5)
  | 0x020 => low (n32 p)
  | 0x028 => low (n32 (Tab.get 0 s.cn.quotaOpen p * 65536 + Tab.get 0 s.cn.quotaAct p))
  | 0x030 => low (n32 (holdUsed s p * 65536 + Tab.get 0 s.cn.quotaHold p))
  | 0x038 => low (n32 (openUsed s p * 65536 + actionsUsed s p))
  | 0x040 => low s.cn.timeout
  | 0x048 => low (n32 ((s.cn.slots.filter (fun e => e.2.st == 5)).length * 65536 + (s.cn.slots.filter (fun e => e.2.st != 0)).length))
  | 0x058 => n64 s.cn.jseq
  | 0x060 => n64 s.cn.ckpt
  | _ => 0

/-- TK_ (R204). -/
def tkRead (s : State) (o : Nat) : W64 :=
  let p := s.tk.psel
  match o with
  | 0x000 => low 0x01010000
  | 0x010 => low (eventsReg s 6)
  | 0x018 => low (n32 (4 * b2n s.tk.quorum.isSome + 2 * b2n s.tk.sbRec.isSome + b2n s.tk.keep.isSome))
  | 0x020 => low (n32 p)
  | 0x028 => low (n32 ((s.paddock p).st * 2 ^ 30 + (s.paddock p).gen))
  | 0x030 => low (n32 (Tab.get 0 s.tk.quota p))
  | 0x038 => low (n32 (Tab.get 0 s.tk.vquota p))
  | 0x040 => low (n32 (unitsUsed s p * 2 ^ 17 + entriesUsed s p))
  | 0x048 => low (n32 (vaultUsed s p))
  | 0x050 => low s.tk.lease
  | 0x058 => low s.tk.rsvTo
  | 0x060 => low s.tk.qwin
  | _ => 0

/-- CQ_ (R228). -/
def cqRead (s : State) (o : Nat) : W64 :=
  let f := s.cq.psel
  match o with
  | 0x000 => low 0x01201000
  | 0x010 => low (eventsReg s 7)
  | 0x018 => low s.cq.link
  | 0x020 => low (n32 f)
  | 0x028 => low (n32 (Tab.get 0 s.cq.allotV f * 65536 + Tab.get 0 s.cq.allotQ f))
  | 0x030 => low (n32 (Tab.get 0 s.cq.allotA f))
  | 0x038 => low (n32 ((getFunc s f).cancels.length * 2 ^ 24 + (fwFifo s f).length * 2 ^ 13 + queuesInUse s f))
  | _ => 0

/-- IL_ (R245). -/
def ilRead (s : State) (o : Nat) : W64 :=
  match o with
  | 0x000 => low 0x01000004
  | 0x010 => low (eventsReg s 8)
  | 0x020 => low s.il.xoff
  | _ =>
    match slotIn o 0x100 8 4, slotIn o 0x200 8 4, slotIn o 0x1000 0x100 32 with
    | some n, _, _ => low (portCfg s n)
    | _, some n, _ => low (Tab.get 0 s.il.link n)
    | _, _, some b => if o % 0x100 / 8 < 20 then n64 (Tab.get 0 s.il.cnt (32 * b + o % 0x100 / 8)) else 0
    | _, _, _ => 0

/-- PC_CORE[c]. -/
def coreBlock (s : State) (c i : Nat) : W64 :=
  let k := getCore s c
  match i with
  | 0x00 => reinHalf k.spill 0
  | 0x08 => reinHalf k.spill 1
  | 0x10 => n64 (k.spilled * 2 ^ 32 + k.water % 65536 * 65536 + k.onchip.length)
  | 0x18 => low k.ie
  | 0x20 => low k.pend
  | 0x28 => k.timer
  | 0x38 => low (n32 (k.paddock * 2 ^ 24 + k.reason % 256 * 2 ^ 16 + 256 * b2n k.warden + ((logicalOf s 2 c).getD 0x1F) * 8 +
      (getUnit s 2 c).st))
  | _ => 0

/-- PC_ (R277, R306), to the Warden level. -/
def pcRead (s : State) (o : Nat) : W64 :=
  match o with
  | 0x000 => low 0x1A184001
  | 0x010 => low (eventsReg s 9)
  | 0x018 => low s.pc.maskBud
  | 0x028 => s.pc.fault
  | _ =>
    match slotIn o 0x100 8 12, slotIn o 0x10000 0x100 26 with
    | some i, _ => halves (mapReg s 2 (2 * i)) (mapReg s 2 (2 * i + 1))
    | _, some c => coreBlock s c (o % 0x100)
    | _, _ => 0

/-- BR_ (R316), to the Warden level. -/
def brRead (s : State) (o : Nat) : W64 :=
  match o with
  | 0x000 => low 0x01292000
  | 0x010 => low (eventsReg s 10)
  | 0x018 => n64 ((s.br.warn.filter (fun e => e.2)).map (fun e => 2 ^ e.1)).sum
  | 0x020 => low (n32 s.br.faults)
  | _ =>
    match slotIn o 0x10000 0x400 41 with
    | some u =>
      let i := o % 0x400
      if i < 0x100 then Tab.get 0 s.br.rgn (32 * u + i / 8)
      else if i = 0x200 then Tab.get 0 s.br.ufault u
      else if i = 0x208 then low (n32 (min (Tab.get 0 s.br.count u) 0xFFFF * 65536 + b2n (Tab.get false s.br.fresh u)))
      else 0
    | none => 0

/-- FV_ (R347). -/
def fvRead (s : State) (warden : Bool) (o : Nat) : W64 :=
  match o with
  | 0x000 => low 0x01400200
  | 0x010 => low (eventsReg s 11)
  | 0x018 => low (fvStat s)
  | 0x020 => low s.fv.pace
  | 0x028 => n64 (wearCredit s)
  | 0x030 => BitVec.ofInt 64 (s.fv.bucket / 18446744073709551616)
  | 0x038 => low (fvLife s)
  | 0x040 => low s.fv.watch
  | 0x048 => low s.fv.retireCfg
  | 0x050 => low s.fv.pool
  | 0x058 => low (fvSpare s)
  | 0x060 => low (n32 (norSpares s))
  | 0x080 => s.fv.fault
  | 0x200 => if warden then s.fv.rawSel else 0
  | _ =>
    match slotIn o 0x100 8 24 with
    | some i => halves (Tab.get 0 s.fv.hist (2 * i)) (Tab.get 0 s.fv.hist (2 * i + 1))
    | none => 0

/-- CV_ (R362). -/
def cvRead (s : State) (o : Nat) : W64 :=
  match o with
  | 0x000 => low 0x01100000
  | 0x010 => low (eventsReg s 12)
  | _ =>
    match slotIn o 0x100 8 8, slotIn o 0x200 8 16 with
    | some i, _ => halves (getCv s (2 * i)).own (getCv s (2 * i + 1)).own
    | _, some u =>
      n64 (min (itemOf s (0x1150 + u)) 0xFFFFFFFF * 2 ^ 32 + (getUnit s 3 u).faultReason % 256 * 2 ^ 16 +
        8 * b2n (s.cv.jobs.any (fun j => j.unit == u)) + (getUnit s 3 u).st)
    | _, _ => 0

/-- CD_ (R381). -/
def cdRead (s : State) (o : Nat) : W64 :=
  match o with
  | 0x000 => low 0x01020400
  | 0x010 => low (eventsReg s 13)
  | _ =>
    match slotIn o 0x100 0x40 2, slotIn o 0x200 0x40 4 with
    | some n, _ =>
      let c := takePad 16 (getMc s n).cid
      (match o % 0x40 with
       | 0x00 => low (getMc s n).cfg
       | 0x08 => mcStat s n
       | 0x10 => n64 (field c 0 8)
       | 0x18 => n64 (field c 8 8)
       | _ => 0)
    | _, some n =>
      (match o % 0x40 with
       | 0x00 => low (getSc s n).cfg
       | 0x08 => low (scStat s n)
       | 0x10 => low (getSc s n).timeout
       | _ => 0)
    | _, _ => 0

/-- NF_ (R400). -/
def nfRead (s : State) (o : Nat) : W64 :=
  match o with
  | 0x000 => low 0x01000000
  | 0x010 => low (eventsReg s 14)
  | 0x020 => low s.nf.cfg
  | 0x028 => low s.nf.cs
  | 0x030 => low s.nf.fieldCfg
  | 0x038 => low (nfStat s)
  | 0x040 => low s.nf.timeout
  | 0x048 => low (n32 (min (sessionsNow s) 64 * 65536 + b2n s.nf.witEn))
  | _ => 0

/-- TM_ (R417). -/
def tmRead (s : State) (o : Nat) : W64 :=
  match o with
  | 0x000 => low 0x01000016
  | 0x010 => low (eventsReg s 15)
  | 0x018 => low (tmStat s)
  | 0x020 => low (tmAlarm s)
  | 0x030 => low (s.tm.hour &&& 0x1F)
  | 0x038 => s.tm.bistRes
  | 0x040 => low s.tm.vbat
  | 0x048 => low (n32 s.tm.ovf)
  | 0x050 => s.tm.last
  | _ =>
    match slotIn o 0x100 8 11, slotIn o 0x400 8 64 with
    | some i, _ => halves (tmResp s (2 * i)) (tmResp s (2 * i + 1))
    | _, some i => (Tab.get none s.tm.latches i).getD 0
    | _, _ => 0

/-- LC_ (R435). -/
def lcRead (s : State) (o : Nat) : W64 :=
  let d := s.lc.session
  match o with
  | 0x000 => low 0x01000000
  | 0x010 => low (eventsReg s 16)
  | 0x018 => low (lcStat s)
  | 0x020 => s.lc.word
  | 0x028 => Tab.get 0 s.lc.copies 0
  | 0x030 => Tab.get 0 s.lc.copies 1
  | 0x038 => Tab.get 0 s.lc.copies 2
  | 0x048 => n64 (field s.lc.nonce 0 8)
  | 0x050 => n64 (field s.lc.nonce 8 8)
  | 0x058 => low (lcDbgStat s)
  | 0x060 => low (n32 s.lc.sel)
  | 0x068 => n64 ((d.map (fun x => x.fromT)).getD 0)
  | 0x070 => n64 ((d.map (fun x => x.untilT)).getD 0)
  | 0x098 => low 0x13265A37
  | _ =>
    match slotIn o 0x078 8 4 with
    | some i => n64 (field ((d.map (fun x => x.mask)).getD []) (8 * i) 8)
    | none => 0

/-- OD_ (R464). -/
def odRead (s : State) (o : Nat) : W64 :=
  match o with
  | 0x000 => low 0x01082000
  | 0x010 => low (eventsReg s 17)
  | 0x018 => low (n32 (min s.od.disagree.length 256 * 256 + s.od.sessions.length * 16 + b2n s.od.link))
  | 0x020 => s.od.mac
  | 0x028 => low (n32 (b2n s.od.ready))
  | 0x030 => low s.od.idle
  | _ => 0

/-- US_FW. -/
def usFw (s : State) : W32 :=
  n32 (s.us.fw.reason % 256 * 2 ^ 24 + s.us.fw.paddock % 256 * 2 ^ 16 + s.us.fw.core % 256 * 256 + s.us.fw.st % 8)

/-- US_ (R478). -/
def usRead (s : State) (o : Nat) : W64 :=
  match o with
  | 0x000 => low 0x01000004
  | 0x010 => low (eventsReg s 18)
  | 0x018 => low (n32 s.us.stops)
  | 0x020 => low (n32 s.us.lost)
  | 0x028 => low s.us.fwDrain
  | 0x030 => low (usFw s)
  | _ =>
    match slotIn o 0x1000 0x400 4 with
    | some p =>
      let u := o % 0x400 / 4
      let r (u : Nat) : W32 := if u < poolPhys p then usUnit s p u else 0
      halves (r u) (r (u + 1))
    | none => 0

/-- PM_STAT. -/
def pmStat (s : State) : W32 :=
  n32 (s.pm.cause % 16 * 256 + 32 * b2n s.pm.vholdBo + 16 * b2n s.pm.vaultBo + s.pm.step % 16)

/-- PM_RAIL[r]: readings that no measurement has made yet show MIN all ones (R490). -/
def pmRail (s : State) (r : Nat) : W64 := Tab.get 0xFFFF000000000000 s.pm.rails r

/-- PM_ (R490). -/
def pmRead (s : State) (o : Nat) : W64 :=
  match o with
  | 0x000 => low 0x0100000A
  | 0x010 => low (eventsReg s 19)
  | 0x018 => low (pmStat s)
  | 0x020 => low s.pm.bootCfg
  | 0x040 => halves 0 (Tab.get 0 s.pm.bootT 1)
  | 0x048 => halves (Tab.get 0 s.pm.bootT 2) (Tab.get 0 s.pm.bootT 3)
  | 0x050 => halves (Tab.get 0 s.pm.bootT 4) (Tab.get 0 s.pm.bootT 5)
  | 0x058 => halves (Tab.get 0 s.pm.bootT 6) (Tab.get 0 s.pm.bootT 7)
  | 0x060 => low (Tab.get 0 s.pm.bootT 8)
  | _ => match slotIn o 0x100 8 10 with | some r => pmRail s r | none => 0

/-- Read the 8-byte slot at offset `o` of window `n`, with what the read does (R22); `lo` says that it reaches the low half. -/
def slotRead (who : Who) (lo : Bool) (n o : Nat) (s : State) : W64 × State :=
  match n with
  | 0 => (alRead s o, s)
  | 1 => (tiRead s o, s)
  | 2 => if 0x10000 ≤ o then winsRead who lo 0 (winOff o) s else (cfRead s o, s)
  | 3 => if 0x10000 ≤ o then winsRead who lo 2 (winOff o) s else if o = 0x40 then readExpq s else (stRead s o, s)
  | 4 =>
    if 0x10000 ≤ o then winsRead who lo 1 (winOff o) s
    else if o = 0x30 then (if who.warden then readDiag true s else (0, s)) else (pkRead s who.warden o, s)
  | 5 =>
    if 0x10000 ≤ o then winsRead who lo 4 (winOff o) s
    else if o = 0x50 then (if who.warden then readNoteq s else (0, s)) else (cnRead s o, s)
  | 6 => if 0x10000 ≤ o then winsRead who lo 3 (winOff o) s else (tkRead s o, s)
  | 7 => if 0x10000 ≤ o then fwWinRead who (winOff o) s else (cqRead s o, s)
  | 8 => (ilRead s o, s)
  | 9 => (if who.warden then pcRead s o else 0, s)
  | 10 => (if who.warden then brRead s o else 0, s)
  | 11 => if o = 0x208 then readRaw who.warden s else (fvRead s who.warden o, s)
  | 12 => if 0x10000 ≤ o then cvWinRead who lo (winOff o) s else (cvRead s o, s)
  | 13 =>
    (match slotIn o 0x10000 0x1000 2, slotIn o 0x30000 0x1000 4 with
     | some k, _ => exRead who lo (0x10 + k) (o % 0x1000) s
     | _, some k => exRead who lo k (o % 0x1000) s
     | _, _ => (cdRead s o, s))
  | 14 => if 0x10000 ≤ o ∧ o < 0x11000 then exRead who lo 0x20 (winOff o) s else (nfRead s o, s)
  | 15 => (tmRead s o, s)
  | 16 => if o = 0x48 then (let s1 := newNonce s; (lcRead s1 o, s1)) else (lcRead s o, s)
  | 17 => (odRead s o, s)
  | 18 => (usRead s o, s)
  | 19 => (pmRead s o, s)
  | _ => (0, s)

/-! ### Writes, window by window -/

/-- A 32-bit register at a slot's low half, whole. -/
def rw (p : Put) (f : Nat) (old : W32) : W32 := rw32 old p.mask p.val f

/-- W1C of a unit's EVENTS. -/
def w1cEvents (n : Nat) (p : Put) (s : State) : State := onLow p (fun v => clearEvents n (v &&& BitVec.ofNat 32 (eventMask n))) s

/-- Set AL_LEAFEN[w]; a branch bit that rises this way counts (R455). -/
def setLeafEn (w : Nat) (p : Put) (s : State) : State :=
  noteRise s { s with al := { s.al with leafOff := Tab.set 0 s.al.leafOff w (~~~(rw p 0xFFFFFFFF (s.leafEn w))) } }

/-- AL_. -/
def alWrite (o : Nat) (p : Put) (s : State) : State :=
  match o with
  | 0x010 => w1cEvents 0 p s
  | 0x020 => { s with al := { s.al with pinen := rw p 0xFFFFFFFF s.al.pinen } }
  | 0x028 => noteRise s { s with al := { s.al with msien := rw p 0xFFFFFFFF s.al.msien } }
  | 0x038 => onLow p (fun v st => { st with al := { st.al with force := v.getLsbD 0 } }) s
  | _ =>
    match slotIn o 0x200 8 32, slotIn o 0x300 8 32 with
    | some w, _ => w1cEvents w p s
    | _, some w => setLeafEn w p s
    | _, _ => s

/-- TI_CFG after a write: PROFILE 0b11 leaves that field. -/
def tiCfg (p : Put) (old : W32) : W32 :=
  let v := rw p 0xFF0007 old
  if natBits v.toNat 1 2 = 3 then (v &&& ~~~6) ||| (old &&& 6) else v

/-- TI_. -/
def tiWrite (warden : Bool) (o : Nat) (p : Put) (s : State) : State :=
  let t := s.time
  match o with
  | 0x020 => setCfg (tiCfg p t.cfg) s
  | 0x028 => noteUnsure { s with time := { t with tol := rw p 0xFFFFFFFF t.tol } }
  | 0x030 => noteUnsure { s with time := { t with drift := n32 (driftEff { t with drift := rw p 0xFFFFFFFF t.drift }) } }
  | 0x050 => { s with time := { t with phyLat := rw p 0xFFFFFFFF t.phyLat } }
  | 0x058 => noteUnsure { s with time := { t with pps := rw p 0xFFFF0001 t.pps } }
  | 0x070 => w1cEvents 1 p s
  | 0x078 => onLow p (fun v st => if warden && v.getLsbD 0 then reacquire st else st) s
  | 0x088 => { s with time := { t with shrSel := rw p 0x3FF t.shrSel } }
  | 0x090 => onLow p (fun v => writeShare v.toNat) s
  | 0x098 => onLow p (fun v st => if v.getLsbD 31 then { st with time := { st.time with shrRefused := false } } else st) s
  | _ => s

/-- CF_. -/
def cfWrite (o : Nat) (p : Put) (s : State) : State :=
  match o with
  | 0x010 => w1cEvents 2 p s
  | 0x020 => onLow p (fun v st => { st with cf := { st.cf with psel := v.toNat % 256 } }) s
  | 0x028 => onLow p writeCfRsv s
  | 0x030 => onLow p writeCfCtx s
  | _ => s

/-- ST_. -/
def stWrite (o : Nat) (p : Put) (s : State) : State :=
  match o with
  | 0x010 => w1cEvents 3 p s
  | 0x020 => onLow p (fun v st => { st with st := { st.st with psel := v.toNat % 256 } }) s
  | 0x028 => onLow p writeStQuota s
  | _ => s

/-- PK_. -/
def pkWrite (warden : Bool) (o : Nat) (p : Put) (s : State) : State :=
  match o with
  | 0x010 => w1cEvents 4 p s
  | 0x028 => if warden then { s with pk := { s.pk with diagSel := rw p 0x7F1FFF s.pk.diagSel } } else s
  | _ => s

/-- CN_. -/
def cnWrite (o : Nat) (p : Put) (s : State) : State :=
  match o with
  | 0x010 => w1cEvents 5 p s
  | 0x020 => onLow p (fun v st => { st with cn := { st.cn with psel := v.toNat % 256 } }) s
  | 0x028 => onLow p (writeCnQuota false) s
  | 0x030 => onLow p (writeCnQuota true) s
  | 0x040 => { s with cn := { s.cn with timeout := rw p 0xFFFFFFFF s.cn.timeout } }
  | _ => s

/-- TK_. -/
def tkWrite (warden : Bool) (o : Nat) (p : Put) (s : State) : State :=
  match o with
  | 0x010 => w1cEvents 6 p s
  | 0x020 => onLow p (fun v st => { st with tk := { st.tk with psel := v.toNat % 256 } }) s
  | 0x030 => onLow p (writeTkQuota false) s
  | 0x038 => onLow p (writeTkQuota true) s
  | 0x050 => { s with tk := { s.tk with lease := rw p 0xFFFFFFFF s.tk.lease } }
  | 0x058 => { s with tk := { s.tk with rsvTo := rw p 0xFFFFFFFF s.tk.rsvTo } }
  | 0x060 => { s with tk := { s.tk with qwin := rw p 0xFFFFFFFF s.tk.qwin } }
  | 0x068 =>
    onLow p (fun v st => if warden && natBits v.toNat 8 2 != 0 then askAct (natBits v.toNat 0 8) (natBits v.toNat 8 2) 0 st else st) s
  | 0x070 => if warden then { s with tk := { s.tk with mint := Tab.upd 0 s.tk.mint 0 p.onto } } else s
  | 0x078 => if warden then { s with tk := { s.tk with mint := Tab.upd 0 s.tk.mint 1 p.onto } } else s
  | _ => s

/-- CQ_. -/
def cqWrite (warden : Bool) (o : Nat) (p : Put) (s : State) : State :=
  match o with
  | 0x010 => w1cEvents 7 p s
  | 0x020 => onLow p (fun v st => { st with cq := { st.cq with psel := v.toNat % 256 } }) s
  | 0x028 => if warden then onLow p (writeAllot false) s else s
  | 0x030 => if warden then onLow p (writeAllot true) s else s
  | _ => s

/-- IL_. -/
def ilWrite (o : Nat) (p : Put) (s : State) : State :=
  match o with
  | 0x010 => w1cEvents 8 p s
  | 0x020 => { s with il := { s.il with xoff := rw p 0xFFFFFFFF s.il.xoff } }
  | _ => match slotIn o 0x100 8 4 with | some n => writePortCfg n p.mask p.val s | none => s

/-- A write in PC_CORE[c] by a core (none: another master, whose message carries sender 0x1F). -/
def coreBlockWrite (who : Who) (c i : Nat) (p : Put) (s : State) : State :=
  match i with
  | 0x00 => writeSpill c (putHalf (getCore s c).spill 0 p) s
  | 0x08 => writeSpill c (putHalf (getCore s c).spill 1 p) s
  | 0x10 =>
    onLow p (fun v st =>
      let s1 := updCore c (fun k => { k with water := natBits v.toNat 16 16 }) st
      if v.getLsbD 7 then clearStack c s1 else s1) s
  | 0x18 => updCore c (fun k => { k with ie := rw p 0x3FF k.ie }) s
  | 0x20 => updCore c (fun k => { k with pend := w1c32 k.pend p.mask p.val 0x3FF }) s
  | 0x28 => updCore c (fun k => { k with timer := p.onto k.timer }) s
  | 0x30 => onLow p (writeWmsg (who.core.getD 0x1F) c) s
  | _ => s

/-- PC_ (R277). -/
def pcWrite (who : Who) (o : Nat) (p : Put) (s : State) : State :=
  match o with
  | 0x010 => w1cEvents 9 p s
  | 0x018 => { s with pc := { s.pc with maskBud := n32 (max 100 (min (rw p 0xFFFFFFFF s.pc.maskBud).toNat 20000)) } }
  | 0x020 => onLow p writeFence s
  | 0x030 => { s with pc := { s.pc with mint := putHalf s.pc.mint 0 p } }
  | 0x038 => { s with pc := { s.pc with mint := putHalf s.pc.mint 1 p } }
  | _ => match slotIn o 0x10000 0x100 26 with | some c => coreBlockWrite who c (o % 0x100) p s | none => s

/-- BR_. -/
def brWrite (o : Nat) (p : Put) (s : State) : State :=
  match o with
  | 0x010 => w1cEvents 10 p s
  | _ =>
    match slotIn o 0x10000 0x400 41 with
    | some u =>
      let i := o % 0x400
      if i < 0x100 then writeRegion u (i / 8) (p.lo.isSome && p.hi.isSome) p.val s
      else if i = 0x208 then onLow p (fun v st => if v.getLsbD 0 then { st with br := { st.br with fresh := Tab.set false st.br.fresh u false } } else st) s
      else s
    | none => s

/-- FV_. -/
def fvWrite (warden : Bool) (o : Nat) (p : Put) (s : State) : State :=
  match o with
  | 0x010 => w1cEvents 11 p s
  | 0x020 => { s with fv := { s.fv with pace := rw p 0xFFFFFFFF s.fv.pace } }
  | 0x040 => { s with fv := { s.fv with watch := rw p 0xFFFFFF00 s.fv.watch } }
  | 0x048 => { s with fv := { s.fv with retireCfg := rw p 0xFFFFFFFF s.fv.retireCfg } }
  | 0x050 => { s with fv := { s.fv with pool := rw p 0xFFFF0000 s.fv.pool } }
  | 0x200 => if warden then { s with fv := { s.fv with rawSel := rwField s.fv.rawSel p.mask p.val 0xFFE000003FFFFFFF } } else s
  | _ => s

/-- CV_. -/
def cvWrite (warden : Bool) (o : Nat) (p : Put) (s : State) : State :=
  match o with
  | 0x010 => w1cEvents 12 p s
  | _ =>
    match slotIn o 0x100 8 8 with
    | some i =>
      if warden then
        onHigh p (fun v => writeCvOwn (2 * i + 1) 0xFFFFFFFF (v.setWidth 64))
          (onLow p (fun v => writeCvOwn (2 * i) 0xFFFFFFFF (v.setWidth 64)) s)
      else s
    | none => s

/-- CD_. -/
def cdWrite (o : Nat) (p : Put) (s : State) : State :=
  match o with
  | 0x010 => w1cEvents 13 p s
  | _ =>
    match slotIn o 0x100 0x40 2, slotIn o 0x200 0x40 4 with
    | some n, _ => if o % 0x40 = 0 then writeMcCfg n p.mask p.val s else s
    | _, some n =>
      if o % 0x40 = 0 then writeScCfg n p.mask p.val s
      else if o % 0x40 = 0x10 then updSc n (fun m => { m with timeout := rw p 0xFFFFFFFF m.timeout }) s else s
    | _, _ => s

/-- NF_. -/
def nfWrite (o : Nat) (p : Put) (s : State) : State :=
  match o with
  | 0x010 => w1cEvents 14 p s
  | 0x020 => { s with nf := { s.nf with cfg := rw p 0xF0F s.nf.cfg } }
  | 0x028 => { s with nf := { s.nf with cs := rw p 0xFFFFFFFF s.nf.cs } }
  | 0x030 => { s with nf := { s.nf with fieldCfg := rw p 0xFFFF s.nf.fieldCfg } }
  | 0x040 => { s with nf := { s.nf with timeout := rw p 0xFFFFFFFF s.nf.timeout } }
  | 0x048 => onLow p (fun v st => { st with nf := { st.nf with witEn := v.getLsbD 0 } }) s
  | _ => s

/-- One TM_RESP written as a register. -/
def respPut (i : Nat) (v : W32) (s : State) : State := (writeResp i (natBits v.toNat 0 2) (some (natBits v.toNat 2 2)) s).2

/-- TM_. -/
def tmWrite (o : Nat) (p : Put) (s : State) : State :=
  match o with
  | 0x010 => w1cEvents 15 p s
  | 0x028 => onLow p (fun v => writeLock v.toNat) s
  | 0x030 =>
    onLow p (fun v st => { st with tm := { st.tm with hour := v &&& 0x1F, bistBusy := st.tm.bistBusy || v.getLsbD 8 } }) s
  | _ => match slotIn o 0x100 8 11 with | some i => onHigh p (respPut (2 * i + 1)) (onLow p (respPut (2 * i)) s) | none => s

/-- LC_. -/
def lcWrite (o : Nat) (p : Put) (s : State) : State :=
  match o with
  | 0x010 => w1cEvents 16 p s
  | 0x040 => onLow p (fun v st => if natBits v.toNat 8 8 = 0xC3 then (transition (natBits v.toNat 0 3) false st).2 else st) s
  | 0x058 => onLow p (fun v st => if v.getLsbD 1 then { st with lc := { st.lc with denied := false } } else st) s
  | 0x060 => onLow p (fun v st => { st with lc := { st.lc with sel := v.toNat % 256 } }) s
  | _ => s

/-- OD_. -/
def odWrite (o : Nat) (p : Put) (s : State) : State :=
  match o with
  | 0x010 => w1cEvents 17 p s
  | 0x028 => onLow p (fun v st => { st with od := { st.od with ready := v.getLsbD 0 } }) s
  | 0x030 => { s with od := { s.od with idle := rw p 0xFFFFFFFF s.od.idle } }
  | _ => s

/-- US_. -/
def usWrite (o : Nat) (p : Put) (s : State) : State :=
  match o with
  | 0x010 => w1cEvents 18 p s
  | 0x028 => { s with us := { s.us with fwDrain := rw p 0xFFFFFFFF s.us.fwDrain } }
  | _ =>
    match slotIn o 0x1000 0x400 4 with
    | some k =>
      let u := o % 0x400 / 4
      onHigh p (fun v => unitRequest k (u + 1) (v.getLsbD 4)) (onLow p (fun v => unitRequest k u (v.getLsbD 4)) s)
    | none => s

/-- PM_. -/
def pmWrite (o : Nat) (p : Put) (s : State) : State :=
  match o with
  | 0x010 => w1cEvents 19 p s
  | 0x020 => { s with pm := { s.pm with bootCfg := rw p 0xFFFFFFFF s.pm.bootCfg } }
  | _ => s

/-- Write the 8-byte slot at offset `o` of window `n`. -/
def slotWrite (who : Who) (n o : Nat) (p : Put) (s : State) : State :=
  let w := who.warden
  let up (s : State) (f : State → State) : State := if w then f s else s
  match n with
  | 0 => up s (alWrite o p)
  | 1 => tiWrite w o p s
  | 2 => if 0x10000 ≤ o then winsWrite who 0 (winOff o) p s else cfWrite o p s
  | 3 => if 0x10000 ≤ o then winsWrite who 2 (winOff o) p s else stWrite o p s
  | 4 => if 0x10000 ≤ o then winsWrite who 1 (winOff o) p s else pkWrite w o p s
  | 5 => if 0x10000 ≤ o then winsWrite who 4 (winOff o) p s else cnWrite o p s
  | 6 => if 0x10000 ≤ o then winsWrite who 3 (winOff o) p s else tkWrite w o p s
  | 7 => if 0x10000 ≤ o then fwWinWrite who (winOff o) p s else cqWrite w o p s
  | 8 => ilWrite o p s
  | 9 => up s (pcWrite who o p)
  | 10 => up s (brWrite o p)
  | 11 => fvWrite w o p s
  | 12 => if 0x10000 ≤ o then cvWinWrite who (winOff o) p s else cvWrite w o p s
  | 13 =>
    (match slotIn o 0x10000 0x1000 2, slotIn o 0x30000 0x1000 4 with
     | some k, _ => exWrite who (0x10 + k) (o % 0x1000) p s
     | _, some k => exWrite who k (o % 0x1000) p s
     | _, _ => up s (cdWrite o p))
  | 14 => if 0x10000 ≤ o ∧ o < 0x11000 then exWrite who 0x20 (winOff o) p s else up s (nfWrite o p)
  | 15 => up s (tmWrite o p)
  | 16 => up s (lcWrite o p)
  | 17 => up s (odWrite o p)
  | 18 => up s (usWrite o p)
  | 19 => up s (pmWrite o p)
  | _ => s

/-! ### Routing -/

/-- Window number of a CSR address. -/
def csrWindow (a : Nat) : Nat := a / 0x100000 % 0x1000
/-- Slot offset of a CSR address within its window. -/
def csrSlot (a : Nat) : Nat := a % 0x100000 / 8 * 8

/-- A load of `width` bytes, 4 or 8 and aligned (R23): its value and what the read does. -/
def csrRead (who : Who) (a width : Nat) (s : State) : W64 × State :=
  let r := slotRead who (width = 8 ∨ a % 8 ≠ 4) (csrWindow a) (csrSlot a) s
  (if width = 8 then r.1 else if a % 8 = 4 then r.1 >>> 32 else r.1 &&& 0xFFFFFFFF, r.2)

/-- A store of `width` bytes as its slot sees it. -/
def csrPut (a width : Nat) (v : W64) : Put :=
  if width = 8 then { lo := some (v.setWidth 32), hi := some ((v >>> 32).setWidth 32) }
  else if a % 8 = 4 then { lo := none, hi := some (v.setWidth 32) } else { lo := some (v.setWidth 32), hi := none }

/-- A store of `width` bytes. -/
def csrWrite (who : Who) (a width : Nat) (v : W64) (s : State) : State :=
  slotWrite who (csrWindow a) (csrSlot a) (csrPut a width v) s

/-- The core that makes an access, as it stands. -/
def whoCore (s : State) (c : Nat) : Who := { core := some c, warden := (getCore s c).warden }

/-! ### Rein fields (R77, R119, R140, R204, R284, R300, R306, R356) -/

/-- The rein fields of CSR space, by a 16-byte aligned address: a window's KEY or AUX (unit, core, window, whether AUX), a
CVU window's UNIT, TK_MINT, PC_MINT and a core's SPILL. -/
inductive ReinField where
  | win (u c w : Nat) (aux : Bool) | cvu (c : Nat) | tkMint | pcMint | spill (c : Nat)

/-- The rein field at an address. -/
def reinField (a : Nat) : Option ReinField :=
  let n := csrWindow a
  let o := csrSlot a
  let win (u : Nat) : Option ReinField :=
    if o < 0x10000 then none
    else
      match winField u (winOff o) with
      | (c, w, .key 0) => if c < 26 then some (.win u c w false) else none
      | (c, w, .aux 0) => if c < 26 then some (.win u c w true) else none
      | _ => none
  if a % 16 ≠ 0 ∨ !isCsr a then none
  else if n = 2 then win 0 else if n = 4 then win 1 else if n = 5 then win 4
  else if n = 6 ∧ o = 0x70 then some .tkMint
  else if n = 9 ∧ o = 0x30 then some .pcMint
  else if n = 9 then (match slotIn o 0x10000 0x100 26 with | some c => if o % 0x100 = 0 then some (.spill c) else none | none => none)
  else if n = 12 ∧ 0x10000 ≤ o ∧ winOff o < 26 * 0x80 ∧ o % 0x80 = 0x40 then some (.cvu ((winOff o) / 0x80))
  else none

/-- KST to a rein field by core `c`. -/
def csrKst (c : Nat) (f : ReinField) (r : Rein) (s : State) : State :=
  let w := (getCore s c).warden
  match f with
  | .win u o k aux => if o = c then winPut u c k (fun x => if aux then { x with aux := r } else { x with key := r }) s else s
  | .cvu o => if o = c then updCvWin c (fun x => if x.busy then { x with busyWr := true } else { x with key := r }) s else s
  | .tkMint =>
    if w then { s with tk := { s.tk with mint := Tab.set 0 (Tab.set 0 s.tk.mint 0 (reinHalf r 0)) 1 (reinHalf r 1) } } else s
  | .pcMint => if w then { s with pc := { s.pc with mint := r } } else s
  | .spill t => if w then writeSpill t r s else s

/-- KLD from a rein field by core `c`. -/
def csrKld (c : Nat) (f : ReinField) (s : State) : Rein :=
  let w := (getCore s c).warden
  match f with
  | .win u o k aux => if o = c then (if aux then (getWin u c k s).aux else (getWin u c k s).key) else Rein.zero
  | .cvu o => if o = c then (Tab.get Win.reset s.cv.wins c).key else Rein.zero
  | .tkMint => readMint s c
  | .pcMint => if w then { s.pc.mint with tag := true } else Rein.zero
  | .spill t => if w then (getCore s t).spill else Rein.zero

/-! ### Commands on registers -/

/-- A CSR access that R23 performs. -/
def csrShape (a width : Nat) : Bool := isCsr a && !csrWidthBad a width

/-- SHARE_WRITE: core `c` writes TI_SHR_DATA for the selected paddock and resource (R43). -/
def execShareWrite (c : Nat) (v : W32) (s : State) : Host.Outcome State Fault Refusal :=
  if coreMay s c true 0x100100090 then .next (writeShare v.toNat s) else .next s

/-- RESULT_DONE_READ: core `c` reads a window's status, whose DONE clears on read (R77). -/
def execResultDoneRead (c a : Nat) (s : State) : Host.Outcome State Fault Refusal :=
  if csrShape a 8 && coreMay s c false a then .next (csrRead (whoCore s c) a 8 s).2 else .next s

end Sys2Proof.Machine
end

