-- ==== Sys2Proof/Machine/Objects.lean ====
section
/-! DEFINITION. The dictionary's objects (R434, R444, R445, R452, R456, R461, R475): their attributes, their values, and what
a write of each does. -/

namespace Sys2Proof.Machine

/-! ### Attributes (R444, R445) -/

/-- An object's attributes. Roles are as in R438, 0 for no access; `side` says that a read has a side effect. -/
structure DictObj where
  typ : Nat
  rrole : Nat
  wrole : Nat
  persist : Nat
  w1c : Bool
  side : Bool
  monitor : Bool
  partner : Bool
  min : Nat
  max : Nat
  dflt : List Byte

/-- Key of an object. -/
def objKey (i sub : Nat) : Nat := i * 256 + sub

/-- Bytes of an integer type (R444). -/
def typeBytes (typ : Nat) : Nat := match typ with | 1 => 1 | 2 => 1 | 3 => 2 | 4 => 4 | 5 => 8 | 6 => 4 | 7 => 8 | _ => 0

/-- Greatest value of an integer type; BOOL takes 0 and 1. -/
def typeMax (typ : Nat) : Nat := if typ = 1 then 1 else if typ = 6 then 2 ^ 31 - 1 else 2 ^ (8 * typeBytes typ) - 1

/-- An integer object. -/
def intObj (typ r w persist dflt : Nat) : DictObj :=
  { typ := typ, rrole := r, wrole := w, persist := persist, w1c := false, side := false, monitor := false, partner := false,
    min := 0, max := typeMax typ, dflt := natToLE (typeBytes typ) dflt }

/-- An octet string or record whose length lies in [lo, hi]. -/
def bytesObj (typ r w persist lo hi : Nat) : DictObj :=
  { typ := typ, rrole := r, wrole := w, persist := persist, w1c := false, side := false, monitor := false, partner := false,
    min := lo, max := hi, dflt := zeros lo }

/-- U32 objects that mirror one register (R446): its address, its reset value and the role that writes it. -/
def regObj (i sub : Nat) : Option (Nat × Nat × Nat) :=
  match i, sub with
  | 0x2001, 0 => some (0x100100020, 0, 3)
  | 0x2002, 0 => some (0x100100028, 0xC350, 3)
  | 0x2003, 0 => some (0x100100030, 0x3E8, 3)
  | 0x2004, 0 => some (0x100100050, 0, 3)
  | 0x2005, 0 => some (0x100100058, 0x03E80001, 3)
  | 0x2012, 0 => some (0x101300020, 0x1F4, 3)
  | 0x3100, 0 => some (0x100900018, 0x7D0, 3)
  | 0x4600, 0 => some (0x100600050, 0x400, 3)
  | 0x4601, 0 => some (0x100600058, 0x100000, 3)
  | 0x4602, 0 => some (0x100600060, 0x258, 3)
  | 0x6001, 0 => some (0x100500040, 0x1000, 3)
  | 0x7001, 0 => some (0x100B00020, 0x15180, 3)
  | 0x7002, 0 => some (0x100B00040, 0x080A1800, 3)
  | 0x7003, 0 => some (0x100B00048, 0x28140050, 3)
  | 0x7004, 0 => some (0x100B00050, 0x04080000, 3)
  | 0x9003, 0 => some (0x100000020, 0xFFFFFFFF, 3)
  | 0x9003, 1 => some (0x100000028, 0xFFFFFFFF, 3)
  | 0x9004, w => if w < 32 then some (0x100000300 + 8 * w, 0xFFFFFFFF, 3) else none
  | 0xB012, 0 => some (0x101100030, 0x12C, 3)
  | 0xB020, n => if n < 4 then some (0x100800100 + 8 * n, 0x1C0, 2) else none
  | 0xB021, 0 => some (0x100800020, 0x10000800, 2)
  | 0xB030, n => if n < 2 then some (0x100D00100 + 0x40 * n, 0x00FA0014, 3) else none
  | 0xB031, n => if n < 4 then some (0x100D00200 + 0x40 * n, 0x00FA0008, 3) else none
  | 0xB032, n => if n < 4 then some (0x100D00210 + 0x40 * n, 0x1388, 3) else none
  | 0xB040, 0 => some (0x100E00020, 0x30C, 3)
  | 0xB041, 0 => some (0x100E00028, 0x00640040, 3)
  | 0xB042, 0 => some (0x100E00030, 0x3C19, 3)
  | 0xB043, 0 => some (0x100E00040, 0x1388, 3)
  | 0xB044, 0 => some (0x100E00048, 0, 3)
  | _, _ => none

/-- A staged or requested object with its effective partner. -/
def paired (o : DictObj) : DictObj := { o with partner := true }

/-- Objects of the 0x1000, 0x2000 and 0x3000 ranges. -/
def objLow (i sub : Nat) : Option DictObj :=
  match i, sub with
  | 0x1001, 0 => some (intObj 2 1 0 0 0)
  | 0x1002, 0 => some (intObj 5 1 0 2 0)
  | 0x1003, 0 => some (bytesObj 8 1 0 2 0 1024)
  | 0x1004, 0 => some (bytesObj 8 1 0 2 0 1024)
  | 0x1010, 1 => some (intObj 2 0 3 0 0)
  | 0x1011, 0 => some { bytesObj 8 3 0 0 0 1024 with side := true }
  | 0x1012, 0 => some (bytesObj 8 0 3 0 0 1024)
  | 0x1013, 0 => some (intObj 1 0 3 0 0)
  | 0x1020, 0 => some (bytesObj 8 0 3 2 48 48)
  | 0x1030, c => if c < 32 then some (bytesObj 10 1 3 1 112 112) else none
  | 0x2000, 0 => some (intObj 7 1 0 0 0)
  | 0x2008, 0 => some (intObj 4 1 0 0 0)
  | 0x2010, 0 => some (intObj 1 0 3 0 0)
  | 0x3200, 1 => some { bytesObj 8 0 3 0 4 1024 with monitor := true }
  | 0x3200, 2 => some { intObj 2 0 3 0 0 with monitor := true }
  | 0x3200, 3 => some (bytesObj 10 1 0 0 4 4)
  | _, _ =>
    if 0x2100 ≤ i ∧ i ≤ 0x2103 then some (paired (intObj 4 1 3 1 0))
    else if 0x2900 ≤ i ∧ i ≤ 0x2903 then some (intObj 4 1 0 0 0)
    else if 0x3000 ≤ i ∧ i ≤ 0x3003 ∧ sub < poolPhys (i % 4) then some (paired { intObj 2 1 2 1 1 with max := 1 })
    else if 0x3800 ≤ i ∧ i ≤ 0x3803 ∧ sub < poolPhys (i % 4) then some (bytesObj 10 1 0 0 2 2)
    else none

/-- Objects of the other ranges. -/
def objHigh (i sub : Nat) : Option DictObj :=
  match i, sub with
  | 0x4010, 1 => some (intObj 2 3 3 0 0)
  | 0x4010, 2 => some (intObj 2 0 3 0 0)
  | 0x4100, _ => some (intObj 4 1 3 1 0)
  | 0x4200, _ => some (intObj 4 1 3 1 0)
  | 0x4201, _ => some (intObj 4 1 3 1 0)
  | 0x4300, _ => some (intObj 4 1 3 1 0)
  | 0x4301, _ => some (intObj 4 1 3 1 0)
  | 0x4400, _ => some (paired (intObj 3 1 3 1 0))
  | 0x4401, _ => some (paired (intObj 3 1 3 1 2))
  | 0x4500, _ => some (paired (intObj 4 1 3 1 0))
  | 0x4501, _ => some (paired (intObj 4 1 3 1 0))
  | 0x4610, 1 => some { intObj 2 0 3 0 0 with monitor := true }
  | 0x4610, 2 => some { bytesObj 8 0 3 0 0 1024 with monitor := true }
  | 0x4C00, _ => some (intObj 3 1 0 0 0)
  | 0x4C01, _ => some (intObj 3 1 0 0 2)
  | 0x4D00, _ => some (intObj 4 1 0 0 0)
  | 0x4D01, _ => some (intObj 4 1 0 0 0)
  | 0x5000, 0 => some (intObj 4 1 0 0 0x10000)
  | 0x6010, 1 => some (intObj 4 3 3 0 0)
  | 0x6010, 2 => some (intObj 2 0 3 0 0)
  | 0x7010, 0 => some (intObj 4 1 0 0 0)
  | 0x8001, 0 => some (intObj 1 0 2 0 0)
  | 0x8002, 0 => some (intObj 2 1 3 1 2)
  | 0x8010, n => if n < 22 then some (intObj 2 1 3 2 0) else none
  | 0x9000, 0 => some (intObj 4 1 0 0 0)
  | 0x9001, w => if w < 32 then some (intObj 4 1 0 0 0) else none
  | 0x9002, w => if w < 32 then some { intObj 4 1 2 0 0 with w1c := true } else none
  | 0x9010, 0 => some (bytesObj 8 1 0 0 0 1024)
  | 0xA000, _ => some (intObj 5 1 0 0 0)
  | 0xA001, n => if n ≤ 0xF1 then some (intObj 5 1 0 0 0) else none
  | 0xA010, 0 => some (intObj 4 3 3 1 3600)
  | 0xA100, 1 => some (intObj 5 2 2 0 0)
  | 0xA100, 2 => some { bytesObj 8 2 0 0 0 1024 with side := true }
  | 0xA100, 3 => some (intObj 5 2 0 0 0)
  | 0xA100, 4 => some (intObj 5 2 0 0 0)
  | 0xA200, _ => some { bytesObj 8 2 0 0 0 1024 with side := true }
  | 0xB010, 0 => some (bytesObj 10 1 3 1 33 33)
  | 0xB011, 0 => some (bytesObj 10 1 3 1 12 12)
  | _, _ => none

/-- The object at an index and subindex. -/
def objOf (i sub : Nat) : Option DictObj :=
  match regObj i sub with
  | some (_, d, w) => some (intObj 4 1 w 1 d)
  | none => if i < 0x4000 then objLow i sub else objHigh i sub

/-- A DESCRIBE record (R445). -/
def describe (i sub : Nat) (o : DictObj) : List Byte :=
  [BitVec.ofNat 8 o.typ,
    BitVec.ofNat 8 (b2n (o.rrole != 0) + 2 * b2n (o.wrole != 0) + 4 * b2n o.w1c + 8 * b2n o.side),
    BitVec.ofNat 8 o.rrole, BitVec.ofNat 8 o.wrole, BitVec.ofNat 8 o.persist,
    BitVec.ofNat 8 (b2n o.monitor + 2 * b2n o.partner), 0, 0] ++
  natToLE 8 o.min ++ natToLE 8 o.max ++ takePad 8 o.dflt ++ takePad 32 (Config.objectName (objKey i sub))

/-! ### Values (R451, R452) -/

/-- What was last written to an object with a partner, or its default (R451). -/
def requested (s : State) (i sub dflt : Nat) : Nat := (Tab.get none s.od.kept (objKey i sub)).getD dflt

/-- The value of a register, by address. -/
def regValue (s : State) (a : Nat) : Nat := (csrRead { core := none, warden := true } a 4 s).1.toNat

/-- A credential record (R438). -/
def credBytes (c : Option Cred) : List Byte :=
  match c with
  | some c => [BitVec.ofNat 8 c.role] ++ zeros 7 ++ natToLE 8 c.ident ++ takePad 96 c.key
  | none => zeros 112

/-- The value of a persisted record object, zero where none has been written. -/
def persisted (s : State) (i sub n : Nat) : List Byte := takePad n (Tab.get [] s.od.values (objKey i sub))

/-- The list of R451 as 0x9010:00 gives it: index, subindex, zero. -/
def disagreeBytes (s : State) : List Byte := (s.od.disagree.take 256).flatMap (fun k => natToLE 2 (k / 256) ++ natToLE 1 (k % 256) ++ zeros 1)

/-- Values of the ranges below 0x4000. -/
def readLow (s : State) (i sub : Nat) : List Byte :=
  match i with
  | 0x1001 => natToLE 1 s.life
  | 0x1002 => natToLE 8 s.lc.serial.toNat
  | 0x1003 => Config.identityPub
  | 0x1004 => Config.identityCert
  | 0x1011 => s.lc.nonce
  | 0x1030 => credBytes (Tab.get none s.od.creds sub)
  | 0x2000 => natToLE 8 s.time.now
  | 0x2008 => natToLE 4 (tiRead s 0x010).toNat
  | 0x3200 => [BitVec.ofNat 8 s.us.fw.st, BitVec.ofNat 8 s.us.fw.paddock, BitVec.ofNat 8 s.us.fw.core, BitVec.ofNat 8 s.us.fw.reason]
  | _ =>
    if 0x2100 ≤ i ∧ i ≤ 0x2103 then natToLE 4 (requested s i sub 0)
    else if 0x2900 ≤ i ∧ i ≤ 0x2903 then natToLE 4 (effShare s.time (i % 4) sub)
    else if 0x3000 ≤ i ∧ i ≤ 0x3003 then natToLE 1 (requested s i sub 1)
    else [BitVec.ofNat 8 (getUnit s (i % 4) sub).st, BitVec.ofNat 8 (unitReason s (i % 4) sub)]

/-- Values of the other ranges. -/
def readHigh (s : State) (i sub : Nat) : List Byte :=
  match i with
  | 0x4010 => natToLE 1 s.tk.actPaddock
  | 0x4100 => natToLE 4 (Tab.get 0 s.st.quota sub)
  | 0x4200 => natToLE 4 (Tab.get 0 s.cn.quotaOpen sub * 65536 + Tab.get 0 s.cn.quotaAct sub)
  | 0x4201 => natToLE 4 (Tab.get 0 s.cn.quotaHold sub)
  | 0x4300 => natToLE 4 (Tab.get 0 s.tk.quota sub)
  | 0x4301 => natToLE 4 (Tab.get 0 s.tk.vquota sub)
  | 0x4400 => natToLE 2 (requested s i sub 0)
  | 0x4401 => natToLE 2 (requested s i sub 2)
  | 0x4500 => natToLE 4 (requested s i sub 0)
  | 0x4501 => natToLE 4 (requested s i sub 0)
  | 0x4C00 => natToLE 2 (Tab.get 0 s.cf.rsvEff sub)
  | 0x4C01 => natToLE 2 (Tab.get 2 s.cf.ctxEff sub)
  | 0x4D00 => natToLE 4 ((getFunc s sub).vectors * 65536 + (getFunc s sub).quota)
  | 0x4D01 => natToLE 4 (getFunc s sub).adm
  | 0x5000 => natToLE 4 (stallsFree s)
  | 0x6010 => natToLE 4 s.cn.forceHandle.toNat
  | 0x7010 => natToLE 4 (fvLife s).toNat
  | 0x8002 => natToLE 1 (natBits s.tm.hour.toNat 0 5)
  | 0x8010 => natToLE 1 (natBits (tmResp s sub).toNat 0 2)
  | 0x9000 => natToLE 4 s.summary.toNat
  | 0x9001 => natToLE 4 (s.branch sub).toNat
  | 0x9002 => natToLE 4 (eventsReg s sub).toNat
  | 0x9010 => disagreeBytes s
  | 0xA000 => natToLE 8 (itemOf s (0x1000 + sub))
  | 0xA001 => natToLE 8 (if sub = 0xF0 then s.ledger.eventNo % 2 ^ 32 else if sub = 0xF1 then s.ledger.eventNo / 2 ^ 32 else itemOf s (0x1100 + sub))
  | 0xA010 => natToLE 4 s.ledger.period
  | 0xA100 =>
    (match sub with
     | 1 => natToLE 8 s.ledger.cursor
     | 2 => (readCursor s).1
     | 3 => natToLE 8 (oldestEvent s)
     | _ => natToLE 8 s.ledger.eventNo)
  | 0xA200 => (readFeed sub s).1
  | 0xB010 => persisted s i sub 33
  | 0xB011 => persisted s i sub 12
  | _ => []

/-- The value of an object, without the side effect of a read. -/
def objValue (s : State) (i sub : Nat) : List Byte :=
  match regObj i sub with
  | some (a, _, _) => natToLE 4 (regValue s a)
  | none => if i < 0x4000 then readLow s i sub else readHigh s i sub

/-- A READ: the value, with its side effect once (R447). -/
def objRead (i sub : Nat) (s : State) : List Byte × State :=
  match i, sub with
  | 0x1011, _ => let s1 := newNonce s; (s1.lc.nonce, s1)
  | 0xA100, 2 => readCursor s
  | 0xA200, p => readFeed p s
  | _, _ => (objValue s i sub, s)

/-! ### Writes -/

/-- A write that its home chapter may refuse through an EVENTS leaf: it is refused with nothing changed (R448). -/
def orDenied (f : State → State) (s : State) : Nat × State :=
  if (f { s with events := [] }).events.isEmpty then (stOK, f s) else (stDenied, s)

/-- A write that tells whether it was accepted. -/
def orKept (r : Bool × State) : Nat × State := (if r.1 then stOK else stDenied, r.2)

/-- Record what was written to an object with a partner, and the point at which the pair settles. -/
def keep (key v settle : Nat) (s : State) : State :=
  { s with od := { s.od with kept := Tab.set none s.od.kept key (some v), settle := Tab.set 0 s.od.settle key settle } }

/-- The stride number at which the next frame begins. -/
def frameAhead (s : State) : Nat := (s.stride / 256 + 1) * 256

/-- A share written through the dictionary (R41, R43). -/
def writeShareObj (res p v : Nat) (s : State) : Nat × State :=
  let sel := s.time.shrSel
  let s1 := writeShare v { s with time := { s.time with shrSel := n32 (res * 256 + p), shrRefused := false } }
  if s1.time.shrRefused then (stDenied, s)
  else (stOK, { s1 with time := { s1.time with shrSel := sel, shrRefused := s.time.shrRefused } })

/-- Quota and allotment writes for paddock or function `p`. -/
def writeQuotaObj (i p : Nat) (v : W32) (s : State) : Nat × State :=
  match i with
  | 0x4100 => orDenied (fun s => let x := writeStQuota v { s with st := { s.st with psel := p } }; { x with st := { x.st with psel := s.st.psel } }) s
  | 0x4200 => orDenied (fun s => let x := writeCnQuota false v { s with cn := { s.cn with psel := p } }; { x with cn := { x.cn with psel := s.cn.psel } }) s
  | 0x4201 => orDenied (fun s => let x := writeCnQuota true v { s with cn := { s.cn with psel := p } }; { x with cn := { x.cn with psel := s.cn.psel } }) s
  | 0x4300 => orDenied (fun s => let x := writeTkQuota false v { s with tk := { s.tk with psel := p } }; { x with tk := { x.tk with psel := s.tk.psel } }) s
  | 0x4301 => orDenied (fun s => let x := writeTkQuota true v { s with tk := { s.tk with psel := p } }; { x with tk := { x.tk with psel := s.tk.psel } }) s
  | 0x4400 => orDenied (fun s => let x := writeCfRsv v { s with cf := { s.cf with psel := p } }; { x with cf := { x.cf with psel := s.cf.psel } }) s
  | 0x4401 => orDenied (fun s => let x := writeCfCtx v { s with cf := { s.cf with psel := p } }; { x with cf := { x.cf with psel := s.cf.psel } }) s
  | 0x4500 => orDenied (fun s => let x := writeAllot false v { s with cq := { s.cq with psel := p } }; { x with cq := { x.cq with psel := s.cq.psel } }) s
  | _ => orDenied (fun s => let x := writeAllot true v { s with cq := { s.cq with psel := p } }; { x with cq := { x.cq with psel := s.cq.psel } }) s

/-- A credential from its record; none where the record is no credential (R438). -/
def credOf (b : List Byte) : Option (Option Cred) :=
  let role := byteAt b 0
  if role = 0 then (if zeroSpan b 0 112 then some none else none)
  else if role ≤ 3 && zeroSpan b 1 7 && field b 8 8 != 0 then some (some { role := role, ident := field b 8 8, key := (b.drop 16).take 96 })
  else none

/-- The table holds an OFFICER. -/
def hasOfficer (t : Tab (Option Cred)) : Bool := t.any (fun e => match e.2 with | some c => c.role == 3 | none => false)

/-- A credential write by CRED_ID `cred` (R438): the event of R459 with it. -/
def writeCred (c : Nat) (b : List Byte) (cred : Nat) (s : State) : Nat × State :=
  match credOf b with
  | none => (stDenied, s)
  | some new =>
    let t := Tab.set none s.od.creds c new
    let repeated := match new with
      | some x => s.od.creds.any (fun e => e.1 != c && (match e.2 with | some y => y.ident == x.ident | none => false))
      | none => false
    if !hasOfficer t || repeated then (stDenied, s)
    else (stOK, ledgerEvent 0x2060 c (lowHigh cred) { s with od := { s.od with creds := t } })

/-- Sessions bound to a local address close, without a CLOSE message (R437). -/
def closeBound (addr : Nat) (s : State) : State :=
  setEventIf (s.od.sessions.any (fun m => m.addr == addr)) 17 2
    { s with od := { s.od with sessions := s.od.sessions.filter (fun m => m.addr != addr) } }

/-- Writes of the ranges below 0x4000. -/
def writeLow (i sub : Nat) (b : List Byte) (cred : Nat) (s : State) : Nat × State :=
  let v := leToNat b
  match i with
  | 0x1010 => transition v false s
  | 0x1012 => if certState s then (stOK, presentCert b false s) else (stDenied, s)
  | 0x1013 => (stOK, if v = 1 then endSession 2 s else s)
  | 0x1020 => orKept (enrolDebugKey b s)
  | 0x1030 => writeCred sub b cred s
  | 0x2010 => (stOK, if v = 1 then reacquire s else s)
  | 0x3200 =>
    if sub = 1 then orKept (fwChunk b s)
    else (match v with
      | 1 => orKept (fwVerify s)
      | 2 => orKept (fwSwitch s)
      | 3 => orKept (fwCancel s)
      | _ => (stDenied, s))
  | _ =>
    if i < 0x3000 then (let r := writeShareObj (i % 4) sub v s; (r.1, if r.1 = stOK then keep (objKey i sub) v (frameAhead s) r.2 else r.2))
    else (stOK, keep (objKey i sub) v 0 (unitRequest (i % 4) sub (v == 1) s))

/-- Writes of the other ranges. -/
def writeHigh (i sub : Nat) (b : List Byte) (cred : Nat) (s : State) : Nat × State :=
  let v := leToNat b
  match i with
  | 0x4010 =>
    if sub = 1 then (stOK, { s with tk := { s.tk with actPaddock := v } })
    else if 1 ≤ v ∧ v ≤ 3 ∧ actAccepted s s.tk.actPaddock v then (stOK, askAct s.tk.actPaddock v cred s)
    else if 1 ≤ v ∧ v ≤ 3 then (stDenied, askAct s.tk.actPaddock v cred s) else (stDenied, s)
  | 0x4610 =>
    if sub = 2 then (stOK, { s with od := { s.od with quorumArg := b } })
    else if 1 ≤ v ∧ v ≤ 5 then (stOK, { s with od := { s.od with actKind := v, actCred := cred } }) else (stDenied, s)
  | 0x6010 =>
    if sub = 1 then (stOK, { s with cn := { s.cn with forceHandle := n32 v } })
    else if v = 1 ∨ v = 2 then orKept (forceOutcome (v == 1) cred s) else (stDenied, s)
  | 0x8001 => (stOK, if v = 1 then { s with tm := { s.tm with bistBusy := true } } else s)
  | 0x8002 => (stOK, { s with tm := { s.tm with hour := n32 (v % 32) } })
  | 0x8010 => if v < 4 then orKept (writeResp sub v none s) else (stDenied, cfgRefused s)
  | 0x9002 => (stOK, clearEvents sub (n32 v &&& BitVec.ofNat 32 (eventMask sub)) s)
  | 0xA010 => (stOK, { s with ledger := { s.ledger with period := v } })
  | 0xA100 => (stOK, { s with ledger := { s.ledger with cursor := v } })
  | 0xB010 => (stOK, s)
  | 0xB011 => (stOK, s)
  | _ =>
    let r := writeQuotaObj i sub (n32 v) s
    if r.1 ≠ stOK then r
    else if i = 0x4400 ∨ i = 0x4401 then (stOK, keep (objKey i sub) v (frameAhead s) r.2)
    else if i = 0x4500 ∨ i = 0x4501 then (stOK, keep (objKey i sub) v (2 ^ 63) r.2) else r

/-- What a write of a value does now: OK, or DENIED where the object's home chapter refuses it (R448). -/
def objWrite (i sub : Nat) (b : List Byte) (cred : Nat) (s : State) : Nat × State :=
  match regObj i sub with
  | some (a, _, _) => (stOK, csrWrite { core := none, warden := true } a 4 (BitVec.ofNat 64 (leToNat b)) s)
  | none => if i < 0x4000 then writeLow i sub b cred s else writeHigh i sub b cred s

/-! ### Pairs (R451, R473) -/

/-- The keys of pairs that can differ: those written, and those whose effective side is not at its default. -/
def pairKeys (s : State) : List Nat :=
  let ks := s.od.kept.map (fun e => e.1) ++ s.time.eff.map (fun e => 0x210000 + e.1) ++ s.cf.rsvEff.map (fun e => objKey 0x4400 e.1) ++
    s.cf.ctxEff.map (fun e => objKey 0x4401 e.1) ++
    s.cq.funcs.flatMap (fun e => [objKey 0x4500 e.1, objKey 0x4501 e.1]) ++
    s.us.units.map (fun e => objKey (0x3000 + e.1 / 128) (e.1 % 128))
  (ks.foldl (fun t k => Tab.set false t k true) ([] : Tab Bool)).map (fun e => e.1)

/-- A pair has settled and differs; a unit's pair settles where the chain that its request set off ends (R473), and a fence sets
off none. -/
def pairDiffers (s : State) (key : Nat) : Bool :=
  let i := key / 256
  let p := key % 256
  let settled := decide (Tab.get 0 s.od.settle key ≤ s.stride)
  if 0x2100 ≤ i ∧ i ≤ 0x2103 then settled && requested s i p 0 != effShare s.time (i % 4) p
  else if i = 0x4400 then settled && requested s i p 0 != Tab.get 0 s.cf.rsvEff p
  else if i = 0x4401 then settled && requested s i p 2 != Tab.get 2 s.cf.ctxEff p
  else if i = 0x4500 then settled && requested s i p 0 != (getFunc s p).vectors * 65536 + (getFunc s p).quota
  else if i = 0x4501 then settled && requested s i p 0 != (getFunc s p).adm
  else if 0x3000 ≤ i ∧ i ≤ 0x3003 then
    let r := getUnit s (i % 4) p
    !r.settling && !(r.st == 0 && r.enabled && !r.testFailed) && requested s i p 1 != (if r.st ≤ 1 then r.st else 2)
  else false

/-- The stride boundary's list of disagreeing pairs, with OD_EVENTS.DISAGREE while it holds any. -/
def noteDisagree (s : State) : State :=
  let l := (pairKeys s).filter (pairDiffers s)
  setEventIf (!l.isEmpty) 17 5 { s with od := { s.od with disagree := l } }

end Sys2Proof.Machine
end

