-- ==== Sys2Proof/Machine/Dict.lean ====
section
/-! DEFINITION. The dictionary on the management port (R436–R452): sessions, requests in their order, writes by
persistence class, notices; and the port's own ARP, Neighbor Discovery and echo replies. -/

namespace Sys2Proof.Machine

/-! ### Port (R436) -/

/-- The dictionary engine serves: power is up and the boot did not end in SCRAP or INERT (R426, R489). -/
def dictUp (s : State) : Bool :=
  s.od.link && s.pm.running && !s.pm.held && !s.pm.flushing && !s.pm.onCell && s.life != 5 && s.life != 0xFF

/-- The port's MAC address, first octet first. -/
def ownMac (s : State) : List Byte := natToBE 6 s.od.mac.toNat

/-- The link-local address: a modified EUI-64 of the MAC. -/
def linkLocal (s : State) : List Byte :=
  let m := ownMac s
  ([0xFE, 0x80, 0, 0, 0, 0, 0, 0] : List Byte) ++ [m.getD 0 0 ^^^ 2] ++ (m.drop 1).take 2 ++ ([0xFF, 0xFE] : List Byte) ++ m.drop 3

/-- The local addresses: 0 link-local, 1 the static IPv6 one of 0xB010:00, 2 the static IPv4 one of 0xB011:00; none where
it is not set. -/
def localAddr (s : State) (a : Nat) : Option (List Byte) :=
  let given (b : List Byte) : Option (List Byte) := if b.all (· == 0) then none else some b
  match a with
  | 0 => some (linkLocal s)
  | 1 => given ((persisted s 0xB010 0 33).take 16)
  | 2 => given ((persisted s 0xB011 0 12).take 4)
  | _ => none

/-- Whether an IPv6 address is one of the device's. -/
def ownV6 (s : State) (b : List Byte) : Bool := localAddr s 0 == some b || localAddr s 1 == some b

/-- A datagram or frame leaves the port. -/
def portSend (b : List Byte) (s : State) : State := { s with od := { s.od with sent := s.od.sent ++ [b] } }

/-! ### Sessions (R440–R443) -/

/-- The header is well formed and of TYPE `t`, and the datagram is no longer than allowed (R440). -/
def headerOk (d : List Byte) (t : Nat) : Bool :=
  decide (16 ≤ d.length) && decide (d.length ≤ 1232) && byteAt d 0 == 1 && byteAt d 1 == t && zeroSpan d 2 2

/-- A header. -/
def dictHeader (t sid seq : Nat) : List Byte := [1, BitVec.ofNat 8 t, 0, 0] ++ natToLE 4 sid ++ natToLE 8 seq

/-- AES-256-CMAC over header and body (R442). -/
def dictMac (key m : List Byte) : List Byte := cmac (blockFn 2 key) m

/-- A datagram of the device under Kd. -/
def sendMac (m : MgmtSession) (t seq : Nat) (body : List Byte) (s : State) : State :=
  let d := dictHeader t m.sid seq ++ body
  portSend (d ++ dictMac m.kd d) s

/-- Replace a session's record. -/
def putSession (m : MgmtSession) (s : State) : State :=
  { s with od := { s.od with sessions := s.od.sessions.map (fun x => if x.sid = m.sid then m else x) } }

/-- The open session of a SID. -/
def sessionOf (s : State) (sid : Nat) : Option MgmtSession := s.od.sessions.find? (fun m => m.sid == sid)

/-- A session closes: its subscriptions and its waiting requests end with it (R443). -/
def closeSession (sid : Nat) (s : State) : State :=
  setEvent 17 2 { s with od := { s.od with
    sessions := s.od.sessions.filter (fun m => m.sid != sid), inbox := s.od.inbox.filter (fun r => r.sid != sid) } }

/-- The device ends a session with a CLOSE of its own. -/
def deviceClose (m : MgmtSession) (s : State) : State := closeSession m.sid (sendMac m 6 0 [] s)

/-- A SID from a free value that no open session uses. -/
def newSid (used : List Nat) : Nat → Nat → Nat
  | 0, v => v
  | fuel + 1, v => let w := v % 2 ^ 32; if w = 0 ∨ used.contains w then newSid used fuel (w + 1) else w

/-- The key, role and CRED_ID behind a HELLO's CRED_ID (R438, R441); role 0 where it is unknown. -/
def credFor (s : State) (ident : Nat) : Nat × List Byte :=
  if ident = 1 ∧ (s.life = 0 ∨ s.life = 1 ∨ s.life = 4) then (4, Config.vendorPub)
  else match (s.od.creds.filterMap (fun e => e.2)).find? (fun c => c.ident == ident) with
    | some c => (c.role, c.key)
    | none => (0, [])

/-- The x-coordinate of a product on P-384, or free bytes where the point is none. -/
def agreed (priv pt : List Byte) (s : State) : List Byte × State :=
  if pt.length ≠ 96 ∨ pointBad 2 pt 48 then drawBytes 48 s
  else (takePad 48 ((Config.curveOp 0x12 2 [priv, pt]).getD []), s)

/-- A HELLO that is answered: a new session and its HELLO_REPLY (R441, R442). -/
def openDict (d : List Byte) (addr : Nat) (s : State) : State :=
  let body := (d.drop 16).take 120
  let (seed, s1) := drawBytes 72 s
  let priv := natToBE 48 (beToNat seed % (Config.curveOrder 2 - 1) + 1)
  let de := takePad 96 ((Config.curveOp 0x18 2 [priv]).getD [])
  let (nd, s2) := drawBytes 16 s1
  let (v, s3) := drawNat s2
  let sid := newSid (s.od.sessions.map (fun m => m.sid)) 16 v
  let (k, s4) := drawBytes 48 s3
  let tbs := body ++ natToLE 4 sid ++ de ++ nd
  let t := hashOf 2 tbs
  let sig := takePad 96 ((Config.curveOp 0x10 2 [Config.identityPriv, t, k]).getD [])
  let who := credFor s (field body 0 8)
  let (z1, s5) := agreed priv ((body.drop 8).take 96) s4
  let (z2, s6) := agreed priv who.2 s5
  let key (n : Byte) : List Byte := (hashOf 2 (n :: (z1 ++ z2 ++ t))).take 32
  let m : MgmtSession :=
    { sid := sid, addr := addr, role := who.1, cred := field body 0 8, kc := key 1, kd := key 2, seqNext := 0, noticeNo := 1,
      fails := 0, used := false, lastAt := s.tick, subs := [] }
  portSend (dictHeader 2 sid (field d 8 8) ++ natToLE 4 sid ++ de ++ nd ++ sig)
    { s6 with od := { s6.od with sessions := s6.od.sessions ++ [m] } }

/-- HELLO: `addr` is the local address it came to. -/
def execHello (dgram : List Byte) (addr : Nat) (s : State) : Host.Outcome State Fault Refusal :=
  if !dictUp s || !headerOk dgram 1 || dgram.length != 136 || field dgram 4 4 != 0 || (localAddr s addr).isNone then .next s
  else
    let recent := s.od.hellos.filter (fun t => decide (s.tick < t + 1000000))
    if 10 ≤ recent.length ∨ 8 ≤ s.od.sessions.length then
      .next (setEvent 17 4 { s with od := { s.od with hellos := recent } })
    else .next (openDict dgram addr { s with od := { s.od with hellos := recent ++ [s.tick] } })

/-! ### Requests (R446–R450) -/

/-- Fields of a REQUEST body (R447). -/
def rqOp (b : List Byte) : Nat := byteAt b 0
def rqDefault (b : List Byte) : Bool := byteAt b 1 == 1
def rqIndex (b : List Byte) : Nat := field b 2 2
def rqSub (b : List Byte) : Nat := byteAt b 4
def rqLen (b : List Byte) : Nat := field b 6 2

/-- A role holds a right (R439); 0 stands for no access. -/
def roleHas (role need : Nat) : Bool :=
  need != 0 && (if role = 4 then need == 1 || need == 4 else decide (need ≤ role) && need != 4)

/-- An integer type. -/
def intType (typ : Nat) : Bool := typeBytes typ != 0

/-- LEN fits the type (R444). -/
def lenFits (o : DictObj) (n : Nat) : Bool :=
  if intType o.typ then n == typeBytes o.typ
  else if o.typ = 10 then n == o.min else decide (n ≤ (if o.typ = 9 then 256 else 1024))

/-- The value lies within MIN and MAX; for other types its length does (R445). -/
def inBounds (o : DictObj) (v : List Byte) : Bool :=
  if intType o.typ then decide (o.min ≤ leToNat v) && decide (leToNat v ≤ o.max)
  else decide (o.min ≤ v.length) && decide (v.length ≤ o.max)

/-- The value a WRITE gives (R446). -/
def rqValue (o : DictObj) (b : List Byte) : List Byte := if rqDefault b then o.dflt else b.drop 8

/-- Row 1 of R448. -/
def rqMalformed (b : List Byte) : Bool :=
  rqOp b == 0 || decide (5 < rqOp b) || byteAt b 5 != 0 || decide (1 < byteAt b 1) || (rqOp b != 2 && byteAt b 1 != 0) ||
    rqLen b + 8 != b.length ||
    (match objOf (rqIndex b) (rqSub b) with
     | none => true
     | some o => if rqOp b = 2 then (if rqDefault b then rqLen b != 0 else !lenFits o (rqLen b)) else rqLen b != 0)

/-- The role or the access does not allow the operation (row 2 of R448). -/
def rqDenied (role : Nat) (o : DictObj) (op : Nat) : Bool :=
  match op with
  | 1 => !roleHas role o.rrole
  | 2 => !roleHas role o.wrole
  | 4 => !roleHas role o.rrole || o.side
  | _ => !roleHas role (if o.rrole = 0 then o.wrole else o.rrole)

/-- The response body. -/
def rspBody (b : List Byte) (status : Nat) (v : List Byte) : List Byte :=
  [BitVec.ofNat 8 (rqOp b), BitVec.ofNat 8 status] ++ (takePad 5 b).drop 2 ++ zeros 1 ++ natToLE 2 v.length ++ v

/-- Send the response of a request, if its session is still open. -/
def respondTo (r : MgmtReq) (status : Nat) (v : List Byte) (s : State) : State :=
  let s1 := setEventIf (status == stBusyRetry) 17 6 s
  match sessionOf s r.sid with
  | none => s1
  | some m => sendMac m 4 r.seq (rspBody r.body status v) s1

/-- Add or drop a subscription. -/
def setSubs (m : MgmtSession) (key : Nat) (v : Option (List Byte)) (s : State) : State :=
  let others := m.subs.filter (fun x => x.key != key)
  putSession { m with subs := match v with | some v => others ++ [{ key := key, value := v }] | none => others } s

/-- Serve one request (R447, R448): a WRITE that is not refused waits for its boundary. -/
def serveOne (m : MgmtSession) (r : MgmtReq) (s : State) : State :=
  let b := r.body
  let i := rqIndex b
  let sub := rqSub b
  if rqMalformed b then respondTo r stMalformed [] s
  else match objOf i sub with
  | none => respondTo r stMalformed [] s
  | some o =>
    let v := rqValue o b
    let fit := if inBounds o v then v else if intType o.typ then natToLE (typeBytes o.typ) o.min
      else takePad (if v.length < o.min then o.min else o.max) v
    let trial := objWrite i sub fit m.cred s
    if rqDenied m.role o (rqOp b) then respondTo r stDenied [] s
    else if rqOp b = 2 ∧ trial.1 ≠ stOK then respondTo r trial.1 [] trial.2
    else if rqOp b = 2 ∧ !inBounds o v then respondTo r stOperandRange [] s
    else if !s.od.ready && (o.monitor || (rqOp b == 2 && o.persist == 1)) then respondTo r stBusyRetry [] s
    else match rqOp b with
      | 1 => let x := objRead i sub s; respondTo r stOK x.1 x.2
      | 2 => { s with od := { s.od with
          write := some { req := r, role := m.role, cred := m.cred, value := v, nor := o.persist == 1, asked := s.tick, begun := false } } }
      | 3 => respondTo r stOK (describe i sub o) s
      | 4 =>
        if 64 ≤ (m.subs.filter (fun x => x.key != objKey i sub)).length then respondTo r stQuota [] s
        else respondTo r stOK (objValue s i sub) (setSubs m (objKey i sub) (some (objValue s i sub)) s)
      | _ => respondTo r stOK [] (setSubs m (objKey i sub) none s)

/-- Serve waiting requests in their order until one is a WRITE that waits (R450). -/
def serveInbox : Nat → State → State
  | 0, s => s
  | fuel + 1, s =>
    match s.od.write, s.od.inbox with
    | none, r :: rs =>
      let s1 := { s with od := { s.od with inbox := rs } }
      serveInbox fuel (match sessionOf s r.sid with | some m => serveOne m r s1 | none => s1)
    | _, _ => s

/-- Serve what can be served. -/
def serveAll (s : State) : State := serveInbox (s.od.inbox.length + 1) s

/-- Which command of the table a datagram is: 1 read, 2 write, 3 describe, 4 subscribe, 5 unsubscribe, 6 CLOSE, 7 credential
write, 8 address write, 9 cursor read, 10 feed read; 0 anything else. -/
def dictKind (d : List Byte) : Nat :=
  let b := (d.drop 16).take (d.length - 32)
  if byteAt d 1 = 6 then 6
  else if rqOp b = 2 then (if rqIndex b = 0x1030 then 7 else if rqIndex b = 0xB010 ∨ rqIndex b = 0xB011 then 8 else 2)
  else if rqOp b = 1 then (if rqIndex b = 0xA100 ∧ rqSub b = 2 then 9 else if rqIndex b = 0xA200 then 10 else 1)
  else if rqOp b ≤ 5 then rqOp b else 0

/-- A datagram whose MAC fails (R442). -/
def macFailed (m : MgmtSession) (s : State) : State :=
  let s1 := setEvent 17 3 (putSession { m with fails := m.fails + 1 } s)
  if 16 ≤ m.fails + 1 then deviceClose m s1 else s1

/-- A REQUEST or CLOSE arrives (R440, R442, R443). -/
def receiveDgram (d : List Byte) (s : State) : State :=
  if !dictUp s || !(headerOk d 3 || headerOk d 6) || decide (d.length < 32) then s
  else match sessionOf s (field d 4 4) with
  | none => s
  | some m =>
    let n := d.length - 16
    if dictMac m.kc (d.take n) != d.drop n then macFailed m s
    else
      let m1 := { m with fails := 0 }
      if byteAt d 1 = 6 then closeSession m.sid s
      else if field d 8 8 < m.seqNext then putSession m1 s
      else
        let s1 := setEventIf (!m.used) 17 1 (putSession { m1 with seqNext := field d 8 8 + 1, used := true, lastAt := s.tick } s)
        serveAll { s1 with od := { s1.od with
          inbox := s1.od.inbox ++ [{ sid := m.sid, seq := field d 8 8, body := (d.take n).drop 16 }] } }

/-- The datagram is received where it is of one of the kinds. -/
def receiveKind (ks : List Nat) (d : List Byte) (s : State) : State := if ks.contains (dictKind d) then receiveDgram d s else s

/-- DICT_READ; a datagram that no other command names comes here too. -/
def execDictRead (msg : List Byte) (s : State) : Host.Outcome State Fault Refusal := .next (receiveKind [0, 1] msg s)
/-- DICT_WRITE. -/
def execDictWrite (msg : List Byte) (s : State) : Host.Outcome State Fault Refusal := .next (receiveKind [2] msg s)
/-- DICT_DESCRIBE. -/
def execDictDescribe (msg : List Byte) (s : State) : Host.Outcome State Fault Refusal := .next (receiveKind [3] msg s)
/-- DICT_SUBSCRIBE. -/
def execDictSubscribe (msg : List Byte) (s : State) : Host.Outcome State Fault Refusal := .next (receiveKind [4] msg s)
/-- DICT_UNSUBSCRIBE. -/
def execDictUnsubscribe (msg : List Byte) (s : State) : Host.Outcome State Fault Refusal := .next (receiveKind [5] msg s)
/-- SESSION_CLOSE. -/
def execSessionClose (msg : List Byte) (s : State) : Host.Outcome State Fault Refusal := .next (receiveKind [6] msg s)
/-- CREDENTIAL_WRITE. -/
def execCredentialWrite (msg : List Byte) (s : State) : Host.Outcome State Fault Refusal := .next (receiveKind [7] msg s)
/-- ADDRESS_CONFIG_WRITE. -/
def execAddressConfigWrite (msg : List Byte) (s : State) : Host.Outcome State Fault Refusal := .next (receiveKind [8] msg s)
/-- LEDGER_CURSOR_READ. -/
def execLedgerCursorRead (msg : List Byte) (s : State) : Host.Outcome State Fault Refusal := .next (receiveKind [9] msg s)
/-- FEED_READ. -/
def execFeedRead (msg : List Byte) (s : State) : Host.Outcome State Fault Refusal := .next (receiveKind [10] msg s)

/-- SESSION_IDLE_TIMEOUT: every session past OD_IDLE closes (R443, R464). -/
def execSessionIdleTimeout (s : State) : Host.Outcome State Fault Refusal :=
  let old := s.od.sessions.filter (fun m => decide (m.lastAt + max 30 s.od.idle.toNat * 1000000 ≤ s.tick))
  .next (old.foldl (fun st m => deviceClose m st) s)

/-! ### Writes at their boundary (R446, R437) -/

/-- The act a written object started still runs: a paddock act (R177), or the verification of a certificate (R428). -/
def actRuns (i sub : Nat) (s : State) : Bool :=
  if i = 0x4010 ∧ sub = 2 then s.tk.acts.any (fun a => a.paddock == s.tk.actPaddock)
  else i == 0x1012 && s.lc.verify.any (fun j => !j.jtag)

/-- The write ends: its response, the sessions of a replaced address, and the requests behind it. -/
def endWrite (w : MgmtWrite) (status : Nat) (v : List Byte) (s : State) : State :=
  let i := rqIndex w.req.body
  let s1 := respondTo w.req status v { s with od := { s.od with write := none } }
  serveAll (if status ≠ stOK then s1 else if i = 0xB010 then closeBound 1 s1 else if i = 0xB011 then closeBound 2 s1 else s1)

/-- Keep the record of a NOR-persisted object in the reserve (R324, R446); the credential table has a place of its own in State. -/
def storeValue (w : MgmtWrite) (s : State) : State :=
  let k := objKey (rqIndex w.req.body) (rqSub w.req.body)
  if !w.nor then s
  else
    let s1 := reservePut 0x02 k w.value s
    if k / 256 = 0x1030 then s1 else { s1 with od := { s1.od with values := Tab.set [] s1.od.values k w.value } }

/-- DICT_WRITE_APPLY: a stride boundary after the write, and after its record counts as written; `ok` says whether NOR took
the record. A write that starts an act is answered when the act ends. -/
def execDictWriteApply (ok : Bool) (s : State) : Host.Outcome State Fault Refusal :=
  match s.od.write with
  | none => .next s
  | some w =>
    let i := rqIndex w.req.body
    let sub := rqSub w.req.body
    let code : List Byte := if i = 0x1012 then natToLE 1 s.lc.result else []
    if s.tick ≤ w.asked then .next s
    else if w.begun then (if actRuns i sub s then .next s else .next (endWrite w stOK code s))
    else if w.nor && !ok then .next (endWrite w stMediaError [] s)
    else
      let x := objWrite i sub w.value w.cred s
      if x.1 ≠ stOK then .next (endWrite w x.1 [] x.2)
      else if actRuns i sub x.2 then .next { x.2 with od := { x.2.od with write := some { w with begun := true } } }
      else .next (endWrite w stOK code (storeValue w x.2))

/-! ### Notices (R450) -/

/-- A session's notices at the end of a stride: one for each subscribed object whose value changed. -/
def noticesOf (sid : Nat) (s : State) : State :=
  match sessionOf s sid with
  | none => s
  | some m =>
    m.subs.foldl (fun st x =>
      let v := objValue s (x.key / 256) (x.key % 256)
      if v = x.value then st
      else match sessionOf st sid with
        | none => st
        | some n =>
          let b := rspBody ([4, 0] ++ natToLE 2 (x.key / 256) ++ natToLE 1 (x.key % 256)) stOK v
          putSession { n with noticeNo := n.noticeNo + 1, subs := n.subs.map (fun y => if y.key = x.key then { y with value := v } else y) }
            (sendMac n 5 n.noticeNo b st)) s

/-- Every session's notices. -/
def pushNotices (s : State) : State :=
  if dictUp s then (s.od.sessions.map (fun m => m.sid)).foldl (fun st sid => noticesOf sid st) s else s

/-! ### ARP, Neighbor Discovery and echo (R436) -/

/-- The Internet checksum's sum of 16-bit words. -/
def onesSum (b : List Byte) : Nat :=
  let v := ((chunks 2 b).map (fun p => beToNat (takePad 2 p))).sum
  let f (x : Nat) : Nat := x % 65536 + x / 65536
  f (f (f v))

/-- The Internet checksum over a string. -/
def inetSum (b : List Byte) : List Byte := natToBE 2 (65535 - onesSum b)

/-- The checksum of a received string holds. -/
def sumGood (b : List Byte) : Bool := onesSum b == 65535

/-- The pseudo-header of an ICMPv6 message. -/
def pseudo6 (src dst m : List Byte) : List Byte := src ++ dst ++ natToBE 4 m.length ++ ([0, 0, 0, 58] : List Byte)

/-- An ICMPv6 message with its checksum put in. -/
def icmp6 (src dst m : List Byte) : List Byte :=
  let z := m.take 2 ++ zeros 2 ++ m.drop 4
  m.take 2 ++ inetSum (pseudo6 src dst z ++ z) ++ m.drop 4

/-- An Ethernet frame to `dst`, padded to the least length. -/
def etherFrame (s : State) (dst : List Byte) (typ : Nat) (payload : List Byte) : List Byte :=
  let f := dst ++ ownMac s ++ natToBE 2 typ ++ payload
  if f.length < 60 then takePad 60 f else f

/-- The Ethernet type of a frame for the device, of an allowed length; VLAN tags have a type of their own. -/
def etherType (f : List Byte) : Nat := if f.length ≤ 1514 then beToNat ((f.drop 12).take 2) else 0

/-- The frame is addressed to the port itself. -/
def toOwnMac (s : State) (f : List Byte) : Bool := f.take 6 == ownMac s

/-- ARP_REQUEST: answered for the static IPv4 address. -/
def execArpRequest (frame : List Byte) (s : State) : Host.Outcome State Fault Refusal :=
  let a := frame.drop 14
  let okTo := toOwnMac s frame || frame.take 6 == List.replicate 6 0xFF
  if dictUp s && okTo && etherType frame == 0x0806 && decide (28 ≤ a.length) &&
      a.take 8 == ([0, 1, 8, 0, 6, 4, 0, 1] : List Byte) && localAddr s 2 == some ((a.drop 24).take 4) then
    let rep := ([0, 1, 8, 0, 6, 4, 0, 2] : List Byte) ++ ownMac s ++ (a.drop 24).take 4 ++ (a.drop 8).take 10
    .next (portSend (etherFrame s ((a.drop 8).take 6) 0x0806 rep) s)
  else .next s

/-- An IPv6 packet without extension headers that carries ICMPv6: its source, destination, hop limit and message. -/
def parse6 (frame : List Byte) : Option (List Byte × List Byte × Nat × List Byte) :=
  let p := frame.drop 14
  let n := beToNat ((p.drop 4).take 2)
  let m := (p.drop 40).take n
  let src := (p.drop 8).take 16
  let dst := (p.drop 24).take 16
  if etherType frame = 0x86DD ∧ byteAt p 0 / 16 = 6 ∧ byteAt p 6 = 58 ∧ 40 + n ≤ p.length ∧ sumGood (pseudo6 src dst m ++ m) then
    some (src, dst, byteAt p 7, m)
  else none

/-- An IPv6 packet that carries an ICMPv6 message. -/
def packet6 (src dst : List Byte) (hop : Byte) (m : List Byte) : List Byte :=
  ([0x60, 0, 0, 0] : List Byte) ++ natToBE 2 m.length ++ [58, hop] ++ src ++ dst ++ icmp6 src dst m

/-- The source link-layer address option (type 1) of a Neighbor Solicitation; options are cut by their lengths. -/
def linkOption : Nat → List Byte → Option (List Byte)
  | 0, _ => none
  | fuel + 1, o =>
    if o.length < 8 ∨ byteAt o 1 = 0 then none
    else if byteAt o 0 = 1 ∧ byteAt o 1 = 1 then some ((o.drop 2).take 6) else linkOption fuel (o.drop (8 * byteAt o 1))

/-- NEIGHBOR_SOLICITATION: answered for the device's own addresses, a duplicate-address probe among them (RFC 4861). -/
def execNeighborSolicitation (frame : List Byte) (s : State) : Host.Outcome State Fault Refusal :=
  match parse6 frame with
  | none => .next s
  | some (src, dst, hop, m) =>
    let target := (m.drop 8).take 16
    let node := ([0xFF, 0x02, 0, 0, 0, 0, 0, 0, 0, 0, 0, 1, 0xFF] : List Byte) ++ target.drop 13
    let multi := dst == node && frame.take 6 == ([0x33, 0x33] : List Byte) ++ node.drop 12
    if dictUp s && (multi || (ownV6 s dst && toOwnMac s frame)) && hop == 255 && byteAt m 0 == 135 && byteAt m 1 == 0 &&
        decide (24 ≤ m.length) && ownV6 s target then
      let unspecified := src.all (· == 0)
      let goal := if unspecified then ([0xFF, 0x02] : List Byte) ++ zeros 13 ++ [1] else src
      let mac := if unspecified then ([0x33, 0x33, 0, 0, 0, 1] : List Byte)
        else (linkOption 64 (m.drop 24)).getD ((frame.drop 6).take 6)
      let na := ([136, 0, 0, 0, if unspecified then 0x20 else 0x60, 0, 0, 0] : List Byte) ++ target ++ [2, 1] ++ ownMac s
      .next (portSend (etherFrame s mac 0x86DD (packet6 target goal 255 na)) s)
    else .next s

/-- An ICMP echo request over IPv4, without options and not a fragment. -/
def echo4 (frame : List Byte) (s : State) : State :=
  let p := frame.drop 14
  let n := beToNat ((p.drop 2).take 2)
  let m := (p.drop 20).take (n - 20)
  if toOwnMac s frame && etherType frame == 0x0800 && byteAt p 0 == 0x45 && decide (28 ≤ n) && decide (n ≤ p.length) &&
      beToNat ((p.drop 6).take 2) % 2 ^ 14 == 0 && byteAt p 9 == 1 && sumGood (p.take 20) && sumGood m &&
      byteAt m 0 == 8 && byteAt m 1 == 0 && localAddr s 2 == some ((p.drop 16).take 4) then
    let (x, s1) := drawBytes 3 s
    let hdr (c : List Byte) : List Byte := ([0x45, 0] : List Byte) ++ natToBE 2 n ++ x.take 2 ++ [0, 0] ++ x.drop 2 ++ [1] ++ c ++
      (p.drop 16).take 4 ++ (p.drop 12).take 4
    let z := [0, 0, 0, 0] ++ m.drop 4
    portSend (etherFrame s ((frame.drop 6).take 6) 0x0800
      (hdr (inetSum (hdr (zeros 2))) ++ [0, 0] ++ inetSum z ++ m.drop 4)) s1
  else s

/-- An ICMPv6 echo request. -/
def echo6 (frame : List Byte) (s : State) : State :=
  match parse6 frame with
  | none => s
  | some (src, dst, _, m) =>
    if toOwnMac s frame && ownV6 s dst && byteAt m 0 == 128 && byteAt m 1 == 0 && decide (8 ≤ m.length) then
      let (x, s1) := drawBytes 1 s
      portSend (etherFrame s ((frame.drop 6).take 6) 0x86DD (packet6 dst src (x.getD 0 0) ([129, 0, 0, 0] ++ m.drop 4))) s1
    else s

/-- ICMP_ECHO: over IPv4 or IPv6. -/
def execIcmpEcho (frame : List Byte) (s : State) : Host.Outcome State Fault Refusal :=
  if !dictUp s then .next s
  else if etherType frame = 0x0800 then .next (echo4 frame s) else .next (echo6 frame s)

/-- MGMT_LINK_CHANGE. -/
def execMgmtLinkChange (up : Bool) (s : State) : Host.Outcome State Fault Refusal :=
  .next (setEventIf (s.od.link != up) 17 0 { s with od := { s.od with link := up } })

end Sys2Proof.Machine
end

