-- ==== Sys2Proof/Machine/Boot.lean ====
section
/-! DEFINITION. Power, reset and boot (R479–R490): rails and brown-outs, what a loss of power or POR_N leaves, the eight boot
steps; and the frame effects that boot step 3 shares with frame boundaries. -/

namespace Sys2Proof.Machine

/-! ### Frames (R41, R43, R44) -/

/-- The effective share of `n` slots of a resource (R44); a PKE share stays a multiple of 64 (R123). -/
def scaledShare (s : State) (res n : Nat) : Nat :=
  if res = 3 then n
  else
    let m := n * boundActive s res / poolLogical res
    if res = 1 then m / 64 * 64 else m

/-- Effective shares from the table in force. -/
def takeShares (s : State) : State :=
  { s with time := { s.time with
    eff := s.time.inForce.foldl (fun t e => Tab.set 0 t e.1 (scaledShare s (e.1 / 256) (Tab.get 0 s.time.inForce e.1))) [] } }

/-- The stride's frame has not had its boundary yet. -/
def frameDue (s : State) : Bool := s.time.frameDone != some (s.stride / 256)

/-- A frame boundary: shares, CF_ values, the PKE layout and the wear pacing take effect. -/
def frameEffects (s : State) : State :=
  let s1 := takeShares { s with time := { s.time with inForce := s.time.staged, frameDone := some (s.stride / 256) } }
  wearPacing (pkeLayout (cipherFrame s1))

/-! ### Rails (R479, R482, R490) -/

/-- Nominal mV of rail `r`. -/
def railNominal : Nat → Nat
  | 0 => 750 | 1 => 800 | 2 => 900 | 3 => 1200 | 4 => 1800 | 5 => 2500 | 6 => 1200 | 7 => 1800 | _ => 12000

/-- PM_RAIL after a reading: NOW, and the extremes since power-up. -/
def railReading (old : W64) (mv : Nat) : W64 :=
  let lo := natBits old.toNat 48 16
  let hi := natBits old.toNat 32 16
  BitVec.ofNat 64 (min lo mv * 2 ^ 48 + max hi mv * 2 ^ 32 + mv)

/-- Deviation of a reading in whole per cent. -/
def deviation (r mv : Nat) : Nat := ((mv - railNominal r) + (railNominal r - mv)) * 100 / railNominal r

/-- An excursion is followed: the tenth measurement in a row off nominal by 1 % sets the event, and its end counts it under
its largest deviation (R457). -/
def followRail (r mv : Nat) (s : State) : State :=
  let d := deviation r mv
  let was := Tab.get (0, 0) s.pm.dev r
  let put (v : Nat × Nat) (st : State) : State := { st with pm := { st.pm with dev := Tab.set (0, 0) st.pm.dev r v } }
  if 1 ≤ d then setEventIf (was.1 + 1 == 10) 19 6 (put (was.1 + 1, max was.2 d) s)
  else put (0, 0) (if 10 ≤ was.1 then itemAddQuiet (0x1010 + 4 * r + (min was.2 4 - 1)) 1 s else s)

/-- RAIL_MEASURE: the readings in mV of rails 0 to 8 and of VBAT. A brown-out rail that stands above its release level is
no longer in brown-out. -/
def execRailMeasure (mv : List Nat) (s : State) : Host.Outcome State Fault Refusal :=
  if s.pm.onCell then .next s
  else
    let vs := (mv.take 10).map (fun v => min v 0xFFFF)
    let s1 := { s with pm := { s.pm with
      rails := vs.zipIdx.foldl (fun t e => Tab.upd 0xFFFF000000000000 t e.2 (fun old => railReading old e.1)) s.pm.rails,
      vaultBo := s.pm.vaultBo && !(vs[7]?).any (fun v => decide (1740 < v)),
      vholdBo := s.pm.vholdBo && !(vs[8]?).any (fun v => decide (11200 < v)) } }
    .next ((vs.take 9).zipIdx.foldl (fun st e => followRail e.2 e.1 st) s1)

/-! ### Loss of power (R482–R485) -/

/-- Acts whose sealed record may have become durable: a free value says whether it did (R178). -/
def lossActs (s : State) : State :=
  s.tk.acts.foldl (fun st a => let r := drawNat st; if r.1 % 2 = 1 then actPaddock a r.2 else r.2) s

/-- A NOR-persisted write that waited: a free value says whether its record counts (R446). -/
def lossWrite (s : State) : State :=
  match s.od.write with
  | none => s
  | some w =>
    if !w.nor ∨ w.begun then s
    else
      let r := drawNat s
      if r.1 % 2 = 0 then r.2
      else if rqIndex w.req.body = 0x1030 then storeValue w (writeCred (rqSub w.req.body) w.value w.cred r.2).2
      else storeValue w r.2

/-- What stays of a tack in custody: nothing resident, nothing in use. -/
def coldTack (t : Tack) : Tack :=
  { t.unload with fetching := false, fillPending := false, pendingUses := 0, boundNext := none, errAt := 0 }

/-- Everything but the backup domain, fuses, NOR and NAND is lost (R482, R485). The journal batches already issued are
complete (R166). -/
def powerLoss (s0 : State) : State :=
  let s := cinchPowerLoss (lossWrite (lossActs s0))
  { s with
    mem := { Memory.reset with host := s.mem.host, hostBad := s.mem.hostBad },
    br := Bridle.reset,
    al := AlertTree.reset,
    events := [],
    waits := [],
    st := StableUnit.reset,
    cf := CipherUnit.reset,
    pk := PkeUnit.reset,
    il := { InlineUnit.reset with sent := s.il.sent },
    cq := Casrun.reset,
    pc := PacerUnit.reset,
    us := UnitService.reset,
    cv := CvPool.reset,
    cd := CardUnit.reset,
    cn := { CinchUnit.reset with
      vault := s.cn.vault, jseq := s.cn.jseq, journal := s.cn.journal, ckpt := s.cn.ckpt, ckptCounters := s.cn.ckptCounters,
      doubted := s.cn.doubted, nothing := s.cn.nothing },
    tk := { TackUnit.reset with
      paddocks := Tab.mapVals Paddock.absent (fun _ p => { p with master := none }) s.tk.paddocks,
      keep := s.tk.keep, held := s.tk.held, sbRec := s.tk.sbRec, placeRec := s.tk.placeRec, vault := s.tk.vault, sbShares := s.tk.sbShares, shareSum := s.tk.shareSum,
      nextIndex := s.tk.nextIndex, tacks := s.tk.tacks.map (fun e => (e.1, coldTack e.2)), custodians := s.tk.custodians,
      generation := s.tk.generation },
    tm := { s.tm with
      alarm := [], shedDue := none, shedStart := none, shedBusy := false, running := 0, bistBusy := false, bistRes := 0, last := 0,
      hour := TamperUnit.reset.hour },
    fv := { s.fv with
      pace := VaultUnit.reset.pace, watch := VaultUnit.reset.watch, retireCfg := VaultUnit.reset.retireCfg,
      pool := VaultUnit.reset.pool, fault := 0, rawSel := 0, charged := 0 },
    nf := { NfUnit.reset with
      uid := s.nf.uid, sig := s.nf.sig, witEn := s.nf.witEn, sessions := s.nf.sessions, day := s.nf.day,
      limited := s.nf.limited, counted := s.nf.counted },
    lc := { LifeUnit.reset with
      copies := s.lc.copies, word := s.lc.word, skew := s.lc.skew, fwHash := s.lc.fwHash, dkeyHash := s.lc.dkeyHash,
      vkeyHash := s.lc.vkeyHash, serial := s.lc.serial, busy := s.lc.busy.filter (fun b => b.2.isSome) },
    od := { DictUnit.reset with creds := s.od.creds, values := s.od.values, mac := s.od.mac, sent := s.od.sent } }

/-- The boot is cut off, and a flush begins. -/
def startFlush (s : State) : State :=
  let s1 := powerLoss s
  { s1 with pm := { s1.pm with
    flushing := true, step := 1, stopped := false, hold := false, nandFail := false, noFw := false, bootT := [],
    bootCfg := PowerUnit.reset.bootCfg } }

/-- BROWN_OUT_TRIP: of VHOLD, or else of VDD_VAULT (R482). -/
def execBrownOutTrip (vhold : Bool) (s : State) : Host.Outcome State Fault Refusal :=
  if s.pm.onCell then .next s
  else
    let s1 := { s with pm := { s.pm with vholdBo := s.pm.vholdBo || vhold, vaultBo := s.pm.vaultBo || !vhold } }
    let s2 := if s.pm.running && !s.pm.held && !s.pm.flushing then startFlush s1 else s1
    .next { s2 with pm := { s2.pm with tripped := s2.pm.tripped || s.pm.running } }

/-- FLUSH_COMPLETE: the device holds itself in reset; a POR_N reset that waits for fuses waits on (R482, R485). -/
def execFlushComplete (s : State) : Host.Outcome State Fault Refusal :=
  if s.pm.flushing && !s.pm.porPending then .next { s with pm := { s.pm with flushing := false, held := true } } else .next s

/-- POR_ASSERT: the flush, and the reset at once or when the fuses being programmed are done (R485). -/
def execPorAssert (s : State) : Host.Outcome State Fault Refusal :=
  let s1 := if s.pm.running && !s.pm.held && !s.pm.flushing && !s.pm.onCell then startFlush s else s
  let fuses := s1.lc.busy.isSome || s1.tm.lockDue.isSome
  .next { s1 with pm := { s1.pm with porLow := true, porPending := s1.pm.flushing && fuses } }

/-- A lock cut while its copies are programmed: a free value says whether two of them are found complete and equal (R406). -/
def cutLock (s : State) : State :=
  if s.tm.lockDue.isNone then s
  else
    let r := drawNat s
    { r.2 with tm := { r.2.tm with locked := r.1 % 2 == 1, lockDue := none } }

/-- CELL_SWITCH: the backup domain moves to VBAT; what VDD_VAULT fed is cut (R421, R484), and the loops take new seeds (R402). -/
def execCellSwitch (s : State) : Host.Outcome State Fault Refusal :=
  if s.pm.onCell then .next s
  else
    let s1 := cutTransition (if s.pm.running && !s.pm.held && !s.pm.flushing then powerLoss s else s)
    let s2 := drawSeeds (cutLock s1)
    .next { s2 with pm := { PowerUnit.reset with onCell := true } }

/-- VDD_VAULT_PRESENT: the backup domain leaves VBAT and a witness session ends at once (R398, R481). -/
def execVddVaultPresent (s : State) : Host.Outcome State Fault Refusal :=
  if s.pm.onCell then (let s1 := witnessStop s; .next { s1 with pm := { s1.pm with onCell := false } }) else .next s

/-- PERST: during boot the link is retrained; afterwards every function is reset (R207, R486). -/
def execPerst (s : State) : Host.Outcome State Fault Refusal :=
  let s1 := setEventIf (s.cq.link.getLsbD 0) 7 0 { s with cq := { s.cq with link := 0 } }
  if s.pm.step = 15 then .next (askResetAll s1) else .next s1

/-! ### Step 1 (R414, R420, R422) -/

/-- Every occupied latch is committed to the ledger, then the latches and the count are free. -/
def commitLatches (s : State) : State :=
  let ls := s.tm.latches.filterMap (fun e => e.2.map (fun w => (e.1, w)))
  let l := ls.foldl (fun (l : Ledger) e => { (tamperWords e.1 e.2).foldl (fun l w => pushWord w l) l with eventNo := l.eventNo + 1 }) s.ledger
  { s with
    ledger := { l with paceHist := if ls.isEmpty then l.paceHist else l.paceHist ++ [(s.tick, 4 * ls.length)] },
    tm := { s.tm with latches := [], ovf := 0 } }

/-- Fuses that were being programmed while hold-up lasted are in. -/
def settleFuses (s : State) : State :=
  let s1 := match s.lc.busy with
    | some (target, some _) =>
      let s2 := readCopies (programCopies target s)
      if target = 2 then custodyResp s2 else s2
    | _ => { s with lc := { s.lc with busy := none } }
  { s1 with tm := { s1.tm with locked := s1.tm.locked || s1.tm.lockDue.isSome, lockDue := none } }

/-- The retention check: each failure destroys the keep key and fires sensor 21, whose alarm stands until a check passes
(R401, R410, R414, log 123). -/
def checkRetention (ok : Bool) (s : State) : State :=
  if ok then
    (if Tab.get false s.tm.fired 21 && Tab.get 0 s.tm.absent 21 == 0 then
      { s with tm := { s.tm with absent := Tab.set 0 s.tm.absent 21 (s.cellNow + 1) } }
     else s)
  else setEvent 15 6 (fireGroup [21] false { s with tm := { s.tm with absent := Tab.set 0 s.tm.absent 21 0 } })

/-- The sensors found in alarm at power-up fire, whether or not they had fired before it (R414, log 123). -/
def evalPowerUp (mask : Nat) (s : State) : State :=
  evalSensors mask { s with tm := { s.tm with
    fired := (List.range 21).foldl (fun t i => if natBit (conditions s mask) i && sensorLive s i then Tab.set false t i false else t) s.tm.fired } }

/-- What the ledger and the witness bring from before (R398, R458). -/
def mountLedger (s : State) : State :=
  let s1 := { s with ledger := ledgerMount s.ledger }
  let s2 := if s1.nf.counted = 0 then s1 else setEvent 14 5 (itemAdd 0x117F s1.nf.counted s1)
  let s3 := setEventIf s2.nf.limited 14 6 s2
  { s3 with nf := { s3.nf with counted := 0, limited := false } }

/-- A sealed record's tag verifies under the keep key; one whose tag fails is treated as absent (R181). -/
def sealOpens (s : State) (domain : Nat) (rec : List Byte) : Bool :=
  (s.tk.keep.bind (fun k => unsealKey k domain (rec.take 8) ((rec.drop 8).take 48))).isSome

/-- A record of the reserve as mount finds it is what State holds of it; one that cannot be read is absent (R324). -/
def loadRecord (r : ResvFound) (s : State) : State :=
  match r.kind with
  | 0x01 =>
    let p := r.key % 256
    match r.data with
    | none => setPaddock p Paddock.absent s
    | some b =>
      if padRecord p (s.paddock p) = b then s
      else setPaddock p { st := byteAt b 1, gen := field b 2 2, sealSeq := field b 4 4,
                          sealed := if byteAt b 1 = 1 then (b.drop 8).take 48 else [], master := none } s
  | 0x02 =>
    if r.key / 256 = 0x1030 then
      let now := credBytes (Tab.get none s.od.creds (r.key % 256))
      match r.data with
      | none => { s with od := { s.od with creds := Tab.set none s.od.creds (r.key % 256) none } }
      | some b => if now = b then s else { s with od := { s.od with creds := Tab.set none s.od.creds (r.key % 256) ((credOf b).getD none) } }
    else
      let now := Tab.get [] s.od.values r.key
      match r.data with
      | none => { s with od := { s.od with values := Tab.set [] s.od.values r.key [] } }
      | some b => if takePad b.length now = b then s else { s with od := { s.od with values := Tab.set [] s.od.values r.key b } }
  | 0x03 =>
    let others := s.tk.custodians.filter (fun e => e.1 != r.key)
    match r.data with
    | none => { s with tk := { s.tk with custodians := others } }
    | some b =>
      if s.tk.custodians.any (fun e => e.1 == r.key && custodianRecord e.2 == b) then s
      else { s with tk := { s.tk with custodians := others ++ [(r.key, custodianOf b)] } }
  | 0x04 => { s with tk := { s.tk with sbRec := r.data.filter (sealOpens s 1) } }
  | 0x05 => { s with tk := { s.tk with placeRec := r.data.filter (sealOpens s 2) } }
  | _ => s

/-- Farrier reads the reserve (R324, R339). -/
def loadReserve (bad : List Nat) (s : State) : State := (resvAll bad s).foldl (fun st r => loadRecord r st) s

/-- Boot step 1 begins: state as after reset, the life-cycle word, time, the keys of the die link and of the SRAM with zeros in
every word (R9, R17), the seeds of the loops (R402), and the tamper checks of R414 in their order. -/
def bootBegin (f : BootFacts) (cause : Nat) (s : State) : State :=
  let s1 := lifeBoot (settleFuses s)
  let t := restartTime f.offTime { s1.time with backupValid := s1.time.backupValid && f.backupOk }
  let (keys, s1b) := drawBytes 48 s1
  let s2 := { s1b with
    time := t,
    tm := { s1.tm with running := 0 },
    mem := { s1.mem with ram := [], poison := [], tags := [] },
    pk := { s1.pk with words := [], poison := [], mult := [], outlet := [], drbgs := [] },
    pm := { PowerUnit.reset with
      porLow := false, powerUp := false, rails := s.pm.rails, vaultBo := s.pm.vaultBo, vholdBo := s.pm.vholdBo,
      cause := if cause = 0 then (if t.backupValid then 1 else 2) else cause,
      ends := f.ends, badUnits := f.badUnits, badNor := f.badNor, nandOk := f.nandOk, linkKey := keys.take 32, scramble := keys.drop 32 } }
  let s3 := checkRetention f.retained (mountLedger (loadReserve f.badNor s2))
  let s4 := if holdupOk s3 then commitLatches (norMount f.badNor s3) else s3
  let s5 := setEventIf s4.tm.shedPending 15 1 { s4 with tm := { s4.tm with shedPending := false, running := 0 } }
  let s6 := setEventIf (cause == 4) 19 5 { s5 with pm := { s5.pm with running := true } }
  updHeld (evalPowerUp f.mask (drawSeeds s6))

/-! ### Steps 2 and 3 (R322, R438, R446, R469) -/

/-- The bank to boot: of the ACTIVE ones that verify, the one with the greater IMGSEQ. -/
def bootBank (s : State) : Option Nat :=
  let ok := [0, 1].filter (fun b => (getBank s b).st == 3 && Config.imageSigned (getBank s b).image s.lc.fwHash)
  ok.foldl (fun r b => match r with | none => some b | some a => if (getBank s a).seq < (getBank s b).seq then some b else some a) none

/-- Step 2: a firmware bank is verified. -/
def verifyBanks (s : State) : State :=
  match bootBank s with
  | none => setEvent 19 2 { s with pm := { s.pm with noFw := true }, us := { s.us with fw := { s.us.fw with bootedBank := 0 } } }
  | some b =>
    { s with us := { s.us with fw := { s.us.fw with bootedBank := b, st := if (getBank s (1 - b)).st = 2 then 2 else 0 } } }

/-- One NOR-persisted value is applied; staged values go into the staged table only, which is put in force afterwards. -/
def applyValue (k : Nat) (v : List Byte) (s : State) : State :=
  let i := k / 256
  let p := k % 256
  let n := leToNat v
  if 0x2100 ≤ i ∧ i ≤ 0x2103 then
    keep k n 0 { s with time := { s.time with staged := Tab.set 0 s.time.staged (shareKey (i % 4) p) n } }
  else if i = 0x4400 then keep k n 0 { s with cf := { s.cf with rsvStaged := Tab.set 0 s.cf.rsvStaged p n } }
  else if i = 0x4401 then keep k n 0 { s with cf := { s.cf with ctxStaged := Tab.set 2 s.cf.ctxStaged p n } }
  else if i = 0x4500 then
    keep k n 0 (writeQuotaObj i p (n32 n) s).2
  else if i = 0x4501 then keep k n 0 (writeQuotaObj i p (n32 n) s).2
  else if 0x3000 ≤ i ∧ i ≤ 0x3003 then keep k n 0 (updUnit (i % 4) p (fun r => { r with enabled := n == 1 }) s)
  else (objWrite i p v 0 s).2

/-- Allotments applied at boot are in force at once (R446, R486). -/
def takeAllots (s : State) : State :=
  (List.range 256).foldl (fun st fn =>
    if Tab.get 0 s.cq.allotQ fn = 0 ∧ Tab.get 0 s.cq.allotV fn = 0 ∧ Tab.get 0 s.cq.allotA fn = 0 then st
    else updFunc fn (fun f => { f with
      quota := Tab.get 0 s.cq.allotQ fn, vectors := Tab.get 0 s.cq.allotV fn, adm := Tab.get 0 s.cq.allotA fn }) st) s

/-- With no OFFICER enrolled, the credential block of the booted image is (R438). -/
def enrolImageCreds (s : State) : State :=
  if hasOfficer s.od.creds || s.pm.noFw then s
  else
    let cs := ((Config.imageCreds (getBank s s.us.fw.bootedBank).image).take 32).map (fun b => (credOf (takePad 112 b)).getD none)
    { s with od := { s.od with creds := cs.zipIdx.foldl (fun t e => Tab.set none t e.2 e.1) [] } }

/-- Step 3: values and credentials, every unit wiped and tested, the first seeds of the DRBGs (R113), randomness of the return
stacks, then READY. -/
def bootStep3 (s : State) : State :=
  let s1 := s.od.values.foldl (fun st e => applyValue e.1 e.2 st) s
  let s1b := takeAllots (bootUnits s.pm.badUnits s1)
  let s2 := enrolImageCreds (if s.pk.sourceBad then s1b else seedDrbgs s1b)
  let (m, s3) := drawBytes 16 s2
  let s4 := takeShares { s3 with
    time := { s3.time with inForce := s3.time.staged },
    cf := { s3.cf with rsvEff := s3.cf.rsvStaged, ctxEff := s3.cf.ctxStaged },
    pc := { s3.pc with rsMask := BitVec.ofNat 64 (leToNat (m.take 8)), rsRot := (m.drop 8).map (fun b => b.toNat % 64) } }
  { s4 with od := { s4.od with ready := true }, cq := { s4.cq with cfgReady := true } }

/-! ### Steps 4 to 8 (R171, R181, R302, R329, R339, R489) -/

/-- An in-doubt Cinch still has this tack's unlinked envelope to install (R172). -/
def doubtInstalls (s : State) (h : Nat) : Bool :=
  s.cn.slots.any (fun e => e.2.st == 5 && e.2.actions.any (fun a => a.typ == 2 && a.sub == 1 && a.tack == h))

/-- Tacks that survived: those of the tack vault, counting from their bounds (R198), and those whose unlinked envelope an in-doubt
Cinch holds; every other unlinked envelope is reclaimed (R172). -/
def mountTacks (s : State) : State :=
  { s with tk := { s.tk with
    tacks := (s.tk.tacks.filter (fun e => !e.2.volatile && (e.2.st == 3 || (e.2.st == 2 && doubtInstalls s e.1)))).map
      (fun e => (e.1, { e.2.unload with
        count := e.2.bound, fillCinch := none, unlinked := if doubtInstalls s e.1 then e.2.unlinked else none })) } }

/-- Step 4: NAND mount and replay, or the course of R489; what step 1 could not write is written. -/
def bootStep4 (s : State) : State :=
  let s0 := norMount s.pm.badNor s
  let s1 := mountTacks (if s.pm.nandOk then cinchReplay (vaultMount s0)
    else setEvent 19 3 { s0 with pm := { s0.pm with nandFail := true } })
  let s2 := if s1.life < 2 ∨ Tab.get 0 s1.fv.life 2 ≠ 0 then s1 else writeLife 2 (s1.time.now / 1000000000) s1
  commitLatches s2

/-- Step 5: the sealed key of every ACTIVE paddock is unsealed, where there is a keep key and nothing is HELD; a record whose tag fails
is treated as absent (R181). -/
def bootStep5 (s : State) : State :=
  let s1 := setEventIf s.tk.keep.isNone 6 0 s
  (s1.tk.paddocks.map (fun e => e.1)).foldl (fun st p => unsealMaster p st) s1

/-- Step 7: code is loaded and every core enters its slot's paddock at the start door. -/
def bootStep7 (s : State) : State :=
  (List.range 24).foldl (fun st l => match physOf st 2 l with
    | some c => if isActive st 2 c then scheduleCore c (loadCore c l st) else st
    | none => st) s

/-- Step 8: BOOTS counts the boot, and PM_EVENTS.READY is set. -/
def bootStep8 (s : State) : State := setEvent 19 0 (writeLife 0 (Tab.get 0 s.fv.life 0 + 1) s)

/-- A step ends: its ms, and the number of the next one; 15 is booted. -/
def endStep (s : State) : State :=
  let n := s.pm.step
  { s with pm := { s.pm with
    bootT := Tab.set 0 s.pm.bootT n (n32 (ceilDiv (s.tick - s.pm.bootTick) 1000)),
    step := if n = 8 then 15 else n + 1, stepTick := s.tick } }

/-- Boot stops in this step (R489). -/
def stopBoot (s : State) : State := { s with pm := { s.pm with stopped := true } }

/-- The boot step in progress at a stride boundary: its work ends when its own time has come, but for what it waits for. -/
def bootAdvance (s : State) : State :=
  let n := s.pm.step
  if !s.pm.running || s.pm.stopped || decide (8 < n) then s
  else if s.tick < s.pm.bootTick + 1000 * s.pm.ends.getD (n - 1) 0 then s
  else match n with
    | 1 => if s.life = 5 ∨ s.life = 0xFF then stopBoot s else endStep s
    | 2 => if s.life ≤ 1 then stopBoot s else endStep (verifyBanks s)
    | 3 => endStep (bootStep3 s)
    | 4 =>
      if s.pm.hold then s
      else if !holdupOk s then setEvent 19 1 { s with pm := { s.pm with hold := true } }
      else endStep (bootStep4 s)
    | 5 => endStep (bootStep5 s)
    | 6 => if s.time.firstLock then endStep s else s
    | 7 => endStep (bootStep7 s)
    | _ => endStep (bootStep8 s)

/-- Boot runs on as far as it can now. -/
def bootRun : Nat → State → State
  | 0, s => s
  | fuel + 1, s => bootRun fuel (bootAdvance s)

/-- BOOT_START: POR_N is released, and the steps whose work takes no time are done at once; the others end at stride
boundaries. After a brown-out the boot waits for BROWN_OUT_RESTART. -/
def execBootStart (facts : BootFacts) (s : State) : Host.Outcome State Fault Refusal :=
  if !s.pm.porLow || s.pm.onCell || s.pm.flushing then .next s
  else if s.pm.tripped then .next { s with pm := { s.pm with porLow := false } }
  else .next (bootRun 8 (bootBegin facts (if s.pm.powerUp then 0 else 3) s))

/-- BROWN_OUT_RESTART: the rails have stood good for 10 ms with POR_N high (R483). -/
def execBrownOutRestart (facts : BootFacts) (s : State) : Host.Outcome State Fault Refusal :=
  if s.pm.held && s.pm.tripped && !s.pm.porLow && !s.pm.vaultBo && !s.pm.vholdBo && !s.pm.onCell then
    .next (bootRun 8 (bootBegin facts 4 s))
  else .next s

/-- HOLDUP_RECOVERED: VHOLD stands at 11.0 V, so step 4 goes on at the next boundary (R488). -/
def execHoldupRecovered (s : State) : Host.Outcome State Fault Refusal :=
  if s.pm.hold && holdupOk s then .next { s with pm := { s.pm with hold := false } } else .next s

/-- LOCKWAIT_EXPIRY: step 6 has lasted LOCKWAIT ms, at most 500 (R489, R490). -/
def execLockwaitExpiry (s : State) : Host.Outcome State Fault Refusal :=
  if s.pm.step == 6 && s.pm.running && decide (s.pm.stepTick + 1000 * min 500 s.pm.bootCfg.toNat ≤ s.tick) then
    .next (endStep (setEvent 19 4 s))
  else .next s

end Sys2Proof.Machine
end

