-- ==== Sys2Proof/Machine/HostBar.lean ====
section
/-! DEFINITION. What the host sees in a function's BARs (R208, R209, R227): BAR0's registers and doorbells, and the read-only
BAR2. -/

namespace Sys2Proof.Machine

/-- CQ_QSTAT of a queue (R227). -/
def queueStat (q : Queue) : W64 :=
  n64 (q.seq % 2 ^ 32 * 2 ^ 32 + q.sqHead % 2 ^ 16 * 2 ^ 16 + q.err % 16 * 256 + b2n q.evLost * 32 + q.st % 8)

/-- The 64-bit slot of BAR0 at an offset; doorbells and unlisted offsets read zero (R208, R227). -/
def bar0Slot (s : State) (fn o : Nat) : W64 :=
  let f := getFunc s fn
  let q := getQueue s fn f.qsel
  match o with
  | 0x00 => n64 (0x01000000 + fn % 256 * 2 ^ 16 + f.quota % 2 ^ 13)
  | 0x08 => n64 (f.vectors % 2 ^ 13 * 2 ^ 16 + f.adm % 2 ^ 11)
  | 0x10 => n64 f.qsel
  | 0x18 => q.sqb
  | 0x20 => q.cqb
  | 0x28 => q.cfg.setWidth 64
  | 0x38 => queueStat q
  | 0x40 => f.ferr.setWidth 64
  | _ => 0

/-- A 64-bit slot as an access of 4 or 8 bytes reads it. -/
def barPart (v : W64) (a width : Nat) : W64 :=
  if width = 8 then (if a % 8 = 0 then v else 0) else if a % 8 = 4 then v >>> 32 else if a % 8 = 0 then v &&& 0xFFFFFFFF else 0

/-- A read of BAR0. -/
def bar0Read (s : State) (fn a width : Nat) : W64 := barPart (bar0Slot s fn (a / 8 * 8)) a width

/-- Put 32 bits of a base register, whose bits [11:0] are zero. -/
def putBase (hi : Bool) (v : W32) (w : W64) : W64 :=
  if hi then (w &&& 0xFFFFFFFF) ||| (v.setWidth 64 <<< 32) else (w &&& 0xFFFFFFFF00000000) ||| (v.setWidth 64 &&& 0xFFFFF000)

/-- A register of the selected queue is written: only while the queue is ABSENT, for its CREATE (R227). -/
def writeQueueReg (fn : Nat) (f : Queue → Queue) (s : State) : State :=
  let j := (getFunc s fn).qsel
  if (getQueue s fn j).st = 0 then updQueue fn j f s else s

/-- A write of CQ_QCMD (R211). -/
def queueCmd (fn cmd : Nat) (s : State) : State :=
  match cmd with
  | 1 => queueCreate fn s
  | 2 => queueDelete fn s
  | 3 => queueReset fn s
  | _ => s

/-- A 32-bit write of BAR0 (R208, R227). -/
def bar0Word (fn o : Nat) (v : W32) (s : State) : State :=
  if 0x8000 ≤ o ∧ o < 0x10000 then
    (if o % 8 = 0 then ringSq fn ((o - 0x8000) / 8) v s else if o % 8 = 4 then ringCq fn ((o - 0x8000) / 8) v s else s)
  else match o with
    | 0x10 => updFunc fn (fun f => { f with qsel := natBits v.toNat 0 12 }) s
    | 0x18 => writeQueueReg fn (fun q => { q with sqb := putBase false v q.sqb }) s
    | 0x1C => writeQueueReg fn (fun q => { q with sqb := putBase true v q.sqb }) s
    | 0x20 => writeQueueReg fn (fun q => { q with cqb := putBase false v q.cqb }) s
    | 0x24 => writeQueueReg fn (fun q => { q with cqb := putBase true v q.cqb }) s
    | 0x28 => writeQueueReg fn (fun q => { q with cfg := v &&& 0xFF1F9FFF }) s
    | 0x30 => queueCmd fn (natBits v.toNat 0 2) s
    | 0x40 => updFunc fn (fun f => { f with ferr := f.ferr &&& ~~~(v &&& 0x1F) }) s
    | _ => s

/-- A write of BAR0 by the host, of 4 or 8 bytes at their own alignment (log 164). -/
def bar0Write (fn a width : Nat) (v : W64) (s : State) : State :=
  if !funcReady s fn then s
  else if width = 4 then bar0Word fn a (v.setWidth 32) s
  else if width = 8 ∧ a % 8 = 0 then bar0Word fn (a + 4) ((v >>> 32).setWidth 32) (bar0Word fn a (v.setWidth 32) s)
  else s

/-- The 64-bit slot of BAR2 at an offset (R209). -/
def bar2Slot (s : State) (fn o : Nat) : W64 :=
  if o < 0x20 then tiRead s o
  else if o = 0x100 then (getFunc s fn).ferr.setWidth 64
  else if fn ≠ 0 then 0
  else if 0x1000 ≤ o ∧ o < 0x2000 then alRead s (o - 0x1000)
  else match o with
    | 0x2000 => s.cq.link.setWidth 64
    | 0x2010 => (eventsReg s 2).setWidth 64
    | 0x2020 => (eventsReg s 4).setWidth 64
    | 0x2030 => (eventsReg s 5).setWidth 64
    | _ => 0

/-- A read of BAR2: a mirror, which clears nothing. -/
def bar2Read (s : State) (fn a width : Nat) : W64 := barPart (bar2Slot s fn (a / 8 * 8)) a width

end Sys2Proof.Machine
end

