-- ==== Sys2Proof/Machine/Pacer.lean ====
section
/-! DEFINITION. How a Pacer issues an instruction: rein checks (R255), fetch (R257), the write buffer (R256), the return
stack (R295–R298), exception entry (R290–R292), hardware loops (R266, R267) and what completes an instruction. -/

namespace Sys2Proof.Machine

/-! ### Registers (R248–R252) -/

/-- G[i]; G0 reads as zero. -/
def Core.getG (k : Core) (i : Nat) : W64 := if i = 0 then 0 else Tab.get 0 k.g i

/-- Write G[i]; a write of G0 is discarded. -/
def Core.setG (k : Core) (i : Nat) (v : W64) : Core := if i = 0 then k else { k with g := Tab.set 0 k.g i v }

/-- K[i]. -/
def Core.getK (k : Core) (i : Nat) : Rein := Tab.get Rein.zero k.k i

/-- Write a general register of core `c`. -/
def putReg (c i : Nat) (v : W64) (s : State) : State := updCore c (fun k => k.setG i v) s

/-- Write a rein register of core `c`. -/
def putK (c i : Nat) (r : Rein) (s : State) : State := updCore c (fun k => k.setK i r) s

/-- RSD: entries on chip and spilled (R264, R297). -/
def Core.rsd (k : Core) : Nat := k.onchip.length + k.spilled

/-! ### Rein checks (R255, R281, R282) -/

/-- PERM bits of memory, unit and queue reins (R280). -/
def permLoad : Nat := 0
def permStore : Nat := 1
def permExec : Nat := 2
def permLoadRein : Nat := 3
def permStoreRein : Nat := 4
def permSeal : Nat := 5
def permUnseal : Nat := 6

/-- WINFO of causes 0x02 to 0x05 and 0x12 (R291). -/
def reinInfo (i size off : Nat) (fetch : Bool) : W64 :=
  BitVec.ofNat 64 (i % 16 + 16 * b2n fetch + size % 256 * 256 + off % 2 ^ 40 * 2 ^ 24)

/-- WINFO of cause 0x06 (R291). -/
def bridleInfo (a code : Nat) (wr : Bool) : W64 := BitVec.ofNat 64 (a % 2 ^ 40 + b2n wr * 2 ^ 40 + code % 256 * 2 ^ 48)

/-- The cause of access(), if any: `off` is a 64-bit offset (R255). A sealed rein, and a Warden rein named at the paddock
level, fail with the type check. -/
def accessCause (s : State) (warden : Bool) (r : Rein) (off size : Nat) (perms : List Nat) : Option Nat :=
  if !r.tag then some 0x02
  else if !r.genOk s then some 0x12
  else if r.kind ≠ 1 || r.isSealed || (r.isWarden && !warden) || perms.any (fun p => !natBit r.perm p) then some 0x04
  else if r.len < off || r.len - off < size then some 0x03
  else if (r.base + off) % size ≠ 0 then some 0x05
  else none

/-! ### The write buffer (R256, R314) -/

/-- An imprecise fault arrives (R292). -/
def impreciseArrive (c a : Nat) (s : State) : State :=
  if (getCore s c).imprecise.isSome then setEvent 9 5 s else updCore c (fun k => { k with imprecise := some a }) s

/-- The oldest buffered store of core `c` is performed, judged now for the paddock and level it issued at. -/
def storePerform (c : Nat) (s : State) : State :=
  match (getCore s c).wbuf with
  | [] => s
  | b :: rest =>
    let s1 := updCore c (fun k => { k with wbuf := rest }) s
    let acc : Access := { unit := c, paddock := b.paddock, cls := b2n b.warden }
    if isCsr b.addr then
      match firstRefused s1 acc true false b.addr b.width with
      | some (fa, code) => impreciseArrive c fa (bridleFault acc true fa code s1)
      | none => csrWrite { core := some c, warden := b.warden } b.addr b.width b.val s1
    else
      let r := busWrite s1 acc b.addr (natToLE b.width b.val.toNat)
      let s2 := match r.refused with | some (fa, _) => impreciseArrive c fa r.st | none => r.st
      if r.ecc then fenceCore c 4 s2 else s2

/-- Every earlier store of core `c` is performed. -/
def storesDrain (c : Nat) (s : State) : State := (List.range (getCore s c).wbuf.length).foldl (fun st _ => storePerform c st) s

/-- An access that must see an earlier store waits for it: one that overlaps it, or one in CSR space (log 30). -/
def storesBefore (c a n : Nat) (s : State) : State :=
  if isCsr a || (getCore s c).wbuf.any (fun b => b.addr < a + n && a < b.addr + b.width) then storesDrain c s else s

/-- STORE_PERFORMED. A store in the buffer of a device that is off is lost with it (R10, R482). -/
def execStorePerformed (c : Nat) (s : State) : Host.Outcome State Fault Refusal :=
  if c < 26 ∧ !s.off then .next (storePerform c s) else .next s

/-! ### The return stack (R295–R298) -/

/-- The spill rein admits spilled entry `n` for a read or a write at the Warden level (R297, R298). -/
def spillOk (s : State) (c n : Nat) (wr : Bool) : Bool :=
  let k := getCore s c
  let r := k.spill
  let a := spillAddr k n
  r.tag && r.genOk s && r.kind == 1 && !r.isSealed && natBit r.perm permLoad && natBit r.perm permStore && r.base % 128 == 0 &&
    decide (n * 128 + 128 ≤ r.len) && !isCsr a && busAllowed s { unit := c, paddock := k.paddock, cls := 1 } wr a 128

/-- A spill or refill that the Bridle unit refuses is in its registers (R313). -/
def noteSpill (s : State) (c n : Nat) (wr : Bool) : State :=
  let k := getCore s c
  noteRefused s { unit := c, paddock := k.paddock, cls := 1 } wr (spillAddr k n) 128

/-- Spill the oldest on-chip entry; none where the spill area fails. -/
def spillOldest (c : Nat) (s : State) : Option State :=
  let k := getCore s c
  match k.onchip.getLast? with
  | none => some s
  | some e =>
    if !spillOk s c k.spilled true then none
    else
      let s1 := (ramWrite s (spillAddr k k.spilled) (entryBytes e)).1
      let s2 := updCore c (fun k => { k with onchip := k.onchip.dropLast, spilled := k.spilled + 1 }) s1
      some (setEventIf (decide (k.spill.len / 128 - (k.spilled + 1) ≤ k.water)) 9 4 s2)

/-- Push an entry; where its spill fails the core is fenced with reason SPILL (R298). The flag says that it was pushed. -/
def pushEntry (c : Nat) (ws : List W64) (s : State) : Bool × State :=
  let go (st : State) : Bool × State := (true, updCore c (fun k => { k with onchip := mkEntry st ws :: k.onchip }) st)
  if (getCore s c).onchip.length < 64 then go s
  else
    match spillOldest c s with
    | some s1 => go s1
    | none => (false, fenceCore c 2 (noteSpill s c (getCore s c).spilled true))

/-- The top entry as a pop finds it, with the refill it may need. -/
inductive Top where
  | empty
  | failed (index : Nat) (s : State)
  | entry (e : RsEntry) (s : State)

/-- Look at the top of the return stack, refilling it first where nothing is on chip (R297). -/
def topEntry (c : Nat) (s : State) : Top :=
  let k := getCore s c
  match k.onchip with
  | e :: _ => .entry e s
  | [] =>
    if k.spilled = 0 then .empty
    else
      let n := k.spilled - 1
      let a := spillAddr k n
      if !spillOk s c n false then .failed n (noteSpill s c n false)
      else if meetsPoison s a 128 then .failed n (noteUncorrectable a s)
      else
        let e := entryOf ((List.range 128).map (fun i => plainByte s (a + i)))
        .entry e (updCore c (fun k => { k with onchip := [e], spilled := n }) s)

/-- Drop the top entry. -/
def popEntry (c : Nat) (s : State) : State := updCore c (fun k => { k with onchip := k.onchip.tail }) s

/-! ### Exception entry (R290–R292) -/

/-- The words of a FRAME entry (R295). -/
def frameWords (k : Core) (resume : Nat) : List W64 :=
  let a := k.getK 13
  let b := k.getK 14
  [BitVec.ofNat 64 (resume % 2 ^ 40 + 2 * 2 ^ 40 + b2n a.tag * 2 ^ 42 + b2n b.tag * 2 ^ 43),
    BitVec.ofNat 64 (k.status.toNat % 2 ^ 24 + k.lstart.toNat % 2 ^ 40 * 2 ^ 24), BitVec.ofNat 64 (k.lend.toNat % 2 ^ 40), k.lcount,
    reinHalf a 0, reinHalf a 1, reinHalf b 0, reinHalf b 1]

/-- WARDEN_ENTRY. -/
def wardenEntry : Nat := 0x100

/-- Take an exception: the FRAME holds `resume`, WPC is `wpc` (R290). A Bridle fault aborts the core's undecided Cinches (R152). -/
def takeExc (c cause : Nat) (info : W64) (wpc resume : Nat) (s : State) : State :=
  let k := getCore s c
  let (ok, s1) := pushEntry c (frameWords k resume) (if cause = 6 ∨ cause = 7 then abortOnBridle c s else s)
  if !ok then s1
  else
    updCore c (fun k => { k with
      wcause := BitVec.ofNat 64 (cause % 256 + 256 * b2n k.warden), wpc := BitVec.ofNat 64 wpc, winfo := info,
      status := mkStatus k.paddock true false true,
      k := Tab.set Rein.zero (Tab.set Rein.zero k.k 13 rootRein) 14 resetCodeRein,
      lcount := 0, pc := wardenEntry, waiting := false }) s1

/-- Take an imprecise fault that has arrived: cause 0x07, WPC 0 (R291, R292). -/
def takeImprecise (c a : Nat) (s : State) : State :=
  takeExc c 0x07 (BitVec.ofNat 64 (a % 2 ^ 40 + 2 ^ 40)) 0 (getCore s c).pc (updCore c (fun k => { k with imprecise := none }) s)

/-- WINFO of interrupt source `i` (R291). -/
def interruptInfo (s : State) (c i : Nat) : W64 :=
  let k := getCore s c
  if i = 0 ∨ i = 8 then n64 (s.stride % 2 ^ 32)
  else if i = 9 then n64 (k.sender % 32 * 2 ^ 32 + k.msg.toNat) else 0

/-- Take the pending and enabled interrupt with the lowest cause code (R292). -/
def takeInterrupt (c : Nat) (s : State) : State :=
  let k := getCore s c
  match (List.range 10).find? (fun i => (k.ie &&& k.pend).getLsbD i) with
  | some i => takeExc c (0x20 + i) (interruptInfo s c i) k.pc k.pc s
  | none => s

/-! ### Issue -/

/-- The core issues: its unit is in service, no SHED runs, the logic die has power and is not held in reset, and neither WAIT, the monitor's idling
nor a debug halt holds it. -/
def coreRuns (s : State) (c : Nat) : Bool :=
  let k := getCore s c
  let u := (getUnit s 2 c).st
  c < 26 && (u == 1 || u == 2) && !k.halted && !k.waiting && !k.yielded && !s.tm.shedBusy && !s.off &&
    (!isHalted s c || Tab.get false s.lc.steps c)

/-- An instruction's fixed part: its word, whether a condition of R254 or of its own entry makes it illegal, whether it is
Warden-only, whether R267 forbids it at LEND, and the rein registers it names (R281). -/
structure Form where
  word : W32
  legal : Bool
  warden : Bool
  noEnd : Bool
  names : List Nat

/-- A form without conditions. -/
def plain (w : W32) : Form := { word := w, legal := true, warden := false, noEnd := false, names := [] }

/-- What executing an instruction comes to. -/
inductive Res where
  /-- Completed; the next instruction follows. -/
  | done (s : State)
  /-- Completed; a branch is taken. -/
  | goto (pc : Nat) (s : State)
  /-- Completed, and K14, STATUS and PC are already set. -/
  | moved (s : State)
  /-- Not completed: the instruction issues again. -/
  | again (s : State)
  /-- A synchronous exception with its cause and WINFO; WPC is the instruction's address plus `skip`. -/
  | raise (cause : Nat) (info : W64) (skip : Nat) (s : State)
  /-- The core has stopped. -/
  | stop (s : State)

/-- The failure of a fetch (R257, R277): its cause and WINFO. -/
def fetchCause (s : State) (c : Nat) : Option (Nat × W64) :=
  let k := getCore s c
  let r := k.getK 14
  let off := (BitVec.ofNat 64 k.pc - BitVec.ofNat 64 r.base).toNat
  match accessCause s k.warden r off 4 [permExec] with
  | some x => some (x, reinInfo 14 4 off true)
  | none => if k.warden && decide (0x40000 ≤ k.pc) then some (0x04, reinInfo 14 4 off true) else none

/-- An address after `n` more bytes of instructions. -/
def pcPlus (pc : Nat) (n : Int) : Nat := (BitVec.ofNat 64 pc + BitVec.ofInt 64 n).toNat

/-- The instruction stands at LEND of an armed loop (R266, R267). -/
def Core.atEnd (k : Core) : Bool := k.lcount != 0 && k.pc == k.lend.toNat

/-- Complete an instruction that stood at `old`: the loop turns at LEND, and PC follows (R266). -/
def complete (c : Nat) (old : Core) (next : Nat) (s : State) : State :=
  if old.atEnd then
    updCore c (fun k => { k with
      lcount := old.lcount - 1, pc := if old.lcount - 1 = 0 then next else old.lstart.toNat }) s
  else updCore c (fun k => { k with pc := next }) s

/-- A taken branch of a core that a session traces is recorded; the ring keeps 256 records of 16 bytes (R430). -/
def traceBranch (c : Nat) (src dst : Nat) (s : State) : State :=
  let k := getCore s c
  if hasRight s 2 && hasRight s 0 && dbgMask s k.paddock && (!k.warden || hasRight s 5) then
    { s with lc := { s.lc with trace := (s.lc.trace ++ [(c, src, dst)]).drop (s.lc.trace.length - 255) } }
  else s

/-- Carry a result of core `c` into the state; `old` is the core as the instruction issued. -/
def settle (c : Nat) (old : Core) : Res → State
  | .done s => complete c old (pcPlus old.pc 4) s
  | .goto pc s => traceBranch c old.pc pc (complete c old pc s)
  | .moved s => s
  | .again s => s
  | .raise cause info skip s => takeExc c cause info (pcPlus old.pc skip) (pcPlus old.pc skip) s
  | .stop s => s

/-- WINFO of cause 0x01. -/
def illegalInfo (f : Form) : W64 := f.word.setWidth 64

/-- The instruction itself, once fetched: what makes it illegal, the reins it names, then its effect. -/
def execute (c : Nat) (f : Form) (body : Nat → State → Res) (s : State) : Res :=
  let k := getCore s c
  if !f.legal || (f.warden && !k.warden) || (f.noEnd && k.atEnd) then .raise 0x01 (illegalInfo f) 0 s
  else
    match f.names.find? (fun i => !k.warden && (k.getK i).tag && (k.getK i).isWarden) with
    | some i => .raise 0x04 (reinInfo i 0 0 false) 0 s
    | none => body c s

/-- Fetch at PC, then execute (R257, R292). -/
def fetched (c : Nat) (f : Form) (body : Nat → State → Res) (s : State) : Res :=
  let k := getCore s c
  match fetchCause s c with
  | some (cause, info) => .raise cause info 0 s
  | none =>
    match firstRefused s (coreAccess s c) false false k.pc 4 with
    | some (fa, code) => .raise 0x06 (bridleInfo fa code false) 0 (bridleFault (coreAccess s c) false fa code s)
    | none => if meetsPoison s k.pc 4 then .stop (fenceCore c 4 (noteUncorrectable k.pc s)) else execute c f body s

/-- One instruction boundary of core `c` with the given instruction next: an imprecise fault that has arrived comes first,
then an unmasked interrupt, then the instruction (R292). A debug step lets one pass a halt. -/
def issue (c : Nat) (f : Form) (body : Nat → State → Res) (s0 : State) : State :=
  if !coreRuns s0 c then s0
  else
    let s := { s0 with lc := { s0.lc with steps := Tab.set false s0.lc.steps c false } }
    let k := getCore s c
    match k.imprecise with
    | some a => takeImprecise c a s
    | none => if !k.masked && k.wanted then takeInterrupt c s else settle c k (fetched c f body s)

/-- IMPRECISE_FAULT_TAKEN. -/
def execImpreciseFaultTaken (c : Nat) (s : State) : Host.Outcome State Fault Refusal :=
  match (getCore s c).imprecise with
  | some a => if coreRuns s c then .next (takeImprecise c a s) else .next s
  | none => .next s

end Sys2Proof.Machine
end

