-- ==== Sys2Proof/Machine/PacerMem.lean ====
section
/-! DEFINITION. The Pacer's memory instructions: loads, stores, rein loads and stores, PUSH and POP (R255, R256, R258,
R265). -/

namespace Sys2Proof.Machine

/-- Byte offset of an M-format access (R255). -/
def offM (k : Core) (a : BitVec 6) (imm : BitVec 9) (size : Nat) : Nat :=
  (k.getG a.toNat + BitVec.ofInt 64 (imm.toInt * size)).toNat

/-- An access through K[i] at a 64-bit offset: the rein's checks, then the CSR width, then (where `judged`) the Bridle unit
(R25, R255, R256). -/
def accessed (c i off size : Nat) (perms : List Nat) (wr judged : Bool) (s : State) (f : Nat → State → Res) : Res :=
  let k := getCore s c
  let r := k.getK i
  let a := r.base + off
  match accessCause s k.warden r off size perms with
  | some cause => .raise cause (reinInfo i size off false) 0 s
  | none =>
    if size ≠ 16 ∧ csrWidthBad a size then .raise 0x05 (reinInfo i size off false) 0 s
    else if !judged then f a s
    else
      match firstRefused s (coreAccess s c) wr false a size with
      | some (fa, code) => .raise 0x06 (bridleInfo fa code wr) 0 (bridleFault (coreAccess s c) wr fa code s)
      | none => f a s

/-- What a checked read does: earlier stores it must see come first; an uncorrectable word fences the core (R18). -/
def fetchData (c a size : Nat) (s : State) (f : W64 → State → Res) : Res :=
  let s1 := storesBefore c a size s
  if (getCore s1 c).halted then .stop s1
  else if isCsr a then
    let (v, s2) := csrRead (whoCore s1 c) a size s1
    f v s2
  else if meetsPoison s1 a size then .stop (fenceCore c 4 (noteUncorrectable a s1))
  else f (BitVec.ofNat 64 (leToNat ((List.range size).map (fun i => plainByte s1 (a + i))))) s1

/-- A load of `size` bytes, sign- or zero-extended. -/
def loadM (c op size : Nat) (signed : Bool) (r : BitVec 6) (k : BitVec 4) (a : BitVec 6) (imm : BitVec 9) (s : State) : State :=
  issue c { plain (wordM op r k a imm) with names := [k.toNat] } (fun c s =>
    accessed c k.toNat (offM (getCore s c) a imm size) size [permLoad] false true s (fun addr s =>
      fetchData c addr size s (fun v s =>
        let x := if signed then BitVec.ofInt 64 (BitVec.ofNat (8 * size) v.toNat).toInt else v
        .done (putReg c r.toNat x s)))) s

/-- Put a store into the write buffer. -/
def bufferStore (c a size : Nat) (v : W64) (s : State) : State :=
  updCore c (fun k => { k with
    wbuf := k.wbuf ++ [{ addr := a, width := size, val := BitVec.ofNat 64 (v.toNat % 2 ^ (8 * size)), paddock := k.paddock, warden := k.warden }] }) s

/-- A store of `size` bytes. -/
def storeM (c op size : Nat) (r : BitVec 6) (k : BitVec 4) (a : BitVec 6) (imm : BitVec 9) (s : State) : State :=
  issue c { plain (wordM op r k a imm) with names := [k.toNat] } (fun c s =>
    accessed c k.toNat (offM (getCore s c) a imm size) size [permStore] true false s (fun addr s =>
      .done (bufferStore c addr size ((getCore s c).getG r.toNat) s))) s

/-- A rein as memory holds it: 16 bytes and the granule's tag (R284). -/
def readRein (s : State) (a : Nat) : Rein :=
  { tag := isTagged a && Tab.get false s.mem.tags (a / 16),
    bits := BitVec.ofNat 128 (leToNat ((List.range 16).map (fun i => plainByte s (a + i)))) }

/-- Write a rein's 16 bytes and its tag, which memory without tags does not keep (R284). -/
def writeRein (s : State) (a : Nat) (r : Rein) : State :=
  if !isSram a then s
  else
    let s1 := (ramWrite s a (natToLE 16 r.bits.toNat)).1
    { s1 with mem := { s1.mem with tags := Tab.set false s1.mem.tags (a / 16) (r.tag && isTagged a) } }

/-- A KLD or KST form: rd is a rein register. -/
def formK (op : Nat) (r : BitVec 6) (k : BitVec 4) (a : BitVec 6) (imm : BitVec 9) : Form :=
  { plain (wordM op r k a imm) with legal := r.toNat < 16, names := [k.toNat, r.toNat] }

/-- KLD (R258): in CSR space only rein fields are reached (R256). -/
def loadRein (c : Nat) (r : BitVec 6) (k : BitVec 4) (a : BitVec 6) (imm : BitVec 9) (s : State) : State :=
  issue c (formK 0x2C r k a imm) (fun c s =>
    let off := offM (getCore s c) a imm 16
    accessed c k.toNat off 16 [permLoadRein] false false s (fun addr s =>
      if isCsr addr ∧ (reinField addr).isNone then .raise 0x05 (reinInfo k.toNat 16 off false) 0 s
      else accessed c k.toNat off 16 [permLoadRein] false true s (fun addr s =>
        let s1 := storesBefore c addr 16 s
        if (getCore s1 c).halted then .stop s1
        else
          match reinField addr with
          | some f => .done (putK c r.toNat (csrKld c f s1) s1)
          | none =>
            if meetsPoison s1 addr 16 then .stop (fenceCore c 4 (noteUncorrectable addr s1))
            else .done (putK c r.toNat (readRein s1 addr) s1)))) s

/-- KST (R258). -/
def storeRein (c : Nat) (r : BitVec 6) (k : BitVec 4) (a : BitVec 6) (imm : BitVec 9) (s : State) : State :=
  issue c (formK 0x2D r k a imm) (fun c s =>
    let off := offM (getCore s c) a imm 16
    accessed c k.toNat off 16 [permStoreRein] true false s (fun addr s =>
      if isCsr addr ∧ (reinField addr).isNone then .raise 0x05 (reinInfo k.toNat 16 off false) 0 s
      else accessed c k.toNat off 16 [permStoreRein] true true s (fun addr s =>
        let s1 := storesBefore c addr 16 s
        let x := (getCore s1 c).getK r.toNat
        if (getCore s1 c).halted then .stop s1
        else
          match reinField addr with
          | some f => .done (csrKst c f x s1)
          | none => .done (writeRein s1 addr x)))) s

/-! ### Register writes (R4, R23, R208, R209) -/

/-- A core's write of a register as its load-store unit makes it: a shape that R23 does not perform takes cause 0x05, and one
that the Bridle unit refuses is recorded and comes back as an imprecise fault (R25, R256). -/
def coreRegWrite (c a width : Nat) (v : W64) (s : State) : State :=
  let k := getCore s c
  if csrWidthBad a width then takeExc c 0x05 (reinInfo 0 width a false) k.pc k.pc s
  else
    match firstRefused s (coreAccess s c) true false a width with
    | some (fa, code) => impreciseArrive c fa (bridleFault (coreAccess s c) true fa code s)
    | none => csrWrite (whoCore s c) a width v s

/-- REGISTER_WRITE: a core, the Warden level of the device, or the host through BAR0 writes a register; a write of BAR2, a
read-only mirror, is dropped (R4, R24, R208, R209). -/
def execRegisterWrite (src : RegSrc) (a width : Nat) (v : W64) (s : State) : Host.Outcome State Fault Refusal :=
  if s.off then .next s
  else
    match src with
    | .core c => if c < 26 && isCsr a then .next (coreRegWrite c a width v s) else .next s
    | .warden => if csrShape a width then .next (csrWrite { core := none, warden := true } a width v s) else .next s
    | .bar0 fn => .next (bar0Write fn a width v s)
    | .bar2 _ => .next s

/-! ### One meaning per instruction (R258) -/

def execLd8 (c : Nat) (r : BitVec 6) (k : BitVec 4) (a : BitVec 6) (i : BitVec 9) (s : State) : Host.Outcome State Fault Refusal :=
  .next (loadM c 0x20 1 false r k a i s)
def execLd16 (c : Nat) (r : BitVec 6) (k : BitVec 4) (a : BitVec 6) (i : BitVec 9) (s : State) : Host.Outcome State Fault Refusal :=
  .next (loadM c 0x21 2 false r k a i s)
def execLd32 (c : Nat) (r : BitVec 6) (k : BitVec 4) (a : BitVec 6) (i : BitVec 9) (s : State) : Host.Outcome State Fault Refusal :=
  .next (loadM c 0x22 4 false r k a i s)
def execLd64 (c : Nat) (r : BitVec 6) (k : BitVec 4) (a : BitVec 6) (i : BitVec 9) (s : State) : Host.Outcome State Fault Refusal :=
  .next (loadM c 0x23 8 false r k a i s)
def execLds8 (c : Nat) (r : BitVec 6) (k : BitVec 4) (a : BitVec 6) (i : BitVec 9) (s : State) : Host.Outcome State Fault Refusal :=
  .next (loadM c 0x24 1 true r k a i s)
def execLds16 (c : Nat) (r : BitVec 6) (k : BitVec 4) (a : BitVec 6) (i : BitVec 9) (s : State) : Host.Outcome State Fault Refusal :=
  .next (loadM c 0x25 2 true r k a i s)
def execLds32 (c : Nat) (r : BitVec 6) (k : BitVec 4) (a : BitVec 6) (i : BitVec 9) (s : State) : Host.Outcome State Fault Refusal :=
  .next (loadM c 0x26 4 true r k a i s)
def execSt8 (c : Nat) (r : BitVec 6) (k : BitVec 4) (a : BitVec 6) (i : BitVec 9) (s : State) : Host.Outcome State Fault Refusal :=
  .next (storeM c 0x28 1 r k a i s)
def execSt16 (c : Nat) (r : BitVec 6) (k : BitVec 4) (a : BitVec 6) (i : BitVec 9) (s : State) : Host.Outcome State Fault Refusal :=
  .next (storeM c 0x29 2 r k a i s)
def execSt32 (c : Nat) (r : BitVec 6) (k : BitVec 4) (a : BitVec 6) (i : BitVec 9) (s : State) : Host.Outcome State Fault Refusal :=
  .next (storeM c 0x2A 4 r k a i s)
def execSt64 (c : Nat) (r : BitVec 6) (k : BitVec 4) (a : BitVec 6) (i : BitVec 9) (s : State) : Host.Outcome State Fault Refusal :=
  .next (storeM c 0x2B 8 r k a i s)
def execKld (c : Nat) (r : BitVec 6) (k : BitVec 4) (a : BitVec 6) (i : BitVec 9) (s : State) : Host.Outcome State Fault Refusal :=
  .next (loadRein c r k a i s)
def execKst (c : Nat) (r : BitVec 6) (k : BitVec 4) (a : BitVec 6) (i : BitVec 9) (s : State) : Host.Outcome State Fault Refusal :=
  .next (storeRein c r k a i s)

/-! ### The data stack (R265) -/

/-- PUSH: the store is buffered, DSP moves at once. -/
def execPush (c : Nat) (d a b : BitVec 6) (s : State) : Host.Outcome State Fault Refusal :=
  .next (issue c { plain (wordR 0x06 0x05 d a b) with legal := d == 0 && b == 0, names := [15] } (fun c s =>
    let k := getCore s c
    let off := k.dsp - 8
    accessed c 15 off.toNat 8 [permStore] true false s (fun addr s =>
      .done (updCore c (fun k => { k with dsp := off }) (bufferStore c addr 8 (k.getG a.toNat) s)))) s)

/-- POP. -/
def execPop (c : Nat) (d a b : BitVec 6) (s : State) : Host.Outcome State Fault Refusal :=
  .next (issue c { plain (wordR 0x06 0x06 d a b) with legal := a == 0 && b == 0, names := [15] } (fun c s =>
    accessed c 15 (getCore s c).dsp.toNat 8 [permLoad] false true s (fun addr s =>
      fetchData c addr 8 s (fun v s => .done (updCore c (fun k => { (k.setG d.toNat v) with dsp := k.dsp + 8 }) s)))) s)

end Sys2Proof.Machine
end

