-- ==== Sys2Proof/Machine/PacerFlow.lean ====
section
/-! DEFINITION. The Pacer's control and system instructions: branches, calls and returns, hardware loops, TRAP and BRK, WRET,
SYNC, WAIT, and the special registers (R250–R252, R263–R267, R299). -/

namespace Sys2Proof.Machine

/-! ### Branches and loops (R263, R266) -/

/-- A B-format target. -/
def targetB (pc : Nat) (disp : BitVec 19) : Nat := pcPlus pc (4 * disp.toInt)

/-- A conditional branch. -/
def branch (c op : Nat) (a : BitVec 6) (disp : BitVec 19) (test : W64 → Bool) (s : State) : State :=
  issue c { plain (wordB op a disp) with noEnd := true } (fun c s =>
    let k := getCore s c
    if test (k.getG a.toNat) then .goto (targetB k.pc disp) s else .done s) s

/-- BZ. -/
def execBz (c : Nat) (a : BitVec 6) (disp : BitVec 19) (s : State) : Host.Outcome State Fault Refusal :=
  .next (branch c 0x38 a disp (fun v => v == 0) s)
/-- BNZ. -/
def execBnz (c : Nat) (a : BitVec 6) (disp : BitVec 19) (s : State) : Host.Outcome State Fault Refusal :=
  .next (branch c 0x39 a disp (fun v => v != 0) s)

/-- A body length that LOOP takes. -/
def loopOk (disp : BitVec 19) : Bool := 1 ≤ disp.toInt && disp.toInt ≤ 1024

/-- LOOP. -/
def execLoop (c : Nat) (a : BitVec 6) (disp : BitVec 19) (s : State) : Host.Outcome State Fault Refusal :=
  .next (issue c { plain (wordB 0x3A a disp) with legal := loopOk disp, noEnd := true } (fun c s =>
    let k := getCore s c
    let last := targetB k.pc disp
    let n := k.getG a.toNat
    let s1 := updCore c (fun k => { k with lstart := n64 (pcPlus k.pc 4), lend := n64 last, lcount := n }) s
    if n = 0 then .goto (pcPlus last 4) s1 else .done s1) s)

/-- JMP. -/
def execJmp (c : Nat) (disp : BitVec 25) (s : State) : Host.Outcome State Fault Refusal :=
  .next (issue c { plain (wordJ 0x3C disp) with noEnd := true } (fun c s => .goto (pcPlus (getCore s c).pc (4 * disp.toInt)) s) s)

/-- The words of a RETURN entry (R295). -/
def returnWords (pc : Nat) : List W64 := [n64 (pc % 2 ^ 40 + 2 ^ 40), 0, 0, 0, 0, 0, 0, 0]

/-- CALL. -/
def execCall (c : Nat) (disp : BitVec 25) (s : State) : Host.Outcome State Fault Refusal :=
  .next (issue c { plain (wordJ 0x3D disp) with noEnd := true } (fun c s =>
    let k := getCore s c
    let (ok, s1) := pushEntry c (returnWords (pcPlus k.pc 4)) s
    if ok then .goto (pcPlus k.pc (4 * disp.toInt)) s1 else .stop s1) s)

/-- Why a pop of an entry of `kind` fails with CF_MISMATCH: WINFO of R291. -/
def popBad (s : State) (kind : Nat) (e : RsEntry) : Option Nat :=
  if e.kind ≠ kind then some 1 else if !entryGood s e then some 2 else none

/-- A pop that fails with CF_MISMATCH; disagreeing copies show in PC_EVENTS. -/
def mismatch (why : Nat) (s : State) : Res := .raise 0x08 (n64 why) 0 (setEventIf (why == 2) 9 0 s)

/-- RET (R264, R298). -/
def execRet (c : Nat) (d a b : BitVec 6) (s : State) : Host.Outcome State Fault Refusal :=
  .next (issue c { plain (wordR 0x06 0x00 d a b) with legal := d == 0 && a == 0 && b == 0, noEnd := true } (fun c s =>
    match topEntry c s with
    | .empty => mismatch 0 s
    | .failed n s1 => .raise 0x09 (n64 (n % 2 ^ 32)) 0 s1
    | .entry e s1 =>
      match popBad s1 1 e with
      | some why => mismatch why s1
      | none => .goto (natBits (e.word 0) 0 40) (popEntry c s1)) s)

/-- Restore what a FRAME entry holds (R299). -/
def restoreFrame (c : Nat) (e : RsEntry) (s : State) : State :=
  updCore c (fun k => { ((k.setK 13 (entryRein e 4 (natBit (e.word 0) 42))).setK 14 (entryRein e 6 (natBit (e.word 0) 43))) with
    pc := natBits (e.word 0) 0 40, status := n64 (natBits (e.word 1) 0 24), lstart := n64 (natBits (e.word 1) 24 40),
    lend := n64 (natBits (e.word 2) 0 40), lcount := n64 (e.word 3) }) (popEntry c s)

/-- WRET (R264, R298, R299). -/
def execWret (c : Nat) (d a b : BitVec 6) (s : State) : Host.Outcome State Fault Refusal :=
  .next (issue c { plain (wordR 0x06 0x04 d a b) with legal := d == 0 && a == 0 && b == 0, warden := true, noEnd := true } (fun c s =>
    match topEntry c s with
    | .empty => mismatch 0 s
    | .failed _ s1 => .stop (fenceCore c 3 s1)
    | .entry e s1 =>
      match popBad s1 2 e with
      | some why => mismatch why s1
      | none => .moved (restoreFrame c e s1)) s)

/-- JMPR: the target's rein becomes K14. -/
def execJmpr (c : Nat) (d a b : BitVec 6) (s : State) : Host.Outcome State Fault Refusal :=
  .next (issue c { plain (wordR 0x06 0x01 d a b) with legal := d == 0 && decide (a.toNat < 16), noEnd := true, names := [a.toNat] }
    (fun c s =>
      let k := getCore s c
      accessed c a.toNat (k.getG b.toNat).toNat 4 [permExec] false false s (fun t s =>
        .goto t (putK c 14 (k.getK a.toNat) s))) s)

/-! ### System instructions (R263) -/

/-- TRAP n: WPC is the next instruction. -/
def execTrap (c : Nat) (d a b : BitVec 6) (s : State) : Host.Outcome State Fault Refusal :=
  .next (issue c { plain (wordR 0x06 0x02 d a b) with legal := d == 0 && a == 0, noEnd := true }
    (fun _ s => .raise 0x10 (n64 b.toNat) 4 s) s)

/-- BRK n. -/
def execBrk (c : Nat) (d a b : BitVec 6) (s : State) : Host.Outcome State Fault Refusal :=
  .next (issue c { plain (wordR 0x06 0x03 d a b) with legal := d == 0 && a == 0, noEnd := true }
    (fun _ s => .raise 0x11 (n64 b.toNat) 0 s) s)

/-- SYNC: every earlier store has been performed or has raised its cause (R256). -/
def execSync (c : Nat) (d a b : BitVec 6) (s : State) : Host.Outcome State Fault Refusal :=
  .next (issue c { plain (wordR 0x06 0x07 d a b) with legal := d == 0 && a == 0 && b == 0 } (fun c s =>
    let s1 := storesDrain c s
    if (getCore s1 c).halted then .stop s1 else .done s1) s)

/-- WAIT: the core goes on once an interrupt source is pending, masked or not. -/
def execWait (c : Nat) (d a b : BitVec 6) (s : State) : Host.Outcome State Fault Refusal :=
  .next (issue c { plain (wordR 0x06 0x08 d a b) with legal := d == 0 && a == 0 && b == 0 } (fun c s =>
    .done (updCore c (fun k => { k with waiting := natBits k.pend.toNat 0 10 == 0 }) s)) s)

/-! ### Special registers (R250–R252) -/

/-- A special register's value, at a level that may read it. -/
def readSpecial (s : State) (c num : Nat) : Option W64 :=
  let k := getCore s c
  match num with
  | 0x000 => some (n64 k.pc)
  | 0x001 => some k.dsp
  | 0x002 => some (n64 k.rsd)
  | 0x003 => some k.lstart
  | 0x004 => some k.lend
  | 0x005 => some k.lcount
  | 0x006 => some k.status
  | 0x007 => some (n64 (s.stride % 2 ^ 32))
  | 0x010 => if k.warden then some k.wcause else none
  | 0x011 => if k.warden then some k.wpc else none
  | 0x012 => if k.warden then some k.winfo else none
  | _ => none

/-- A special register may be written, at this level. -/
def specialWritable (warden : Bool) (num : Nat) : Bool :=
  num == 1 || (3 ≤ num && num ≤ 6) || (warden && 0x10 ≤ num && num ≤ 0x12)

/-- Write a special register: MASK and DTRAP alone of STATUS; LSTART and LEND with bits [1:0] clear (R252). -/
def Core.writeSpecial (k : Core) (num : Nat) (v : W64) : Core :=
  match num with
  | 0x001 => { k with dsp := v }
  | 0x003 => { k with lstart := v &&& ~~~3 }
  | 0x004 => { k with lend := v &&& ~~~3 }
  | 0x005 => { k with lcount := v }
  | 0x006 => { k with status := (k.status &&& ~~~3) ||| (v &&& 3) }
  | 0x010 => { k with wcause := v }
  | 0x011 => { k with wpc := v }
  | 0x012 => { k with winfo := v }
  | _ => k

/-- MFS. -/
def execMfs (c : Nat) (d a : BitVec 6) (i : BitVec 13) (s : State) : Host.Outcome State Fault Refusal :=
  let f : Form := { plain (wordI 0x1C d a i) with legal := a == 0 }
  .next (issue c f (fun c s =>
    match readSpecial s c i.toNat with
    | some v => .done (putReg c d.toNat v s)
    | none => .raise 0x01 (illegalInfo f) 0 s) s)

/-- MTS: of LSTART, LEND or LCOUNT illegal at LEND (R267). -/
def execMts (c : Nat) (d a : BitVec 6) (i : BitVec 13) (s : State) : Host.Outcome State Fault Refusal :=
  let f : Form := { plain (wordI 0x1D d a i) with legal := d == 0, noEnd := 3 ≤ i.toNat && i.toNat ≤ 5 }
  .next (issue c f (fun c s =>
    let k := getCore s c
    if specialWritable k.warden i.toNat then .done (updCore c (fun k => k.writeSpecial i.toNat (k.getG a.toNat)) s)
    else .raise 0x01 (illegalInfo f) 0 s) s)

end Sys2Proof.Machine
end

