-- ==== Sys2Proof/Machine/PacerRein.lean ====
section
/-! DEFINITION. The Pacer's rein instructions and ENTER (R268, R281–R283, R287, R288). -/

namespace Sys2Proof.Machine

/-! ### Shared checks -/

/-- A 6-bit field that names a rein register. -/
def reinReg (x : BitVec 6) : Bool := x.toNat < 16

/-- A KIND of R279. -/
def kindKnown (n : Nat) : Bool := 1 ≤ n && n ≤ 5

/-- A tagged rein that only moves, storage, inspection and clearing may touch: sealed, or of a reserved KIND (R279, R282). -/
def reinShut (r : Rein) : Bool := r.tag && (r.isSealed || !kindKnown r.kind)

/-- A failed check of a rein instruction: its cause, with the rein register in WINFO. -/
def reinFail (cause i : Nat) (s : State) : Res := .raise cause (reinInfo i 0 0 false) 0 s

/-- TYPE byte of a rein. -/
def Rein.typ (r : Rein) : Nat := natBits r.bits.toNat 96 8

/-- A rein with some of its fields changed. -/
def Rein.remake (r : Rein) (typ perm len base : Nat) : Rein := Rein.make r.tag r.gen r.pad typ perm len base

/-! ### Group 0x05 (R268) -/

/-- KMOV. -/
def execKmov (c : Nat) (d a b : BitVec 6) (s : State) : Host.Outcome State Fault Refusal :=
  .next (issue c { plain (wordR 0x05 0x00 d a b) with legal := reinReg d && reinReg a && b == 0, names := [d.toNat, a.toNat] }
    (fun c s => .done (putK c d.toNat ((getCore s c).getK a.toNat) s)) s)

/-- KBOUND. -/
def execKbound (c : Nat) (d a b : BitVec 6) (s : State) : Host.Outcome State Fault Refusal :=
  .next (issue c { plain (wordR 0x05 0x01 d a b) with legal := reinReg d, names := [d.toNat] } (fun c s =>
    let k := getCore s c
    let r := k.getK d.toNat
    let x := (k.getG a.toNat).toNat
    let y := (k.getG b.toNat).toNat
    if !r.tag then reinFail 0x02 d.toNat s
    else if r.kind ≠ 1 ∨ r.isSealed then reinFail 0x04 d.toNat s
    else if r.len < x ∨ r.len - x < y then reinFail 0x03 d.toNat s
    else .done (putK c d.toNat (r.remake r.typ r.perm y (r.base + x)) s)) s)

/-- KPERM. -/
def execKperm (c : Nat) (d a b : BitVec 6) (s : State) : Host.Outcome State Fault Refusal :=
  .next (issue c { plain (wordR 0x05 0x02 d a b) with legal := reinReg d && b == 0, names := [d.toNat] } (fun c s =>
    let k := getCore s c
    let r := k.getK d.toNat
    if !r.tag then reinFail 0x02 d.toNat s
    else if reinShut r ∨ r.kind = 4 then reinFail 0x04 d.toNat s
    else .done (putK c d.toNat (r.remake r.typ (BitVec.ofNat 16 r.perm &&& (k.getG a.toNat).setWidth 16).toNat r.len r.base) s)) s)

/-- A field of a rein into a general register. -/
def reinRead (c fn : Nat) (d a b : BitVec 6) (f : Rein → Nat) (s : State) : State :=
  issue c { plain (wordR 0x05 fn d a b) with legal := reinReg a && b == 0, names := [a.toNat] } (fun c s =>
    let r := (getCore s c).getK a.toNat
    if reinShut r then reinFail 0x04 a.toNat s else .done (putReg c d.toNat (n64 (f r)) s)) s

/-- KBASE. -/
def execKbase (c : Nat) (d a b : BitVec 6) (s : State) : Host.Outcome State Fault Refusal :=
  .next (reinRead c 0x03 d a b Rein.base s)
/-- KLEN. -/
def execKlen (c : Nat) (d a b : BitVec 6) (s : State) : Host.Outcome State Fault Refusal :=
  .next (reinRead c 0x04 d a b Rein.len s)

/-- KINFO: tag and bits [127:80]. -/
def execKinfo (c : Nat) (d a b : BitVec 6) (s : State) : Host.Outcome State Fault Refusal :=
  .next (issue c { plain (wordR 0x05 0x05 d a b) with legal := reinReg a && b == 0, names := [a.toNat] } (fun c s =>
    let r := (getCore s c).getK a.toNat
    .done (putReg c d.toNat (n64 (b2n r.tag * 2 ^ 63 + natBits r.bits.toNat 80 48)) s)) s)

/-- KCLR, which a Warden rein does not stop (R281). -/
def execKclr (c : Nat) (d a b : BitVec 6) (s : State) : Host.Outcome State Fault Refusal :=
  .next (issue c { plain (wordR 0x05 0x06 d a b) with legal := reinReg d && a == 0 && b == 0 }
    (fun c s => .done (putK c d.toNat Rein.zero s)) s)

/-- The checks of R283 in their order: the cause and the register at fault. -/
def sealCause (s : State) (kd ks : Rein) (d a perm : Nat) (want : Bool) : Option (Nat × Nat) :=
  if !ks.tag then some (0x02, a)
  else if !kd.tag then some (0x02, d)
  else if !ks.genOk s then some (0x12, a)
  else if !kd.genOk s then some (0x12, d)
  else if ks.isSealed || ks.kind ≠ 1 || !natBit ks.perm perm then some (0x04, a)
  else if kd.pad ≠ ks.pad || kd.isWarden ≠ ks.isWarden then some (0x04, d)
  else if kd.isSealed ≠ want || !kindKnown kd.kind then some (0x04, d)
  else none

/-- KSEAL and KUNSEAL. -/
def sealWith (c fn perm : Nat) (d a b : BitVec 6) (sealed : Bool) (s : State) : State :=
  issue c { plain (wordR 0x05 fn d a b) with legal := reinReg d && reinReg a && b == 0, names := [d.toNat, a.toNat] } (fun c s =>
    let k := getCore s c
    let r := k.getK d.toNat
    match sealCause s r (k.getK a.toNat) d.toNat a.toNat perm (!sealed) with
    | some (cause, i) => reinFail cause i s
    | none =>
      let m : W128 := BitVec.ofNat 128 (2 ^ 103)
      .done (putK c d.toNat { r with bits := if sealed then r.bits ||| m else r.bits &&& ~~~m } s)) s

def execKseal (c : Nat) (d a b : BitVec 6) (s : State) : Host.Outcome State Fault Refusal :=
  .next (sealWith c 0x07 permSeal d a b true s)
def execKunseal (c : Nat) (d a b : BitVec 6) (s : State) : Host.Outcome State Fault Refusal :=
  .next (sealWith c 0x08 permUnseal d a b false s)

/-! ### ENTER (R287, R288) -/

/-- The checks of R287 in their order. -/
def doorCause (s : State) (r : Rein) : Option Nat :=
  if !r.tag then some 0x02
  else if r.kind ≠ 4 || !r.isSealed || r.isWarden then some 0x04
  else if !genCurrent s r.pad r.gen then some 0x12
  else if r.len ≤ 4 * r.perm then some 0x03
  else if r.base % 4 ≠ 0 then some 0x05
  else none

/-- ENTER: it waits as SYNC does; a fault that arises there is taken first, and ENTER issues again. -/
def execEnter (c : Nat) (d a b : BitVec 6) (s : State) : Host.Outcome State Fault Refusal :=
  .next (issue c { plain (wordR 0x05 0x09 d a b) with legal := d == 0 && reinReg a && b == 0, noEnd := true, names := [a.toNat] }
    (fun c s =>
      let s1 := storesDrain c s
      let k := getCore s1 c
      if k.halted then .stop s1
      else
        match k.imprecise with
        | some x => .moved (takeImprecise c x s1)
        | none =>
          let r := k.getK a.toNat
          match doorCause s1 r with
          | some cause => reinFail cause a.toNat s1
          | none => .moved (enterDoor c r s1)) s)

end Sys2Proof.Machine
end

