-- ==== Sys2Proof/Machine/Monitor.lean ====
section
/-! DEFINITION. The Dadrin monitor's dispatch of exceptions and its TRAP services (R302–R304), and the interrupts that lead
there (R292). -/

namespace Sys2Proof.Machine

/-! ### Where the monitor stands -/

/-- The cause of the exception that core `c` stands at WARDEN_ENTRY with, and whether it came from the Warden level. -/
def atEntry (s : State) (c : Nat) : Option (Nat × Bool) :=
  let k := getCore s c
  if coreRuns s c && k.warden && k.pc == wardenEntry then some (natBits k.wcause.toNat 0 8, natBit k.wcause.toNat 8) else none

/-- Return to the context under the top FRAME, with a change to it; without one the core is fenced (R264, R302). -/
def returnWith (c : Nat) (f : SavedCtx → SavedCtx) (s : State) : State :=
  match frameCtx s c with
  | some x => loadCtx c (f x) s
  | none => fenceCore c 5 s

/-- G1 as a service leaves it: 0 on success, all ones on refusal (R303). -/
def answer (ok : Bool) (x : SavedCtx) : SavedCtx := { x with g := Tab.set 0 x.g 1 (if ok then 0 else -1) }

/-- The trap that a service command carries out stands at WARDEN_ENTRY: TRAP `n` from the paddock level. -/
def atTrap (s : State) (c n : Nat) : Bool :=
  atEntry s c == some (0x10, false) && natBits (getCore s c).winfo.toNat 0 6 == n

/-- Clear PEND bits (R293). -/
def clearPend (c : Nat) (m : W32) (s : State) : State := updCore c (fun k => { k with pend := k.pend &&& ~~~m }) s

/-! ### Doors (R302, R304) -/

/-- A door of `p` that ENTER admits now. -/
def doorOpen (s : State) (p : Nat) (d : Rein) : Bool := (doorCause s d).isNone && d.pad == p

/-- Enter a door handler of `p` on core `c`: the interrupted context is kept, MASK is 0, the return stack is empty, and G1 to
G3 hold WCAUSE, WPC and WINFO (R304). -/
def enterHandler (c p : Nat) (d : Rein) (x : SavedCtx) (s : State) : State :=
  stackRead c (fun s =>
  let s1 := { s with pc := { s.pc with handler := Tab.set none s.pc.handler (ctxKey c p) (some x) } }
  enterDoor c d (updCore c (fun k => { (((k.setG 1 k.wcause).setG 2 k.wpc).setG 3 k.winfo) with
    status := mkStatus p true false false, onchip := [], spilled := 0, lstart := 0, lend := 0 }) s1)) s

/-- The context of `p` is discarded, and its start door is entered in the paddock's next slot (R302). -/
def discardIdle (c p cause : Nat) (s : State) : State := idleCore c (discardCtx c p cause (getCore s c).wpc s)

/-- A fault at the paddock level: to the fault door, unless none is open or a handler is running (R302). -/
def faultDispatch (c p cause : Nat) (s : State) : State :=
  let d := Tab.get Rein.zero s.pc.faultDoor (ctxKey c p)
  match frameCtx s c with
  | some x => if doorOpen s p d && !inHandler s c p then enterHandler c p d x s else discardIdle c p cause s
  | none => discardIdle c p cause s

/-- Hold an event for a paddock. -/
def holdEvent (c p i : Nat) (s : State) : State :=
  { s with pc := { s.pc with heldEv := Tab.upd 0 s.pc.heldEv (ctxKey c p) (fun v => v ||| BitVec.ofNat 32 (2 ^ i)) } }

/-- An event of PEND bit `i`: card and contactless events are the monitor's own; one for the paddock that runs goes to its
event door; every other one is held (R302, R304). -/
def eventDispatch (c p i : Nat) (s : State) : State :=
  let owner := match Tab.get 0 s.pc.evFor (16 * c + i) with | 0 => p | n => n - 1
  let s1 := clearPend c (BitVec.ofNat 32 (2 ^ i)) { s with pc := { s.pc with evFor := Tab.set 0 s.pc.evFor (16 * c + i) 0 } }
  let d := Tab.get Rein.zero s1.pc.eventDoor (ctxKey c p)
  if i = 6 ∨ i = 7 then returnWith c id s1
  else if owner ≠ p then returnWith c id (holdEvent c owner i s1)
  else
    match frameCtx s1 c with
    | some x => if doorOpen s1 p d && !inHandler s1 c p then enterHandler c p d x s1 else returnWith c id (holdEvent c p i s1)
    | none => fenceCore c 5 s1

/-- Enter the slot's owner on a core that is still in service. -/
def scheduleRunning (c : Nat) (s : State) : State := if (getCore s c).halted then s else scheduleCore c s

/-- The stride tick: where the slot passes to another paddock the running context is saved and the owner entered. -/
def tickDispatch (c p : Nat) (s : State) : State :=
  let s1 := clearPend c 1 s
  match (logicalOf s1 2 c).bind (fun l => slotOwner s1 l s1.stride) with
  | some q => if q = p then returnWith c id s1 else scheduleRunning c (saveCtx c p s1)
  | none => scheduleRunning c (saveCtx c p s1)

/-- BRK: a debug session's halt where it is admitted (R430), else a fault. -/
def breakDispatch (c p : Nat) (s : State) : State :=
  if hasRight s 0 && dbgMask s p then
    returnWith c id { s with lc := { s.lc with halts := Tab.set 0 s.lc.halts c (p + 1) } }
  else faultDispatch c p 0x11 s

/-- The monitor's action for the exception that core `c` stands with (R302). TRAP services have commands of their own; a
number without a service is refused. -/
def dispatch (c cause : Nat) (fromWarden : Bool) (s : State) : State :=
  let k := getCore s c
  let p := k.paddock
  if fromWarden then (if cause < 0x20 ∧ cause ≠ 0x10 then fenceCore c 5 s else returnWith c id s)
  else if cause = 0x20 then tickDispatch c p s
  else if 0x21 ≤ cause ∧ cause ≤ 0x29 then eventDispatch c p (cause - 0x20) s
  else if cause = 0x12 then discardIdle c p cause s
  else if cause = 0x11 then breakDispatch c p s
  else if cause = 0x10 then (if 5 ≤ natBits k.winfo.toNat 0 6 then returnWith c (answer false) s else s)
  else faultDispatch c p cause s

/-- The monitor's own step on core `c`: it acts on an exception at WARDEN_ENTRY, or, idling, enters the slot's owner when
the stride tick is pending. -/
def monitorStep (c : Nat) (s : State) : State :=
  let k := getCore s c
  match atEntry s c with
  | some (cause, w) => dispatch c cause w s
  | none =>
    if c < 26 && k.yielded && !k.halted && isActive s 2 c && !s.tm.shedBusy && k.pend.getLsbD 0 then scheduleCore c (clearPend c 1 s) else s

/-- INTERRUPT_TAKEN: the core takes the lowest pending enabled interrupt (R292); with `monitor`, what the Dadrin monitor then
does about an exception (R302). -/
def execInterruptTaken (c : Nat) (monitor : Bool) (s : State) : Host.Outcome State Fault Refusal :=
  let k := getCore s c
  if monitor then .next (monitorStep c s)
  else if coreRuns s c && k.imprecise.isNone && !k.masked && k.wanted then .next (takeInterrupt c s)
  else .next s

/-! ### Services (R303) -/

/-- MONITOR_YIELD: TRAP 0x00. -/
def execMonitorYield (c : Nat) (s : State) : Host.Outcome State Fault Refusal :=
  if !atTrap s c 0 then .next s
  else
    let p := (getCore s c).paddock
    let x := (frameCtx s c).map (answer true)
    .next (stackRead c (fun s => idleCore c { s with pc := { s.pc with ctx := Tab.set none s.pc.ctx (ctxKey c p) x } }) s)

/-- MONITOR_RESUME: TRAP 0x01. Outside a handler it is refused. -/
def execMonitorResume (c : Nat) (s : State) : Host.Outcome State Fault Refusal :=
  if !atTrap s c 1 then .next s
  else
    let p := (getCore s c).paddock
    match Tab.get none s.pc.handler (ctxKey c p) with
    | some x => .next (raiseHeld c p (loadCtx c x { s with pc := { s.pc with handler := Tab.set none s.pc.handler (ctxKey c p) none } }))
    | none => .next (returnWith c (answer false) s)

/-- A door that DOORS registers: a tagged sealed door of the current paddock. -/
def doorGiven (s : State) (p : Nat) (r : Rein) : Bool := r.tag && r.kind == 4 && r.isSealed && !r.isWarden && r.pad == p && genCurrent s p r.gen

/-- MONITOR_DOORS: TRAP 0x02. -/
def execMonitorDoors (c : Nat) (s : State) : Host.Outcome State Fault Refusal :=
  if !atTrap s c 2 then .next s
  else
    let k := getCore s c
    let p := k.paddock
    if doorGiven s p (k.getK 0) && doorGiven s p (k.getK 1) then
      .next (returnWith c (answer true) { s with pc := { s.pc with
        faultDoor := Tab.set Rein.zero s.pc.faultDoor (ctxKey c p) (k.getK 0),
        eventDoor := Tab.set Rein.zero s.pc.eventDoor (ctxKey c p) (k.getK 1) } })
    else .next (returnWith c (answer false) s)

/-- A queue rein that SEND takes. -/
def queueGiven (s : State) (r : Rein) : Bool :=
  r.tag && r.genOk s && r.kind == 5 && !r.isSealed && !r.isWarden && natBit r.perm permStore && natBits r.base 0 5 < 26

/-- MONITOR_SEND: TRAP 0x03. The target's WMSG takes the word, or refuses it while a message is pending there. -/
def execMonitorSend (c : Nat) (s : State) : Host.Outcome State Fault Refusal :=
  if !atTrap s c 3 then .next s
  else
    let k := getCore s c
    let t := natBits (k.getK 0).base 0 5
    if queueGiven s (k.getK 0) then
      .next (returnWith c (answer (!(getCore s t).pend.getLsbD 9)) (writeWmsg c t ((k.getG 2).setWidth 32) s))
    else .next (returnWith c (answer false) s)

/-- MONITOR_KEYREIN: TRAP 0x04. K0 is left as it was where TK_MINT refuses. -/
def execMonitorKeyrein (c : Nat) (s : State) : Host.Outcome State Fault Refusal :=
  if !atTrap s c 4 then .next s
  else
    let k := getCore s c
    let s1 := { s with tk := { s.tk with
      mint := Tab.set 0 (Tab.set 0 s.tk.mint 0 ((k.getG 2).setWidth 32 |>.setWidth 64)) 1 (((k.getG 3).setWidth 16).setWidth 64 <<< 16) } }
    let r := readMint s1 c
    if r.tag then .next (returnWith c (fun x => { (answer true x) with k := Tab.set Rein.zero x.k 0 r }) s1)
    else .next (returnWith c (answer false) s1)

end Sys2Proof.Machine
end

