-- ==== Sys2Proof/Machine/Debug.lean ====
section
/-! DEFINITION. The debug access port (R315, R430–R432) and the die link's transfers (R9, R24). -/

namespace Sys2Proof.Machine

/-- What no session reaches (R432): TK_PCMD and TK_MINT, PC_MINT, PK_DIAG_SEL and PK_DIAG_DATA, TM_RESP and TM_LOCK,
LC_TRANS. -/
def dapForbidden (a : Nat) : Bool :=
  let slot := a / 8 * 8
  slot == 0x100600068 || slot == 0x100600070 || slot == 0x100600078 || slot == 0x100900030 || slot == 0x100900038 ||
  slot == 0x100400028 || slot == 0x100400030 || (0x100F00100 ≤ a && a < 0x100F00158) || slot == 0x100F00028 || slot == 0x101000040

/-- Fields that only the Warden level reaches, for a read or a write (R277, R377, R391 and the units' register rules). -/
def wardenOnly (wr : Bool) (a : Nat) : Bool :=
  let n := csrWindow a
  let o := csrSlot a
  n == 9 || (n == 13 && 0x10000 ≤ o) || (n == 14 && 0x10000 ≤ o) || (n == 11 && (o == 0x200 || o == 0x208)) || (n == 5 && o == 0x50) ||
  (wr && (n == 0 || (13 ≤ n && n ≤ 19) || (n == 1 && o == 0x78) || (n == 7 && (o == 0x28 || o == 0x30)) ||
    (n == 12 && 0x100 ≤ o && o < 0x140)) && !(n == 16 && o == 0x60))

/-- The right that an access needs is in force, for the paddock that LC_DBGSEL names (R430, R431). -/
def dapMay (s : State) (wr : Bool) (a : Nat) : Bool :=
  dbgMask s s.lc.sel &&
    (if isCsr a then hasRight s 4 && dbgWindow s (csrWindow a) && !dapForbidden a && (!wardenOnly wr a || hasRight s 5) else hasRight s 3)

/-- The access as unit 39 sees it (R307). -/
def dapAccess (s : State) : Access := { unit := 39, paddock := s.lc.sel, cls := 2 }

/-- Keep what the port read. -/
def dapGive (bs : List Byte) (s : State) : State := { s with lc := { s.lc with dapData := bs } }

/-- A refused access: zeros for a read (R315, R431). -/
def dapRefuse (wr : Bool) (a n : Nat) (s : State) : State :=
  let s1 := dbgDenied wr 0 a s
  if wr then s1 else dapGive (zeros n) s1

/-- Note what the Bridle unit refused of an access. -/
def dapNote (wr : Bool) (ref : Option (Nat × Nat)) (s : State) : State :=
  match ref with
  | some (fa, code) => dbgDenied wr code fa s
  | none => s

/-- A memory or CSR access of at most 8 bytes. -/
def dapMem (wr : Bool) (a width : Nat) (v : W64) (s : State) : State :=
  let n := min width 8
  let acc := dapAccess s
  if n = 0 then s
  else if !dapMay s wr a then dapRefuse wr a n s
  else if isCsr a then
    let ref := firstRefused s acc wr (csrWidthBad a n) a n
    let who : Who := { core := none, warden := hasRight s 5 }
    match ref with
    | some (fa, code) =>
      let s1 := dapNote wr ref (bridleFault acc wr fa code s)
      if wr then s1 else dapGive (zeros n) s1
    | none =>
      if csrWindow a = 10 then (if wr then s else dapGive (zeros n) s)
      else if wr then
        (if csrWindow a = 16 ∧ csrSlot a = 0x60 then lcWrite 0x60 (csrPut a n v) s else csrWrite who a n v s)
      else let r := csrRead who a n s; dapGive (natToLE n r.1.toNat) r.2
  else if wr then
    let r := busWrite s acc a (natToLE n v.toNat)
    dapNote true r.refused r.st
  else
    let r := busRead s acc a n
    dapGive (if r.ecc then zeros n else r.data) (dapNote false r.refused (noteRead acc a r s))

/-- A register of a halted core: `bank` 0 general, 1 rein (written untagged), 2 special (R430). -/
def dapReg (wr : Bool) (c bank i : Nat) (v : W128) (s : State) : State :=
  let k := getCore s c
  if !(c < 26 && hasRight s 0 && isHalted s c) then dapRefuse wr 0 17 s
  else
    match bank with
    | 0 => if wr then putReg c (i % 64) (v.setWidth 64) s else dapGive (natToLE 8 (k.getG (i % 64)).toNat) s
    | 1 =>
      if wr then putK c (i % 16) { tag := false, bits := v } s
      else dapGive (natToLE 16 (k.getK (i % 16)).bits.toNat ++ [BitVec.ofNat 8 (b2n (k.getK (i % 16)).tag)]) s
    | 2 =>
      if wr then
        (if specialWritable k.warden i then updCore c (fun k => k.writeSpecial i (v.setWidth 64)) s else dapRefuse true 0 8 s)
      else
        match readSpecial s c i with
        | some x => dapGive (natToLE 8 x.toNat) s
        | none => dapRefuse false 0 8 s
    | _ => dapRefuse wr 0 8 s

/-- The trace ring as 16-byte records: core, source and target address (log 31). -/
def traceBytes (t : List (Nat × Nat × Nat)) : List Byte :=
  t.flatMap (fun r => natToLE 4 r.1 ++ natToLE 6 (r.2.1 % 2 ^ 40) ++ natToLE 6 (r.2.2 % 2 ^ 40))

/-- DAP_ACCESS: while the TAP selects the port. -/
def execDapAccess (req : DapReq) (s : State) : Host.Outcome State Fault Refusal :=
  if s.lc.tap ≠ 0x11 then .next s
  else
    match req with
    | .mem wr a width v => .next (dapMem wr a width v s)
    | .reg wr c bank i v => .next (dapReg wr c bank i v s)
    | .ring => .next (if hasRight s 2 then dapGive (traceBytes s.lc.trace) s else dapRefuse false 0 16 s)
    | .select p => .next (if dbgRights s = 0 then dbgDenied true 0 0 s else { s with lc := { s.lc with sel := p % 256 } })

/-- The CSRs that live on the vault die (R24). -/
def onVaultDie (a : Nat) : Bool :=
  isCsr a && (csrWindow a == 14 || csrWindow a == 15 || csrWindow a == 16 || (csrWindow a == 19 && 0x100 ≤ csrSlot a))

/-- A transfer sealed under `key` that arrives as sent authenticates under the link key, which exists once it is drawn (R9). -/
def linkGood (s : State) (key : List Byte) (intact : Bool) : Bool := intact && !s.pm.linkKey.isEmpty && key == s.pm.linkKey

/-- DIE_LINK_TRANSFER: a transfer that authenticates is acted on; one that does not fires sensor 14 (R9). -/
def execDieLinkTransfer (auth : LinkSeal) (a : Nat) (v : W64) (s : State) : Host.Outcome State Fault Refusal :=
  if s.off then .next s
  else if !linkGood s auth.key auth.intact then .next (fireBrief 14 false s)
  else if onVaultDie a ∧ csrShape a 8 then .next (csrWrite { core := none, warden := true } a 8 v s) else .next s

end Sys2Proof.Machine
end

