-- ==== Sys2Proof/Machine/PacerAlu.lean ====
section
/-! DEFINITION. The Pacer's arithmetic, logic, multiply and divide, compare and immediate instructions (R259–R262). -/

namespace Sys2Proof.Machine

/-! ### Shared forms -/

/-- G[d] ← f G[a] G[b]. -/
def alu3 (c op fn : Nat) (d a b : BitVec 6) (f : W64 → W64 → W64) (s : State) : State :=
  issue c (plain (wordR op fn d a b)) (fun c s =>
    let k := getCore s c
    .done (putReg c d.toNat (f (k.getG a.toNat) (k.getG b.toNat)) s)) s

/-- G[d] ← f G[a], with rb 0. -/
def alu2 (c op fn : Nat) (d a b : BitVec 6) (f : W64 → W64) (s : State) : State :=
  issue c { plain (wordR op fn d a b) with legal := b == 0 } (fun c s =>
    .done (putReg c d.toNat (f ((getCore s c).getG a.toNat)) s)) s

/-- A division: cause 0x0B for a zero divisor (R260). -/
def aluDiv (c fn : Nat) (d a b : BitVec 6) (f : W64 → W64 → W64) (s : State) : State :=
  issue c (plain (wordR 0x02 fn d a b)) (fun c s =>
    let k := getCore s c
    if k.getG b.toNat = 0 then .raise 0x0B 0 0 s
    else .done (putReg c d.toNat (f (k.getG a.toNat) (k.getG b.toNat)) s)) s

/-- G[d] ← f G[a] with an immediate; `legal` is a condition of the entry. -/
def aluImm (c op : Nat) (legal : Bool) (d a : BitVec 6) (imm : BitVec 13) (f : W64 → W64) (s : State) : State :=
  issue c { plain (wordI op d a imm) with legal := legal } (fun c s =>
    .done (putReg c d.toNat (f ((getCore s c).getG a.toNat)) s)) s

/-- A relation as 1 or 0. -/
def rel (b : Bool) : W64 := if b then 1 else 0

/-- Leading zero bits; 64 for zero. -/
def clz64 (v : W64) : Nat := ((List.range 64).find? (fun i => v.getLsbD (63 - i))).getD 64

/-- Set bits. -/
def popc64 (v : W64) : Nat := ((List.range 64).filter (fun i => v.getLsbD i)).length

/-- The 8 bytes in reverse order. -/
def bswap64 (v : W64) : W64 := BitVec.ofNat 64 (leToNat (natToLE 8 v.toNat).reverse)

/-- A shift count: G[b][5:0]. -/
def shCount (v : W64) : Nat := v.toNat % 64

/-- Immediates (R253, R262). -/
def immS (i : BitVec 13) : W64 := i.signExtend 64
def immZ (i : BitVec 13) : W64 := i.setWidth 64

/-- A shift immediate: bits [12:6] must be 0. -/
def shiftOk (i : BitVec 13) : Bool := i.toNat < 64


/-! ### Group 0x01 (R259) -/

/-- ADD. -/
def execOpAdd (c : Nat) (d a b : BitVec 6) (s : State) : Host.Outcome State Fault Refusal :=
  .next (alu3 c 0x01 0x00 d a b (fun x y => x + y) s)
/-- SUB. -/
def execOpSub (c : Nat) (d a b : BitVec 6) (s : State) : Host.Outcome State Fault Refusal :=
  .next (alu3 c 0x01 0x01 d a b (fun x y => x - y) s)
/-- AND. -/
def execOpAnd (c : Nat) (d a b : BitVec 6) (s : State) : Host.Outcome State Fault Refusal :=
  .next (alu3 c 0x01 0x02 d a b (fun x y => x &&& y) s)
/-- OR. -/
def execOpOr (c : Nat) (d a b : BitVec 6) (s : State) : Host.Outcome State Fault Refusal :=
  .next (alu3 c 0x01 0x03 d a b (fun x y => x ||| y) s)
/-- XOR. -/
def execOpXor (c : Nat) (d a b : BitVec 6) (s : State) : Host.Outcome State Fault Refusal :=
  .next (alu3 c 0x01 0x04 d a b (fun x y => x ^^^ y) s)
/-- ANDN. -/
def execAndn (c : Nat) (d a b : BitVec 6) (s : State) : Host.Outcome State Fault Refusal :=
  .next (alu3 c 0x01 0x05 d a b (fun x y => x &&& ~~~y) s)
/-- SHL. -/
def execShl (c : Nat) (d a b : BitVec 6) (s : State) : Host.Outcome State Fault Refusal :=
  .next (alu3 c 0x01 0x06 d a b (fun x y => x <<< shCount y) s)
/-- SHR. -/
def execShr (c : Nat) (d a b : BitVec 6) (s : State) : Host.Outcome State Fault Refusal :=
  .next (alu3 c 0x01 0x07 d a b (fun x y => x >>> shCount y) s)
/-- SAR. -/
def execSar (c : Nat) (d a b : BitVec 6) (s : State) : Host.Outcome State Fault Refusal :=
  .next (alu3 c 0x01 0x08 d a b (fun x y => x.sshiftRight (shCount y)) s)
/-- ROL. -/
def execRol (c : Nat) (d a b : BitVec 6) (s : State) : Host.Outcome State Fault Refusal :=
  .next (alu3 c 0x01 0x09 d a b (fun x y => x.rotateLeft (shCount y)) s)
/-- ROR. -/
def execRor (c : Nat) (d a b : BitVec 6) (s : State) : Host.Outcome State Fault Refusal :=
  .next (alu3 c 0x01 0x0A d a b (fun x y => x.rotateRight (shCount y)) s)
/-- MIN. -/
def execOpMin (c : Nat) (d a b : BitVec 6) (s : State) : Host.Outcome State Fault Refusal :=
  .next (alu3 c 0x01 0x0B d a b (fun x y => if x.toInt ≤ y.toInt then x else y) s)
/-- MAX. -/
def execOpMax (c : Nat) (d a b : BitVec 6) (s : State) : Host.Outcome State Fault Refusal :=
  .next (alu3 c 0x01 0x0C d a b (fun x y => if x.toInt ≤ y.toInt then y else x) s)
/-- MINU. -/
def execMinu (c : Nat) (d a b : BitVec 6) (s : State) : Host.Outcome State Fault Refusal :=
  .next (alu3 c 0x01 0x0D d a b (fun x y => if x.toNat ≤ y.toNat then x else y) s)
/-- MAXU. -/
def execMaxu (c : Nat) (d a b : BitVec 6) (s : State) : Host.Outcome State Fault Refusal :=
  .next (alu3 c 0x01 0x0E d a b (fun x y => if x.toNat ≤ y.toNat then y else x) s)

/-! ### Group 0x01, one operand -/

/-- CLZ. -/
def execClz (c : Nat) (d a b : BitVec 6) (s : State) : Host.Outcome State Fault Refusal :=
  .next (alu2 c 0x01 0x10 d a b (fun x => n64 (clz64 x)) s)
/-- POPC. -/
def execPopc (c : Nat) (d a b : BitVec 6) (s : State) : Host.Outcome State Fault Refusal :=
  .next (alu2 c 0x01 0x11 d a b (fun x => n64 (popc64 x)) s)
/-- BSWAP. -/
def execBswap (c : Nat) (d a b : BitVec 6) (s : State) : Host.Outcome State Fault Refusal :=
  .next (alu2 c 0x01 0x12 d a b (bswap64) s)

/-! ### Group 0x02: products (R260) -/

/-- MUL. -/
def execMul (c : Nat) (d a b : BitVec 6) (s : State) : Host.Outcome State Fault Refusal :=
  .next (alu3 c 0x02 0x00 d a b (fun x y => x * y) s)
/-- MULH. -/
def execMulh (c : Nat) (d a b : BitVec 6) (s : State) : Host.Outcome State Fault Refusal :=
  .next (alu3 c 0x02 0x01 d a b (fun x y => BitVec.ofInt 64 (x.toInt * y.toInt / 18446744073709551616)) s)
/-- MULHU. -/
def execMulhu (c : Nat) (d a b : BitVec 6) (s : State) : Host.Outcome State Fault Refusal :=
  .next (alu3 c 0x02 0x02 d a b (fun x y => n64 (x.toNat * y.toNat / 2 ^ 64)) s)

/-! ### Group 0x02: quotients and remainders (R260) -/

/-- DIV. -/
def execDiv (c : Nat) (d a b : BitVec 6) (s : State) : Host.Outcome State Fault Refusal :=
  .next (aluDiv c 0x03 d a b (fun x y => BitVec.ofInt 64 (x.toInt.tdiv y.toInt)) s)
/-- DIVU. -/
def execDivu (c : Nat) (d a b : BitVec 6) (s : State) : Host.Outcome State Fault Refusal :=
  .next (aluDiv c 0x04 d a b (fun x y => n64 (x.toNat / y.toNat)) s)
/-- REM. -/
def execRem (c : Nat) (d a b : BitVec 6) (s : State) : Host.Outcome State Fault Refusal :=
  .next (aluDiv c 0x05 d a b (fun x y => BitVec.ofInt 64 (x.toInt.tmod y.toInt)) s)
/-- REMU. -/
def execRemu (c : Nat) (d a b : BitVec 6) (s : State) : Host.Outcome State Fault Refusal :=
  .next (aluDiv c 0x06 d a b (fun x y => n64 (x.toNat % y.toNat)) s)

/-! ### Group 0x03: compares (R261) -/

/-- CEQ. -/
def execCeq (c : Nat) (d a b : BitVec 6) (s : State) : Host.Outcome State Fault Refusal :=
  .next (alu3 c 0x03 0x00 d a b (fun x y => rel (x == y)) s)
/-- CNE. -/
def execCne (c : Nat) (d a b : BitVec 6) (s : State) : Host.Outcome State Fault Refusal :=
  .next (alu3 c 0x03 0x01 d a b (fun x y => rel (x != y)) s)
/-- CLT. -/
def execClt (c : Nat) (d a b : BitVec 6) (s : State) : Host.Outcome State Fault Refusal :=
  .next (alu3 c 0x03 0x02 d a b (fun x y => rel (decide (x.toInt < y.toInt))) s)
/-- CLTU. -/
def execCltu (c : Nat) (d a b : BitVec 6) (s : State) : Host.Outcome State Fault Refusal :=
  .next (alu3 c 0x03 0x03 d a b (fun x y => rel (decide (x.toNat < y.toNat))) s)
/-- CLE. -/
def execCle (c : Nat) (d a b : BitVec 6) (s : State) : Host.Outcome State Fault Refusal :=
  .next (alu3 c 0x03 0x04 d a b (fun x y => rel (decide (x.toInt ≤ y.toInt))) s)
/-- CLEU. -/
def execCleu (c : Nat) (d a b : BitVec 6) (s : State) : Host.Outcome State Fault Refusal :=
  .next (alu3 c 0x03 0x05 d a b (fun x y => rel (decide (x.toNat ≤ y.toNat))) s)

/-! ### Immediates (R262) -/

/-- ADDI. -/
def execAddi (c : Nat) (d a : BitVec 6) (i : BitVec 13) (s : State) : Host.Outcome State Fault Refusal :=
  .next (aluImm c 0x08 true d a i (fun x => x + immS i) s)
/-- ANDI. -/
def execAndi (c : Nat) (d a : BitVec 6) (i : BitVec 13) (s : State) : Host.Outcome State Fault Refusal :=
  .next (aluImm c 0x09 true d a i (fun x => x &&& immZ i) s)
/-- ORI. -/
def execOri (c : Nat) (d a : BitVec 6) (i : BitVec 13) (s : State) : Host.Outcome State Fault Refusal :=
  .next (aluImm c 0x0A true d a i (fun x => x ||| immZ i) s)
/-- XORI. -/
def execXori (c : Nat) (d a : BitVec 6) (i : BitVec 13) (s : State) : Host.Outcome State Fault Refusal :=
  .next (aluImm c 0x0B true d a i (fun x => x ^^^ immZ i) s)

/-! ### Shifts by an immediate -/

/-- SHLI. -/
def execShli (c : Nat) (d a : BitVec 6) (i : BitVec 13) (s : State) : Host.Outcome State Fault Refusal :=
  .next (aluImm c 0x0C (shiftOk i) d a i (fun x => x <<< (i.toNat % 64)) s)
/-- SHRI. -/
def execShri (c : Nat) (d a : BitVec 6) (i : BitVec 13) (s : State) : Host.Outcome State Fault Refusal :=
  .next (aluImm c 0x0D (shiftOk i) d a i (fun x => x >>> (i.toNat % 64)) s)
/-- SARI. -/
def execSari (c : Nat) (d a : BitVec 6) (i : BitVec 13) (s : State) : Host.Outcome State Fault Refusal :=
  .next (aluImm c 0x0E (shiftOk i) d a i (fun x => x.sshiftRight (i.toNat % 64)) s)

/-! ### Compares with an immediate -/

/-- CEQI. -/
def execCeqi (c : Nat) (d a : BitVec 6) (i : BitVec 13) (s : State) : Host.Outcome State Fault Refusal :=
  .next (aluImm c 0x10 true d a i (fun x => rel (x == immS i)) s)
/-- CNEI. -/
def execCnei (c : Nat) (d a : BitVec 6) (i : BitVec 13) (s : State) : Host.Outcome State Fault Refusal :=
  .next (aluImm c 0x11 true d a i (fun x => rel (x != immS i)) s)
/-- CLTI. -/
def execClti (c : Nat) (d a : BitVec 6) (i : BitVec 13) (s : State) : Host.Outcome State Fault Refusal :=
  .next (aluImm c 0x12 true d a i (fun x => rel (decide (x.toInt < (immS i).toInt))) s)
/-- CLTUI. -/
def execCltui (c : Nat) (d a : BitVec 6) (i : BitVec 13) (s : State) : Host.Outcome State Fault Refusal :=
  .next (aluImm c 0x13 true d a i (fun x => rel (decide (x.toNat < (immS i).toNat))) s)
/-- CLEI. -/
def execClei (c : Nat) (d a : BitVec 6) (i : BitVec 13) (s : State) : Host.Outcome State Fault Refusal :=
  .next (aluImm c 0x14 true d a i (fun x => rel (decide (x.toInt ≤ (immS i).toInt))) s)
/-- CLEUI. -/
def execCleui (c : Nat) (d a : BitVec 6) (i : BitVec 13) (s : State) : Host.Outcome State Fault Refusal :=
  .next (aluImm c 0x15 true d a i (fun x => rel (decide (x.toNat ≤ (immS i).toNat))) s)

/-- LUI: G[d] ← sext(imm19) << 13. -/
def execLui (c : Nat) (d : BitVec 6) (i : BitVec 19) (s : State) : Host.Outcome State Fault Refusal :=
  .next (issue c (plain (wordB 0x18 d i)) (fun c s => .done (putReg c d.toNat ((i.signExtend 64) <<< 13) s)) s)

end Sys2Proof.Machine
end

