-- ==== Sys2Proof/Machine/PacerDec.lean ====
section
/-! DEFINITION. The Pacer's decimal instructions (R273–R275). -/

namespace Sys2Proof.Machine

/-- Nibble `i` (R273). -/
def nibble (v : W64) (i : Nat) : Nat := natBits v.toNat (4 * i) 4

/-- The value whose nibbles, lowest first, are given. -/
def fromNibbles (ds : List Nat) : W64 := n64 (ds.zipIdx.map (fun p => p.1 % 16 * 2 ^ (4 * p.2))).sum

/-- Bit `i` set where nibble `i` is no digit. -/
def badNibbles (v : W64) : Nat := ((List.range 16).map (fun i => if 10 ≤ nibble v i then 2 ^ i else 0)).sum

/-- Carries c₀ to c₁₆ of a digit rule that gives the next carry of (a_i, b_i, c_i). -/
def carries (f : Int → Bool) (g : Nat → Nat → Nat → Int) (x y : W64) : List Nat :=
  (List.range 16).foldl (fun cs i => cs ++ [b2n (f (g (nibble x i) (nibble y i) (cs.getD i 0)))]) [0]

/-- The sum and the difference of a place. -/
def placeAdd (a b c : Nat) : Int := a + b + c
def placeSub (a b c : Nat) : Int := (a : Int) - b - c

/-- Carries of DADD and of DSUB. -/
def addCarries (x y : W64) : List Nat := carries (fun t => decide (10 ≤ t)) placeAdd x y
def subCarries (x y : W64) : List Nat := carries (fun t => decide (t < 0)) placeSub x y

/-- DADD. -/
def dadd (x y : W64) : W64 :=
  let cs := addCarries x y
  fromNibbles ((List.range 16).map (fun i =>
    ((placeAdd (nibble x i) (nibble y i) (cs.getD i 0) - 10 * (cs.getD (i + 1) 0 : Nat)) % 16).toNat))

/-- DSUB. -/
def dsub (x y : W64) : W64 :=
  let cs := subCarries x y
  fromNibbles ((List.range 16).map (fun i =>
    ((placeSub (nibble x i) (nibble y i) (cs.getD i 0) + 10 * (cs.getD (i + 1) 0 : Nat)) % 16).toNat))

/-- DADDM. -/
def daddm (x y : W64) : W64 := fromNibbles ((List.range 16).map (fun i => (nibble x i + nibble y i) % 10))

/-- DADJ. -/
def dadj (x : W64) : W64 := fromNibbles ((List.range 16).map (fun i => if 10 ≤ nibble x i then nibble x i - 10 else nibble x i))

/-- DDEC: nibble number a_i of G[b]. -/
def ddec (x y : W64) : W64 := fromNibbles ((List.range 16).map (fun i => nibble y (nibble x i)))

/-- DCVB. -/
def dcvb (x : W64) : W64 := n64 ((List.range 16).map (fun i => nibble x i * 10 ^ i)).sum

/-- DCVD. -/
def dcvd (x : W64) : W64 := fromNibbles ((List.range 16).map (fun i => x.toNat % 10 ^ 16 / 10 ^ i % 10))

/-- WINFO of cause 0x0A (R274). -/
def decimalInfo (x y : W64) (cx cy : Bool) : Nat := (if cx then badNibbles x else 0) + (if cy then badNibbles y * 2 ^ 16 else 0)

/-- A decimal instruction: `cx` and `cy` say which operands are checked under DTRAP (R274). -/
def decimal (c fn : Nat) (legal cx cy : Bool) (d a b : BitVec 6) (f : W64 → W64 → W64) (s : State) : State :=
  issue c { plain (wordR 0x04 fn d a b) with legal := legal } (fun c s =>
    let k := getCore s c
    let x := k.getG a.toNat
    let y := k.getG b.toNat
    let w := decimalInfo x y cx cy
    if k.dtrap ∧ w ≠ 0 then .raise 0x0A (n64 w) 0 s else .done (putReg c d.toNat (f x y) s)) s

def execDadd (c : Nat) (d a b : BitVec 6) (s : State) : Host.Outcome State Fault Refusal :=
  .next (decimal c 0x00 true true true d a b dadd s)
def execDsub (c : Nat) (d a b : BitVec 6) (s : State) : Host.Outcome State Fault Refusal :=
  .next (decimal c 0x01 true true true d a b dsub s)
/-- DCRY.A. -/
def execDcryA (c : Nat) (d a b : BitVec 6) (s : State) : Host.Outcome State Fault Refusal :=
  .next (decimal c 0x02 true true true d a b (fun x y => n64 ((addCarries x y).getD 16 0)) s)
/-- DCRY.S. -/
def execDcryS (c : Nat) (d a b : BitVec 6) (s : State) : Host.Outcome State Fault Refusal :=
  .next (decimal c 0x03 true true true d a b (fun x y => n64 ((subCarries x y).getD 16 0)) s)
def execDaddm (c : Nat) (d a b : BitVec 6) (s : State) : Host.Outcome State Fault Refusal :=
  .next (decimal c 0x04 true true true d a b daddm s)
def execDadj (c : Nat) (d a b : BitVec 6) (s : State) : Host.Outcome State Fault Refusal :=
  .next (decimal c 0x05 (b == 0) false false d a b (fun x _ => dadj x) s)
def execDval (c : Nat) (d a b : BitVec 6) (s : State) : Host.Outcome State Fault Refusal :=
  .next (decimal c 0x06 (b == 0) false false d a b (fun x _ => n64 (b2n (badNibbles x == 0))) s)
def execDdec (c : Nat) (d a b : BitVec 6) (s : State) : Host.Outcome State Fault Refusal :=
  .next (decimal c 0x07 true false true d a b ddec s)
def execDcvb (c : Nat) (d a b : BitVec 6) (s : State) : Host.Outcome State Fault Refusal :=
  .next (decimal c 0x08 (b == 0) true false d a b (fun x _ => dcvb x) s)
def execDcvd (c : Nat) (d a b : BitVec 6) (s : State) : Host.Outcome State Fault Refusal :=
  .next (decimal c 0x09 (b == 0) false false d a b (fun x _ => dcvd x) s)
/-- DSHL: n in the rb field, 0 to 16. -/
def execDshl (c : Nat) (d a b : BitVec 6) (s : State) : Host.Outcome State Fault Refusal :=
  .next (decimal c 0x0A (decide (b.toNat ≤ 16)) false false d a b (fun x _ => x <<< (4 * b.toNat)) s)
/-- DSHR. -/
def execDshr (c : Nat) (d a b : BitVec 6) (s : State) : Host.Outcome State Fault Refusal :=
  .next (decimal c 0x0B (decide (b.toNat ≤ 16)) false false d a b (fun x _ => x >>> (4 * b.toNat)) s)

end Sys2Proof.Machine
end

