-- ==== Sys2Proof/Machine/PacerStr.lean ====
section
/-! DEFINITION. The Pacer's string instructions, chunk by chunk (R269, R270), and CRCB (R355). -/

namespace Sys2Proof.Machine

/-- SDST, SSRC, SCNT and SPAT (R248). -/
def regDst : Nat := 56
def regSrc : Nat := 57
def regCnt : Nat := 58
def regPat : Nat := 59

/-- One span of a string instruction: its rein register, the register that holds its offset, and the permissions it needs. -/
structure Span where
  rein : Nat
  reg : Nat
  perms : List Nat

/-- The span is written. -/
def Span.wr (p : Span) : Bool := p.perms.contains permStore

/-- Offset of byte `i` of a span. -/
def Span.off (p : Span) (k : Core) (i : Nat) : Nat := (k.getG p.reg + n64 i).toNat

/-- Address of byte `i` of a span. -/
def Span.addr (p : Span) (k : Core) (i : Nat) : Nat := (k.getK p.rein).base + p.off k i

/-- What stops a byte: the cause, WINFO, and the Bridle fault (address, code, write) that it records. -/
structure Stopped where
  cause : Nat
  info : W64
  bridle : Option (Nat × Nat × Bool)

/-- The rein's checks of byte `i` (R255, s = 1); a byte in CSR space has the wrong width (R23). -/
def spanRein (s : State) (c i : Nat) (p : Span) : Option Stopped :=
  let k := getCore s c
  let r := k.getK p.rein
  match accessCause s k.warden r (p.off k i) 1 p.perms with
  | some cause => some { cause := cause, info := reinInfo p.rein 1 (p.off k i) false, bridle := none }
  | none =>
    if isCsr (p.addr k i) then some { cause := 0x05, info := reinInfo p.rein 1 (p.off k i) false, bridle := none } else none

/-- The Bridle unit's judgement of byte `i`: a span that is read and written needs both. -/
def spanBridle (s : State) (c i : Nat) (p : Span) : Option Stopped :=
  let a := p.addr (getCore s c) i
  let judge (wr : Bool) : Option Stopped :=
    (accessCode s (coreAccess s c) wr false a).map (fun code => { cause := 0x06, info := bridleInfo a code wr, bridle := some (a, code, wr) })
  if p.wr && p.perms.contains permLoad then (judge false).orElse (fun _ => judge true) else judge p.wr

/-- Byte `i` of every span: reins first, then the Bridle unit (R270). -/
def byteStop (s : State) (c : Nat) (spans : List Span) (i : Nat) : Option Stopped :=
  (spans.findSome? (spanRein s c i)).orElse (fun _ => spans.findSome? (spanBridle s c i))

/-- Bytes of the next chunk: at most 64, up to the count, and none after the first at a multiple of 64 in either span. -/
def chunkLen (k : Core) (spans : List Span) : Nat :=
  let n := min 64 (k.getG regCnt).toNat
  ((List.range n).find? (fun i => i != 0 && spans.any (fun p => p.addr k i % 64 == 0))).getD n

/-- The bytes of the chunk that pass, and what stops the next one. -/
def chunkPass (s : State) (c : Nat) (spans : List Span) : Nat × Option Stopped :=
  let n := chunkLen (getCore s c) spans
  match (List.range n).findSome? (fun i => (byteStop s c spans i).map (fun x => (i, x))) with
  | some (i, x) => (i, some x)
  | none => (n, none)

/-- Count `n` bytes: the offsets advance and SCNT falls. -/
def advance (c n : Nat) (spans : List Span) (s : State) : State :=
  updCore c (fun k => (spans.foldl (fun k p => k.setG p.reg (k.getG p.reg + n64 n)) k).setG regCnt (k.getG regCnt - n64 n)) s

/-- The end of a chunk: the fault of the byte that did not pass, the end of the instruction, or another chunk. -/
def chunkEnd (c : Nat) (stop : Option Stopped) (s : State) : Res :=
  match stop with
  | some x =>
    .raise x.cause x.info 0 (match x.bridle with
      | some (a, code, wr) => bridleFault (coreAccess s c) wr a code s
      | none => s)
  | none => if (getCore s c).getG regCnt = 0 then .done s else .again s

/-- Read bytes of a span as they stand. -/
def spanBytes (s : State) (k : Core) (p : Span) (n : Nat) : List Byte := (List.range n).map (fun i => plainByte s (p.addr k i))

/-- A chunk over `spans`: earlier stores that it must see come first; the bytes that pass are handed to `perform`, which
gives the state and, where it stops the instruction early, how many bytes it counted. An uncorrectable word stops the core. -/
def strChunk (c : Nat) (spans : List Span) (perform : Nat → State → State × Option Nat) (s0 : State) : Res :=
  if (getCore s0 c).getG regCnt = 0 then .done s0
  else
    let k0 := getCore s0 c
    let s := spans.foldl (fun st p => storesBefore c (p.addr k0 0) (chunkLen k0 spans) st) s0
    let k := getCore s c
    if k.halted then .stop s
    else
      let (n, stop) := chunkPass s c spans
      match spans.find? (fun p => p.perms.contains permLoad && decide (0 < n) && meetsPoison s (p.addr k 0) n) with
      | some p => .stop (fenceCore c 4 (noteUncorrectable (p.addr k 0) s))
      | none =>
        match perform n s with
        | (s1, some m) => .done (advance c m spans s1)
        | (s1, none) => if (getCore s1 c).halted then .stop s1 else chunkEnd c stop (advance c n spans s1)

/-- Write a chunk's bytes; a partial store to a poisoned word fences the core (R18). -/
def chunkWrite (c a : Nat) (bs : List Byte) (s : State) : State :=
  if !isSram a then s
  else
    let (s1, bad) := ramWrite s a bs
    if bad then fenceCore c 4 (noteUncorrectable a s1) else s1

/-- The destination bytes that `f old source` gives, byte by byte in ascending order. -/
def chunkBytes (s : State) (da sa : Nat) (n : Nat) (f : Byte → Byte → Byte) : List Byte :=
  let s1 := (List.range n).foldl (fun st i => putByte st (da + i) (f (plainByte st (da + i)) (plainByte st (sa + i)))) s
  (List.range n).map (fun i => plainByte s1 (da + i))

/-- A string form: it names a rein in rd, in ra, or in both. -/
def formStr (fn : Nat) (d a b : BitVec 6) (useD useA : Bool) : Form :=
  { plain (wordR 0x07 fn d a b) with
    legal := b == 0 && (if useD then reinReg d else d == 0) && (if useA then reinReg a else a == 0),
    names := (if useD then [d.toNat] else []) ++ (if useA then [a.toNat] else []) }

/-- The destination and the source span. -/
def strDst (d : BitVec 6) (perms : List Nat) : Span := { rein := d.toNat, reg := regDst, perms := perms }
def strSrc (a : BitVec 6) : Span := { rein := a.toNat, reg := regSrc, perms := [permLoad] }

/-- MOVB and XORB. -/
def strCombine (c fn : Nat) (d a b : BitVec 6) (perms : List Nat) (f : Byte → Byte → Byte) (s : State) : State :=
  issue c (formStr fn d a b true true) (fun c s =>
    let p := strDst d perms
    let q := strSrc a
    strChunk c [p, q] (fun n s =>
      let k := getCore s c
      if n = 0 then (s, none) else (chunkWrite c (p.addr k 0) (chunkBytes s (p.addr k 0) (q.addr k 0) n f) s, none)) s) s

/-- MOVB. -/
def execMovb (c : Nat) (d a b : BitVec 6) (s : State) : Host.Outcome State Fault Refusal :=
  .next (strCombine c 0x00 d a b [permStore] (fun _ x => x) s)

/-- XORB. -/
def execXorb (c : Nat) (d a b : BitVec 6) (s : State) : Host.Outcome State Fault Refusal :=
  .next (strCombine c 0x04 d a b [permLoad, permStore] (fun y x => y ^^^ x) s)

/-- CMPB: SPAT says how the first differing bytes compare; 0 where there is none. -/
def execCmpb (c : Nat) (d a b : BitVec 6) (s : State) : Host.Outcome State Fault Refusal :=
  .next (issue c (formStr 0x01 d a b true true) (fun c s =>
    let p := strDst d [permLoad]
    let q := strSrc a
    if (getCore s c).getG regCnt = 0 then .done (putReg c regPat 0 s)
    else
      strChunk c [p, q] (fun n s =>
        let k := getCore s c
        let x := spanBytes s k p n
        let y := spanBytes s k q n
        match (List.range n).find? (fun i => x.getD i 0 != y.getD i 0) with
        | some i => (putReg c regPat (if (y.getD i 0).toNat < (x.getD i 0).toNat then 1 else -1) s, some i)
        | none => (if n = (k.getG regCnt).toNat then putReg c regPat 0 s else s, none)) s) s)

/-- SCANB: stops at the first byte equal to SPAT[7:0]. -/
def execScanb (c : Nat) (d a b : BitVec 6) (s : State) : Host.Outcome State Fault Refusal :=
  .next (issue c (formStr 0x02 d a b false true) (fun c s =>
    let q := strSrc a
    strChunk c [q] (fun n s =>
      let k := getCore s c
      let x := spanBytes s k q n
      match (List.range n).find? (fun i => x.getD i 0 == (k.getG regPat).setWidth 8) with
      | some i => (s, some i)
      | none => (s, none)) s) s)

/-- FILLB. -/
def execFillb (c : Nat) (d a b : BitVec 6) (s : State) : Host.Outcome State Fault Refusal :=
  .next (issue c (formStr 0x03 d a b true false) (fun c s =>
    let p := strDst d [permStore]
    strChunk c [p] (fun n s =>
      let k := getCore s c
      if n = 0 then (s, none)
      else (chunkWrite c (p.addr k 0) (List.replicate n ((k.getG regPat).setWidth 8)) s, none)) s) s)

/-- Why CRCB's unit rein fails: tag, generation, then R354; a sealed rein cannot be cited (R282). -/
def crcCause (s : State) (r : Rein) : Option Nat :=
  if !r.tag then some 0x02
  else if !r.genOk s then some 0x12
  else if r.isSealed || cvRefused s r then some 0x04
  else none

/-- CRCB: while a scan runs on the unit the chunk waits (R355). -/
def execCrcb (c : Nat) (d a b : BitVec 6) (s : State) : Host.Outcome State Fault Refusal :=
  let f : Form := { plain (wordR 0x07 0x05 d a b) with legal := d == 0 && reinReg a && reinReg b, names := [a.toNat, b.toNat] }
  .next (issue c f (fun c s =>
    let q := strSrc a
    let r := (getCore s c).getK b.toNat
    if (getCore s c).getG regCnt = 0 then .done s
    else
      match crcCause s r with
      | some cause => reinFail cause b.toNat s
      | none =>
        let u := (cvUnitOf r).getD 0
        if cvBusy s u then .again s
        else strChunk c [q] (fun n s => (cvFeed u (spanBytes s (getCore s c) q n) s, none)) s) s)

end Sys2Proof.Machine
end

