-- ==== Sys2Proof/Machine/Stride.lean ====
section
/-! DEFINITION. The stride boundary and the frame boundary (R31, R41): what runs in the stride that ends, and what takes
effect as the next one begins. -/

namespace Sys2Proof.Machine

/-- The alert tree's message of the stride that ends: vector 0 of the physical function (R455). -/
def alertMessage (s : State) : State :=
  let s1 := { s with al := { s.al with rose := false } }
  if s.al.rose then sendVector 0 0 s1 else s1

/-- What the units do in the stride that ends, with the faults that show in it (R45, R62, R120, R356, R465); no unit runs
while a SHED wipes (R407). -/
def strideWork (fs : List HwFault) (s : State) : State :=
  let s1 := if s.shedding then s else countStops (snapReads (cvSlices fs (pkeSlicesRun fs (cipherSlices fs s))))
  { s1 with us := { s1.us with overruns := [] } }

/-- The end of a stride: work, the completions that are due and not yet written (R221), notices, the alert tree's message. -/
def strideEnd (fs : List HwFault) (s : State) : State := alertMessage (pushNotices (flushCompletions (strideWork fs s)))

/-- Fences and cuts at the boundary, and the units that move at it (R80, R81, R127, R132, R358, R468, R469). -/
def unitEffects (s : State) : State :=
  standbyTakeover (unitsBoundary (pkeFences (cipherFences (cvCuts (pkeCuts (cipherCuts s))))))

/-- Doorbells, leavings, aborts, writes of a quorum act, retired tacks, changed BREAKOUT, waiting journal records, new bounds (R89, R147, R151, R194, R198,
R216, R230). -/
def recordEffects (s : State) : State :=
  let s1 := ilBoundary (retireBoundary (quorumBoundary (cinchBoundary (stableBoundary (serveDoorbells s)))))
  (s1.tk.tacks.map (fun e => e.1)).foldl (fun st h => leaseCheck h st) (flushJournal s1)

/-- The stride tick comes up on every core (R292, R302). -/
def raiseTicks (s : State) : State := (List.range 26).foldl (fun st c => setPend c 0 st) s

/-- ALERT_N at a stride boundary (R455): not driven while POR_N is low or on the cell. -/
def drivePin (s : State) : State :=
  { s with al := { s.al with
    pin := !s.pm.porLow && !s.pm.onCell && (s.al.force || (s.summary &&& s.al.pinen) != 0) } }

/-- The next stride begins: its number, what takes effect at a boundary, and then a frame's boundary if one begins: its shares are
scaled to the units in service once a spare has taken over (R44). -/
def strideBegin (s : State) : State :=
  let s1 := unitEffects (recordEffects (advanceTime s))
  let s2 := if frameDue s1 then frameEffects s1 else s1
  drivePin (noteDisagree (raiseTicks (bootRun 8 (retryWaits s2))))

/-- STRIDE_BOUNDARY: during a flush only time goes on (R482). -/
def execStrideBoundary (faults : List HwFault) (s : State) : Host.Outcome State Fault Refusal :=
  if !stridesRun s then .next s
  else if s.pm.flushing then .next (advanceTime s)
  else .next (strideBegin (strideEnd faults s))

/-- FRAME_BOUNDARY: the first stride of a frame has begun and its effects are not in force yet. -/
def execFrameBoundary (s : State) : Host.Outcome State Fault Refusal :=
  if stridesRun s && frameDue s then .next (frameEffects s) else .next s

end Sys2Proof.Machine
end

