-- ==== Sys2Proof/Machine/Words.lean ====
section
/-! DEFINITION. A Pacer executes the word that memory holds at its PC: R253 and R254, and the debug session's STEP (R430). -/

namespace Sys2Proof.Machine

/-- The meaning of a Pacer instruction. -/
def runInstr (i : Instr) (s : State) : Host.Outcome State Fault Refusal :=
  match i with
  | .ld8 core r k a imm => execLd8 core r k a imm s
  | .ld16 core r k a imm => execLd16 core r k a imm s
  | .ld32 core r k a imm => execLd32 core r k a imm s
  | .ld64 core r k a imm => execLd64 core r k a imm s
  | .lds8 core r k a imm => execLds8 core r k a imm s
  | .lds16 core r k a imm => execLds16 core r k a imm s
  | .lds32 core r k a imm => execLds32 core r k a imm s
  | .st8 core r k a imm => execSt8 core r k a imm s
  | .st16 core r k a imm => execSt16 core r k a imm s
  | .st32 core r k a imm => execSt32 core r k a imm s
  | .st64 core r k a imm => execSt64 core r k a imm s
  | .kld core r k a imm => execKld core r k a imm s
  | .kst core r k a imm => execKst core r k a imm s
  | .opAdd core d a b => execOpAdd core d a b s
  | .opSub core d a b => execOpSub core d a b s
  | .opAnd core d a b => execOpAnd core d a b s
  | .opOr core d a b => execOpOr core d a b s
  | .opXor core d a b => execOpXor core d a b s
  | .andn core d a b => execAndn core d a b s
  | .shl core d a b => execShl core d a b s
  | .shr core d a b => execShr core d a b s
  | .sar core d a b => execSar core d a b s
  | .rol core d a b => execRol core d a b s
  | .ror core d a b => execRor core d a b s
  | .opMin core d a b => execOpMin core d a b s
  | .opMax core d a b => execOpMax core d a b s
  | .minu core d a b => execMinu core d a b s
  | .maxu core d a b => execMaxu core d a b s
  | .clz core d a b => execClz core d a b s
  | .popc core d a b => execPopc core d a b s
  | .bswap core d a b => execBswap core d a b s
  | .mul core d a b => execMul core d a b s
  | .mulh core d a b => execMulh core d a b s
  | .mulhu core d a b => execMulhu core d a b s
  | .div core d a b => execDiv core d a b s
  | .divu core d a b => execDivu core d a b s
  | .rem core d a b => execRem core d a b s
  | .remu core d a b => execRemu core d a b s
  | .ceq core d a b => execCeq core d a b s
  | .cne core d a b => execCne core d a b s
  | .clt core d a b => execClt core d a b s
  | .cltu core d a b => execCltu core d a b s
  | .cle core d a b => execCle core d a b s
  | .cleu core d a b => execCleu core d a b s
  | .addi core d a imm => execAddi core d a imm s
  | .andi core d a imm => execAndi core d a imm s
  | .ori core d a imm => execOri core d a imm s
  | .xori core d a imm => execXori core d a imm s
  | .shli core d a imm => execShli core d a imm s
  | .shri core d a imm => execShri core d a imm s
  | .sari core d a imm => execSari core d a imm s
  | .ceqi core d a imm => execCeqi core d a imm s
  | .cnei core d a imm => execCnei core d a imm s
  | .clti core d a imm => execClti core d a imm s
  | .cltui core d a imm => execCltui core d a imm s
  | .clei core d a imm => execClei core d a imm s
  | .cleui core d a imm => execCleui core d a imm s
  | .lui core a imm => execLui core a imm s
  | .bz core a imm => execBz core a imm s
  | .bnz core a imm => execBnz core a imm s
  | .loop core a imm => execLoop core a imm s
  | .jmp core disp => execJmp core disp s
  | .call core disp => execCall core disp s
  | .ret core d a b => execRet core d a b s
  | .jmpr core d a b => execJmpr core d a b s
  | .trap core d a b => execTrap core d a b s
  | .brk core d a b => execBrk core d a b s
  | .wret core d a b => execWret core d a b s
  | .push core d a b => execPush core d a b s
  | .pop core d a b => execPop core d a b s
  | .sync core d a b => execSync core d a b s
  | .wait core d a b => execWait core d a b s
  | .mfs core d a imm => execMfs core d a imm s
  | .mts core d a imm => execMts core d a imm s
  | .kmov core d a b => execKmov core d a b s
  | .kbound core d a b => execKbound core d a b s
  | .kperm core d a b => execKperm core d a b s
  | .kbase core d a b => execKbase core d a b s
  | .klen core d a b => execKlen core d a b s
  | .kinfo core d a b => execKinfo core d a b s
  | .kclr core d a b => execKclr core d a b s
  | .kseal core d a b => execKseal core d a b s
  | .kunseal core d a b => execKunseal core d a b s
  | .enter core d a b => execEnter core d a b s
  | .movb core d a b => execMovb core d a b s
  | .cmpb core d a b => execCmpb core d a b s
  | .scanb core d a b => execScanb core d a b s
  | .fillb core d a b => execFillb core d a b s
  | .xorb core d a b => execXorb core d a b s
  | .crcb core d a b => execCrcb core d a b s
  | .dadd core d a b => execDadd core d a b s
  | .dsub core d a b => execDsub core d a b s
  | .dcryA core d a b => execDcryA core d a b s
  | .dcryS core d a b => execDcryS core d a b s
  | .daddm core d a b => execDaddm core d a b s
  | .dadj core d a b => execDadj core d a b s
  | .dval core d a b => execDval core d a b s
  | .ddec core d a b => execDdec core d a b s
  | .dcvb core d a b => execDcvb core d a b s
  | .dcvd core d a b => execDcvd core d a b s
  | .dshl core d a b => execDshl core d a b s
  | .dshr core d a b => execDshr core d a b s
  | _ => .next s

/-- Core `c` executes a word: its instruction, or cause 0x01 without effect where no table assigns the word (R254). -/
def runWord (c : Nat) (w : W32) (s : State) : Host.Outcome State Fault Refusal :=
  match decodeWord c w with
  | some i => runInstr i s
  | none => .next (issue c { plain w with legal := false } (fun _ s => .done s) s)

/-- The word that memory holds at core `c`'s PC. -/
def wordAtPc (c : Nat) (s : State) : W32 :=
  BitVec.ofNat 32 (leToNat ((List.range 4).map (fun i => plainByte s ((getCore s c).pc + i))))

/-- Core `c`, though halted, may issue one instruction. -/
def allowStep (c : Nat) (s : State) : State := { s with lc := { s.lc with steps := Tab.set false s.lc.steps c true } }

/-- DEBUG_STEP: a halted core executes one instruction, or one chunk of a string instruction: the word at its PC (R430). -/
def execDebugStep (c : Nat) (s : State) : Host.Outcome State Fault Refusal :=
  if hasRight s 1 && isHalted s c then runWord c (wordAtPc c s) (allowStep c s)
  else .next (dbgDenied true 0 0 s)

end Sys2Proof.Machine
end

