-- ==== Sys2Proof/Machine/Dispatch.lean ====
section
/-! DEFINITION. What each command does: one call of its meaning for each constructor. -/

namespace Sys2Proof.Machine

def exec (i : Instr) (s : State) : Host.Outcome State Fault Refusal :=
  match i with
  | .strideBoundary faults => Sys2Proof.Machine.execStrideBoundary faults s
  | .frameBoundary => Sys2Proof.Machine.execFrameBoundary s
  | .ptpSync src seq twoStep origin ingress corr => Sys2Proof.Machine.execPtpSync src seq twoStep origin ingress corr s
  | .ptpFollowUp src seq origin corr => Sys2Proof.Machine.execPtpFollowUp src seq origin corr s
  | .ptpDelayResp src seq receive corr => Sys2Proof.Machine.execPtpDelayResp src seq receive corr s
  | .delayReqSend seq egress => Sys2Proof.Machine.execDelayReqSend seq egress s
  | .ptpAnnounce src data utc utcValid => Sys2Proof.Machine.execPtpAnnounce src data utc utcValid s
  | .ptpPdelayReq dom seq stay => Sys2Proof.Machine.execPtpPdelayReq dom seq stay s
  | .ptpPdelayResp src seq part time corr => Sys2Proof.Machine.execPtpPdelayResp src seq part time corr s
  | .masterLoss => Sys2Proof.Machine.execMasterLoss s
  | .reacquire => Sys2Proof.Machine.execReacquire s
  | .backupCounterCopy => Sys2Proof.Machine.execBackupCounterCopy s
  | .ppsRise => Sys2Proof.Machine.execPpsRise s
  | .ppsFall => Sys2Proof.Machine.execPpsFall s
  | .shareWrite core val => Sys2Proof.Machine.execShareWrite core val s
  | .unitOverrun pool unit => Sys2Proof.Machine.execUnitOverrun pool unit s
  | .registerWrite src addr width val => Sys2Proof.Machine.execRegisterWrite src addr width val s
  | .resultDoneRead core addr => Sys2Proof.Machine.execResultDoneRead core addr s
  | .dieLinkTransfer auth addr val => Sys2Proof.Machine.execDieLinkTransfer auth addr val s
  | .sramScrub bad corrected => Sys2Proof.Machine.execSramScrub bad corrected s
  | .cipherJob src => Sys2Proof.Machine.execCipherJob src s
  | .cipherJobComplete src => Sys2Proof.Machine.execCipherJobComplete src s
  | .cfRsvWrite core val => Sys2Proof.Machine.execCfRsvWrite core val s
  | .cfCtxWrite core val => Sys2Proof.Machine.execCfCtxWrite core val s
  | .stallAlloc src => Sys2Proof.Machine.execStallAlloc src s
  | .stallLoad src => Sys2Proof.Machine.execStallLoad src s
  | .stallArm src => Sys2Proof.Machine.execStallArm src s
  | .stallExpire src => Sys2Proof.Machine.execStallExpire src s
  | .stallRetire src => Sys2Proof.Machine.execStallRetire src s
  | .stallRead src => Sys2Proof.Machine.execStallRead src s
  | .stallCommandComplete src => Sys2Proof.Machine.execStallCommandComplete src s
  | .stallRetiringEnd stall => Sys2Proof.Machine.execStallRetiringEnd stall s
  | .stallWipingEnd stall => Sys2Proof.Machine.execStallWipingEnd stall s
  | .stallWindowExpiry stall => Sys2Proof.Machine.execStallWindowExpiry stall s
  | .stQuotaWrite core val => Sys2Proof.Machine.execStQuotaWrite core val s
  | .expqRead core rd => Sys2Proof.Machine.execExpqRead core rd s
  | .rsaPrivateRaw src => Sys2Proof.Machine.execRsaPrivateRaw src s
  | .rsaPublicRaw src => Sys2Proof.Machine.execRsaPublicRaw src s
  | .rsassaPssSign src => Sys2Proof.Machine.execRsassaPssSign src s
  | .rsassaPkcs1V15Sign src => Sys2Proof.Machine.execRsassaPkcs1V15Sign src s
  | .rsassaPssVerify src => Sys2Proof.Machine.execRsassaPssVerify src s
  | .rsassaPkcs1V15Verify src => Sys2Proof.Machine.execRsassaPkcs1V15Verify src s
  | .rsaesOaepEncrypt src => Sys2Proof.Machine.execRsaesOaepEncrypt src s
  | .rsaesOaepDecrypt src => Sys2Proof.Machine.execRsaesOaepDecrypt src s
  | .modularExponentiation src => Sys2Proof.Machine.execModularExponentiation src s
  | .ffdh src => Sys2Proof.Machine.execFfdh src s
  | .ecdsaSign src => Sys2Proof.Machine.execEcdsaSign src s
  | .ecdsaVerify src => Sys2Proof.Machine.execEcdsaVerify src s
  | .ecdh src => Sys2Proof.Machine.execEcdh src s
  | .eddsaSign src => Sys2Proof.Machine.execEddsaSign src s
  | .eddsaVerify src => Sys2Proof.Machine.execEddsaVerify src s
  | .x25519OrX448 src => Sys2Proof.Machine.execX25519OrX448 src s
  | .keyPairCurveOrGroup src => Sys2Proof.Machine.execKeyPairCurveOrGroup src s
  | .keyPairRsa src => Sys2Proof.Machine.execKeyPairRsa src s
  | .pkeJobComplete src => Sys2Proof.Machine.execPkeJobComplete src s
  | .drbgReseed => Sys2Proof.Machine.execDrbgReseed s
  | .entropyHealthFail => Sys2Proof.Machine.execEntropyHealthFail s
  | .pkDiagRead core rd => Sys2Proof.Machine.execPkDiagRead core rd s
  | .cinchOpen src => Sys2Proof.Machine.execCinchOpen src s
  | .cinchStage src => Sys2Proof.Machine.execCinchStage src s
  | .cinchCommit src => Sys2Proof.Machine.execCinchCommit src s
  | .cinchAbort src => Sys2Proof.Machine.execCinchAbort src s
  | .cinchQuery src => Sys2Proof.Machine.execCinchQuery src s
  | .cinchLookup src => Sys2Proof.Machine.execCinchLookup src s
  | .cinchResolve src => Sys2Proof.Machine.execCinchResolve src s
  | .recordStoreAnswer core full => Sys2Proof.Machine.execRecordStoreAnswer core full s
  | .cinchRequestComplete core => Sys2Proof.Machine.execCinchRequestComplete core s
  | .cinchDecision slot => Sys2Proof.Machine.execCinchDecision slot s
  | .journalBatchDurable batch => Sys2Proof.Machine.execJournalBatchDurable batch s
  | .cinchApply slot => Sys2Proof.Machine.execCinchApply slot s
  | .cinchExternalWrite slot answer => Sys2Proof.Machine.execCinchExternalWrite slot answer s
  | .externalWriteEnd slot step answer => Sys2Proof.Machine.execExternalWriteEnd slot step answer s
  | .resolutionEnd slot answer => Sys2Proof.Machine.execResolutionEnd slot answer s
  | .cinchTimeout slot => Sys2Proof.Machine.execCinchTimeout slot s
  | .forceCommit cred => Sys2Proof.Machine.execForceCommit cred s
  | .forceAbort cred => Sys2Proof.Machine.execForceAbort cred s
  | .checkpoint => Sys2Proof.Machine.execCheckpoint s
  | .noteqRead core rd => Sys2Proof.Machine.execNoteqRead core rd s
  | .cnQuotaWrite core hold val => Sys2Proof.Machine.execCnQuotaWrite core hold val s
  | .paddockCreate paddock cred => Sys2Proof.Machine.execPaddockCreate paddock cred s
  | .paddockDelete paddock cred => Sys2Proof.Machine.execPaddockDelete paddock cred s
  | .paddockRevoke paddock cred => Sys2Proof.Machine.execPaddockRevoke paddock cred s
  | .paddockActEffect paddock => Sys2Proof.Machine.execPaddockActEffect paddock s
  | .paddockAbsent paddock => Sys2Proof.Machine.execPaddockAbsent paddock s
  | .tackReserve src => Sys2Proof.Machine.execTackReserve src s
  | .tackInstall src => Sys2Proof.Machine.execTackInstall src s
  | .tackRetire src => Sys2Proof.Machine.execTackRetire src s
  | .tackRestrict src => Sys2Proof.Machine.execTackRestrict src s
  | .tackPin src => Sys2Proof.Machine.execTackPin src s
  | .tackDescribe src => Sys2Proof.Machine.execTackDescribe src s
  | .tackCommandComplete src => Sys2Proof.Machine.execTackCommandComplete src s
  | .reservationExpiry handle => Sys2Proof.Machine.execReservationExpiry handle s
  | .tackFetchComplete handle outcome => Sys2Proof.Machine.execTackFetchComplete handle outcome s
  | .leaseDurable handle => Sys2Proof.Machine.execLeaseDurable handle s
  | .tkMintRead core kd => Sys2Proof.Machine.execTkMintRead core kd s
  | .tkQuotaWrite core vault val => Sys2Proof.Machine.execTkQuotaWrite core vault val s
  | .quorumSplit cred m n dest => Sys2Proof.Machine.execQuorumSplit cred m n dest s
  | .quorumBackup cred slot paddocks record card => Sys2Proof.Machine.execQuorumBackup cred slot paddocks record card s
  | .quorumJoin cred m n expects => Sys2Proof.Machine.execQuorumJoin cred m n expects s
  | .quorumResplit cred scheme dest => Sys2Proof.Machine.execQuorumResplit cred scheme dest s
  | .quorumRestore cred scheme addr enrol record image => Sys2Proof.Machine.execQuorumRestore cred scheme addr enrol record image s
  | .quorumShareReceived place custodian wrapped => Sys2Proof.Machine.execQuorumShareReceived place custodian wrapped s
  | .quorumWindowEnd => Sys2Proof.Machine.execQuorumWindowEnd s
  | .sqDoorbell fn q val => Sys2Proof.Machine.execSqDoorbell fn q val s
  | .cqDoorbell fn q val => Sys2Proof.Machine.execCqDoorbell fn q val s
  | .queueCreate fn => Sys2Proof.Machine.execQueueCreate fn s
  | .queueDelete fn => Sys2Proof.Machine.execQueueDelete fn s
  | .queueReset fn => Sys2Proof.Machine.execQueueReset fn s
  | .queueDrained fn q => Sys2Proof.Machine.execQueueDrained fn q s
  | .descriptorArrival fn q fail => Sys2Proof.Machine.execDescriptorArrival fn q fail s
  | .descriptorAdmit fn q => Sys2Proof.Machine.execDescriptorAdmit fn q s
  | .controlNop fn q seq => Sys2Proof.Machine.execControlNop fn q seq s
  | .controlCancel fn q seq => Sys2Proof.Machine.execControlCancel fn q seq s
  | .notifyCompletion => Sys2Proof.Machine.execNotifyCompletion s
  | .msixMessage fn q => Sys2Proof.Machine.execMsixMessage fn q s
  | .msixUnmask fn v mask => Sys2Proof.Machine.execMsixUnmask fn v mask s
  | .functionLevelReset fn => Sys2Proof.Machine.execFunctionLevelReset fn s
  | .hotReset => Sys2Proof.Machine.execHotReset s
  | .pcieLinkDown => Sys2Proof.Machine.execPcieLinkDown s
  | .perst => Sys2Proof.Machine.execPerst s
  | .functionResetEffect fn => Sys2Proof.Machine.execFunctionResetEffect fn s
  | .functionResetReady fn => Sys2Proof.Machine.execFunctionResetReady fn s
  | .pcieConfigRequest access => Sys2Proof.Machine.execPcieConfigRequest access s
  | .cqAllotWrite core adm val => Sys2Proof.Machine.execCqAllotWrite core adm val s
  | .fwTake core => Sys2Proof.Machine.execFwTake core s
  | .fwPost core slot => Sys2Proof.Machine.execFwPost core slot s
  | .firmwareResultCompletion => Sys2Proof.Machine.execFirmwareResultCompletion s
  | .frameReceived pair sub outbound bytes fcsOk => Sys2Proof.Machine.execFrameReceived pair sub outbound bytes fcsOk s
  | .frameHandoff faults => Sys2Proof.Machine.execFrameHandoff faults s
  | .pauseRepeat pair outbound => Sys2Proof.Machine.execPauseRepeat pair outbound s
  | .pauseReceived pair sub outbound quanta => Sys2Proof.Machine.execPauseReceived pair sub outbound quanta s
  | .frameEgress pair sub outbound => Sys2Proof.Machine.execFrameEgress pair sub outbound s
  | .portLinkChange pair system sub up => Sys2Proof.Machine.execPortLinkChange pair system sub up s
  | .ilPortcfgWrite core pair val => Sys2Proof.Machine.execIlPortcfgWrite core pair val s
  | .ld8 core r k a imm => Sys2Proof.Machine.execLd8 core r k a imm s
  | .ld16 core r k a imm => Sys2Proof.Machine.execLd16 core r k a imm s
  | .ld32 core r k a imm => Sys2Proof.Machine.execLd32 core r k a imm s
  | .ld64 core r k a imm => Sys2Proof.Machine.execLd64 core r k a imm s
  | .lds8 core r k a imm => Sys2Proof.Machine.execLds8 core r k a imm s
  | .lds16 core r k a imm => Sys2Proof.Machine.execLds16 core r k a imm s
  | .lds32 core r k a imm => Sys2Proof.Machine.execLds32 core r k a imm s
  | .st8 core r k a imm => Sys2Proof.Machine.execSt8 core r k a imm s
  | .st16 core r k a imm => Sys2Proof.Machine.execSt16 core r k a imm s
  | .st32 core r k a imm => Sys2Proof.Machine.execSt32 core r k a imm s
  | .st64 core r k a imm => Sys2Proof.Machine.execSt64 core r k a imm s
  | .storePerformed core => Sys2Proof.Machine.execStorePerformed core s
  | .kld core r k a imm => Sys2Proof.Machine.execKld core r k a imm s
  | .kst core r k a imm => Sys2Proof.Machine.execKst core r k a imm s
  | .opAdd core d a b => Sys2Proof.Machine.execOpAdd core d a b s
  | .opSub core d a b => Sys2Proof.Machine.execOpSub core d a b s
  | .opAnd core d a b => Sys2Proof.Machine.execOpAnd core d a b s
  | .opOr core d a b => Sys2Proof.Machine.execOpOr core d a b s
  | .opXor core d a b => Sys2Proof.Machine.execOpXor core d a b s
  | .andn core d a b => Sys2Proof.Machine.execAndn core d a b s
  | .shl core d a b => Sys2Proof.Machine.execShl core d a b s
  | .shr core d a b => Sys2Proof.Machine.execShr core d a b s
  | .sar core d a b => Sys2Proof.Machine.execSar core d a b s
  | .rol core d a b => Sys2Proof.Machine.execRol core d a b s
  | .ror core d a b => Sys2Proof.Machine.execRor core d a b s
  | .opMin core d a b => Sys2Proof.Machine.execOpMin core d a b s
  | .opMax core d a b => Sys2Proof.Machine.execOpMax core d a b s
  | .minu core d a b => Sys2Proof.Machine.execMinu core d a b s
  | .maxu core d a b => Sys2Proof.Machine.execMaxu core d a b s
  | .clz core d a b => Sys2Proof.Machine.execClz core d a b s
  | .popc core d a b => Sys2Proof.Machine.execPopc core d a b s
  | .bswap core d a b => Sys2Proof.Machine.execBswap core d a b s
  | .mul core d a b => Sys2Proof.Machine.execMul core d a b s
  | .mulh core d a b => Sys2Proof.Machine.execMulh core d a b s
  | .mulhu core d a b => Sys2Proof.Machine.execMulhu core d a b s
  | .div core d a b => Sys2Proof.Machine.execDiv core d a b s
  | .divu core d a b => Sys2Proof.Machine.execDivu core d a b s
  | .rem core d a b => Sys2Proof.Machine.execRem core d a b s
  | .remu core d a b => Sys2Proof.Machine.execRemu core d a b s
  | .ceq core d a b => Sys2Proof.Machine.execCeq core d a b s
  | .cne core d a b => Sys2Proof.Machine.execCne core d a b s
  | .clt core d a b => Sys2Proof.Machine.execClt core d a b s
  | .cltu core d a b => Sys2Proof.Machine.execCltu core d a b s
  | .cle core d a b => Sys2Proof.Machine.execCle core d a b s
  | .cleu core d a b => Sys2Proof.Machine.execCleu core d a b s
  | .addi core d a imm => Sys2Proof.Machine.execAddi core d a imm s
  | .andi core d a imm => Sys2Proof.Machine.execAndi core d a imm s
  | .ori core d a imm => Sys2Proof.Machine.execOri core d a imm s
  | .xori core d a imm => Sys2Proof.Machine.execXori core d a imm s
  | .shli core d a imm => Sys2Proof.Machine.execShli core d a imm s
  | .shri core d a imm => Sys2Proof.Machine.execShri core d a imm s
  | .sari core d a imm => Sys2Proof.Machine.execSari core d a imm s
  | .ceqi core d a imm => Sys2Proof.Machine.execCeqi core d a imm s
  | .cnei core d a imm => Sys2Proof.Machine.execCnei core d a imm s
  | .clti core d a imm => Sys2Proof.Machine.execClti core d a imm s
  | .cltui core d a imm => Sys2Proof.Machine.execCltui core d a imm s
  | .clei core d a imm => Sys2Proof.Machine.execClei core d a imm s
  | .cleui core d a imm => Sys2Proof.Machine.execCleui core d a imm s
  | .lui core a imm => Sys2Proof.Machine.execLui core a imm s
  | .bz core a imm => Sys2Proof.Machine.execBz core a imm s
  | .bnz core a imm => Sys2Proof.Machine.execBnz core a imm s
  | .loop core a imm => Sys2Proof.Machine.execLoop core a imm s
  | .jmp core disp => Sys2Proof.Machine.execJmp core disp s
  | .call core disp => Sys2Proof.Machine.execCall core disp s
  | .ret core d a b => Sys2Proof.Machine.execRet core d a b s
  | .jmpr core d a b => Sys2Proof.Machine.execJmpr core d a b s
  | .trap core d a b => Sys2Proof.Machine.execTrap core d a b s
  | .brk core d a b => Sys2Proof.Machine.execBrk core d a b s
  | .wret core d a b => Sys2Proof.Machine.execWret core d a b s
  | .push core d a b => Sys2Proof.Machine.execPush core d a b s
  | .pop core d a b => Sys2Proof.Machine.execPop core d a b s
  | .sync core d a b => Sys2Proof.Machine.execSync core d a b s
  | .wait core d a b => Sys2Proof.Machine.execWait core d a b s
  | .mfs core d a imm => Sys2Proof.Machine.execMfs core d a imm s
  | .mts core d a imm => Sys2Proof.Machine.execMts core d a imm s
  | .kmov core d a b => Sys2Proof.Machine.execKmov core d a b s
  | .kbound core d a b => Sys2Proof.Machine.execKbound core d a b s
  | .kperm core d a b => Sys2Proof.Machine.execKperm core d a b s
  | .kbase core d a b => Sys2Proof.Machine.execKbase core d a b s
  | .klen core d a b => Sys2Proof.Machine.execKlen core d a b s
  | .kinfo core d a b => Sys2Proof.Machine.execKinfo core d a b s
  | .kclr core d a b => Sys2Proof.Machine.execKclr core d a b s
  | .kseal core d a b => Sys2Proof.Machine.execKseal core d a b s
  | .kunseal core d a b => Sys2Proof.Machine.execKunseal core d a b s
  | .enter core d a b => Sys2Proof.Machine.execEnter core d a b s
  | .movb core d a b => Sys2Proof.Machine.execMovb core d a b s
  | .cmpb core d a b => Sys2Proof.Machine.execCmpb core d a b s
  | .scanb core d a b => Sys2Proof.Machine.execScanb core d a b s
  | .fillb core d a b => Sys2Proof.Machine.execFillb core d a b s
  | .xorb core d a b => Sys2Proof.Machine.execXorb core d a b s
  | .crcb core d a b => Sys2Proof.Machine.execCrcb core d a b s
  | .dadd core d a b => Sys2Proof.Machine.execDadd core d a b s
  | .dsub core d a b => Sys2Proof.Machine.execDsub core d a b s
  | .dcryA core d a b => Sys2Proof.Machine.execDcryA core d a b s
  | .dcryS core d a b => Sys2Proof.Machine.execDcryS core d a b s
  | .daddm core d a b => Sys2Proof.Machine.execDaddm core d a b s
  | .dadj core d a b => Sys2Proof.Machine.execDadj core d a b s
  | .dval core d a b => Sys2Proof.Machine.execDval core d a b s
  | .ddec core d a b => Sys2Proof.Machine.execDdec core d a b s
  | .dcvb core d a b => Sys2Proof.Machine.execDcvb core d a b s
  | .dcvd core d a b => Sys2Proof.Machine.execDcvd core d a b s
  | .dshl core d a b => Sys2Proof.Machine.execDshl core d a b s
  | .dshr core d a b => Sys2Proof.Machine.execDshr core d a b s
  | .interruptTaken core monitor => Sys2Proof.Machine.execInterruptTaken core monitor s
  | .impreciseFaultTaken core => Sys2Proof.Machine.execImpreciseFaultTaken core s
  | .timerExpiry core => Sys2Proof.Machine.execTimerExpiry core s
  | .maskBudgetExceeded core cycles => Sys2Proof.Machine.execMaskBudgetExceeded core cycles s
  | .pcFenceWrite core val => Sys2Proof.Machine.execPcFenceWrite core val s
  | .wardenMessage core target val => Sys2Proof.Machine.execWardenMessage core target val s
  | .spillWrite core target tag bits => Sys2Proof.Machine.execSpillWrite core target tag bits s
  | .returnStackClear core target => Sys2Proof.Machine.execReturnStackClear core target s
  | .monitorYield core => Sys2Proof.Machine.execMonitorYield core s
  | .monitorResume core => Sys2Proof.Machine.execMonitorResume core s
  | .monitorDoors core => Sys2Proof.Machine.execMonitorDoors core s
  | .monitorSend core => Sys2Proof.Machine.execMonitorSend core s
  | .monitorKeyrein core => Sys2Proof.Machine.execMonitorKeyrein core s
  | .regionWrite warden unit rgn width val => Sys2Proof.Machine.execRegionWrite warden unit rgn width val s
  | .norProgramDone addr val ecc loops => Sys2Proof.Machine.execNorProgramDone addr val ecc loops s
  | .norEraseDone sector loops => Sys2Proof.Machine.execNorEraseDone sector loops s
  | .nandProgramDone pca data loops failed slot => Sys2Proof.Machine.execNandProgramDone pca data loops failed slot s
  | .nandEraseDone stack blk slc loops failed => Sys2Proof.Machine.execNandEraseDone stack blk slc loops failed s
  | .nandReadDone pca corrected ok rebuilt erasing => Sys2Proof.Machine.execNandReadDone pca corrected ok rebuilt erasing s
  | .stageMigration index entry => Sys2Proof.Machine.execStageMigration index entry s
  | .stackLost stack rewritten => Sys2Proof.Machine.execStackLost stack rewritten s
  | .rawRead core rd => Sys2Proof.Machine.execRawRead core rd s
  | .cvuConfig core => Sys2Proof.Machine.execCvuConfig core s
  | .cvuReset core => Sys2Proof.Machine.execCvuReset core s
  | .cvuRead core mismatch => Sys2Proof.Machine.execCvuRead core mismatch s
  | .scanGen core => Sys2Proof.Machine.execScanGen core s
  | .scanCheck core => Sys2Proof.Machine.execScanCheck core s
  | .cvuRequestComplete core => Sys2Proof.Machine.execCvuRequestComplete core s
  | .cvOwnWrite core unit val => Sys2Proof.Machine.execCvOwnWrite core unit val s
  | .mcDetectChange slot level => Sys2Proof.Machine.execMcDetectChange slot level s
  | .mcInsert slot => Sys2Proof.Machine.execMcInsert slot s
  | .mcInitComplete slot card => Sys2Proof.Machine.execMcInitComplete slot card s
  | .mcRemove slot => Sys2Proof.Machine.execMcRemove slot s
  | .mcBusyTimeout slot => Sys2Proof.Machine.execMcBusyTimeout slot s
  | .mcRead slot => Sys2Proof.Machine.execMcRead slot s
  | .mcWrite slot => Sys2Proof.Machine.execMcWrite slot s
  | .rpmbCounter slot => Sys2Proof.Machine.execRpmbCounter slot s
  | .rpmbRead slot => Sys2Proof.Machine.execRpmbRead slot s
  | .rpmbKeyprog slot => Sys2Proof.Machine.execRpmbKeyprog slot s
  | .scActivate iface => Sys2Proof.Machine.execScActivate iface s
  | .scApdu iface => Sys2Proof.Machine.execScApdu iface s
  | .scDeactivate iface => Sys2Proof.Machine.execScDeactivate iface s
  | .scInsert iface => Sys2Proof.Machine.execScInsert iface s
  | .scRemove iface => Sys2Proof.Machine.execScRemove iface s
  | .scResponseTimeout iface => Sys2Proof.Machine.execScResponseTimeout iface s
  | .cardExchangeComplete slot answer => Sys2Proof.Machine.execCardExchangeComplete slot answer s
  | .csMeasure level baseline field => Sys2Proof.Machine.execCsMeasure level baseline field s
  | .nfPoll => Sys2Proof.Machine.execNfPoll s
  | .nfActivate => Sys2Proof.Machine.execNfActivate s
  | .nfApdu => Sys2Proof.Machine.execNfApdu s
  | .nfDeactivate => Sys2Proof.Machine.execNfDeactivate s
  | .fieldCollapse driver => Sys2Proof.Machine.execFieldCollapse driver s
  | .nfResponseTimeout => Sys2Proof.Machine.execNfResponseTimeout s
  | .fieldResetEnd => Sys2Proof.Machine.execFieldResetEnd s
  | .nfExchangeComplete answer => Sys2Proof.Machine.execNfExchangeComplete answer s
  | .witnessWake => Sys2Proof.Machine.execWitnessWake s
  | .witnessReqa => Sys2Proof.Machine.execWitnessReqa s
  | .witnessAnticollision level => Sys2Proof.Machine.execWitnessAnticollision level s
  | .witnessRats => Sys2Proof.Machine.execWitnessRats s
  | .witnessSelect apdu => Sys2Proof.Machine.execWitnessSelect apdu s
  | .witnessReadBinary apdu => Sys2Proof.Machine.execWitnessReadBinary apdu s
  | .witnessSessionEnd => Sys2Proof.Machine.execWitnessSessionEnd s
  | .witnessSessionTimeout => Sys2Proof.Machine.execWitnessSessionTimeout s
  | .witnessDayWindow => Sys2Proof.Machine.execWitnessDayWindow s
  | .tamperEvalTick mask vbat => Sys2Proof.Machine.execTamperEvalTick mask vbat s
  | .sensorRearm sensor => Sys2Proof.Machine.execSensorRearm sensor s
  | .shedBoundary => Sys2Proof.Machine.execShedBoundary s
  | .shedWipeComplete => Sys2Proof.Machine.execShedWipeComplete s
  | .shedReloadComplete => Sys2Proof.Machine.execShedReloadComplete s
  | .bistDaily outcomes => Sys2Proof.Machine.execBistDaily outcomes s
  | .bistNow outcomes => Sys2Proof.Machine.execBistNow outcomes s
  | .tmRespWrite core sensor val => Sys2Proof.Machine.execTmRespWrite core sensor val s
  | .tamperLock core val => Sys2Proof.Machine.execTamperLock core val s
  | .transitionToTest => Sys2Proof.Machine.execTransitionToTest s
  | .transitionToCustody => Sys2Proof.Machine.execTransitionToCustody s
  | .transitionToField => Sys2Proof.Machine.execTransitionToField s
  | .transitionToReturn => Sys2Proof.Machine.execTransitionToReturn s
  | .transitionToScrap jtag => Sys2Proof.Machine.execTransitionToScrap jtag s
  | .transitionComplete => Sys2Proof.Machine.execTransitionComplete s
  | .tapBypass => Sys2Proof.Machine.execTapBypass s
  | .tapIdcode => Sys2Proof.Machine.execTapIdcode s
  | .tapSamplePreload => Sys2Proof.Machine.execTapSamplePreload s
  | .tapExtest => Sys2Proof.Machine.execTapExtest s
  | .tapClamp => Sys2Proof.Machine.execTapClamp s
  | .tapHighz => Sys2Proof.Machine.execTapHighz s
  | .bscanEffect => Sys2Proof.Machine.execBscanEffect s
  | .tapMailbox => Sys2Proof.Machine.execTapMailbox s
  | .tapDap => Sys2Proof.Machine.execTapDap s
  | .testLogicReset => Sys2Proof.Machine.execTestLogicReset s
  | .mailboxNonce => Sys2Proof.Machine.execMailboxNonce s
  | .mailboxPresent cert => Sys2Proof.Machine.execMailboxPresent cert s
  | .mailboxEnd => Sys2Proof.Machine.execMailboxEnd s
  | .mailboxStatus => Sys2Proof.Machine.execMailboxStatus s
  | .mailboxFwkey hash => Sys2Proof.Machine.execMailboxFwkey hash s
  | .nonceRead => Sys2Proof.Machine.execNonceRead s
  | .certificatePresent cert => Sys2Proof.Machine.execCertificatePresent cert s
  | .certVerifyComplete => Sys2Proof.Machine.execCertVerifyComplete s
  | .debugEndRequest => Sys2Proof.Machine.execDebugEndRequest s
  | .debugSessionExpiry => Sys2Proof.Machine.execDebugSessionExpiry s
  | .ownerDebugKeyEnrol hash => Sys2Proof.Machine.execOwnerDebugKeyEnrol hash s
  | .dapAccess req => Sys2Proof.Machine.execDapAccess req s
  | .debugHalt core => Sys2Proof.Machine.execDebugHalt core s
  | .debugStep core => Sys2Proof.Machine.execDebugStep core s
  | .debugResume core => Sys2Proof.Machine.execDebugResume core s
  | .hello dgram addr => Sys2Proof.Machine.execHello dgram addr s
  | .dictRead msg => Sys2Proof.Machine.execDictRead msg s
  | .dictWrite msg => Sys2Proof.Machine.execDictWrite msg s
  | .dictWriteApply ok => Sys2Proof.Machine.execDictWriteApply ok s
  | .dictDescribe msg => Sys2Proof.Machine.execDictDescribe msg s
  | .dictSubscribe msg => Sys2Proof.Machine.execDictSubscribe msg s
  | .dictUnsubscribe msg => Sys2Proof.Machine.execDictUnsubscribe msg s
  | .sessionClose msg => Sys2Proof.Machine.execSessionClose msg s
  | .sessionIdleTimeout => Sys2Proof.Machine.execSessionIdleTimeout s
  | .credentialWrite msg => Sys2Proof.Machine.execCredentialWrite msg s
  | .addressConfigWrite msg => Sys2Proof.Machine.execAddressConfigWrite msg s
  | .arpRequest frame => Sys2Proof.Machine.execArpRequest frame s
  | .neighborSolicitation frame => Sys2Proof.Machine.execNeighborSolicitation frame s
  | .icmpEcho frame => Sys2Proof.Machine.execIcmpEcho frame s
  | .mgmtLinkChange up => Sys2Proof.Machine.execMgmtLinkChange up s
  | .ledgerPeriod minutes => Sys2Proof.Machine.execLedgerPeriod minutes s
  | .ledgerWordDrain count => Sys2Proof.Machine.execLedgerWordDrain count s
  | .ledgerCursorRead msg => Sys2Proof.Machine.execLedgerCursorRead msg s
  | .feedRead msg => Sys2Proof.Machine.execFeedRead msg s
  | .unitRequest pool unit enabled => Sys2Proof.Machine.execUnitRequest pool unit enabled s
  | .unitDrainEnd pool unit => Sys2Proof.Machine.execUnitDrainEnd pool unit s
  | .fencedToWiping pool unit => Sys2Proof.Machine.execFencedToWiping pool unit s
  | .unitWipeEnd pool unit => Sys2Proof.Machine.execUnitWipeEnd pool unit s
  | .unitTestEnd pool unit pass => Sys2Proof.Machine.execUnitTestEnd pool unit pass s
  | .fwChunk chunk => Sys2Proof.Machine.execFwChunk chunk s
  | .fwVerify => Sys2Proof.Machine.execFwVerify s
  | .fwSwitch => Sys2Proof.Machine.execFwSwitch s
  | .fwCancel => Sys2Proof.Machine.execFwCancel s
  | .fwCoreDrained => Sys2Proof.Machine.execFwCoreDrained s
  | .fwDrainTimeout => Sys2Proof.Machine.execFwDrainTimeout s
  | .brownOutTrip vhold => Sys2Proof.Machine.execBrownOutTrip vhold s
  | .flushComplete => Sys2Proof.Machine.execFlushComplete s
  | .brownOutRestart facts => Sys2Proof.Machine.execBrownOutRestart facts s
  | .cellSwitch => Sys2Proof.Machine.execCellSwitch s
  | .porAssert => Sys2Proof.Machine.execPorAssert s
  | .bootStart facts => Sys2Proof.Machine.execBootStart facts s
  | .holdupRecovered => Sys2Proof.Machine.execHoldupRecovered s
  | .lockwaitExpiry => Sys2Proof.Machine.execLockwaitExpiry s
  | .railMeasure mv => Sys2Proof.Machine.execRailMeasure mv s
  | .vddVaultPresent => Sys2Proof.Machine.execVddVaultPresent s
  | .pcieLinkUp rate width flit => Sys2Proof.Machine.execPcieLinkUp rate width flit s
  | .pauseTimerExpiry pair sub outbound => Sys2Proof.Machine.execPauseTimerExpiry pair sub outbound s
  | .entropyHealthRecovered => Sys2Proof.Machine.execEntropyHealthRecovered s
  | .stageCounterRead core answer => Sys2Proof.Machine.execStageCounterRead core answer s
  | .tamperLockComplete => Sys2Proof.Machine.execTamperLockComplete s

end Sys2Proof.Machine
end

