-- ==== Sys2Proof/Safety.lean ====
section
/-! DEFINITION. What a safe run of the block is, in the terms the statements use: the state as a request finds it, and
which commands make which request. -/

namespace Sys2Proof.Machine

/-- The state once window `w` of core `c` in unit `u` has taken its GO: BUSY set, DONE clear (R77). -/
def started (u c w : Nat) (s : State) : State := updWin u c w (fun x => { x with busy := true, done := false }) s

/-- Window `w` of core `c` in unit `u` is idle and takes requests now. -/
def windowFree (u c w : Nat) (s : State) : Prop := c < 26 ∧ w < 8 ∧ (getWin u c w s).busy = false ∧ s.shedding = false

/-- The commands of the public-key engines by OP (R107). -/
def pkeCommands : List (Nat × (Src → Instr)) :=
  [(0x01, .rsaPrivateRaw), (0x02, .rsaPublicRaw), (0x03, .rsassaPssSign), (0x04, .rsassaPkcs1V15Sign),
   (0x05, .rsassaPssVerify), (0x06, .rsassaPkcs1V15Verify), (0x07, .rsaesOaepEncrypt), (0x08, .rsaesOaepDecrypt),
   (0x09, .modularExponentiation), (0x0A, .ffdh), (0x10, .ecdsaSign), (0x11, .ecdsaVerify), (0x12, .ecdh),
   (0x13, .eddsaSign), (0x14, .eddsaVerify), (0x15, .x25519OrX448), (0x18, .keyPairCurveOrGroup), (0x19, .keyPairRsa)]

/-- The stall commands by OP (R93). -/
def stallCommands : List (Nat × (Src → Instr)) :=
  [(1, .stallAlloc), (2, .stallLoad), (3, .stallArm), (4, .stallExpire), (5, .stallRetire), (6, .stallRead)]

/-- The tack commands by OP (R192). -/
def tackCommands : List (Nat × (Src → Instr)) :=
  [(1, .tackReserve), (2, .tackInstall), (3, .tackRetire), (4, .tackRestrict), (5, .tackPin), (6, .tackDescribe)]

/-! ### A Pacer's instruction boundary (R255, R257, R292) -/

/-- `s` with core `c`'s debug step spent: what an instruction of `c` executes from. -/
def stepSpent (c : Nat) (s : State) : State := { s with lc := { s.lc with steps := Tab.set false s.lc.steps c false } }

/-- Core `c` comes to issue an instruction: it runs, and neither an imprecise fault nor an interrupt comes first (R292). -/
def boundaryClear (c : Nat) (s : State) : Prop :=
  coreRuns s c = true ∧ (getCore s c).imprecise = none ∧ ((getCore s c).masked = true ∨ (getCore s c).wanted = false)

/-- Core `c` comes to execute an instruction: its fetch passes the code rein, the Bridle unit and the memory (R257). -/
def reaches (c : Nat) (s : State) : Prop :=
  boundaryClear c s ∧ fetchCause s c = none ∧ firstRefused s (coreAccess s c) false false (getCore s c).pc 4 = none ∧
    meetsPoison s (getCore s c).pc 4 = false

/-- Core `c` may name these rein registers: at the paddock level none of them holds a tagged Warden rein (R281). -/
def mayName (c : Nat) (s : State) (is : List Nat) : Prop :=
  ∀ i ∈ is, (getCore s c).warden = true ∨ ((getCore s c).getK i).tag = false ∨ ((getCore s c).getK i).isWarden = false

/-- `t` with the instruction of core `c` complete and the next one following (R266). -/
def nextAfter (c : Nat) (s t : State) : State := complete c (getCore s c) (pcPlus (getCore s c).pc 4) t

/-- `t` with the instruction of core `c` complete and a branch to `a` taken. -/
def jumpTo (c a : Nat) (s t : State) : State := traceBranch c (getCore s c).pc a (complete c (getCore s c) a t)

/-- A synchronous exception of the instruction of core `c`, with WPC at the instruction (R290). -/
def raised (c cause : Nat) (info : W64) (s t : State) : State :=
  takeExc c cause info (pcPlus (getCore s c).pc 0) (pcPlus (getCore s c).pc 0) t

/-- G[i] of core `c`. -/
def genReg (s : State) (c : Nat) (i : BitVec 6) : W64 := (getCore s c).getG i.toNat

/-! ### Register instructions by encoding (R259–R262) -/

/-- Groups 0x01, 0x02 and 0x03 in R format with three registers: the instruction and its operation. -/
def threeRegister : List ((Nat → BitVec 6 → BitVec 6 → BitVec 6 → Instr) × (W64 → W64 → W64)) :=
  [(.opAdd, fun x y => BitVec.ofNat 64 (x.toNat + y.toNat)), (.opSub, fun x y => BitVec.ofInt 64 (x.toNat - y.toNat)),
   (.opAnd, fun x y => x &&& y), (.opOr, fun x y => x ||| y), (.opXor, fun x y => x ^^^ y), (.andn, fun x y => x &&& ~~~y),
   (.shl, fun x y => BitVec.ofNat 64 (x.toNat * 2 ^ (y.toNat % 64))),
   (.shr, fun x y => BitVec.ofNat 64 (x.toNat / 2 ^ (y.toNat % 64))),
   (.sar, fun x y => BitVec.ofInt 64 (x.toInt / 2 ^ (y.toNat % 64))),
   (.rol, fun x y => x <<< (y.toNat % 64) ||| x >>> (64 - y.toNat % 64)),
   (.ror, fun x y => x >>> (y.toNat % 64) ||| x <<< (64 - y.toNat % 64)),
   (.opMin, fun x y => BitVec.ofInt 64 (min x.toInt y.toInt)), (.opMax, fun x y => BitVec.ofInt 64 (max x.toInt y.toInt)),
   (.minu, fun x y => BitVec.ofNat 64 (min x.toNat y.toNat)), (.maxu, fun x y => BitVec.ofNat 64 (max x.toNat y.toNat)),
   (.mul, fun x y => BitVec.ofNat 64 (x.toNat * y.toNat)),
   (.mulh, fun x y => ((x.signExtend 128) * (y.signExtend 128)).extractLsb' 64 64),
   (.mulhu, fun x y => ((x.setWidth 128) * (y.setWidth 128)).extractLsb' 64 64),
   (.ceq, fun x y => if x = y then 1 else 0), (.cne, fun x y => if x = y then 0 else 1),
   (.clt, fun x y => if x.slt y then 1 else 0), (.cltu, fun x y => if x.ult y then 1 else 0),
   (.cle, fun x y => if x.sle y then 1 else 0), (.cleu, fun x y => if x.ule y then 1 else 0)]

/-- The division instructions of group 0x02 with the result for a divisor other than zero (R260). -/
def divisions : List ((Nat → BitVec 6 → BitVec 6 → BitVec 6 → Instr) × (W64 → W64 → W64)) :=
  [(.div, BitVec.sdiv), (.divu, BitVec.udiv), (.rem, BitVec.srem), (.remu, BitVec.umod)]

/-- The bytes of a register from the lowest, put together in the reverse order. -/
def bytesReversed (x : W64) : W64 :=
  x.extractLsb' 0 8 ++ x.extractLsb' 8 8 ++ x.extractLsb' 16 8 ++ x.extractLsb' 24 8 ++ x.extractLsb' 32 8 ++ x.extractLsb' 40 8 ++
    x.extractLsb' 48 8 ++ x.extractLsb' 56 8

/-- Group 0x01 with one operand: fn, the instruction and its operation. -/
def oneOperand : List (Nat × (Nat → BitVec 6 → BitVec 6 → BitVec 6 → Instr) × (W64 → W64)) :=
  [(0x10, .clz, fun x => BitVec.ofNat 64 (if x = 0 then 64 else 63 - Nat.log2 x.toNat)),
   (0x11, .popc, fun x => BitVec.ofNat 64 ((List.range 64).countP (fun i => x.getLsbD i))), (0x12, .bswap, bytesReversed)]

/-- Immediate forms without a condition: the instruction and its operation on G[a] and imm13 (R262). -/
def immediateForms : List ((Nat → BitVec 6 → BitVec 6 → BitVec 13 → Instr) × (W64 → BitVec 13 → W64)) :=
  [(.addi, fun x i => BitVec.ofInt 64 (x.toInt + i.toInt)), (.andi, fun x i => BitVec.ofNat 64 (x.toNat &&& i.toNat)),
   (.ori, fun x i => BitVec.ofNat 64 (x.toNat ||| i.toNat)), (.xori, fun x i => BitVec.ofNat 64 (x.toNat ^^^ i.toNat)),
   (.ceqi, fun x i => if x.toInt = i.toInt then 1 else 0), (.cnei, fun x i => if x.toInt = i.toInt then 0 else 1),
   (.clti, fun x i => if x.toInt < i.toInt then 1 else 0), (.cltui, fun x i => if x.ult (i.signExtend 64) then 1 else 0),
   (.clei, fun x i => if x.toInt ≤ i.toInt then 1 else 0), (.cleui, fun x i => if x.ule (i.signExtend 64) then 1 else 0)]

/-- Shifts by imm13: op, the instruction and its operation; bits [12:6] must be 0 (R262). -/
def shiftForms : List (Nat × (Nat → BitVec 6 → BitVec 6 → BitVec 13 → Instr) × (W64 → Nat → W64)) :=
  [(0x0C, .shli, fun x n => BitVec.ofNat 64 (x.toNat * 2 ^ n)), (0x0D, .shri, fun x n => BitVec.ofNat 64 (x.toNat / 2 ^ n)),
   (0x0E, .sari, fun x n => BitVec.ofInt 64 (x.toInt / 2 ^ n))]

/-! ### Decimal digits (R273–R275) -/

/-- Digit `i` of a register. -/
def digit (x : W64) (i : Nat) : Nat := (x.extractLsb' (4 * i) 4).toNat

/-- Every nibble is a digit. -/
def allDigits (x : W64) : Prop := ∀ i < 16, digit x i < 10

/-- The number that the sixteen nibbles spell. -/
def decimalValue (x : W64) : Nat := ((List.range 16).map (fun i => digit x i * 10 ^ i)).sum

/-- The nibbles of a register that are no digits, as a mask. -/
def strayMask (x : W64) : Nat := ((List.range 16).map (fun i => if digit x i < 10 then 0 else 2 ^ i)).sum

/-- The decimal instructions that check operands: fn, the instruction, whether G[a] and whether G[b] is checked. -/
def checkedDecimals : List (Nat × (Nat → BitVec 6 → BitVec 6 → BitVec 6 → Instr) × Bool × Bool) :=
  [(0, .dadd, true, true), (1, .dsub, true, true), (2, .dcryA, true, true), (3, .dcryS, true, true), (4, .daddm, true, true),
   (7, .ddec, false, true), (8, .dcvb, true, false)]

/-! ### Memory forms (R258) -/

/-- The loads: the instruction, its size and whether it sign-extends. -/
def loadForms : List ((Nat → BitVec 6 → BitVec 4 → BitVec 6 → BitVec 9 → Instr) × Nat × Bool) :=
  [(.ld8, 1, false), (.ld16, 2, false), (.ld32, 4, false), (.ld64, 8, false), (.lds8, 1, true), (.lds16, 2, true), (.lds32, 4, true)]

/-- The stores: the instruction and its size. -/
def storeForms : List ((Nat → BitVec 6 → BitVec 4 → BitVec 6 → BitVec 9 → Instr) × Nat) :=
  [(.st8, 1), (.st16, 2), (.st32, 4), (.st64, 8)]

/-- An M-format access: the offset and the address (R255). -/
def mOffset (s : State) (c : Nat) (a : BitVec 6) (imm : BitVec 9) (size : Nat) : Nat :=
  (BitVec.ofInt 64 ((genReg s c a).toInt + imm.toInt * size)).toNat

/-- The rein check of an access by core `c` through K[k] passes or fails with a cause (R255). -/
def reinCheck (s : State) (c k off size : Nat) (perms : List Nat) : Option Nat :=
  accessCause s (getCore s c).warden ((getCore s c).getK k) off size perms

/-- The address of an access through K[k]. -/
def reinAddr (s : State) (c k off : Nat) : Nat := ((getCore s c).getK k).base + off

/-! ### String spans (R269, R270) -/

/-- Address of byte `i` of the span of K[k] whose offset stands in G[reg]. -/
def spanAt (s : State) (c : Nat) (k : BitVec 6) (reg i : Nat) : Nat :=
  ((getCore s c).getK k.toNat).base + ((getCore s c).getG reg).toNat + i

/-- Byte `i` of a span passes the rein and then the Bridle unit, for a read and for a write as asked (R255, R270). -/
def bytePasses (s : State) (c : Nat) (k : BitVec 6) (reg : Nat) (ld st : Bool) (i : Nat) : Prop :=
  reinCheck s c k.toNat (((getCore s c).getG reg).toNat + i) 1 ((if ld then [permLoad] else []) ++ (if st then [permStore] else [])) = none ∧
    isCsr (spanAt s c k reg i) = false ∧ (ld = true → accessCode s (coreAccess s c) false false (spanAt s c k reg i) = none) ∧
    (st = true → accessCode s (coreAccess s c) true false (spanAt s c k reg i) = none)

/-- `m` is the length of the next chunk over the spans given by their rein and offset registers (R270). -/
def isChunk (s : State) (c : Nat) (spans : List (BitVec 6 × Nat)) (m : Nat) : Prop :=
  let n := ((getCore s c).getG 58).toNat
  0 < m ∧ m ≤ 64 ∧ m ≤ n ∧ (∀ i, 0 < i → i < m → ∀ p ∈ spans, spanAt s c p.1 p.2 i % 64 ≠ 0) ∧
    (m = 64 ∨ m = n ∨ ∃ p ∈ spans, spanAt s c p.1 p.2 m % 64 = 0)

/-- Core `c` in `t` stands behind `m` bytes of a string instruction that it met in `s` with this `SCNT`: the offsets in the
given registers and SCNT have moved, and PC stays until the count is used up (R269, R270). -/
def chunkDone (s t : State) (c : Nat) (regs : List Nat) (m : Nat) (ended : Prop) : Prop :=
  let k := getCore s c
  let k' := getCore t c
  (∀ r ∈ regs, k'.getG r = k.getG r + BitVec.ofNat 64 m) ∧ k'.getG 58 = k.getG 58 - BitVec.ofNat 64 m ∧
    (∀ i, i ∉ 58 :: 59 :: regs → k'.getG i = k.getG i) ∧ k'.k = k.k ∧
    (k.atEnd = false → (ended → k'.pc = pcPlus k.pc 4) ∧ (¬ ended → k'.pc = k.pc))

/-! ### The monitor (R302–R304) -/

/-- Core `c` stands at WARDEN_ENTRY with cause `cause` from the paddock level, and the FRAME on top of its stack, wholly on chip,
is `e`, over `rest`. -/
def atHandler (s : State) (c cause : Nat) (e : RsEntry) (rest : List RsEntry) : Prop :=
  atEntry s c = some (cause, false) ∧ (getCore s c).onchip = e :: rest ∧ (getCore s c).spilled = 0 ∧ e.kind = 2 ∧ rest.length ≤ 64

/-- The monitor has returned on core `c` to the context under the FRAME `e` over `rest`. -/
def returnedTo (t : State) (c : Nat) (e : RsEntry) (rest : List RsEntry) : Prop :=
  (getCore t c).pc = e.word 0 % 2 ^ 40 ∧ (getCore t c).status.toNat = e.word 1 % 2 ^ 24 ∧ (getCore t c).onchip = rest ∧
    (getCore t c).spilled = 0 ∧ (getCore t c).lcount = BitVec.ofNat 64 (e.word 3)

/-! ### Events, exchange windows (R377–R380, R391) -/

/-- Bit `b` of event word `w` is set (R453). -/
def eventSet (s : State) (w b : Nat) : Bool := (Tab.get 0 s.events w).getLsbD b

/-- The result of an exchange stands in window `k` of `t`, its first byte the status, and the window is idle again. -/
def exchangeDone (t : State) (k status : Nat) : Prop :=
  (getEx t k).run = none ∧ (getEx t k).win.busy = false ∧ (getEx t k).win.done = true ∧
    (Tab.get 0 (getEx t k).win.result 0).toNat % 256 = status

/-! ### Dictionary datagrams (R440, R442, R447) -/

/-- The body of a request datagram, without header and MAC. -/
def requestBody (d : List Byte) : List Byte := (d.take (d.length - 16)).drop 16

/-- A REQUEST of session `m` that the device accepts: its header, its MAC under the session's key and a SEQ not used yet. -/
def requestArrives (s : State) (d : List Byte) (m : MgmtSession) : Prop :=
  dictUp s = true ∧ headerOk d 3 = true ∧ 32 ≤ d.length ∧ sessionOf s (field d 4 4) = some m ∧
    dictMac m.kc (d.take (d.length - 16)) = d.drop (d.length - 16) ∧ m.seqNext ≤ field d 8 8

/-- The state in which an accepted request is served: its session's record has moved on (R442, R443). -/
def acceptedFrom (s : State) (d : List Byte) (m : MgmtSession) : State :=
  setEventIf (!m.used) 17 1 (putSession { m with fails := 0, seqNext := field d 8 8 + 1, used := true, lastAt := s.tick } s)

/-- `t` has sent one datagram more than `s`: the RESPONSE to request `d` of session `m`. -/
def responded (s t : State) (d : List Byte) (m : MgmtSession) (status : Nat) (v : List Byte) : Prop :=
  let b := requestBody d
  let h : List Byte := [1, 4, 0, 0] ++ natToLE 4 m.sid ++ natToLE 8 (field d 8 8) ++
    [BitVec.ofNat 8 (rqOp b), BitVec.ofNat 8 status] ++ (takePad 5 b).drop 2 ++ [0] ++ natToLE 2 v.length ++ v
  t.od.sent = s.od.sent ++ [h ++ dictMac m.kd h]

end Sys2Proof.Machine
end

