-- ==== Sys2Proof/Certificates/Slice0/Obligations.lean ====
section
/-! DEFINITION. The statements about the model, one definition each; none is proved here. -/

open Sys2Proof Sys2Proof.Machine

/-! ### The queue, memory, and what no command undoes -/

/-- A step runs the command at the front of the queue on the state with the queue's rest (the row's cut, log 1). With no
command waiting the block idles (the model's choice, log 1). -/
def Obligations.StepRunsFrontCommand : Prop :=
  (
  ∀ (c : Instr) (cs : List Instr) (s : State), s.pending = c :: cs → step s = exec c { s with pending := cs }) ∧
  (
  ∀ s : State, s.pending = [] → step s = .next s)

/-- Every command of the table completes in every state, and none puts anything into the queue or takes anything out. -/
def Obligations.CommandsLeaveQueue : Prop :=
  ∀ (c : Instr) (s : State), ∃ t, exec c s = .next t ∧ t.pending = s.pending

/-- Every step keeps memory in its canonical form, so equal memories stay equal data (log 5). -/
def Obligations.StepKeepsMemoryForm : Prop :=
  ∀ s t : State, Memory.wf s.mem = true → step s = .next t → Memory.wf t.mem = true

/-- R420: a programmed bit of any copy of the life-cycle word never returns to zero, whatever command runs. -/
def Obligations.FusesOnlyProgram : Prop :=
  ∀ (s t : State) (copy bit : Nat), (Tab.get 0 s.lc.copies copy).getLsbD bit = true → step s = .next t →
    (Tab.get 0 t.lc.copies copy).getLsbD bit = true

/-- R323, R345: a life counter of the NOR life area never falls, whatever command runs. -/
def Obligations.LifeCountersNeverFall : Prop :=
  ∀ (s t : State) (i : Nat), step s = .next t → Tab.get 0 s.fv.life i ≤ Tab.get 0 t.fv.life i

/-! ### The stride and network time (R31–R54) -/

/-- R36, R37, R38: of messages of the domain that TI_CFG names, a two-step Sync waits with its receive time; an egress
time is kept with the transmit latency added; the default profile's path delay and the peer delay of the power
profile, with or without a Pdelay_Resp_Follow_Up, are formed from their exchanges; a peer's request is answered; and
an Announce enters or renews its master and shows the selected one. A message of another domain changes nothing. R33,
R36: a complete sample of the selected master, of the domain that TI_CFG names. The first one, or the first after a
re-acquire request, is accepted whatever its size and gives the lock and its whole strides of step; a later one beyond
U + 1 µs is discarded and counted, and the eighth in a row sets DISAGREE and puts a locked servo into holdover. While
DISAGREE is set every sample is ignored. R35, R36, R37: a master that has been silent is lost, and a locked counter
goes into holdover; the re-acquire request; and the copy into the backup domain, made only while strides run (that it
also makes a lost backup counter valid again is log 131). R39: the pulse rises at a whole TAI second while LOCKED or
HOLDOVER with EN set, falls when its width (at least 1 µs) has passed, and is low in every other state or with EN
clear: there every change of the time state or of TI_PPS holds it low. R31, R33, R455: at a stride boundary of a
running device the stride that ends is worked off and the next begins: the tick is pending on every core, and ALERT_N
shows the summary or the forced test. TI_NOW gains a stride and any step that is due. During a flush only time goes on
(R482), and where no strides run the boundary changes nothing. -/
def Obligations.ClockAndStrideCommands : Prop :=
  (
  ∀ s : State, stridesRun s = true → ∀ dom, dom = ptpDomain s.time →
    (∀ c seq l t1 t2 corr, fromMaster s.time c = true → syncIntervalOk l = true →
      exec (.ptpSync ⟨dom, c, l⟩ seq true t1 t2 corr) s = .next { s with time := { s.time with
        syncAt := some (s.tick, l), syncPend := some (c, seq, t2) } }) ∧
    (∀ seq egress, exec (.delayReqSend seq egress) s = .next { s with time := { s.time with
      delayReq := some (seq, egress + natBits s.time.phyLat.toNat 0 16), pdelayPend := none } }) ∧
    (∀ c l seq receive corr t1 t2 t3, s.time.delayReq = some (seq, t3) → s.time.lastSync = some (t1, t2) →
      fromMaster s.time c = true → powerProfile s.time = false →
      exec (.ptpDelayResp ⟨dom, c, l⟩ seq receive corr) s = .next { s with time := { s.time with
        path := BitVec.ofNat 32 (min ((((t2 : Int) - t1) + ((receive : Int) - corr - t3)) / 2).toNat 0xFFFFFFFF),
        pathKnown := true, delayReq := none, pdelayPend := none } }) ∧
    (∀ c l seq t1 time ingress corr, s.time.delayReq = some (seq, t1) → powerProfile s.time = true →
      exec (.ptpPdelayResp ⟨dom, c, l⟩ seq (.resp false ingress) time corr) s = .next { s with time := { s.time with
        path := BitVec.ofNat 32
          (min ((((ingress + natBits s.time.phyLat.toNat 16 16 : Nat) : Int) - t1 - corr) / 2).toNat 0xFFFFFFFF),
        pathKnown := true, delayReq := none, pdelayPend := none } } ∧
      exec (.ptpPdelayResp ⟨dom, c, l⟩ seq (.resp true ingress) time corr) s = .next { s with time := { s.time with
        pdelayPend := some (c, seq, time, ingress + natBits s.time.phyLat.toNat 16 16, corr) } } ∧
      ∀ t2 t4 corr1, s.time.pdelayPend = some (c, seq, t2, t4, corr1) →
        exec (.ptpPdelayResp ⟨dom, c, l⟩ seq .followUp time corr) s = .next { s with time := { s.time with
          path := BitVec.ofNat 32
            (min (((t4 : Int) - t1 - ((time : Int) - t2) - corr1 - corr) / 2).toNat 0xFFFFFFFF),
          pathKnown := true, delayReq := none, pdelayPend := none } }) ∧
    (∀ seq ingress egress, powerProfile s.time = true →
      exec (.ptpPdelayReq dom seq ⟨ingress, egress⟩) s = .next { s with time := { s.time with
        pdelayAnswer := some (seq, ingress + natBits s.time.phyLat.toNat 16 16,
          egress + natBits s.time.phyLat.toNat 0 16) } }) ∧
    (∀ c l d utc ok, ∀ m : ForeignMaster,
      m = { dom := dom, clockId := c, data := d, utc := utc, utcValid := ok, heard := s.tick, logInt := l } →
      ∃ t, exec (.ptpAnnounce ⟨dom, c, l⟩ d utc ok) s = .next { s with time := t } ∧ t.now = s.time.now ∧
        ((∀ x ∈ s.time.masters, ¬(x.dom = dom ∧ x.clockId = c)) → s.time.masters.length < 8 →
          t.masters = s.time.masters ++ [m]) ∧
        ((∃ x ∈ s.time.masters, x.dom = dom ∧ x.clockId = c) →
          t.masters = s.time.masters.map (fun x => if x.dom == dom && x.clockId == c then m else x)) ∧
        (∀ b, selected t = some b → t.master = b.clockId ∧
          t.utc = BitVec.ofNat 32 (b.utc.toNat + b2n b.utcValid * 65536) ∧
          (b.clockId ≠ s.time.master → t.syncPend = none ∧ t.lastSync = none ∧
            (powerProfile s.time = false → t.pathKnown = false)) ∧
          (b.clockId = s.time.master → t.path = s.time.path ∧ t.lastSync = s.time.lastSync))) ∧
    (∀ d2, d2 ≠ dom → ∀ c seq l two t1 t2 corr d utc ok,
      exec (.ptpSync ⟨d2, c, l⟩ seq two t1 t2 corr) s = .next s ∧ exec (.ptpAnnounce ⟨d2, c, l⟩ d utc ok) s = .next s)) ∧
  (
  ∀ (s : State) (i : Instr) (dom : Nat) (c : W64) (t1 t2 corr : Nat) (heard : Option (Nat × Int)),
    ((∃ seq l, i = .ptpSync ⟨dom, c, l⟩ seq false t1 t2 corr ∧ syncIntervalOk l = true ∧ heard = some (s.tick, l)) ∨
      (∃ seq l, s.time.syncPend = some (c, seq, t2) ∧ i = .ptpFollowUp ⟨dom, c, l⟩ seq t1 corr ∧ heard = s.time.syncAt)) →
    stridesRun s = true → dom = ptpDomain s.time → fromMaster s.time c = true → s.time.pathKnown = true →
    ∀ (rx : Nat) (off : Int), rx = t2 + natBits s.time.phyLat.toNat 16 16 →
      off = (rx : Int) - t1 - corr - (s.time.path.toNat : Int) →
    ∃ t, exec i s = .next t ∧ t.time.syncPend = none ∧ t.time.now = s.time.now ∧ t.mem = s.mem ∧ t.pc = s.pc ∧
      (s.time.disagree = true →
        t = { s with time := { s.time with lastSync := some (t1 + corr, rx), syncPend := none, syncAt := heard } }) ∧
      (s.time.disagree = false → s.time.firstLock = false ∨ s.time.reacquire = true →
        t.time.mode = .locked ∧ t.time.firstLock = true ∧ t.time.reacquire = false ∧ t.time.discards = 0 ∧
        t.time.offset = BitVec.ofInt 64 off ∧
        t.time.stepPending = s.time.stepPending + (if off < 0 then off.natAbs / 1000 else 0)) ∧
      (s.time.disagree = false → s.time.firstLock = true → s.time.reacquire = false →
        s.time.uNow + 1000 < off.natAbs → s.time.discards < 7 →
        t = { s with time := { s.time with
          lastSync := some (t1 + corr, rx), syncPend := none, syncAt := heard, discards := s.time.discards + 1 } }) ∧
      (s.time.disagree = false → s.time.firstLock = true → s.time.reacquire = false →
        s.time.uNow + 1000 < off.natAbs → 7 ≤ s.time.discards →
        t.time.disagree = true ∧ t.time.discards = 0 ∧ (Tab.get 0 t.events 1).getLsbD 3 = true ∧
        (s.time.mode = .locked → t.time.mode = .holdover)) ∧
      (s.time.disagree = false → s.time.firstLock = true → s.time.reacquire = false →
        off.natAbs ≤ s.time.uNow + 1000 →
        t.time.mode = .locked ∧ t.time.offset = BitVec.ofInt 64 off ∧ t.time.stepPending = s.time.stepPending)) ∧
  (
  ∀ s : State, stridesRun s = true →
    (∀ b, selected s.time = some b →
      3 * 1000000 * 2 ^ b.logInt.toNat ≤ (s.tick - b.heard) * 2 ^ (-b.logInt).toNat ∨
        (∃ at0 l, s.time.syncAt = some (at0, l) ∧ 4 * 1000000 * 2 ^ l.toNat ≤ (s.tick - at0) * 2 ^ (-l).toNat) →
      ∃ t, exec .masterLoss s = .next t ∧ t.time.now = s.time.now ∧ t.mem = s.mem ∧ t.pc = s.pc ∧
        t.time.masters = s.time.masters.filter (fun m => !(m.dom == b.dom && m.clockId == b.clockId)) ∧
        (s.time.mode = .locked → t.time.mode = .holdover ∧ t.time.u0 = s.time.u ∧ t.time.t0 = s.time.now ∧
          (Tab.get 0 t.events 1).getLsbD 1 = true) ∧
        (s.time.mode ≠ .locked → t.time.mode = s.time.mode)) ∧
    exec .reacquire s = .next { s with time := { s.time with disagree := false, reacquire := true, discards := 0 } } ∧
    exec .backupCounterCopy s =
      .next { s with time := { s.time with backupValid := true, backupValue := s.time.now, backupSince := 0 } } ∧
    (∀ u : State, stridesRun u = false → exec .backupCounterCopy u = .next u)) ∧
  (
  ∀ s : State,
    (stridesRun s = true → s.time.now % 1000000000 = 0 → timeState s.time = 1 ∨ timeState s.time = 2 →
      s.time.pps.getLsbD 0 = true →
      exec .ppsRise s = .next { s with time := { s.time with
        ppsOut := true, ppsFall := s.time.now + 1000 * max 1 (natBits s.time.pps.toNat 16 16) } }) ∧
    (¬(timeState s.time = 1 ∨ timeState s.time = 2) ∨ s.time.pps.getLsbD 0 = false →
      exec .ppsRise s = .next s ∧ exec .ppsFall s = .next { s with time := { s.time with ppsOut := false } } ∧
      (noteUnsure s).time.ppsOut = false) ∧
    (s.time.ppsFall ≤ s.time.now → exec .ppsFall s = .next { s with time := { s.time with ppsOut := false } }) ∧
    (s.time.now < s.time.ppsFall → timeState s.time = 1 ∨ timeState s.time = 2 → s.time.pps.getLsbD 0 = true →
      exec .ppsFall s = .next s)) ∧
  (
  ∀ (s : State) (fs : List HwFault),
    (stridesRun s = true → s.pm.flushing = false →
      ∃ t, exec (.strideBoundary fs) s = .next t ∧ t = strideBegin (strideEnd fs s) ∧
        t.al.pin = (!t.pm.porLow && !t.pm.onCell && (t.al.force || (t.summary &&& t.al.pinen) != 0)) ∧
        ∀ c, c < 26 → (getCore t c).pend.getLsbD 0 = true) ∧
    (stridesRun s = true → s.pm.flushing = true → exec (.strideBoundary fs) s = .next (advanceTime s)) ∧
    (stridesRun s = false → exec (.strideBoundary fs) s = .next s) ∧
    (advanceTime s).time.now = s.time.now + 1000 + 1000 * s.time.stepPending ∧
    (advanceTime s).time.executed = s.time.executed + 1 ∧ (advanceTime s).time.stepPending = 0)

/-- R43, R44: a frame boundary puts the staged table of shares into force, and every effective share is the staged one
scaled to the units that are ACTIVE. R43, R46: a share written within its resource's total is staged and one beyond it
refused; an overrun of a working unit is counted and raised. R42: in every stride of the frame a paddock has the floor
or the ceiling of n/256 slots, and n over the whole frame. -/
def Obligations.FrameSharesTakeEffect : Prop :=
  (
  ∀ s : State, stridesRun s = true → frameDue s = true →
    ∃ t, exec .frameBoundary s = .next t ∧ t.time.inForce = s.time.staged ∧ t.time.frameDone = some (s.stride / 256) ∧
      t.mem = s.mem ∧ t.time.now = s.time.now ∧
      ∀ res p, p < 256 → effShare t.time res p =
        scaledShare s res (Tab.get 0 s.time.staged (shareKey res p))) ∧
  (
  ∀ (s : State) (c : Nat) (v : W32) (res p : Nat), coreMay s c true 0x100100090 = true →
    res = natBits s.time.shrSel.toNat 8 2 → p = natBits s.time.shrSel.toNat 0 8 →
    (stagedSum s.time res - Tab.get 0 s.time.staged (shareKey res p) + v.toNat % 2 ^ 20 ≤ fullTotal res →
      (res = 1 → v.toNat % 64 = 0) →
      exec (.shareWrite c v) s =
        .next { s with time := { s.time with staged := Tab.set 0 s.time.staged (shareKey res p) (v.toNat % 2 ^ 20) } }) ∧
    (fullTotal res < stagedSum s.time res - Tab.get 0 s.time.staged (shareKey res p) + v.toNat % 2 ^ 20 →
      exec (.shareWrite c v) s = .next { s with time := { s.time with shrRefused := true } }) ∧
    (∀ pool u, unitOk pool u = true → pool ≠ 2 → (getUnit s pool u).st = 1 ∨ (getUnit s pool u).st = 2 →
      ∃ t, exec (.unitOverrun pool u) s = .next t ∧ t.us.overruns = s.us.overruns ++ [(pool, u)] ∧
        t.time.overruns = (if s.time.overruns = -1 then s.time.overruns else s.time.overruns + 1) ∧
        Tab.get 0 t.ledger.items 0x1040 = Tab.get 0 s.ledger.items 0x1040 + 1 ∧
        (Tab.get 0 t.events 1).getLsbD 5 = true ∧ t.mem = s.mem ∧ t.pc = s.pc)) ∧
  (
  ∀ (t : TimeUnit) (res p : Nat),
    (∀ stride, slotsIn t res p stride = effShare t res p / 256 ∨
      slotsIn t res p stride = (effShare t res p + 255) / 256) ∧
    ((List.range 256).map (fun k => slotsIn t res p k)).sum = effShare t res p)

/-! ### Registers, the die link and the scrubber (R4, R9, R17, R18, R22–R25, R77, R454) -/

/-- R4, R22–R25, R208, R209, R454: a register write that the core's Bridle unit lets through, of a width and alignment
that R23 performs, acts on the register at that address: AL_PINEN takes the value at the Warden level, AL_LEAF[w]
clears the leaves written as 1. One of another shape raises cause 0x05, and one that the unit refuses is recorded and
comes back as an imprecise fault. The device's own Warden writes reach every register. The host's writes reach its
BAR0 alone: CQ_QSEL selects a queue, a base is taken while that queue is ABSENT, CQ_FERR clears by ones; BAR2 is a
mirror and drops them. Nothing acts while the logic die is off. R77: a read of a window's status by the core that owns
it clears DONE in that window and changes nothing else: the windows of the five request units, the CVU window, and at
the Warden level the card exchange windows. A read of any register is what its slot answers. R9, R24: a die-link write
that is sealed under the link key and arrives as sent reaches the vault die's register (here NF_TO), and an address
off the vault die nothing; one that does not authenticate is dropped and fires sensor 14, which takes a latch with the
response assigned to it. R17, R18, R457: a scrub round poisons every existing word it finds uncorrectable, in mapped
memory, in a tack of the cache or in a PKE operand bank, counts it in its area's item and raises an alert (which leaf
the spec does not say: log 126); a word it corrects is only counted. No other word is poisoned and no byte changes. -/
def Obligations.RegisterAccessesAct : Prop :=
  (
  ∀ (s : State) (c a width : Nat) (v : W64),
    (s.off = true → ∀ src, exec (.registerWrite src a width v) s = .next s) ∧
    (s.off = false →
      (c < 26 → isCsr a = true → csrWidthBad a width = false → firstRefused s (coreAccess s c) true false a width = none →
        exec (.registerWrite (.core c) a width v) s = .next (csrWrite (whoCore s c) a width v s)) ∧
      (c < 26 → isCsr a = true → csrWidthBad a width = true →
        exec (.registerWrite (.core c) a width v) s =
          .next (takeExc c 0x05 (reinInfo 0 width a false) (getCore s c).pc (getCore s c).pc s)) ∧
      (∀ fa code, c < 26 → isCsr a = true → csrWidthBad a width = false →
        firstRefused s (coreAccess s c) true false a width = some (fa, code) →
        exec (.registerWrite (.core c) a width v) s =
          .next (impreciseArrive c fa (bridleFault (coreAccess s c) true fa code s))) ∧
      (csrShape a width = true →
        exec (.registerWrite .warden a width v) s = .next (csrWrite { core := none, warden := true } a width v s)) ∧
      (∀ fn, exec (.registerWrite (.bar2 fn) a width v) s = .next s)) ∧
    (csrWrite { core := some c, warden := true } 0x100000020 4 v s = { s with al := { s.al with pinen := v.setWidth 32 } }) ∧
    (csrWrite { core := some c, warden := false } 0x100000020 4 v s = s) ∧
    (∀ w, w < 20 → csrWrite { core := some c, warden := true } (0x100000200 + 8 * w) 4 v s = { s with
        events := Tab.upd 0 s.events w (fun e => e &&& ~~~(v.setWidth 32 &&& BitVec.ofNat 32 (eventMask w))) }) ∧
    (∀ fn, s.off = false → funcReady s fn = true →
      exec (.registerWrite (.bar0 fn) 0x10 4 v) s = .next (updFunc fn (fun f => { f with qsel := v.toNat % 2 ^ 12 }) s) ∧
      ((getQueue s fn (getFunc s fn).qsel).st = 0 →
        exec (.registerWrite (.bar0 fn) 0x18 4 v) s =
          .next (updQueue fn (getFunc s fn).qsel (fun q => { q with
            sqb := (q.sqb &&& 0xFFFFFFFF00000000) ||| ((v.setWidth 32).setWidth 64 &&& 0xFFFFF000) }) s)) ∧
      ((getQueue s fn (getFunc s fn).qsel).st ≠ 0 → exec (.registerWrite (.bar0 fn) 0x18 4 v) s = .next s) ∧
      exec (.registerWrite (.bar0 fn) 0x40 4 v) s =
        .next (updFunc fn (fun f => { f with ferr := f.ferr &&& ~~~(v.setWidth 32 &&& 0x1F) }) s))) ∧
  (
  ∀ (s : State) (c a : Nat), c < 26 → csrShape a 8 = true → coreMay s c false a = true →
    exec (.resultDoneRead c a) s = .next (csrRead (whoCore s c) a 8 s).2 ∧
    (∀ u w, (csrWindow a, u) ∈ [(2, 0), (4, 1), (3, 2), (6, 3), (5, 4)] → 0x10000 ≤ csrSlot a →
      winField u (winOff (csrSlot a)) = (c, w, .status) →
      exec (.resultDoneRead c a) s = .next (updWin u c w (fun x => { x with done := false }) s)) ∧
    (∀ w, w < 8 → a = 0x100210048 + 0x400 * c + 0x80 * w →
      exec (.resultDoneRead c a) s = .next (updWin 0 c w (fun x => { x with done := false }) s)) ∧
    (a = 0x100C10058 + 0x80 * c →
      exec (.resultDoneRead c a) s = .next (updCvWin c (fun x => { x with done := false }) s)) ∧
    (∀ k, k < 4 → (getCore s c).warden = true → a = 0x100D30048 + 0x1000 * k →
      exec (.resultDoneRead c a) s = .next (updEx k (fun w => { w with win := { w.win with done := false } }) s))) ∧
  (
  ∀ (s : State) (key : List Byte) (a : Nat) (v : W64), s.off = false →
    (key = s.pm.linkKey → key ≠ [] →
      (onVaultDie a = true → csrShape a 8 = true →
        exec (.dieLinkTransfer ⟨key, true⟩ a v) s = .next (csrWrite { core := none, warden := true } a 8 v s)) ∧
      (onVaultDie a = false → exec (.dieLinkTransfer ⟨key, true⟩ a v) s = .next s) ∧
      exec (.dieLinkTransfer ⟨key, true⟩ 0x100E00040 v) s = .next { s with nf := { s.nf with timeout := v.setWidth 32 } }) ∧
    (∀ intact, intact = false ∨ key ≠ s.pm.linkKey ∨ key = [] → Tab.get false s.tm.fired 14 = false →
      ∃ t, exec (.dieLinkTransfer ⟨key, intact⟩ a v) s = .next t ∧ Tab.get false t.tm.fired 14 = true ∧
        t.mem = s.mem ∧ t.pc = s.pc ∧ t.nf = s.nf ∧
        (1 ≤ effResp s 14 → (Tab.get 0 t.events 15).getLsbD 0 = true) ∧
        (effResp s 14 = 3 → s.tm.running < 3 → t.tk.keep = none))) ∧
  (
  ∀ (s : State) (bad fixed : List SramWord), s.off = false →
    ∃ t, exec (.sramScrub bad fixed) s = .next t ∧ t.mem.ram = s.mem.ram ∧ t.mem.tags = s.mem.tags ∧ t.pc = s.pc ∧ t.time = s.time ∧
      (∀ area, area < 6 →
        Tab.get 0 t.ledger.items (eccItem area + 1) = Tab.get 0 s.ledger.items (eccItem area + 1) +
          (bad.filter (fun w => wordExists s w && wordArea w == area)).length ∧
        Tab.get 0 t.ledger.items (eccItem area) = Tab.get 0 s.ledger.items (eccItem area) +
          (fixed.filter (fun w => wordExists s w && wordArea w == area)).length) ∧
      (∀ w ∈ bad, wordExists s w = true →
        (Tab.get 0 t.events (Config.eccLeaf (wordArea w) / 32 % 20)).getLsbD
          (Config.eccLeaf (wordArea w) % 32 % Nat.log2 (eventMask (Config.eccLeaf (wordArea w) / 32 % 20) + 1)) = true) ∧
      (∀ a, .addr a ∈ bad → isSram a = true → Tab.get false t.mem.poison (a / 8) = true) ∧
      (∀ i, (∀ a, .addr a ∈ bad → a / 8 ≠ i) → Tab.get false t.mem.poison i = Tab.get false s.mem.poison i) ∧
      (∀ h x, .tack h ∈ bad → tackRec s h = some x → x.resident = true → (tackRec t h).any (fun y => y.bad) = true) ∧
      (∀ h, .tack h ∉ bad → tackRec t h = tackRec s h) ∧
      (∀ e b i, .bank e b i ∈ bad → e < 68 → b < 8 → i < 1024 → Tab.get false t.pk.poison (8192 * e + 1024 * b + i) = true))

/-- R317: a write of a region register that is not a single 64-bit access, that sets bit 0, or that is LIVE with an ORDER
above 28 or a FRAME that is no multiple of 2^ORDER, leaves every region unchanged and sets CFG_REFUSED; any other is
taken, and so is every write with LIVE clear, whatever its other fields. One from another level is dropped, and so is
any while the logic die is off (R10). -/
def Obligations.RegionWritesAreChecked : Prop :=
  ∀ (s : State) (u r width : Nat) (v : W64), u < 41 → r < 32 →
    exec (.regionWrite false u r width v) s = .next s ∧
    (s.off = true → exec (.regionWrite true u r width v) s = .next s) ∧
    (s.off = false →
    let refusedValue := width ≠ 8 ∨ v.getLsbD 0 = true ∨
      (v.getLsbD 63 = true ∧ (28 < v.toNat / 2 ^ 58 % 32 ∨ v.toNat / 2 ^ 30 % 2 ^ 28 % 2 ^ (v.toNat / 2 ^ 58 % 32) ≠ 0))
    (refusedValue → exec (.regionWrite true u r width v) s = .next (setEvent 10 2 s)) ∧
    (¬ refusedValue → ∃ t, exec (.regionWrite true u r width v) s = .next t ∧ Tab.get 0 t.br.rgn (u * 32 + r) = v ∧
      (∀ i, i ≠ u * 32 + r → Tab.get 0 t.br.rgn i = Tab.get 0 s.br.rgn i) ∧ t.br.ufault = s.br.ufault ∧ t.br.faults = s.br.faults ∧
      t.mem = s.mem ∧ t.pc = s.pc ∧ eventSet t 10 2 = eventSet s 10 2))

/-! ### The cipher fabric (R55–R83) -/

/-- R62, R64, R76, R77, R78: a GO in an idle cipher window whose job is well-formed and need not wait admits it: the job
joins the queue with its number, its slices and the status that rows 2 to 4 of R78 give it (0 where it runs), and a
job that runs takes a use of its key. A HOLD job's OUTPUT has been staged by then. -/
def Obligations.CipherJobIsAdmitted : Prop :=
  ∀ (s : State) (c w : Nat), windowFree 0 c w s →
    ∀ (s0 s1 : State) (r : Req) (x : Win) (b : List Byte) (lenb code row : Nat) (kt st dt : Option Tack) (denied : Bool),
      s0 = started 0 c w s → r = sampleReq s c w → x = getWin 0 c w s0 → b = winBody 0 c w s0 → lenb = wrapLenb s0 r b →
      (s0.paddock r.paddock).st = 1 → cipherBad b true lenb x.handle.toNat = false →
      (cSrct b = true ∨ badHostRef s0 r (cSrc b) (readSpan b) false = false) →
      (cDstt b = true ∨ badHostRef s0 r (cDst b) (writeSpan b lenb) true = false) →
      (code, s1) = (if cHold b then holdStage r x.handle.toNat (writeSpan b lenb) (cDst b) 0 s0 else (0, s0)) →
      kt = liveTack s1 r.paddock (reinHandle x.key) → st = (if cSrct b then liveTack s1 r.paddock (cSrc b) else none) →
      dt = (if cDstt b then getTack s1 r.paddock (cDst b) else none) →
      denied = (code == 1 || cipherDenied s1 r b x.key x.aux lenb) →
      windowStatus s1 (kt.toList ++ st.toList ++ dt.toList) ≠ 255 →
      (denied = true ∨ ∀ k ∈ kt.toList ++ st.toList, fetchFailed s1 k = false ∧ needFetch s1 k = false) →
      (costSlices b lenb ≤ 1 ∨ ctxUsed s1 r.paddock < ctxAllowed s1 r.paddock) →
      row = (if denied then stDenied else
        if windowStatus s1 (kt.toList ++ st.toList ++ dt.toList) ≠ stOK then
          windowStatus s1 (kt.toList ++ st.toList ++ dt.toList)
        else if kt.any (useOverLimit s1) then stQuota else stOK) →
      (row ≠ stOK ∨ kt.all (useWithinBound s1) = true) →
      ∃ t j, exec (.cipherJob (.win c w)) s = .next t ∧ t.cf.jobs = s1.cf.jobs ++ [j] ∧ t.cf.nextNo = s1.cf.nextNo + 1 ∧
        j.no = s1.cf.nextNo ∧ j.req = r ∧ j.body = b ∧ j.row = row ∧ j.slices = costSlices b lenb ∧ j.done = 0 ∧ j.cut = 0 ∧
        j.adm = s.stride % 2 ^ 32 ∧ t.mem = s1.mem ∧ t.pc = s1.pc ∧
        (row ≠ stOK → t.tk = s1.tk) ∧
        (row = stOK → t.tk = (if cDstt b then updTack (cDst b) (fun k => { k with fillPending := true })
          (pendUse (reinHandle x.key) s1) else pendUse (reinHandle x.key) s1).tk)

/-! ### The public-key engines (R105–R133) -/

/-- R107, R113, R119, R128: a GO in an idle PKE window for any of the eighteen operations, well-formed and with nothing to
wait for, admits the job: it joins the queue with its number, its slices by R121 and R122 and the status that the rows
of R128 give it (0 where it runs). Without entropy an operation that draws ends BUSY_RETRY with no job. -/
def Obligations.PkeJobIsAdmitted : Prop :=
  ∀ (s : State) (c w op : Nat) (mk : Src → Instr), (op, mk) ∈ pkeCommands → windowFree 1 c w s →
    ∀ (s0 s1 : State) (r : Req) (x : Win) (b : List Byte) (code row : Nat) (kt st dt : Option Tack) (denied : Bool),
      pOp (winBody 1 c w s) = op →
      s0 = started 1 c w s → r = sampleReq s c w → x = getWin 1 c w s0 → b = winBody 1 c w s0 →
      (s0.paddock r.paddock).st = 1 → pkeBad b true x.key.tag x.handle.toNat = false →
      (pSrct b = true ∨ badHostRef s0 r (pSrc b) (pLen b) false = false) →
      badHostRef s0 r (pDst b) (dstSpan b) true = false → badHostRef s0 r (pDst2 b) (dst2Span b) true = false →
      (code, s1) = (if pHold b then holdStage r x.handle.toNat (dstSpan b) (pDst b) 0 s0 else (0, s0)) →
      kt = (if pkeCites b then liveTack s1 r.paddock (reinHandle x.key) else none) →
      st = (if pSrct b then liveTack s1 r.paddock (pSrc b) else none) →
      dt = (if pDstt b then getTack s1 r.paddock (pDst b) else none) →
      denied = (code == 1 || pkeDenied s1 r b x.key x.aux) →
      (s1.pk.entropyOk = false → opNoEntropy op = false → code ≤ 1 → ∃ t, exec (mk (.win c w)) s = .next t ∧
        t.pk.jobs = s1.pk.jobs ∧
        t.pk.pend = s1.pk.pend ++ [jobPend r (s1.tick + 1) stBusyRetry 0xFF 0 0 (s1.stride % 2 ^ 32)]) ∧
      ((s1.pk.entropyOk = true ∨ opNoEntropy op = true) →
        windowStatus s1 (kt.toList ++ st.toList ++ dt.toList) ≠ 255 →
        (denied = true ∨ ∀ k ∈ kt.toList ++ st.toList, fetchFailed s1 k = false ∧ needFetch s1 k = false) →
        row = (if denied then stDenied else
          if windowStatus s1 (kt.toList ++ st.toList ++ dt.toList) ≠ stOK then
            windowStatus s1 (kt.toList ++ st.toList ++ dt.toList)
          else if kt.any (useOverLimit s1) then stQuota else stOK) →
        (row ≠ stOK ∨ kt.all (useWithinBound s1) = true) →
        ∃ t j, exec (mk (.win c w)) s = .next t ∧ t.pk.jobs = s1.pk.jobs ++ [j] ∧ t.pk.nextNo = s1.pk.nextNo + 1 ∧
          j.no = s1.pk.nextNo ∧ j.req = r ∧ j.body = b ∧ j.row = row ∧ j.slices = pkeSlices b ∧ j.wide = pkeWide b ∧
          j.done = 0 ∧ j.eng = none ∧ j.adm = s.stride % 2 ^ 32 ∧ t.mem = s1.mem ∧ t.pc = s1.pc ∧
          (row ≠ stOK → t.tk = s1.tk))

/-! ### The cipher fabric (R55–R83) -/

/-- R45, R76, R77, R118: a cipher or PKE result that is due is written to its window, which sets DONE, clears BUSY and,
with IE, makes the unit's cause pending on the core; a host job's result goes to its completion queue, in its turn
among those due (R221). R96: the result of a stall command, due and its snapshot taken, carries STATUS, the stall's
STATE and REASON where OK, the stall and the two strides; it goes to the window, or in its turn (R221) to the
completion queue for a host's command. R83: CF_RSV takes a value up to 256 and CF_CTX one that keeps the staged sum at
512 or less; another write is refused with its event and leaves the staged values. R113, R131, R133: entropy failure
and recovery, with which every DRBG that has no state takes its first seed; the reseed of every DRBG, of an engine or
of custody (68), that is due, with and without entropy; and a Warden read of PK_DIAG_DATA, which gives the word of a
bank that holds no job, and zeros with its event while the bank holds one. -/
def Obligations.ResultsAndServiceCommands : Prop :=
  (
  ∀ (s : State) (p : Pend), p.due ≤ s.tick → p.status ≠ stUnitFenced →
    (∀ c w, s.cf.pend.find? (fun x => decide (x.req.src = .win c w)) = some p →
      ∃ t, exec (.cipherJobComplete (.win c w)) s = .next t ∧
        t.cf = { s.cf with
          pend := s.cf.pend.filter (fun x => decide (x.req.src ≠ .win c w)),
          wins := Tab.upd Win.reset s.cf.wins (c * 8 + w) (fun x => x.finish (p.bytes (s.stride % 2 ^ 32))) } ∧
        t.mem = s.mem ∧
        ((getWin 0 c w s).ie = true → (getCore t c).pend.getLsbD 5 = true) ∧ ((getWin 0 c w s).ie = false → t.pc = s.pc)) ∧
    (∀ c w, s.pk.pend.find? (fun x => decide (x.req.src = .win c w)) = some p →
      ∃ t, exec (.pkeJobComplete (.win c w)) s = .next t ∧
        t.pk = { s.pk with
          pend := s.pk.pend.filter (fun x => decide (x.req.src ≠ .win c w)),
          wins := Tab.upd Win.reset s.pk.wins (c * 8 + w) (fun x => x.finish (p.bytes (s.stride % 2 ^ 32))) } ∧
        t.mem = s.mem ∧
        ((getWin 1 c w s).ie = true → (getCore t c).pend.getLsbD 4 = true) ∧ ((getWin 1 c w s).ie = false → t.pc = s.pc)) ∧
    (∀ fn q n, s.cf.pend.find? (fun x => decide (x.req.src = .host fn q n)) = some p →
      hostTurn s (.host fn q n) = true →
      exec (.cipherJobComplete (.host fn q n)) s = .next (hostComplete fn q n (p.bytes (s.stride % 2 ^ 32))
        { s with cf := { s.cf with pend := s.cf.pend.filter (fun x => decide (x.req.src ≠ .host fn q n)) } })) ∧
    (∀ fn q n, s.pk.pend.find? (fun x => decide (x.req.src = .host fn q n)) = some p →
      hostTurn s (.host fn q n) = true →
      exec (.pkeJobComplete (.host fn q n)) s = .next (hostComplete fn q n (p.bytes (s.stride % 2 ^ 32))
        { s with pk := { s.pk with pend := s.pk.pend.filter (fun x => decide (x.req.src ≠ .host fn q n)) } }))) ∧
  (
  ∀ (s : State) (q : StReq) (bs : List Byte), q.pend.due ≤ s.tick → q.snap = false →
    bs = [BitVec.ofNat 8 q.pend.status, if q.pend.status = stOK then BitVec.ofNat 8 (stallState s q.stall) else 0,
      if q.pend.status = stOK then BitVec.ofNat 8 (stallField s q.stall 3 1) else 0, 0] ++
      natToLE 4 q.stall ++ q.pend.result ++ natToLE 4 s.stride →
    (∀ c w, s.st.pend.find? (fun x => decide (x.pend.req.src = .win c w)) = some q →
      exec (.stallCommandComplete (.win c w)) s = .next { s with st := { s.st with
        pend := s.st.pend.filter (fun x => decide (x.pend.req.src ≠ .win c w)),
        wins := Tab.upd Win.reset s.st.wins c (fun x => x.finish bs) } }) ∧
    (∀ fn qq m, s.st.pend.find? (fun x => decide (x.pend.req.src = .host fn qq m)) = some q →
      hostTurn s (.host fn qq m) = true →
      exec (.stallCommandComplete (.host fn qq m)) s = .next (hostComplete fn qq m bs
        { s with st := { s.st with pend := s.st.pend.filter (fun x => decide (x.pend.req.src ≠ .host fn qq m)) } }))) ∧
  (
  ∀ (s : State) (c : Nat) (v : W32),
    (coreMay s c true 0x100200028 = true →
      (v.toNat % 512 ≤ 256 → exec (.cfRsvWrite c v) s =
        .next { s with cf := { s.cf with rsvStaged := Tab.set 0 s.cf.rsvStaged s.cf.psel (v.toNat % 512) } }) ∧
      (256 < v.toNat % 512 → exec (.cfRsvWrite c v) s = .next (setEvent 2 4 s))) ∧
    (coreMay s c true 0x100200030 = true → ∀ sum, sum = ((List.range 256).map (fun p =>
        if p = s.cf.psel then v.toNat % 1024 else Tab.get 2 s.cf.ctxStaged p)).sum →
      (sum ≤ 512 → exec (.cfCtxWrite c v) s =
        .next { s with cf := { s.cf with ctxStaged := Tab.set 2 s.cf.ctxStaged s.cf.psel (v.toNat % 1024) } }) ∧
      (512 < sum → exec (.cfCtxWrite c v) s = .next (setEvent 2 5 s)))) ∧
  (
  ∀ s : State,
    (s.pm.onCell = false →
      exec .entropyHealthFail s = .next (setEvent 4 3 { s with pk := { s.pk with entropyOk := false, sourceBad := true } }) ∧
      (4 ≤ s.pm.step → s.pk.drbgs ≠ [] →
        exec .entropyHealthRecovered s = .next { s with pk := { s.pk with sourceBad := false, entropyOk := true } }) ∧
      (4 ≤ s.pm.step → s.pk.drbgs = [] → ∃ t, exec .entropyHealthRecovered s = .next t ∧ t.pk.entropyOk = true ∧
        t.pk.sourceBad = false ∧ (∀ u, u < 68 → (engineDrbg t u).count = 1) ∧ t.tk.drbg.count = 1 ∧ t.mem = s.mem ∧
        t.pc = s.pc)) ∧
    (∀ drbgs : State → Nat → Drbg, (drbgs = fun x u => if u < 68 then engineDrbg x u else x.tk.drbg) →
      ((∀ u, u ≤ 68 → (drbgs s u).due s.tick = false) → exec .drbgReseed s = .next s) ∧
      ∃ t, exec .drbgReseed s = .next t ∧ t.mem = s.mem ∧ t.pc = s.pc ∧
        (∀ u, u ≤ 68 → (drbgs s u).due s.tick = false → drbgs t u = drbgs s u) ∧
        (s.pk.entropyOk = true → t.pk.reseedFails = s.pk.reseedFails ∧ ∀ u, u ≤ 68 → (drbgs s u).due s.tick = true →
          (drbgs t u).count = 1 ∧ (drbgs t u).seeded = s.tick) ∧
        (s.pk.entropyOk = false → (∀ u, u ≤ 68 → drbgs t u = drbgs s u) ∧ ∀ n, 0 < n →
          n = ((List.range 69).filter (fun u => (drbgs s u).due s.tick)).length →
          t.pk.reseedFails = min (s.pk.reseedFails + n) 0xFFFF)) ∧
    (∀ c rd k, coreMay s c false 0x100400030 = true → 0 < rd → rd < 64 →
      k = 8192 * natBits s.pk.diagSel.toNat 16 7 + natBits s.pk.diagSel.toNat 0 13 →
      ∃ t, exec (.pkDiagRead c rd) s = .next t ∧ t.pk = s.pk ∧ t.mem = s.mem ∧
        ((getCore s c).warden = false → Tab.get 0 (getCore t c).g rd = 0 ∧ t.events = s.events) ∧
        ((getCore s c).warden = true → diagBusy s = true →
          Tab.get 0 (getCore t c).g rd = 0 ∧ (Tab.get 0 t.events 4).getLsbD 4 = true) ∧
        ((getCore s c).warden = true → diagBusy s = false → Tab.get false s.pk.poison k = true →
          Tab.get 0 (getCore t c).g rd = 0) ∧
        ((getCore s c).warden = true → diagBusy s = false → Tab.get false s.pk.poison k = false →
          Tab.get 0 (getCore t c).g rd = Tab.get 0 s.pk.words k ∧ t.events = s.events)))

/-! ### The Stable (R84–R104) -/

/-- R93, R95, R96: a stall command through an idle window. One that passes R95 has its effect from the next boundary
(ALLOC: the header of a drawn stall; LOAD: the image read at admission; ARM, EXPIRE, RETIRE: the move; READ: the
snapshot) and owes an OK result in the next stride; one that does not owes its status alone and changes nothing. An
ARM that a tack's durable bound holds back is left out here: it waits. -/
def Obligations.StallCommandsTakeEffect : Prop :=
  ∀ (s : State) (c w op : Nat) (mk : Src → Instr), (op, mk) ∈ stallCommands → windowFree 2 c w s →
    ∀ (s0 : State) (r : Req) (b : List Byte) (n pre : Nat), s0 = started 2 c w s → r = sampleReq s c w →
      b = winBody 2 c w s0 → byteAt b 0 = op → n = field b 4 4 →
      pre = stallStatus s0 r.paddock none r.owns b (some []) →
      ∀ owes : Nat → Nat → State → State,
        owes = (fun status num t => { t with st := { t.st with pend := t.st.pend ++
          [{ pend := { req := r, due := s.tick + 1, status := status, result := natToLE 4 s.stride },
             op := op, stall := num, addr := field b 8 8, snap := status = stOK && op == 6 }] } }) →
      (op ≠ 2 → pre ≠ stOK → exec (mk (.win c w)) s = .next (owes pre (if op = 1 then 0xFFFFFFFF else n) s0)) ∧
      (pre = stOK → op = 1 → exec (mk (.win c w)) s =
        .next (owes stOK (drawStall s0).1 (allocStall r.paddock (byteAt b 1) (drawStall s0).1 (drawStall s0).2))) ∧
      (op = 2 → stallBodyBad b = false → (s0.paddock r.paddock).st = 1 →
        ∀ img s1 status, reqRead r (field b 8 8) 256 s0 = (img, s1) → status = stallStatus s1 r.paddock none r.owns b img →
        exec (mk (.win c w)) s = .next (owes status n
          (if status = stOK then { s1 with st := { s1.st with loads := s1.st.loads ++ [(n, img.getD [])] } } else s1))) ∧
      (op = 2 → (stallBodyBad b = true → pre = stMalformed) ∧
        (stallBodyBad b = true ∨ (s0.paddock r.paddock).st ≠ 1 →
          pre ≠ stOK ∧ exec (mk (.win c w)) s = .next (owes pre n s0))) ∧
      (pre = stOK → op = 3 → armWaits s0 r.paddock n = false →
        exec (mk (.win c w)) s = .next (owes stOK n (stallEffect 3 n [] s0))) ∧
      (pre = stOK → 4 ≤ op → exec (mk (.win c w)) s = .next (owes stOK n
          (if op = 4 then causeLeave n 4 s0
           else if op = 5 then { s0 with st := { s0.st with move := Tab.set 0 s0.st.move n 4 } } else s0)))

/-- R93: whenever some stall is FREE and not drawn, the stall that ALLOC draws is one of them (which one is free, log 3).
R89, R91: after its stride in RETIRING a stall is WIPING with every byte but STATE and PADDOCK zero, and after its
stride in WIPING it is FREE with all 256 bytes zero; no byte outside the stall changes. R92, R102: a LIVE stall found
outside its tack's window for good is recorded to leave with reason 7, one outside its own window with reason 1, the
first in the order of R92 standing; a stall inside both is left alone. R104: ST_QUOTA takes a value that keeps the sum
at 65,536 and is not below the paddock's use, else QUOTA_REFUSED; a read of ST_EXPQ gives the oldest entry, which
leaves the queue, or zero. -/
def Obligations.StallEventsComplete : Prop :=
  (
  ∀ s : State, (∃ m, m < 65536 ∧ stallState s m = 0 ∧ stallDrawn s m = false) →
    (drawStall s).1 < 65536 ∧ stallState s (drawStall s).1 = 0 ∧ stallDrawn s (drawStall s).1 = false) ∧
  (
  ∀ (s : State) (n : Nat), n < 65536 → Tab.get 0 s.st.since n < s.tick →
    (stallState s n = 4 → ∃ t, exec (.stallRetiringEnd n) s = .next t ∧
      (∀ i, i < 256 → ramByte t (stallAddr n + i) =
        if i = 0 then 5 else if i = 2 then ramByte s (stallAddr n + 2) else 0) ∧
      (∀ a, a < stallAddr n ∨ stallAddr n + 256 ≤ a → ramByte t a = ramByte s a) ∧
      t.st = { s.st with since := Tab.set 0 s.st.since n s.tick } ∧ t.pc = s.pc ∧ t.events = s.events) ∧
    (stallState s n = 5 → ∃ t, exec (.stallWipingEnd n) s = .next t ∧
      (∀ i, i < 256 → ramByte t (stallAddr n + i) = 0) ∧
      (∀ a, a < stallAddr n ∨ stallAddr n + 256 ≤ a → ramByte t a = ramByte s a) ∧
      t.st = { s.st with since := Tab.set 0 s.st.since n 0 } ∧ t.pc = s.pc ∧ t.events = s.events)) ∧
  (
  ∀ (s : State) (n : Nat), stallState s n = 2 →
    (∀ t, tackRec s (stallTack s n) = some t → windowOver s.time (t.fromT, t.untilT) = true →
      windowOver s.time (stallWindow s n) = false → exec (.stallWindowExpiry n) s = .next (causeLeave n 7 s)) ∧
    ((∀ t, tackRec s (stallTack s n) = some t → windowOver s.time (t.fromT, t.untilT) = false) →
      windowOver s.time (stallWindow s n) = true → exec (.stallWindowExpiry n) s = .next (causeLeave n 1 s)) ∧
    ((∀ t, tackRec s (stallTack s n) = some t → windowOver s.time (t.fromT, t.untilT) = false) →
      windowOver s.time (stallWindow s n) = false → exec (.stallWindowExpiry n) s = .next s)) ∧
  (
  ∀ (s : State) (c : Nat),
    (∀ v sum, coreMay s c true 0x100300028 = true →
      sum = Tab.total s.st.quota (fun q k => if q = s.st.psel then 0 else k) + v.toNat % 131072 →
      (sum ≤ 65536 → stallsUsed s s.st.psel ≤ v.toNat % 131072 → exec (.stQuotaWrite c v) s =
        .next { s with st := { s.st with quota := Tab.set 0 s.st.quota s.st.psel (v.toNat % 131072) } }) ∧
      (65536 < sum ∨ v.toNat % 131072 < stallsUsed s s.st.psel → exec (.stQuotaWrite c v) s = .next (setEvent 3 3 s))) ∧
    (∀ rd, coreMay s c false 0x100300040 = true → 0 < rd → rd < 64 →
      (∀ e rest, s.st.expq = e :: rest → exec (.expqRead c rd) s =
        .next (updCore c (fun k => { k with g := Tab.set 0 k.g rd e }) { s with st := { s.st with expq := rest } })) ∧
      (s.st.expq = [] → exec (.expqRead c rd) s = .next (updCore c (fun k => { k with g := Tab.set 0 k.g rd 0 }) s))))

/-! ### Cinch transactions (R134–R173) -/

/-- R134, R141: an OPEN that its checks pass takes the free slot: OPEN, the next SEQ, the class asked for, the requester
as owner, no action; the result names it in the next stride. No other slot changes. R142, R150: a STAGE on an OPEN
Cinch of the requester that passes the table and whose data can be read adds its action to the Cinch; a VAULT action
waits for the record store and a CARD_RPMB action for the card. R141, R145, R151, R164: COMMIT of an OPEN Cinch makes
it COMMITTING, ABORT marks it to abort at the next boundary, QUERY changes nothing but its request, LOOKUP asks the
record store, and RESOLVE of an INDOUBT Cinch waits for the exchange. -/
def Obligations.CinchRequestsAct : Prop :=
  (
  ∀ (s : State) (c i : Nat) (s0 : State) (r : Req) (b : List Byte), windowFree 4 c 0 s → (getWin 4 c 0 s).opc = 1 →
    s0 = started 4 c 0 s → r = sampleReq s c 0 → b = winBody 4 c 0 s0 → (getWin 4 c 0 s).handle = 0 →
    byteAt b 0 ≤ 1 → zeroSpan b 1 63 = true → (s0.paddock r.paddock).st = 1 →
    openUsed s0 r.paddock < Tab.get 0 s.cn.quotaOpen r.paddock → freeSlot s0 = some i →
    (s.pm.nandFail = false ∨ byteAt b 0 = 0) →
    ∃ t x, exec (.cinchOpen (.win c 0)) s = .next t ∧ getCinch t i = x ∧
      x = { Cinch.free with st := 1, seq := nextSeq (getCinch s i).seq, durable := byteAt b 0 == 1, owner := c,
                            paddock := r.paddock, gen := (s0.paddock r.paddock).gen, openedAt := s.tick } ∧
      (∀ j, j ≠ i → getCinch t j = getCinch s j) ∧
      t.cn.reqs = s.cn.reqs ++ [cnReq r c 1 i (cinchHandle x i) (s.tick + 1)
        (some (cinchHead stOK 1 0 255 (cinchHandle x i) 0))] ∧ t.mem = s.mem ∧ t.pc = s.pc) ∧
  (
  ∀ (s : State) (c i h : Nat) (s0 s1 : State) (r : Req) (b : List Byte) (a : Action) (d : List Byte),
    windowFree 4 c 0 s → (getWin 4 c 0 s).opc = 2 → s0 = started 4 c 0 s → r = sampleReq s c 0 → b = winBody 4 c 0 s0 →
    h = (getWin 4 c 0 s).handle.toNat → i = h % 4096 → a = stageAction b (getWin 4 c 0 s0).key →
    handleOk s0 r c h true = true → (getCinch s0 i).st = 1 → (s0.paddock r.paddock).st = 1 →
    stageStatus s0 i (getCinch s0 i) a (stageBodyBad b) (some (zeros 256)) none = stOK →
    (a.typ = 4 → s.pm.nandFail = false) →
    ¬(a.typ = 1 ∧ a.sub = 3 ∧ armWaits (stallsAfter s0 (getCinch s0 i)) (getCinch s0 i).paddock a.obj = true) →
    (if field b 0x18 4 = 0 then (some [], false, s0) else cinchRead r (field b 0x10 8) (field b 0x18 4) s0) = (some d, false, s1) →
    (a.typ ≠ 4 → a.typ ≠ 7 → (a.typ = 1 → a.sub = 2 → imageClean d = true) →
      exec (.cinchStage (.win c 0)) s = .next (stageFinish r c i h { a with data := d } false s1) ∧
      ∃ t a1, exec (.cinchStage (.win c 0)) s = .next t ∧ (getCinch t i).actions = (getCinch s1 i).actions ++ [a1] ∧
        a1.typ = a.typ ∧ a1.sub = a.sub ∧ a1.obj = a.obj ∧ a1.arg = a.arg ∧ a1.data = d ∧ t.mem = s1.mem ∧ t.pc = s1.pc) ∧
    (a.typ = 4 → exec (.cinchStage (.win c 0)) s = .next (addReq { cnReq r c 2 i h (s.tick + 1) none with
      waitsStore := true, act := some { a with data := d } } s1)) ∧
    (a.typ = 7 → exec (.cinchStage (.win c 0)) s = .next (addReq { cnReq r c 2 i h (s.tick + 1) none with
      waitsCard := true, act := some { a with data := d } } s1))) ∧
  (
  ∀ (s : State) (c h : Nat) (s0 : State) (r : Req) (b : List Byte), windowFree 4 c 0 s → s0 = started 4 c 0 s →
    r = sampleReq s c 0 → b = winBody 4 c 0 s0 → h = (getWin 4 c 0 s).handle.toNat →
    ((getWin 4 c 0 s).opc = 3 → zeroSpan b 0 64 = true → handleOk s0 r c h true = true → (getCinch s0 (h % 4096)).st = 1 →
      ∃ t, exec (.cinchCommit (.win c 0)) s = .next t ∧ getCinch t (h % 4096) = { getCinch s (h % 4096) with
          st := 2, commitAt := s.tick, commitPending := true,
          envelopeDurable := !((getCinch s (h % 4096)).actions.any (fun a => a.typ == 2 && a.sub == 1)) } ∧
        t.cn.reqs = s.cn.reqs ++ [cnReq r c 3 (h % 4096) h (s.tick + 1) none] ∧ t.mem = s.mem ∧ t.pc = s.pc) ∧
    ((getWin 4 c 0 s).opc = 4 → zeroSpan b 0 64 = true → handleOk s0 r c h true = true → (getCinch s0 (h % 4096)).st = 1 →
      exec (.cinchAbort (.win c 0)) s =
        .next (addReq (cnReq r c 4 (h % 4096) h (s.tick + 1) none) (markAbort (h % 4096) 1 stAborted 255 s0))) ∧
    ((getWin 4 c 0 s).opc = 5 → zeroSpan b 0 64 = true → handleOk s0 r c h false = true →
      exec (.cinchQuery (.win c 0)) s = .next (addReq (cnReq r c 5 (h % 4096) h (s.tick + 1) none) s0)) ∧
    ((getWin 4 c 0 s).opc = 6 → zeroSpan b 0 4 = true → field b 4 4 ≤ 255 → zeroSpan b 8 8 = true → zeroSpan b 0x18 4 = true →
      zeroSpan b 0x3C 4 = true → h = 0 → (s0.paddock r.paddock).st = 1 → s.pm.nandFail = false →
      exec (.cinchLookup (.win c 0)) s = .next (addReq { cnReq r c 6 4096 0 (s.tick + 1) none with
        waitsStore := true, dest := field b 0x10 8, vkey := (b.drop 0x1C).take 32, table := field b 4 4 } s0)) ∧
    ((getWin 4 c 0 s).opc = 7 → byteAt b 0 ≤ 4 → zeroSpan b 1 63 = true → handleOk s0 r c h false = true →
      (getCinch s0 (h % 4096)).st = 5 → (getCinch s0 (h % 4096)).outcomeForced = 0 →
      ((extAction (getCinch s0 (h % 4096))).any (fun p => p.2.typ == 7) = false ∨ byteAt b 0 = 0) →
      exec (.cinchResolve (.win c 0)) s = .next (addReq { cnReq r c 7 (h % 4096) h (s.tick + 1) none with
        waitsCard := true, dest := byteAt b 0 } s0)))

/-- R137, R141, R143, R145, R160, R368, R372: the record store's answer ends a LOOKUP (the record's bytes written to the
destination, or "absent") or stages a VAULT action; a card's counter, in a response frame that authenticates under the
cited tack, stages a CARD_RPMB action, and a card that is not ready ends CARD_ABSENT; a due result goes to the window
and, where it reports an ending, frees the slot. -/
def Obligations.CinchAnswersComplete : Prop :=
  ∀ (s : State) (c : Nat) (q : CnReq) (s1 : State),
    s1 = { s with cn := { s.cn with reqs := s.cn.reqs.filter (fun x => x.core != c) } } →
    (s.cn.reqs.find? (fun x => x.core == c && x.waitsStore) = some q → q.opc = 6 →
      (vaultValue s q.req.paddock q.table q.vkey = none → ∀ full, exec (.recordStoreAnswer c full) s = .next
        { s with cn := { s.cn with reqs := s.cn.reqs.filter (fun x => x.core != c) ++
          [cnReq q.req c 6 0 0 (s.tick + 1) (some (cinchHead stOK 0 0 255 0 0xFFFFFFFF))] } }) ∧
      (∀ v s2, vaultValue s q.req.paddock q.table q.vkey = some v → v ≠ [] → reqWrite q.req q.dest v s = (true, s2) →
        ∀ full, exec (.recordStoreAnswer c full) s = .next
          { s2 with cn := { s2.cn with reqs := s2.cn.reqs.filter (fun x => x.core != c) ++
            [cnReq q.req c 6 0 0 (s.tick + 1) (some (cinchHead stOK 0 0 255 0 v.length))] } })) ∧
    (∀ (a : Action) (full : Bool), s.cn.reqs.find? (fun x => x.core == c && x.waitsStore) = some q → q.opc ≠ 6 →
      q.act = some a → (getCinch s1 q.slot).st = 1 →
      (recordStatus s1 q.slot (getCinch s1 q.slot) a q.rows full = stOK → (a.data = [] → a.pages = 0) → q.readFault = false →
        exec (.recordStoreAnswer c full) s = .next (stageFinish q.req c q.slot q.handle a false s1)) ∧
      (recordStatus s1 q.slot (getCinch s1 q.slot) a q.rows full ≠ stOK → exec (.recordStoreAnswer c full) s =
        .next (refuseReq q.req c 2 q.handle (recordStatus s1 q.slot (getCinch s1 q.slot) a q.rows full) s1))) ∧
    (∀ (a : Action) (ans : ExAnswer),
      s.cn.reqs.find? (fun x => x.core == c && x.waitsCard && x.opc == 2) = some q → q.act = some a →
      (getCinch s q.slot).st = 1 →
      ((getMc s a.obj).ready = true → ∀ k s2, cardCounter a ans.kind ans.data s1 = (k, s2) →
        exec (.stageCounterRead c ans) s = .next (
          if (getMc s2 a.obj).expired = true then refuseReq q.req c 2 q.handle stDenied s2
          else if k = 0 then stageFinish q.req c q.slot q.handle
            { a with cidHash := cidHash (getMc s a.obj).cid, wstaged := rpmbCount ans.data } false s2
          else refuseReq q.req c 2 q.handle (if k = 3 then stCheckFail else stMediaError) s2)) ∧
      ((getMc s a.obj).ready = false →
        exec (.stageCounterRead c ans) s = .next (refuseReq q.req c 2 q.handle stCardAbsent s1))) ∧
    (s.cn.reqs.find? (fun x => x.core == c) = some q → q.due ≤ s.tick → q.waitsStore = false → q.waitsCard = false →
      ∀ head, (q.live = false ∧ (q.result = some head ∨
          (q.result = none ∧ q.opc ≠ 3 ∧ q.opc ≠ 7 ∧ head = slotHead (getCinch s q.slot) q.slot))) ∨
        (∃ h0, q.live = true ∧ q.result = some h0 ∧ head = liveHead (getCinch s q.slot) q.slot q.handle h0) →
      ∃ t, exec (.cinchRequestComplete c) s = .next t ∧ t.cn.reqs = s.cn.reqs.filter (fun y => y.core != c) ∧
        t.cn.wins = Tab.upd Win.reset s.cn.wins c (fun w => w.finish (head ++ natToLE 4 s.stride)) ∧ t.mem = s.mem ∧
        (q.live = false → byteAt head 1 = 7 → (getCinch s q.slot).st = 7 →
          cinchHandle (getCinch s q.slot) q.slot = q.handle → (getCinch t q.slot).st = 0) ∧
        (byteAt head 1 ≠ 7 ∨ q.live = true → t.cn.slots = s.cn.slots) ∧
        ((getWin 4 c 0 s).ie = true → (getCore t c).pend.getLsbD 3 = true))

/-- R145, R146, R147, R157, R158, R165–R168: the decision point of a COMMITTING Cinch (an action that fails its re-check
marks an abort; a VOLATILE Cinch applies; a DURABLE one puts its INTENT, CONT and DECIDE records into this stride's
batch, each with the CHECK of its JSEQ, and takes its number from its DECIDE record), its batch and the checkpoint
named in it becoming durable, APPLY in the first stride after, a forced outcome once durable, and the timeout of an
undecided and of an ENDED Cinch. -/
def Obligations.CinchDecidesAndApplies : Prop :=
  ∀ (s : State) (i : Nat) (x : Cinch), x = getCinch s i →
    (decisionReady s x = true → (x.durable = true → x.custody = false → commitSlotFree s x.paddock = true) →
      (∀ k, failingAction s i x = some k → exec (.cinchDecision i) s = .next (markAbort i 2 stDenied k s)) ∧
      (failingAction s i x = none → x.durable = false → exec (.cinchDecision i) s = .next (applyCinch i s)) ∧
      (failingAction s i x = none → x.durable = true →
        ∀ d rs all, d = nextRecord s + (intentRecords x (cinchHandle x i) 0).length →
          rs = intentRecords x (cinchHandle x i) d → all = rs ++ [decideRecord x (cinchHandle x i) d s.stride rs] →
        ∃ t b, exec (.cinchDecision i) s = .next t ∧ t.cn.journal.getLast? = some b ∧ b.stride = s.stride ∧
          b.durable = false ∧ b.first = (openBatch s).first ∧
          b.recs.drop 1 = (openBatch s).recs.drop 1 ++ all.zipIdx.map (fun p => jSealed (nextRecord s + p.2) p.1) ∧
          t.cn.jseq = nextRecord s + all.length ∧
          getCinch t i = { x with st := 3, dseq := d, decidedAt := s.stride, batchDurable := false } ∧
          (∀ j, j ≠ i → getCinch t j = getCinch s j) ∧ t.mem = s.mem ∧ t.tk = s.tk ∧ t.pc = s.pc)) ∧
    (∀ batch, batch < s.stride → ∃ t, exec (.journalBatchDurable batch) s = .next t ∧
      (∀ b ∈ t.cn.journal, b.stride = batch → b.durable = true) ∧
      (∀ b ∈ s.cn.journal, b.stride ≠ batch → b.durable = false → b ∈ t.cn.journal) ∧
      t.cn.slots = Tab.mapVals Cinch.free (fun _ x =>
        if (x.st = 3 ∨ x.st = 4) ∧ x.decidedAt = batch ∧ !x.batchDurable then
          { x with batchDurable := true, applyDue := s.tick + 1 }
        else if x.st = 5 ∧ x.outcome ≠ 0 ∧ outcomeIn s batch x.dseq then { x with outcomeDurable := true } else x) s.cn.slots ∧
      (∀ k, s.cn.ckptNext = some k → k.stride = batch →
        t.cn.ckpt = k.ckid ∧ t.cn.ckptCounters = k.counters ∧ t.cn.ckptNext = none) ∧
      ((∀ k, s.cn.ckptNext = some k → k.stride ≠ batch) →
        t.cn.ckpt = s.cn.ckpt ∧ t.cn.ckptCounters = s.cn.ckptCounters ∧ t.cn.ckptNext = s.cn.ckptNext) ∧
      (∀ v ∈ s.cn.vault, v.value ≠ none → v ∈ t.cn.vault) ∧ t.cn.counters = s.cn.counters ∧ t.mem = s.mem ∧ t.tk = s.tk) ∧
    (x.st = 3 → x.batchDurable = true → x.applyDue ≤ s.tick → x.external = false →
      exec (.cinchApply i) s = .next (applyCinch i s)) ∧
    (x.st = 6 → x.applyDue ≤ s.tick → exec (.cinchApply i) s = .next (applyCopies i s)) ∧
    (x.st = 4 → x.outcome = 1 → x.applyDue ≤ s.tick → exec (.cinchApply i) s = .next (applyCinch i s)) ∧
    (x.st = 5 → x.outcomeDurable = true →
      (x.outcomeForced = 1 →
        exec (.cinchApply i) s = .next (applyCinch i (updCinch i (fun y => { y with cause := 0x12 }) s))) ∧
      (x.outcomeForced = 2 → exec (.cinchApply i) s = .next (abortCinch i 0x13 stAborted 255 (journalClosed i s)))) ∧
    (x.openedAt + cinchTimeout s ≤ s.tick → x.cmd = none →
      (x.undecided = true → x.abortCause = 0 →
        exec (.cinchTimeout i) s = .next (setEvent 5 3 (markAbort i 5 stAborted 255 s))) ∧
      (x.st = 7 → ∃ t, exec (.cinchTimeout i) s = .next t ∧ (getCinch t i).st = 0 ∧ (getCinch t i).seq = x.seq ∧
        t.mem = s.mem))

/-- R158, R160–R164, R368: the external write of a Cinch whose pending decide record is durable starts when the identity
and the counter agree, and is otherwise not applied; its end is applied, not applied or in doubt by what the card's
authenticated frame or the token answered; and a resolution of an INDOUBT write follows the counter, and for a card
the half-sector, that it read. -/
def Obligations.ExternalWritesSettle : Prop :=
  ∀ (s : State) (i idx : Nat) (x : Cinch) (act : Action) (ans : ExAnswer), x = getCinch s i →
    extAction x = some (idx, act) →
    (x.st = 3 → x.batchDurable = true → x.applyDue ≤ s.tick → exBusy s (extCode act) = false →
      (act.typ = 7 → act.obj < 2 → (getMc s act.obj).ready = true →
        ∀ k s1, cardCounter act ans.kind ans.data s = (k, s1) → exec (.cinchExternalWrite i ans) s = .next (
          if cidHash (getMc s act.obj).cid ≠ act.cidHash then extNotApplied i 0x09 stCardAbsent idx s
          else if k = 0 ∧ rpmbCount ans.data = act.wstaged then setExt (extCode act) (some i)
            (updCinch i (fun y => { y with st := 4, applyDue := 0 }) (sendCardWrite act s1))
          else extNotApplied i 0x0A stMediaError idx s1)) ∧
      (act.typ = 8 → act.obj ≤ 4 → (act.obj = 4 → s.nf.resetting = false) → ∀ ok s1, tokenCheck act act.obj ans s = (ok, s1) →
        exec (.cinchExternalWrite i ans) s = .next (
          if ok = true then setExt (extCode act) (some i) (updCinch i (fun y => { y with st := 4, applyDue := 0 }) s1)
          else extNotApplied i 0x09 stCardAbsent idx s1))) ∧
    (x.st = 4 → act.typ = 7 → act.obj < 2 → (getMc s act.obj).ext = some i →
      ∀ s1 s5 k step, s1 = setExt (extCode act) none s → k = rpmbFinding (cardKey s act) none ans.kind ans.data →
        s5 = noteRpmb act.obj k ans.data s1 →
      (step = 1 → exec (.externalWriteEnd i step ans) s = .next (extNotApplied i 0x09 stCardAbsent idx s1)) ∧
      (step = 2 → exec (.externalWriteEnd i step ans) s = .next (extNotApplied i 0x0A stMediaError idx s1)) ∧
      (step = 3 ∨ step = 4 → exec (.externalWriteEnd i step ans) s = .next (extIndoubt i s1)) ∧
      (step = 5 → exec (.externalWriteEnd i step ans) s = .next (
        if k = 0 ∧ rpmbResult ans.data = 0 ∧ rpmbCount ans.data = act.wstaged + 1 then extApplied i 0 s5
        else if k = 0 ∧ rpmbResult ans.data ≠ 0 ∧ rpmbCount ans.data = act.wstaged then
          extNotApplied i 0x0A stMediaError idx s5
        else extIndoubt i s5))) ∧
    (x.st = 4 → act.typ = 8 → act.obj ≤ 4 → (act.obj = 4 → s.nf.ext = some i) →
      (act.obj < 4 → (getSc s act.obj).ext = some i) →
      ∀ s1, s1 = (if act.obj = 4 then carrierOff (setExt 0x20 none s) else setExt act.obj none s) →
      (exec (.externalWriteEnd i 1 ans) s = .next (extNotApplied i (if act.obj = 4 then 0x08 else 0x09)
        (if act.obj = 4 then stFieldLost else stCardAbsent) idx s1)) ∧
      (∀ step, step = 2 ∨ step = 3 → exec (.externalWriteEnd i step ans) s = .next (extIndoubt i s1)) ∧
      (ans.sw = 0x9000 → exec (.externalWriteEnd i 4 ans) s = .next (extApplied i 0 s1)) ∧
      (ans.sw / 256 = 0x62 ∨ ans.sw / 256 = 0x63 → exec (.externalWriteEnd i 4 ans) s = .next (
        if ans.kind ≠ 0 then extIndoubt i s1
        else if tokFinding act ans.resp = 1 then extApplied i 0x10 s1
        else if tokFinding act ans.resp = 2 then extNotApplied i 0x11 stAborted idx s1
        else setEvent 5 2 (extIndoubt i s1))) ∧
      (ans.sw ≠ 0x9000 → ans.sw / 256 ≠ 0x62 → ans.sw / 256 ≠ 0x63 →
        exec (.externalWriteEnd i 4 ans) s = .next (extNotApplied i 0x0A stDenied idx s1))) ∧
    (x.st = 5 → x.outcomeForced = 0 → act.typ = 7 → (getMc s act.obj).ready = true →
      ∀ k s1 n s2 k2, cardCounter act ans.kind ans.data s = (k, s1) → rpmbAsk act.obj 4 (act.arg % 65536) s1 = (n, s2) →
        k2 = rpmbFinding (cardKey s act) (some n) 0 ans.resp →
      ∀ stay, stay = (fun st (u : State) => answerResolve i (cinchHead st 5 0 255 (cinchHandle x i) 0) u) →
      exec (.resolutionEnd i ans) s = .next (
        if cidHash (getMc s act.obj).cid ≠ act.cidHash then stay stCardAbsent s
        else if k = 0 ∧ rpmbCount ans.data = act.wstaged then resolved i idx false s1
        else if k = 0 ∧ rpmbCount ans.data = act.wstaged + 1 ∧ k2 = 0 ∧ rpmbResult ans.resp = 0 ∧
          rpmbData ans.resp = takePad 256 act.data then resolved i idx true (noteRpmb act.obj k2 ans.resp s2)
        else setEvent 5 2 (stay stCinchIndoubt (noteRpmb act.obj k2 ans.resp s2)))) ∧
    (x.st = 5 → x.outcomeForced = 0 → act.typ = 8 → ∀ q, s.cn.reqs.find? (fun y => y.opc == 7 && y.slot == i && y.waitsCard) = some q →
      (q.dest = 4 → s.nf.resetting = false) →
      ∀ ok s1 stay off, tokenCheck act q.dest ans s = (ok, s1) → off = (fun (u : State) => if q.dest = 4 then carrierOff u else u) →
      stay = (fun st (u : State) => answerResolve i (cinchHead st 5 0 255 (cinchHandle x i) 0) u) →
      exec (.resolutionEnd i ans) s = .next (off (
        if ans.kind = 1 ∨ ans.kind = 2 then stay stCinchIndoubt s1
        else if ok = false then stay stCardAbsent s1
        else if tokFinding act ans.resp = 1 then resolved i idx true s1
        else if tokFinding act ans.resp = 2 then resolved i idx false s1
        else setEvent 5 2 (stay stCinchIndoubt s1))))

/-- R165, R169, R173: an officer's force on the INDOUBT Cinch that 0x6010:01 names journals its outcome and raises FORCED
with a record that carries the credential, and is refused where no such Cinch stands; the checkpoint every 2^20
strides; CN_NOTEQ read by the Warden level; the quotas. -/
def Obligations.CinchServiceCommands : Prop :=
  ∀ s : State,
    (∀ i cred, i = s.cn.forceHandle.toNat % 4096 → (getCinch s i).st = 5 →
      cinchHandle (getCinch s i) i = s.cn.forceHandle.toNat → (getCinch s i).outcomeForced = 0 →
      (∃ t r, exec (.forceCommit cred) s = .next t ∧ r = outcomeRecord (getCinch s i) s.cn.forceHandle.toNat 3 0x12 cred ∧
        getCinch t i = { getCinch s i with outcomeForced := 1, outcome := 3 } ∧
        (r ∈ t.cn.jwait ∨ ∃ b ∈ t.cn.journal, b.stride = s.stride ∧ ∃ j, jSealed j r ∈ b.recs) ∧
        (Tab.get 0 t.events 5).getLsbD 9 = true ∧ t.mem = s.mem ∧ t.tk = s.tk) ∧
      (∃ t r, exec (.forceAbort cred) s = .next t ∧ r = outcomeRecord (getCinch s i) s.cn.forceHandle.toNat 4 0x13 cred ∧
        getCinch t i = { getCinch s i with outcomeForced := 2, outcome := 4 } ∧
        (r ∈ t.cn.jwait ∨ ∃ b ∈ t.cn.journal, b.stride = s.stride ∧ ∃ j, jSealed j r ∈ b.recs) ∧
        (Tab.get 0 t.events 5).getLsbD 9 = true ∧ t.mem = s.mem ∧ t.tk = s.tk)) ∧
    (∀ cred, (getCinch s (s.cn.forceHandle.toNat % 4096)).st ≠ 5 →
      exec (.forceCommit cred) s = .next s ∧ exec (.forceAbort cred) s = .next s) ∧
    (s.tick % 2 ^ 20 = 0 → s.cn.ckptNext = none → ∃ t b, exec .checkpoint s = .next t ∧
      t.cn.ckptNext = some { stride := s.stride, ckid := (openBatch s).first, counters := s.cn.counters } ∧
      t.cn.journal.getLast? = some b ∧ b.stride = s.stride ∧ t.cn.ckpt = s.cn.ckpt ∧
      t.cn.ckptCounters = s.cn.ckptCounters ∧ t.cn.slots = s.cn.slots ∧ t.mem = s.mem ∧ t.tk = s.tk) ∧
    (∀ c rd e rest, (getCore s c).warden = true → coreMay s c false 0x100500050 = true → 0 < rd → rd < 64 →
      s.cn.noteq = e :: rest → exec (.noteqRead c rd) s =
        .next (updCore c (fun k => { k with g := Tab.set 0 k.g rd e }) { s with cn := { s.cn with noteq := rest } })) ∧
    (∀ c v n sum, coreMay s c true 0x100500030 = true → n = v.toNat % 2048 →
      sum = Tab.total s.cn.quotaHold (fun q k => if q = s.cn.psel then 0 else k) + n →
      (sum ≤ 1024 → holdUsed s s.cn.psel ≤ n → exec (.cnQuotaWrite c true v) s =
        .next { s with cn := { s.cn with quotaHold := Tab.set 0 s.cn.quotaHold s.cn.psel n } }) ∧
      (1024 < sum ∨ n < holdUsed s s.cn.psel → exec (.cnQuotaWrite c true v) s = .next (setEvent 5 6 s))) ∧
    (∀ c v o a, coreMay s c true 0x100500028 = true → o = natBits v.toNat 16 13 → a = natBits v.toNat 0 16 →
      Tab.total s.cn.quotaOpen (fun q k => if q = s.cn.psel then 0 else k) + o ≤ 4096 →
      Tab.total s.cn.quotaAct (fun q k => if q = s.cn.psel then 0 else k) + a ≤ 32768 →
      openUsed s s.cn.psel ≤ o → actionsUsed s s.cn.psel ≤ a → exec (.cnQuotaWrite c false v) s =
        .next { s with cn := { s.cn with
          quotaOpen := Tab.set 0 s.cn.quotaOpen s.cn.psel o, quotaAct := Tab.set 0 s.cn.quotaAct s.cn.psel a } })

/-! ### Tack custody (R174–R204) -/

/-- R190, R192, R194: a tack command through an idle window. One that R192 refuses owes its status in the next stride and
changes nothing else; RESERVE makes its tack; RETIRE of a tack that no record names retires it; PIN sets its flag;
DESCRIBE writes 80 bytes; INSTALL, RESTRICT and RETIRE of a LIVE tack are carried out in a free Cinch slot. -/
def Obligations.TackCommandsTakeEffect : Prop :=
  ∀ (s : State) (c w op : Nat) (mk : Src → Instr), (op, mk) ∈ tackCommands → windowFree 3 c w s →
    ∀ (s0 s1 : State) (r : Req) (b : List Byte) (h st : Nat) (blk : Option (List Byte)), s0 = started 3 c w s →
      r = sampleReq s c w → b = winBody 3 c w s0 → byteAt b 0 = op → h = field b 4 4 →
      (blk, s1) = (if (op = 1 ∨ op = 4) ∧ tackBodyBad b = false then reqRead r (field b 8 8) 64 s0
        else (if op = 1 ∨ op = 4 then none else some [], s0)) →
      st = tackStatus s1 r.paddock r.owns b blk →
      (st ≠ stOK → exec (mk (.win c w)) s = .next (pendTack op 0 r st 0 (if op = 1 then 0xFFFFFFFF else h) s1)) ∧
      (st = stOK → op = 1 → ∀ n s2, reserveTack r.paddock (blk.getD []) (natBit (byteAt b 1) 0) s1 = (n, s2) →
        exec (mk (.win c w)) s =
          .next (pendTack 1 0 r stOK (((tackRec s2 n).map (fun x => x.st)).getD 0) n s2)) ∧
      (∀ t, st = stOK → getTack s1 r.paddock h = some t →
        (op = 5 → exec (mk (.win c w)) s = .next (pendTack 5 (b2n t.pinned) r stOK 3 h
          (updTack h (fun x => { x with pinned := natBit (byteAt b 1) 0 }) s1))) ∧
        (op = 6 → ∀ ok s2, reqWrite r (field b 8 8) (describeBytes t) s1 = (ok, s2) →
          exec (mk (.win c w)) s = .next (pendTack 6 0 r (if ok = true then stOK else stMediaError) t.st h s2)) ∧
        (op = 3 → t.st ≠ 3 ∨ t.volatile = true →
          exec (mk (.win c w)) s = .next (pendTack 3 0 r stOK 4 h (retireTack h s1))) ∧
        (∀ i, freeSlot s1 = some i →
          (op = 3 → t.st = 3 → t.volatile = false → exec (mk (.win c w)) s = .next (tackCinch r 3 h [] i s1)) ∧
          (op = 2 ∨ op = 4 → exec (mk (.win c w)) s = .next (tackCinch r op h (blk.getD []) i s1))))

/-- R188, R190: a RESERVE whose attribute block asks for no random fill gives a handle whose indices no tack held, and
that tack, RESERVED with the block's attributes, is in custody afterwards. R190–R198, R204: a tack result that is due
goes to its source; a reservation not made LIVE in time is released with its event; a fetch brings the tack into the
cache or fails it; a bound becomes durable; TK_MINT gives the key rein of a tack of the reader's paddock; the quotas
take what keeps their sums. -/
def Obligations.TackEventsComplete : Prop :=
  (
  ∀ (s t : State) (p h : Nat) (blk : List Byte), reserveTack p blk false s = (h, t) →
    findHandle s (envelopeSlots (byteAt blk 0) (field blk 2 2)) = some h →
    1 ≤ h ∧ h + envelopeSlots (byteAt blk 0) (field blk 2 2) ≤ 0x10000000 ∧
    (∀ j, j < envelopeSlots (byteAt blk 0) (field blk 2 2) → indexUsed s (h + j) = false) ∧
    (h, tackOfBlock blk p h s.tick) ∈ t.tk.tacks ∧ t.mem = s.mem ∧ t.cn = s.cn) ∧
  (
  ∀ s : State,
    (∀ q c w, s.tk.pend.find? (fun x => decide (x.req.src = .win c w)) = some q → q.due ≤ s.tick → q.req.src = .win c w →
      exec (.tackCommandComplete (.win c w)) s = .next { s with tk := { s.tk with
        pend := s.tk.pend.filter (fun x => decide (x.req.src ≠ .win c w)),
        wins := Tab.upd Win.reset s.tk.wins c (fun x => x.finish
          (tackResult q.status (byteAt q.result 0) (field q.result 1 4) (field q.result 5 4) s.stride)) } }) ∧
    (∀ q fn qq m, s.tk.pend.find? (fun x => decide (x.req.src = .host fn qq m)) = some q → q.due ≤ s.tick →
      q.req.src = .host fn qq m → hostTurn s (.host fn qq m) = true → exec (.tackCommandComplete (.host fn qq m)) s = .next (hostComplete fn qq m
        (tackResult q.status (byteAt q.result 0) (field q.result 1 4) (field q.result 5 4) s.stride)
        { s with tk := { s.tk with pend := s.tk.pend.filter (fun x => decide (x.req.src ≠ .host fn qq m)) } })) ∧
    (∀ i x r src, (∀ y ∈ s.tk.pend, y.req.src ≠ src) →
      s.cn.slots.find? (fun p => p.2.st == 7 && p.2.cmd.any (fun r => decide (r.src = src))) = some (i, x) → x.cmd = some r →
      hostTurn s src = true → exec (.tackCommandComplete src) s =
        .next (updCinch i (fun y => { Cinch.free with seq := y.seq, freeAt := s.tick + 1 })
          (finishTack { src := src, paddock := x.paddock, warden := false, gen := x.gen }
            (tackResult x.status (if x.cmdOp = 3 then 4 else 3) ((x.actions.map (fun a => a.tack)).headD 0) x.cmdAdmit s.stride)
            s))) ∧
    (∀ h t, tackRec s h = some t → t.st = 1 ∨ (t.st = 2 ∧ installCites s h = false) → t.rsvAt + rsvEff s ≤ s.tick →
      exec (.reservationExpiry h) s =
        .next (setEvent 6 4 { s with tk := { s.tk with tacks := s.tk.tacks.filter (fun e => e.1 != h) } })) ∧
    (∀ h t s2, tackRec s h = some t → t.fetching = true → cacheRoom s t = true → s.pm.nandFail = false →
      s2 = unsealMaster t.paddock s → exec (.tackFetchComplete h 0) s = .next (match vaultMaterial s2 t with
        | some m => updTack h (fun x => { x with fetching := false, lru := s.tick, material := m }.load) s2
        | none => failFetch h (if (Tab.get [] s.tk.vault h).isEmpty then 3 else 2) s2)) ∧
    (∀ h t o, tackRec s h = some t → t.fetching = true → o = 1 ∨ o = 2 → exec (.tackFetchComplete h o) s =
      .next (setEvent 6 (if o = 1 then 2 else 3) (updTack h (fun x => { x with fetching := false, errAt := s.tick + 1 }) s))) ∧
    (∀ h, exec (.leaseDurable h) s = .next (leaseCheck h (updTack h (fun t => match t.boundNext with
      | some b => { t with bound := b, boundNext := none }
      | none => t) s))) ∧
    (∀ c kd t h perm, coreMay s c false 0x100600070 = true → kd < 16 →
      h = natBits ((Tab.get 0 s.tk.mint 0).toNat + (Tab.get 0 s.tk.mint 1).toNat * 2 ^ 64) 0 32 →
      perm = natBits ((Tab.get 0 s.tk.mint 0).toNat + (Tab.get 0 s.tk.mint 1).toNat * 2 ^ 64) 80 16 →
      getTack s (getCore s c).paddock h = some t → (s.paddock (getCore s c).paddock).st = 1 →
      BitVec.ofNat 16 perm &&& ~~~(BitVec.ofNat 16 t.usage) = 0 →
      exec (.tkMintRead c kd) s = .next (updCore c (fun k => k.setK kd
        (Rein.make true (s.paddock (getCore s c).paddock).gen (getCore s c).paddock 0x02 perm 0 h)) s)) ∧
    (∀ c v n, coreMay s c true 0x100600038 = true → n = v.toNat % 2 ^ 28 →
      Tab.total s.tk.vquota (fun q k => if q = s.tk.psel then 0 else k) + n ≤ 2 ^ 28 → vaultUsed s s.tk.psel ≤ n →
      exec (.tkQuotaWrite c true v) s =
        .next { s with tk := { s.tk with vquota := Tab.set 0 s.tk.vquota s.tk.psel n } }) ∧
    (∀ c v, coreMay s c true 0x100600030 = true →
      Tab.total s.tk.quota (fun q n => if q = s.tk.psel then 0 else natBits n 0 17) + natBits v.toNat 0 17 ≤ 65536 →
      Tab.total s.tk.quota (fun q n => if q = s.tk.psel then 0 else natBits n 17 15) + natBits v.toNat 17 15 ≤ 16384 →
      entriesUsed s s.tk.psel ≤ natBits v.toNat 0 17 → unitsUsed s s.tk.psel ≤ natBits v.toNat 17 15 →
      exec (.tkQuotaWrite c false v) s = .next { s with tk := { s.tk with quota := Tab.set 0 s.tk.quota s.tk.psel v.toNat } }))

/-- R176–R182: an accepted act on a paddock waits for its sealed record; at its boundary CREATE gives the paddock its next
generation ACTIVE with a master key sealed under the keep key, which unseals to that key, and quotas of 0; DELETE and
REVOKE advance it; a deleted paddock whose last entry is reclaimed is ABSENT, without tacks and without envelopes in
the tack vault. R177, R178, R180: at the boundary of a DELETE or REVOKE the paddock's generation has advanced, so no
rein of the old one passes, the event is raised, and a deleted paddock is DELETING without a master key. -/
def Obligations.PaddockActsComplete : Prop :=
  (
  ∀ (s : State) (p cred : Nat), p < 256 →
    (actAccepted s p 1 = true → exec (.paddockCreate p cred) s =
      .next { s with tk := { s.tk with acts := s.tk.acts ++ [{ paddock := p, act := 1, asked := s.tick, cred := cred }] } }) ∧
    (actAccepted s p 2 = true → exec (.paddockDelete p cred) s =
      .next { s with tk := { s.tk with acts := s.tk.acts ++ [{ paddock := p, act := 2, asked := s.tick, cred := cred }] } }) ∧
    (actAccepted s p 3 = true → exec (.paddockRevoke p cred) s =
      .next { s with tk := { s.tk with acts := s.tk.acts ++ [{ paddock := p, act := 3, asked := s.tick, cred := cred }] } }) ∧
    (∀ a keep, s.tk.acts.find? (fun x => x.paddock == p) = some a → a.asked < s.tick → a.act = 1 → s.tk.keep = some keep →
      ∃ t key, exec (.paddockActEffect p) s = .next t ∧ key.length = 32 ∧ t.paddock p = {
          st := 1, gen := (s.paddock p).gen + 1, sealSeq := (s.paddock p).sealSeq + 1,
          sealed := sealKey keep 0 (sealHead p 1 ((s.paddock p).gen + 1) ((s.paddock p).sealSeq + 1)) key,
          master := if s.keepPresent then some key else none } ∧
        unsealKey keep 0 ((t.paddock p).head p) (t.paddock p).sealed = some key ∧
        (∀ q, q ≠ p → t.paddock q = s.paddock q) ∧ t.tk.acts = s.tk.acts.erase a ∧
        Tab.get 0 t.tk.quota p = 0 ∧ Tab.get 0 t.tk.vquota p = 0 ∧ t.tk.tacks = s.tk.tacks ∧ t.mem = s.mem) ∧
    ((s.paddock p).st = 2 → ∃ t, exec (.paddockAbsent p) s = .next t ∧ (t.paddock p).st = 0 ∧
      (t.paddock p).gen = (s.paddock p).gen ∧ (∀ q, q ≠ p → t.paddock q = s.paddock q) ∧
      t.tk.tacks = s.tk.tacks.filter (fun e => e.2.paddock != p) ∧
      t.tk.vault = s.tk.vault.filter (fun e => byteAt e.2 7 != p) ∧ t.mem = s.mem)) ∧
  (
  ∀ (s : State) (p : Nat) (a : PadAct), s.tk.acts.find? (fun x => x.paddock == p) = some a → a.asked < s.tick →
    a.act = 2 ∨ a.act = 3 → (s.paddock p).gen < 0xFFFF →
    ∃ t, exec (.paddockActEffect p) s = .next t ∧ (t.paddock p).gen = (s.paddock p).gen + 1 ∧
      (∀ r : Rein, r.isWarden = false → r.pad = p → r.gen = (s.paddock p).gen → Rein.genOk t r = false) ∧
      (a.act = 2 → (t.paddock p).st = 2 ∧ (t.paddock p).master = none) ∧ (a.act = 3 → (t.paddock p).st = (s.paddock p).st) ∧
      (Tab.get 0 t.events 6).getLsbD 1 = true)

/-- R199–R203, R371: an act that the officer has asked for. SPLIT draws a key, and its shares are written to custodians 1
to n one DURABLE Cinch each; once all are written the key's sealed record is kept. JOIN, RESPLIT and RESTORE open a
session. A share that unwraps and that its hash does not contradict is kept, a bad one only raises QUORUM_FAIL; with
the m-th the act goes on if KID agrees and ends CHECK_FAIL if not. BACKUP sends the image to the card; where it reads
back whole, a CARD_RPMB action commits its generation record. The end of the window wipes the session. -/
def Obligations.QuorumActsComplete : Prop :=
  ∀ (s : State) (cred m n : Nat) (enrol : List Custodian) (s0 : State), s0 = enrolCustodians enrol s →
    (∀ places, actAsked s 1 cred = true → s.tk.sbRec = none → s.keepPresent = true → sharesOk s0 m n = true → quorumBusy s = false →
      ∃ t j, exec (.quorumSplit cred m n ⟨enrol, places⟩) s = .next t ∧ t.tk.job = some j ∧ j.act = 1 ∧ j.m = m ∧ j.n = n ∧
        j.key.length = 32 ∧ j.sums.map (fun e => e.1) = (List.range n).map (fun i => i + 1) ∧
        j.todo.length + (if j.slot.isSome then 1 else 0) = n ∧ (j.slot.isSome = (freeSlot s).isSome ∨ j.slot = none) ∧
        t.tk.sbRec = none ∧ t.od.actKind = 0 ∧ t.mem = s.mem ∧ t.pc = s.pc) ∧
    (∀ kid, actAsked s 3 cred = true → s.tk.sbRec = none → s.keepPresent = true → sharesOk s0 m n = true → quorumBusy s = false →
      ∃ t dev, exec (.quorumJoin cred m n ⟨kid, enrol⟩) s = .next t ∧ t.tk.quorum = some {
        openAt := s.time.now, act := 3, cred := cred, m := m, n := n, kid := kid, next := (0, 0), acc := [], addr := 0,
        record := [], image := [], dev := dev, places := [] } ∧ t.od.actKind = 0 ∧ t.mem = s.mem ∧ t.cn = s.cn) ∧
    (∀ key m0 n0 places, s.sbKey = some key → s.tk.sbShares = some (m0, n0) → actAsked s 4 cred = true →
      sharesOk s0 m n = true → quorumBusy s = false →
      ∃ t dev, exec (.quorumResplit cred ⟨m, n⟩ ⟨enrol, places⟩) s = .next t ∧ t.tk.quorum = some {
        openAt := s.time.now, act := 4, cred := cred, m := m0, n := n0, kid := keyId key, next := (m, n), acc := [], addr := 0,
        record := [], image := [], dev := dev, places := places } ∧ t.od.actKind = 0 ∧ t.mem = s.mem ∧ t.cn = s.cn) ∧
    (∀ addr record image, actAsked s 5 cred = true → sharesOk s0 m n = true → quorumBusy s = false →
      ∃ t dev, exec (.quorumRestore cred ⟨m, n⟩ addr enrol record image) s = .next t ∧ t.tk.quorum = some {
        openAt := s.time.now, act := 5, cred := cred, m := m, n := n, kid := field record 0x40 8, next := (0, 0), acc := [],
        addr := addr, record := record, image := image, dev := dev, places := [] } ∧ t.od.actKind = 0 ∧ t.mem = s.mem ∧
        t.cn = s.cn) ∧
    (∀ q place who wrapped, s.tk.quorum = some q → q.opened s = true → s.tk.job = none → (∀ e ∈ q.acc, e.1 ≠ who) →
      exec (.quorumShareReceived place who wrapped) s = .next (
        match (kwpUnwrap (shareCipher q.dev (custodian s who)) wrapped).filter (fun b => 1 ≤ who && who ≤ q.n &&
          b.length == 32 && !((s.tk.shareSum.find? (fun e => e.1 == who)).any (fun e => e.2 != Config.hash 256 b))) with
        | none => setEvent 6 6 s
        | some b =>
          let q1 := { q with acc := insertShare (who, b) q.acc }
          let s1 := { s with tk := { s.tk with quorum := some q1 } }
          if q1.acc.length = q.m then quorumMet q1 s1 else s1)) ∧
    (∀ q, keyId (shamirJoin q.acc) = q.kid →
      (q.act = 3 → (quorumMet q s).tk.quorum = none ∧ (quorumMet q s).tk.sbShares = some (q.m, q.n) ∧
        (∀ k, s.keepPresent = true → s.tk.keep = some k → (quorumMet q s).tk.sbRec = some (keyRecord k 1 (shamirJoin q.acc)))) ∧
      (q.act = 5 → (field q.record 4 4 ≠ field q.image 4 4 ∨
          (q.record.drop 0x10).take 48 ≠ takePad 48 (Config.hash 384 q.image)) →
        quorumMet q s = { s with tk := { s.tk with quorum := none, actEnd := (5, stCheckFail) } })) ∧
    (∀ q, keyId (shamirJoin q.acc) ≠ q.kid →
      quorumMet q s = setEvent 6 6 { s with tk := { s.tk with quorum := none, actEnd := (q.act, stCheckFail) } }) ∧
    (∀ j, s.tk.job = some j → j.slot = none → j.todo = [] → ∃ t, quorumBoundary s = t ∧ t.tk.job = none ∧
      t.tk.actEnd = (j.act, stOK) ∧ t.mem = s.mem ∧ (j.act = 2 → t.tk.generation = j.gen) ∧
      (j.act = 1 ∨ j.act = 4 → t.tk.sbShares = some (j.m, j.n) ∧ t.tk.shareSum = j.sums ∧ t.tk.quorum = none) ∧
      (∀ k, j.act = 1 → s.tk.keep = some k → t.tk.sbRec = some (keyRecord k 1 j.key))) ∧
    (∀ key slot mask record back ans gen area img h, s.sbKey = some key → actAsked s 2 cred = true → quorumBusy s = false →
      slot < 2 → (getMc s slot).ready = true → (gen, area) = nextImage record →
      img = backupImage s key gen mask (backupTacks s mask) → h = ((getMc s slot).secCount - 2048) / 2 →
      ∃ t, exec (.quorumBackup cred slot mask record ⟨back, ans⟩) s = .next t ∧ t.mem = s.mem ∧ t.od.actKind = 0 ∧
        (h * 512 < img.length → t.tk.actEnd = (2, stDenied) ∧ t.cd = s.cd) ∧
        (img.length ≤ h * 512 → t.cd.toCard = s.cd.toCard ++ [(0x10 + slot, 2048 + area * h, img)] ∧
          (imageCrc back ≠ imageCrc img → t.tk.actEnd = (2, stCheckFail) ∧ t.tk.job = none) ∧
          (imageCrc back = imageCrc img → (t.tk.actEnd.2 ≠ stOK ∧ t.tk.job = none ∧ t.tk.actEnd.1 = 2) ∨
            ∃ j, t.tk.job = some j ∧ j.act = 2 ∧ j.gen = gen))) ∧
    (∀ q, s.tk.quorum = some q → q.opened s = false → exec .quorumWindowEnd s = .next { s with tk := { s.tk with
      quorum := none, job := if q.act = 4 then none else s.tk.job } })

/-! ### Host queues (R205–R228) -/

/-- R213, R215, R225: where the descriptor at the head of an SQ is of the class and operation that a command names, the
command's host form admits that descriptor, as DESCRIPTOR_ADMIT does. R215–R220, R223, R225: the head descriptor of
the queue whose turn it is. A failed read or checksum ends it and moves the queue to ERROR; a FIRMWARE one waits while
its FIFO is full; a malformed one, one of a paddock that is not ACTIVE and a cancelled one end with their status;
another is handed to its class and is admitted once taken: a FIRMWARE entry to the FIFO, a CONTROL command to its
completion, a CANCEL beyond sixteen pending ones with QUOTA. -/
def Obligations.DescriptorsAreAdmitted : Prop :=
  (
  ∀ (s : State) (fn q seq : Nat) (d : List Byte) (rest : List (Nat × Option (List Byte))),
    (getQueue s fn q).arrived = (seq, some d) :: rest →
    (dClass d = 1 → exec (.cipherJob (.host fn q seq)) s = exec (.descriptorAdmit fn q) s) ∧
    (∀ e ∈ pkeCommands, dClass d = 2 → pOp (dBody d) = e.1 →
      exec (e.2 (.host fn q seq)) s = exec (.descriptorAdmit fn q) s) ∧
    (∀ e ∈ stallCommands, dClass d = 3 → byteAt (dBody d) 0 = e.1 →
      exec (e.2 (.host fn q seq)) s = exec (.descriptorAdmit fn q) s) ∧
    (∀ e ∈ tackCommands, dClass d = 4 → byteAt (dBody d) 0 = e.1 →
      exec (e.2 (.host fn q seq)) s = exec (.descriptorAdmit fn q) s) ∧
    (dClass d = 6 → byteAt (dBody d) 0 = 1 → exec (.controlNop fn q seq) s = exec (.descriptorAdmit fn q) s) ∧
    (dClass d = 6 → byteAt (dBody d) 0 = 2 → exec (.controlCancel fn q seq) s = exec (.descriptorAdmit fn q) s)) ∧
  (
  ∀ (s : State) (fn q seq : Nat) (data : Option (List Byte)) (rest : List (Nat × Option (List Byte))) (d : List Byte),
    (getQueue s fn q).arrived = (seq, data) :: rest → admitOpen s fn = true →
    ((serveOrder s fn).takeWhile (fun p => p != q)).any (fun p => (tryHead fn p s).1) = false →
    (getQueue s fn q).st = 1 → (getQueue s fn q).room = true → d = data.getD [] →
    (data = none → exec (.descriptorAdmit fn q) s = .next (queueError fn q 1 (refuseDescriptor fn q seq d stMediaError s))) ∧
    (data.isSome = true → seqCrc seq (d.take 0x3C) ≠ field d 0x3C 4 →
      exec (.descriptorAdmit fn q) s = .next (queueError fn q 2 (refuseDescriptor fn q seq d stCheckFail s))) ∧
    (data.isSome = true → seqCrc seq (d.take 0x3C) = field d 0x3C 4 →
      (natBit (byteAt d 1) 0 = false ∨ (getQueue s fn q).admitted = []) →
      (dClass d = 5 → 256 ≤ (fwFifo s fn).length → exec (.descriptorAdmit fn q) s = .next (setEvent 7 4 s)) ∧
      ((dClass d = 5 → (fwFifo s fn).length < 256) →
      (dBad d = true → exec (.descriptorAdmit fn q) s = .next (refuseDescriptor fn q seq d stMalformed s)) ∧
      (dBad d = false → (s.paddock fn).st ≠ 1 →
        exec (.descriptorAdmit fn q) s = .next (refuseDescriptor fn q seq d stDenied s)) ∧
      (dBad d = false → (s.paddock fn).st = 1 → (q, seq) ∈ (getFunc s fn).cancels →
        exec (.descriptorAdmit fn q) s = .next (refuseDescriptor fn q seq d stAborted s)) ∧
      (dBad d = false → (s.paddock fn).st = 1 → (q, seq) ∉ (getFunc s fn).cancels →
        (∀ ok s1, handOver fn q seq d s = (ok, s1) → exec (.descriptorAdmit fn q) s =
          .next (if ok = true then takeDescriptor fn q seq (field d 2 2) (dClass d) s1 else s1)) ∧
        (dClass d = 5 → exec (.descriptorAdmit fn q) s =
          .next (takeDescriptor fn q seq (field d 2 2) 5 (fwEnter fn q seq d s))) ∧
        (dClass d = 6 → byteAt (dBody d) 0 = 1 → exec (.controlNop fn q seq) s =
          .next (takeDescriptor fn q seq (field d 2 2) 6 (hostCompleteLater fn q seq [0, 0] s))) ∧
        (dClass d = 6 → byteAt (dBody d) 0 = 2 → 16 ≤ (getFunc s fn).cancels.length → exec (.controlCancel fn q seq) s =
          .next (takeDescriptor fn q seq (field d 2 2) 6 (hostCompleteLater fn q seq [BitVec.ofNat 8 stQuota, 0] s))) ∧
        (dClass d = 6 → byteAt (dBody d) 0 = 2 → (getFunc s fn).cancels.length < 16 → ∀ e s1,
          cancelEffect fn (field (dBody d) 2 2) (field (dBody d) 8 8) s = (e, s1) → exec (.controlCancel fn q seq) s =
            .next (takeDescriptor fn q seq (field d 2 2) 6 (hostCompleteLater fn q seq [0, BitVec.ofNat 8 e] s1)))))))

/-- R211, R212, R216, R226: a queue is CREATEd afresh, DELETEd and RESET through DRAINING, and leaves DRAINING when its
last job has ended, a RESET one ACTIVE from the next boundary; doorbells wait for the boundary, where they move the SQ
tail and the CQ head or fault the queue; a descriptor arrives two strides after its doorbell at the earliest, and
waits in order. R208, R209, R227: what BAR0 and BAR2 read. CQ_FID and CQ_FINFO show the function's allotment, the
queue registers those of the queue that CQ_QSEL selects, CQ_FERR its faults; a doorbell and an unlisted offset read
zero. BAR2 mirrors the time to every function, and the alert tree, CQ_LINK and three EVENTS registers to the physical
one alone. -/
def Obligations.QueuesFollowCommands : Prop :=
  (
  ∀ (s : State) (fn q : Nat),
    (∀ j, j = (getFunc s fn).qsel → funcReady s fn = true →
      (createRefused s fn j = false → exec (.queueCreate fn) s =
        .next (updQueue fn j (fun k => { k.start with changeAt := s.tick + 1 }) s)) ∧
      (createRefused s fn j = true → exec (.queueCreate fn) s = .next (setFerr fn 4 s)) ∧
      ((getQueue s fn j).st ≠ 0 → exec (.queueDelete fn) s = .next (updQueue fn j (fun k => { k with
        st := 3, afterDrain := 1, arrived := [], changeAt := s.tick + 1 }) s)) ∧
      ((getQueue s fn j).st = 2 ∨ (getQueue s fn j).st = 3 → exec (.queueReset fn) s =
        .next (updQueue fn j (fun k => { k with
          st := 3, afterDrain := if k.afterDrain = 1 then 1 else 2, arrived := [], changeAt := s.tick + 1 }) s))) ∧
    ((getQueue s fn q).st = 3 → (getQueue s fn q).admitted = [] → (getQueue s fn q).changeAt ≤ s.tick →
      exec (.queueDrained fn q) s = .next (dropCancels fn q (updQueue fn q (fun x =>
        if x.afterDrain = 2 then { x.start with changeAt := s.tick + 1 } else { x.start with st := 0, changeAt := 0 }) s))) ∧
    (∀ v : W32, bellTaken s fn q = true →
      exec (.sqDoorbell fn q v) s = .next (updQueue fn q (fun x => { x with sqDoors := x.sqDoors ++ [v] }) s) ∧
      exec (.cqDoorbell fn q v) s = .next (updQueue fn q (fun x => { x with cqDoors := x.cqDoors ++ [v] }) s)) ∧
    (∀ (v : W32) k x n, k = getQueue s fn q → n = v.toNat % 65536 → q < 4096 →
      x = { k with readTo := k.tail, sqDoors := [], cqDoors := [] } →
      (k.sqDoors = [v] → k.cqDoors = [] →
        (k.st = 1 → n < k.size → k.event = false → getQueue (serveQueue s (fn * 4096 + q, k)) fn q = { x with tail := n }) ∧
        (k.st = 1 → k.size ≤ n → getQueue (serveQueue s (fn * 4096 + q, k)) fn q = { x with st := 2, err := 3, arrived := [] }) ∧
        (k.st = 2 ∨ k.st = 3 → k.size ≤ n → getQueue (serveQueue s (fn * 4096 + q, k)) fn q = x ∧
          (Tab.get 0 (serveQueue s (fn * 4096 + q, k)).events 7).getLsbD 2 = true)) ∧
      (k.sqDoors = [] → k.cqDoors = [v] →
        (k.st ≠ 0 → n < k.size → k.cqUsed + cqHeadMove k n ≤ k.cqSeq →
          getQueue (serveQueue s (fn * 4096 + q, k)) fn q = { x with cqUsed := k.cqUsed + cqHeadMove k n }) ∧
        (k.st = 1 → k.size ≤ n →
          getQueue (serveQueue s (fn * 4096 + q, k)) fn q = { x with st := 2, err := 4, arrived := [] }))) ∧
    (∀ fail a, (getQueue s fn q).st = 1 → (getQueue s fn q).changeAt ≤ s.tick →
      (getQueue s fn q).seq % (getQueue s fn q).size ≠ (getQueue s fn q).readTo →
      a = (getQueue s fn q).sqb.toNat + 64 * ((getQueue s fn q).seq % (getQueue s fn q).size) →
      exec (.descriptorArrival fn q fail) s = .next (updFunc fn (fun f => { f with aer := f.aer ||| aerBit fail })
        (updQueue fn q (fun x => { x with
          seq := x.seq + 1,
          arrived := x.arrived ++ [(x.seq, if fail = 0 && !hostFails s a 64 then some (hostBytes s a 64) else none)] }) s)))) ∧
  (
  ∀ (s : State) (fn : Nat) (f : Func) (q : Queue), fn < 256 → f = getFunc s fn → q = getQueue s fn f.qsel →
    bar0Read s fn 0x00 4 = BitVec.ofNat 64 (0x01000000 + fn * 65536 + f.quota % 8192) ∧
    bar0Read s fn 0x08 4 = BitVec.ofNat 64 (f.vectors % 8192 * 65536 + f.adm % 2048) ∧
    bar0Read s fn 0x18 8 = q.sqb ∧ bar0Read s fn 0x20 8 = q.cqb ∧ bar0Read s fn 0x28 4 = q.cfg.setWidth 64 ∧
    bar0Read s fn 0x38 8 = queueStat q ∧ bar0Read s fn 0x40 4 = f.ferr.setWidth 64 ∧
    bar0Read s fn 0x3C 4 = BitVec.ofNat 64 (q.seq % 2 ^ 32) ∧
    (∀ a w, 0x48 ≤ a → bar0Read s fn a w = 0) ∧
    bar2Read s fn 0x0000 8 = tiRead s 0 ∧ bar2Read s fn 0x0008 8 = tiRead s 8 ∧ bar2Read s fn 0x0100 4 = f.ferr.setWidth 64 ∧
    (∀ o, o < 512 → bar2Read s 0 (0x1000 + 8 * o) 8 = alRead s (8 * o)) ∧
    bar2Read s 0 0x2000 4 = s.cq.link.setWidth 64 ∧ bar2Read s 0 0x2030 4 = (eventsReg s 5).setWidth 64 ∧
    (fn ≠ 0 → ∀ a w, 0x1000 ≤ a → bar2Read s fn a w = 0))

/-- R207, R221, R222, R223, R228: a completion queue's message, masks and pending messages, an owed NOTIFY, the firmware
window's TAKE and POST and the completions due, the link, the resets of functions, their effect and end, a
configuration request, and the allotments. -/
def Obligations.HostEventsComplete : Prop :=
  ∀ s : State,
    (∀ fn q, (getQueue s fn q).msgDue = true → (∀ t, (getQueue s fn q).lastMsg = some t → t + max 1 (getQueue s fn q).coal ≤ s.tick) →
      exec (.msixMessage fn q) s = .next (sendVector fn (getQueue s fn q).vector
        (updQueue fn q (fun x => { x with msgDue := false, lastMsg := some s.tick }) s))) ∧
    (∀ fn v mask, exec (.msixUnmask fn v mask) s =
      .next (sendPending fn (updFunc fn (fun f => { f with unmasked := Tab.set false f.unmasked v (!mask) }) s))) ∧
    (∀ fn v, Tab.wf false (getFunc s fn).pendMsg = true → Tab.get false (getFunc s fn).pendMsg v = true →
      (getFunc s fn).msixEn = true → (getFunc s fn).msixMask = false → (getFunc s fn).d3hot = false →
      ∃ t, exec (.msixUnmask fn v false) s = .next t ∧
        Tab.get false (getFunc t fn).unmasked v = true ∧ Tab.get false (getFunc t fn).pendMsg v = false ∧
        Tab.get 0 (getFunc t fn).sent v = Tab.get 0 (getFunc s fn).sent v + 1 ∧ t.mem = s.mem) ∧
    (∀ p stall reason k rest qn, s.cq.notes = (p, stall, reason, k) :: rest → k < s.stride → eventQueue s p = some qn →
      (getQueue s p qn).room = true → exec .notifyCompletion s = .next (updQueue p qn (fun x => { x with evLost := false })
        (putCompletion p qn 0xFFFF 7 0 (getQueue s p qn).evLost
          ([0, 1, BitVec.ofNat 8 reason, 0] ++ natToLE 4 stall ++ natToLE 4 k) { s with cq := { s.cq with notes := rest } }))) ∧
    (∀ c e rest i, (List.range 4).find? (fun i => (Tab.get none (getFwWin s c).held i).isNone) = some i →
      fwFifo s (getCore s c).paddock = e :: rest → exec (.fwTake c) s = .next (setFifo (getCore s c).paddock rest
        (updFwWin c (fun w => { w with entry := e.desc, valid := true, redelivered := e.redelivered, slot := i,
                                       held := Tab.set none w.held i (some e) }) s))) ∧
    (∀ c slot e s1, Tab.get none (getFwWin s c).held slot = some e →
      s1 = updFwWin c (fun w => { w with held := Tab.set none w.held slot none }) s → exec (.fwPost c slot) s =
        .next (if e.gone = true then s1 else hostCompleteLater e.fn e.q e.seq (wordsBytes (getFwWin s c).result 2) s1)) ∧
    (∀ p, s.cq.comps = [p] → p.due ≤ s.tick → hostTurn s (.host p.fn p.q p.seq) = true → exec .firmwareResultCompletion s =
      .next (hostComplete p.fn p.q p.seq p.result { s with cq := { s.cq with comps := [] } })) ∧
    (∀ fn, (getFunc s fn).resetAsked = none → exec (.functionLevelReset fn) s =
      .next (updFunc fn (fun f => { f with resetAsked := some s.tick }) s)) ∧
    (∃ t, exec .hotReset s = .next t ∧ (∀ fn, fn < 256 → (getFunc t fn).resetAsked.isSome = true) ∧ t.mem = s.mem ∧ t.pc = s.pc) ∧
    (∃ t, exec .pcieLinkDown s = .next t ∧ t.cq.link = 0 ∧ (Tab.get 0 t.events 7).getLsbD 0 = true ∧
      (∀ fn, fn < 256 → (getFunc t fn).resetAsked.isSome = true) ∧ t.mem = s.mem) ∧
    (∀ rate width flit, 1 ≤ rate → rate ≤ 3 → width ∈ [1, 2, 4, 8, 16] → (rate = 3 → flit = true) →
      exec (.pcieLinkUp rate width flit) s =
        .next { s with cq := { s.cq with link := BitVec.ofNat 32 (1 + rate * 2 + width * 8 + b2n flit * 256) } }) ∧
    (s.pm.step = 15 → ∃ t, exec .perst s = .next t ∧ t.cq.link = 0 ∧
      (∀ fn, fn < 256 → (getFunc t fn).resetAsked.isSome = true) ∧ t.mem = s.mem ∧
      (s.cq.link.getLsbD 0 = true → (Tab.get 0 t.events 7).getLsbD 0 = true)) ∧
    (s.pm.step ≠ 15 → exec .perst s =
      .next (setEventIf (s.cq.link.getLsbD 0) 7 0 { s with cq := { s.cq with link := 0 } })) ∧
    (∀ fn a, (getFunc s fn).resetAsked = some a → a < s.tick →
      exec (.functionResetEffect fn) s = .next (functionReset fn (if fn = 0 then resetVFs s else s)) ∧
      (∀ q, q < 4096 → getQueue (resetFunctionQueues fn s) fn q = Queue.absent) ∧ fwFifo (resetFunctionQueues fn s) fn = []) ∧
    (∀ fn, (getFunc s fn).readyAt ≤ s.tick → exec (.functionResetReady fn) s =
      .next (updFunc fn (fun f => { f with readyAt := 0 }) s)) ∧
    (∀ fn req ok s1, ok = (s.cq.cfgReady && funcOpen s fn) → s1 = { s with cq := { s.cq with lastConfig := some (fn, ok) } } →
      exec (.pcieConfigRequest ⟨fn, req⟩) s = .next (if ok = true then configWrite fn req s1 else s1)) ∧
    (∀ fn n mask d3, n ≤ 255 → (configWrite 0 (.sriov true n) s).cq.numVFs = n ∧ (configWrite 0 (.sriov true n) s).cq.vfEnable = true ∧
      (getFunc (configWrite fn (.power d3) s) fn).d3hot = d3 ∧
      (getFunc (configWrite fn (.msix true mask) s) fn).msixEn = true ∧
      (getFunc (configWrite fn (.msix true mask) s) fn).msixMask = mask) ∧
    (∀ c v, wardenMay s c 0x100700030 = true →
      s.cq.allotA.foldl (fun a p => a + p.2) 0 - Tab.get 0 s.cq.allotA s.cq.psel + natBits v.toNat 0 11 ≤ 1024 →
      exec (.cqAllotWrite c true v) s =
        .next { s with cq := { s.cq with allotA := Tab.set 0 s.cq.allotA s.cq.psel (natBits v.toNat 0 11) } }) ∧
    (∀ c v, wardenMay s c 0x100700028 = true →
      s.cq.allotQ.foldl (fun a p => a + p.2) 0 - Tab.get 0 s.cq.allotQ s.cq.psel + natBits v.toNat 0 13 ≤ 4096 →
      s.cq.allotV.foldl (fun a p => a + p.2) 0 - Tab.get 0 s.cq.allotV s.cq.psel + natBits v.toNat 16 13 ≤ 4096 →
      queueUse s s.cq.psel ≤ natBits v.toNat 0 13 → vectorUse s s.cq.psel ≤ natBits v.toNat 16 13 →
      exec (.cqAllotWrite c false v) s = .next { s with cq := { s.cq with
        allotQ := Tab.set 0 s.cq.allotQ s.cq.psel (natBits v.toNat 0 13),
        allotV := Tab.set 0 s.cq.allotV s.cq.psel (natBits v.toNat 16 13) } })

/-! ### Inline ports (R229–R245) -/

/-- R100, R230, R231, R240, R242, R243, R244: a frame that ends on a sub-port of an enabled pair is counted and waits, and
a PAUSE that step 1 of R236 would not drop acts at once; at its hand-off a frame leaves the list and gets its verdict:
a bypass frame joins its egress queue as it is; one of a LIVE stall that fails a row of R240 is dropped in that row's
counter with nothing sent; a placed inbound frame whose ICV is wrong counts there, and one whose ICV is correct has
its PN accepted, also where its ESP trailer is wrong; the head of an egress queue leaves on a link that is up and is
dropped as TAIL on one that is down. -/
def Obligations.FramesArriveAndLeave : Prop :=
  ∀ (s : State) (pair sub : Nat) (outbound : Bool) (b : Nat), b = ilBlock pair sub outbound →
    (∀ bytes ok u, portLive s pair sub = true → s.shedding = false →
      u = (match pauseQuanta bytes with
        | some q => if rxBad bytes ok = false ∧ portBit s pair 8 = true then pauseHalt b q (broken s pair) (ilCount b 0 s)
          else ilCount b 0 s
        | none => ilCount b 0 s) →
      exec (.frameReceived pair sub outbound bytes ok) s = .next { u with il := { u.il with
        rx := s.il.rx ++ [{ pair := pair, sub := sub, outbound := outbound, bytes := bytes, fcsOk := ok, at_ := s.tick }] } }) ∧
    (∀ bytes ok, portLive s pair sub = true → s.shedding = true →
      exec (.frameReceived pair sub outbound bytes ok) s = .next (ilCount b 14 (ilCount b 0 s))) ∧
    (∀ f fs s1, nextFrame s = some f → s1 = { s with il := { s.il with rx := s.il.rx.erase f } } →
      exec (.frameHandoff fs) s = .next (judgeFrame f fs s1) ∧
      (classify f s1 = .bypass → (portSubs s f.pair).contains f.sub = true →
        bufFill s f.pair f.outbound + f.bytes.length + 4 ≤ bufSize →
        ∃ t, exec (.frameHandoff fs) s = .next t ∧ t.il.rx = s.il.rx.erase f ∧
          Tab.get [] t.il.egress (ilBlock f.pair f.sub f.outbound) = Tab.get [] s.il.egress (ilBlock f.pair f.sub f.outbound) ++
            [{ bytes := padFrame f.bytes, block := ilBlock f.pair f.sub f.outbound, guarded := false, ready := s.tick + 1 }] ∧
          t.mem = s.mem ∧ t.st = s.st ∧ t.tk = s.tk) ∧
      (∀ j k, classify f s1 = .job j → (portSubs s f.pair).contains f.sub = true →
        bufFill s f.pair f.outbound + f.bytes.length + 4 ≤ bufSize →
        rowsBefore f j (if f.outbound then 0 else recoverPN s1 j.stall j.pn) s1 = some k → k ≠ 8 → k ≠ 11 →
        ∃ t, exec (.frameHandoff fs) s = .next t ∧ t.il.egress = s.il.egress ∧ t.il.sent = s.il.sent ∧
          Tab.get 0 t.il.cnt (32 * ilBlock f.pair f.sub f.outbound + k) =
            min (Tab.get 0 s.il.cnt (32 * ilBlock f.pair f.sub f.outbound + k) + 1) 0xFFFFFFFFFFFFFFFF ∧
          t.mem = s.mem ∧ t.st = s.st ∧ t.tk = s.tk)) ∧
    (∀ f j pn parts lane rounds s2, f.outbound = false → placeFrame j s = some (parts, lane, rounds) →
      s2 = chargeFrame j parts lane rounds s → runFrame f j pn [] s = match openFrame j pn s2 with
        | (false, _) => frameDrop (ilBlock f.pair f.sub false) 15 (stallCount j.stall 0xD0 1 s2)
        | (true, none) => frameDrop (ilBlock f.pair f.sub false) 6 (acceptPN j.stall pn j.octets s2)
        | (true, some (out, oct)) => enqueueFrame f out true (acceptPN j.stall pn oct s2)) ∧
    (∀ f rest, Tab.get [] s.il.egress b = f :: rest → f.ready ≤ s.tick → portLive s pair sub = true →
      Tab.get 0 s.il.halted (ilBlock pair sub (!outbound)) = 0 →
      (egressUp s pair sub outbound = true → ∃ t, exec (.frameEgress pair sub outbound) s = .next t ∧
        Tab.get [] t.il.egress b = rest ∧ Tab.get [] t.il.sent b = Tab.get [] s.il.sent b ++ [f.bytes] ∧ t.mem = s.mem) ∧
      (egressUp s pair sub outbound = false → ∃ t, exec (.frameEgress pair sub outbound) s = .next t ∧
        Tab.get [] t.il.egress b = rest ∧ t.il.sent = s.il.sent ∧ (Tab.get 0 t.events 8).getLsbD 3 = true ∧ t.mem = s.mem))

/-- R230, R243, R245: PAUSE received, its expiry, PAUSE sent again while the buffer stands above XOFF, a link change, and
a write of IL_PORTCFG. -/
def Obligations.PortsFollowPauseAndLink : Prop :=
  ∀ (s : State) (pair sub : Nat) (outbound : Bool) (b : Nat), b = ilBlock pair sub outbound →
    (∀ quanta, portLive s pair sub = true → s.shedding = false →
      (portBit s pair 8 = true → exec (.pauseReceived pair sub outbound quanta) s =
        .next (pauseHalt b (quanta % 65536) (broken s pair) (ilCount b 2 (ilCount b 0 s)))) ∧
      (portBit s pair 8 = false → exec (.pauseReceived pair sub outbound quanta) s =
        .next (ilCount b 2 (ilCount b 0 s)))) ∧
    (Tab.get 0 s.il.halted b ≠ 0 → Tab.get 0 s.il.halted b ≤ s.time.now + 1000 →
      exec (.pauseTimerExpiry pair sub outbound) s =
        .next { s with il := { s.il with halted := Tab.set 0 s.il.halted b 0 } }) ∧
    (pair < 4 → bufAbove s pair outbound = true →
      Tab.get 0 s.il.pauseAt (2 * pair + b2n outbound) + (if broken s pair then 160 else 40) ≤ s.tick →
      ∃ t, exec (.pauseRepeat pair outbound) s = .next t ∧
        Tab.get false t.il.pausing (2 * pair + b2n outbound) = true ∧
        Tab.get 0 t.il.pauseAt (2 * pair + b2n outbound) = s.tick ∧
        (∀ u ∈ portSubs s pair, Tab.get 0 t.il.pauseSent (ilBlock pair u outbound) = 0x10000) ∧ t.mem = s.mem) ∧
    (∀ up, pair < 4 → sub ∈ portSubs s pair → ∃ t, exec (.portLinkChange pair false sub up) s = .next t ∧
      (Tab.get 0 t.il.link pair).getLsbD sub = up ∧
      (∀ i, i ≠ sub → (Tab.get 0 t.il.link pair).getLsbD i = (Tab.get 0 s.il.link pair).getLsbD i) ∧
      ((Tab.get 0 s.il.link pair).getLsbD sub ≠ up → (Tab.get 0 t.events 8).getLsbD 0 = true) ∧ t.mem = s.mem) ∧
    (∀ up, pair < 4 → sub ∈ portSubs s pair → ∃ t, exec (.portLinkChange pair true sub up) s = .next t ∧
      (Tab.get 0 t.il.link pair).getLsbD (sub + 4) = up ∧
      (∀ i, i ≠ sub + 4 → (Tab.get 0 t.il.link pair).getLsbD i = (Tab.get 0 s.il.link pair).getLsbD i) ∧ t.mem = s.mem) ∧
    (∀ c v, pair < 4 → coreMay s c true (0x100800100 + 8 * pair) = true → ∃ t, exec (.ilPortcfgWrite c pair v) s = .next t ∧
      portCfg t pair = (portCfg s pair &&& ~~~(0x1F3 : W32)) ||| (v &&& 0x1F3) ∧
      (∀ p, p ≠ pair → portCfg t p = portCfg s p) ∧ t.mem = s.mem ∧ t.st = s.st)

/-! ### Pacer: registers, arithmetic and decimals (R248–R275) -/

/-- R259–R262, R254: a register or immediate instruction that reaches execution writes its operation of its operands to
G[d], and the next instruction follows. A shift by imm13 with a bit of [12:6], and a one-operand form with rb other
than 0, are illegal; a division by 0 raises cause 0x0B with G[d] unchanged. -/
def Obligations.RegisterFormsCompute : Prop :=
  ∀ (s : State) (c : Nat) (d a b : BitVec 6) (i : BitVec 13) (n : BitVec 19), reaches c s →
    let put (v : W64) : Host.Outcome State Fault Refusal := .next (nextAfter c s (putReg c d.toNat v (stepSpent c s)))
    let fail (cause : Nat) (w : W64) : Host.Outcome State Fault Refusal := .next (raised c cause w s (stepSpent c s))
    (∀ p ∈ threeRegister, exec (p.1 c d a b) s = put (p.2 (genReg s c a) (genReg s c b))) ∧
    (∀ p ∈ divisions, exec (p.1 c d a b) s =
      (if genReg s c b = 0 then fail 0x0B 0 else put (p.2 (genReg s c a) (genReg s c b)))) ∧
    (∀ p ∈ oneOperand, exec (p.2.1 c d a b) s = (if b = 0 then put (p.2.2 (genReg s c a))
      else fail 0x01 ((BitVec.ofNat 7 0x01 ++ d ++ a ++ b ++ BitVec.ofNat 7 p.1).setWidth 64))) ∧
    (∀ p ∈ immediateForms, exec (p.1 c d a i) s = put (p.2 (genReg s c a) i)) ∧
    (∀ p ∈ shiftForms, exec (p.2.1 c d a i) s = (if i.toNat < 64 then put (p.2.2 (genReg s c a) i.toNat)
      else fail 0x01 ((BitVec.ofNat 7 p.1 ++ d ++ a ++ i).setWidth 64))) ∧
    exec (.lui c d n) s = put (BitVec.ofInt 64 (n.toInt * 2 ^ 13))

/-! ### Pacer: memory (R255–R258, R265) -/

/-- R253, R254: the word of a Pacer instruction decodes to that instruction and to no other, no bit of it is dropped, and
the instruction that a word spells means what its row means. -/
def Obligations.WordsSpellInstructions : Prop :=
  (∀ i w, encodeWord i = some w → ∃ c, decodeWord c w = some i) ∧
  (∀ c w i, decodeWord c w = some i → encodeWord i = some w) ∧
  (∀ c w i s, decodeWord c w = some i → runInstr i s = exec i s) ∧
  (∀ c, decodeWord c 0x00000000 = none ∧ decodeWord c 0x46518002 = some (.ld64 c 0x0A 0x3 0x00 0x002))

/-! ### Pacer: registers, arithmetic and decimals (R248–R275) -/

/-- R274, R275: with DTRAP and a stray nibble in a checked operand a decimal instruction raises cause 0x0A with the marks
in WINFO; otherwise it writes its result. DADD, DSUB and their carries follow the digit rules. R275: on operands that
hold only digits, DADD and DSUB are addition and subtraction modulo 10^16, and their carries are its carry and its
borrow. -/
def Obligations.DecimalFormsCompute : Prop :=
  (
  ∀ (s : State) (c : Nat) (d a b : BitVec 6), reaches c s →
    let x := genReg s c a
    let y := genReg s c b
    let put (v : W64) : Host.Outcome State Fault Refusal := .next (nextAfter c s (putReg c d.toNat v (stepSpent c s)))
    let bad (fn : Nat) : Host.Outcome State Fault Refusal :=
      .next (raised c 0x01 ((BitVec.ofNat 7 0x04 ++ d ++ a ++ b ++ BitVec.ofNat 7 fn).setWidth 64) s (stepSpent c s))
    (∀ p ∈ checkedDecimals, (p.1 = 8 → b = 0) →
      let m := (if p.2.2.1 then strayMask x else 0) + (if p.2.2.2 then strayMask y * 2 ^ 16 else 0)
      if (getCore s c).dtrap = true ∧ m ≠ 0 then exec (p.2.1 c d a b) s = .next (raised c 0x0A (BitVec.ofNat 64 m) s (stepSpent c s))
      else ∃ v, exec (p.2.1 c d a b) s = put v ∧
        (p.1 = 0 → ∃ k : Nat → Nat, k 0 = 0 ∧ ∀ i < 16, k (i + 1) = (if 10 ≤ digit x i + digit y i + k i then 1 else 0) ∧
          (digit v i : Int) = ((digit x i : Int) + digit y i + k i - 10 * k (i + 1)) % 16) ∧
        (p.1 = 1 → ∃ k : Nat → Nat, k 0 = 0 ∧ ∀ i < 16, k (i + 1) = (if digit x i < digit y i + k i then 1 else 0) ∧
          (digit v i : Int) = ((digit x i : Int) - digit y i - k i + 10 * k (i + 1)) % 16) ∧
        (p.1 = 2 → ∃ k : Nat → Nat, k 0 = 0 ∧ v = BitVec.ofNat 64 (k 16) ∧
          ∀ i < 16, k (i + 1) = (if 10 ≤ digit x i + digit y i + k i then 1 else 0)) ∧
        (p.1 = 3 → ∃ k : Nat → Nat, k 0 = 0 ∧ v = BitVec.ofNat 64 (k 16) ∧
          ∀ i < 16, k (i + 1) = (if digit x i < digit y i + k i then 1 else 0)) ∧
        (p.1 = 4 → ∀ i < 16, digit v i = (digit x i + digit y i) % 10) ∧
        (p.1 = 7 → ∀ i < 16, digit v i = digit y (digit x i)) ∧ (p.1 = 8 → v = BitVec.ofNat 64 (decimalValue x))) ∧
    (b ≠ 0 → exec (.dcvb c d a b) s = bad 8 ∧ exec (.dadj c d a b) s = bad 5 ∧ exec (.dval c d a b) s = bad 6 ∧
      exec (.dcvd c d a b) s = bad 9) ∧
    (b = 0 → (∃ v, exec (.dadj c d a b) s = put v ∧ ∀ i < 16, digit v i = (if 10 ≤ digit x i then digit x i - 10 else digit x i)) ∧
      (∃ v, exec (.dval c d a b) s = put v ∧ (allDigits x → v = 1) ∧ (¬ allDigits x → v = 0)) ∧
      (∃ v, exec (.dcvd c d a b) s = put v ∧ allDigits v ∧ decimalValue v = x.toNat % 10 ^ 16)) ∧
    (b.toNat ≤ 16 → exec (.dshl c d a b) s = put (BitVec.ofNat 64 (x.toNat * 16 ^ b.toNat)) ∧
      exec (.dshr c d a b) s = put (BitVec.ofNat 64 (x.toNat / 16 ^ b.toNat))) ∧
    (16 < b.toNat → exec (.dshl c d a b) s = bad 0x0A ∧ exec (.dshr c d a b) s = bad 0x0B)) ∧
  (
  ∀ (s : State) (c : Nat) (d a b : BitVec 6), reaches c s → allDigits (genReg s c a) → allDigits (genReg s c b) →
    let x := decimalValue (genReg s c a)
    let y := decimalValue (genReg s c b)
    let put (v : W64) : Host.Outcome State Fault Refusal := .next (nextAfter c s (putReg c d.toNat v (stepSpent c s)))
    (∃ v, exec (.dadd c d a b) s = put v ∧ allDigits v ∧ decimalValue v = (x + y) % 10 ^ 16) ∧
    (∃ v, exec (.dsub c d a b) s = put v ∧ allDigits v ∧ decimalValue v = (x + 10 ^ 16 - y) % 10 ^ 16) ∧
    exec (.dcryA c d a b) s = put (if 10 ^ 16 ≤ x + y then 1 else 0) ∧ exec (.dcryS c d a b) s = put (if x < y then 1 else 0))

/-- R248, R266: what a register instruction that completes changes: G[d] alone of the general registers, with G0 always
zero, PC, and LCOUNT where it stood at LEND of an armed loop; nothing else of its core, no other core, no memory and
no unit. -/
def Obligations.RegisterFormsFrame : Prop :=
  ∀ (s : State) (c : Nat) (d : BitVec 6) (v : W64), c < 26 →
    let t := nextAfter c s (putReg c d.toNat v (stepSpent c s))
    let k := getCore s c
    (getCore t c).getG 0 = 0 ∧ (d ≠ 0 → genReg t c d = v) ∧ (∀ i, i ≠ d.toNat → (getCore t c).getG i = k.getG i) ∧
    (getCore t c).pc = (if k.lcount ≠ 0 ∧ k.pc = k.lend.toNat ∧ k.lcount ≠ 1 then k.lstart.toNat else pcPlus k.pc 4) ∧
    (getCore t c).lcount = (if k.lcount ≠ 0 ∧ k.pc = k.lend.toNat then k.lcount - 1 else k.lcount) ∧
    (getCore t c) = { k with g := (getCore t c).g, pc := (getCore t c).pc, lcount := (getCore t c).lcount } ∧
    (∀ e, e ≠ c → getCore t e = getCore s e) ∧
    t = { s with pc := { s.pc with cores := t.pc.cores }, lc := { s.lc with steps := t.lc.steps } }

/-! ### Pacer: memory (R255–R258, R265) -/

/-- R255, R258, R256: a load whose checks pass writes the bytes at the address, zero- or sign-extended, to G[r]; one whose
rein check fails raises that cause, one that the Bridle unit refuses raises cause 0x06 with the fault recorded, and
neither changes G[r]. Earlier stores that overlap it come first. -/
def Obligations.LoadsReadMemory : Prop :=
  ∀ (s : State) (c : Nat) (r a : BitVec 6) (k : BitVec 4) (imm : BitVec 9), reaches c s → mayName c s [k.toNat] → ∀ p ∈ loadForms,
    let s0 := stepSpent c s
    let off := mOffset s c a imm p.2.1
    let adr := reinAddr s c k.toNat off
    (∀ x, reinCheck s c k.toNat off p.2.1 [permLoad] = some x →
      exec (p.1 c r k a imm) s = .next (raised c x (reinInfo k.toNat p.2.1 off false) s s0)) ∧
    (reinCheck s c k.toNat off p.2.1 [permLoad] = none → csrWidthBad adr p.2.1 = true →
      exec (p.1 c r k a imm) s = .next (raised c 0x05 (reinInfo k.toNat p.2.1 off false) s s0)) ∧
    (reinCheck s c k.toNat off p.2.1 [permLoad] = none → csrWidthBad adr p.2.1 = false →
      (∀ fa code, firstRefused s (coreAccess s c) false false adr p.2.1 = some (fa, code) →
        exec (p.1 c r k a imm) s = .next (raised c 0x06 (bridleInfo fa code false) s (bridleFault (coreAccess s c) false fa code s0))) ∧
      (firstRefused s (coreAccess s c) false false adr p.2.1 = none →
        (getCore (storesBefore c adr p.2.1 s0) c).halted = false → ∀ s1, s1 = storesBefore c adr p.2.1 s0 →
        (isCsr adr = true → exec (p.1 c r k a imm) s = .next (nextAfter c s
          (putReg c r.toNat (if p.2.2 then BitVec.ofInt 64 (BitVec.ofNat (8 * p.2.1) (csrRead (whoCore s1 c) adr p.2.1 s1).1.toNat).toInt
            else (csrRead (whoCore s1 c) adr p.2.1 s1).1) (csrRead (whoCore s1 c) adr p.2.1 s1).2))) ∧
        (isCsr adr = false → meetsPoison s1 adr p.2.1 = false → ∃ v : BitVec (8 * p.2.1),
          (∀ i < p.2.1, v.extractLsb' (8 * i) 8 = plainByte s1 (adr + i)) ∧
          exec (p.1 c r k a imm) s = .next (nextAfter c s (putReg c r.toNat (if p.2.2 then v.signExtend 64 else v.setWidth 64) s1))) ∧
        (isCsr adr = false → meetsPoison s1 adr p.2.1 = true →
          exec (p.1 c r k a imm) s = .next (fenceCore c 4 (noteUncorrectable adr s1)))))

/-- R255, R256, R258: a store whose rein check passes enters the write buffer behind the stores there, with its address,
its low bits, and the paddock and level it issued at; nothing else of memory changes yet. One whose check fails raises
the cause. R256, R284, R292: STORE_PERFORMED performs the oldest buffered store of a core. Outside CSR space and where
the Bridle unit admits it, its bytes stand in memory, every other byte is unchanged and the granule's tag is clear;
where the unit refuses it, memory is unchanged and the fault arrives imprecisely, or is lost with IMPRECISE_LOST. With
no store nothing changes. -/
def Obligations.StoresReachMemory : Prop :=
  (
  ∀ (s : State) (c : Nat) (r a : BitVec 6) (k : BitVec 4) (imm : BitVec 9), reaches c s → mayName c s [k.toNat] → ∀ p ∈ storeForms,
    let s0 := stepSpent c s
    let off := mOffset s c a imm p.2
    let adr := reinAddr s c k.toNat off
    (∀ x, reinCheck s c k.toNat off p.2 [permStore] = some x →
      exec (p.1 c r k a imm) s = .next (raised c x (reinInfo k.toNat p.2 off false) s s0)) ∧
    (reinCheck s c k.toNat off p.2 [permStore] = none → csrWidthBad adr p.2 = true →
      exec (p.1 c r k a imm) s = .next (raised c 0x05 (reinInfo k.toNat p.2 off false) s s0)) ∧
    (reinCheck s c k.toNat off p.2 [permStore] = none → csrWidthBad adr p.2 = false →
      ∃ b : BufStore, b.addr = adr ∧ b.width = p.2 ∧ b.val.toNat = (genReg s c r).toNat % 2 ^ (8 * p.2) ∧
        b.paddock = (getCore s c).paddock ∧ b.warden = (getCore s c).warden ∧
        exec (p.1 c r k a imm) s = .next (nextAfter c s (updCore c (fun x => { x with wbuf := x.wbuf ++ [b] }) s0)))) ∧
  (
  ∀ (s : State) (c : Nat), c < 26 → s.off = false →
    ((getCore s c).wbuf = [] → exec (.storePerformed c) s = .next s) ∧
    (∀ b rest, (getCore s c).wbuf = b :: rest → isCsr b.addr = false → 0 < b.width →
      let acc : Access := { unit := c, paddock := b.paddock, cls := if b.warden then 1 else 0 }
      (firstRefused s acc true false b.addr b.width = none → (∀ i < b.width, isSram (b.addr + i) = true) →
        meetsPoison s b.addr b.width = false → b.val.toNat < 2 ^ (8 * b.width) →
        ∃ t, exec (.storePerformed c) s = .next t ∧ (getCore t c) = { getCore s c with wbuf := rest } ∧
          (∀ i < b.width, ramByte t (b.addr + i) = BitVec.ofNat 8 (b.val.toNat / 2 ^ (8 * i))) ∧
          (∀ a, (a < b.addr ∨ b.addr + b.width ≤ a) → ramByte t a = ramByte s a) ∧
          (∀ i < b.width, Tab.get false t.mem.tags ((b.addr + i) / 16) = false) ∧
          t = { s with mem := t.mem, pc := { s.pc with cores := t.pc.cores } }) ∧
      (∀ code, b.width = 1 → firstRefused s acc true false b.addr 1 = some (b.addr, code) →
        ∃ t, exec (.storePerformed c) s = .next t ∧ (getCore t c).wbuf = rest ∧ t.mem = s.mem ∧
          t.br.faults = min (s.br.faults + 1) 0xFFFFFFFF ∧ Tab.get false t.br.fresh c = true ∧
          (getCore t c).imprecise = some ((getCore s c).imprecise.getD b.addr) ∧
          ((getCore s c).imprecise ≠ none → (Tab.get 0 t.events 9).getLsbD 5 = true))) ∧
    (∀ u : State, u.off = true → exec (.storePerformed c) u = .next u))

/-- R255, R256, R258, R265, R284: PUSH and POP move DSP by 8 through K15, and one that faults leaves DSP as it was; KLD of
a granule of tagged memory gives its sixteen bytes and its tag, and KST writes them and sets the tag equal to the
rein's; in CSR space both reach rein fields only. KST changes no other byte. -/
def Obligations.StackAndReinTransfers : Prop :=
  ∀ (s : State) (c : Nat) (r a : BitVec 6) (k : BitVec 4) (imm : BitVec 9), reaches c s → (getCore s c).wbuf = [] →
    let s0 := stepSpent c s
    let x := getCore s c
    let lower := (x.dsp - 8).toNat
    let top := reinAddr s c 15 x.dsp.toNat
    let off := mOffset s c a imm 16
    let adr := reinAddr s c k.toNat off
    let fail (cause i size o : Nat) : Host.Outcome State Fault Refusal := .next (raised c cause (reinInfo i size o false) s s0)
    (mayName c s [15] →
      (∀ e, reinCheck s c 15 lower 8 [permStore] = some e → exec (.push c 0 r 0) s = fail e 15 8 lower) ∧
      (reinCheck s c 15 lower 8 [permStore] = none → csrWidthBad (reinAddr s c 15 lower) 8 = false →
        ∃ t b, exec (.push c 0 r 0) s = .next t ∧ (getCore t c).dsp = x.dsp - 8 ∧ (getCore t c).wbuf = [b] ∧
          b.addr = reinAddr s c 15 lower ∧ b.width = 8 ∧ b.val = genReg s c r ∧ t.mem = s.mem ∧ (getCore t c).g = x.g) ∧
      (∀ e, reinCheck s c 15 x.dsp.toNat 8 [permLoad] = some e → exec (.pop c r 0 0) s = fail e 15 8 x.dsp.toNat) ∧
      (reinCheck s c 15 x.dsp.toNat 8 [permLoad] = none → isCsr top = false →
        firstRefused s (coreAccess s c) false false top 8 = none → meetsPoison s top 8 = false →
        ∃ t v, exec (.pop c r 0 0) s = .next t ∧ (getCore t c).dsp = x.dsp + 8 ∧
          (∀ i < 8, v.extractLsb' (8 * i) 8 = plainByte s (top + i)) ∧ (r ≠ 0 → genReg t c r = v) ∧
          (∀ i, i ≠ r.toNat → (getCore t c).getG i = x.getG i) ∧ t.mem = s.mem)) ∧
    (r.toNat < 16 → mayName c s [k.toNat, r.toNat] →
      (∀ e, reinCheck s c k.toNat off 16 [permLoadRein] = some e → exec (.kld c r k a imm) s = fail e k.toNat 16 off) ∧
      (∀ e, reinCheck s c k.toNat off 16 [permStoreRein] = some e → exec (.kst c r k a imm) s = fail e k.toNat 16 off) ∧
      (reinCheck s c k.toNat off 16 [permLoadRein] = none → isCsr adr = true → reinField adr = none →
        exec (.kld c r k a imm) s = fail 0x05 k.toNat 16 off) ∧
      (reinCheck s c k.toNat off 16 [permStoreRein] = none → isCsr adr = true → reinField adr = none →
        exec (.kst c r k a imm) s = fail 0x05 k.toNat 16 off) ∧
      (∀ f, reinCheck s c k.toNat off 16 [permLoadRein] = none → reinField adr = some f →
        firstRefused s (coreAccess s c) false false adr 16 = none →
        exec (.kld c r k a imm) s = .next (nextAfter c s (putK c r.toNat (csrKld c f s0) s0))) ∧
      (∀ f, reinCheck s c k.toNat off 16 [permStoreRein] = none → reinField adr = some f →
        firstRefused s (coreAccess s c) true false adr 16 = none →
        exec (.kst c r k a imm) s = .next (nextAfter c s (csrKst c f (x.getK r.toNat) s0))) ∧
      (reinCheck s c k.toNat off 16 [permLoadRein] = none → isTagged adr = true →
        firstRefused s (coreAccess s c) false false adr 16 = none → meetsPoison s adr 16 = false →
        ∃ y, exec (.kld c r k a imm) s = .next (nextAfter c s (putK c r.toNat y s0)) ∧
          y.tag = Tab.get false s.mem.tags (adr / 16) ∧ ∀ i < 16, y.bits.extractLsb' (8 * i) 8 = plainByte s (adr + i)) ∧
      (reinCheck s c k.toNat off 16 [permStoreRein] = none → isTagged adr = true →
        firstRefused s (coreAccess s c) true false adr 16 = none → meetsPoison s adr 16 = false →
        ∃ t, exec (.kst c r k a imm) s = .next t ∧ Tab.get false t.mem.tags (adr / 16) = (x.getK r.toNat).tag ∧
          (∀ i < 16, ramByte t (adr + i) = (x.getK r.toNat).bits.extractLsb' (8 * i) 8) ∧
          (∀ e, (e < adr ∨ adr + 16 ≤ e) → ramByte t e = ramByte s e) ∧ (getCore t c).g = x.g ∧ (getCore t c).k = x.k))

/-! ### Pacer: control flow, exceptions and system registers (R250–R252, R263–R267, R290–R300) -/

/-- R263, R264, R266, R267: conditional branches, JMP and JMPR go where their displacement or register says; LOOP arms its
body and skips it for a zero count; CALL pushes a RETURN entry with its shadow and RET pops one, with CF_MISMATCH
where the stack is empty, the entry is a FRAME or its copies disagree. At LEND of an armed loop every one of them is
illegal. -/
def Obligations.BranchesLoopsAndCalls : Prop :=
  ∀ (s : State) (c : Nat) (d19 : BitVec 19) (d25 : BitVec 25) (a b : BitVec 6), reaches c s →
    let s0 := stepSpent c s
    let k := getCore s c
    let off := (genReg s c b).toNat
    let fail (cause : Nat) (w : W64) : Host.Outcome State Fault Refusal := .next (raised c cause w s s0)
    (k.atEnd = true → ∀ i ∈ [.bz c a d19, .bnz c a d19, .loop c a d19, .jmp c d25, .call c d25, .ret c 0 0 0, .jmpr c 0 a b,
        .trap c 0 0 b, .brk c 0 0 b, .wret c 0 0 0, .enter c 0 a 0], ∃ w, exec i s = fail 0x01 w) ∧
    (k.atEnd = false →
      (genReg s c a = 0 → exec (.bz c a d19) s = .next (jumpTo c (pcPlus k.pc (4 * d19.toInt)) s s0) ∧
        exec (.bnz c a d19) s = .next (nextAfter c s s0)) ∧
      (genReg s c a ≠ 0 → exec (.bnz c a d19) s = .next (jumpTo c (pcPlus k.pc (4 * d19.toInt)) s s0) ∧
        exec (.bz c a d19) s = .next (nextAfter c s s0)) ∧
      exec (.jmp c d25) s = .next (jumpTo c (pcPlus k.pc (4 * d25.toInt)) s s0) ∧
      ((d19.toInt < 1 ∨ 1024 < d19.toInt) → ∃ w, exec (.loop c a d19) s = fail 0x01 w) ∧
      (1 ≤ d19.toInt → d19.toInt ≤ 1024 → ∃ t, exec (.loop c a d19) s = .next t ∧
        (getCore t c).lstart = BitVec.ofNat 64 (pcPlus k.pc 4) ∧ (getCore t c).lend = BitVec.ofNat 64 (pcPlus k.pc (4 * d19.toInt)) ∧
        (getCore t c).lcount = genReg s c a ∧ (getCore t c).g = k.g ∧ t.mem = s.mem ∧
        (getCore t c).pc = (if genReg s c a = 0 then pcPlus (pcPlus k.pc (4 * d19.toInt)) 4 else pcPlus k.pc 4)) ∧
      (a.toNat < 16 → mayName c s [a.toNat] →
        (∀ e, reinCheck s c a.toNat off 4 [permExec] = some e → exec (.jmpr c 0 a b) s = fail e (reinInfo a.toNat 4 off false)) ∧
        (reinCheck s c a.toNat off 4 [permExec] = none → csrWidthBad (reinAddr s c a.toNat off) 4 = false →
          exec (.jmpr c 0 a b) s = .next (jumpTo c (reinAddr s c a.toNat off) s (putK c 14 (k.getK a.toNat) s0)))) ∧
      (k.onchip.length < 64 → ∃ t e, exec (.call c d25) s = .next t ∧ (getCore t c).onchip = e :: k.onchip ∧
        (getCore t c).pc = pcPlus k.pc (4 * d25.toInt) ∧ entryGood s e = true ∧ e.kind = 1 ∧
        e.word 0 = pcPlus k.pc 4 % 2 ^ 40 + 2 ^ 40 ∧ (∀ i, 1 ≤ i → e.word i = 0) ∧ (getCore t c).g = k.g ∧ t.mem = s.mem) ∧
      (k.onchip = [] → k.spilled = 0 → exec (.ret c 0 0 0) s = fail 0x08 0) ∧
      (∀ e rest, k.onchip = e :: rest → e.kind ≠ 1 → exec (.ret c 0 0 0) s = fail 0x08 1) ∧
      (∀ e rest, k.onchip = e :: rest → e.kind = 1 → entryGood s e = true →
        exec (.ret c 0 0 0) s = .next (jumpTo c (e.word 0 % 2 ^ 40) s (updCore c (fun x => { x with onchip := rest }) s0))) ∧
      (∀ e rest, k.onchip = e :: rest → e.kind = 1 → entryGood s e = false →
        exec (.ret c 0 0 0) s = .next (raised c 0x08 2 s (setEvent 9 0 s0))))

/-- R290, R291, R295, R296: TRAP and BRK (away from an armed LEND), an interrupt taken and an imprecise fault taken push a
FRAME entry, write WCAUSE, WPC and WINFO, raise the level with MASK set and DTRAP clear, load K13 and K14, clear
LCOUNT and go to WARDEN_ENTRY; general registers, DSP and K15 are as before. R264, R299: WRET pops the FRAME on top
and restores PC, STATUS, LSTART, LEND, LCOUNT, K13 and K14 with their tags; general registers, DSP and the other rein
registers are as before. At the paddock level it is illegal; another kind of entry, an empty stack and copies that
disagree raise cause 0x08. -/
def Obligations.ExceptionsPushAndRestoreFrames : Prop :=
  (
  ∀ (s : State) (c : Nat) (b : BitVec 6), c < 26 → (getCore s c).onchip.length < 64 →
    let k := getCore s c
    let entered (t : State) (cause : Nat) (info : W64) (wpc resume : Nat) : Prop :=
      ∃ e, (getCore t c).onchip = e :: k.onchip ∧ entryGood s e = true ∧ e.kind = 2 ∧
        e.word 0 % 2 ^ 40 = resume % 2 ^ 40 ∧ e.word 1 % 2 ^ 24 = k.status.toNat % 2 ^ 24 ∧
        e.word 1 / 2 ^ 24 = k.lstart.toNat % 2 ^ 40 ∧ e.word 2 = k.lend.toNat % 2 ^ 40 ∧ e.word 3 = k.lcount.toNat ∧
        (e.word 4 + e.word 5 * 2 ^ 64 = (k.getK 13).bits.toNat ∧ natBit (e.word 0) 42 = (k.getK 13).tag) ∧
        (e.word 6 + e.word 7 * 2 ^ 64 = (k.getK 14).bits.toNat ∧ natBit (e.word 0) 43 = (k.getK 14).tag) ∧
        (getCore t c).wcause.toNat = cause + (if k.warden then 256 else 0) ∧ (getCore t c).wpc = BitVec.ofNat 64 wpc ∧
        (getCore t c).winfo = info ∧ (getCore t c).warden = true ∧ (getCore t c).masked = true ∧ (getCore t c).dtrap = false ∧
        (getCore t c).paddock = k.paddock ∧ (getCore t c).getK 13 = rootRein ∧ (getCore t c).getK 14 = resetCodeRein ∧
        (getCore t c).getK 15 = k.getK 15 ∧ (getCore t c).lcount = 0 ∧ (getCore t c).pc = 0x100 ∧ (getCore t c).g = k.g ∧
        (getCore t c).dsp = k.dsp ∧ t.mem = s.mem
    (reaches c s → k.atEnd = false →
      (∃ t, exec (.trap c 0 0 b) s = .next t ∧ entered t 0x10 (b.setWidth 64) (pcPlus k.pc 4) (pcPlus k.pc 4)) ∧
      (∃ t, exec (.brk c 0 0 b) s = .next t ∧ entered t 0x11 (b.setWidth 64) (pcPlus k.pc 0) (pcPlus k.pc 0))) ∧
    (coreRuns s c = true → ∀ a, k.imprecise = some a → ∃ t, exec (.impreciseFaultTaken c) s = .next t ∧
      entered t 0x07 (BitVec.ofNat 64 (a % 2 ^ 40 + 2 ^ 40)) 0 k.pc ∧ (getCore t c).imprecise = none) ∧
    (coreRuns s c = true → k.imprecise = none → k.masked = false → ∀ i < 10, k.ie.getLsbD i = true → k.pend.getLsbD i = true →
      (∀ j < i, k.ie.getLsbD j = false ∨ k.pend.getLsbD j = false) → ∃ t, exec (.interruptTaken c false) s = .next t ∧
        entered t (0x20 + i) (if i = 0 ∨ i = 8 then BitVec.ofNat 64 (s.stride % 2 ^ 32)
          else if i = 9 then BitVec.ofNat 64 (k.sender % 32 * 2 ^ 32 + k.msg.toNat) else 0) k.pc k.pc ∧
        (getCore t c).pend = k.pend)) ∧
  (
  ∀ (s : State) (c : Nat), reaches c s → (getCore s c).atEnd = false →
    let k := getCore s c
    let fail (cause : Nat) (w : W64) : Host.Outcome State Fault Refusal := .next (raised c cause w s (stepSpent c s))
    (k.warden = false → ∃ w, exec (.wret c 0 0 0) s = fail 0x01 w) ∧
    (k.warden = true → k.onchip = [] → k.spilled = 0 → exec (.wret c 0 0 0) s = fail 0x08 0) ∧
    (k.warden = true → ∀ e rest, k.onchip = e :: rest →
      (e.kind ≠ 2 → exec (.wret c 0 0 0) s = fail 0x08 1) ∧
      (e.kind = 2 → entryGood s e = true → ∃ t, exec (.wret c 0 0 0) s = .next t ∧ (getCore t c).onchip = rest ∧
        (getCore t c).pc = e.word 0 % 2 ^ 40 ∧ (getCore t c).status.toNat = e.word 1 % 2 ^ 24 ∧
        (getCore t c).lstart.toNat = e.word 1 / 2 ^ 24 % 2 ^ 40 ∧ (getCore t c).lend.toNat = e.word 2 % 2 ^ 40 ∧
        (getCore t c).lcount.toNat = e.word 3 ∧
        ((getCore t c).getK 13).tag = natBit (e.word 0) 42 ∧ ((getCore t c).getK 14).tag = natBit (e.word 0) 43 ∧
        ((getCore t c).getK 13).bits = BitVec.ofNat 128 (e.word 4 + e.word 5 * 2 ^ 64) ∧
        ((getCore t c).getK 14).bits = BitVec.ofNat 128 (e.word 6 + e.word 7 * 2 ^ 64) ∧
        (∀ i, i ≠ 13 → i ≠ 14 → (getCore t c).getK i = k.getK i) ∧ (getCore t c).g = k.g ∧ (getCore t c).dsp = k.dsp ∧
        t.mem = s.mem) ∧
      (e.kind = 2 → entryGood s e = false → 
        exec (.wret c 0 0 0) s = .next (raised c 0x08 2 s (setEvent 9 0 (stepSpent c s))))))

/-- R250–R252, R254, R256, R263: MFS reads the numbers of the table at their level and MTS writes those that may be
written, MASK and DTRAP alone of STATUS; any other use is illegal. SYNC completes with every earlier store performed,
and WAIT until a source is pending. A field that an entry of group 0x06 does not name must be 0. -/
def Obligations.SystemInstructions : Prop :=
  ∀ (s : State) (c : Nat) (d a b : BitVec 6) (n : BitVec 13), reaches c s →
    let s0 := stepSpent c s
    let k := getCore s c
    let illegal (i : Instr) : Prop := ∃ w, exec i s = .next (raised c 0x01 w s s0)
    let reads (i : Nat) : Option W64 :=
      if i = 0 then some (BitVec.ofNat 64 k.pc) else if i = 1 then some k.dsp
      else if i = 2 then some (BitVec.ofNat 64 (k.onchip.length + k.spilled)) else if i = 3 then some k.lstart
      else if i = 4 then some k.lend else if i = 5 then some k.lcount else if i = 6 then some k.status
      else if i = 7 then some (BitVec.ofNat 64 (s.stride % 2 ^ 32))
      else if k.warden = true ∧ i = 0x10 then some k.wcause else if k.warden = true ∧ i = 0x11 then some k.wpc
      else if k.warden = true ∧ i = 0x12 then some k.winfo else none
    (∀ v, reads n.toNat = some v → exec (.mfs c d 0 n) s = .next (nextAfter c s (putReg c d.toNat v s0))) ∧
    (reads n.toNat = none → illegal (.mfs c d 0 n)) ∧
    (k.atEnd = false ∨ ¬ (3 ≤ n.toNat ∧ n.toNat ≤ 5) → let v := genReg s c a
      (n = 1 → exec (.mts c 0 a n) s = .next (nextAfter c s (updCore c (fun x => { x with dsp := v }) s0))) ∧
      (n = 3 → exec (.mts c 0 a n) s = .next (nextAfter c s (updCore c (fun x => { x with lstart := v &&& ~~~3 }) s0))) ∧
      (n = 4 → exec (.mts c 0 a n) s = .next (nextAfter c s (updCore c (fun x => { x with lend := v &&& ~~~3 }) s0))) ∧
      (n = 5 → exec (.mts c 0 a n) s = .next (nextAfter c s (updCore c (fun x => { x with lcount := v }) s0))) ∧
      (n = 6 → exec (.mts c 0 a n) s = .next (nextAfter c s (updCore c (fun x => { x with
        status := (x.status &&& ~~~3) ||| (v &&& 3) }) s0))) ∧
      (n = 0x10 → k.warden = true → exec (.mts c 0 a n) s = .next (nextAfter c s (updCore c (fun x => { x with wcause := v }) s0))) ∧
      (n = 0x11 → k.warden = true → exec (.mts c 0 a n) s = .next (nextAfter c s (updCore c (fun x => { x with wpc := v }) s0))) ∧
      (n = 0x12 → k.warden = true → exec (.mts c 0 a n) s = .next (nextAfter c s (updCore c (fun x => { x with winfo := v }) s0))) ∧
      (n.toNat ∉ [1, 3, 4, 5, 6, 0x10, 0x11, 0x12] → illegal (.mts c 0 a n)) ∧
      (k.warden = false → 0x10 ≤ n.toNat → illegal (.mts c 0 a n))) ∧
    (k.atEnd = true → 3 ≤ n.toNat → n.toNat ≤ 5 → illegal (.mts c 0 a n)) ∧
    ((getCore (storesDrain c s0) c).halted = false → exec (.sync c 0 0 0) s = .next (nextAfter c s (storesDrain c s0))) ∧
    ((∀ b ∈ k.wbuf, isCsr b.addr = false) → (getCore (storesDrain c s0) c).wbuf = []) ∧
    exec (.wait c 0 0 0) s = .next (nextAfter c s (updCore c (fun x => { x with waiting := x.pend.toNat % 1024 == 0 }) s0)) ∧
    (a ≠ 0 → illegal (.mfs c d a n)) ∧ (d ≠ 0 → illegal (.mts c d a n)) ∧
    ((d, a, b) ≠ (0, 0, 0) → ∀ i ∈ [.ret c d a b, .wret c d a b, .sync c d a b, .wait c d a b], illegal i) ∧
    ((d, b) ≠ (0, 0) → illegal (.push c d a b)) ∧ ((a, b) ≠ (0, 0) → illegal (.pop c d a b)) ∧
    ((d, a) ≠ (0, 0) → illegal (.trap c d a b) ∧ illegal (.brk c d a b)) ∧
    ((d ≠ 0 ∨ 16 ≤ a.toNat) → illegal (.jmpr c d a b))

/-! ### Pacer: reins, strings and the monitor (R268–R270, R281–R288, R302–R304) -/

/-- R268, R279, R281, R282: what each rein instruction does with the registers it names: KMOV copies with the tag, KBOUND
narrows an unsealed memory rein, KPERM drops permissions, KBASE, KLEN and KINFO read fields, KCLR clears; each raises
its cause. -/
def Obligations.ReinFormsAct : Prop :=
  ∀ (s : State) (c : Nat) (d a b : BitVec 6), reaches c s →
    let s0 := stepSpent c s
    let kd := (getCore s c).getK d.toNat
    let ks := (getCore s c).getK a.toNat
    let x := (genReg s c a).toNat
    let y := (genReg s c b).toNat
    let fail (cause i : Nat) : Host.Outcome State Fault Refusal := .next (raised c cause (reinInfo i 0 0 false) s s0)
    let setD (r : Rein) : Host.Outcome State Fault Refusal := .next (nextAfter c s (putK c d.toNat r s0))
    let putD (v : W64) : Host.Outcome State Fault Refusal := .next (nextAfter c s (putReg c d.toNat v s0))
    let held (r : Rein) : Prop := r.tag = true ∧ (r.isSealed = true ∨ r.kind < 1 ∨ 5 < r.kind)
    (d.toNat < 16 → a.toNat < 16 → mayName c s [d.toNat, a.toNat] → exec (.kmov c d a 0) s = setD ks) ∧
    (d.toNat < 16 → mayName c s [d.toNat] →
      (kd.tag = false → exec (.kbound c d a b) s = fail 0x02 d.toNat ∧ exec (.kperm c d a 0) s = fail 0x02 d.toNat) ∧
      (kd.tag = true → (kd.kind ≠ 1 ∨ kd.isSealed = true) → exec (.kbound c d a b) s = fail 0x04 d.toNat) ∧
      (kd.tag = true → kd.kind = 1 → kd.isSealed = false → kd.len < x + y → exec (.kbound c d a b) s = fail 0x03 d.toNat) ∧
      (kd.tag = true → kd.kind = 1 → kd.isSealed = false → x + y ≤ kd.len → ∃ r, exec (.kbound c d a b) s = setD r ∧
        r.tag = true ∧ r.base = (kd.base + x) % 2 ^ 40 ∧ r.len = y ∧ r.perm = kd.perm ∧ r.kind = 1 ∧ r.pad = kd.pad ∧ r.gen = kd.gen ∧
        r.isWarden = kd.isWarden) ∧
      (held kd ∨ (kd.tag = true ∧ kd.kind = 4) → exec (.kperm c d a 0) s = fail 0x04 d.toNat) ∧
      (kd.tag = true → ¬ held kd → kd.kind ≠ 4 → ∃ r, exec (.kperm c d a 0) s = setD r ∧ r.tag = true ∧
        r.perm = kd.perm &&& (x % 65536) ∧ r.base = kd.base ∧ r.len = kd.len ∧ r.kind = kd.kind ∧ r.pad = kd.pad ∧ r.gen = kd.gen ∧
        r.isWarden = kd.isWarden)) ∧
    (a.toNat < 16 → mayName c s [a.toNat] →
      (held ks → exec (.kbase c d a 0) s = fail 0x04 a.toNat ∧ exec (.klen c d a 0) s = fail 0x04 a.toNat) ∧
      (¬ held ks → exec (.kbase c d a 0) s = putD (BitVec.ofNat 64 ks.base) ∧ exec (.klen c d a 0) s = putD (BitVec.ofNat 64 ks.len)) ∧
      (∃ v, exec (.kinfo c d a 0) s = putD v ∧ v.getLsbD 63 = ks.tag ∧ v.extractLsb' 0 48 = ks.bits.extractLsb' 80 48 ∧
        v.extractLsb' 48 15 = 0)) ∧
    (d.toNat < 16 → exec (.kclr c d 0 0) s = setD { tag := false, bits := 0 }) ∧
    ((getCore s c).warden = false → kd.tag = true → kd.isWarden = true → d.toNat < 16 → ∀ i ∈ [.kbound c d a b, .kperm c d a 0],
      exec i s = fail 0x04 d.toNat) ∧
    (16 ≤ d.toNat → ∀ i ∈ [.kmov c d a 0, .kbound c d a b, .kperm c d a 0, .kclr c d 0 0, .kseal c d a 0, .kunseal c d a 0],
      ∃ w, exec i s = .next (raised c 0x01 w s s0))

/-- R283: KSEAL and KUNSEAL check their operands in the order of the table, the first check that fails raises its cause
and K[d] is then unchanged; on success SEALED alone of K[d] changes. -/
def Obligations.SealingChecksInOrder : Prop :=
  ∀ (s : State) (c : Nat) (d a : BitVec 6), reaches c s → d.toNat < 16 → a.toNat < 16 → mayName c s [d.toNat, a.toNat] →
    let s0 := stepSpent c s
    let kd := (getCore s c).getK d.toNat
    let ks := (getCore s c).getK a.toNat
    ∀ sl : Bool,
      let i : Instr := if sl then .kseal c d a 0 else .kunseal c d a 0
      let fails (cause : Nat) : Prop := ∃ t, exec i s = .next t ∧
        (∃ r, (r = d.toNat ∨ r = a.toNat) ∧ t = raised c cause (reinInfo r 0 0 false) s s0)
      let p1 := ks.tag = false ∨ kd.tag = false
      let p2 := ks.genOk s = false ∨ kd.genOk s = false
      let p3 := ks.isSealed = true ∨ ks.kind ≠ 1 ∨ natBit ks.perm (if sl then 5 else 6) = false
      let p4 := kd.pad ≠ ks.pad ∨ kd.isWarden ≠ ks.isWarden
      (p1 → fails 0x02) ∧ (¬ p1 → p2 → fails 0x12) ∧ (¬ p1 → ¬ p2 → p3 ∨ p4 ∨ kd.isSealed = sl → fails 0x04) ∧
      (¬ p1 → ¬ p2 → ¬ p3 → ¬ p4 → kd.isSealed ≠ sl → 1 ≤ kd.kind → kd.kind ≤ 5 →
        ∃ r, exec i s = .next (nextAfter c s (putK c d.toNat r s0)) ∧ r.tag = true ∧ r.isSealed = sl ∧
          ∀ j < 128, j ≠ 103 → r.bits.getLsbD j = kd.bits.getLsbD j)

/-- R287, R288: ENTER checks the door in the order of the table and, once they pass, changes paddock, level, code rein,
stack rein, DSP, LCOUNT and PC as the table says, clears every Warden rein of K0 to K13 and leaves the general
registers, MASK and DTRAP; the return stack is as before. -/
def Obligations.EnterPassesDoors : Prop :=
  ∀ (s : State) (c : Nat) (a : BitVec 6), reaches c s → (getCore s c).atEnd = false → a.toNat < 16 → mayName c s [a.toNat] →
    (getCore s c).wbuf = [] →
    let k := getCore s c
    let r := k.getK a.toNat
    let fails (cause : Nat) : Prop := exec (.enter c 0 a 0) s = .next (raised c cause (reinInfo a.toNat 0 0 false) s (stepSpent c s))
    let typeBad := r.kind ≠ 4 ∨ r.isSealed = false ∨ r.isWarden = true
    let genBad := (s.paddock r.pad).st ≠ 1 ∨ (s.paddock r.pad).gen ≠ r.gen
    (r.tag = false → fails 0x02) ∧ (r.tag = true → typeBad → fails 0x04) ∧ (r.tag = true → ¬ typeBad → genBad → fails 0x12) ∧
    (r.tag = true → ¬ typeBad → ¬ genBad → r.len ≤ 4 * r.perm → fails 0x03) ∧
    (r.tag = true → ¬ typeBad → ¬ genBad → 4 * r.perm < r.len → r.base % 4 ≠ 0 → fails 0x05) ∧
    (r.tag = true → ¬ typeBad → ¬ genBad → 4 * r.perm < r.len → r.base % 4 = 0 →
      ∃ t, exec (.enter c 0 a 0) s = .next t ∧ (getCore t c).paddock = r.pad ∧ (getCore t c).warden = false ∧
        (getCore t c).masked = k.masked ∧ (getCore t c).dtrap = k.dtrap ∧ (getCore t c).pc = r.base + 4 * r.perm ∧
        (getCore t c).lcount = 0 ∧ (getCore t c).dsp = 0 ∧ (getCore t c).getK 15 = Rein.zero ∧ (getCore t c).g = k.g ∧
        (getCore t c).onchip = k.onchip ∧ (getCore t c).spilled = k.spilled ∧
        (let x := (getCore t c).getK 14
         x.tag = true ∧ x.base = r.base ∧ x.len = r.len ∧ x.pad = r.pad ∧ x.gen = r.gen ∧ x.perm = 5 ∧ x.typ = 1) ∧
        (∀ i < 14, (getCore t c).getK i =
          (if (k.getK i).tag && (k.getK i).isWarden then Rein.zero else k.getK i)) ∧ t.mem = s.mem)

/-- R269, R270: a string instruction performs one chunk: MOVB, XORB and FILLB write it byte by byte in ascending order,
CMPB and SCANB stop at their byte, CRCB feeds its unit; the offsets and SCNT move by the bytes counted, and with SCNT
0 the instruction completes without a check. (CMPB of no bytes sets SPAT to 0: the model's reading, log 63.) -/
def Obligations.StringChunksAdvance : Prop :=
  ∀ (s : State) (c : Nat) (d a u : BitVec 6) (m : Nat), reaches c s → (getCore s c).wbuf = [] → d.toNat < 16 → a.toNat < 16 →
    u.toNat < 16 → mayName c s [d.toNat, a.toNat, u.toNat] →
    let k := getCore s c
    let n := (k.getG 58).toNat
    let s0 := stepSpent c s
    let da := spanAt s c d 56
    let sa := spanAt s c a 57
    let dPass (ld st : Bool) : Prop := ∀ i < m, bytePasses s c d 56 ld st i
    let sPass : Prop := ∀ i < m, bytePasses s c a 57 true false i
    let src (t : State) (i : Nat) : Byte := if da 0 ≤ sa i ∧ sa i < da i then ramByte t (sa i) else plainByte s (sa i)
    let wrote (t : State) (f : Nat → Byte) : Prop := (∀ i < m, ramByte t (da i) = f i) ∧
      ∀ x, (x < da 0 ∨ da m ≤ x) → ramByte t x = ramByte s x
    (n = 0 → (∀ i ∈ [.movb c d a 0, .xorb c d a 0, .scanb c 0 a 0, .fillb c d 0 0, .crcb c 0 a u], exec i s = .next (nextAfter c s s0)) ∧
      exec (.cmpb c d a 0) s = .next (nextAfter c s (putReg c 59 0 s0))) ∧
    (isChunk s c [(d, 56), (a, 57)] m → sPass → meetsPoison s (sa 0) m = false → meetsPoison s (da 0) m = false →
      (dPass false true → (∀ i < m, isSram (da i) = true) → ∃ t, exec (.movb c d a 0) s = .next t ∧
        chunkDone s t c [56, 57] m (m = n) ∧ wrote t (src t)) ∧
      (dPass true true → (∀ i < m, isSram (da i) = true) → ∃ t, exec (.xorb c d a 0) s = .next t ∧
        chunkDone s t c [56, 57] m (m = n) ∧ wrote t (fun i => ramByte s (da i) ^^^ src t i)) ∧
      (dPass true false → (∀ i < m, plainByte s (da i) = plainByte s (sa i)) → ∃ t, exec (.cmpb c d a 0) s = .next t ∧
        chunkDone s t c [56, 57] m (m = n) ∧ t.mem = s.mem ∧
        (getCore t c).getG 59 = (if m = n then 0 else k.getG 59)) ∧
      (dPass true false → ∀ j < m, (∀ i < j, plainByte s (da i) = plainByte s (sa i)) → plainByte s (da j) ≠ plainByte s (sa j) →
        ∃ t, exec (.cmpb c d a 0) s = .next t ∧ chunkDone s t c [56, 57] j True ∧ t.mem = s.mem ∧
          (getCore t c).getG 59 = (if plainByte s (sa j) < plainByte s (da j) then 1 else 0xFFFFFFFFFFFFFFFF))) ∧
    (isChunk s c [(a, 57)] m → sPass → meetsPoison s (sa 0) m = false →
      ((∀ i < m, plainByte s (sa i) ≠ (k.getG 59).setWidth 8) → ∃ t, exec (.scanb c 0 a 0) s = .next t ∧
        chunkDone s t c [57] m (m = n) ∧ t.mem = s.mem ∧ (getCore t c).getG 59 = k.getG 59) ∧
      (∀ j < m, (∀ i < j, plainByte s (sa i) ≠ (k.getG 59).setWidth 8) → plainByte s (sa j) = (k.getG 59).setWidth 8 →
        ∃ t, exec (.scanb c 0 a 0) s = .next t ∧ chunkDone s t c [57] j True ∧ t.mem = s.mem ∧
          (getCore t c).getG 59 = k.getG 59) ∧
      (∀ v, cvUnitOf (k.getK u.toNat) = some v → (k.getK u.toNat).tag = true → (k.getK u.toNat).genOk s = true →
        (k.getK u.toNat).isSealed = false → cvRefused s (k.getK u.toNat) = false → cvBusy s v = false →
        ∃ t, exec (.crcb c 0 a u) s = .next t ∧ chunkDone s t c [57] m (m = n) ∧ t.mem = s.mem ∧
          (getCv t v).acc = ((List.range m).map (fun i => plainByte s (sa i))).foldl (crcFeed (getCv s v).params) (getCv s v).acc) ∧
      (∀ v, cvUnitOf (k.getK u.toNat) = some v → (k.getK u.toNat).tag = true → (k.getK u.toNat).genOk s = true →
        (k.getK u.toNat).isSealed = false → cvRefused s (k.getK u.toNat) = false → cvBusy s v = true →
        exec (.crcb c 0 a u) s = .next s0) ∧
      ((k.getK u.toNat).tag = true → (k.getK u.toNat).genOk s = true → cvRefused s (k.getK u.toNat) = true →
        exec (.crcb c 0 a u) s = .next (raised c 0x04 (reinInfo u.toNat 0 0 false) s s0))) ∧
    (isChunk s c [(d, 56)] m → dPass false true → meetsPoison s (da 0) m = false → (∀ i < m, isSram (da i) = true) →
      ∃ t, exec (.fillb c d 0 0) s = .next t ∧ chunkDone s t c [56] m (m = n) ∧ wrote t (fun _ => (k.getG 59).setWidth 8)) ∧
    (∀ f cause, isChunk s c [(a, 57)] m → f < m → (∀ i < f, bytePasses s c a 57 true false i) →
      (∀ i < f, plainByte s (sa i) ≠ (k.getG 59).setWidth 8) → (f = 0 ∨ meetsPoison s (sa 0) f = false) →
      reinCheck s c a.toNat ((k.getG 57).toNat + f) 1 [permLoad] = some cause → (k.getG 57).toNat + f < 2 ^ 64 →
      ∃ t, exec (.scanb c 0 a 0) s = .next t ∧ (getCore t c).getG 57 = k.getG 57 + BitVec.ofNat 64 f ∧
        (getCore t c).getG 58 = k.getG 58 - BitVec.ofNat 64 f ∧
        (k.onchip.length < 64 → (getCore t c).wcause.toNat % 256 = cause ∧ (getCore t c).wpc = BitVec.ofNat 64 (pcPlus k.pc 0)))

/-- R302, R303, R304: the monitor's services and what it does about other causes from the paddock level. YIELD keeps the
context and idles; RESUME gives the handler's interrupted context back; DOORS registers two doors; SEND posts a
message; KEYREIN mints a key rein; each refusal gives all ones in G1. A stride tick of a slot that stays returns; a
fault without a fault door, and a revoked rein, discard the context with a ledger record. R302, R303: whatever stack
the trap stands on, spilled or on chip, a service answers the context under its top FRAME: YIELD keeps it with G1 0
and the core idles; the others return to it with G1 0 or, refused, all ones. -/
def Obligations.MonitorServesTraps : Prop :=
  (
  ∀ (s : State) (c : Nat) (e : RsEntry) (rest : List RsEntry),
    let k := getCore s c
    let p := k.paddock
    let key := ctxKey c p
    let back (i : Instr) (g1 : W64) : Prop := ∃ t, exec i s = .next t ∧ returnedTo t c e rest ∧ (getCore t c).getG 1 = g1 ∧
      (∀ j, j ≠ 1 → (getCore t c).getG j = k.getG j) ∧ (getCore t c).dsp = k.dsp
    (atHandler s c 0x10 e rest →
      (k.winfo.toNat % 64 = 0 → ∃ t x, exec (.monitorYield c) s = .next t ∧ (getCore t c).yielded = true ∧
        Tab.get none t.pc.ctx key = some x ∧ x.pc = e.word 0 % 2 ^ 40 ∧ x.stack = rest ∧ Tab.get 0 x.g 1 = 0 ∧ t.mem = s.mem) ∧
      (k.winfo.toNat % 64 = 1 → Tab.get none s.pc.handler key = none → back (.monitorResume c) (-1)) ∧
      (k.winfo.toNat % 64 = 1 → ∀ x, Tab.get none s.pc.handler key = some x → x.stack.length ≤ 64 →
        ∃ t, exec (.monitorResume c) s = .next t ∧ Tab.get none t.pc.handler key = none ∧ (getCore t c).pc = x.pc ∧
          (getCore t c).status = x.status ∧ (getCore t c).g = x.g ∧ (getCore t c).k = x.k ∧ (getCore t c).dsp = x.dsp ∧
          (getCore t c).onchip = x.stack) ∧
      (k.winfo.toNat % 64 = 2 → doorGiven s p (k.getK 0) = true → doorGiven s p (k.getK 1) = true → back (.monitorDoors c) 0 ∧
        ∃ t, exec (.monitorDoors c) s = .next t ∧ Tab.get Rein.zero t.pc.faultDoor key = k.getK 0 ∧
          Tab.get Rein.zero t.pc.eventDoor key = k.getK 1) ∧
      (k.winfo.toNat % 64 = 2 → (doorGiven s p (k.getK 0) = false ∨ doorGiven s p (k.getK 1) = false) → back (.monitorDoors c) (-1)) ∧
      (k.winfo.toNat % 64 = 3 → queueGiven s (k.getK 0) = false → back (.monitorSend c) (-1)) ∧
      (k.winfo.toNat % 64 = 3 → queueGiven s (k.getK 0) = true → ∀ q, q = (k.getK 0).base % 32 →
        (getCore s q).pend.getLsbD 9 = false → back (.monitorSend c) 0 ∧ ∃ t, exec (.monitorSend c) s = .next t ∧
          (getCore t q).pend.getLsbD 9 = true ∧ (getCore t q).msg = (k.getG 2).setWidth 32 ∧ (getCore t q).sender = c) ∧
      (k.winfo.toNat % 64 = 3 → queueGiven s (k.getK 0) = true → (getCore s ((k.getK 0).base % 32)).pend.getLsbD 9 = true →
        back (.monitorSend c) (-1) ∧ ∃ t, exec (.monitorSend c) s = .next t ∧ (Tab.get 0 t.events 9).getLsbD 7 = true) ∧
      (k.winfo.toNat % 64 = 4 → ∀ r, r = mintKeyRein s p ((k.getG 2).toNat % 2 ^ 32) ((k.getG 3).toNat % 2 ^ 16) →
        (r.tag = true → back (.monitorKeyrein c) 0 ∧ ∃ t, exec (.monitorKeyrein c) s = .next t ∧ (getCore t c).getK 0 = r) ∧
        (r.tag = false → back (.monitorKeyrein c) (-1))) ∧
      (5 ≤ k.winfo.toNat % 64 → back (.interruptTaken c true) (-1))) ∧
    (atHandler s c 0x20 e rest → (logicalOf s 2 c).bind (fun l => slotOwner s l s.stride) = some p →
      ∃ t, exec (.interruptTaken c true) s = .next t ∧ returnedTo t c e rest ∧ (getCore t c).g = k.g ∧
        (getCore t c).pend = k.pend &&& ~~~1) ∧
    (∀ cause, ((1 ≤ cause ∧ cause ≤ 0x0B ∧ Tab.get Rein.zero s.pc.faultDoor key = Rein.zero) ∨ cause = 0x12) →
      atHandler s c cause e rest → ∃ t, exec (.interruptTaken c true) s = .next t ∧ (getCore t c).yielded = true ∧
        (getCore t c).onchip = [] ∧ Tab.get none t.pc.ctx key = none ∧ Tab.get none t.pc.handler key = none ∧ t.mem = s.mem)) ∧
  (
  ∀ (s : State) (c : Nat) (x : SavedCtx) (key : Nat), key = ctxKey c (getCore s c).paddock → frameCtx s c = some x →
    let back (ok : Bool) (t : State) : State := loadCtx c (answer ok x) t
    let k := getCore s c
    (atTrap s c 0 = true → stackBad s k = none → exec (.monitorYield c) s =
      .next (idleCore c { s with pc := { s.pc with ctx := Tab.set none s.pc.ctx key (some (answer true x)) } })) ∧
    (atTrap s c 1 = true → exec (.monitorResume c) s = .next (match Tab.get none s.pc.handler key with
      | some y => raiseHeld c k.paddock (loadCtx c y { s with pc := { s.pc with handler := Tab.set none s.pc.handler key none } })
      | none => back false s)) ∧
    (atTrap s c 2 = true → exec (.monitorDoors c) s = .next (
      if doorGiven s k.paddock (k.getK 0) = true ∧ doorGiven s k.paddock (k.getK 1) = true then
        back true { s with
          pc := { s.pc with
            faultDoor := Tab.set Rein.zero s.pc.faultDoor key (k.getK 0), eventDoor := Tab.set Rein.zero s.pc.eventDoor key (k.getK 1) } }
      else back false s)) ∧
    (atTrap s c 3 = true → exec (.monitorSend c) s = .next (
      if queueGiven s (k.getK 0) = true then
        back (!(getCore s ((k.getK 0).base % 32)).pend.getLsbD 9) (writeWmsg c ((k.getK 0).base % 32) ((k.getG 2).setWidth 32) s)
      else back false s)) ∧
    (atTrap s c 4 = true → ∀ s1 r,
      s1 = { s with tk := { s.tk with mint :=
        (Tab.set 0 (Tab.set 0 s.tk.mint 0 (((k.getG 2).setWidth 32).setWidth 64)) 1 ((((k.getG 3).setWidth 16).setWidth 64) <<< 16)) } } → r = readMint s1 c →
      exec (.monitorKeyrein c) s = .next (
        if r.tag = true then loadCtx c { answer true x with k := Tab.set Rein.zero x.k 0 r } s1 else back false s1)))

/-- R293, R294, R300, R305, R306: a timer that expires sets PEND bit 8; a mask count beyond the budget and a keyed write
of PC_FENCE fence a core, which stops with its write buffer discarded; WMSG is taken unless one is pending; SPILL is
written where R300 admits it; RSTAT.CLEAR empties the return stack. -/
def Obligations.CoreServiceCommands : Prop :=
  ∀ (s : State) (c t : Nat) (v : W32) (tag : Bool) (bits : W128), t < 26 →
    let fenced (x u reason : Nat) (s' : State) : Prop := (getCore s' x).halted = true ∧ (getCore s' x).wbuf = [] ∧
      (getCore s' x).imprecise = none ∧ (getCore s' x).reason = reason ∧ (getUnit s' 2 x).st = u ∧
      (Tab.get 0 s'.events 9).getLsbD 1 = true
    (c < 26 → (getCore s c).halted = false → (getCore s c).timer.toNat = s.stride → ∃ s', exec (.timerExpiry c) s = .next s' ∧
      (getCore s' c).pend = (getCore s c).pend ||| 0x100#32 ∧ (getCore s' c).waiting = false) ∧
    (c < 26 → (getCore s c).halted = false → (getCore s c).masked = true → (getCore s c).wanted = true → ∀ n,
      (n ≤ min (max s.pc.maskBud.toNat 100) 20000 → exec (.maskBudgetExceeded c n) s =
        .next (updCore c (fun k => { k with maskCount := n }) s)) ∧
      (min (max s.pc.maskBud.toNat 100) 20000 < n → (getUnit s 2 c).st = 1 → ∃ s', exec (.maskBudgetExceeded c n) s = .next s' ∧
        fenced c 5 1 s')) ∧
    (wardenMay s c 0x100900020 = true → (v.toNat / 256 % 256 ≠ 0xA5 → exec (.pcFenceWrite c v) s = .next s) ∧
      (v.toNat / 256 % 256 = 0xA5 → v.toNat % 32 = t → (getUnit s 2 t).st = 1 → ∃ s', exec (.pcFenceWrite c v) s = .next s' ∧
        fenced t 5 5 s')) ∧
    (wardenMay s c (0x100910000 + 0x100 * t + 0x30) = true →
      ((getCore s t).pend.getLsbD 9 = true → exec (.wardenMessage c t v) s = .next (setEvent 9 7 s)) ∧
      ((getCore s t).pend.getLsbD 9 = false → ∃ s', exec (.wardenMessage c t v) s = .next s' ∧ (getCore s' t).msg = v ∧
        (getCore s' t).sender = c ∧ (getCore s' t).pend = (getCore s t).pend ||| 0x200#32)) ∧
    (wardenMay s c (0x100910000 + 0x100 * t) = true → ∀ r : Rein, r = { tag := tag, bits := bits } →
      ((getCore s t).spilled = 0 ∨ (r.base = (getCore s t).spill.base ∧ (getCore s t).spilled * 128 ≤ r.len) →
        exec (.spillWrite c t tag bits) s = .next (updCore t (fun k => { k with spill := r }) s)) ∧
      (¬ ((getCore s t).spilled = 0 ∨ (r.base = (getCore s t).spill.base ∧ (getCore s t).spilled * 128 ≤ r.len)) →
        exec (.spillWrite c t tag bits) s = .next (setEvent 9 6 s))) ∧
    (wardenMay s c (0x100910000 + 0x100 * t + 0x10) = true → ∃ s', exec (.returnStackClear c t) s = .next s' ∧
      (getCore s' t).rsd = 0 ∧ s' = { s with pc := { s.pc with cores := s'.pc.cores } }) ∧
    ((getCore s c).warden = false → ∀ i ∈ [.pcFenceWrite c v, .wardenMessage c t v, .spillWrite c t tag bits, .returnStackClear c t],
      exec i s = .next s)

/-! ### Vault storage, check values, cards and the contactless front end (R318–R400) -/

/-- R319, R321, R330, R335–R337, R340–R345: a NOR word program that the controller issues writes its word alone, and a
sector erase leaves its sector reading erased; beyond the loop limits the sector is retired. A NAND program holds its
data and makes its Cinch slot's records durable, an erase costs 3 or 50 wear units and leaves no data, and failures
retire the block; reads rebuild or fail with their events; migrated staged records are reclaimed; a lost stack is
counted. R323, R324: a copy of a reserve record that is written into a free slot of a reserve sector reads back at
mount with its KIND, KEY, LEN, RSEQ and payload, and no other word of the NOR changes. -/
def Obligations.StorageCommandsComplete : Prop :=
  (
  ∀ (s : State) (addr loops pca stack blk index rd core : Nat) (val : W64) (ecc slc : Bool) (data : List Byte) (slot : Option Nat),
    (addr / 65536 < 512 → addr % 8 = 0 → 0 < loops → sectorRetired s (addr / 65536) = false →
      (ecc = true → Tab.get 0 s.fv.norProg (addr / 8) = 0) →
      (ecc = false → Tab.get 0 s.fv.norProg (addr / 8) < 2 ∧ val &&& ~~~(norWord s addr) = 0) →
      (loops ≤ 16 → ∃ t, exec (.norProgramDone addr val ecc loops) s = .next t ∧ norWord t addr = val ∧
        (∀ a, a / 8 ≠ addr / 8 → norWord t a = norWord s a) ∧ t.mem = s.mem ∧ t.fv.life = s.fv.life) ∧
      (16 < loops → addr % 65536 ≠ 8 → ∃ t, exec (.norProgramDone addr val ecc loops) s = .next t ∧ eventSet t 11 1 = true)) ∧
    ((512 ≤ addr / 65536 ∨ addr % 8 ≠ 0 ∨ sectorRetired s (addr / 65536) = true) → exec (.norProgramDone addr val ecc loops) s = .next s) ∧
    ((512 ≤ addr ∨ sectorRetired s addr = true) → exec (.norEraseDone addr loops) s = .next s) ∧
    (addr < 512 → sectorRetired s addr = false →
      (loops ≤ s.fv.retireCfg.toNat / 2 ^ 24 % 2 ^ 8 → ∃ t, exec (.norEraseDone addr loops) s = .next t ∧
        (∀ a, a / 65536 = addr → a / 8 ≠ addr * 8192 → norWord t a = 0xFFFFFFFFFFFFFFFF) ∧
        norWord t (addr * 65536) = (match sectorRole s addr with
          | some (r, i, _, _) => twiceWord (addr * 65536) (r * 2 ^ 40 + i * 2 ^ 32 + nextSseq s r % 2 ^ 32) false
          | none => 0xFFFFFFFFFFFFFFFF) ∧
        (∀ a, a / 65536 ≠ addr → norWord t a = norWord s a)) ∧
      (s.fv.retireCfg.toNat / 2 ^ 24 % 2 ^ 8 < loops → ∃ t, exec (.norEraseDone addr loops) s = .next t ∧ eventSet t 11 1 = true)) ∧
    (pca < 2 ^ 30 → 0 < loops → Tab.get false s.fv.retired (blkKey (pcaStack pca) (pcaBlk pca)) = false →
      Tab.get false s.fv.lost (pcaStack pca) = false →
      (∃ t, exec (.nandProgramDone pca data loops false slot) s = .next t ∧ t.mem = s.mem ∧
        (pcaSlc pca = true → Tab.get [] t.fv.cells pca = data ∧
          (∀ p, p ≠ pca → Tab.get [] t.fv.cells p = Tab.get [] s.fv.cells p)) ∧
        (pcaSlc pca = false →
          (∀ i < 8, Tab.get [] t.fv.cells (pca / 32 * 32 + i) = takePad 2048 (data.drop (2048 * i))) ∧
          (∀ p, p / 32 ≠ pca / 32 → Tab.get [] t.fv.cells p = Tab.get [] s.fv.cells p)) ∧
        (∀ i, slot = some i → (getCinch t i).holds = true → (getCinch t i).envelopeDurable = true)) ∧
      (∃ t, exec (.nandProgramDone pca data loops true slot) s = .next t ∧
        Tab.get false t.fv.retired (blkKey (pcaStack pca) (pcaBlk pca)) = true ∧ t.fv.cells = s.fv.cells ∧ eventSet t 11 1 = true ∧
        t.fv.redo = s.fv.redo ++ (if pcaSlc pca then [] else openPages s pca data))) ∧
    ((2 ^ 30 ≤ pca ∨ Tab.get false s.fv.retired (blkKey (pcaStack pca) (pcaBlk pca)) = true ∨
        Tab.get false s.fv.lost (pcaStack pca) = true) → ∀ failed, exec (.nandProgramDone pca data loops failed slot) s = .next s) ∧
    ((4 ≤ stack ∨ 4096 ≤ blk ∨ Tab.get false s.fv.retired (blkKey stack blk) = true ∨ Tab.get false s.fv.lost stack = true ∨
        stageHolds stack blk s.fv.stage = true) → ∀ failed, exec (.nandEraseDone stack blk slc loops failed) s = .next s) ∧
    (stack < 4 → blk < 4096 → 0 < loops → Tab.get false s.fv.retired (blkKey stack blk) = false →
      Tab.get false s.fv.lost stack = false → stageHolds stack blk s.fv.stage = false →
      (∃ t, exec (.nandEraseDone stack blk slc loops false) s = .next t ∧
        Tab.get 0 t.fv.spent (blkKey stack blk) = min 150000 (Tab.get 0 s.fv.spent (blkKey stack blk) + if slc then 3 else 50) ∧
        Tab.get false t.fv.slc (blkKey stack blk) = slc ∧
        (∀ e ∈ t.fv.cells, ¬ (pcaStack e.1 = stack ∧ pcaBlk e.1 = blk)) ∧ t.fv.nor = s.fv.nor) ∧
      (∃ t, exec (.nandEraseDone stack blk slc loops true) s = .next t ∧
        Tab.get false t.fv.retired (blkKey stack blk) = true)) ∧
    (pca < 2 ^ 30 → ∀ corrected ok rebuilt,
      (∃ t, exec (.nandReadDone pca corrected ok rebuilt true) s = .next t ∧ eventSet t 11 6 = true) ∧
      (ok = true → Tab.get false s.fv.lost (pcaStack pca) = false → corrected ≤ retireBits s (pcaSlc pca) →
        exec (.nandReadDone pca corrected ok rebuilt false) s = .next s) ∧
      (ok = true → Tab.get false s.fv.lost (pcaStack pca) = false → retireBits s (pcaSlc pca) < corrected →
        ∃ t, exec (.nandReadDone pca corrected ok rebuilt false) s = .next t ∧ t.fv.cells = s.fv.cells ∧
          Tab.get false t.fv.retired (blkKey (pcaStack pca) (pcaBlk pca)) = true) ∧
      ((ok = false ∨ Tab.get false s.fv.lost (pcaStack pca) = true) →
        (rebuilt = true → (Tab.get false s.fv.lost (pcaStack pca) = true ∨ ∀ e ∈ s.fv.lost, e.2 = false) →
          ∃ t, exec (.nandReadDone pca corrected ok rebuilt false) s = .next t ∧ eventSet t 11 4 = true ∧ t.fv.cells = s.fv.cells) ∧
        ((rebuilt = false ∨ (Tab.get false s.fv.lost (pcaStack pca) = false ∧ ∃ e ∈ s.fv.lost, e.2 = true)) →
          ∃ t, exec (.nandReadDone pca corrected ok rebuilt false) s = .next t ∧ eventSet t 11 3 = true ∧
            t.fv.fault = BitVec.ofNat 64 (pcaMedium pca * 2 ^ 62 + 2 ^ 58 + pca)))) ∧
    ((∀ x ∈ s.fv.stage, (x.page && x.map) = false) → ∀ r, s.fv.stage[index]? = some r →
      (r.map = false → ∃ t, exec (.stageMigration index false) s = .next t ∧ t.fv.stage = s.fv.stage.set index { r with page := true }) ∧
      (r.page = true → ∃ t, exec (.stageMigration index true) s = .next t ∧ t.fv.stage = s.fv.stage.eraseIdx index) ∧
      (r.page = false → r.map = false → ∃ t, exec (.stageMigration index true) s = .next t ∧ t.fv.stage = s.fv.stage)) ∧
    (stack < 4 → Tab.get false s.fv.lost stack = false →
      (∃ t, exec (.stackLost stack false) s = .next t ∧ Tab.get false t.fv.lost stack = true ∧ t.fv.rebuilding = true ∧
        (Tab.get 0 s.fv.life 3 + 1 < 2 ^ 42 → Tab.get 0 t.fv.life 3 = Tab.get 0 s.fv.life 3 + 1) ∧ eventSet t 11 5 = true) ∧
      exec (.stackLost stack true) s = .next s) ∧
    (stack < 4 → Tab.get false s.fv.lost stack = true →
      exec (.stackLost stack false) s = .next s ∧
      exec (.stackLost stack true) s = .next { s with fv := { s.fv with rebuilding := false } }) ∧
    (coreMay s core false 0x100B00208 = true → 0 < rd → rd < 64 →
      ((getCore s core).warden = false → ∃ t, exec (.rawRead core rd) s = .next t ∧ (getCore t core).getG rd = 0 ∧ t.fv = s.fv) ∧
      ((getCore s core).warden = true → s.fv.rawSel.toNat / 2 ^ 62 = 0 → s.fv.rawSel.toNat % 2 ^ 30 < 0x2000000 →
        ∃ t, exec (.rawRead core rd) s = .next t ∧ (getCore t core).getG rd = norWord s (s.fv.rawSel.toNat % 2 ^ 30 / 8 * 8) ∧
          t.fv = s.fv)) ∧
    (coreMay s core false 0x100B00208 = false → exec (.rawRead core rd) s = .next s)) ∧
  (
  ∀ (s : State) (a kind key rseq : Nat) (ws : List W64), 0x100 ≤ a % 65536 → a % 256 = 0 → kind < 256 → key < 2 ^ 24 →
    0 < ws.length → ws.length ≤ 28 → rseq < 2 ^ 64 → (∀ j < 32, norWord s (a + 8 * j) = 0xFFFFFFFFFFFFFFFF) →
    sectorRetired s (a / 65536) = false → (sectorRole s (a / 65536)).any (fun e => e.1 == 5) = true → ∀ t, t = putCopy a kind key rseq ws s →
      (∃ c, resvCopyAt t a = some c ∧ c.addr = a ∧ c.kind = kind ∧ c.key = key ∧ c.len = ws.length ∧ c.rseq = rseq ∧
        resvPayload t c = ws.flatMap (fun w => natToLE 8 w.toNat)) ∧
      (∀ b, b / 256 ≠ a / 256 → norWord t b = norWord s b) ∧ t.mem = s.mem)

/-- R353, R356–R361: a GO of an idle CVU window takes the request with what it samples, a READ with the accumulator's
value as it stands; its result is written once it is due; a CONFIG and a RESET that pass every check of R360 load the
unit and its accumulator; a write of CV_OWN sets the owner, loads the CRC-32C preset and ends a scan. -/
def Obligations.CvuCommandsTakeEffect : Prop :=
  ∀ (s : State) (c u : Nat) (v : W32),
    (c < 26 → ∀ w, w = Tab.get Win.reset s.cv.wins c → w.busy = false → ∀ p ∈ [(1, Instr.cvuConfig), (2, .cvuReset), (3, fun n => .cvuRead n false),
        (4, .scanGen), (5, .scanCheck)], byteAt (wordsBytes w.body 8) 0 = p.1 →
      ∃ t g, exec (p.2 c) s = .next t ∧ t.cv.gos = s.cv.gos ++ [g] ∧ g.core = c ∧ g.req = sampleReq s c 0 ∧
        g.body = wordsBytes w.body 8 ∧ g.unit = w.key ∧
        (∀ n, cvUnitOf w.key = some n → (getCv s n).lost = false → g.value = some (crcResult (getCv s n).params (getCv s n).acc)) ∧
        (Tab.get Win.reset t.cv.wins c).busy = true ∧ (Tab.get Win.reset t.cv.wins c).done = false ∧ t.mem = s.mem ∧
        t.cv.units = s.cv.units) ∧
    (∀ p, s.cv.pend.find? (fun p => decide (p.req.src = .win c 0)) = some p → p.due ≤ s.tick →
      ∃ t, exec (.cvuRequestComplete c) s = .next t ∧ (Tab.get Win.reset t.cv.wins c).busy = false ∧
        (Tab.get Win.reset t.cv.wins c).done = true ∧ (Tab.get Win.reset t.cv.wins c).result = bytesWords p.result ∧
        (∀ q ∈ t.cv.pend, q.req.src ≠ .win c 0) ∧ t.mem = s.mem) ∧
    (∀ g taken, cvUnitOf g.unit = some u → cvBad g.body (getCv s u).w = false → cvDenied s g.req g.unit = false →
      cvBusy s u = false → taken.contains u = false → ∀ s', s' = (cvServe g taken s).2 →
      (vOp g.body = 1 → ∀ q, vParams g.body = some q → (getCv s' u).params = q ∧ (getCv s' u).acc = q.init) ∧
      (vOp g.body = 2 → vFoldValue g.body = none → (getCv s' u).acc = (getCv s u).init ∧ (getCv s' u).params = (getCv s u).params) ∧
      (vOp g.body ≤ 2 → ∃ q, s'.cv.pend = s.cv.pend ++ [q] ∧ q.req = g.req ∧ q.due = s.tick + 1 ∧ q.status = 0)) ∧
    (wardenMay s c (0x100C00100 + 4 * u) = true → u < 16 → ∃ t, exec (.cvOwnWrite c u v) s = .next t ∧
      (getCv t u).own.toNat &&& 0xFF01 = v.toNat &&& 0xFF01 ∧ (getCv t u).params = crc32c ∧
      (∀ j ∈ t.cv.jobs, j.unit = u → j.cut = true) ∧ t.mem = s.mem) ∧
    (wardenMay s c (0x100C00100 + 4 * u) = false → exec (.cvOwnWrite c u v) s = .next s)

/-- R364, R377–R380, R393: a GO of an idle exchange window runs, or ends at once with the first status of R380 that
applies; a GO of a busy one only sets BUSYWR. A completion writes the result; an exchange that ended before gets what
ended it. -/
def Obligations.ExchangesStartAndEnd : Prop :=
  ∀ s : State,
    (∀ p ∈ [(0x01, Instr.mcRead, 0x10, 2), (0x02, .mcWrite, 0x10, 2), (0x03, .rpmbCounter, 0x10, 2), (0x04, .rpmbRead, 0x10, 2),
        (0x05, .rpmbKeyprog, 0x10, 2), (0x11, .scActivate, 0, 4), (0x12, .scApdu, 0, 4), (0x13, .scDeactivate, 0, 4),
        (0x21, fun _ => .nfPoll, 0x20, 1), (0x22, fun _ => .nfActivate, 0x20, 1), (0x23, fun _ => .nfApdu, 0x20, 1),
        (0x24, fun _ => .nfDeactivate, 0x20, 1)],
      ∀ n < p.2.2.2, ∀ k, k = p.2.2.1 + n →
      xOp (wordsBytes (getEx s k).win.body 4) = p.1 →
      ((getEx s k).win.busy = true → ∃ t, exec (p.2.1 n) s = .next t ∧ (getEx t k).win.busyWr = true ∧ (getEx t k).run = (getEx s k).run ∧
        t.mem = s.mem) ∧
      ((getEx s k).win.busy = false → ∃ t r, exec (p.2.1 n) s = .next t ∧ (getEx t k).win.busy = true ∧
        (getEx t k).win.done = false ∧ (getEx t k).run = some r ∧ r.body = wordsBytes (getEx s k).win.body 4 ∧
        r.data = wordsBytes (getEx s k).data 96 ∧ t.mem = s.mem ∧
        (exRefusal s k r.body = 0 → 0x10 ≤ k → k < 0x12 → 3 ≤ p.1 → ∃ f, t.cd.toRpmb = s.cd.toRpmb ++ [(n, f)] ∧ f.length = 512 ∧
          (f.drop 484).take 16 = takePad 16 r.nonce ∧ rpmbResult f = 0) ∧
        (exRefusal s k r.body = 0 → r.ended = none ∧ (k = 0x20 → s.nf.resetting = false → t.nf.carrier = true)) ∧
        (exRefusal s k r.body ≠ 0 → (∃ e, r.ended = some e ∧ e.status = exRefusal s k r.body) ∧ t.nf = s.nf))) ∧
    (∀ k r a, (getEx s k).run = some r →
      (∀ e, r.ended = some e → e.status < 256 →
        (k ≠ 0x20 → ∃ t, exec (.cardExchangeComplete k a) s = .next t ∧ exchangeDone t k e.status ∧ t.mem = s.mem) ∧
        (k = 0x20 → ∃ t, exec (.nfExchangeComplete a) s = .next t ∧ exchangeDone t k e.status ∧ t.mem = s.mem)) ∧
      (r.ended = none → k < 4 → xOp r.body = 0x12 → a.kind = 0 → ∃ t, exec (.cardExchangeComplete k a) s = .next t ∧
        exchangeDone t k 0 ∧ (getEx t k).data = bytesWords (takePad 768 (a.data.take 256)) ∧ t.cd.sc = s.cd.sc) ∧
      (r.ended = none → k < 4 → xOp r.body = 0x11 → ∀ both, both = atrClasses a.data 32 2 (byteAt a.data 1 / 16) false &&&
          (getSc s k).cfg.toNat / 2 % 4 →
        ∃ t, exec (.cardExchangeComplete k a) s = .next t ∧ t.mem = s.mem ∧
          (if a.kind ≠ 0 ∨ atrOk a.data = false then
            exchangeDone t k 0x0D ∧ (getSc t k).active = false ∧ eventSet t 13 (if a.kind = 2 then 8 else 6) = true
          else if both = 0 then exchangeDone t k 5 ∧ (getSc t k).active = false ∧ eventSet t 13 7 = true
          else exchangeDone t k 0 ∧ (getSc t k).active = true ∧ (getSc t k).atr = a.data ∧
            (getEx t k).data = bytesWords (takePad 768 a.data))) ∧
      (r.ended = none → k < 4 → xOp r.body = 0x13 → ∃ t, exec (.cardExchangeComplete k a) s = .next t ∧ exchangeDone t k 0 ∧
        (getSc t k).active = false) ∧
      (r.ended = none → (k = 0x10 ∨ k = 0x11) → (xOp r.body = 1 ∨ xOp r.body = 2) → a.kind ≠ 0 →
        ∃ t, exec (.cardExchangeComplete k a) s = .next t ∧ exchangeDone t k (if a.kind = 3 then 8 else 0x0D) ∧ t.mem = s.mem) ∧
      (r.ended = none → (k = 0x10 ∨ k = 0x11) → xOp r.body = 1 → a.kind = 0 →
        ∀ w, w = busWrite s monitorAccess (xAddr r.body) (takePad (512 * xCount r.body) a.data) →
          ∃ t, exec (.cardExchangeComplete k a) s = .next t ∧ t.mem = w.st.mem ∧
            exchangeDone t k (if w.refused.isSome || w.ecc then 0x0D else 0)) ∧
      (r.ended = none → (k = 0x10 ∨ k = 0x11) → 3 ≤ xOp r.body → ∃ t, exec (.cardExchangeComplete k a) s = .next t ∧
        t.mem = s.mem ∧ (getMc t (k - 0x10)).ready = (getMc s (k - 0x10)).ready ∧
        (if (a.kind = 0 ∧ (a.data.drop 484).take 16 ≠ r.nonce) ∨ a.kind = 3 then exchangeDone t k 8 ∧ eventSet t 13 9 = true
         else if a.kind ≠ 0 then exchangeDone t k 0x0D
         else if xOp r.body = 5 then (rpmbResult a.data ≠ 7 → exchangeDone t k 5 ∧ t.cd.keySent = s.cd.keySent)
         else if rpmbResult a.data ≠ 0 then exchangeDone t k 0x0D
         else exchangeDone t k 0 ∧
          (xOp r.body = 3 → Tab.get 0 (getEx t k).win.result 1 = BitVec.ofNat 64 (rpmbCount a.data)) ∧
          (xOp r.body = 4 → (getEx t k).data = bytesWords (takePad 768 (takePad 256 (rpmbData a.data)))))) ∧
      (r.ended = none → k = 0x20 → s.nf.carrier = false → exec (.nfExchangeComplete a) s = .next s) ∧
      (r.ended = none → k = 0x20 → s.nf.carrier = true → xOp r.body = 0x21 → ∃ t, exec (.nfExchangeComplete a) s = .next t ∧
        t.nf.tokens = pollTokens s a.tokens ∧ t.nf.carrier = false ∧ t.nf.resetting = true ∧
        exchangeDone t k (if a.kind = 0 then 0 else 0x0D) ∧
        (a.kind = 0 → (getEx t k).data = bytesWords (takePad 768 ((pollTokens s a.tokens).flatMap tokenEntry))) ∧
        (pollTokens s a.tokens ≠ [] → eventSet t 14 0 = true) ∧ (a.kind = 4 → eventSet t 14 3 = true)) ∧
      (r.ended = none → k = 0x20 → s.nf.carrier = true → xOp r.body = 0x22 → ∃ t, exec (.nfExchangeComplete a) s = .next t ∧
        t.mem = s.mem ∧ t.nf.tokens = pollTokens s a.tokens ∧
        match (pollTokens s a.tokens).find? (fun x => x.uid == (r.body.drop 4).take (byteAt r.body 1)) with
        | none => exchangeDone t k 0x10 ∧ t.nf.carrier = false
        | some x => if tokenPart4 x = false then exchangeDone t k 5 ∧ t.nf.carrier = false
          else if a.kind ≠ 0 then exchangeDone t k 0x0D ∧ t.nf.carrier = false
          else exchangeDone t k 0 ∧ t.nf.active = some x.uid ∧ (getEx t k).data = bytesWords (takePad 768 a.data)) ∧
      (r.ended = none → k = 0x20 → s.nf.carrier = true → xOp r.body = 0x23 → a.kind = 0 →
        ∃ t, exec (.nfExchangeComplete a) s = .next t ∧ exchangeDone t k 0 ∧ t.nf = s.nf) ∧
      (r.ended = none → k = 0x20 → s.nf.carrier = true → xOp r.body = 0x24 →
        ∃ t, exec (.nfExchangeComplete a) s = .next t ∧ exchangeDone t k 0 ∧ t.nf.carrier = false ∧ t.nf.active = none ∧
          t.nf.resetting = true))

/-- R366, R370, R373, R375, R376: insertion, initialisation, removal and timeouts of saddlebag and contact cards: a slot
powers after its debounce, a card becomes READY or is rejected, and an exchange that is cut off ends with its status.
R384, R385, R387, R389: the wake electrode, the field's collapse, a missing response and the end of the field reset.
The carrier never comes on during the reset, and goes off with the active token lost. -/
def Obligations.CardAndFieldEventsComplete : Prop :=
  (
  ∀ (s : State) (n : Nat),
    (n < 2 →
      (∀ level, (getMc s n).det ≠ level → ∃ t, exec (.mcDetectChange n level) s = .next t ∧ (getMc t n).det = level ∧
        (getMc t n).since = s.tick ∧ t.cd.sc = s.cd.sc) ∧
      ((getMc s n).det = (getMc s n).cfg.getLsbD 7 → (getMc s n).cfg.getLsbD 0 = true → (getMc s n).powered = false →
        (getMc s n).rejected = false → (getMc s n).since + 10000 ≤ s.tick →
        exec (.mcInsert n) s = .next (updMc n (fun m => { m with powered := true }) s)) ∧
      (∀ card, (getMc s n).powered = true → (getMc s n).ready = false →
        ((card.byteMode = true ∨ card.rpmb = 0 ∨ card.answered = false) → ∃ t, exec (.mcInitComplete n card) s = .next t ∧
          (getMc t n).rejected = true ∧ (getMc t n).powered = false ∧ eventSet t 13 2 = true) ∧
        (card.byteMode = false → card.rpmb ≠ 0 → card.answered = true → ∃ t, exec (.mcInitComplete n card) s = .next t ∧
          (getMc t n).ready = true ∧ (getMc t n).secCount = card.secCount % 2 ^ 32 ∧ (getMc t n).cid = takePad 16 card.cid ∧
          (getMc t n).width ≤ card.width ∧ (getMc t n).mode ≤ card.mode ∧
          ((getMc t n).mode = 2 → (getMc t n).width ≠ 0) ∧ eventSet t 13 0 = true)) ∧
      ((getMc s n).det ≠ (getMc s n).cfg.getLsbD 7 → (getMc s n).powered = true → (getMc s n).since < s.tick → ∃ t, exec (.mcRemove n) s = .next t ∧
        (getMc t n).ready = false ∧ (getMc t n).powered = false ∧ eventSet t 13 1 = true ∧
        (∀ r, (getEx s (0x10 + n)).run = some r → r.ended = none → ∃ r' e, (getEx t (0x10 + n)).run = some r' ∧
          r'.ended = some e ∧ e.status = 0x10)) ∧
      ((getMc s n).det = (getMc s n).cfg.getLsbD 7 → exec (.mcRemove n) s = .next s) ∧
      ((getMc s n).ready = true → (getMc s n).ext = none → ∀ r, (getEx s (0x10 + n)).run = some r → r.ended = none →
        ((xOp r.body = 2 ∨ xOp r.body = 5) → ∃ t, exec (.mcBusyTimeout n) s = .next t ∧ (getMc t n).ready = false ∧
          (getMc t n).powered = true ∧ eventSet t 13 3 = true ∧ ∃ r' e, (getEx t (0x10 + n)).run = some r' ∧
            r'.ended = some e ∧ e.status = 0x0D) ∧
        (xOp r.body ≠ 2 → xOp r.body ≠ 5 → exec (.mcBusyTimeout n) s = .next s)) ∧
      (∀ i, (getMc s n).ready = true → (getMc s n).ext = some i → ∃ t, exec (.mcBusyTimeout n) s = .next t ∧
        (getMc t n).ready = false ∧ (getMc t n).ext = none ∧ eventSet t 13 3 = true)) ∧
    (n < 4 →
      ((getSc s n).cfg.getLsbD 0 = true → (getSc s n).inserted = false → ∃ t, exec (.scInsert n) s = .next t ∧
        (getSc t n).inserted = true ∧ (getSc t n).present = true ∧ eventSet t 13 4 = true) ∧
      ((getSc s n).inserted = true → ∃ t, exec (.scRemove n) s = .next t ∧ (getSc t n).inserted = false ∧
        (getSc t n).active = false ∧ (getSc t n).present = false ∧ eventSet t 13 5 = true) ∧
      (∀ i, (getSc s n).ext = some i → ∃ t, exec (.scResponseTimeout n) s = .next t ∧ (getSc t n).active = false ∧
        eventSet t 13 8 = true) ∧
      ((getSc s n).ext = none → (getEx s n).run = none → exec (.scResponseTimeout n) s = .next s) ∧
      ((getSc s n).ext = none → ∀ r, (getEx s n).run = some r → r.ended = none → ∃ t, exec (.scResponseTimeout n) s = .next t ∧
        (getSc t n).active = false ∧ eventSet t 13 8 = true ∧ ∃ r' e, (getEx t n).run = some r' ∧ r'.ended = some e ∧
          e.status = 0x0D))) ∧
  (
  ∀ s : State,
    (s.nf.carrier = true → ∀ driver, ∃ t, exec (.fieldCollapse driver) s = .next t ∧ t.nf.carrier = false ∧ t.nf.active = none ∧
      t.nf.resetting = true ∧ t.nf.offAt = s.tick ∧ eventSet t 14 1 = true ∧ (driver = true → eventSet t 14 7 = true) ∧
      (∀ r, (getEx s 0x20).run = some r → r.ended = none → ∃ r' e, (getEx t 0x20).run = some r' ∧ r'.ended = some e ∧
        e.status = 0x11)) ∧
    (∀ r, (getEx s 0x20).run = some r → r.ended = none → s.nf.carrier = true → ∃ t, exec .nfResponseTimeout s = .next t ∧
      t.nf.carrier = false ∧ t.nf.active = none ∧ eventSet t 14 2 = true ∧
      ∃ r' e, (getEx t 0x20).run = some r' ∧ r'.ended = some e ∧ e.status = 0x0D) ∧
    (s.nf.resetting = true →
      (s.tick < s.nf.offAt + 10000 → exec .fieldResetEnd s = .next s) ∧
      (s.nf.offAt + 10000 ≤ s.tick → ∃ t, exec .fieldResetEnd s = .next t ∧ t.nf.resetting = false ∧
        (t.nf.carrier = true ↔ ∃ r, (getEx s 0x20).run = some r ∧ r.ended = none))) ∧
    (s.nf.cfg.getLsbD 0 = true → s.nf.cfg.getLsbD 1 = true → s.pm.onCell = false →
      s.nf.csAt + max 10 (s.nf.cs.toNat / 2 ^ 16 % 2 ^ 16) * 1000 ≤ s.tick → ∀ level base field,
      ((max level base - min level base ≤ s.nf.cs.toNat % 2 ^ 16) → ∃ t, exec (.csMeasure level base field) s = .next t ∧
        t.nf.departs = 0 ∧ t.nf.csLevel = level % 65536 ∧ t.nf.csAt = s.tick ∧ t.events = s.events) ∧
      ((s.nf.cs.toNat % 2 ^ 16 < max level base - min level base) → s.nf.departs = 0 →
        ∃ t, exec (.csMeasure level base field) s = .next t ∧ t.nf.departs = 1 ∧ t.nf.carrier = s.nf.carrier) ∧
      ((s.nf.cs.toNat % 2 ^ 16 < max level base - min level base) → 1 ≤ s.nf.departs →
        ∃ t, exec (.csMeasure level base field) s = .next t ∧ t.nf.departs = 0 ∧ eventSet t 14 4 = true ∧
          if s.nf.resetting = false ∧ s.nf.ext = none ∧ (getEx s 0x20).run = none then
            t.nf.carrier = false ∧ t.nf.resetting = true ∧ t.nf.tokens = pollTokens s field.tokens
          else t.nf.carrier = s.nf.carrier ∧ t.nf.tokens = s.nf.tokens)) ∧
    ((s.nf.cfg.getLsbD 0 = false ∨ s.nf.cfg.getLsbD 1 = false ∨ s.pm.onCell = true) → ∀ level base field,
      exec (.csMeasure level base field) s = .next s))

/-- R394–R396, R398: a wake on the cell, ATQA and the day's 64 sessions, the UID in two cascade levels with its check
bytes, the fixed ATS, SELECT and READ BINARY of the witness file, the ends of a session, and the day window. -/
def Obligations.WitnessTagAnswers : Prop :=
  ∀ s : State,
    (s.nf.witEn = true → s.pm.onCell = true → 2500 ≤ s.tm.vbat.toNat → ∃ t, exec .witnessWake s = .next t ∧ t.nf.woke = true ∧
      t.nf.selected = false ∧ t.nf.sessions = s.nf.sessions) ∧
    ((s.nf.witEn = false ∨ s.pm.onCell = false ∨ s.tm.vbat.toNat < 2500) → exec .witnessWake s = .next s) ∧
    (s.nf.woke = false → exec .witnessReqa s = .next s) ∧
    (s.nf.woke = true → ∀ used, used = (if s.nf.day < s.cellNow / 86400000000000 then 0 else s.nf.sessions) →
      (s.nf.witStart = none → 64 ≤ used → ∃ t, exec .witnessReqa s = .next t ∧ t.nf.witOut = [] ∧
        t.nf.sessions = s.nf.sessions ∧ t.nf.limited = true) ∧
      (s.nf.witStart = none → used < 64 → ∃ t, exec .witnessReqa s = .next t ∧ t.nf.witOut = [0x44, 0x00] ∧
        t.nf.sessions = used + 1 ∧ t.nf.witStart = some s.cellNow) ∧
      (∀ b, s.nf.witStart = some b → ∃ t, exec .witnessReqa s = .next t ∧ t.nf.witOut = [0x44, 0x00] ∧
        t.nf.sessions = s.nf.sessions)) ∧
    (∀ level, (s.nf.witStart = none ∨ s.nf.witLevel ≠ level) → exec (.witnessAnticollision level) s = .next s) ∧
    ((s.nf.witStart = none ∨ s.nf.witLevel ≠ 3) → exec .witnessRats s = .next s) ∧
    ((s.nf.witStart = none ∨ s.nf.witLevel ≠ 4) → ∀ p, exec (.witnessSelect p) s = .next s ∧ exec (.witnessReadBinary p) s = .next s) ∧
    (∀ b u0 u1 u2 u3 u4 u5 u6, s.nf.witStart = some b → s.nf.uid = [u0, u1, u2, u3, u4, u5, u6] →
      (s.nf.witLevel = 1 → ∃ t, exec (.witnessAnticollision 1) s = .next t ∧ t.nf.witLevel = 2 ∧
        t.nf.witOut = [0x88, u0, u1, u2, 0x88 ^^^ u0 ^^^ u1 ^^^ u2, 0x04]) ∧
      (s.nf.witLevel = 2 → ∃ t, exec (.witnessAnticollision 2) s = .next t ∧ t.nf.witLevel = 3 ∧
        t.nf.witOut = [u3, u4, u5, u6, u3 ^^^ u4 ^^^ u5 ^^^ u6, 0x20]) ∧
      (s.nf.witLevel = 3 → ∃ t, exec .witnessRats s = .next t ∧ t.nf.witLevel = 4 ∧ t.nf.witOut = [0x05, 0x75, 0x00, 0x40, 0x00])) ∧
    (∀ b, s.nf.witStart = some b → s.nf.witLevel = 4 →
      (∃ t, exec (.witnessSelect [0x00, 0xA4, 0x04, 0x00, 0x07, 0xF0, 0x45, 0x4C, 0x56, 0x57, 0x54, 0x01, 0x00]) s = .next t ∧
        t.nf.selected = true ∧ t.nf.witOut = [0x90, 0x00]) ∧
      (∀ p, exec (.witnessSelect p) s = exec (.witnessReadBinary p) s) ∧
      (∀ p, ∃ t, exec (.witnessReadBinary p) s = .next t ∧ t.mem = s.mem ∧ t.nf.witStart = some b ∧
        (byteAt p 0 ≠ 0 → t.nf.witOut = [0x6E, 0x00]) ∧
        (byteAt p 0 = 0 → byteAt p 1 ≠ 0xA4 → byteAt p 1 ≠ 0xB0 → t.nf.witOut = [0x6D, 0x00]) ∧
        (byteAt p 0 = 0 → byteAt p 1 = 0xA4 → p ≠ [0x00, 0xA4, 0x04, 0x00, 0x07, 0xF0, 0x45, 0x4C, 0x56, 0x57, 0x54, 0x01, 0x00] →
          t.nf.witOut = [0x6A, 0x82] ∧ t.nf.selected = s.nf.selected) ∧
        (byteAt p 0 = 0 → byteAt p 1 = 0xB0 → s.nf.selected = false → t.nf.witOut = [0x69, 0x86]) ∧
        (byteAt p 0 = 0 → byteAt p 1 = 0xB0 → s.nf.selected = true → ∀ off, off = byteAt p 2 * 256 + byteAt p 3 →
          ∀ le, le = (if byteAt p 4 = 0 then 256 else byteAt p 4) →
          (0x280 ≤ off → t.nf.witOut = [0x6B, 0x00]) ∧
          (off + le ≤ 0x280 → t.nf.witOut = ((witnessFile s).drop off).take le ++ [0x90, 0x00]) ∧
          (off < 0x280 → 0x280 < off + le → t.nf.witOut = (witnessFile s).drop off ++ [0x62, 0x82])))) ∧
    (∃ t, exec .witnessSessionEnd s = .next t ∧ t.nf.witStart = none ∧ t.nf.woke = false ∧ t.nf.selected = false ∧
      t.nf.sessions = s.nf.sessions) ∧
    (∀ b, s.nf.witStart = some b → (s.cellNow < b + 500000000 → exec .witnessSessionTimeout s = .next s) ∧
      (b + 500000000 ≤ s.cellNow → ∃ t, exec .witnessSessionTimeout s = .next t ∧ t.nf.witStart = none ∧ t.nf.woke = false)) ∧
    (s.nf.day < s.cellNow / 86400000000000 → exec .witnessDayWindow s =
      .next { s with nf := { s.nf with day := s.cellNow / 86400000000000, sessions := 0 } }) ∧
    (s.nf.witStart = none → exec .witnessSessionTimeout s = .next s) ∧
    (s.cellNow / 86400000000000 ≤ s.nf.day → exec .witnessDayWindow s = .next s)

/-! ### Tamper, life cycle and debug (R401–R435) -/

/-- R401–R405, R410–R412: a tick puts in alarm exactly the live sensors whose condition holds (a case switch at its open
level, VBAT below 2,550 mV) and fires those that had not fired; what it fires needs a latch each; a firing that must
SHED and ZERO destroys the keep key. On the cell a tick counts 1 ms. A sensor re-arms after its condition has been
absent for a second, and HELD follows. R406, R415: a response is written in CUSTODY alone, not below its sensor's
floor and not once the table is locked; TM_LOCK takes its key at most twice and holds 2 ms later; a built-in test run
in its hour, or when asked for, takes its outcomes. -/
def Obligations.TamperSensorsRespond : Prop :=
  (
  ∀ s : State,
    (∀ mask vbat, ∃ t, exec (.tamperEvalTick mask vbat) s = .next t ∧ t.tm.vbat.toNat = min vbat 0xFFFF ∧
      t.time.backupSince = s.time.backupSince + (if s.pm.onCell then 1000000 else 0)) ∧
    (∀ mask vbat, s.pm.onCell = false →
      let cond (i : Nat) : Bool := if i = 20 then decide (vbat < 2550)
        else if 8 ≤ i ∧ i ≤ 11 ∧ Tab.get 0 s.tm.mode i = 2 then !natBit mask i else natBit mask i
      let fires (i : Nat) : Prop := i < 21 ∧ cond i = true ∧ sensorLive s i = true ∧ Tab.get false s.tm.fired i = false
      ∃ t, exec (.tamperEvalTick mask vbat) s = .next t ∧
      (∀ i < 21, Tab.get false t.tm.alarm i = (cond i && sensorLive s i)) ∧
      (∀ i < 21, Tab.get false t.tm.fired i = (Tab.get false s.tm.fired i || (cond i && sensorLive s i))) ∧
      ((∀ i, ¬ fires i) → t.tm.latches = s.tm.latches ∧ t.tk.keep = s.tk.keep ∧ t.tm.shedDue = s.tm.shedDue) ∧
      (∀ i, fires i → effResp s i = 3 → s.tm.running = 0 → t.tk.keep = none ∧ t.tk.held = true ∧ eventSet t 15 2 = true ∧
        (shedNow s = true → s.tm.shedBusy = false → s.tm.shedDue = none → t.tm.shedDue = some s.tick) ∧
        (shedNow s = false → t.tm.shedPending = true)) ∧
      ((∃ i, fires i) → (t.tk.held = true ↔ ∃ i < 22, Tab.get false t.tm.fired i = true ∧ 2 ≤ effResp s i)) ∧
      (∀ i k, fires i → (∀ j, fires j → j = i) → freeLatch s = some k → s.tm.running = 0 → effResp s i < 4 →
        ∃ w, Tab.get none t.tm.latches k = some w ∧ w.toNat / 2 ^ 56 = i ∧ w.toNat / 2 ^ 54 % 4 = effResp s i ∧
          w.toNat % 2 ^ 48 = s.time.now / 1000000 % 2 ^ 48 ∧
          (∀ j, j ≠ k → Tab.get none t.tm.latches j = Tab.get none s.tm.latches j))) ∧
    (∀ i, (Tab.get false s.tm.fired i = false ∨ Tab.get 0 s.tm.absent i = 0) → exec (.sensorRearm i) s = .next s) ∧
    (∀ i a, i < 21 → Tab.get false s.tm.fired i = true → Tab.get 0 s.tm.absent i = a + 1 →
      (s.cellNow < a + 1000000000 → exec (.sensorRearm i) s = .next s) ∧
      (a + 1000000000 ≤ s.cellNow → ∃ t, exec (.sensorRearm i) s = .next t ∧ Tab.get false t.tm.fired i = false ∧
        (∀ j, j ≠ i → Tab.get false t.tm.fired j = Tab.get false s.tm.fired j) ∧ t.tk.keep = s.tk.keep ∧
        t.tm.latches = s.tm.latches))) ∧
  (
  ∀ (s : State) (i : Nat) (v : W32),
    (i < 22 → ∀ c, wardenMay s c (0x100F00100 + 4 * i) = true →
      let allowed := s.life = 2 ∧ s.tm.locked = false ∧ s.tm.lockDue = none ∧ i ≠ 21 ∧ tamperFloor i ≤ v.toNat % 4 ∧
        (i < 12 → v.toNat / 4 % 4 ≤ 2)
      (allowed → ∃ t, exec (.tmRespWrite (some c) i v) s = .next t ∧ Tab.get 0 t.tm.resp i = v.toNat % 4 ∧
        (i < 12 → Tab.get 0 t.tm.mode i = v.toNat / 4 % 4) ∧ (∀ j, j ≠ i → Tab.get 0 t.tm.resp j = Tab.get 0 s.tm.resp j) ∧
        t.events = s.events) ∧
      (¬ allowed → exec (.tmRespWrite (some c) i v) s = .next (setEvent 15 4 s))) ∧
    (i < 22 → v.toNat < 4 → s.life = 2 → s.tm.locked = false → s.tm.lockDue = none → i ≠ 21 → tamperFloor i ≤ v.toNat →
      (i < 12 → Tab.get 0 s.tm.mode i ≤ 2) → ∃ t, exec (.tmRespWrite none i v) s = .next t ∧ Tab.get 0 t.tm.resp i = v.toNat ∧
        Tab.get 0 t.tm.mode i = Tab.get 0 s.tm.mode i) ∧
    (∀ c, wardenMay s c (0x100F00100 + 4 * i) = false → exec (.tmRespWrite (some c) i v) s = .next s) ∧
    (i < 22 → 4 ≤ v.toNat → exec (.tmRespWrite none i v) s = .next (setEvent 15 4 s)) ∧
    (∀ c, wardenMay s c 0x100F00028 = false → exec (.tamperLock c v) s = .next s) ∧
    (s.tm.lockDue = none → exec .tamperLockComplete s = .next s) ∧
    (s.pm.onCell = true → ∀ out, exec (.bistNow out) s = .next s) ∧
    (∀ c, wardenMay s c 0x100F00028 = true →
      (v.toNat % 256 ≠ 0x5A → exec (.tamperLock c v) s = .next s) ∧
      (v.toNat % 256 = 0x5A → (s.life ≠ 2 ∨ s.tm.locked = true ∨ s.tm.lockDue ≠ none ∨ 2 ≤ s.tm.lockSets) →
        exec (.tamperLock c v) s = .next (setEvent 15 4 s)) ∧
      (v.toNat % 256 = 0x5A → s.life = 2 → s.tm.locked = false → s.tm.lockDue = none → s.tm.lockSets < 2 →
        ∃ t, exec (.tamperLock c v) s = .next t ∧ t.tm.lockDue = some (s.tick + 2000) ∧ t.tm.lockSets = s.tm.lockSets + 1 ∧
          t.tm.locked = false)) ∧
    (∀ due, s.tm.lockDue = some due → (s.tick < due → exec .tamperLockComplete s = .next s) ∧
      (due ≤ s.tick → ∃ t, exec .tamperLockComplete s = .next t ∧ t.tm.locked = true ∧ t.tm.lockDue = none)) ∧
    (∀ out, s.pm.onCell = false →
      (∃ t, exec (.bistNow out) s = .next t ∧ t.tm.bistBusy = false) ∧
      (s.time.now / 3600000000000 % 24 = min (s.tm.hour.toNat % 32) 23 → s.tm.bistDay < s.time.now / 86400000000000 + 1 →
        ∃ t, exec (.bistDaily out) s = .next t ∧ t.tm.bistDay = s.time.now / 86400000000000 + 1 ∧ t.tm.bistBusy = false) ∧
      ((s.time.now / 3600000000000 % 24 ≠ min (s.tm.hour.toNat % 32) 23 ∨ s.time.now / 86400000000000 + 1 ≤ s.tm.bistDay) → exec (.bistDaily out) s = .next s)))

/-- R407, R408, R284: at the SHED boundary every mapped area reads zero with no rein tag in it, PKE operand memory and the
DRBG states are empty, the classifier maps nothing, no master key is unsealed, no session is open and the cores stand
at reset; 64 strides later the areas are zero again; the end of the reload ends the SHED. -/
def Obligations.ShedClearsTheDevice : Prop :=
  ∀ s : State,
    (∀ due, s.tm.shedDue = some due → (s.tick ≤ due → exec .shedBoundary s = .next s) ∧
      (due < s.tick → ∃ t, exec .shedBoundary s = .next t ∧
        (∀ a, (0x10000000 ≤ a ∧ a < 0x10D00000) ∨ (0x40000000 ≤ a ∧ a < 0x41000000) ∨ (0x60000000 ≤ a ∧ a < 0x62C00000) →
          ramByte t a = 0) ∧
        t.mem.tags = [] ∧ (∀ p, (t.paddock p).master = none) ∧ t.lc.session = none ∧ t.pk.words = [] ∧ t.pk.drbgs = [] ∧
        t.tk.drbg = Drbg.empty ∧ t.st.keys = [] ∧ t.pm.scramble.length = 16 ∧
        (∀ c < 26, (getCore t c).halted = true ∧ (getCore t c).g = [] ∧ (getCore t c).onchip = [] ∧ (getCore t c).wbuf = []) ∧
        t.tm.shedBusy = true ∧ t.tm.shedStart = some s.tick ∧ t.tm.shedDue = none ∧ t.od.ready = false ∧
        (∀ p h x, getTack t p h = some x → x.st = 3 → x.volatile = false → x.resident = false))) ∧
    (∀ b, s.tm.shedStart = some b → s.tm.shedBusy = true →
      (b + 64 ≤ s.tick → ∃ t, exec .shedWipeComplete s = .next t ∧
        (∀ a, (0x10000000 ≤ a ∧ a < 0x10D00000) ∨ (0x40000000 ≤ a ∧ a < 0x41000000) ∨ (0x60000000 ≤ a ∧ a < 0x62C00000) →
          ramByte t a = 0) ∧ t.mem.tags = [] ∧ t.tk.tacks = s.tk.tacks ∧ t.tk.paddocks = s.tk.paddocks ∧ t.st.keys = [] ∧
        t.pk.words = [] ∧ t.pc = s.pc) ∧
      (s.tick < b + 64 → exec .shedWipeComplete s = .next s) ∧
      (s.tick < b + 5064 → exec .shedReloadComplete s = .next s) ∧
      (b + 5064 ≤ s.tick → ∃ t, exec .shedReloadComplete s = .next t ∧ t.tm.shedBusy = false ∧ t.tm.shedStart = none ∧
        t.tm.running = 0 ∧ eventSet t 15 1 = true)) ∧
    (s.tm.shedDue = none → exec .shedBoundary s = .next s) ∧
    ((s.tm.shedStart = none ∨ s.tm.shedBusy = false) → exec .shedWipeComplete s = .next s ∧ exec .shedReloadComplete s = .next s)

/-- R418–R421: a transition that R419 lists for its requester runs with good hold-up, after what precedes its fuses, and
is DENIED otherwise; after 1.2 ms all three copies hold the target's pattern, and a device whose copies agreed is in
the target state. -/
def Obligations.TransitionsProgramFuses : Prop :=
  ∀ s : State,
    (∀ p ∈ [(1, Instr.transitionToTest), (2, .transitionToCustody), (5, .transitionToScrap true)],
      s.lc.tap = 0x10 → s.life ≤ 1 →
      ((transitionListed s p.1 true = false ∨ s.lc.busy ≠ none) → ∃ t, exec p.2 s = .next t ∧ t.lc.reply = [5] ∧ t.lc.busy = s.lc.busy ∧
        t.lc.copies = s.lc.copies ∧ t.tk = s.tk) ∧
      (transitionListed s p.1 true = true → s.lc.busy = none → holdupOk s = true → ∃ t start, exec p.2 s = .next t ∧ t.lc.reply = [0] ∧
        t.lc.busy = some (p.1, start) ∧ t.lc.copies = s.lc.copies ∧ t.lc.session = none ∧
        (p.1 = 2 → ∃ k, t.tk.keep = some k ∧ k.length = 32 ∧ t.tk.placeRec.isSome = true))) ∧
    ((s.lc.tap ≠ 0x10 ∨ 2 ≤ s.life) → exec .transitionToTest s = .next s ∧ exec .transitionToCustody s = .next s ∧
      exec (.transitionToScrap true) s = .next s) ∧
    ((∀ target start, s.lc.busy ≠ some (target, some start)) → exec .transitionComplete s = .next s) ∧
    (∀ p ∈ [(3, Instr.transitionToField), (4, .transitionToReturn), (5, .transitionToScrap false)],
      ((transitionListed s p.1 false = false ∨ s.lc.busy ≠ none) → exec p.2 s = .next s) ∧
      (transitionListed s p.1 false = true → s.lc.busy = none → holdupOk s = false →
        exec p.2 s = .next (setEvent 19 1 (setEvent 16 1 s))) ∧
      (transitionListed s p.1 false = true → s.lc.busy = none → holdupOk s = true → ∃ t start, exec p.2 s = .next t ∧
        t.lc.busy = some (p.1, start) ∧ t.lc.copies = s.lc.copies ∧ t.lc.session = none ∧
        (4 ≤ p.1 → s.tm.running = 0 → t.tk.keep = none))) ∧
    (∀ target start, s.lc.busy = some (target, some start) → (s.tick < start + 1200 → exec .transitionComplete s = .next s) ∧
      (start + 1200 ≤ s.tick → ∃ t, exec .transitionComplete s = .next t ∧ t.lc.busy = none ∧ eventSet t 16 0 = true ∧
        (∀ i < 3, Tab.get 0 t.lc.copies i = Tab.get 0 s.lc.copies i ||| lcPattern target s.lc.word) ∧
        (∀ w, (∀ i < 3, Tab.get 0 s.lc.copies i = w) → s.lc.word = w → lcCode w ≤ 4 →
          (target = lcCode w + 1 ∨ target = 5) → t.life = target))) ∧
    (transitionListed s 1 true = (s.life == 0) ∧ transitionListed s 2 true = (s.life == 1 && !s.lc.fwHash.isEmpty) ∧
      transitionListed s 3 false = (s.life == 2 && s.tm.locked && !s.lc.dkeyHash.isEmpty) ∧
      transitionListed s 4 false = (s.life == 3) ∧ transitionListed s 5 true = decide (s.life ≤ 1) ∧
      transitionListed s 5 false = (decide (2 ≤ s.life) && decide (s.life ≤ 4)))

/-- R423–R429, R433, R434: TAP instructions select, those of the boundary scan shed first in CUSTODY and FIELD; the
mailbox answers while it is selected; a presentation that passes row 1 consumes the nonce, and its verification opens
a session or refuses it; a session ends for each of its causes, and with it every halt and unit 39's regions. -/
def Obligations.TapAndMailboxCommands : Prop :=
  ∀ s : State,
    (∃ t, exec .tapBypass s = .next t ∧ t.lc.tap = 0xFF ∧ t.lc.bscanOn = false) ∧
    (∃ t, exec .tapIdcode s = .next t ∧ t.lc.tap = 1 ∧ t.lc.bscanOn = false) ∧
    (∃ t, exec .tapSamplePreload s = .next t ∧ t.lc.tap = 2 ∧ t.lc.bscanOn = false) ∧
    (∀ p ∈ [(0, Instr.tapExtest), (4, .tapClamp), (5, .tapHighz)],
      (s.life ≠ 2 → s.life ≠ 3 → ∃ t, exec p.2 s = .next t ∧ t.lc.tap = p.1 ∧ t.lc.bscanOn = true ∧ t.tm = s.tm) ∧
      ((s.life = 2 ∨ s.life = 3) → ∃ t, exec p.2 s = .next t ∧ t.lc.bscan = some p.1 ∧ t.lc.bscanOn = s.lc.bscanOn ∧
        eventSet t 16 5 = true ∧ (s.tm.running = 0 → shedNow s = true → s.tm.shedBusy = false → s.tm.shedDue = none →
          t.tm.shedDue = some s.tick))) ∧
    (∀ code, s.lc.bscan = some code → s.tm.shedBusy = false → s.tm.shedDue = none → s.tm.shedPending = false →
      ∃ t, exec .bscanEffect s = .next t ∧ t.lc.tap = code ∧ t.lc.bscan = none) ∧
    (∃ t, exec .tapMailbox s = .next t ∧ t.lc.tap = (if s.life = 0xFF then 0xFF else 0x10)) ∧
    (∃ t, exec .tapDap s = .next t ∧ t.lc.tap = (if dbgRights s = 0 then 0xFF else 0x11)) ∧
    (∃ t, exec .testLogicReset s = .next t ∧ t.lc.tap = 1 ∧ (∀ d, s.lc.session = some d → d.jtag = true → t.lc.session = none) ∧
      (∀ d, s.lc.session = some d → d.jtag = false → t.lc.session = some d)) ∧
    (∃ t, exec .nonceRead s = .next t ∧ t.lc.nonceFresh = true ∧ t.lc.nonce.length = 16 ∧ t.lc.verify = s.lc.verify) ∧
    (s.lc.tap = 0x10 → s.life ≠ 0xFF →
      (2 ≤ s.life → s.life ≤ 4 → ∃ t, exec .mailboxNonce s = .next t ∧ t.lc.nonceFresh = true ∧ t.lc.reply = t.lc.nonce) ∧
      (∃ t, exec .mailboxEnd s = .next t ∧ t.lc.session = none) ∧
      (∃ t, exec .mailboxStatus s = .next t ∧ t.lc.reply = natToLE 4 (lcStat s).toNat ++ natToLE 4 (lcDbgStat s).toNat) ∧
      (∀ h : List Byte, h.length = 48 → s.life = 1 → s.lc.fwHash = [] → ∃ t, exec (.mailboxFwkey h) s = .next t ∧ t.lc.fwHash = h) ∧
      (∀ h : List Byte, (s.lc.fwHash ≠ [] ∨ s.life ≠ 1) → exec (.mailboxFwkey h) s = .next s)) ∧
    ((s.lc.tap ≠ 0x10 ∨ s.life = 0xFF) → ∀ h, exec .mailboxNonce s = .next s ∧ exec (.mailboxPresent h) s = .next s ∧
      exec .mailboxEnd s = .next s ∧ exec .mailboxStatus s = .next s ∧ exec (.mailboxFwkey h) s = .next s) ∧
    ((s.life < 2 ∨ 4 < s.life) → ∀ h, exec .mailboxNonce s = .next s ∧ exec (.mailboxPresent h) s = .next s) ∧
    (s.lc.bscan = none → exec .bscanEffect s = .next s) ∧ (s.lc.verify = [] → exec .certVerifyComplete s = .next s) ∧
    (s.lc.session = none → exec .debugSessionExpiry s = .next s ∧ exec .debugEndRequest s = .next s) ∧
    (∀ b : List Byte, certMalformed b = true → ∃ t j, exec (.certificatePresent b) s = .next t ∧ t.lc.verify = s.lc.verify ++ [j] ∧
      j.bytes = b ∧ t.lc.nonceFresh = s.lc.nonceFresh ∧ certResult j t = 1) ∧
    (∀ b : List Byte, certMalformed b = false → 2 ≤ s.life → s.life ≤ 4 → s.lc.verify = [] →
      (s.lc.tap = 0x10 → ∃ t j, exec (.mailboxPresent b) s = .next t ∧ t.lc.verify = [j] ∧ j.bytes = b ∧ j.jtag = true ∧
        t.lc.nonceFresh = false ∧ (j.nonceOk = true ↔ s.lc.nonceFresh = true ∧ (b.drop 16).take 16 = s.lc.nonce)) ∧
      (∃ t j, exec (.certificatePresent b) s = .next t ∧ t.lc.verify = [j] ∧ j.bytes = b ∧ j.jtag = false ∧
        t.lc.nonceFresh = false ∧ (j.nonceOk = true ↔ s.lc.nonceFresh = true ∧ (b.drop 16).take 16 = s.lc.nonce))) ∧
    (∀ j js, s.lc.verify = j :: js →
      (certResult j s = 0 → ∃ t d, exec .certVerifyComplete s = .next t ∧ t.lc.session = some d ∧ d.jtag = j.jtag ∧
        d.rights = field j.bytes 4 2 ∧ d.untilT = field j.bytes 0x28 8 ∧ t.lc.verify = js ∧ t.lc.result = 0 ∧ eventSet t 16 3 = true) ∧
      (certResult j s ≠ 0 → ∃ t, exec .certVerifyComplete s = .next t ∧ t.lc.session = s.lc.session ∧ t.lc.verify = js ∧
        t.lc.result = certResult j s ∧ eventSet t 16 2 = true)) ∧
    (∀ d, s.lc.session = some d →
      (∃ t, exec .debugEndRequest s = .next t ∧ t.lc.session = none ∧ t.lc.halts = [] ∧ eventSet t 16 4 = true ∧
        (∀ r < 32, Tab.get 0 t.br.rgn (39 * 32 + r) = 0)) ∧
      (timeState s.time ≠ 3 → (s.time.now / 1000 * 1000 < d.untilT → exec .debugSessionExpiry s = .next s) ∧
        (d.untilT ≤ s.time.now / 1000 * 1000 → ∃ t, exec .debugSessionExpiry s = .next t ∧ t.lc.session = none ∧ t.lc.halts = []))) ∧
    (∀ h : List Byte, s.life = 2 → s.lc.dkeyHash = [] → h.length = 48 → ∃ t, exec (.ownerDebugKeyEnrol h) s = .next t ∧ t.lc.dkeyHash = h) ∧
    (∀ h : List Byte, (s.life ≠ 2 ∨ s.lc.dkeyHash ≠ []) → exec (.ownerDebugKeyEnrol h) s = .next s)

/-- R430, R431, R315: halts, steps and accesses of the debug port within the rights in force and the mask; what a right
does not cover is refused with its alert, zeros for a read, and nothing else changed. -/
def Obligations.DebugAccessNeedsRights : Prop :=
  ∀ (s : State) (c : Nat), c < 26 →
    let refused (t : State) : Prop := t.lc.denied = true ∧ eventSet t 10 3 = true ∧ t.mem = s.mem ∧ t.pc = s.pc ∧ t.lc.halts = s.lc.halts
    ((hasRight s 0 = true ∧ dbgMask s s.lc.sel = true → ∃ t, exec (.debugHalt c) s = .next t ∧
        Tab.get 0 t.lc.halts c = s.lc.sel + 1) ∧
      (hasRight s 0 = false ∨ dbgMask s s.lc.sel = false → ∃ t, exec (.debugHalt c) s = .next t ∧ refused t)) ∧
    ((hasRight s 1 = true → isHalted s c = true → ∀ s', s' = { s with lc := { s.lc with steps := Tab.set false s.lc.steps c true } } →
        (∀ i, decodeWord c (wordAtPc c s) = some i → exec (.debugStep c) s = exec i s') ∧
        (decodeWord c (wordAtPc c s) = none → reaches c s' →
          exec (.debugStep c) s = .next (raised c 0x01 ((wordAtPc c s).setWidth 64) s' (stepSpent c s')))) ∧
      (hasRight s 1 = false ∨ isHalted s c = false → ∃ t, exec (.debugStep c) s = .next t ∧ refused t)) ∧
    ((hasRight s 0 = true → isHalted s c = true → ∃ t, exec (.debugResume c) s = .next t ∧ Tab.get 0 t.lc.halts c = 0 ∧
        isHalted t c = false) ∧
      ((hasRight s 0 = false ∨ dbgMask s (Tab.get 0 s.lc.halts c - 1) = false) → ∃ t, exec (.debugResume c) s = .next t ∧ refused t)) ∧
    (s.lc.tap = 0x11 →
      (∀ wr a n v, 0 < n → n ≤ 8 → dapMay s wr a = false → ∃ t, exec (.dapAccess (.mem wr a n v)) s = .next t ∧ refused t ∧
        (wr = false → t.lc.dapData = zeros n)) ∧
      (∀ a n v, 0 < n → n ≤ 8 → isCsr a = false → dapMay s false a = true →
        firstRefused s { unit := 39, paddock := s.lc.sel, cls := 2 } false false a n = none → meetsPoison s a n = false →
        ∃ t, exec (.dapAccess (.mem false a n v)) s = .next t ∧ t.lc.dapData = (List.range n).map (fun i => plainByte s (a + i)) ∧
          t.mem = s.mem ∧ t.pc = s.pc) ∧
      (hasRight s 0 = true → isHalted s c = true → ∀ i < 64, ∀ v : BitVec 128,
        (∃ t, exec (.dapAccess (.reg false c 0 i v)) s = .next t ∧ t.lc.dapData = natToLE 8 ((getCore s c).getG i).toNat ∧ t.pc = s.pc) ∧
        (0 < i → ∃ t, exec (.dapAccess (.reg true c 0 i v)) s = .next t ∧ (getCore t c).getG i = v.setWidth 64 ∧
          ∀ j, j ≠ i → (getCore t c).getG j = (getCore s c).getG j)) ∧
      (∀ p, dbgRights s ≠ 0 → exec (.dapAccess (.select p)) s = .next { s with lc := { s.lc with sel := p % 256 } }) ∧
      (dbgRights s = 0 → ∀ p, ∃ t, exec (.dapAccess (.select p)) s = .next t ∧ refused t ∧ t.lc.sel = s.lc.sel) ∧
      (hasRight s 2 = true → ∃ t, exec (.dapAccess .ring) s = .next t ∧ t.lc.dapData = traceBytes s.lc.trace ∧ t.pc = s.pc) ∧
      (hasRight s 2 = false → ∃ t, exec (.dapAccess .ring) s = .next t ∧ refused t)) ∧
    (s.lc.tap ≠ 0x11 → ∀ req, exec (.dapAccess req) s = .next s)

/-! ### Dictionary and ledger (R436–R463) -/

/-- R440–R448, R461, R462: an accepted request of an idle engine moves its session's SEQ on and is answered: MALFORMED for
row 1 of R448, DENIED for a role without the right, the value for a READ (whole events from the cursor, feed entries,
removed as they are read), the record for a DESCRIBE, a subscription made or dropped; an admitted WRITE waits for its
boundary. A wrong MAC and a used SEQ get no answer; CLOSE closes. -/
def Obligations.DictRequestsAreServed : Prop :=
  ∀ (s : State) (d : List Byte) (m : MgmtSession), s.od.inbox = [] → s.od.write = none →
    let b := requestBody d
    let a := acceptedFrom s d m
    let i := rqIndex b
    let sub := rqSub b
    let ways : List (List Nat × (List Byte → Instr)) := [([0, 1], .dictRead), ([2], .dictWrite), ([3], .dictDescribe), ([4], .dictSubscribe),
      ([5], .dictUnsubscribe), ([7], .credentialWrite), ([8], .addressConfigWrite), ([9], .ledgerCursorRead), ([10], .feedRead)]
    (requestArrives s d m → ∀ w ∈ ways, dictKind d ∈ w.1 →
      (rqMalformed b = true → ∃ t, exec (w.2 d) s = .next t ∧ responded s t d m 0x13 [] ∧ t.od.write = none ∧
        (∃ m', sessionOf t m.sid = some m' ∧ m'.seqNext = field d 8 8 + 1) ∧ t.mem = s.mem ∧ t.pc = s.pc) ∧
      (∀ o, rqMalformed b = false → objOf i sub = some o →
        (rqDenied m.role o (rqOp b) = true → ∃ t, exec (w.2 d) s = .next t ∧ responded s t d m 0x05 [] ∧ t.od.write = none ∧
          t.od.values = s.od.values ∧ t.pc = s.pc) ∧
        (rqDenied m.role o (rqOp b) = false → s.od.ready = true →
          (rqOp b = 1 → ∃ t, exec (w.2 d) s = .next t ∧ responded s t d m 0 (objRead i sub a).1 ∧
            (i = 0xA100 → sub = 2 → t.ledger.cursor = (readCursor a).2.ledger.cursor) ∧
            (i = 0xA200 → Tab.get [] t.ledger.feeds sub = (Tab.get [] s.ledger.feeds sub).drop 16)) ∧
          (rqOp b = 2 → (objWrite i sub (rqValue o b) m.cred a).1 = 0 → inBounds o (rqValue o b) = true →
            ∃ t x, exec (w.2 d) s = .next t ∧ t.od.write = some x ∧ x.value = rqValue o b ∧ x.req.body = b ∧ x.req.sid = m.sid ∧
              x.asked = s.tick ∧ x.begun = false ∧ t.od.sent = s.od.sent ∧ t.od.values = s.od.values) ∧
          (rqOp b = 3 → ∃ t, exec (w.2 d) s = .next t ∧ responded s t d m 0 (describe i sub o)) ∧
          (rqOp b = 4 → m.subs.length < 64 → ∃ t m', exec (w.2 d) s = .next t ∧ responded s t d m 0 (objValue a i sub) ∧
            sessionOf t m.sid = some m' ∧ ∃ x ∈ m'.subs, x.key = objKey i sub ∧ x.value = objValue a i sub) ∧
          (rqOp b = 5 → ∃ t m', exec (w.2 d) s = .next t ∧ responded s t d m 0 [] ∧ sessionOf t m.sid = some m' ∧
            ∀ x ∈ m'.subs, x.key ≠ objKey i sub)))) ∧
    (dictUp s = true → headerOk d 3 = true → 32 ≤ d.length → sessionOf s (field d 4 4) = some m →
      dictMac m.kc (d.take (d.length - 16)) ≠ d.drop (d.length - 16) → m.fails < 15 → ∀ w ∈ ways, dictKind d ∈ w.1 →
      ∃ t m', exec (w.2 d) s = .next t ∧ t.od.sent = s.od.sent ∧ sessionOf t m.sid = some m' ∧ m'.fails = m.fails + 1 ∧
        m'.seqNext = m.seqNext ∧ eventSet t 17 3 = true) ∧
    (dictUp s = true → headerOk d 3 = true → 32 ≤ d.length → sessionOf s (field d 4 4) = some m →
      dictMac m.kc (d.take (d.length - 16)) = d.drop (d.length - 16) → field d 8 8 < m.seqNext → ∀ w ∈ ways, dictKind d ∈ w.1 →
      ∃ t, exec (w.2 d) s = .next t ∧ t.od.sent = s.od.sent ∧ t.events = s.events) ∧
    (dictUp s = true → headerOk d 6 = true → 32 ≤ d.length → sessionOf s (field d 4 4) = some m →
      dictMac m.kc (d.take (d.length - 16)) = d.drop (d.length - 16) →
      ∃ t, exec (.sessionClose d) s = .next t ∧ sessionOf t m.sid = none ∧ eventSet t 17 2 = true ∧ t.od.sent = s.od.sent) ∧
    ((dictUp s = false ∨ d.length < 32 ∨ sessionOf s (field d 4 4) = none ∨ (headerOk d 3 = false ∧ headerOk d 6 = false)) →
      exec (.sessionClose d) s = .next s ∧ ∀ w ∈ ways, exec (w.2 d) s = .next s)

/-- R441, R443, R446: a HELLO opens a session with a SID of its own unless ten came within a second or eight are open; a
waiting write takes effect after its stride and is answered, MEDIA_ERROR where NOR did not take its record; idle
sessions close. -/
def Obligations.DictSessionsAndWrites : Prop :=
  ∀ s : State,
    (∀ d adr, dictUp s = true → headerOk d 1 = true → d.length = 136 → field d 4 4 = 0 → localAddr s adr ≠ none →
      let recent := s.od.hellos.filter (fun x => decide (s.tick < x + 1000000))
      ((10 ≤ recent.length ∨ 8 ≤ s.od.sessions.length) → ∃ t, exec (.hello d adr) s = .next t ∧ t.od.sessions = s.od.sessions ∧
        t.od.sent = s.od.sent ∧ eventSet t 17 4 = true) ∧
      (recent.length < 10 → s.od.sessions.length < 8 → ∃ t m r, exec (.hello d adr) s = .next t ∧
        t.od.sessions = s.od.sessions ++ [m] ∧ t.od.sent = s.od.sent ++ [r] ∧ m.sid ≠ 0 ∧ (∀ x ∈ s.od.sessions, x.sid ≠ m.sid) ∧
        m.cred = field d 16 8 ∧ m.addr = adr ∧ m.used = false ∧ m.seqNext = 0 ∧ r.take 4 = [1, 2, 0, 0] ∧
        (r.drop 4).take 4 = natToLE 4 m.sid ∧ t.od.hellos = recent ++ [s.tick])) ∧
    (∀ d adr, (dictUp s = false ∨ headerOk d 1 = false ∨ d.length ≠ 136 ∨ field d 4 4 ≠ 0 ∨ localAddr s adr = none) →
      exec (.hello d adr) s = .next s) ∧
    (s.od.write = none → ∀ ok, exec (.dictWriteApply ok) s = .next s) ∧
    (∀ w, s.od.write = some w → s.od.inbox = [] → ∀ m, sessionOf s w.req.sid = some m →
      (∀ ok, s.tick ≤ w.asked → exec (.dictWriteApply ok) s = .next s) ∧
      (w.asked < s.tick → w.begun = false → w.nor = true → ∃ t r, exec (.dictWriteApply false) s = .next t ∧ t.od.write = none ∧
        t.od.sent = s.od.sent ++ [r] ∧ byteAt r 1 = 4 ∧ byteAt r 17 = 0x0D ∧ t.od.values = s.od.values) ∧
      (w.asked < s.tick → w.begun = false → rqIndex w.req.body ∉ [0xB010, 0xB011, 0x1012] → ∀ x,
        x = objWrite (rqIndex w.req.body) (rqSub w.req.body) w.value w.cred s → x.1 = 0 → x.2.od.write = s.od.write →
        x.2.od.inbox = [] → x.2.od.sent = s.od.sent → sessionOf x.2 w.req.sid = some m →
        actRuns (rqIndex w.req.body) (rqSub w.req.body) x.2 = false →
        ∃ t r, exec (.dictWriteApply true) s = .next t ∧ t.od.write = none ∧ t.od.sent = s.od.sent ++ [r] ∧ byteAt r 17 = 0 ∧
          (w.nor = true → objKey (rqIndex w.req.body) (rqSub w.req.body) / 256 ≠ 0x1030 →
            Tab.get [] t.od.values (objKey (rqIndex w.req.body) (rqSub w.req.body)) = w.value))) ∧
    ((s.od.sessions.map (fun m => m.sid)).Nodup → ∃ t, exec .sessionIdleTimeout s = .next t ∧
      ∀ m, m ∈ t.od.sessions ↔ m ∈ s.od.sessions ∧ s.tick < m.lastAt + max 30 s.od.idle.toNat * 1000000)

/-- R436: ARP requests for the static IPv4 address, Neighbor Solicitations for an own address and echo requests are
answered with one frame back to the sender; a link change is kept and noted. R457–R461: a period queues the periodic
items and counts the minutes of each temperature bin; NOR takes a waiting item word or a whole event at the end of
HEAD, within the pace of R328, and an event has its number. -/
def Obligations.PortAndLedgerCommands : Prop :=
  (
  ∀ s : State,
    (∀ sha spa tpa rest : List Byte, dictUp s = true → sha.length = 6 → spa.length = 4 → tpa.length = 4 → localAddr s 2 = some tpa →
      rest.length ≤ 1400 → ∀ f, f = List.replicate 6 0xFF ++ sha ++ [8, 6] ++ [0, 1, 8, 0, 6, 4, 0, 1] ++ sha ++ spa ++
        List.replicate 6 0 ++ tpa ++ rest → ∃ t, exec (.arpRequest f) s = .next t ∧
        t.od.sent = s.od.sent ++ [takePad 60 (sha ++ ownMac s ++ [8, 6] ++ [0, 1, 8, 0, 6, 4, 0, 2] ++ ownMac s ++ tpa ++ sha ++ spa)] ∧
        t.mem = s.mem) ∧
    (∀ f src dst m, dictUp s = true → parse6 f = some (src, dst, 255, m) → f.take 6 = ownMac s → ownV6 s dst = true →
      byteAt m 0 = 135 → byteAt m 1 = 0 → 24 ≤ m.length → ownV6 s ((m.drop 8).take 16) = true → (∃ x ∈ src, x ≠ 0) →
      linkOption 64 (m.drop 24) = none → ∃ t r, exec (.neighborSolicitation f) s = .next t ∧ t.od.sent = s.od.sent ++ [r] ∧
        r.take 6 = (f.drop 6).take 6 ∧ (r.drop 6).take 6 = ownMac s ∧ byteAt r 54 = 136 ∧ (r.drop 62).take 16 = (m.drop 8).take 16) ∧
    (∀ f src dst hop m, dictUp s = true → etherType f = 0x86DD → parse6 f = some (src, dst, hop, m) → f.take 6 = ownMac s →
      ownV6 s dst = true → byteAt m 0 = 128 → byteAt m 1 = 0 → 8 ≤ m.length → f.length ≤ 1514 → ∃ t r, exec (.icmpEcho f) s = .next t ∧
        t.od.sent = s.od.sent ++ [r] ∧ r.take 6 = (f.drop 6).take 6 ∧ (r.drop 22).take 16 = dst ∧ (r.drop 38).take 16 = src ∧
        byteAt r 54 = 129 ∧ (r.drop 58).take (m.length - 4) = m.drop 4) ∧
    (dictUp s = false → ∀ f, exec (.arpRequest f) s = .next s ∧ exec (.neighborSolicitation f) s = .next s ∧
      exec (.icmpEcho f) s = .next s) ∧
    (∀ up, ∃ t, exec (.mgmtLinkChange up) s = .next t ∧ t.od.link = up ∧ (s.od.link ≠ up → eventSet t 17 0 = true) ∧
      (s.od.link = up → t.events = s.events))) ∧
  (
  ∀ s : State,
    (∀ mins, s.tick < s.ledger.lastPeriod + s.ledger.period * 1000000 → exec (.ledgerPeriod mins) s = .next s) ∧
    (∀ mins, s.ledger.lastPeriod + s.ledger.period * 1000000 ≤ s.tick → mins.length ≤ 16 → ∃ t, exec (.ledgerPeriod mins) s = .next t ∧
      t.ledger.lastPeriod = s.tick ∧ t.ledger.window = s.ledger.window ∧ t.mem = s.mem ∧
      (∀ i n, mins[i]? = some n → Tab.get 0 t.ledger.items (0x1000 + i) = Tab.get 0 s.ledger.items (0x1000 + i) + n) ∧
      (∀ k ∈ periodicCodes, ∃ w ∈ t.ledger.itemQ, w.code = k)) ∧
    (∀ n, nextWords s = none → exec (.ledgerWordDrain n) s = .next s) ∧
    (∀ w ws, s.ledger.snapQ = [] → s.tm.latches = [] → s.ledger.eventQ = [] → s.ledger.itemQ = w :: ws →
      (paceRoom s = 0 → ∀ n, 0 < n → exec (.ledgerWordDrain n) s = .next (setEvent 11 9 s)) ∧
      (0 < paceRoom s → s.ledger.window.length < 31 → ∃ t, exec (.ledgerWordDrain 1) s = .next t ∧ t.ledger.itemQ = ws ∧
        t.ledger.window.flatten = s.ledger.window.flatten ++ [w] ∧ t.ledger.eventNo = s.ledger.eventNo)) ∧
    (∀ e, s.ledger.snapQ = [] → s.tm.latches = [] → s.ledger.eventQ = [e] → e ≠ [] → e.length ≤ paceRoom s →
      s.ledger.window.length < 31 → e.length ≤ 8184 → ∃ t, exec (.ledgerWordDrain e.length) s = .next t ∧ t.ledger.eventQ = [] ∧
        t.ledger.window.flatten = s.ledger.window.flatten ++ e ∧ t.ledger.eventNo = s.ledger.eventNo + 1))

/-! ### Unit service, firmware, power and reset (R465–R490) -/

/-- R467–R474: a request of a unit in service or idle is taken at once, that of one being served is latched; a drain, a
fence, a wipe and a self-test end after their times in the next state; a drained unit serves no logical number any
more, a wiped Pacer stands at reset, and a unit that fails its test stays IDLE with the alert. R475–R477: a chunk
lands in the bank that was not booted; VERIFY accepts a signed image with a greater sequence number and fails
otherwise; SWITCH begins or goes on, CANCEL ends or goes back; a drained paddock moves; a drain that takes too long
fails with reason 3. -/
def Obligations.UnitAndFirmwareCommands : Prop :=
  (
  ∀ (s : State) (pool u : Nat),
    (unitOk pool u = false → ∀ b, exec (.unitRequest pool u b) s = .next s ∧ exec (.unitDrainEnd pool u) s = .next s ∧
      exec (.fencedToWiping pool u) s = .next s ∧ exec (.unitWipeEnd pool u) s = .next s ∧ exec (.unitTestEnd pool u b) s = .next s) ∧
    (unitOk pool u = true →
    let r := getUnit s pool u
    let wiped := if pool = 2 then 64 else 1
    (∀ en, (r.st < 2 → ∃ t, exec (.unitRequest pool u en) s = .next t ∧ (getUnit t pool u).enabled = en ∧ (getUnit t pool u).st = r.st) ∧
      (2 ≤ r.st → ∃ t, exec (.unitRequest pool u en) s = .next t ∧ (getUnit t pool u).latched = some en ∧
        (getUnit t pool u).st = r.st ∧ (r.latched ≠ none → eventSet t 18 1 = true) ∧ (r.latched = none → t.events = s.events))) ∧
    (r.st = 2 → r.due ≤ s.tick → unitBusy s pool u = false → ∃ t, exec (.unitDrainEnd pool u) s = .next t ∧
      (getUnit t pool u).st = 3 ∧ (getUnit t pool u).due = s.tick + wiped ∧
      (∀ l < poolLogical pool, physOf t pool l ≠ some u)) ∧
    (r.st = 5 → r.due ≤ s.tick → exec (.fencedToWiping pool u) s =
      .next (updUnit pool u (fun x => { x with st := 3, due := s.tick + wiped }) s)) ∧
    (r.st = 3 → r.due ≤ s.tick → ∃ t, exec (.unitWipeEnd pool u) s = .next t ∧ (getUnit t pool u).st = 4 ∧
      (getUnit t pool u).due = s.tick + (if pool = 0 then 200 else if pool = 1 then 2000 else if pool = 2 then 5000 else 20) ∧
      (pool = 2 → (getCore t u).g = [] ∧ (getCore t u).onchip = [] ∧ (getCore t u).status = 0x201 ∧
        ∀ a, 0x10000000 + u * 0x80000 ≤ a → a < 0x10000000 + (u + 1) * 0x80000 → ramByte t a = 0) ∧
      (pool = 3 → (getCv t u).acc = 0) ∧ (pool ≠ 2 → t.mem = s.mem)) ∧
    (r.st = 4 → r.due ≤ s.tick →
      (∃ t, exec (.unitTestEnd pool u true) s = .next t ∧ (getUnit t pool u).st = (if r.latched.getD r.enabled then 1 else 0) ∧
        (getUnit t pool u).latched = none ∧ (getUnit t pool u).testFailed = false) ∧
      (∃ t, exec (.unitTestEnd pool u false) s = .next t ∧ (getUnit t pool u).st = 0 ∧ (getUnit t pool u).testFailed = true ∧
        eventSet t 18 0 = true)) ∧
    ((r.st ≠ 2 ∨ s.tick < r.due ∨ unitBusy s pool u = true) → exec (.unitDrainEnd pool u) s = .next s) ∧
    ((r.st ≠ 5 ∨ s.tick < r.due) → exec (.fencedToWiping pool u) s = .next s) ∧
    ((r.st ≠ 3 ∨ s.tick < r.due) → exec (.unitWipeEnd pool u) s = .next s) ∧
    ((r.st ≠ 4 ∨ s.tick < r.due) → ∀ b, exec (.unitTestEnd pool u b) s = .next s))) ∧
  (
  ∀ s : State,
    let w := s.us.fw
    let bank := getBank s (1 - w.bootedBank)
    (∀ chunk : List Byte, w.st ≠ 3 → 4 ≤ chunk.length → field chunk 0 4 + (chunk.length - 4) ≤ 8380416 →
      let holds := bankHolds s (1 - w.bootedBank) (field chunk 0 4) (field chunk 0 4 + (chunk.length - 4))
      (holds = true → ∃ t, exec (.fwChunk chunk) s = .next t ∧ t.us.fw.st = 1 ∧
        getBank t w.bootedBank = getBank s w.bootedBank ∧ t.us.fw.moved = [] ∧
        ((getBank t (1 - w.bootedBank)).image.drop (field chunk 0 4)).take (chunk.length - 4) = chunk.drop 4) ∧
      (holds = false → ∃ t, exec (.fwChunk chunk) s = .next t ∧ t.us.fw.st = 5 ∧ t.us.fw.reason = 4 ∧ eventSet t 18 5 = true ∧
        t.fv = s.fv)) ∧
    (∀ chunk : List Byte, (w.st = 3 ∨ chunk.length < 4 ∨ 8380416 < field chunk 0 4 + (chunk.length - 4)) →
      exec (.fwChunk chunk) s = .next s) ∧
    ((w.st = 3 ∨ w.st = 4) → exec .fwVerify s = .next s) ∧
    (w.st = 5 → w.reason ≠ 3 → exec .fwSwitch s = .next s) ∧
    (w.st ≠ 3 → exec .fwCoreDrained s = .next s ∧ exec .fwDrainTimeout s = .next s) ∧
    (w.st ≠ 3 → w.st ≠ 4 →
      (bank.st ≠ 0 → Config.imageSigned bank.image s.lc.fwHash = true → (getBank s w.bootedBank).seq < Config.imageSeq bank.image →
        ∃ t, exec .fwVerify s = .next t ∧ t.us.fw.st = 2 ∧ t.us.fw.reason = 0 ∧
          (getBank t (1 - w.bootedBank)).seq = Config.imageSeq bank.image) ∧
      (bank.st = 0 ∨ Config.imageSigned bank.image s.lc.fwHash = false → ∃ t, exec .fwVerify s = .next t ∧ t.us.fw.st = 5 ∧
        t.us.fw.reason = 1 ∧ eventSet t 18 5 = true) ∧
      (bank.st ≠ 0 → Config.imageSigned bank.image s.lc.fwHash = true → Config.imageSeq bank.image ≤ (getBank s w.bootedBank).seq →
        ∃ t, exec .fwVerify s = .next t ∧ t.us.fw.st = 5 ∧ t.us.fw.reason = 2 ∧ eventSet t 18 5 = true)) ∧
    ((w.st = 2 ∨ (w.st = 5 ∧ w.reason = 3)) → ∃ t, exec .fwSwitch s = .next t ∧ (t.us.fw.st = 3 ∨ t.us.fw.st = 4) ∧
      t.us.fw.cancelling = false) ∧
    (w.st ≠ 2 → w.st ≠ 5 → exec .fwSwitch s = .next s) ∧
    (w.st ≠ 4 → w.moved = [] → ∃ t, exec .fwCancel s = .next t ∧ t.us.fw.st = 0 ∧ t.us.fw.cancelling = false) ∧
    (w.st ≠ 4 → w.moved ≠ [] → ∃ t, exec .fwCancel s = .next t ∧ t.us.fw.st = 3 ∧ t.us.fw.cancelling = true ∧
      t.us.fw.moved = w.moved) ∧
    (w.st = 4 → exec .fwCancel s = .next s) ∧
    (∀ c, w.st = 3 → w.cancelling = false → s.tm.shedBusy = false → physOf s 2 w.core = some c →
      slotOwner s w.core s.stride = some w.paddock → fwDrained s c w.paddock = true → ∃ t, exec .fwCoreDrained s = .next t ∧
        t.us.fw.moved = w.moved ++ [(w.paddock, w.core)] ∧ (t.us.fw.st = 3 ∨ t.us.fw.st = 4)) ∧
    (w.st = 3 → s.tm.shedBusy = false →
      (s.tick < w.since + max 256 s.us.fwDrain.toNat → exec .fwDrainTimeout s = .next s) ∧
      (w.since + max 256 s.us.fwDrain.toNat ≤ s.tick → ∃ t, exec .fwDrainTimeout s = .next t ∧ t.us.fw.st = 5 ∧
        t.us.fw.reason = 3 ∧ t.us.fw.moved = w.moved ∧ eventSet t 18 5 = true)))

/-- R481–R490, R398: a brown-out flushes and then holds the device in reset; the cell keeps the backup domain alone; POR_N
and a release start the boot; hold-up that recovers, a lock wait that ends and every rail measurement have their
effect. What the flush leaves is gone from memory and the cores, and fuses and life counters stay. -/
def Obligations.PowerEventsComplete : Prop :=
  ∀ s : State,
    let lost (t : State) : Prop := t.mem.ram = [] ∧ t.mem.tags = [] ∧ t.pc = PacerUnit.reset ∧ t.cf = CipherUnit.reset ∧ t.waits = [] ∧
      t.fv.life = s.fv.life ∧ t.lc.word = s.lc.word ∧ (s.tk.acts = [] → s.od.write = none → t.fv.nor = s.fv.nor)
    (s.pm.onCell = false → s.pm.running = true → s.pm.held = false → s.pm.flushing = false →
      (∀ vhold, ∃ t, exec (.brownOutTrip vhold) s = .next t ∧ t.pm.flushing = true ∧ t.pm.tripped = true ∧ lost t ∧
        t.lc.copies = s.lc.copies ∧ (vhold = true → t.pm.vholdBo = true) ∧ (vhold = false → t.pm.vaultBo = true)) ∧
      (∃ t, exec .porAssert s = .next t ∧ t.pm.flushing = true ∧ t.pm.porLow = true ∧ lost t ∧ t.lc.copies = s.lc.copies) ∧
      (∃ t, exec .cellSwitch s = .next t ∧ t.pm.onCell = true ∧ t.pm.running = false ∧ lost t ∧ t.tk.keep = s.tk.keep ∧
        t.tm.latches = s.tm.latches)) ∧
    (s.pm.flushing = true → s.pm.porPending = false → exec .flushComplete s =
      .next { s with pm := { s.pm with flushing := false, held := true } }) ∧
    (s.pm.porLow = true → s.pm.onCell = false → s.pm.flushing = false → ∀ facts,
      (s.pm.tripped = true → exec (.bootStart facts) s = .next { s with pm := { s.pm with porLow := false } }) ∧
      (s.pm.tripped = false → ∃ t, exec (.bootStart facts) s = .next t ∧ t.pm.running = true ∧ t.pm.porLow = false ∧
        t.pm.held = false ∧ (s.pm.powerUp = false → t.pm.cause = 3) ∧ t.pm.linkKey.length = 32 ∧ t.pm.scramble.length = 16)) ∧
    ((s.pm.porLow = false ∨ s.pm.onCell = true ∨ s.pm.flushing = true) → ∀ facts, exec (.bootStart facts) s = .next s) ∧
    (s.pm.held = false → ∀ facts, exec (.brownOutRestart facts) s = .next s) ∧
    (s.pm.flushing = false → exec .flushComplete s = .next s) ∧ (s.pm.hold = false → exec .holdupRecovered s = .next s) ∧
    ((s.pm.step ≠ 6 ∨ s.pm.running = false) → exec .lockwaitExpiry s = .next s) ∧
    (s.pm.onCell = true → (∀ v, exec (.brownOutTrip v) s = .next s) ∧ exec .cellSwitch s = .next s ∧
      ∀ mv, exec (.railMeasure mv) s = .next s) ∧
    (s.pm.onCell = false → exec .vddVaultPresent s = .next s) ∧
    (s.pm.held = true → s.pm.tripped = true → s.pm.porLow = false → s.pm.vaultBo = false → s.pm.vholdBo = false →
      s.pm.onCell = false → ∀ facts, ∃ t, exec (.brownOutRestart facts) s = .next t ∧ t.pm.running = true ∧ t.pm.held = false ∧
        t.pm.cause = 4 ∧ t.pm.tripped = false) ∧
    (s.pm.hold = true → holdupOk s = true → exec .holdupRecovered s = .next { s with pm := { s.pm with hold := false } }) ∧
    (s.pm.step = 6 → s.pm.running = true →
      (s.tick < s.pm.stepTick + 1000 * min 500 s.pm.bootCfg.toNat → exec .lockwaitExpiry s = .next s) ∧
      (s.pm.stepTick + 1000 * min 500 s.pm.bootCfg.toNat ≤ s.tick → ∃ t, exec .lockwaitExpiry s = .next t ∧ t.pm.step = 7 ∧
        eventSet t 19 4 = true)) ∧
    (∀ mv, s.pm.onCell = false → mv.length = 10 → ∃ t, exec (.railMeasure mv) s = .next t ∧
      (∀ r v, mv[r]? = some v → (Tab.get 0xFFFF000000000000 t.pm.rails r).toNat % 2 ^ 16 = min v 0xFFFF ∧
        (Tab.get 0xFFFF000000000000 t.pm.rails r).toNat / 2 ^ 48 =
          min ((Tab.get 0xFFFF000000000000 s.pm.rails r).toNat / 2 ^ 48) (min v 0xFFFF)) ∧
      (∀ v, mv[7]? = some v → 1740 < v → t.pm.vaultBo = false) ∧ (∀ v, mv[8]? = some v → 11200 < v → t.pm.vholdBo = false)) ∧
    (s.pm.onCell = true → ∃ t, exec .vddVaultPresent s = .next t ∧ t.pm.onCell = false ∧ t.nf.witStart = none ∧ t.tk = s.tk ∧
      t.fv = s.fv)

/-! ### The queue, memory, and what no command undoes -/

/-- Memory has its canonical form after reset. R35, R220, R249–R251, R281, R306, R381, R400, R417, R418, R464, R490: reset
leaves the values the spec gives, with nothing waiting, no fuse set, and memory in canonical form with nothing listed. -/
def Obligations.ResetLeavesSpecValues : Prop :=
  (
  Memory.wf State.reset.mem = true) ∧
  (
  let s := State.reset
  s.pending = [] ∧ s.waits = [] ∧ s.events = [] ∧ Memory.wf s.mem = true ∧ s.mem.ram = [] ∧ s.mem.tags = [] ∧
    (∀ c < 26, (getCore s c).status = 0x201 ∧ (getCore s c).pc = 0 ∧ (getCore s c).timer = 0xFFFFFFFFFFFFFFFF ∧
      (getCore s c).getK 14 = resetCodeRein ∧ (getCore s c).getK 15 = Rein.zero ∧ (getCore s c).getG 1 = 0 ∧ (getCore s c).rsd = 0 ∧
      (getCore s c).ie = 0 ∧ (getCore s c).pend = 0 ∧ (getCore s c).lcount = 0) ∧
    resetCodeRein.base = 0 ∧ resetCodeRein.len = 0x40000 ∧ resetCodeRein.perm = 5 ∧ resetCodeRein.gen = 1 ∧ resetCodeRein.typ = 0x41 ∧
    rootRein.base = 0 ∧ rootRein.len = 0xFFFFFFFFFF ∧ rootRein.perm = 0x7B ∧ rootRein.gen = 1 ∧ rootRein.typ = 0x41 ∧
    s.pc.maskBud = 0x7D0 ∧ s.pc.fault = 0 ∧ s.cn.timeout = 0x1000 ∧ s.tk.lease = 0x400 ∧ s.nf.cfg = 0x30C ∧ s.tm.hour = 2 ∧
    s.od.idle = 0x12C ∧ s.pm.bootCfg = 0x1F4 ∧ s.al.pinen = 0xFFFFFFFF ∧ s.al.msien = 0xFFFFFFFF ∧ s.life = 0 ∧
    s.lc.session = none ∧ s.od.sessions = [] ∧ s.tk.keep = none ∧ s.pm.step = 1 ∧ s.br.rgn = [])
end

