-- ==== Sys2Proof/Laws/Tab.lean ====
section
/-! SUPPORT. Sparse tables: what a read finds after a write, and that every operation keeps the canonical form. -/

namespace Sys2Proof.Tab

variable {α : Type} [DecidableEq α] {d : α}

/-- Every key of the table is above `k`, or there is no bound. -/
def Above (lo : Option Nat) (k : Nat) : Prop := ∀ l, lo = some l → l < k

theorem wfFrom_cons {lo : Option Nat} {k : Nat} {v : α} {t : Tab α} :
    wfFrom d lo ((k, v) :: t) = true ↔ Above lo k ∧ v ≠ d ∧ wfFrom d (some k) t = true := by
  cases lo <;> simp [wfFrom, Above, and_assoc]

theorem wfFrom_mono {lo : Option Nat} {k : Nat} {t : Tab α} (h : Above lo k) (w : wfFrom d (some k) t = true) :
    wfFrom d lo t = true := by
  cases t with
  | nil => simp [wfFrom]
  | cons e t =>
    obtain ⟨j, v⟩ := e
    rw [wfFrom_cons] at w ⊢
    exact ⟨fun l hl => Nat.lt_trans (h l hl) (w.1 k rfl), w.2⟩

@[simp] theorem wf_nil : wf d ([] : Tab α) = true := rfl

theorem get_above {k : Nat} {lo : Option Nat} {t : Tab α} (w : wfFrom d lo t = true) (h : ∀ l, lo = some l → k ≤ l)
    (hlo : lo ≠ none) : get d t k = d := by
  cases t with
  | nil => rfl
  | cons e t =>
    obtain ⟨j, v⟩ := e
    rw [wfFrom_cons] at w
    cases lo with
    | none => exact absurd rfl hlo
    | some l => simp [get, Nat.lt_of_le_of_lt (h l rfl) (w.1 l rfl)]

theorem set_wfFrom {lo : Option Nat} {t : Tab α} {k : Nat} {v : α} (w : wfFrom d lo t = true) (h : Above lo k) :
    wfFrom d lo (set d t k v) = true := by
  induction t generalizing lo with
  | nil =>
    by_cases hv : v = d
    · simp [set, hv, wfFrom]
    · simp only [set, hv, if_false]
      rw [wfFrom_cons]
      exact ⟨h, hv, rfl⟩
  | cons e t ih =>
    obtain ⟨j, x⟩ := e
    rw [wfFrom_cons] at w
    simp only [set]
    split
    · next hk =>
      split
      · rw [wfFrom_cons]; exact w
      · rw [wfFrom_cons, wfFrom_cons]
        exact ⟨h, by assumption, fun l hl => by cases hl; exact hk, w.2⟩
    · split
      · next hk =>
        subst hk
        split
        · have hd : t.dropWhile (fun p => decide (p.1 ≤ k)) = t := by
            cases t with
            | nil => rfl
            | cons e t =>
              have := (wfFrom_cons.mp w.2.2).1 k rfl
              simp [Nat.not_le.mpr this]
          rw [hd]
          exact wfFrom_mono h w.2.2
        · rw [wfFrom_cons]; exact ⟨h, by assumption, w.2.2⟩
      · rw [wfFrom_cons]
        exact ⟨w.1, w.2.1, ih w.2.2 (fun l hl => by cases hl; omega)⟩

/-- A write keeps the canonical form. -/
theorem set_wf {t : Tab α} (k : Nat) (v : α) (w : wf d t = true) : wf d (set d t k v) = true :=
  set_wfFrom w (fun _ h => nomatch h)

theorem upd_wf {t : Tab α} (k : Nat) (f : α → α) (w : wf d t = true) : wf d (upd d t k f) = true := set_wf k _ w

theorem setSlice_wf {t : Tab α} (k : Nat) (vs : List α) (w : wf d t = true) : wf d (setSlice d t k vs) = true := by
  induction vs generalizing t k with
  | nil => exact w
  | cons v vs ih => exact ih _ (set_wf k v w)

theorem filter_wfFrom {lo : Option Nat} {t : Tab α} (p : Nat × α → Bool) (w : wfFrom d lo t = true) :
    wfFrom d lo (t.filter p) = true := by
  induction t generalizing lo with
  | nil => rfl
  | cons e t ih =>
    obtain ⟨j, v⟩ := e
    rw [wfFrom_cons] at w
    rw [List.filter_cons]
    split
    · rw [wfFrom_cons]; exact ⟨w.1, w.2.1, ih w.2.2⟩
    · exact wfFrom_mono w.1 (ih w.2.2)

theorem filter_wf {t : Tab α} (p : Nat × α → Bool) (w : wf d t = true) : wf d (t.filter p) = true := filter_wfFrom p w

theorem foldl_wf {β : Type} {f : Tab α → β → Tab α} (hf : ∀ t b, wf d t = true → wf d (f t b) = true) (l : List β) {t : Tab α}
    (w : wf d t = true) : wf d (l.foldl f t) = true := by
  induction l generalizing t with
  | nil => exact w
  | cons b l ih => exact ih (hf _ b w)

theorem clearRange_wf {t : Tab α} (lo hi : Nat) (w : wf d t = true) : wf d (clearRange d t lo hi) = true :=
  foldl_wf (fun t _ w => by
    split
    · exact set_wf _ _ w
    · exact w) _ w

theorem mapVals_wf {t : Tab α} (f : Nat → α → α) : wf d (mapVals d f t) = true :=
  foldl_wf (fun _ _ w => set_wf _ _ w) _ wf_nil

omit [DecidableEq α] in
/-- Entries up to `k` do not matter to a read above it. -/
theorem get_dropWhile_le {t : Tab α} {k j : Nat} (h : k < j) :
    get d (t.dropWhile (fun p => decide (p.1 ≤ k))) j = get d t j := by
  induction t with
  | nil => rfl
  | cons e t ih =>
    obtain ⟨i, w⟩ := e
    by_cases hi : i ≤ k
    · have h1 : ¬ j < i := by omega
      have h2 : j ≠ i := by omega
      simp [List.dropWhile, hi, get, h1, h2, ih]
    · simp [List.dropWhile, hi]

omit [DecidableEq α] in
/-- A read below what is left finds the default. -/
theorem get_dropWhile_ge {t : Tab α} {k j : Nat} (h : j ≤ k) :
    get d (t.dropWhile (fun p => decide (p.1 ≤ k))) j = d := by
  induction t with
  | nil => rfl
  | cons e t ih =>
    obtain ⟨i, w⟩ := e
    by_cases hi : i ≤ k
    · simp [List.dropWhile, hi, ih]
    · have h1 : j < i := by omega
      simp [List.dropWhile, hi, get, h1]

/-- What a read finds after a write, whatever the table. -/
theorem get_set (t : Tab α) (k j : Nat) (v : α) : get d (set d t k v) j = if j = k then v else get d t j := by
  induction t with
  | nil =>
    by_cases hv : v = d
    · simp [set, hv, get]
    · by_cases h : j = k
      · simp [set, hv, get, h]
      · simp [set, hv, get, h]
  | cons e t ih =>
    obtain ⟨i, w⟩ := e
    simp only [set]
    by_cases hk : k < i
    · by_cases hv : v = d
      · simp only [hk, hv, if_true]
        split
        · next h => subst h; simp [get, hk]
        · rfl
      · simp only [hk, hv, if_true, if_false]
        by_cases h : j = k
        · subst h; simp [get]
        · by_cases h2 : j < k
          · have : j < i := by omega
            simp [get, h2, h, this]
          · simp [get, h2, h]
    · by_cases he : k = i
      · subst he
        by_cases hv : v = d
        · simp only [hv, if_true, Nat.lt_irrefl, if_false]
          by_cases h : j = k
          · simp [h, get_dropWhile_ge]
          · by_cases h2 : j < k
            · simp [h, get, h2, get_dropWhile_ge (Nat.le_of_lt h2)]
            · simp [h, get, h2, get_dropWhile_le (Nat.lt_of_le_of_ne (Nat.le_of_not_lt h2) (Ne.symm h))]
        · simp only [hv, if_false, Nat.lt_irrefl, if_true]
          by_cases h : j = k
          · simp [h, get]
          · simp [get, h]
      · simp only [hk, he, if_false]
        by_cases h : j = k
        · subst h
          have h1 : ¬ j < i := hk
          simp [get, h1, he, ih]
        · simp only [h, if_false] at ih ⊢
          simp [get, ih]

@[simp] theorem get_set_self (t : Tab α) (k : Nat) (v : α) : get d (set d t k v) k = v := by simp [get_set]

theorem get_set_ne (t : Tab α) {k j : Nat} (v : α) (h : j ≠ k) : get d (set d t k v) j = get d t j := by simp [get_set, h]

@[simp] theorem get_upd_self (t : Tab α) (k : Nat) (f : α → α) : get d (upd d t k f) k = f (get d t k) := get_set_self ..

theorem get_upd (t : Tab α) (k j : Nat) (f : α → α) : get d (upd d t k f) j = if j = k then f (get d t k) else get d t j :=
  get_set ..

theorem get_upd_ne (t : Tab α) {k j : Nat} (f : α → α) (h : j ≠ k) : get d (upd d t k f) j = get d t j := get_set_ne t _ h

omit [DecidableEq α] in
/-- A key that the table does not list reads as the default. -/
theorem get_unlisted {t : Tab α} {k : Nat} (h : ∀ p ∈ t, p.1 ≠ k) : get d t k = d := by
  induction t with
  | nil => rfl
  | cons e t ih =>
    obtain ⟨j, v⟩ := e
    have hj : k ≠ j := fun e => h (j, v) (by simp) e.symm
    simp only [get, hj, if_false]
    split
    · rfl
    · exact ih (fun p hp => h p (by simp [hp]))

theorem get_foldl_set (g : Nat → α) (p : Nat → Bool) (l : Tab α) (t : Tab α) (k : Nat) :
    get d (l.foldl (fun acc e => if p e.1 then set d acc e.1 (g e.1) else acc) t) k =
      if p k = true ∧ ∃ e ∈ l, e.1 = k then g k else get d t k := by
  induction l generalizing t with
  | nil => simp
  | cons e l ih =>
    rw [List.foldl_cons, ih]
    by_cases hk : e.1 = k
    · subst hk
      by_cases hp : p e.1 = true <;> simp [hp]
    · have hm : (∃ x ∈ e :: l, x.1 = k) ↔ ∃ x ∈ l, x.1 = k := by simp [hk]
      by_cases hp : p e.1 = true <;> simp only [hp, hm, get_set, Ne.symm hk, if_true, if_false, Bool.false_eq_true]

/-- A cleared range reads as the default and every other key as before. -/
theorem get_clearRange (t : Tab α) (lo hi k : Nat) :
    get d (clearRange d t lo hi) k = if lo ≤ k ∧ k < hi then d else get d t k := by
  have h := get_foldl_set (d := d) (fun _ => d) (fun k => decide (lo ≤ k ∧ k < hi)) t t k
  simp only [decide_eq_true_eq] at h
  rw [clearRange, h]
  by_cases hr : lo ≤ k ∧ k < hi
  · by_cases hl : ∃ e ∈ t, e.1 = k
    · simp [hr, hl]
    · rw [if_neg (fun x => hl x.2), if_pos hr]
      exact get_unlisted (fun p hp e => hl ⟨p, hp, e⟩)
  · rw [if_neg (fun x => hr x.1), if_neg hr]

/-- A mapped table reads as the map of what it read, where the map keeps the default. -/
theorem get_mapVals (f : Nat → α → α) (hf : ∀ k, f k d = d) (t : Tab α) (k : Nat) :
    get d (mapVals d f t) k = f k (get d t k) := by
  have h := get_foldl_set (d := d) (fun k => f k (get d t k)) (fun _ => true) t [] k
  simp only [true_and, if_true] at h
  rw [mapVals, h]
  split
  · rfl
  · next hl =>
    rw [get_unlisted (t := t) (fun p hp e => hl ⟨p, hp, e⟩), hf]
    rfl
end Sys2Proof.Tab
end

