-- ==== Sys2Proof/Laws/KeptBase.lean ====
section
/-! SUPPORT. Relations between a state and the one an operation makes of it: which of the fuses, the life counters, the queue
and memory they share, with the folds, conditionals and pairs that operations are built of. -/

namespace Sys2Proof.Machine

@[simp] theorem foldl_copies {α : Type} (f : State → α → State) (h : ∀ s x, (f s x).lc.copies = s.lc.copies) (l : List α) (s : State) :
    (l.foldl f s).lc.copies = s.lc.copies := by
  induction l generalizing s with
  | nil => rfl
  | cons x xs ih => simp [ih, h]

@[simp] theorem foldl_life {α : Type} (f : State → α → State) (h : ∀ s x, (f s x).fv.life = s.fv.life) (l : List α) (s : State) :
    (l.foldl f s).fv.life = s.fv.life := by
  induction l generalizing s with
  | nil => rfl
  | cons x xs ih => simp [ih, h]

@[simp] theorem foldl_pending {α : Type} (f : State → α → State) (h : ∀ s x, (f s x).pending = s.pending) (l : List α) (s : State) :
    (l.foldl f s).pending = s.pending := by
  induction l generalizing s with
  | nil => rfl
  | cons x xs ih => simp [ih, h]

@[simp] theorem ite_copies (c : Prop) [Decidable c] (s t : State) :
    (if c then s else t).lc.copies = if c then s.lc.copies else t.lc.copies := by split <;> rfl

@[simp] theorem ite_life (c : Prop) [Decidable c] (s t : State) :
    (if c then s else t).fv.life = if c then s.fv.life else t.fv.life := by split <;> rfl

@[simp] theorem ite_pending (c : Prop) [Decidable c] (s t : State) :
    (if c then s else t).pending = if c then s.pending else t.pending := by split <;> rfl

@[simp] theorem foldr_copies {α : Type} (f : α → State → State) (h : ∀ x s, (f x s).lc.copies = s.lc.copies) (l : List α) (s : State) :
    (l.foldr f s).lc.copies = s.lc.copies := by
  induction l generalizing s with
  | nil => rfl
  | cons x xs ih => simp [ih, h]

@[simp] theorem foldr_life {α : Type} (f : α → State → State) (h : ∀ x s, (f x s).fv.life = s.fv.life) (l : List α) (s : State) :
    (l.foldr f s).fv.life = s.fv.life := by
  induction l generalizing s with
  | nil => rfl
  | cons x xs ih => simp [ih, h]

@[simp] theorem foldr_pending {α : Type} (f : α → State → State) (h : ∀ x s, (f x s).pending = s.pending) (l : List α) (s : State) :
    (l.foldr f s).pending = s.pending := by
  induction l generalizing s with
  | nil => rfl
  | cons x xs ih => simp [ih, h]

@[simp] theorem foldl_fst_copies {α β : Type} (f : State × β → α → State × β) (h : ∀ p x, (f p x).1.lc.copies = p.1.lc.copies) (l : List α) (p : State × β) :
    (l.foldl f p).1.lc.copies = p.1.lc.copies := by
  induction l generalizing p with
  | nil => rfl
  | cons x xs ih => simp [ih, h]

@[simp] theorem foldl_fst_life {α β : Type} (f : State × β → α → State × β) (h : ∀ p x, (f p x).1.fv.life = p.1.fv.life) (l : List α) (p : State × β) :
    (l.foldl f p).1.fv.life = p.1.fv.life := by
  induction l generalizing p with
  | nil => rfl
  | cons x xs ih => simp [ih, h]

@[simp] theorem foldl_fst_pending {α β : Type} (f : State × β → α → State × β) (h : ∀ p x, (f p x).1.pending = p.1.pending) (l : List α) (p : State × β) :
    (l.foldl f p).1.pending = p.1.pending := by
  induction l generalizing p with
  | nil => rfl
  | cons x xs ih => simp [ih, h]

@[simp] theorem foldl_snd_copies {α β : Type} (f : β × State → α → β × State) (h : ∀ p x, (f p x).2.lc.copies = p.2.lc.copies) (l : List α) (p : β × State) :
    (l.foldl f p).2.lc.copies = p.2.lc.copies := by
  induction l generalizing p with
  | nil => rfl
  | cons x xs ih => simp [ih, h]

@[simp] theorem foldl_snd_life {α β : Type} (f : β × State → α → β × State) (h : ∀ p x, (f p x).2.fv.life = p.2.fv.life) (l : List α) (p : β × State) :
    (l.foldl f p).2.fv.life = p.2.fv.life := by
  induction l generalizing p with
  | nil => rfl
  | cons x xs ih => simp [ih, h]

@[simp] theorem foldl_snd_pending {α β : Type} (f : β × State → α → β × State) (h : ∀ p x, (f p x).2.pending = p.2.pending) (l : List α) (p : β × State) :
    (l.foldl f p).2.pending = p.2.pending := by
  induction l generalizing p with
  | nil => rfl
  | cons x xs ih => simp [ih, h]

@[simp] theorem foldl_thd_copies {α β γ : Type} (f : β × γ × State → α → β × γ × State) (h : ∀ p x, (f p x).2.2.lc.copies = p.2.2.lc.copies) (l : List α) (p : β × γ × State) :
    (l.foldl f p).2.2.lc.copies = p.2.2.lc.copies := by
  induction l generalizing p with
  | nil => rfl
  | cons x xs ih => simp [ih, h]

@[simp] theorem foldl_thd_life {α β γ : Type} (f : β × γ × State → α → β × γ × State) (h : ∀ p x, (f p x).2.2.fv.life = p.2.2.fv.life) (l : List α) (p : β × γ × State) :
    (l.foldl f p).2.2.fv.life = p.2.2.fv.life := by
  induction l generalizing p with
  | nil => rfl
  | cons x xs ih => simp [ih, h]

@[simp] theorem foldl_thd_pending {α β γ : Type} (f : β × γ × State → α → β × γ × State) (h : ∀ p x, (f p x).2.2.pending = p.2.2.pending) (l : List α) (p : β × γ × State) :
    (l.foldl f p).2.2.pending = p.2.2.pending := by
  induction l generalizing p with
  | nil => rfl
  | cons x xs ih => simp [ih, h]

/-- Two states agree in the fuse copies, the lifetime counters and the queue. -/
def SameAll (t s : State) : Prop := t.lc.copies = s.lc.copies ∧ t.fv.life = s.fv.life ∧ t.pending = s.pending

/-- Two states agree in the fuse copies and the queue. -/
def SameCp (t s : State) : Prop := t.lc.copies = s.lc.copies ∧ t.pending = s.pending

/-- Two states agree in the lifetime counters and the queue. -/
def SameLp (t s : State) : Prop := t.fv.life = s.fv.life ∧ t.pending = s.pending

/-- Two states agree in the fuse copies and the lifetime counters. -/
def SameCl (t s : State) : Prop := t.lc.copies = s.lc.copies ∧ t.fv.life = s.fv.life

/-- Two states agree in the queue. -/
def SamePd (t s : State) : Prop := t.pending = s.pending

theorem ite_of {α : Type} {P : α → Prop} {c : Prop} [Decidable c] {a b : α} (h1 : P a) (h2 : P b) : P (if c then a else b) := by
  split <;> assumption

theorem SameAll.foldl {α : Type} {f : State → α → State} (h : ∀ s x, SameAll (f s x) s) (l : List α) (s : State) : SameAll (l.foldl f s) s := by
  induction l generalizing s with
  | nil => simp [SameAll]
  | cons x xs ih => have h1 := ih (f s x); have h2 := h s x; simp only [List.foldl_cons, SameAll] at *; simp [h1, h2]

theorem SameAll.foldr {α : Type} {f : α → State → State} (h : ∀ x s, SameAll (f x s) s) (l : List α) (s : State) : SameAll (l.foldr f s) s := by
  induction l with
  | nil => simp [SameAll]
  | cons x xs ih => have h2 := h x (xs.foldr f s); simp only [List.foldr_cons, SameAll] at *; simp [ih, h2]

theorem SameAll.refl (s : State) : SameAll s s := by simp [SameAll]

theorem SameAll.trans {t u s : State} (a : SameAll t u) (b : SameAll u s) : SameAll t s := ⟨a.1.trans b.1, a.2.1.trans b.2.1, a.2.2.trans b.2.2⟩

theorem SameCp.foldl {α : Type} {f : State → α → State} (h : ∀ s x, SameCp (f s x) s) (l : List α) (s : State) : SameCp (l.foldl f s) s := by
  induction l generalizing s with
  | nil => simp [SameCp]
  | cons x xs ih => have h1 := ih (f s x); have h2 := h s x; simp only [List.foldl_cons, SameCp] at *; simp [h1, h2]

theorem SameCp.foldr {α : Type} {f : α → State → State} (h : ∀ x s, SameCp (f x s) s) (l : List α) (s : State) : SameCp (l.foldr f s) s := by
  induction l with
  | nil => simp [SameCp]
  | cons x xs ih => have h2 := h x (xs.foldr f s); simp only [List.foldr_cons, SameCp] at *; simp [ih, h2]

theorem SameCp.refl (s : State) : SameCp s s := by simp [SameCp]

theorem SameCp.trans {t u s : State} (a : SameCp t u) (b : SameCp u s) : SameCp t s := ⟨a.1.trans b.1, a.2.trans b.2⟩

theorem SameLp.foldl {α : Type} {f : State → α → State} (h : ∀ s x, SameLp (f s x) s) (l : List α) (s : State) : SameLp (l.foldl f s) s := by
  induction l generalizing s with
  | nil => simp [SameLp]
  | cons x xs ih => have h1 := ih (f s x); have h2 := h s x; simp only [List.foldl_cons, SameLp] at *; simp [h1, h2]

theorem SameLp.foldr {α : Type} {f : α → State → State} (h : ∀ x s, SameLp (f x s) s) (l : List α) (s : State) : SameLp (l.foldr f s) s := by
  induction l with
  | nil => simp [SameLp]
  | cons x xs ih => have h2 := h x (xs.foldr f s); simp only [List.foldr_cons, SameLp] at *; simp [ih, h2]

theorem SameLp.refl (s : State) : SameLp s s := by simp [SameLp]

theorem SameLp.trans {t u s : State} (a : SameLp t u) (b : SameLp u s) : SameLp t s := ⟨a.1.trans b.1, a.2.trans b.2⟩

theorem SameCl.foldl {α : Type} {f : State → α → State} (h : ∀ s x, SameCl (f s x) s) (l : List α) (s : State) : SameCl (l.foldl f s) s := by
  induction l generalizing s with
  | nil => simp [SameCl]
  | cons x xs ih => have h1 := ih (f s x); have h2 := h s x; simp only [List.foldl_cons, SameCl] at *; simp [h1, h2]

theorem SameCl.foldr {α : Type} {f : α → State → State} (h : ∀ x s, SameCl (f x s) s) (l : List α) (s : State) : SameCl (l.foldr f s) s := by
  induction l with
  | nil => simp [SameCl]
  | cons x xs ih => have h2 := h x (xs.foldr f s); simp only [List.foldr_cons, SameCl] at *; simp [ih, h2]

theorem SameCl.refl (s : State) : SameCl s s := by simp [SameCl]

theorem SameCl.trans {t u s : State} (a : SameCl t u) (b : SameCl u s) : SameCl t s := ⟨a.1.trans b.1, a.2.trans b.2⟩

theorem SamePd.foldl {α : Type} {f : State → α → State} (h : ∀ s x, SamePd (f s x) s) (l : List α) (s : State) : SamePd (l.foldl f s) s := by
  induction l generalizing s with
  | nil => simp [SamePd]
  | cons x xs ih => have h1 := ih (f s x); have h2 := h s x; simp only [List.foldl_cons, SamePd] at *; simp [h1, h2]

theorem SamePd.foldr {α : Type} {f : α → State → State} (h : ∀ x s, SamePd (f x s) s) (l : List α) (s : State) : SamePd (l.foldr f s) s := by
  induction l with
  | nil => simp [SamePd]
  | cons x xs ih => have h2 := h x (xs.foldr f s); simp only [List.foldr_cons, SamePd] at *; simp [ih, h2]

theorem SamePd.refl (s : State) : SamePd s s := by simp [SamePd]

theorem SamePd.trans {t u s : State} (a : SamePd t u) (b : SamePd u s) : SamePd t s := Eq.trans (show _ = _ from a) (show _ = _ from b)

@[simp] theorem ite_snd {α β : Type} (c : Prop) [Decidable c] (p q : α × β) :
    (if c then p else q).2 = if c then p.2 else q.2 := by split <;> rfl

@[simp] theorem ite_fst {α β : Type} (c : Prop) [Decidable c] (p q : α × β) :
    (if c then p else q).1 = if c then p.1 else q.1 := by split <;> rfl

/-- Two states have the same memory. -/
def SameMem (t s : State) : Prop := t.mem = s.mem

/-- A canonical memory stays canonical. -/
structure KeepMem (t s : State) : Prop where
  keep : Memory.wf s.mem = true → Memory.wf t.mem = true

theorem SameMem.refl (s : State) : SameMem s s := rfl
theorem SameMem.trans {t u s : State} (a : SameMem t u) (b : SameMem u s) : SameMem t s := Eq.trans (show _ = _ from a) (show _ = _ from b)
theorem KeepMem.refl (s : State) : KeepMem s s := ⟨id⟩
theorem KeepMem.trans {t u s : State} (a : KeepMem t u) (b : KeepMem u s) : KeepMem t s := ⟨fun h => a.keep (b.keep h)⟩
theorem KeepMem.of_eq {t s : State} (a : t.mem = s.mem) : KeepMem t s := ⟨fun h => by rw [a]; exact h⟩
theorem KeepMem.record (s : State) (a2 : TimeUnit) (a3 : Bridle) (a4 : AlertTree) (a5 : Ledger) (a6 : TackUnit) (a7 : CinchUnit)
    (a8 : Casrun) (a9 : PacerUnit) (b1 : UnitService) (b2 : StableUnit) (b3 : CipherUnit) (b4 : PkeUnit) (b5 : InlineUnit)
    (b6 : TamperUnit) (b7 : VaultUnit) (b8 : CvPool) (b9 : CardUnit) (c1 : NfUnit) (c2 : PowerUnit) (c3 : LifeUnit) (c4 : DictUnit)
    (c5 : Tab W32) (c6 : Nat) (c7 : List WaitReq) (c8 : List Instr) :
    KeepMem ⟨s.mem, a2, a3, a4, a5, a6, a7, a8, a9, b1, b2, b3, b4, b5, b6, b7, b8, b9, c1, c2, c3, c4, c5, c6, c7, c8⟩ s := ⟨id⟩
theorem KeepMem.of_same {t s : State} (a : SameMem t s) : KeepMem t s := KeepMem.of_eq a

theorem SameMem.foldl {α : Type} {f : State → α → State} (h : ∀ s x, SameMem (f s x) s) (l : List α) (s : State) : SameMem (l.foldl f s) s := by
  induction l generalizing s with
  | nil => exact SameMem.refl _
  | cons x xs ih => exact (ih _).trans (h s x)

theorem SameMem.foldr {α : Type} {f : α → State → State} (h : ∀ x s, SameMem (f x s) s) (l : List α) (s : State) : SameMem (l.foldr f s) s := by
  induction l with
  | nil => exact SameMem.refl _
  | cons x xs ih => exact (h x _).trans ih

theorem KeepMem.foldl {α : Type} {f : State → α → State} (h : ∀ s x, KeepMem (f s x) s) (l : List α) (s : State) : KeepMem (l.foldl f s) s := by
  induction l generalizing s with
  | nil => exact KeepMem.refl _
  | cons x xs ih => exact (ih _).trans (h s x)

theorem KeepMem.foldr {α : Type} {f : α → State → State} (h : ∀ x s, KeepMem (f x s) s) (l : List α) (s : State) : KeepMem (l.foldr f s) s := by
  induction l with
  | nil => exact KeepMem.refl _
  | cons x xs ih => exact (h x _).trans ih

theorem KeepMem.foldl_fst {α β : Type} {f : State × β → α → State × β} (h : ∀ p x, KeepMem (f p x).1 p.1) (l : List α) (p : State × β) :
    KeepMem (l.foldl f p).1 p.1 := by
  induction l generalizing p with
  | nil => exact KeepMem.refl _
  | cons x xs ih => exact (ih _).trans (h p x)

theorem KeepMem.foldl_snd {α β : Type} {f : β × State → α → β × State} (h : ∀ p x, KeepMem (f p x).2 p.2) (l : List α) (p : β × State) :
    KeepMem (l.foldl f p).2 p.2 := by
  induction l generalizing p with
  | nil => exact KeepMem.refl _
  | cons x xs ih => exact (ih _).trans (h p x)

theorem KeepMem.foldl_thd {α β γ : Type} {f : β × γ × State → α → β × γ × State} (h : ∀ p x, KeepMem (f p x).2.2 p.2.2) (l : List α) (p : β × γ × State) :
    KeepMem (l.foldl f p).2.2 p.2.2 := by
  induction l generalizing p with
  | nil => exact KeepMem.refl _
  | cons x xs ih => exact (ih _).trans (h p x)

@[simp] theorem ite_mem (c : Prop) [Decidable c] (s t : State) :
    (if c then s else t).mem = if c then s.mem else t.mem := by split <;> rfl

@[simp] theorem foldl_mem {α : Type} (f : State → α → State) (h : ∀ s x, (f s x).mem = s.mem) (l : List α) (s : State) :
    (l.foldl f s).mem = s.mem := by
  induction l generalizing s with
  | nil => rfl
  | cons x xs ih => simp [ih, h]

@[simp] theorem foldr_mem {α : Type} (f : α → State → State) (h : ∀ x s, (f x s).mem = s.mem) (l : List α) (s : State) :
    (l.foldr f s).mem = s.mem := by
  induction l with
  | nil => rfl
  | cons x xs ih => simp [ih, h]

@[simp] theorem foldl_fst_mem {α β : Type} (f : State × β → α → State × β) (h : ∀ p x, (f p x).1.mem = p.1.mem) (l : List α) (p : State × β) :
    (l.foldl f p).1.mem = p.1.mem := by
  induction l generalizing p with
  | nil => rfl
  | cons x xs ih => simp [ih, h]

@[simp] theorem foldl_snd_mem {α β : Type} (f : β × State → α → β × State) (h : ∀ p x, (f p x).2.mem = p.2.mem) (l : List α) (p : β × State) :
    (l.foldl f p).2.mem = p.2.mem := by
  induction l generalizing p with
  | nil => rfl
  | cons x xs ih => simp [ih, h]

@[simp] theorem foldl_thd_mem {α β γ : Type} (f : β × γ × State → α → β × γ × State) (h : ∀ p x, (f p x).2.2.mem = p.2.2.mem) (l : List α) (p : β × γ × State) :
    (l.foldl f p).2.2.mem = p.2.2.mem := by
  induction l generalizing p with
  | nil => rfl
  | cons x xs ih => simp [ih, h]

end Sys2Proof.Machine
end

