-- ==== Sys2Proof/Laws/KeptOps.lean ====
section
/-! SUPPORT. What each operation of Machine/Ops.lean keeps: the fuses, the life counters, the queue, and memory or its form. -/

namespace Sys2Proof.Machine

theorem drawNat_core (s : State) : SameAll (drawNat s).2 s := ⟨rfl, rfl, rfl⟩

@[simp] theorem drawNat_copies (s : State) : (drawNat s).2.lc.copies = s.lc.copies := (drawNat_core s).1

@[simp] theorem drawNat_life (s : State) : (drawNat s).2.fv.life = s.fv.life := (drawNat_core s).2.1

@[simp] theorem drawNat_pending (s : State) : (drawNat s).2.pending = s.pending := (drawNat_core s).2.2

theorem drawBytes_core (x0 : Nat) (s : State) : SameAll (drawBytes x0 s).2 s := by
  fun_induction drawBytes x0 s
  all_goals (first | (simp [SameAll]; done) | (simp_all [SameAll]; done) | grind [SameAll, drawNat_core])

@[simp] theorem drawBytes_copies (x0 : Nat) (s : State) : (drawBytes x0 s).2.lc.copies = s.lc.copies := (drawBytes_core x0 s).1

@[simp] theorem drawBytes_life (x0 : Nat) (s : State) : (drawBytes x0 s).2.fv.life = s.fv.life := (drawBytes_core x0 s).2.1

@[simp] theorem drawBytes_pending (x0 : Nat) (s : State) : (drawBytes x0 s).2.pending = s.pending := (drawBytes_core x0 s).2.2

theorem drawBelow_core (n : Nat) (s : State) : SameAll (drawBelow n s).2 s := ⟨rfl, rfl, rfl⟩

@[simp] theorem drawBelow_copies (n : Nat) (s : State) : (drawBelow n s).2.lc.copies = s.lc.copies := (drawBelow_core n s).1

@[simp] theorem drawBelow_life (n : Nat) (s : State) : (drawBelow n s).2.fv.life = s.fv.life := (drawBelow_core n s).2.1

@[simp] theorem drawBelow_pending (n : Nat) (s : State) : (drawBelow n s).2.pending = s.pending := (drawBelow_core n s).2.2

theorem noteRise_core (s0 s1 : State) : SameAll (noteRise s0 s1) s1 := by simp [noteRise, SameAll]

@[simp] theorem noteRise_copies (s0 s1 : State) : (noteRise s0 s1).lc.copies = s1.lc.copies := (noteRise_core s0 s1).1

@[simp] theorem noteRise_life (s0 s1 : State) : (noteRise s0 s1).fv.life = s1.fv.life := (noteRise_core s0 s1).2.1

@[simp] theorem noteRise_pending (s0 s1 : State) : (noteRise s0 s1).pending = s1.pending := (noteRise_core s0 s1).2.2

theorem setEvent_core (w bit : Nat) (s : State) : SameAll (setEvent w bit s) s := by simp [setEvent, SameAll]

@[simp] theorem setEvent_copies (w bit : Nat) (s : State) : (setEvent w bit s).lc.copies = s.lc.copies := (setEvent_core w bit s).1

@[simp] theorem setEvent_life (w bit : Nat) (s : State) : (setEvent w bit s).fv.life = s.fv.life := (setEvent_core w bit s).2.1

@[simp] theorem setEvent_pending (w bit : Nat) (s : State) : (setEvent w bit s).pending = s.pending := (setEvent_core w bit s).2.2

theorem clearEvents_core (w : Nat) (ones : W32) (s : State) : SameAll (clearEvents w ones s) s := ⟨rfl, rfl, rfl⟩

@[simp] theorem clearEvents_copies (w : Nat) (ones : W32) (s : State) : (clearEvents w ones s).lc.copies = s.lc.copies := (clearEvents_core w ones s).1

@[simp] theorem clearEvents_life (w : Nat) (ones : W32) (s : State) : (clearEvents w ones s).fv.life = s.fv.life := (clearEvents_core w ones s).2.1

@[simp] theorem clearEvents_pending (w : Nat) (ones : W32) (s : State) : (clearEvents w ones s).pending = s.pending := (clearEvents_core w ones s).2.2

theorem setEventIf_core (c : Bool) (w bit : Nat) (s : State) : SameAll (setEventIf c w bit s) s := by simp [setEventIf, SameAll]

@[simp] theorem setEventIf_copies (c : Bool) (w bit : Nat) (s : State) : (setEventIf c w bit s).lc.copies = s.lc.copies := (setEventIf_core c w bit s).1

@[simp] theorem setEventIf_life (c : Bool) (w bit : Nat) (s : State) : (setEventIf c w bit s).fv.life = s.fv.life := (setEventIf_core c w bit s).2.1

@[simp] theorem setEventIf_pending (c : Bool) (w bit : Nat) (s : State) : (setEventIf c w bit s).pending = s.pending := (setEventIf_core c w bit s).2.2

theorem itemAddQuiet_core (code n : Nat) (s : State) : SameAll (itemAddQuiet code n s) s := ⟨rfl, rfl, rfl⟩

@[simp] theorem itemAddQuiet_copies (code n : Nat) (s : State) : (itemAddQuiet code n s).lc.copies = s.lc.copies := (itemAddQuiet_core code n s).1

@[simp] theorem itemAddQuiet_life (code n : Nat) (s : State) : (itemAddQuiet code n s).fv.life = s.fv.life := (itemAddQuiet_core code n s).2.1

@[simp] theorem itemAddQuiet_pending (code n : Nat) (s : State) : (itemAddQuiet code n s).pending = s.pending := (itemAddQuiet_core code n s).2.2

theorem itemAdd_core (code n : Nat) (s : State) : SameAll (itemAdd code n s) s := ⟨rfl, rfl, rfl⟩

@[simp] theorem itemAdd_copies (code n : Nat) (s : State) : (itemAdd code n s).lc.copies = s.lc.copies := (itemAdd_core code n s).1

@[simp] theorem itemAdd_life (code n : Nat) (s : State) : (itemAdd code n s).fv.life = s.fv.life := (itemAdd_core code n s).2.1

@[simp] theorem itemAdd_pending (code n : Nat) (s : State) : (itemAdd code n s).pending = s.pending := (itemAdd_core code n s).2.2

theorem itemSet_core (code v : Nat) (s : State) : SameAll (itemSet code v s) s := by simp [itemSet, SameAll]

@[simp] theorem itemSet_copies (code v : Nat) (s : State) : (itemSet code v s).lc.copies = s.lc.copies := (itemSet_core code v s).1

@[simp] theorem itemSet_life (code v : Nat) (s : State) : (itemSet code v s).fv.life = s.fv.life := (itemSet_core code v s).2.1

@[simp] theorem itemSet_pending (code v : Nat) (s : State) : (itemSet code v s).pending = s.pending := (itemSet_core code v s).2.2

theorem ledgerEvent_core (code detail : Nat) (conts : List Nat) (s : State) : SameAll (ledgerEvent code detail conts s) s := by simp [ledgerEvent, SameAll]

@[simp] theorem ledgerEvent_copies (code detail : Nat) (conts : List Nat) (s : State) : (ledgerEvent code detail conts s).lc.copies = s.lc.copies := (ledgerEvent_core code detail conts s).1

@[simp] theorem ledgerEvent_life (code detail : Nat) (conts : List Nat) (s : State) : (ledgerEvent code detail conts s).fv.life = s.fv.life := (ledgerEvent_core code detail conts s).2.1

@[simp] theorem ledgerEvent_pending (code detail : Nat) (conts : List Nat) (s : State) : (ledgerEvent code detail conts s).pending = s.pending := (ledgerEvent_core code detail conts s).2.2

theorem putByte_core (s : State) (a : Nat) (b : Byte) : SameAll (putByte s a b) s := ⟨rfl, rfl, rfl⟩

@[simp] theorem putByte_copies (s : State) (a : Nat) (b : Byte) : (putByte s a b).lc.copies = s.lc.copies := (putByte_core s a b).1

@[simp] theorem putByte_life (s : State) (a : Nat) (b : Byte) : (putByte s a b).fv.life = s.fv.life := (putByte_core s a b).2.1

@[simp] theorem putByte_pending (s : State) (a : Nat) (b : Byte) : (putByte s a b).pending = s.pending := (putByte_core s a b).2.2

theorem putBytes_core (s : State) (x1 : Nat) (x2 : List Byte) : SameAll (putBytes s x1 x2) s := by
  fun_induction putBytes s x1 x2
  all_goals simp_all [SameAll]

@[simp] theorem putBytes_copies (s : State) (x1 : Nat) (x2 : List Byte) : (putBytes s x1 x2).lc.copies = s.lc.copies := (putBytes_core s x1 x2).1

@[simp] theorem putBytes_life (s : State) (x1 : Nat) (x2 : List Byte) : (putBytes s x1 x2).fv.life = s.fv.life := (putBytes_core s x1 x2).2.1

@[simp] theorem putBytes_pending (s : State) (x1 : Nat) (x2 : List Byte) : (putBytes s x1 x2).pending = s.pending := (putBytes_core s x1 x2).2.2

theorem ramWrite_core (s : State) (a : Nat) (bs : List Byte) : SameAll (ramWrite s a bs).1 s := by simp [ramWrite, SameAll]

@[simp] theorem ramWrite_copies (s : State) (a : Nat) (bs : List Byte) : (ramWrite s a bs).1.lc.copies = s.lc.copies := (ramWrite_core s a bs).1

@[simp] theorem ramWrite_life (s : State) (a : Nat) (bs : List Byte) : (ramWrite s a bs).1.fv.life = s.fv.life := (ramWrite_core s a bs).2.1

@[simp] theorem ramWrite_pending (s : State) (a : Nat) (bs : List Byte) : (ramWrite s a bs).1.pending = s.pending := (ramWrite_core s a bs).2.2

theorem raiseLeaf_core (v : Nat) (s : State) : SameAll (raiseLeaf v s) s := by simp [raiseLeaf, SameAll]

@[simp] theorem raiseLeaf_copies (v : Nat) (s : State) : (raiseLeaf v s).lc.copies = s.lc.copies := (raiseLeaf_core v s).1

@[simp] theorem raiseLeaf_life (v : Nat) (s : State) : (raiseLeaf v s).fv.life = s.fv.life := (raiseLeaf_core v s).2.1

@[simp] theorem raiseLeaf_pending (v : Nat) (s : State) : (raiseLeaf v s).pending = s.pending := (raiseLeaf_core v s).2.2

theorem eccFound_core (area : Nat) (s : State) : SameAll (eccFound area s) s := by simp [eccFound, SameAll]

@[simp] theorem eccFound_copies (area : Nat) (s : State) : (eccFound area s).lc.copies = s.lc.copies := (eccFound_core area s).1

@[simp] theorem eccFound_life (area : Nat) (s : State) : (eccFound area s).fv.life = s.fv.life := (eccFound_core area s).2.1

@[simp] theorem eccFound_pending (area : Nat) (s : State) : (eccFound area s).pending = s.pending := (eccFound_core area s).2.2

theorem noteUncorrectable_core (a : Nat) (s : State) : SameAll (noteUncorrectable a s) s := by simp [noteUncorrectable, SameAll]

@[simp] theorem noteUncorrectable_copies (a : Nat) (s : State) : (noteUncorrectable a s).lc.copies = s.lc.copies := (noteUncorrectable_core a s).1

@[simp] theorem noteUncorrectable_life (a : Nat) (s : State) : (noteUncorrectable a s).fv.life = s.fv.life := (noteUncorrectable_core a s).2.1

@[simp] theorem noteUncorrectable_pending (a : Nat) (s : State) : (noteUncorrectable a s).pending = s.pending := (noteUncorrectable_core a s).2.2

theorem hostPut_core (s : State) (a : Nat) (bs : List Byte) : SameAll (hostPut s a bs) s := ⟨rfl, rfl, rfl⟩

@[simp] theorem hostPut_copies (s : State) (a : Nat) (bs : List Byte) : (hostPut s a bs).lc.copies = s.lc.copies := (hostPut_core s a bs).1

@[simp] theorem hostPut_life (s : State) (a : Nat) (bs : List Byte) : (hostPut s a bs).fv.life = s.fv.life := (hostPut_core s a bs).2.1

@[simp] theorem hostPut_pending (s : State) (a : Nat) (bs : List Byte) : (hostPut s a bs).pending = s.pending := (hostPut_core s a bs).2.2

theorem drawNat_same (s : State) : SameMem (drawNat s).2 s := rfl

@[simp] theorem drawNat_mem (s : State) : (drawNat s).2.mem = s.mem := drawNat_same s

theorem drawBytes_same (x0 : Nat) (s : State) : SameMem (drawBytes x0 s).2 s := by
  fun_induction drawBytes x0 s
  all_goals (first | (simp [SameMem]; done) | (simp_all [SameMem]; done) | grind [SameMem, drawNat_same])

@[simp] theorem drawBytes_mem (x0 : Nat) (s : State) : (drawBytes x0 s).2.mem = s.mem := drawBytes_same x0 s

theorem drawBelow_same (n : Nat) (s : State) : SameMem (drawBelow n s).2 s := rfl

@[simp] theorem drawBelow_mem (n : Nat) (s : State) : (drawBelow n s).2.mem = s.mem := drawBelow_same n s

theorem noteRise_same (s0 s1 : State) : SameMem (noteRise s0 s1) s1 := by simp [noteRise, SameMem]

@[simp] theorem noteRise_mem (s0 s1 : State) : (noteRise s0 s1).mem = s1.mem := noteRise_same s0 s1

theorem setEvent_same (w bit : Nat) (s : State) : SameMem (setEvent w bit s) s := by simp [setEvent, SameMem]

@[simp] theorem setEvent_mem (w bit : Nat) (s : State) : (setEvent w bit s).mem = s.mem := setEvent_same w bit s

theorem clearEvents_same (w : Nat) (ones : W32) (s : State) : SameMem (clearEvents w ones s) s := rfl

@[simp] theorem clearEvents_mem (w : Nat) (ones : W32) (s : State) : (clearEvents w ones s).mem = s.mem := clearEvents_same w ones s

theorem setEventIf_same (c : Bool) (w bit : Nat) (s : State) : SameMem (setEventIf c w bit s) s := by simp [setEventIf, SameMem]

@[simp] theorem setEventIf_mem (c : Bool) (w bit : Nat) (s : State) : (setEventIf c w bit s).mem = s.mem := setEventIf_same c w bit s

theorem itemAddQuiet_same (code n : Nat) (s : State) : SameMem (itemAddQuiet code n s) s := rfl

@[simp] theorem itemAddQuiet_mem (code n : Nat) (s : State) : (itemAddQuiet code n s).mem = s.mem := itemAddQuiet_same code n s

theorem itemAdd_same (code n : Nat) (s : State) : SameMem (itemAdd code n s) s := rfl

@[simp] theorem itemAdd_mem (code n : Nat) (s : State) : (itemAdd code n s).mem = s.mem := itemAdd_same code n s

theorem itemSet_same (code v : Nat) (s : State) : SameMem (itemSet code v s) s := by simp [itemSet, SameMem]

@[simp] theorem itemSet_mem (code v : Nat) (s : State) : (itemSet code v s).mem = s.mem := itemSet_same code v s

theorem ledgerEvent_same (code detail : Nat) (conts : List Nat) (s : State) : SameMem (ledgerEvent code detail conts s) s := by simp [ledgerEvent, SameMem]

@[simp] theorem ledgerEvent_mem (code detail : Nat) (conts : List Nat) (s : State) : (ledgerEvent code detail conts s).mem = s.mem := ledgerEvent_same code detail conts s

theorem memWf_iff (m : Memory) : Memory.wf m = true ↔
    Tab.wf 0 m.ram = true ∧ Tab.wf false m.poison = true ∧ Tab.wf false m.tags = true ∧ Tab.wf 0 m.host = true := by
  simp [Memory.wf, and_assoc]

theorem reset_memory_wf : Memory.wf State.reset.mem = true := by decide

theorem putByte_wf (s : State) (a : Nat) (b : Byte) : KeepMem (putByte s a b) s := by
  refine ⟨fun h => ?_⟩
  rw [memWf_iff] at h ⊢
  exact ⟨Tab.set_wf _ _ h.1, h.2.1, Tab.set_wf _ _ h.2.2.1, h.2.2.2⟩

theorem putBytes_wf (s : State) (a : Nat) (bs : List Byte) : KeepMem (putBytes s a bs) s := by
  induction bs generalizing s a with
  | nil => exact KeepMem.refl _
  | cons b bs ih => exact (ih _ _).trans (putByte_wf s a b)

theorem clearKeys_wf (ps : List (Nat × Bool)) (t : Tab Bool) (h : Tab.wf false t = true) :
    Tab.wf false (ps.foldl (fun t p => Tab.set false t p.1 false) t) = true := by
  induction ps generalizing t with
  | nil => exact h
  | cons p ps ih => exact ih _ (Tab.set_wf _ _ h)

theorem ramWrite_wf (s : State) (a : Nat) (bs : List Byte) : KeepMem (ramWrite s a bs).1 s := by
  have key : ∀ ps : List (Nat × Bool), KeepMem { s with mem := { s.mem with
      poison := ps.foldl (fun t p => Tab.set false t p.1 false) s.mem.poison } } s := by
    refine fun ps => ⟨fun h => ?_⟩
    rw [memWf_iff] at h ⊢
    exact ⟨h.1, clearKeys_wf _ _ h.2.1, h.2.2⟩
  unfold ramWrite
  refine ite_of (P := fun r : State × Bool => KeepMem r.1 s) ?_ ?_
  · exact (putBytes_wf _ _ _).trans (key _)
  · refine KeepMem.trans (KeepMem.foldl (fun st p => ?_) _ _) (key _)
    split
    · exact KeepMem.refl _
    · exact putByte_wf _ _ _

theorem raiseLeaf_same (v : Nat) (s : State) : SameMem (raiseLeaf v s) s := by simp [raiseLeaf, SameMem]

@[simp] theorem raiseLeaf_mem (v : Nat) (s : State) : (raiseLeaf v s).mem = s.mem := raiseLeaf_same v s

theorem eccFound_same (area : Nat) (s : State) : SameMem (eccFound area s) s := by simp [eccFound, SameMem]

@[simp] theorem eccFound_mem (area : Nat) (s : State) : (eccFound area s).mem = s.mem := eccFound_same area s

theorem noteUncorrectable_same (a : Nat) (s : State) : SameMem (noteUncorrectable a s) s := by simp [noteUncorrectable, SameMem]

@[simp] theorem noteUncorrectable_mem (a : Nat) (s : State) : (noteUncorrectable a s).mem = s.mem := noteUncorrectable_same a s

theorem hostPut_wf (s : State) (a : Nat) (bs : List Byte) : KeepMem (hostPut s a bs) s := by
  refine ⟨fun h => ?_⟩
  rw [memWf_iff] at h ⊢
  exact ⟨h.1, h.2.1, h.2.2.1, Tab.setSlice_wf _ _ h.2.2.2⟩

end Sys2Proof.Machine
end

