-- ==== Sys2Proof/Laws/KeptTime.lean ====
section
/-! SUPPORT. What each operation of Machine/Time.lean keeps: the fuses, the life counters, the queue, and memory or its form. -/

namespace Sys2Proof.Machine

theorem noteUnsure_core (s : State) : SameAll (noteUnsure s) s := by simp [noteUnsure, SameAll]

@[simp] theorem noteUnsure_copies (s : State) : (noteUnsure s).lc.copies = s.lc.copies := (noteUnsure_core s).1

@[simp] theorem noteUnsure_life (s : State) : (noteUnsure s).fv.life = s.fv.life := (noteUnsure_core s).2.1

@[simp] theorem noteUnsure_pending (s : State) : (noteUnsure s).pending = s.pending := (noteUnsure_core s).2.2

theorem freeRate_core (s : State) : SameAll (freeRate s).2 s := ⟨rfl, rfl, rfl⟩

@[simp] theorem freeRate_copies (s : State) : (freeRate s).2.lc.copies = s.lc.copies := (freeRate_core s).1

@[simp] theorem freeRate_life (s : State) : (freeRate s).2.fv.life = s.fv.life := (freeRate_core s).2.1

@[simp] theorem freeRate_pending (s : State) : (freeRate s).2.pending = s.pending := (freeRate_core s).2.2

theorem acceptSample_core (off : Int) (clockId : W64) (s : State) : SameAll (acceptSample off clockId s) s := by simp [acceptSample, SameAll]

@[simp] theorem acceptSample_copies (off : Int) (clockId : W64) (s : State) : (acceptSample off clockId s).lc.copies = s.lc.copies := (acceptSample_core off clockId s).1

@[simp] theorem acceptSample_life (off : Int) (clockId : W64) (s : State) : (acceptSample off clockId s).fv.life = s.fv.life := (acceptSample_core off clockId s).2.1

@[simp] theorem acceptSample_pending (off : Int) (clockId : W64) (s : State) : (acceptSample off clockId s).pending = s.pending := (acceptSample_core off clockId s).2.2

theorem loseMaster_core (s : State) : SameAll (loseMaster s) s := by simp [loseMaster, SameAll]

@[simp] theorem loseMaster_copies (s : State) : (loseMaster s).lc.copies = s.lc.copies := (loseMaster_core s).1

@[simp] theorem loseMaster_life (s : State) : (loseMaster s).fv.life = s.fv.life := (loseMaster_core s).2.1

@[simp] theorem loseMaster_pending (s : State) : (loseMaster s).pending = s.pending := (loseMaster_core s).2.2

theorem takeSample_core (off : Int) (clockId : W64) (s : State) : SameAll (takeSample off clockId s) s := by simp [takeSample, SameAll]

@[simp] theorem takeSample_copies (off : Int) (clockId : W64) (s : State) : (takeSample off clockId s).lc.copies = s.lc.copies := (takeSample_core off clockId s).1

@[simp] theorem takeSample_life (off : Int) (clockId : W64) (s : State) : (takeSample off clockId s).fv.life = s.fv.life := (takeSample_core off clockId s).2.1

@[simp] theorem takeSample_pending (off : Int) (clockId : W64) (s : State) : (takeSample off clockId s).pending = s.pending := (takeSample_core off clockId s).2.2

theorem completeSync_core (clockId : W64) (t1 t2 corr : Nat) (s : State) : SameAll (completeSync clockId t1 t2 corr s) s := by simp [completeSync, SameAll]

@[simp] theorem completeSync_copies (clockId : W64) (t1 t2 corr : Nat) (s : State) : (completeSync clockId t1 t2 corr s).lc.copies = s.lc.copies := (completeSync_core clockId t1 t2 corr s).1

@[simp] theorem completeSync_life (clockId : W64) (t1 t2 corr : Nat) (s : State) : (completeSync clockId t1 t2 corr s).fv.life = s.fv.life := (completeSync_core clockId t1 t2 corr s).2.1

@[simp] theorem completeSync_pending (clockId : W64) (t1 t2 corr : Nat) (s : State) : (completeSync clockId t1 t2 corr s).pending = s.pending := (completeSync_core clockId t1 t2 corr s).2.2

theorem setPath_core (d : Int) (s : State) : SameAll (setPath d s) s := ⟨rfl, rfl, rfl⟩

@[simp] theorem setPath_copies (d : Int) (s : State) : (setPath d s).lc.copies = s.lc.copies := (setPath_core d s).1

@[simp] theorem setPath_life (d : Int) (s : State) : (setPath d s).fv.life = s.fv.life := (setPath_core d s).2.1

@[simp] theorem setPath_pending (d : Int) (s : State) : (setPath d s).pending = s.pending := (setPath_core d s).2.2

theorem reacquire_core (s : State) : SameAll (reacquire s) s := ⟨rfl, rfl, rfl⟩

@[simp] theorem reacquire_copies (s : State) : (reacquire s).lc.copies = s.lc.copies := (reacquire_core s).1

@[simp] theorem reacquire_life (s : State) : (reacquire s).fv.life = s.fv.life := (reacquire_core s).2.1

@[simp] theorem reacquire_pending (s : State) : (reacquire s).pending = s.pending := (reacquire_core s).2.2

theorem setCfg_core (v : W32) (s : State) : SameAll (setCfg v s) s := by simp [setCfg, SameAll]

@[simp] theorem setCfg_copies (v : W32) (s : State) : (setCfg v s).lc.copies = s.lc.copies := (setCfg_core v s).1

@[simp] theorem setCfg_life (v : W32) (s : State) : (setCfg v s).fv.life = s.fv.life := (setCfg_core v s).2.1

@[simp] theorem setCfg_pending (v : W32) (s : State) : (setCfg v s).pending = s.pending := (setCfg_core v s).2.2

theorem advanceTime_core (s : State) : SameAll (advanceTime s) s := by simp [advanceTime, SameAll]

@[simp] theorem advanceTime_copies (s : State) : (advanceTime s).lc.copies = s.lc.copies := (advanceTime_core s).1

@[simp] theorem advanceTime_life (s : State) : (advanceTime s).fv.life = s.fv.life := (advanceTime_core s).2.1

@[simp] theorem advanceTime_pending (s : State) : (advanceTime s).pending = s.pending := (advanceTime_core s).2.2

theorem writeShare_core (v : Nat) (s : State) : SameAll (writeShare v s) s := by simp [writeShare, SameAll]

@[simp] theorem writeShare_copies (v : Nat) (s : State) : (writeShare v s).lc.copies = s.lc.copies := (writeShare_core v s).1

@[simp] theorem writeShare_life (v : Nat) (s : State) : (writeShare v s).fv.life = s.fv.life := (writeShare_core v s).2.1

@[simp] theorem writeShare_pending (v : Nat) (s : State) : (writeShare v s).pending = s.pending := (writeShare_core v s).2.2

theorem noteUnsure_same (s : State) : SameMem (noteUnsure s) s := by simp [noteUnsure, SameMem]

@[simp] theorem noteUnsure_mem (s : State) : (noteUnsure s).mem = s.mem := noteUnsure_same s

theorem freeRate_same (s : State) : SameMem (freeRate s).2 s := rfl

@[simp] theorem freeRate_mem (s : State) : (freeRate s).2.mem = s.mem := freeRate_same s

theorem acceptSample_same (off : Int) (clockId : W64) (s : State) : SameMem (acceptSample off clockId s) s := by simp [acceptSample, SameMem]

@[simp] theorem acceptSample_mem (off : Int) (clockId : W64) (s : State) : (acceptSample off clockId s).mem = s.mem := acceptSample_same off clockId s

theorem loseMaster_same (s : State) : SameMem (loseMaster s) s := by simp [loseMaster, SameMem]

@[simp] theorem loseMaster_mem (s : State) : (loseMaster s).mem = s.mem := loseMaster_same s

theorem takeSample_same (off : Int) (clockId : W64) (s : State) : SameMem (takeSample off clockId s) s := by simp [takeSample, SameMem]

@[simp] theorem takeSample_mem (off : Int) (clockId : W64) (s : State) : (takeSample off clockId s).mem = s.mem := takeSample_same off clockId s

theorem completeSync_same (clockId : W64) (t1 t2 corr : Nat) (s : State) : SameMem (completeSync clockId t1 t2 corr s) s := by simp [completeSync, SameMem]

@[simp] theorem completeSync_mem (clockId : W64) (t1 t2 corr : Nat) (s : State) : (completeSync clockId t1 t2 corr s).mem = s.mem := completeSync_same clockId t1 t2 corr s

theorem setPath_same (d : Int) (s : State) : SameMem (setPath d s) s := rfl

@[simp] theorem setPath_mem (d : Int) (s : State) : (setPath d s).mem = s.mem := setPath_same d s

theorem reacquire_same (s : State) : SameMem (reacquire s) s := rfl

@[simp] theorem reacquire_mem (s : State) : (reacquire s).mem = s.mem := reacquire_same s

theorem setCfg_same (v : W32) (s : State) : SameMem (setCfg v s) s := by simp [setCfg, SameMem]

@[simp] theorem setCfg_mem (v : W32) (s : State) : (setCfg v s).mem = s.mem := setCfg_same v s

theorem advanceTime_same (s : State) : SameMem (advanceTime s) s := by simp [advanceTime, SameMem]

@[simp] theorem advanceTime_mem (s : State) : (advanceTime s).mem = s.mem := advanceTime_same s

theorem writeShare_same (v : Nat) (s : State) : SameMem (writeShare v s) s := by simp [writeShare, SameMem]

@[simp] theorem writeShare_mem (v : Nat) (s : State) : (writeShare v s).mem = s.mem := writeShare_same v s

end Sys2Proof.Machine
end

