-- ==== Sys2Proof/Laws/KeptBridle.lean ====
section
/-! SUPPORT. What each operation of Machine/Bridle.lean keeps: the fuses, the life counters, the queue, and memory or its form. -/

namespace Sys2Proof.Machine

theorem bridleFault_core (acc : Access) (wr : Bool) (a code : Nat) (s : State) : SameAll (bridleFault acc wr a code s) s := by simp [bridleFault, SameAll]

@[simp] theorem bridleFault_copies (acc : Access) (wr : Bool) (a code : Nat) (s : State) : (bridleFault acc wr a code s).lc.copies = s.lc.copies := (bridleFault_core acc wr a code s).1

@[simp] theorem bridleFault_life (acc : Access) (wr : Bool) (a code : Nat) (s : State) : (bridleFault acc wr a code s).fv.life = s.fv.life := (bridleFault_core acc wr a code s).2.1

@[simp] theorem bridleFault_pending (acc : Access) (wr : Bool) (a code : Nat) (s : State) : (bridleFault acc wr a code s).pending = s.pending := (bridleFault_core acc wr a code s).2.2

theorem noteRead_core (acc : Access) (a : Nat) (r : BusRead) (s : State) : SameAll (noteRead acc a r s) s := by
  unfold noteRead
  split <;> simp [SameAll]

@[simp] theorem noteRead_copies (acc : Access) (a : Nat) (r : BusRead) (s : State) : (noteRead acc a r s).lc.copies = s.lc.copies := (noteRead_core acc a r s).1

@[simp] theorem noteRead_life (acc : Access) (a : Nat) (r : BusRead) (s : State) : (noteRead acc a r s).fv.life = s.fv.life := (noteRead_core acc a r s).2.1

@[simp] theorem noteRead_pending (acc : Access) (a : Nat) (r : BusRead) (s : State) : (noteRead acc a r s).pending = s.pending := (noteRead_core acc a r s).2.2

theorem busWrite_core (s : State) (acc : Access) (a : Nat) (bs : List Byte) : SameAll (busWrite s acc a bs).st s := by
  unfold busWrite
  try dsimp only
  repeat' split
  all_goals simp [SameAll]

@[simp] theorem busWrite_copies (s : State) (acc : Access) (a : Nat) (bs : List Byte) : (busWrite s acc a bs).st.lc.copies = s.lc.copies := (busWrite_core s acc a bs).1

@[simp] theorem busWrite_life (s : State) (acc : Access) (a : Nat) (bs : List Byte) : (busWrite s acc a bs).st.fv.life = s.fv.life := (busWrite_core s acc a bs).2.1

@[simp] theorem busWrite_pending (s : State) (acc : Access) (a : Nat) (bs : List Byte) : (busWrite s acc a bs).st.pending = s.pending := (busWrite_core s acc a bs).2.2

theorem noteRefused_core (s : State) (acc : Access) (wr : Bool) (a n : Nat) : SameAll (noteRefused s acc wr a n) s := by
  unfold noteRefused
  split <;> simp [SameAll]

@[simp] theorem noteRefused_copies (s : State) (acc : Access) (wr : Bool) (a n : Nat) : (noteRefused s acc wr a n).lc.copies = s.lc.copies := (noteRefused_core s acc wr a n).1

@[simp] theorem noteRefused_life (s : State) (acc : Access) (wr : Bool) (a n : Nat) : (noteRefused s acc wr a n).fv.life = s.fv.life := (noteRefused_core s acc wr a n).2.1

@[simp] theorem noteRefused_pending (s : State) (acc : Access) (wr : Bool) (a n : Nat) : (noteRefused s acc wr a n).pending = s.pending := (noteRefused_core s acc wr a n).2.2

theorem writeRegion_core (u r : Nat) (whole : Bool) (v : W64) (s : State) : SameAll (writeRegion u r whole v s) s := by simp [writeRegion, SameAll]

@[simp] theorem writeRegion_copies (u r : Nat) (whole : Bool) (v : W64) (s : State) : (writeRegion u r whole v s).lc.copies = s.lc.copies := (writeRegion_core u r whole v s).1

@[simp] theorem writeRegion_life (u r : Nat) (whole : Bool) (v : W64) (s : State) : (writeRegion u r whole v s).fv.life = s.fv.life := (writeRegion_core u r whole v s).2.1

@[simp] theorem writeRegion_pending (u r : Nat) (whole : Bool) (v : W64) (s : State) : (writeRegion u r whole v s).pending = s.pending := (writeRegion_core u r whole v s).2.2

theorem bridleFault_same (acc : Access) (wr : Bool) (a code : Nat) (s : State) : SameMem (bridleFault acc wr a code s) s := by simp [bridleFault, SameMem]

@[simp] theorem bridleFault_mem (acc : Access) (wr : Bool) (a code : Nat) (s : State) : (bridleFault acc wr a code s).mem = s.mem := bridleFault_same acc wr a code s

theorem noteRead_same (acc : Access) (a : Nat) (r : BusRead) (s : State) : SameMem (noteRead acc a r s) s := by
  unfold noteRead
  split <;> simp [SameMem]

@[simp] theorem noteRead_mem (acc : Access) (a : Nat) (r : BusRead) (s : State) : (noteRead acc a r s).mem = s.mem := noteRead_same acc a r s

theorem runsWrite_wf (l : List (Nat × List Byte)) (p : State × Bool) (s : State) (h : KeepMem p.1 s) :
    KeepMem (l.foldl (fun st r => let (x, e) := ramWrite st.1 r.1 r.2; (x, st.2 || e)) p).1 s := by
  induction l generalizing p with
  | nil => exact h
  | cons r rs ih => exact ih _ ((ramWrite_wf ..).trans h)

theorem busWrite_wf (s : State) (acc : Access) (a : Nat) (bs : List Byte) : KeepMem (busWrite s acc a bs).st s := by
  unfold busWrite
  dsimp only
  have h := runsWrite_wf (permittedRuns s acc a bs) (s, false) s (KeepMem.refl _)
  generalize List.foldl _ (s, false) _ = p at h ⊢
  refine ite_of (P := fun t => KeepMem t s) ?_ ?_
  · refine KeepMem.trans (KeepMem.of_eq (noteUncorrectable_mem ..)) ?_
    split
    · exact KeepMem.trans (KeepMem.of_eq (by simp)) h
    · exact h
  · split
    · exact KeepMem.trans (KeepMem.of_eq (by simp)) h
    · exact h

theorem noteRefused_same (s : State) (acc : Access) (wr : Bool) (a n : Nat) : SameMem (noteRefused s acc wr a n) s := by
  unfold noteRefused
  split <;> simp [SameMem]

@[simp] theorem noteRefused_mem (s : State) (acc : Access) (wr : Bool) (a n : Nat) : (noteRefused s acc wr a n).mem = s.mem := noteRefused_same s acc wr a n

theorem writeRegion_same (u r : Nat) (whole : Bool) (v : W64) (s : State) : SameMem (writeRegion u r whole v s) s := by simp [writeRegion, SameMem]

@[simp] theorem writeRegion_mem (u r : Nat) (whole : Bool) (v : W64) (s : State) : (writeRegion u r whole v s).mem = s.mem := writeRegion_same u r whole v s

end Sys2Proof.Machine
end

