-- ==== Sys2Proof/Laws/KeptUnits.lean ====
section
/-! SUPPORT. What each operation of Machine/Units.lean keeps: the fuses, the life counters, the queue, and memory or its form. -/

namespace Sys2Proof.Machine

theorem updUnit_core (pool u : Nat) (f : UnitRec → UnitRec) (s : State) : SameAll (updUnit pool u f s) s := ⟨rfl, rfl, rfl⟩

@[simp] theorem updUnit_copies (pool u : Nat) (f : UnitRec → UnitRec) (s : State) : (updUnit pool u f s).lc.copies = s.lc.copies := (updUnit_core pool u f s).1

@[simp] theorem updUnit_life (pool u : Nat) (f : UnitRec → UnitRec) (s : State) : (updUnit pool u f s).fv.life = s.fv.life := (updUnit_core pool u f s).2.1

@[simp] theorem updUnit_pending (pool u : Nat) (f : UnitRec → UnitRec) (s : State) : (updUnit pool u f s).pending = s.pending := (updUnit_core pool u f s).2.2

theorem bindLogical_core (pool l : Nat) (u : Option Nat) (s : State) : SameAll (bindLogical pool l u s) s := ⟨rfl, rfl, rfl⟩

@[simp] theorem bindLogical_copies (pool l : Nat) (u : Option Nat) (s : State) : (bindLogical pool l u s).lc.copies = s.lc.copies := (bindLogical_core pool l u s).1

@[simp] theorem bindLogical_life (pool l : Nat) (u : Option Nat) (s : State) : (bindLogical pool l u s).fv.life = s.fv.life := (bindLogical_core pool l u s).2.1

@[simp] theorem bindLogical_pending (pool l : Nat) (u : Option Nat) (s : State) : (bindLogical pool l u s).pending = s.pending := (bindLogical_core pool l u s).2.2

theorem fenceUnit_core (pool u reason paddock : Nat) (s : State) : SameAll (fenceUnit pool u reason paddock s) s := by simp [fenceUnit, SameAll]

@[simp] theorem fenceUnit_copies (pool u reason paddock : Nat) (s : State) : (fenceUnit pool u reason paddock s).lc.copies = s.lc.copies := (fenceUnit_core pool u reason paddock s).1

@[simp] theorem fenceUnit_life (pool u reason paddock : Nat) (s : State) : (fenceUnit pool u reason paddock s).fv.life = s.fv.life := (fenceUnit_core pool u reason paddock s).2.1

@[simp] theorem fenceUnit_pending (pool u reason paddock : Nat) (s : State) : (fenceUnit pool u reason paddock s).pending = s.pending := (fenceUnit_core pool u reason paddock s).2.2

theorem noteLostJob_core (s : State) : SameAll (noteLostJob s) s := by simp [noteLostJob, SameAll]

@[simp] theorem noteLostJob_copies (s : State) : (noteLostJob s).lc.copies = s.lc.copies := (noteLostJob_core s).1

@[simp] theorem noteLostJob_life (s : State) : (noteLostJob s).fv.life = s.fv.life := (noteLostJob_core s).2.1

@[simp] theorem noteLostJob_pending (s : State) : (noteLostJob s).pending = s.pending := (noteLostJob_core s).2.2

theorem setCore_core (c : Nat) (k : Core) (s : State) : SameAll (setCore c k s) s := ⟨rfl, rfl, rfl⟩

@[simp] theorem setCore_copies (c : Nat) (k : Core) (s : State) : (setCore c k s).lc.copies = s.lc.copies := (setCore_core c k s).1

@[simp] theorem setCore_life (c : Nat) (k : Core) (s : State) : (setCore c k s).fv.life = s.fv.life := (setCore_core c k s).2.1

@[simp] theorem setCore_pending (c : Nat) (k : Core) (s : State) : (setCore c k s).pending = s.pending := (setCore_core c k s).2.2

theorem updCore_core (c : Nat) (f : Core → Core) (s : State) : SameAll (updCore c f s) s := ⟨rfl, rfl, rfl⟩

@[simp] theorem updCore_copies (c : Nat) (f : Core → Core) (s : State) : (updCore c f s).lc.copies = s.lc.copies := (updCore_core c f s).1

@[simp] theorem updCore_life (c : Nat) (f : Core → Core) (s : State) : (updCore c f s).fv.life = s.fv.life := (updCore_core c f s).2.1

@[simp] theorem updCore_pending (c : Nat) (f : Core → Core) (s : State) : (updCore c f s).pending = s.pending := (updCore_core c f s).2.2

theorem setPend_core (c i : Nat) (s : State) : SameAll (setPend c i s) s := ⟨rfl, rfl, rfl⟩

@[simp] theorem setPend_copies (c i : Nat) (s : State) : (setPend c i s).lc.copies = s.lc.copies := (setPend_core c i s).1

@[simp] theorem setPend_life (c i : Nat) (s : State) : (setPend c i s).fv.life = s.fv.life := (setPend_core c i s).2.1

@[simp] theorem setPend_pending (c i : Nat) (s : State) : (setPend c i s).pending = s.pending := (setPend_core c i s).2.2

theorem setPendFor_core (c i p : Nat) (s : State) : SameAll (setPendFor c i p s) s := ⟨rfl, rfl, rfl⟩

@[simp] theorem setPendFor_copies (c i p : Nat) (s : State) : (setPendFor c i p s).lc.copies = s.lc.copies := (setPendFor_core c i p s).1

@[simp] theorem setPendFor_life (c i p : Nat) (s : State) : (setPendFor c i p s).fv.life = s.fv.life := (setPendFor_core c i p s).2.1

@[simp] theorem setPendFor_pending (c i p : Nat) (s : State) : (setPendFor c i p s).pending = s.pending := (setPendFor_core c i p s).2.2

theorem reqRead_core (r : Req) (a n : Nat) (s : State) : SameAll (reqRead r a n s).2 s := by
  unfold reqRead
  split <;> simp [SameAll]

@[simp] theorem reqRead_copies (r : Req) (a n : Nat) (s : State) : (reqRead r a n s).2.lc.copies = s.lc.copies := (reqRead_core r a n s).1

@[simp] theorem reqRead_life (r : Req) (a n : Nat) (s : State) : (reqRead r a n s).2.fv.life = s.fv.life := (reqRead_core r a n s).2.1

@[simp] theorem reqRead_pending (r : Req) (a n : Nat) (s : State) : (reqRead r a n s).2.pending = s.pending := (reqRead_core r a n s).2.2

theorem reqWrite_core (r : Req) (a : Nat) (bs : List Byte) (s : State) : SameAll (reqWrite r a bs s).2 s := by
  unfold reqWrite
  split <;> simp [SameAll]

@[simp] theorem reqWrite_copies (r : Req) (a : Nat) (bs : List Byte) (s : State) : (reqWrite r a bs s).2.lc.copies = s.lc.copies := (reqWrite_core r a bs s).1

@[simp] theorem reqWrite_life (r : Req) (a : Nat) (bs : List Byte) (s : State) : (reqWrite r a bs s).2.fv.life = s.fv.life := (reqWrite_core r a bs s).2.1

@[simp] theorem reqWrite_pending (r : Req) (a : Nat) (bs : List Byte) (s : State) : (reqWrite r a bs s).2.pending = s.pending := (reqWrite_core r a bs s).2.2

theorem updUnit_same (pool u : Nat) (f : UnitRec → UnitRec) (s : State) : SameMem (updUnit pool u f s) s := rfl

@[simp] theorem updUnit_mem (pool u : Nat) (f : UnitRec → UnitRec) (s : State) : (updUnit pool u f s).mem = s.mem := updUnit_same pool u f s

theorem bindLogical_same (pool l : Nat) (u : Option Nat) (s : State) : SameMem (bindLogical pool l u s) s := rfl

@[simp] theorem bindLogical_mem (pool l : Nat) (u : Option Nat) (s : State) : (bindLogical pool l u s).mem = s.mem := bindLogical_same pool l u s

theorem fenceUnit_same (pool u reason paddock : Nat) (s : State) : SameMem (fenceUnit pool u reason paddock s) s := by simp [fenceUnit, SameMem]

@[simp] theorem fenceUnit_mem (pool u reason paddock : Nat) (s : State) : (fenceUnit pool u reason paddock s).mem = s.mem := fenceUnit_same pool u reason paddock s

theorem noteLostJob_same (s : State) : SameMem (noteLostJob s) s := by simp [noteLostJob, SameMem]

@[simp] theorem noteLostJob_mem (s : State) : (noteLostJob s).mem = s.mem := noteLostJob_same s

theorem setCore_same (c : Nat) (k : Core) (s : State) : SameMem (setCore c k s) s := rfl

@[simp] theorem setCore_mem (c : Nat) (k : Core) (s : State) : (setCore c k s).mem = s.mem := setCore_same c k s

theorem updCore_same (c : Nat) (f : Core → Core) (s : State) : SameMem (updCore c f s) s := rfl

@[simp] theorem updCore_mem (c : Nat) (f : Core → Core) (s : State) : (updCore c f s).mem = s.mem := updCore_same c f s

theorem setPend_same (c i : Nat) (s : State) : SameMem (setPend c i s) s := rfl

@[simp] theorem setPend_mem (c i : Nat) (s : State) : (setPend c i s).mem = s.mem := setPend_same c i s

theorem setPendFor_same (c i p : Nat) (s : State) : SameMem (setPendFor c i p s) s := rfl

@[simp] theorem setPendFor_mem (c i p : Nat) (s : State) : (setPendFor c i p s).mem = s.mem := setPendFor_same c i p s

theorem reqRead_same (r : Req) (a n : Nat) (s : State) : SameMem (reqRead r a n s).2 s := by
  unfold reqRead
  split <;> simp [SameMem]

@[simp] theorem reqRead_mem (r : Req) (a n : Nat) (s : State) : (reqRead r a n s).2.mem = s.mem := reqRead_same r a n s

theorem reqWrite_wf (r : Req) (a : Nat) (bs : List Byte) (s : State) : KeepMem (reqWrite r a bs s).2 s := by
  unfold reqWrite
  try dsimp only
  iterate 8 all_goals (try first | with_reducible exact KeepMem.refl _ | assumption | split | with_reducible refine KeepMem.trans (hostPut_wf ..) ?_ | with_reducible refine KeepMem.trans (busWrite_wf ..) ?_)

end Sys2Proof.Machine
end

