-- ==== Sys2Proof/Laws/KeptCasrun.lean ====
section
/-! SUPPORT. What each operation of Machine/Casrun.lean keeps: the fuses, the life counters, the queue, and memory or its form. -/

namespace Sys2Proof.Machine

theorem updFunc_core (fn : Nat) (f : Func → Func) (s : State) : SameAll (updFunc fn f s) s := by
  unfold updFunc
  try dsimp only
  repeat' split
  all_goals (first | (simp [SameAll]; done) | exact ⟨rfl, rfl, rfl⟩ | (simp_all [SameAll]; done) | grind [SameAll] | (simp [SameAll]; grind [SameAll]) | (simp +zetaDelta [SameAll]; done) | ((try dsimp only); (repeat' (first | (exact SameAll.refl _) | assumption | (simp [SameAll]; done) | split | with_reducible refine SameAll.trans (SameAll.foldl (fun _ _ => ?_) _ _) ?_ | with_reducible refine SameAll.trans (SameAll.foldr (fun _ _ => ?_) _ _) ?_ | with_reducible refine SameAll.trans ⟨rfl, rfl, rfl⟩ ?_)); done) | (refine SameAll.foldl ?_ _ _; intro st x; (try dsimp only); (repeat' split); all_goals (first | (simp [SameAll]; done) | (simp_all [SameAll]; done) | grind [SameAll])))

@[simp] theorem updFunc_copies (fn : Nat) (f : Func → Func) (s : State) : (updFunc fn f s).lc.copies = s.lc.copies := (updFunc_core fn f s).1

@[simp] theorem updFunc_life (fn : Nat) (f : Func → Func) (s : State) : (updFunc fn f s).fv.life = s.fv.life := (updFunc_core fn f s).2.1

@[simp] theorem updFunc_pending (fn : Nat) (f : Func → Func) (s : State) : (updFunc fn f s).pending = s.pending := (updFunc_core fn f s).2.2

theorem updQueue_core (fn q : Nat) (f : Queue → Queue) (s : State) : SameAll (updQueue fn q f s) s := by
  unfold updQueue
  try dsimp only
  repeat' split
  all_goals (first | (simp [SameAll]; done) | exact ⟨rfl, rfl, rfl⟩ | (simp_all [SameAll]; done) | grind [SameAll] | (simp [SameAll]; grind [SameAll]) | (simp +zetaDelta [SameAll]; done) | ((try dsimp only); (repeat' (first | (exact SameAll.refl _) | assumption | (simp [SameAll]; done) | split | with_reducible refine SameAll.trans (SameAll.foldl (fun _ _ => ?_) _ _) ?_ | with_reducible refine SameAll.trans (SameAll.foldr (fun _ _ => ?_) _ _) ?_ | with_reducible refine SameAll.trans ⟨rfl, rfl, rfl⟩ ?_)); done) | (refine SameAll.foldl ?_ _ _; intro st x; (try dsimp only); (repeat' split); all_goals (first | (simp [SameAll]; done) | (simp_all [SameAll]; done) | grind [SameAll])))

@[simp] theorem updQueue_copies (fn q : Nat) (f : Queue → Queue) (s : State) : (updQueue fn q f s).lc.copies = s.lc.copies := (updQueue_core fn q f s).1

@[simp] theorem updQueue_life (fn q : Nat) (f : Queue → Queue) (s : State) : (updQueue fn q f s).fv.life = s.fv.life := (updQueue_core fn q f s).2.1

@[simp] theorem updQueue_pending (fn q : Nat) (f : Queue → Queue) (s : State) : (updQueue fn q f s).pending = s.pending := (updQueue_core fn q f s).2.2

theorem putCompletion_core (fn qn cid cls seq : Nat) (lost : Bool) (result : List Byte) (s : State) : SameAll (putCompletion fn qn cid cls seq lost result s) s := by
  unfold putCompletion
  try dsimp only
  repeat' split
  all_goals (first | (simp [SameAll]; done) | exact ⟨rfl, rfl, rfl⟩ | (simp_all [SameAll]; done) | grind [SameAll] | (simp [SameAll]; grind [SameAll]) | (simp +zetaDelta [SameAll]; done) | ((try dsimp only); (repeat' (first | (exact SameAll.refl _) | assumption | (simp [SameAll]; done) | split | with_reducible refine SameAll.trans (hostPut_core ..) ?_ | with_reducible refine SameAll.trans (updQueue_core ..) ?_ | with_reducible refine SameAll.trans (SameAll.foldl (fun _ _ => ?_) _ _) ?_ | with_reducible refine SameAll.trans (SameAll.foldr (fun _ _ => ?_) _ _) ?_ | with_reducible refine SameAll.trans ⟨rfl, rfl, rfl⟩ ?_)); done) | (refine SameAll.foldl ?_ _ _; intro st x; (try dsimp only); (repeat' split); all_goals (first | (simp [SameAll]; done) | (simp_all [SameAll]; done) | grind [SameAll])))

@[simp] theorem putCompletion_copies (fn qn cid cls seq : Nat) (lost : Bool) (result : List Byte) (s : State) : (putCompletion fn qn cid cls seq lost result s).lc.copies = s.lc.copies := (putCompletion_core fn qn cid cls seq lost result s).1

@[simp] theorem putCompletion_life (fn qn cid cls seq : Nat) (lost : Bool) (result : List Byte) (s : State) : (putCompletion fn qn cid cls seq lost result s).fv.life = s.fv.life := (putCompletion_core fn qn cid cls seq lost result s).2.1

@[simp] theorem putCompletion_pending (fn qn cid cls seq : Nat) (lost : Bool) (result : List Byte) (s : State) : (putCompletion fn qn cid cls seq lost result s).pending = s.pending := (putCompletion_core fn qn cid cls seq lost result s).2.2

theorem hostComplete_core (fn qn seq : Nat) (result : List Byte) (s : State) : SameAll (hostComplete fn qn seq result s) s := by
  unfold hostComplete
  try dsimp only
  repeat' split
  all_goals (first | (simp [SameAll]; done) | exact ⟨rfl, rfl, rfl⟩ | (simp_all [SameAll]; done) | grind [SameAll] | (simp [SameAll]; grind [SameAll]) | (simp +zetaDelta [SameAll]; done) | ((try dsimp only); (repeat' (first | (exact SameAll.refl _) | assumption | (simp [SameAll]; done) | split | with_reducible refine SameAll.trans (updQueue_core ..) ?_ | with_reducible refine SameAll.trans (putCompletion_core ..) ?_ | with_reducible refine SameAll.trans (SameAll.foldl (fun _ _ => ?_) _ _) ?_ | with_reducible refine SameAll.trans (SameAll.foldr (fun _ _ => ?_) _ _) ?_ | with_reducible refine SameAll.trans ⟨rfl, rfl, rfl⟩ ?_)); done) | (refine SameAll.foldl ?_ _ _; intro st x; (try dsimp only); (repeat' split); all_goals (first | (simp [SameAll]; done) | (simp_all [SameAll]; done) | grind [SameAll])))

@[simp] theorem hostComplete_copies (fn qn seq : Nat) (result : List Byte) (s : State) : (hostComplete fn qn seq result s).lc.copies = s.lc.copies := (hostComplete_core fn qn seq result s).1

@[simp] theorem hostComplete_life (fn qn seq : Nat) (result : List Byte) (s : State) : (hostComplete fn qn seq result s).fv.life = s.fv.life := (hostComplete_core fn qn seq result s).2.1

@[simp] theorem hostComplete_pending (fn qn seq : Nat) (result : List Byte) (s : State) : (hostComplete fn qn seq result s).pending = s.pending := (hostComplete_core fn qn seq result s).2.2

theorem hostCompleteLater_core (fn qn seq : Nat) (result : List Byte) (s : State) : SameAll (hostCompleteLater fn qn seq result s) s := by
  unfold hostCompleteLater
  try dsimp only
  repeat' split
  all_goals (first | (simp [SameAll]; done) | exact ⟨rfl, rfl, rfl⟩ | (simp_all [SameAll]; done) | grind [SameAll] | (simp [SameAll]; grind [SameAll]) | (simp +zetaDelta [SameAll]; done) | ((try dsimp only); (repeat' (first | (exact SameAll.refl _) | assumption | (simp [SameAll]; done) | split | with_reducible refine SameAll.trans (SameAll.foldl (fun _ _ => ?_) _ _) ?_ | with_reducible refine SameAll.trans (SameAll.foldr (fun _ _ => ?_) _ _) ?_ | with_reducible refine SameAll.trans ⟨rfl, rfl, rfl⟩ ?_)); done) | (refine SameAll.foldl ?_ _ _; intro st x; (try dsimp only); (repeat' split); all_goals (first | (simp [SameAll]; done) | (simp_all [SameAll]; done) | grind [SameAll])))

@[simp] theorem hostCompleteLater_copies (fn qn seq : Nat) (result : List Byte) (s : State) : (hostCompleteLater fn qn seq result s).lc.copies = s.lc.copies := (hostCompleteLater_core fn qn seq result s).1

@[simp] theorem hostCompleteLater_life (fn qn seq : Nat) (result : List Byte) (s : State) : (hostCompleteLater fn qn seq result s).fv.life = s.fv.life := (hostCompleteLater_core fn qn seq result s).2.1

@[simp] theorem hostCompleteLater_pending (fn qn seq : Nat) (result : List Byte) (s : State) : (hostCompleteLater fn qn seq result s).pending = s.pending := (hostCompleteLater_core fn qn seq result s).2.2

theorem flushCompletions_core (s : State) : SameAll (flushCompletions s) s := by
  unfold flushCompletions
  try dsimp only
  repeat' split
  all_goals (first | (simp [SameAll]; done) | exact ⟨rfl, rfl, rfl⟩ | (simp_all [SameAll]; done) | grind [SameAll] | (simp [SameAll]; grind [SameAll]) | (simp +zetaDelta [SameAll]; done) | ((try dsimp only); (repeat' (first | (exact SameAll.refl _) | assumption | (simp [SameAll]; done) | split | with_reducible refine SameAll.trans (hostComplete_core ..) ?_ | with_reducible refine SameAll.trans (SameAll.foldl (fun _ _ => ?_) _ _) ?_ | with_reducible refine SameAll.trans (SameAll.foldr (fun _ _ => ?_) _ _) ?_ | with_reducible refine SameAll.trans ⟨rfl, rfl, rfl⟩ ?_)); done) | (refine SameAll.foldl ?_ _ _; intro st x; (try dsimp only); (repeat' split); all_goals (first | (simp [SameAll]; done) | (simp_all [SameAll]; done) | grind [SameAll])))

@[simp] theorem flushCompletions_copies (s : State) : (flushCompletions s).lc.copies = s.lc.copies := (flushCompletions_core s).1

@[simp] theorem flushCompletions_life (s : State) : (flushCompletions s).fv.life = s.fv.life := (flushCompletions_core s).2.1

@[simp] theorem flushCompletions_pending (s : State) : (flushCompletions s).pending = s.pending := (flushCompletions_core s).2.2

theorem sendVector_core (fn v : Nat) (s : State) : SameAll (sendVector fn v s) s := by
  unfold sendVector
  try dsimp only
  repeat' split
  all_goals (first | (simp [SameAll]; done) | exact ⟨rfl, rfl, rfl⟩ | (simp_all [SameAll]; done) | grind [SameAll] | (simp [SameAll]; grind [SameAll]) | (simp +zetaDelta [SameAll]; done) | ((try dsimp only); (repeat' (first | (exact SameAll.refl _) | assumption | (simp [SameAll]; done) | split | with_reducible refine SameAll.trans (updFunc_core ..) ?_ | with_reducible refine SameAll.trans (SameAll.foldl (fun _ _ => ?_) _ _) ?_ | with_reducible refine SameAll.trans (SameAll.foldr (fun _ _ => ?_) _ _) ?_ | with_reducible refine SameAll.trans ⟨rfl, rfl, rfl⟩ ?_)); done) | (refine SameAll.foldl ?_ _ _; intro st x; (try dsimp only); (repeat' split); all_goals (first | (simp [SameAll]; done) | (simp_all [SameAll]; done) | grind [SameAll])))

@[simp] theorem sendVector_copies (fn v : Nat) (s : State) : (sendVector fn v s).lc.copies = s.lc.copies := (sendVector_core fn v s).1

@[simp] theorem sendVector_life (fn v : Nat) (s : State) : (sendVector fn v s).fv.life = s.fv.life := (sendVector_core fn v s).2.1

@[simp] theorem sendVector_pending (fn v : Nat) (s : State) : (sendVector fn v s).pending = s.pending := (sendVector_core fn v s).2.2

theorem sendPending_core (fn : Nat) (s : State) : SameAll (sendPending fn s) s := by
  unfold sendPending
  try dsimp only
  repeat' split
  all_goals (first | (simp [SameAll]; done) | exact ⟨rfl, rfl, rfl⟩ | (simp_all [SameAll]; done) | grind [SameAll] | (simp [SameAll]; grind [SameAll]) | (simp +zetaDelta [SameAll]; done) | ((try dsimp only); (repeat' (first | (exact SameAll.refl _) | assumption | (simp [SameAll]; done) | split | with_reducible refine SameAll.trans (updFunc_core ..) ?_ | with_reducible refine SameAll.trans (SameAll.foldl (fun _ _ => ?_) _ _) ?_ | with_reducible refine SameAll.trans (SameAll.foldr (fun _ _ => ?_) _ _) ?_ | with_reducible refine SameAll.trans ⟨rfl, rfl, rfl⟩ ?_)); done) | (refine SameAll.foldl ?_ _ _; intro st x; (try dsimp only); (repeat' split); all_goals (first | (simp [SameAll]; done) | (simp_all [SameAll]; done) | grind [SameAll])))

@[simp] theorem sendPending_copies (fn : Nat) (s : State) : (sendPending fn s).lc.copies = s.lc.copies := (sendPending_core fn s).1

@[simp] theorem sendPending_life (fn : Nat) (s : State) : (sendPending fn s).fv.life = s.fv.life := (sendPending_core fn s).2.1

@[simp] theorem sendPending_pending (fn : Nat) (s : State) : (sendPending fn s).pending = s.pending := (sendPending_core fn s).2.2

theorem setFerr_core (fn bit : Nat) (s : State) : SameAll (setFerr fn bit s) s := by
  unfold setFerr
  try dsimp only
  repeat' split
  all_goals (first | (simp [SameAll]; done) | exact ⟨rfl, rfl, rfl⟩ | (simp_all [SameAll]; done) | grind [SameAll] | (simp [SameAll]; grind [SameAll]) | (simp +zetaDelta [SameAll]; done) | ((try dsimp only); (repeat' (first | (exact SameAll.refl _) | assumption | (simp [SameAll]; done) | split | with_reducible refine SameAll.trans (updFunc_core ..) ?_ | with_reducible refine SameAll.trans (SameAll.foldl (fun _ _ => ?_) _ _) ?_ | with_reducible refine SameAll.trans (SameAll.foldr (fun _ _ => ?_) _ _) ?_ | with_reducible refine SameAll.trans ⟨rfl, rfl, rfl⟩ ?_)); done) | (refine SameAll.foldl ?_ _ _; intro st x; (try dsimp only); (repeat' split); all_goals (first | (simp [SameAll]; done) | (simp_all [SameAll]; done) | grind [SameAll])))

@[simp] theorem setFerr_copies (fn bit : Nat) (s : State) : (setFerr fn bit s).lc.copies = s.lc.copies := (setFerr_core fn bit s).1

@[simp] theorem setFerr_life (fn bit : Nat) (s : State) : (setFerr fn bit s).fv.life = s.fv.life := (setFerr_core fn bit s).2.1

@[simp] theorem setFerr_pending (fn bit : Nat) (s : State) : (setFerr fn bit s).pending = s.pending := (setFerr_core fn bit s).2.2

theorem queueError_core (fn q code : Nat) (s : State) : SameAll (queueError fn q code s) s := by
  unfold queueError
  try dsimp only
  repeat' split
  all_goals (first | (simp [SameAll]; done) | exact ⟨rfl, rfl, rfl⟩ | (simp_all [SameAll]; done) | grind [SameAll] | (simp [SameAll]; grind [SameAll]) | (simp +zetaDelta [SameAll]; done) | ((try dsimp only); (repeat' (first | (exact SameAll.refl _) | assumption | (simp [SameAll]; done) | split | with_reducible refine SameAll.trans (setEvent_core ..) ?_ | with_reducible refine SameAll.trans (updQueue_core ..) ?_ | with_reducible refine SameAll.trans (setFerr_core ..) ?_ | with_reducible refine SameAll.trans (SameAll.foldl (fun _ _ => ?_) _ _) ?_ | with_reducible refine SameAll.trans (SameAll.foldr (fun _ _ => ?_) _ _) ?_ | with_reducible refine SameAll.trans ⟨rfl, rfl, rfl⟩ ?_)); done) | (refine SameAll.foldl ?_ _ _; intro st x; (try dsimp only); (repeat' split); all_goals (first | (simp [SameAll]; done) | (simp_all [SameAll]; done) | grind [SameAll])))

@[simp] theorem queueError_copies (fn q code : Nat) (s : State) : (queueError fn q code s).lc.copies = s.lc.copies := (queueError_core fn q code s).1

@[simp] theorem queueError_life (fn q code : Nat) (s : State) : (queueError fn q code s).fv.life = s.fv.life := (queueError_core fn q code s).2.1

@[simp] theorem queueError_pending (fn q code : Nat) (s : State) : (queueError fn q code s).pending = s.pending := (queueError_core fn q code s).2.2

theorem dropCancels_core (fn q : Nat) (s : State) : SameAll (dropCancels fn q s) s := by
  unfold dropCancels
  try dsimp only
  repeat' split
  all_goals (first | (simp [SameAll]; done) | exact ⟨rfl, rfl, rfl⟩ | (simp_all [SameAll]; done) | grind [SameAll] | (simp [SameAll]; grind [SameAll]) | (simp +zetaDelta [SameAll]; done) | ((try dsimp only); (repeat' (first | (exact SameAll.refl _) | assumption | (simp [SameAll]; done) | split | with_reducible refine SameAll.trans (updFunc_core ..) ?_ | with_reducible refine SameAll.trans (SameAll.foldl (fun _ _ => ?_) _ _) ?_ | with_reducible refine SameAll.trans (SameAll.foldr (fun _ _ => ?_) _ _) ?_ | with_reducible refine SameAll.trans ⟨rfl, rfl, rfl⟩ ?_)); done) | (refine SameAll.foldl ?_ _ _; intro st x; (try dsimp only); (repeat' split); all_goals (first | (simp [SameAll]; done) | (simp_all [SameAll]; done) | grind [SameAll])))

@[simp] theorem dropCancels_copies (fn q : Nat) (s : State) : (dropCancels fn q s).lc.copies = s.lc.copies := (dropCancels_core fn q s).1

@[simp] theorem dropCancels_life (fn q : Nat) (s : State) : (dropCancels fn q s).fv.life = s.fv.life := (dropCancels_core fn q s).2.1

@[simp] theorem dropCancels_pending (fn q : Nat) (s : State) : (dropCancels fn q s).pending = s.pending := (dropCancels_core fn q s).2.2

theorem refuseCmd_core (fn : Nat) (s : State) : SameAll (refuseCmd fn s) s := by
  unfold refuseCmd
  try dsimp only
  repeat' split
  all_goals (first | (simp [SameAll]; done) | exact ⟨rfl, rfl, rfl⟩ | (simp_all [SameAll]; done) | grind [SameAll] | (simp [SameAll]; grind [SameAll]) | (simp +zetaDelta [SameAll]; done) | ((try dsimp only); (repeat' (first | (exact SameAll.refl _) | assumption | (simp [SameAll]; done) | split | with_reducible refine SameAll.trans (setFerr_core ..) ?_ | with_reducible refine SameAll.trans (SameAll.foldl (fun _ _ => ?_) _ _) ?_ | with_reducible refine SameAll.trans (SameAll.foldr (fun _ _ => ?_) _ _) ?_ | with_reducible refine SameAll.trans ⟨rfl, rfl, rfl⟩ ?_)); done) | (refine SameAll.foldl ?_ _ _; intro st x; (try dsimp only); (repeat' split); all_goals (first | (simp [SameAll]; done) | (simp_all [SameAll]; done) | grind [SameAll])))

@[simp] theorem refuseCmd_copies (fn : Nat) (s : State) : (refuseCmd fn s).lc.copies = s.lc.copies := (refuseCmd_core fn s).1

@[simp] theorem refuseCmd_life (fn : Nat) (s : State) : (refuseCmd fn s).fv.life = s.fv.life := (refuseCmd_core fn s).2.1

@[simp] theorem refuseCmd_pending (fn : Nat) (s : State) : (refuseCmd fn s).pending = s.pending := (refuseCmd_core fn s).2.2

theorem queueCreate_core (fn : Nat) (s : State) : SameAll (queueCreate fn s) s := by
  unfold queueCreate
  try dsimp only
  repeat' split
  all_goals (first | (simp [SameAll]; done) | exact ⟨rfl, rfl, rfl⟩ | (simp_all [SameAll]; done) | grind [SameAll] | (simp [SameAll]; grind [SameAll]) | (simp +zetaDelta [SameAll]; done) | ((try dsimp only); (repeat' (first | (exact SameAll.refl _) | assumption | (simp [SameAll]; done) | split | with_reducible refine SameAll.trans (updQueue_core ..) ?_ | with_reducible refine SameAll.trans (refuseCmd_core ..) ?_ | with_reducible refine SameAll.trans (SameAll.foldl (fun _ _ => ?_) _ _) ?_ | with_reducible refine SameAll.trans (SameAll.foldr (fun _ _ => ?_) _ _) ?_ | with_reducible refine SameAll.trans ⟨rfl, rfl, rfl⟩ ?_)); done) | (refine SameAll.foldl ?_ _ _; intro st x; (try dsimp only); (repeat' split); all_goals (first | (simp [SameAll]; done) | (simp_all [SameAll]; done) | grind [SameAll])))

@[simp] theorem queueCreate_copies (fn : Nat) (s : State) : (queueCreate fn s).lc.copies = s.lc.copies := (queueCreate_core fn s).1

@[simp] theorem queueCreate_life (fn : Nat) (s : State) : (queueCreate fn s).fv.life = s.fv.life := (queueCreate_core fn s).2.1

@[simp] theorem queueCreate_pending (fn : Nat) (s : State) : (queueCreate fn s).pending = s.pending := (queueCreate_core fn s).2.2

theorem queueDelete_core (fn : Nat) (s : State) : SameAll (queueDelete fn s) s := by
  unfold queueDelete
  try dsimp only
  repeat' split
  all_goals (first | (simp [SameAll]; done) | exact ⟨rfl, rfl, rfl⟩ | (simp_all [SameAll]; done) | grind [SameAll] | (simp [SameAll]; grind [SameAll]) | (simp +zetaDelta [SameAll]; done) | ((try dsimp only); (repeat' (first | (exact SameAll.refl _) | assumption | (simp [SameAll]; done) | split | with_reducible refine SameAll.trans (updQueue_core ..) ?_ | with_reducible refine SameAll.trans (refuseCmd_core ..) ?_ | with_reducible refine SameAll.trans (SameAll.foldl (fun _ _ => ?_) _ _) ?_ | with_reducible refine SameAll.trans (SameAll.foldr (fun _ _ => ?_) _ _) ?_ | with_reducible refine SameAll.trans ⟨rfl, rfl, rfl⟩ ?_)); done) | (refine SameAll.foldl ?_ _ _; intro st x; (try dsimp only); (repeat' split); all_goals (first | (simp [SameAll]; done) | (simp_all [SameAll]; done) | grind [SameAll])))

@[simp] theorem queueDelete_copies (fn : Nat) (s : State) : (queueDelete fn s).lc.copies = s.lc.copies := (queueDelete_core fn s).1

@[simp] theorem queueDelete_life (fn : Nat) (s : State) : (queueDelete fn s).fv.life = s.fv.life := (queueDelete_core fn s).2.1

@[simp] theorem queueDelete_pending (fn : Nat) (s : State) : (queueDelete fn s).pending = s.pending := (queueDelete_core fn s).2.2

theorem queueReset_core (fn : Nat) (s : State) : SameAll (queueReset fn s) s := by
  unfold queueReset
  try dsimp only
  repeat' split
  all_goals (first | (simp [SameAll]; done) | exact ⟨rfl, rfl, rfl⟩ | (simp_all [SameAll]; done) | grind [SameAll] | (simp [SameAll]; grind [SameAll]) | (simp +zetaDelta [SameAll]; done) | ((try dsimp only); (repeat' (first | (exact SameAll.refl _) | assumption | (simp [SameAll]; done) | split | with_reducible refine SameAll.trans (updQueue_core ..) ?_ | with_reducible refine SameAll.trans (refuseCmd_core ..) ?_ | with_reducible refine SameAll.trans (SameAll.foldl (fun _ _ => ?_) _ _) ?_ | with_reducible refine SameAll.trans (SameAll.foldr (fun _ _ => ?_) _ _) ?_ | with_reducible refine SameAll.trans ⟨rfl, rfl, rfl⟩ ?_)); done) | (refine SameAll.foldl ?_ _ _; intro st x; (try dsimp only); (repeat' split); all_goals (first | (simp [SameAll]; done) | (simp_all [SameAll]; done) | grind [SameAll])))

@[simp] theorem queueReset_copies (fn : Nat) (s : State) : (queueReset fn s).lc.copies = s.lc.copies := (queueReset_core fn s).1

@[simp] theorem queueReset_life (fn : Nat) (s : State) : (queueReset fn s).fv.life = s.fv.life := (queueReset_core fn s).2.1

@[simp] theorem queueReset_pending (fn : Nat) (s : State) : (queueReset fn s).pending = s.pending := (queueReset_core fn s).2.2

theorem ringSq_core (fn q : Nat) (v : W32) (s : State) : SameAll (ringSq fn q v s) s := by
  unfold ringSq
  try dsimp only
  repeat' split
  all_goals (first | (simp [SameAll]; done) | exact ⟨rfl, rfl, rfl⟩ | (simp_all [SameAll]; done) | grind [SameAll] | (simp [SameAll]; grind [SameAll]) | (simp +zetaDelta [SameAll]; done) | ((try dsimp only); (repeat' (first | (exact SameAll.refl _) | assumption | (simp [SameAll]; done) | split | with_reducible refine SameAll.trans (updQueue_core ..) ?_ | with_reducible refine SameAll.trans (SameAll.foldl (fun _ _ => ?_) _ _) ?_ | with_reducible refine SameAll.trans (SameAll.foldr (fun _ _ => ?_) _ _) ?_ | with_reducible refine SameAll.trans ⟨rfl, rfl, rfl⟩ ?_)); done) | (refine SameAll.foldl ?_ _ _; intro st x; (try dsimp only); (repeat' split); all_goals (first | (simp [SameAll]; done) | (simp_all [SameAll]; done) | grind [SameAll])))

@[simp] theorem ringSq_copies (fn q : Nat) (v : W32) (s : State) : (ringSq fn q v s).lc.copies = s.lc.copies := (ringSq_core fn q v s).1

@[simp] theorem ringSq_life (fn q : Nat) (v : W32) (s : State) : (ringSq fn q v s).fv.life = s.fv.life := (ringSq_core fn q v s).2.1

@[simp] theorem ringSq_pending (fn q : Nat) (v : W32) (s : State) : (ringSq fn q v s).pending = s.pending := (ringSq_core fn q v s).2.2

theorem ringCq_core (fn q : Nat) (v : W32) (s : State) : SameAll (ringCq fn q v s) s := by
  unfold ringCq
  try dsimp only
  repeat' split
  all_goals (first | (simp [SameAll]; done) | exact ⟨rfl, rfl, rfl⟩ | (simp_all [SameAll]; done) | grind [SameAll] | (simp [SameAll]; grind [SameAll]) | (simp +zetaDelta [SameAll]; done) | ((try dsimp only); (repeat' (first | (exact SameAll.refl _) | assumption | (simp [SameAll]; done) | split | with_reducible refine SameAll.trans (updQueue_core ..) ?_ | with_reducible refine SameAll.trans (SameAll.foldl (fun _ _ => ?_) _ _) ?_ | with_reducible refine SameAll.trans (SameAll.foldr (fun _ _ => ?_) _ _) ?_ | with_reducible refine SameAll.trans ⟨rfl, rfl, rfl⟩ ?_)); done) | (refine SameAll.foldl ?_ _ _; intro st x; (try dsimp only); (repeat' split); all_goals (first | (simp [SameAll]; done) | (simp_all [SameAll]; done) | grind [SameAll])))

@[simp] theorem ringCq_copies (fn q : Nat) (v : W32) (s : State) : (ringCq fn q v s).lc.copies = s.lc.copies := (ringCq_core fn q v s).1

@[simp] theorem ringCq_life (fn q : Nat) (v : W32) (s : State) : (ringCq fn q v s).fv.life = s.fv.life := (ringCq_core fn q v s).2.1

@[simp] theorem ringCq_pending (fn q : Nat) (v : W32) (s : State) : (ringCq fn q v s).pending = s.pending := (ringCq_core fn q v s).2.2

theorem actTail_core (fn q : Nat) (v : W32) (s : State) : SameAll (actTail fn q v s) s := by
  unfold actTail
  try dsimp only
  repeat' split
  all_goals (first | (simp [SameAll]; done) | exact ⟨rfl, rfl, rfl⟩ | (simp_all [SameAll]; done) | grind [SameAll] | (simp [SameAll]; grind [SameAll]) | (simp +zetaDelta [SameAll]; done) | ((try dsimp only); (repeat' (first | (exact SameAll.refl _) | assumption | (simp [SameAll]; done) | split | with_reducible refine SameAll.trans (setEvent_core ..) ?_ | with_reducible refine SameAll.trans (updQueue_core ..) ?_ | with_reducible refine SameAll.trans (setFerr_core ..) ?_ | with_reducible refine SameAll.trans (queueError_core ..) ?_ | with_reducible refine SameAll.trans (SameAll.foldl (fun _ _ => ?_) _ _) ?_ | with_reducible refine SameAll.trans (SameAll.foldr (fun _ _ => ?_) _ _) ?_ | with_reducible refine SameAll.trans ⟨rfl, rfl, rfl⟩ ?_)); done) | (refine SameAll.foldl ?_ _ _; intro st x; (try dsimp only); (repeat' split); all_goals (first | (simp [SameAll]; done) | (simp_all [SameAll]; done) | grind [SameAll])))

@[simp] theorem actTail_copies (fn q : Nat) (v : W32) (s : State) : (actTail fn q v s).lc.copies = s.lc.copies := (actTail_core fn q v s).1

@[simp] theorem actTail_life (fn q : Nat) (v : W32) (s : State) : (actTail fn q v s).fv.life = s.fv.life := (actTail_core fn q v s).2.1

@[simp] theorem actTail_pending (fn q : Nat) (v : W32) (s : State) : (actTail fn q v s).pending = s.pending := (actTail_core fn q v s).2.2

theorem actHead_core (fn q : Nat) (v : W32) (s : State) : SameAll (actHead fn q v s) s := by
  unfold actHead
  try dsimp only
  repeat' split
  all_goals (first | (simp [SameAll]; done) | exact ⟨rfl, rfl, rfl⟩ | (simp_all [SameAll]; done) | grind [SameAll] | (simp [SameAll]; grind [SameAll]) | (simp +zetaDelta [SameAll]; done) | ((try dsimp only); (repeat' (first | (exact SameAll.refl _) | assumption | (simp [SameAll]; done) | split | with_reducible refine SameAll.trans (setEvent_core ..) ?_ | with_reducible refine SameAll.trans (updQueue_core ..) ?_ | with_reducible refine SameAll.trans (setFerr_core ..) ?_ | with_reducible refine SameAll.trans (queueError_core ..) ?_ | with_reducible refine SameAll.trans (SameAll.foldl (fun _ _ => ?_) _ _) ?_ | with_reducible refine SameAll.trans (SameAll.foldr (fun _ _ => ?_) _ _) ?_ | with_reducible refine SameAll.trans ⟨rfl, rfl, rfl⟩ ?_)); done) | (refine SameAll.foldl ?_ _ _; intro st x; (try dsimp only); (repeat' split); all_goals (first | (simp [SameAll]; done) | (simp_all [SameAll]; done) | grind [SameAll])))

@[simp] theorem actHead_copies (fn q : Nat) (v : W32) (s : State) : (actHead fn q v s).lc.copies = s.lc.copies := (actHead_core fn q v s).1

@[simp] theorem actHead_life (fn q : Nat) (v : W32) (s : State) : (actHead fn q v s).fv.life = s.fv.life := (actHead_core fn q v s).2.1

@[simp] theorem actHead_pending (fn q : Nat) (v : W32) (s : State) : (actHead fn q v s).pending = s.pending := (actHead_core fn q v s).2.2

theorem serveQueue_core (s : State) (e : Nat × Queue) : SameAll (serveQueue s e) s := by
  unfold serveQueue
  try dsimp only
  repeat' split
  all_goals (first | (simp [SameAll]; done) | exact ⟨rfl, rfl, rfl⟩ | (simp_all [SameAll]; done) | grind [SameAll] | (simp [SameAll]; grind [SameAll]) | (simp +zetaDelta [SameAll]; done) | ((try dsimp only); (repeat' (first | (exact SameAll.refl _) | assumption | (simp [SameAll]; done) | split | with_reducible refine SameAll.trans (updQueue_core ..) ?_ | with_reducible refine SameAll.trans (actTail_core ..) ?_ | with_reducible refine SameAll.trans (actHead_core ..) ?_ | with_reducible refine SameAll.trans (SameAll.foldl (fun _ _ => ?_) _ _) ?_ | with_reducible refine SameAll.trans (SameAll.foldr (fun _ _ => ?_) _ _) ?_ | with_reducible refine SameAll.trans ⟨rfl, rfl, rfl⟩ ?_)); done) | (refine SameAll.foldl ?_ _ _; intro st x; (try dsimp only); (repeat' split); all_goals (first | (simp [SameAll]; done) | (simp_all [SameAll]; done) | grind [SameAll])))

@[simp] theorem serveQueue_copies (s : State) (e : Nat × Queue) : (serveQueue s e).lc.copies = s.lc.copies := (serveQueue_core s e).1

@[simp] theorem serveQueue_life (s : State) (e : Nat × Queue) : (serveQueue s e).fv.life = s.fv.life := (serveQueue_core s e).2.1

@[simp] theorem serveQueue_pending (s : State) (e : Nat × Queue) : (serveQueue s e).pending = s.pending := (serveQueue_core s e).2.2

theorem serveDoorbells_core (s : State) : SameAll (serveDoorbells s) s := by
  unfold serveDoorbells
  try dsimp only
  repeat' split
  all_goals (first | (simp [SameAll]; done) | exact ⟨rfl, rfl, rfl⟩ | (simp_all [SameAll]; done) | grind [SameAll] | (simp [SameAll]; grind [SameAll]) | (simp +zetaDelta [SameAll]; done) | ((try dsimp only); (repeat' (first | (exact SameAll.refl _) | assumption | (simp [SameAll]; done) | split | with_reducible refine SameAll.trans (serveQueue_core ..) ?_ | with_reducible refine SameAll.trans (SameAll.foldl (fun _ _ => ?_) _ _) ?_ | with_reducible refine SameAll.trans (SameAll.foldr (fun _ _ => ?_) _ _) ?_ | with_reducible refine SameAll.trans ⟨rfl, rfl, rfl⟩ ?_)); done) | (refine SameAll.foldl ?_ _ _; intro st x; (try dsimp only); (repeat' split); all_goals (first | (simp [SameAll]; done) | (simp_all [SameAll]; done) | grind [SameAll])))

@[simp] theorem serveDoorbells_copies (s : State) : (serveDoorbells s).lc.copies = s.lc.copies := (serveDoorbells_core s).1

@[simp] theorem serveDoorbells_life (s : State) : (serveDoorbells s).fv.life = s.fv.life := (serveDoorbells_core s).2.1

@[simp] theorem serveDoorbells_pending (s : State) : (serveDoorbells s).pending = s.pending := (serveDoorbells_core s).2.2

theorem oweNotify_core (p stall reason : Nat) (s : State) : SameAll (oweNotify p stall reason s) s := by
  unfold oweNotify
  try dsimp only
  repeat' split
  all_goals (first | (simp [SameAll]; done) | exact ⟨rfl, rfl, rfl⟩ | (simp_all [SameAll]; done) | grind [SameAll] | (simp [SameAll]; grind [SameAll]) | (simp +zetaDelta [SameAll]; done) | ((try dsimp only); (repeat' (first | (exact SameAll.refl _) | assumption | (simp [SameAll]; done) | split | with_reducible refine SameAll.trans (SameAll.foldl (fun _ _ => ?_) _ _) ?_ | with_reducible refine SameAll.trans (SameAll.foldr (fun _ _ => ?_) _ _) ?_ | with_reducible refine SameAll.trans ⟨rfl, rfl, rfl⟩ ?_)); done) | (refine SameAll.foldl ?_ _ _; intro st x; (try dsimp only); (repeat' split); all_goals (first | (simp [SameAll]; done) | (simp_all [SameAll]; done) | grind [SameAll])))

@[simp] theorem oweNotify_copies (p stall reason : Nat) (s : State) : (oweNotify p stall reason s).lc.copies = s.lc.copies := (oweNotify_core p stall reason s).1

@[simp] theorem oweNotify_life (p stall reason : Nat) (s : State) : (oweNotify p stall reason s).fv.life = s.fv.life := (oweNotify_core p stall reason s).2.1

@[simp] theorem oweNotify_pending (p stall reason : Nat) (s : State) : (oweNotify p stall reason s).pending = s.pending := (oweNotify_core p stall reason s).2.2

theorem updFwWin_core (c : Nat) (f : FwWin → FwWin) (s : State) : SameAll (updFwWin c f s) s := by
  unfold updFwWin
  try dsimp only
  repeat' split
  all_goals (first | (simp [SameAll]; done) | exact ⟨rfl, rfl, rfl⟩ | (simp_all [SameAll]; done) | grind [SameAll] | (simp [SameAll]; grind [SameAll]) | (simp +zetaDelta [SameAll]; done) | ((try dsimp only); (repeat' (first | (exact SameAll.refl _) | assumption | (simp [SameAll]; done) | split | with_reducible refine SameAll.trans (SameAll.foldl (fun _ _ => ?_) _ _) ?_ | with_reducible refine SameAll.trans (SameAll.foldr (fun _ _ => ?_) _ _) ?_ | with_reducible refine SameAll.trans ⟨rfl, rfl, rfl⟩ ?_)); done) | (refine SameAll.foldl ?_ _ _; intro st x; (try dsimp only); (repeat' split); all_goals (first | (simp [SameAll]; done) | (simp_all [SameAll]; done) | grind [SameAll])))

@[simp] theorem updFwWin_copies (c : Nat) (f : FwWin → FwWin) (s : State) : (updFwWin c f s).lc.copies = s.lc.copies := (updFwWin_core c f s).1

@[simp] theorem updFwWin_life (c : Nat) (f : FwWin → FwWin) (s : State) : (updFwWin c f s).fv.life = s.fv.life := (updFwWin_core c f s).2.1

@[simp] theorem updFwWin_pending (c : Nat) (f : FwWin → FwWin) (s : State) : (updFwWin c f s).pending = s.pending := (updFwWin_core c f s).2.2

theorem setFifo_core (p : Nat) (l : List FwEntry) (s : State) : SameAll (setFifo p l s) s := by
  unfold setFifo
  try dsimp only
  repeat' split
  all_goals (first | (simp [SameAll]; done) | exact ⟨rfl, rfl, rfl⟩ | (simp_all [SameAll]; done) | grind [SameAll] | (simp [SameAll]; grind [SameAll]) | (simp +zetaDelta [SameAll]; done) | ((try dsimp only); (repeat' (first | (exact SameAll.refl _) | assumption | (simp [SameAll]; done) | split | with_reducible refine SameAll.trans (SameAll.foldl (fun _ _ => ?_) _ _) ?_ | with_reducible refine SameAll.trans (SameAll.foldr (fun _ _ => ?_) _ _) ?_ | with_reducible refine SameAll.trans ⟨rfl, rfl, rfl⟩ ?_)); done) | (refine SameAll.foldl ?_ _ _; intro st x; (try dsimp only); (repeat' split); all_goals (first | (simp [SameAll]; done) | (simp_all [SameAll]; done) | grind [SameAll])))

@[simp] theorem setFifo_copies (p : Nat) (l : List FwEntry) (s : State) : (setFifo p l s).lc.copies = s.lc.copies := (setFifo_core p l s).1

@[simp] theorem setFifo_life (p : Nat) (l : List FwEntry) (s : State) : (setFifo p l s).fv.life = s.fv.life := (setFifo_core p l s).2.1

@[simp] theorem setFifo_pending (p : Nat) (l : List FwEntry) (s : State) : (setFifo p l s).pending = s.pending := (setFifo_core p l s).2.2

theorem raiseQueueIrq_core (p : Nat) (s : State) : SameAll (raiseQueueIrq p s) s := by
  unfold raiseQueueIrq
  try dsimp only
  repeat' split
  all_goals (first | (simp [SameAll]; done) | exact ⟨rfl, rfl, rfl⟩ | (simp_all [SameAll]; done) | grind [SameAll] | (simp [SameAll]; grind [SameAll]) | (simp +zetaDelta [SameAll]; done) | ((try dsimp only); (repeat' (first | (exact SameAll.refl _) | assumption | (simp [SameAll]; done) | split | with_reducible refine SameAll.trans (setPend_core ..) ?_ | with_reducible refine SameAll.trans (SameAll.foldl (fun _ _ => ?_) _ _) ?_ | with_reducible refine SameAll.trans (SameAll.foldr (fun _ _ => ?_) _ _) ?_ | with_reducible refine SameAll.trans ⟨rfl, rfl, rfl⟩ ?_)); done) | (refine SameAll.foldl ?_ _ _; intro st x; (try dsimp only); (repeat' split); all_goals (first | (simp [SameAll]; done) | (simp_all [SameAll]; done) | grind [SameAll])))

@[simp] theorem raiseQueueIrq_copies (p : Nat) (s : State) : (raiseQueueIrq p s).lc.copies = s.lc.copies := (raiseQueueIrq_core p s).1

@[simp] theorem raiseQueueIrq_life (p : Nat) (s : State) : (raiseQueueIrq p s).fv.life = s.fv.life := (raiseQueueIrq_core p s).2.1

@[simp] theorem raiseQueueIrq_pending (p : Nat) (s : State) : (raiseQueueIrq p s).pending = s.pending := (raiseQueueIrq_core p s).2.2

theorem fwTake_core (c : Nat) (s : State) : SameAll (fwTake c s) s := by
  unfold fwTake
  try dsimp only
  repeat' split
  all_goals (first | (simp [SameAll]; done) | exact ⟨rfl, rfl, rfl⟩ | (simp_all [SameAll]; done) | grind [SameAll] | (simp [SameAll]; grind [SameAll]) | (simp +zetaDelta [SameAll]; done) | ((try dsimp only); (repeat' (first | (exact SameAll.refl _) | assumption | (simp [SameAll]; done) | split | with_reducible refine SameAll.trans (updFwWin_core ..) ?_ | with_reducible refine SameAll.trans (setFifo_core ..) ?_ | with_reducible refine SameAll.trans (SameAll.foldl (fun _ _ => ?_) _ _) ?_ | with_reducible refine SameAll.trans (SameAll.foldr (fun _ _ => ?_) _ _) ?_ | with_reducible refine SameAll.trans ⟨rfl, rfl, rfl⟩ ?_)); done) | (refine SameAll.foldl ?_ _ _; intro st x; (try dsimp only); (repeat' split); all_goals (first | (simp [SameAll]; done) | (simp_all [SameAll]; done) | grind [SameAll])))

@[simp] theorem fwTake_copies (c : Nat) (s : State) : (fwTake c s).lc.copies = s.lc.copies := (fwTake_core c s).1

@[simp] theorem fwTake_life (c : Nat) (s : State) : (fwTake c s).fv.life = s.fv.life := (fwTake_core c s).2.1

@[simp] theorem fwTake_pending (c : Nat) (s : State) : (fwTake c s).pending = s.pending := (fwTake_core c s).2.2

theorem fwPost_core (c slot : Nat) (s : State) : SameAll (fwPost c slot s) s := by
  unfold fwPost
  try dsimp only
  repeat' split
  all_goals (first | (simp [SameAll]; done) | exact ⟨rfl, rfl, rfl⟩ | (simp_all [SameAll]; done) | grind [SameAll] | (simp [SameAll]; grind [SameAll]) | (simp +zetaDelta [SameAll]; done) | ((try dsimp only); (repeat' (first | (exact SameAll.refl _) | assumption | (simp [SameAll]; done) | split | with_reducible refine SameAll.trans (hostCompleteLater_core ..) ?_ | with_reducible refine SameAll.trans (updFwWin_core ..) ?_ | with_reducible refine SameAll.trans (SameAll.foldl (fun _ _ => ?_) _ _) ?_ | with_reducible refine SameAll.trans (SameAll.foldr (fun _ _ => ?_) _ _) ?_ | with_reducible refine SameAll.trans ⟨rfl, rfl, rfl⟩ ?_)); done) | (refine SameAll.foldl ?_ _ _; intro st x; (try dsimp only); (repeat' split); all_goals (first | (simp [SameAll]; done) | (simp_all [SameAll]; done) | grind [SameAll])))

@[simp] theorem fwPost_copies (c slot : Nat) (s : State) : (fwPost c slot s).lc.copies = s.lc.copies := (fwPost_core c slot s).1

@[simp] theorem fwPost_life (c slot : Nat) (s : State) : (fwPost c slot s).fv.life = s.fv.life := (fwPost_core c slot s).2.1

@[simp] theorem fwPost_pending (c slot : Nat) (s : State) : (fwPost c slot s).pending = s.pending := (fwPost_core c slot s).2.2

theorem redeliver_core (c : Nat) (s : State) : SameAll (redeliver c s) s := by
  unfold redeliver
  try dsimp only
  repeat' split
  all_goals (first | (simp [SameAll]; done) | exact ⟨rfl, rfl, rfl⟩ | (simp_all [SameAll]; done) | grind [SameAll] | (simp [SameAll]; grind [SameAll]) | (simp +zetaDelta [SameAll]; done) | ((try dsimp only); (repeat' (first | (exact SameAll.refl _) | assumption | (simp [SameAll]; done) | split | with_reducible refine SameAll.trans (setEvent_core ..) ?_ | with_reducible refine SameAll.trans (updFwWin_core ..) ?_ | with_reducible refine SameAll.trans (setFifo_core ..) ?_ | with_reducible refine SameAll.trans (raiseQueueIrq_core ..) ?_ | with_reducible refine SameAll.trans (SameAll.foldl (fun _ _ => ?_) _ _) ?_ | with_reducible refine SameAll.trans (SameAll.foldr (fun _ _ => ?_) _ _) ?_ | with_reducible refine SameAll.trans ⟨rfl, rfl, rfl⟩ ?_)); done) | (refine SameAll.foldl ?_ _ _; intro st x; (try dsimp only); (repeat' split); all_goals (first | (simp [SameAll]; done) | (simp_all [SameAll]; done) | grind [SameAll])))

@[simp] theorem redeliver_copies (c : Nat) (s : State) : (redeliver c s).lc.copies = s.lc.copies := (redeliver_core c s).1

@[simp] theorem redeliver_life (c : Nat) (s : State) : (redeliver c s).fv.life = s.fv.life := (redeliver_core c s).2.1

@[simp] theorem redeliver_pending (c : Nat) (s : State) : (redeliver c s).pending = s.pending := (redeliver_core c s).2.2

theorem askReset_core (fn : Nat) (s : State) : SameAll (askReset fn s) s := by
  unfold askReset
  try dsimp only
  repeat' split
  all_goals (first | (simp [SameAll]; done) | exact ⟨rfl, rfl, rfl⟩ | (simp_all [SameAll]; done) | grind [SameAll] | (simp [SameAll]; grind [SameAll]) | (simp +zetaDelta [SameAll]; done) | ((try dsimp only); (repeat' (first | (exact SameAll.refl _) | assumption | (simp [SameAll]; done) | split | with_reducible refine SameAll.trans (updFunc_core ..) ?_ | with_reducible refine SameAll.trans (SameAll.foldl (fun _ _ => ?_) _ _) ?_ | with_reducible refine SameAll.trans (SameAll.foldr (fun _ _ => ?_) _ _) ?_ | with_reducible refine SameAll.trans ⟨rfl, rfl, rfl⟩ ?_)); done) | (refine SameAll.foldl ?_ _ _; intro st x; (try dsimp only); (repeat' split); all_goals (first | (simp [SameAll]; done) | (simp_all [SameAll]; done) | grind [SameAll])))

@[simp] theorem askReset_copies (fn : Nat) (s : State) : (askReset fn s).lc.copies = s.lc.copies := (askReset_core fn s).1

@[simp] theorem askReset_life (fn : Nat) (s : State) : (askReset fn s).fv.life = s.fv.life := (askReset_core fn s).2.1

@[simp] theorem askReset_pending (fn : Nat) (s : State) : (askReset fn s).pending = s.pending := (askReset_core fn s).2.2

theorem askResetAll_core (s : State) : SameAll (askResetAll s) s := by
  unfold askResetAll
  try dsimp only
  repeat' split
  all_goals (first | (simp [SameAll]; done) | exact ⟨rfl, rfl, rfl⟩ | (simp_all [SameAll]; done) | grind [SameAll] | (simp [SameAll]; grind [SameAll]) | (simp +zetaDelta [SameAll]; done) | ((try dsimp only); (repeat' (first | (exact SameAll.refl _) | assumption | (simp [SameAll]; done) | split | with_reducible refine SameAll.trans (askReset_core ..) ?_ | with_reducible refine SameAll.trans (SameAll.foldl (fun _ _ => ?_) _ _) ?_ | with_reducible refine SameAll.trans (SameAll.foldr (fun _ _ => ?_) _ _) ?_ | with_reducible refine SameAll.trans ⟨rfl, rfl, rfl⟩ ?_)); done) | (refine SameAll.foldl ?_ _ _; intro st x; (try dsimp only); (repeat' split); all_goals (first | (simp [SameAll]; done) | (simp_all [SameAll]; done) | grind [SameAll])))

@[simp] theorem askResetAll_copies (s : State) : (askResetAll s).lc.copies = s.lc.copies := (askResetAll_core s).1

@[simp] theorem askResetAll_life (s : State) : (askResetAll s).fv.life = s.fv.life := (askResetAll_core s).2.1

@[simp] theorem askResetAll_pending (s : State) : (askResetAll s).pending = s.pending := (askResetAll_core s).2.2

theorem resetFunctionQueues_core (fn : Nat) (s : State) : SameAll (resetFunctionQueues fn s) s := by
  unfold resetFunctionQueues
  try dsimp only
  repeat' split
  all_goals (first | (simp [SameAll]; done) | exact ⟨rfl, rfl, rfl⟩ | (simp_all [SameAll]; done) | grind [SameAll] | (simp [SameAll]; grind [SameAll]) | (simp +zetaDelta [SameAll]; done) | ((try dsimp only); (repeat' (first | (exact SameAll.refl _) | assumption | (simp [SameAll]; done) | split | with_reducible refine SameAll.trans (setEvent_core ..) ?_ | with_reducible refine SameAll.trans (updFunc_core ..) ?_ | with_reducible refine SameAll.trans (updFwWin_core ..) ?_ | with_reducible refine SameAll.trans (SameAll.foldl (fun _ _ => ?_) _ _) ?_ | with_reducible refine SameAll.trans (SameAll.foldr (fun _ _ => ?_) _ _) ?_ | with_reducible refine SameAll.trans ⟨rfl, rfl, rfl⟩ ?_)); done) | (refine SameAll.foldl ?_ _ _; intro st x; (try dsimp only); (repeat' split); all_goals (first | (simp [SameAll]; done) | (simp_all [SameAll]; done) | grind [SameAll])))

@[simp] theorem resetFunctionQueues_copies (fn : Nat) (s : State) : (resetFunctionQueues fn s).lc.copies = s.lc.copies := (resetFunctionQueues_core fn s).1

@[simp] theorem resetFunctionQueues_life (fn : Nat) (s : State) : (resetFunctionQueues fn s).fv.life = s.fv.life := (resetFunctionQueues_core fn s).2.1

@[simp] theorem resetFunctionQueues_pending (fn : Nat) (s : State) : (resetFunctionQueues fn s).pending = s.pending := (resetFunctionQueues_core fn s).2.2

theorem configWrite_core (fn : Nat) (req : ConfigReq) (s : State) : SameAll (configWrite fn req s) s := by
  unfold configWrite
  try dsimp only
  repeat' split
  all_goals (first | (simp [SameAll]; done) | exact ⟨rfl, rfl, rfl⟩ | (simp_all [SameAll]; done) | grind [SameAll] | (simp [SameAll]; grind [SameAll]) | (simp +zetaDelta [SameAll]; done) | ((try dsimp only); (repeat' (first | (exact SameAll.refl _) | assumption | (simp [SameAll]; done) | split | with_reducible refine SameAll.trans (updFunc_core ..) ?_ | with_reducible refine SameAll.trans (sendPending_core ..) ?_ | with_reducible refine SameAll.trans (askReset_core ..) ?_ | with_reducible refine SameAll.trans (SameAll.foldl (fun _ _ => ?_) _ _) ?_ | with_reducible refine SameAll.trans (SameAll.foldr (fun _ _ => ?_) _ _) ?_ | with_reducible refine SameAll.trans ⟨rfl, rfl, rfl⟩ ?_)); done) | (refine SameAll.foldl ?_ _ _; intro st x; (try dsimp only); (repeat' split); all_goals (first | (simp [SameAll]; done) | (simp_all [SameAll]; done) | grind [SameAll])))

@[simp] theorem configWrite_copies (fn : Nat) (req : ConfigReq) (s : State) : (configWrite fn req s).lc.copies = s.lc.copies := (configWrite_core fn req s).1

@[simp] theorem configWrite_life (fn : Nat) (req : ConfigReq) (s : State) : (configWrite fn req s).fv.life = s.fv.life := (configWrite_core fn req s).2.1

@[simp] theorem configWrite_pending (fn : Nat) (req : ConfigReq) (s : State) : (configWrite fn req s).pending = s.pending := (configWrite_core fn req s).2.2

theorem writeAllot_core (adm : Bool) (v : W32) (s : State) : SameAll (writeAllot adm v s) s := by
  unfold writeAllot
  try dsimp only
  repeat' split
  all_goals (first | (simp [SameAll]; done) | exact ⟨rfl, rfl, rfl⟩ | (simp_all [SameAll]; done) | grind [SameAll] | (simp [SameAll]; grind [SameAll]) | (simp +zetaDelta [SameAll]; done) | ((try dsimp only); (repeat' (first | (exact SameAll.refl _) | assumption | (simp [SameAll]; done) | split | with_reducible refine SameAll.trans (setEvent_core ..) ?_ | with_reducible refine SameAll.trans (SameAll.foldl (fun _ _ => ?_) _ _) ?_ | with_reducible refine SameAll.trans (SameAll.foldr (fun _ _ => ?_) _ _) ?_ | with_reducible refine SameAll.trans ⟨rfl, rfl, rfl⟩ ?_)); done) | (refine SameAll.foldl ?_ _ _; intro st x; (try dsimp only); (repeat' split); all_goals (first | (simp [SameAll]; done) | (simp_all [SameAll]; done) | grind [SameAll])))

@[simp] theorem writeAllot_copies (adm : Bool) (v : W32) (s : State) : (writeAllot adm v s).lc.copies = s.lc.copies := (writeAllot_core adm v s).1

@[simp] theorem writeAllot_life (adm : Bool) (v : W32) (s : State) : (writeAllot adm v s).fv.life = s.fv.life := (writeAllot_core adm v s).2.1

@[simp] theorem writeAllot_pending (adm : Bool) (v : W32) (s : State) : (writeAllot adm v s).pending = s.pending := (writeAllot_core adm v s).2.2

theorem updFunc_same (fn : Nat) (f : Func → Func) (s : State) : SameMem (updFunc fn f s) s := by
  unfold updFunc
  try dsimp only
  repeat' split
  all_goals (first | (simp [SameMem]; done) | exact rfl | (simp_all [SameMem]; done) | grind [SameMem] | (simp [SameMem]; grind [SameMem]) | (simp +zetaDelta [SameMem]; done) | ((try dsimp only); (repeat' (first | (exact SameMem.refl _) | assumption | (simp [SameMem]; done) | split | with_reducible refine SameMem.trans (SameMem.foldl (fun _ _ => ?_) _ _) ?_ | with_reducible refine SameMem.trans (SameMem.foldr (fun _ _ => ?_) _ _) ?_ | with_reducible refine SameMem.trans rfl ?_)); done) | (refine SameMem.foldl ?_ _ _; intro st x; (try dsimp only); (repeat' split); all_goals (first | (simp [SameMem]; done) | (simp_all [SameMem]; done) | grind [SameMem])))

@[simp] theorem updFunc_mem (fn : Nat) (f : Func → Func) (s : State) : (updFunc fn f s).mem = s.mem := updFunc_same fn f s

theorem updQueue_same (fn q : Nat) (f : Queue → Queue) (s : State) : SameMem (updQueue fn q f s) s := by
  unfold updQueue
  try dsimp only
  repeat' split
  all_goals (first | (simp [SameMem]; done) | exact rfl | (simp_all [SameMem]; done) | grind [SameMem] | (simp [SameMem]; grind [SameMem]) | (simp +zetaDelta [SameMem]; done) | ((try dsimp only); (repeat' (first | (exact SameMem.refl _) | assumption | (simp [SameMem]; done) | split | with_reducible refine SameMem.trans (SameMem.foldl (fun _ _ => ?_) _ _) ?_ | with_reducible refine SameMem.trans (SameMem.foldr (fun _ _ => ?_) _ _) ?_ | with_reducible refine SameMem.trans rfl ?_)); done) | (refine SameMem.foldl ?_ _ _; intro st x; (try dsimp only); (repeat' split); all_goals (first | (simp [SameMem]; done) | (simp_all [SameMem]; done) | grind [SameMem])))

@[simp] theorem updQueue_mem (fn q : Nat) (f : Queue → Queue) (s : State) : (updQueue fn q f s).mem = s.mem := updQueue_same fn q f s

theorem putCompletion_wf (fn qn cid cls seq : Nat) (lost : Bool) (result : List Byte) (s : State) : KeepMem (putCompletion fn qn cid cls seq lost result s) s := by
  unfold putCompletion
  try dsimp only
  iterate 30 all_goals (try first | with_reducible exact KeepMem.refl _ | assumption | split | with_reducible refine KeepMem.trans (hostPut_wf ..) ?_ | with_reducible refine KeepMem.trans (KeepMem.of_eq (updQueue_mem ..)) ?_ | with_reducible refine KeepMem.trans (KeepMem.foldl (fun _ _ => ?_) _ _) ?_ | with_reducible refine KeepMem.trans (KeepMem.foldr (fun _ _ => ?_) _ _) ?_ | with_reducible refine KeepMem.trans (KeepMem.foldl_fst (fun _ _ => ?_) _ _) ?_ | with_reducible refine KeepMem.trans (KeepMem.foldl_snd (fun _ _ => ?_) _ _) ?_ | with_reducible refine KeepMem.trans (KeepMem.foldl_thd (fun _ _ => ?_) _ _) ?_ | (apply KeepMem.of_eq; simp; done) | with_reducible refine KeepMem.trans (KeepMem.record ..) ?_)

theorem hostComplete_wf (fn qn seq : Nat) (result : List Byte) (s : State) : KeepMem (hostComplete fn qn seq result s) s := by
  unfold hostComplete
  try dsimp only
  iterate 30 all_goals (try first | with_reducible exact KeepMem.refl _ | assumption | split | with_reducible refine KeepMem.trans (putCompletion_wf ..) ?_ | with_reducible refine KeepMem.trans (KeepMem.of_eq (updQueue_mem ..)) ?_ | with_reducible refine KeepMem.trans (KeepMem.foldl (fun _ _ => ?_) _ _) ?_ | with_reducible refine KeepMem.trans (KeepMem.foldr (fun _ _ => ?_) _ _) ?_ | with_reducible refine KeepMem.trans (KeepMem.foldl_fst (fun _ _ => ?_) _ _) ?_ | with_reducible refine KeepMem.trans (KeepMem.foldl_snd (fun _ _ => ?_) _ _) ?_ | with_reducible refine KeepMem.trans (KeepMem.foldl_thd (fun _ _ => ?_) _ _) ?_ | (apply KeepMem.of_eq; simp; done) | with_reducible refine KeepMem.trans (KeepMem.record ..) ?_)

theorem hostCompleteLater_same (fn qn seq : Nat) (result : List Byte) (s : State) : SameMem (hostCompleteLater fn qn seq result s) s := by
  unfold hostCompleteLater
  try dsimp only
  repeat' split
  all_goals (first | (simp [SameMem]; done) | exact rfl | (simp_all [SameMem]; done) | grind [SameMem] | (simp [SameMem]; grind [SameMem]) | (simp +zetaDelta [SameMem]; done) | ((try dsimp only); (repeat' (first | (exact SameMem.refl _) | assumption | (simp [SameMem]; done) | split | with_reducible refine SameMem.trans (SameMem.foldl (fun _ _ => ?_) _ _) ?_ | with_reducible refine SameMem.trans (SameMem.foldr (fun _ _ => ?_) _ _) ?_ | with_reducible refine SameMem.trans rfl ?_)); done) | (refine SameMem.foldl ?_ _ _; intro st x; (try dsimp only); (repeat' split); all_goals (first | (simp [SameMem]; done) | (simp_all [SameMem]; done) | grind [SameMem])))

@[simp] theorem hostCompleteLater_mem (fn qn seq : Nat) (result : List Byte) (s : State) : (hostCompleteLater fn qn seq result s).mem = s.mem := hostCompleteLater_same fn qn seq result s

theorem flushCompletions_wf (s : State) : KeepMem (flushCompletions s) s := by
  unfold flushCompletions
  try dsimp only
  iterate 30 all_goals (try first | with_reducible exact KeepMem.refl _ | assumption | split | with_reducible refine KeepMem.trans (hostComplete_wf ..) ?_ | with_reducible refine KeepMem.trans (KeepMem.foldl (fun _ _ => ?_) _ _) ?_ | with_reducible refine KeepMem.trans (KeepMem.foldr (fun _ _ => ?_) _ _) ?_ | with_reducible refine KeepMem.trans (KeepMem.foldl_fst (fun _ _ => ?_) _ _) ?_ | with_reducible refine KeepMem.trans (KeepMem.foldl_snd (fun _ _ => ?_) _ _) ?_ | with_reducible refine KeepMem.trans (KeepMem.foldl_thd (fun _ _ => ?_) _ _) ?_ | (apply KeepMem.of_eq; simp; done) | with_reducible refine KeepMem.trans (KeepMem.record ..) ?_)

theorem sendVector_same (fn v : Nat) (s : State) : SameMem (sendVector fn v s) s := by
  unfold sendVector
  try dsimp only
  repeat' split
  all_goals (first | (simp [SameMem]; done) | exact rfl | (simp_all [SameMem]; done) | grind [SameMem] | (simp [SameMem]; grind [SameMem]) | (simp +zetaDelta [SameMem]; done) | ((try dsimp only); (repeat' (first | (exact SameMem.refl _) | assumption | (simp [SameMem]; done) | split | with_reducible refine SameMem.trans (updFunc_same ..) ?_ | with_reducible refine SameMem.trans (SameMem.foldl (fun _ _ => ?_) _ _) ?_ | with_reducible refine SameMem.trans (SameMem.foldr (fun _ _ => ?_) _ _) ?_ | with_reducible refine SameMem.trans rfl ?_)); done) | (refine SameMem.foldl ?_ _ _; intro st x; (try dsimp only); (repeat' split); all_goals (first | (simp [SameMem]; done) | (simp_all [SameMem]; done) | grind [SameMem])))

@[simp] theorem sendVector_mem (fn v : Nat) (s : State) : (sendVector fn v s).mem = s.mem := sendVector_same fn v s

theorem sendPending_same (fn : Nat) (s : State) : SameMem (sendPending fn s) s := by
  unfold sendPending
  try dsimp only
  repeat' split
  all_goals (first | (simp [SameMem]; done) | exact rfl | (simp_all [SameMem]; done) | grind [SameMem] | (simp [SameMem]; grind [SameMem]) | (simp +zetaDelta [SameMem]; done) | ((try dsimp only); (repeat' (first | (exact SameMem.refl _) | assumption | (simp [SameMem]; done) | split | with_reducible refine SameMem.trans (updFunc_same ..) ?_ | with_reducible refine SameMem.trans (SameMem.foldl (fun _ _ => ?_) _ _) ?_ | with_reducible refine SameMem.trans (SameMem.foldr (fun _ _ => ?_) _ _) ?_ | with_reducible refine SameMem.trans rfl ?_)); done) | (refine SameMem.foldl ?_ _ _; intro st x; (try dsimp only); (repeat' split); all_goals (first | (simp [SameMem]; done) | (simp_all [SameMem]; done) | grind [SameMem])))

@[simp] theorem sendPending_mem (fn : Nat) (s : State) : (sendPending fn s).mem = s.mem := sendPending_same fn s

theorem setFerr_same (fn bit : Nat) (s : State) : SameMem (setFerr fn bit s) s := by
  unfold setFerr
  try dsimp only
  repeat' split
  all_goals (first | (simp [SameMem]; done) | exact rfl | (simp_all [SameMem]; done) | grind [SameMem] | (simp [SameMem]; grind [SameMem]) | (simp +zetaDelta [SameMem]; done) | ((try dsimp only); (repeat' (first | (exact SameMem.refl _) | assumption | (simp [SameMem]; done) | split | with_reducible refine SameMem.trans (updFunc_same ..) ?_ | with_reducible refine SameMem.trans (SameMem.foldl (fun _ _ => ?_) _ _) ?_ | with_reducible refine SameMem.trans (SameMem.foldr (fun _ _ => ?_) _ _) ?_ | with_reducible refine SameMem.trans rfl ?_)); done) | (refine SameMem.foldl ?_ _ _; intro st x; (try dsimp only); (repeat' split); all_goals (first | (simp [SameMem]; done) | (simp_all [SameMem]; done) | grind [SameMem])))

@[simp] theorem setFerr_mem (fn bit : Nat) (s : State) : (setFerr fn bit s).mem = s.mem := setFerr_same fn bit s

theorem queueError_same (fn q code : Nat) (s : State) : SameMem (queueError fn q code s) s := by
  unfold queueError
  try dsimp only
  repeat' split
  all_goals (first | (simp [SameMem]; done) | exact rfl | (simp_all [SameMem]; done) | grind [SameMem] | (simp [SameMem]; grind [SameMem]) | (simp +zetaDelta [SameMem]; done) | ((try dsimp only); (repeat' (first | (exact SameMem.refl _) | assumption | (simp [SameMem]; done) | split | with_reducible refine SameMem.trans (setEvent_same ..) ?_ | with_reducible refine SameMem.trans (updQueue_same ..) ?_ | with_reducible refine SameMem.trans (setFerr_same ..) ?_ | with_reducible refine SameMem.trans (SameMem.foldl (fun _ _ => ?_) _ _) ?_ | with_reducible refine SameMem.trans (SameMem.foldr (fun _ _ => ?_) _ _) ?_ | with_reducible refine SameMem.trans rfl ?_)); done) | (refine SameMem.foldl ?_ _ _; intro st x; (try dsimp only); (repeat' split); all_goals (first | (simp [SameMem]; done) | (simp_all [SameMem]; done) | grind [SameMem])))

@[simp] theorem queueError_mem (fn q code : Nat) (s : State) : (queueError fn q code s).mem = s.mem := queueError_same fn q code s

theorem dropCancels_same (fn q : Nat) (s : State) : SameMem (dropCancels fn q s) s := by
  unfold dropCancels
  try dsimp only
  repeat' split
  all_goals (first | (simp [SameMem]; done) | exact rfl | (simp_all [SameMem]; done) | grind [SameMem] | (simp [SameMem]; grind [SameMem]) | (simp +zetaDelta [SameMem]; done) | ((try dsimp only); (repeat' (first | (exact SameMem.refl _) | assumption | (simp [SameMem]; done) | split | with_reducible refine SameMem.trans (updFunc_same ..) ?_ | with_reducible refine SameMem.trans (SameMem.foldl (fun _ _ => ?_) _ _) ?_ | with_reducible refine SameMem.trans (SameMem.foldr (fun _ _ => ?_) _ _) ?_ | with_reducible refine SameMem.trans rfl ?_)); done) | (refine SameMem.foldl ?_ _ _; intro st x; (try dsimp only); (repeat' split); all_goals (first | (simp [SameMem]; done) | (simp_all [SameMem]; done) | grind [SameMem])))

@[simp] theorem dropCancels_mem (fn q : Nat) (s : State) : (dropCancels fn q s).mem = s.mem := dropCancels_same fn q s

theorem refuseCmd_same (fn : Nat) (s : State) : SameMem (refuseCmd fn s) s := by
  unfold refuseCmd
  try dsimp only
  repeat' split
  all_goals (first | (simp [SameMem]; done) | exact rfl | (simp_all [SameMem]; done) | grind [SameMem] | (simp [SameMem]; grind [SameMem]) | (simp +zetaDelta [SameMem]; done) | ((try dsimp only); (repeat' (first | (exact SameMem.refl _) | assumption | (simp [SameMem]; done) | split | with_reducible refine SameMem.trans (setFerr_same ..) ?_ | with_reducible refine SameMem.trans (SameMem.foldl (fun _ _ => ?_) _ _) ?_ | with_reducible refine SameMem.trans (SameMem.foldr (fun _ _ => ?_) _ _) ?_ | with_reducible refine SameMem.trans rfl ?_)); done) | (refine SameMem.foldl ?_ _ _; intro st x; (try dsimp only); (repeat' split); all_goals (first | (simp [SameMem]; done) | (simp_all [SameMem]; done) | grind [SameMem])))

@[simp] theorem refuseCmd_mem (fn : Nat) (s : State) : (refuseCmd fn s).mem = s.mem := refuseCmd_same fn s

theorem queueCreate_same (fn : Nat) (s : State) : SameMem (queueCreate fn s) s := by
  unfold queueCreate
  try dsimp only
  repeat' split
  all_goals (first | (simp [SameMem]; done) | exact rfl | (simp_all [SameMem]; done) | grind [SameMem] | (simp [SameMem]; grind [SameMem]) | (simp +zetaDelta [SameMem]; done) | ((try dsimp only); (repeat' (first | (exact SameMem.refl _) | assumption | (simp [SameMem]; done) | split | with_reducible refine SameMem.trans (updQueue_same ..) ?_ | with_reducible refine SameMem.trans (refuseCmd_same ..) ?_ | with_reducible refine SameMem.trans (SameMem.foldl (fun _ _ => ?_) _ _) ?_ | with_reducible refine SameMem.trans (SameMem.foldr (fun _ _ => ?_) _ _) ?_ | with_reducible refine SameMem.trans rfl ?_)); done) | (refine SameMem.foldl ?_ _ _; intro st x; (try dsimp only); (repeat' split); all_goals (first | (simp [SameMem]; done) | (simp_all [SameMem]; done) | grind [SameMem])))

@[simp] theorem queueCreate_mem (fn : Nat) (s : State) : (queueCreate fn s).mem = s.mem := queueCreate_same fn s

theorem queueDelete_same (fn : Nat) (s : State) : SameMem (queueDelete fn s) s := by
  unfold queueDelete
  try dsimp only
  repeat' split
  all_goals (first | (simp [SameMem]; done) | exact rfl | (simp_all [SameMem]; done) | grind [SameMem] | (simp [SameMem]; grind [SameMem]) | (simp +zetaDelta [SameMem]; done) | ((try dsimp only); (repeat' (first | (exact SameMem.refl _) | assumption | (simp [SameMem]; done) | split | with_reducible refine SameMem.trans (updQueue_same ..) ?_ | with_reducible refine SameMem.trans (refuseCmd_same ..) ?_ | with_reducible refine SameMem.trans (SameMem.foldl (fun _ _ => ?_) _ _) ?_ | with_reducible refine SameMem.trans (SameMem.foldr (fun _ _ => ?_) _ _) ?_ | with_reducible refine SameMem.trans rfl ?_)); done) | (refine SameMem.foldl ?_ _ _; intro st x; (try dsimp only); (repeat' split); all_goals (first | (simp [SameMem]; done) | (simp_all [SameMem]; done) | grind [SameMem])))

@[simp] theorem queueDelete_mem (fn : Nat) (s : State) : (queueDelete fn s).mem = s.mem := queueDelete_same fn s

theorem queueReset_same (fn : Nat) (s : State) : SameMem (queueReset fn s) s := by
  unfold queueReset
  try dsimp only
  repeat' split
  all_goals (first | (simp [SameMem]; done) | exact rfl | (simp_all [SameMem]; done) | grind [SameMem] | (simp [SameMem]; grind [SameMem]) | (simp +zetaDelta [SameMem]; done) | ((try dsimp only); (repeat' (first | (exact SameMem.refl _) | assumption | (simp [SameMem]; done) | split | with_reducible refine SameMem.trans (updQueue_same ..) ?_ | with_reducible refine SameMem.trans (refuseCmd_same ..) ?_ | with_reducible refine SameMem.trans (SameMem.foldl (fun _ _ => ?_) _ _) ?_ | with_reducible refine SameMem.trans (SameMem.foldr (fun _ _ => ?_) _ _) ?_ | with_reducible refine SameMem.trans rfl ?_)); done) | (refine SameMem.foldl ?_ _ _; intro st x; (try dsimp only); (repeat' split); all_goals (first | (simp [SameMem]; done) | (simp_all [SameMem]; done) | grind [SameMem])))

@[simp] theorem queueReset_mem (fn : Nat) (s : State) : (queueReset fn s).mem = s.mem := queueReset_same fn s

theorem ringSq_same (fn q : Nat) (v : W32) (s : State) : SameMem (ringSq fn q v s) s := by
  unfold ringSq
  try dsimp only
  repeat' split
  all_goals (first | (simp [SameMem]; done) | exact rfl | (simp_all [SameMem]; done) | grind [SameMem] | (simp [SameMem]; grind [SameMem]) | (simp +zetaDelta [SameMem]; done) | ((try dsimp only); (repeat' (first | (exact SameMem.refl _) | assumption | (simp [SameMem]; done) | split | with_reducible refine SameMem.trans (updQueue_same ..) ?_ | with_reducible refine SameMem.trans (SameMem.foldl (fun _ _ => ?_) _ _) ?_ | with_reducible refine SameMem.trans (SameMem.foldr (fun _ _ => ?_) _ _) ?_ | with_reducible refine SameMem.trans rfl ?_)); done) | (refine SameMem.foldl ?_ _ _; intro st x; (try dsimp only); (repeat' split); all_goals (first | (simp [SameMem]; done) | (simp_all [SameMem]; done) | grind [SameMem])))

@[simp] theorem ringSq_mem (fn q : Nat) (v : W32) (s : State) : (ringSq fn q v s).mem = s.mem := ringSq_same fn q v s

theorem ringCq_same (fn q : Nat) (v : W32) (s : State) : SameMem (ringCq fn q v s) s := by
  unfold ringCq
  try dsimp only
  repeat' split
  all_goals (first | (simp [SameMem]; done) | exact rfl | (simp_all [SameMem]; done) | grind [SameMem] | (simp [SameMem]; grind [SameMem]) | (simp +zetaDelta [SameMem]; done) | ((try dsimp only); (repeat' (first | (exact SameMem.refl _) | assumption | (simp [SameMem]; done) | split | with_reducible refine SameMem.trans (updQueue_same ..) ?_ | with_reducible refine SameMem.trans (SameMem.foldl (fun _ _ => ?_) _ _) ?_ | with_reducible refine SameMem.trans (SameMem.foldr (fun _ _ => ?_) _ _) ?_ | with_reducible refine SameMem.trans rfl ?_)); done) | (refine SameMem.foldl ?_ _ _; intro st x; (try dsimp only); (repeat' split); all_goals (first | (simp [SameMem]; done) | (simp_all [SameMem]; done) | grind [SameMem])))

@[simp] theorem ringCq_mem (fn q : Nat) (v : W32) (s : State) : (ringCq fn q v s).mem = s.mem := ringCq_same fn q v s

theorem actTail_same (fn q : Nat) (v : W32) (s : State) : SameMem (actTail fn q v s) s := by
  unfold actTail
  try dsimp only
  repeat' split
  all_goals (first | (simp [SameMem]; done) | exact rfl | (simp_all [SameMem]; done) | grind [SameMem] | (simp [SameMem]; grind [SameMem]) | (simp +zetaDelta [SameMem]; done) | ((try dsimp only); (repeat' (first | (exact SameMem.refl _) | assumption | (simp [SameMem]; done) | split | with_reducible refine SameMem.trans (setEvent_same ..) ?_ | with_reducible refine SameMem.trans (updQueue_same ..) ?_ | with_reducible refine SameMem.trans (setFerr_same ..) ?_ | with_reducible refine SameMem.trans (queueError_same ..) ?_ | with_reducible refine SameMem.trans (SameMem.foldl (fun _ _ => ?_) _ _) ?_ | with_reducible refine SameMem.trans (SameMem.foldr (fun _ _ => ?_) _ _) ?_ | with_reducible refine SameMem.trans rfl ?_)); done) | (refine SameMem.foldl ?_ _ _; intro st x; (try dsimp only); (repeat' split); all_goals (first | (simp [SameMem]; done) | (simp_all [SameMem]; done) | grind [SameMem])))

@[simp] theorem actTail_mem (fn q : Nat) (v : W32) (s : State) : (actTail fn q v s).mem = s.mem := actTail_same fn q v s

theorem actHead_same (fn q : Nat) (v : W32) (s : State) : SameMem (actHead fn q v s) s := by
  unfold actHead
  try dsimp only
  repeat' split
  all_goals (first | (simp [SameMem]; done) | exact rfl | (simp_all [SameMem]; done) | grind [SameMem] | (simp [SameMem]; grind [SameMem]) | (simp +zetaDelta [SameMem]; done) | ((try dsimp only); (repeat' (first | (exact SameMem.refl _) | assumption | (simp [SameMem]; done) | split | with_reducible refine SameMem.trans (setEvent_same ..) ?_ | with_reducible refine SameMem.trans (updQueue_same ..) ?_ | with_reducible refine SameMem.trans (setFerr_same ..) ?_ | with_reducible refine SameMem.trans (queueError_same ..) ?_ | with_reducible refine SameMem.trans (SameMem.foldl (fun _ _ => ?_) _ _) ?_ | with_reducible refine SameMem.trans (SameMem.foldr (fun _ _ => ?_) _ _) ?_ | with_reducible refine SameMem.trans rfl ?_)); done) | (refine SameMem.foldl ?_ _ _; intro st x; (try dsimp only); (repeat' split); all_goals (first | (simp [SameMem]; done) | (simp_all [SameMem]; done) | grind [SameMem])))

@[simp] theorem actHead_mem (fn q : Nat) (v : W32) (s : State) : (actHead fn q v s).mem = s.mem := actHead_same fn q v s

theorem serveQueue_same (s : State) (e : Nat × Queue) : SameMem (serveQueue s e) s := by
  unfold serveQueue
  try dsimp only
  repeat' split
  all_goals (first | (simp [SameMem]; done) | exact rfl | (simp_all [SameMem]; done) | grind [SameMem] | (simp [SameMem]; grind [SameMem]) | (simp +zetaDelta [SameMem]; done) | ((try dsimp only); (repeat' (first | (exact SameMem.refl _) | assumption | (simp [SameMem]; done) | split | with_reducible refine SameMem.trans (updQueue_same ..) ?_ | with_reducible refine SameMem.trans (actTail_same ..) ?_ | with_reducible refine SameMem.trans (actHead_same ..) ?_ | with_reducible refine SameMem.trans (SameMem.foldl (fun _ _ => ?_) _ _) ?_ | with_reducible refine SameMem.trans (SameMem.foldr (fun _ _ => ?_) _ _) ?_ | with_reducible refine SameMem.trans rfl ?_)); done) | (refine SameMem.foldl ?_ _ _; intro st x; (try dsimp only); (repeat' split); all_goals (first | (simp [SameMem]; done) | (simp_all [SameMem]; done) | grind [SameMem])))

@[simp] theorem serveQueue_mem (s : State) (e : Nat × Queue) : (serveQueue s e).mem = s.mem := serveQueue_same s e

theorem serveDoorbells_same (s : State) : SameMem (serveDoorbells s) s := by
  unfold serveDoorbells
  try dsimp only
  repeat' split
  all_goals (first | (simp [SameMem]; done) | exact rfl | (simp_all [SameMem]; done) | grind [SameMem] | (simp [SameMem]; grind [SameMem]) | (simp +zetaDelta [SameMem]; done) | ((try dsimp only); (repeat' (first | (exact SameMem.refl _) | assumption | (simp [SameMem]; done) | split | with_reducible refine SameMem.trans (serveQueue_same ..) ?_ | with_reducible refine SameMem.trans (SameMem.foldl (fun _ _ => ?_) _ _) ?_ | with_reducible refine SameMem.trans (SameMem.foldr (fun _ _ => ?_) _ _) ?_ | with_reducible refine SameMem.trans rfl ?_)); done) | (refine SameMem.foldl ?_ _ _; intro st x; (try dsimp only); (repeat' split); all_goals (first | (simp [SameMem]; done) | (simp_all [SameMem]; done) | grind [SameMem])))

@[simp] theorem serveDoorbells_mem (s : State) : (serveDoorbells s).mem = s.mem := serveDoorbells_same s

theorem oweNotify_same (p stall reason : Nat) (s : State) : SameMem (oweNotify p stall reason s) s := by
  unfold oweNotify
  try dsimp only
  repeat' split
  all_goals (first | (simp [SameMem]; done) | exact rfl | (simp_all [SameMem]; done) | grind [SameMem] | (simp [SameMem]; grind [SameMem]) | (simp +zetaDelta [SameMem]; done) | ((try dsimp only); (repeat' (first | (exact SameMem.refl _) | assumption | (simp [SameMem]; done) | split | with_reducible refine SameMem.trans (SameMem.foldl (fun _ _ => ?_) _ _) ?_ | with_reducible refine SameMem.trans (SameMem.foldr (fun _ _ => ?_) _ _) ?_ | with_reducible refine SameMem.trans rfl ?_)); done) | (refine SameMem.foldl ?_ _ _; intro st x; (try dsimp only); (repeat' split); all_goals (first | (simp [SameMem]; done) | (simp_all [SameMem]; done) | grind [SameMem])))

@[simp] theorem oweNotify_mem (p stall reason : Nat) (s : State) : (oweNotify p stall reason s).mem = s.mem := oweNotify_same p stall reason s

theorem updFwWin_same (c : Nat) (f : FwWin → FwWin) (s : State) : SameMem (updFwWin c f s) s := by
  unfold updFwWin
  try dsimp only
  repeat' split
  all_goals (first | (simp [SameMem]; done) | exact rfl | (simp_all [SameMem]; done) | grind [SameMem] | (simp [SameMem]; grind [SameMem]) | (simp +zetaDelta [SameMem]; done) | ((try dsimp only); (repeat' (first | (exact SameMem.refl _) | assumption | (simp [SameMem]; done) | split | with_reducible refine SameMem.trans (SameMem.foldl (fun _ _ => ?_) _ _) ?_ | with_reducible refine SameMem.trans (SameMem.foldr (fun _ _ => ?_) _ _) ?_ | with_reducible refine SameMem.trans rfl ?_)); done) | (refine SameMem.foldl ?_ _ _; intro st x; (try dsimp only); (repeat' split); all_goals (first | (simp [SameMem]; done) | (simp_all [SameMem]; done) | grind [SameMem])))

@[simp] theorem updFwWin_mem (c : Nat) (f : FwWin → FwWin) (s : State) : (updFwWin c f s).mem = s.mem := updFwWin_same c f s

theorem setFifo_same (p : Nat) (l : List FwEntry) (s : State) : SameMem (setFifo p l s) s := by
  unfold setFifo
  try dsimp only
  repeat' split
  all_goals (first | (simp [SameMem]; done) | exact rfl | (simp_all [SameMem]; done) | grind [SameMem] | (simp [SameMem]; grind [SameMem]) | (simp +zetaDelta [SameMem]; done) | ((try dsimp only); (repeat' (first | (exact SameMem.refl _) | assumption | (simp [SameMem]; done) | split | with_reducible refine SameMem.trans (SameMem.foldl (fun _ _ => ?_) _ _) ?_ | with_reducible refine SameMem.trans (SameMem.foldr (fun _ _ => ?_) _ _) ?_ | with_reducible refine SameMem.trans rfl ?_)); done) | (refine SameMem.foldl ?_ _ _; intro st x; (try dsimp only); (repeat' split); all_goals (first | (simp [SameMem]; done) | (simp_all [SameMem]; done) | grind [SameMem])))

@[simp] theorem setFifo_mem (p : Nat) (l : List FwEntry) (s : State) : (setFifo p l s).mem = s.mem := setFifo_same p l s

theorem raiseQueueIrq_same (p : Nat) (s : State) : SameMem (raiseQueueIrq p s) s := by
  unfold raiseQueueIrq
  try dsimp only
  repeat' split
  all_goals (first | (simp [SameMem]; done) | exact rfl | (simp_all [SameMem]; done) | grind [SameMem] | (simp [SameMem]; grind [SameMem]) | (simp +zetaDelta [SameMem]; done) | ((try dsimp only); (repeat' (first | (exact SameMem.refl _) | assumption | (simp [SameMem]; done) | split | with_reducible refine SameMem.trans (setPend_same ..) ?_ | with_reducible refine SameMem.trans (SameMem.foldl (fun _ _ => ?_) _ _) ?_ | with_reducible refine SameMem.trans (SameMem.foldr (fun _ _ => ?_) _ _) ?_ | with_reducible refine SameMem.trans rfl ?_)); done) | (refine SameMem.foldl ?_ _ _; intro st x; (try dsimp only); (repeat' split); all_goals (first | (simp [SameMem]; done) | (simp_all [SameMem]; done) | grind [SameMem])))

@[simp] theorem raiseQueueIrq_mem (p : Nat) (s : State) : (raiseQueueIrq p s).mem = s.mem := raiseQueueIrq_same p s

theorem fwTake_same (c : Nat) (s : State) : SameMem (fwTake c s) s := by
  unfold fwTake
  try dsimp only
  repeat' split
  all_goals (first | (simp [SameMem]; done) | exact rfl | (simp_all [SameMem]; done) | grind [SameMem] | (simp [SameMem]; grind [SameMem]) | (simp +zetaDelta [SameMem]; done) | ((try dsimp only); (repeat' (first | (exact SameMem.refl _) | assumption | (simp [SameMem]; done) | split | with_reducible refine SameMem.trans (updFwWin_same ..) ?_ | with_reducible refine SameMem.trans (setFifo_same ..) ?_ | with_reducible refine SameMem.trans (SameMem.foldl (fun _ _ => ?_) _ _) ?_ | with_reducible refine SameMem.trans (SameMem.foldr (fun _ _ => ?_) _ _) ?_ | with_reducible refine SameMem.trans rfl ?_)); done) | (refine SameMem.foldl ?_ _ _; intro st x; (try dsimp only); (repeat' split); all_goals (first | (simp [SameMem]; done) | (simp_all [SameMem]; done) | grind [SameMem])))

@[simp] theorem fwTake_mem (c : Nat) (s : State) : (fwTake c s).mem = s.mem := fwTake_same c s

theorem fwPost_same (c slot : Nat) (s : State) : SameMem (fwPost c slot s) s := by
  unfold fwPost
  try dsimp only
  repeat' split
  all_goals (first | (simp [SameMem]; done) | exact rfl | (simp_all [SameMem]; done) | grind [SameMem] | (simp [SameMem]; grind [SameMem]) | (simp +zetaDelta [SameMem]; done) | ((try dsimp only); (repeat' (first | (exact SameMem.refl _) | assumption | (simp [SameMem]; done) | split | with_reducible refine SameMem.trans (hostCompleteLater_same ..) ?_ | with_reducible refine SameMem.trans (updFwWin_same ..) ?_ | with_reducible refine SameMem.trans (SameMem.foldl (fun _ _ => ?_) _ _) ?_ | with_reducible refine SameMem.trans (SameMem.foldr (fun _ _ => ?_) _ _) ?_ | with_reducible refine SameMem.trans rfl ?_)); done) | (refine SameMem.foldl ?_ _ _; intro st x; (try dsimp only); (repeat' split); all_goals (first | (simp [SameMem]; done) | (simp_all [SameMem]; done) | grind [SameMem])))

@[simp] theorem fwPost_mem (c slot : Nat) (s : State) : (fwPost c slot s).mem = s.mem := fwPost_same c slot s

theorem redeliver_same (c : Nat) (s : State) : SameMem (redeliver c s) s := by
  unfold redeliver
  try dsimp only
  repeat' split
  all_goals (first | (simp [SameMem]; done) | exact rfl | (simp_all [SameMem]; done) | grind [SameMem] | (simp [SameMem]; grind [SameMem]) | (simp +zetaDelta [SameMem]; done) | ((try dsimp only); (repeat' (first | (exact SameMem.refl _) | assumption | (simp [SameMem]; done) | split | with_reducible refine SameMem.trans (setEvent_same ..) ?_ | with_reducible refine SameMem.trans (updFwWin_same ..) ?_ | with_reducible refine SameMem.trans (setFifo_same ..) ?_ | with_reducible refine SameMem.trans (raiseQueueIrq_same ..) ?_ | with_reducible refine SameMem.trans (SameMem.foldl (fun _ _ => ?_) _ _) ?_ | with_reducible refine SameMem.trans (SameMem.foldr (fun _ _ => ?_) _ _) ?_ | with_reducible refine SameMem.trans rfl ?_)); done) | (refine SameMem.foldl ?_ _ _; intro st x; (try dsimp only); (repeat' split); all_goals (first | (simp [SameMem]; done) | (simp_all [SameMem]; done) | grind [SameMem])))

@[simp] theorem redeliver_mem (c : Nat) (s : State) : (redeliver c s).mem = s.mem := redeliver_same c s

theorem askReset_same (fn : Nat) (s : State) : SameMem (askReset fn s) s := by
  unfold askReset
  try dsimp only
  repeat' split
  all_goals (first | (simp [SameMem]; done) | exact rfl | (simp_all [SameMem]; done) | grind [SameMem] | (simp [SameMem]; grind [SameMem]) | (simp +zetaDelta [SameMem]; done) | ((try dsimp only); (repeat' (first | (exact SameMem.refl _) | assumption | (simp [SameMem]; done) | split | with_reducible refine SameMem.trans (updFunc_same ..) ?_ | with_reducible refine SameMem.trans (SameMem.foldl (fun _ _ => ?_) _ _) ?_ | with_reducible refine SameMem.trans (SameMem.foldr (fun _ _ => ?_) _ _) ?_ | with_reducible refine SameMem.trans rfl ?_)); done) | (refine SameMem.foldl ?_ _ _; intro st x; (try dsimp only); (repeat' split); all_goals (first | (simp [SameMem]; done) | (simp_all [SameMem]; done) | grind [SameMem])))

@[simp] theorem askReset_mem (fn : Nat) (s : State) : (askReset fn s).mem = s.mem := askReset_same fn s

theorem askResetAll_same (s : State) : SameMem (askResetAll s) s := by
  unfold askResetAll
  try dsimp only
  repeat' split
  all_goals (first | (simp [SameMem]; done) | exact rfl | (simp_all [SameMem]; done) | grind [SameMem] | (simp [SameMem]; grind [SameMem]) | (simp +zetaDelta [SameMem]; done) | ((try dsimp only); (repeat' (first | (exact SameMem.refl _) | assumption | (simp [SameMem]; done) | split | with_reducible refine SameMem.trans (askReset_same ..) ?_ | with_reducible refine SameMem.trans (SameMem.foldl (fun _ _ => ?_) _ _) ?_ | with_reducible refine SameMem.trans (SameMem.foldr (fun _ _ => ?_) _ _) ?_ | with_reducible refine SameMem.trans rfl ?_)); done) | (refine SameMem.foldl ?_ _ _; intro st x; (try dsimp only); (repeat' split); all_goals (first | (simp [SameMem]; done) | (simp_all [SameMem]; done) | grind [SameMem])))

@[simp] theorem askResetAll_mem (s : State) : (askResetAll s).mem = s.mem := askResetAll_same s

theorem resetFunctionQueues_wf (fn : Nat) (s : State) : KeepMem (resetFunctionQueues fn s) s := by
  unfold resetFunctionQueues
  try dsimp only
  iterate 30 all_goals (try first | with_reducible exact KeepMem.refl _ | assumption | split | with_reducible refine KeepMem.trans (KeepMem.of_eq (setEvent_mem ..)) ?_ | with_reducible refine KeepMem.trans (KeepMem.of_eq (updFunc_mem ..)) ?_ | with_reducible refine KeepMem.trans (KeepMem.of_eq (updFwWin_mem ..)) ?_ | with_reducible refine KeepMem.trans (KeepMem.foldl (fun _ _ => ?_) _ _) ?_ | with_reducible refine KeepMem.trans (KeepMem.foldr (fun _ _ => ?_) _ _) ?_ | with_reducible refine KeepMem.trans (KeepMem.foldl_fst (fun _ _ => ?_) _ _) ?_ | with_reducible refine KeepMem.trans (KeepMem.foldl_snd (fun _ _ => ?_) _ _) ?_ | with_reducible refine KeepMem.trans (KeepMem.foldl_thd (fun _ _ => ?_) _ _) ?_ | (apply KeepMem.of_eq; simp; done) | with_reducible refine KeepMem.trans (KeepMem.record ..) ?_)

theorem configWrite_same (fn : Nat) (req : ConfigReq) (s : State) : SameMem (configWrite fn req s) s := by
  unfold configWrite
  try dsimp only
  repeat' split
  all_goals (first | (simp [SameMem]; done) | exact rfl | (simp_all [SameMem]; done) | grind [SameMem] | (simp [SameMem]; grind [SameMem]) | (simp +zetaDelta [SameMem]; done) | ((try dsimp only); (repeat' (first | (exact SameMem.refl _) | assumption | (simp [SameMem]; done) | split | with_reducible refine SameMem.trans (updFunc_same ..) ?_ | with_reducible refine SameMem.trans (sendPending_same ..) ?_ | with_reducible refine SameMem.trans (askReset_same ..) ?_ | with_reducible refine SameMem.trans (SameMem.foldl (fun _ _ => ?_) _ _) ?_ | with_reducible refine SameMem.trans (SameMem.foldr (fun _ _ => ?_) _ _) ?_ | with_reducible refine SameMem.trans rfl ?_)); done) | (refine SameMem.foldl ?_ _ _; intro st x; (try dsimp only); (repeat' split); all_goals (first | (simp [SameMem]; done) | (simp_all [SameMem]; done) | grind [SameMem])))

@[simp] theorem configWrite_mem (fn : Nat) (req : ConfigReq) (s : State) : (configWrite fn req s).mem = s.mem := configWrite_same fn req s

theorem writeAllot_same (adm : Bool) (v : W32) (s : State) : SameMem (writeAllot adm v s) s := by
  unfold writeAllot
  try dsimp only
  repeat' split
  all_goals (first | (simp [SameMem]; done) | exact rfl | (simp_all [SameMem]; done) | grind [SameMem] | (simp [SameMem]; grind [SameMem]) | (simp +zetaDelta [SameMem]; done) | ((try dsimp only); (repeat' (first | (exact SameMem.refl _) | assumption | (simp [SameMem]; done) | split | with_reducible refine SameMem.trans (setEvent_same ..) ?_ | with_reducible refine SameMem.trans (SameMem.foldl (fun _ _ => ?_) _ _) ?_ | with_reducible refine SameMem.trans (SameMem.foldr (fun _ _ => ?_) _ _) ?_ | with_reducible refine SameMem.trans rfl ?_)); done) | (refine SameMem.foldl ?_ _ _; intro st x; (try dsimp only); (repeat' split); all_goals (first | (simp [SameMem]; done) | (simp_all [SameMem]; done) | grind [SameMem])))

@[simp] theorem writeAllot_mem (adm : Bool) (v : W32) (s : State) : (writeAllot adm v s).mem = s.mem := writeAllot_same adm v s

end Sys2Proof.Machine
end

