-- ==== Sys2Proof/Laws/KeptCinchBase.lean ====
section
/-! SUPPORT. What each operation of Machine/CinchBase.lean keeps: the fuses, the life counters, the queue, and memory or its form. -/

namespace Sys2Proof.Machine

theorem setCinch_core (i : Nat) (x : Cinch) (s : State) : SameAll (setCinch i x s) s := ⟨rfl, rfl, rfl⟩

@[simp] theorem setCinch_copies (i : Nat) (x : Cinch) (s : State) : (setCinch i x s).lc.copies = s.lc.copies := (setCinch_core i x s).1

@[simp] theorem setCinch_life (i : Nat) (x : Cinch) (s : State) : (setCinch i x s).fv.life = s.fv.life := (setCinch_core i x s).2.1

@[simp] theorem setCinch_pending (i : Nat) (x : Cinch) (s : State) : (setCinch i x s).pending = s.pending := (setCinch_core i x s).2.2

theorem updCinch_core (i : Nat) (f : Cinch → Cinch) (s : State) : SameAll (updCinch i f s) s := ⟨rfl, rfl, rfl⟩

@[simp] theorem updCinch_copies (i : Nat) (f : Cinch → Cinch) (s : State) : (updCinch i f s).lc.copies = s.lc.copies := (updCinch_core i f s).1

@[simp] theorem updCinch_life (i : Nat) (f : Cinch → Cinch) (s : State) : (updCinch i f s).fv.life = s.fv.life := (updCinch_core i f s).2.1

@[simp] theorem updCinch_pending (i : Nat) (f : Cinch → Cinch) (s : State) : (updCinch i f s).pending = s.pending := (updCinch_core i f s).2.2

theorem pushNoteq_core (handle paddock status cause : Nat) (s : State) : SameAll (pushNoteq handle paddock status cause s) s := by simp [pushNoteq, SameAll]

@[simp] theorem pushNoteq_copies (handle paddock status cause : Nat) (s : State) : (pushNoteq handle paddock status cause s).lc.copies = s.lc.copies := (pushNoteq_core handle paddock status cause s).1

@[simp] theorem pushNoteq_life (handle paddock status cause : Nat) (s : State) : (pushNoteq handle paddock status cause s).fv.life = s.fv.life := (pushNoteq_core handle paddock status cause s).2.1

@[simp] theorem pushNoteq_pending (handle paddock status cause : Nat) (s : State) : (pushNoteq handle paddock status cause s).pending = s.pending := (pushNoteq_core handle paddock status cause s).2.2

theorem markAbort_core (i cause status : Nat) (failing : Nat) (s : State) : SameAll (markAbort i cause status failing s) s := ⟨rfl, rfl, rfl⟩

@[simp] theorem markAbort_copies (i cause status : Nat) (failing : Nat) (s : State) : (markAbort i cause status failing s).lc.copies = s.lc.copies := (markAbort_core i cause status failing s).1

@[simp] theorem markAbort_life (i cause status : Nat) (failing : Nat) (s : State) : (markAbort i cause status failing s).fv.life = s.fv.life := (markAbort_core i cause status failing s).2.1

@[simp] theorem markAbort_pending (i cause status : Nat) (failing : Nat) (s : State) : (markAbort i cause status failing s).pending = s.pending := (markAbort_core i cause status failing s).2.2

theorem markAbortAll_core (test : Cinch → Bool) (cause status : Nat) (s : State) : SameAll (markAbortAll test cause status s) s := by simp [markAbortAll, SameAll]

@[simp] theorem markAbortAll_copies (test : Cinch → Bool) (cause status : Nat) (s : State) : (markAbortAll test cause status s).lc.copies = s.lc.copies := (markAbortAll_core test cause status s).1

@[simp] theorem markAbortAll_life (test : Cinch → Bool) (cause status : Nat) (s : State) : (markAbortAll test cause status s).fv.life = s.fv.life := (markAbortAll_core test cause status s).2.1

@[simp] theorem markAbortAll_pending (test : Cinch → Bool) (cause status : Nat) (s : State) : (markAbortAll test cause status s).pending = s.pending := (markAbortAll_core test cause status s).2.2

theorem abortOnBridle_core (c : Nat) (s : State) : SameAll (abortOnBridle c s) s := by simp [abortOnBridle, SameAll]

@[simp] theorem abortOnBridle_copies (c : Nat) (s : State) : (abortOnBridle c s).lc.copies = s.lc.copies := (abortOnBridle_core c s).1

@[simp] theorem abortOnBridle_life (c : Nat) (s : State) : (abortOnBridle c s).fv.life = s.fv.life := (abortOnBridle_core c s).2.1

@[simp] theorem abortOnBridle_pending (c : Nat) (s : State) : (abortOnBridle c s).pending = s.pending := (abortOnBridle_core c s).2.2

theorem setCinch_same (i : Nat) (x : Cinch) (s : State) : SameMem (setCinch i x s) s := rfl

@[simp] theorem setCinch_mem (i : Nat) (x : Cinch) (s : State) : (setCinch i x s).mem = s.mem := setCinch_same i x s

theorem updCinch_same (i : Nat) (f : Cinch → Cinch) (s : State) : SameMem (updCinch i f s) s := rfl

@[simp] theorem updCinch_mem (i : Nat) (f : Cinch → Cinch) (s : State) : (updCinch i f s).mem = s.mem := updCinch_same i f s

theorem pushNoteq_same (handle paddock status cause : Nat) (s : State) : SameMem (pushNoteq handle paddock status cause s) s := by simp [pushNoteq, SameMem]

@[simp] theorem pushNoteq_mem (handle paddock status cause : Nat) (s : State) : (pushNoteq handle paddock status cause s).mem = s.mem := pushNoteq_same handle paddock status cause s

theorem markAbort_same (i cause status : Nat) (failing : Nat) (s : State) : SameMem (markAbort i cause status failing s) s := rfl

@[simp] theorem markAbort_mem (i cause status : Nat) (failing : Nat) (s : State) : (markAbort i cause status failing s).mem = s.mem := markAbort_same i cause status failing s

theorem markAbortAll_same (test : Cinch → Bool) (cause status : Nat) (s : State) : SameMem (markAbortAll test cause status s) s := by simp [markAbortAll, SameMem]

@[simp] theorem markAbortAll_mem (test : Cinch → Bool) (cause status : Nat) (s : State) : (markAbortAll test cause status s).mem = s.mem := markAbortAll_same test cause status s

theorem abortOnBridle_same (c : Nat) (s : State) : SameMem (abortOnBridle c s) s := by simp [abortOnBridle, SameMem]

@[simp] theorem abortOnBridle_mem (c : Nat) (s : State) : (abortOnBridle c s).mem = s.mem := abortOnBridle_same c s

end Sys2Proof.Machine
end

