-- ==== Sys2Proof/Laws/KeptJournal.lean ====
section
/-! SUPPORT. What each operation of Machine/Journal.lean keeps: the fuses, the life counters, the queue, and memory or its form. -/

namespace Sys2Proof.Machine

theorem putRecords_core (rs : List (List Byte)) (s : State) : SameAll (putRecords rs s) s := ⟨rfl, rfl, rfl⟩

@[simp] theorem putRecords_copies (rs : List (List Byte)) (s : State) : (putRecords rs s).lc.copies = s.lc.copies := (putRecords_core rs s).1

@[simp] theorem putRecords_life (rs : List (List Byte)) (s : State) : (putRecords rs s).fv.life = s.fv.life := (putRecords_core rs s).2.1

@[simp] theorem putRecords_pending (rs : List (List Byte)) (s : State) : (putRecords rs s).pending = s.pending := (putRecords_core rs s).2.2

theorem flushJournal_core (s : State) : SameAll (flushJournal s) s := by simp [flushJournal, SameAll]

@[simp] theorem flushJournal_copies (s : State) : (flushJournal s).lc.copies = s.lc.copies := (flushJournal_core s).1

@[simp] theorem flushJournal_life (s : State) : (flushJournal s).fv.life = s.fv.life := (flushJournal_core s).2.1

@[simp] theorem flushJournal_pending (s : State) : (flushJournal s).pending = s.pending := (flushJournal_core s).2.2

theorem joinBatch_core (rs : List (List Byte)) (s : State) : SameAll (joinBatch rs s) s := by simp [joinBatch, SameAll]

@[simp] theorem joinBatch_copies (rs : List (List Byte)) (s : State) : (joinBatch rs s).lc.copies = s.lc.copies := (joinBatch_core rs s).1

@[simp] theorem joinBatch_life (rs : List (List Byte)) (s : State) : (joinBatch rs s).fv.life = s.fv.life := (joinBatch_core rs s).2.1

@[simp] theorem joinBatch_pending (rs : List (List Byte)) (s : State) : (joinBatch rs s).pending = s.pending := (joinBatch_core rs s).2.2

theorem journalDone_core (h : Nat) (x : Cinch) (s : State) : SameAll (journalDone h x s) s := by simp [journalDone, SameAll]

@[simp] theorem journalDone_copies (h : Nat) (x : Cinch) (s : State) : (journalDone h x s).lc.copies = s.lc.copies := (journalDone_core h x s).1

@[simp] theorem journalDone_life (h : Nat) (x : Cinch) (s : State) : (journalDone h x s).fv.life = s.fv.life := (journalDone_core h x s).2.1

@[simp] theorem journalDone_pending (h : Nat) (x : Cinch) (s : State) : (journalDone h x s).pending = s.pending := (journalDone_core h x s).2.2

theorem stageLanded_core (heads : List (List Byte)) (s : State) : SameAll (stageLanded heads s) s := by simp [stageLanded, SameAll]

@[simp] theorem stageLanded_copies (heads : List (List Byte)) (s : State) : (stageLanded heads s).lc.copies = s.lc.copies := (stageLanded_core heads s).1

@[simp] theorem stageLanded_life (heads : List (List Byte)) (s : State) : (stageLanded heads s).fv.life = s.fv.life := (stageLanded_core heads s).2.1

@[simp] theorem stageLanded_pending (heads : List (List Byte)) (s : State) : (stageLanded heads s).pending = s.pending := (stageLanded_core heads s).2.2

theorem putRecords_same (rs : List (List Byte)) (s : State) : SameMem (putRecords rs s) s := rfl

@[simp] theorem putRecords_mem (rs : List (List Byte)) (s : State) : (putRecords rs s).mem = s.mem := putRecords_same rs s

theorem flushJournal_same (s : State) : SameMem (flushJournal s) s := by simp [flushJournal, SameMem]

@[simp] theorem flushJournal_mem (s : State) : (flushJournal s).mem = s.mem := flushJournal_same s

theorem joinBatch_same (rs : List (List Byte)) (s : State) : SameMem (joinBatch rs s) s := by simp [joinBatch, SameMem]

@[simp] theorem joinBatch_mem (rs : List (List Byte)) (s : State) : (joinBatch rs s).mem = s.mem := joinBatch_same rs s

theorem journalDone_same (h : Nat) (x : Cinch) (s : State) : SameMem (journalDone h x s) s := by simp [journalDone, SameMem]

@[simp] theorem journalDone_mem (h : Nat) (x : Cinch) (s : State) : (journalDone h x s).mem = s.mem := journalDone_same h x s

theorem stageLanded_same (heads : List (List Byte)) (s : State) : SameMem (stageLanded heads s) s := by simp [stageLanded, SameMem]

@[simp] theorem stageLanded_mem (heads : List (List Byte)) (s : State) : (stageLanded heads s).mem = s.mem := stageLanded_same heads s

end Sys2Proof.Machine
end

