-- ==== Sys2Proof/Laws/KeptNor.lean ====
section
/-! SUPPORT. What each operation of Machine/Nor.lean keeps: the fuses, the life counters, the queue, and memory or its form. -/

namespace Sys2Proof.Machine

theorem putNor_core (a : Nat) (w : W64) (s : State) : SameAll (putNor a w s) s := ⟨rfl, rfl, rfl⟩

@[simp] theorem putNor_copies (a : Nat) (w : W64) (s : State) : (putNor a w s).lc.copies = s.lc.copies := (putNor_core a w s).1

@[simp] theorem putNor_life (a : Nat) (w : W64) (s : State) : (putNor a w s).fv.life = s.fv.life := (putNor_core a w s).2.1

@[simp] theorem putNor_pending (a : Nat) (w : W64) (s : State) : (putNor a w s).pending = s.pending := (putNor_core a w s).2.2

theorem putRole_core (n role index sseq : Nat) (commit : Bool) (s : State) : SameAll (putRole n role index sseq commit s) s := ⟨rfl, rfl, rfl⟩

@[simp] theorem putRole_copies (n role index sseq : Nat) (commit : Bool) (s : State) : (putRole n role index sseq commit s).lc.copies = s.lc.copies := (putRole_core n role index sseq commit s).1

@[simp] theorem putRole_life (n role index sseq : Nat) (commit : Bool) (s : State) : (putRole n role index sseq commit s).fv.life = s.fv.life := (putRole_core n role index sseq commit s).2.1

@[simp] theorem putRole_pending (n role index sseq : Nat) (commit : Bool) (s : State) : (putRole n role index sseq commit s).pending = s.pending := (putRole_core n role index sseq commit s).2.2

theorem eraseSector_core (n : Nat) (s : State) : SameAll (eraseSector n s) s := ⟨rfl, rfl, rfl⟩

@[simp] theorem eraseSector_copies (n : Nat) (s : State) : (eraseSector n s).lc.copies = s.lc.copies := (eraseSector_core n s).1

@[simp] theorem eraseSector_life (n : Nat) (s : State) : (eraseSector n s).fv.life = s.fv.life := (eraseSector_core n s).2.1

@[simp] theorem eraseSector_pending (n : Nat) (s : State) : (eraseSector n s).pending = s.pending := (eraseSector_core n s).2.2

theorem useSector_core (role : Nat) (e : Sector) (s : State) : SameAll (useSector role e s) s := by simp [useSector, SameAll]

@[simp] theorem useSector_copies (role : Nat) (e : Sector) (s : State) : (useSector role e s).lc.copies = s.lc.copies := (useSector_core role e s).1

@[simp] theorem useSector_life (role : Nat) (e : Sector) (s : State) : (useSector role e s).fv.life = s.fv.life := (useSector_core role e s).2.1

@[simp] theorem useSector_pending (role : Nat) (e : Sector) (s : State) : (useSector role e s).pending = s.pending := (useSector_core role e s).2.2

theorem renewSector_core (role index n : Nat) (s : State) : SameAll (renewSector role index n s) s := ⟨rfl, rfl, rfl⟩

@[simp] theorem renewSector_copies (role index n : Nat) (s : State) : (renewSector role index n s).lc.copies = s.lc.copies := (renewSector_core role index n s).1

@[simp] theorem renewSector_life (role index n : Nat) (s : State) : (renewSector role index n s).fv.life = s.fv.life := (renewSector_core role index n s).2.1

@[simp] theorem renewSector_pending (role index n : Nat) (s : State) : (renewSector role index n s).pending = s.pending := (renewSector_core role index n s).2.2

theorem openHead_core (role : Nat) (s : State) : SameAll (openHead role s) s := by
  unfold openHead
  split <;> simp [SameAll]

@[simp] theorem openHead_copies (role : Nat) (s : State) : (openHead role s).lc.copies = s.lc.copies := (openHead_core role s).1

@[simp] theorem openHead_life (role : Nat) (s : State) : (openHead role s).fv.life = s.fv.life := (openHead_core role s).2.1

@[simp] theorem openHead_pending (role : Nat) (s : State) : (openHead role s).pending = s.pending := (openHead_core role s).2.2

theorem putTwice_core (a content : Nat) (s : State) : SameAll (putTwice a content s) s := ⟨rfl, rfl, rfl⟩

@[simp] theorem putTwice_copies (a content : Nat) (s : State) : (putTwice a content s).lc.copies = s.lc.copies := (putTwice_core a content s).1

@[simp] theorem putTwice_life (a content : Nat) (s : State) : (putTwice a content s).fv.life = s.fv.life := (putTwice_core a content s).2.1

@[simp] theorem putTwice_pending (a content : Nat) (s : State) : (putTwice a content s).pending = s.pending := (putTwice_core a content s).2.2

theorem vaultFault_core (medium reason addr : Nat) (s : State) : SameAll (vaultFault medium reason addr s) s := by
  have h : ∀ w, SameAll { s with fv := { s.fv with fault := w } } s := fun _ => ⟨rfl, rfl, rfl⟩
  exact h _

@[simp] theorem vaultFault_copies (medium reason addr : Nat) (s : State) : (vaultFault medium reason addr s).lc.copies = s.lc.copies := (vaultFault_core medium reason addr s).1

@[simp] theorem vaultFault_life (medium reason addr : Nat) (s : State) : (vaultFault medium reason addr s).fv.life = s.fv.life := (vaultFault_core medium reason addr s).2.1

@[simp] theorem vaultFault_pending (medium reason addr : Nat) (s : State) : (vaultFault medium reason addr s).pending = s.pending := (vaultFault_core medium reason addr s).2.2

theorem flashEvent_core (bit : Nat) (s : State) : SameAll (flashEvent bit s) s := by simp [flashEvent, SameAll]

@[simp] theorem flashEvent_copies (bit : Nat) (s : State) : (flashEvent bit s).lc.copies = s.lc.copies := (flashEvent_core bit s).1

@[simp] theorem flashEvent_life (bit : Nat) (s : State) : (flashEvent bit s).fv.life = s.fv.life := (flashEvent_core bit s).2.1

@[simp] theorem flashEvent_pending (bit : Nat) (s : State) : (flashEvent bit s).pending = s.pending := (flashEvent_core bit s).2.2

theorem noteLoops_core (m loops : Nat) (s : State) : SameAll (noteLoops m loops s) s := ⟨rfl, rfl, rfl⟩

@[simp] theorem noteLoops_copies (m loops : Nat) (s : State) : (noteLoops m loops s).lc.copies = s.lc.copies := (noteLoops_core m loops s).1

@[simp] theorem noteLoops_life (m loops : Nat) (s : State) : (noteLoops m loops s).fv.life = s.fv.life := (noteLoops_core m loops s).2.1

@[simp] theorem noteLoops_pending (m loops : Nat) (s : State) : (noteLoops m loops s).pending = s.pending := (noteLoops_core m loops s).2.2

theorem putCopy_core (a kind key rseq : Nat) (ws : List W64) (s : State) : SameAll (putCopy a kind key rseq ws s) s := by simp [putCopy, SameAll]

@[simp] theorem putCopy_copies (a kind key rseq : Nat) (ws : List W64) (s : State) : (putCopy a kind key rseq ws s).lc.copies = s.lc.copies := (putCopy_core a kind key rseq ws s).1

@[simp] theorem putCopy_life (a kind key rseq : Nat) (ws : List W64) (s : State) : (putCopy a kind key rseq ws s).fv.life = s.fv.life := (putCopy_core a kind key rseq ws s).2.1

@[simp] theorem putCopy_pending (a kind key rseq : Nat) (ws : List W64) (s : State) : (putCopy a kind key rseq ws s).pending = s.pending := (putCopy_core a kind key rseq ws s).2.2

theorem putCopies_core (kind key : Nat) (ws : List W64) (s : State) : SameAll (putCopies kind key ws s) s := by
  unfold putCopies
  split
  · exact SameAll.refl _
  · refine (SameAll.foldl (fun st c => putNor_core _ _ _) _ _).trans (SameAll.foldl (fun st e => ?_) _ _)
    split
    · with_reducible exact (putCopy_core ..).trans (useSector_core ..)
    · exact SameAll.refl _

@[simp] theorem putCopies_copies (kind key : Nat) (ws : List W64) (s : State) : (putCopies kind key ws s).lc.copies = s.lc.copies := (putCopies_core kind key ws s).1

@[simp] theorem putCopies_life (kind key : Nat) (ws : List W64) (s : State) : (putCopies kind key ws s).fv.life = s.fv.life := (putCopies_core kind key ws s).2.1

@[simp] theorem putCopies_pending (kind key : Nat) (ws : List W64) (s : State) : (putCopies kind key ws s).pending = s.pending := (putCopies_core kind key ws s).2.2

theorem compactOne_core {s t : State} (h : compactOne s = some t) : SameAll t s := by
  unfold compactOne at h
  extract_lets free at h
  split at h
  · cases h
  · obtain ⟨e, -, rfl⟩ := Option.map_eq_some_iff.mp h
    with_reducible exact (renewSector_core ..).trans (SameAll.foldl (fun st c => putCopies_core ..) _ _)

theorem compactReserve_core (x0 : Nat) (s : State) : SameAll (compactReserve x0 s) s := by
  induction x0 generalizing s with
  | zero => exact SameAll.refl _
  | succ n ih =>
    rw [compactReserve]
    cases h : compactOne s with
    | none => exact SameAll.refl _
    | some t => exact (ih t).trans (compactOne_core h)

@[simp] theorem compactReserve_copies (x0 : Nat) (s : State) : (compactReserve x0 s).lc.copies = s.lc.copies := (compactReserve_core x0 s).1

@[simp] theorem compactReserve_life (x0 : Nat) (s : State) : (compactReserve x0 s).fv.life = s.fv.life := (compactReserve_core x0 s).2.1

@[simp] theorem compactReserve_pending (x0 : Nat) (s : State) : (compactReserve x0 s).pending = s.pending := (compactReserve_core x0 s).2.2

theorem reservePut_core (kind key : Nat) (bs : List Byte) (s : State) : SameAll (reservePut kind key bs s) s := by simp [reservePut, SameAll]

@[simp] theorem reservePut_copies (kind key : Nat) (bs : List Byte) (s : State) : (reservePut kind key bs s).lc.copies = s.lc.copies := (reservePut_core kind key bs s).1

@[simp] theorem reservePut_life (kind key : Nat) (bs : List Byte) (s : State) : (reservePut kind key bs s).fv.life = s.fv.life := (reservePut_core kind key bs s).2.1

@[simp] theorem reservePut_pending (kind key : Nat) (bs : List Byte) (s : State) : (reservePut kind key bs s).pending = s.pending := (reservePut_core kind key bs s).2.2

theorem resvResolve_core (bad : List Nat) (s : State) : SameAll (resvResolve bad s) s := by simp [resvResolve, SameAll]

@[simp] theorem resvResolve_copies (bad : List Nat) (s : State) : (resvResolve bad s).lc.copies = s.lc.copies := (resvResolve_core bad s).1

@[simp] theorem resvResolve_life (bad : List Nat) (s : State) : (resvResolve bad s).fv.life = s.fv.life := (resvResolve_core bad s).2.1

@[simp] theorem resvResolve_pending (bad : List Nat) (s : State) : (resvResolve bad s).pending = s.pending := (resvResolve_core bad s).2.2

theorem putLife_core (id v : Nat) (s : State) : SameAll (putLife id v s) s := by
  unfold putLife
  try dsimp only
  repeat' split
  all_goals simp [SameAll]

@[simp] theorem putLife_copies (id v : Nat) (s : State) : (putLife id v s).lc.copies = s.lc.copies := (putLife_core id v s).1

@[simp] theorem putLife_life (id v : Nat) (s : State) : (putLife id v s).fv.life = s.fv.life := (putLife_core id v s).2.1

@[simp] theorem putLife_pending (id v : Nat) (s : State) : (putLife id v s).pending = s.pending := (putLife_core id v s).2.2

theorem lifeRoom_core (s : State) : SameAll (lifeRoom s) s := by
  unfold lifeRoom
  try dsimp only
  repeat' split
  all_goals simp [SameAll]

@[simp] theorem lifeRoom_copies (s : State) : (lifeRoom s).lc.copies = s.lc.copies := (lifeRoom_core s).1

@[simp] theorem lifeRoom_life (s : State) : (lifeRoom s).fv.life = s.fv.life := (lifeRoom_core s).2.1

@[simp] theorem lifeRoom_pending (s : State) : (lifeRoom s).pending = s.pending := (lifeRoom_core s).2.2

theorem writeLife_core (id v : Nat) (s : State) : SameCp (writeLife id v s) s := by simp [writeLife, SameCp]

@[simp] theorem writeLife_copies (id v : Nat) (s : State) : (writeLife id v s).lc.copies = s.lc.copies := (writeLife_core id v s).1

@[simp] theorem writeLife_pending (id v : Nat) (s : State) : (writeLife id v s).pending = s.pending := (writeLife_core id v s).2

theorem eraseBank_core (b : Nat) (s : State) : SameAll (eraseBank b s) s := by simp [eraseBank, SameAll]

@[simp] theorem eraseBank_copies (b : Nat) (s : State) : (eraseBank b s).lc.copies = s.lc.copies := (eraseBank_core b s).1

@[simp] theorem eraseBank_life (b : Nat) (s : State) : (eraseBank b s).fv.life = s.fv.life := (eraseBank_core b s).2.1

@[simp] theorem eraseBank_pending (b : Nat) (s : State) : (eraseBank b s).pending = s.pending := (eraseBank_core b s).2.2

theorem putImage_core (b : Nat) (img : List Byte) (off lim : Nat) (s : State) : SameAll (putImage b img off lim s) s := by
  unfold putImage
  refine SameAll.foldl (fun st k => ?_) _ _
  dsimp only
  split
  · exact (putNor_core ..).trans (useSector_core ..)
  · exact SameAll.refl _

@[simp] theorem putImage_copies (b : Nat) (img : List Byte) (off lim : Nat) (s : State) : (putImage b img off lim s).lc.copies = s.lc.copies := (putImage_core b img off lim s).1

@[simp] theorem putImage_life (b : Nat) (img : List Byte) (off lim : Nat) (s : State) : (putImage b img off lim s).fv.life = s.fv.life := (putImage_core b img off lim s).2.1

@[simp] theorem putImage_pending (b : Nat) (img : List Byte) (off lim : Nat) (s : State) : (putImage b img off lim s).pending = s.pending := (putImage_core b img off lim s).2.2

theorem putBankWord_core (b seq sectors : Nat) (commit : Bool) (s : State) : SameAll (putBankWord b seq sectors commit s) s := by
  unfold putBankWord
  split <;> simp [SameAll]

@[simp] theorem putBankWord_copies (b seq sectors : Nat) (commit : Bool) (s : State) : (putBankWord b seq sectors commit s).lc.copies = s.lc.copies := (putBankWord_core b seq sectors commit s).1

@[simp] theorem putBankWord_life (b seq sectors : Nat) (commit : Bool) (s : State) : (putBankWord b seq sectors commit s).fv.life = s.fv.life := (putBankWord_core b seq sectors commit s).2.1

@[simp] theorem putBankWord_pending (b seq sectors : Nat) (commit : Bool) (s : State) : (putBankWord b seq sectors commit s).pending = s.pending := (putBankWord_core b seq sectors commit s).2.2

theorem moveSector_core (role src dst : Nat) (s : State) : SameAll (moveSector role src dst s) s := by simp [moveSector, SameAll]

@[simp] theorem moveSector_copies (role src dst : Nat) (s : State) : (moveSector role src dst s).lc.copies = s.lc.copies := (moveSector_core role src dst s).1

@[simp] theorem moveSector_life (role src dst : Nat) (s : State) : (moveSector role src dst s).fv.life = s.fv.life := (moveSector_core role src dst s).2.1

@[simp] theorem moveSector_pending (role src dst : Nat) (s : State) : (moveSector role src dst s).pending = s.pending := (moveSector_core role src dst s).2.2

theorem retireSector_core (n : Nat) (s : State) : SameAll (retireSector n s) s := by
  unfold retireSector
  try dsimp only
  repeat' split
  all_goals simp [SameAll]

@[simp] theorem retireSector_copies (n : Nat) (s : State) : (retireSector n s).lc.copies = s.lc.copies := (retireSector_core n s).1

@[simp] theorem retireSector_life (n : Nat) (s : State) : (retireSector n s).fv.life = s.fv.life := (retireSector_core n s).2.1

@[simp] theorem retireSector_pending (n : Nat) (s : State) : (retireSector n s).pending = s.pending := (retireSector_core n s).2.2

theorem adoptSectors_core (x0 : List Nat) (x1 : List (Nat × Nat × Nat)) (s : State) : SameAll (adoptSectors x0 x1 s) s := by
  fun_induction adoptSectors x0 x1 s
  all_goals simp_all [SameAll]

@[simp] theorem adoptSectors_copies (x0 : List Nat) (x1 : List (Nat × Nat × Nat)) (s : State) : (adoptSectors x0 x1 s).lc.copies = s.lc.copies := (adoptSectors_core x0 x1 s).1

@[simp] theorem adoptSectors_life (x0 : List Nat) (x1 : List (Nat × Nat × Nat)) (s : State) : (adoptSectors x0 x1 s).fv.life = s.fv.life := (adoptSectors_core x0 x1 s).2.1

@[simp] theorem adoptSectors_pending (x0 : List Nat) (x1 : List (Nat × Nat × Nat)) (s : State) : (adoptSectors x0 x1 s).pending = s.pending := (adoptSectors_core x0 x1 s).2.2

theorem noteTorn_core (s : State) : SameAll (noteTorn s) s := by
  unfold noteTorn
  split <;> simp [SameAll]

@[simp] theorem noteTorn_copies (s : State) : (noteTorn s).lc.copies = s.lc.copies := (noteTorn_core s).1

@[simp] theorem noteTorn_life (s : State) : (noteTorn s).fv.life = s.fv.life := (noteTorn_core s).2.1

@[simp] theorem noteTorn_pending (s : State) : (noteTorn s).pending = s.pending := (noteTorn_core s).2.2

theorem norMount_core (bad : List Nat) (s : State) : SameAll (norMount bad s) s := by simp [norMount, SameAll]

@[simp] theorem norMount_copies (bad : List Nat) (s : State) : (norMount bad s).lc.copies = s.lc.copies := (norMount_core bad s).1

@[simp] theorem norMount_life (bad : List Nat) (s : State) : (norMount bad s).fv.life = s.fv.life := (norMount_core bad s).2.1

@[simp] theorem norMount_pending (bad : List Nat) (s : State) : (norMount bad s).pending = s.pending := (norMount_core bad s).2.2

theorem putNor_same (a : Nat) (w : W64) (s : State) : SameMem (putNor a w s) s := by
  unfold putNor
  try dsimp only
  repeat' split
  all_goals (first | (simp [SameMem]; done) | exact rfl | (simp_all [SameMem]; done) | grind [SameMem] | (simp [SameMem]; grind [SameMem]) | (simp +zetaDelta [SameMem]; done) | ((try dsimp only); (repeat' (first | (exact SameMem.refl _) | assumption | (simp [SameMem]; done) | split | with_reducible refine SameMem.trans (SameMem.foldl (fun _ _ => ?_) _ _) ?_ | with_reducible refine SameMem.trans (SameMem.foldr (fun _ _ => ?_) _ _) ?_ | with_reducible refine SameMem.trans rfl ?_)); done) | (refine SameMem.foldl ?_ _ _; intro st x; (try dsimp only); (repeat' split); all_goals (first | (simp [SameMem]; done) | (simp_all [SameMem]; done) | grind [SameMem])))

@[simp] theorem putNor_mem (a : Nat) (w : W64) (s : State) : (putNor a w s).mem = s.mem := putNor_same a w s

theorem putRole_same (n role index sseq : Nat) (commit : Bool) (s : State) : SameMem (putRole n role index sseq commit s) s := by
  unfold putRole
  try dsimp only
  repeat' split
  all_goals (first | (simp [SameMem]; done) | exact rfl | (simp_all [SameMem]; done) | grind [SameMem] | (simp [SameMem]; grind [SameMem]) | (simp +zetaDelta [SameMem]; done) | ((try dsimp only); (repeat' (first | (exact SameMem.refl _) | assumption | (simp [SameMem]; done) | split | with_reducible refine SameMem.trans (putNor_same ..) ?_ | with_reducible refine SameMem.trans (SameMem.foldl (fun _ _ => ?_) _ _) ?_ | with_reducible refine SameMem.trans (SameMem.foldr (fun _ _ => ?_) _ _) ?_ | with_reducible refine SameMem.trans rfl ?_)); done) | (refine SameMem.foldl ?_ _ _; intro st x; (try dsimp only); (repeat' split); all_goals (first | (simp [SameMem]; done) | (simp_all [SameMem]; done) | grind [SameMem])))

@[simp] theorem putRole_mem (n role index sseq : Nat) (commit : Bool) (s : State) : (putRole n role index sseq commit s).mem = s.mem := putRole_same n role index sseq commit s

theorem eraseSector_same (n : Nat) (s : State) : SameMem (eraseSector n s) s := by
  unfold eraseSector
  try dsimp only
  repeat' split
  all_goals (first | (simp [SameMem]; done) | exact rfl | (simp_all [SameMem]; done) | grind [SameMem] | (simp [SameMem]; grind [SameMem]) | (simp +zetaDelta [SameMem]; done) | ((try dsimp only); (repeat' (first | (exact SameMem.refl _) | assumption | (simp [SameMem]; done) | split | with_reducible refine SameMem.trans (SameMem.foldl (fun _ _ => ?_) _ _) ?_ | with_reducible refine SameMem.trans (SameMem.foldr (fun _ _ => ?_) _ _) ?_ | with_reducible refine SameMem.trans rfl ?_)); done) | (refine SameMem.foldl ?_ _ _; intro st x; (try dsimp only); (repeat' split); all_goals (first | (simp [SameMem]; done) | (simp_all [SameMem]; done) | grind [SameMem])))

@[simp] theorem eraseSector_mem (n : Nat) (s : State) : (eraseSector n s).mem = s.mem := eraseSector_same n s

theorem useSector_same (role : Nat) (e : Sector) (s : State) : SameMem (useSector role e s) s := by
  unfold useSector
  try dsimp only
  repeat' split
  all_goals (first | (simp [SameMem]; done) | exact rfl | (simp_all [SameMem]; done) | grind [SameMem] | (simp [SameMem]; grind [SameMem]) | (simp +zetaDelta [SameMem]; done) | ((try dsimp only); (repeat' (first | (exact SameMem.refl _) | assumption | (simp [SameMem]; done) | split | with_reducible refine SameMem.trans (putRole_same ..) ?_ | with_reducible refine SameMem.trans (SameMem.foldl (fun _ _ => ?_) _ _) ?_ | with_reducible refine SameMem.trans (SameMem.foldr (fun _ _ => ?_) _ _) ?_ | with_reducible refine SameMem.trans rfl ?_)); done) | (refine SameMem.foldl ?_ _ _; intro st x; (try dsimp only); (repeat' split); all_goals (first | (simp [SameMem]; done) | (simp_all [SameMem]; done) | grind [SameMem])))

@[simp] theorem useSector_mem (role : Nat) (e : Sector) (s : State) : (useSector role e s).mem = s.mem := useSector_same role e s

theorem renewSector_same (role index n : Nat) (s : State) : SameMem (renewSector role index n s) s := by
  unfold renewSector
  try dsimp only
  repeat' split
  all_goals (first | (simp [SameMem]; done) | exact rfl | (simp_all [SameMem]; done) | grind [SameMem] | (simp [SameMem]; grind [SameMem]) | (simp +zetaDelta [SameMem]; done) | ((try dsimp only); (repeat' (first | (exact SameMem.refl _) | assumption | (simp [SameMem]; done) | split | with_reducible refine SameMem.trans (putRole_same ..) ?_ | with_reducible refine SameMem.trans (eraseSector_same ..) ?_ | with_reducible refine SameMem.trans (SameMem.foldl (fun _ _ => ?_) _ _) ?_ | with_reducible refine SameMem.trans (SameMem.foldr (fun _ _ => ?_) _ _) ?_ | with_reducible refine SameMem.trans rfl ?_)); done) | (refine SameMem.foldl ?_ _ _; intro st x; (try dsimp only); (repeat' split); all_goals (first | (simp [SameMem]; done) | (simp_all [SameMem]; done) | grind [SameMem])))

@[simp] theorem renewSector_mem (role index n : Nat) (s : State) : (renewSector role index n s).mem = s.mem := renewSector_same role index n s

theorem openHead_same (role : Nat) (s : State) : SameMem (openHead role s) s := by
  unfold openHead
  try dsimp only
  repeat' split
  all_goals (first | (simp [SameMem]; done) | exact rfl | (simp_all [SameMem]; done) | grind [SameMem] | (simp [SameMem]; grind [SameMem]) | (simp +zetaDelta [SameMem]; done) | ((try dsimp only); (repeat' (first | (exact SameMem.refl _) | assumption | (simp [SameMem]; done) | split | with_reducible refine SameMem.trans (useSector_same ..) ?_ | with_reducible refine SameMem.trans (SameMem.foldl (fun _ _ => ?_) _ _) ?_ | with_reducible refine SameMem.trans (SameMem.foldr (fun _ _ => ?_) _ _) ?_ | with_reducible refine SameMem.trans rfl ?_)); done) | (refine SameMem.foldl ?_ _ _; intro st x; (try dsimp only); (repeat' split); all_goals (first | (simp [SameMem]; done) | (simp_all [SameMem]; done) | grind [SameMem])))

@[simp] theorem openHead_mem (role : Nat) (s : State) : (openHead role s).mem = s.mem := openHead_same role s

theorem putTwice_same (a content : Nat) (s : State) : SameMem (putTwice a content s) s := by
  unfold putTwice
  try dsimp only
  repeat' split
  all_goals (first | (simp [SameMem]; done) | exact rfl | (simp_all [SameMem]; done) | grind [SameMem] | (simp [SameMem]; grind [SameMem]) | (simp +zetaDelta [SameMem]; done) | ((try dsimp only); (repeat' (first | (exact SameMem.refl _) | assumption | (simp [SameMem]; done) | split | with_reducible refine SameMem.trans (putNor_same ..) ?_ | with_reducible refine SameMem.trans (SameMem.foldl (fun _ _ => ?_) _ _) ?_ | with_reducible refine SameMem.trans (SameMem.foldr (fun _ _ => ?_) _ _) ?_ | with_reducible refine SameMem.trans rfl ?_)); done) | (refine SameMem.foldl ?_ _ _; intro st x; (try dsimp only); (repeat' split); all_goals (first | (simp [SameMem]; done) | (simp_all [SameMem]; done) | grind [SameMem])))

@[simp] theorem putTwice_mem (a content : Nat) (s : State) : (putTwice a content s).mem = s.mem := putTwice_same a content s

theorem vaultFault_same (medium reason addr : Nat) (s : State) : SameMem (vaultFault medium reason addr s) s := by
  have h : ∀ w, SameMem { s with fv := { s.fv with fault := w } } s := fun _ => (rfl : _ = _)
  exact h _

@[simp] theorem vaultFault_mem (medium reason addr : Nat) (s : State) : (vaultFault medium reason addr s).mem = s.mem := vaultFault_same medium reason addr s

theorem flashEvent_same (bit : Nat) (s : State) : SameMem (flashEvent bit s) s := by
  unfold flashEvent
  try dsimp only
  repeat' split
  all_goals (first | (simp [SameMem]; done) | exact rfl | (simp_all [SameMem]; done) | grind [SameMem] | (simp [SameMem]; grind [SameMem]) | (simp +zetaDelta [SameMem]; done) | ((try dsimp only); (repeat' (first | (exact SameMem.refl _) | assumption | (simp [SameMem]; done) | split | with_reducible refine SameMem.trans (setEvent_same ..) ?_ | with_reducible refine SameMem.trans (ledgerEvent_same ..) ?_ | with_reducible refine SameMem.trans (SameMem.foldl (fun _ _ => ?_) _ _) ?_ | with_reducible refine SameMem.trans (SameMem.foldr (fun _ _ => ?_) _ _) ?_ | with_reducible refine SameMem.trans rfl ?_)); done) | (refine SameMem.foldl ?_ _ _; intro st x; (try dsimp only); (repeat' split); all_goals (first | (simp [SameMem]; done) | (simp_all [SameMem]; done) | grind [SameMem])))

@[simp] theorem flashEvent_mem (bit : Nat) (s : State) : (flashEvent bit s).mem = s.mem := flashEvent_same bit s

theorem noteLoops_same (m loops : Nat) (s : State) : SameMem (noteLoops m loops s) s := by
  unfold noteLoops
  try dsimp only
  repeat' split
  all_goals (first | (simp [SameMem]; done) | exact rfl | (simp_all [SameMem]; done) | grind [SameMem] | (simp [SameMem]; grind [SameMem]) | (simp +zetaDelta [SameMem]; done) | ((try dsimp only); (repeat' (first | (exact SameMem.refl _) | assumption | (simp [SameMem]; done) | split | with_reducible refine SameMem.trans (itemAddQuiet_same ..) ?_ | with_reducible refine SameMem.trans (SameMem.foldl (fun _ _ => ?_) _ _) ?_ | with_reducible refine SameMem.trans (SameMem.foldr (fun _ _ => ?_) _ _) ?_ | with_reducible refine SameMem.trans rfl ?_)); done) | (refine SameMem.foldl ?_ _ _; intro st x; (try dsimp only); (repeat' split); all_goals (first | (simp [SameMem]; done) | (simp_all [SameMem]; done) | grind [SameMem])))

@[simp] theorem noteLoops_mem (m loops : Nat) (s : State) : (noteLoops m loops s).mem = s.mem := noteLoops_same m loops s

theorem putCopy_same (a kind key rseq : Nat) (ws : List W64) (s : State) : SameMem (putCopy a kind key rseq ws s) s := by
  unfold putCopy
  try dsimp only
  repeat' split
  all_goals (first | (simp [SameMem]; done) | exact rfl | (simp_all [SameMem]; done) | grind [SameMem] | (simp [SameMem]; grind [SameMem]) | (simp +zetaDelta [SameMem]; done) | ((try dsimp only); (repeat' (first | (exact SameMem.refl _) | assumption | (simp [SameMem]; done) | split | with_reducible refine SameMem.trans (putNor_same ..) ?_ | with_reducible refine SameMem.trans (SameMem.foldl (fun _ _ => ?_) _ _) ?_ | with_reducible refine SameMem.trans (SameMem.foldr (fun _ _ => ?_) _ _) ?_ | with_reducible refine SameMem.trans rfl ?_)); done) | (refine SameMem.foldl ?_ _ _; intro st x; (try dsimp only); (repeat' split); all_goals (first | (simp [SameMem]; done) | (simp_all [SameMem]; done) | grind [SameMem])))

@[simp] theorem putCopy_mem (a kind key rseq : Nat) (ws : List W64) (s : State) : (putCopy a kind key rseq ws s).mem = s.mem := putCopy_same a kind key rseq ws s

theorem putCopies_same (kind key : Nat) (ws : List W64) (s : State) : SameMem (putCopies kind key ws s) s := by
  unfold putCopies
  split
  · exact SameMem.refl _
  · refine (SameMem.foldl (fun st c => putNor_same _ _ _) _ _).trans (SameMem.foldl (fun st e => ?_) _ _)
    split
    · with_reducible exact (putCopy_same ..).trans (useSector_same ..)
    · exact SameMem.refl _

@[simp] theorem putCopies_mem (kind key : Nat) (ws : List W64) (s : State) : (putCopies kind key ws s).mem = s.mem := putCopies_same kind key ws s

theorem compactOne_same {s t : State} (h : compactOne s = some t) : SameMem t s := by
  unfold compactOne at h
  extract_lets free at h
  split at h
  · cases h
  · obtain ⟨e, -, rfl⟩ := Option.map_eq_some_iff.mp h
    with_reducible exact (renewSector_same ..).trans (SameMem.foldl (fun st c => putCopies_same ..) _ _)

theorem compactReserve_same (x0 : Nat) (s : State) : SameMem (compactReserve x0 s) s := by
  induction x0 generalizing s with
  | zero => exact SameMem.refl _
  | succ n ih =>
    rw [compactReserve]
    cases h : compactOne s with
    | none => exact SameMem.refl _
    | some t => exact (ih t).trans (compactOne_same h)

@[simp] theorem compactReserve_mem (x0 : Nat) (s : State) : (compactReserve x0 s).mem = s.mem := compactReserve_same x0 s

theorem reservePut_same (kind key : Nat) (bs : List Byte) (s : State) : SameMem (reservePut kind key bs s) s := by
  unfold reservePut
  try dsimp only
  repeat' split
  all_goals (first | (simp [SameMem]; done) | exact rfl | (simp_all [SameMem]; done) | grind [SameMem] | (simp [SameMem]; grind [SameMem]) | (simp +zetaDelta [SameMem]; done) | ((try dsimp only); (repeat' (first | (exact SameMem.refl _) | assumption | (simp [SameMem]; done) | split | with_reducible refine SameMem.trans (putCopies_same ..) ?_ | with_reducible refine SameMem.trans (compactReserve_same ..) ?_ | with_reducible refine SameMem.trans (SameMem.foldl (fun _ _ => ?_) _ _) ?_ | with_reducible refine SameMem.trans (SameMem.foldr (fun _ _ => ?_) _ _) ?_ | with_reducible refine SameMem.trans rfl ?_)); done) | (refine SameMem.foldl ?_ _ _; intro st x; (try dsimp only); (repeat' split); all_goals (first | (simp [SameMem]; done) | (simp_all [SameMem]; done) | grind [SameMem])))

@[simp] theorem reservePut_mem (kind key : Nat) (bs : List Byte) (s : State) : (reservePut kind key bs s).mem = s.mem := reservePut_same kind key bs s

theorem resvResolve_same (bad : List Nat) (s : State) : SameMem (resvResolve bad s) s := by
  unfold resvResolve
  try dsimp only
  repeat' split
  all_goals (first | (simp [SameMem]; done) | exact rfl | (simp_all [SameMem]; done) | grind [SameMem] | (simp [SameMem]; grind [SameMem]) | (simp +zetaDelta [SameMem]; done) | ((try dsimp only); (repeat' (first | (exact SameMem.refl _) | assumption | (simp [SameMem]; done) | split | with_reducible refine SameMem.trans (setEventIf_same ..) ?_ | with_reducible refine SameMem.trans (putNor_same ..) ?_ | with_reducible refine SameMem.trans (SameMem.foldl (fun _ _ => ?_) _ _) ?_ | with_reducible refine SameMem.trans (SameMem.foldr (fun _ _ => ?_) _ _) ?_ | with_reducible refine SameMem.trans rfl ?_)); done) | (refine SameMem.foldl ?_ _ _; intro st x; (try dsimp only); (repeat' split); all_goals (first | (simp [SameMem]; done) | (simp_all [SameMem]; done) | grind [SameMem])))

@[simp] theorem resvResolve_mem (bad : List Nat) (s : State) : (resvResolve bad s).mem = s.mem := resvResolve_same bad s

theorem putLife_same (id v : Nat) (s : State) : SameMem (putLife id v s) s := by
  unfold putLife
  try dsimp only
  repeat' split
  all_goals (first | (simp [SameMem]; done) | exact rfl | (simp_all [SameMem]; done) | grind [SameMem] | (simp [SameMem]; grind [SameMem]) | (simp +zetaDelta [SameMem]; done) | ((try dsimp only); (repeat' (first | (exact SameMem.refl _) | assumption | (simp [SameMem]; done) | split | with_reducible refine SameMem.trans (putTwice_same ..) ?_ | with_reducible refine SameMem.trans (SameMem.foldl (fun _ _ => ?_) _ _) ?_ | with_reducible refine SameMem.trans (SameMem.foldr (fun _ _ => ?_) _ _) ?_ | with_reducible refine SameMem.trans rfl ?_)); done) | (refine SameMem.foldl ?_ _ _; intro st x; (try dsimp only); (repeat' split); all_goals (first | (simp [SameMem]; done) | (simp_all [SameMem]; done) | grind [SameMem])))

@[simp] theorem putLife_mem (id v : Nat) (s : State) : (putLife id v s).mem = s.mem := putLife_same id v s

theorem lifeRoom_same (s : State) : SameMem (lifeRoom s) s := by
  unfold lifeRoom
  try dsimp only
  repeat' split
  all_goals (first | (simp [SameMem]; done) | exact rfl | (simp_all [SameMem]; done) | grind [SameMem] | (simp [SameMem]; grind [SameMem]) | (simp +zetaDelta [SameMem]; done) | ((try dsimp only); (repeat' (first | (exact SameMem.refl _) | assumption | (simp [SameMem]; done) | split | with_reducible refine SameMem.trans (renewSector_same ..) ?_ | with_reducible refine SameMem.trans (openHead_same ..) ?_ | with_reducible refine SameMem.trans (putLife_same ..) ?_ | with_reducible refine SameMem.trans (SameMem.foldl (fun _ _ => ?_) _ _) ?_ | with_reducible refine SameMem.trans (SameMem.foldr (fun _ _ => ?_) _ _) ?_ | with_reducible refine SameMem.trans rfl ?_)); done) | (refine SameMem.foldl ?_ _ _; intro st x; (try dsimp only); (repeat' split); all_goals (first | (simp [SameMem]; done) | (simp_all [SameMem]; done) | grind [SameMem])))

@[simp] theorem lifeRoom_mem (s : State) : (lifeRoom s).mem = s.mem := lifeRoom_same s

theorem writeLife_same (id v : Nat) (s : State) : SameMem (writeLife id v s) s := by
  unfold writeLife
  try dsimp only
  repeat' split
  all_goals (first | (simp [SameMem]; done) | exact rfl | (simp_all [SameMem]; done) | grind [SameMem] | (simp [SameMem]; grind [SameMem]) | (simp +zetaDelta [SameMem]; done) | ((try dsimp only); (repeat' (first | (exact SameMem.refl _) | assumption | (simp [SameMem]; done) | split | with_reducible refine SameMem.trans (putLife_same ..) ?_ | with_reducible refine SameMem.trans (lifeRoom_same ..) ?_ | with_reducible refine SameMem.trans (SameMem.foldl (fun _ _ => ?_) _ _) ?_ | with_reducible refine SameMem.trans (SameMem.foldr (fun _ _ => ?_) _ _) ?_ | with_reducible refine SameMem.trans rfl ?_)); done) | (refine SameMem.foldl ?_ _ _; intro st x; (try dsimp only); (repeat' split); all_goals (first | (simp [SameMem]; done) | (simp_all [SameMem]; done) | grind [SameMem])))

@[simp] theorem writeLife_mem (id v : Nat) (s : State) : (writeLife id v s).mem = s.mem := writeLife_same id v s

theorem eraseBank_same (b : Nat) (s : State) : SameMem (eraseBank b s) s := by
  unfold eraseBank
  try dsimp only
  repeat' split
  all_goals (first | (simp [SameMem]; done) | exact rfl | (simp_all [SameMem]; done) | grind [SameMem] | (simp [SameMem]; grind [SameMem]) | (simp +zetaDelta [SameMem]; done) | ((try dsimp only); (repeat' (first | (exact SameMem.refl _) | assumption | (simp [SameMem]; done) | split | with_reducible refine SameMem.trans (renewSector_same ..) ?_ | with_reducible refine SameMem.trans (SameMem.foldl (fun _ _ => ?_) _ _) ?_ | with_reducible refine SameMem.trans (SameMem.foldr (fun _ _ => ?_) _ _) ?_ | with_reducible refine SameMem.trans rfl ?_)); done) | (refine SameMem.foldl ?_ _ _; intro st x; (try dsimp only); (repeat' split); all_goals (first | (simp [SameMem]; done) | (simp_all [SameMem]; done) | grind [SameMem])))

@[simp] theorem eraseBank_mem (b : Nat) (s : State) : (eraseBank b s).mem = s.mem := eraseBank_same b s

theorem putImage_same (b : Nat) (img : List Byte) (off lim : Nat) (s : State) : SameMem (putImage b img off lim s) s := by
  unfold putImage
  refine SameMem.foldl (fun st k => ?_) _ _
  dsimp only
  split
  · exact (putNor_same ..).trans (useSector_same ..)
  · exact SameMem.refl _

@[simp] theorem putImage_mem (b : Nat) (img : List Byte) (off lim : Nat) (s : State) : (putImage b img off lim s).mem = s.mem := putImage_same b img off lim s

theorem putBankWord_same (b seq sectors : Nat) (commit : Bool) (s : State) : SameMem (putBankWord b seq sectors commit s) s := by
  unfold putBankWord
  try dsimp only
  repeat' split
  all_goals (first | (simp [SameMem]; done) | exact rfl | (simp_all [SameMem]; done) | grind [SameMem] | (simp [SameMem]; grind [SameMem]) | (simp +zetaDelta [SameMem]; done) | ((try dsimp only); (repeat' (first | (exact SameMem.refl _) | assumption | (simp [SameMem]; done) | split | with_reducible refine SameMem.trans (putNor_same ..) ?_ | with_reducible refine SameMem.trans (SameMem.foldl (fun _ _ => ?_) _ _) ?_ | with_reducible refine SameMem.trans (SameMem.foldr (fun _ _ => ?_) _ _) ?_ | with_reducible refine SameMem.trans rfl ?_)); done) | (refine SameMem.foldl ?_ _ _; intro st x; (try dsimp only); (repeat' split); all_goals (first | (simp [SameMem]; done) | (simp_all [SameMem]; done) | grind [SameMem])))

@[simp] theorem putBankWord_mem (b seq sectors : Nat) (commit : Bool) (s : State) : (putBankWord b seq sectors commit s).mem = s.mem := putBankWord_same b seq sectors commit s

theorem moveSector_same (role src dst : Nat) (s : State) : SameMem (moveSector role src dst s) s := by
  unfold moveSector
  try dsimp only
  repeat' split
  all_goals (first | (simp [SameMem]; done) | exact rfl | (simp_all [SameMem]; done) | grind [SameMem] | (simp [SameMem]; grind [SameMem]) | (simp +zetaDelta [SameMem]; done) | ((try dsimp only); (repeat' (first | (exact SameMem.refl _) | assumption | (simp [SameMem]; done) | split | with_reducible refine SameMem.trans (putNor_same ..) ?_ | with_reducible refine SameMem.trans (SameMem.foldl (fun _ _ => ?_) _ _) ?_ | with_reducible refine SameMem.trans (SameMem.foldr (fun _ _ => ?_) _ _) ?_ | with_reducible refine SameMem.trans rfl ?_)); done) | (refine SameMem.foldl ?_ _ _; intro st x; (try dsimp only); (repeat' split); all_goals (first | (simp [SameMem]; done) | (simp_all [SameMem]; done) | grind [SameMem])))

@[simp] theorem moveSector_mem (role src dst : Nat) (s : State) : (moveSector role src dst s).mem = s.mem := moveSector_same role src dst s

theorem retireSector_same (n : Nat) (s : State) : SameMem (retireSector n s) s := by
  unfold retireSector
  try dsimp only
  repeat' split
  all_goals (first | (simp [SameMem]; done) | exact rfl | (simp_all [SameMem]; done) | grind [SameMem] | (simp [SameMem]; grind [SameMem]) | (simp +zetaDelta [SameMem]; done) | ((try dsimp only); (repeat' (first | (exact SameMem.refl _) | assumption | (simp [SameMem]; done) | split | with_reducible refine SameMem.trans (setEvent_same ..) ?_ | with_reducible refine SameMem.trans (putNor_same ..) ?_ | with_reducible refine SameMem.trans (putRole_same ..) ?_ | with_reducible refine SameMem.trans (eraseSector_same ..) ?_ | with_reducible refine SameMem.trans (vaultFault_same ..) ?_ | with_reducible refine SameMem.trans (flashEvent_same ..) ?_ | with_reducible refine SameMem.trans (moveSector_same ..) ?_ | with_reducible refine SameMem.trans (SameMem.foldl (fun _ _ => ?_) _ _) ?_ | with_reducible refine SameMem.trans (SameMem.foldr (fun _ _ => ?_) _ _) ?_ | with_reducible refine SameMem.trans rfl ?_)); done) | (refine SameMem.foldl ?_ _ _; intro st x; (try dsimp only); (repeat' split); all_goals (first | (simp [SameMem]; done) | (simp_all [SameMem]; done) | grind [SameMem])))

@[simp] theorem retireSector_mem (n : Nat) (s : State) : (retireSector n s).mem = s.mem := retireSector_same n s

theorem adoptSectors_same (x0 : List Nat) (x1 : List (Nat × Nat × Nat)) (s : State) : SameMem (adoptSectors x0 x1 s) s := by
  fun_induction adoptSectors x0 x1 s
  all_goals (first | (simp [SameMem]; done) | exact rfl | (simp_all [SameMem]; done) | grind [SameMem] | (simp [SameMem]; grind [SameMem]) | (simp +zetaDelta [SameMem]; done) | ((try dsimp only); (repeat' (first | (exact SameMem.refl _) | assumption | (simp [SameMem]; done) | split | with_reducible refine SameMem.trans (putRole_same ..) ?_ | with_reducible refine SameMem.trans (SameMem.foldl (fun _ _ => ?_) _ _) ?_ | with_reducible refine SameMem.trans (SameMem.foldr (fun _ _ => ?_) _ _) ?_ | with_reducible refine SameMem.trans rfl ?_)); done) | (refine SameMem.foldl ?_ _ _; intro st x; (try dsimp only); (repeat' split); all_goals (first | (simp [SameMem]; done) | (simp_all [SameMem]; done) | grind [SameMem])) | (refine SameMem.trans (by assumption) ?_; simp +zetaDelta [SameMem]; done) | (refine SameMem.trans (by assumption) ?_; simp +zetaDelta [SameMem]; grind [SameMem]))

@[simp] theorem adoptSectors_mem (x0 : List Nat) (x1 : List (Nat × Nat × Nat)) (s : State) : (adoptSectors x0 x1 s).mem = s.mem := adoptSectors_same x0 x1 s

theorem noteTorn_same (s : State) : SameMem (noteTorn s) s := by
  unfold noteTorn
  try dsimp only
  repeat' split
  all_goals (first | (simp [SameMem]; done) | exact rfl | (simp_all [SameMem]; done) | grind [SameMem] | (simp [SameMem]; grind [SameMem]) | (simp +zetaDelta [SameMem]; done) | ((try dsimp only); (repeat' (first | (exact SameMem.refl _) | assumption | (simp [SameMem]; done) | split | with_reducible refine SameMem.trans (setEvent_same ..) ?_ | with_reducible refine SameMem.trans (vaultFault_same ..) ?_ | with_reducible refine SameMem.trans (SameMem.foldl (fun _ _ => ?_) _ _) ?_ | with_reducible refine SameMem.trans (SameMem.foldr (fun _ _ => ?_) _ _) ?_ | with_reducible refine SameMem.trans rfl ?_)); done) | (refine SameMem.foldl ?_ _ _; intro st x; (try dsimp only); (repeat' split); all_goals (first | (simp [SameMem]; done) | (simp_all [SameMem]; done) | grind [SameMem])))

@[simp] theorem noteTorn_mem (s : State) : (noteTorn s).mem = s.mem := noteTorn_same s

theorem norMount_same (bad : List Nat) (s : State) : SameMem (norMount bad s) s := by
  unfold norMount
  try dsimp only
  repeat' split
  all_goals (first | (simp [SameMem]; done) | exact rfl | (simp_all [SameMem]; done) | grind [SameMem, adoptSectors_same] | (simp [SameMem]; grind [SameMem, adoptSectors_same]) | (simp +zetaDelta [SameMem]; done) | ((try dsimp only); (repeat' (first | (exact SameMem.refl _) | assumption | (simp [SameMem]; done) | split | with_reducible refine SameMem.trans (resvResolve_same ..) ?_ | with_reducible refine SameMem.trans (adoptSectors_same ..) ?_ | with_reducible refine SameMem.trans (noteTorn_same ..) ?_ | with_reducible refine SameMem.trans (SameMem.foldl (fun _ _ => ?_) _ _) ?_ | with_reducible refine SameMem.trans (SameMem.foldr (fun _ _ => ?_) _ _) ?_ | with_reducible refine SameMem.trans rfl ?_)); done) | (refine SameMem.foldl ?_ _ _; intro st x; (try dsimp only); (repeat' split); all_goals (first | (simp [SameMem]; done) | (simp_all [SameMem]; done) | grind [SameMem, adoptSectors_same])))

@[simp] theorem norMount_mem (bad : List Nat) (s : State) : (norMount bad s).mem = s.mem := norMount_same bad s

end Sys2Proof.Machine
end

