-- ==== Sys2Proof/Laws/KeptTack.lean ====
section
/-! SUPPORT. What each operation of Machine/Tack.lean keeps: the fuses, the life counters, the queue, and memory or its form. -/

namespace Sys2Proof.Machine

theorem drbgSeed_core (d : Drbg) (s : State) : SameAll (drbgSeed d s).2 s := ⟨rfl, rfl, rfl⟩

@[simp] theorem drbgSeed_copies (d : Drbg) (s : State) : (drbgSeed d s).2.lc.copies = s.lc.copies := (drbgSeed_core d s).1

@[simp] theorem drbgSeed_life (d : Drbg) (s : State) : (drbgSeed d s).2.fv.life = s.fv.life := (drbgSeed_core d s).2.1

@[simp] theorem drbgSeed_pending (d : Drbg) (s : State) : (drbgSeed d s).2.pending = s.pending := (drbgSeed_core d s).2.2

theorem drbgReady_core (d : Drbg) (s : State) : SameAll (drbgReady d s).2 s := by simp [drbgReady, SameAll]

@[simp] theorem drbgReady_copies (d : Drbg) (s : State) : (drbgReady d s).2.lc.copies = s.lc.copies := (drbgReady_core d s).1

@[simp] theorem drbgReady_life (d : Drbg) (s : State) : (drbgReady d s).2.fv.life = s.fv.life := (drbgReady_core d s).2.1

@[simp] theorem drbgReady_pending (d : Drbg) (s : State) : (drbgReady d s).2.pending = s.pending := (drbgReady_core d s).2.2

theorem setDrbg_core (u : Nat) (d : Drbg) (s : State) : SameAll (setDrbg u d s) s := ⟨rfl, rfl, rfl⟩

@[simp] theorem setDrbg_copies (u : Nat) (d : Drbg) (s : State) : (setDrbg u d s).lc.copies = s.lc.copies := (setDrbg_core u d s).1

@[simp] theorem setDrbg_life (u : Nat) (d : Drbg) (s : State) : (setDrbg u d s).fv.life = s.fv.life := (setDrbg_core u d s).2.1

@[simp] theorem setDrbg_pending (u : Nat) (d : Drbg) (s : State) : (setDrbg u d s).pending = s.pending := (setDrbg_core u d s).2.2

theorem engineBytes_core (u n : Nat) (s : State) : SameAll (engineBytes u n s).2 s := by simp [engineBytes, SameAll]

@[simp] theorem engineBytes_copies (u n : Nat) (s : State) : (engineBytes u n s).2.lc.copies = s.lc.copies := (engineBytes_core u n s).1

@[simp] theorem engineBytes_life (u n : Nat) (s : State) : (engineBytes u n s).2.fv.life = s.fv.life := (engineBytes_core u n s).2.1

@[simp] theorem engineBytes_pending (u n : Nat) (s : State) : (engineBytes u n s).2.pending = s.pending := (engineBytes_core u n s).2.2

theorem custodyBytes_core (n : Nat) (s : State) : SameAll (custodyBytes n s).2 s := by simp [custodyBytes, SameAll]

@[simp] theorem custodyBytes_copies (n : Nat) (s : State) : (custodyBytes n s).2.lc.copies = s.lc.copies := (custodyBytes_core n s).1

@[simp] theorem custodyBytes_life (n : Nat) (s : State) : (custodyBytes n s).2.fv.life = s.fv.life := (custodyBytes_core n s).2.1

@[simp] theorem custodyBytes_pending (n : Nat) (s : State) : (custodyBytes n s).2.pending = s.pending := (custodyBytes_core n s).2.2

theorem seedDrbgs_core (s : State) : SameAll (seedDrbgs s) s := by simp [seedDrbgs, SameAll]

@[simp] theorem seedDrbgs_copies (s : State) : (seedDrbgs s).lc.copies = s.lc.copies := (seedDrbgs_core s).1

@[simp] theorem seedDrbgs_life (s : State) : (seedDrbgs s).fv.life = s.fv.life := (seedDrbgs_core s).2.1

@[simp] theorem seedDrbgs_pending (s : State) : (seedDrbgs s).pending = s.pending := (seedDrbgs_core s).2.2

theorem updTack_core (h : Nat) (f : Tack → Tack) (s : State) : SameAll (updTack h f s) s := ⟨rfl, rfl, rfl⟩

@[simp] theorem updTack_copies (h : Nat) (f : Tack → Tack) (s : State) : (updTack h f s).lc.copies = s.lc.copies := (updTack_core h f s).1

@[simp] theorem updTack_life (h : Nat) (f : Tack → Tack) (s : State) : (updTack h f s).fv.life = s.fv.life := (updTack_core h f s).2.1

@[simp] theorem updTack_pending (h : Nat) (f : Tack → Tack) (s : State) : (updTack h f s).pending = s.pending := (updTack_core h f s).2.2

theorem setPaddock_core (p : Nat) (q : Paddock) (s : State) : SameAll (setPaddock p q s) s := ⟨rfl, rfl, rfl⟩

@[simp] theorem setPaddock_copies (p : Nat) (q : Paddock) (s : State) : (setPaddock p q s).lc.copies = s.lc.copies := (setPaddock_core p q s).1

@[simp] theorem setPaddock_life (p : Nat) (q : Paddock) (s : State) : (setPaddock p q s).fv.life = s.fv.life := (setPaddock_core p q s).2.1

@[simp] theorem setPaddock_pending (p : Nat) (q : Paddock) (s : State) : (setPaddock p q s).pending = s.pending := (setPaddock_core p q s).2.2

theorem keepPaddock_core (p : Nat) (q : Paddock) (s : State) : SameAll (keepPaddock p q s) s := by simp [keepPaddock, SameAll]

@[simp] theorem keepPaddock_copies (p : Nat) (q : Paddock) (s : State) : (keepPaddock p q s).lc.copies = s.lc.copies := (keepPaddock_core p q s).1

@[simp] theorem keepPaddock_life (p : Nat) (q : Paddock) (s : State) : (keepPaddock p q s).fv.life = s.fv.life := (keepPaddock_core p q s).2.1

@[simp] theorem keepPaddock_pending (p : Nat) (q : Paddock) (s : State) : (keepPaddock p q s).pending = s.pending := (keepPaddock_core p q s).2.2

theorem unsealMaster_core (p : Nat) (s : State) : SameAll (unsealMaster p s) s := by
  unfold unsealMaster
  split <;> simp [SameAll]

@[simp] theorem unsealMaster_copies (p : Nat) (s : State) : (unsealMaster p s).lc.copies = s.lc.copies := (unsealMaster_core p s).1

@[simp] theorem unsealMaster_life (p : Nat) (s : State) : (unsealMaster p s).fv.life = s.fv.life := (unsealMaster_core p s).2.1

@[simp] theorem unsealMaster_pending (p : Nat) (s : State) : (unsealMaster p s).pending = s.pending := (unsealMaster_core p s).2.2

theorem writeEnvelope_core (h : Nat) (f : Tack → Tack) (s : State) : SameAll (writeEnvelope h f s) s := ⟨rfl, rfl, rfl⟩

@[simp] theorem writeEnvelope_copies (h : Nat) (f : Tack → Tack) (s : State) : (writeEnvelope h f s).lc.copies = s.lc.copies := (writeEnvelope_core h f s).1

@[simp] theorem writeEnvelope_life (h : Nat) (f : Tack → Tack) (s : State) : (writeEnvelope h f s).fv.life = s.fv.life := (writeEnvelope_core h f s).2.1

@[simp] theorem writeEnvelope_pending (h : Nat) (f : Tack → Tack) (s : State) : (writeEnvelope h f s).pending = s.pending := (writeEnvelope_core h f s).2.2

theorem writeTkQuota_core (vault : Bool) (v : W32) (s : State) : SameAll (writeTkQuota vault v s) s := by simp [writeTkQuota, SameAll]

@[simp] theorem writeTkQuota_copies (vault : Bool) (v : W32) (s : State) : (writeTkQuota vault v s).lc.copies = s.lc.copies := (writeTkQuota_core vault v s).1

@[simp] theorem writeTkQuota_life (vault : Bool) (v : W32) (s : State) : (writeTkQuota vault v s).fv.life = s.fv.life := (writeTkQuota_core vault v s).2.1

@[simp] theorem writeTkQuota_pending (vault : Bool) (v : W32) (s : State) : (writeTkQuota vault v s).pending = s.pending := (writeTkQuota_core vault v s).2.2

theorem leaseCheck_core (h : Nat) (s : State) : SameAll (leaseCheck h s) s := ⟨rfl, rfl, rfl⟩

@[simp] theorem leaseCheck_copies (h : Nat) (s : State) : (leaseCheck h s).lc.copies = s.lc.copies := (leaseCheck_core h s).1

@[simp] theorem leaseCheck_life (h : Nat) (s : State) : (leaseCheck h s).fv.life = s.fv.life := (leaseCheck_core h s).2.1

@[simp] theorem leaseCheck_pending (h : Nat) (s : State) : (leaseCheck h s).pending = s.pending := (leaseCheck_core h s).2.2

theorem leaseWait_core (h : Nat) (s : State) : SameAll (leaseWait h s) s := by simp [leaseWait, SameAll]

@[simp] theorem leaseWait_copies (h : Nat) (s : State) : (leaseWait h s).lc.copies = s.lc.copies := (leaseWait_core h s).1

@[simp] theorem leaseWait_life (h : Nat) (s : State) : (leaseWait h s).fv.life = s.fv.life := (leaseWait_core h s).2.1

@[simp] theorem leaseWait_pending (h : Nat) (s : State) : (leaseWait h s).pending = s.pending := (leaseWait_core h s).2.2

theorem pendUse_core (h : Nat) (s : State) : SameAll (pendUse h s) s := ⟨rfl, rfl, rfl⟩

@[simp] theorem pendUse_copies (h : Nat) (s : State) : (pendUse h s).lc.copies = s.lc.copies := (pendUse_core h s).1

@[simp] theorem pendUse_life (h : Nat) (s : State) : (pendUse h s).fv.life = s.fv.life := (pendUse_core h s).2.1

@[simp] theorem pendUse_pending (h : Nat) (s : State) : (pendUse h s).pending = s.pending := (pendUse_core h s).2.2

theorem countUse_core (h : Nat) (s : State) : SameAll (countUse h s) s := ⟨rfl, rfl, rfl⟩

@[simp] theorem countUse_copies (h : Nat) (s : State) : (countUse h s).lc.copies = s.lc.copies := (countUse_core h s).1

@[simp] theorem countUse_life (h : Nat) (s : State) : (countUse h s).fv.life = s.fv.life := (countUse_core h s).2.1

@[simp] theorem countUse_pending (h : Nat) (s : State) : (countUse h s).pending = s.pending := (countUse_core h s).2.2

theorem dropUse_core (h : Nat) (s : State) : SameAll (dropUse h s) s := ⟨rfl, rfl, rfl⟩

@[simp] theorem dropUse_copies (h : Nat) (s : State) : (dropUse h s).lc.copies = s.lc.copies := (dropUse_core h s).1

@[simp] theorem dropUse_life (h : Nat) (s : State) : (dropUse h s).fv.life = s.fv.life := (dropUse_core h s).2.1

@[simp] theorem dropUse_pending (h : Nat) (s : State) : (dropUse h s).pending = s.pending := (dropUse_core h s).2.2

theorem countNow_core (h n : Nat) (s : State) : SameAll (countNow h n s) s := ⟨rfl, rfl, rfl⟩

@[simp] theorem countNow_copies (h n : Nat) (s : State) : (countNow h n s).lc.copies = s.lc.copies := (countNow_core h n s).1

@[simp] theorem countNow_life (h n : Nat) (s : State) : (countNow h n s).fv.life = s.fv.life := (countNow_core h n s).2.1

@[simp] theorem countNow_pending (h n : Nat) (s : State) : (countNow h n s).pending = s.pending := (countNow_core h n s).2.2

theorem fillUnder_core (held : Option (Nat × Nat)) (h : Nat) (s : State) : SameAll (fillUnder held h s) s := by
  unfold fillUnder
  split <;> simp [SameAll]

@[simp] theorem fillUnder_copies (held : Option (Nat × Nat)) (h : Nat) (s : State) : (fillUnder held h s).lc.copies = s.lc.copies := (fillUnder_core held h s).1

@[simp] theorem fillUnder_life (held : Option (Nat × Nat)) (h : Nat) (s : State) : (fillUnder held h s).fv.life = s.fv.life := (fillUnder_core held h s).2.1

@[simp] theorem fillUnder_pending (held : Option (Nat × Nat)) (h : Nat) (s : State) : (fillUnder held h s).pending = s.pending := (fillUnder_core held h s).2.2

theorem settleFills_core (cinch : Nat) (ok : Bool) (s : State) : SameAll (settleFills cinch ok s) s := by simp [settleFills, SameAll]

@[simp] theorem settleFills_copies (cinch : Nat) (ok : Bool) (s : State) : (settleFills cinch ok s).lc.copies = s.lc.copies := (settleFills_core cinch ok s).1

@[simp] theorem settleFills_life (cinch : Nat) (ok : Bool) (s : State) : (settleFills cinch ok s).fv.life = s.fv.life := (settleFills_core cinch ok s).2.1

@[simp] theorem settleFills_pending (cinch : Nat) (ok : Bool) (s : State) : (settleFills cinch ok s).pending = s.pending := (settleFills_core cinch ok s).2.2

theorem fillTack_core (h : Nat) (key : List Byte) (s : State) : SameAll (fillTack h key s) s := ⟨rfl, rfl, rfl⟩

@[simp] theorem fillTack_copies (h : Nat) (key : List Byte) (s : State) : (fillTack h key s).lc.copies = s.lc.copies := (fillTack_core h key s).1

@[simp] theorem fillTack_life (h : Nat) (key : List Byte) (s : State) : (fillTack h key s).fv.life = s.fv.life := (fillTack_core h key s).2.1

@[simp] theorem fillTack_pending (h : Nat) (key : List Byte) (s : State) : (fillTack h key s).pending = s.pending := (fillTack_core h key s).2.2

theorem unfillTack_core (h : Nat) (s : State) : SameAll (unfillTack h s) s := ⟨rfl, rfl, rfl⟩

@[simp] theorem unfillTack_copies (h : Nat) (s : State) : (unfillTack h s).lc.copies = s.lc.copies := (unfillTack_core h s).1

@[simp] theorem unfillTack_life (h : Nat) (s : State) : (unfillTack h s).fv.life = s.fv.life := (unfillTack_core h s).2.1

@[simp] theorem unfillTack_pending (h : Nat) (s : State) : (unfillTack h s).pending = s.pending := (unfillTack_core h s).2.2

theorem startFetch_core (h : Nat) (s : State) : SameAll (startFetch h s) s := ⟨rfl, rfl, rfl⟩

@[simp] theorem startFetch_copies (h : Nat) (s : State) : (startFetch h s).lc.copies = s.lc.copies := (startFetch_core h s).1

@[simp] theorem startFetch_life (h : Nat) (s : State) : (startFetch h s).fv.life = s.fv.life := (startFetch_core h s).2.1

@[simp] theorem startFetch_pending (h : Nat) (s : State) : (startFetch h s).pending = s.pending := (startFetch_core h s).2.2

theorem makeRoom_core (t : Tack) (x0 : Nat) (s : State) : SameAll (makeRoom t x0 s) s := by
  fun_induction makeRoom t x0 s
  all_goals simp_all [SameAll]

@[simp] theorem makeRoom_copies (t : Tack) (x0 : Nat) (s : State) : (makeRoom t x0 s).lc.copies = s.lc.copies := (makeRoom_core t x0 s).1

@[simp] theorem makeRoom_life (t : Tack) (x0 : Nat) (s : State) : (makeRoom t x0 s).fv.life = s.fv.life := (makeRoom_core t x0 s).2.1

@[simp] theorem makeRoom_pending (t : Tack) (x0 : Nat) (s : State) : (makeRoom t x0 s).pending = s.pending := (makeRoom_core t x0 s).2.2

theorem failFetch_core (h bit : Nat) (s : State) : SameAll (failFetch h bit s) s := by simp [failFetch, SameAll]

@[simp] theorem failFetch_copies (h bit : Nat) (s : State) : (failFetch h bit s).lc.copies = s.lc.copies := (failFetch_core h bit s).1

@[simp] theorem failFetch_life (h bit : Nat) (s : State) : (failFetch h bit s).fv.life = s.fv.life := (failFetch_core h bit s).2.1

@[simp] theorem failFetch_pending (h bit : Nat) (s : State) : (failFetch h bit s).pending = s.pending := (failFetch_core h bit s).2.2

theorem sweepRetired_core (s : State) : SameAll (sweepRetired s) s := ⟨rfl, rfl, rfl⟩

@[simp] theorem sweepRetired_copies (s : State) : (sweepRetired s).lc.copies = s.lc.copies := (sweepRetired_core s).1

@[simp] theorem sweepRetired_life (s : State) : (sweepRetired s).fv.life = s.fv.life := (sweepRetired_core s).2.1

@[simp] theorem sweepRetired_pending (s : State) : (sweepRetired s).pending = s.pending := (sweepRetired_core s).2.2

theorem addTack_core (t : Tack) (s : State) : SameAll (addTack t s) s := ⟨rfl, rfl, rfl⟩

@[simp] theorem addTack_copies (t : Tack) (s : State) : (addTack t s).lc.copies = s.lc.copies := (addTack_core t s).1

@[simp] theorem addTack_life (t : Tack) (s : State) : (addTack t s).fv.life = s.fv.life := (addTack_core t s).2.1

@[simp] theorem addTack_pending (t : Tack) (s : State) : (addTack t s).pending = s.pending := (addTack_core t s).2.2

theorem askAct_core (p act cred : Nat) (s : State) : SameAll (askAct p act cred s) s := by simp [askAct, SameAll]

@[simp] theorem askAct_copies (p act cred : Nat) (s : State) : (askAct p act cred s).lc.copies = s.lc.copies := (askAct_core p act cred s).1

@[simp] theorem askAct_life (p act cred : Nat) (s : State) : (askAct p act cred s).fv.life = s.fv.life := (askAct_core p act cred s).2.1

@[simp] theorem askAct_pending (p act cred : Nat) (s : State) : (askAct p act cred s).pending = s.pending := (askAct_core p act cred s).2.2

theorem actPaddock_core (a : PadAct) (s : State) : SameAll (actPaddock a s) s := by simp [actPaddock, SameAll]

@[simp] theorem actPaddock_copies (a : PadAct) (s : State) : (actPaddock a s).lc.copies = s.lc.copies := (actPaddock_core a s).1

@[simp] theorem actPaddock_life (a : PadAct) (s : State) : (actPaddock a s).fv.life = s.fv.life := (actPaddock_core a s).2.1

@[simp] theorem actPaddock_pending (a : PadAct) (s : State) : (actPaddock a s).pending = s.pending := (actPaddock_core a s).2.2

theorem drbgSeed_same (d : Drbg) (s : State) : SameMem (drbgSeed d s).2 s := by
  unfold drbgSeed
  try dsimp only
  repeat' split
  all_goals (first | (simp [SameMem]; done) | exact rfl | (simp_all [SameMem]; done) | grind [SameMem, drawNat_same] | (simp [SameMem]; grind [SameMem, drawNat_same]) | (simp +zetaDelta [SameMem]; done) | ((try dsimp only); (repeat' (first | (exact SameMem.refl _) | assumption | (simp [SameMem]; done) | split | with_reducible refine SameMem.trans (drawNat_same ..) ?_ | with_reducible refine SameMem.trans (SameMem.foldl (fun _ _ => ?_) _ _) ?_ | with_reducible refine SameMem.trans (SameMem.foldr (fun _ _ => ?_) _ _) ?_ | with_reducible refine SameMem.trans rfl ?_)); done) | (refine SameMem.foldl ?_ _ _; intro st x; (try dsimp only); (repeat' split); all_goals (first | (simp [SameMem]; done) | (simp_all [SameMem]; done) | grind [SameMem, drawNat_same])))

@[simp] theorem drbgSeed_mem (d : Drbg) (s : State) : (drbgSeed d s).2.mem = s.mem := drbgSeed_same d s

theorem drbgReady_same (d : Drbg) (s : State) : SameMem (drbgReady d s).2 s := by
  unfold drbgReady
  try dsimp only
  repeat' split
  all_goals (first | (simp [SameMem]; done) | exact rfl | (simp_all [SameMem]; done) | grind [SameMem, drbgSeed_same] | (simp [SameMem]; grind [SameMem, drbgSeed_same]) | (simp +zetaDelta [SameMem]; done) | ((try dsimp only); (repeat' (first | (exact SameMem.refl _) | assumption | (simp [SameMem]; done) | split | with_reducible refine SameMem.trans (drbgSeed_same ..) ?_ | with_reducible refine SameMem.trans (SameMem.foldl (fun _ _ => ?_) _ _) ?_ | with_reducible refine SameMem.trans (SameMem.foldr (fun _ _ => ?_) _ _) ?_ | with_reducible refine SameMem.trans rfl ?_)); done) | (refine SameMem.foldl ?_ _ _; intro st x; (try dsimp only); (repeat' split); all_goals (first | (simp [SameMem]; done) | (simp_all [SameMem]; done) | grind [SameMem, drbgSeed_same])))

@[simp] theorem drbgReady_mem (d : Drbg) (s : State) : (drbgReady d s).2.mem = s.mem := drbgReady_same d s

theorem setDrbg_same (u : Nat) (d : Drbg) (s : State) : SameMem (setDrbg u d s) s := by
  unfold setDrbg
  try dsimp only
  repeat' split
  all_goals (first | (simp [SameMem]; done) | exact rfl | (simp_all [SameMem]; done) | grind [SameMem] | (simp [SameMem]; grind [SameMem]) | (simp +zetaDelta [SameMem]; done) | ((try dsimp only); (repeat' (first | (exact SameMem.refl _) | assumption | (simp [SameMem]; done) | split | with_reducible refine SameMem.trans (SameMem.foldl (fun _ _ => ?_) _ _) ?_ | with_reducible refine SameMem.trans (SameMem.foldr (fun _ _ => ?_) _ _) ?_ | with_reducible refine SameMem.trans rfl ?_)); done) | (refine SameMem.foldl ?_ _ _; intro st x; (try dsimp only); (repeat' split); all_goals (first | (simp [SameMem]; done) | (simp_all [SameMem]; done) | grind [SameMem])))

@[simp] theorem setDrbg_mem (u : Nat) (d : Drbg) (s : State) : (setDrbg u d s).mem = s.mem := setDrbg_same u d s

theorem engineBytes_same (u n : Nat) (s : State) : SameMem (engineBytes u n s).2 s := by
  unfold engineBytes
  try dsimp only
  repeat' split
  all_goals (first | (simp [SameMem]; done) | exact rfl | (simp_all [SameMem]; done) | grind [SameMem, drbgReady_same] | (simp [SameMem]; grind [SameMem, drbgReady_same]) | (simp +zetaDelta [SameMem]; done) | ((try dsimp only); (repeat' (first | (exact SameMem.refl _) | assumption | (simp [SameMem]; done) | split | with_reducible refine SameMem.trans (drbgReady_same ..) ?_ | with_reducible refine SameMem.trans (setDrbg_same ..) ?_ | with_reducible refine SameMem.trans (SameMem.foldl (fun _ _ => ?_) _ _) ?_ | with_reducible refine SameMem.trans (SameMem.foldr (fun _ _ => ?_) _ _) ?_ | with_reducible refine SameMem.trans rfl ?_)); done) | (refine SameMem.foldl ?_ _ _; intro st x; (try dsimp only); (repeat' split); all_goals (first | (simp [SameMem]; done) | (simp_all [SameMem]; done) | grind [SameMem, drbgReady_same])))

@[simp] theorem engineBytes_mem (u n : Nat) (s : State) : (engineBytes u n s).2.mem = s.mem := engineBytes_same u n s

theorem custodyBytes_same (n : Nat) (s : State) : SameMem (custodyBytes n s).2 s := by
  unfold custodyBytes
  try dsimp only
  repeat' split
  all_goals (first | (simp [SameMem]; done) | exact rfl | (simp_all [SameMem]; done) | grind [SameMem, drbgReady_same] | (simp [SameMem]; grind [SameMem, drbgReady_same]) | (simp +zetaDelta [SameMem]; done) | ((try dsimp only); (repeat' (first | (exact SameMem.refl _) | assumption | (simp [SameMem]; done) | split | with_reducible refine SameMem.trans (drbgReady_same ..) ?_ | with_reducible refine SameMem.trans (SameMem.foldl (fun _ _ => ?_) _ _) ?_ | with_reducible refine SameMem.trans (SameMem.foldr (fun _ _ => ?_) _ _) ?_ | with_reducible refine SameMem.trans rfl ?_)); done) | (refine SameMem.foldl ?_ _ _; intro st x; (try dsimp only); (repeat' split); all_goals (first | (simp [SameMem]; done) | (simp_all [SameMem]; done) | grind [SameMem, drbgReady_same])))

@[simp] theorem custodyBytes_mem (n : Nat) (s : State) : (custodyBytes n s).2.mem = s.mem := custodyBytes_same n s

theorem seedDrbgs_same (s : State) : SameMem (seedDrbgs s) s := by
  unfold seedDrbgs
  try dsimp only
  repeat' split
  all_goals (first | (simp [SameMem]; done) | exact rfl | (simp_all [SameMem]; done) | grind [SameMem, drbgSeed_same] | (simp [SameMem]; grind [SameMem, drbgSeed_same]) | (simp +zetaDelta [SameMem]; done) | ((try dsimp only); (repeat' (first | (exact SameMem.refl _) | assumption | (simp [SameMem]; done) | split | with_reducible refine SameMem.trans (drbgSeed_same ..) ?_ | with_reducible refine SameMem.trans (setDrbg_same ..) ?_ | with_reducible refine SameMem.trans (SameMem.foldl (fun _ _ => ?_) _ _) ?_ | with_reducible refine SameMem.trans (SameMem.foldr (fun _ _ => ?_) _ _) ?_ | with_reducible refine SameMem.trans rfl ?_)); done) | (refine SameMem.foldl ?_ _ _; intro st x; (try dsimp only); (repeat' split); all_goals (first | (simp [SameMem]; done) | (simp_all [SameMem]; done) | grind [SameMem, drbgSeed_same])))

@[simp] theorem seedDrbgs_mem (s : State) : (seedDrbgs s).mem = s.mem := seedDrbgs_same s

theorem updTack_same (h : Nat) (f : Tack → Tack) (s : State) : SameMem (updTack h f s) s := by
  unfold updTack
  try dsimp only
  repeat' split
  all_goals (first | (simp [SameMem]; done) | exact rfl | (simp_all [SameMem]; done) | grind [SameMem] | (simp [SameMem]; grind [SameMem]) | (simp +zetaDelta [SameMem]; done) | ((try dsimp only); (repeat' (first | (exact SameMem.refl _) | assumption | (simp [SameMem]; done) | split | with_reducible refine SameMem.trans (SameMem.foldl (fun _ _ => ?_) _ _) ?_ | with_reducible refine SameMem.trans (SameMem.foldr (fun _ _ => ?_) _ _) ?_ | with_reducible refine SameMem.trans rfl ?_)); done) | (refine SameMem.foldl ?_ _ _; intro st x; (try dsimp only); (repeat' split); all_goals (first | (simp [SameMem]; done) | (simp_all [SameMem]; done) | grind [SameMem])))

@[simp] theorem updTack_mem (h : Nat) (f : Tack → Tack) (s : State) : (updTack h f s).mem = s.mem := updTack_same h f s

theorem setPaddock_same (p : Nat) (q : Paddock) (s : State) : SameMem (setPaddock p q s) s := by
  unfold setPaddock
  try dsimp only
  repeat' split
  all_goals (first | (simp [SameMem]; done) | exact rfl | (simp_all [SameMem]; done) | grind [SameMem] | (simp [SameMem]; grind [SameMem]) | (simp +zetaDelta [SameMem]; done) | ((try dsimp only); (repeat' (first | (exact SameMem.refl _) | assumption | (simp [SameMem]; done) | split | with_reducible refine SameMem.trans (SameMem.foldl (fun _ _ => ?_) _ _) ?_ | with_reducible refine SameMem.trans (SameMem.foldr (fun _ _ => ?_) _ _) ?_ | with_reducible refine SameMem.trans rfl ?_)); done) | (refine SameMem.foldl ?_ _ _; intro st x; (try dsimp only); (repeat' split); all_goals (first | (simp [SameMem]; done) | (simp_all [SameMem]; done) | grind [SameMem])))

@[simp] theorem setPaddock_mem (p : Nat) (q : Paddock) (s : State) : (setPaddock p q s).mem = s.mem := setPaddock_same p q s

theorem keepPaddock_same (p : Nat) (q : Paddock) (s : State) : SameMem (keepPaddock p q s) s := by
  unfold keepPaddock
  try dsimp only
  repeat' split
  all_goals (first | (simp [SameMem]; done) | exact rfl | (simp_all [SameMem]; done) | grind [SameMem] | (simp [SameMem]; grind [SameMem]) | (simp +zetaDelta [SameMem]; done) | ((try dsimp only); (repeat' (first | (exact SameMem.refl _) | assumption | (simp [SameMem]; done) | split | with_reducible refine SameMem.trans (reservePut_same ..) ?_ | with_reducible refine SameMem.trans (setPaddock_same ..) ?_ | with_reducible refine SameMem.trans (SameMem.foldl (fun _ _ => ?_) _ _) ?_ | with_reducible refine SameMem.trans (SameMem.foldr (fun _ _ => ?_) _ _) ?_ | with_reducible refine SameMem.trans rfl ?_)); done) | (refine SameMem.foldl ?_ _ _; intro st x; (try dsimp only); (repeat' split); all_goals (first | (simp [SameMem]; done) | (simp_all [SameMem]; done) | grind [SameMem])))

@[simp] theorem keepPaddock_mem (p : Nat) (q : Paddock) (s : State) : (keepPaddock p q s).mem = s.mem := keepPaddock_same p q s

theorem unsealMaster_same (p : Nat) (s : State) : SameMem (unsealMaster p s) s := by
  unfold unsealMaster
  try dsimp only
  repeat' split
  all_goals (first | (simp [SameMem]; done) | exact rfl | (simp_all [SameMem]; done) | grind [SameMem] | (simp [SameMem]; grind [SameMem]) | (simp +zetaDelta [SameMem]; done) | ((try dsimp only); (repeat' (first | (exact SameMem.refl _) | assumption | (simp [SameMem]; done) | split | with_reducible refine SameMem.trans (setEvent_same ..) ?_ | with_reducible refine SameMem.trans (setPaddock_same ..) ?_ | with_reducible refine SameMem.trans (SameMem.foldl (fun _ _ => ?_) _ _) ?_ | with_reducible refine SameMem.trans (SameMem.foldr (fun _ _ => ?_) _ _) ?_ | with_reducible refine SameMem.trans rfl ?_)); done) | (refine SameMem.foldl ?_ _ _; intro st x; (try dsimp only); (repeat' split); all_goals (first | (simp [SameMem]; done) | (simp_all [SameMem]; done) | grind [SameMem])))

@[simp] theorem unsealMaster_mem (p : Nat) (s : State) : (unsealMaster p s).mem = s.mem := unsealMaster_same p s

theorem writeEnvelope_same (h : Nat) (f : Tack → Tack) (s : State) : SameMem (writeEnvelope h f s) s := by
  unfold writeEnvelope
  try dsimp only
  repeat' split
  all_goals (first | (simp [SameMem]; done) | exact rfl | (simp_all [SameMem]; done) | grind [SameMem] | (simp [SameMem]; grind [SameMem]) | (simp +zetaDelta [SameMem]; done) | ((try dsimp only); (repeat' (first | (exact SameMem.refl _) | assumption | (simp [SameMem]; done) | split | with_reducible refine SameMem.trans (updTack_same ..) ?_ | with_reducible refine SameMem.trans (SameMem.foldl (fun _ _ => ?_) _ _) ?_ | with_reducible refine SameMem.trans (SameMem.foldr (fun _ _ => ?_) _ _) ?_ | with_reducible refine SameMem.trans rfl ?_)); done) | (refine SameMem.foldl ?_ _ _; intro st x; (try dsimp only); (repeat' split); all_goals (first | (simp [SameMem]; done) | (simp_all [SameMem]; done) | grind [SameMem])))

@[simp] theorem writeEnvelope_mem (h : Nat) (f : Tack → Tack) (s : State) : (writeEnvelope h f s).mem = s.mem := writeEnvelope_same h f s

theorem writeTkQuota_same (vault : Bool) (v : W32) (s : State) : SameMem (writeTkQuota vault v s) s := by
  unfold writeTkQuota
  try dsimp only
  repeat' split
  all_goals (first | (simp [SameMem]; done) | exact rfl | (simp_all [SameMem]; done) | grind [SameMem] | (simp [SameMem]; grind [SameMem]) | (simp +zetaDelta [SameMem]; done) | ((try dsimp only); (repeat' (first | (exact SameMem.refl _) | assumption | (simp [SameMem]; done) | split | with_reducible refine SameMem.trans (setEvent_same ..) ?_ | with_reducible refine SameMem.trans (SameMem.foldl (fun _ _ => ?_) _ _) ?_ | with_reducible refine SameMem.trans (SameMem.foldr (fun _ _ => ?_) _ _) ?_ | with_reducible refine SameMem.trans rfl ?_)); done) | (refine SameMem.foldl ?_ _ _; intro st x; (try dsimp only); (repeat' split); all_goals (first | (simp [SameMem]; done) | (simp_all [SameMem]; done) | grind [SameMem])))

@[simp] theorem writeTkQuota_mem (vault : Bool) (v : W32) (s : State) : (writeTkQuota vault v s).mem = s.mem := writeTkQuota_same vault v s

theorem leaseCheck_same (h : Nat) (s : State) : SameMem (leaseCheck h s) s := by
  unfold leaseCheck
  try dsimp only
  repeat' split
  all_goals (first | (simp [SameMem]; done) | exact rfl | (simp_all [SameMem]; done) | grind [SameMem] | (simp [SameMem]; grind [SameMem]) | (simp +zetaDelta [SameMem]; done) | ((try dsimp only); (repeat' (first | (exact SameMem.refl _) | assumption | (simp [SameMem]; done) | split | with_reducible refine SameMem.trans (updTack_same ..) ?_ | with_reducible refine SameMem.trans (SameMem.foldl (fun _ _ => ?_) _ _) ?_ | with_reducible refine SameMem.trans (SameMem.foldr (fun _ _ => ?_) _ _) ?_ | with_reducible refine SameMem.trans rfl ?_)); done) | (refine SameMem.foldl ?_ _ _; intro st x; (try dsimp only); (repeat' split); all_goals (first | (simp [SameMem]; done) | (simp_all [SameMem]; done) | grind [SameMem])))

@[simp] theorem leaseCheck_mem (h : Nat) (s : State) : (leaseCheck h s).mem = s.mem := leaseCheck_same h s

theorem leaseWait_same (h : Nat) (s : State) : SameMem (leaseWait h s) s := by
  unfold leaseWait
  try dsimp only
  repeat' split
  all_goals (first | (simp [SameMem]; done) | exact rfl | (simp_all [SameMem]; done) | grind [SameMem] | (simp [SameMem]; grind [SameMem]) | (simp +zetaDelta [SameMem]; done) | ((try dsimp only); (repeat' (first | (exact SameMem.refl _) | assumption | (simp [SameMem]; done) | split | with_reducible refine SameMem.trans (setEvent_same ..) ?_ | with_reducible refine SameMem.trans (updTack_same ..) ?_ | with_reducible refine SameMem.trans (SameMem.foldl (fun _ _ => ?_) _ _) ?_ | with_reducible refine SameMem.trans (SameMem.foldr (fun _ _ => ?_) _ _) ?_ | with_reducible refine SameMem.trans rfl ?_)); done) | (refine SameMem.foldl ?_ _ _; intro st x; (try dsimp only); (repeat' split); all_goals (first | (simp [SameMem]; done) | (simp_all [SameMem]; done) | grind [SameMem])))

@[simp] theorem leaseWait_mem (h : Nat) (s : State) : (leaseWait h s).mem = s.mem := leaseWait_same h s

theorem pendUse_same (h : Nat) (s : State) : SameMem (pendUse h s) s := by
  unfold pendUse
  try dsimp only
  repeat' split
  all_goals (first | (simp [SameMem]; done) | exact rfl | (simp_all [SameMem]; done) | grind [SameMem] | (simp [SameMem]; grind [SameMem]) | (simp +zetaDelta [SameMem]; done) | ((try dsimp only); (repeat' (first | (exact SameMem.refl _) | assumption | (simp [SameMem]; done) | split | with_reducible refine SameMem.trans (updTack_same ..) ?_ | with_reducible refine SameMem.trans (SameMem.foldl (fun _ _ => ?_) _ _) ?_ | with_reducible refine SameMem.trans (SameMem.foldr (fun _ _ => ?_) _ _) ?_ | with_reducible refine SameMem.trans rfl ?_)); done) | (refine SameMem.foldl ?_ _ _; intro st x; (try dsimp only); (repeat' split); all_goals (first | (simp [SameMem]; done) | (simp_all [SameMem]; done) | grind [SameMem])))

@[simp] theorem pendUse_mem (h : Nat) (s : State) : (pendUse h s).mem = s.mem := pendUse_same h s

theorem countUse_same (h : Nat) (s : State) : SameMem (countUse h s) s := by
  unfold countUse
  try dsimp only
  repeat' split
  all_goals (first | (simp [SameMem]; done) | exact rfl | (simp_all [SameMem]; done) | grind [SameMem] | (simp [SameMem]; grind [SameMem]) | (simp +zetaDelta [SameMem]; done) | ((try dsimp only); (repeat' (first | (exact SameMem.refl _) | assumption | (simp [SameMem]; done) | split | with_reducible refine SameMem.trans (updTack_same ..) ?_ | with_reducible refine SameMem.trans (leaseCheck_same ..) ?_ | with_reducible refine SameMem.trans (SameMem.foldl (fun _ _ => ?_) _ _) ?_ | with_reducible refine SameMem.trans (SameMem.foldr (fun _ _ => ?_) _ _) ?_ | with_reducible refine SameMem.trans rfl ?_)); done) | (refine SameMem.foldl ?_ _ _; intro st x; (try dsimp only); (repeat' split); all_goals (first | (simp [SameMem]; done) | (simp_all [SameMem]; done) | grind [SameMem])))

@[simp] theorem countUse_mem (h : Nat) (s : State) : (countUse h s).mem = s.mem := countUse_same h s

theorem dropUse_same (h : Nat) (s : State) : SameMem (dropUse h s) s := by
  unfold dropUse
  try dsimp only
  repeat' split
  all_goals (first | (simp [SameMem]; done) | exact rfl | (simp_all [SameMem]; done) | grind [SameMem] | (simp [SameMem]; grind [SameMem]) | (simp +zetaDelta [SameMem]; done) | ((try dsimp only); (repeat' (first | (exact SameMem.refl _) | assumption | (simp [SameMem]; done) | split | with_reducible refine SameMem.trans (updTack_same ..) ?_ | with_reducible refine SameMem.trans (SameMem.foldl (fun _ _ => ?_) _ _) ?_ | with_reducible refine SameMem.trans (SameMem.foldr (fun _ _ => ?_) _ _) ?_ | with_reducible refine SameMem.trans rfl ?_)); done) | (refine SameMem.foldl ?_ _ _; intro st x; (try dsimp only); (repeat' split); all_goals (first | (simp [SameMem]; done) | (simp_all [SameMem]; done) | grind [SameMem])))

@[simp] theorem dropUse_mem (h : Nat) (s : State) : (dropUse h s).mem = s.mem := dropUse_same h s

theorem countNow_same (h n : Nat) (s : State) : SameMem (countNow h n s) s := by
  unfold countNow
  try dsimp only
  repeat' split
  all_goals (first | (simp [SameMem]; done) | exact rfl | (simp_all [SameMem]; done) | grind [SameMem] | (simp [SameMem]; grind [SameMem]) | (simp +zetaDelta [SameMem]; done) | ((try dsimp only); (repeat' (first | (exact SameMem.refl _) | assumption | (simp [SameMem]; done) | split | with_reducible refine SameMem.trans (updTack_same ..) ?_ | with_reducible refine SameMem.trans (leaseCheck_same ..) ?_ | with_reducible refine SameMem.trans (SameMem.foldl (fun _ _ => ?_) _ _) ?_ | with_reducible refine SameMem.trans (SameMem.foldr (fun _ _ => ?_) _ _) ?_ | with_reducible refine SameMem.trans rfl ?_)); done) | (refine SameMem.foldl ?_ _ _; intro st x; (try dsimp only); (repeat' split); all_goals (first | (simp [SameMem]; done) | (simp_all [SameMem]; done) | grind [SameMem])))

@[simp] theorem countNow_mem (h n : Nat) (s : State) : (countNow h n s).mem = s.mem := countNow_same h n s

theorem fillUnder_same (held : Option (Nat × Nat)) (h : Nat) (s : State) : SameMem (fillUnder held h s) s := by
  unfold fillUnder
  try dsimp only
  repeat' split
  all_goals (first | (simp [SameMem]; done) | exact rfl | (simp_all [SameMem]; done) | grind [SameMem] | (simp [SameMem]; grind [SameMem]) | (simp +zetaDelta [SameMem]; done) | ((try dsimp only); (repeat' (first | (exact SameMem.refl _) | assumption | (simp [SameMem]; done) | split | with_reducible refine SameMem.trans (updTack_same ..) ?_ | with_reducible refine SameMem.trans (SameMem.foldl (fun _ _ => ?_) _ _) ?_ | with_reducible refine SameMem.trans (SameMem.foldr (fun _ _ => ?_) _ _) ?_ | with_reducible refine SameMem.trans rfl ?_)); done) | (refine SameMem.foldl ?_ _ _; intro st x; (try dsimp only); (repeat' split); all_goals (first | (simp [SameMem]; done) | (simp_all [SameMem]; done) | grind [SameMem])))

@[simp] theorem fillUnder_mem (held : Option (Nat × Nat)) (h : Nat) (s : State) : (fillUnder held h s).mem = s.mem := fillUnder_same held h s

theorem settleFills_same (cinch : Nat) (ok : Bool) (s : State) : SameMem (settleFills cinch ok s) s := by
  unfold settleFills
  try dsimp only
  repeat' split
  all_goals (first | (simp [SameMem]; done) | exact rfl | (simp_all [SameMem]; done) | grind [SameMem] | (simp [SameMem]; grind [SameMem]) | (simp +zetaDelta [SameMem]; done) | ((try dsimp only); (repeat' (first | (exact SameMem.refl _) | assumption | (simp [SameMem]; done) | split | with_reducible refine SameMem.trans (updTack_same ..) ?_ | with_reducible refine SameMem.trans (SameMem.foldl (fun _ _ => ?_) _ _) ?_ | with_reducible refine SameMem.trans (SameMem.foldr (fun _ _ => ?_) _ _) ?_ | with_reducible refine SameMem.trans rfl ?_)); done) | (refine SameMem.foldl ?_ _ _; intro st x; (try dsimp only); (repeat' split); all_goals (first | (simp [SameMem]; done) | (simp_all [SameMem]; done) | grind [SameMem])))

@[simp] theorem settleFills_mem (cinch : Nat) (ok : Bool) (s : State) : (settleFills cinch ok s).mem = s.mem := settleFills_same cinch ok s

theorem fillTack_same (h : Nat) (key : List Byte) (s : State) : SameMem (fillTack h key s) s := by
  unfold fillTack
  try dsimp only
  repeat' split
  all_goals (first | (simp [SameMem]; done) | exact rfl | (simp_all [SameMem]; done) | grind [SameMem] | (simp [SameMem]; grind [SameMem]) | (simp +zetaDelta [SameMem]; done) | ((try dsimp only); (repeat' (first | (exact SameMem.refl _) | assumption | (simp [SameMem]; done) | split | with_reducible refine SameMem.trans (updTack_same ..) ?_ | with_reducible refine SameMem.trans (SameMem.foldl (fun _ _ => ?_) _ _) ?_ | with_reducible refine SameMem.trans (SameMem.foldr (fun _ _ => ?_) _ _) ?_ | with_reducible refine SameMem.trans rfl ?_)); done) | (refine SameMem.foldl ?_ _ _; intro st x; (try dsimp only); (repeat' split); all_goals (first | (simp [SameMem]; done) | (simp_all [SameMem]; done) | grind [SameMem])))

@[simp] theorem fillTack_mem (h : Nat) (key : List Byte) (s : State) : (fillTack h key s).mem = s.mem := fillTack_same h key s

theorem unfillTack_same (h : Nat) (s : State) : SameMem (unfillTack h s) s := by
  unfold unfillTack
  try dsimp only
  repeat' split
  all_goals (first | (simp [SameMem]; done) | exact rfl | (simp_all [SameMem]; done) | grind [SameMem] | (simp [SameMem]; grind [SameMem]) | (simp +zetaDelta [SameMem]; done) | ((try dsimp only); (repeat' (first | (exact SameMem.refl _) | assumption | (simp [SameMem]; done) | split | with_reducible refine SameMem.trans (updTack_same ..) ?_ | with_reducible refine SameMem.trans (SameMem.foldl (fun _ _ => ?_) _ _) ?_ | with_reducible refine SameMem.trans (SameMem.foldr (fun _ _ => ?_) _ _) ?_ | with_reducible refine SameMem.trans rfl ?_)); done) | (refine SameMem.foldl ?_ _ _; intro st x; (try dsimp only); (repeat' split); all_goals (first | (simp [SameMem]; done) | (simp_all [SameMem]; done) | grind [SameMem])))

@[simp] theorem unfillTack_mem (h : Nat) (s : State) : (unfillTack h s).mem = s.mem := unfillTack_same h s

theorem startFetch_same (h : Nat) (s : State) : SameMem (startFetch h s) s := by
  unfold startFetch
  try dsimp only
  repeat' split
  all_goals (first | (simp [SameMem]; done) | exact rfl | (simp_all [SameMem]; done) | grind [SameMem] | (simp [SameMem]; grind [SameMem]) | (simp +zetaDelta [SameMem]; done) | ((try dsimp only); (repeat' (first | (exact SameMem.refl _) | assumption | (simp [SameMem]; done) | split | with_reducible refine SameMem.trans (updTack_same ..) ?_ | with_reducible refine SameMem.trans (SameMem.foldl (fun _ _ => ?_) _ _) ?_ | with_reducible refine SameMem.trans (SameMem.foldr (fun _ _ => ?_) _ _) ?_ | with_reducible refine SameMem.trans rfl ?_)); done) | (refine SameMem.foldl ?_ _ _; intro st x; (try dsimp only); (repeat' split); all_goals (first | (simp [SameMem]; done) | (simp_all [SameMem]; done) | grind [SameMem])))

@[simp] theorem startFetch_mem (h : Nat) (s : State) : (startFetch h s).mem = s.mem := startFetch_same h s

theorem makeRoom_same (t : Tack) (x0 : Nat) (s : State) : SameMem (makeRoom t x0 s) s := by
  fun_induction makeRoom t x0 s
  all_goals (first | (simp [SameMem]; done) | exact rfl | (simp_all [SameMem]; done) | grind [SameMem] | (simp [SameMem]; grind [SameMem]) | (simp +zetaDelta [SameMem]; done) | ((try dsimp only); (repeat' (first | (exact SameMem.refl _) | assumption | (simp [SameMem]; done) | split | with_reducible refine SameMem.trans (updTack_same ..) ?_ | with_reducible refine SameMem.trans (SameMem.foldl (fun _ _ => ?_) _ _) ?_ | with_reducible refine SameMem.trans (SameMem.foldr (fun _ _ => ?_) _ _) ?_ | with_reducible refine SameMem.trans rfl ?_)); done) | (refine SameMem.foldl ?_ _ _; intro st x; (try dsimp only); (repeat' split); all_goals (first | (simp [SameMem]; done) | (simp_all [SameMem]; done) | grind [SameMem])) | (refine SameMem.trans (by assumption) ?_; simp +zetaDelta [SameMem]; done) | (refine SameMem.trans (by assumption) ?_; simp +zetaDelta [SameMem]; grind [SameMem]))

@[simp] theorem makeRoom_mem (t : Tack) (x0 : Nat) (s : State) : (makeRoom t x0 s).mem = s.mem := makeRoom_same t x0 s

theorem failFetch_same (h bit : Nat) (s : State) : SameMem (failFetch h bit s) s := by
  unfold failFetch
  try dsimp only
  repeat' split
  all_goals (first | (simp [SameMem]; done) | exact rfl | (simp_all [SameMem]; done) | grind [SameMem] | (simp [SameMem]; grind [SameMem]) | (simp +zetaDelta [SameMem]; done) | ((try dsimp only); (repeat' (first | (exact SameMem.refl _) | assumption | (simp [SameMem]; done) | split | with_reducible refine SameMem.trans (setEvent_same ..) ?_ | with_reducible refine SameMem.trans (updTack_same ..) ?_ | with_reducible refine SameMem.trans (SameMem.foldl (fun _ _ => ?_) _ _) ?_ | with_reducible refine SameMem.trans (SameMem.foldr (fun _ _ => ?_) _ _) ?_ | with_reducible refine SameMem.trans rfl ?_)); done) | (refine SameMem.foldl ?_ _ _; intro st x; (try dsimp only); (repeat' split); all_goals (first | (simp [SameMem]; done) | (simp_all [SameMem]; done) | grind [SameMem])))

@[simp] theorem failFetch_mem (h bit : Nat) (s : State) : (failFetch h bit s).mem = s.mem := failFetch_same h bit s

theorem sweepRetired_same (s : State) : SameMem (sweepRetired s) s := by
  unfold sweepRetired
  try dsimp only
  repeat' split
  all_goals (first | (simp [SameMem]; done) | exact rfl | (simp_all [SameMem]; done) | grind [SameMem] | (simp [SameMem]; grind [SameMem]) | (simp +zetaDelta [SameMem]; done) | ((try dsimp only); (repeat' (first | (exact SameMem.refl _) | assumption | (simp [SameMem]; done) | split | with_reducible refine SameMem.trans (SameMem.foldl (fun _ _ => ?_) _ _) ?_ | with_reducible refine SameMem.trans (SameMem.foldr (fun _ _ => ?_) _ _) ?_ | with_reducible refine SameMem.trans rfl ?_)); done) | (refine SameMem.foldl ?_ _ _; intro st x; (try dsimp only); (repeat' split); all_goals (first | (simp [SameMem]; done) | (simp_all [SameMem]; done) | grind [SameMem])))

@[simp] theorem sweepRetired_mem (s : State) : (sweepRetired s).mem = s.mem := sweepRetired_same s

theorem addTack_same (t : Tack) (s : State) : SameMem (addTack t s) s := by
  unfold addTack
  try dsimp only
  repeat' split
  all_goals (first | (simp [SameMem]; done) | exact rfl | (simp_all [SameMem]; done) | grind [SameMem] | (simp [SameMem]; grind [SameMem]) | (simp +zetaDelta [SameMem]; done) | ((try dsimp only); (repeat' (first | (exact SameMem.refl _) | assumption | (simp [SameMem]; done) | split | with_reducible refine SameMem.trans (SameMem.foldl (fun _ _ => ?_) _ _) ?_ | with_reducible refine SameMem.trans (SameMem.foldr (fun _ _ => ?_) _ _) ?_ | with_reducible refine SameMem.trans rfl ?_)); done) | (refine SameMem.foldl ?_ _ _; intro st x; (try dsimp only); (repeat' split); all_goals (first | (simp [SameMem]; done) | (simp_all [SameMem]; done) | grind [SameMem])))

@[simp] theorem addTack_mem (t : Tack) (s : State) : (addTack t s).mem = s.mem := addTack_same t s

theorem askAct_same (p act cred : Nat) (s : State) : SameMem (askAct p act cred s) s := by
  unfold askAct
  try dsimp only
  repeat' split
  all_goals (first | (simp [SameMem]; done) | exact rfl | (simp_all [SameMem]; done) | grind [SameMem] | (simp [SameMem]; grind [SameMem]) | (simp +zetaDelta [SameMem]; done) | ((try dsimp only); (repeat' (first | (exact SameMem.refl _) | assumption | (simp [SameMem]; done) | split | with_reducible refine SameMem.trans (SameMem.foldl (fun _ _ => ?_) _ _) ?_ | with_reducible refine SameMem.trans (SameMem.foldr (fun _ _ => ?_) _ _) ?_ | with_reducible refine SameMem.trans rfl ?_)); done) | (refine SameMem.foldl ?_ _ _; intro st x; (try dsimp only); (repeat' split); all_goals (first | (simp [SameMem]; done) | (simp_all [SameMem]; done) | grind [SameMem])))

@[simp] theorem askAct_mem (p act cred : Nat) (s : State) : (askAct p act cred s).mem = s.mem := askAct_same p act cred s

theorem actPaddock_same (a : PadAct) (s : State) : SameMem (actPaddock a s) s := by
  unfold actPaddock
  try dsimp only
  repeat' split
  all_goals (first | (simp [SameMem]; done) | exact rfl | (simp_all [SameMem]; done) | grind [SameMem, drawBytes_same] | (simp [SameMem]; grind [SameMem, drawBytes_same]) | (simp +zetaDelta [SameMem]; done) | ((try dsimp only); (repeat' (first | (exact SameMem.refl _) | assumption | (simp [SameMem]; done) | split | with_reducible refine SameMem.trans (drawBytes_same ..) ?_ | with_reducible refine SameMem.trans (setEvent_same ..) ?_ | with_reducible refine SameMem.trans (keepPaddock_same ..) ?_ | with_reducible refine SameMem.trans (SameMem.foldl (fun _ _ => ?_) _ _) ?_ | with_reducible refine SameMem.trans (SameMem.foldr (fun _ _ => ?_) _ _) ?_ | with_reducible refine SameMem.trans rfl ?_)); done) | (refine SameMem.foldl ?_ _ _; intro st x; (try dsimp only); (repeat' split); all_goals (first | (simp [SameMem]; done) | (simp_all [SameMem]; done) | grind [SameMem, drawBytes_same])))

@[simp] theorem actPaddock_mem (a : PadAct) (s : State) : (actPaddock a s).mem = s.mem := actPaddock_same a s

end Sys2Proof.Machine
end

