-- ==== Sys2Proof/Laws/KeptStable.lean ====
section
/-! SUPPORT. What each operation of Machine/Stable.lean keeps: the fuses, the life counters, the queue, and memory or its form. -/

namespace Sys2Proof.Machine

theorem putStall_core (n off : Nat) (bs : List Byte) (s : State) : SameAll (putStall n off bs s) s := by simp [putStall, SameAll]

@[simp] theorem putStall_copies (n off : Nat) (bs : List Byte) (s : State) : (putStall n off bs s).lc.copies = s.lc.copies := (putStall_core n off bs s).1

@[simp] theorem putStall_life (n off : Nat) (bs : List Byte) (s : State) : (putStall n off bs s).fv.life = s.fv.life := (putStall_core n off bs s).2.1

@[simp] theorem putStall_pending (n off : Nat) (bs : List Byte) (s : State) : (putStall n off bs s).pending = s.pending := (putStall_core n off bs s).2.2

theorem stallCount_core (n off k : Nat) (s : State) : SameAll (stallCount n off k s) s := ⟨rfl, rfl, rfl⟩

@[simp] theorem stallCount_copies (n off k : Nat) (s : State) : (stallCount n off k s).lc.copies = s.lc.copies := (stallCount_core n off k s).1

@[simp] theorem stallCount_life (n off k : Nat) (s : State) : (stallCount n off k s).fv.life = s.fv.life := (stallCount_core n off k s).2.1

@[simp] theorem stallCount_pending (n off k : Nat) (s : State) : (stallCount n off k s).pending = s.pending := (stallCount_core n off k s).2.2

theorem drawStall_core (s : State) : SameAll (drawStall s).2 s := ⟨rfl, rfl, rfl⟩

@[simp] theorem drawStall_copies (s : State) : (drawStall s).2.lc.copies = s.lc.copies := (drawStall_core s).1

@[simp] theorem drawStall_life (s : State) : (drawStall s).2.fv.life = s.fv.life := (drawStall_core s).2.1

@[simp] theorem drawStall_pending (s : State) : (drawStall s).2.pending = s.pending := (drawStall_core s).2.2

theorem writeStQuota_core (v : W32) (s : State) : SameAll (writeStQuota v s) s := by simp [writeStQuota, SameAll]

@[simp] theorem writeStQuota_copies (v : W32) (s : State) : (writeStQuota v s).lc.copies = s.lc.copies := (writeStQuota_core v s).1

@[simp] theorem writeStQuota_life (v : W32) (s : State) : (writeStQuota v s).fv.life = s.fv.life := (writeStQuota_core v s).2.1

@[simp] theorem writeStQuota_pending (v : W32) (s : State) : (writeStQuota v s).pending = s.pending := (writeStQuota_core v s).2.2

theorem pushExpq_core (reason p n : Nat) (s : State) : SameAll (pushExpq reason p n s) s := by simp [pushExpq, SameAll]

@[simp] theorem pushExpq_copies (reason p n : Nat) (s : State) : (pushExpq reason p n s).lc.copies = s.lc.copies := (pushExpq_core reason p n s).1

@[simp] theorem pushExpq_life (reason p n : Nat) (s : State) : (pushExpq reason p n s).fv.life = s.fv.life := (pushExpq_core reason p n s).2.1

@[simp] theorem pushExpq_pending (reason p n : Nat) (s : State) : (pushExpq reason p n s).pending = s.pending := (pushExpq_core reason p n s).2.2

theorem readExpq_core (s : State) : SameAll (readExpq s).2 s := by
  unfold readExpq
  split <;> simp [SameAll]

@[simp] theorem readExpq_copies (s : State) : (readExpq s).2.lc.copies = s.lc.copies := (readExpq_core s).1

@[simp] theorem readExpq_life (s : State) : (readExpq s).2.fv.life = s.fv.life := (readExpq_core s).2.1

@[simp] theorem readExpq_pending (s : State) : (readExpq s).2.pending = s.pending := (readExpq_core s).2.2

theorem causeLeave_core (n reason : Nat) (s : State) : SameAll (causeLeave n reason s) s := by simp [causeLeave, SameAll]

@[simp] theorem causeLeave_copies (n reason : Nat) (s : State) : (causeLeave n reason s).lc.copies = s.lc.copies := (causeLeave_core n reason s).1

@[simp] theorem causeLeave_life (n reason : Nat) (s : State) : (causeLeave n reason s).fv.life = s.fv.life := (causeLeave_core n reason s).2.1

@[simp] theorem causeLeave_pending (n reason : Nat) (s : State) : (causeLeave n reason s).pending = s.pending := (causeLeave_core n reason s).2.2

theorem expireByTack_core (h : Nat) (s : State) : SameAll (expireByTack h s) s := by simp [expireByTack, SameAll]

@[simp] theorem expireByTack_copies (h : Nat) (s : State) : (expireByTack h s).lc.copies = s.lc.copies := (expireByTack_core h s).1

@[simp] theorem expireByTack_life (h : Nat) (s : State) : (expireByTack h s).fv.life = s.fv.life := (expireByTack_core h s).2.1

@[simp] theorem expireByTack_pending (h : Nat) (s : State) : (expireByTack h s).pending = s.pending := (expireByTack_core h s).2.2

theorem revokeStalls_core (p : Nat) (s : State) : SameAll (revokeStalls p s) s := by simp [revokeStalls, SameAll]

@[simp] theorem revokeStalls_copies (p : Nat) (s : State) : (revokeStalls p s).lc.copies = s.lc.copies := (revokeStalls_core p s).1

@[simp] theorem revokeStalls_life (p : Nat) (s : State) : (revokeStalls p s).fv.life = s.fv.life := (revokeStalls_core p s).2.1

@[simp] theorem revokeStalls_pending (p : Nat) (s : State) : (revokeStalls p s).pending = s.pending := (revokeStalls_core p s).2.2

theorem takeKey_core (n : Nat) (s : State) : SameAll (takeKey n s) s := ⟨rfl, rfl, rfl⟩

@[simp] theorem takeKey_copies (n : Nat) (s : State) : (takeKey n s).lc.copies = s.lc.copies := (takeKey_core n s).1

@[simp] theorem takeKey_life (n : Nat) (s : State) : (takeKey n s).fv.life = s.fv.life := (takeKey_core n s).2.1

@[simp] theorem takeKey_pending (n : Nat) (s : State) : (takeKey n s).pending = s.pending := (takeKey_core n s).2.2

theorem allocStall_core (p typ n : Nat) (s : State) : SameAll (allocStall p typ n s) s := ⟨rfl, rfl, rfl⟩

@[simp] theorem allocStall_copies (p typ n : Nat) (s : State) : (allocStall p typ n s).lc.copies = s.lc.copies := (allocStall_core p typ n s).1

@[simp] theorem allocStall_life (p typ n : Nat) (s : State) : (allocStall p typ n s).fv.life = s.fv.life := (allocStall_core p typ n s).2.1

@[simp] theorem allocStall_pending (p typ n : Nat) (s : State) : (allocStall p typ n s).pending = s.pending := (allocStall_core p typ n s).2.2

theorem stallEffect_core (op n : Nat) (img : List Byte) (s : State) : SameAll (stallEffect op n img s) s := by
  unfold stallEffect
  split <;> simp [SameAll]

@[simp] theorem stallEffect_copies (op n : Nat) (img : List Byte) (s : State) : (stallEffect op n img s).lc.copies = s.lc.copies := (stallEffect_core op n img s).1

@[simp] theorem stallEffect_life (op n : Nat) (img : List Byte) (s : State) : (stallEffect op n img s).fv.life = s.fv.life := (stallEffect_core op n img s).2.1

@[simp] theorem stallEffect_pending (op n : Nat) (img : List Byte) (s : State) : (stallEffect op n img s).pending = s.pending := (stallEffect_core op n img s).2.2

theorem finishStall_core (r : Req) (bs : List Byte) (s : State) : SameAll (finishStall r bs s) s := by
  unfold finishStall
  split <;> simp [SameAll]

@[simp] theorem finishStall_copies (r : Req) (bs : List Byte) (s : State) : (finishStall r bs s).lc.copies = s.lc.copies := (finishStall_core r bs s).1

@[simp] theorem finishStall_life (r : Req) (bs : List Byte) (s : State) : (finishStall r bs s).fv.life = s.fv.life := (finishStall_core r bs s).2.1

@[simp] theorem finishStall_pending (r : Req) (bs : List Byte) (s : State) : (finishStall r bs s).pending = s.pending := (finishStall_core r bs s).2.2

theorem stallSubmit_core (r : Req) (b : List Byte) (s : State) : SameAll (stallSubmit r b s).2 s := by simp [stallSubmit, SameAll]

@[simp] theorem stallSubmit_copies (r : Req) (b : List Byte) (s : State) : (stallSubmit r b s).2.lc.copies = s.lc.copies := (stallSubmit_core r b s).1

@[simp] theorem stallSubmit_life (r : Req) (b : List Byte) (s : State) : (stallSubmit r b s).2.fv.life = s.fv.life := (stallSubmit_core r b s).2.1

@[simp] theorem stallSubmit_pending (r : Req) (b : List Byte) (s : State) : (stallSubmit r b s).2.pending = s.pending := (stallSubmit_core r b s).2.2

theorem snapOne_core (q : StReq) (s : State) : SameAll (snapOne q s).2 s := by simp [snapOne, SameAll]

@[simp] theorem snapOne_copies (q : StReq) (s : State) : (snapOne q s).2.lc.copies = s.lc.copies := (snapOne_core q s).1

@[simp] theorem snapOne_life (q : StReq) (s : State) : (snapOne q s).2.fv.life = s.fv.life := (snapOne_core q s).2.1

@[simp] theorem snapOne_pending (q : StReq) (s : State) : (snapOne q s).2.pending = s.pending := (snapOne_core q s).2.2

theorem snapReads_core (s : State) : SameAll (snapReads s) s := by simp [snapReads, SameAll]

@[simp] theorem snapReads_copies (s : State) : (snapReads s).lc.copies = s.lc.copies := (snapReads_core s).1

@[simp] theorem snapReads_life (s : State) : (snapReads s).fv.life = s.fv.life := (snapReads_core s).2.1

@[simp] theorem snapReads_pending (s : State) : (snapReads s).pending = s.pending := (snapReads_core s).2.2

theorem enterRetiring_core (n : Nat) (s : State) : SameAll (enterRetiring n s) s := ⟨rfl, rfl, rfl⟩

@[simp] theorem enterRetiring_copies (n : Nat) (s : State) : (enterRetiring n s).lc.copies = s.lc.copies := (enterRetiring_core n s).1

@[simp] theorem enterRetiring_life (n : Nat) (s : State) : (enterRetiring n s).fv.life = s.fv.life := (enterRetiring_core n s).2.1

@[simp] theorem enterRetiring_pending (n : Nat) (s : State) : (enterRetiring n s).pending = s.pending := (enterRetiring_core n s).2.2

theorem loadCopy_core (n : Nat) (img : List Byte) (s : State) : SameAll (loadCopy n img s) s := by simp [loadCopy, SameAll]

@[simp] theorem loadCopy_copies (n : Nat) (img : List Byte) (s : State) : (loadCopy n img s).lc.copies = s.lc.copies := (loadCopy_core n img s).1

@[simp] theorem loadCopy_life (n : Nat) (img : List Byte) (s : State) : (loadCopy n img s).fv.life = s.fv.life := (loadCopy_core n img s).2.1

@[simp] theorem loadCopy_pending (n : Nat) (img : List Byte) (s : State) : (loadCopy n img s).pending = s.pending := (loadCopy_core n img s).2.2

theorem moveStall_core (n m : Nat) (s : State) : SameAll (moveStall n m s) s := by simp [moveStall, SameAll]

@[simp] theorem moveStall_copies (n m : Nat) (s : State) : (moveStall n m s).lc.copies = s.lc.copies := (moveStall_core n m s).1

@[simp] theorem moveStall_life (n m : Nat) (s : State) : (moveStall n m s).fv.life = s.fv.life := (moveStall_core n m s).2.1

@[simp] theorem moveStall_pending (n m : Nat) (s : State) : (moveStall n m s).pending = s.pending := (moveStall_core n m s).2.2

theorem leaveStall_core (n reason : Nat) (s : State) : SameAll (leaveStall n reason s) s := by simp [leaveStall, SameAll]

@[simp] theorem leaveStall_copies (n reason : Nat) (s : State) : (leaveStall n reason s).lc.copies = s.lc.copies := (leaveStall_core n reason s).1

@[simp] theorem leaveStall_life (n reason : Nat) (s : State) : (leaveStall n reason s).fv.life = s.fv.life := (leaveStall_core n reason s).2.1

@[simp] theorem leaveStall_pending (n reason : Nat) (s : State) : (leaveStall n reason s).pending = s.pending := (leaveStall_core n reason s).2.2

theorem leaveNow_core (n reason : Nat) (s : State) : SameAll (leaveNow n reason s) s := by simp [leaveNow, SameAll]

@[simp] theorem leaveNow_copies (n reason : Nat) (s : State) : (leaveNow n reason s).lc.copies = s.lc.copies := (leaveNow_core n reason s).1

@[simp] theorem leaveNow_life (n reason : Nat) (s : State) : (leaveNow n reason s).fv.life = s.fv.life := (leaveNow_core n reason s).2.1

@[simp] theorem leaveNow_pending (n reason : Nat) (s : State) : (leaveNow n reason s).pending = s.pending := (leaveNow_core n reason s).2.2

theorem stallNow_core (n op typ p : Nat) (img : List Byte) (s : State) : SameAll (stallNow n op typ p img s) s := by
  unfold stallNow
  try dsimp only
  repeat' split
  all_goals simp [SameAll]

@[simp] theorem stallNow_copies (n op typ p : Nat) (img : List Byte) (s : State) : (stallNow n op typ p img s).lc.copies = s.lc.copies := (stallNow_core n op typ p img s).1

@[simp] theorem stallNow_life (n op typ p : Nat) (img : List Byte) (s : State) : (stallNow n op typ p img s).fv.life = s.fv.life := (stallNow_core n op typ p img s).2.1

@[simp] theorem stallNow_pending (n op typ p : Nat) (img : List Byte) (s : State) : (stallNow n op typ p img s).pending = s.pending := (stallNow_core n op typ p img s).2.2

theorem stallApply_core (s : State) (a : StallApply) : SameAll (stallApply s a) s := by simp [stallApply, SameAll]

@[simp] theorem stallApply_copies (s : State) (a : StallApply) : (stallApply s a).lc.copies = s.lc.copies := (stallApply_core s a).1

@[simp] theorem stallApply_life (s : State) (a : StallApply) : (stallApply s a).fv.life = s.fv.life := (stallApply_core s a).2.1

@[simp] theorem stallApply_pending (s : State) (a : StallApply) : (stallApply s a).pending = s.pending := (stallApply_core s a).2.2

theorem stableBoundary_core (s : State) : SameAll (stableBoundary s) s := by simp [stableBoundary, SameAll]

@[simp] theorem stableBoundary_copies (s : State) : (stableBoundary s).lc.copies = s.lc.copies := (stableBoundary_core s).1

@[simp] theorem stableBoundary_life (s : State) : (stableBoundary s).fv.life = s.fv.life := (stableBoundary_core s).2.1

@[simp] theorem stableBoundary_pending (s : State) : (stableBoundary s).pending = s.pending := (stableBoundary_core s).2.2

theorem setBitmap_core (n pn : Nat) (v : Bool) (s : State) : SameAll (setBitmap n pn v s) s := ⟨rfl, rfl, rfl⟩

@[simp] theorem setBitmap_copies (n pn : Nat) (v : Bool) (s : State) : (setBitmap n pn v s).lc.copies = s.lc.copies := (setBitmap_core n pn v s).1

@[simp] theorem setBitmap_life (n pn : Nat) (v : Bool) (s : State) : (setBitmap n pn v s).fv.life = s.fv.life := (setBitmap_core n pn v s).2.1

@[simp] theorem setBitmap_pending (n pn : Nat) (v : Bool) (s : State) : (setBitmap n pn v s).pending = s.pending := (setBitmap_core n pn v s).2.2

theorem checkPnLow_core (n : Nat) (s : State) : SameAll (checkPnLow n s) s := by simp [checkPnLow, SameAll]

@[simp] theorem checkPnLow_copies (n : Nat) (s : State) : (checkPnLow n s).lc.copies = s.lc.copies := (checkPnLow_core n s).1

@[simp] theorem checkPnLow_life (n : Nat) (s : State) : (checkPnLow n s).fv.life = s.fv.life := (checkPnLow_core n s).2.1

@[simp] theorem checkPnLow_pending (n : Nat) (s : State) : (checkPnLow n s).pending = s.pending := (checkPnLow_core n s).2.2

theorem clearBits_core (n : Nat) (x0 : Nat) (x1 : Nat) (s : State) : SameAll (clearBits n x0 x1 s) s := by
  fun_induction clearBits n x0 x1 s
  all_goals simp_all [SameAll]

@[simp] theorem clearBits_copies (n : Nat) (x0 : Nat) (x1 : Nat) (s : State) : (clearBits n x0 x1 s).lc.copies = s.lc.copies := (clearBits_core n x0 x1 s).1

@[simp] theorem clearBits_life (n : Nat) (x0 : Nat) (x1 : Nat) (s : State) : (clearBits n x0 x1 s).fv.life = s.fv.life := (clearBits_core n x0 x1 s).2.1

@[simp] theorem clearBits_pending (n : Nat) (x0 : Nat) (x1 : Nat) (s : State) : (clearBits n x0 x1 s).pending = s.pending := (clearBits_core n x0 x1 s).2.2

theorem spendPN_core (n : Nat) (s : State) : SameAll (spendPN n s) s := by simp [spendPN, SameAll]

@[simp] theorem spendPN_copies (n : Nat) (s : State) : (spendPN n s).lc.copies = s.lc.copies := (spendPN_core n s).1

@[simp] theorem spendPN_life (n : Nat) (s : State) : (spendPN n s).fv.life = s.fv.life := (spendPN_core n s).2.1

@[simp] theorem spendPN_pending (n : Nat) (s : State) : (spendPN n s).pending = s.pending := (spendPN_core n s).2.2

theorem acceptPN_core (n pn octets : Nat) (s : State) : SameAll (acceptPN n pn octets s) s := by simp [acceptPN, SameAll]

@[simp] theorem acceptPN_copies (n pn octets : Nat) (s : State) : (acceptPN n pn octets s).lc.copies = s.lc.copies := (acceptPN_core n pn octets s).1

@[simp] theorem acceptPN_life (n pn octets : Nat) (s : State) : (acceptPN n pn octets s).fv.life = s.fv.life := (acceptPN_core n pn octets s).2.1

@[simp] theorem acceptPN_pending (n pn octets : Nat) (s : State) : (acceptPN n pn octets s).pending = s.pending := (acceptPN_core n pn octets s).2.2

theorem assignPN_core (n : Nat) (s : State) : SameAll (assignPN n s).2 s := by simp [assignPN, SameAll]

@[simp] theorem assignPN_copies (n : Nat) (s : State) : (assignPN n s).2.lc.copies = s.lc.copies := (assignPN_core n s).1

@[simp] theorem assignPN_life (n : Nat) (s : State) : (assignPN n s).2.fv.life = s.fv.life := (assignPN_core n s).2.1

@[simp] theorem assignPN_pending (n : Nat) (s : State) : (assignPN n s).2.pending = s.pending := (assignPN_core n s).2.2

theorem putStall_wf (n off : Nat) (bs : List Byte) (s : State) : KeepMem (putStall n off bs s) s := by
  unfold putStall
  try dsimp only
  iterate 8 all_goals (try first | with_reducible exact KeepMem.refl _ | assumption | split | with_reducible refine KeepMem.trans (putBytes_wf ..) ?_)

theorem stallCount_wf (n off k : Nat) (s : State) : KeepMem (stallCount n off k s) s := by
  unfold stallCount
  try dsimp only
  iterate 8 all_goals (try first | with_reducible exact KeepMem.refl _ | assumption | split | with_reducible refine KeepMem.trans (putStall_wf ..) ?_)

theorem drawStall_same (s : State) : SameMem (drawStall s).2 s := rfl

@[simp] theorem drawStall_mem (s : State) : (drawStall s).2.mem = s.mem := drawStall_same s

theorem writeStQuota_same (v : W32) (s : State) : SameMem (writeStQuota v s) s := by simp [writeStQuota, SameMem]

@[simp] theorem writeStQuota_mem (v : W32) (s : State) : (writeStQuota v s).mem = s.mem := writeStQuota_same v s

theorem pushExpq_same (reason p n : Nat) (s : State) : SameMem (pushExpq reason p n s) s := by simp [pushExpq, SameMem]

@[simp] theorem pushExpq_mem (reason p n : Nat) (s : State) : (pushExpq reason p n s).mem = s.mem := pushExpq_same reason p n s

theorem readExpq_same (s : State) : SameMem (readExpq s).2 s := by
  unfold readExpq
  split <;> simp [SameMem]

@[simp] theorem readExpq_mem (s : State) : (readExpq s).2.mem = s.mem := readExpq_same s

theorem causeLeave_same (n reason : Nat) (s : State) : SameMem (causeLeave n reason s) s := by simp [causeLeave, SameMem]

@[simp] theorem causeLeave_mem (n reason : Nat) (s : State) : (causeLeave n reason s).mem = s.mem := causeLeave_same n reason s

theorem expireByTack_same (h : Nat) (s : State) : SameMem (expireByTack h s) s := by simp [expireByTack, SameMem]

@[simp] theorem expireByTack_mem (h : Nat) (s : State) : (expireByTack h s).mem = s.mem := expireByTack_same h s

theorem revokeStalls_same (p : Nat) (s : State) : SameMem (revokeStalls p s) s := by simp [revokeStalls, SameMem]

@[simp] theorem revokeStalls_mem (p : Nat) (s : State) : (revokeStalls p s).mem = s.mem := revokeStalls_same p s

theorem takeKey_same (n : Nat) (s : State) : SameMem (takeKey n s) s := rfl

@[simp] theorem takeKey_mem (n : Nat) (s : State) : (takeKey n s).mem = s.mem := takeKey_same n s

theorem allocStall_same (p typ n : Nat) (s : State) : SameMem (allocStall p typ n s) s := rfl

@[simp] theorem allocStall_mem (p typ n : Nat) (s : State) : (allocStall p typ n s).mem = s.mem := allocStall_same p typ n s

theorem stallEffect_wf (op n : Nat) (img : List Byte) (s : State) : KeepMem (stallEffect op n img s) s := by
  unfold stallEffect
  try dsimp only
  iterate 30 all_goals (try first | with_reducible exact KeepMem.refl _ | assumption | split | with_reducible refine KeepMem.trans (putStall_wf ..) ?_ | with_reducible refine KeepMem.trans (KeepMem.of_eq (countNow_mem ..)) ?_ | with_reducible refine KeepMem.trans (KeepMem.of_eq (causeLeave_mem ..)) ?_ | with_reducible refine KeepMem.trans (KeepMem.of_eq (takeKey_mem ..)) ?_ | (apply KeepMem.of_eq; simp; done))

theorem finishStall_wf (r : Req) (bs : List Byte) (s : State) : KeepMem (finishStall r bs s) s := by
  unfold finishStall
  try dsimp only
  iterate 30 all_goals (try first | with_reducible exact KeepMem.refl _ | assumption | split | with_reducible refine KeepMem.trans (hostComplete_wf ..) ?_ | (apply KeepMem.of_eq; simp; done))

theorem stallSubmit_wf (r : Req) (b : List Byte) (s : State) : KeepMem (stallSubmit r b s).2 s := by
  unfold stallSubmit
  try dsimp only
  iterate 30 all_goals (try first | with_reducible exact KeepMem.refl _ | assumption | split | with_reducible refine KeepMem.trans (stallEffect_wf ..) ?_ | with_reducible refine KeepMem.trans (KeepMem.of_eq (reqRead_mem ..)) ?_ | with_reducible refine KeepMem.trans (KeepMem.of_eq (leaseWait_mem ..)) ?_ | with_reducible refine KeepMem.trans (KeepMem.of_eq (drawStall_mem ..)) ?_ | with_reducible refine KeepMem.trans (KeepMem.of_eq (allocStall_mem ..)) ?_ | (apply KeepMem.of_eq; simp; done) | with_reducible refine KeepMem.trans (KeepMem.record ..) ?_)

theorem snapOne_wf (q : StReq) (s : State) : KeepMem (snapOne q s).2 s := by
  unfold snapOne
  try dsimp only
  iterate 8 all_goals (try first | with_reducible exact KeepMem.refl _ | assumption | split | with_reducible refine KeepMem.trans (reqWrite_wf ..) ?_ | with_reducible refine KeepMem.trans (KeepMem.of_eq (noteUncorrectable_mem ..)) ?_)

theorem snapReads_wf (s : State) : KeepMem (snapReads s) s := by
  unfold snapReads
  try dsimp only
  iterate 30 all_goals (try first | with_reducible exact KeepMem.refl _ | assumption | split | with_reducible refine KeepMem.trans (snapOne_wf ..) ?_ | with_reducible refine KeepMem.trans (KeepMem.foldl (fun _ _ => ?_) _ _) ?_ | with_reducible refine KeepMem.trans (KeepMem.foldr (fun _ _ => ?_) _ _) ?_ | with_reducible refine KeepMem.trans (KeepMem.foldl_fst (fun _ _ => ?_) _ _) ?_ | with_reducible refine KeepMem.trans (KeepMem.foldl_snd (fun _ _ => ?_) _ _) ?_ | with_reducible refine KeepMem.trans (KeepMem.foldl_thd (fun _ _ => ?_) _ _) ?_ | (apply KeepMem.of_eq; simp; done) | with_reducible refine KeepMem.trans (KeepMem.record ..) ?_)
  all_goals (first | grind [snapOne_wf])

theorem enterRetiring_wf (n : Nat) (s : State) : KeepMem (enterRetiring n s) s := by
  unfold enterRetiring
  try dsimp only
  iterate 30 all_goals (try first | with_reducible exact KeepMem.refl _ | assumption | split | with_reducible refine KeepMem.trans (putStall_wf ..) ?_ | (apply KeepMem.of_eq; simp; done) | with_reducible refine KeepMem.trans (KeepMem.record ..) ?_)

theorem loadCopy_wf (n : Nat) (img : List Byte) (s : State) : KeepMem (loadCopy n img s) s := by
  unfold loadCopy
  try dsimp only
  iterate 8 all_goals (try first | with_reducible exact KeepMem.refl _ | assumption | split | with_reducible refine KeepMem.trans (putStall_wf ..) ?_ | with_reducible refine KeepMem.trans (KeepMem.of_eq (setEventIf_mem ..)) ?_ | with_reducible refine KeepMem.trans (KeepMem.of_eq (takeKey_mem ..)) ?_)

theorem moveStall_wf (n m : Nat) (s : State) : KeepMem (moveStall n m s) s := by
  unfold moveStall
  try dsimp only
  iterate 30 all_goals (try first | with_reducible exact KeepMem.refl _ | assumption | split | with_reducible refine KeepMem.trans (putStall_wf ..) ?_ | with_reducible refine KeepMem.trans (enterRetiring_wf ..) ?_ | (apply KeepMem.of_eq; simp; done))

theorem leaveStall_wf (n reason : Nat) (s : State) : KeepMem (leaveStall n reason s) s := by
  unfold leaveStall
  try dsimp only
  iterate 8 all_goals (try first | with_reducible exact KeepMem.refl _ | assumption | split | with_reducible refine KeepMem.trans (putStall_wf ..) ?_ | with_reducible refine KeepMem.trans (enterRetiring_wf ..) ?_ | with_reducible refine KeepMem.trans (KeepMem.of_eq (setEvent_mem ..)) ?_ | with_reducible refine KeepMem.trans (KeepMem.of_eq (setEventIf_mem ..)) ?_ | with_reducible refine KeepMem.trans (KeepMem.of_eq (pushExpq_mem ..)) ?_)

theorem leaveNow_wf (n reason : Nat) (s : State) : KeepMem (leaveNow n reason s) s := by
  unfold leaveNow
  try dsimp only
  iterate 8 all_goals (try first | with_reducible exact KeepMem.refl _ | assumption | split | with_reducible refine KeepMem.trans (leaveStall_wf ..) ?_ | with_reducible refine KeepMem.trans (KeepMem.of_eq (causeLeave_mem ..)) ?_)

theorem stallNow_wf (n op typ p : Nat) (img : List Byte) (s : State) : KeepMem (stallNow n op typ p img s) s := by
  unfold stallNow
  try dsimp only
  iterate 30 all_goals (try first | with_reducible exact KeepMem.refl _ | assumption | split | with_reducible refine KeepMem.trans (putStall_wf ..) ?_ | with_reducible refine KeepMem.trans (loadCopy_wf ..) ?_ | with_reducible refine KeepMem.trans (moveStall_wf ..) ?_ | with_reducible refine KeepMem.trans (leaveNow_wf ..) ?_ | with_reducible refine KeepMem.trans (KeepMem.of_eq (takeKey_mem ..)) ?_ | (apply KeepMem.of_eq; simp; done))

theorem stallApply_wf (s : State) (a : StallApply) : KeepMem (stallApply s a) s := by
  unfold stallApply
  try dsimp only
  iterate 30 all_goals (try first | with_reducible exact KeepMem.refl _ | assumption | split | with_reducible refine KeepMem.trans (stallNow_wf ..) ?_ | with_reducible refine KeepMem.trans (KeepMem.of_eq (countUse_mem ..)) ?_ | with_reducible refine KeepMem.trans (KeepMem.of_eq (dropUse_mem ..)) ?_ | with_reducible refine KeepMem.trans (KeepMem.of_eq (causeLeave_mem ..)) ?_ | (apply KeepMem.of_eq; simp; done))

theorem stableBoundary_wf (s : State) : KeepMem (stableBoundary s) s := by
  unfold stableBoundary
  try dsimp only
  iterate 30 all_goals (try first | with_reducible exact KeepMem.refl _ | assumption | split | with_reducible refine KeepMem.trans (loadCopy_wf ..) ?_ | with_reducible refine KeepMem.trans (moveStall_wf ..) ?_ | with_reducible refine KeepMem.trans (leaveStall_wf ..) ?_ | with_reducible refine KeepMem.trans (stallApply_wf ..) ?_ | with_reducible refine KeepMem.trans (KeepMem.foldl (fun _ _ => ?_) _ _) ?_ | (apply KeepMem.of_eq; simp; done) | with_reducible refine KeepMem.trans (KeepMem.record ..) ?_)

theorem setBitmap_wf (n pn : Nat) (v : Bool) (s : State) : KeepMem (setBitmap n pn v s) s := by
  unfold setBitmap
  try dsimp only
  iterate 8 all_goals (try first | with_reducible exact KeepMem.refl _ | assumption | split | with_reducible refine KeepMem.trans (putStall_wf ..) ?_)

theorem checkPnLow_same (n : Nat) (s : State) : SameMem (checkPnLow n s) s := by simp [checkPnLow, SameMem]

@[simp] theorem checkPnLow_mem (n : Nat) (s : State) : (checkPnLow n s).mem = s.mem := checkPnLow_same n s

theorem clearBits_wf (n : Nat) (x0 : Nat) (x1 : Nat) (s : State) : KeepMem (clearBits n x0 x1 s) s := by
  fun_induction clearBits n x0 x1 s
  iterate 30 all_goals (try first | with_reducible exact KeepMem.refl _ | (refine KeepMem.trans (by assumption) ?_) | split | with_reducible refine KeepMem.trans (setBitmap_wf ..) ?_ | with_reducible refine KeepMem.trans (KeepMem.foldl (fun _ _ => ?_) _ _) ?_ | with_reducible refine KeepMem.trans (KeepMem.foldr (fun _ _ => ?_) _ _) ?_ | with_reducible refine KeepMem.trans (KeepMem.foldl_fst (fun _ _ => ?_) _ _) ?_ | with_reducible refine KeepMem.trans (KeepMem.foldl_snd (fun _ _ => ?_) _ _) ?_ | with_reducible refine KeepMem.trans (KeepMem.foldl_thd (fun _ _ => ?_) _ _) ?_ | (apply KeepMem.of_eq; simp; done) | with_reducible refine KeepMem.trans (KeepMem.record ..) ?_)

theorem spendPN_same (n : Nat) (s : State) : SameMem (spendPN n s) s := by simp [spendPN, SameMem]

@[simp] theorem spendPN_mem (n : Nat) (s : State) : (spendPN n s).mem = s.mem := spendPN_same n s

theorem acceptPN_wf (n pn octets : Nat) (s : State) : KeepMem (acceptPN n pn octets s) s := by
  unfold acceptPN
  try dsimp only
  iterate 30 all_goals (try first | with_reducible exact KeepMem.refl _ | assumption | split | with_reducible refine KeepMem.trans (putStall_wf ..) ?_ | with_reducible refine KeepMem.trans (stallCount_wf ..) ?_ | with_reducible refine KeepMem.trans (setBitmap_wf ..) ?_ | with_reducible refine KeepMem.trans (clearBits_wf ..) ?_ | with_reducible refine KeepMem.trans (KeepMem.of_eq (checkPnLow_mem ..)) ?_ | with_reducible refine KeepMem.trans (KeepMem.of_eq (spendPN_mem ..)) ?_)

theorem assignPN_wf (n : Nat) (s : State) : KeepMem (assignPN n s).2 s := by
  unfold assignPN
  try dsimp only
  iterate 8 all_goals (try first | with_reducible exact KeepMem.refl _ | assumption | split | with_reducible refine KeepMem.trans (putStall_wf ..) ?_ | with_reducible refine KeepMem.trans (KeepMem.of_eq (checkPnLow_mem ..)) ?_ | with_reducible refine KeepMem.trans (KeepMem.of_eq (spendPN_mem ..)) ?_)

end Sys2Proof.Machine
end

