-- ==== Sys2Proof/Laws/KeptTackCmd.lean ====
section
/-! SUPPORT. What each operation of Machine/TackCmd.lean keeps: the fuses, the life counters, the queue, and memory or its form. -/

namespace Sys2Proof.Machine

theorem retireTack_core (h : Nat) (s : State) : SameAll (retireTack h s) s := by simp [retireTack, SameAll]

@[simp] theorem retireTack_copies (h : Nat) (s : State) : (retireTack h s).lc.copies = s.lc.copies := (retireTack_core h s).1

@[simp] theorem retireTack_life (h : Nat) (s : State) : (retireTack h s).fv.life = s.fv.life := (retireTack_core h s).2.1

@[simp] theorem retireTack_pending (h : Nat) (s : State) : (retireTack h s).pending = s.pending := (retireTack_core h s).2.2

theorem retireBoundary_core (s : State) : SameAll (retireBoundary s) s := by simp [retireBoundary, SameAll]

@[simp] theorem retireBoundary_copies (s : State) : (retireBoundary s).lc.copies = s.lc.copies := (retireBoundary_core s).1

@[simp] theorem retireBoundary_life (s : State) : (retireBoundary s).fv.life = s.fv.life := (retireBoundary_core s).2.1

@[simp] theorem retireBoundary_pending (s : State) : (retireBoundary s).pending = s.pending := (retireBoundary_core s).2.2

theorem linkTack_core (h dseq : Nat) (s : State) : SameAll (linkTack h dseq s) s := by
  unfold linkTack
  split <;> simp [SameAll]

@[simp] theorem linkTack_copies (h dseq : Nat) (s : State) : (linkTack h dseq s).lc.copies = s.lc.copies := (linkTack_core h dseq s).1

@[simp] theorem linkTack_life (h dseq : Nat) (s : State) : (linkTack h dseq s).fv.life = s.fv.life := (linkTack_core h dseq s).2.1

@[simp] theorem linkTack_pending (h dseq : Nat) (s : State) : (linkTack h dseq s).pending = s.pending := (linkTack_core h dseq s).2.2

theorem reserveTack_core (p : Nat) (blk : List Byte) (random : Bool) (s : State) : SameAll (reserveTack p blk random s).2 s := by
  unfold reserveTack
  split <;> simp [SameAll]

@[simp] theorem reserveTack_copies (p : Nat) (blk : List Byte) (random : Bool) (s : State) : (reserveTack p blk random s).2.lc.copies = s.lc.copies := (reserveTack_core p blk random s).1

@[simp] theorem reserveTack_life (p : Nat) (blk : List Byte) (random : Bool) (s : State) : (reserveTack p blk random s).2.fv.life = s.fv.life := (reserveTack_core p blk random s).2.1

@[simp] theorem reserveTack_pending (p : Nat) (blk : List Byte) (random : Bool) (s : State) : (reserveTack p blk random s).2.pending = s.pending := (reserveTack_core p blk random s).2.2

theorem tackCinch_core (r : Req) (op h : Nat) (blk : List Byte) (i : Nat) (s : State) : SameAll (tackCinch r op h blk i s) s := by simp [tackCinch, SameAll]

@[simp] theorem tackCinch_copies (r : Req) (op h : Nat) (blk : List Byte) (i : Nat) (s : State) : (tackCinch r op h blk i s).lc.copies = s.lc.copies := (tackCinch_core r op h blk i s).1

@[simp] theorem tackCinch_life (r : Req) (op h : Nat) (blk : List Byte) (i : Nat) (s : State) : (tackCinch r op h blk i s).fv.life = s.fv.life := (tackCinch_core r op h blk i s).2.1

@[simp] theorem tackCinch_pending (r : Req) (op h : Nat) (blk : List Byte) (i : Nat) (s : State) : (tackCinch r op h blk i s).pending = s.pending := (tackCinch_core r op h blk i s).2.2

theorem finishTack_core (r : Req) (bs : List Byte) (s : State) : SameAll (finishTack r bs s) s := by
  unfold finishTack
  split <;> simp [SameAll]

@[simp] theorem finishTack_copies (r : Req) (bs : List Byte) (s : State) : (finishTack r bs s).lc.copies = s.lc.copies := (finishTack_core r bs s).1

@[simp] theorem finishTack_life (r : Req) (bs : List Byte) (s : State) : (finishTack r bs s).fv.life = s.fv.life := (finishTack_core r bs s).2.1

@[simp] theorem finishTack_pending (r : Req) (bs : List Byte) (s : State) : (finishTack r bs s).pending = s.pending := (finishTack_core r bs s).2.2

theorem pendTack_core (op was : Nat) (r : Req) (status state h : Nat) (s : State) : SameAll (pendTack op was r status state h s) s := ⟨rfl, rfl, rfl⟩

@[simp] theorem pendTack_copies (op was : Nat) (r : Req) (status state h : Nat) (s : State) : (pendTack op was r status state h s).lc.copies = s.lc.copies := (pendTack_core op was r status state h s).1

@[simp] theorem pendTack_life (op was : Nat) (r : Req) (status state h : Nat) (s : State) : (pendTack op was r status state h s).fv.life = s.fv.life := (pendTack_core op was r status state h s).2.1

@[simp] theorem pendTack_pending (op was : Nat) (r : Req) (status state h : Nat) (s : State) : (pendTack op was r status state h s).pending = s.pending := (pendTack_core op was r status state h s).2.2

theorem tackSubmit_core (r : Req) (b : List Byte) (s : State) : SameAll (tackSubmit r b s).2 s := by
  unfold tackSubmit
  try dsimp only
  repeat' split
  all_goals simp [SameAll]

@[simp] theorem tackSubmit_copies (r : Req) (b : List Byte) (s : State) : (tackSubmit r b s).2.lc.copies = s.lc.copies := (tackSubmit_core r b s).1

@[simp] theorem tackSubmit_life (r : Req) (b : List Byte) (s : State) : (tackSubmit r b s).2.fv.life = s.fv.life := (tackSubmit_core r b s).2.1

@[simp] theorem tackSubmit_pending (r : Req) (b : List Byte) (s : State) : (tackSubmit r b s).2.pending = s.pending := (tackSubmit_core r b s).2.2

theorem releaseLate_core (h : Nat) (s : State) : SameAll (releaseLate h s) s := by
  unfold releaseLate
  split <;> simp [SameAll]

@[simp] theorem releaseLate_copies (h : Nat) (s : State) : (releaseLate h s).lc.copies = s.lc.copies := (releaseLate_core h s).1

@[simp] theorem releaseLate_life (h : Nat) (s : State) : (releaseLate h s).fv.life = s.fv.life := (releaseLate_core h s).2.1

@[simp] theorem releaseLate_pending (h : Nat) (s : State) : (releaseLate h s).pending = s.pending := (releaseLate_core h s).2.2

theorem retireTack_same (h : Nat) (s : State) : SameMem (retireTack h s) s := by simp [retireTack, SameMem]

@[simp] theorem retireTack_mem (h : Nat) (s : State) : (retireTack h s).mem = s.mem := retireTack_same h s

theorem retireBoundary_same (s : State) : SameMem (retireBoundary s) s := by simp [retireBoundary, SameMem]

@[simp] theorem retireBoundary_mem (s : State) : (retireBoundary s).mem = s.mem := retireBoundary_same s

theorem linkTack_same (h dseq : Nat) (s : State) : SameMem (linkTack h dseq s) s := by
  unfold linkTack
  split <;> simp [SameMem]

@[simp] theorem linkTack_mem (h dseq : Nat) (s : State) : (linkTack h dseq s).mem = s.mem := linkTack_same h dseq s

theorem reserveTack_same (p : Nat) (blk : List Byte) (random : Bool) (s : State) : SameMem (reserveTack p blk random s).2 s := by
  unfold reserveTack
  split <;> simp [SameMem]

@[simp] theorem reserveTack_mem (p : Nat) (blk : List Byte) (random : Bool) (s : State) : (reserveTack p blk random s).2.mem = s.mem := reserveTack_same p blk random s

theorem tackCinch_same (r : Req) (op h : Nat) (blk : List Byte) (i : Nat) (s : State) : SameMem (tackCinch r op h blk i s) s := by simp [tackCinch, SameMem]

@[simp] theorem tackCinch_mem (r : Req) (op h : Nat) (blk : List Byte) (i : Nat) (s : State) : (tackCinch r op h blk i s).mem = s.mem := tackCinch_same r op h blk i s

theorem finishTack_wf (r : Req) (bs : List Byte) (s : State) : KeepMem (finishTack r bs s) s := by
  unfold finishTack
  try dsimp only
  iterate 30 all_goals (try first | with_reducible exact KeepMem.refl _ | assumption | split | with_reducible refine KeepMem.trans (hostComplete_wf ..) ?_ | (apply KeepMem.of_eq; simp; done))

theorem pendTack_same (op was : Nat) (r : Req) (status state h : Nat) (s : State) : SameMem (pendTack op was r status state h s) s := rfl

@[simp] theorem pendTack_mem (op was : Nat) (r : Req) (status state h : Nat) (s : State) : (pendTack op was r status state h s).mem = s.mem := pendTack_same op was r status state h s

theorem tackSubmit_wf (r : Req) (b : List Byte) (s : State) : KeepMem (tackSubmit r b s).2 s := by
  unfold tackSubmit
  try dsimp only
  iterate 8 all_goals (try first | with_reducible exact KeepMem.refl _ | assumption | split | with_reducible refine KeepMem.trans (reqWrite_wf ..) ?_ | with_reducible refine KeepMem.trans (KeepMem.of_eq (reqRead_mem ..)) ?_ | with_reducible refine KeepMem.trans (KeepMem.of_eq (updTack_mem ..)) ?_ | with_reducible refine KeepMem.trans (KeepMem.of_eq (retireTack_mem ..)) ?_ | with_reducible refine KeepMem.trans (KeepMem.of_eq (reserveTack_mem ..)) ?_ | with_reducible refine KeepMem.trans (KeepMem.of_eq (tackCinch_mem ..)) ?_ | with_reducible refine KeepMem.trans (KeepMem.of_eq (pendTack_mem ..)) ?_)

theorem releaseLate_same (h : Nat) (s : State) : SameMem (releaseLate h s) s := by
  unfold releaseLate
  split <;> simp [SameMem]

@[simp] theorem releaseLate_mem (h : Nat) (s : State) : (releaseLate h s).mem = s.mem := releaseLate_same h s

end Sys2Proof.Machine
end

