-- ==== Sys2Proof/Laws/KeptCinch.lean ====
section
/-! SUPPORT. What each operation of Machine/Cinch.lean keeps: the fuses, the life counters, the queue, and memory or its form. -/

namespace Sys2Proof.Machine

theorem cinchRead_core (r : Req) (a n : Nat) (s : State) : SameAll (cinchRead r a n s).2.2 s := by
  unfold cinchRead
  try dsimp only
  repeat' split
  all_goals (first | (simp [SameAll]; done) | exact ⟨rfl, rfl, rfl⟩ | (simp_all [SameAll]; done) | grind [SameAll] | (simp [SameAll]; grind [SameAll]) | (simp +zetaDelta [SameAll]; done) | ((try dsimp only); (repeat' (first | (exact SameAll.refl _) | assumption | (simp [SameAll]; done) | split | with_reducible refine SameAll.trans (noteRead_core ..) ?_ | with_reducible refine SameAll.trans (SameAll.foldl (fun _ _ => ?_) _ _) ?_ | with_reducible refine SameAll.trans (SameAll.foldr (fun _ _ => ?_) _ _) ?_ | with_reducible refine SameAll.trans ⟨rfl, rfl, rfl⟩ ?_)); done) | (refine SameAll.foldl ?_ _ _; intro st x; (try dsimp only); (repeat' split); all_goals (first | (simp [SameAll]; done) | (simp_all [SameAll]; done) | grind [SameAll])))

@[simp] theorem cinchRead_copies (r : Req) (a n : Nat) (s : State) : (cinchRead r a n s).2.2.lc.copies = s.lc.copies := (cinchRead_core r a n s).1

@[simp] theorem cinchRead_life (r : Req) (a n : Nat) (s : State) : (cinchRead r a n s).2.2.fv.life = s.fv.life := (cinchRead_core r a n s).2.1

@[simp] theorem cinchRead_pending (r : Req) (a n : Nat) (s : State) : (cinchRead r a n s).2.2.pending = s.pending := (cinchRead_core r a n s).2.2

theorem freeCinch_core (i : Nat) (s : State) : SameAll (freeCinch i s) s := by
  unfold freeCinch
  try dsimp only
  repeat' split
  all_goals (first | (simp [SameAll]; done) | exact ⟨rfl, rfl, rfl⟩ | (simp_all [SameAll]; done) | grind [SameAll] | (simp [SameAll]; grind [SameAll]) | (simp +zetaDelta [SameAll]; done) | ((try dsimp only); (repeat' (first | (exact SameAll.refl _) | assumption | (simp [SameAll]; done) | split | with_reducible refine SameAll.trans (updCinch_core ..) ?_ | with_reducible refine SameAll.trans (SameAll.foldl (fun _ _ => ?_) _ _) ?_ | with_reducible refine SameAll.trans (SameAll.foldr (fun _ _ => ?_) _ _) ?_ | with_reducible refine SameAll.trans ⟨rfl, rfl, rfl⟩ ?_)); done) | (refine SameAll.foldl ?_ _ _; intro st x; (try dsimp only); (repeat' split); all_goals (first | (simp [SameAll]; done) | (simp_all [SameAll]; done) | grind [SameAll])))

@[simp] theorem freeCinch_copies (i : Nat) (s : State) : (freeCinch i s).lc.copies = s.lc.copies := (freeCinch_core i s).1

@[simp] theorem freeCinch_life (i : Nat) (s : State) : (freeCinch i s).fv.life = s.fv.life := (freeCinch_core i s).2.1

@[simp] theorem freeCinch_pending (i : Nat) (s : State) : (freeCinch i s).pending = s.pending := (freeCinch_core i s).2.2

theorem stallsAfter_core (s : State) (x : Cinch) : SameAll (stallsAfter s x) s := by
  unfold stallsAfter
  try dsimp only
  repeat' split
  all_goals (first | (simp [SameAll]; done) | exact ⟨rfl, rfl, rfl⟩ | (simp_all [SameAll]; done) | grind [SameAll] | (simp [SameAll]; grind [SameAll]) | (simp +zetaDelta [SameAll]; done) | ((try dsimp only); (repeat' (first | (exact SameAll.refl _) | assumption | (simp [SameAll]; done) | split | with_reducible refine SameAll.trans (stallNow_core ..) ?_ | with_reducible refine SameAll.trans (SameAll.foldl (fun _ _ => ?_) _ _) ?_ | with_reducible refine SameAll.trans (SameAll.foldr (fun _ _ => ?_) _ _) ?_ | with_reducible refine SameAll.trans ⟨rfl, rfl, rfl⟩ ?_)); done) | (refine SameAll.foldl ?_ _ _; intro st x; (try dsimp only); (repeat' split); all_goals (first | (simp [SameAll]; done) | (simp_all [SameAll]; done) | grind [SameAll])))

@[simp] theorem stallsAfter_copies (s : State) (x : Cinch) : (stallsAfter s x).lc.copies = s.lc.copies := (stallsAfter_core s x).1

@[simp] theorem stallsAfter_life (s : State) (x : Cinch) : (stallsAfter s x).fv.life = s.fv.life := (stallsAfter_core s x).2.1

@[simp] theorem stallsAfter_pending (s : State) (x : Cinch) : (stallsAfter s x).pending = s.pending := (stallsAfter_core s x).2.2

theorem stageIt_core (i : Nat) (a : Action) (s : State) : SameAll (stageIt i a s).2 s := by
  unfold stageIt
  try dsimp only
  repeat' split
  all_goals (first | (simp [SameAll]; done) | exact ⟨rfl, rfl, rfl⟩ | (simp_all [SameAll]; done) | grind [SameAll, drawStall_core] | (simp [SameAll]; grind [SameAll, drawStall_core]) | (simp +zetaDelta [SameAll]; done) | ((try dsimp only); (repeat' (first | (exact SameAll.refl _) | assumption | (simp [SameAll]; done) | split | with_reducible refine SameAll.trans (updCinch_core ..) ?_ | with_reducible refine SameAll.trans (pendUse_core ..) ?_ | with_reducible refine SameAll.trans (drawStall_core ..) ?_ | with_reducible refine SameAll.trans (stallsAfter_core ..) ?_ | with_reducible refine SameAll.trans (SameAll.foldl (fun _ _ => ?_) _ _) ?_ | with_reducible refine SameAll.trans (SameAll.foldr (fun _ _ => ?_) _ _) ?_ | with_reducible refine SameAll.trans ⟨rfl, rfl, rfl⟩ ?_)); done) | (refine SameAll.foldl ?_ _ _; intro st x; (try dsimp only); (repeat' split); all_goals (first | (simp [SameAll]; done) | (simp_all [SameAll]; done) | grind [SameAll, drawStall_core])))

@[simp] theorem stageIt_copies (i : Nat) (a : Action) (s : State) : (stageIt i a s).2.lc.copies = s.lc.copies := (stageIt_core i a s).1

@[simp] theorem stageIt_life (i : Nat) (a : Action) (s : State) : (stageIt i a s).2.fv.life = s.fv.life := (stageIt_core i a s).2.1

@[simp] theorem stageIt_pending (i : Nat) (a : Action) (s : State) : (stageIt i a s).2.pending = s.pending := (stageIt_core i a s).2.2

theorem addReq_core (q : CnReq) (s : State) : SameAll (addReq q s) s := by
  unfold addReq
  try dsimp only
  repeat' split
  all_goals (first | (simp [SameAll]; done) | exact ⟨rfl, rfl, rfl⟩ | (simp_all [SameAll]; done) | grind [SameAll] | (simp [SameAll]; grind [SameAll]) | (simp +zetaDelta [SameAll]; done) | ((try dsimp only); (repeat' (first | (exact SameAll.refl _) | assumption | (simp [SameAll]; done) | split | with_reducible refine SameAll.trans (SameAll.foldl (fun _ _ => ?_) _ _) ?_ | with_reducible refine SameAll.trans (SameAll.foldr (fun _ _ => ?_) _ _) ?_ | with_reducible refine SameAll.trans ⟨rfl, rfl, rfl⟩ ?_)); done) | (refine SameAll.foldl ?_ _ _; intro st x; (try dsimp only); (repeat' split); all_goals (first | (simp [SameAll]; done) | (simp_all [SameAll]; done) | grind [SameAll])))

@[simp] theorem addReq_copies (q : CnReq) (s : State) : (addReq q s).lc.copies = s.lc.copies := (addReq_core q s).1

@[simp] theorem addReq_life (q : CnReq) (s : State) : (addReq q s).fv.life = s.fv.life := (addReq_core q s).2.1

@[simp] theorem addReq_pending (q : CnReq) (s : State) : (addReq q s).pending = s.pending := (addReq_core q s).2.2

theorem cinchOpen_core (r : Req) (c : Nat) (b : List Byte) (h : Nat) (s : State) : SameAll (cinchOpen r c b h s) s := by
  unfold cinchOpen
  try dsimp only
  repeat' split
  all_goals (first | (simp [SameAll]; done) | exact ⟨rfl, rfl, rfl⟩ | (simp_all [SameAll]; done) | grind [SameAll] | (simp [SameAll]; grind [SameAll]) | (simp +zetaDelta [SameAll]; done) | ((try dsimp only); (repeat' (first | (exact SameAll.refl _) | assumption | (simp [SameAll]; done) | split | with_reducible refine SameAll.trans (setCinch_core ..) ?_ | with_reducible refine SameAll.trans (addReq_core ..) ?_ | with_reducible refine SameAll.trans (SameAll.foldl (fun _ _ => ?_) _ _) ?_ | with_reducible refine SameAll.trans (SameAll.foldr (fun _ _ => ?_) _ _) ?_ | with_reducible refine SameAll.trans ⟨rfl, rfl, rfl⟩ ?_)); done) | (refine SameAll.foldl ?_ _ _; intro st x; (try dsimp only); (repeat' split); all_goals (first | (simp [SameAll]; done) | (simp_all [SameAll]; done) | grind [SameAll])))

@[simp] theorem cinchOpen_copies (r : Req) (c : Nat) (b : List Byte) (h : Nat) (s : State) : (cinchOpen r c b h s).lc.copies = s.lc.copies := (cinchOpen_core r c b h s).1

@[simp] theorem cinchOpen_life (r : Req) (c : Nat) (b : List Byte) (h : Nat) (s : State) : (cinchOpen r c b h s).fv.life = s.fv.life := (cinchOpen_core r c b h s).2.1

@[simp] theorem cinchOpen_pending (r : Req) (c : Nat) (b : List Byte) (h : Nat) (s : State) : (cinchOpen r c b h s).pending = s.pending := (cinchOpen_core r c b h s).2.2

theorem refuseReq_core (r : Req) (c opc h st : Nat) (s : State) : SameAll (refuseReq r c opc h st s) s := by
  unfold refuseReq
  try dsimp only
  repeat' split
  all_goals (first | (simp [SameAll]; done) | exact ⟨rfl, rfl, rfl⟩ | (simp_all [SameAll]; done) | grind [SameAll] | (simp [SameAll]; grind [SameAll]) | (simp +zetaDelta [SameAll]; done) | ((try dsimp only); (repeat' (first | (exact SameAll.refl _) | assumption | (simp [SameAll]; done) | split | with_reducible refine SameAll.trans (addReq_core ..) ?_ | with_reducible refine SameAll.trans (SameAll.foldl (fun _ _ => ?_) _ _) ?_ | with_reducible refine SameAll.trans (SameAll.foldr (fun _ _ => ?_) _ _) ?_ | with_reducible refine SameAll.trans ⟨rfl, rfl, rfl⟩ ?_)); done) | (refine SameAll.foldl ?_ _ _; intro st x; (try dsimp only); (repeat' split); all_goals (first | (simp [SameAll]; done) | (simp_all [SameAll]; done) | grind [SameAll])))

@[simp] theorem refuseReq_copies (r : Req) (c opc h st : Nat) (s : State) : (refuseReq r c opc h st s).lc.copies = s.lc.copies := (refuseReq_core r c opc h st s).1

@[simp] theorem refuseReq_life (r : Req) (c opc h st : Nat) (s : State) : (refuseReq r c opc h st s).fv.life = s.fv.life := (refuseReq_core r c opc h st s).2.1

@[simp] theorem refuseReq_pending (r : Req) (c opc h st : Nat) (s : State) : (refuseReq r c opc h st s).pending = s.pending := (refuseReq_core r c opc h st s).2.2

theorem stageFinish_core (r : Req) (c i h : Nat) (a : Action) (fault : Bool) (s : State) : SameAll (stageFinish r c i h a fault s) s := by
  unfold stageFinish
  try dsimp only
  repeat' split
  all_goals (first | (simp [SameAll]; done) | exact ⟨rfl, rfl, rfl⟩ | (simp_all [SameAll]; done) | grind [SameAll, stageIt_core] | (simp [SameAll]; grind [SameAll, stageIt_core]) | (simp +zetaDelta [SameAll]; done) | ((try dsimp only); (repeat' (first | (exact SameAll.refl _) | assumption | (simp [SameAll]; done) | split | with_reducible refine SameAll.trans (markAbort_core ..) ?_ | with_reducible refine SameAll.trans (stageIt_core ..) ?_ | with_reducible refine SameAll.trans (addReq_core ..) ?_ | with_reducible refine SameAll.trans (refuseReq_core ..) ?_ | with_reducible refine SameAll.trans (SameAll.foldl (fun _ _ => ?_) _ _) ?_ | with_reducible refine SameAll.trans (SameAll.foldr (fun _ _ => ?_) _ _) ?_ | with_reducible refine SameAll.trans ⟨rfl, rfl, rfl⟩ ?_)); done) | (refine SameAll.foldl ?_ _ _; intro st x; (try dsimp only); (repeat' split); all_goals (first | (simp [SameAll]; done) | (simp_all [SameAll]; done) | grind [SameAll, stageIt_core])))

@[simp] theorem stageFinish_copies (r : Req) (c i h : Nat) (a : Action) (fault : Bool) (s : State) : (stageFinish r c i h a fault s).lc.copies = s.lc.copies := (stageFinish_core r c i h a fault s).1

@[simp] theorem stageFinish_life (r : Req) (c i h : Nat) (a : Action) (fault : Bool) (s : State) : (stageFinish r c i h a fault s).fv.life = s.fv.life := (stageFinish_core r c i h a fault s).2.1

@[simp] theorem stageFinish_pending (r : Req) (c i h : Nat) (a : Action) (fault : Bool) (s : State) : (stageFinish r c i h a fault s).pending = s.pending := (stageFinish_core r c i h a fault s).2.2

theorem mapReq_core (c : Nat) (f : CnReq → CnReq) (s : State) : SameAll (mapReq c f s) s := by
  unfold mapReq
  try dsimp only
  repeat' split
  all_goals (first | (simp [SameAll]; done) | exact ⟨rfl, rfl, rfl⟩ | (simp_all [SameAll]; done) | grind [SameAll] | (simp [SameAll]; grind [SameAll]) | (simp +zetaDelta [SameAll]; done) | ((try dsimp only); (repeat' (first | (exact SameAll.refl _) | assumption | (simp [SameAll]; done) | split | with_reducible refine SameAll.trans (SameAll.foldl (fun _ _ => ?_) _ _) ?_ | with_reducible refine SameAll.trans (SameAll.foldr (fun _ _ => ?_) _ _) ?_ | with_reducible refine SameAll.trans ⟨rfl, rfl, rfl⟩ ?_)); done) | (refine SameAll.foldl ?_ _ _; intro st x; (try dsimp only); (repeat' split); all_goals (first | (simp [SameAll]; done) | (simp_all [SameAll]; done) | grind [SameAll])))

@[simp] theorem mapReq_copies (c : Nat) (f : CnReq → CnReq) (s : State) : (mapReq c f s).lc.copies = s.lc.copies := (mapReq_core c f s).1

@[simp] theorem mapReq_life (c : Nat) (f : CnReq → CnReq) (s : State) : (mapReq c f s).fv.life = s.fv.life := (mapReq_core c f s).2.1

@[simp] theorem mapReq_pending (c : Nat) (f : CnReq → CnReq) (s : State) : (mapReq c f s).pending = s.pending := (mapReq_core c f s).2.2

theorem ungrant_core (s : State) (q : CnReq) : SameAll (ungrant s q) s := by
  unfold ungrant
  try dsimp only
  repeat' split
  all_goals (first | (simp [SameAll]; done) | exact ⟨rfl, rfl, rfl⟩ | (simp_all [SameAll]; done) | grind [SameAll] | (simp [SameAll]; grind [SameAll]) | (simp +zetaDelta [SameAll]; done) | ((try dsimp only); (repeat' (first | (exact SameAll.refl _) | assumption | (simp [SameAll]; done) | split | with_reducible refine SameAll.trans (updCinch_core ..) ?_ | with_reducible refine SameAll.trans (dropUse_core ..) ?_ | with_reducible refine SameAll.trans (mapReq_core ..) ?_ | with_reducible refine SameAll.trans (SameAll.foldl (fun _ _ => ?_) _ _) ?_ | with_reducible refine SameAll.trans (SameAll.foldr (fun _ _ => ?_) _ _) ?_ | with_reducible refine SameAll.trans ⟨rfl, rfl, rfl⟩ ?_)); done) | (refine SameAll.foldl ?_ _ _; intro st x; (try dsimp only); (repeat' split); all_goals (first | (simp [SameAll]; done) | (simp_all [SameAll]; done) | grind [SameAll])))

@[simp] theorem ungrant_copies (s : State) (q : CnReq) : (ungrant s q).lc.copies = s.lc.copies := (ungrant_core s q).1

@[simp] theorem ungrant_life (s : State) (q : CnReq) : (ungrant s q).fv.life = s.fv.life := (ungrant_core s q).2.1

@[simp] theorem ungrant_pending (s : State) (q : CnReq) : (ungrant s q).pending = s.pending := (ungrant_core s q).2.2

theorem cinchStage_core (r : Req) (c : Nat) (b : List Byte) (h : Nat) (key : Rein) (s0 : State) : SameAll (cinchStage r c b h key s0).2 s0 := by
  unfold cinchStage
  try dsimp only
  repeat' split
  all_goals (first | (simp [SameAll]; done) | exact ⟨rfl, rfl, rfl⟩ | (simp_all [SameAll]; done) | grind [SameAll, cinchRead_core] | (simp [SameAll]; grind [SameAll, cinchRead_core]) | (simp +zetaDelta [SameAll]; done) | ((try dsimp only); (repeat' (first | (exact SameAll.refl _) | assumption | (simp [SameAll]; done) | split | with_reducible refine SameAll.trans (leaseWait_core ..) ?_ | with_reducible refine SameAll.trans (cinchRead_core ..) ?_ | with_reducible refine SameAll.trans (stallsAfter_core ..) ?_ | with_reducible refine SameAll.trans (addReq_core ..) ?_ | with_reducible refine SameAll.trans (refuseReq_core ..) ?_ | with_reducible refine SameAll.trans (stageFinish_core ..) ?_ | with_reducible refine SameAll.trans (ungrant_core ..) ?_ | with_reducible refine SameAll.trans (SameAll.foldl (fun _ _ => ?_) _ _) ?_ | with_reducible refine SameAll.trans (SameAll.foldr (fun _ _ => ?_) _ _) ?_ | with_reducible refine SameAll.trans ⟨rfl, rfl, rfl⟩ ?_)); done) | (refine SameAll.foldl ?_ _ _; intro st x; (try dsimp only); (repeat' split); all_goals (first | (simp [SameAll]; done) | (simp_all [SameAll]; done) | grind [SameAll, cinchRead_core])))

@[simp] theorem cinchStage_copies (r : Req) (c : Nat) (b : List Byte) (h : Nat) (key : Rein) (s0 : State) : (cinchStage r c b h key s0).2.lc.copies = s0.lc.copies := (cinchStage_core r c b h key s0).1

@[simp] theorem cinchStage_life (r : Req) (c : Nat) (b : List Byte) (h : Nat) (key : Rein) (s0 : State) : (cinchStage r c b h key s0).2.fv.life = s0.fv.life := (cinchStage_core r c b h key s0).2.1

@[simp] theorem cinchStage_pending (r : Req) (c : Nat) (b : List Byte) (h : Nat) (key : Rein) (s0 : State) : (cinchStage r c b h key s0).2.pending = s0.pending := (cinchStage_core r c b h key s0).2.2

theorem cinchCommit_core (r : Req) (c : Nat) (b : List Byte) (h : Nat) (s : State) : SameAll (cinchCommit r c b h s) s := by
  unfold cinchCommit
  try dsimp only
  repeat' split
  all_goals (first | (simp [SameAll]; done) | exact ⟨rfl, rfl, rfl⟩ | (simp_all [SameAll]; done) | grind [SameAll] | (simp [SameAll]; grind [SameAll]) | (simp +zetaDelta [SameAll]; done) | ((try dsimp only); (repeat' (first | (exact SameAll.refl _) | assumption | (simp [SameAll]; done) | split | with_reducible refine SameAll.trans (updCinch_core ..) ?_ | with_reducible refine SameAll.trans (updTack_core ..) ?_ | with_reducible refine SameAll.trans (writeEnvelope_core ..) ?_ | with_reducible refine SameAll.trans (addReq_core ..) ?_ | with_reducible refine SameAll.trans (refuseReq_core ..) ?_ | with_reducible refine SameAll.trans (SameAll.foldl (fun _ _ => ?_) _ _) ?_ | with_reducible refine SameAll.trans (SameAll.foldr (fun _ _ => ?_) _ _) ?_ | with_reducible refine SameAll.trans ⟨rfl, rfl, rfl⟩ ?_)); done) | (refine SameAll.foldl ?_ _ _; intro st x; (try dsimp only); (repeat' split); all_goals (first | (simp [SameAll]; done) | (simp_all [SameAll]; done) | grind [SameAll])))

@[simp] theorem cinchCommit_copies (r : Req) (c : Nat) (b : List Byte) (h : Nat) (s : State) : (cinchCommit r c b h s).lc.copies = s.lc.copies := (cinchCommit_core r c b h s).1

@[simp] theorem cinchCommit_life (r : Req) (c : Nat) (b : List Byte) (h : Nat) (s : State) : (cinchCommit r c b h s).fv.life = s.fv.life := (cinchCommit_core r c b h s).2.1

@[simp] theorem cinchCommit_pending (r : Req) (c : Nat) (b : List Byte) (h : Nat) (s : State) : (cinchCommit r c b h s).pending = s.pending := (cinchCommit_core r c b h s).2.2

theorem cinchAbort_core (r : Req) (c : Nat) (b : List Byte) (h : Nat) (s : State) : SameAll (cinchAbort r c b h s) s := by
  unfold cinchAbort
  try dsimp only
  repeat' split
  all_goals (first | (simp [SameAll]; done) | exact ⟨rfl, rfl, rfl⟩ | (simp_all [SameAll]; done) | grind [SameAll] | (simp [SameAll]; grind [SameAll]) | (simp +zetaDelta [SameAll]; done) | ((try dsimp only); (repeat' (first | (exact SameAll.refl _) | assumption | (simp [SameAll]; done) | split | with_reducible refine SameAll.trans (markAbort_core ..) ?_ | with_reducible refine SameAll.trans (addReq_core ..) ?_ | with_reducible refine SameAll.trans (refuseReq_core ..) ?_ | with_reducible refine SameAll.trans (SameAll.foldl (fun _ _ => ?_) _ _) ?_ | with_reducible refine SameAll.trans (SameAll.foldr (fun _ _ => ?_) _ _) ?_ | with_reducible refine SameAll.trans ⟨rfl, rfl, rfl⟩ ?_)); done) | (refine SameAll.foldl ?_ _ _; intro st x; (try dsimp only); (repeat' split); all_goals (first | (simp [SameAll]; done) | (simp_all [SameAll]; done) | grind [SameAll])))

@[simp] theorem cinchAbort_copies (r : Req) (c : Nat) (b : List Byte) (h : Nat) (s : State) : (cinchAbort r c b h s).lc.copies = s.lc.copies := (cinchAbort_core r c b h s).1

@[simp] theorem cinchAbort_life (r : Req) (c : Nat) (b : List Byte) (h : Nat) (s : State) : (cinchAbort r c b h s).fv.life = s.fv.life := (cinchAbort_core r c b h s).2.1

@[simp] theorem cinchAbort_pending (r : Req) (c : Nat) (b : List Byte) (h : Nat) (s : State) : (cinchAbort r c b h s).pending = s.pending := (cinchAbort_core r c b h s).2.2

theorem cinchQuery_core (r : Req) (c : Nat) (b : List Byte) (h : Nat) (s : State) : SameAll (cinchQuery r c b h s) s := by
  unfold cinchQuery
  try dsimp only
  repeat' split
  all_goals (first | (simp [SameAll]; done) | exact ⟨rfl, rfl, rfl⟩ | (simp_all [SameAll]; done) | grind [SameAll] | (simp [SameAll]; grind [SameAll]) | (simp +zetaDelta [SameAll]; done) | ((try dsimp only); (repeat' (first | (exact SameAll.refl _) | assumption | (simp [SameAll]; done) | split | with_reducible refine SameAll.trans (addReq_core ..) ?_ | with_reducible refine SameAll.trans (refuseReq_core ..) ?_ | with_reducible refine SameAll.trans (SameAll.foldl (fun _ _ => ?_) _ _) ?_ | with_reducible refine SameAll.trans (SameAll.foldr (fun _ _ => ?_) _ _) ?_ | with_reducible refine SameAll.trans ⟨rfl, rfl, rfl⟩ ?_)); done) | (refine SameAll.foldl ?_ _ _; intro st x; (try dsimp only); (repeat' split); all_goals (first | (simp [SameAll]; done) | (simp_all [SameAll]; done) | grind [SameAll])))

@[simp] theorem cinchQuery_copies (r : Req) (c : Nat) (b : List Byte) (h : Nat) (s : State) : (cinchQuery r c b h s).lc.copies = s.lc.copies := (cinchQuery_core r c b h s).1

@[simp] theorem cinchQuery_life (r : Req) (c : Nat) (b : List Byte) (h : Nat) (s : State) : (cinchQuery r c b h s).fv.life = s.fv.life := (cinchQuery_core r c b h s).2.1

@[simp] theorem cinchQuery_pending (r : Req) (c : Nat) (b : List Byte) (h : Nat) (s : State) : (cinchQuery r c b h s).pending = s.pending := (cinchQuery_core r c b h s).2.2

theorem cinchLookup_core (r : Req) (c : Nat) (b : List Byte) (h : Nat) (s : State) : SameAll (cinchLookup r c b h s) s := by
  unfold cinchLookup
  try dsimp only
  repeat' split
  all_goals (first | (simp [SameAll]; done) | exact ⟨rfl, rfl, rfl⟩ | (simp_all [SameAll]; done) | grind [SameAll] | (simp [SameAll]; grind [SameAll]) | (simp +zetaDelta [SameAll]; done) | ((try dsimp only); (repeat' (first | (exact SameAll.refl _) | assumption | (simp [SameAll]; done) | split | with_reducible refine SameAll.trans (addReq_core ..) ?_ | with_reducible refine SameAll.trans (SameAll.foldl (fun _ _ => ?_) _ _) ?_ | with_reducible refine SameAll.trans (SameAll.foldr (fun _ _ => ?_) _ _) ?_ | with_reducible refine SameAll.trans ⟨rfl, rfl, rfl⟩ ?_)); done) | (refine SameAll.foldl ?_ _ _; intro st x; (try dsimp only); (repeat' split); all_goals (first | (simp [SameAll]; done) | (simp_all [SameAll]; done) | grind [SameAll])))

@[simp] theorem cinchLookup_copies (r : Req) (c : Nat) (b : List Byte) (h : Nat) (s : State) : (cinchLookup r c b h s).lc.copies = s.lc.copies := (cinchLookup_core r c b h s).1

@[simp] theorem cinchLookup_life (r : Req) (c : Nat) (b : List Byte) (h : Nat) (s : State) : (cinchLookup r c b h s).fv.life = s.fv.life := (cinchLookup_core r c b h s).2.1

@[simp] theorem cinchLookup_pending (r : Req) (c : Nat) (b : List Byte) (h : Nat) (s : State) : (cinchLookup r c b h s).pending = s.pending := (cinchLookup_core r c b h s).2.2

theorem custodyEnded_core (status : Nat) (s : State) : SameAll (custodyEnded status s) s := by
  unfold custodyEnded
  try dsimp only
  repeat' split
  all_goals (first | (simp [SameAll]; done) | exact ⟨rfl, rfl, rfl⟩ | (simp_all [SameAll]; done) | grind [SameAll] | (simp [SameAll]; grind [SameAll]) | (simp +zetaDelta [SameAll]; done) | ((try dsimp only); (repeat' (first | (exact SameAll.refl _) | assumption | (simp [SameAll]; done) | split | with_reducible refine SameAll.trans (SameAll.foldl (fun _ _ => ?_) _ _) ?_ | with_reducible refine SameAll.trans (SameAll.foldr (fun _ _ => ?_) _ _) ?_ | with_reducible refine SameAll.trans ⟨rfl, rfl, rfl⟩ ?_)); done) | (refine SameAll.foldl ?_ _ _; intro st x; (try dsimp only); (repeat' split); all_goals (first | (simp [SameAll]; done) | (simp_all [SameAll]; done) | grind [SameAll])))

@[simp] theorem custodyEnded_copies (status : Nat) (s : State) : (custodyEnded status s).lc.copies = s.lc.copies := (custodyEnded_core status s).1

@[simp] theorem custodyEnded_life (status : Nat) (s : State) : (custodyEnded status s).fv.life = s.fv.life := (custodyEnded_core status s).2.1

@[simp] theorem custodyEnded_pending (status : Nat) (s : State) : (custodyEnded status s).pending = s.pending := (custodyEnded_core status s).2.2

theorem endCinch_core (i cause status failing : Nat) (s : State) : SameAll (endCinch i cause status failing s) s := by
  unfold endCinch
  try dsimp only
  repeat' split
  all_goals (first | (simp [SameAll]; done) | exact ⟨rfl, rfl, rfl⟩ | (simp_all [SameAll]; done) | grind [SameAll] | (simp [SameAll]; grind [SameAll]) | (simp +zetaDelta [SameAll]; done) | ((try dsimp only); (repeat' (first | (exact SameAll.refl _) | assumption | (simp [SameAll]; done) | split | with_reducible refine SameAll.trans (setCinch_core ..) ?_ | with_reducible refine SameAll.trans (pushNoteq_core ..) ?_ | with_reducible refine SameAll.trans (settleFills_core ..) ?_ | with_reducible refine SameAll.trans (freeCinch_core ..) ?_ | with_reducible refine SameAll.trans (custodyEnded_core ..) ?_ | with_reducible refine SameAll.trans (SameAll.foldl (fun _ _ => ?_) _ _) ?_ | with_reducible refine SameAll.trans (SameAll.foldr (fun _ _ => ?_) _ _) ?_ | with_reducible refine SameAll.trans ⟨rfl, rfl, rfl⟩ ?_)); done) | (refine SameAll.foldl ?_ _ _; intro st x; (try dsimp only); (repeat' split); all_goals (first | (simp [SameAll]; done) | (simp_all [SameAll]; done) | grind [SameAll])))

@[simp] theorem endCinch_copies (i cause status failing : Nat) (s : State) : (endCinch i cause status failing s).lc.copies = s.lc.copies := (endCinch_core i cause status failing s).1

@[simp] theorem endCinch_life (i cause status failing : Nat) (s : State) : (endCinch i cause status failing s).fv.life = s.fv.life := (endCinch_core i cause status failing s).2.1

@[simp] theorem endCinch_pending (i cause status failing : Nat) (s : State) : (endCinch i cause status failing s).pending = s.pending := (endCinch_core i cause status failing s).2.2

theorem abortCinch_core (i cause status failing : Nat) (s : State) : SameAll (abortCinch i cause status failing s) s := by
  unfold abortCinch
  try dsimp only
  repeat' split
  all_goals (first | (simp [SameAll]; done) | exact ⟨rfl, rfl, rfl⟩ | (simp_all [SameAll]; done) | grind [SameAll] | (simp [SameAll]; grind [SameAll]) | (simp +zetaDelta [SameAll]; done) | ((try dsimp only); (repeat' (first | (exact SameAll.refl _) | assumption | (simp [SameAll]; done) | split | with_reducible refine SameAll.trans (updTack_core ..) ?_ | with_reducible refine SameAll.trans (dropUse_core ..) ?_ | with_reducible refine SameAll.trans (releaseLate_core ..) ?_ | with_reducible refine SameAll.trans (endCinch_core ..) ?_ | with_reducible refine SameAll.trans (SameAll.foldl (fun _ _ => ?_) _ _) ?_ | with_reducible refine SameAll.trans (SameAll.foldr (fun _ _ => ?_) _ _) ?_ | with_reducible refine SameAll.trans ⟨rfl, rfl, rfl⟩ ?_)); done) | (refine SameAll.foldl ?_ _ _; intro st x; (try dsimp only); (repeat' split); all_goals (first | (simp [SameAll]; done) | (simp_all [SameAll]; done) | grind [SameAll])))

@[simp] theorem abortCinch_copies (i cause status failing : Nat) (s : State) : (abortCinch i cause status failing s).lc.copies = s.lc.copies := (abortCinch_core i cause status failing s).1

@[simp] theorem abortCinch_life (i cause status failing : Nat) (s : State) : (abortCinch i cause status failing s).fv.life = s.fv.life := (abortCinch_core i cause status failing s).2.1

@[simp] theorem abortCinch_pending (i cause status failing : Nat) (s : State) : (abortCinch i cause status failing s).pending = s.pending := (abortCinch_core i cause status failing s).2.2

theorem cinchBoundary_core (s : State) : SameAll (cinchBoundary s) s := by
  unfold cinchBoundary
  try dsimp only
  repeat' split
  all_goals (first | (simp [SameAll]; done) | exact ⟨rfl, rfl, rfl⟩ | (simp_all [SameAll]; done) | grind [SameAll] | (simp [SameAll]; grind [SameAll]) | (simp +zetaDelta [SameAll]; done) | ((try dsimp only); (repeat' (first | (exact SameAll.refl _) | assumption | (simp [SameAll]; done) | split | with_reducible refine SameAll.trans (abortCinch_core ..) ?_ | with_reducible refine SameAll.trans (SameAll.foldl (fun _ _ => ?_) _ _) ?_ | with_reducible refine SameAll.trans (SameAll.foldr (fun _ _ => ?_) _ _) ?_ | with_reducible refine SameAll.trans ⟨rfl, rfl, rfl⟩ ?_)); done) | (refine SameAll.foldl ?_ _ _; intro st x; (try dsimp only); (repeat' split); all_goals (first | (simp [SameAll]; done) | (simp_all [SameAll]; done) | grind [SameAll])))

@[simp] theorem cinchBoundary_copies (s : State) : (cinchBoundary s).lc.copies = s.lc.copies := (cinchBoundary_core s).1

@[simp] theorem cinchBoundary_life (s : State) : (cinchBoundary s).fv.life = s.fv.life := (cinchBoundary_core s).2.1

@[simp] theorem cinchBoundary_pending (s : State) : (cinchBoundary s).pending = s.pending := (cinchBoundary_core s).2.2

theorem cinchCoreFence_core (c : Nat) (s : State) : SameAll (cinchCoreFence c s) s := by
  unfold cinchCoreFence
  try dsimp only
  repeat' split
  all_goals (first | (simp [SameAll]; done) | exact ⟨rfl, rfl, rfl⟩ | (simp_all [SameAll]; done) | grind [SameAll] | (simp [SameAll]; grind [SameAll]) | (simp +zetaDelta [SameAll]; done) | ((try dsimp only); (repeat' (first | (exact SameAll.refl _) | assumption | (simp [SameAll]; done) | split | with_reducible refine SameAll.trans (updCinch_core ..) ?_ | with_reducible refine SameAll.trans (pushNoteq_core ..) ?_ | with_reducible refine SameAll.trans (markAbort_core ..) ?_ | with_reducible refine SameAll.trans (freeCinch_core ..) ?_ | with_reducible refine SameAll.trans (SameAll.foldl (fun _ _ => ?_) _ _) ?_ | with_reducible refine SameAll.trans (SameAll.foldr (fun _ _ => ?_) _ _) ?_ | with_reducible refine SameAll.trans ⟨rfl, rfl, rfl⟩ ?_)); done) | (refine SameAll.foldl ?_ _ _; intro st x; (try dsimp only); (repeat' split); all_goals (first | (simp [SameAll]; done) | (simp_all [SameAll]; done) | grind [SameAll])))

@[simp] theorem cinchCoreFence_copies (c : Nat) (s : State) : (cinchCoreFence c s).lc.copies = s.lc.copies := (cinchCoreFence_core c s).1

@[simp] theorem cinchCoreFence_life (c : Nat) (s : State) : (cinchCoreFence c s).fv.life = s.fv.life := (cinchCoreFence_core c s).2.1

@[simp] theorem cinchCoreFence_pending (c : Nat) (s : State) : (cinchCoreFence c s).pending = s.pending := (cinchCoreFence_core c s).2.2

theorem stageOutput_core (r : Req) (c h job span dst : Nat) (hostDst : Bool) (s : State) : SameAll (stageOutput r c h job span dst hostDst s).2 s := by
  unfold stageOutput
  try dsimp only
  repeat' split
  all_goals (first | (simp [SameAll]; done) | exact ⟨rfl, rfl, rfl⟩ | (simp_all [SameAll]; done) | grind [SameAll] | (simp [SameAll]; grind [SameAll]) | (simp +zetaDelta [SameAll]; done) | ((try dsimp only); (repeat' (first | (exact SameAll.refl _) | assumption | (simp [SameAll]; done) | split | with_reducible refine SameAll.trans (updCinch_core ..) ?_ | with_reducible refine SameAll.trans (SameAll.foldl (fun _ _ => ?_) _ _) ?_ | with_reducible refine SameAll.trans (SameAll.foldr (fun _ _ => ?_) _ _) ?_ | with_reducible refine SameAll.trans ⟨rfl, rfl, rfl⟩ ?_)); done) | (refine SameAll.foldl ?_ _ _; intro st x; (try dsimp only); (repeat' split); all_goals (first | (simp [SameAll]; done) | (simp_all [SameAll]; done) | grind [SameAll])))

@[simp] theorem stageOutput_copies (r : Req) (c h job span dst : Nat) (hostDst : Bool) (s : State) : (stageOutput r c h job span dst hostDst s).2.lc.copies = s.lc.copies := (stageOutput_core r c h job span dst hostDst s).1

@[simp] theorem stageOutput_life (r : Req) (c h job span dst : Nat) (hostDst : Bool) (s : State) : (stageOutput r c h job span dst hostDst s).2.fv.life = s.fv.life := (stageOutput_core r c h job span dst hostDst s).2.1

@[simp] theorem stageOutput_pending (r : Req) (c h job span dst : Nat) (hostDst : Bool) (s : State) : (stageOutput r c h job span dst hostDst s).2.pending = s.pending := (stageOutput_core r c h job span dst hostDst s).2.2

theorem endHeld_core (slot act job status : Nat) (data : List Byte) (s : State) : SameAll (endHeld slot act job status data s) s := by
  unfold endHeld
  try dsimp only
  repeat' split
  all_goals (first | (simp [SameAll]; done) | exact ⟨rfl, rfl, rfl⟩ | (simp_all [SameAll]; done) | grind [SameAll] | (simp [SameAll]; grind [SameAll]) | (simp +zetaDelta [SameAll]; done) | ((try dsimp only); (repeat' (first | (exact SameAll.refl _) | assumption | (simp [SameAll]; done) | split | with_reducible refine SameAll.trans (updCinch_core ..) ?_ | with_reducible refine SameAll.trans (markAbort_core ..) ?_ | with_reducible refine SameAll.trans (SameAll.foldl (fun _ _ => ?_) _ _) ?_ | with_reducible refine SameAll.trans (SameAll.foldr (fun _ _ => ?_) _ _) ?_ | with_reducible refine SameAll.trans ⟨rfl, rfl, rfl⟩ ?_)); done) | (refine SameAll.foldl ?_ _ _; intro st x; (try dsimp only); (repeat' split); all_goals (first | (simp [SameAll]; done) | (simp_all [SameAll]; done) | grind [SameAll])))

@[simp] theorem endHeld_copies (slot act job status : Nat) (data : List Byte) (s : State) : (endHeld slot act job status data s).lc.copies = s.lc.copies := (endHeld_core slot act job status data s).1

@[simp] theorem endHeld_life (slot act job status : Nat) (data : List Byte) (s : State) : (endHeld slot act job status data s).fv.life = s.fv.life := (endHeld_core slot act job status data s).2.1

@[simp] theorem endHeld_pending (slot act job status : Nat) (data : List Byte) (s : State) : (endHeld slot act job status data s).pending = s.pending := (endHeld_core slot act job status data s).2.2

theorem journalOutcome_core (i result cause cred : Nat) (s : State) : SameAll (journalOutcome i result cause cred s) s := by
  unfold journalOutcome
  try dsimp only
  repeat' split
  all_goals (first | (simp [SameAll]; done) | exact ⟨rfl, rfl, rfl⟩ | (simp_all [SameAll]; done) | grind [SameAll] | (simp [SameAll]; grind [SameAll]) | (simp +zetaDelta [SameAll]; done) | ((try dsimp only); (repeat' (first | (exact SameAll.refl _) | assumption | (simp [SameAll]; done) | split | with_reducible refine SameAll.trans (updCinch_core ..) ?_ | with_reducible refine SameAll.trans (joinBatch_core ..) ?_ | with_reducible refine SameAll.trans (SameAll.foldl (fun _ _ => ?_) _ _) ?_ | with_reducible refine SameAll.trans (SameAll.foldr (fun _ _ => ?_) _ _) ?_ | with_reducible refine SameAll.trans ⟨rfl, rfl, rfl⟩ ?_)); done) | (refine SameAll.foldl ?_ _ _; intro st x; (try dsimp only); (repeat' split); all_goals (first | (simp [SameAll]; done) | (simp_all [SameAll]; done) | grind [SameAll])))

@[simp] theorem journalOutcome_copies (i result cause cred : Nat) (s : State) : (journalOutcome i result cause cred s).lc.copies = s.lc.copies := (journalOutcome_core i result cause cred s).1

@[simp] theorem journalOutcome_life (i result cause cred : Nat) (s : State) : (journalOutcome i result cause cred s).fv.life = s.fv.life := (journalOutcome_core i result cause cred s).2.1

@[simp] theorem journalOutcome_pending (i result cause cred : Nat) (s : State) : (journalOutcome i result cause cred s).pending = s.pending := (journalOutcome_core i result cause cred s).2.2

theorem journalClosed_core (i : Nat) (s : State) : SameAll (journalClosed i s) s := by
  unfold journalClosed
  try dsimp only
  repeat' split
  all_goals (first | (simp [SameAll]; done) | exact ⟨rfl, rfl, rfl⟩ | (simp_all [SameAll]; done) | grind [SameAll] | (simp [SameAll]; grind [SameAll]) | (simp +zetaDelta [SameAll]; done) | ((try dsimp only); (repeat' (first | (exact SameAll.refl _) | assumption | (simp [SameAll]; done) | split | with_reducible refine SameAll.trans (joinBatch_core ..) ?_ | with_reducible refine SameAll.trans (SameAll.foldl (fun _ _ => ?_) _ _) ?_ | with_reducible refine SameAll.trans (SameAll.foldr (fun _ _ => ?_) _ _) ?_ | with_reducible refine SameAll.trans ⟨rfl, rfl, rfl⟩ ?_)); done) | (refine SameAll.foldl ?_ _ _; intro st x; (try dsimp only); (repeat' split); all_goals (first | (simp [SameAll]; done) | (simp_all [SameAll]; done) | grind [SameAll])))

@[simp] theorem journalClosed_copies (i : Nat) (s : State) : (journalClosed i s).lc.copies = s.lc.copies := (journalClosed_core i s).1

@[simp] theorem journalClosed_life (i : Nat) (s : State) : (journalClosed i s).fv.life = s.fv.life := (journalClosed_core i s).2.1

@[simp] theorem journalClosed_pending (i : Nat) (s : State) : (journalClosed i s).pending = s.pending := (journalClosed_core i s).2.2

theorem takeCommitSlot_core (p : Nat) (s : State) : SameAll (takeCommitSlot p s) s := by
  unfold takeCommitSlot
  try dsimp only
  repeat' split
  all_goals (first | (simp [SameAll]; done) | exact ⟨rfl, rfl, rfl⟩ | (simp_all [SameAll]; done) | grind [SameAll] | (simp [SameAll]; grind [SameAll]) | (simp +zetaDelta [SameAll]; done) | ((try dsimp only); (repeat' (first | (exact SameAll.refl _) | assumption | (simp [SameAll]; done) | split | with_reducible refine SameAll.trans (SameAll.foldl (fun _ _ => ?_) _ _) ?_ | with_reducible refine SameAll.trans (SameAll.foldr (fun _ _ => ?_) _ _) ?_ | with_reducible refine SameAll.trans ⟨rfl, rfl, rfl⟩ ?_)); done) | (refine SameAll.foldl ?_ _ _; intro st x; (try dsimp only); (repeat' split); all_goals (first | (simp [SameAll]; done) | (simp_all [SameAll]; done) | grind [SameAll])))

@[simp] theorem takeCommitSlot_copies (p : Nat) (s : State) : (takeCommitSlot p s).lc.copies = s.lc.copies := (takeCommitSlot_core p s).1

@[simp] theorem takeCommitSlot_life (p : Nat) (s : State) : (takeCommitSlot p s).fv.life = s.fv.life := (takeCommitSlot_core p s).2.1

@[simp] theorem takeCommitSlot_pending (p : Nat) (s : State) : (takeCommitSlot p s).pending = s.pending := (takeCommitSlot_core p s).2.2

theorem reclaimJournal_core (s : State) : SameAll (reclaimJournal s) s := by
  unfold reclaimJournal
  try dsimp only
  repeat' split
  all_goals (first | (simp [SameAll]; done) | exact ⟨rfl, rfl, rfl⟩ | (simp_all [SameAll]; done) | grind [SameAll] | (simp [SameAll]; grind [SameAll]) | (simp +zetaDelta [SameAll]; done) | ((try dsimp only); (repeat' (first | (exact SameAll.refl _) | assumption | (simp [SameAll]; done) | split | with_reducible refine SameAll.trans (SameAll.foldl (fun _ _ => ?_) _ _) ?_ | with_reducible refine SameAll.trans (SameAll.foldr (fun _ _ => ?_) _ _) ?_ | with_reducible refine SameAll.trans ⟨rfl, rfl, rfl⟩ ?_)); done) | (refine SameAll.foldl ?_ _ _; intro st x; (try dsimp only); (repeat' split); all_goals (first | (simp [SameAll]; done) | (simp_all [SameAll]; done) | grind [SameAll])))

@[simp] theorem reclaimJournal_copies (s : State) : (reclaimJournal s).lc.copies = s.lc.copies := (reclaimJournal_core s).1

@[simp] theorem reclaimJournal_life (s : State) : (reclaimJournal s).fv.life = s.fv.life := (reclaimJournal_core s).2.1

@[simp] theorem reclaimJournal_pending (s : State) : (reclaimJournal s).pending = s.pending := (reclaimJournal_core s).2.2

theorem putRecord_core (p table : Nat) (key : List Byte) (v : Option (List Byte)) (dseq : Nat) (s : State) : SameAll (putRecord p table key v dseq s) s := by
  unfold putRecord
  try dsimp only
  repeat' split
  all_goals (first | (simp [SameAll]; done) | exact ⟨rfl, rfl, rfl⟩ | (simp_all [SameAll]; done) | grind [SameAll] | (simp [SameAll]; grind [SameAll]) | (simp +zetaDelta [SameAll]; done) | ((try dsimp only); (repeat' (first | (exact SameAll.refl _) | assumption | (simp [SameAll]; done) | split | with_reducible refine SameAll.trans (SameAll.foldl (fun _ _ => ?_) _ _) ?_ | with_reducible refine SameAll.trans (SameAll.foldr (fun _ _ => ?_) _ _) ?_ | with_reducible refine SameAll.trans ⟨rfl, rfl, rfl⟩ ?_)); done) | (refine SameAll.foldl ?_ _ _; intro st x; (try dsimp only); (repeat' split); all_goals (first | (simp [SameAll]; done) | (simp_all [SameAll]; done) | grind [SameAll])))

@[simp] theorem putRecord_copies (p table : Nat) (key : List Byte) (v : Option (List Byte)) (dseq : Nat) (s : State) : (putRecord p table key v dseq s).lc.copies = s.lc.copies := (putRecord_core p table key v dseq s).1

@[simp] theorem putRecord_life (p table : Nat) (key : List Byte) (v : Option (List Byte)) (dseq : Nat) (s : State) : (putRecord p table key v dseq s).fv.life = s.fv.life := (putRecord_core p table key v dseq s).2.1

@[simp] theorem putRecord_pending (p table : Nat) (key : List Byte) (v : Option (List Byte)) (dseq : Nat) (s : State) : (putRecord p table key v dseq s).pending = s.pending := (putRecord_core p table key v dseq s).2.2

theorem feedEntry_core (p code idx handle dseq : Nat) (data : List Byte) (s : State) : SameAll (feedEntry p code idx handle dseq data s) s := by
  unfold feedEntry
  try dsimp only
  repeat' split
  all_goals (first | (simp [SameAll]; done) | exact ⟨rfl, rfl, rfl⟩ | (simp_all [SameAll]; done) | grind [SameAll] | (simp [SameAll]; grind [SameAll]) | (simp +zetaDelta [SameAll]; done) | ((try dsimp only); (repeat' (first | (exact SameAll.refl _) | assumption | (simp [SameAll]; done) | split | with_reducible refine SameAll.trans (setEventIf_core ..) ?_ | with_reducible refine SameAll.trans (SameAll.foldl (fun _ _ => ?_) _ _) ?_ | with_reducible refine SameAll.trans (SameAll.foldr (fun _ _ => ?_) _ _) ?_ | with_reducible refine SameAll.trans ⟨rfl, rfl, rfl⟩ ?_)); done) | (refine SameAll.foldl ?_ _ _; intro st x; (try dsimp only); (repeat' split); all_goals (first | (simp [SameAll]; done) | (simp_all [SameAll]; done) | grind [SameAll])))

@[simp] theorem feedEntry_copies (p code idx handle dseq : Nat) (data : List Byte) (s : State) : (feedEntry p code idx handle dseq data s).lc.copies = s.lc.copies := (feedEntry_core p code idx handle dseq data s).1

@[simp] theorem feedEntry_life (p code idx handle dseq : Nat) (data : List Byte) (s : State) : (feedEntry p code idx handle dseq data s).fv.life = s.fv.life := (feedEntry_core p code idx handle dseq data s).2.1

@[simp] theorem feedEntry_pending (p code idx handle dseq : Nat) (data : List Byte) (s : State) : (feedEntry p code idx handle dseq data s).pending = s.pending := (feedEntry_core p code idx handle dseq data s).2.2

theorem applyAction_core (x : Cinch) (i idx : Nat) (a : Action) (s : State) : SameAll (applyAction x i idx a s) s := by
  unfold applyAction
  try dsimp only
  repeat' split
  all_goals (first | (simp [SameAll]; done) | exact ⟨rfl, rfl, rfl⟩ | (simp_all [SameAll]; done) | grind [SameAll] | (simp [SameAll]; grind [SameAll]) | (simp +zetaDelta [SameAll]; done) | ((try dsimp only); (repeat' (first | (exact SameAll.refl _) | assumption | (simp [SameAll]; done) | split | with_reducible refine SameAll.trans (updTack_core ..) ?_ | with_reducible refine SameAll.trans (countNow_core ..) ?_ | with_reducible refine SameAll.trans (retireTack_core ..) ?_ | with_reducible refine SameAll.trans (linkTack_core ..) ?_ | with_reducible refine SameAll.trans (putRecord_core ..) ?_ | with_reducible refine SameAll.trans (feedEntry_core ..) ?_ | with_reducible refine SameAll.trans (SameAll.foldl (fun _ _ => ?_) _ _) ?_ | with_reducible refine SameAll.trans (SameAll.foldr (fun _ _ => ?_) _ _) ?_ | with_reducible refine SameAll.trans ⟨rfl, rfl, rfl⟩ ?_)); done) | (refine SameAll.foldl ?_ _ _; intro st x; (try dsimp only); (repeat' split); all_goals (first | (simp [SameAll]; done) | (simp_all [SameAll]; done) | grind [SameAll])))

@[simp] theorem applyAction_copies (x : Cinch) (i idx : Nat) (a : Action) (s : State) : (applyAction x i idx a s).lc.copies = s.lc.copies := (applyAction_core x i idx a s).1

@[simp] theorem applyAction_life (x : Cinch) (i idx : Nat) (a : Action) (s : State) : (applyAction x i idx a s).fv.life = s.fv.life := (applyAction_core x i idx a s).2.1

@[simp] theorem applyAction_pending (x : Cinch) (i idx : Nat) (a : Action) (s : State) : (applyAction x i idx a s).pending = s.pending := (applyAction_core x i idx a s).2.2

theorem copyPart_core (p : Nat) (h : Held) (off : Nat) (bs : List Byte) (s : State) : SameAll (copyPart p h off bs s) s := by
  unfold copyPart
  try dsimp only
  repeat' split
  all_goals (first | (simp [SameAll]; done) | exact ⟨rfl, rfl, rfl⟩ | (simp_all [SameAll]; done) | grind [SameAll, busWrite_core] | (simp [SameAll]; grind [SameAll, busWrite_core]) | (simp +zetaDelta [SameAll]; done) | ((try dsimp only); (repeat' (first | (exact SameAll.refl _) | assumption | (simp [SameAll]; done) | split | with_reducible refine SameAll.trans (hostPut_core ..) ?_ | with_reducible refine SameAll.trans (busWrite_core ..) ?_ | with_reducible refine SameAll.trans (SameAll.foldl (fun _ _ => ?_) _ _) ?_ | with_reducible refine SameAll.trans (SameAll.foldr (fun _ _ => ?_) _ _) ?_ | with_reducible refine SameAll.trans ⟨rfl, rfl, rfl⟩ ?_)); done) | (refine SameAll.foldl ?_ _ _; intro st x; (try dsimp only); (repeat' split); all_goals (first | (simp [SameAll]; done) | (simp_all [SameAll]; done) | grind [SameAll, busWrite_core])))

@[simp] theorem copyPart_copies (p : Nat) (h : Held) (off : Nat) (bs : List Byte) (s : State) : (copyPart p h off bs s).lc.copies = s.lc.copies := (copyPart_core p h off bs s).1

@[simp] theorem copyPart_life (p : Nat) (h : Held) (off : Nat) (bs : List Byte) (s : State) : (copyPart p h off bs s).fv.life = s.fv.life := (copyPart_core p h off bs s).2.1

@[simp] theorem copyPart_pending (p : Nat) (h : Held) (off : Nat) (bs : List Byte) (s : State) : (copyPart p h off bs s).pending = s.pending := (copyPart_core p h off bs s).2.2

theorem copySlice_core (p lo : Nat) (outs : List Held) (s : State) : SameAll (copySlice p lo outs s) s := by
  unfold copySlice
  try dsimp only
  repeat' split
  all_goals (first | (simp [SameAll]; done) | exact ⟨rfl, rfl, rfl⟩ | (simp_all [SameAll]; done) | grind [SameAll] | (simp [SameAll]; grind [SameAll]) | (simp +zetaDelta [SameAll]; done) | ((try dsimp only); (repeat' (first | (exact SameAll.refl _) | assumption | (simp [SameAll]; done) | split | with_reducible refine SameAll.trans (copyPart_core ..) ?_ | with_reducible refine SameAll.trans (SameAll.foldl (fun _ _ => ?_) _ _) ?_ | with_reducible refine SameAll.trans (SameAll.foldr (fun _ _ => ?_) _ _) ?_ | with_reducible refine SameAll.trans ⟨rfl, rfl, rfl⟩ ?_)); done) | (refine SameAll.foldl ?_ _ _; intro st x; (try dsimp only); (repeat' split); all_goals (first | (simp [SameAll]; done) | (simp_all [SameAll]; done) | grind [SameAll])))

@[simp] theorem copySlice_copies (p lo : Nat) (outs : List Held) (s : State) : (copySlice p lo outs s).lc.copies = s.lc.copies := (copySlice_core p lo outs s).1

@[simp] theorem copySlice_life (p lo : Nat) (outs : List Held) (s : State) : (copySlice p lo outs s).fv.life = s.fv.life := (copySlice_core p lo outs s).2.1

@[simp] theorem copySlice_pending (p lo : Nat) (outs : List Held) (s : State) : (copySlice p lo outs s).pending = s.pending := (copySlice_core p lo outs s).2.2

theorem checkCopies_core (i : Nat) (s : State) : SameAll (checkCopies i s) s := by
  unfold checkCopies
  try dsimp only
  repeat' split
  all_goals (first | (simp [SameAll]; done) | exact ⟨rfl, rfl, rfl⟩ | (simp_all [SameAll]; done) | grind [SameAll] | (simp [SameAll]; grind [SameAll]) | (simp +zetaDelta [SameAll]; done) | ((try dsimp only); (repeat' (first | (exact SameAll.refl _) | assumption | (simp [SameAll]; done) | split | with_reducible refine SameAll.trans (setEvent_core ..) ?_ | with_reducible refine SameAll.trans (noteRefused_core ..) ?_ | with_reducible refine SameAll.trans (updCinch_core ..) ?_ | with_reducible refine SameAll.trans (SameAll.foldl (fun _ _ => ?_) _ _) ?_ | with_reducible refine SameAll.trans (SameAll.foldr (fun _ _ => ?_) _ _) ?_ | with_reducible refine SameAll.trans ⟨rfl, rfl, rfl⟩ ?_)); done) | (refine SameAll.foldl ?_ _ _; intro st x; (try dsimp only); (repeat' split); all_goals (first | (simp [SameAll]; done) | (simp_all [SameAll]; done) | grind [SameAll])))

@[simp] theorem checkCopies_copies (i : Nat) (s : State) : (checkCopies i s).lc.copies = s.lc.copies := (checkCopies_core i s).1

@[simp] theorem checkCopies_life (i : Nat) (s : State) : (checkCopies i s).fv.life = s.fv.life := (checkCopies_core i s).2.1

@[simp] theorem checkCopies_pending (i : Nat) (s : State) : (checkCopies i s).pending = s.pending := (checkCopies_core i s).2.2

theorem applyCopies_core (i : Nat) (s : State) : SameAll (applyCopies i s) s := by
  unfold applyCopies
  try dsimp only
  repeat' split
  all_goals (first | (simp [SameAll]; done) | exact ⟨rfl, rfl, rfl⟩ | (simp_all [SameAll]; done) | grind [SameAll] | (simp [SameAll]; grind [SameAll]) | (simp +zetaDelta [SameAll]; done) | ((try dsimp only); (repeat' (first | (exact SameAll.refl _) | assumption | (simp [SameAll]; done) | split | with_reducible refine SameAll.trans (updCinch_core ..) ?_ | with_reducible refine SameAll.trans (journalDone_core ..) ?_ | with_reducible refine SameAll.trans (endCinch_core ..) ?_ | with_reducible refine SameAll.trans (copySlice_core ..) ?_ | with_reducible refine SameAll.trans (SameAll.foldl (fun _ _ => ?_) _ _) ?_ | with_reducible refine SameAll.trans (SameAll.foldr (fun _ _ => ?_) _ _) ?_ | with_reducible refine SameAll.trans ⟨rfl, rfl, rfl⟩ ?_)); done) | (refine SameAll.foldl ?_ _ _; intro st x; (try dsimp only); (repeat' split); all_goals (first | (simp [SameAll]; done) | (simp_all [SameAll]; done) | grind [SameAll])))

@[simp] theorem applyCopies_copies (i : Nat) (s : State) : (applyCopies i s).lc.copies = s.lc.copies := (applyCopies_core i s).1

@[simp] theorem applyCopies_life (i : Nat) (s : State) : (applyCopies i s).fv.life = s.fv.life := (applyCopies_core i s).2.1

@[simp] theorem applyCopies_pending (i : Nat) (s : State) : (applyCopies i s).pending = s.pending := (applyCopies_core i s).2.2

theorem applyCinch_core (i : Nat) (s : State) : SameAll (applyCinch i s) s := by
  unfold applyCinch
  try dsimp only
  repeat' split
  all_goals (first | (simp [SameAll]; done) | exact ⟨rfl, rfl, rfl⟩ | (simp_all [SameAll]; done) | grind [SameAll] | (simp [SameAll]; grind [SameAll]) | (simp +zetaDelta [SameAll]; done) | ((try dsimp only); (repeat' (first | (exact SameAll.refl _) | assumption | (simp [SameAll]; done) | split | with_reducible refine SameAll.trans (updCinch_core ..) ?_ | with_reducible refine SameAll.trans (applyAction_core ..) ?_ | with_reducible refine SameAll.trans (checkCopies_core ..) ?_ | with_reducible refine SameAll.trans (applyCopies_core ..) ?_ | with_reducible refine SameAll.trans (SameAll.foldl (fun _ _ => ?_) _ _) ?_ | with_reducible refine SameAll.trans (SameAll.foldr (fun _ _ => ?_) _ _) ?_ | with_reducible refine SameAll.trans ⟨rfl, rfl, rfl⟩ ?_)); done) | (refine SameAll.foldl ?_ _ _; intro st x; (try dsimp only); (repeat' split); all_goals (first | (simp [SameAll]; done) | (simp_all [SameAll]; done) | grind [SameAll])))

@[simp] theorem applyCinch_copies (i : Nat) (s : State) : (applyCinch i s).lc.copies = s.lc.copies := (applyCinch_core i s).1

@[simp] theorem applyCinch_life (i : Nat) (s : State) : (applyCinch i s).fv.life = s.fv.life := (applyCinch_core i s).2.1

@[simp] theorem applyCinch_pending (i : Nat) (s : State) : (applyCinch i s).pending = s.pending := (applyCinch_core i s).2.2

theorem forceOutcome_core (commit : Bool) (cred : Nat) (s : State) : SameAll (forceOutcome commit cred s).2 s := by
  unfold forceOutcome
  try dsimp only
  repeat' split
  all_goals (first | (simp [SameAll]; done) | exact ⟨rfl, rfl, rfl⟩ | (simp_all [SameAll]; done) | grind [SameAll] | (simp [SameAll]; grind [SameAll]) | (simp +zetaDelta [SameAll]; done) | ((try dsimp only); (repeat' (first | (exact SameAll.refl _) | assumption | (simp [SameAll]; done) | split | with_reducible refine SameAll.trans (setEvent_core ..) ?_ | with_reducible refine SameAll.trans (itemAdd_core ..) ?_ | with_reducible refine SameAll.trans (ledgerEvent_core ..) ?_ | with_reducible refine SameAll.trans (updCinch_core ..) ?_ | with_reducible refine SameAll.trans (journalOutcome_core ..) ?_ | with_reducible refine SameAll.trans (SameAll.foldl (fun _ _ => ?_) _ _) ?_ | with_reducible refine SameAll.trans (SameAll.foldr (fun _ _ => ?_) _ _) ?_ | with_reducible refine SameAll.trans ⟨rfl, rfl, rfl⟩ ?_)); done) | (refine SameAll.foldl ?_ _ _; intro st x; (try dsimp only); (repeat' split); all_goals (first | (simp [SameAll]; done) | (simp_all [SameAll]; done) | grind [SameAll])))

@[simp] theorem forceOutcome_copies (commit : Bool) (cred : Nat) (s : State) : (forceOutcome commit cred s).2.lc.copies = s.lc.copies := (forceOutcome_core commit cred s).1

@[simp] theorem forceOutcome_life (commit : Bool) (cred : Nat) (s : State) : (forceOutcome commit cred s).2.fv.life = s.fv.life := (forceOutcome_core commit cred s).2.1

@[simp] theorem forceOutcome_pending (commit : Bool) (cred : Nat) (s : State) : (forceOutcome commit cred s).2.pending = s.pending := (forceOutcome_core commit cred s).2.2

theorem writeCnQuota_core (hold : Bool) (v : W32) (s : State) : SameAll (writeCnQuota hold v s) s := by
  unfold writeCnQuota
  try dsimp only
  repeat' split
  all_goals (first | (simp [SameAll]; done) | exact ⟨rfl, rfl, rfl⟩ | (simp_all [SameAll]; done) | grind [SameAll] | (simp [SameAll]; grind [SameAll]) | (simp +zetaDelta [SameAll]; done) | ((try dsimp only); (repeat' (first | (exact SameAll.refl _) | assumption | (simp [SameAll]; done) | split | with_reducible refine SameAll.trans (setEvent_core ..) ?_ | with_reducible refine SameAll.trans (SameAll.foldl (fun _ _ => ?_) _ _) ?_ | with_reducible refine SameAll.trans (SameAll.foldr (fun _ _ => ?_) _ _) ?_ | with_reducible refine SameAll.trans ⟨rfl, rfl, rfl⟩ ?_)); done) | (refine SameAll.foldl ?_ _ _; intro st x; (try dsimp only); (repeat' split); all_goals (first | (simp [SameAll]; done) | (simp_all [SameAll]; done) | grind [SameAll])))

@[simp] theorem writeCnQuota_copies (hold : Bool) (v : W32) (s : State) : (writeCnQuota hold v s).lc.copies = s.lc.copies := (writeCnQuota_core hold v s).1

@[simp] theorem writeCnQuota_life (hold : Bool) (v : W32) (s : State) : (writeCnQuota hold v s).fv.life = s.fv.life := (writeCnQuota_core hold v s).2.1

@[simp] theorem writeCnQuota_pending (hold : Bool) (v : W32) (s : State) : (writeCnQuota hold v s).pending = s.pending := (writeCnQuota_core hold v s).2.2

theorem readNoteq_core (s : State) : SameAll (readNoteq s).2 s := by
  unfold readNoteq
  try dsimp only
  repeat' split
  all_goals (first | (simp [SameAll]; done) | exact ⟨rfl, rfl, rfl⟩ | (simp_all [SameAll]; done) | grind [SameAll] | (simp [SameAll]; grind [SameAll]) | (simp +zetaDelta [SameAll]; done) | ((try dsimp only); (repeat' (first | (exact SameAll.refl _) | assumption | (simp [SameAll]; done) | split | with_reducible refine SameAll.trans (SameAll.foldl (fun _ _ => ?_) _ _) ?_ | with_reducible refine SameAll.trans (SameAll.foldr (fun _ _ => ?_) _ _) ?_ | with_reducible refine SameAll.trans ⟨rfl, rfl, rfl⟩ ?_)); done) | (refine SameAll.foldl ?_ _ _; intro st x; (try dsimp only); (repeat' split); all_goals (first | (simp [SameAll]; done) | (simp_all [SameAll]; done) | grind [SameAll])))

@[simp] theorem readNoteq_copies (s : State) : (readNoteq s).2.lc.copies = s.lc.copies := (readNoteq_core s).1

@[simp] theorem readNoteq_life (s : State) : (readNoteq s).2.fv.life = s.fv.life := (readNoteq_core s).2.1

@[simp] theorem readNoteq_pending (s : State) : (readNoteq s).2.pending = s.pending := (readNoteq_core s).2.2

theorem countDoubt_core (dseq : Nat) (s : State) : SameAll (countDoubt dseq s) s := by
  unfold countDoubt
  try dsimp only
  repeat' split
  all_goals (first | (simp [SameAll]; done) | exact ⟨rfl, rfl, rfl⟩ | (simp_all [SameAll]; done) | grind [SameAll] | (simp [SameAll]; grind [SameAll]) | (simp +zetaDelta [SameAll]; done) | ((try dsimp only); (repeat' (first | (exact SameAll.refl _) | assumption | (simp [SameAll]; done) | split | with_reducible refine SameAll.trans (itemAdd_core ..) ?_ | with_reducible refine SameAll.trans (SameAll.foldl (fun _ _ => ?_) _ _) ?_ | with_reducible refine SameAll.trans (SameAll.foldr (fun _ _ => ?_) _ _) ?_ | with_reducible refine SameAll.trans ⟨rfl, rfl, rfl⟩ ?_)); done) | (refine SameAll.foldl ?_ _ _; intro st x; (try dsimp only); (repeat' split); all_goals (first | (simp [SameAll]; done) | (simp_all [SameAll]; done) | grind [SameAll])))

@[simp] theorem countDoubt_copies (dseq : Nat) (s : State) : (countDoubt dseq s).lc.copies = s.lc.copies := (countDoubt_core dseq s).1

@[simp] theorem countDoubt_life (dseq : Nat) (s : State) : (countDoubt dseq s).fv.life = s.fv.life := (countDoubt_core dseq s).2.1

@[simp] theorem countDoubt_pending (dseq : Nat) (s : State) : (countDoubt dseq s).pending = s.pending := (countDoubt_core dseq s).2.2

theorem replayActions_core (f : Found) (feed : Bool) (s : State) : SameAll (replayActions f feed s).2 s := by
  unfold replayActions
  try dsimp only
  repeat' split
  all_goals (first | (simp [SameAll]; done) | exact ⟨rfl, rfl, rfl⟩ | (simp_all [SameAll]; done) | grind [SameAll] | (simp [SameAll]; grind [SameAll]) | (simp +zetaDelta [SameAll]; done) | ((try dsimp only); (repeat' (first | (exact SameAll.refl _) | assumption | (simp [SameAll]; done) | split | with_reducible refine SameAll.trans (applyAction_core ..) ?_ | with_reducible refine SameAll.trans (SameAll.foldl (fun _ _ => ?_) _ _) ?_ | with_reducible refine SameAll.trans (SameAll.foldr (fun _ _ => ?_) _ _) ?_ | with_reducible refine SameAll.trans ⟨rfl, rfl, rfl⟩ ?_)); done) | (refine SameAll.foldl ?_ _ _; intro st x; (try dsimp only); (repeat' split); all_goals (first | (simp [SameAll]; done) | (simp_all [SameAll]; done) | grind [SameAll])))

@[simp] theorem replayActions_copies (f : Found) (feed : Bool) (s : State) : (replayActions f feed s).2.lc.copies = s.lc.copies := (replayActions_core f feed s).1

@[simp] theorem replayActions_life (f : Found) (feed : Bool) (s : State) : (replayActions f feed s).2.fv.life = s.fv.life := (replayActions_core f feed s).2.1

@[simp] theorem replayActions_pending (f : Found) (feed : Bool) (s : State) : (replayActions f feed s).2.pending = s.pending := (replayActions_core f feed s).2.2

theorem restoreDoubt_core (f : Found) (s : State) : SameAll (restoreDoubt f s) s := by
  unfold restoreDoubt
  try dsimp only
  repeat' split
  all_goals (first | (simp [SameAll]; done) | exact ⟨rfl, rfl, rfl⟩ | (simp_all [SameAll]; done) | grind [SameAll] | (simp [SameAll]; grind [SameAll]) | (simp +zetaDelta [SameAll]; done) | ((try dsimp only); (repeat' (first | (exact SameAll.refl _) | assumption | (simp [SameAll]; done) | split | with_reducible refine SameAll.trans (setEvent_core ..) ?_ | with_reducible refine SameAll.trans (setEventIf_core ..) ?_ | with_reducible refine SameAll.trans (setCinch_core ..) ?_ | with_reducible refine SameAll.trans (countDoubt_core ..) ?_ | with_reducible refine SameAll.trans (SameAll.foldl (fun _ _ => ?_) _ _) ?_ | with_reducible refine SameAll.trans (SameAll.foldr (fun _ _ => ?_) _ _) ?_ | with_reducible refine SameAll.trans ⟨rfl, rfl, rfl⟩ ?_)); done) | (refine SameAll.foldl ?_ _ _; intro st x; (try dsimp only); (repeat' split); all_goals (first | (simp [SameAll]; done) | (simp_all [SameAll]; done) | grind [SameAll])))

@[simp] theorem restoreDoubt_copies (f : Found) (s : State) : (restoreDoubt f s).lc.copies = s.lc.copies := (restoreDoubt_core f s).1

@[simp] theorem restoreDoubt_life (f : Found) (s : State) : (restoreDoubt f s).fv.life = s.fv.life := (restoreDoubt_core f s).2.1

@[simp] theorem restoreDoubt_pending (f : Found) (s : State) : (restoreDoubt f s).pending = s.pending := (restoreDoubt_core f s).2.2

theorem replayFound_core (f : Found) (s : State) : SameAll (replayFound f s) s := by
  unfold replayFound
  try dsimp only
  repeat' split
  all_goals (first | (simp [SameAll]; done) | exact ⟨rfl, rfl, rfl⟩ | (simp_all [SameAll]; done) | grind [SameAll, replayActions_core] | (simp [SameAll]; grind [SameAll, replayActions_core]) | (simp +zetaDelta [SameAll]; done) | ((try dsimp only); (repeat' (first | (exact SameAll.refl _) | assumption | (simp [SameAll]; done) | split | with_reducible refine SameAll.trans (setEvent_core ..) ?_ | with_reducible refine SameAll.trans (setEventIf_core ..) ?_ | with_reducible refine SameAll.trans (pushNoteq_core ..) ?_ | with_reducible refine SameAll.trans (joinBatch_core ..) ?_ | with_reducible refine SameAll.trans (journalDone_core ..) ?_ | with_reducible refine SameAll.trans (replayActions_core ..) ?_ | with_reducible refine SameAll.trans (restoreDoubt_core ..) ?_ | with_reducible refine SameAll.trans (SameAll.foldl (fun _ _ => ?_) _ _) ?_ | with_reducible refine SameAll.trans (SameAll.foldr (fun _ _ => ?_) _ _) ?_ | with_reducible refine SameAll.trans ⟨rfl, rfl, rfl⟩ ?_)); done) | (refine SameAll.foldl ?_ _ _; intro st x; (try dsimp only); (repeat' split); all_goals (first | (simp [SameAll]; done) | (simp_all [SameAll]; done) | grind [SameAll, replayActions_core])))

@[simp] theorem replayFound_copies (f : Found) (s : State) : (replayFound f s).lc.copies = s.lc.copies := (replayFound_core f s).1

@[simp] theorem replayFound_life (f : Found) (s : State) : (replayFound f s).fv.life = s.fv.life := (replayFound_core f s).2.1

@[simp] theorem replayFound_pending (f : Found) (s : State) : (replayFound f s).pending = s.pending := (replayFound_core f s).2.2

theorem cinchReplay_core (s : State) : SameAll (cinchReplay s) s := by
  unfold cinchReplay
  try dsimp only
  repeat' split
  all_goals (first | (simp [SameAll]; done) | exact ⟨rfl, rfl, rfl⟩ | (simp_all [SameAll]; done) | grind [SameAll] | (simp [SameAll]; grind [SameAll]) | (simp +zetaDelta [SameAll]; done) | ((try dsimp only); (repeat' (first | (exact SameAll.refl _) | assumption | (simp [SameAll]; done) | split | with_reducible refine SameAll.trans (setEvent_core ..) ?_ | with_reducible refine SameAll.trans (pushNoteq_core ..) ?_ | with_reducible refine SameAll.trans (replayFound_core ..) ?_ | with_reducible refine SameAll.trans (SameAll.foldl (fun _ _ => ?_) _ _) ?_ | with_reducible refine SameAll.trans (SameAll.foldr (fun _ _ => ?_) _ _) ?_ | with_reducible refine SameAll.trans ⟨rfl, rfl, rfl⟩ ?_)); done) | (refine SameAll.foldl ?_ _ _; intro st x; (try dsimp only); (repeat' split); all_goals (first | (simp [SameAll]; done) | (simp_all [SameAll]; done) | grind [SameAll])))

@[simp] theorem cinchReplay_copies (s : State) : (cinchReplay s).lc.copies = s.lc.copies := (cinchReplay_core s).1

@[simp] theorem cinchReplay_life (s : State) : (cinchReplay s).fv.life = s.fv.life := (cinchReplay_core s).2.1

@[simp] theorem cinchReplay_pending (s : State) : (cinchReplay s).pending = s.pending := (cinchReplay_core s).2.2

theorem cinchPowerLoss_core (s : State) : SameAll (cinchPowerLoss s) s := by
  unfold cinchPowerLoss
  try dsimp only
  repeat' split
  all_goals (first | (simp [SameAll]; done) | exact ⟨rfl, rfl, rfl⟩ | (simp_all [SameAll]; done) | grind [SameAll] | (simp [SameAll]; grind [SameAll]) | (simp +zetaDelta [SameAll]; done) | ((try dsimp only); (repeat' (first | (exact SameAll.refl _) | assumption | (simp [SameAll]; done) | split | with_reducible refine SameAll.trans (SameAll.foldl (fun _ _ => ?_) _ _) ?_ | with_reducible refine SameAll.trans (SameAll.foldr (fun _ _ => ?_) _ _) ?_ | with_reducible refine SameAll.trans ⟨rfl, rfl, rfl⟩ ?_)); done) | (refine SameAll.foldl ?_ _ _; intro st x; (try dsimp only); (repeat' split); all_goals (first | (simp [SameAll]; done) | (simp_all [SameAll]; done) | grind [SameAll])))

@[simp] theorem cinchPowerLoss_copies (s : State) : (cinchPowerLoss s).lc.copies = s.lc.copies := (cinchPowerLoss_core s).1

@[simp] theorem cinchPowerLoss_life (s : State) : (cinchPowerLoss s).fv.life = s.fv.life := (cinchPowerLoss_core s).2.1

@[simp] theorem cinchPowerLoss_pending (s : State) : (cinchPowerLoss s).pending = s.pending := (cinchPowerLoss_core s).2.2

theorem cinchRead_same (r : Req) (a n : Nat) (s : State) : SameMem (cinchRead r a n s).2.2 s := by
  unfold cinchRead
  try dsimp only
  repeat' split
  all_goals (first | (simp [SameMem]; done) | exact rfl | (simp_all [SameMem]; done) | grind [SameMem] | (simp [SameMem]; grind [SameMem]) | (simp +zetaDelta [SameMem]; done) | ((try dsimp only); (repeat' (first | (exact SameMem.refl _) | assumption | (simp [SameMem]; done) | split | with_reducible refine SameMem.trans (noteRead_same ..) ?_ | with_reducible refine SameMem.trans (SameMem.foldl (fun _ _ => ?_) _ _) ?_ | with_reducible refine SameMem.trans (SameMem.foldr (fun _ _ => ?_) _ _) ?_ | with_reducible refine SameMem.trans rfl ?_)); done) | (refine SameMem.foldl ?_ _ _; intro st x; (try dsimp only); (repeat' split); all_goals (first | (simp [SameMem]; done) | (simp_all [SameMem]; done) | grind [SameMem])))

@[simp] theorem cinchRead_mem (r : Req) (a n : Nat) (s : State) : (cinchRead r a n s).2.2.mem = s.mem := cinchRead_same r a n s

theorem freeCinch_same (i : Nat) (s : State) : SameMem (freeCinch i s) s := by
  unfold freeCinch
  try dsimp only
  repeat' split
  all_goals (first | (simp [SameMem]; done) | exact rfl | (simp_all [SameMem]; done) | grind [SameMem] | (simp [SameMem]; grind [SameMem]) | (simp +zetaDelta [SameMem]; done) | ((try dsimp only); (repeat' (first | (exact SameMem.refl _) | assumption | (simp [SameMem]; done) | split | with_reducible refine SameMem.trans (updCinch_same ..) ?_ | with_reducible refine SameMem.trans (SameMem.foldl (fun _ _ => ?_) _ _) ?_ | with_reducible refine SameMem.trans (SameMem.foldr (fun _ _ => ?_) _ _) ?_ | with_reducible refine SameMem.trans rfl ?_)); done) | (refine SameMem.foldl ?_ _ _; intro st x; (try dsimp only); (repeat' split); all_goals (first | (simp [SameMem]; done) | (simp_all [SameMem]; done) | grind [SameMem])))

@[simp] theorem freeCinch_mem (i : Nat) (s : State) : (freeCinch i s).mem = s.mem := freeCinch_same i s

theorem stallsAfter_wf (s : State) (x : Cinch) : KeepMem (stallsAfter s x) s := by
  unfold stallsAfter
  try dsimp only
  iterate 30 all_goals (try first | with_reducible exact KeepMem.refl _ | assumption | split | with_reducible refine KeepMem.trans (stallNow_wf ..) ?_ | with_reducible refine KeepMem.trans (KeepMem.foldl (fun _ _ => ?_) _ _) ?_ | with_reducible refine KeepMem.trans (KeepMem.foldr (fun _ _ => ?_) _ _) ?_ | with_reducible refine KeepMem.trans (KeepMem.foldl_fst (fun _ _ => ?_) _ _) ?_ | with_reducible refine KeepMem.trans (KeepMem.foldl_snd (fun _ _ => ?_) _ _) ?_ | with_reducible refine KeepMem.trans (KeepMem.foldl_thd (fun _ _ => ?_) _ _) ?_ | (apply KeepMem.of_eq; simp; done) | with_reducible refine KeepMem.trans (KeepMem.record ..) ?_)

theorem stageIt_wf (i : Nat) (a : Action) (s : State) : KeepMem (stageIt i a s).2 s := by
  unfold stageIt
  try dsimp only
  iterate 30 all_goals (try first | with_reducible exact KeepMem.refl _ | assumption | split | with_reducible refine KeepMem.trans (stallsAfter_wf ..) ?_ | with_reducible refine KeepMem.trans (KeepMem.of_eq (updCinch_mem ..)) ?_ | with_reducible refine KeepMem.trans (KeepMem.of_eq (pendUse_mem ..)) ?_ | with_reducible refine KeepMem.trans (KeepMem.of_eq (drawStall_mem ..)) ?_ | with_reducible refine KeepMem.trans (KeepMem.foldl (fun _ _ => ?_) _ _) ?_ | with_reducible refine KeepMem.trans (KeepMem.foldr (fun _ _ => ?_) _ _) ?_ | with_reducible refine KeepMem.trans (KeepMem.foldl_fst (fun _ _ => ?_) _ _) ?_ | with_reducible refine KeepMem.trans (KeepMem.foldl_snd (fun _ _ => ?_) _ _) ?_ | with_reducible refine KeepMem.trans (KeepMem.foldl_thd (fun _ _ => ?_) _ _) ?_ | (apply KeepMem.of_eq; simp; done) | with_reducible refine KeepMem.trans (KeepMem.record ..) ?_)
  all_goals (first | (apply KeepMem.of_eq; grind [drawStall_mem]))

theorem addReq_same (q : CnReq) (s : State) : SameMem (addReq q s) s := by
  unfold addReq
  try dsimp only
  repeat' split
  all_goals (first | (simp [SameMem]; done) | exact rfl | (simp_all [SameMem]; done) | grind [SameMem] | (simp [SameMem]; grind [SameMem]) | (simp +zetaDelta [SameMem]; done) | ((try dsimp only); (repeat' (first | (exact SameMem.refl _) | assumption | (simp [SameMem]; done) | split | with_reducible refine SameMem.trans (SameMem.foldl (fun _ _ => ?_) _ _) ?_ | with_reducible refine SameMem.trans (SameMem.foldr (fun _ _ => ?_) _ _) ?_ | with_reducible refine SameMem.trans rfl ?_)); done) | (refine SameMem.foldl ?_ _ _; intro st x; (try dsimp only); (repeat' split); all_goals (first | (simp [SameMem]; done) | (simp_all [SameMem]; done) | grind [SameMem])))

@[simp] theorem addReq_mem (q : CnReq) (s : State) : (addReq q s).mem = s.mem := addReq_same q s

theorem cinchOpen_same (r : Req) (c : Nat) (b : List Byte) (h : Nat) (s : State) : SameMem (cinchOpen r c b h s) s := by
  unfold cinchOpen
  try dsimp only
  repeat' split
  all_goals (first | (simp [SameMem]; done) | exact rfl | (simp_all [SameMem]; done) | grind [SameMem] | (simp [SameMem]; grind [SameMem]) | (simp +zetaDelta [SameMem]; done) | ((try dsimp only); (repeat' (first | (exact SameMem.refl _) | assumption | (simp [SameMem]; done) | split | with_reducible refine SameMem.trans (setCinch_same ..) ?_ | with_reducible refine SameMem.trans (addReq_same ..) ?_ | with_reducible refine SameMem.trans (SameMem.foldl (fun _ _ => ?_) _ _) ?_ | with_reducible refine SameMem.trans (SameMem.foldr (fun _ _ => ?_) _ _) ?_ | with_reducible refine SameMem.trans rfl ?_)); done) | (refine SameMem.foldl ?_ _ _; intro st x; (try dsimp only); (repeat' split); all_goals (first | (simp [SameMem]; done) | (simp_all [SameMem]; done) | grind [SameMem])))

@[simp] theorem cinchOpen_mem (r : Req) (c : Nat) (b : List Byte) (h : Nat) (s : State) : (cinchOpen r c b h s).mem = s.mem := cinchOpen_same r c b h s

theorem refuseReq_same (r : Req) (c opc h st : Nat) (s : State) : SameMem (refuseReq r c opc h st s) s := by
  unfold refuseReq
  try dsimp only
  repeat' split
  all_goals (first | (simp [SameMem]; done) | exact rfl | (simp_all [SameMem]; done) | grind [SameMem] | (simp [SameMem]; grind [SameMem]) | (simp +zetaDelta [SameMem]; done) | ((try dsimp only); (repeat' (first | (exact SameMem.refl _) | assumption | (simp [SameMem]; done) | split | with_reducible refine SameMem.trans (addReq_same ..) ?_ | with_reducible refine SameMem.trans (SameMem.foldl (fun _ _ => ?_) _ _) ?_ | with_reducible refine SameMem.trans (SameMem.foldr (fun _ _ => ?_) _ _) ?_ | with_reducible refine SameMem.trans rfl ?_)); done) | (refine SameMem.foldl ?_ _ _; intro st x; (try dsimp only); (repeat' split); all_goals (first | (simp [SameMem]; done) | (simp_all [SameMem]; done) | grind [SameMem])))

@[simp] theorem refuseReq_mem (r : Req) (c opc h st : Nat) (s : State) : (refuseReq r c opc h st s).mem = s.mem := refuseReq_same r c opc h st s

theorem stageFinish_wf (r : Req) (c i h : Nat) (a : Action) (fault : Bool) (s : State) : KeepMem (stageFinish r c i h a fault s) s := by
  unfold stageFinish
  try dsimp only
  iterate 30 all_goals (try first | with_reducible exact KeepMem.refl _ | assumption | split | with_reducible refine KeepMem.trans (stageIt_wf ..) ?_ | with_reducible refine KeepMem.trans (KeepMem.of_eq (markAbort_mem ..)) ?_ | with_reducible refine KeepMem.trans (KeepMem.of_eq (addReq_mem ..)) ?_ | with_reducible refine KeepMem.trans (KeepMem.of_eq (refuseReq_mem ..)) ?_ | with_reducible refine KeepMem.trans (KeepMem.foldl (fun _ _ => ?_) _ _) ?_ | with_reducible refine KeepMem.trans (KeepMem.foldr (fun _ _ => ?_) _ _) ?_ | with_reducible refine KeepMem.trans (KeepMem.foldl_fst (fun _ _ => ?_) _ _) ?_ | with_reducible refine KeepMem.trans (KeepMem.foldl_snd (fun _ _ => ?_) _ _) ?_ | with_reducible refine KeepMem.trans (KeepMem.foldl_thd (fun _ _ => ?_) _ _) ?_ | (apply KeepMem.of_eq; simp; done) | with_reducible refine KeepMem.trans (KeepMem.record ..) ?_)
  all_goals (first | grind [stageIt_wf])

theorem mapReq_same (c : Nat) (f : CnReq → CnReq) (s : State) : SameMem (mapReq c f s) s := by
  unfold mapReq
  try dsimp only
  repeat' split
  all_goals (first | (simp [SameMem]; done) | exact rfl | (simp_all [SameMem]; done) | grind [SameMem] | (simp [SameMem]; grind [SameMem]) | (simp +zetaDelta [SameMem]; done) | ((try dsimp only); (repeat' (first | (exact SameMem.refl _) | assumption | (simp [SameMem]; done) | split | with_reducible refine SameMem.trans (SameMem.foldl (fun _ _ => ?_) _ _) ?_ | with_reducible refine SameMem.trans (SameMem.foldr (fun _ _ => ?_) _ _) ?_ | with_reducible refine SameMem.trans rfl ?_)); done) | (refine SameMem.foldl ?_ _ _; intro st x; (try dsimp only); (repeat' split); all_goals (first | (simp [SameMem]; done) | (simp_all [SameMem]; done) | grind [SameMem])))

@[simp] theorem mapReq_mem (c : Nat) (f : CnReq → CnReq) (s : State) : (mapReq c f s).mem = s.mem := mapReq_same c f s

theorem ungrant_same (s : State) (q : CnReq) : SameMem (ungrant s q) s := by
  unfold ungrant
  try dsimp only
  repeat' split
  all_goals (first | (simp [SameMem]; done) | exact rfl | (simp_all [SameMem]; done) | grind [SameMem] | (simp [SameMem]; grind [SameMem]) | (simp +zetaDelta [SameMem]; done) | ((try dsimp only); (repeat' (first | (exact SameMem.refl _) | assumption | (simp [SameMem]; done) | split | with_reducible refine SameMem.trans (updCinch_same ..) ?_ | with_reducible refine SameMem.trans (dropUse_same ..) ?_ | with_reducible refine SameMem.trans (mapReq_same ..) ?_ | with_reducible refine SameMem.trans (SameMem.foldl (fun _ _ => ?_) _ _) ?_ | with_reducible refine SameMem.trans (SameMem.foldr (fun _ _ => ?_) _ _) ?_ | with_reducible refine SameMem.trans rfl ?_)); done) | (refine SameMem.foldl ?_ _ _; intro st x; (try dsimp only); (repeat' split); all_goals (first | (simp [SameMem]; done) | (simp_all [SameMem]; done) | grind [SameMem])))

@[simp] theorem ungrant_mem (s : State) (q : CnReq) : (ungrant s q).mem = s.mem := ungrant_same s q

theorem cinchStage_wf (r : Req) (c : Nat) (b : List Byte) (h : Nat) (key : Rein) (s0 : State) : KeepMem (cinchStage r c b h key s0).2 s0 := by
  unfold cinchStage
  extract_lets i a bad mine rows s1 s row x
  have h1 : SameMem s1 s0 := by
    simp only [s1]
    split
    · exact SameMem.foldl (fun st q => ungrant_same st q) _ _
    · exact SameMem.refl _
  have h2 : SameMem s s0 := by
    simp only [s]
    split
    · exact h1
    · exact SameMem.refl _
  refine KeepMem.trans ?_ (KeepMem.of_same h2)
  clear_value s1 s row x rows mine
  have hr : ∀ (n : Nat) (p : Option (List Byte) × Bool × State),
      (if n = 0 then (some [], false, s) else cinchRead r (field b 0x10 8) n s) = p → SameMem p.2.2 s := by
    intro n p he
    rw [← he]
    split
    · exact SameMem.refl _
    · exact cinchRead_same ..
  split
  · exact KeepMem.of_same (refuseReq_same ..)
  split
  · exact KeepMem.of_same (refuseReq_same ..)
  split
  · exact KeepMem.of_same (refuseReq_same ..)
  split
  · exact KeepMem.of_same (addReq_same ..)
  split
  · exact KeepMem.of_same (leaseWait_same ..)
  split
  rename_i he
  replace hr := KeepMem.of_same (hr _ _ he)
  refine KeepMem.trans ?_ hr
  split
  · exact KeepMem.of_same (addReq_same ..)
  split
  · exact KeepMem.of_same (refuseReq_same ..)
  split
  · split
    · with_reducible exact stageFinish_wf ..
    · exact KeepMem.of_same (addReq_same ..)
  refine ite_of (P := fun p : Bool × State => KeepMem p.2 _) ?_ ?_
  · exact KeepMem.of_same (refuseReq_same ..)
  · with_reducible exact stageFinish_wf ..

theorem cinchCommit_same (r : Req) (c : Nat) (b : List Byte) (h : Nat) (s : State) : SameMem (cinchCommit r c b h s) s := by
  unfold cinchCommit
  try dsimp only
  repeat' split
  all_goals (first | (simp [SameMem]; done) | exact rfl | (simp_all [SameMem]; done) | grind [SameMem] | (simp [SameMem]; grind [SameMem]) | (simp +zetaDelta [SameMem]; done) | ((try dsimp only); (repeat' (first | (exact SameMem.refl _) | assumption | (simp [SameMem]; done) | split | with_reducible refine SameMem.trans (updCinch_same ..) ?_ | with_reducible refine SameMem.trans (updTack_same ..) ?_ | with_reducible refine SameMem.trans (writeEnvelope_same ..) ?_ | with_reducible refine SameMem.trans (addReq_same ..) ?_ | with_reducible refine SameMem.trans (refuseReq_same ..) ?_ | with_reducible refine SameMem.trans (SameMem.foldl (fun _ _ => ?_) _ _) ?_ | with_reducible refine SameMem.trans (SameMem.foldr (fun _ _ => ?_) _ _) ?_ | with_reducible refine SameMem.trans rfl ?_)); done) | (refine SameMem.foldl ?_ _ _; intro st x; (try dsimp only); (repeat' split); all_goals (first | (simp [SameMem]; done) | (simp_all [SameMem]; done) | grind [SameMem])))

@[simp] theorem cinchCommit_mem (r : Req) (c : Nat) (b : List Byte) (h : Nat) (s : State) : (cinchCommit r c b h s).mem = s.mem := cinchCommit_same r c b h s

theorem cinchAbort_same (r : Req) (c : Nat) (b : List Byte) (h : Nat) (s : State) : SameMem (cinchAbort r c b h s) s := by
  unfold cinchAbort
  try dsimp only
  repeat' split
  all_goals (first | (simp [SameMem]; done) | exact rfl | (simp_all [SameMem]; done) | grind [SameMem] | (simp [SameMem]; grind [SameMem]) | (simp +zetaDelta [SameMem]; done) | ((try dsimp only); (repeat' (first | (exact SameMem.refl _) | assumption | (simp [SameMem]; done) | split | with_reducible refine SameMem.trans (markAbort_same ..) ?_ | with_reducible refine SameMem.trans (addReq_same ..) ?_ | with_reducible refine SameMem.trans (refuseReq_same ..) ?_ | with_reducible refine SameMem.trans (SameMem.foldl (fun _ _ => ?_) _ _) ?_ | with_reducible refine SameMem.trans (SameMem.foldr (fun _ _ => ?_) _ _) ?_ | with_reducible refine SameMem.trans rfl ?_)); done) | (refine SameMem.foldl ?_ _ _; intro st x; (try dsimp only); (repeat' split); all_goals (first | (simp [SameMem]; done) | (simp_all [SameMem]; done) | grind [SameMem])))

@[simp] theorem cinchAbort_mem (r : Req) (c : Nat) (b : List Byte) (h : Nat) (s : State) : (cinchAbort r c b h s).mem = s.mem := cinchAbort_same r c b h s

theorem cinchQuery_same (r : Req) (c : Nat) (b : List Byte) (h : Nat) (s : State) : SameMem (cinchQuery r c b h s) s := by
  unfold cinchQuery
  try dsimp only
  repeat' split
  all_goals (first | (simp [SameMem]; done) | exact rfl | (simp_all [SameMem]; done) | grind [SameMem] | (simp [SameMem]; grind [SameMem]) | (simp +zetaDelta [SameMem]; done) | ((try dsimp only); (repeat' (first | (exact SameMem.refl _) | assumption | (simp [SameMem]; done) | split | with_reducible refine SameMem.trans (addReq_same ..) ?_ | with_reducible refine SameMem.trans (refuseReq_same ..) ?_ | with_reducible refine SameMem.trans (SameMem.foldl (fun _ _ => ?_) _ _) ?_ | with_reducible refine SameMem.trans (SameMem.foldr (fun _ _ => ?_) _ _) ?_ | with_reducible refine SameMem.trans rfl ?_)); done) | (refine SameMem.foldl ?_ _ _; intro st x; (try dsimp only); (repeat' split); all_goals (first | (simp [SameMem]; done) | (simp_all [SameMem]; done) | grind [SameMem])))

@[simp] theorem cinchQuery_mem (r : Req) (c : Nat) (b : List Byte) (h : Nat) (s : State) : (cinchQuery r c b h s).mem = s.mem := cinchQuery_same r c b h s

theorem cinchLookup_same (r : Req) (c : Nat) (b : List Byte) (h : Nat) (s : State) : SameMem (cinchLookup r c b h s) s := by
  unfold cinchLookup
  try dsimp only
  repeat' split
  all_goals (first | (simp [SameMem]; done) | exact rfl | (simp_all [SameMem]; done) | grind [SameMem] | (simp [SameMem]; grind [SameMem]) | (simp +zetaDelta [SameMem]; done) | ((try dsimp only); (repeat' (first | (exact SameMem.refl _) | assumption | (simp [SameMem]; done) | split | with_reducible refine SameMem.trans (addReq_same ..) ?_ | with_reducible refine SameMem.trans (SameMem.foldl (fun _ _ => ?_) _ _) ?_ | with_reducible refine SameMem.trans (SameMem.foldr (fun _ _ => ?_) _ _) ?_ | with_reducible refine SameMem.trans rfl ?_)); done) | (refine SameMem.foldl ?_ _ _; intro st x; (try dsimp only); (repeat' split); all_goals (first | (simp [SameMem]; done) | (simp_all [SameMem]; done) | grind [SameMem])))

@[simp] theorem cinchLookup_mem (r : Req) (c : Nat) (b : List Byte) (h : Nat) (s : State) : (cinchLookup r c b h s).mem = s.mem := cinchLookup_same r c b h s

theorem custodyEnded_same (status : Nat) (s : State) : SameMem (custodyEnded status s) s := by
  unfold custodyEnded
  try dsimp only
  repeat' split
  all_goals (first | (simp [SameMem]; done) | exact rfl | (simp_all [SameMem]; done) | grind [SameMem] | (simp [SameMem]; grind [SameMem]) | (simp +zetaDelta [SameMem]; done) | ((try dsimp only); (repeat' (first | (exact SameMem.refl _) | assumption | (simp [SameMem]; done) | split | with_reducible refine SameMem.trans (SameMem.foldl (fun _ _ => ?_) _ _) ?_ | with_reducible refine SameMem.trans (SameMem.foldr (fun _ _ => ?_) _ _) ?_ | with_reducible refine SameMem.trans rfl ?_)); done) | (refine SameMem.foldl ?_ _ _; intro st x; (try dsimp only); (repeat' split); all_goals (first | (simp [SameMem]; done) | (simp_all [SameMem]; done) | grind [SameMem])))

@[simp] theorem custodyEnded_mem (status : Nat) (s : State) : (custodyEnded status s).mem = s.mem := custodyEnded_same status s

theorem endCinch_same (i cause status failing : Nat) (s : State) : SameMem (endCinch i cause status failing s) s := by
  unfold endCinch
  try dsimp only
  repeat' split
  all_goals (first | (simp [SameMem]; done) | exact rfl | (simp_all [SameMem]; done) | grind [SameMem] | (simp [SameMem]; grind [SameMem]) | (simp +zetaDelta [SameMem]; done) | ((try dsimp only); (repeat' (first | (exact SameMem.refl _) | assumption | (simp [SameMem]; done) | split | with_reducible refine SameMem.trans (setCinch_same ..) ?_ | with_reducible refine SameMem.trans (pushNoteq_same ..) ?_ | with_reducible refine SameMem.trans (settleFills_same ..) ?_ | with_reducible refine SameMem.trans (freeCinch_same ..) ?_ | with_reducible refine SameMem.trans (custodyEnded_same ..) ?_ | with_reducible refine SameMem.trans (SameMem.foldl (fun _ _ => ?_) _ _) ?_ | with_reducible refine SameMem.trans (SameMem.foldr (fun _ _ => ?_) _ _) ?_ | with_reducible refine SameMem.trans rfl ?_)); done) | (refine SameMem.foldl ?_ _ _; intro st x; (try dsimp only); (repeat' split); all_goals (first | (simp [SameMem]; done) | (simp_all [SameMem]; done) | grind [SameMem])))

@[simp] theorem endCinch_mem (i cause status failing : Nat) (s : State) : (endCinch i cause status failing s).mem = s.mem := endCinch_same i cause status failing s

theorem abortCinch_same (i cause status failing : Nat) (s : State) : SameMem (abortCinch i cause status failing s) s := by
  unfold abortCinch
  try dsimp only
  repeat' split
  all_goals (first | (simp [SameMem]; done) | exact rfl | (simp_all [SameMem]; done) | grind [SameMem] | (simp [SameMem]; grind [SameMem]) | (simp +zetaDelta [SameMem]; done) | ((try dsimp only); (repeat' (first | (exact SameMem.refl _) | assumption | (simp [SameMem]; done) | split | with_reducible refine SameMem.trans (updTack_same ..) ?_ | with_reducible refine SameMem.trans (dropUse_same ..) ?_ | with_reducible refine SameMem.trans (releaseLate_same ..) ?_ | with_reducible refine SameMem.trans (endCinch_same ..) ?_ | with_reducible refine SameMem.trans (SameMem.foldl (fun _ _ => ?_) _ _) ?_ | with_reducible refine SameMem.trans (SameMem.foldr (fun _ _ => ?_) _ _) ?_ | with_reducible refine SameMem.trans rfl ?_)); done) | (refine SameMem.foldl ?_ _ _; intro st x; (try dsimp only); (repeat' split); all_goals (first | (simp [SameMem]; done) | (simp_all [SameMem]; done) | grind [SameMem])))

@[simp] theorem abortCinch_mem (i cause status failing : Nat) (s : State) : (abortCinch i cause status failing s).mem = s.mem := abortCinch_same i cause status failing s

theorem cinchBoundary_same (s : State) : SameMem (cinchBoundary s) s := by
  unfold cinchBoundary
  try dsimp only
  repeat' split
  all_goals (first | (simp [SameMem]; done) | exact rfl | (simp_all [SameMem]; done) | grind [SameMem] | (simp [SameMem]; grind [SameMem]) | (simp +zetaDelta [SameMem]; done) | ((try dsimp only); (repeat' (first | (exact SameMem.refl _) | assumption | (simp [SameMem]; done) | split | with_reducible refine SameMem.trans (abortCinch_same ..) ?_ | with_reducible refine SameMem.trans (SameMem.foldl (fun _ _ => ?_) _ _) ?_ | with_reducible refine SameMem.trans (SameMem.foldr (fun _ _ => ?_) _ _) ?_ | with_reducible refine SameMem.trans rfl ?_)); done) | (refine SameMem.foldl ?_ _ _; intro st x; (try dsimp only); (repeat' split); all_goals (first | (simp [SameMem]; done) | (simp_all [SameMem]; done) | grind [SameMem])))

@[simp] theorem cinchBoundary_mem (s : State) : (cinchBoundary s).mem = s.mem := cinchBoundary_same s

theorem cinchCoreFence_same (c : Nat) (s : State) : SameMem (cinchCoreFence c s) s := by
  unfold cinchCoreFence
  try dsimp only
  repeat' split
  all_goals (first | (simp [SameMem]; done) | exact rfl | (simp_all [SameMem]; done) | grind [SameMem] | (simp [SameMem]; grind [SameMem]) | (simp +zetaDelta [SameMem]; done) | ((try dsimp only); (repeat' (first | (exact SameMem.refl _) | assumption | (simp [SameMem]; done) | split | with_reducible refine SameMem.trans (updCinch_same ..) ?_ | with_reducible refine SameMem.trans (pushNoteq_same ..) ?_ | with_reducible refine SameMem.trans (markAbort_same ..) ?_ | with_reducible refine SameMem.trans (freeCinch_same ..) ?_ | with_reducible refine SameMem.trans (SameMem.foldl (fun _ _ => ?_) _ _) ?_ | with_reducible refine SameMem.trans (SameMem.foldr (fun _ _ => ?_) _ _) ?_ | with_reducible refine SameMem.trans rfl ?_)); done) | (refine SameMem.foldl ?_ _ _; intro st x; (try dsimp only); (repeat' split); all_goals (first | (simp [SameMem]; done) | (simp_all [SameMem]; done) | grind [SameMem])))

@[simp] theorem cinchCoreFence_mem (c : Nat) (s : State) : (cinchCoreFence c s).mem = s.mem := cinchCoreFence_same c s

theorem stageOutput_same (r : Req) (c h job span dst : Nat) (hostDst : Bool) (s : State) : SameMem (stageOutput r c h job span dst hostDst s).2 s := by
  unfold stageOutput
  try dsimp only
  repeat' split
  all_goals (first | (simp [SameMem]; done) | exact rfl | (simp_all [SameMem]; done) | grind [SameMem] | (simp [SameMem]; grind [SameMem]) | (simp +zetaDelta [SameMem]; done) | ((try dsimp only); (repeat' (first | (exact SameMem.refl _) | assumption | (simp [SameMem]; done) | split | with_reducible refine SameMem.trans (updCinch_same ..) ?_ | with_reducible refine SameMem.trans (SameMem.foldl (fun _ _ => ?_) _ _) ?_ | with_reducible refine SameMem.trans (SameMem.foldr (fun _ _ => ?_) _ _) ?_ | with_reducible refine SameMem.trans rfl ?_)); done) | (refine SameMem.foldl ?_ _ _; intro st x; (try dsimp only); (repeat' split); all_goals (first | (simp [SameMem]; done) | (simp_all [SameMem]; done) | grind [SameMem])))

@[simp] theorem stageOutput_mem (r : Req) (c h job span dst : Nat) (hostDst : Bool) (s : State) : (stageOutput r c h job span dst hostDst s).2.mem = s.mem := stageOutput_same r c h job span dst hostDst s

theorem endHeld_same (slot act job status : Nat) (data : List Byte) (s : State) : SameMem (endHeld slot act job status data s) s := by
  unfold endHeld
  try dsimp only
  repeat' split
  all_goals (first | (simp [SameMem]; done) | exact rfl | (simp_all [SameMem]; done) | grind [SameMem] | (simp [SameMem]; grind [SameMem]) | (simp +zetaDelta [SameMem]; done) | ((try dsimp only); (repeat' (first | (exact SameMem.refl _) | assumption | (simp [SameMem]; done) | split | with_reducible refine SameMem.trans (updCinch_same ..) ?_ | with_reducible refine SameMem.trans (markAbort_same ..) ?_ | with_reducible refine SameMem.trans (SameMem.foldl (fun _ _ => ?_) _ _) ?_ | with_reducible refine SameMem.trans (SameMem.foldr (fun _ _ => ?_) _ _) ?_ | with_reducible refine SameMem.trans rfl ?_)); done) | (refine SameMem.foldl ?_ _ _; intro st x; (try dsimp only); (repeat' split); all_goals (first | (simp [SameMem]; done) | (simp_all [SameMem]; done) | grind [SameMem])))

@[simp] theorem endHeld_mem (slot act job status : Nat) (data : List Byte) (s : State) : (endHeld slot act job status data s).mem = s.mem := endHeld_same slot act job status data s

theorem journalOutcome_same (i result cause cred : Nat) (s : State) : SameMem (journalOutcome i result cause cred s) s := by
  unfold journalOutcome
  try dsimp only
  repeat' split
  all_goals (first | (simp [SameMem]; done) | exact rfl | (simp_all [SameMem]; done) | grind [SameMem] | (simp [SameMem]; grind [SameMem]) | (simp +zetaDelta [SameMem]; done) | ((try dsimp only); (repeat' (first | (exact SameMem.refl _) | assumption | (simp [SameMem]; done) | split | with_reducible refine SameMem.trans (updCinch_same ..) ?_ | with_reducible refine SameMem.trans (joinBatch_same ..) ?_ | with_reducible refine SameMem.trans (SameMem.foldl (fun _ _ => ?_) _ _) ?_ | with_reducible refine SameMem.trans (SameMem.foldr (fun _ _ => ?_) _ _) ?_ | with_reducible refine SameMem.trans rfl ?_)); done) | (refine SameMem.foldl ?_ _ _; intro st x; (try dsimp only); (repeat' split); all_goals (first | (simp [SameMem]; done) | (simp_all [SameMem]; done) | grind [SameMem])))

@[simp] theorem journalOutcome_mem (i result cause cred : Nat) (s : State) : (journalOutcome i result cause cred s).mem = s.mem := journalOutcome_same i result cause cred s

theorem journalClosed_same (i : Nat) (s : State) : SameMem (journalClosed i s) s := by
  unfold journalClosed
  try dsimp only
  repeat' split
  all_goals (first | (simp [SameMem]; done) | exact rfl | (simp_all [SameMem]; done) | grind [SameMem] | (simp [SameMem]; grind [SameMem]) | (simp +zetaDelta [SameMem]; done) | ((try dsimp only); (repeat' (first | (exact SameMem.refl _) | assumption | (simp [SameMem]; done) | split | with_reducible refine SameMem.trans (joinBatch_same ..) ?_ | with_reducible refine SameMem.trans (SameMem.foldl (fun _ _ => ?_) _ _) ?_ | with_reducible refine SameMem.trans (SameMem.foldr (fun _ _ => ?_) _ _) ?_ | with_reducible refine SameMem.trans rfl ?_)); done) | (refine SameMem.foldl ?_ _ _; intro st x; (try dsimp only); (repeat' split); all_goals (first | (simp [SameMem]; done) | (simp_all [SameMem]; done) | grind [SameMem])))

@[simp] theorem journalClosed_mem (i : Nat) (s : State) : (journalClosed i s).mem = s.mem := journalClosed_same i s

theorem takeCommitSlot_same (p : Nat) (s : State) : SameMem (takeCommitSlot p s) s := by
  unfold takeCommitSlot
  try dsimp only
  repeat' split
  all_goals (first | (simp [SameMem]; done) | exact rfl | (simp_all [SameMem]; done) | grind [SameMem] | (simp [SameMem]; grind [SameMem]) | (simp +zetaDelta [SameMem]; done) | ((try dsimp only); (repeat' (first | (exact SameMem.refl _) | assumption | (simp [SameMem]; done) | split | with_reducible refine SameMem.trans (SameMem.foldl (fun _ _ => ?_) _ _) ?_ | with_reducible refine SameMem.trans (SameMem.foldr (fun _ _ => ?_) _ _) ?_ | with_reducible refine SameMem.trans rfl ?_)); done) | (refine SameMem.foldl ?_ _ _; intro st x; (try dsimp only); (repeat' split); all_goals (first | (simp [SameMem]; done) | (simp_all [SameMem]; done) | grind [SameMem])))

@[simp] theorem takeCommitSlot_mem (p : Nat) (s : State) : (takeCommitSlot p s).mem = s.mem := takeCommitSlot_same p s

theorem reclaimJournal_same (s : State) : SameMem (reclaimJournal s) s := by
  unfold reclaimJournal
  try dsimp only
  repeat' split
  all_goals (first | (simp [SameMem]; done) | exact rfl | (simp_all [SameMem]; done) | grind [SameMem] | (simp [SameMem]; grind [SameMem]) | (simp +zetaDelta [SameMem]; done) | ((try dsimp only); (repeat' (first | (exact SameMem.refl _) | assumption | (simp [SameMem]; done) | split | with_reducible refine SameMem.trans (SameMem.foldl (fun _ _ => ?_) _ _) ?_ | with_reducible refine SameMem.trans (SameMem.foldr (fun _ _ => ?_) _ _) ?_ | with_reducible refine SameMem.trans rfl ?_)); done) | (refine SameMem.foldl ?_ _ _; intro st x; (try dsimp only); (repeat' split); all_goals (first | (simp [SameMem]; done) | (simp_all [SameMem]; done) | grind [SameMem])))

@[simp] theorem reclaimJournal_mem (s : State) : (reclaimJournal s).mem = s.mem := reclaimJournal_same s

theorem putRecord_same (p table : Nat) (key : List Byte) (v : Option (List Byte)) (dseq : Nat) (s : State) : SameMem (putRecord p table key v dseq s) s := by
  unfold putRecord
  try dsimp only
  repeat' split
  all_goals (first | (simp [SameMem]; done) | exact rfl | (simp_all [SameMem]; done) | grind [SameMem] | (simp [SameMem]; grind [SameMem]) | (simp +zetaDelta [SameMem]; done) | ((try dsimp only); (repeat' (first | (exact SameMem.refl _) | assumption | (simp [SameMem]; done) | split | with_reducible refine SameMem.trans (SameMem.foldl (fun _ _ => ?_) _ _) ?_ | with_reducible refine SameMem.trans (SameMem.foldr (fun _ _ => ?_) _ _) ?_ | with_reducible refine SameMem.trans rfl ?_)); done) | (refine SameMem.foldl ?_ _ _; intro st x; (try dsimp only); (repeat' split); all_goals (first | (simp [SameMem]; done) | (simp_all [SameMem]; done) | grind [SameMem])))

@[simp] theorem putRecord_mem (p table : Nat) (key : List Byte) (v : Option (List Byte)) (dseq : Nat) (s : State) : (putRecord p table key v dseq s).mem = s.mem := putRecord_same p table key v dseq s

theorem feedEntry_same (p code idx handle dseq : Nat) (data : List Byte) (s : State) : SameMem (feedEntry p code idx handle dseq data s) s := by
  unfold feedEntry
  try dsimp only
  repeat' split
  all_goals (first | (simp [SameMem]; done) | exact rfl | (simp_all [SameMem]; done) | grind [SameMem] | (simp [SameMem]; grind [SameMem]) | (simp +zetaDelta [SameMem]; done) | ((try dsimp only); (repeat' (first | (exact SameMem.refl _) | assumption | (simp [SameMem]; done) | split | with_reducible refine SameMem.trans (setEventIf_same ..) ?_ | with_reducible refine SameMem.trans (SameMem.foldl (fun _ _ => ?_) _ _) ?_ | with_reducible refine SameMem.trans (SameMem.foldr (fun _ _ => ?_) _ _) ?_ | with_reducible refine SameMem.trans rfl ?_)); done) | (refine SameMem.foldl ?_ _ _; intro st x; (try dsimp only); (repeat' split); all_goals (first | (simp [SameMem]; done) | (simp_all [SameMem]; done) | grind [SameMem])))

@[simp] theorem feedEntry_mem (p code idx handle dseq : Nat) (data : List Byte) (s : State) : (feedEntry p code idx handle dseq data s).mem = s.mem := feedEntry_same p code idx handle dseq data s

theorem applyAction_same (x : Cinch) (i idx : Nat) (a : Action) (s : State) : SameMem (applyAction x i idx a s) s := by
  unfold applyAction
  try dsimp only
  repeat' split
  all_goals (first | (simp [SameMem]; done) | exact rfl | (simp_all [SameMem]; done) | grind [SameMem] | (simp [SameMem]; grind [SameMem]) | (simp +zetaDelta [SameMem]; done) | ((try dsimp only); (repeat' (first | (exact SameMem.refl _) | assumption | (simp [SameMem]; done) | split | with_reducible refine SameMem.trans (updTack_same ..) ?_ | with_reducible refine SameMem.trans (countNow_same ..) ?_ | with_reducible refine SameMem.trans (retireTack_same ..) ?_ | with_reducible refine SameMem.trans (linkTack_same ..) ?_ | with_reducible refine SameMem.trans (putRecord_same ..) ?_ | with_reducible refine SameMem.trans (feedEntry_same ..) ?_ | with_reducible refine SameMem.trans (SameMem.foldl (fun _ _ => ?_) _ _) ?_ | with_reducible refine SameMem.trans (SameMem.foldr (fun _ _ => ?_) _ _) ?_ | with_reducible refine SameMem.trans rfl ?_)); done) | (refine SameMem.foldl ?_ _ _; intro st x; (try dsimp only); (repeat' split); all_goals (first | (simp [SameMem]; done) | (simp_all [SameMem]; done) | grind [SameMem])))

@[simp] theorem applyAction_mem (x : Cinch) (i idx : Nat) (a : Action) (s : State) : (applyAction x i idx a s).mem = s.mem := applyAction_same x i idx a s

theorem copyPart_wf (p : Nat) (h : Held) (off : Nat) (bs : List Byte) (s : State) : KeepMem (copyPart p h off bs s) s := by
  unfold copyPart
  try dsimp only
  iterate 30 all_goals (try first | with_reducible exact KeepMem.refl _ | assumption | split | with_reducible refine KeepMem.trans (hostPut_wf ..) ?_ | with_reducible refine KeepMem.trans (busWrite_wf ..) ?_ | with_reducible refine KeepMem.trans (KeepMem.foldl (fun _ _ => ?_) _ _) ?_ | with_reducible refine KeepMem.trans (KeepMem.foldr (fun _ _ => ?_) _ _) ?_ | with_reducible refine KeepMem.trans (KeepMem.foldl_fst (fun _ _ => ?_) _ _) ?_ | with_reducible refine KeepMem.trans (KeepMem.foldl_snd (fun _ _ => ?_) _ _) ?_ | with_reducible refine KeepMem.trans (KeepMem.foldl_thd (fun _ _ => ?_) _ _) ?_ | (apply KeepMem.of_eq; simp; done) | with_reducible refine KeepMem.trans (KeepMem.record ..) ?_)

theorem copySlice_wf (p lo : Nat) (outs : List Held) (s : State) : KeepMem (copySlice p lo outs s) s := by
  unfold copySlice
  try dsimp only
  iterate 30 all_goals (try first | with_reducible exact KeepMem.refl _ | assumption | split | with_reducible refine KeepMem.trans (copyPart_wf ..) ?_ | with_reducible refine KeepMem.trans (KeepMem.foldl (fun _ _ => ?_) _ _) ?_ | with_reducible refine KeepMem.trans (KeepMem.foldr (fun _ _ => ?_) _ _) ?_ | with_reducible refine KeepMem.trans (KeepMem.foldl_fst (fun _ _ => ?_) _ _) ?_ | with_reducible refine KeepMem.trans (KeepMem.foldl_snd (fun _ _ => ?_) _ _) ?_ | with_reducible refine KeepMem.trans (KeepMem.foldl_thd (fun _ _ => ?_) _ _) ?_ | (apply KeepMem.of_eq; simp; done) | with_reducible refine KeepMem.trans (KeepMem.record ..) ?_)

theorem checkCopies_same (i : Nat) (s : State) : SameMem (checkCopies i s) s := by
  unfold checkCopies
  try dsimp only
  repeat' split
  all_goals (first | (simp [SameMem]; done) | exact rfl | (simp_all [SameMem]; done) | grind [SameMem] | (simp [SameMem]; grind [SameMem]) | (simp +zetaDelta [SameMem]; done) | ((try dsimp only); (repeat' (first | (exact SameMem.refl _) | assumption | (simp [SameMem]; done) | split | with_reducible refine SameMem.trans (setEvent_same ..) ?_ | with_reducible refine SameMem.trans (noteRefused_same ..) ?_ | with_reducible refine SameMem.trans (updCinch_same ..) ?_ | with_reducible refine SameMem.trans (SameMem.foldl (fun _ _ => ?_) _ _) ?_ | with_reducible refine SameMem.trans (SameMem.foldr (fun _ _ => ?_) _ _) ?_ | with_reducible refine SameMem.trans rfl ?_)); done) | (refine SameMem.foldl ?_ _ _; intro st x; (try dsimp only); (repeat' split); all_goals (first | (simp [SameMem]; done) | (simp_all [SameMem]; done) | grind [SameMem])))

@[simp] theorem checkCopies_mem (i : Nat) (s : State) : (checkCopies i s).mem = s.mem := checkCopies_same i s

theorem applyCopies_wf (i : Nat) (s : State) : KeepMem (applyCopies i s) s := by
  unfold applyCopies
  try dsimp only
  iterate 30 all_goals (try first | with_reducible exact KeepMem.refl _ | assumption | split | with_reducible refine KeepMem.trans (copySlice_wf ..) ?_ | with_reducible refine KeepMem.trans (KeepMem.of_eq (updCinch_mem ..)) ?_ | with_reducible refine KeepMem.trans (KeepMem.of_eq (journalDone_mem ..)) ?_ | with_reducible refine KeepMem.trans (KeepMem.of_eq (endCinch_mem ..)) ?_ | with_reducible refine KeepMem.trans (KeepMem.foldl (fun _ _ => ?_) _ _) ?_ | with_reducible refine KeepMem.trans (KeepMem.foldr (fun _ _ => ?_) _ _) ?_ | with_reducible refine KeepMem.trans (KeepMem.foldl_fst (fun _ _ => ?_) _ _) ?_ | with_reducible refine KeepMem.trans (KeepMem.foldl_snd (fun _ _ => ?_) _ _) ?_ | with_reducible refine KeepMem.trans (KeepMem.foldl_thd (fun _ _ => ?_) _ _) ?_ | (apply KeepMem.of_eq; simp; done) | with_reducible refine KeepMem.trans (KeepMem.record ..) ?_)

theorem applyCinch_wf (i : Nat) (s : State) : KeepMem (applyCinch i s) s := by
  unfold applyCinch
  try dsimp only
  iterate 30 all_goals (try first | with_reducible exact KeepMem.refl _ | assumption | split | with_reducible refine KeepMem.trans (applyCopies_wf ..) ?_ | with_reducible refine KeepMem.trans (KeepMem.of_eq (updCinch_mem ..)) ?_ | with_reducible refine KeepMem.trans (KeepMem.of_eq (applyAction_mem ..)) ?_ | with_reducible refine KeepMem.trans (KeepMem.of_eq (checkCopies_mem ..)) ?_ | with_reducible refine KeepMem.trans (KeepMem.foldl (fun _ _ => ?_) _ _) ?_ | with_reducible refine KeepMem.trans (KeepMem.foldr (fun _ _ => ?_) _ _) ?_ | with_reducible refine KeepMem.trans (KeepMem.foldl_fst (fun _ _ => ?_) _ _) ?_ | with_reducible refine KeepMem.trans (KeepMem.foldl_snd (fun _ _ => ?_) _ _) ?_ | with_reducible refine KeepMem.trans (KeepMem.foldl_thd (fun _ _ => ?_) _ _) ?_ | (apply KeepMem.of_eq; simp; done) | with_reducible refine KeepMem.trans (KeepMem.record ..) ?_)

theorem forceOutcome_same (commit : Bool) (cred : Nat) (s : State) : SameMem (forceOutcome commit cred s).2 s := by
  unfold forceOutcome
  try dsimp only
  repeat' split
  all_goals (first | (simp [SameMem]; done) | exact rfl | (simp_all [SameMem]; done) | grind [SameMem] | (simp [SameMem]; grind [SameMem]) | (simp +zetaDelta [SameMem]; done) | ((try dsimp only); (repeat' (first | (exact SameMem.refl _) | assumption | (simp [SameMem]; done) | split | with_reducible refine SameMem.trans (setEvent_same ..) ?_ | with_reducible refine SameMem.trans (itemAdd_same ..) ?_ | with_reducible refine SameMem.trans (ledgerEvent_same ..) ?_ | with_reducible refine SameMem.trans (updCinch_same ..) ?_ | with_reducible refine SameMem.trans (journalOutcome_same ..) ?_ | with_reducible refine SameMem.trans (SameMem.foldl (fun _ _ => ?_) _ _) ?_ | with_reducible refine SameMem.trans (SameMem.foldr (fun _ _ => ?_) _ _) ?_ | with_reducible refine SameMem.trans rfl ?_)); done) | (refine SameMem.foldl ?_ _ _; intro st x; (try dsimp only); (repeat' split); all_goals (first | (simp [SameMem]; done) | (simp_all [SameMem]; done) | grind [SameMem])))

@[simp] theorem forceOutcome_mem (commit : Bool) (cred : Nat) (s : State) : (forceOutcome commit cred s).2.mem = s.mem := forceOutcome_same commit cred s

theorem writeCnQuota_same (hold : Bool) (v : W32) (s : State) : SameMem (writeCnQuota hold v s) s := by
  unfold writeCnQuota
  try dsimp only
  repeat' split
  all_goals (first | (simp [SameMem]; done) | exact rfl | (simp_all [SameMem]; done) | grind [SameMem] | (simp [SameMem]; grind [SameMem]) | (simp +zetaDelta [SameMem]; done) | ((try dsimp only); (repeat' (first | (exact SameMem.refl _) | assumption | (simp [SameMem]; done) | split | with_reducible refine SameMem.trans (setEvent_same ..) ?_ | with_reducible refine SameMem.trans (SameMem.foldl (fun _ _ => ?_) _ _) ?_ | with_reducible refine SameMem.trans (SameMem.foldr (fun _ _ => ?_) _ _) ?_ | with_reducible refine SameMem.trans rfl ?_)); done) | (refine SameMem.foldl ?_ _ _; intro st x; (try dsimp only); (repeat' split); all_goals (first | (simp [SameMem]; done) | (simp_all [SameMem]; done) | grind [SameMem])))

@[simp] theorem writeCnQuota_mem (hold : Bool) (v : W32) (s : State) : (writeCnQuota hold v s).mem = s.mem := writeCnQuota_same hold v s

theorem readNoteq_same (s : State) : SameMem (readNoteq s).2 s := by
  unfold readNoteq
  try dsimp only
  repeat' split
  all_goals (first | (simp [SameMem]; done) | exact rfl | (simp_all [SameMem]; done) | grind [SameMem] | (simp [SameMem]; grind [SameMem]) | (simp +zetaDelta [SameMem]; done) | ((try dsimp only); (repeat' (first | (exact SameMem.refl _) | assumption | (simp [SameMem]; done) | split | with_reducible refine SameMem.trans (SameMem.foldl (fun _ _ => ?_) _ _) ?_ | with_reducible refine SameMem.trans (SameMem.foldr (fun _ _ => ?_) _ _) ?_ | with_reducible refine SameMem.trans rfl ?_)); done) | (refine SameMem.foldl ?_ _ _; intro st x; (try dsimp only); (repeat' split); all_goals (first | (simp [SameMem]; done) | (simp_all [SameMem]; done) | grind [SameMem])))

@[simp] theorem readNoteq_mem (s : State) : (readNoteq s).2.mem = s.mem := readNoteq_same s

theorem countDoubt_same (dseq : Nat) (s : State) : SameMem (countDoubt dseq s) s := by
  unfold countDoubt
  try dsimp only
  repeat' split
  all_goals (first | (simp [SameMem]; done) | exact rfl | (simp_all [SameMem]; done) | grind [SameMem] | (simp [SameMem]; grind [SameMem]) | (simp +zetaDelta [SameMem]; done) | ((try dsimp only); (repeat' (first | (exact SameMem.refl _) | assumption | (simp [SameMem]; done) | split | with_reducible refine SameMem.trans (itemAdd_same ..) ?_ | with_reducible refine SameMem.trans (SameMem.foldl (fun _ _ => ?_) _ _) ?_ | with_reducible refine SameMem.trans (SameMem.foldr (fun _ _ => ?_) _ _) ?_ | with_reducible refine SameMem.trans rfl ?_)); done) | (refine SameMem.foldl ?_ _ _; intro st x; (try dsimp only); (repeat' split); all_goals (first | (simp [SameMem]; done) | (simp_all [SameMem]; done) | grind [SameMem])))

@[simp] theorem countDoubt_mem (dseq : Nat) (s : State) : (countDoubt dseq s).mem = s.mem := countDoubt_same dseq s

theorem replayActions_same (f : Found) (feed : Bool) (s : State) : SameMem (replayActions f feed s).2 s := by
  unfold replayActions
  try dsimp only
  repeat' split
  all_goals (first | (simp [SameMem]; done) | exact rfl | (simp_all [SameMem]; done) | grind [SameMem] | (simp [SameMem]; grind [SameMem]) | (simp +zetaDelta [SameMem]; done) | ((try dsimp only); (repeat' (first | (exact SameMem.refl _) | assumption | (simp [SameMem]; done) | split | with_reducible refine SameMem.trans (applyAction_same ..) ?_ | with_reducible refine SameMem.trans (SameMem.foldl (fun _ _ => ?_) _ _) ?_ | with_reducible refine SameMem.trans (SameMem.foldr (fun _ _ => ?_) _ _) ?_ | with_reducible refine SameMem.trans rfl ?_)); done) | (refine SameMem.foldl ?_ _ _; intro st x; (try dsimp only); (repeat' split); all_goals (first | (simp [SameMem]; done) | (simp_all [SameMem]; done) | grind [SameMem])))

@[simp] theorem replayActions_mem (f : Found) (feed : Bool) (s : State) : (replayActions f feed s).2.mem = s.mem := replayActions_same f feed s

theorem restoreDoubt_same (f : Found) (s : State) : SameMem (restoreDoubt f s) s := by
  unfold restoreDoubt
  try dsimp only
  repeat' split
  all_goals (first | (simp [SameMem]; done) | exact rfl | (simp_all [SameMem]; done) | grind [SameMem] | (simp [SameMem]; grind [SameMem]) | (simp +zetaDelta [SameMem]; done) | ((try dsimp only); (repeat' (first | (exact SameMem.refl _) | assumption | (simp [SameMem]; done) | split | with_reducible refine SameMem.trans (setEvent_same ..) ?_ | with_reducible refine SameMem.trans (setEventIf_same ..) ?_ | with_reducible refine SameMem.trans (setCinch_same ..) ?_ | with_reducible refine SameMem.trans (countDoubt_same ..) ?_ | with_reducible refine SameMem.trans (SameMem.foldl (fun _ _ => ?_) _ _) ?_ | with_reducible refine SameMem.trans (SameMem.foldr (fun _ _ => ?_) _ _) ?_ | with_reducible refine SameMem.trans rfl ?_)); done) | (refine SameMem.foldl ?_ _ _; intro st x; (try dsimp only); (repeat' split); all_goals (first | (simp [SameMem]; done) | (simp_all [SameMem]; done) | grind [SameMem])))

@[simp] theorem restoreDoubt_mem (f : Found) (s : State) : (restoreDoubt f s).mem = s.mem := restoreDoubt_same f s

theorem replayFound_same (f : Found) (s : State) : SameMem (replayFound f s) s := by
  unfold replayFound
  try dsimp only
  repeat' split
  all_goals (first | (simp [SameMem]; done) | exact rfl | (simp_all [SameMem]; done) | grind [SameMem, replayActions_same] | (simp [SameMem]; grind [SameMem, replayActions_same]) | (simp +zetaDelta [SameMem]; done) | ((try dsimp only); (repeat' (first | (exact SameMem.refl _) | assumption | (simp [SameMem]; done) | split | with_reducible refine SameMem.trans (setEvent_same ..) ?_ | with_reducible refine SameMem.trans (setEventIf_same ..) ?_ | with_reducible refine SameMem.trans (pushNoteq_same ..) ?_ | with_reducible refine SameMem.trans (joinBatch_same ..) ?_ | with_reducible refine SameMem.trans (journalDone_same ..) ?_ | with_reducible refine SameMem.trans (replayActions_same ..) ?_ | with_reducible refine SameMem.trans (restoreDoubt_same ..) ?_ | with_reducible refine SameMem.trans (SameMem.foldl (fun _ _ => ?_) _ _) ?_ | with_reducible refine SameMem.trans (SameMem.foldr (fun _ _ => ?_) _ _) ?_ | with_reducible refine SameMem.trans rfl ?_)); done) | (refine SameMem.foldl ?_ _ _; intro st x; (try dsimp only); (repeat' split); all_goals (first | (simp [SameMem]; done) | (simp_all [SameMem]; done) | grind [SameMem, replayActions_same])))

@[simp] theorem replayFound_mem (f : Found) (s : State) : (replayFound f s).mem = s.mem := replayFound_same f s

theorem cinchReplay_same (s : State) : SameMem (cinchReplay s) s := by
  unfold cinchReplay
  try dsimp only
  repeat' split
  all_goals (first | (simp [SameMem]; done) | exact rfl | (simp_all [SameMem]; done) | grind [SameMem] | (simp [SameMem]; grind [SameMem]) | (simp +zetaDelta [SameMem]; done) | ((try dsimp only); (repeat' (first | (exact SameMem.refl _) | assumption | (simp [SameMem]; done) | split | with_reducible refine SameMem.trans (setEvent_same ..) ?_ | with_reducible refine SameMem.trans (pushNoteq_same ..) ?_ | with_reducible refine SameMem.trans (replayFound_same ..) ?_ | with_reducible refine SameMem.trans (SameMem.foldl (fun _ _ => ?_) _ _) ?_ | with_reducible refine SameMem.trans (SameMem.foldr (fun _ _ => ?_) _ _) ?_ | with_reducible refine SameMem.trans rfl ?_)); done) | (refine SameMem.foldl ?_ _ _; intro st x; (try dsimp only); (repeat' split); all_goals (first | (simp [SameMem]; done) | (simp_all [SameMem]; done) | grind [SameMem])))

@[simp] theorem cinchReplay_mem (s : State) : (cinchReplay s).mem = s.mem := cinchReplay_same s

theorem cinchPowerLoss_same (s : State) : SameMem (cinchPowerLoss s) s := by
  unfold cinchPowerLoss
  try dsimp only
  repeat' split
  all_goals (first | (simp [SameMem]; done) | exact rfl | (simp_all [SameMem]; done) | grind [SameMem] | (simp [SameMem]; grind [SameMem]) | (simp +zetaDelta [SameMem]; done) | ((try dsimp only); (repeat' (first | (exact SameMem.refl _) | assumption | (simp [SameMem]; done) | split | with_reducible refine SameMem.trans (SameMem.foldl (fun _ _ => ?_) _ _) ?_ | with_reducible refine SameMem.trans (SameMem.foldr (fun _ _ => ?_) _ _) ?_ | with_reducible refine SameMem.trans rfl ?_)); done) | (refine SameMem.foldl ?_ _ _; intro st x; (try dsimp only); (repeat' split); all_goals (first | (simp [SameMem]; done) | (simp_all [SameMem]; done) | grind [SameMem])))

@[simp] theorem cinchPowerLoss_mem (s : State) : (cinchPowerLoss s).mem = s.mem := cinchPowerLoss_same s

end Sys2Proof.Machine
end

