-- ==== Sys2Proof/Laws/KeptJobs.lean ====
section
/-! SUPPORT. What each operation of Machine/Jobs.lean keeps: the fuses, the life counters, the queue, and memory or its form. -/

namespace Sys2Proof.Machine

theorem jobRead_core (r : Req) (a n : Nat) (s : State) : SameAll (jobRead r a n s).2.2 s := by
  unfold jobRead
  try dsimp only
  repeat' split
  all_goals simp [SameAll]

@[simp] theorem jobRead_copies (r : Req) (a n : Nat) (s : State) : (jobRead r a n s).2.2.lc.copies = s.lc.copies := (jobRead_core r a n s).1

@[simp] theorem jobRead_life (r : Req) (a n : Nat) (s : State) : (jobRead r a n s).2.2.fv.life = s.fv.life := (jobRead_core r a n s).2.1

@[simp] theorem jobRead_pending (r : Req) (a n : Nat) (s : State) : (jobRead r a n s).2.2.pending = s.pending := (jobRead_core r a n s).2.2

theorem jobWrite_core (r : Req) (a : Nat) (bs : List Byte) (s : State) : SameAll (jobWrite r a bs s).2 s := by
  unfold jobWrite
  try dsimp only
  repeat' split
  all_goals simp [SameAll]

@[simp] theorem jobWrite_copies (r : Req) (a : Nat) (bs : List Byte) (s : State) : (jobWrite r a bs s).2.lc.copies = s.lc.copies := (jobWrite_core r a bs s).1

@[simp] theorem jobWrite_life (r : Req) (a : Nat) (bs : List Byte) (s : State) : (jobWrite r a bs s).2.fv.life = s.fv.life := (jobWrite_core r a bs s).2.1

@[simp] theorem jobWrite_pending (r : Req) (a : Nat) (bs : List Byte) (s : State) : (jobWrite r a bs s).2.pending = s.pending := (jobWrite_core r a bs s).2.2

theorem startFetches_core (s : State) (ts : List Tack) : SameAll (startFetches s ts) s := by simp [startFetches, SameAll]

@[simp] theorem startFetches_copies (s : State) (ts : List Tack) : (startFetches s ts).lc.copies = s.lc.copies := (startFetches_core s ts).1

@[simp] theorem startFetches_life (s : State) (ts : List Tack) : (startFetches s ts).fv.life = s.fv.life := (startFetches_core s ts).2.1

@[simp] theorem startFetches_pending (s : State) (ts : List Tack) : (startFetches s ts).pending = s.pending := (startFetches_core s ts).2.2

theorem partialUnits_core (r : Req) (x0 : Nat) (x1 : Nat) (x2 : List Byte) (x3 : List Byte) (s : State) : SameAll (partialUnits r x0 x1 x2 x3 s) s := by
  fun_induction partialUnits r x0 x1 x2 x3 s
  all_goals (first | (simp [SameAll]; done) | (simp_all [SameAll]; done) | grind [SameAll, drawNat_core, jobWrite_core])

@[simp] theorem partialUnits_copies (r : Req) (x0 : Nat) (x1 : Nat) (x2 : List Byte) (x3 : List Byte) (s : State) : (partialUnits r x0 x1 x2 x3 s).lc.copies = s.lc.copies := (partialUnits_core r x0 x1 x2 x3 s).1

@[simp] theorem partialUnits_life (r : Req) (x0 : Nat) (x1 : Nat) (x2 : List Byte) (x3 : List Byte) (s : State) : (partialUnits r x0 x1 x2 x3 s).fv.life = s.fv.life := (partialUnits_core r x0 x1 x2 x3 s).2.1

@[simp] theorem partialUnits_pending (r : Req) (x0 : Nat) (x1 : Nat) (x2 : List Byte) (x3 : List Byte) (s : State) : (partialUnits r x0 x1 x2 x3 s).pending = s.pending := (partialUnits_core r x0 x1 x2 x3 s).2.2

theorem holdStage_core (r : Req) (cinch span dst code : Nat) (s : State) : SameAll (holdStage r cinch span dst code s).2 s := by
  unfold holdStage
  try dsimp only
  repeat' split
  all_goals (first | (simp [SameAll]; done) | (simp [SameAll]; grind [SameAll, stageOutput_core]))

@[simp] theorem holdStage_copies (r : Req) (cinch span dst code : Nat) (s : State) : (holdStage r cinch span dst code s).2.lc.copies = s.lc.copies := (holdStage_core r cinch span dst code s).1

@[simp] theorem holdStage_life (r : Req) (cinch span dst code : Nat) (s : State) : (holdStage r cinch span dst code s).2.fv.life = s.fv.life := (holdStage_core r cinch span dst code s).2.1

@[simp] theorem holdStage_pending (r : Req) (cinch span dst code : Nat) (s : State) : (holdStage r cinch span dst code s).2.pending = s.pending := (holdStage_core r cinch span dst code s).2.2

theorem jobRead_same (r : Req) (a n : Nat) (s : State) : SameMem (jobRead r a n s).2.2 s := by
  unfold jobRead
  try dsimp only
  repeat' split
  all_goals simp [SameMem]

@[simp] theorem jobRead_mem (r : Req) (a n : Nat) (s : State) : (jobRead r a n s).2.2.mem = s.mem := jobRead_same r a n s

theorem jobWrite_wf (r : Req) (a : Nat) (bs : List Byte) (s : State) : KeepMem (jobWrite r a bs s).2 s := by
  unfold jobWrite
  try dsimp only
  iterate 8 all_goals (try first | with_reducible exact KeepMem.refl _ | assumption | split | with_reducible refine KeepMem.trans (hostPut_wf ..) ?_ | with_reducible refine KeepMem.trans (busWrite_wf ..) ?_)

theorem startFetches_same (s : State) (ts : List Tack) : SameMem (startFetches s ts) s := by simp [startFetches, SameMem]

@[simp] theorem startFetches_mem (s : State) (ts : List Tack) : (startFetches s ts).mem = s.mem := startFetches_same s ts

theorem partialUnits_wf (r : Req) (a n : Nat) (new old : List Byte) (s : State) : KeepMem (partialUnits r a n new old s) s := by
  fun_induction partialUnits r a n new old s
  all_goals (first | exact KeepMem.refl _ | skip)
  rename_i x _ ih
  refine ih.trans (KeepMem.trans (jobWrite_wf ..) (KeepMem.of_eq ?_))
  have h := congrArg (fun p => p.2.mem) x
  simp only [drawNat_mem] at h
  exact h.symm

theorem holdStage_same (r : Req) (cinch span dst code : Nat) (s : State) : SameMem (holdStage r cinch span dst code s).2 s := by
  unfold holdStage
  try dsimp only
  repeat' split
  all_goals (first | (simp [SameMem]; done) | (simp [SameMem]; grind [SameMem, stageOutput_same]))

@[simp] theorem holdStage_mem (r : Req) (cinch span dst code : Nat) (s : State) : (holdStage r cinch span dst code s).2.mem = s.mem := holdStage_same r cinch span dst code s

end Sys2Proof.Machine
end

