-- ==== Sys2Proof/Laws/KeptCipher.lean ====
section
/-! SUPPORT. What each operation of Machine/Cipher.lean keeps: the fuses, the life counters, the queue, and memory or its form. -/

namespace Sys2Proof.Machine

theorem cipherRefuse_core (r : Req) (status : Nat) (s : State) : SameAll (cipherRefuse r status s) s := ⟨rfl, rfl, rfl⟩

@[simp] theorem cipherRefuse_copies (r : Req) (status : Nat) (s : State) : (cipherRefuse r status s).lc.copies = s.lc.copies := (cipherRefuse_core r status s).1

@[simp] theorem cipherRefuse_life (r : Req) (status : Nat) (s : State) : (cipherRefuse r status s).fv.life = s.fv.life := (cipherRefuse_core r status s).2.1

@[simp] theorem cipherRefuse_pending (r : Req) (status : Nat) (s : State) : (cipherRefuse r status s).pending = s.pending := (cipherRefuse_core r status s).2.2

theorem cipherSubmit_core (r : Req) (b : List Byte) (key aux : Rein) (cinch staged : Nat) (s : State) : SameAll (cipherSubmit r b key aux cinch staged s).2.2 s := by
  unfold cipherSubmit
  extract_lets win lenb
  split
  · simp [SameAll]
  split
  · simp [SameAll]
  split
  next code s1 hp =>
  have hp : SameAll s1 s := by
    split at hp
    · have := congrArg Prod.snd hp; simp at this; subst this; simp [SameAll]
    · simp at hp; simp [← hp.2, SameAll]
  suffices h : ∀ t, SameAll t s1 → SameAll t s from h _ (by
    refine ite_of (P := fun p : Bool × Nat × State => SameAll p.2.2 s1) (by simp [SameAll]) ?_
    refine ite_of (P := fun p : Bool × Nat × State => SameAll p.2.2 s1) (by dsimp only; split <;> simp [SameAll]) ?_
    refine ite_of (P := fun p : Bool × Nat × State => SameAll p.2.2 s1) (by simp [SameAll]) ?_
    refine ite_of (P := fun p : Bool × Nat × State => SameAll p.2.2 s1) (by simp [SameAll]) ?_
    refine ite_of (P := fun p : Bool × Nat × State => SameAll p.2.2 s1) (by simp [SameAll]) ?_
    generalize (if (code == 1 || cipherDenied s1 r b key aux lenb) = true then stDenied else _) = row
    simp [SameAll])
  intro t ht
  exact ht.trans hp

@[simp] theorem cipherSubmit_copies (r : Req) (b : List Byte) (key aux : Rein) (cinch staged : Nat) (s : State) : (cipherSubmit r b key aux cinch staged s).2.2.lc.copies = s.lc.copies := (cipherSubmit_core r b key aux cinch staged s).1

@[simp] theorem cipherSubmit_life (r : Req) (b : List Byte) (key aux : Rein) (cinch staged : Nat) (s : State) : (cipherSubmit r b key aux cinch staged s).2.2.fv.life = s.fv.life := (cipherSubmit_core r b key aux cinch staged s).2.1

@[simp] theorem cipherSubmit_pending (r : Req) (b : List Byte) (key aux : Rein) (cinch staged : Nat) (s : State) : (cipherSubmit r b key aux cinch staged s).2.2.pending = s.pending := (cipherSubmit_core r b key aux cinch staged s).2.2

theorem sliceRead_core (j : CJob) (a1 d1 : Nat) (fin : Bool) (s : State) : SameAll (sliceRead j a1 d1 fin s).2.2 s := by simp [sliceRead, SameAll]

@[simp] theorem sliceRead_copies (j : CJob) (a1 d1 : Nat) (fin : Bool) (s : State) : (sliceRead j a1 d1 fin s).2.2.lc.copies = s.lc.copies := (sliceRead_core j a1 d1 fin s).1

@[simp] theorem sliceRead_life (j : CJob) (a1 d1 : Nat) (fin : Bool) (s : State) : (sliceRead j a1 d1 fin s).2.2.fv.life = s.fv.life := (sliceRead_core j a1 d1 fin s).2.1

@[simp] theorem sliceRead_pending (j : CJob) (a1 d1 : Nat) (fin : Bool) (s : State) : (sliceRead j a1 d1 fin s).2.2.pending = s.pending := (sliceRead_core j a1 d1 fin s).2.2

theorem cipherWork_core (j : CJob) (s : State) : SameAll (cipherWork j s).2 s := by
  have a1 : SameAll (if j.done = 0 then countUse j.tack s else s) s :=
    ite_of (P := fun t => SameAll t s) (countUse_core ..) (SameAll.refl _)
  unfold cipherWork
  extract_lets s1 t key h j1
  refine SameAll.trans ?_ (show SameAll s1 s from a1)
  clear_value s1 j1
  split
  · exact SameAll.refl _
  split
  · exact eccFound_core ..
  dsimp only
  split
  · simp [SameAll]
  have hr : ∀ (a d : Nat) (f : Bool) (r : Option (List Byte × List Byte × List Byte) × Bool × State),
      (if cSrct j.body = true then (some ([], [], []), false, s1) else sliceRead j1 a d f s1) = r → SameAll r.2.2 s1 := by
    intro a d f r he
    rw [← he]
    split
    · exact SameAll.refl _
    · exact sliceRead_core ..
  split <;> rename_i he <;> replace hr := hr _ _ _ _ he <;> (try dsimp only at hr ⊢)
  · split
    · split
      · exact (markAbort_core ..).trans hr
      · exact hr
    · exact hr
  · exact hr

@[simp] theorem cipherWork_copies (j : CJob) (s : State) : (cipherWork j s).2.lc.copies = s.lc.copies := (cipherWork_core j s).1

@[simp] theorem cipherWork_life (j : CJob) (s : State) : (cipherWork j s).2.fv.life = s.fv.life := (cipherWork_core j s).2.1

@[simp] theorem cipherWork_pending (j : CJob) (s : State) : (cipherWork j s).2.pending = s.pending := (cipherWork_core j s).2.2

theorem cipherLand_core (j : CJob) (s : State) : SameAll (cipherLand j s).2 s := by simp [cipherLand, SameAll]

@[simp] theorem cipherLand_copies (j : CJob) (s : State) : (cipherLand j s).2.lc.copies = s.lc.copies := (cipherLand_core j s).1

@[simp] theorem cipherLand_life (j : CJob) (s : State) : (cipherLand j s).2.fv.life = s.fv.life := (cipherLand_core j s).2.1

@[simp] theorem cipherLand_pending (j : CJob) (s : State) : (cipherLand j s).2.pending = s.pending := (cipherLand_core j s).2.2

theorem cipherEnd_core (j : CJob) (status outlen due : Nat) (s : State) : SameAll (cipherEnd j status outlen due s) s := by
  unfold cipherEnd
  try dsimp only
  repeat' split
  all_goals simp [SameAll]

@[simp] theorem cipherEnd_copies (j : CJob) (status outlen due : Nat) (s : State) : (cipherEnd j status outlen due s).lc.copies = s.lc.copies := (cipherEnd_core j status outlen due s).1

@[simp] theorem cipherEnd_life (j : CJob) (status outlen due : Nat) (s : State) : (cipherEnd j status outlen due s).fv.life = s.fv.life := (cipherEnd_core j status outlen due s).2.1

@[simp] theorem cipherEnd_pending (j : CJob) (status outlen due : Nat) (s : State) : (cipherEnd j status outlen due s).pending = s.pending := (cipherEnd_core j status outlen due s).2.2

theorem cipherBreak_core (j : CJob) (status due : Nat) (s : State) : SameAll (cipherBreak j status due s) s := by simp [cipherBreak, SameAll]

@[simp] theorem cipherBreak_copies (j : CJob) (status due : Nat) (s : State) : (cipherBreak j status due s).lc.copies = s.lc.copies := (cipherBreak_core j status due s).1

@[simp] theorem cipherBreak_life (j : CJob) (status due : Nat) (s : State) : (cipherBreak j status due s).fv.life = s.fv.life := (cipherBreak_core j status due s).2.1

@[simp] theorem cipherBreak_pending (j : CJob) (status due : Nat) (s : State) : (cipherBreak j status due s).pending = s.pending := (cipherBreak_core j status due s).2.2

theorem cipherFinal_core (j : CJob) (s : State) : SameAll (cipherFinal j s) s := by simp [cipherFinal, SameAll]

@[simp] theorem cipherFinal_copies (j : CJob) (s : State) : (cipherFinal j s).lc.copies = s.lc.copies := (cipherFinal_core j s).1

@[simp] theorem cipherFinal_life (j : CJob) (s : State) : (cipherFinal j s).fv.life = s.fv.life := (cipherFinal_core j s).2.1

@[simp] theorem cipherFinal_pending (j : CJob) (s : State) : (cipherFinal j s).pending = s.pending := (cipherFinal_core j s).2.2

theorem putJob_core (j : CJob) (s : State) : SameAll (putJob j s) s := ⟨rfl, rfl, rfl⟩

@[simp] theorem putJob_copies (j : CJob) (s : State) : (putJob j s).lc.copies = s.lc.copies := (putJob_core j s).1

@[simp] theorem putJob_life (j : CJob) (s : State) : (putJob j s).fv.life = s.fv.life := (putJob_core j s).2.1

@[simp] theorem putJob_pending (j : CJob) (s : State) : (putJob j s).pending = s.pending := (putJob_core j s).2.2

theorem cipherSlice_core (j : CJob) (lane : Nat) (s : State) : SameAll (cipherSlice j lane s) s := by simp [cipherSlice, SameAll]

@[simp] theorem cipherSlice_copies (j : CJob) (lane : Nat) (s : State) : (cipherSlice j lane s).lc.copies = s.lc.copies := (cipherSlice_core j lane s).1

@[simp] theorem cipherSlice_life (j : CJob) (lane : Nat) (s : State) : (cipherSlice j lane s).fv.life = s.fv.life := (cipherSlice_core j lane s).2.1

@[simp] theorem cipherSlice_pending (j : CJob) (lane : Nat) (s : State) : (cipherSlice j lane s).pending = s.pending := (cipherSlice_core j lane s).2.2

theorem useGhash_core (lane g : Nat) (s : State) : SameAll (useGhash lane g s) s := ⟨rfl, rfl, rfl⟩

@[simp] theorem useGhash_copies (lane g : Nat) (s : State) : (useGhash lane g s).lc.copies = s.lc.copies := (useGhash_core lane g s).1

@[simp] theorem useGhash_life (lane g : Nat) (s : State) : (useGhash lane g s).fv.life = s.fv.life := (useGhash_core lane g s).2.1

@[simp] theorem useGhash_pending (lane g : Nat) (s : State) : (useGhash lane g s).pending = s.pending := (useGhash_core lane g s).2.2

theorem noteMismatch_core (lane pair kind paddock : Nat) (s : State) : SameAll (noteMismatch lane pair kind paddock s) s := by simp [noteMismatch, SameAll]

@[simp] theorem noteMismatch_copies (lane pair kind paddock : Nat) (s : State) : (noteMismatch lane pair kind paddock s).lc.copies = s.lc.copies := (noteMismatch_core lane pair kind paddock s).1

@[simp] theorem noteMismatch_life (lane pair kind paddock : Nat) (s : State) : (noteMismatch lane pair kind paddock s).fv.life = s.fv.life := (noteMismatch_core lane pair kind paddock s).2.1

@[simp] theorem noteMismatch_pending (lane pair kind paddock : Nat) (s : State) : (noteMismatch lane pair kind paddock s).pending = s.pending := (noteMismatch_core lane pair kind paddock s).2.2

theorem runParts_core (j : CJob) (parts : List Cell) (fs : List HwFault) (s : State) : SameAll (runParts j parts fs s).2 s := by
  unfold runParts
  try dsimp only
  repeat' split
  all_goals simp [SameAll]

@[simp] theorem runParts_copies (j : CJob) (parts : List Cell) (fs : List HwFault) (s : State) : (runParts j parts fs s).2.lc.copies = s.lc.copies := (runParts_core j parts fs s).1

@[simp] theorem runParts_life (j : CJob) (parts : List Cell) (fs : List HwFault) (s : State) : (runParts j parts fs s).2.fv.life = s.fv.life := (runParts_core j parts fs s).2.1

@[simp] theorem runParts_pending (j : CJob) (parts : List Cell) (fs : List HwFault) (s : State) : (runParts j parts fs s).2.pending = s.pending := (runParts_core j parts fs s).2.2

theorem runLong_core (x0 : List CJob) (x1 : List Cell) (x2 : List HwFault) (s : State) : SameAll (runLong x0 x1 x2 s).2.2 s := by
  fun_induction runLong x0 x1 x2 s
  all_goals (first | (simp [SameAll]; done) | (refine SameAll.trans (by assumption) ?_; simp +zetaDelta [SameAll]))

@[simp] theorem runLong_copies (x0 : List CJob) (x1 : List Cell) (x2 : List HwFault) (s : State) : (runLong x0 x1 x2 s).2.2.lc.copies = s.lc.copies := (runLong_core x0 x1 x2 s).1

@[simp] theorem runLong_life (x0 : List CJob) (x1 : List Cell) (x2 : List HwFault) (s : State) : (runLong x0 x1 x2 s).2.2.fv.life = s.fv.life := (runLong_core x0 x1 x2 s).2.1

@[simp] theorem runLong_pending (x0 : List CJob) (x1 : List Cell) (x2 : List HwFault) (s : State) : (runLong x0 x1 x2 s).2.2.pending = s.pending := (runLong_core x0 x1 x2 s).2.2

theorem runShort_core (x0 : List CJob) (x1 : List Cell) (x2 : List HwFault) (s : State) : SameAll (runShort x0 x1 x2 s).2 s := by
  fun_induction runShort x0 x1 x2 s
  all_goals (first | (simp [SameAll]; done) | (refine SameAll.trans (by assumption) ?_; simp +zetaDelta [SameAll]))

@[simp] theorem runShort_copies (x0 : List CJob) (x1 : List Cell) (x2 : List HwFault) (s : State) : (runShort x0 x1 x2 s).2.lc.copies = s.lc.copies := (runShort_core x0 x1 x2 s).1

@[simp] theorem runShort_life (x0 : List CJob) (x1 : List Cell) (x2 : List HwFault) (s : State) : (runShort x0 x1 x2 s).2.fv.life = s.fv.life := (runShort_core x0 x1 x2 s).2.1

@[simp] theorem runShort_pending (x0 : List CJob) (x1 : List Cell) (x2 : List HwFault) (s : State) : (runShort x0 x1 x2 s).2.pending = s.pending := (runShort_core x0 x1 x2 s).2.2

theorem servePaddock_core (p : Nat) (fs : List HwFault) (s : State) : SameAll (servePaddock p fs s).2 s := by simp [servePaddock, SameAll]

@[simp] theorem servePaddock_copies (p : Nat) (fs : List HwFault) (s : State) : (servePaddock p fs s).2.lc.copies = s.lc.copies := (servePaddock_core p fs s).1

@[simp] theorem servePaddock_life (p : Nat) (fs : List HwFault) (s : State) : (servePaddock p fs s).2.fv.life = s.fv.life := (servePaddock_core p fs s).2.1

@[simp] theorem servePaddock_pending (p : Nat) (fs : List HwFault) (s : State) : (servePaddock p fs s).2.pending = s.pending := (servePaddock_core p fs s).2.2

theorem fenceOverrun_core (s : State) (lane : Nat) : SameAll (fenceOverrun s lane) s := by simp [fenceOverrun, SameAll]

@[simp] theorem fenceOverrun_copies (s : State) (lane : Nat) : (fenceOverrun s lane).lc.copies = s.lc.copies := (fenceOverrun_core s lane).1

@[simp] theorem fenceOverrun_life (s : State) (lane : Nat) : (fenceOverrun s lane).fv.life = s.fv.life := (fenceOverrun_core s lane).2.1

@[simp] theorem fenceOverrun_pending (s : State) (lane : Nat) : (fenceOverrun s lane).pending = s.pending := (fenceOverrun_core s lane).2.2

theorem cipherSlices_core (fs : List HwFault) (s : State) : SameAll (cipherSlices fs s) s := by simp [cipherSlices, SameAll]

@[simp] theorem cipherSlices_copies (fs : List HwFault) (s : State) : (cipherSlices fs s).lc.copies = s.lc.copies := (cipherSlices_core fs s).1

@[simp] theorem cipherSlices_life (fs : List HwFault) (s : State) : (cipherSlices fs s).fv.life = s.fv.life := (cipherSlices_core fs s).2.1

@[simp] theorem cipherSlices_pending (fs : List HwFault) (s : State) : (cipherSlices fs s).pending = s.pending := (cipherSlices_core fs s).2.2

theorem cipherFences_core (s : State) : SameAll (cipherFences s) s := by simp [cipherFences, SameAll]

@[simp] theorem cipherFences_copies (s : State) : (cipherFences s).lc.copies = s.lc.copies := (cipherFences_core s).1

@[simp] theorem cipherFences_life (s : State) : (cipherFences s).fv.life = s.fv.life := (cipherFences_core s).2.1

@[simp] theorem cipherFences_pending (s : State) : (cipherFences s).pending = s.pending := (cipherFences_core s).2.2

theorem cipherCuts_core (s : State) : SameAll (cipherCuts s) s := by simp [cipherCuts, SameAll]

@[simp] theorem cipherCuts_copies (s : State) : (cipherCuts s).lc.copies = s.lc.copies := (cipherCuts_core s).1

@[simp] theorem cipherCuts_life (s : State) : (cipherCuts s).fv.life = s.fv.life := (cipherCuts_core s).2.1

@[simp] theorem cipherCuts_pending (s : State) : (cipherCuts s).pending = s.pending := (cipherCuts_core s).2.2

theorem cutCipher_core (test : CJob → Bool) (status : Nat) (s : State) : SameAll (cutCipher test status s) s := ⟨rfl, rfl, rfl⟩

@[simp] theorem cutCipher_copies (test : CJob → Bool) (status : Nat) (s : State) : (cutCipher test status s).lc.copies = s.lc.copies := (cutCipher_core test status s).1

@[simp] theorem cutCipher_life (test : CJob → Bool) (status : Nat) (s : State) : (cutCipher test status s).fv.life = s.fv.life := (cutCipher_core test status s).2.1

@[simp] theorem cutCipher_pending (test : CJob → Bool) (status : Nat) (s : State) : (cutCipher test status s).pending = s.pending := (cutCipher_core test status s).2.2

theorem cipherFrame_core (s : State) : SameAll (cipherFrame s) s := ⟨rfl, rfl, rfl⟩

@[simp] theorem cipherFrame_copies (s : State) : (cipherFrame s).lc.copies = s.lc.copies := (cipherFrame_core s).1

@[simp] theorem cipherFrame_life (s : State) : (cipherFrame s).fv.life = s.fv.life := (cipherFrame_core s).2.1

@[simp] theorem cipherFrame_pending (s : State) : (cipherFrame s).pending = s.pending := (cipherFrame_core s).2.2

theorem writeCfRsv_core (v : W32) (s : State) : SameAll (writeCfRsv v s) s := by simp [writeCfRsv, SameAll]

@[simp] theorem writeCfRsv_copies (v : W32) (s : State) : (writeCfRsv v s).lc.copies = s.lc.copies := (writeCfRsv_core v s).1

@[simp] theorem writeCfRsv_life (v : W32) (s : State) : (writeCfRsv v s).fv.life = s.fv.life := (writeCfRsv_core v s).2.1

@[simp] theorem writeCfRsv_pending (v : W32) (s : State) : (writeCfRsv v s).pending = s.pending := (writeCfRsv_core v s).2.2

theorem writeCfCtx_core (v : W32) (s : State) : SameAll (writeCfCtx v s) s := by simp [writeCfCtx, SameAll]

@[simp] theorem writeCfCtx_copies (v : W32) (s : State) : (writeCfCtx v s).lc.copies = s.lc.copies := (writeCfCtx_core v s).1

@[simp] theorem writeCfCtx_life (v : W32) (s : State) : (writeCfCtx v s).fv.life = s.fv.life := (writeCfCtx_core v s).2.1

@[simp] theorem writeCfCtx_pending (v : W32) (s : State) : (writeCfCtx v s).pending = s.pending := (writeCfCtx_core v s).2.2

theorem cipherRefuse_same (r : Req) (status : Nat) (s : State) : SameMem (cipherRefuse r status s) s := by
  unfold cipherRefuse
  try dsimp only
  repeat' split
  all_goals (first | (simp [SameMem]; done) | exact rfl | (simp_all [SameMem]; done) | grind [SameMem] | (simp [SameMem]; grind [SameMem]) | (simp +zetaDelta [SameMem]; done) | ((try dsimp only); (repeat' (first | (exact SameMem.refl _) | assumption | (simp [SameMem]; done) | split | with_reducible refine SameMem.trans (SameMem.foldl (fun _ _ => ?_) _ _) ?_ | with_reducible refine SameMem.trans (SameMem.foldr (fun _ _ => ?_) _ _) ?_ | with_reducible refine SameMem.trans rfl ?_)); done) | (refine SameMem.foldl ?_ _ _; intro st x; (try dsimp only); (repeat' split); all_goals (first | (simp [SameMem]; done) | (simp_all [SameMem]; done) | grind [SameMem])))

@[simp] theorem cipherRefuse_mem (r : Req) (status : Nat) (s : State) : (cipherRefuse r status s).mem = s.mem := cipherRefuse_same r status s

theorem cipherSubmit_same (r : Req) (b : List Byte) (key aux : Rein) (cinch staged : Nat) (s : State) : SameMem (cipherSubmit r b key aux cinch staged s).2.2 s := by
  unfold cipherSubmit
  extract_lets win lenb
  split
  · simp [SameMem]
  split
  · simp [SameMem]
  split
  next code s1 hp =>
  have hp : SameMem s1 s := by
    split at hp
    · have := congrArg Prod.snd hp; simp at this; subst this; simp [SameMem]
    · simp at hp; simp [← hp.2, SameMem]
  suffices h : ∀ t, SameMem t s1 → SameMem t s from h _ (by
    refine ite_of (P := fun p : Bool × Nat × State => SameMem p.2.2 s1) (by simp [SameMem]) ?_
    refine ite_of (P := fun p : Bool × Nat × State => SameMem p.2.2 s1) (by dsimp only; split <;> simp [SameMem]) ?_
    refine ite_of (P := fun p : Bool × Nat × State => SameMem p.2.2 s1) (by simp [SameMem]) ?_
    refine ite_of (P := fun p : Bool × Nat × State => SameMem p.2.2 s1) (by simp [SameMem]) ?_
    refine ite_of (P := fun p : Bool × Nat × State => SameMem p.2.2 s1) (by simp [SameMem]) ?_
    generalize (if (code == 1 || cipherDenied s1 r b key aux lenb) = true then stDenied else _) = row
    simp [SameMem])
  intro t ht
  exact ht.trans hp

@[simp] theorem cipherSubmit_mem (r : Req) (b : List Byte) (key aux : Rein) (cinch staged : Nat) (s : State) : (cipherSubmit r b key aux cinch staged s).2.2.mem = s.mem := cipherSubmit_same r b key aux cinch staged s

theorem sliceRead_same (j : CJob) (a1 d1 : Nat) (fin : Bool) (s : State) : SameMem (sliceRead j a1 d1 fin s).2.2 s := by
  unfold sliceRead
  try dsimp only
  repeat' split
  all_goals (first | (simp [SameMem]; done) | exact rfl | (simp_all [SameMem]; done) | grind [SameMem, jobRead_same] | (simp [SameMem]; grind [SameMem, jobRead_same]) | (simp +zetaDelta [SameMem]; done) | ((try dsimp only); (repeat' (first | (exact SameMem.refl _) | assumption | (simp [SameMem]; done) | split | with_reducible refine SameMem.trans (jobRead_same ..) ?_ | with_reducible refine SameMem.trans (SameMem.foldl (fun _ _ => ?_) _ _) ?_ | with_reducible refine SameMem.trans (SameMem.foldr (fun _ _ => ?_) _ _) ?_ | with_reducible refine SameMem.trans rfl ?_)); done) | (refine SameMem.foldl ?_ _ _; intro st x; (try dsimp only); (repeat' split); all_goals (first | (simp [SameMem]; done) | (simp_all [SameMem]; done) | grind [SameMem, jobRead_same])))

@[simp] theorem sliceRead_mem (j : CJob) (a1 d1 : Nat) (fin : Bool) (s : State) : (sliceRead j a1 d1 fin s).2.2.mem = s.mem := sliceRead_same j a1 d1 fin s

theorem cipherWork_same (j : CJob) (s : State) : SameMem (cipherWork j s).2 s := by
  have a1 : SameMem (if j.done = 0 then countUse j.tack s else s) s :=
    ite_of (P := fun t => SameMem t s) (countUse_same ..) (SameMem.refl _)
  unfold cipherWork
  extract_lets s1 t key h j1
  refine SameMem.trans ?_ (show SameMem s1 s from a1)
  clear_value s1 j1
  split
  · exact SameMem.refl _
  split
  · exact eccFound_same ..
  dsimp only
  split
  · simp [SameMem]
  have hr : ∀ (a d : Nat) (f : Bool) (r : Option (List Byte × List Byte × List Byte) × Bool × State),
      (if cSrct j.body = true then (some ([], [], []), false, s1) else sliceRead j1 a d f s1) = r → SameMem r.2.2 s1 := by
    intro a d f r he
    rw [← he]
    split
    · exact SameMem.refl _
    · exact sliceRead_same ..
  split <;> rename_i he <;> replace hr := hr _ _ _ _ he <;> (try dsimp only at hr ⊢)
  · split
    · split
      · exact (markAbort_same ..).trans hr
      · exact hr
    · exact hr
  · exact hr

@[simp] theorem cipherWork_mem (j : CJob) (s : State) : (cipherWork j s).2.mem = s.mem := cipherWork_same j s

theorem cipherLand_wf (j : CJob) (s : State) : KeepMem (cipherLand j s).2 s := by
  unfold cipherLand
  try dsimp only
  iterate 30 all_goals (try first | with_reducible exact KeepMem.refl _ | assumption | split | with_reducible refine KeepMem.trans (jobWrite_wf ..) ?_ | with_reducible refine KeepMem.trans (KeepMem.foldl (fun _ _ => ?_) _ _) ?_ | with_reducible refine KeepMem.trans (KeepMem.foldr (fun _ _ => ?_) _ _) ?_ | with_reducible refine KeepMem.trans (KeepMem.foldl_fst (fun _ _ => ?_) _ _) ?_ | with_reducible refine KeepMem.trans (KeepMem.foldl_snd (fun _ _ => ?_) _ _) ?_ | with_reducible refine KeepMem.trans (KeepMem.foldl_thd (fun _ _ => ?_) _ _) ?_ | (apply KeepMem.of_eq; simp; done) | with_reducible refine KeepMem.trans (KeepMem.record ..) ?_)
  all_goals (first | grind [jobWrite_wf])

theorem cipherEnd_same (j : CJob) (status outlen due : Nat) (s : State) : SameMem (cipherEnd j status outlen due s) s := by
  unfold cipherEnd
  try dsimp only
  repeat' split
  all_goals (first | (simp [SameMem]; done) | exact rfl | (simp_all [SameMem]; done) | grind [SameMem] | (simp [SameMem]; grind [SameMem]) | (simp +zetaDelta [SameMem]; done) | ((try dsimp only); (repeat' (first | (exact SameMem.refl _) | assumption | (simp [SameMem]; done) | split | with_reducible refine SameMem.trans (dropUse_same ..) ?_ | with_reducible refine SameMem.trans (unfillTack_same ..) ?_ | with_reducible refine SameMem.trans (endHeld_same ..) ?_ | with_reducible refine SameMem.trans (SameMem.foldl (fun _ _ => ?_) _ _) ?_ | with_reducible refine SameMem.trans (SameMem.foldr (fun _ _ => ?_) _ _) ?_ | with_reducible refine SameMem.trans rfl ?_)); done) | (refine SameMem.foldl ?_ _ _; intro st x; (try dsimp only); (repeat' split); all_goals (first | (simp [SameMem]; done) | (simp_all [SameMem]; done) | grind [SameMem])))

@[simp] theorem cipherEnd_mem (j : CJob) (status outlen due : Nat) (s : State) : (cipherEnd j status outlen due s).mem = s.mem := cipherEnd_same j status outlen due s

theorem cipherBreak_wf (j : CJob) (status due : Nat) (s : State) : KeepMem (cipherBreak j status due s) s := by
  unfold cipherBreak
  try dsimp only
  iterate 30 all_goals (try first | with_reducible exact KeepMem.refl _ | assumption | split | with_reducible refine KeepMem.trans (partialUnits_wf ..) ?_ | with_reducible refine KeepMem.trans (KeepMem.of_eq (cipherEnd_mem ..)) ?_ | with_reducible refine KeepMem.trans (KeepMem.foldl (fun _ _ => ?_) _ _) ?_ | with_reducible refine KeepMem.trans (KeepMem.foldr (fun _ _ => ?_) _ _) ?_ | with_reducible refine KeepMem.trans (KeepMem.foldl_fst (fun _ _ => ?_) _ _) ?_ | with_reducible refine KeepMem.trans (KeepMem.foldl_snd (fun _ _ => ?_) _ _) ?_ | with_reducible refine KeepMem.trans (KeepMem.foldl_thd (fun _ _ => ?_) _ _) ?_ | (apply KeepMem.of_eq; simp; done) | with_reducible refine KeepMem.trans (KeepMem.record ..) ?_)

theorem cipherFinal_wf (j : CJob) (s : State) : KeepMem (cipherFinal j s) s := by
  unfold cipherFinal
  try dsimp only
  iterate 30 all_goals (try first | with_reducible exact KeepMem.refl _ | assumption | split | with_reducible refine KeepMem.trans (jobWrite_wf ..) ?_ | with_reducible refine KeepMem.trans (cipherLand_wf ..) ?_ | with_reducible refine KeepMem.trans (cipherBreak_wf ..) ?_ | with_reducible refine KeepMem.trans (KeepMem.of_eq (fillUnder_mem ..)) ?_ | with_reducible refine KeepMem.trans (KeepMem.of_eq (fillTack_mem ..)) ?_ | with_reducible refine KeepMem.trans (KeepMem.of_eq (cipherEnd_mem ..)) ?_ | with_reducible refine KeepMem.trans (KeepMem.foldl (fun _ _ => ?_) _ _) ?_ | with_reducible refine KeepMem.trans (KeepMem.foldr (fun _ _ => ?_) _ _) ?_ | with_reducible refine KeepMem.trans (KeepMem.foldl_fst (fun _ _ => ?_) _ _) ?_ | with_reducible refine KeepMem.trans (KeepMem.foldl_snd (fun _ _ => ?_) _ _) ?_ | with_reducible refine KeepMem.trans (KeepMem.foldl_thd (fun _ _ => ?_) _ _) ?_ | (apply KeepMem.of_eq; simp; done) | with_reducible refine KeepMem.trans (KeepMem.record ..) ?_)
  all_goals (first | grind [jobWrite_wf, cipherLand_wf])

theorem putJob_same (j : CJob) (s : State) : SameMem (putJob j s) s := by
  unfold putJob
  try dsimp only
  repeat' split
  all_goals (first | (simp [SameMem]; done) | exact rfl | (simp_all [SameMem]; done) | grind [SameMem] | (simp [SameMem]; grind [SameMem]) | (simp +zetaDelta [SameMem]; done) | ((try dsimp only); (repeat' (first | (exact SameMem.refl _) | assumption | (simp [SameMem]; done) | split | with_reducible refine SameMem.trans (SameMem.foldl (fun _ _ => ?_) _ _) ?_ | with_reducible refine SameMem.trans (SameMem.foldr (fun _ _ => ?_) _ _) ?_ | with_reducible refine SameMem.trans rfl ?_)); done) | (refine SameMem.foldl ?_ _ _; intro st x; (try dsimp only); (repeat' split); all_goals (first | (simp [SameMem]; done) | (simp_all [SameMem]; done) | grind [SameMem])))

@[simp] theorem putJob_mem (j : CJob) (s : State) : (putJob j s).mem = s.mem := putJob_same j s

theorem cipherSlice_wf (j : CJob) (lane : Nat) (s : State) : KeepMem (cipherSlice j lane s) s := by
  unfold cipherSlice
  try dsimp only
  iterate 30 all_goals (try first | with_reducible exact KeepMem.refl _ | assumption | split | with_reducible refine KeepMem.trans (cipherLand_wf ..) ?_ | with_reducible refine KeepMem.trans (cipherFinal_wf ..) ?_ | with_reducible refine KeepMem.trans (KeepMem.of_eq (cipherWork_mem ..)) ?_ | with_reducible refine KeepMem.trans (KeepMem.of_eq (putJob_mem ..)) ?_ | with_reducible refine KeepMem.trans (KeepMem.foldl (fun _ _ => ?_) _ _) ?_ | with_reducible refine KeepMem.trans (KeepMem.foldr (fun _ _ => ?_) _ _) ?_ | with_reducible refine KeepMem.trans (KeepMem.foldl_fst (fun _ _ => ?_) _ _) ?_ | with_reducible refine KeepMem.trans (KeepMem.foldl_snd (fun _ _ => ?_) _ _) ?_ | with_reducible refine KeepMem.trans (KeepMem.foldl_thd (fun _ _ => ?_) _ _) ?_ | (apply KeepMem.of_eq; simp; done) | with_reducible refine KeepMem.trans (KeepMem.record ..) ?_)
  all_goals (first | (apply KeepMem.of_eq; grind [cipherWork_mem]) | grind [cipherLand_wf])

theorem useGhash_same (lane g : Nat) (s : State) : SameMem (useGhash lane g s) s := by
  unfold useGhash
  try dsimp only
  repeat' split
  all_goals (first | (simp [SameMem]; done) | exact rfl | (simp_all [SameMem]; done) | grind [SameMem] | (simp [SameMem]; grind [SameMem]) | (simp +zetaDelta [SameMem]; done) | ((try dsimp only); (repeat' (first | (exact SameMem.refl _) | assumption | (simp [SameMem]; done) | split | with_reducible refine SameMem.trans (SameMem.foldl (fun _ _ => ?_) _ _) ?_ | with_reducible refine SameMem.trans (SameMem.foldr (fun _ _ => ?_) _ _) ?_ | with_reducible refine SameMem.trans rfl ?_)); done) | (refine SameMem.foldl ?_ _ _; intro st x; (try dsimp only); (repeat' split); all_goals (first | (simp [SameMem]; done) | (simp_all [SameMem]; done) | grind [SameMem])))

@[simp] theorem useGhash_mem (lane g : Nat) (s : State) : (useGhash lane g s).mem = s.mem := useGhash_same lane g s

theorem noteMismatch_same (lane pair kind paddock : Nat) (s : State) : SameMem (noteMismatch lane pair kind paddock s) s := by
  unfold noteMismatch
  try dsimp only
  repeat' split
  all_goals (first | (simp [SameMem]; done) | exact rfl | (simp_all [SameMem]; done) | grind [SameMem] | (simp [SameMem]; grind [SameMem]) | (simp +zetaDelta [SameMem]; done) | ((try dsimp only); (repeat' (first | (exact SameMem.refl _) | assumption | (simp [SameMem]; done) | split | with_reducible refine SameMem.trans (setEvent_same ..) ?_ | with_reducible refine SameMem.trans (itemAdd_same ..) ?_ | with_reducible refine SameMem.trans (SameMem.foldl (fun _ _ => ?_) _ _) ?_ | with_reducible refine SameMem.trans (SameMem.foldr (fun _ _ => ?_) _ _) ?_ | with_reducible refine SameMem.trans rfl ?_)); done) | (refine SameMem.foldl ?_ _ _; intro st x; (try dsimp only); (repeat' split); all_goals (first | (simp [SameMem]; done) | (simp_all [SameMem]; done) | grind [SameMem])))

@[simp] theorem noteMismatch_mem (lane pair kind paddock : Nat) (s : State) : (noteMismatch lane pair kind paddock s).mem = s.mem := noteMismatch_same lane pair kind paddock s

theorem runParts_wf (j : CJob) (parts : List Cell) (fs : List HwFault) (s : State) : KeepMem (runParts j parts fs s).2 s := by
  unfold runParts
  try dsimp only
  iterate 30 all_goals (try first | with_reducible exact KeepMem.refl _ | assumption | split | with_reducible refine KeepMem.trans (cipherBreak_wf ..) ?_ | with_reducible refine KeepMem.trans (cipherSlice_wf ..) ?_ | with_reducible refine KeepMem.trans (KeepMem.of_eq (cipherWork_mem ..)) ?_ | with_reducible refine KeepMem.trans (KeepMem.of_eq (noteMismatch_mem ..)) ?_ | with_reducible refine KeepMem.trans (KeepMem.foldl (fun _ _ => ?_) _ _) ?_ | with_reducible refine KeepMem.trans (KeepMem.foldr (fun _ _ => ?_) _ _) ?_ | with_reducible refine KeepMem.trans (KeepMem.foldl_fst (fun _ _ => ?_) _ _) ?_ | with_reducible refine KeepMem.trans (KeepMem.foldl_snd (fun _ _ => ?_) _ _) ?_ | with_reducible refine KeepMem.trans (KeepMem.foldl_thd (fun _ _ => ?_) _ _) ?_ | (apply KeepMem.of_eq; simp; done) | with_reducible refine KeepMem.trans (KeepMem.record ..) ?_)
  all_goals (first | (apply KeepMem.of_eq; grind [cipherWork_mem]))

theorem runLong_wf (x0 : List CJob) (x1 : List Cell) (x2 : List HwFault) (s : State) : KeepMem (runLong x0 x1 x2 s).2.2 s := by
  fun_induction runLong x0 x1 x2 s
  iterate 30 all_goals (try first | with_reducible exact KeepMem.refl _ | (refine KeepMem.trans (by assumption) ?_) | split | with_reducible refine KeepMem.trans (runParts_wf ..) ?_ | with_reducible refine KeepMem.trans (KeepMem.of_eq (useGhash_mem ..)) ?_ | with_reducible refine KeepMem.trans (KeepMem.foldl (fun _ _ => ?_) _ _) ?_ | with_reducible refine KeepMem.trans (KeepMem.foldr (fun _ _ => ?_) _ _) ?_ | with_reducible refine KeepMem.trans (KeepMem.foldl_fst (fun _ _ => ?_) _ _) ?_ | with_reducible refine KeepMem.trans (KeepMem.foldl_snd (fun _ _ => ?_) _ _) ?_ | with_reducible refine KeepMem.trans (KeepMem.foldl_thd (fun _ _ => ?_) _ _) ?_ | (apply KeepMem.of_eq; simp; done) | with_reducible refine KeepMem.trans (KeepMem.record ..) ?_)
  all_goals (first | grind [runParts_wf])

theorem runShort_wf (x0 : List CJob) (x1 : List Cell) (x2 : List HwFault) (s : State) : KeepMem (runShort x0 x1 x2 s).2 s := by
  fun_induction runShort x0 x1 x2 s
  iterate 30 all_goals (try first | with_reducible exact KeepMem.refl _ | (refine KeepMem.trans (by assumption) ?_) | split | with_reducible refine KeepMem.trans (runParts_wf ..) ?_ | with_reducible refine KeepMem.trans (KeepMem.of_eq (useGhash_mem ..)) ?_ | with_reducible refine KeepMem.trans (KeepMem.foldl (fun _ _ => ?_) _ _) ?_ | with_reducible refine KeepMem.trans (KeepMem.foldr (fun _ _ => ?_) _ _) ?_ | with_reducible refine KeepMem.trans (KeepMem.foldl_fst (fun _ _ => ?_) _ _) ?_ | with_reducible refine KeepMem.trans (KeepMem.foldl_snd (fun _ _ => ?_) _ _) ?_ | with_reducible refine KeepMem.trans (KeepMem.foldl_thd (fun _ _ => ?_) _ _) ?_ | (apply KeepMem.of_eq; simp; done) | with_reducible refine KeepMem.trans (KeepMem.record ..) ?_)
  all_goals (first | grind [runParts_wf])

theorem servePaddock_wf (p : Nat) (fs : List HwFault) (s : State) : KeepMem (servePaddock p fs s).2 s := by
  unfold servePaddock
  try dsimp only
  iterate 30 all_goals (try first | with_reducible exact KeepMem.refl _ | assumption | split | with_reducible refine KeepMem.trans (runLong_wf ..) ?_ | with_reducible refine KeepMem.trans (runShort_wf ..) ?_ | with_reducible refine KeepMem.trans (KeepMem.foldl (fun _ _ => ?_) _ _) ?_ | with_reducible refine KeepMem.trans (KeepMem.foldr (fun _ _ => ?_) _ _) ?_ | with_reducible refine KeepMem.trans (KeepMem.foldl_fst (fun _ _ => ?_) _ _) ?_ | with_reducible refine KeepMem.trans (KeepMem.foldl_snd (fun _ _ => ?_) _ _) ?_ | with_reducible refine KeepMem.trans (KeepMem.foldl_thd (fun _ _ => ?_) _ _) ?_ | (apply KeepMem.of_eq; simp; done) | with_reducible refine KeepMem.trans (KeepMem.record ..) ?_)
  all_goals (first | grind [runLong_wf, runShort_wf])

theorem fenceOverrun_same (s : State) (lane : Nat) : SameMem (fenceOverrun s lane) s := by
  unfold fenceOverrun
  try dsimp only
  repeat' split
  all_goals (first | (simp [SameMem]; done) | exact rfl | (simp_all [SameMem]; done) | grind [SameMem] | (simp [SameMem]; grind [SameMem]) | (simp +zetaDelta [SameMem]; done) | ((try dsimp only); (repeat' (first | (exact SameMem.refl _) | assumption | (simp [SameMem]; done) | split | with_reducible refine SameMem.trans (noteMismatch_same ..) ?_ | with_reducible refine SameMem.trans (SameMem.foldl (fun _ _ => ?_) _ _) ?_ | with_reducible refine SameMem.trans (SameMem.foldr (fun _ _ => ?_) _ _) ?_ | with_reducible refine SameMem.trans rfl ?_)); done) | (refine SameMem.foldl ?_ _ _; intro st x; (try dsimp only); (repeat' split); all_goals (first | (simp [SameMem]; done) | (simp_all [SameMem]; done) | grind [SameMem])))

@[simp] theorem fenceOverrun_mem (s : State) (lane : Nat) : (fenceOverrun s lane).mem = s.mem := fenceOverrun_same s lane

theorem cipherSlices_wf (fs : List HwFault) (s : State) : KeepMem (cipherSlices fs s) s := by
  unfold cipherSlices
  try dsimp only
  iterate 30 all_goals (try first | with_reducible exact KeepMem.refl _ | assumption | split | with_reducible refine KeepMem.trans (servePaddock_wf ..) ?_ | with_reducible refine KeepMem.trans (KeepMem.of_eq (fenceOverrun_mem ..)) ?_ | with_reducible refine KeepMem.trans (KeepMem.foldl (fun _ _ => ?_) _ _) ?_ | with_reducible refine KeepMem.trans (KeepMem.foldr (fun _ _ => ?_) _ _) ?_ | with_reducible refine KeepMem.trans (KeepMem.foldl_fst (fun _ _ => ?_) _ _) ?_ | with_reducible refine KeepMem.trans (KeepMem.foldl_snd (fun _ _ => ?_) _ _) ?_ | with_reducible refine KeepMem.trans (KeepMem.foldl_thd (fun _ _ => ?_) _ _) ?_ | (apply KeepMem.of_eq; simp; done) | with_reducible refine KeepMem.trans (KeepMem.record ..) ?_)
  all_goals (first | grind [servePaddock_wf])

theorem cipherFences_same (s : State) : SameMem (cipherFences s) s := by
  unfold cipherFences
  try dsimp only
  repeat' split
  all_goals (first | (simp [SameMem]; done) | exact rfl | (simp_all [SameMem]; done) | grind [SameMem] | (simp [SameMem]; grind [SameMem]) | (simp +zetaDelta [SameMem]; done) | ((try dsimp only); (repeat' (first | (exact SameMem.refl _) | assumption | (simp [SameMem]; done) | split | with_reducible refine SameMem.trans (setEvent_same ..) ?_ | with_reducible refine SameMem.trans (setEventIf_same ..) ?_ | with_reducible refine SameMem.trans (fenceUnit_same ..) ?_ | with_reducible refine SameMem.trans (SameMem.foldl (fun _ _ => ?_) _ _) ?_ | with_reducible refine SameMem.trans (SameMem.foldr (fun _ _ => ?_) _ _) ?_ | with_reducible refine SameMem.trans rfl ?_)); done) | (refine SameMem.foldl ?_ _ _; intro st x; (try dsimp only); (repeat' split); all_goals (first | (simp [SameMem]; done) | (simp_all [SameMem]; done) | grind [SameMem])))

@[simp] theorem cipherFences_mem (s : State) : (cipherFences s).mem = s.mem := cipherFences_same s

theorem cipherCuts_wf (s : State) : KeepMem (cipherCuts s) s := by
  unfold cipherCuts
  try dsimp only
  iterate 30 all_goals (try first | with_reducible exact KeepMem.refl _ | assumption | split | with_reducible refine KeepMem.trans (cipherBreak_wf ..) ?_ | with_reducible refine KeepMem.trans (KeepMem.foldl (fun _ _ => ?_) _ _) ?_ | with_reducible refine KeepMem.trans (KeepMem.foldr (fun _ _ => ?_) _ _) ?_ | with_reducible refine KeepMem.trans (KeepMem.foldl_fst (fun _ _ => ?_) _ _) ?_ | with_reducible refine KeepMem.trans (KeepMem.foldl_snd (fun _ _ => ?_) _ _) ?_ | with_reducible refine KeepMem.trans (KeepMem.foldl_thd (fun _ _ => ?_) _ _) ?_ | (apply KeepMem.of_eq; simp; done) | with_reducible refine KeepMem.trans (KeepMem.record ..) ?_)

theorem cutCipher_same (test : CJob → Bool) (status : Nat) (s : State) : SameMem (cutCipher test status s) s := by
  unfold cutCipher
  try dsimp only
  repeat' split
  all_goals (first | (simp [SameMem]; done) | exact rfl | (simp_all [SameMem]; done) | grind [SameMem] | (simp [SameMem]; grind [SameMem]) | (simp +zetaDelta [SameMem]; done) | ((try dsimp only); (repeat' (first | (exact SameMem.refl _) | assumption | (simp [SameMem]; done) | split | with_reducible refine SameMem.trans (SameMem.foldl (fun _ _ => ?_) _ _) ?_ | with_reducible refine SameMem.trans (SameMem.foldr (fun _ _ => ?_) _ _) ?_ | with_reducible refine SameMem.trans rfl ?_)); done) | (refine SameMem.foldl ?_ _ _; intro st x; (try dsimp only); (repeat' split); all_goals (first | (simp [SameMem]; done) | (simp_all [SameMem]; done) | grind [SameMem])))

@[simp] theorem cutCipher_mem (test : CJob → Bool) (status : Nat) (s : State) : (cutCipher test status s).mem = s.mem := cutCipher_same test status s

theorem cipherFrame_same (s : State) : SameMem (cipherFrame s) s := by
  unfold cipherFrame
  try dsimp only
  repeat' split
  all_goals (first | (simp [SameMem]; done) | exact rfl | (simp_all [SameMem]; done) | grind [SameMem] | (simp [SameMem]; grind [SameMem]) | (simp +zetaDelta [SameMem]; done) | ((try dsimp only); (repeat' (first | (exact SameMem.refl _) | assumption | (simp [SameMem]; done) | split | with_reducible refine SameMem.trans (SameMem.foldl (fun _ _ => ?_) _ _) ?_ | with_reducible refine SameMem.trans (SameMem.foldr (fun _ _ => ?_) _ _) ?_ | with_reducible refine SameMem.trans rfl ?_)); done) | (refine SameMem.foldl ?_ _ _; intro st x; (try dsimp only); (repeat' split); all_goals (first | (simp [SameMem]; done) | (simp_all [SameMem]; done) | grind [SameMem])))

@[simp] theorem cipherFrame_mem (s : State) : (cipherFrame s).mem = s.mem := cipherFrame_same s

theorem writeCfRsv_same (v : W32) (s : State) : SameMem (writeCfRsv v s) s := by
  unfold writeCfRsv
  try dsimp only
  repeat' split
  all_goals (first | (simp [SameMem]; done) | exact rfl | (simp_all [SameMem]; done) | grind [SameMem] | (simp [SameMem]; grind [SameMem]) | (simp +zetaDelta [SameMem]; done) | ((try dsimp only); (repeat' (first | (exact SameMem.refl _) | assumption | (simp [SameMem]; done) | split | with_reducible refine SameMem.trans (setEvent_same ..) ?_ | with_reducible refine SameMem.trans (SameMem.foldl (fun _ _ => ?_) _ _) ?_ | with_reducible refine SameMem.trans (SameMem.foldr (fun _ _ => ?_) _ _) ?_ | with_reducible refine SameMem.trans rfl ?_)); done) | (refine SameMem.foldl ?_ _ _; intro st x; (try dsimp only); (repeat' split); all_goals (first | (simp [SameMem]; done) | (simp_all [SameMem]; done) | grind [SameMem])))

@[simp] theorem writeCfRsv_mem (v : W32) (s : State) : (writeCfRsv v s).mem = s.mem := writeCfRsv_same v s

theorem writeCfCtx_same (v : W32) (s : State) : SameMem (writeCfCtx v s) s := by
  unfold writeCfCtx
  try dsimp only
  repeat' split
  all_goals (first | (simp [SameMem]; done) | exact rfl | (simp_all [SameMem]; done) | grind [SameMem] | (simp [SameMem]; grind [SameMem]) | (simp +zetaDelta [SameMem]; done) | ((try dsimp only); (repeat' (first | (exact SameMem.refl _) | assumption | (simp [SameMem]; done) | split | with_reducible refine SameMem.trans (setEvent_same ..) ?_ | with_reducible refine SameMem.trans (SameMem.foldl (fun _ _ => ?_) _ _) ?_ | with_reducible refine SameMem.trans (SameMem.foldr (fun _ _ => ?_) _ _) ?_ | with_reducible refine SameMem.trans rfl ?_)); done) | (refine SameMem.foldl ?_ _ _; intro st x; (try dsimp only); (repeat' split); all_goals (first | (simp [SameMem]; done) | (simp_all [SameMem]; done) | grind [SameMem])))

@[simp] theorem writeCfCtx_mem (v : W32) (s : State) : (writeCfCtx v s).mem = s.mem := writeCfCtx_same v s

end Sys2Proof.Machine
end

