-- ==== Sys2Proof/Laws/KeptInline.lean ====
section
/-! SUPPORT. What each operation of Machine/Inline.lean keeps: the fuses, the life counters, the queue, and memory or its form. -/

namespace Sys2Proof.Machine

theorem ilCount_core (block c : Nat) (s : State) : SameAll (ilCount block c s) s := ⟨rfl, rfl, rfl⟩

@[simp] theorem ilCount_copies (block c : Nat) (s : State) : (ilCount block c s).lc.copies = s.lc.copies := (ilCount_core block c s).1

@[simp] theorem ilCount_life (block c : Nat) (s : State) : (ilCount block c s).fv.life = s.fv.life := (ilCount_core block c s).2.1

@[simp] theorem ilCount_pending (block c : Nat) (s : State) : (ilCount block c s).pending = s.pending := (ilCount_core block c s).2.2

theorem sendPause_core (pair : Nat) (outbound : Bool) (quanta : Nat) (s : State) : SameAll (sendPause pair outbound quanta s) s := by simp [sendPause, SameAll]

@[simp] theorem sendPause_copies (pair : Nat) (outbound : Bool) (quanta : Nat) (s : State) : (sendPause pair outbound quanta s).lc.copies = s.lc.copies := (sendPause_core pair outbound quanta s).1

@[simp] theorem sendPause_life (pair : Nat) (outbound : Bool) (quanta : Nat) (s : State) : (sendPause pair outbound quanta s).fv.life = s.fv.life := (sendPause_core pair outbound quanta s).2.1

@[simp] theorem sendPause_pending (pair : Nat) (outbound : Bool) (quanta : Nat) (s : State) : (sendPause pair outbound quanta s).pending = s.pending := (sendPause_core pair outbound quanta s).2.2

theorem bufMoved_core (pair : Nat) (outbound : Bool) (was : Nat) (s : State) : SameAll (bufMoved pair outbound was s) s := by simp [bufMoved, SameAll]

@[simp] theorem bufMoved_copies (pair : Nat) (outbound : Bool) (was : Nat) (s : State) : (bufMoved pair outbound was s).lc.copies = s.lc.copies := (bufMoved_core pair outbound was s).1

@[simp] theorem bufMoved_life (pair : Nat) (outbound : Bool) (was : Nat) (s : State) : (bufMoved pair outbound was s).fv.life = s.fv.life := (bufMoved_core pair outbound was s).2.1

@[simp] theorem bufMoved_pending (pair : Nat) (outbound : Bool) (was : Nat) (s : State) : (bufMoved pair outbound was s).pending = s.pending := (bufMoved_core pair outbound was s).2.2

theorem pauseHalt_core (block quanta : Nat) (broken : Bool) (s : State) : SameAll (pauseHalt block quanta broken s) s := ⟨rfl, rfl, rfl⟩

@[simp] theorem pauseHalt_copies (block quanta : Nat) (broken : Bool) (s : State) : (pauseHalt block quanta broken s).lc.copies = s.lc.copies := (pauseHalt_core block quanta broken s).1

@[simp] theorem pauseHalt_life (block quanta : Nat) (broken : Bool) (s : State) : (pauseHalt block quanta broken s).fv.life = s.fv.life := (pauseHalt_core block quanta broken s).2.1

@[simp] theorem pauseHalt_pending (block quanta : Nat) (broken : Bool) (s : State) : (pauseHalt block quanta broken s).pending = s.pending := (pauseHalt_core block quanta broken s).2.2

theorem writePortCfg_core (pair : Nat) (mask val : W64) (s : State) : SameAll (writePortCfg pair mask val s) s := by simp [writePortCfg, SameAll]

@[simp] theorem writePortCfg_copies (pair : Nat) (mask val : W64) (s : State) : (writePortCfg pair mask val s).lc.copies = s.lc.copies := (writePortCfg_core pair mask val s).1

@[simp] theorem writePortCfg_life (pair : Nat) (mask val : W64) (s : State) : (writePortCfg pair mask val s).fv.life = s.fv.life := (writePortCfg_core pair mask val s).2.1

@[simp] theorem writePortCfg_pending (pair : Nat) (mask val : W64) (s : State) : (writePortCfg pair mask val s).pending = s.pending := (writePortCfg_core pair mask val s).2.2

theorem ilTail_core (block : Nat) (s : State) : SameAll (ilTail block s) s := by simp [ilTail, SameAll]

@[simp] theorem ilTail_copies (block : Nat) (s : State) : (ilTail block s).lc.copies = s.lc.copies := (ilTail_core block s).1

@[simp] theorem ilTail_life (block : Nat) (s : State) : (ilTail block s).fv.life = s.fv.life := (ilTail_core block s).2.1

@[simp] theorem ilTail_pending (block : Nat) (s : State) : (ilTail block s).pending = s.pending := (ilTail_core block s).2.2

theorem dropEgress_core (pair : Nat) (s : State) : SameAll (dropEgress pair s) s := by simp [dropEgress, SameAll]

@[simp] theorem dropEgress_copies (pair : Nat) (s : State) : (dropEgress pair s).lc.copies = s.lc.copies := (dropEgress_core pair s).1

@[simp] theorem dropEgress_life (pair : Nat) (s : State) : (dropEgress pair s).fv.life = s.fv.life := (dropEgress_core pair s).2.1

@[simp] theorem dropEgress_pending (pair : Nat) (s : State) : (dropEgress pair s).pending = s.pending := (dropEgress_core pair s).2.2

theorem ilBoundary_core (s : State) : SameAll (ilBoundary s) s := by simp [ilBoundary, SameAll]

@[simp] theorem ilBoundary_copies (s : State) : (ilBoundary s).lc.copies = s.lc.copies := (ilBoundary_core s).1

@[simp] theorem ilBoundary_life (s : State) : (ilBoundary s).fv.life = s.fv.life := (ilBoundary_core s).2.1

@[simp] theorem ilBoundary_pending (s : State) : (ilBoundary s).pending = s.pending := (ilBoundary_core s).2.2

theorem chargeFrame_core (j : FrameJob) (parts : List (Cell × Nat)) (lane rounds : Nat) (s : State) : SameAll (chargeFrame j parts lane rounds s) s := by simp [chargeFrame, SameAll]

@[simp] theorem chargeFrame_copies (j : FrameJob) (parts : List (Cell × Nat)) (lane rounds : Nat) (s : State) : (chargeFrame j parts lane rounds s).lc.copies = s.lc.copies := (chargeFrame_core j parts lane rounds s).1

@[simp] theorem chargeFrame_life (j : FrameJob) (parts : List (Cell × Nat)) (lane rounds : Nat) (s : State) : (chargeFrame j parts lane rounds s).fv.life = s.fv.life := (chargeFrame_core j parts lane rounds s).2.1

@[simp] theorem chargeFrame_pending (j : FrameJob) (parts : List (Cell × Nat)) (lane rounds : Nat) (s : State) : (chargeFrame j parts lane rounds s).pending = s.pending := (chargeFrame_core j parts lane rounds s).2.2

theorem frameDrop_core (block counter : Nat) (s : State) : SameAll (frameDrop block counter s) s := by
  unfold frameDrop
  split <;> simp [SameAll]

@[simp] theorem frameDrop_copies (block counter : Nat) (s : State) : (frameDrop block counter s).lc.copies = s.lc.copies := (frameDrop_core block counter s).1

@[simp] theorem frameDrop_life (block counter : Nat) (s : State) : (frameDrop block counter s).fv.life = s.fv.life := (frameDrop_core block counter s).2.1

@[simp] theorem frameDrop_pending (block counter : Nat) (s : State) : (frameDrop block counter s).pending = s.pending := (frameDrop_core block counter s).2.2

theorem enqueueFrame_core (f : RxFrame) (bytes : List Byte) (guarded : Bool) (s : State) : SameAll (enqueueFrame f bytes guarded s) s := by simp [enqueueFrame, SameAll]

@[simp] theorem enqueueFrame_copies (f : RxFrame) (bytes : List Byte) (guarded : Bool) (s : State) : (enqueueFrame f bytes guarded s).lc.copies = s.lc.copies := (enqueueFrame_core f bytes guarded s).1

@[simp] theorem enqueueFrame_life (f : RxFrame) (bytes : List Byte) (guarded : Bool) (s : State) : (enqueueFrame f bytes guarded s).fv.life = s.fv.life := (enqueueFrame_core f bytes guarded s).2.1

@[simp] theorem enqueueFrame_pending (f : RxFrame) (bytes : List Byte) (guarded : Bool) (s : State) : (enqueueFrame f bytes guarded s).pending = s.pending := (enqueueFrame_core f bytes guarded s).2.2

theorem runFrame_core (f : RxFrame) (j : FrameJob) (pn0 : Nat) (fs : List HwFault) (s : State) : SameAll (runFrame f j pn0 fs s) s := by
  unfold runFrame
  try dsimp only
  repeat' split
  all_goals simp [SameAll]

@[simp] theorem runFrame_copies (f : RxFrame) (j : FrameJob) (pn0 : Nat) (fs : List HwFault) (s : State) : (runFrame f j pn0 fs s).lc.copies = s.lc.copies := (runFrame_core f j pn0 fs s).1

@[simp] theorem runFrame_life (f : RxFrame) (j : FrameJob) (pn0 : Nat) (fs : List HwFault) (s : State) : (runFrame f j pn0 fs s).fv.life = s.fv.life := (runFrame_core f j pn0 fs s).2.1

@[simp] theorem runFrame_pending (f : RxFrame) (j : FrameJob) (pn0 : Nat) (fs : List HwFault) (s : State) : (runFrame f j pn0 fs s).pending = s.pending := (runFrame_core f j pn0 fs s).2.2

theorem judgeFrame_core (f : RxFrame) (fs : List HwFault) (s : State) : SameAll (judgeFrame f fs s) s := by
  unfold judgeFrame
  try dsimp only
  repeat' split
  all_goals simp [SameAll]

@[simp] theorem judgeFrame_copies (f : RxFrame) (fs : List HwFault) (s : State) : (judgeFrame f fs s).lc.copies = s.lc.copies := (judgeFrame_core f fs s).1

@[simp] theorem judgeFrame_life (f : RxFrame) (fs : List HwFault) (s : State) : (judgeFrame f fs s).fv.life = s.fv.life := (judgeFrame_core f fs s).2.1

@[simp] theorem judgeFrame_pending (f : RxFrame) (fs : List HwFault) (s : State) : (judgeFrame f fs s).pending = s.pending := (judgeFrame_core f fs s).2.2

theorem shedFrames_core (s : State) : SameAll (shedFrames s) s := by simp [shedFrames, SameAll]

@[simp] theorem shedFrames_copies (s : State) : (shedFrames s).lc.copies = s.lc.copies := (shedFrames_core s).1

@[simp] theorem shedFrames_life (s : State) : (shedFrames s).fv.life = s.fv.life := (shedFrames_core s).2.1

@[simp] theorem shedFrames_pending (s : State) : (shedFrames s).pending = s.pending := (shedFrames_core s).2.2

theorem ilCount_same (block c : Nat) (s : State) : SameMem (ilCount block c s) s := rfl

@[simp] theorem ilCount_mem (block c : Nat) (s : State) : (ilCount block c s).mem = s.mem := ilCount_same block c s

theorem sendPause_same (pair : Nat) (outbound : Bool) (quanta : Nat) (s : State) : SameMem (sendPause pair outbound quanta s) s := by simp [sendPause, SameMem]

@[simp] theorem sendPause_mem (pair : Nat) (outbound : Bool) (quanta : Nat) (s : State) : (sendPause pair outbound quanta s).mem = s.mem := sendPause_same pair outbound quanta s

theorem bufMoved_same (pair : Nat) (outbound : Bool) (was : Nat) (s : State) : SameMem (bufMoved pair outbound was s) s := by simp [bufMoved, SameMem]

@[simp] theorem bufMoved_mem (pair : Nat) (outbound : Bool) (was : Nat) (s : State) : (bufMoved pair outbound was s).mem = s.mem := bufMoved_same pair outbound was s

theorem pauseHalt_same (block quanta : Nat) (broken : Bool) (s : State) : SameMem (pauseHalt block quanta broken s) s := rfl

@[simp] theorem pauseHalt_mem (block quanta : Nat) (broken : Bool) (s : State) : (pauseHalt block quanta broken s).mem = s.mem := pauseHalt_same block quanta broken s

theorem writePortCfg_same (pair : Nat) (mask val : W64) (s : State) : SameMem (writePortCfg pair mask val s) s := by simp [writePortCfg, SameMem]

@[simp] theorem writePortCfg_mem (pair : Nat) (mask val : W64) (s : State) : (writePortCfg pair mask val s).mem = s.mem := writePortCfg_same pair mask val s

theorem ilTail_same (block : Nat) (s : State) : SameMem (ilTail block s) s := by simp [ilTail, SameMem]

@[simp] theorem ilTail_mem (block : Nat) (s : State) : (ilTail block s).mem = s.mem := ilTail_same block s

theorem dropEgress_same (pair : Nat) (s : State) : SameMem (dropEgress pair s) s := by simp [dropEgress, SameMem]

@[simp] theorem dropEgress_mem (pair : Nat) (s : State) : (dropEgress pair s).mem = s.mem := dropEgress_same pair s

theorem ilBoundary_same (s : State) : SameMem (ilBoundary s) s := by simp [ilBoundary, SameMem]

@[simp] theorem ilBoundary_mem (s : State) : (ilBoundary s).mem = s.mem := ilBoundary_same s

theorem chargeFrame_same (j : FrameJob) (parts : List (Cell × Nat)) (lane rounds : Nat) (s : State) : SameMem (chargeFrame j parts lane rounds s) s := by simp [chargeFrame, SameMem]

@[simp] theorem chargeFrame_mem (j : FrameJob) (parts : List (Cell × Nat)) (lane rounds : Nat) (s : State) : (chargeFrame j parts lane rounds s).mem = s.mem := chargeFrame_same j parts lane rounds s

theorem frameDrop_same (block counter : Nat) (s : State) : SameMem (frameDrop block counter s) s := by
  unfold frameDrop
  split <;> simp [SameMem]

@[simp] theorem frameDrop_mem (block counter : Nat) (s : State) : (frameDrop block counter s).mem = s.mem := frameDrop_same block counter s

theorem enqueueFrame_same (f : RxFrame) (bytes : List Byte) (guarded : Bool) (s : State) : SameMem (enqueueFrame f bytes guarded s) s := by simp [enqueueFrame, SameMem]

@[simp] theorem enqueueFrame_mem (f : RxFrame) (bytes : List Byte) (guarded : Bool) (s : State) : (enqueueFrame f bytes guarded s).mem = s.mem := enqueueFrame_same f bytes guarded s

theorem runFrame_wf (f : RxFrame) (j : FrameJob) (pn0 : Nat) (fs : List HwFault) (s : State) : KeepMem (runFrame f j pn0 fs s) s := by
  unfold runFrame
  try dsimp only
  iterate 30 all_goals (try first | with_reducible exact KeepMem.refl _ | assumption | split | with_reducible refine KeepMem.trans (stallCount_wf ..) ?_ | with_reducible refine KeepMem.trans (acceptPN_wf ..) ?_ | with_reducible refine KeepMem.trans (assignPN_wf ..) ?_ | with_reducible refine KeepMem.trans (KeepMem.of_eq (noteMismatch_mem ..)) ?_ | with_reducible refine KeepMem.trans (KeepMem.of_eq (chargeFrame_mem ..)) ?_ | with_reducible refine KeepMem.trans (KeepMem.of_eq (frameDrop_mem ..)) ?_ | with_reducible refine KeepMem.trans (KeepMem.of_eq (enqueueFrame_mem ..)) ?_)

theorem judgeFrame_wf (f : RxFrame) (fs : List HwFault) (s : State) : KeepMem (judgeFrame f fs s) s := by
  unfold judgeFrame
  try dsimp only
  iterate 8 all_goals (try first | with_reducible exact KeepMem.refl _ | assumption | split | with_reducible refine KeepMem.trans (stallCount_wf ..) ?_ | with_reducible refine KeepMem.trans (runFrame_wf ..) ?_ | with_reducible refine KeepMem.trans (KeepMem.of_eq (setEvent_mem ..)) ?_ | with_reducible refine KeepMem.trans (KeepMem.of_eq (causeLeave_mem ..)) ?_ | with_reducible refine KeepMem.trans (KeepMem.of_eq (frameDrop_mem ..)) ?_ | with_reducible refine KeepMem.trans (KeepMem.of_eq (enqueueFrame_mem ..)) ?_)

theorem shedFrames_same (s : State) : SameMem (shedFrames s) s := by simp [shedFrames, SameMem]

@[simp] theorem shedFrames_mem (s : State) : (shedFrames s).mem = s.mem := shedFrames_same s

end Sys2Proof.Machine
end

