-- ==== Sys2Proof/Laws/KeptCvu.lean ====
section
/-! SUPPORT. What each operation of Machine/Cvu.lean keeps: the fuses, the life counters, the queue, and memory or its form. -/

namespace Sys2Proof.Machine

theorem updCv_core (u : Nat) (f : CvRec → CvRec) (s : State) : SameAll (updCv u f s) s := ⟨rfl, rfl, rfl⟩

@[simp] theorem updCv_copies (u : Nat) (f : CvRec → CvRec) (s : State) : (updCv u f s).lc.copies = s.lc.copies := (updCv_core u f s).1

@[simp] theorem updCv_life (u : Nat) (f : CvRec → CvRec) (s : State) : (updCv u f s).fv.life = s.fv.life := (updCv_core u f s).2.1

@[simp] theorem updCv_pending (u : Nat) (f : CvRec → CvRec) (s : State) : (updCv u f s).pending = s.pending := (updCv_core u f s).2.2

theorem cvFeed_core (u : Nat) (bs : List Byte) (s : State) : SameAll (cvFeed u bs s) s := ⟨rfl, rfl, rfl⟩

@[simp] theorem cvFeed_copies (u : Nat) (bs : List Byte) (s : State) : (cvFeed u bs s).lc.copies = s.lc.copies := (cvFeed_core u bs s).1

@[simp] theorem cvFeed_life (u : Nat) (bs : List Byte) (s : State) : (cvFeed u bs s).fv.life = s.fv.life := (cvFeed_core u bs s).2.1

@[simp] theorem cvFeed_pending (u : Nat) (bs : List Byte) (s : State) : (cvFeed u bs s).pending = s.pending := (cvFeed_core u bs s).2.2

theorem cvPend_core (r : Req) (due status unit slices outlen value : Nat) (s : State) : SameAll (cvPend r due status unit slices outlen value s) s := ⟨rfl, rfl, rfl⟩

@[simp] theorem cvPend_copies (r : Req) (due status unit slices outlen value : Nat) (s : State) : (cvPend r due status unit slices outlen value s).lc.copies = s.lc.copies := (cvPend_core r due status unit slices outlen value s).1

@[simp] theorem cvPend_life (r : Req) (due status unit slices outlen value : Nat) (s : State) : (cvPend r due status unit slices outlen value s).fv.life = s.fv.life := (cvPend_core r due status unit slices outlen value s).2.1

@[simp] theorem cvPend_pending (r : Req) (due status unit slices outlen value : Nat) (s : State) : (cvPend r due status unit slices outlen value s).pending = s.pending := (cvPend_core r due status unit slices outlen value s).2.2

theorem cvGo_core (c : Nat) (s : State) : SameAll (cvGo c s) s := by simp [cvGo, SameAll]

@[simp] theorem cvGo_copies (c : Nat) (s : State) : (cvGo c s).lc.copies = s.lc.copies := (cvGo_core c s).1

@[simp] theorem cvGo_life (c : Nat) (s : State) : (cvGo c s).fv.life = s.fv.life := (cvGo_core c s).2.1

@[simp] theorem cvGo_pending (c : Nat) (s : State) : (cvGo c s).pending = s.pending := (cvGo_core c s).2.2

theorem cvServe_core (g : CvGo) (taken : List Nat) (s : State) : SameAll (cvServe g taken s).2 s := by
  unfold cvServe
  try dsimp only
  repeat' split
  all_goals simp [SameAll]

@[simp] theorem cvServe_copies (g : CvGo) (taken : List Nat) (s : State) : (cvServe g taken s).2.lc.copies = s.lc.copies := (cvServe_core g taken s).1

@[simp] theorem cvServe_life (g : CvGo) (taken : List Nat) (s : State) : (cvServe g taken s).2.fv.life = s.fv.life := (cvServe_core g taken s).2.1

@[simp] theorem cvServe_pending (g : CvGo) (taken : List Nat) (s : State) : (cvServe g taken s).2.pending = s.pending := (cvServe_core g taken s).2.2

theorem cvRequests_core (s : State) : SameAll (cvRequests s) s := by simp [cvRequests, SameAll]

@[simp] theorem cvRequests_copies (s : State) : (cvRequests s).lc.copies = s.lc.copies := (cvRequests_core s).1

@[simp] theorem cvRequests_life (s : State) : (cvRequests s).fv.life = s.fv.life := (cvRequests_core s).2.1

@[simp] theorem cvRequests_pending (s : State) : (cvRequests s).pending = s.pending := (cvRequests_core s).2.2

theorem scanRead_core (r : Req) (a n : Nat) (s : State) : SameAll (scanRead r a n s).2 s := by simp [scanRead, SameAll]

@[simp] theorem scanRead_copies (r : Req) (a n : Nat) (s : State) : (scanRead r a n s).2.lc.copies = s.lc.copies := (scanRead_core r a n s).1

@[simp] theorem scanRead_life (r : Req) (a n : Nat) (s : State) : (scanRead r a n s).2.fv.life = s.fv.life := (scanRead_core r a n s).2.1

@[simp] theorem scanRead_pending (r : Req) (a n : Nat) (s : State) : (scanRead r a n s).2.pending = s.pending := (scanRead_core r a n s).2.2

theorem scanEnd_core (j : CvJob) (status outlen value due : Nat) (s : State) : SameAll (scanEnd j status outlen value due s) s := by simp [scanEnd, SameAll]

@[simp] theorem scanEnd_copies (j : CvJob) (status outlen value due : Nat) (s : State) : (scanEnd j status outlen value due s).lc.copies = s.lc.copies := (scanEnd_core j status outlen value due s).1

@[simp] theorem scanEnd_life (j : CvJob) (status outlen value due : Nat) (s : State) : (scanEnd j status outlen value due s).fv.life = s.fv.life := (scanEnd_core j status outlen value due s).2.1

@[simp] theorem scanEnd_pending (j : CvJob) (status outlen value due : Nat) (s : State) : (scanEnd j status outlen value due s).pending = s.pending := (scanEnd_core j status outlen value due s).2.2

theorem scanFinal_core (j : CvJob) (s : State) : SameAll (scanFinal j s) s := by simp [scanFinal, SameAll]

@[simp] theorem scanFinal_copies (j : CvJob) (s : State) : (scanFinal j s).lc.copies = s.lc.copies := (scanFinal_core j s).1

@[simp] theorem scanFinal_life (j : CvJob) (s : State) : (scanFinal j s).fv.life = s.fv.life := (scanFinal_core j s).2.1

@[simp] theorem scanFinal_pending (j : CvJob) (s : State) : (scanFinal j s).pending = s.pending := (scanFinal_core j s).2.2

theorem scanSlice_core (j : CvJob) (s : State) : SameAll (scanSlice j s) s := by simp [scanSlice, SameAll]

@[simp] theorem scanSlice_copies (j : CvJob) (s : State) : (scanSlice j s).lc.copies = s.lc.copies := (scanSlice_core j s).1

@[simp] theorem scanSlice_life (j : CvJob) (s : State) : (scanSlice j s).fv.life = s.fv.life := (scanSlice_core j s).2.1

@[simp] theorem scanSlice_pending (j : CvJob) (s : State) : (scanSlice j s).pending = s.pending := (scanSlice_core j s).2.2

theorem cvFence_core (u reason : Nat) (s : State) : SameAll (cvFence u reason s) s := by
  unfold cvFence
  try dsimp only
  repeat' split
  all_goals simp [SameAll]

@[simp] theorem cvFence_copies (u reason : Nat) (s : State) : (cvFence u reason s).lc.copies = s.lc.copies := (cvFence_core u reason s).1

@[simp] theorem cvFence_life (u reason : Nat) (s : State) : (cvFence u reason s).fv.life = s.fv.life := (cvFence_core u reason s).2.1

@[simp] theorem cvFence_pending (u reason : Nat) (s : State) : (cvFence u reason s).pending = s.pending := (cvFence_core u reason s).2.2

theorem cvSlices_core (fs : List HwFault) (s : State) : SameAll (cvSlices fs s) s := by
  unfold cvSlices
  try dsimp only
  repeat' split
  all_goals (first | (simp [SameAll]; done) | exact ⟨rfl, rfl, rfl⟩ | (simp_all [SameAll]; done) | grind [SameAll] | (simp [SameAll]; grind [SameAll]) | (simp +zetaDelta [SameAll]; done) | ((try dsimp only); (repeat' (first | (exact SameAll.refl _) | assumption | (simp [SameAll]; done) | split | with_reducible refine SameAll.trans (cvRequests_core ..) ?_ | with_reducible refine SameAll.trans (scanSlice_core ..) ?_ | with_reducible refine SameAll.trans (cvFence_core ..) ?_ | with_reducible refine SameAll.trans (SameAll.foldl (fun _ _ => ?_) _ _) ?_ | with_reducible refine SameAll.trans (SameAll.foldr (fun _ _ => ?_) _ _) ?_ | with_reducible refine SameAll.trans ⟨rfl, rfl, rfl⟩ ?_)); done) | (refine SameAll.foldl ?_ _ _; intro st x; (try dsimp only); (repeat' split); all_goals (first | (simp [SameAll]; done) | (simp_all [SameAll]; done) | grind [SameAll])))

@[simp] theorem cvSlices_copies (fs : List HwFault) (s : State) : (cvSlices fs s).lc.copies = s.lc.copies := (cvSlices_core fs s).1

@[simp] theorem cvSlices_life (fs : List HwFault) (s : State) : (cvSlices fs s).fv.life = s.fv.life := (cvSlices_core fs s).2.1

@[simp] theorem cvSlices_pending (fs : List HwFault) (s : State) : (cvSlices fs s).pending = s.pending := (cvSlices_core fs s).2.2

theorem cutCv_core (test : CvJob → Bool) (s : State) : SameAll (cutCv test s) s := ⟨rfl, rfl, rfl⟩

@[simp] theorem cutCv_copies (test : CvJob → Bool) (s : State) : (cutCv test s).lc.copies = s.lc.copies := (cutCv_core test s).1

@[simp] theorem cutCv_life (test : CvJob → Bool) (s : State) : (cutCv test s).fv.life = s.fv.life := (cutCv_core test s).2.1

@[simp] theorem cutCv_pending (test : CvJob → Bool) (s : State) : (cutCv test s).pending = s.pending := (cutCv_core test s).2.2

theorem cvCuts_core (s : State) : SameAll (cvCuts s) s := by simp [cvCuts, SameAll]

@[simp] theorem cvCuts_copies (s : State) : (cvCuts s).lc.copies = s.lc.copies := (cvCuts_core s).1

@[simp] theorem cvCuts_life (s : State) : (cvCuts s).fv.life = s.fv.life := (cvCuts_core s).2.1

@[simp] theorem cvCuts_pending (s : State) : (cvCuts s).pending = s.pending := (cvCuts_core s).2.2

theorem writeCvOwn_core (u : Nat) (mask val : W64) (s : State) : SameAll (writeCvOwn u mask val s) s := ⟨rfl, rfl, rfl⟩

@[simp] theorem writeCvOwn_copies (u : Nat) (mask val : W64) (s : State) : (writeCvOwn u mask val s).lc.copies = s.lc.copies := (writeCvOwn_core u mask val s).1

@[simp] theorem writeCvOwn_life (u : Nat) (mask val : W64) (s : State) : (writeCvOwn u mask val s).fv.life = s.fv.life := (writeCvOwn_core u mask val s).2.1

@[simp] theorem writeCvOwn_pending (u : Nat) (mask val : W64) (s : State) : (writeCvOwn u mask val s).pending = s.pending := (writeCvOwn_core u mask val s).2.2

theorem cvGoIf_core (op c : Nat) (s : State) : SameAll (cvGoIf op c s) s := by simp [cvGoIf, SameAll]

@[simp] theorem cvGoIf_copies (op c : Nat) (s : State) : (cvGoIf op c s).lc.copies = s.lc.copies := (cvGoIf_core op c s).1

@[simp] theorem cvGoIf_life (op c : Nat) (s : State) : (cvGoIf op c s).fv.life = s.fv.life := (cvGoIf_core op c s).2.1

@[simp] theorem cvGoIf_pending (op c : Nat) (s : State) : (cvGoIf op c s).pending = s.pending := (cvGoIf_core op c s).2.2

theorem updCv_same (u : Nat) (f : CvRec → CvRec) (s : State) : SameMem (updCv u f s) s := rfl

@[simp] theorem updCv_mem (u : Nat) (f : CvRec → CvRec) (s : State) : (updCv u f s).mem = s.mem := updCv_same u f s

theorem cvFeed_same (u : Nat) (bs : List Byte) (s : State) : SameMem (cvFeed u bs s) s := rfl

@[simp] theorem cvFeed_mem (u : Nat) (bs : List Byte) (s : State) : (cvFeed u bs s).mem = s.mem := cvFeed_same u bs s

theorem cvPend_same (r : Req) (due status unit slices outlen value : Nat) (s : State) : SameMem (cvPend r due status unit slices outlen value s) s := rfl

@[simp] theorem cvPend_mem (r : Req) (due status unit slices outlen value : Nat) (s : State) : (cvPend r due status unit slices outlen value s).mem = s.mem := cvPend_same r due status unit slices outlen value s

theorem cvGo_same (c : Nat) (s : State) : SameMem (cvGo c s) s := by simp [cvGo, SameMem]

@[simp] theorem cvGo_mem (c : Nat) (s : State) : (cvGo c s).mem = s.mem := cvGo_same c s

theorem cvServe_same (g : CvGo) (taken : List Nat) (s : State) : SameMem (cvServe g taken s).2 s := by
  unfold cvServe
  try dsimp only
  repeat' split
  all_goals simp [SameMem]

@[simp] theorem cvServe_mem (g : CvGo) (taken : List Nat) (s : State) : (cvServe g taken s).2.mem = s.mem := cvServe_same g taken s

theorem cvRequests_same (s : State) : SameMem (cvRequests s) s := by simp [cvRequests, SameMem]

@[simp] theorem cvRequests_mem (s : State) : (cvRequests s).mem = s.mem := cvRequests_same s

theorem scanRead_same (r : Req) (a n : Nat) (s : State) : SameMem (scanRead r a n s).2 s := by simp [scanRead, SameMem]

@[simp] theorem scanRead_mem (r : Req) (a n : Nat) (s : State) : (scanRead r a n s).2.mem = s.mem := scanRead_same r a n s

theorem scanEnd_same (j : CvJob) (status outlen value due : Nat) (s : State) : SameMem (scanEnd j status outlen value due s) s := by simp [scanEnd, SameMem]

@[simp] theorem scanEnd_mem (j : CvJob) (status outlen value due : Nat) (s : State) : (scanEnd j status outlen value due s).mem = s.mem := scanEnd_same j status outlen value due s

theorem scanFinal_wf (j : CvJob) (s : State) : KeepMem (scanFinal j s) s := by
  unfold scanFinal
  try dsimp only
  iterate 8 all_goals (try first | with_reducible exact KeepMem.refl _ | assumption | split | with_reducible refine KeepMem.trans (busWrite_wf ..) ?_ | with_reducible refine KeepMem.trans (KeepMem.of_eq (scanRead_mem ..)) ?_ | with_reducible refine KeepMem.trans (KeepMem.of_eq (scanEnd_mem ..)) ?_)

theorem scanSlice_wf (j : CvJob) (s : State) : KeepMem (scanSlice j s) s := by
  unfold scanSlice
  try dsimp only
  iterate 8 all_goals (try first | with_reducible exact KeepMem.refl _ | assumption | split | with_reducible refine KeepMem.trans (scanFinal_wf ..) ?_ | with_reducible refine KeepMem.trans (KeepMem.of_eq (scanRead_mem ..)) ?_)

theorem cvFence_same (u reason : Nat) (s : State) : SameMem (cvFence u reason s) s := by
  unfold cvFence
  try dsimp only
  repeat' split
  all_goals simp [SameMem]

@[simp] theorem cvFence_mem (u reason : Nat) (s : State) : (cvFence u reason s).mem = s.mem := cvFence_same u reason s

theorem cvSlices_wf (fs : List HwFault) (s : State) : KeepMem (cvSlices fs s) s := by
  unfold cvSlices
  try dsimp only
  iterate 30 all_goals (try first | with_reducible exact KeepMem.refl _ | assumption | split | with_reducible refine KeepMem.trans (scanSlice_wf ..) ?_ | with_reducible refine KeepMem.trans (KeepMem.of_eq (cvRequests_mem ..)) ?_ | with_reducible refine KeepMem.trans (KeepMem.of_eq (cvFence_mem ..)) ?_ | with_reducible refine KeepMem.trans (KeepMem.foldl (fun _ _ => ?_) _ _) ?_)

theorem cutCv_same (test : CvJob → Bool) (s : State) : SameMem (cutCv test s) s := rfl

@[simp] theorem cutCv_mem (test : CvJob → Bool) (s : State) : (cutCv test s).mem = s.mem := cutCv_same test s

theorem cvCuts_same (s : State) : SameMem (cvCuts s) s := by simp [cvCuts, SameMem]

@[simp] theorem cvCuts_mem (s : State) : (cvCuts s).mem = s.mem := cvCuts_same s

theorem writeCvOwn_same (u : Nat) (mask val : W64) (s : State) : SameMem (writeCvOwn u mask val s) s := rfl

@[simp] theorem writeCvOwn_mem (u : Nat) (mask val : W64) (s : State) : (writeCvOwn u mask val s).mem = s.mem := writeCvOwn_same u mask val s

theorem cvGoIf_same (op c : Nat) (s : State) : SameMem (cvGoIf op c s) s := by simp [cvGoIf, SameMem]

@[simp] theorem cvGoIf_mem (op c : Nat) (s : State) : (cvGoIf op c s).mem = s.mem := cvGoIf_same op c s

end Sys2Proof.Machine
end

