-- ==== Sys2Proof/Laws/KeptCards.lean ====
section
/-! SUPPORT. What each operation of Machine/Cards.lean keeps: the fuses, the life counters, the queue, and memory or its form. -/

namespace Sys2Proof.Machine

theorem updMc_core (n : Nat) (f : McSlot → McSlot) (s : State) : SameAll (updMc n f s) s := ⟨rfl, rfl, rfl⟩

@[simp] theorem updMc_copies (n : Nat) (f : McSlot → McSlot) (s : State) : (updMc n f s).lc.copies = s.lc.copies := (updMc_core n f s).1

@[simp] theorem updMc_life (n : Nat) (f : McSlot → McSlot) (s : State) : (updMc n f s).fv.life = s.fv.life := (updMc_core n f s).2.1

@[simp] theorem updMc_pending (n : Nat) (f : McSlot → McSlot) (s : State) : (updMc n f s).pending = s.pending := (updMc_core n f s).2.2

theorem updSc_core (n : Nat) (f : ScSlot → ScSlot) (s : State) : SameAll (updSc n f s) s := ⟨rfl, rfl, rfl⟩

@[simp] theorem updSc_copies (n : Nat) (f : ScSlot → ScSlot) (s : State) : (updSc n f s).lc.copies = s.lc.copies := (updSc_core n f s).1

@[simp] theorem updSc_life (n : Nat) (f : ScSlot → ScSlot) (s : State) : (updSc n f s).fv.life = s.fv.life := (updSc_core n f s).2.1

@[simp] theorem updSc_pending (n : Nat) (f : ScSlot → ScSlot) (s : State) : (updSc n f s).pending = s.pending := (updSc_core n f s).2.2

theorem updEx_core (k : Nat) (f : ExWin → ExWin) (s : State) : SameAll (updEx k f s) s := ⟨rfl, rfl, rfl⟩

@[simp] theorem updEx_copies (k : Nat) (f : ExWin → ExWin) (s : State) : (updEx k f s).lc.copies = s.lc.copies := (updEx_core k f s).1

@[simp] theorem updEx_life (k : Nat) (f : ExWin → ExWin) (s : State) : (updEx k f s).fv.life = s.fv.life := (updEx_core k f s).2.1

@[simp] theorem updEx_pending (k : Nat) (f : ExWin → ExWin) (s : State) : (updEx k f s).pending = s.pending := (updEx_core k f s).2.2

theorem setPendAll_core (i : Nat) (s : State) : SameAll (setPendAll i s) s := by simp [setPendAll, SameAll]

@[simp] theorem setPendAll_copies (i : Nat) (s : State) : (setPendAll i s).lc.copies = s.lc.copies := (setPendAll_core i s).1

@[simp] theorem setPendAll_life (i : Nat) (s : State) : (setPendAll i s).fv.life = s.fv.life := (setPendAll_core i s).2.1

@[simp] theorem setPendAll_pending (i : Nat) (s : State) : (setPendAll i s).pending = s.pending := (setPendAll_core i s).2.2

theorem sendRpmb_core (n : Nat) (f : List Byte) (s : State) : SameAll (sendRpmb n f s) s := ⟨rfl, rfl, rfl⟩

@[simp] theorem sendRpmb_copies (n : Nat) (f : List Byte) (s : State) : (sendRpmb n f s).lc.copies = s.lc.copies := (sendRpmb_core n f s).1

@[simp] theorem sendRpmb_life (n : Nat) (f : List Byte) (s : State) : (sendRpmb n f s).fv.life = s.fv.life := (sendRpmb_core n f s).2.1

@[simp] theorem sendRpmb_pending (n : Nat) (f : List Byte) (s : State) : (sendRpmb n f s).pending = s.pending := (sendRpmb_core n f s).2.2

theorem rpmbAsk_core (n typ addr : Nat) (s : State) : SameAll (rpmbAsk n typ addr s).2 s := ⟨rfl, rfl, rfl⟩

@[simp] theorem rpmbAsk_copies (n typ addr : Nat) (s : State) : (rpmbAsk n typ addr s).2.lc.copies = s.lc.copies := (rpmbAsk_core n typ addr s).1

@[simp] theorem rpmbAsk_life (n typ addr : Nat) (s : State) : (rpmbAsk n typ addr s).2.fv.life = s.fv.life := (rpmbAsk_core n typ addr s).2.1

@[simp] theorem rpmbAsk_pending (n typ addr : Nat) (s : State) : (rpmbAsk n typ addr s).2.pending = s.pending := (rpmbAsk_core n typ addr s).2.2

theorem noteRpmb_core (n kind : Nat) (f : List Byte) (s : State) : SameAll (noteRpmb n kind f s) s := by simp [noteRpmb, SameAll]

@[simp] theorem noteRpmb_copies (n kind : Nat) (f : List Byte) (s : State) : (noteRpmb n kind f s).lc.copies = s.lc.copies := (noteRpmb_core n kind f s).1

@[simp] theorem noteRpmb_life (n kind : Nat) (f : List Byte) (s : State) : (noteRpmb n kind f s).fv.life = s.fv.life := (noteRpmb_core n kind f s).2.1

@[simp] theorem noteRpmb_pending (n kind : Nat) (f : List Byte) (s : State) : (noteRpmb n kind f s).pending = s.pending := (noteRpmb_core n kind f s).2.2

theorem sendCardWrite_core (a : Action) (s : State) : SameAll (sendCardWrite a s) s := by
  unfold sendCardWrite
  split <;> simp [SameAll]

@[simp] theorem sendCardWrite_copies (a : Action) (s : State) : (sendCardWrite a s).lc.copies = s.lc.copies := (sendCardWrite_core a s).1

@[simp] theorem sendCardWrite_life (a : Action) (s : State) : (sendCardWrite a s).fv.life = s.fv.life := (sendCardWrite_core a s).2.1

@[simp] theorem sendCardWrite_pending (a : Action) (s : State) : (sendCardWrite a s).pending = s.pending := (sendCardWrite_core a s).2.2

theorem exAsk_core (k : Nat) (b : List Byte) (s : State) : SameAll (exAsk k b s).2 s := by simp [exAsk, SameAll]

@[simp] theorem exAsk_copies (k : Nat) (b : List Byte) (s : State) : (exAsk k b s).2.lc.copies = s.lc.copies := (exAsk_core k b s).1

@[simp] theorem exAsk_life (k : Nat) (b : List Byte) (s : State) : (exAsk k b s).2.fv.life = s.fv.life := (exAsk_core k b s).2.1

@[simp] theorem exAsk_pending (k : Nat) (b : List Byte) (s : State) : (exAsk k b s).2.pending = s.pending := (exAsk_core k b s).2.2

theorem exGo_core (k : Nat) (s : State) : SameAll (exGo k s) s := by simp [exGo, SameAll]

@[simp] theorem exGo_copies (k : Nat) (s : State) : (exGo k s).lc.copies = s.lc.copies := (exGo_core k s).1

@[simp] theorem exGo_life (k : Nat) (s : State) : (exGo k s).fv.life = s.fv.life := (exGo_core k s).2.1

@[simp] theorem exGo_pending (k : Nat) (s : State) : (exGo k s).pending = s.pending := (exGo_core k s).2.2

theorem exFinish_core (k : Nat) (e : ExEnd) (s : State) : SameAll (exFinish k e s) s := by simp [exFinish, SameAll]

@[simp] theorem exFinish_copies (k : Nat) (e : ExEnd) (s : State) : (exFinish k e s).lc.copies = s.lc.copies := (exFinish_core k e s).1

@[simp] theorem exFinish_life (k : Nat) (e : ExEnd) (s : State) : (exFinish k e s).fv.life = s.fv.life := (exFinish_core k e s).2.1

@[simp] theorem exFinish_pending (k : Nat) (e : ExEnd) (s : State) : (exFinish k e s).pending = s.pending := (exFinish_core k e s).2.2

theorem exDone_core (k : Nat) (e : ExEnd) (s : State) : SameAll (exDone k e s) s := by simp [exDone, SameAll]

@[simp] theorem exDone_copies (k : Nat) (e : ExEnd) (s : State) : (exDone k e s).lc.copies = s.lc.copies := (exDone_core k e s).1

@[simp] theorem exDone_life (k : Nat) (e : ExEnd) (s : State) : (exDone k e s).fv.life = s.fv.life := (exDone_core k e s).2.1

@[simp] theorem exDone_pending (k : Nat) (e : ExEnd) (s : State) : (exDone k e s).pending = s.pending := (exDone_core k e s).2.2

theorem exEnd_core (k status : Nat) (s : State) : SameAll (exEnd k status s) s := by
  unfold exEnd
  split <;> simp [SameAll]

@[simp] theorem exEnd_copies (k status : Nat) (s : State) : (exEnd k status s).lc.copies = s.lc.copies := (exEnd_core k status s).1

@[simp] theorem exEnd_life (k status : Nat) (s : State) : (exEnd k status s).fv.life = s.fv.life := (exEnd_core k status s).2.1

@[simp] theorem exEnd_pending (k status : Nat) (s : State) : (exEnd k status s).pending = s.pending := (exEnd_core k status s).2.2

theorem exGoIf_core (op k : Nat) (s : State) : SameAll (exGoIf op k s) s := by simp [exGoIf, SameAll]

@[simp] theorem exGoIf_copies (op k : Nat) (s : State) : (exGoIf op k s).lc.copies = s.lc.copies := (exGoIf_core op k s).1

@[simp] theorem exGoIf_life (op k : Nat) (s : State) : (exGoIf op k s).fv.life = s.fv.life := (exGoIf_core op k s).2.1

@[simp] theorem exGoIf_pending (op k : Nat) (s : State) : (exGoIf op k s).pending = s.pending := (exGoIf_core op k s).2.2

theorem scOff_core (n : Nat) (s : State) : SameAll (scOff n s) s := ⟨rfl, rfl, rfl⟩

@[simp] theorem scOff_copies (n : Nat) (s : State) : (scOff n s).lc.copies = s.lc.copies := (scOff_core n s).1

@[simp] theorem scOff_life (n : Nat) (s : State) : (scOff n s).fv.life = s.fv.life := (scOff_core n s).2.1

@[simp] theorem scOff_pending (n : Nat) (s : State) : (scOff n s).pending = s.pending := (scOff_core n s).2.2

theorem scOn_core (n : Nat) (atr : List Byte) (s : State) : SameAll (scOn n atr s) s := ⟨rfl, rfl, rfl⟩

@[simp] theorem scOn_copies (n : Nat) (atr : List Byte) (s : State) : (scOn n atr s).lc.copies = s.lc.copies := (scOn_core n atr s).1

@[simp] theorem scOn_life (n : Nat) (atr : List Byte) (s : State) : (scOn n atr s).fv.life = s.fv.life := (scOn_core n atr s).2.1

@[simp] theorem scOn_pending (n : Nat) (atr : List Byte) (s : State) : (scOn n atr s).pending = s.pending := (scOn_core n atr s).2.2

theorem scActivated_core (n : Nat) (a : ExAnswer) (s : State) : SameAll (scActivated n a s).2 s := by simp [scActivated, SameAll]

@[simp] theorem scActivated_copies (n : Nat) (a : ExAnswer) (s : State) : (scActivated n a s).2.lc.copies = s.lc.copies := (scActivated_core n a s).1

@[simp] theorem scActivated_life (n : Nat) (a : ExAnswer) (s : State) : (scActivated n a s).2.fv.life = s.fv.life := (scActivated_core n a s).2.1

@[simp] theorem scActivated_pending (n : Nat) (a : ExAnswer) (s : State) : (scActivated n a s).2.pending = s.pending := (scActivated_core n a s).2.2

theorem keyprogAnswered_core (n : Nat) (b : List Byte) (kind sw : Nat) (f : List Byte) (s : State) : SameAll (keyprogAnswered n b kind sw f s).2 s := by
  unfold keyprogAnswered
  try dsimp only
  repeat' split
  all_goals simp [SameAll]

@[simp] theorem keyprogAnswered_copies (n : Nat) (b : List Byte) (kind sw : Nat) (f : List Byte) (s : State) : (keyprogAnswered n b kind sw f s).2.lc.copies = s.lc.copies := (keyprogAnswered_core n b kind sw f s).1

@[simp] theorem keyprogAnswered_life (n : Nat) (b : List Byte) (kind sw : Nat) (f : List Byte) (s : State) : (keyprogAnswered n b kind sw f s).2.fv.life = s.fv.life := (keyprogAnswered_core n b kind sw f s).2.1

@[simp] theorem keyprogAnswered_pending (n : Nat) (b : List Byte) (kind sw : Nat) (f : List Byte) (s : State) : (keyprogAnswered n b kind sw f s).2.pending = s.pending := (keyprogAnswered_core n b kind sw f s).2.2

theorem mcAnswered_core (n : Nat) (r : ExRun) (a : ExAnswer) (s : State) : SameAll (mcAnswered n r a s).2 s := by
  unfold mcAnswered
  try dsimp only
  repeat' split
  all_goals simp [SameAll]

@[simp] theorem mcAnswered_copies (n : Nat) (r : ExRun) (a : ExAnswer) (s : State) : (mcAnswered n r a s).2.lc.copies = s.lc.copies := (mcAnswered_core n r a s).1

@[simp] theorem mcAnswered_life (n : Nat) (r : ExRun) (a : ExAnswer) (s : State) : (mcAnswered n r a s).2.fv.life = s.fv.life := (mcAnswered_core n r a s).2.1

@[simp] theorem mcAnswered_pending (n : Nat) (r : ExRun) (a : ExAnswer) (s : State) : (mcAnswered n r a s).2.pending = s.pending := (mcAnswered_core n r a s).2.2

theorem scAnswered_core (n : Nat) (b : List Byte) (a : ExAnswer) (s : State) : SameAll (scAnswered n b a s).2 s := by
  unfold scAnswered
  split <;> simp [SameAll]

@[simp] theorem scAnswered_copies (n : Nat) (b : List Byte) (a : ExAnswer) (s : State) : (scAnswered n b a s).2.lc.copies = s.lc.copies := (scAnswered_core n b a s).1

@[simp] theorem scAnswered_life (n : Nat) (b : List Byte) (a : ExAnswer) (s : State) : (scAnswered n b a s).2.fv.life = s.fv.life := (scAnswered_core n b a s).2.1

@[simp] theorem scAnswered_pending (n : Nat) (b : List Byte) (a : ExAnswer) (s : State) : (scAnswered n b a s).2.pending = s.pending := (scAnswered_core n b a s).2.2

theorem writeMcCfg_core (n : Nat) (mask val : W64) (s : State) : SameAll (writeMcCfg n mask val s) s := ⟨rfl, rfl, rfl⟩

@[simp] theorem writeMcCfg_copies (n : Nat) (mask val : W64) (s : State) : (writeMcCfg n mask val s).lc.copies = s.lc.copies := (writeMcCfg_core n mask val s).1

@[simp] theorem writeMcCfg_life (n : Nat) (mask val : W64) (s : State) : (writeMcCfg n mask val s).fv.life = s.fv.life := (writeMcCfg_core n mask val s).2.1

@[simp] theorem writeMcCfg_pending (n : Nat) (mask val : W64) (s : State) : (writeMcCfg n mask val s).pending = s.pending := (writeMcCfg_core n mask val s).2.2

theorem writeScCfg_core (n : Nat) (mask val : W64) (s : State) : SameAll (writeScCfg n mask val s) s := ⟨rfl, rfl, rfl⟩

@[simp] theorem writeScCfg_copies (n : Nat) (mask val : W64) (s : State) : (writeScCfg n mask val s).lc.copies = s.lc.copies := (writeScCfg_core n mask val s).1

@[simp] theorem writeScCfg_life (n : Nat) (mask val : W64) (s : State) : (writeScCfg n mask val s).fv.life = s.fv.life := (writeScCfg_core n mask val s).2.1

@[simp] theorem writeScCfg_pending (n : Nat) (mask val : W64) (s : State) : (writeScCfg n mask val s).pending = s.pending := (writeScCfg_core n mask val s).2.2

theorem updMc_same (n : Nat) (f : McSlot → McSlot) (s : State) : SameMem (updMc n f s) s := rfl

@[simp] theorem updMc_mem (n : Nat) (f : McSlot → McSlot) (s : State) : (updMc n f s).mem = s.mem := updMc_same n f s

theorem updSc_same (n : Nat) (f : ScSlot → ScSlot) (s : State) : SameMem (updSc n f s) s := rfl

@[simp] theorem updSc_mem (n : Nat) (f : ScSlot → ScSlot) (s : State) : (updSc n f s).mem = s.mem := updSc_same n f s

theorem updEx_same (k : Nat) (f : ExWin → ExWin) (s : State) : SameMem (updEx k f s) s := rfl

@[simp] theorem updEx_mem (k : Nat) (f : ExWin → ExWin) (s : State) : (updEx k f s).mem = s.mem := updEx_same k f s

theorem setPendAll_same (i : Nat) (s : State) : SameMem (setPendAll i s) s := by simp [setPendAll, SameMem]

@[simp] theorem setPendAll_mem (i : Nat) (s : State) : (setPendAll i s).mem = s.mem := setPendAll_same i s

theorem sendRpmb_same (n : Nat) (f : List Byte) (s : State) : SameMem (sendRpmb n f s) s := rfl

@[simp] theorem sendRpmb_mem (n : Nat) (f : List Byte) (s : State) : (sendRpmb n f s).mem = s.mem := sendRpmb_same n f s

theorem rpmbAsk_same (n typ addr : Nat) (s : State) : SameMem (rpmbAsk n typ addr s).2 s := rfl

@[simp] theorem rpmbAsk_mem (n typ addr : Nat) (s : State) : (rpmbAsk n typ addr s).2.mem = s.mem := rpmbAsk_same n typ addr s

theorem noteRpmb_same (n kind : Nat) (f : List Byte) (s : State) : SameMem (noteRpmb n kind f s) s := by simp [noteRpmb, SameMem]

@[simp] theorem noteRpmb_mem (n kind : Nat) (f : List Byte) (s : State) : (noteRpmb n kind f s).mem = s.mem := noteRpmb_same n kind f s

theorem sendCardWrite_same (a : Action) (s : State) : SameMem (sendCardWrite a s) s := by
  unfold sendCardWrite
  split <;> simp [SameMem]

@[simp] theorem sendCardWrite_mem (a : Action) (s : State) : (sendCardWrite a s).mem = s.mem := sendCardWrite_same a s

theorem exAsk_same (k : Nat) (b : List Byte) (s : State) : SameMem (exAsk k b s).2 s := by simp [exAsk, SameMem]

@[simp] theorem exAsk_mem (k : Nat) (b : List Byte) (s : State) : (exAsk k b s).2.mem = s.mem := exAsk_same k b s

theorem exGo_same (k : Nat) (s : State) : SameMem (exGo k s) s := by simp [exGo, SameMem]

@[simp] theorem exGo_mem (k : Nat) (s : State) : (exGo k s).mem = s.mem := exGo_same k s

theorem exFinish_same (k : Nat) (e : ExEnd) (s : State) : SameMem (exFinish k e s) s := by simp [exFinish, SameMem]

@[simp] theorem exFinish_mem (k : Nat) (e : ExEnd) (s : State) : (exFinish k e s).mem = s.mem := exFinish_same k e s

theorem exDone_same (k : Nat) (e : ExEnd) (s : State) : SameMem (exDone k e s) s := by simp [exDone, SameMem]

@[simp] theorem exDone_mem (k : Nat) (e : ExEnd) (s : State) : (exDone k e s).mem = s.mem := exDone_same k e s

theorem exEnd_same (k status : Nat) (s : State) : SameMem (exEnd k status s) s := by
  unfold exEnd
  split <;> simp [SameMem]

@[simp] theorem exEnd_mem (k status : Nat) (s : State) : (exEnd k status s).mem = s.mem := exEnd_same k status s

theorem exGoIf_same (op k : Nat) (s : State) : SameMem (exGoIf op k s) s := by simp [exGoIf, SameMem]

@[simp] theorem exGoIf_mem (op k : Nat) (s : State) : (exGoIf op k s).mem = s.mem := exGoIf_same op k s

theorem scOff_same (n : Nat) (s : State) : SameMem (scOff n s) s := rfl

@[simp] theorem scOff_mem (n : Nat) (s : State) : (scOff n s).mem = s.mem := scOff_same n s

theorem scOn_same (n : Nat) (atr : List Byte) (s : State) : SameMem (scOn n atr s) s := rfl

@[simp] theorem scOn_mem (n : Nat) (atr : List Byte) (s : State) : (scOn n atr s).mem = s.mem := scOn_same n atr s

theorem scActivated_same (n : Nat) (a : ExAnswer) (s : State) : SameMem (scActivated n a s).2 s := by simp [scActivated, SameMem]

@[simp] theorem scActivated_mem (n : Nat) (a : ExAnswer) (s : State) : (scActivated n a s).2.mem = s.mem := scActivated_same n a s

theorem keyprogAnswered_same (n : Nat) (b : List Byte) (kind sw : Nat) (f : List Byte) (s : State) : SameMem (keyprogAnswered n b kind sw f s).2 s := by
  unfold keyprogAnswered
  try dsimp only
  repeat' split
  all_goals simp [SameMem]

@[simp] theorem keyprogAnswered_mem (n : Nat) (b : List Byte) (kind sw : Nat) (f : List Byte) (s : State) : (keyprogAnswered n b kind sw f s).2.mem = s.mem := keyprogAnswered_same n b kind sw f s

theorem mcAnswered_wf (n : Nat) (r : ExRun) (a : ExAnswer) (s : State) : KeepMem (mcAnswered n r a s).2 s := by
  unfold mcAnswered
  try dsimp only
  iterate 30 all_goals (try first | with_reducible exact KeepMem.refl _ | assumption | split | with_reducible refine KeepMem.trans (busWrite_wf ..) ?_ | with_reducible refine KeepMem.trans (KeepMem.of_eq (noteRead_mem ..)) ?_ | with_reducible refine KeepMem.trans (KeepMem.of_eq (noteRpmb_mem ..)) ?_ | with_reducible refine KeepMem.trans (KeepMem.of_eq (keyprogAnswered_mem ..)) ?_)

theorem scAnswered_same (n : Nat) (b : List Byte) (a : ExAnswer) (s : State) : SameMem (scAnswered n b a s).2 s := by
  unfold scAnswered
  split <;> simp [SameMem]

@[simp] theorem scAnswered_mem (n : Nat) (b : List Byte) (a : ExAnswer) (s : State) : (scAnswered n b a s).2.mem = s.mem := scAnswered_same n b a s

theorem writeMcCfg_same (n : Nat) (mask val : W64) (s : State) : SameMem (writeMcCfg n mask val s) s := rfl

@[simp] theorem writeMcCfg_mem (n : Nat) (mask val : W64) (s : State) : (writeMcCfg n mask val s).mem = s.mem := writeMcCfg_same n mask val s

theorem writeScCfg_same (n : Nat) (mask val : W64) (s : State) : SameMem (writeScCfg n mask val s) s := rfl

@[simp] theorem writeScCfg_mem (n : Nat) (mask val : W64) (s : State) : (writeScCfg n mask val s).mem = s.mem := writeScCfg_same n mask val s

end Sys2Proof.Machine
end

