-- ==== Sys2Proof/Laws/KeptContactless.lean ====
section
/-! SUPPORT. What each operation of Machine/Contactless.lean keeps: the fuses, the life counters, the queue, and memory or its form. -/

namespace Sys2Proof.Machine

theorem carrierOff_core (s : State) : SameAll (carrierOff s) s := by simp [carrierOff, SameAll]

@[simp] theorem carrierOff_copies (s : State) : (carrierOff s).lc.copies = s.lc.copies := (carrierOff_core s).1

@[simp] theorem carrierOff_life (s : State) : (carrierOff s).fv.life = s.fv.life := (carrierOff_core s).2.1

@[simp] theorem carrierOff_pending (s : State) : (carrierOff s).pending = s.pending := (carrierOff_core s).2.2

theorem pollResult_core (a : ExAnswer) (s : State) : SameAll (pollResult a s) s := by simp [pollResult, SameAll]

@[simp] theorem pollResult_copies (a : ExAnswer) (s : State) : (pollResult a s).lc.copies = s.lc.copies := (pollResult_core a s).1

@[simp] theorem pollResult_life (a : ExAnswer) (s : State) : (pollResult a s).fv.life = s.fv.life := (pollResult_core a s).2.1

@[simp] theorem pollResult_pending (a : ExAnswer) (s : State) : (pollResult a s).pending = s.pending := (pollResult_core a s).2.2

theorem tokenOn_core (t : TokenInfo) (ats : List Byte) (s : State) : SameAll (tokenOn t ats s) s := ⟨rfl, rfl, rfl⟩

@[simp] theorem tokenOn_copies (t : TokenInfo) (ats : List Byte) (s : State) : (tokenOn t ats s).lc.copies = s.lc.copies := (tokenOn_core t ats s).1

@[simp] theorem tokenOn_life (t : TokenInfo) (ats : List Byte) (s : State) : (tokenOn t ats s).fv.life = s.fv.life := (tokenOn_core t ats s).2.1

@[simp] theorem tokenOn_pending (t : TokenInfo) (ats : List Byte) (s : State) : (tokenOn t ats s).pending = s.pending := (tokenOn_core t ats s).2.2

theorem nfAnswered_core (b : List Byte) (a : ExAnswer) (s : State) : SameAll (nfAnswered b a s).2 s := by
  unfold nfAnswered
  try dsimp only
  repeat' split
  all_goals simp [SameAll]

@[simp] theorem nfAnswered_copies (b : List Byte) (a : ExAnswer) (s : State) : (nfAnswered b a s).2.lc.copies = s.lc.copies := (nfAnswered_core b a s).1

@[simp] theorem nfAnswered_life (b : List Byte) (a : ExAnswer) (s : State) : (nfAnswered b a s).2.fv.life = s.fv.life := (nfAnswered_core b a s).2.1

@[simp] theorem nfAnswered_pending (b : List Byte) (a : ExAnswer) (s : State) : (nfAnswered b a s).2.pending = s.pending := (nfAnswered_core b a s).2.2

theorem witnessApdu_core (p : List Byte) (s : State) : SameAll (witnessApdu p s) s := by simp [witnessApdu, SameAll]

@[simp] theorem witnessApdu_copies (p : List Byte) (s : State) : (witnessApdu p s).lc.copies = s.lc.copies := (witnessApdu_core p s).1

@[simp] theorem witnessApdu_life (p : List Byte) (s : State) : (witnessApdu p s).fv.life = s.fv.life := (witnessApdu_core p s).2.1

@[simp] theorem witnessApdu_pending (p : List Byte) (s : State) : (witnessApdu p s).pending = s.pending := (witnessApdu_core p s).2.2

theorem witnessStop_core (s : State) : SameAll (witnessStop s) s := ⟨rfl, rfl, rfl⟩

@[simp] theorem witnessStop_copies (s : State) : (witnessStop s).lc.copies = s.lc.copies := (witnessStop_core s).1

@[simp] theorem witnessStop_life (s : State) : (witnessStop s).fv.life = s.fv.life := (witnessStop_core s).2.1

@[simp] theorem witnessStop_pending (s : State) : (witnessStop s).pending = s.pending := (witnessStop_core s).2.2

theorem carrierOff_same (s : State) : SameMem (carrierOff s) s := by simp [carrierOff, SameMem]

@[simp] theorem carrierOff_mem (s : State) : (carrierOff s).mem = s.mem := carrierOff_same s

theorem pollResult_same (a : ExAnswer) (s : State) : SameMem (pollResult a s) s := by simp [pollResult, SameMem]

@[simp] theorem pollResult_mem (a : ExAnswer) (s : State) : (pollResult a s).mem = s.mem := pollResult_same a s

theorem tokenOn_same (t : TokenInfo) (ats : List Byte) (s : State) : SameMem (tokenOn t ats s) s := rfl

@[simp] theorem tokenOn_mem (t : TokenInfo) (ats : List Byte) (s : State) : (tokenOn t ats s).mem = s.mem := tokenOn_same t ats s

theorem nfAnswered_same (b : List Byte) (a : ExAnswer) (s : State) : SameMem (nfAnswered b a s).2 s := by
  unfold nfAnswered
  try dsimp only
  repeat' split
  all_goals simp [SameMem]

@[simp] theorem nfAnswered_mem (b : List Byte) (a : ExAnswer) (s : State) : (nfAnswered b a s).2.mem = s.mem := nfAnswered_same b a s

theorem witnessApdu_same (p : List Byte) (s : State) : SameMem (witnessApdu p s) s := by simp [witnessApdu, SameMem]

@[simp] theorem witnessApdu_mem (p : List Byte) (s : State) : (witnessApdu p s).mem = s.mem := witnessApdu_same p s

theorem witnessStop_same (s : State) : SameMem (witnessStop s) s := rfl

@[simp] theorem witnessStop_mem (s : State) : (witnessStop s).mem = s.mem := witnessStop_same s

end Sys2Proof.Machine
end

