-- ==== Sys2Proof/Laws/KeptVault.lean ====
section
/-! SUPPORT. What each operation of Machine/Vault.lean keeps: the fuses, the life counters, the queue, and memory or its form. -/

namespace Sys2Proof.Machine

theorem retireBlock_core (stack blk : Nat) (s : State) : SameAll (retireBlock stack blk s) s := by
  have key : ∀ t : State, SameAll t s → ∀ (c : Prop) [Decidable c],
      SameAll (if c then flashEvent 2 (flashEvent 1 t) else flashEvent 1 t) s := by
    intro t ht c _
    exact ite_of (P := fun t => SameAll t s) ((flashEvent_core 2 _).trans ((flashEvent_core 1 _).trans ht)) ((flashEvent_core 1 _).trans ht)
  unfold retireBlock
  refine ite_of (P := fun t => SameAll t s) (SameAll.refl _) ?_
  refine key _ ?_ _
  split
  · exact ⟨rfl, rfl, rfl⟩
  · exact ite_of (P := fun t => SameAll t s) ⟨rfl, rfl, rfl⟩ ⟨rfl, rfl, rfl⟩

@[simp] theorem retireBlock_copies (stack blk : Nat) (s : State) : (retireBlock stack blk s).lc.copies = s.lc.copies := (retireBlock_core stack blk s).1

@[simp] theorem retireBlock_life (stack blk : Nat) (s : State) : (retireBlock stack blk s).fv.life = s.fv.life := (retireBlock_core stack blk s).2.1

@[simp] theorem retireBlock_pending (stack blk : Nat) (s : State) : (retireBlock stack blk s).pending = s.pending := (retireBlock_core stack blk s).2.2

theorem chargeErase_core (stack blk units : Nat) (s : State) : SameAll (chargeErase stack blk units s) s := ⟨rfl, rfl, rfl⟩

@[simp] theorem chargeErase_copies (stack blk units : Nat) (s : State) : (chargeErase stack blk units s).lc.copies = s.lc.copies := (chargeErase_core stack blk units s).1

@[simp] theorem chargeErase_life (stack blk units : Nat) (s : State) : (chargeErase stack blk units s).fv.life = s.fv.life := (chargeErase_core stack blk units s).2.1

@[simp] theorem chargeErase_pending (stack blk units : Nat) (s : State) : (chargeErase stack blk units s).pending = s.pending := (chargeErase_core stack blk units s).2.2

theorem queueRelocation_core (stack blk : Nat) (s : State) : SameAll (queueRelocation stack blk s) s := by
  unfold queueRelocation
  split <;> simp [SameAll]

@[simp] theorem queueRelocation_copies (stack blk : Nat) (s : State) : (queueRelocation stack blk s).lc.copies = s.lc.copies := (queueRelocation_core stack blk s).1

@[simp] theorem queueRelocation_life (stack blk : Nat) (s : State) : (queueRelocation stack blk s).fv.life = s.fv.life := (queueRelocation_core stack blk s).2.1

@[simp] theorem queueRelocation_pending (stack blk : Nat) (s : State) : (queueRelocation stack blk s).pending = s.pending := (queueRelocation_core stack blk s).2.2

theorem loseStack_core (stack : Nat) (s : State) : SameCp (loseStack stack s) s := by simp [loseStack, SameCp]

@[simp] theorem loseStack_copies (stack : Nat) (s : State) : (loseStack stack s).lc.copies = s.lc.copies := (loseStack_core stack s).1

@[simp] theorem loseStack_pending (stack : Nat) (s : State) : (loseStack stack s).pending = s.pending := (loseStack_core stack s).2

theorem noteFail_core (stack blk : Nat) (s : State) : SameCp (noteFail stack blk s) s := by simp [noteFail, SameCp]

@[simp] theorem noteFail_copies (stack blk : Nat) (s : State) : (noteFail stack blk s).lc.copies = s.lc.copies := (noteFail_core stack blk s).1

@[simp] theorem noteFail_pending (stack blk : Nat) (s : State) : (noteFail stack blk s).pending = s.pending := (noteFail_core stack blk s).2

theorem wearPacing_core (s : State) : SameAll (wearPacing s) s := by simp [wearPacing, SameAll]

@[simp] theorem wearPacing_copies (s : State) : (wearPacing s).lc.copies = s.lc.copies := (wearPacing_core s).1

@[simp] theorem wearPacing_life (s : State) : (wearPacing s).fv.life = s.fv.life := (wearPacing_core s).2.1

@[simp] theorem wearPacing_pending (s : State) : (wearPacing s).pending = s.pending := (wearPacing_core s).2.2

theorem readRaw_core (warden : Bool) (s : State) : SameAll (readRaw warden s).2 s := by simp [readRaw, SameAll]

@[simp] theorem readRaw_copies (warden : Bool) (s : State) : (readRaw warden s).2.lc.copies = s.lc.copies := (readRaw_core warden s).1

@[simp] theorem readRaw_life (warden : Bool) (s : State) : (readRaw warden s).2.fv.life = s.fv.life := (readRaw_core warden s).2.1

@[simp] theorem readRaw_pending (warden : Bool) (s : State) : (readRaw warden s).2.pending = s.pending := (readRaw_core warden s).2.2

theorem putG_core (c rd : Nat) (v : W64) (s : State) : SameAll (putG c rd v s) s := ⟨rfl, rfl, rfl⟩

@[simp] theorem putG_copies (c rd : Nat) (v : W64) (s : State) : (putG c rd v s).lc.copies = s.lc.copies := (putG_core c rd v s).1

@[simp] theorem putG_life (c rd : Nat) (v : W64) (s : State) : (putG c rd v s).fv.life = s.fv.life := (putG_core c rd v s).2.1

@[simp] theorem putG_pending (c rd : Nat) (v : W64) (s : State) : (putG c rd v s).pending = s.pending := (putG_core c rd v s).2.2

theorem vaultMount_core (s : State) : SameAll (vaultMount s) s := by simp [vaultMount, SameAll]

@[simp] theorem vaultMount_copies (s : State) : (vaultMount s).lc.copies = s.lc.copies := (vaultMount_core s).1

@[simp] theorem vaultMount_life (s : State) : (vaultMount s).fv.life = s.fv.life := (vaultMount_core s).2.1

@[simp] theorem vaultMount_pending (s : State) : (vaultMount s).pending = s.pending := (vaultMount_core s).2.2

theorem retireBlock_same (stack blk : Nat) (s : State) : SameMem (retireBlock stack blk s) s := by
  have key : ∀ t : State, SameMem t s → ∀ (c : Prop) [Decidable c],
      SameMem (if c then flashEvent 2 (flashEvent 1 t) else flashEvent 1 t) s := by
    intro t ht c _
    exact ite_of (P := fun t => SameMem t s) ((flashEvent_same 2 _).trans ((flashEvent_same 1 _).trans ht)) ((flashEvent_same 1 _).trans ht)
  unfold retireBlock
  refine ite_of (P := fun t => SameMem t s) (SameMem.refl _) ?_
  refine key _ ?_ _
  split
  · exact (rfl : _ = _)
  · exact ite_of (P := fun t => SameMem t s) (rfl : _ = _) (rfl : _ = _)

@[simp] theorem retireBlock_mem (stack blk : Nat) (s : State) : (retireBlock stack blk s).mem = s.mem := retireBlock_same stack blk s

theorem chargeErase_same (stack blk units : Nat) (s : State) : SameMem (chargeErase stack blk units s) s := rfl

@[simp] theorem chargeErase_mem (stack blk units : Nat) (s : State) : (chargeErase stack blk units s).mem = s.mem := chargeErase_same stack blk units s

theorem queueRelocation_same (stack blk : Nat) (s : State) : SameMem (queueRelocation stack blk s) s := by
  unfold queueRelocation
  split <;> simp [SameMem]

@[simp] theorem queueRelocation_mem (stack blk : Nat) (s : State) : (queueRelocation stack blk s).mem = s.mem := queueRelocation_same stack blk s

theorem loseStack_same (stack : Nat) (s : State) : SameMem (loseStack stack s) s := by simp [loseStack, SameMem]

@[simp] theorem loseStack_mem (stack : Nat) (s : State) : (loseStack stack s).mem = s.mem := loseStack_same stack s

theorem noteFail_same (stack blk : Nat) (s : State) : SameMem (noteFail stack blk s) s := by simp [noteFail, SameMem]

@[simp] theorem noteFail_mem (stack blk : Nat) (s : State) : (noteFail stack blk s).mem = s.mem := noteFail_same stack blk s

theorem wearPacing_same (s : State) : SameMem (wearPacing s) s := by simp [wearPacing, SameMem]

@[simp] theorem wearPacing_mem (s : State) : (wearPacing s).mem = s.mem := wearPacing_same s

theorem readRaw_same (warden : Bool) (s : State) : SameMem (readRaw warden s).2 s := by simp [readRaw, SameMem]

@[simp] theorem readRaw_mem (warden : Bool) (s : State) : (readRaw warden s).2.mem = s.mem := readRaw_same warden s

theorem putG_same (c rd : Nat) (v : W64) (s : State) : SameMem (putG c rd v s) s := rfl

@[simp] theorem putG_mem (c rd : Nat) (v : W64) (s : State) : (putG c rd v s).mem = s.mem := putG_same c rd v s

theorem vaultMount_same (s : State) : SameMem (vaultMount s) s := by simp [vaultMount, SameMem]

@[simp] theorem vaultMount_mem (s : State) : (vaultMount s).mem = s.mem := vaultMount_same s

end Sys2Proof.Machine
end

