-- ==== Sys2Proof/Laws/KeptTamper.lean ====
section
/-! SUPPORT. What each operation of Machine/Tamper.lean keeps: the fuses, the life counters, the queue, and memory or its form. -/

namespace Sys2Proof.Machine

theorem updHeld_core (s : State) : SameAll (updHeld s) s := ⟨rfl, rfl, rfl⟩

@[simp] theorem updHeld_copies (s : State) : (updHeld s).lc.copies = s.lc.copies := (updHeld_core s).1

@[simp] theorem updHeld_life (s : State) : (updHeld s).fv.life = s.fv.life := (updHeld_core s).2.1

@[simp] theorem updHeld_pending (s : State) : (updHeld s).pending = s.pending := (updHeld_core s).2.2

theorem takeLatch_core (i resp : Nat) (simul bist : Bool) (s : State) : SameAll (takeLatch i resp simul bist s) s := by
  unfold takeLatch
  try dsimp only
  repeat' split
  all_goals simp [SameAll]

@[simp] theorem takeLatch_copies (i resp : Nat) (simul bist : Bool) (s : State) : (takeLatch i resp simul bist s).lc.copies = s.lc.copies := (takeLatch_core i resp simul bist s).1

@[simp] theorem takeLatch_life (i resp : Nat) (simul bist : Bool) (s : State) : (takeLatch i resp simul bist s).fv.life = s.fv.life := (takeLatch_core i resp simul bist s).2.1

@[simp] theorem takeLatch_pending (i resp : Nat) (simul bist : Bool) (s : State) : (takeLatch i resp simul bist s).pending = s.pending := (takeLatch_core i resp simul bist s).2.2

theorem zeroKeep_core (s : State) : SameAll (zeroKeep s) s := by simp [zeroKeep, SameAll]

@[simp] theorem zeroKeep_copies (s : State) : (zeroKeep s).lc.copies = s.lc.copies := (zeroKeep_core s).1

@[simp] theorem zeroKeep_life (s : State) : (zeroKeep s).fv.life = s.fv.life := (zeroKeep_core s).2.1

@[simp] theorem zeroKeep_pending (s : State) : (zeroKeep s).pending = s.pending := (zeroKeep_core s).2.2

theorem askShed_core (s : State) : SameAll (askShed s) s := by simp [askShed, SameAll]

@[simp] theorem askShed_copies (s : State) : (askShed s).lc.copies = s.lc.copies := (askShed_core s).1

@[simp] theorem askShed_life (s : State) : (askShed s).fv.life = s.fv.life := (askShed_core s).2.1

@[simp] theorem askShed_pending (s : State) : (askShed s).pending = s.pending := (askShed_core s).2.2

theorem respond_core (r : Nat) (s : State) : SameAll (respond r s) s := by simp [respond, SameAll]

@[simp] theorem respond_copies (r : Nat) (s : State) : (respond r s).lc.copies = s.lc.copies := (respond_core r s).1

@[simp] theorem respond_life (r : Nat) (s : State) : (respond r s).fv.life = s.fv.life := (respond_core r s).2.1

@[simp] theorem respond_pending (r : Nat) (s : State) : (respond r s).pending = s.pending := (respond_core r s).2.2

theorem fireGroup_core (ss : List Nat) (bist : Bool) (s : State) : SameAll (fireGroup ss bist s) s := by simp [fireGroup, SameAll]

@[simp] theorem fireGroup_copies (ss : List Nat) (bist : Bool) (s : State) : (fireGroup ss bist s).lc.copies = s.lc.copies := (fireGroup_core ss bist s).1

@[simp] theorem fireGroup_life (ss : List Nat) (bist : Bool) (s : State) : (fireGroup ss bist s).fv.life = s.fv.life := (fireGroup_core ss bist s).2.1

@[simp] theorem fireGroup_pending (ss : List Nat) (bist : Bool) (s : State) : (fireGroup ss bist s).pending = s.pending := (fireGroup_core ss bist s).2.2

theorem drawSeeds_core (s : State) : SameAll (drawSeeds s) s := by simp [drawSeeds, SameAll]

@[simp] theorem drawSeeds_copies (s : State) : (drawSeeds s).lc.copies = s.lc.copies := (drawSeeds_core s).1

@[simp] theorem drawSeeds_life (s : State) : (drawSeeds s).fv.life = s.fv.life := (drawSeeds_core s).2.1

@[simp] theorem drawSeeds_pending (s : State) : (drawSeeds s).pending = s.pending := (drawSeeds_core s).2.2

theorem evalSensors_core (mask : Nat) (s : State) : SameAll (evalSensors mask s) s := by simp [evalSensors, SameAll]

@[simp] theorem evalSensors_copies (mask : Nat) (s : State) : (evalSensors mask s).lc.copies = s.lc.copies := (evalSensors_core mask s).1

@[simp] theorem evalSensors_life (mask : Nat) (s : State) : (evalSensors mask s).fv.life = s.fv.life := (evalSensors_core mask s).2.1

@[simp] theorem evalSensors_pending (mask : Nat) (s : State) : (evalSensors mask s).pending = s.pending := (evalSensors_core mask s).2.2

theorem fireBrief_core (i : Nat) (bist : Bool) (s : State) : SameAll (fireBrief i bist s) s := by simp [fireBrief, SameAll]

@[simp] theorem fireBrief_copies (i : Nat) (bist : Bool) (s : State) : (fireBrief i bist s).lc.copies = s.lc.copies := (fireBrief_core i bist s).1

@[simp] theorem fireBrief_life (i : Nat) (bist : Bool) (s : State) : (fireBrief i bist s).fv.life = s.fv.life := (fireBrief_core i bist s).2.1

@[simp] theorem fireBrief_pending (i : Nat) (bist : Bool) (s : State) : (fireBrief i bist s).pending = s.pending := (fireBrief_core i bist s).2.2

theorem cfgRefused_core (s : State) : SameAll (cfgRefused s) s := by simp [cfgRefused, SameAll]

@[simp] theorem cfgRefused_copies (s : State) : (cfgRefused s).lc.copies = s.lc.copies := (cfgRefused_core s).1

@[simp] theorem cfgRefused_life (s : State) : (cfgRefused s).fv.life = s.fv.life := (cfgRefused_core s).2.1

@[simp] theorem cfgRefused_pending (s : State) : (cfgRefused s).pending = s.pending := (cfgRefused_core s).2.2

theorem writeResp_core (i resp : Nat) (mode : Option Nat) (s : State) : SameAll (writeResp i resp mode s).2 s := by simp [writeResp, SameAll]

@[simp] theorem writeResp_copies (i resp : Nat) (mode : Option Nat) (s : State) : (writeResp i resp mode s).2.lc.copies = s.lc.copies := (writeResp_core i resp mode s).1

@[simp] theorem writeResp_life (i resp : Nat) (mode : Option Nat) (s : State) : (writeResp i resp mode s).2.fv.life = s.fv.life := (writeResp_core i resp mode s).2.1

@[simp] theorem writeResp_pending (i resp : Nat) (mode : Option Nat) (s : State) : (writeResp i resp mode s).2.pending = s.pending := (writeResp_core i resp mode s).2.2

theorem writeLock_core (v : Nat) (s : State) : SameAll (writeLock v s) s := by simp [writeLock, SameAll]

@[simp] theorem writeLock_copies (v : Nat) (s : State) : (writeLock v s).lc.copies = s.lc.copies := (writeLock_core v s).1

@[simp] theorem writeLock_life (v : Nat) (s : State) : (writeLock v s).fv.life = s.fv.life := (writeLock_core v s).2.1

@[simp] theorem writeLock_pending (v : Nat) (s : State) : (writeLock v s).pending = s.pending := (writeLock_core v s).2.2

theorem custodyResp_core (s : State) : SameAll (custodyResp s) s := ⟨rfl, rfl, rfl⟩

@[simp] theorem custodyResp_copies (s : State) : (custodyResp s).lc.copies = s.lc.copies := (custodyResp_core s).1

@[simp] theorem custodyResp_life (s : State) : (custodyResp s).fv.life = s.fv.life := (custodyResp_core s).2.1

@[simp] theorem custodyResp_pending (s : State) : (custodyResp s).pending = s.pending := (custodyResp_core s).2.2

theorem bistOne_core (out i : Nat) (s : State) : SameAll (bistOne out i s) s := by simp [bistOne, SameAll]

@[simp] theorem bistOne_copies (out i : Nat) (s : State) : (bistOne out i s).lc.copies = s.lc.copies := (bistOne_core out i s).1

@[simp] theorem bistOne_life (out i : Nat) (s : State) : (bistOne out i s).fv.life = s.fv.life := (bistOne_core out i s).2.1

@[simp] theorem bistOne_pending (out i : Nat) (s : State) : (bistOne out i s).pending = s.pending := (bistOne_core out i s).2.2

theorem bistRun_core (out : Nat) (s : State) : SameAll (bistRun out s) s := by simp [bistRun, SameAll]

@[simp] theorem bistRun_copies (out : Nat) (s : State) : (bistRun out s).lc.copies = s.lc.copies := (bistRun_core out s).1

@[simp] theorem bistRun_life (out : Nat) (s : State) : (bistRun out s).fv.life = s.fv.life := (bistRun_core out s).2.1

@[simp] theorem bistRun_pending (out : Nat) (s : State) : (bistRun out s).pending = s.pending := (bistRun_core out s).2.2

theorem updHeld_same (s : State) : SameMem (updHeld s) s := rfl

@[simp] theorem updHeld_mem (s : State) : (updHeld s).mem = s.mem := updHeld_same s

theorem takeLatch_same (i resp : Nat) (simul bist : Bool) (s : State) : SameMem (takeLatch i resp simul bist s) s := by
  unfold takeLatch
  try dsimp only
  repeat' split
  all_goals simp [SameMem]

@[simp] theorem takeLatch_mem (i resp : Nat) (simul bist : Bool) (s : State) : (takeLatch i resp simul bist s).mem = s.mem := takeLatch_same i resp simul bist s

theorem zeroKeep_wf (s : State) : KeepMem (zeroKeep s) s := by
  unfold zeroKeep
  try dsimp only
  iterate 30 all_goals (try first | with_reducible exact KeepMem.refl _ | assumption | split | with_reducible refine KeepMem.trans (KeepMem.of_eq (setEventIf_mem ..)) ?_ | (apply KeepMem.of_eq; simp; done))

theorem askShed_same (s : State) : SameMem (askShed s) s := by simp [askShed, SameMem]

@[simp] theorem askShed_mem (s : State) : (askShed s).mem = s.mem := askShed_same s

theorem respond_wf (r : Nat) (s : State) : KeepMem (respond r s) s := by
  unfold respond
  try dsimp only
  iterate 30 all_goals (try first | with_reducible exact KeepMem.refl _ | assumption | split | with_reducible refine KeepMem.trans (zeroKeep_wf ..) ?_ | with_reducible refine KeepMem.trans (KeepMem.of_eq (askShed_mem ..)) ?_ | (apply KeepMem.of_eq; simp; done) | with_reducible refine KeepMem.trans (KeepMem.record ..) ?_)

theorem fireGroup_wf (ss : List Nat) (bist : Bool) (s : State) : KeepMem (fireGroup ss bist s) s := by
  unfold fireGroup
  try dsimp only
  iterate 30 all_goals (try first | with_reducible exact KeepMem.refl _ | assumption | split | with_reducible refine KeepMem.trans (respond_wf ..) ?_ | with_reducible refine KeepMem.trans (KeepMem.of_eq (setEventIf_mem ..)) ?_ | with_reducible refine KeepMem.trans (KeepMem.of_eq (updHeld_mem ..)) ?_ | with_reducible refine KeepMem.trans (KeepMem.of_eq (takeLatch_mem ..)) ?_ | (apply KeepMem.of_eq; simp; done))

theorem drawSeeds_same (s : State) : SameMem (drawSeeds s) s := by simp [drawSeeds, SameMem]

@[simp] theorem drawSeeds_mem (s : State) : (drawSeeds s).mem = s.mem := drawSeeds_same s

theorem evalSensors_wf (mask : Nat) (s : State) : KeepMem (evalSensors mask s) s := by
  unfold evalSensors
  try dsimp only
  iterate 30 all_goals (try first | with_reducible exact KeepMem.refl _ | assumption | split | with_reducible refine KeepMem.trans (fireGroup_wf ..) ?_ | (apply KeepMem.of_eq; simp; done))

theorem fireBrief_wf (i : Nat) (bist : Bool) (s : State) : KeepMem (fireBrief i bist s) s := by
  unfold fireBrief
  try dsimp only
  iterate 30 all_goals (try first | with_reducible exact KeepMem.refl _ | assumption | split | with_reducible refine KeepMem.trans (fireGroup_wf ..) ?_ | (apply KeepMem.of_eq; simp; done) | with_reducible refine KeepMem.trans (KeepMem.record ..) ?_)

theorem cfgRefused_same (s : State) : SameMem (cfgRefused s) s := by simp [cfgRefused, SameMem]

@[simp] theorem cfgRefused_mem (s : State) : (cfgRefused s).mem = s.mem := cfgRefused_same s

theorem writeResp_same (i resp : Nat) (mode : Option Nat) (s : State) : SameMem (writeResp i resp mode s).2 s := by simp [writeResp, SameMem]

@[simp] theorem writeResp_mem (i resp : Nat) (mode : Option Nat) (s : State) : (writeResp i resp mode s).2.mem = s.mem := writeResp_same i resp mode s

theorem writeLock_same (v : Nat) (s : State) : SameMem (writeLock v s) s := by simp [writeLock, SameMem]

@[simp] theorem writeLock_mem (v : Nat) (s : State) : (writeLock v s).mem = s.mem := writeLock_same v s

theorem custodyResp_same (s : State) : SameMem (custodyResp s) s := rfl

@[simp] theorem custodyResp_mem (s : State) : (custodyResp s).mem = s.mem := custodyResp_same s

theorem bistOne_wf (out i : Nat) (s : State) : KeepMem (bistOne out i s) s := by
  unfold bistOne
  try dsimp only
  iterate 30 all_goals (try first | with_reducible exact KeepMem.refl _ | assumption | split | with_reducible refine KeepMem.trans (fireBrief_wf ..) ?_ | with_reducible refine KeepMem.trans (KeepMem.of_eq (setEvent_mem ..)) ?_ | with_reducible refine KeepMem.trans (KeepMem.of_eq (itemSet_mem ..)) ?_ | (apply KeepMem.of_eq; simp; done))

theorem bistRun_wf (out : Nat) (s : State) : KeepMem (bistRun out s) s := by
  unfold bistRun
  try dsimp only
  iterate 30 all_goals (try first | with_reducible exact KeepMem.refl _ | assumption | split | with_reducible refine KeepMem.trans (bistOne_wf ..) ?_ | with_reducible refine KeepMem.trans (KeepMem.of_eq (ledgerEvent_mem ..)) ?_ | with_reducible refine KeepMem.trans (KeepMem.foldl (fun _ _ => ?_) _ _) ?_ | (apply KeepMem.of_eq; simp; done) | with_reducible refine KeepMem.trans (KeepMem.record ..) ?_)

end Sys2Proof.Machine
end

