-- ==== Sys2Proof/Laws/KeptLedger.lean ====
section
/-! SUPPORT. What each operation of Machine/Ledger.lean keeps: the fuses, the life counters, the queue, and memory or its form. -/

namespace Sys2Proof.Machine

theorem pushLedger_core (w : LWord) (s : State) : SameAll (pushLedger w s) s := by
  unfold pushLedger
  extract_lets full s1 s2 s3
  have a1 : SameAll s1 s := by
    simp only [s1]
    split
    · with_reducible exact openHead_core ..
    · exact SameAll.refl _
  have a2 : SameAll s2 s1 := by
    simp only [s2]
    split
    · with_reducible exact putTwice_core ..
    · exact SameAll.refl _
  have hl : ∀ (t : State) l, SameAll { t with ledger := l } t := fun _ _ => ⟨rfl, rfl, rfl⟩
  have a3 : SameAll s3 s := (hl s2 _).trans (a2.trans a1)
  clear_value s3
  split
  · exact a3
  · split
    · with_reducible exact (renewSector_core ..).trans a3
    · exact a3

@[simp] theorem pushLedger_copies (w : LWord) (s : State) : (pushLedger w s).lc.copies = s.lc.copies := (pushLedger_core w s).1

@[simp] theorem pushLedger_life (w : LWord) (s : State) : (pushLedger w s).fv.life = s.fv.life := (pushLedger_core w s).2.1

@[simp] theorem pushLedger_pending (w : LWord) (s : State) : (pushLedger w s).pending = s.pending := (pushLedger_core w s).2.2

theorem nextWords_core {s : State} {r : List LWord × Bool × State} (h : nextWords s = some r) : SameAll r.2.2 s := by
  unfold nextWords at h
  repeat' split at h
  all_goals (first | contradiction | (cases h; exact ⟨rfl, rfl, rfl⟩))

theorem drainWords_core (x0 : Nat) (x1 : Nat) (s : State) : SameCp (drainWords x0 x1 s) s := by
  fun_induction drainWords x0 x1 s
  all_goals (first | (exact SameCp.refl _) | (simp [SameCp]; done) | skip)
  rename_i ih
  have h := nextWords_core (by assumption)
  refine SameCp.trans ih ?_
  refine SameCp.trans (u := _) ?_ ⟨h.1, h.2.2⟩
  simp +zetaDelta [SameCp]

@[simp] theorem drainWords_copies (x0 : Nat) (x1 : Nat) (s : State) : (drainWords x0 x1 s).lc.copies = s.lc.copies := (drainWords_core x0 x1 s).1

@[simp] theorem drainWords_pending (x0 : Nat) (x1 : Nat) (s : State) : (drainWords x0 x1 s).pending = s.pending := (drainWords_core x0 x1 s).2

theorem readCursor_core (s : State) : SameAll (readCursor s).2 s := ⟨rfl, rfl, rfl⟩

@[simp] theorem readCursor_copies (s : State) : (readCursor s).2.lc.copies = s.lc.copies := (readCursor_core s).1

@[simp] theorem readCursor_life (s : State) : (readCursor s).2.fv.life = s.fv.life := (readCursor_core s).2.1

@[simp] theorem readCursor_pending (s : State) : (readCursor s).2.pending = s.pending := (readCursor_core s).2.2

theorem readFeed_core (p : Nat) (s : State) : SameAll (readFeed p s).2 s := ⟨rfl, rfl, rfl⟩

@[simp] theorem readFeed_copies (p : Nat) (s : State) : (readFeed p s).2.lc.copies = s.lc.copies := (readFeed_core p s).1

@[simp] theorem readFeed_life (p : Nat) (s : State) : (readFeed p s).2.fv.life = s.fv.life := (readFeed_core p s).2.1

@[simp] theorem readFeed_pending (p : Nat) (s : State) : (readFeed p s).2.pending = s.pending := (readFeed_core p s).2.2

theorem pushLedger_same (w : LWord) (s : State) : SameMem (pushLedger w s) s := by
  unfold pushLedger
  extract_lets full s1 s2 s3
  have a1 : SameMem s1 s := by
    simp only [s1]
    split
    · with_reducible exact openHead_same ..
    · exact SameMem.refl _
  have a2 : SameMem s2 s1 := by
    simp only [s2]
    split
    · with_reducible exact putTwice_same ..
    · exact SameMem.refl _
  have hl : ∀ (t : State) l, SameMem { t with ledger := l } t := fun _ _ => (rfl : _ = _)
  have a3 : SameMem s3 s := (hl s2 _).trans (a2.trans a1)
  clear_value s3
  split
  · exact a3
  · split
    · with_reducible exact (renewSector_same ..).trans a3
    · exact a3

@[simp] theorem pushLedger_mem (w : LWord) (s : State) : (pushLedger w s).mem = s.mem := pushLedger_same w s

theorem nextWords_same {s : State} {r : List LWord × Bool × State} (h : nextWords s = some r) : SameMem r.2.2 s := by
  unfold nextWords at h
  repeat' split at h
  all_goals (first | contradiction | (cases h; exact (rfl : _ = _)))

theorem drainWords_same (x0 : Nat) (x1 : Nat) (s : State) : SameMem (drainWords x0 x1 s) s := by
  fun_induction drainWords x0 x1 s
  all_goals (first | (exact SameMem.refl _) | (simp [SameMem]; done) | skip)
  rename_i ih
  have h := nextWords_same (by assumption)
  refine SameMem.trans ih ?_
  refine SameMem.trans (u := _) ?_ h
  simp +zetaDelta [SameMem]

@[simp] theorem drainWords_mem (x0 : Nat) (x1 : Nat) (s : State) : (drainWords x0 x1 s).mem = s.mem := drainWords_same x0 x1 s

theorem readCursor_same (s : State) : SameMem (readCursor s).2 s := rfl

@[simp] theorem readCursor_mem (s : State) : (readCursor s).2.mem = s.mem := readCursor_same s

theorem readFeed_same (p : Nat) (s : State) : SameMem (readFeed p s).2 s := rfl

@[simp] theorem readFeed_mem (p : Nat) (s : State) : (readFeed p s).2.mem = s.mem := readFeed_same p s

end Sys2Proof.Machine
end

