-- ==== Sys2Proof/Laws/KeptPke.lean ====
section
/-! SUPPORT. What each operation of Machine/Pke.lean keeps: the fuses, the life counters, the queue, and memory or its form. -/

namespace Sys2Proof.Machine

theorem pkeRefuse_core (r : Req) (status : Nat) (s : State) : SameAll (pkeRefuse r status s) s := ⟨rfl, rfl, rfl⟩

@[simp] theorem pkeRefuse_copies (r : Req) (status : Nat) (s : State) : (pkeRefuse r status s).lc.copies = s.lc.copies := (pkeRefuse_core r status s).1

@[simp] theorem pkeRefuse_life (r : Req) (status : Nat) (s : State) : (pkeRefuse r status s).fv.life = s.fv.life := (pkeRefuse_core r status s).2.1

@[simp] theorem pkeRefuse_pending (r : Req) (status : Nat) (s : State) : (pkeRefuse r status s).pending = s.pending := (pkeRefuse_core r status s).2.2

theorem pkeRefuseHeld_core (r : Req) (status cinch code : Nat) (s : State) : SameAll (pkeRefuseHeld r status cinch code s) s := by
  unfold pkeRefuseHeld
  split <;> simp [SameAll]

@[simp] theorem pkeRefuseHeld_copies (r : Req) (status cinch code : Nat) (s : State) : (pkeRefuseHeld r status cinch code s).lc.copies = s.lc.copies := (pkeRefuseHeld_core r status cinch code s).1

@[simp] theorem pkeRefuseHeld_life (r : Req) (status cinch code : Nat) (s : State) : (pkeRefuseHeld r status cinch code s).fv.life = s.fv.life := (pkeRefuseHeld_core r status cinch code s).2.1

@[simp] theorem pkeRefuseHeld_pending (r : Req) (status cinch code : Nat) (s : State) : (pkeRefuseHeld r status cinch code s).pending = s.pending := (pkeRefuseHeld_core r status cinch code s).2.2

theorem pkeSubmit_core (r : Req) (b : List Byte) (key aux : Rein) (cinch staged : Nat) (s : State) : SameAll (pkeSubmit r b key aux cinch staged s).2.2 s := by simp [pkeSubmit, SameAll]

@[simp] theorem pkeSubmit_copies (r : Req) (b : List Byte) (key aux : Rein) (cinch staged : Nat) (s : State) : (pkeSubmit r b key aux cinch staged s).2.2.lc.copies = s.lc.copies := (pkeSubmit_core r b key aux cinch staged s).1

@[simp] theorem pkeSubmit_life (r : Req) (b : List Byte) (key aux : Rein) (cinch staged : Nat) (s : State) : (pkeSubmit r b key aux cinch staged s).2.2.fv.life = s.fv.life := (pkeSubmit_core r b key aux cinch staged s).2.1

@[simp] theorem pkeSubmit_pending (r : Req) (b : List Byte) (key aux : Rein) (cinch staged : Nat) (s : State) : (pkeSubmit r b key aux cinch staged s).2.2.pending = s.pending := (pkeSubmit_core r b key aux cinch staged s).2.2

theorem putPJob_core (j : PJob) (s : State) : SameAll (putPJob j s) s := ⟨rfl, rfl, rfl⟩

@[simp] theorem putPJob_copies (j : PJob) (s : State) : (putPJob j s).lc.copies = s.lc.copies := (putPJob_core j s).1

@[simp] theorem putPJob_life (j : PJob) (s : State) : (putPJob j s).fv.life = s.fv.life := (putPJob_core j s).2.1

@[simp] theorem putPJob_pending (j : PJob) (s : State) : (putPJob j s).pending = s.pending := (putPJob_core j s).2.2

theorem startJob_core (j : PJob) (e : Nat) (s : State) : SameAll (startJob j e s) s := ⟨rfl, rfl, rfl⟩

@[simp] theorem startJob_copies (j : PJob) (e : Nat) (s : State) : (startJob j e s).lc.copies = s.lc.copies := (startJob_core j e s).1

@[simp] theorem startJob_life (j : PJob) (e : Nat) (s : State) : (startJob j e s).fv.life = s.fv.life := (startJob_core j e s).2.1

@[simp] theorem startJob_pending (j : PJob) (e : Nat) (s : State) : (startJob j e s).pending = s.pending := (startJob_core j e s).2.2

theorem startJobs_core (p : Nat) (x0 : List PJob) (s : State) : SameAll (startJobs p x0 s) s := by
  fun_induction startJobs p x0 s
  all_goals simp_all [SameAll]

@[simp] theorem startJobs_copies (p : Nat) (x0 : List PJob) (s : State) : (startJobs p x0 s).lc.copies = s.lc.copies := (startJobs_core p x0 s).1

@[simp] theorem startJobs_life (p : Nat) (x0 : List PJob) (s : State) : (startJobs p x0 s).fv.life = s.fv.life := (startJobs_core p x0 s).2.1

@[simp] theorem startJobs_pending (p : Nat) (x0 : List PJob) (s : State) : (startJobs p x0 s).pending = s.pending := (startJobs_core p x0 s).2.2

theorem loadBank_core (j : PJob) (bs : List Byte) (s : State) : SameAll (loadBank j bs s) s := ⟨rfl, rfl, rfl⟩

@[simp] theorem loadBank_copies (j : PJob) (bs : List Byte) (s : State) : (loadBank j bs s).lc.copies = s.lc.copies := (loadBank_core j bs s).1

@[simp] theorem loadBank_life (j : PJob) (bs : List Byte) (s : State) : (loadBank j bs s).fv.life = s.fv.life := (loadBank_core j bs s).2.1

@[simp] theorem loadBank_pending (j : PJob) (bs : List Byte) (s : State) : (loadBank j bs s).pending = s.pending := (loadBank_core j bs s).2.2

theorem wipeBank_core (j : PJob) (s : State) : SameAll (wipeBank j s) s := ⟨rfl, rfl, rfl⟩

@[simp] theorem wipeBank_copies (j : PJob) (s : State) : (wipeBank j s).lc.copies = s.lc.copies := (wipeBank_core j s).1

@[simp] theorem wipeBank_life (j : PJob) (s : State) : (wipeBank j s).fv.life = s.fv.life := (wipeBank_core j s).2.1

@[simp] theorem wipeBank_pending (j : PJob) (s : State) : (wipeBank j s).pending = s.pending := (wipeBank_core j s).2.2

theorem substitute_core (j : PJob) (s : State) : SameAll (substitute j s) s := by simp [substitute, SameAll]

@[simp] theorem substitute_copies (j : PJob) (s : State) : (substitute j s).lc.copies = s.lc.copies := (substitute_core j s).1

@[simp] theorem substitute_life (j : PJob) (s : State) : (substitute j s).fv.life = s.fv.life := (substitute_core j s).2.1

@[simp] theorem substitute_pending (j : PJob) (s : State) : (substitute j s).pending = s.pending := (substitute_core j s).2.2

theorem pkeStart_core (j : PJob) (s : State) : SameAll (pkeStart j s).2 s := by
  unfold pkeStart
  try dsimp only
  repeat' split
  all_goals simp [SameAll]

@[simp] theorem pkeStart_copies (j : PJob) (s : State) : (pkeStart j s).2.lc.copies = s.lc.copies := (pkeStart_core j s).1

@[simp] theorem pkeStart_life (j : PJob) (s : State) : (pkeStart j s).2.fv.life = s.fv.life := (pkeStart_core j s).2.1

@[simp] theorem pkeStart_pending (j : PJob) (s : State) : (pkeStart j s).2.pending = s.pending := (pkeStart_core j s).2.2

theorem pkeEnd_core (j : PJob) (status outlen due : Nat) (s : State) : SameAll (pkeEnd j status outlen due s) s := by
  unfold pkeEnd
  try dsimp only
  repeat' split
  all_goals simp [SameAll]

@[simp] theorem pkeEnd_copies (j : PJob) (status outlen due : Nat) (s : State) : (pkeEnd j status outlen due s).lc.copies = s.lc.copies := (pkeEnd_core j status outlen due s).1

@[simp] theorem pkeEnd_life (j : PJob) (status outlen due : Nat) (s : State) : (pkeEnd j status outlen due s).fv.life = s.fv.life := (pkeEnd_core j status outlen due s).2.1

@[simp] theorem pkeEnd_pending (j : PJob) (status outlen due : Nat) (s : State) : (pkeEnd j status outlen due s).pending = s.pending := (pkeEnd_core j status outlen due s).2.2

theorem pkeZeros_core (j : PJob) (s : State) : SameAll (pkeZeros j s) s := by simp [pkeZeros, SameAll]

@[simp] theorem pkeZeros_copies (j : PJob) (s : State) : (pkeZeros j s).lc.copies = s.lc.copies := (pkeZeros_core j s).1

@[simp] theorem pkeZeros_life (j : PJob) (s : State) : (pkeZeros j s).fv.life = s.fv.life := (pkeZeros_core j s).2.1

@[simp] theorem pkeZeros_pending (j : PJob) (s : State) : (pkeZeros j s).pending = s.pending := (pkeZeros_core j s).2.2

theorem pkeFinal_core (j : PJob) (s : State) : SameAll (pkeFinal j s) s := by
  unfold pkeFinal
  try dsimp only
  repeat' split
  all_goals simp [SameAll]

@[simp] theorem pkeFinal_copies (j : PJob) (s : State) : (pkeFinal j s).lc.copies = s.lc.copies := (pkeFinal_core j s).1

@[simp] theorem pkeFinal_life (j : PJob) (s : State) : (pkeFinal j s).fv.life = s.fv.life := (pkeFinal_core j s).2.1

@[simp] theorem pkeFinal_pending (j : PJob) (s : State) : (pkeFinal j s).pending = s.pending := (pkeFinal_core j s).2.2

theorem pkeSlice_core (j : PJob) (s : State) : SameAll (pkeSlice j s) s := by simp [pkeSlice, SameAll]

@[simp] theorem pkeSlice_copies (j : PJob) (s : State) : (pkeSlice j s).lc.copies = s.lc.copies := (pkeSlice_core j s).1

@[simp] theorem pkeSlice_life (j : PJob) (s : State) : (pkeSlice j s).fv.life = s.fv.life := (pkeSlice_core j s).2.1

@[simp] theorem pkeSlice_pending (j : PJob) (s : State) : (pkeSlice j s).pending = s.pending := (pkeSlice_core j s).2.2

theorem noteEngine_core (j : PJob) (reason : Nat) (s : State) : SameAll (noteEngine j reason s) s := by simp [noteEngine, SameAll]

@[simp] theorem noteEngine_copies (j : PJob) (reason : Nat) (s : State) : (noteEngine j reason s).lc.copies = s.lc.copies := (noteEngine_core j reason s).1

@[simp] theorem noteEngine_life (j : PJob) (reason : Nat) (s : State) : (noteEngine j reason s).fv.life = s.fv.life := (noteEngine_core j reason s).2.1

@[simp] theorem noteEngine_pending (j : PJob) (reason : Nat) (s : State) : (noteEngine j reason s).pending = s.pending := (noteEngine_core j reason s).2.2

theorem pkeStep_core (fs : List HwFault) (s : State) (no : Nat) : SameAll (pkeStep fs s no) s := by
  unfold pkeStep
  split <;> simp [SameAll]

@[simp] theorem pkeStep_copies (fs : List HwFault) (s : State) (no : Nat) : (pkeStep fs s no).lc.copies = s.lc.copies := (pkeStep_core fs s no).1

@[simp] theorem pkeStep_life (fs : List HwFault) (s : State) (no : Nat) : (pkeStep fs s no).fv.life = s.fv.life := (pkeStep_core fs s no).2.1

@[simp] theorem pkeStep_pending (fs : List HwFault) (s : State) (no : Nat) : (pkeStep fs s no).pending = s.pending := (pkeStep_core fs s no).2.2

theorem pkeSlicesRun_core (fs : List HwFault) (s : State) : SameAll (pkeSlicesRun fs s) s := by simp [pkeSlicesRun, SameAll]

@[simp] theorem pkeSlicesRun_copies (fs : List HwFault) (s : State) : (pkeSlicesRun fs s).lc.copies = s.lc.copies := (pkeSlicesRun_core fs s).1

@[simp] theorem pkeSlicesRun_life (fs : List HwFault) (s : State) : (pkeSlicesRun fs s).fv.life = s.fv.life := (pkeSlicesRun_core fs s).2.1

@[simp] theorem pkeSlicesRun_pending (fs : List HwFault) (s : State) : (pkeSlicesRun fs s).pending = s.pending := (pkeSlicesRun_core fs s).2.2

theorem pkeAbort_core (j : PJob) (status : Nat) (s : State) : SameAll (pkeAbort j status s) s := by simp [pkeAbort, SameAll]

@[simp] theorem pkeAbort_copies (j : PJob) (status : Nat) (s : State) : (pkeAbort j status s).lc.copies = s.lc.copies := (pkeAbort_core j status s).1

@[simp] theorem pkeAbort_life (j : PJob) (status : Nat) (s : State) : (pkeAbort j status s).fv.life = s.fv.life := (pkeAbort_core j status s).2.1

@[simp] theorem pkeAbort_pending (j : PJob) (status : Nat) (s : State) : (pkeAbort j status s).pending = s.pending := (pkeAbort_core j status s).2.2

theorem cutPke_core (test : PJob → Bool) (status : Nat) (s : State) : SameAll (cutPke test status s) s := ⟨rfl, rfl, rfl⟩

@[simp] theorem cutPke_copies (test : PJob → Bool) (status : Nat) (s : State) : (cutPke test status s).lc.copies = s.lc.copies := (cutPke_core test status s).1

@[simp] theorem cutPke_life (test : PJob → Bool) (status : Nat) (s : State) : (cutPke test status s).fv.life = s.fv.life := (cutPke_core test status s).2.1

@[simp] theorem cutPke_pending (test : PJob → Bool) (status : Nat) (s : State) : (cutPke test status s).pending = s.pending := (cutPke_core test status s).2.2

theorem pkeCuts_core (s : State) : SameAll (pkeCuts s) s := by simp [pkeCuts, SameAll]

@[simp] theorem pkeCuts_copies (s : State) : (pkeCuts s).lc.copies = s.lc.copies := (pkeCuts_core s).1

@[simp] theorem pkeCuts_life (s : State) : (pkeCuts s).fv.life = s.fv.life := (pkeCuts_core s).2.1

@[simp] theorem pkeCuts_pending (s : State) : (pkeCuts s).pending = s.pending := (pkeCuts_core s).2.2

theorem pkeFences_core (s : State) : SameAll (pkeFences s) s := by simp [pkeFences, SameAll]

@[simp] theorem pkeFences_copies (s : State) : (pkeFences s).lc.copies = s.lc.copies := (pkeFences_core s).1

@[simp] theorem pkeFences_life (s : State) : (pkeFences s).fv.life = s.fv.life := (pkeFences_core s).2.1

@[simp] theorem pkeFences_pending (s : State) : (pkeFences s).pending = s.pending := (pkeFences_core s).2.2

theorem pkeLayout_core (s : State) : SameAll (pkeLayout s) s := by
  unfold pkeLayout
  try dsimp only
  refine SameAll.foldl (fun st x => ?_) _ _
  repeat' split
  all_goals simp [SameAll]

@[simp] theorem pkeLayout_copies (s : State) : (pkeLayout s).lc.copies = s.lc.copies := (pkeLayout_core s).1

@[simp] theorem pkeLayout_life (s : State) : (pkeLayout s).fv.life = s.fv.life := (pkeLayout_core s).2.1

@[simp] theorem pkeLayout_pending (s : State) : (pkeLayout s).pending = s.pending := (pkeLayout_core s).2.2

theorem readDiag_core (warden : Bool) (s : State) : SameAll (readDiag warden s).2 s := by simp [readDiag, SameAll]

@[simp] theorem readDiag_copies (warden : Bool) (s : State) : (readDiag warden s).2.lc.copies = s.lc.copies := (readDiag_core warden s).1

@[simp] theorem readDiag_life (warden : Bool) (s : State) : (readDiag warden s).2.fv.life = s.fv.life := (readDiag_core warden s).2.1

@[simp] theorem readDiag_pending (warden : Bool) (s : State) : (readDiag warden s).2.pending = s.pending := (readDiag_core warden s).2.2

theorem pkeRefuse_same (r : Req) (status : Nat) (s : State) : SameMem (pkeRefuse r status s) s := rfl

@[simp] theorem pkeRefuse_mem (r : Req) (status : Nat) (s : State) : (pkeRefuse r status s).mem = s.mem := pkeRefuse_same r status s

theorem pkeRefuseHeld_same (r : Req) (status cinch code : Nat) (s : State) : SameMem (pkeRefuseHeld r status cinch code s) s := by
  unfold pkeRefuseHeld
  split <;> simp [SameMem]

@[simp] theorem pkeRefuseHeld_mem (r : Req) (status cinch code : Nat) (s : State) : (pkeRefuseHeld r status cinch code s).mem = s.mem := pkeRefuseHeld_same r status cinch code s

theorem pkeSubmit_same (r : Req) (b : List Byte) (key aux : Rein) (cinch staged : Nat) (s : State) : SameMem (pkeSubmit r b key aux cinch staged s).2.2 s := by simp [pkeSubmit, SameMem]

@[simp] theorem pkeSubmit_mem (r : Req) (b : List Byte) (key aux : Rein) (cinch staged : Nat) (s : State) : (pkeSubmit r b key aux cinch staged s).2.2.mem = s.mem := pkeSubmit_same r b key aux cinch staged s

theorem putPJob_same (j : PJob) (s : State) : SameMem (putPJob j s) s := rfl

@[simp] theorem putPJob_mem (j : PJob) (s : State) : (putPJob j s).mem = s.mem := putPJob_same j s

theorem startJob_same (j : PJob) (e : Nat) (s : State) : SameMem (startJob j e s) s := rfl

@[simp] theorem startJob_mem (j : PJob) (e : Nat) (s : State) : (startJob j e s).mem = s.mem := startJob_same j e s

theorem startJobs_same (p : Nat) (x0 : List PJob) (s : State) : SameMem (startJobs p x0 s) s := by
  fun_induction startJobs p x0 s
  all_goals simp_all [SameMem]

@[simp] theorem startJobs_mem (p : Nat) (x0 : List PJob) (s : State) : (startJobs p x0 s).mem = s.mem := startJobs_same p x0 s

theorem loadBank_same (j : PJob) (bs : List Byte) (s : State) : SameMem (loadBank j bs s) s := rfl

@[simp] theorem loadBank_mem (j : PJob) (bs : List Byte) (s : State) : (loadBank j bs s).mem = s.mem := loadBank_same j bs s

theorem wipeBank_same (j : PJob) (s : State) : SameMem (wipeBank j s) s := rfl

@[simp] theorem wipeBank_mem (j : PJob) (s : State) : (wipeBank j s).mem = s.mem := wipeBank_same j s

theorem substitute_same (j : PJob) (s : State) : SameMem (substitute j s) s := by simp [substitute, SameMem]

@[simp] theorem substitute_mem (j : PJob) (s : State) : (substitute j s).mem = s.mem := substitute_same j s

theorem pkeStart_same (j : PJob) (s : State) : SameMem (pkeStart j s).2 s := by
  unfold pkeStart
  try dsimp only
  repeat' split
  all_goals simp [SameMem]

@[simp] theorem pkeStart_mem (j : PJob) (s : State) : (pkeStart j s).2.mem = s.mem := pkeStart_same j s

theorem pkeEnd_same (j : PJob) (status outlen due : Nat) (s : State) : SameMem (pkeEnd j status outlen due s) s := by
  unfold pkeEnd
  try dsimp only
  repeat' split
  all_goals simp [SameMem]

@[simp] theorem pkeEnd_mem (j : PJob) (status outlen due : Nat) (s : State) : (pkeEnd j status outlen due s).mem = s.mem := pkeEnd_same j status outlen due s

theorem pkeZeros_wf (j : PJob) (s : State) : KeepMem (pkeZeros j s) s := by
  unfold pkeZeros
  try dsimp only
  iterate 8 all_goals (try first | with_reducible exact KeepMem.refl _ | assumption | split | with_reducible refine KeepMem.trans (jobWrite_wf ..) ?_)

theorem pkeFinal_wf (j : PJob) (s : State) : KeepMem (pkeFinal j s) s := by
  unfold pkeFinal
  try dsimp only
  iterate 30 all_goals (try first | with_reducible exact KeepMem.refl _ | assumption | split | with_reducible refine KeepMem.trans (jobWrite_wf ..) ?_ | with_reducible refine KeepMem.trans (pkeZeros_wf ..) ?_ | with_reducible refine KeepMem.trans (KeepMem.of_eq (setEvent_mem ..)) ?_ | with_reducible refine KeepMem.trans (KeepMem.of_eq (fillTack_mem ..)) ?_ | with_reducible refine KeepMem.trans (KeepMem.of_eq (pkeEnd_mem ..)) ?_)

theorem pkeSlice_wf (j : PJob) (s : State) : KeepMem (pkeSlice j s) s := by
  unfold pkeSlice
  try dsimp only
  iterate 8 all_goals (try first | with_reducible exact KeepMem.refl _ | assumption | split | with_reducible refine KeepMem.trans (pkeFinal_wf ..) ?_ | with_reducible refine KeepMem.trans (KeepMem.of_eq (putPJob_mem ..)) ?_ | with_reducible refine KeepMem.trans (KeepMem.of_eq (pkeStart_mem ..)) ?_)

theorem noteEngine_same (j : PJob) (reason : Nat) (s : State) : SameMem (noteEngine j reason s) s := by simp [noteEngine, SameMem]

@[simp] theorem noteEngine_mem (j : PJob) (reason : Nat) (s : State) : (noteEngine j reason s).mem = s.mem := noteEngine_same j reason s

theorem pkeStep_wf (fs : List HwFault) (s : State) (no : Nat) : KeepMem (pkeStep fs s no) s := by
  unfold pkeStep
  try dsimp only
  iterate 30 all_goals (try first | with_reducible exact KeepMem.refl _ | assumption | split | with_reducible refine KeepMem.trans (pkeSlice_wf ..) ?_ | with_reducible refine KeepMem.trans (KeepMem.of_eq (eccFound_mem ..)) ?_ | with_reducible refine KeepMem.trans (KeepMem.of_eq (pkeStart_mem ..)) ?_ | with_reducible refine KeepMem.trans (KeepMem.of_eq (pkeEnd_mem ..)) ?_ | with_reducible refine KeepMem.trans (KeepMem.of_eq (noteEngine_mem ..)) ?_)

theorem pkeSlicesRun_wf (fs : List HwFault) (s : State) : KeepMem (pkeSlicesRun fs s) s := by
  unfold pkeSlicesRun
  try dsimp only
  iterate 30 all_goals (try first | with_reducible exact KeepMem.refl _ | assumption | split | with_reducible refine KeepMem.trans (pkeStep_wf ..) ?_ | with_reducible refine KeepMem.trans (KeepMem.of_eq (startJobs_mem ..)) ?_ | with_reducible refine KeepMem.trans (KeepMem.foldl (fun _ _ => ?_) _ _) ?_ | (apply KeepMem.of_eq; simp; done) | with_reducible refine KeepMem.trans (KeepMem.record ..) ?_)

theorem pkeAbort_same (j : PJob) (status : Nat) (s : State) : SameMem (pkeAbort j status s) s := by simp [pkeAbort, SameMem]

@[simp] theorem pkeAbort_mem (j : PJob) (status : Nat) (s : State) : (pkeAbort j status s).mem = s.mem := pkeAbort_same j status s

theorem cutPke_same (test : PJob → Bool) (status : Nat) (s : State) : SameMem (cutPke test status s) s := rfl

@[simp] theorem cutPke_mem (test : PJob → Bool) (status : Nat) (s : State) : (cutPke test status s).mem = s.mem := cutPke_same test status s

theorem pkeCuts_same (s : State) : SameMem (pkeCuts s) s := by simp [pkeCuts, SameMem]

@[simp] theorem pkeCuts_mem (s : State) : (pkeCuts s).mem = s.mem := pkeCuts_same s

theorem pkeFences_same (s : State) : SameMem (pkeFences s) s := by simp [pkeFences, SameMem]

@[simp] theorem pkeFences_mem (s : State) : (pkeFences s).mem = s.mem := pkeFences_same s

theorem pkeLayout_same (s : State) : SameMem (pkeLayout s) s := by
  unfold pkeLayout
  try dsimp only
  refine SameMem.foldl (fun st x => ?_) _ _
  repeat' split
  all_goals simp [SameMem]

@[simp] theorem pkeLayout_mem (s : State) : (pkeLayout s).mem = s.mem := pkeLayout_same s

theorem readDiag_same (warden : Bool) (s : State) : SameMem (readDiag warden s).2 s := by simp [readDiag, SameMem]

@[simp] theorem readDiag_mem (warden : Bool) (s : State) : (readDiag warden s).2.mem = s.mem := readDiag_same warden s

end Sys2Proof.Machine
end

