-- ==== Sys2Proof/Laws/KeptLifeCycle.lean ====
section
/-! SUPPORT. What each operation of Machine/LifeCycle.lean keeps: the fuses, the life counters, the queue, and memory or its form. -/

namespace Sys2Proof.Machine

theorem openSession_core (d : DbgSession) (s : State) : SameAll (openSession d s) s := by simp [openSession, SameAll]

@[simp] theorem openSession_copies (d : DbgSession) (s : State) : (openSession d s).lc.copies = s.lc.copies := (openSession_core d s).1

@[simp] theorem openSession_life (d : DbgSession) (s : State) : (openSession d s).fv.life = s.fv.life := (openSession_core d s).2.1

@[simp] theorem openSession_pending (d : DbgSession) (s : State) : (openSession d s).pending = s.pending := (openSession_core d s).2.2

theorem endSession_core (cause : Nat) (s : State) : SameAll (endSession cause s) s := by
  unfold endSession
  split <;> simp [SameAll]

@[simp] theorem endSession_copies (cause : Nat) (s : State) : (endSession cause s).lc.copies = s.lc.copies := (endSession_core cause s).1

@[simp] theorem endSession_life (cause : Nat) (s : State) : (endSession cause s).fv.life = s.fv.life := (endSession_core cause s).2.1

@[simp] theorem endSession_pending (cause : Nat) (s : State) : (endSession cause s).pending = s.pending := (endSession_core cause s).2.2

theorem dbgDenied_core (wr : Bool) (code a : Nat) (s : State) : SameAll (dbgDenied wr code a s) s := by simp [dbgDenied, SameAll]

@[simp] theorem dbgDenied_copies (wr : Bool) (code a : Nat) (s : State) : (dbgDenied wr code a s).lc.copies = s.lc.copies := (dbgDenied_core wr code a s).1

@[simp] theorem dbgDenied_life (wr : Bool) (code a : Nat) (s : State) : (dbgDenied wr code a s).fv.life = s.fv.life := (dbgDenied_core wr code a s).2.1

@[simp] theorem dbgDenied_pending (wr : Bool) (code a : Nat) (s : State) : (dbgDenied wr code a s).pending = s.pending := (dbgDenied_core wr code a s).2.2

theorem readCopies_core (s : State) : SameAll (readCopies s) s := ⟨rfl, rfl, rfl⟩

@[simp] theorem readCopies_copies (s : State) : (readCopies s).lc.copies = s.lc.copies := (readCopies_core s).1

@[simp] theorem readCopies_life (s : State) : (readCopies s).fv.life = s.fv.life := (readCopies_core s).2.1

@[simp] theorem readCopies_pending (s : State) : (readCopies s).pending = s.pending := (readCopies_core s).2.2

theorem transition_core (target : Nat) (jtag : Bool) (s : State) : SameAll (transition target jtag s).2 s := by simp [transition, SameAll]

@[simp] theorem transition_copies (target : Nat) (jtag : Bool) (s : State) : (transition target jtag s).2.lc.copies = s.lc.copies := (transition_core target jtag s).1

@[simp] theorem transition_life (target : Nat) (jtag : Bool) (s : State) : (transition target jtag s).2.fv.life = s.fv.life := (transition_core target jtag s).2.1

@[simp] theorem transition_pending (target : Nat) (jtag : Bool) (s : State) : (transition target jtag s).2.pending = s.pending := (transition_core target jtag s).2.2

theorem mailReply_core (bs : List Byte) (s : State) : SameAll (mailReply bs s) s := ⟨rfl, rfl, rfl⟩

@[simp] theorem mailReply_copies (bs : List Byte) (s : State) : (mailReply bs s).lc.copies = s.lc.copies := (mailReply_core bs s).1

@[simp] theorem mailReply_life (bs : List Byte) (s : State) : (mailReply bs s).fv.life = s.fv.life := (mailReply_core bs s).2.1

@[simp] theorem mailReply_pending (bs : List Byte) (s : State) : (mailReply bs s).pending = s.pending := (mailReply_core bs s).2.2

theorem mailTransition_core (target : Nat) (s : State) : SameAll (mailTransition target s) s := by simp [mailTransition, SameAll]

@[simp] theorem mailTransition_copies (target : Nat) (s : State) : (mailTransition target s).lc.copies = s.lc.copies := (mailTransition_core target s).1

@[simp] theorem mailTransition_life (target : Nat) (s : State) : (mailTransition target s).fv.life = s.fv.life := (mailTransition_core target s).2.1

@[simp] theorem mailTransition_pending (target : Nat) (s : State) : (mailTransition target s).pending = s.pending := (mailTransition_core target s).2.2

theorem programCopies_core (target : Nat) (s : State) : SameLp (programCopies target s) s := ⟨rfl, rfl⟩

@[simp] theorem programCopies_life (target : Nat) (s : State) : (programCopies target s).fv.life = s.fv.life := (programCopies_core target s).1

@[simp] theorem programCopies_pending (target : Nat) (s : State) : (programCopies target s).pending = s.pending := (programCopies_core target s).2

theorem cutTransition_core (s : State) : SameLp (cutTransition s) s := by
  unfold cutTransition
  split <;> simp [SameLp]

@[simp] theorem cutTransition_life (s : State) : (cutTransition s).fv.life = s.fv.life := (cutTransition_core s).1

@[simp] theorem cutTransition_pending (s : State) : (cutTransition s).pending = s.pending := (cutTransition_core s).2

theorem lifeBoot_core (s0 : State) : SameLp (lifeBoot s0) s0 := by simp [lifeBoot, SameLp]

@[simp] theorem lifeBoot_life (s0 : State) : (lifeBoot s0).fv.life = s0.fv.life := (lifeBoot_core s0).1

@[simp] theorem lifeBoot_pending (s0 : State) : (lifeBoot s0).pending = s0.pending := (lifeBoot_core s0).2

theorem tapSelect_core (code : Nat) (s : State) : SameAll (tapSelect code s) s := ⟨rfl, rfl, rfl⟩

@[simp] theorem tapSelect_copies (code : Nat) (s : State) : (tapSelect code s).lc.copies = s.lc.copies := (tapSelect_core code s).1

@[simp] theorem tapSelect_life (code : Nat) (s : State) : (tapSelect code s).fv.life = s.fv.life := (tapSelect_core code s).2.1

@[simp] theorem tapSelect_pending (code : Nat) (s : State) : (tapSelect code s).pending = s.pending := (tapSelect_core code s).2.2

theorem tapBscan_core (code : Nat) (s : State) : SameAll (tapBscan code s) s := by simp [tapBscan, SameAll]

@[simp] theorem tapBscan_copies (code : Nat) (s : State) : (tapBscan code s).lc.copies = s.lc.copies := (tapBscan_core code s).1

@[simp] theorem tapBscan_life (code : Nat) (s : State) : (tapBscan code s).fv.life = s.fv.life := (tapBscan_core code s).2.1

@[simp] theorem tapBscan_pending (code : Nat) (s : State) : (tapBscan code s).pending = s.pending := (tapBscan_core code s).2.2

theorem newNonce_core (s : State) : SameAll (newNonce s) s := ⟨rfl, rfl, rfl⟩

@[simp] theorem newNonce_copies (s : State) : (newNonce s).lc.copies = s.lc.copies := (newNonce_core s).1

@[simp] theorem newNonce_life (s : State) : (newNonce s).fv.life = s.fv.life := (newNonce_core s).2.1

@[simp] theorem newNonce_pending (s : State) : (newNonce s).pending = s.pending := (newNonce_core s).2.2

theorem presentCert_core (b : List Byte) (jtag : Bool) (s : State) : SameAll (presentCert b jtag s) s := by simp [presentCert, SameAll]

@[simp] theorem presentCert_copies (b : List Byte) (jtag : Bool) (s : State) : (presentCert b jtag s).lc.copies = s.lc.copies := (presentCert_core b jtag s).1

@[simp] theorem presentCert_life (b : List Byte) (jtag : Bool) (s : State) : (presentCert b jtag s).fv.life = s.fv.life := (presentCert_core b jtag s).2.1

@[simp] theorem presentCert_pending (b : List Byte) (jtag : Bool) (s : State) : (presentCert b jtag s).pending = s.pending := (presentCert_core b jtag s).2.2

theorem enrolDebugKey_core (hash : List Byte) (s : State) : SameAll (enrolDebugKey hash s).2 s := by simp [enrolDebugKey, SameAll]

@[simp] theorem enrolDebugKey_copies (hash : List Byte) (s : State) : (enrolDebugKey hash s).2.lc.copies = s.lc.copies := (enrolDebugKey_core hash s).1

@[simp] theorem enrolDebugKey_life (hash : List Byte) (s : State) : (enrolDebugKey hash s).2.fv.life = s.fv.life := (enrolDebugKey_core hash s).2.1

@[simp] theorem enrolDebugKey_pending (hash : List Byte) (s : State) : (enrolDebugKey hash s).2.pending = s.pending := (enrolDebugKey_core hash s).2.2

theorem openSession_same (d : DbgSession) (s : State) : SameMem (openSession d s) s := by simp [openSession, SameMem]

@[simp] theorem openSession_mem (d : DbgSession) (s : State) : (openSession d s).mem = s.mem := openSession_same d s

theorem endSession_same (cause : Nat) (s : State) : SameMem (endSession cause s) s := by
  unfold endSession
  split <;> simp [SameMem]

@[simp] theorem endSession_mem (cause : Nat) (s : State) : (endSession cause s).mem = s.mem := endSession_same cause s

theorem dbgDenied_same (wr : Bool) (code a : Nat) (s : State) : SameMem (dbgDenied wr code a s) s := by simp [dbgDenied, SameMem]

@[simp] theorem dbgDenied_mem (wr : Bool) (code a : Nat) (s : State) : (dbgDenied wr code a s).mem = s.mem := dbgDenied_same wr code a s

theorem readCopies_same (s : State) : SameMem (readCopies s) s := rfl

@[simp] theorem readCopies_mem (s : State) : (readCopies s).mem = s.mem := readCopies_same s

theorem transition_wf (target : Nat) (jtag : Bool) (s : State) : KeepMem (transition target jtag s).2 s := by
  unfold transition
  try dsimp only
  iterate 30 all_goals (try first | with_reducible exact KeepMem.refl _ | assumption | split | with_reducible refine KeepMem.trans (respond_wf ..) ?_ | with_reducible refine KeepMem.trans (KeepMem.of_eq (drawBytes_mem ..)) ?_ | with_reducible refine KeepMem.trans (KeepMem.of_eq (setEvent_mem ..)) ?_ | with_reducible refine KeepMem.trans (KeepMem.of_eq (reservePut_mem ..)) ?_ | with_reducible refine KeepMem.trans (KeepMem.of_eq (endSession_mem ..)) ?_ | (apply KeepMem.of_eq; simp; done) | with_reducible refine KeepMem.trans (KeepMem.record ..) ?_)

theorem mailReply_same (bs : List Byte) (s : State) : SameMem (mailReply bs s) s := rfl

@[simp] theorem mailReply_mem (bs : List Byte) (s : State) : (mailReply bs s).mem = s.mem := mailReply_same bs s

theorem mailTransition_wf (target : Nat) (s : State) : KeepMem (mailTransition target s) s := by
  unfold mailTransition
  try dsimp only
  iterate 8 all_goals (try first | with_reducible exact KeepMem.refl _ | assumption | split | with_reducible refine KeepMem.trans (transition_wf ..) ?_ | with_reducible refine KeepMem.trans (KeepMem.of_eq (mailReply_mem ..)) ?_)

theorem programCopies_same (target : Nat) (s : State) : SameMem (programCopies target s) s := rfl

@[simp] theorem programCopies_mem (target : Nat) (s : State) : (programCopies target s).mem = s.mem := programCopies_same target s

theorem cutTransition_same (s : State) : SameMem (cutTransition s) s := by
  unfold cutTransition
  split <;> simp [SameMem]

@[simp] theorem cutTransition_mem (s : State) : (cutTransition s).mem = s.mem := cutTransition_same s

theorem lifeBoot_wf (s0 : State) : KeepMem (lifeBoot s0) s0 := by
  unfold lifeBoot
  try dsimp only
  iterate 8 all_goals (try first | with_reducible exact KeepMem.refl _ | assumption | split | with_reducible refine KeepMem.trans (KeepMem.of_eq (readCopies_mem ..)) ?_)

theorem tapSelect_same (code : Nat) (s : State) : SameMem (tapSelect code s) s := rfl

@[simp] theorem tapSelect_mem (code : Nat) (s : State) : (tapSelect code s).mem = s.mem := tapSelect_same code s

theorem tapBscan_wf (code : Nat) (s : State) : KeepMem (tapBscan code s) s := by
  unfold tapBscan
  try dsimp only
  iterate 8 all_goals (try first | with_reducible exact KeepMem.refl _ | assumption | split | with_reducible refine KeepMem.trans (respond_wf ..) ?_ | with_reducible refine KeepMem.trans (KeepMem.of_eq (setEvent_mem ..)) ?_ | with_reducible refine KeepMem.trans (KeepMem.of_eq (ledgerEvent_mem ..)) ?_ | with_reducible refine KeepMem.trans (KeepMem.of_eq (tapSelect_mem ..)) ?_)

theorem newNonce_same (s : State) : SameMem (newNonce s) s := rfl

@[simp] theorem newNonce_mem (s : State) : (newNonce s).mem = s.mem := newNonce_same s

theorem presentCert_same (b : List Byte) (jtag : Bool) (s : State) : SameMem (presentCert b jtag s) s := by simp [presentCert, SameMem]

@[simp] theorem presentCert_mem (b : List Byte) (jtag : Bool) (s : State) : (presentCert b jtag s).mem = s.mem := presentCert_same b jtag s

theorem enrolDebugKey_same (hash : List Byte) (s : State) : SameMem (enrolDebugKey hash s).2 s := by simp [enrolDebugKey, SameMem]

@[simp] theorem enrolDebugKey_mem (hash : List Byte) (s : State) : (enrolDebugKey hash s).2.mem = s.mem := enrolDebugKey_same hash s

end Sys2Proof.Machine
end

