-- ==== Sys2Proof/Laws/KeptCinchExt.lean ====
section
/-! SUPPORT. What each operation of Machine/CinchExt.lean keeps: the fuses, the life counters, the queue, and memory or its form. -/

namespace Sys2Proof.Machine

theorem cardCounter_core (a : Action) (kind : Nat) (f : List Byte) (s : State) : SameAll (cardCounter a kind f s).2 s := by simp [cardCounter, SameAll]

@[simp] theorem cardCounter_copies (a : Action) (kind : Nat) (f : List Byte) (s : State) : (cardCounter a kind f s).2.lc.copies = s.lc.copies := (cardCounter_core a kind f s).1

@[simp] theorem cardCounter_life (a : Action) (kind : Nat) (f : List Byte) (s : State) : (cardCounter a kind f s).2.fv.life = s.fv.life := (cardCounter_core a kind f s).2.1

@[simp] theorem cardCounter_pending (a : Action) (kind : Nat) (f : List Byte) (s : State) : (cardCounter a kind f s).2.pending = s.pending := (cardCounter_core a kind f s).2.2

theorem tokenCheck_core (a : Action) (iface : Nat) (ans : ExAnswer) (s : State) : SameAll (tokenCheck a iface ans s).2 s := by
  unfold tokenCheck
  try dsimp only
  repeat' split
  all_goals simp [SameAll]

@[simp] theorem tokenCheck_copies (a : Action) (iface : Nat) (ans : ExAnswer) (s : State) : (tokenCheck a iface ans s).2.lc.copies = s.lc.copies := (tokenCheck_core a iface ans s).1

@[simp] theorem tokenCheck_life (a : Action) (iface : Nat) (ans : ExAnswer) (s : State) : (tokenCheck a iface ans s).2.fv.life = s.fv.life := (tokenCheck_core a iface ans s).2.1

@[simp] theorem tokenCheck_pending (a : Action) (iface : Nat) (ans : ExAnswer) (s : State) : (tokenCheck a iface ans s).2.pending = s.pending := (tokenCheck_core a iface ans s).2.2

theorem setExt_core (k : Nat) (i : Option Nat) (s : State) : SameAll (setExt k i s) s := by simp [setExt, SameAll]

@[simp] theorem setExt_copies (k : Nat) (i : Option Nat) (s : State) : (setExt k i s).lc.copies = s.lc.copies := (setExt_core k i s).1

@[simp] theorem setExt_life (k : Nat) (i : Option Nat) (s : State) : (setExt k i s).fv.life = s.fv.life := (setExt_core k i s).2.1

@[simp] theorem setExt_pending (k : Nat) (i : Option Nat) (s : State) : (setExt k i s).pending = s.pending := (setExt_core k i s).2.2

theorem extNotApplied_core (i cause status idx : Nat) (s : State) : SameAll (extNotApplied i cause status idx s) s := by simp [extNotApplied, SameAll]

@[simp] theorem extNotApplied_copies (i cause status idx : Nat) (s : State) : (extNotApplied i cause status idx s).lc.copies = s.lc.copies := (extNotApplied_core i cause status idx s).1

@[simp] theorem extNotApplied_life (i cause status idx : Nat) (s : State) : (extNotApplied i cause status idx s).fv.life = s.fv.life := (extNotApplied_core i cause status idx s).2.1

@[simp] theorem extNotApplied_pending (i cause status idx : Nat) (s : State) : (extNotApplied i cause status idx s).pending = s.pending := (extNotApplied_core i cause status idx s).2.2

theorem extApplied_core (i cause : Nat) (s : State) : SameAll (extApplied i cause s) s := by simp [extApplied, SameAll]

@[simp] theorem extApplied_copies (i cause : Nat) (s : State) : (extApplied i cause s).lc.copies = s.lc.copies := (extApplied_core i cause s).1

@[simp] theorem extApplied_life (i cause : Nat) (s : State) : (extApplied i cause s).fv.life = s.fv.life := (extApplied_core i cause s).2.1

@[simp] theorem extApplied_pending (i cause : Nat) (s : State) : (extApplied i cause s).pending = s.pending := (extApplied_core i cause s).2.2

theorem extIndoubt_core (i : Nat) (s : State) : SameAll (extIndoubt i s) s := by simp [extIndoubt, SameAll]

@[simp] theorem extIndoubt_copies (i : Nat) (s : State) : (extIndoubt i s).lc.copies = s.lc.copies := (extIndoubt_core i s).1

@[simp] theorem extIndoubt_life (i : Nat) (s : State) : (extIndoubt i s).fv.life = s.fv.life := (extIndoubt_core i s).2.1

@[simp] theorem extIndoubt_pending (i : Nat) (s : State) : (extIndoubt i s).pending = s.pending := (extIndoubt_core i s).2.2

theorem cinchResolve_core (r : Req) (c : Nat) (b : List Byte) (h : Nat) (s : State) : SameAll (cinchResolve r c b h s) s := by simp [cinchResolve, SameAll]

@[simp] theorem cinchResolve_copies (r : Req) (c : Nat) (b : List Byte) (h : Nat) (s : State) : (cinchResolve r c b h s).lc.copies = s.lc.copies := (cinchResolve_core r c b h s).1

@[simp] theorem cinchResolve_life (r : Req) (c : Nat) (b : List Byte) (h : Nat) (s : State) : (cinchResolve r c b h s).fv.life = s.fv.life := (cinchResolve_core r c b h s).2.1

@[simp] theorem cinchResolve_pending (r : Req) (c : Nat) (b : List Byte) (h : Nat) (s : State) : (cinchResolve r c b h s).pending = s.pending := (cinchResolve_core r c b h s).2.2

theorem answerResolve_core (i : Nat) (head : List Byte) (s : State) : SameAll (answerResolve i head s) s := ⟨rfl, rfl, rfl⟩

@[simp] theorem answerResolve_copies (i : Nat) (head : List Byte) (s : State) : (answerResolve i head s).lc.copies = s.lc.copies := (answerResolve_core i head s).1

@[simp] theorem answerResolve_life (i : Nat) (head : List Byte) (s : State) : (answerResolve i head s).fv.life = s.fv.life := (answerResolve_core i head s).2.1

@[simp] theorem answerResolve_pending (i : Nat) (head : List Byte) (s : State) : (answerResolve i head s).pending = s.pending := (answerResolve_core i head s).2.2

theorem resolved_core (i idx : Nat) (applied : Bool) (s : State) : SameAll (resolved i idx applied s) s := by simp [resolved, SameAll]

@[simp] theorem resolved_copies (i idx : Nat) (applied : Bool) (s : State) : (resolved i idx applied s).lc.copies = s.lc.copies := (resolved_core i idx applied s).1

@[simp] theorem resolved_life (i idx : Nat) (applied : Bool) (s : State) : (resolved i idx applied s).fv.life = s.fv.life := (resolved_core i idx applied s).2.1

@[simp] theorem resolved_pending (i idx : Nat) (applied : Bool) (s : State) : (resolved i idx applied s).pending = s.pending := (resolved_core i idx applied s).2.2

theorem cardCounter_same (a : Action) (kind : Nat) (f : List Byte) (s : State) : SameMem (cardCounter a kind f s).2 s := by simp [cardCounter, SameMem]

@[simp] theorem cardCounter_mem (a : Action) (kind : Nat) (f : List Byte) (s : State) : (cardCounter a kind f s).2.mem = s.mem := cardCounter_same a kind f s

theorem tokenCheck_same (a : Action) (iface : Nat) (ans : ExAnswer) (s : State) : SameMem (tokenCheck a iface ans s).2 s := by
  unfold tokenCheck
  try dsimp only
  repeat' split
  all_goals simp [SameMem]

@[simp] theorem tokenCheck_mem (a : Action) (iface : Nat) (ans : ExAnswer) (s : State) : (tokenCheck a iface ans s).2.mem = s.mem := tokenCheck_same a iface ans s

theorem setExt_same (k : Nat) (i : Option Nat) (s : State) : SameMem (setExt k i s) s := by simp [setExt, SameMem]

@[simp] theorem setExt_mem (k : Nat) (i : Option Nat) (s : State) : (setExt k i s).mem = s.mem := setExt_same k i s

theorem extNotApplied_same (i cause status idx : Nat) (s : State) : SameMem (extNotApplied i cause status idx s) s := by simp [extNotApplied, SameMem]

@[simp] theorem extNotApplied_mem (i cause status idx : Nat) (s : State) : (extNotApplied i cause status idx s).mem = s.mem := extNotApplied_same i cause status idx s

theorem extApplied_same (i cause : Nat) (s : State) : SameMem (extApplied i cause s) s := by simp [extApplied, SameMem]

@[simp] theorem extApplied_mem (i cause : Nat) (s : State) : (extApplied i cause s).mem = s.mem := extApplied_same i cause s

theorem extIndoubt_same (i : Nat) (s : State) : SameMem (extIndoubt i s) s := by simp [extIndoubt, SameMem]

@[simp] theorem extIndoubt_mem (i : Nat) (s : State) : (extIndoubt i s).mem = s.mem := extIndoubt_same i s

theorem cinchResolve_same (r : Req) (c : Nat) (b : List Byte) (h : Nat) (s : State) : SameMem (cinchResolve r c b h s) s := by simp [cinchResolve, SameMem]

@[simp] theorem cinchResolve_mem (r : Req) (c : Nat) (b : List Byte) (h : Nat) (s : State) : (cinchResolve r c b h s).mem = s.mem := cinchResolve_same r c b h s

theorem answerResolve_same (i : Nat) (head : List Byte) (s : State) : SameMem (answerResolve i head s) s := rfl

@[simp] theorem answerResolve_mem (i : Nat) (head : List Byte) (s : State) : (answerResolve i head s).mem = s.mem := answerResolve_same i head s

theorem resolved_same (i idx : Nat) (applied : Bool) (s : State) : SameMem (resolved i idx applied s) s := by simp [resolved, SameMem]

@[simp] theorem resolved_mem (i idx : Nat) (applied : Bool) (s : State) : (resolved i idx applied s).mem = s.mem := resolved_same i idx applied s

end Sys2Proof.Machine
end

