-- ==== Sys2Proof/Laws/KeptWaits.lean ====
section
/-! SUPPORT. What each operation of Machine/Waits.lean keeps: the fuses, the life counters, the queue, and memory or its form. -/

namespace Sys2Proof.Machine

theorem updWin_core (u c w : Nat) (f : Win → Win) (s : State) : SameAll (updWin u c w f s) s := by
  unfold updWin
  split <;> simp [SameAll]

@[simp] theorem updWin_copies (u c w : Nat) (f : Win → Win) (s : State) : (updWin u c w f s).lc.copies = s.lc.copies := (updWin_core u c w f s).1

@[simp] theorem updWin_life (u c w : Nat) (f : Win → Win) (s : State) : (updWin u c w f s).fv.life = s.fv.life := (updWin_core u c w f s).2.1

@[simp] theorem updWin_pending (u c w : Nat) (f : Win → Win) (s : State) : (updWin u c w f s).pending = s.pending := (updWin_core u c w f s).2.2

theorem submitWin_core (u : Nat) (r : Req) (c w staged : Nat) (s : State) : SameAll (submitWin u r c w staged s).2.2 s := by
  unfold submitWin
  try dsimp only
  repeat' split
  all_goals simp [SameAll]

@[simp] theorem submitWin_copies (u : Nat) (r : Req) (c w staged : Nat) (s : State) : (submitWin u r c w staged s).2.2.lc.copies = s.lc.copies := (submitWin_core u r c w staged s).1

@[simp] theorem submitWin_life (u : Nat) (r : Req) (c w staged : Nat) (s : State) : (submitWin u r c w staged s).2.2.fv.life = s.fv.life := (submitWin_core u r c w staged s).2.1

@[simp] theorem submitWin_pending (u : Nat) (r : Req) (c w staged : Nat) (s : State) : (submitWin u r c w staged s).2.2.pending = s.pending := (submitWin_core u r c w staged s).2.2

theorem tryWait_core (w : WaitReq) (s : State) : SameAll (tryWait w s) s := by
  unfold tryWait
  split <;> simp [SameAll]

@[simp] theorem tryWait_copies (w : WaitReq) (s : State) : (tryWait w s).lc.copies = s.lc.copies := (tryWait_core w s).1

@[simp] theorem tryWait_life (w : WaitReq) (s : State) : (tryWait w s).fv.life = s.fv.life := (tryWait_core w s).2.1

@[simp] theorem tryWait_pending (w : WaitReq) (s : State) : (tryWait w s).pending = s.pending := (tryWait_core w s).2.2

theorem retryWaits_core (s : State) : SameAll (retryWaits s) s := by simp [retryWaits, SameAll]

@[simp] theorem retryWaits_copies (s : State) : (retryWaits s).lc.copies = s.lc.copies := (retryWaits_core s).1

@[simp] theorem retryWaits_life (s : State) : (retryWaits s).fv.life = s.fv.life := (retryWaits_core s).2.1

@[simp] theorem retryWaits_pending (s : State) : (retryWaits s).pending = s.pending := (retryWaits_core s).2.2

theorem winGo_core (u c w : Nat) (s : State) : SameAll (winGo u c w s) s := by simp [winGo, SameAll]

@[simp] theorem winGo_copies (u c w : Nat) (s : State) : (winGo u c w s).lc.copies = s.lc.copies := (winGo_core u c w s).1

@[simp] theorem winGo_life (u c w : Nat) (s : State) : (winGo u c w s).fv.life = s.fv.life := (winGo_core u c w s).2.1

@[simp] theorem winGo_pending (u c w : Nat) (s : State) : (winGo u c w s).pending = s.pending := (winGo_core u c w s).2.2

theorem abortWait_core (w : WaitReq) (s : State) : SameAll (abortWait w s) s := by
  unfold abortWait
  try dsimp only
  repeat' split
  all_goals simp [SameAll]

@[simp] theorem abortWait_copies (w : WaitReq) (s : State) : (abortWait w s).lc.copies = s.lc.copies := (abortWait_core w s).1

@[simp] theorem abortWait_life (w : WaitReq) (s : State) : (abortWait w s).fv.life = s.fv.life := (abortWait_core w s).2.1

@[simp] theorem abortWait_pending (w : WaitReq) (s : State) : (abortWait w s).pending = s.pending := (abortWait_core w s).2.2

theorem endWaits_core (test : Req → Bool) (s : State) : SameAll (endWaits test s) s := by simp [endWaits, SameAll]

@[simp] theorem endWaits_copies (test : Req → Bool) (s : State) : (endWaits test s).lc.copies = s.lc.copies := (endWaits_core test s).1

@[simp] theorem endWaits_life (test : Req → Bool) (s : State) : (endWaits test s).fv.life = s.fv.life := (endWaits_core test s).2.1

@[simp] theorem endWaits_pending (test : Req → Bool) (s : State) : (endWaits test s).pending = s.pending := (endWaits_core test s).2.2

theorem updWin_same (u c w : Nat) (f : Win → Win) (s : State) : SameMem (updWin u c w f s) s := by
  unfold updWin
  split <;> simp [SameMem]

@[simp] theorem updWin_mem (u c w : Nat) (f : Win → Win) (s : State) : (updWin u c w f s).mem = s.mem := updWin_same u c w f s

theorem submitWin_wf (u : Nat) (r : Req) (c w staged : Nat) (s : State) : KeepMem (submitWin u r c w staged s).2.2 s := by
  unfold submitWin
  try dsimp only
  iterate 8 all_goals (try first | with_reducible exact KeepMem.refl _ | assumption | split | with_reducible refine KeepMem.trans (stallSubmit_wf ..) ?_ | with_reducible refine KeepMem.trans (tackSubmit_wf ..) ?_ | with_reducible refine KeepMem.trans (cinchStage_wf ..) ?_ | with_reducible refine KeepMem.trans (KeepMem.of_eq (cinchOpen_mem ..)) ?_ | with_reducible refine KeepMem.trans (KeepMem.of_eq (refuseReq_mem ..)) ?_ | with_reducible refine KeepMem.trans (KeepMem.of_eq (cinchCommit_mem ..)) ?_ | with_reducible refine KeepMem.trans (KeepMem.of_eq (cinchAbort_mem ..)) ?_ | with_reducible refine KeepMem.trans (KeepMem.of_eq (cinchQuery_mem ..)) ?_ | with_reducible refine KeepMem.trans (KeepMem.of_eq (cinchLookup_mem ..)) ?_ | with_reducible refine KeepMem.trans (KeepMem.of_eq (cipherSubmit_mem ..)) ?_ | with_reducible refine KeepMem.trans (KeepMem.of_eq (pkeSubmit_mem ..)) ?_ | with_reducible refine KeepMem.trans (KeepMem.of_eq (cinchResolve_mem ..)) ?_)

theorem tryWait_wf (w : WaitReq) (s : State) : KeepMem (tryWait w s) s := by
  unfold tryWait
  try dsimp only
  iterate 30 all_goals (try first | with_reducible exact KeepMem.refl _ | assumption | split | with_reducible refine KeepMem.trans (submitWin_wf ..) ?_ | (apply KeepMem.of_eq; simp; done) | with_reducible refine KeepMem.trans (KeepMem.record ..) ?_)

theorem retryWaits_wf (s : State) : KeepMem (retryWaits s) s := by
  unfold retryWaits
  try dsimp only
  iterate 30 all_goals (try first | with_reducible exact KeepMem.refl _ | assumption | split | with_reducible refine KeepMem.trans (tryWait_wf ..) ?_ | with_reducible refine KeepMem.trans (KeepMem.foldl (fun _ _ => ?_) _ _) ?_ | (apply KeepMem.of_eq; simp; done) | with_reducible refine KeepMem.trans (KeepMem.record ..) ?_)

theorem winGo_wf (u c w : Nat) (s : State) : KeepMem (winGo u c w s) s := by
  unfold winGo
  try dsimp only
  iterate 8 all_goals (try first | with_reducible exact KeepMem.refl _ | assumption | split | with_reducible refine KeepMem.trans (tryWait_wf ..) ?_ | with_reducible refine KeepMem.trans (KeepMem.of_eq (updWin_mem ..)) ?_)

theorem abortWait_same (w : WaitReq) (s : State) : SameMem (abortWait w s) s := by
  unfold abortWait
  try dsimp only
  repeat' split
  all_goals simp [SameMem]

@[simp] theorem abortWait_mem (w : WaitReq) (s : State) : (abortWait w s).mem = s.mem := abortWait_same w s

theorem endWaits_same (test : Req → Bool) (s : State) : SameMem (endWaits test s) s := by simp [endWaits, SameMem]

@[simp] theorem endWaits_mem (test : Req → Bool) (s : State) : (endWaits test s).mem = s.mem := endWaits_same test s

end Sys2Proof.Machine
end

