-- ==== Sys2Proof/Laws/KeptCoreCtl.lean ====
section
/-! SUPPORT. What each operation of Machine/CoreCtl.lean keeps: the fuses, the life counters, the queue, and memory or its form. -/

namespace Sys2Proof.Machine

theorem putStack_core (c : Nat) (es : List RsEntry) (s : State) : SameAll (putStack c es s) s := by simp [putStack, SameAll]

@[simp] theorem putStack_copies (c : Nat) (es : List RsEntry) (s : State) : (putStack c es s).lc.copies = s.lc.copies := (putStack_core c es s).1

@[simp] theorem putStack_life (c : Nat) (es : List RsEntry) (s : State) : (putStack c es s).fv.life = s.fv.life := (putStack_core c es s).2.1

@[simp] theorem putStack_pending (c : Nat) (es : List RsEntry) (s : State) : (putStack c es s).pending = s.pending := (putStack_core c es s).2.2

theorem loadCtx_core (c : Nat) (x : SavedCtx) (s : State) : SameAll (loadCtx c x s) s := by simp [loadCtx, SameAll]

@[simp] theorem loadCtx_copies (c : Nat) (x : SavedCtx) (s : State) : (loadCtx c x s).lc.copies = s.lc.copies := (loadCtx_core c x s).1

@[simp] theorem loadCtx_life (c : Nat) (x : SavedCtx) (s : State) : (loadCtx c x s).fv.life = s.fv.life := (loadCtx_core c x s).2.1

@[simp] theorem loadCtx_pending (c : Nat) (x : SavedCtx) (s : State) : (loadCtx c x s).pending = s.pending := (loadCtx_core c x s).2.2

theorem enterDoor_core (c : Nat) (d : Rein) (s : State) : SameAll (enterDoor c d s) s := ⟨rfl, rfl, rfl⟩

@[simp] theorem enterDoor_copies (c : Nat) (d : Rein) (s : State) : (enterDoor c d s).lc.copies = s.lc.copies := (enterDoor_core c d s).1

@[simp] theorem enterDoor_life (c : Nat) (d : Rein) (s : State) : (enterDoor c d s).fv.life = s.fv.life := (enterDoor_core c d s).2.1

@[simp] theorem enterDoor_pending (c : Nat) (d : Rein) (s : State) : (enterDoor c d s).pending = s.pending := (enterDoor_core c d s).2.2

theorem enterStart_core (c p : Nat) (s : State) : SameAll (enterStart c p s) s := ⟨rfl, rfl, rfl⟩

@[simp] theorem enterStart_copies (c p : Nat) (s : State) : (enterStart c p s).lc.copies = s.lc.copies := (enterStart_core c p s).1

@[simp] theorem enterStart_life (c p : Nat) (s : State) : (enterStart c p s).fv.life = s.fv.life := (enterStart_core c p s).2.1

@[simp] theorem enterStart_pending (c p : Nat) (s : State) : (enterStart c p s).pending = s.pending := (enterStart_core c p s).2.2

theorem idleCore_core (c : Nat) (s : State) : SameAll (idleCore c s) s := ⟨rfl, rfl, rfl⟩

@[simp] theorem idleCore_copies (c : Nat) (s : State) : (idleCore c s).lc.copies = s.lc.copies := (idleCore_core c s).1

@[simp] theorem idleCore_life (c : Nat) (s : State) : (idleCore c s).fv.life = s.fv.life := (idleCore_core c s).2.1

@[simp] theorem idleCore_pending (c : Nat) (s : State) : (idleCore c s).pending = s.pending := (idleCore_core c s).2.2

theorem raiseHeld_core (c p : Nat) (s : State) : SameAll (raiseHeld c p s) s := by simp [raiseHeld, SameAll]

@[simp] theorem raiseHeld_copies (c p : Nat) (s : State) : (raiseHeld c p s).lc.copies = s.lc.copies := (raiseHeld_core c p s).1

@[simp] theorem raiseHeld_life (c p : Nat) (s : State) : (raiseHeld c p s).fv.life = s.fv.life := (raiseHeld_core c p s).2.1

@[simp] theorem raiseHeld_pending (c p : Nat) (s : State) : (raiseHeld c p s).pending = s.pending := (raiseHeld_core c p s).2.2

theorem scheduleCore_core (c : Nat) (s : State) : SameAll (scheduleCore c s) s := by
  unfold scheduleCore
  try dsimp only
  repeat' split
  all_goals simp [SameAll]

@[simp] theorem scheduleCore_copies (c : Nat) (s : State) : (scheduleCore c s).lc.copies = s.lc.copies := (scheduleCore_core c s).1

@[simp] theorem scheduleCore_life (c : Nat) (s : State) : (scheduleCore c s).fv.life = s.fv.life := (scheduleCore_core c s).2.1

@[simp] theorem scheduleCore_pending (c : Nat) (s : State) : (scheduleCore c s).pending = s.pending := (scheduleCore_core c s).2.2

theorem discardCtx_core (c p cause : Nat) (wpc : W64) (s : State) : SameAll (discardCtx c p cause wpc s) s := by simp [discardCtx, SameAll]

@[simp] theorem discardCtx_copies (c p cause : Nat) (wpc : W64) (s : State) : (discardCtx c p cause wpc s).lc.copies = s.lc.copies := (discardCtx_core c p cause wpc s).1

@[simp] theorem discardCtx_life (c p cause : Nat) (wpc : W64) (s : State) : (discardCtx c p cause wpc s).fv.life = s.fv.life := (discardCtx_core c p cause wpc s).2.1

@[simp] theorem discardCtx_pending (c p cause : Nat) (wpc : W64) (s : State) : (discardCtx c p cause wpc s).pending = s.pending := (discardCtx_core c p cause wpc s).2.2

theorem loadCode_core (c p : Nat) (image : List Byte) (s : State) : SameAll (loadCode c p image s) s := by simp [loadCode, SameAll]

@[simp] theorem loadCode_copies (c p : Nat) (image : List Byte) (s : State) : (loadCode c p image s).lc.copies = s.lc.copies := (loadCode_core c p image s).1

@[simp] theorem loadCode_life (c p : Nat) (image : List Byte) (s : State) : (loadCode c p image s).fv.life = s.fv.life := (loadCode_core c p image s).2.1

@[simp] theorem loadCode_pending (c p : Nat) (image : List Byte) (s : State) : (loadCode c p image s).pending = s.pending := (loadCode_core c p image s).2.2

theorem loadCore_core (c l : Nat) (s : State) : SameAll (loadCore c l s) s := by simp [loadCore, SameAll]

@[simp] theorem loadCore_copies (c l : Nat) (s : State) : (loadCore c l s).lc.copies = s.lc.copies := (loadCore_core c l s).1

@[simp] theorem loadCore_life (c l : Nat) (s : State) : (loadCore c l s).fv.life = s.fv.life := (loadCore_core c l s).2.1

@[simp] theorem loadCore_pending (c l : Nat) (s : State) : (loadCore c l s).pending = s.pending := (loadCore_core c l s).2.2

theorem wipeSpan_core (a n : Nat) (s : State) : SameAll (wipeSpan a n s) s := ⟨rfl, rfl, rfl⟩

@[simp] theorem wipeSpan_copies (a n : Nat) (s : State) : (wipeSpan a n s).lc.copies = s.lc.copies := (wipeSpan_core a n s).1

@[simp] theorem wipeSpan_life (a n : Nat) (s : State) : (wipeSpan a n s).fv.life = s.fv.life := (wipeSpan_core a n s).2.1

@[simp] theorem wipeSpan_pending (a n : Nat) (s : State) : (wipeSpan a n s).pending = s.pending := (wipeSpan_core a n s).2.2

theorem wipeCore_core (c : Nat) (s : State) : SameAll (wipeCore c s) s := ⟨rfl, rfl, rfl⟩

@[simp] theorem wipeCore_copies (c : Nat) (s : State) : (wipeCore c s).lc.copies = s.lc.copies := (wipeCore_core c s).1

@[simp] theorem wipeCore_life (c : Nat) (s : State) : (wipeCore c s).fv.life = s.fv.life := (wipeCore_core c s).2.1

@[simp] theorem wipeCore_pending (c : Nat) (s : State) : (wipeCore c s).pending = s.pending := (wipeCore_core c s).2.2

theorem dropCtxs_core (c : Nat) (s : State) : SameAll (dropCtxs c s) s := ⟨rfl, rfl, rfl⟩

@[simp] theorem dropCtxs_copies (c : Nat) (s : State) : (dropCtxs c s).lc.copies = s.lc.copies := (dropCtxs_core c s).1

@[simp] theorem dropCtxs_life (c : Nat) (s : State) : (dropCtxs c s).fv.life = s.fv.life := (dropCtxs_core c s).2.1

@[simp] theorem dropCtxs_pending (c : Nat) (s : State) : (dropCtxs c s).pending = s.pending := (dropCtxs_core c s).2.2

theorem fillPcFault_core (c reason : Nat) (s : State) : SameAll (fillPcFault c reason s) s := by
  unfold fillPcFault
  try dsimp only
  repeat' split
  all_goals simp [SameAll]

@[simp] theorem fillPcFault_copies (c reason : Nat) (s : State) : (fillPcFault c reason s).lc.copies = s.lc.copies := (fillPcFault_core c reason s).1

@[simp] theorem fillPcFault_life (c reason : Nat) (s : State) : (fillPcFault c reason s).fv.life = s.fv.life := (fillPcFault_core c reason s).2.1

@[simp] theorem fillPcFault_pending (c reason : Nat) (s : State) : (fillPcFault c reason s).pending = s.pending := (fillPcFault_core c reason s).2.2

theorem cutCoreJobs_core (c : Nat) (s : State) : SameAll (cutCoreJobs c s) s := by simp [cutCoreJobs, SameAll]

@[simp] theorem cutCoreJobs_copies (c : Nat) (s : State) : (cutCoreJobs c s).lc.copies = s.lc.copies := (cutCoreJobs_core c s).1

@[simp] theorem cutCoreJobs_life (c : Nat) (s : State) : (cutCoreJobs c s).fv.life = s.fv.life := (cutCoreJobs_core c s).2.1

@[simp] theorem cutCoreJobs_pending (c : Nat) (s : State) : (cutCoreJobs c s).pending = s.pending := (cutCoreJobs_core c s).2.2

theorem fenceCore_core (c reason : Nat) (s : State) : SameAll (fenceCore c reason s) s := by simp [fenceCore, SameAll]

@[simp] theorem fenceCore_copies (c reason : Nat) (s : State) : (fenceCore c reason s).lc.copies = s.lc.copies := (fenceCore_core c reason s).1

@[simp] theorem fenceCore_life (c reason : Nat) (s : State) : (fenceCore c reason s).fv.life = s.fv.life := (fenceCore_core c reason s).2.1

@[simp] theorem fenceCore_pending (c reason : Nat) (s : State) : (fenceCore c reason s).pending = s.pending := (fenceCore_core c reason s).2.2

theorem stackRead_core (c : Nat) (f : State → State) (s : State) (h : ∀ t, SameAll (f t) t) : SameAll (stackRead c f s) s := by
  unfold stackRead
  split
  · exact (fenceCore_core ..).trans (noteUncorrectable_core ..)
  · exact h s

@[simp] theorem stackRead_copies (c : Nat) (f : State → State) (s : State) (h : ∀ t, (f t).lc.copies = t.lc.copies) : (stackRead c f s).lc.copies = s.lc.copies := by
  unfold stackRead
  split
  · simp
  · exact h s

@[simp] theorem stackRead_life (c : Nat) (f : State → State) (s : State) (h : ∀ t, (f t).fv.life = t.fv.life) : (stackRead c f s).fv.life = s.fv.life := by
  unfold stackRead
  split
  · simp
  · exact h s

@[simp] theorem stackRead_pending (c : Nat) (f : State → State) (s : State) (h : ∀ t, (f t).pending = t.pending) : (stackRead c f s).pending = s.pending := by
  unfold stackRead
  split
  · simp
  · exact h s

theorem saveCtx_core (c p : Nat) (s : State) : SameAll (saveCtx c p s) s := by simp [saveCtx, SameAll]

@[simp] theorem saveCtx_copies (c p : Nat) (s : State) : (saveCtx c p s).lc.copies = s.lc.copies := (saveCtx_core c p s).1

@[simp] theorem saveCtx_life (c p : Nat) (s : State) : (saveCtx c p s).fv.life = s.fv.life := (saveCtx_core c p s).2.1

@[simp] theorem saveCtx_pending (c p : Nat) (s : State) : (saveCtx c p s).pending = s.pending := (saveCtx_core c p s).2.2

theorem moveReqs_core (a b : Nat) (s : State) : SameAll (moveReqs a b s) s := ⟨rfl, rfl, rfl⟩

@[simp] theorem moveReqs_copies (a b : Nat) (s : State) : (moveReqs a b s).lc.copies = s.lc.copies := (moveReqs_core a b s).1

@[simp] theorem moveReqs_life (a b : Nat) (s : State) : (moveReqs a b s).fv.life = s.fv.life := (moveReqs_core a b s).2.1

@[simp] theorem moveReqs_pending (a b : Nat) (s : State) : (moveReqs a b s).pending = s.pending := (moveReqs_core a b s).2.2

theorem moveCore_core (a b : Nat) (s : State) : SameAll (moveCore a b s) s := by
  unfold moveCore
  try dsimp only
  repeat' split
  all_goals simp [SameAll]

@[simp] theorem moveCore_copies (a b : Nat) (s : State) : (moveCore a b s).lc.copies = s.lc.copies := (moveCore_core a b s).1

@[simp] theorem moveCore_life (a b : Nat) (s : State) : (moveCore a b s).fv.life = s.fv.life := (moveCore_core a b s).2.1

@[simp] theorem moveCore_pending (a b : Nat) (s : State) : (moveCore a b s).pending = s.pending := (moveCore_core a b s).2.2

theorem putStack_wf (c : Nat) (es : List RsEntry) (s : State) : KeepMem (putStack c es s) s := by
  unfold putStack
  try dsimp only
  iterate 30 all_goals (try first | with_reducible exact KeepMem.refl _ | assumption | split | with_reducible refine KeepMem.trans (putBytes_wf ..) ?_ | with_reducible refine KeepMem.trans (KeepMem.of_eq (updCore_mem ..)) ?_ | with_reducible refine KeepMem.trans (KeepMem.foldl (fun _ _ => ?_) _ _) ?_)

theorem loadCtx_wf (c : Nat) (x : SavedCtx) (s : State) : KeepMem (loadCtx c x s) s := by
  unfold loadCtx
  try dsimp only
  iterate 8 all_goals (try first | with_reducible exact KeepMem.refl _ | assumption | split | with_reducible refine KeepMem.trans (putStack_wf ..) ?_ | with_reducible refine KeepMem.trans (KeepMem.of_eq (updCore_mem ..)) ?_)

theorem enterDoor_same (c : Nat) (d : Rein) (s : State) : SameMem (enterDoor c d s) s := rfl

@[simp] theorem enterDoor_mem (c : Nat) (d : Rein) (s : State) : (enterDoor c d s).mem = s.mem := enterDoor_same c d s

theorem enterStart_same (c p : Nat) (s : State) : SameMem (enterStart c p s) s := rfl

@[simp] theorem enterStart_mem (c p : Nat) (s : State) : (enterStart c p s).mem = s.mem := enterStart_same c p s

theorem idleCore_same (c : Nat) (s : State) : SameMem (idleCore c s) s := rfl

@[simp] theorem idleCore_mem (c : Nat) (s : State) : (idleCore c s).mem = s.mem := idleCore_same c s

theorem raiseHeld_same (c p : Nat) (s : State) : SameMem (raiseHeld c p s) s := by simp [raiseHeld, SameMem]

@[simp] theorem raiseHeld_mem (c p : Nat) (s : State) : (raiseHeld c p s).mem = s.mem := raiseHeld_same c p s

theorem scheduleCore_wf (c : Nat) (s : State) : KeepMem (scheduleCore c s) s := by
  unfold scheduleCore
  try dsimp only
  iterate 30 all_goals (try first | with_reducible exact KeepMem.refl _ | assumption | split | with_reducible refine KeepMem.trans (loadCtx_wf ..) ?_ | with_reducible refine KeepMem.trans (KeepMem.of_eq (enterStart_mem ..)) ?_ | with_reducible refine KeepMem.trans (KeepMem.of_eq (idleCore_mem ..)) ?_ | with_reducible refine KeepMem.trans (KeepMem.of_eq (raiseHeld_mem ..)) ?_ | (apply KeepMem.of_eq; simp; done))

theorem discardCtx_same (c p cause : Nat) (wpc : W64) (s : State) : SameMem (discardCtx c p cause wpc s) s := by simp [discardCtx, SameMem]

@[simp] theorem discardCtx_mem (c p cause : Nat) (wpc : W64) (s : State) : (discardCtx c p cause wpc s).mem = s.mem := discardCtx_same c p cause wpc s

theorem loadCode_wf (c p : Nat) (image : List Byte) (s : State) : KeepMem (loadCode c p image s) s := by
  unfold loadCode
  try dsimp only
  iterate 30 all_goals (try first | with_reducible exact KeepMem.refl _ | assumption | split | with_reducible refine KeepMem.trans (putByte_wf ..) ?_ | with_reducible refine KeepMem.trans (KeepMem.foldl (fun _ _ => ?_) _ _) ?_ | (apply KeepMem.of_eq; simp; done) | with_reducible refine KeepMem.trans (KeepMem.record ..) ?_)

theorem loadCore_wf (c l : Nat) (s : State) : KeepMem (loadCore c l s) s := by
  unfold loadCore
  try dsimp only
  iterate 30 all_goals (try first | with_reducible exact KeepMem.refl _ | assumption | split | with_reducible refine KeepMem.trans (loadCode_wf ..) ?_ | with_reducible refine KeepMem.trans (KeepMem.foldl (fun _ _ => ?_) _ _) ?_)

theorem wipeSpan_wf (a n : Nat) (s : State) : KeepMem (wipeSpan a n s) s := by
  refine ⟨fun h => ?_⟩
  rw [memWf_iff] at h ⊢
  exact ⟨Tab.clearRange_wf _ _ h.1, Tab.clearRange_wf _ _ h.2.1, Tab.clearRange_wf _ _ h.2.2.1, h.2.2.2⟩

theorem wipeCore_wf (c : Nat) (s : State) : KeepMem (wipeCore c s) s := by
  unfold wipeCore
  try dsimp only
  iterate 8 all_goals (try first | with_reducible exact KeepMem.refl _ | assumption | split | with_reducible refine KeepMem.trans (wipeSpan_wf ..) ?_ | with_reducible refine KeepMem.trans (KeepMem.of_eq (setCore_mem ..)) ?_)

theorem dropCtxs_same (c : Nat) (s : State) : SameMem (dropCtxs c s) s := rfl

@[simp] theorem dropCtxs_mem (c : Nat) (s : State) : (dropCtxs c s).mem = s.mem := dropCtxs_same c s

theorem fillPcFault_same (c reason : Nat) (s : State) : SameMem (fillPcFault c reason s) s := by
  unfold fillPcFault
  try dsimp only
  repeat' split
  all_goals simp [SameMem]

@[simp] theorem fillPcFault_mem (c reason : Nat) (s : State) : (fillPcFault c reason s).mem = s.mem := fillPcFault_same c reason s

theorem cutCoreJobs_same (c : Nat) (s : State) : SameMem (cutCoreJobs c s) s := by simp [cutCoreJobs, SameMem]

@[simp] theorem cutCoreJobs_mem (c : Nat) (s : State) : (cutCoreJobs c s).mem = s.mem := cutCoreJobs_same c s

theorem fenceCore_same (c reason : Nat) (s : State) : SameMem (fenceCore c reason s) s := by simp [fenceCore, SameMem]

@[simp] theorem fenceCore_mem (c reason : Nat) (s : State) : (fenceCore c reason s).mem = s.mem := fenceCore_same c reason s

theorem stackRead_same (c : Nat) (f : State → State) (s : State) (h : ∀ t, SameMem (f t) t) : SameMem (stackRead c f s) s := by
  unfold stackRead
  split
  · exact (fenceCore_same ..).trans (noteUncorrectable_same ..)
  · exact h s

@[simp] theorem stackRead_mem (c : Nat) (f : State → State) (s : State) (h : ∀ t, (f t).mem = t.mem) : (stackRead c f s).mem = s.mem :=
  stackRead_same c f s h

theorem saveCtx_same (c p : Nat) (s : State) : SameMem (saveCtx c p s) s := by simp [saveCtx, SameMem]

@[simp] theorem saveCtx_mem (c p : Nat) (s : State) : (saveCtx c p s).mem = s.mem := saveCtx_same c p s

theorem moveReqs_same (a b : Nat) (s : State) : SameMem (moveReqs a b s) s := rfl

@[simp] theorem moveReqs_mem (a b : Nat) (s : State) : (moveReqs a b s).mem = s.mem := moveReqs_same a b s

theorem moveCore_same (a b : Nat) (s : State) : SameMem (moveCore a b s) s := by
  unfold moveCore
  try dsimp only
  repeat' split
  all_goals simp [SameMem]

@[simp] theorem moveCore_mem (a b : Nat) (s : State) : (moveCore a b s).mem = s.mem := moveCore_same a b s

end Sys2Proof.Machine
end

