-- ==== Sys2Proof/Laws/KeptUnitService.lean ====
section
/-! SUPPORT. What each operation of Machine/UnitService.lean keeps: the fuses, the life counters, the queue, and memory or its form. -/

namespace Sys2Proof.Machine

theorem unitRequest_core (pool u : Nat) (en : Bool) (s : State) : SameAll (unitRequest pool u en s) s := by simp [unitRequest, SameAll]

@[simp] theorem unitRequest_copies (pool u : Nat) (en : Bool) (s : State) : (unitRequest pool u en s).lc.copies = s.lc.copies := (unitRequest_core pool u en s).1

@[simp] theorem unitRequest_life (pool u : Nat) (en : Bool) (s : State) : (unitRequest pool u en s).fv.life = s.fv.life := (unitRequest_core pool u en s).2.1

@[simp] theorem unitRequest_pending (pool u : Nat) (en : Bool) (s : State) : (unitRequest pool u en s).pending = s.pending := (unitRequest_core pool u en s).2.2

theorem unitBoundary_core (s : State) (pool u : Nat) : SameAll (unitBoundary s pool u) s := by simp [unitBoundary, SameAll]

@[simp] theorem unitBoundary_copies (s : State) (pool u : Nat) : (unitBoundary s pool u).lc.copies = s.lc.copies := (unitBoundary_core s pool u).1

@[simp] theorem unitBoundary_life (s : State) (pool u : Nat) : (unitBoundary s pool u).fv.life = s.fv.life := (unitBoundary_core s pool u).2.1

@[simp] theorem unitBoundary_pending (s : State) (pool u : Nat) : (unitBoundary s pool u).pending = s.pending := (unitBoundary_core s pool u).2.2

theorem unitsBoundary_core (s : State) : SameAll (unitsBoundary s) s := by simp [unitsBoundary, SameAll]

@[simp] theorem unitsBoundary_copies (s : State) : (unitsBoundary s).lc.copies = s.lc.copies := (unitsBoundary_core s).1

@[simp] theorem unitsBoundary_life (s : State) : (unitsBoundary s).fv.life = s.fv.life := (unitsBoundary_core s).2.1

@[simp] theorem unitsBoundary_pending (s : State) : (unitsBoundary s).pending = s.pending := (unitsBoundary_core s).2.2

theorem bindTo_core (pool l u : Nat) (s : State) : SameAll (bindTo pool l u s) s := by
  unfold bindTo
  try dsimp only
  repeat' split
  all_goals simp [SameAll]

@[simp] theorem bindTo_copies (pool l u : Nat) (s : State) : (bindTo pool l u s).lc.copies = s.lc.copies := (bindTo_core pool l u s).1

@[simp] theorem bindTo_life (pool l u : Nat) (s : State) : (bindTo pool l u s).fv.life = s.fv.life := (bindTo_core pool l u s).2.1

@[simp] theorem bindTo_pending (pool l u : Nat) (s : State) : (bindTo pool l u s).pending = s.pending := (bindTo_core pool l u s).2.2

theorem takeover_core (s : State) (pool l : Nat) : SameAll (takeover s pool l) s := by
  unfold takeover
  try dsimp only
  repeat' split
  all_goals simp [SameAll]

@[simp] theorem takeover_copies (s : State) (pool l : Nat) : (takeover s pool l).lc.copies = s.lc.copies := (takeover_core s pool l).1

@[simp] theorem takeover_life (s : State) (pool l : Nat) : (takeover s pool l).fv.life = s.fv.life := (takeover_core s pool l).2.1

@[simp] theorem takeover_pending (s : State) (pool l : Nat) : (takeover s pool l).pending = s.pending := (takeover_core s pool l).2.2

theorem standbyTakeover_core (s : State) : SameAll (standbyTakeover s) s := by simp [standbyTakeover, SameAll]

@[simp] theorem standbyTakeover_copies (s : State) : (standbyTakeover s).lc.copies = s.lc.copies := (standbyTakeover_core s).1

@[simp] theorem standbyTakeover_life (s : State) : (standbyTakeover s).fv.life = s.fv.life := (standbyTakeover_core s).2.1

@[simp] theorem standbyTakeover_pending (s : State) : (standbyTakeover s).pending = s.pending := (standbyTakeover_core s).2.2

theorem wipeUnit_core (pool u : Nat) (s : State) : SameAll (wipeUnit pool u s) s := by simp [wipeUnit, SameAll]

@[simp] theorem wipeUnit_copies (pool u : Nat) (s : State) : (wipeUnit pool u s).lc.copies = s.lc.copies := (wipeUnit_core pool u s).1

@[simp] theorem wipeUnit_life (pool u : Nat) (s : State) : (wipeUnit pool u s).fv.life = s.fv.life := (wipeUnit_core pool u s).2.1

@[simp] theorem wipeUnit_pending (pool u : Nat) (s : State) : (wipeUnit pool u s).pending = s.pending := (wipeUnit_core pool u s).2.2

theorem statReason_core (pool u : Nat) (s : State) : SameAll (statReason pool u s) s := by simp [statReason, SameAll]

@[simp] theorem statReason_copies (pool u : Nat) (s : State) : (statReason pool u s).lc.copies = s.lc.copies := (statReason_core pool u s).1

@[simp] theorem statReason_life (pool u : Nat) (s : State) : (statReason pool u s).fv.life = s.fv.life := (statReason_core pool u s).2.1

@[simp] theorem statReason_pending (pool u : Nat) (s : State) : (statReason pool u s).pending = s.pending := (statReason_core pool u s).2.2

theorem testEnd_core (pool u : Nat) (pass : Bool) (s : State) : SameAll (testEnd pool u pass s) s := by simp [testEnd, SameAll]

@[simp] theorem testEnd_copies (pool u : Nat) (pass : Bool) (s : State) : (testEnd pool u pass s).lc.copies = s.lc.copies := (testEnd_core pool u pass s).1

@[simp] theorem testEnd_life (pool u : Nat) (pass : Bool) (s : State) : (testEnd pool u pass s).fv.life = s.fv.life := (testEnd_core pool u pass s).2.1

@[simp] theorem testEnd_pending (pool u : Nat) (pass : Bool) (s : State) : (testEnd pool u pass s).pending = s.pending := (testEnd_core pool u pass s).2.2

theorem bootUnits_core (bad : List (Nat × Nat)) (s : State) : SameAll (bootUnits bad s) s := by
  unfold bootUnits
  refine SameAll.trans (SameAll.foldl (fun st p => SameAll.foldl (fun st l => ?_) _ _) _ _) ?_
  · split
    · simp [SameAll]
    · exact SameAll.refl _
  refine SameAll.trans (SameAll.foldl (fun st e => ?_) _ _) ⟨rfl, rfl, rfl⟩
  simp [SameAll]

@[simp] theorem bootUnits_copies (bad : List (Nat × Nat)) (s : State) : (bootUnits bad s).lc.copies = s.lc.copies := (bootUnits_core bad s).1

@[simp] theorem bootUnits_life (bad : List (Nat × Nat)) (s : State) : (bootUnits bad s).fv.life = s.fv.life := (bootUnits_core bad s).2.1

@[simp] theorem bootUnits_pending (bad : List (Nat × Nat)) (s : State) : (bootUnits bad s).pending = s.pending := (bootUnits_core bad s).2.2

theorem countStops_core (s : State) : SameAll (countStops s) s := by simp [countStops, SameAll]

@[simp] theorem countStops_copies (s : State) : (countStops s).lc.copies = s.lc.copies := (countStops_core s).1

@[simp] theorem countStops_life (s : State) : (countStops s).fv.life = s.fv.life := (countStops_core s).2.1

@[simp] theorem countStops_pending (s : State) : (countStops s).pending = s.pending := (countStops_core s).2.2

theorem unitRequest_same (pool u : Nat) (en : Bool) (s : State) : SameMem (unitRequest pool u en s) s := by simp [unitRequest, SameMem]

@[simp] theorem unitRequest_mem (pool u : Nat) (en : Bool) (s : State) : (unitRequest pool u en s).mem = s.mem := unitRequest_same pool u en s

theorem unitBoundary_same (s : State) (pool u : Nat) : SameMem (unitBoundary s pool u) s := by simp [unitBoundary, SameMem]

@[simp] theorem unitBoundary_mem (s : State) (pool u : Nat) : (unitBoundary s pool u).mem = s.mem := unitBoundary_same s pool u

theorem unitsBoundary_same (s : State) : SameMem (unitsBoundary s) s := by simp [unitsBoundary, SameMem]

@[simp] theorem unitsBoundary_mem (s : State) : (unitsBoundary s).mem = s.mem := unitsBoundary_same s

theorem bindTo_wf (pool l u : Nat) (s : State) : KeepMem (bindTo pool l u s) s := by
  unfold bindTo
  try dsimp only
  iterate 8 all_goals (try first | with_reducible exact KeepMem.refl _ | assumption | split | with_reducible refine KeepMem.trans (loadCore_wf ..) ?_ | with_reducible refine KeepMem.trans (KeepMem.of_eq (bindLogical_mem ..)) ?_ | with_reducible refine KeepMem.trans (KeepMem.of_eq (updCore_mem ..)) ?_ | with_reducible refine KeepMem.trans (KeepMem.of_eq (moveCore_mem ..)) ?_)

theorem takeover_wf (s : State) (pool l : Nat) : KeepMem (takeover s pool l) s := by
  unfold takeover
  try dsimp only
  iterate 8 all_goals (try first | with_reducible exact KeepMem.refl _ | assumption | split | with_reducible refine KeepMem.trans (bindTo_wf ..) ?_ | with_reducible refine KeepMem.trans (KeepMem.of_eq (bindLogical_mem ..)) ?_)

theorem standbyTakeover_wf (s : State) : KeepMem (standbyTakeover s) s := by
  unfold standbyTakeover
  try dsimp only
  iterate 30 all_goals (try first | with_reducible exact KeepMem.refl _ | assumption | split | with_reducible refine KeepMem.trans (takeover_wf ..) ?_ | with_reducible refine KeepMem.trans (KeepMem.foldl (fun _ _ => ?_) _ _) ?_)

theorem wipeUnit_wf (pool u : Nat) (s : State) : KeepMem (wipeUnit pool u s) s := by
  unfold wipeUnit
  try dsimp only
  iterate 8 all_goals (try first | with_reducible exact KeepMem.refl _ | assumption | split | with_reducible refine KeepMem.trans (wipeCore_wf ..) ?_ | with_reducible refine KeepMem.trans (KeepMem.of_eq (updCv_mem ..)) ?_)

theorem statReason_same (pool u : Nat) (s : State) : SameMem (statReason pool u s) s := by simp [statReason, SameMem]

@[simp] theorem statReason_mem (pool u : Nat) (s : State) : (statReason pool u s).mem = s.mem := statReason_same pool u s

theorem testEnd_same (pool u : Nat) (pass : Bool) (s : State) : SameMem (testEnd pool u pass s) s := by simp [testEnd, SameMem]

@[simp] theorem testEnd_mem (pool u : Nat) (pass : Bool) (s : State) : (testEnd pool u pass s).mem = s.mem := testEnd_same pool u pass s

theorem bootUnits_wf (bad : List (Nat × Nat)) (s : State) : KeepMem (bootUnits bad s) s := by
  unfold bootUnits
  try dsimp only
  iterate 30 all_goals (try first | with_reducible exact KeepMem.refl _ | assumption | split | with_reducible refine KeepMem.trans (wipeUnit_wf ..) ?_ | with_reducible refine KeepMem.trans (KeepMem.of_eq (bindLogical_mem ..)) ?_ | with_reducible refine KeepMem.trans (KeepMem.of_eq (testEnd_mem ..)) ?_ | with_reducible refine KeepMem.trans (KeepMem.foldl (fun _ _ => ?_) _ _) ?_ | (apply KeepMem.of_eq; simp; done) | with_reducible refine KeepMem.trans (KeepMem.record ..) ?_)

theorem countStops_same (s : State) : SameMem (countStops s) s := by simp [countStops, SameMem]

@[simp] theorem countStops_mem (s : State) : (countStops s).mem = s.mem := countStops_same s

end Sys2Proof.Machine
end

