-- ==== Sys2Proof/Laws/KeptShed.lean ====
section
/-! SUPPORT. What each operation of Machine/Shed.lean keeps: the fuses, the life counters, the queue, and memory or its form. -/

namespace Sys2Proof.Machine

theorem shedMemory_core (s : State) : SameAll (shedMemory s) s := ⟨rfl, rfl, rfl⟩

@[simp] theorem shedMemory_copies (s : State) : (shedMemory s).lc.copies = s.lc.copies := (shedMemory_core s).1

@[simp] theorem shedMemory_life (s : State) : (shedMemory s).fv.life = s.fv.life := (shedMemory_core s).2.1

@[simp] theorem shedMemory_pending (s : State) : (shedMemory s).pending = s.pending := (shedMemory_core s).2.2

theorem rescramble_core (s : State) : SameAll (rescramble s) s := ⟨rfl, rfl, rfl⟩

@[simp] theorem rescramble_copies (s : State) : (rescramble s).lc.copies = s.lc.copies := (rescramble_core s).1

@[simp] theorem rescramble_life (s : State) : (rescramble s).fv.life = s.fv.life := (rescramble_core s).2.1

@[simp] theorem rescramble_pending (s : State) : (rescramble s).pending = s.pending := (rescramble_core s).2.2

theorem shedReins_core (s : State) : SameAll (shedReins s) s := ⟨rfl, rfl, rfl⟩

@[simp] theorem shedReins_copies (s : State) : (shedReins s).lc.copies = s.lc.copies := (shedReins_core s).1

@[simp] theorem shedReins_life (s : State) : (shedReins s).fv.life = s.fv.life := (shedReins_core s).2.1

@[simp] theorem shedReins_pending (s : State) : (shedReins s).pending = s.pending := (shedReins_core s).2.2

theorem clearStable_core (s : State) : SameAll (clearStable s) s := ⟨rfl, rfl, rfl⟩

@[simp] theorem clearStable_copies (s : State) : (clearStable s).lc.copies = s.lc.copies := (clearStable_core s).1

@[simp] theorem clearStable_life (s : State) : (clearStable s).fv.life = s.fv.life := (clearStable_core s).2.1

@[simp] theorem clearStable_pending (s : State) : (clearStable s).pending = s.pending := (clearStable_core s).2.2

theorem shedStable_core (s0 : State) : SameAll (shedStable s0) s0 := ⟨rfl, rfl, rfl⟩

@[simp] theorem shedStable_copies (s0 : State) : (shedStable s0).lc.copies = s0.lc.copies := (shedStable_core s0).1

@[simp] theorem shedStable_life (s0 : State) : (shedStable s0).fv.life = s0.fv.life := (shedStable_core s0).2.1

@[simp] theorem shedStable_pending (s0 : State) : (shedStable s0).pending = s0.pending := (shedStable_core s0).2.2

theorem shedTacks_core (s : State) : SameAll (shedTacks s) s := by simp [shedTacks, SameAll]

@[simp] theorem shedTacks_copies (s : State) : (shedTacks s).lc.copies = s.lc.copies := (shedTacks_core s).1

@[simp] theorem shedTacks_life (s : State) : (shedTacks s).fv.life = s.fv.life := (shedTacks_core s).2.1

@[simp] theorem shedTacks_pending (s : State) : (shedTacks s).pending = s.pending := (shedTacks_core s).2.2

theorem shedHeld_core (s : State) : SameAll (shedHeld s) s := by simp [shedHeld, SameAll]

@[simp] theorem shedHeld_copies (s : State) : (shedHeld s).lc.copies = s.lc.copies := (shedHeld_core s).1

@[simp] theorem shedHeld_life (s : State) : (shedHeld s).fv.life = s.fv.life := (shedHeld_core s).2.1

@[simp] theorem shedHeld_pending (s : State) : (shedHeld s).pending = s.pending := (shedHeld_core s).2.2

theorem shedWork_core (s : State) : SameAll (shedWork s) s := by simp [shedWork, SameAll]

@[simp] theorem shedWork_copies (s : State) : (shedWork s).lc.copies = s.lc.copies := (shedWork_core s).1

@[simp] theorem shedWork_life (s : State) : (shedWork s).fv.life = s.fv.life := (shedWork_core s).2.1

@[simp] theorem shedWork_pending (s : State) : (shedWork s).pending = s.pending := (shedWork_core s).2.2

theorem shedBoundary_core (s : State) : SameAll (shedBoundary s) s := by simp [shedBoundary, SameAll]

@[simp] theorem shedBoundary_copies (s : State) : (shedBoundary s).lc.copies = s.lc.copies := (shedBoundary_core s).1

@[simp] theorem shedBoundary_life (s : State) : (shedBoundary s).fv.life = s.fv.life := (shedBoundary_core s).2.1

@[simp] theorem shedBoundary_pending (s : State) : (shedBoundary s).pending = s.pending := (shedBoundary_core s).2.2

theorem reloadCores_core (s : State) : SameAll (reloadCores s) s := by
  unfold reloadCores
  refine SameAll.trans (SameAll.foldl (fun st l => ?_) _ _) (SameAll.foldl (fun st c => wipeCore_core c st) _ _)
  split
  · split
    · simp [SameAll]
    · exact SameAll.refl _
  · exact SameAll.refl _

@[simp] theorem reloadCores_copies (s : State) : (reloadCores s).lc.copies = s.lc.copies := (reloadCores_core s).1

@[simp] theorem reloadCores_life (s : State) : (reloadCores s).fv.life = s.fv.life := (reloadCores_core s).2.1

@[simp] theorem reloadCores_pending (s : State) : (reloadCores s).pending = s.pending := (reloadCores_core s).2.2

theorem shedReload_core (s : State) : SameAll (shedReload s) s := by
  unfold shedReload
  try dsimp only
  repeat' split
  all_goals simp [SameAll]

@[simp] theorem shedReload_copies (s : State) : (shedReload s).lc.copies = s.lc.copies := (shedReload_core s).1

@[simp] theorem shedReload_life (s : State) : (shedReload s).fv.life = s.fv.life := (shedReload_core s).2.1

@[simp] theorem shedReload_pending (s : State) : (shedReload s).pending = s.pending := (shedReload_core s).2.2

theorem poisonWord_core (w : SramWord) (s : State) : SameAll (poisonWord w s) s := by
  unfold poisonWord
  split <;> simp [SameAll]

@[simp] theorem poisonWord_copies (w : SramWord) (s : State) : (poisonWord w s).lc.copies = s.lc.copies := (poisonWord_core w s).1

@[simp] theorem poisonWord_life (w : SramWord) (s : State) : (poisonWord w s).fv.life = s.fv.life := (poisonWord_core w s).2.1

@[simp] theorem poisonWord_pending (w : SramWord) (s : State) : (poisonWord w s).pending = s.pending := (poisonWord_core w s).2.2

theorem shedMemory_wf (s : State) : KeepMem (shedMemory s) s := by
  refine ⟨fun h => ?_⟩
  have h1 := ((wipeSpan_wf 0x60000000 0x2C00000 _).trans ((wipeSpan_wf 0x40000000 0x1000000 _).trans (wipeSpan_wf 0x10000000 0xD00000 s))).keep h
  unfold shedMemory
  generalize wipeSpan 0x60000000 0x2C00000 (wipeSpan 0x40000000 0x1000000 (wipeSpan 0x10000000 0xD00000 s)) = t at h1 ⊢
  rw [memWf_iff] at h1 ⊢
  exact ⟨h1.1, h1.2.1, rfl, h1.2.2.2⟩

theorem rescramble_same (s : State) : SameMem (rescramble s) s := rfl

@[simp] theorem rescramble_mem (s : State) : (rescramble s).mem = s.mem := rescramble_same s

theorem shedReins_same (s : State) : SameMem (shedReins s) s := rfl

@[simp] theorem shedReins_mem (s : State) : (shedReins s).mem = s.mem := shedReins_same s

theorem clearStable_same (s : State) : SameMem (clearStable s) s := rfl

@[simp] theorem clearStable_mem (s : State) : (clearStable s).mem = s.mem := clearStable_same s

theorem shedStable_same (s0 : State) : SameMem (shedStable s0) s0 := rfl

@[simp] theorem shedStable_mem (s0 : State) : (shedStable s0).mem = s0.mem := shedStable_same s0

theorem shedTacks_same (s : State) : SameMem (shedTacks s) s := by simp [shedTacks, SameMem]

@[simp] theorem shedTacks_mem (s : State) : (shedTacks s).mem = s.mem := shedTacks_same s

theorem shedHeld_same (s : State) : SameMem (shedHeld s) s := by simp [shedHeld, SameMem]

@[simp] theorem shedHeld_mem (s : State) : (shedHeld s).mem = s.mem := shedHeld_same s

theorem shedWork_same (s : State) : SameMem (shedWork s) s := by simp [shedWork, SameMem]

@[simp] theorem shedWork_mem (s : State) : (shedWork s).mem = s.mem := shedWork_same s

theorem shedBoundary_wf (s : State) : KeepMem (shedBoundary s) s := by
  unfold shedBoundary
  try dsimp only
  iterate 30 all_goals (try first | with_reducible exact KeepMem.refl _ | assumption | split | with_reducible refine KeepMem.trans (shedMemory_wf ..) ?_ | with_reducible refine KeepMem.trans (KeepMem.of_eq (shedFrames_mem ..)) ?_ | with_reducible refine KeepMem.trans (KeepMem.of_eq (endSession_mem ..)) ?_ | with_reducible refine KeepMem.trans (KeepMem.of_eq (rescramble_mem ..)) ?_ | with_reducible refine KeepMem.trans (KeepMem.of_eq (shedReins_mem ..)) ?_ | with_reducible refine KeepMem.trans (KeepMem.of_eq (shedStable_mem ..)) ?_ | with_reducible refine KeepMem.trans (KeepMem.of_eq (shedTacks_mem ..)) ?_ | with_reducible refine KeepMem.trans (KeepMem.of_eq (shedHeld_mem ..)) ?_ | with_reducible refine KeepMem.trans (KeepMem.of_eq (shedWork_mem ..)) ?_)

theorem reloadCores_wf (s : State) : KeepMem (reloadCores s) s := by
  unfold reloadCores
  try dsimp only
  iterate 30 all_goals (try first | with_reducible exact KeepMem.refl _ | assumption | split | with_reducible refine KeepMem.trans (scheduleCore_wf ..) ?_ | with_reducible refine KeepMem.trans (loadCore_wf ..) ?_ | with_reducible refine KeepMem.trans (wipeCore_wf ..) ?_ | with_reducible refine KeepMem.trans (KeepMem.foldl (fun _ _ => ?_) _ _) ?_)

theorem shedReload_wf (s : State) : KeepMem (shedReload s) s := by
  have key : ∀ t : State, KeepMem t s → KeepMem (match t.lc.busy with
      | some (target, none) => { t with lc := { t.lc with busy := some (target, some s.tick) } }
      | _ => t) s := by
    intro t ht
    split
    · exact KeepMem.trans (u := t) (KeepMem.of_eq rfl) ht
    · exact ht
  unfold shedReload
  refine key _ (KeepMem.trans (KeepMem.of_eq (setEvent_mem ..)) ?_)
  have h := reloadCores_wf s
  generalize reloadCores s = t at h ⊢
  exact KeepMem.trans (u := t) (KeepMem.of_eq rfl) h

theorem poisonWord_wf (w : SramWord) (s : State) : KeepMem (poisonWord w s) s := by
  unfold poisonWord
  split
  · refine ⟨fun h => ?_⟩
    rw [memWf_iff] at h ⊢
    exact ⟨h.1, Tab.set_wf _ _ h.2.1, h.2.2⟩
  · exact KeepMem.of_eq (updTack_mem ..)
  · exact KeepMem.of_eq rfl

end Sys2Proof.Machine
end

