-- ==== Sys2Proof/Laws/KeptFirmware.lean ====
section
/-! SUPPORT. What each operation of Machine/Firmware.lean keeps: the fuses, the life counters, the queue, and memory or its form. -/

namespace Sys2Proof.Machine

theorem setBank_core (b : Nat) (k : Bank) (s : State) : SameAll (setBank b k s) s := ⟨rfl, rfl, rfl⟩

@[simp] theorem setBank_copies (b : Nat) (k : Bank) (s : State) : (setBank b k s).lc.copies = s.lc.copies := (setBank_core b k s).1

@[simp] theorem setBank_life (b : Nat) (k : Bank) (s : State) : (setBank b k s).fv.life = s.fv.life := (setBank_core b k s).2.1

@[simp] theorem setBank_pending (b : Nat) (k : Bank) (s : State) : (setBank b k s).pending = s.pending := (setBank_core b k s).2.2

theorem updFw_core (f : FwReplace → FwReplace) (s : State) : SameAll (updFw f s) s := ⟨rfl, rfl, rfl⟩

@[simp] theorem updFw_copies (f : FwReplace → FwReplace) (s : State) : (updFw f s).lc.copies = s.lc.copies := (updFw_core f s).1

@[simp] theorem updFw_life (f : FwReplace → FwReplace) (s : State) : (updFw f s).fv.life = s.fv.life := (updFw_core f s).2.1

@[simp] theorem updFw_pending (f : FwReplace → FwReplace) (s : State) : (updFw f s).pending = s.pending := (updFw_core f s).2.2

theorem fwFail_core (reason : Nat) (s : State) : SameAll (fwFail reason s) s := by simp [fwFail, SameAll]

@[simp] theorem fwFail_copies (reason : Nat) (s : State) : (fwFail reason s).lc.copies = s.lc.copies := (fwFail_core reason s).1

@[simp] theorem fwFail_life (reason : Nat) (s : State) : (fwFail reason s).fv.life = s.fv.life := (fwFail_core reason s).2.1

@[simp] theorem fwFail_pending (reason : Nat) (s : State) : (fwFail reason s).pending = s.pending := (fwFail_core reason s).2.2

theorem fwChunk_core (chunk : List Byte) (s : State) : SameAll (fwChunk chunk s).2 s := by simp [fwChunk, SameAll]

@[simp] theorem fwChunk_copies (chunk : List Byte) (s : State) : (fwChunk chunk s).2.lc.copies = s.lc.copies := (fwChunk_core chunk s).1

@[simp] theorem fwChunk_life (chunk : List Byte) (s : State) : (fwChunk chunk s).2.fv.life = s.fv.life := (fwChunk_core chunk s).2.1

@[simp] theorem fwChunk_pending (chunk : List Byte) (s : State) : (fwChunk chunk s).2.pending = s.pending := (fwChunk_core chunk s).2.2

theorem fwVerify_core (s : State) : SameAll (fwVerify s).2 s := by simp [fwVerify, SameAll]

@[simp] theorem fwVerify_copies (s : State) : (fwVerify s).2.lc.copies = s.lc.copies := (fwVerify_core s).1

@[simp] theorem fwVerify_life (s : State) : (fwVerify s).2.fv.life = s.fv.life := (fwVerify_core s).2.1

@[simp] theorem fwVerify_pending (s : State) : (fwVerify s).2.pending = s.pending := (fwVerify_core s).2.2

theorem fwBegin_core (s : State) : SameAll (fwBegin s) s := by
  unfold fwBegin
  try dsimp only
  repeat' split
  all_goals simp [SameAll]

@[simp] theorem fwBegin_copies (s : State) : (fwBegin s).lc.copies = s.lc.copies := (fwBegin_core s).1

@[simp] theorem fwBegin_life (s : State) : (fwBegin s).fv.life = s.fv.life := (fwBegin_core s).2.1

@[simp] theorem fwBegin_pending (s : State) : (fwBegin s).pending = s.pending := (fwBegin_core s).2.2

theorem fwSwitch_core (s : State) : SameAll (fwSwitch s).2 s := by simp [fwSwitch, SameAll]

@[simp] theorem fwSwitch_copies (s : State) : (fwSwitch s).2.lc.copies = s.lc.copies := (fwSwitch_core s).1

@[simp] theorem fwSwitch_life (s : State) : (fwSwitch s).2.fv.life = s.fv.life := (fwSwitch_core s).2.1

@[simp] theorem fwSwitch_pending (s : State) : (fwSwitch s).2.pending = s.pending := (fwSwitch_core s).2.2

theorem fwCancel_core (s : State) : SameAll (fwCancel s).2 s := by simp [fwCancel, SameAll]

@[simp] theorem fwCancel_copies (s : State) : (fwCancel s).2.lc.copies = s.lc.copies := (fwCancel_core s).1

@[simp] theorem fwCancel_life (s : State) : (fwCancel s).2.fv.life = s.fv.life := (fwCancel_core s).2.1

@[simp] theorem fwCancel_pending (s : State) : (fwCancel s).2.pending = s.pending := (fwCancel_core s).2.2

theorem fwMove_core (c p l : Nat) (s : State) : SameAll (fwMove c p l s) s := by simp [fwMove, SameAll]

@[simp] theorem fwMove_copies (c p l : Nat) (s : State) : (fwMove c p l s).lc.copies = s.lc.copies := (fwMove_core c p l s).1

@[simp] theorem fwMove_life (c p l : Nat) (s : State) : (fwMove c p l s).fv.life = s.fv.life := (fwMove_core c p l s).2.1

@[simp] theorem fwMove_pending (c p l : Nat) (s : State) : (fwMove c p l s).pending = s.pending := (fwMove_core c p l s).2.2

theorem setBank_same (b : Nat) (k : Bank) (s : State) : SameMem (setBank b k s) s := rfl

@[simp] theorem setBank_mem (b : Nat) (k : Bank) (s : State) : (setBank b k s).mem = s.mem := setBank_same b k s

theorem updFw_same (f : FwReplace → FwReplace) (s : State) : SameMem (updFw f s) s := rfl

@[simp] theorem updFw_mem (f : FwReplace → FwReplace) (s : State) : (updFw f s).mem = s.mem := updFw_same f s

theorem fwFail_same (reason : Nat) (s : State) : SameMem (fwFail reason s) s := by simp [fwFail, SameMem]

@[simp] theorem fwFail_mem (reason : Nat) (s : State) : (fwFail reason s).mem = s.mem := fwFail_same reason s

theorem fwChunk_same (chunk : List Byte) (s : State) : SameMem (fwChunk chunk s).2 s := by simp [fwChunk, SameMem]

@[simp] theorem fwChunk_mem (chunk : List Byte) (s : State) : (fwChunk chunk s).2.mem = s.mem := fwChunk_same chunk s

theorem fwVerify_same (s : State) : SameMem (fwVerify s).2 s := by simp [fwVerify, SameMem]

@[simp] theorem fwVerify_mem (s : State) : (fwVerify s).2.mem = s.mem := fwVerify_same s

theorem fwBegin_same (s : State) : SameMem (fwBegin s) s := by
  unfold fwBegin
  try dsimp only
  repeat' split
  all_goals simp [SameMem]

@[simp] theorem fwBegin_mem (s : State) : (fwBegin s).mem = s.mem := fwBegin_same s

theorem fwSwitch_same (s : State) : SameMem (fwSwitch s).2 s := by simp [fwSwitch, SameMem]

@[simp] theorem fwSwitch_mem (s : State) : (fwSwitch s).2.mem = s.mem := fwSwitch_same s

theorem fwCancel_same (s : State) : SameMem (fwCancel s).2 s := by simp [fwCancel, SameMem]

@[simp] theorem fwCancel_mem (s : State) : (fwCancel s).2.mem = s.mem := fwCancel_same s

theorem fwMove_wf (c p l : Nat) (s : State) : KeepMem (fwMove c p l s) s := by
  unfold fwMove
  try dsimp only
  iterate 8 all_goals (try first | with_reducible exact KeepMem.refl _ | assumption | split | with_reducible refine KeepMem.trans (loadCode_wf ..) ?_ | with_reducible refine KeepMem.trans (KeepMem.of_eq (updCore_mem ..)) ?_ | with_reducible refine KeepMem.trans (KeepMem.of_eq (idleCore_mem ..)) ?_ | with_reducible refine KeepMem.trans (KeepMem.of_eq (updFw_mem ..)) ?_)

end Sys2Proof.Machine
end

