-- ==== Sys2Proof/Laws/KeptRevoke.lean ====
section
/-! SUPPORT. What each operation of Machine/Revoke.lean keeps: the fuses, the life counters, the queue, and memory or its form. -/

namespace Sys2Proof.Machine

theorem endJobs_core (test : Req → Bool) (s : State) : SameAll (endJobs test s) s := by simp [endJobs, SameAll]

@[simp] theorem endJobs_copies (test : Req → Bool) (s : State) : (endJobs test s).lc.copies = s.lc.copies := (endJobs_core test s).1

@[simp] theorem endJobs_life (test : Req → Bool) (s : State) : (endJobs test s).fv.life = s.fv.life := (endJobs_core test s).2.1

@[simp] theorem endJobs_pending (test : Req → Bool) (s : State) : (endJobs test s).pending = s.pending := (endJobs_core test s).2.2

theorem revokeWork_core (p : Nat) (s : State) : SameAll (revokeWork p s) s := by simp [revokeWork, SameAll]

@[simp] theorem revokeWork_copies (p : Nat) (s : State) : (revokeWork p s).lc.copies = s.lc.copies := (revokeWork_core p s).1

@[simp] theorem revokeWork_life (p : Nat) (s : State) : (revokeWork p s).fv.life = s.fv.life := (revokeWork_core p s).2.1

@[simp] theorem revokeWork_pending (p : Nat) (s : State) : (revokeWork p s).pending = s.pending := (revokeWork_core p s).2.2

theorem actEffect_core (a : PadAct) (s : State) : SameAll (actEffect a s) s := by simp [actEffect, SameAll]

@[simp] theorem actEffect_copies (a : PadAct) (s : State) : (actEffect a s).lc.copies = s.lc.copies := (actEffect_core a s).1

@[simp] theorem actEffect_life (a : PadAct) (s : State) : (actEffect a s).fv.life = s.fv.life := (actEffect_core a s).2.1

@[simp] theorem actEffect_pending (a : PadAct) (s : State) : (actEffect a s).pending = s.pending := (actEffect_core a s).2.2

theorem functionReset_core (fn : Nat) (s : State) : SameAll (functionReset fn s) s := by simp [functionReset, SameAll]

@[simp] theorem functionReset_copies (fn : Nat) (s : State) : (functionReset fn s).lc.copies = s.lc.copies := (functionReset_core fn s).1

@[simp] theorem functionReset_life (fn : Nat) (s : State) : (functionReset fn s).fv.life = s.fv.life := (functionReset_core fn s).2.1

@[simp] theorem functionReset_pending (fn : Nat) (s : State) : (functionReset fn s).pending = s.pending := (functionReset_core fn s).2.2

theorem resetVFs_core (s : State) : SameAll (resetVFs s) s := by simp [resetVFs, SameAll]

@[simp] theorem resetVFs_copies (s : State) : (resetVFs s).lc.copies = s.lc.copies := (resetVFs_core s).1

@[simp] theorem resetVFs_life (s : State) : (resetVFs s).fv.life = s.fv.life := (resetVFs_core s).2.1

@[simp] theorem resetVFs_pending (s : State) : (resetVFs s).pending = s.pending := (resetVFs_core s).2.2

theorem writeFence_core (v : W32) (s : State) : SameAll (writeFence v s) s := by simp [writeFence, SameAll]

@[simp] theorem writeFence_copies (v : W32) (s : State) : (writeFence v s).lc.copies = s.lc.copies := (writeFence_core v s).1

@[simp] theorem writeFence_life (v : W32) (s : State) : (writeFence v s).fv.life = s.fv.life := (writeFence_core v s).2.1

@[simp] theorem writeFence_pending (v : W32) (s : State) : (writeFence v s).pending = s.pending := (writeFence_core v s).2.2

theorem writeSpill_core (t : Nat) (r : Rein) (s : State) : SameAll (writeSpill t r s) s := by simp [writeSpill, SameAll]

@[simp] theorem writeSpill_copies (t : Nat) (r : Rein) (s : State) : (writeSpill t r s).lc.copies = s.lc.copies := (writeSpill_core t r s).1

@[simp] theorem writeSpill_life (t : Nat) (r : Rein) (s : State) : (writeSpill t r s).fv.life = s.fv.life := (writeSpill_core t r s).2.1

@[simp] theorem writeSpill_pending (t : Nat) (r : Rein) (s : State) : (writeSpill t r s).pending = s.pending := (writeSpill_core t r s).2.2

theorem clearStack_core (t : Nat) (s : State) : SameAll (clearStack t s) s := ⟨rfl, rfl, rfl⟩

@[simp] theorem clearStack_copies (t : Nat) (s : State) : (clearStack t s).lc.copies = s.lc.copies := (clearStack_core t s).1

@[simp] theorem clearStack_life (t : Nat) (s : State) : (clearStack t s).fv.life = s.fv.life := (clearStack_core t s).2.1

@[simp] theorem clearStack_pending (t : Nat) (s : State) : (clearStack t s).pending = s.pending := (clearStack_core t s).2.2

theorem writeWmsg_core (c t : Nat) (v : W32) (s : State) : SameAll (writeWmsg c t v s) s := by simp [writeWmsg, SameAll]

@[simp] theorem writeWmsg_copies (c t : Nat) (v : W32) (s : State) : (writeWmsg c t v s).lc.copies = s.lc.copies := (writeWmsg_core c t v s).1

@[simp] theorem writeWmsg_life (c t : Nat) (v : W32) (s : State) : (writeWmsg c t v s).fv.life = s.fv.life := (writeWmsg_core c t v s).2.1

@[simp] theorem writeWmsg_pending (c t : Nat) (v : W32) (s : State) : (writeWmsg c t v s).pending = s.pending := (writeWmsg_core c t v s).2.2

theorem endJobs_wf (test : Req → Bool) (s : State) : KeepMem (endJobs test s) s := by
  unfold endJobs
  try dsimp only
  iterate 8 all_goals (try first | with_reducible exact KeepMem.refl _ | assumption | split | with_reducible refine KeepMem.trans (cipherCuts_wf ..) ?_ | with_reducible refine KeepMem.trans (KeepMem.of_eq (cutCipher_mem ..)) ?_ | with_reducible refine KeepMem.trans (KeepMem.of_eq (cutCv_mem ..)) ?_ | with_reducible refine KeepMem.trans (KeepMem.of_eq (cvCuts_mem ..)) ?_ | with_reducible refine KeepMem.trans (KeepMem.of_eq (cutPke_mem ..)) ?_ | with_reducible refine KeepMem.trans (KeepMem.of_eq (pkeCuts_mem ..)) ?_ | with_reducible refine KeepMem.trans (KeepMem.of_eq (endWaits_mem ..)) ?_)

theorem revokeWork_wf (p : Nat) (s : State) : KeepMem (revokeWork p s) s := by
  unfold revokeWork
  try dsimp only
  iterate 8 all_goals (try first | with_reducible exact KeepMem.refl _ | assumption | split | with_reducible refine KeepMem.trans (endJobs_wf ..) ?_ | with_reducible refine KeepMem.trans (KeepMem.of_eq (markAbortAll_mem ..)) ?_ | with_reducible refine KeepMem.trans (KeepMem.of_eq (revokeStalls_mem ..)) ?_)

theorem actEffect_wf (a : PadAct) (s : State) : KeepMem (actEffect a s) s := by
  unfold actEffect
  try dsimp only
  iterate 30 all_goals (try first | with_reducible exact KeepMem.refl _ | assumption | split | with_reducible refine KeepMem.trans (revokeWork_wf ..) ?_ | with_reducible refine KeepMem.trans (KeepMem.of_eq (ledgerEvent_mem ..)) ?_ | with_reducible refine KeepMem.trans (KeepMem.of_eq (actPaddock_mem ..)) ?_ | (apply KeepMem.of_eq; simp; done))

theorem functionReset_wf (fn : Nat) (s : State) : KeepMem (functionReset fn s) s := by
  unfold functionReset
  have h := (endJobs_wf (fromFn fn) (resetFunctionQueues fn s)).trans (resetFunctionQueues_wf fn s)
  generalize endJobs (fromFn fn) (resetFunctionQueues fn s) = t at h ⊢
  exact KeepMem.trans (u := t) (KeepMem.of_eq rfl) h

theorem resetVFs_same (s : State) : SameMem (resetVFs s) s := by simp [resetVFs, SameMem]

@[simp] theorem resetVFs_mem (s : State) : (resetVFs s).mem = s.mem := resetVFs_same s

theorem writeFence_same (v : W32) (s : State) : SameMem (writeFence v s) s := by simp [writeFence, SameMem]

@[simp] theorem writeFence_mem (v : W32) (s : State) : (writeFence v s).mem = s.mem := writeFence_same v s

theorem writeSpill_same (t : Nat) (r : Rein) (s : State) : SameMem (writeSpill t r s) s := by simp [writeSpill, SameMem]

@[simp] theorem writeSpill_mem (t : Nat) (r : Rein) (s : State) : (writeSpill t r s).mem = s.mem := writeSpill_same t r s

theorem clearStack_same (t : Nat) (s : State) : SameMem (clearStack t s) s := rfl

@[simp] theorem clearStack_mem (t : Nat) (s : State) : (clearStack t s).mem = s.mem := clearStack_same t s

theorem writeWmsg_same (c t : Nat) (v : W32) (s : State) : SameMem (writeWmsg c t v s) s := by simp [writeWmsg, SameMem]

@[simp] theorem writeWmsg_mem (c t : Nat) (v : W32) (s : State) : (writeWmsg c t v s).mem = s.mem := writeWmsg_same c t v s

end Sys2Proof.Machine
end

