-- ==== Sys2Proof/Laws/KeptQuorum.lean ====
section
/-! SUPPORT. What each operation of Machine/Quorum.lean keeps: the fuses, the life counters, the queue, and memory or its form. -/

namespace Sys2Proof.Machine

theorem noteAct_core (act cred : Nat) (s : State) : SameAll (noteAct act cred s) s := by simp [noteAct, SameAll]

@[simp] theorem noteAct_copies (act cred : Nat) (s : State) : (noteAct act cred s).lc.copies = s.lc.copies := (noteAct_core act cred s).1

@[simp] theorem noteAct_life (act cred : Nat) (s : State) : (noteAct act cred s).fv.life = s.fv.life := (noteAct_core act cred s).2.1

@[simp] theorem noteAct_pending (act cred : Nat) (s : State) : (noteAct act cred s).pending = s.pending := (noteAct_core act cred s).2.2

theorem beginAct_core (act cred : Nat) (s : State) : SameAll (beginAct act cred s) s := by simp [beginAct, SameAll]

@[simp] theorem beginAct_copies (act cred : Nat) (s : State) : (beginAct act cred s).lc.copies = s.lc.copies := (beginAct_core act cred s).1

@[simp] theorem beginAct_life (act cred : Nat) (s : State) : (beginAct act cred s).fv.life = s.fv.life := (beginAct_core act cred s).2.1

@[simp] theorem beginAct_pending (act cred : Nat) (s : State) : (beginAct act cred s).pending = s.pending := (beginAct_core act cred s).2.2

theorem enrolCustodians_core (es : List Custodian) (s : State) : SameAll (enrolCustodians es s) s := by simp [enrolCustodians, SameAll]

@[simp] theorem enrolCustodians_copies (es : List Custodian) (s : State) : (enrolCustodians es s).lc.copies = s.lc.copies := (enrolCustodians_core es s).1

@[simp] theorem enrolCustodians_life (es : List Custodian) (s : State) : (enrolCustodians es s).fv.life = s.fv.life := (enrolCustodians_core es s).2.1

@[simp] theorem enrolCustodians_pending (es : List Custodian) (s : State) : (enrolCustodians es s).pending = s.pending := (enrolCustodians_core es s).2.2

theorem keepSaddlebag_core (rec : Option (List Byte)) (s : State) : SameAll (keepSaddlebag rec s) s := by
  unfold keepSaddlebag
  split <;> simp [SameAll]

@[simp] theorem keepSaddlebag_copies (rec : Option (List Byte)) (s : State) : (keepSaddlebag rec s).lc.copies = s.lc.copies := (keepSaddlebag_core rec s).1

@[simp] theorem keepSaddlebag_life (rec : Option (List Byte)) (s : State) : (keepSaddlebag rec s).fv.life = s.fv.life := (keepSaddlebag_core rec s).2.1

@[simp] theorem keepSaddlebag_pending (rec : Option (List Byte)) (s : State) : (keepSaddlebag rec s).pending = s.pending := (keepSaddlebag_core rec s).2.2

theorem freshKey_core (s : State) : SameAll (freshKey s).2 s := by simp [freshKey, SameAll]

@[simp] theorem freshKey_copies (s : State) : (freshKey s).2.lc.copies = s.lc.copies := (freshKey_core s).1

@[simp] theorem freshKey_life (s : State) : (freshKey s).2.fv.life = s.fv.life := (freshKey_core s).2.1

@[simp] theorem freshKey_pending (s : State) : (freshKey s).2.pending = s.pending := (freshKey_core s).2.2

theorem drawCoeffs_core (x0 : Nat) (s : State) : SameAll (drawCoeffs x0 s).2 s := by
  fun_induction drawCoeffs x0 s
  all_goals (first | (simp [SameAll]; done) | (simp_all [SameAll]; done) | grind [SameAll, custodyBytes_core])

@[simp] theorem drawCoeffs_copies (x0 : Nat) (s : State) : (drawCoeffs x0 s).2.lc.copies = s.lc.copies := (drawCoeffs_core x0 s).1

@[simp] theorem drawCoeffs_life (x0 : Nat) (s : State) : (drawCoeffs x0 s).2.fv.life = s.fv.life := (drawCoeffs_core x0 s).2.1

@[simp] theorem drawCoeffs_pending (x0 : Nat) (s : State) : (drawCoeffs x0 s).2.pending = s.pending := (drawCoeffs_core x0 s).2.2

theorem splitJob_core (act : Nat) (key : List Byte) (m n : Nat) (places : List Nat) (s : State) : SameAll (splitJob act key m n places s) s := by simp [splitJob, SameAll]

@[simp] theorem splitJob_copies (act : Nat) (key : List Byte) (m n : Nat) (places : List Nat) (s : State) : (splitJob act key m n places s).lc.copies = s.lc.copies := (splitJob_core act key m n places s).1

@[simp] theorem splitJob_life (act : Nat) (key : List Byte) (m n : Nat) (places : List Nat) (s : State) : (splitJob act key m n places s).fv.life = s.fv.life := (splitJob_core act key m n places s).2.1

@[simp] theorem splitJob_pending (act : Nat) (key : List Byte) (m n : Nat) (places : List Nat) (s : State) : (splitJob act key m n places s).pending = s.pending := (splitJob_core act key m n places s).2.2

theorem finishJob_core (j : QuorumJob) (s : State) : SameAll (finishJob j s) s := by simp [finishJob, SameAll]

@[simp] theorem finishJob_copies (j : QuorumJob) (s : State) : (finishJob j s).lc.copies = s.lc.copies := (finishJob_core j s).1

@[simp] theorem finishJob_life (j : QuorumJob) (s : State) : (finishJob j s).fv.life = s.fv.life := (finishJob_core j s).2.1

@[simp] theorem finishJob_pending (j : QuorumJob) (s : State) : (finishJob j s).pending = s.pending := (finishJob_core j s).2.2

theorem openWrite_core (j : QuorumJob) (a : Action) (rest : List Action) (s : State) : SameAll (openWrite j a rest s) s := by
  unfold openWrite
  split <;> simp [SameAll]

@[simp] theorem openWrite_copies (j : QuorumJob) (a : Action) (rest : List Action) (s : State) : (openWrite j a rest s).lc.copies = s.lc.copies := (openWrite_core j a rest s).1

@[simp] theorem openWrite_life (j : QuorumJob) (a : Action) (rest : List Action) (s : State) : (openWrite j a rest s).fv.life = s.fv.life := (openWrite_core j a rest s).2.1

@[simp] theorem openWrite_pending (j : QuorumJob) (a : Action) (rest : List Action) (s : State) : (openWrite j a rest s).pending = s.pending := (openWrite_core j a rest s).2.2

theorem quorumBoundary_core (s : State) : SameAll (quorumBoundary s) s := by
  unfold quorumBoundary
  try dsimp only
  repeat' split
  all_goals simp [SameAll]

@[simp] theorem quorumBoundary_copies (s : State) : (quorumBoundary s).lc.copies = s.lc.copies := (quorumBoundary_core s).1

@[simp] theorem quorumBoundary_life (s : State) : (quorumBoundary s).fv.life = s.fv.life := (quorumBoundary_core s).2.1

@[simp] theorem quorumBoundary_pending (s : State) : (quorumBoundary s).pending = s.pending := (quorumBoundary_core s).2.2

theorem endQuorum_core (s : State) : SameAll (endQuorum s) s := ⟨rfl, rfl, rfl⟩

@[simp] theorem endQuorum_copies (s : State) : (endQuorum s).lc.copies = s.lc.copies := (endQuorum_core s).1

@[simp] theorem endQuorum_life (s : State) : (endQuorum s).fv.life = s.fv.life := (endQuorum_core s).2.1

@[simp] theorem endQuorum_pending (s : State) : (endQuorum s).pending = s.pending := (endQuorum_core s).2.2

theorem openQuorum_core (act cred m n kid addr : Nat) (next : Nat × Nat) (places : List Nat) (record image : List Byte) (s : State) : SameAll (openQuorum act cred m n kid addr next places record image s) s := by simp [openQuorum, SameAll]

@[simp] theorem openQuorum_copies (act cred m n kid addr : Nat) (next : Nat × Nat) (places : List Nat) (record image : List Byte) (s : State) : (openQuorum act cred m n kid addr next places record image s).lc.copies = s.lc.copies := (openQuorum_core act cred m n kid addr next places record image s).1

@[simp] theorem openQuorum_life (act cred m n kid addr : Nat) (next : Nat × Nat) (places : List Nat) (record image : List Byte) (s : State) : (openQuorum act cred m n kid addr next places record image s).fv.life = s.fv.life := (openQuorum_core act cred m n kid addr next places record image s).2.1

@[simp] theorem openQuorum_pending (act cred m n kid addr : Nat) (next : Nat × Nat) (places : List Nat) (record image : List Byte) (s : State) : (openQuorum act cred m n kid addr next places record image s).pending = s.pending := (openQuorum_core act cred m n kid addr next places record image s).2.2

theorem restoreOne_core (key : List Byte) (gen : Nat) (st : List Byte × List Byte × Nat × State) :
    SameAll (restoreOne key gen st).2.2.2 st.2.2.2 := by
  obtain ⟨rest, pairs, i, s⟩ := st
  unfold restoreOne
  dsimp only
  repeat' split
  all_goals (simp [SameAll])

theorem restoreOne_foldl (key : List Byte) (gen : Nat) (l : List Nat) (st : List Byte × List Byte × Nat × State) :
    SameAll (l.foldl (fun st _ => restoreOne key gen st) st).2.2.2 st.2.2.2 := by
  induction l generalizing st with
  | nil => exact SameAll.refl _
  | cons x xs ih => exact (ih _).trans (restoreOne_core key gen st)

theorem restoreImage_core (q : Quorum) (key : List Byte) (s : State) : SameAll (restoreImage q key s) s := by
  unfold restoreImage
  extract_lets gen ends n
  have he : ∀ k t, SameAll (ends k t) t := fun _ _ => ⟨rfl, rfl, rfl⟩
  clear_value ends
  split
  · exact he ..
  · exact (he ..).trans ((busWrite_core ..).trans (restoreOne_foldl ..))

@[simp] theorem restoreImage_copies (q : Quorum) (key : List Byte) (s : State) : (restoreImage q key s).lc.copies = s.lc.copies := (restoreImage_core q key s).1

@[simp] theorem restoreImage_life (q : Quorum) (key : List Byte) (s : State) : (restoreImage q key s).fv.life = s.fv.life := (restoreImage_core q key s).2.1

@[simp] theorem restoreImage_pending (q : Quorum) (key : List Byte) (s : State) : (restoreImage q key s).pending = s.pending := (restoreImage_core q key s).2.2

theorem quorumMet_core (q : Quorum) (s : State) : SameAll (quorumMet q s) s := by simp [quorumMet, SameAll]

@[simp] theorem quorumMet_copies (q : Quorum) (s : State) : (quorumMet q s).lc.copies = s.lc.copies := (quorumMet_core q s).1

@[simp] theorem quorumMet_life (q : Quorum) (s : State) : (quorumMet q s).fv.life = s.fv.life := (quorumMet_core q s).2.1

@[simp] theorem quorumMet_pending (q : Quorum) (s : State) : (quorumMet q s).pending = s.pending := (quorumMet_core q s).2.2

theorem noteAct_same (act cred : Nat) (s : State) : SameMem (noteAct act cred s) s := by simp [noteAct, SameMem]

@[simp] theorem noteAct_mem (act cred : Nat) (s : State) : (noteAct act cred s).mem = s.mem := noteAct_same act cred s

theorem beginAct_same (act cred : Nat) (s : State) : SameMem (beginAct act cred s) s := by simp [beginAct, SameMem]

@[simp] theorem beginAct_mem (act cred : Nat) (s : State) : (beginAct act cred s).mem = s.mem := beginAct_same act cred s

theorem enrolCustodians_same (es : List Custodian) (s : State) : SameMem (enrolCustodians es s) s := by simp [enrolCustodians, SameMem]

@[simp] theorem enrolCustodians_mem (es : List Custodian) (s : State) : (enrolCustodians es s).mem = s.mem := enrolCustodians_same es s

theorem keepSaddlebag_same (rec : Option (List Byte)) (s : State) : SameMem (keepSaddlebag rec s) s := by
  unfold keepSaddlebag
  split <;> simp [SameMem]

@[simp] theorem keepSaddlebag_mem (rec : Option (List Byte)) (s : State) : (keepSaddlebag rec s).mem = s.mem := keepSaddlebag_same rec s

theorem freshKey_same (s : State) : SameMem (freshKey s).2 s := by simp [freshKey, SameMem]

@[simp] theorem freshKey_mem (s : State) : (freshKey s).2.mem = s.mem := freshKey_same s

theorem drawCoeffs_same (x0 : Nat) (s : State) : SameMem (drawCoeffs x0 s).2 s := by
  fun_induction drawCoeffs x0 s
  all_goals (first | (simp [SameMem]; done) | (simp_all [SameMem]; done) | grind [SameMem, custodyBytes_same])

@[simp] theorem drawCoeffs_mem (x0 : Nat) (s : State) : (drawCoeffs x0 s).2.mem = s.mem := drawCoeffs_same x0 s

theorem splitJob_same (act : Nat) (key : List Byte) (m n : Nat) (places : List Nat) (s : State) : SameMem (splitJob act key m n places s) s := by simp [splitJob, SameMem]

@[simp] theorem splitJob_mem (act : Nat) (key : List Byte) (m n : Nat) (places : List Nat) (s : State) : (splitJob act key m n places s).mem = s.mem := splitJob_same act key m n places s

theorem finishJob_same (j : QuorumJob) (s : State) : SameMem (finishJob j s) s := by simp [finishJob, SameMem]

@[simp] theorem finishJob_mem (j : QuorumJob) (s : State) : (finishJob j s).mem = s.mem := finishJob_same j s

theorem openWrite_same (j : QuorumJob) (a : Action) (rest : List Action) (s : State) : SameMem (openWrite j a rest s) s := by
  unfold openWrite
  split <;> simp [SameMem]

@[simp] theorem openWrite_mem (j : QuorumJob) (a : Action) (rest : List Action) (s : State) : (openWrite j a rest s).mem = s.mem := openWrite_same j a rest s

theorem quorumBoundary_same (s : State) : SameMem (quorumBoundary s) s := by
  unfold quorumBoundary
  try dsimp only
  repeat' split
  all_goals simp [SameMem]

@[simp] theorem quorumBoundary_mem (s : State) : (quorumBoundary s).mem = s.mem := quorumBoundary_same s

theorem endQuorum_same (s : State) : SameMem (endQuorum s) s := rfl

@[simp] theorem endQuorum_mem (s : State) : (endQuorum s).mem = s.mem := endQuorum_same s

theorem openQuorum_same (act cred m n kid addr : Nat) (next : Nat × Nat) (places : List Nat) (record image : List Byte) (s : State) : SameMem (openQuorum act cred m n kid addr next places record image s) s := by simp [openQuorum, SameMem]

@[simp] theorem openQuorum_mem (act cred m n kid addr : Nat) (next : Nat × Nat) (places : List Nat) (record image : List Byte) (s : State) : (openQuorum act cred m n kid addr next places record image s).mem = s.mem := openQuorum_same act cred m n kid addr next places record image s

theorem restoreOne_same (key : List Byte) (gen : Nat) (st : List Byte × List Byte × Nat × State) :
    SameMem (restoreOne key gen st).2.2.2 st.2.2.2 := by
  obtain ⟨rest, pairs, i, s⟩ := st
  unfold restoreOne
  dsimp only
  repeat' split
  all_goals (simp [SameMem])

theorem restoreFold_same (key : List Byte) (gen : Nat) (l : List Nat) (st : List Byte × List Byte × Nat × State) :
    SameMem (l.foldl (fun st _ => restoreOne key gen st) st).2.2.2 st.2.2.2 := by
  induction l generalizing st with
  | nil => exact SameMem.refl _
  | cons x xs ih => exact (ih _).trans (restoreOne_same key gen st)

theorem restoreImage_wf (q : Quorum) (key : List Byte) (s : State) : KeepMem (restoreImage q key s) s := by
  unfold restoreImage
  extract_lets gen ends n
  have he : ∀ k t, KeepMem (ends k t) t := fun _ _ => KeepMem.of_eq rfl
  clear_value ends
  split
  · exact he ..
  · exact (he ..).trans (KeepMem.trans (busWrite_wf ..) (KeepMem.of_same (restoreFold_same ..)))

theorem quorumMet_wf (q : Quorum) (s : State) : KeepMem (quorumMet q s) s := by
  unfold quorumMet
  try dsimp only
  iterate 8 all_goals (try first | with_reducible exact KeepMem.refl _ | assumption | split | with_reducible refine KeepMem.trans (restoreImage_wf ..) ?_ | with_reducible refine KeepMem.trans (KeepMem.of_eq (setEvent_mem ..)) ?_ | with_reducible refine KeepMem.trans (KeepMem.of_eq (keepSaddlebag_mem ..)) ?_ | with_reducible refine KeepMem.trans (KeepMem.of_eq (splitJob_mem ..)) ?_ | with_reducible refine KeepMem.trans (KeepMem.of_eq (quorumBoundary_mem ..)) ?_ | with_reducible refine KeepMem.trans (KeepMem.of_eq (endQuorum_mem ..)) ?_)

end Sys2Proof.Machine
end

