-- ==== Sys2Proof/Laws/KeptSubmit.lean ====
section
/-! SUPPORT. What each operation of Machine/Submit.lean keeps: the fuses, the life counters, the queue, and memory or its form. -/

namespace Sys2Proof.Machine

theorem hostCancel_core (fn q seq : Nat) (s : State) : SameAll (hostCancel fn q seq s) s := ⟨rfl, rfl, rfl⟩

@[simp] theorem hostCancel_copies (fn q seq : Nat) (s : State) : (hostCancel fn q seq s).lc.copies = s.lc.copies := (hostCancel_core fn q seq s).1

@[simp] theorem hostCancel_life (fn q seq : Nat) (s : State) : (hostCancel fn q seq s).fv.life = s.fv.life := (hostCancel_core fn q seq s).2.1

@[simp] theorem hostCancel_pending (fn q seq : Nat) (s : State) : (hostCancel fn q seq s).pending = s.pending := (hostCancel_core fn q seq s).2.2

theorem cancelEffect_core (fn tq ts : Nat) (s : State) : SameAll (cancelEffect fn tq ts s).2 s := by
  unfold cancelEffect
  try dsimp only
  repeat' split
  all_goals simp [SameAll]

@[simp] theorem cancelEffect_copies (fn tq ts : Nat) (s : State) : (cancelEffect fn tq ts s).2.lc.copies = s.lc.copies := (cancelEffect_core fn tq ts s).1

@[simp] theorem cancelEffect_life (fn tq ts : Nat) (s : State) : (cancelEffect fn tq ts s).2.fv.life = s.fv.life := (cancelEffect_core fn tq ts s).2.1

@[simp] theorem cancelEffect_pending (fn tq ts : Nat) (s : State) : (cancelEffect fn tq ts s).2.pending = s.pending := (cancelEffect_core fn tq ts s).2.2

theorem control_core (fn q seq : Nat) (b : List Byte) (s : State) : SameAll (control fn q seq b s) s := by simp [control, SameAll]

@[simp] theorem control_copies (fn q seq : Nat) (b : List Byte) (s : State) : (control fn q seq b s).lc.copies = s.lc.copies := (control_core fn q seq b s).1

@[simp] theorem control_life (fn q seq : Nat) (b : List Byte) (s : State) : (control fn q seq b s).fv.life = s.fv.life := (control_core fn q seq b s).2.1

@[simp] theorem control_pending (fn q seq : Nat) (b : List Byte) (s : State) : (control fn q seq b s).pending = s.pending := (control_core fn q seq b s).2.2

theorem fwEnter_core (fn q seq : Nat) (d : List Byte) (s : State) : SameAll (fwEnter fn q seq d s) s := by simp [fwEnter, SameAll]

@[simp] theorem fwEnter_copies (fn q seq : Nat) (d : List Byte) (s : State) : (fwEnter fn q seq d s).lc.copies = s.lc.copies := (fwEnter_core fn q seq d s).1

@[simp] theorem fwEnter_life (fn q seq : Nat) (d : List Byte) (s : State) : (fwEnter fn q seq d s).fv.life = s.fv.life := (fwEnter_core fn q seq d s).2.1

@[simp] theorem fwEnter_pending (fn q seq : Nat) (d : List Byte) (s : State) : (fwEnter fn q seq d s).pending = s.pending := (fwEnter_core fn q seq d s).2.2

theorem handOver_core (fn q seq : Nat) (d : List Byte) (s : State) : SameAll (handOver fn q seq d s).2 s := by
  unfold handOver
  split <;> simp [SameAll]

@[simp] theorem handOver_copies (fn q seq : Nat) (d : List Byte) (s : State) : (handOver fn q seq d s).2.lc.copies = s.lc.copies := (handOver_core fn q seq d s).1

@[simp] theorem handOver_life (fn q seq : Nat) (d : List Byte) (s : State) : (handOver fn q seq d s).2.fv.life = s.fv.life := (handOver_core fn q seq d s).2.1

@[simp] theorem handOver_pending (fn q seq : Nat) (d : List Byte) (s : State) : (handOver fn q seq d s).2.pending = s.pending := (handOver_core fn q seq d s).2.2

theorem takeDescriptor_core (fn q seq cid cls : Nat) (s : State) : SameAll (takeDescriptor fn q seq cid cls s) s := ⟨rfl, rfl, rfl⟩

@[simp] theorem takeDescriptor_copies (fn q seq cid cls : Nat) (s : State) : (takeDescriptor fn q seq cid cls s).lc.copies = s.lc.copies := (takeDescriptor_core fn q seq cid cls s).1

@[simp] theorem takeDescriptor_life (fn q seq cid cls : Nat) (s : State) : (takeDescriptor fn q seq cid cls s).fv.life = s.fv.life := (takeDescriptor_core fn q seq cid cls s).2.1

@[simp] theorem takeDescriptor_pending (fn q seq cid cls : Nat) (s : State) : (takeDescriptor fn q seq cid cls s).pending = s.pending := (takeDescriptor_core fn q seq cid cls s).2.2

theorem refuseDescriptor_core (fn q seq : Nat) (d : List Byte) (status : Nat) (s : State) : SameAll (refuseDescriptor fn q seq d status s) s := ⟨rfl, rfl, rfl⟩

@[simp] theorem refuseDescriptor_copies (fn q seq : Nat) (d : List Byte) (status : Nat) (s : State) : (refuseDescriptor fn q seq d status s).lc.copies = s.lc.copies := (refuseDescriptor_core fn q seq d status s).1

@[simp] theorem refuseDescriptor_life (fn q seq : Nat) (d : List Byte) (status : Nat) (s : State) : (refuseDescriptor fn q seq d status s).fv.life = s.fv.life := (refuseDescriptor_core fn q seq d status s).2.1

@[simp] theorem refuseDescriptor_pending (fn q seq : Nat) (d : List Byte) (status : Nat) (s : State) : (refuseDescriptor fn q seq d status s).pending = s.pending := (refuseDescriptor_core fn q seq d status s).2.2

theorem tryHead_core (fn q : Nat) (s : State) : SameAll (tryHead fn q s).2 s := by
  unfold tryHead
  try dsimp only
  repeat' split
  all_goals simp [SameAll]

@[simp] theorem tryHead_copies (fn q : Nat) (s : State) : (tryHead fn q s).2.lc.copies = s.lc.copies := (tryHead_core fn q s).1

@[simp] theorem tryHead_life (fn q : Nat) (s : State) : (tryHead fn q s).2.fv.life = s.fv.life := (tryHead_core fn q s).2.1

@[simp] theorem tryHead_pending (fn q : Nat) (s : State) : (tryHead fn q s).2.pending = s.pending := (tryHead_core fn q s).2.2

theorem admitFrom_core (fn q : Nat) (s : State) : SameAll (admitFrom fn q s) s := by simp [admitFrom, SameAll]

@[simp] theorem admitFrom_copies (fn q : Nat) (s : State) : (admitFrom fn q s).lc.copies = s.lc.copies := (admitFrom_core fn q s).1

@[simp] theorem admitFrom_life (fn q : Nat) (s : State) : (admitFrom fn q s).fv.life = s.fv.life := (admitFrom_core fn q s).2.1

@[simp] theorem admitFrom_pending (fn q : Nat) (s : State) : (admitFrom fn q s).pending = s.pending := (admitFrom_core fn q s).2.2

theorem admitIf_core (cls : Nat) (op : List Byte → Bool) (fn q seq : Nat) (s : State) : SameAll (admitIf cls op fn q seq s) s := by
  unfold admitIf
  split <;> simp [SameAll]

@[simp] theorem admitIf_copies (cls : Nat) (op : List Byte → Bool) (fn q seq : Nat) (s : State) : (admitIf cls op fn q seq s).lc.copies = s.lc.copies := (admitIf_core cls op fn q seq s).1

@[simp] theorem admitIf_life (cls : Nat) (op : List Byte → Bool) (fn q seq : Nat) (s : State) : (admitIf cls op fn q seq s).fv.life = s.fv.life := (admitIf_core cls op fn q seq s).2.1

@[simp] theorem admitIf_pending (cls : Nat) (op : List Byte → Bool) (fn q seq : Nat) (s : State) : (admitIf cls op fn q seq s).pending = s.pending := (admitIf_core cls op fn q seq s).2.2

theorem submitBy_core (u cls : Nat) (op : List Byte → Bool) (src : Src) (s : State) : SameAll (submitBy u cls op src s) s := by
  unfold submitBy
  split <;> simp [SameAll]

@[simp] theorem submitBy_copies (u cls : Nat) (op : List Byte → Bool) (src : Src) (s : State) : (submitBy u cls op src s).lc.copies = s.lc.copies := (submitBy_core u cls op src s).1

@[simp] theorem submitBy_life (u cls : Nat) (op : List Byte → Bool) (src : Src) (s : State) : (submitBy u cls op src s).fv.life = s.fv.life := (submitBy_core u cls op src s).2.1

@[simp] theorem submitBy_pending (u cls : Nat) (op : List Byte → Bool) (src : Src) (s : State) : (submitBy u cls op src s).pending = s.pending := (submitBy_core u cls op src s).2.2

theorem cinchBy_core (opc : Nat) (src : Src) (s : State) : SameAll (cinchBy opc src s) s := by
  unfold cinchBy
  split <;> simp [SameAll]

@[simp] theorem cinchBy_copies (opc : Nat) (src : Src) (s : State) : (cinchBy opc src s).lc.copies = s.lc.copies := (cinchBy_core opc src s).1

@[simp] theorem cinchBy_life (opc : Nat) (src : Src) (s : State) : (cinchBy opc src s).fv.life = s.fv.life := (cinchBy_core opc src s).2.1

@[simp] theorem cinchBy_pending (opc : Nat) (src : Src) (s : State) : (cinchBy opc src s).pending = s.pending := (cinchBy_core opc src s).2.2

theorem hostCancel_same (fn q seq : Nat) (s : State) : SameMem (hostCancel fn q seq s) s := rfl

@[simp] theorem hostCancel_mem (fn q seq : Nat) (s : State) : (hostCancel fn q seq s).mem = s.mem := hostCancel_same fn q seq s

theorem cancelEffect_same (fn tq ts : Nat) (s : State) : SameMem (cancelEffect fn tq ts s).2 s := by
  unfold cancelEffect
  try dsimp only
  repeat' split
  all_goals simp [SameMem]

@[simp] theorem cancelEffect_mem (fn tq ts : Nat) (s : State) : (cancelEffect fn tq ts s).2.mem = s.mem := cancelEffect_same fn tq ts s

theorem control_same (fn q seq : Nat) (b : List Byte) (s : State) : SameMem (control fn q seq b s) s := by simp [control, SameMem]

@[simp] theorem control_mem (fn q seq : Nat) (b : List Byte) (s : State) : (control fn q seq b s).mem = s.mem := control_same fn q seq b s

theorem fwEnter_same (fn q seq : Nat) (d : List Byte) (s : State) : SameMem (fwEnter fn q seq d s) s := by simp [fwEnter, SameMem]

@[simp] theorem fwEnter_mem (fn q seq : Nat) (d : List Byte) (s : State) : (fwEnter fn q seq d s).mem = s.mem := fwEnter_same fn q seq d s

theorem handOver_wf (fn q seq : Nat) (d : List Byte) (s : State) : KeepMem (handOver fn q seq d s).2 s := by
  unfold handOver
  try dsimp only
  iterate 8 all_goals (try first | with_reducible exact KeepMem.refl _ | assumption | split | with_reducible refine KeepMem.trans (stallSubmit_wf ..) ?_ | with_reducible refine KeepMem.trans (tackSubmit_wf ..) ?_ | with_reducible refine KeepMem.trans (KeepMem.of_eq (cipherSubmit_mem ..)) ?_ | with_reducible refine KeepMem.trans (KeepMem.of_eq (pkeSubmit_mem ..)) ?_ | with_reducible refine KeepMem.trans (KeepMem.of_eq (control_mem ..)) ?_ | with_reducible refine KeepMem.trans (KeepMem.of_eq (fwEnter_mem ..)) ?_)

theorem takeDescriptor_same (fn q seq cid cls : Nat) (s : State) : SameMem (takeDescriptor fn q seq cid cls s) s := rfl

@[simp] theorem takeDescriptor_mem (fn q seq cid cls : Nat) (s : State) : (takeDescriptor fn q seq cid cls s).mem = s.mem := takeDescriptor_same fn q seq cid cls s

theorem refuseDescriptor_same (fn q seq : Nat) (d : List Byte) (status : Nat) (s : State) : SameMem (refuseDescriptor fn q seq d status s) s := rfl

@[simp] theorem refuseDescriptor_mem (fn q seq : Nat) (d : List Byte) (status : Nat) (s : State) : (refuseDescriptor fn q seq d status s).mem = s.mem := refuseDescriptor_same fn q seq d status s

theorem tryHead_wf (fn q : Nat) (s : State) : KeepMem (tryHead fn q s).2 s := by
  unfold tryHead
  try dsimp only
  iterate 30 all_goals (try first | with_reducible exact KeepMem.refl _ | assumption | split | with_reducible refine KeepMem.trans (handOver_wf ..) ?_ | with_reducible refine KeepMem.trans (KeepMem.of_eq (setEvent_mem ..)) ?_ | with_reducible refine KeepMem.trans (KeepMem.of_eq (queueError_mem ..)) ?_ | with_reducible refine KeepMem.trans (KeepMem.of_eq (takeDescriptor_mem ..)) ?_ | with_reducible refine KeepMem.trans (KeepMem.of_eq (refuseDescriptor_mem ..)) ?_)

theorem admitFrom_wf (fn q : Nat) (s : State) : KeepMem (admitFrom fn q s) s := by
  unfold admitFrom
  try dsimp only
  iterate 8 all_goals (try first | with_reducible exact KeepMem.refl _ | assumption | split | with_reducible refine KeepMem.trans (tryHead_wf ..) ?_)

theorem admitIf_wf (cls : Nat) (op : List Byte → Bool) (fn q seq : Nat) (s : State) : KeepMem (admitIf cls op fn q seq s) s := by
  unfold admitIf
  try dsimp only
  iterate 8 all_goals (try first | with_reducible exact KeepMem.refl _ | assumption | split | with_reducible refine KeepMem.trans (admitFrom_wf ..) ?_)

theorem submitBy_wf (u cls : Nat) (op : List Byte → Bool) (src : Src) (s : State) : KeepMem (submitBy u cls op src s) s := by
  unfold submitBy
  try dsimp only
  iterate 8 all_goals (try first | with_reducible exact KeepMem.refl _ | assumption | split | with_reducible refine KeepMem.trans (winGo_wf ..) ?_ | with_reducible refine KeepMem.trans (admitIf_wf ..) ?_)

theorem cinchBy_wf (opc : Nat) (src : Src) (s : State) : KeepMem (cinchBy opc src s) s := by
  unfold cinchBy
  try dsimp only
  iterate 8 all_goals (try first | with_reducible exact KeepMem.refl _ | assumption | split | with_reducible refine KeepMem.trans (winGo_wf ..) ?_)

end Sys2Proof.Machine
end

