-- ==== Sys2Proof/Laws/KeptCsr.lean ====
section
/-! SUPPORT. What each operation of Machine/Csr.lean keeps: the fuses, the life counters, the queue, and memory or its form. -/

namespace Sys2Proof.Machine

theorem onLow_core (p : Put) (f : W32 → State → State) (s : State) (h : ∀ v t, SameAll (f v t) t) : SameAll (onLow p f s) s := by
  unfold onLow
  split
  · exact h _ _
  · exact SameAll.refl _

@[simp] theorem onLow_copies (p : Put) (f : W32 → State → State) (s : State) (h : ∀ v t, (f v t).lc.copies = t.lc.copies) : (onLow p f s).lc.copies = s.lc.copies := by
  unfold onLow
  split
  · exact h _ _
  · rfl

@[simp] theorem onLow_life (p : Put) (f : W32 → State → State) (s : State) (h : ∀ v t, (f v t).fv.life = t.fv.life) : (onLow p f s).fv.life = s.fv.life := by
  unfold onLow
  split
  · exact h _ _
  · rfl

@[simp] theorem onLow_pending (p : Put) (f : W32 → State → State) (s : State) (h : ∀ v t, (f v t).pending = t.pending) : (onLow p f s).pending = s.pending := by
  unfold onLow
  split
  · exact h _ _
  · rfl

theorem onHigh_core (p : Put) (f : W32 → State → State) (s : State) (h : ∀ v t, SameAll (f v t) t) : SameAll (onHigh p f s) s := by
  unfold onHigh
  split
  · exact h _ _
  · exact SameAll.refl _

@[simp] theorem onHigh_copies (p : Put) (f : W32 → State → State) (s : State) (h : ∀ v t, (f v t).lc.copies = t.lc.copies) : (onHigh p f s).lc.copies = s.lc.copies := by
  unfold onHigh
  split
  · exact h _ _
  · rfl

@[simp] theorem onHigh_life (p : Put) (f : W32 → State → State) (s : State) (h : ∀ v t, (f v t).fv.life = t.fv.life) : (onHigh p f s).fv.life = s.fv.life := by
  unfold onHigh
  split
  · exact h _ _
  · rfl

@[simp] theorem onHigh_pending (p : Put) (f : W32 → State → State) (s : State) (h : ∀ v t, (f v t).pending = t.pending) : (onHigh p f s).pending = s.pending := by
  unfold onHigh
  split
  · exact h _ _
  · rfl

theorem winRead_core (lo : Bool) (u c w : Nat) (f : Field) (s : State) : SameAll (winRead lo u c w f s).2 s := by
  unfold winRead
  try dsimp only
  repeat' split
  all_goals (first | (simp [SameAll]; done) | exact ⟨rfl, rfl, rfl⟩ | (simp_all [SameAll]; done) | grind [SameAll] | (simp [SameAll]; grind [SameAll]) | (simp +zetaDelta [SameAll]; done) | ((try dsimp only); (repeat' (first | (exact SameAll.refl _) | assumption | (simp [SameAll]; done) | split | with_reducible refine SameAll.trans (updWin_core ..) ?_ | with_reducible refine SameAll.trans (SameAll.foldl (fun _ _ => ?_) _ _) ?_ | with_reducible refine SameAll.trans (SameAll.foldr (fun _ _ => ?_) _ _) ?_ | with_reducible refine SameAll.trans ⟨rfl, rfl, rfl⟩ ?_)); done) | (refine SameAll.foldl ?_ _ _; intro st x; (try dsimp only); (repeat' split); all_goals (first | (simp [SameAll]; done) | (simp_all [SameAll]; done) | grind [SameAll])))

@[simp] theorem winRead_copies (lo : Bool) (u c w : Nat) (f : Field) (s : State) : (winRead lo u c w f s).2.lc.copies = s.lc.copies := (winRead_core lo u c w f s).1

@[simp] theorem winRead_life (lo : Bool) (u c w : Nat) (f : Field) (s : State) : (winRead lo u c w f s).2.fv.life = s.fv.life := (winRead_core lo u c w f s).2.1

@[simp] theorem winRead_pending (lo : Bool) (u c w : Nat) (f : Field) (s : State) : (winRead lo u c w f s).2.pending = s.pending := (winRead_core lo u c w f s).2.2

theorem winPut_core (u c w : Nat) (f : Win → Win) (s : State) : SameAll (winPut u c w f s) s := by
  unfold winPut
  try dsimp only
  repeat' split
  all_goals (first | (simp [SameAll]; done) | exact ⟨rfl, rfl, rfl⟩ | (simp_all [SameAll]; done) | grind [SameAll] | (simp [SameAll]; grind [SameAll]) | (simp +zetaDelta [SameAll]; done) | ((try dsimp only); (repeat' (first | (exact SameAll.refl _) | assumption | (simp [SameAll]; done) | split | with_reducible refine SameAll.trans (updWin_core ..) ?_ | with_reducible refine SameAll.trans (SameAll.foldl (fun _ _ => ?_) _ _) ?_ | with_reducible refine SameAll.trans (SameAll.foldr (fun _ _ => ?_) _ _) ?_ | with_reducible refine SameAll.trans ⟨rfl, rfl, rfl⟩ ?_)); done) | (refine SameAll.foldl ?_ _ _; intro st x; (try dsimp only); (repeat' split); all_goals (first | (simp [SameAll]; done) | (simp_all [SameAll]; done) | grind [SameAll])))

@[simp] theorem winPut_copies (u c w : Nat) (f : Win → Win) (s : State) : (winPut u c w f s).lc.copies = s.lc.copies := (winPut_core u c w f s).1

@[simp] theorem winPut_life (u c w : Nat) (f : Win → Win) (s : State) : (winPut u c w f s).fv.life = s.fv.life := (winPut_core u c w f s).2.1

@[simp] theorem winPut_pending (u c w : Nat) (f : Win → Win) (s : State) : (winPut u c w f s).pending = s.pending := (winPut_core u c w f s).2.2

theorem winWrite_core (u c w : Nat) (f : Field) (p : Put) (s : State) : SameAll (winWrite u c w f p s) s := by
  unfold winWrite
  try dsimp only
  repeat' split
  all_goals (first | (simp [SameAll]; done) | exact ⟨rfl, rfl, rfl⟩ | (simp_all [SameAll]; done) | grind [SameAll] | (simp [SameAll]; grind [SameAll]) | (simp +zetaDelta [SameAll]; done) | ((try dsimp only); (repeat' (first | (exact SameAll.refl _) | assumption | (simp [SameAll]; done) | split | with_reducible refine SameAll.trans (updWin_core ..) ?_ | with_reducible refine SameAll.trans (winGo_core ..) ?_ | with_reducible refine SameAll.trans (winPut_core ..) ?_ | with_reducible refine SameAll.trans (SameAll.foldl (fun _ _ => ?_) _ _) ?_ | with_reducible refine SameAll.trans (SameAll.foldr (fun _ _ => ?_) _ _) ?_ | with_reducible refine SameAll.trans ⟨rfl, rfl, rfl⟩ ?_)); done) | (refine SameAll.foldl ?_ _ _; intro st x; (try dsimp only); (repeat' split); all_goals (first | (simp [SameAll]; done) | (simp_all [SameAll]; done) | grind [SameAll])))

@[simp] theorem winWrite_copies (u c w : Nat) (f : Field) (p : Put) (s : State) : (winWrite u c w f p s).lc.copies = s.lc.copies := (winWrite_core u c w f p s).1

@[simp] theorem winWrite_life (u c w : Nat) (f : Field) (p : Put) (s : State) : (winWrite u c w f p s).fv.life = s.fv.life := (winWrite_core u c w f p s).2.1

@[simp] theorem winWrite_pending (u c w : Nat) (f : Field) (p : Put) (s : State) : (winWrite u c w f p s).pending = s.pending := (winWrite_core u c w f p s).2.2

theorem winsRead_core (who : Who) (lo : Bool) (u o : Nat) (s : State) : SameAll (winsRead who lo u o s).2 s := by
  unfold winsRead
  try dsimp only
  repeat' split
  all_goals (first | (simp [SameAll]; done) | exact ⟨rfl, rfl, rfl⟩ | (simp_all [SameAll]; done) | grind [SameAll, winRead_core] | (simp [SameAll]; grind [SameAll, winRead_core]) | (simp +zetaDelta [SameAll]; done) | ((try dsimp only); (repeat' (first | (exact SameAll.refl _) | assumption | (simp [SameAll]; done) | split | with_reducible refine SameAll.trans (winRead_core ..) ?_ | with_reducible refine SameAll.trans (SameAll.foldl (fun _ _ => ?_) _ _) ?_ | with_reducible refine SameAll.trans (SameAll.foldr (fun _ _ => ?_) _ _) ?_ | with_reducible refine SameAll.trans ⟨rfl, rfl, rfl⟩ ?_)); done) | (refine SameAll.foldl ?_ _ _; intro st x; (try dsimp only); (repeat' split); all_goals (first | (simp [SameAll]; done) | (simp_all [SameAll]; done) | grind [SameAll, winRead_core])))

@[simp] theorem winsRead_copies (who : Who) (lo : Bool) (u o : Nat) (s : State) : (winsRead who lo u o s).2.lc.copies = s.lc.copies := (winsRead_core who lo u o s).1

@[simp] theorem winsRead_life (who : Who) (lo : Bool) (u o : Nat) (s : State) : (winsRead who lo u o s).2.fv.life = s.fv.life := (winsRead_core who lo u o s).2.1

@[simp] theorem winsRead_pending (who : Who) (lo : Bool) (u o : Nat) (s : State) : (winsRead who lo u o s).2.pending = s.pending := (winsRead_core who lo u o s).2.2

theorem winsWrite_core (who : Who) (u o : Nat) (p : Put) (s : State) : SameAll (winsWrite who u o p s) s := by
  unfold winsWrite
  try dsimp only
  repeat' split
  all_goals (first | (simp [SameAll]; done) | exact ⟨rfl, rfl, rfl⟩ | (simp_all [SameAll]; done) | grind [SameAll] | (simp [SameAll]; grind [SameAll]) | (simp +zetaDelta [SameAll]; done) | ((try dsimp only); (repeat' (first | (exact SameAll.refl _) | assumption | (simp [SameAll]; done) | split | with_reducible refine SameAll.trans (winWrite_core ..) ?_ | with_reducible refine SameAll.trans (SameAll.foldl (fun _ _ => ?_) _ _) ?_ | with_reducible refine SameAll.trans (SameAll.foldr (fun _ _ => ?_) _ _) ?_ | with_reducible refine SameAll.trans ⟨rfl, rfl, rfl⟩ ?_)); done) | (refine SameAll.foldl ?_ _ _; intro st x; (try dsimp only); (repeat' split); all_goals (first | (simp [SameAll]; done) | (simp_all [SameAll]; done) | grind [SameAll])))

@[simp] theorem winsWrite_copies (who : Who) (u o : Nat) (p : Put) (s : State) : (winsWrite who u o p s).lc.copies = s.lc.copies := (winsWrite_core who u o p s).1

@[simp] theorem winsWrite_life (who : Who) (u o : Nat) (p : Put) (s : State) : (winsWrite who u o p s).fv.life = s.fv.life := (winsWrite_core who u o p s).2.1

@[simp] theorem winsWrite_pending (who : Who) (u o : Nat) (p : Put) (s : State) : (winsWrite who u o p s).pending = s.pending := (winsWrite_core who u o p s).2.2

theorem updCvWin_core (c : Nat) (f : Win → Win) (s : State) : SameAll (updCvWin c f s) s := by
  unfold updCvWin
  try dsimp only
  repeat' split
  all_goals (first | (simp [SameAll]; done) | exact ⟨rfl, rfl, rfl⟩ | (simp_all [SameAll]; done) | grind [SameAll] | (simp [SameAll]; grind [SameAll]) | (simp +zetaDelta [SameAll]; done) | ((try dsimp only); (repeat' (first | (exact SameAll.refl _) | assumption | (simp [SameAll]; done) | split | with_reducible refine SameAll.trans (SameAll.foldl (fun _ _ => ?_) _ _) ?_ | with_reducible refine SameAll.trans (SameAll.foldr (fun _ _ => ?_) _ _) ?_ | with_reducible refine SameAll.trans ⟨rfl, rfl, rfl⟩ ?_)); done) | (refine SameAll.foldl ?_ _ _; intro st x; (try dsimp only); (repeat' split); all_goals (first | (simp [SameAll]; done) | (simp_all [SameAll]; done) | grind [SameAll])))

@[simp] theorem updCvWin_copies (c : Nat) (f : Win → Win) (s : State) : (updCvWin c f s).lc.copies = s.lc.copies := (updCvWin_core c f s).1

@[simp] theorem updCvWin_life (c : Nat) (f : Win → Win) (s : State) : (updCvWin c f s).fv.life = s.fv.life := (updCvWin_core c f s).2.1

@[simp] theorem updCvWin_pending (c : Nat) (f : Win → Win) (s : State) : (updCvWin c f s).pending = s.pending := (updCvWin_core c f s).2.2

theorem cvWinRead_core (who : Who) (lo : Bool) (o : Nat) (s : State) : SameAll (cvWinRead who lo o s).2 s := by
  unfold cvWinRead
  try dsimp only
  repeat' split
  all_goals (first | (simp [SameAll]; done) | exact ⟨rfl, rfl, rfl⟩ | (simp_all [SameAll]; done) | grind [SameAll] | (simp [SameAll]; grind [SameAll]) | (simp +zetaDelta [SameAll]; done) | ((try dsimp only); (repeat' (first | (exact SameAll.refl _) | assumption | (simp [SameAll]; done) | split | with_reducible refine SameAll.trans (updCvWin_core ..) ?_ | with_reducible refine SameAll.trans (SameAll.foldl (fun _ _ => ?_) _ _) ?_ | with_reducible refine SameAll.trans (SameAll.foldr (fun _ _ => ?_) _ _) ?_ | with_reducible refine SameAll.trans ⟨rfl, rfl, rfl⟩ ?_)); done) | (refine SameAll.foldl ?_ _ _; intro st x; (try dsimp only); (repeat' split); all_goals (first | (simp [SameAll]; done) | (simp_all [SameAll]; done) | grind [SameAll])))

@[simp] theorem cvWinRead_copies (who : Who) (lo : Bool) (o : Nat) (s : State) : (cvWinRead who lo o s).2.lc.copies = s.lc.copies := (cvWinRead_core who lo o s).1

@[simp] theorem cvWinRead_life (who : Who) (lo : Bool) (o : Nat) (s : State) : (cvWinRead who lo o s).2.fv.life = s.fv.life := (cvWinRead_core who lo o s).2.1

@[simp] theorem cvWinRead_pending (who : Who) (lo : Bool) (o : Nat) (s : State) : (cvWinRead who lo o s).2.pending = s.pending := (cvWinRead_core who lo o s).2.2

theorem cvWinWrite_core (who : Who) (o : Nat) (p : Put) (s : State) : SameAll (cvWinWrite who o p s) s := by
  unfold cvWinWrite
  try dsimp only
  repeat' split
  all_goals (first | (simp [SameAll]; done) | exact ⟨rfl, rfl, rfl⟩ | (simp_all [SameAll]; done) | grind [SameAll] | (simp [SameAll]; grind [SameAll]) | (simp +zetaDelta [SameAll]; done) | ((try dsimp only); (repeat' (first | (exact SameAll.refl _) | assumption | (simp [SameAll]; done) | split | with_reducible refine SameAll.trans (cvGo_core ..) ?_ | with_reducible refine SameAll.trans (updCvWin_core ..) ?_ | with_reducible refine SameAll.trans (SameAll.foldl (fun _ _ => ?_) _ _) ?_ | with_reducible refine SameAll.trans (SameAll.foldr (fun _ _ => ?_) _ _) ?_ | with_reducible refine SameAll.trans ⟨rfl, rfl, rfl⟩ ?_)); done) | (refine SameAll.foldl ?_ _ _; intro st x; (try dsimp only); (repeat' split); all_goals (first | (simp [SameAll]; done) | (simp_all [SameAll]; done) | grind [SameAll])))

@[simp] theorem cvWinWrite_copies (who : Who) (o : Nat) (p : Put) (s : State) : (cvWinWrite who o p s).lc.copies = s.lc.copies := (cvWinWrite_core who o p s).1

@[simp] theorem cvWinWrite_life (who : Who) (o : Nat) (p : Put) (s : State) : (cvWinWrite who o p s).fv.life = s.fv.life := (cvWinWrite_core who o p s).2.1

@[simp] theorem cvWinWrite_pending (who : Who) (o : Nat) (p : Put) (s : State) : (cvWinWrite who o p s).pending = s.pending := (cvWinWrite_core who o p s).2.2

theorem exRead_core (who : Who) (lo : Bool) (k i : Nat) (s : State) : SameAll (exRead who lo k i s).2 s := by
  unfold exRead
  try dsimp only
  repeat' split
  all_goals (first | (simp [SameAll]; done) | exact ⟨rfl, rfl, rfl⟩ | (simp_all [SameAll]; done) | grind [SameAll] | (simp [SameAll]; grind [SameAll]) | (simp +zetaDelta [SameAll]; done) | ((try dsimp only); (repeat' (first | (exact SameAll.refl _) | assumption | (simp [SameAll]; done) | split | with_reducible refine SameAll.trans (updEx_core ..) ?_ | with_reducible refine SameAll.trans (SameAll.foldl (fun _ _ => ?_) _ _) ?_ | with_reducible refine SameAll.trans (SameAll.foldr (fun _ _ => ?_) _ _) ?_ | with_reducible refine SameAll.trans ⟨rfl, rfl, rfl⟩ ?_)); done) | (refine SameAll.foldl ?_ _ _; intro st x; (try dsimp only); (repeat' split); all_goals (first | (simp [SameAll]; done) | (simp_all [SameAll]; done) | grind [SameAll])))

@[simp] theorem exRead_copies (who : Who) (lo : Bool) (k i : Nat) (s : State) : (exRead who lo k i s).2.lc.copies = s.lc.copies := (exRead_core who lo k i s).1

@[simp] theorem exRead_life (who : Who) (lo : Bool) (k i : Nat) (s : State) : (exRead who lo k i s).2.fv.life = s.fv.life := (exRead_core who lo k i s).2.1

@[simp] theorem exRead_pending (who : Who) (lo : Bool) (k i : Nat) (s : State) : (exRead who lo k i s).2.pending = s.pending := (exRead_core who lo k i s).2.2

theorem exWrite_core (who : Who) (k i : Nat) (p : Put) (s : State) : SameAll (exWrite who k i p s) s := by
  unfold exWrite
  try dsimp only
  repeat' split
  all_goals (first | (simp [SameAll]; done) | exact ⟨rfl, rfl, rfl⟩ | (simp_all [SameAll]; done) | grind [SameAll] | (simp [SameAll]; grind [SameAll]) | (simp +zetaDelta [SameAll]; done) | ((try dsimp only); (repeat' (first | (exact SameAll.refl _) | assumption | (simp [SameAll]; done) | split | with_reducible refine SameAll.trans (updEx_core ..) ?_ | with_reducible refine SameAll.trans (exGo_core ..) ?_ | with_reducible refine SameAll.trans (SameAll.foldl (fun _ _ => ?_) _ _) ?_ | with_reducible refine SameAll.trans (SameAll.foldr (fun _ _ => ?_) _ _) ?_ | with_reducible refine SameAll.trans ⟨rfl, rfl, rfl⟩ ?_)); done) | (refine SameAll.foldl ?_ _ _; intro st x; (try dsimp only); (repeat' split); all_goals (first | (simp [SameAll]; done) | (simp_all [SameAll]; done) | grind [SameAll])))

@[simp] theorem exWrite_copies (who : Who) (k i : Nat) (p : Put) (s : State) : (exWrite who k i p s).lc.copies = s.lc.copies := (exWrite_core who k i p s).1

@[simp] theorem exWrite_life (who : Who) (k i : Nat) (p : Put) (s : State) : (exWrite who k i p s).fv.life = s.fv.life := (exWrite_core who k i p s).2.1

@[simp] theorem exWrite_pending (who : Who) (k i : Nat) (p : Put) (s : State) : (exWrite who k i p s).pending = s.pending := (exWrite_core who k i p s).2.2

theorem fwWinRead_core (who : Who) (o : Nat) (s : State) : SameAll (fwWinRead who o s).2 s := by
  unfold fwWinRead
  try dsimp only
  repeat' split
  all_goals (first | (simp [SameAll]; done) | exact ⟨rfl, rfl, rfl⟩ | (simp_all [SameAll]; done) | grind [SameAll] | (simp [SameAll]; grind [SameAll]) | (simp +zetaDelta [SameAll]; done) | ((try dsimp only); (repeat' (first | (exact SameAll.refl _) | assumption | (simp [SameAll]; done) | split | with_reducible refine SameAll.trans (SameAll.foldl (fun _ _ => ?_) _ _) ?_ | with_reducible refine SameAll.trans (SameAll.foldr (fun _ _ => ?_) _ _) ?_ | with_reducible refine SameAll.trans ⟨rfl, rfl, rfl⟩ ?_)); done) | (refine SameAll.foldl ?_ _ _; intro st x; (try dsimp only); (repeat' split); all_goals (first | (simp [SameAll]; done) | (simp_all [SameAll]; done) | grind [SameAll])))

@[simp] theorem fwWinRead_copies (who : Who) (o : Nat) (s : State) : (fwWinRead who o s).2.lc.copies = s.lc.copies := (fwWinRead_core who o s).1

@[simp] theorem fwWinRead_life (who : Who) (o : Nat) (s : State) : (fwWinRead who o s).2.fv.life = s.fv.life := (fwWinRead_core who o s).2.1

@[simp] theorem fwWinRead_pending (who : Who) (o : Nat) (s : State) : (fwWinRead who o s).2.pending = s.pending := (fwWinRead_core who o s).2.2

theorem fwWinWrite_core (who : Who) (o : Nat) (p : Put) (s : State) : SameAll (fwWinWrite who o p s) s := by
  unfold fwWinWrite
  try dsimp only
  repeat' split
  all_goals (first | (simp [SameAll]; done) | exact ⟨rfl, rfl, rfl⟩ | (simp_all [SameAll]; done) | grind [SameAll] | (simp [SameAll]; grind [SameAll]) | (simp +zetaDelta [SameAll]; done) | ((try dsimp only); (repeat' (first | (exact SameAll.refl _) | assumption | (simp [SameAll]; done) | split | with_reducible refine SameAll.trans (updFwWin_core ..) ?_ | with_reducible refine SameAll.trans (fwTake_core ..) ?_ | with_reducible refine SameAll.trans (fwPost_core ..) ?_ | with_reducible refine SameAll.trans (SameAll.foldl (fun _ _ => ?_) _ _) ?_ | with_reducible refine SameAll.trans (SameAll.foldr (fun _ _ => ?_) _ _) ?_ | with_reducible refine SameAll.trans ⟨rfl, rfl, rfl⟩ ?_)); done) | (refine SameAll.foldl ?_ _ _; intro st x; (try dsimp only); (repeat' split); all_goals (first | (simp [SameAll]; done) | (simp_all [SameAll]; done) | grind [SameAll])))

@[simp] theorem fwWinWrite_copies (who : Who) (o : Nat) (p : Put) (s : State) : (fwWinWrite who o p s).lc.copies = s.lc.copies := (fwWinWrite_core who o p s).1

@[simp] theorem fwWinWrite_life (who : Who) (o : Nat) (p : Put) (s : State) : (fwWinWrite who o p s).fv.life = s.fv.life := (fwWinWrite_core who o p s).2.1

@[simp] theorem fwWinWrite_pending (who : Who) (o : Nat) (p : Put) (s : State) : (fwWinWrite who o p s).pending = s.pending := (fwWinWrite_core who o p s).2.2

theorem slotRead_core (who : Who) (lo : Bool) (n o : Nat) (s : State) : SameAll (slotRead who lo n o s).2 s := by
  unfold slotRead
  try dsimp only
  repeat' split
  all_goals (first | (simp [SameAll]; done) | exact ⟨rfl, rfl, rfl⟩ | (simp_all [SameAll]; done) | grind [SameAll, readExpq_core, readNoteq_core, readRaw_core, readDiag_core, winsRead_core, cvWinRead_core, exRead_core, fwWinRead_core] | (simp [SameAll]; grind [SameAll, readExpq_core, readNoteq_core, readRaw_core, readDiag_core, winsRead_core, cvWinRead_core, exRead_core, fwWinRead_core]) | (simp +zetaDelta [SameAll]; done) | ((try dsimp only); (repeat' (first | (exact SameAll.refl _) | assumption | (simp [SameAll]; done) | split | with_reducible refine SameAll.trans (readExpq_core ..) ?_ | with_reducible refine SameAll.trans (readNoteq_core ..) ?_ | with_reducible refine SameAll.trans (readRaw_core ..) ?_ | with_reducible refine SameAll.trans (readDiag_core ..) ?_ | with_reducible refine SameAll.trans (newNonce_core ..) ?_ | with_reducible refine SameAll.trans (winsRead_core ..) ?_ | with_reducible refine SameAll.trans (cvWinRead_core ..) ?_ | with_reducible refine SameAll.trans (exRead_core ..) ?_ | with_reducible refine SameAll.trans (fwWinRead_core ..) ?_ | with_reducible refine SameAll.trans (SameAll.foldl (fun _ _ => ?_) _ _) ?_ | with_reducible refine SameAll.trans (SameAll.foldr (fun _ _ => ?_) _ _) ?_ | with_reducible refine SameAll.trans ⟨rfl, rfl, rfl⟩ ?_)); done) | (refine SameAll.foldl ?_ _ _; intro st x; (try dsimp only); (repeat' split); all_goals (first | (simp [SameAll]; done) | (simp_all [SameAll]; done) | grind [SameAll, readExpq_core, readNoteq_core, readRaw_core, readDiag_core, winsRead_core, cvWinRead_core, exRead_core, fwWinRead_core])))

@[simp] theorem slotRead_copies (who : Who) (lo : Bool) (n o : Nat) (s : State) : (slotRead who lo n o s).2.lc.copies = s.lc.copies := (slotRead_core who lo n o s).1

@[simp] theorem slotRead_life (who : Who) (lo : Bool) (n o : Nat) (s : State) : (slotRead who lo n o s).2.fv.life = s.fv.life := (slotRead_core who lo n o s).2.1

@[simp] theorem slotRead_pending (who : Who) (lo : Bool) (n o : Nat) (s : State) : (slotRead who lo n o s).2.pending = s.pending := (slotRead_core who lo n o s).2.2

theorem w1cEvents_core (n : Nat) (p : Put) (s : State) : SameAll (w1cEvents n p s) s := by
  unfold w1cEvents
  try dsimp only
  repeat' split
  all_goals (first | (simp [SameAll]; done) | exact ⟨rfl, rfl, rfl⟩ | (simp_all [SameAll]; done) | grind [SameAll] | (simp [SameAll]; grind [SameAll]) | (simp +zetaDelta [SameAll]; done) | ((try dsimp only); (repeat' (first | (exact SameAll.refl _) | assumption | (simp [SameAll]; done) | split | with_reducible refine SameAll.trans (clearEvents_core ..) ?_ | with_reducible refine SameAll.trans (SameAll.foldl (fun _ _ => ?_) _ _) ?_ | with_reducible refine SameAll.trans (SameAll.foldr (fun _ _ => ?_) _ _) ?_ | with_reducible refine SameAll.trans ⟨rfl, rfl, rfl⟩ ?_)); done) | (refine SameAll.foldl ?_ _ _; intro st x; (try dsimp only); (repeat' split); all_goals (first | (simp [SameAll]; done) | (simp_all [SameAll]; done) | grind [SameAll])))

@[simp] theorem w1cEvents_copies (n : Nat) (p : Put) (s : State) : (w1cEvents n p s).lc.copies = s.lc.copies := (w1cEvents_core n p s).1

@[simp] theorem w1cEvents_life (n : Nat) (p : Put) (s : State) : (w1cEvents n p s).fv.life = s.fv.life := (w1cEvents_core n p s).2.1

@[simp] theorem w1cEvents_pending (n : Nat) (p : Put) (s : State) : (w1cEvents n p s).pending = s.pending := (w1cEvents_core n p s).2.2

theorem setLeafEn_core (w : Nat) (p : Put) (s : State) : SameAll (setLeafEn w p s) s := by
  unfold setLeafEn
  try dsimp only
  repeat' split
  all_goals (first | (simp [SameAll]; done) | exact ⟨rfl, rfl, rfl⟩ | (simp_all [SameAll]; done) | grind [SameAll] | (simp [SameAll]; grind [SameAll]) | (simp +zetaDelta [SameAll]; done) | ((try dsimp only); (repeat' (first | (exact SameAll.refl _) | assumption | (simp [SameAll]; done) | split | with_reducible refine SameAll.trans (noteRise_core ..) ?_ | with_reducible refine SameAll.trans (SameAll.foldl (fun _ _ => ?_) _ _) ?_ | with_reducible refine SameAll.trans (SameAll.foldr (fun _ _ => ?_) _ _) ?_ | with_reducible refine SameAll.trans ⟨rfl, rfl, rfl⟩ ?_)); done) | (refine SameAll.foldl ?_ _ _; intro st x; (try dsimp only); (repeat' split); all_goals (first | (simp [SameAll]; done) | (simp_all [SameAll]; done) | grind [SameAll])))

@[simp] theorem setLeafEn_copies (w : Nat) (p : Put) (s : State) : (setLeafEn w p s).lc.copies = s.lc.copies := (setLeafEn_core w p s).1

@[simp] theorem setLeafEn_life (w : Nat) (p : Put) (s : State) : (setLeafEn w p s).fv.life = s.fv.life := (setLeafEn_core w p s).2.1

@[simp] theorem setLeafEn_pending (w : Nat) (p : Put) (s : State) : (setLeafEn w p s).pending = s.pending := (setLeafEn_core w p s).2.2

theorem alWrite_core (o : Nat) (p : Put) (s : State) : SameAll (alWrite o p s) s := by
  unfold alWrite
  try dsimp only
  repeat' split
  all_goals (first | (simp [SameAll]; done) | exact ⟨rfl, rfl, rfl⟩ | (simp_all [SameAll]; done) | grind [SameAll] | (simp [SameAll]; grind [SameAll]) | (simp +zetaDelta [SameAll]; done) | ((try dsimp only); (repeat' (first | (exact SameAll.refl _) | assumption | (simp [SameAll]; done) | split | with_reducible refine SameAll.trans (noteRise_core ..) ?_ | with_reducible refine SameAll.trans (w1cEvents_core ..) ?_ | with_reducible refine SameAll.trans (setLeafEn_core ..) ?_ | with_reducible refine SameAll.trans (SameAll.foldl (fun _ _ => ?_) _ _) ?_ | with_reducible refine SameAll.trans (SameAll.foldr (fun _ _ => ?_) _ _) ?_ | with_reducible refine SameAll.trans ⟨rfl, rfl, rfl⟩ ?_)); done) | (refine SameAll.foldl ?_ _ _; intro st x; (try dsimp only); (repeat' split); all_goals (first | (simp [SameAll]; done) | (simp_all [SameAll]; done) | grind [SameAll])))

@[simp] theorem alWrite_copies (o : Nat) (p : Put) (s : State) : (alWrite o p s).lc.copies = s.lc.copies := (alWrite_core o p s).1

@[simp] theorem alWrite_life (o : Nat) (p : Put) (s : State) : (alWrite o p s).fv.life = s.fv.life := (alWrite_core o p s).2.1

@[simp] theorem alWrite_pending (o : Nat) (p : Put) (s : State) : (alWrite o p s).pending = s.pending := (alWrite_core o p s).2.2

theorem tiWrite_core (warden : Bool) (o : Nat) (p : Put) (s : State) : SameAll (tiWrite warden o p s) s := by
  unfold tiWrite
  try dsimp only
  repeat' split
  all_goals (first | (simp [SameAll]; done) | exact ⟨rfl, rfl, rfl⟩ | (simp_all [SameAll]; done) | grind [SameAll] | (simp [SameAll]; grind [SameAll]) | (simp +zetaDelta [SameAll]; done) | ((try dsimp only); (repeat' (first | (exact SameAll.refl _) | assumption | (simp [SameAll]; done) | split | with_reducible refine SameAll.trans (noteUnsure_core ..) ?_ | with_reducible refine SameAll.trans (reacquire_core ..) ?_ | with_reducible refine SameAll.trans (setCfg_core ..) ?_ | with_reducible refine SameAll.trans (writeShare_core ..) ?_ | with_reducible refine SameAll.trans (w1cEvents_core ..) ?_ | with_reducible refine SameAll.trans (SameAll.foldl (fun _ _ => ?_) _ _) ?_ | with_reducible refine SameAll.trans (SameAll.foldr (fun _ _ => ?_) _ _) ?_ | with_reducible refine SameAll.trans ⟨rfl, rfl, rfl⟩ ?_)); done) | (refine SameAll.foldl ?_ _ _; intro st x; (try dsimp only); (repeat' split); all_goals (first | (simp [SameAll]; done) | (simp_all [SameAll]; done) | grind [SameAll])))

@[simp] theorem tiWrite_copies (warden : Bool) (o : Nat) (p : Put) (s : State) : (tiWrite warden o p s).lc.copies = s.lc.copies := (tiWrite_core warden o p s).1

@[simp] theorem tiWrite_life (warden : Bool) (o : Nat) (p : Put) (s : State) : (tiWrite warden o p s).fv.life = s.fv.life := (tiWrite_core warden o p s).2.1

@[simp] theorem tiWrite_pending (warden : Bool) (o : Nat) (p : Put) (s : State) : (tiWrite warden o p s).pending = s.pending := (tiWrite_core warden o p s).2.2

theorem cfWrite_core (o : Nat) (p : Put) (s : State) : SameAll (cfWrite o p s) s := by
  unfold cfWrite
  try dsimp only
  repeat' split
  all_goals (first | (simp [SameAll]; done) | exact ⟨rfl, rfl, rfl⟩ | (simp_all [SameAll]; done) | grind [SameAll] | (simp [SameAll]; grind [SameAll]) | (simp +zetaDelta [SameAll]; done) | ((try dsimp only); (repeat' (first | (exact SameAll.refl _) | assumption | (simp [SameAll]; done) | split | with_reducible refine SameAll.trans (writeCfRsv_core ..) ?_ | with_reducible refine SameAll.trans (writeCfCtx_core ..) ?_ | with_reducible refine SameAll.trans (w1cEvents_core ..) ?_ | with_reducible refine SameAll.trans (SameAll.foldl (fun _ _ => ?_) _ _) ?_ | with_reducible refine SameAll.trans (SameAll.foldr (fun _ _ => ?_) _ _) ?_ | with_reducible refine SameAll.trans ⟨rfl, rfl, rfl⟩ ?_)); done) | (refine SameAll.foldl ?_ _ _; intro st x; (try dsimp only); (repeat' split); all_goals (first | (simp [SameAll]; done) | (simp_all [SameAll]; done) | grind [SameAll])))

@[simp] theorem cfWrite_copies (o : Nat) (p : Put) (s : State) : (cfWrite o p s).lc.copies = s.lc.copies := (cfWrite_core o p s).1

@[simp] theorem cfWrite_life (o : Nat) (p : Put) (s : State) : (cfWrite o p s).fv.life = s.fv.life := (cfWrite_core o p s).2.1

@[simp] theorem cfWrite_pending (o : Nat) (p : Put) (s : State) : (cfWrite o p s).pending = s.pending := (cfWrite_core o p s).2.2

theorem stWrite_core (o : Nat) (p : Put) (s : State) : SameAll (stWrite o p s) s := by
  unfold stWrite
  try dsimp only
  repeat' split
  all_goals (first | (simp [SameAll]; done) | exact ⟨rfl, rfl, rfl⟩ | (simp_all [SameAll]; done) | grind [SameAll] | (simp [SameAll]; grind [SameAll]) | (simp +zetaDelta [SameAll]; done) | ((try dsimp only); (repeat' (first | (exact SameAll.refl _) | assumption | (simp [SameAll]; done) | split | with_reducible refine SameAll.trans (writeStQuota_core ..) ?_ | with_reducible refine SameAll.trans (w1cEvents_core ..) ?_ | with_reducible refine SameAll.trans (SameAll.foldl (fun _ _ => ?_) _ _) ?_ | with_reducible refine SameAll.trans (SameAll.foldr (fun _ _ => ?_) _ _) ?_ | with_reducible refine SameAll.trans ⟨rfl, rfl, rfl⟩ ?_)); done) | (refine SameAll.foldl ?_ _ _; intro st x; (try dsimp only); (repeat' split); all_goals (first | (simp [SameAll]; done) | (simp_all [SameAll]; done) | grind [SameAll])))

@[simp] theorem stWrite_copies (o : Nat) (p : Put) (s : State) : (stWrite o p s).lc.copies = s.lc.copies := (stWrite_core o p s).1

@[simp] theorem stWrite_life (o : Nat) (p : Put) (s : State) : (stWrite o p s).fv.life = s.fv.life := (stWrite_core o p s).2.1

@[simp] theorem stWrite_pending (o : Nat) (p : Put) (s : State) : (stWrite o p s).pending = s.pending := (stWrite_core o p s).2.2

theorem pkWrite_core (warden : Bool) (o : Nat) (p : Put) (s : State) : SameAll (pkWrite warden o p s) s := by
  unfold pkWrite
  try dsimp only
  repeat' split
  all_goals (first | (simp [SameAll]; done) | exact ⟨rfl, rfl, rfl⟩ | (simp_all [SameAll]; done) | grind [SameAll] | (simp [SameAll]; grind [SameAll]) | (simp +zetaDelta [SameAll]; done) | ((try dsimp only); (repeat' (first | (exact SameAll.refl _) | assumption | (simp [SameAll]; done) | split | with_reducible refine SameAll.trans (w1cEvents_core ..) ?_ | with_reducible refine SameAll.trans (SameAll.foldl (fun _ _ => ?_) _ _) ?_ | with_reducible refine SameAll.trans (SameAll.foldr (fun _ _ => ?_) _ _) ?_ | with_reducible refine SameAll.trans ⟨rfl, rfl, rfl⟩ ?_)); done) | (refine SameAll.foldl ?_ _ _; intro st x; (try dsimp only); (repeat' split); all_goals (first | (simp [SameAll]; done) | (simp_all [SameAll]; done) | grind [SameAll])))

@[simp] theorem pkWrite_copies (warden : Bool) (o : Nat) (p : Put) (s : State) : (pkWrite warden o p s).lc.copies = s.lc.copies := (pkWrite_core warden o p s).1

@[simp] theorem pkWrite_life (warden : Bool) (o : Nat) (p : Put) (s : State) : (pkWrite warden o p s).fv.life = s.fv.life := (pkWrite_core warden o p s).2.1

@[simp] theorem pkWrite_pending (warden : Bool) (o : Nat) (p : Put) (s : State) : (pkWrite warden o p s).pending = s.pending := (pkWrite_core warden o p s).2.2

theorem cnWrite_core (o : Nat) (p : Put) (s : State) : SameAll (cnWrite o p s) s := by
  unfold cnWrite
  try dsimp only
  repeat' split
  all_goals (first | (simp [SameAll]; done) | exact ⟨rfl, rfl, rfl⟩ | (simp_all [SameAll]; done) | grind [SameAll] | (simp [SameAll]; grind [SameAll]) | (simp +zetaDelta [SameAll]; done) | ((try dsimp only); (repeat' (first | (exact SameAll.refl _) | assumption | (simp [SameAll]; done) | split | with_reducible refine SameAll.trans (writeCnQuota_core ..) ?_ | with_reducible refine SameAll.trans (w1cEvents_core ..) ?_ | with_reducible refine SameAll.trans (SameAll.foldl (fun _ _ => ?_) _ _) ?_ | with_reducible refine SameAll.trans (SameAll.foldr (fun _ _ => ?_) _ _) ?_ | with_reducible refine SameAll.trans ⟨rfl, rfl, rfl⟩ ?_)); done) | (refine SameAll.foldl ?_ _ _; intro st x; (try dsimp only); (repeat' split); all_goals (first | (simp [SameAll]; done) | (simp_all [SameAll]; done) | grind [SameAll])))

@[simp] theorem cnWrite_copies (o : Nat) (p : Put) (s : State) : (cnWrite o p s).lc.copies = s.lc.copies := (cnWrite_core o p s).1

@[simp] theorem cnWrite_life (o : Nat) (p : Put) (s : State) : (cnWrite o p s).fv.life = s.fv.life := (cnWrite_core o p s).2.1

@[simp] theorem cnWrite_pending (o : Nat) (p : Put) (s : State) : (cnWrite o p s).pending = s.pending := (cnWrite_core o p s).2.2

theorem tkWrite_core (warden : Bool) (o : Nat) (p : Put) (s : State) : SameAll (tkWrite warden o p s) s := by
  unfold tkWrite
  try dsimp only
  repeat' split
  all_goals (first | (simp [SameAll]; done) | exact ⟨rfl, rfl, rfl⟩ | (simp_all [SameAll]; done) | grind [SameAll] | (simp [SameAll]; grind [SameAll]) | (simp +zetaDelta [SameAll]; done) | ((try dsimp only); (repeat' (first | (exact SameAll.refl _) | assumption | (simp [SameAll]; done) | split | with_reducible refine SameAll.trans (writeTkQuota_core ..) ?_ | with_reducible refine SameAll.trans (askAct_core ..) ?_ | with_reducible refine SameAll.trans (w1cEvents_core ..) ?_ | with_reducible refine SameAll.trans (SameAll.foldl (fun _ _ => ?_) _ _) ?_ | with_reducible refine SameAll.trans (SameAll.foldr (fun _ _ => ?_) _ _) ?_ | with_reducible refine SameAll.trans ⟨rfl, rfl, rfl⟩ ?_)); done) | (refine SameAll.foldl ?_ _ _; intro st x; (try dsimp only); (repeat' split); all_goals (first | (simp [SameAll]; done) | (simp_all [SameAll]; done) | grind [SameAll])))

@[simp] theorem tkWrite_copies (warden : Bool) (o : Nat) (p : Put) (s : State) : (tkWrite warden o p s).lc.copies = s.lc.copies := (tkWrite_core warden o p s).1

@[simp] theorem tkWrite_life (warden : Bool) (o : Nat) (p : Put) (s : State) : (tkWrite warden o p s).fv.life = s.fv.life := (tkWrite_core warden o p s).2.1

@[simp] theorem tkWrite_pending (warden : Bool) (o : Nat) (p : Put) (s : State) : (tkWrite warden o p s).pending = s.pending := (tkWrite_core warden o p s).2.2

theorem cqWrite_core (warden : Bool) (o : Nat) (p : Put) (s : State) : SameAll (cqWrite warden o p s) s := by
  unfold cqWrite
  try dsimp only
  repeat' split
  all_goals (first | (simp [SameAll]; done) | exact ⟨rfl, rfl, rfl⟩ | (simp_all [SameAll]; done) | grind [SameAll] | (simp [SameAll]; grind [SameAll]) | (simp +zetaDelta [SameAll]; done) | ((try dsimp only); (repeat' (first | (exact SameAll.refl _) | assumption | (simp [SameAll]; done) | split | with_reducible refine SameAll.trans (writeAllot_core ..) ?_ | with_reducible refine SameAll.trans (w1cEvents_core ..) ?_ | with_reducible refine SameAll.trans (SameAll.foldl (fun _ _ => ?_) _ _) ?_ | with_reducible refine SameAll.trans (SameAll.foldr (fun _ _ => ?_) _ _) ?_ | with_reducible refine SameAll.trans ⟨rfl, rfl, rfl⟩ ?_)); done) | (refine SameAll.foldl ?_ _ _; intro st x; (try dsimp only); (repeat' split); all_goals (first | (simp [SameAll]; done) | (simp_all [SameAll]; done) | grind [SameAll])))

@[simp] theorem cqWrite_copies (warden : Bool) (o : Nat) (p : Put) (s : State) : (cqWrite warden o p s).lc.copies = s.lc.copies := (cqWrite_core warden o p s).1

@[simp] theorem cqWrite_life (warden : Bool) (o : Nat) (p : Put) (s : State) : (cqWrite warden o p s).fv.life = s.fv.life := (cqWrite_core warden o p s).2.1

@[simp] theorem cqWrite_pending (warden : Bool) (o : Nat) (p : Put) (s : State) : (cqWrite warden o p s).pending = s.pending := (cqWrite_core warden o p s).2.2

theorem ilWrite_core (o : Nat) (p : Put) (s : State) : SameAll (ilWrite o p s) s := by
  unfold ilWrite
  try dsimp only
  repeat' split
  all_goals (first | (simp [SameAll]; done) | exact ⟨rfl, rfl, rfl⟩ | (simp_all [SameAll]; done) | grind [SameAll] | (simp [SameAll]; grind [SameAll]) | (simp +zetaDelta [SameAll]; done) | ((try dsimp only); (repeat' (first | (exact SameAll.refl _) | assumption | (simp [SameAll]; done) | split | with_reducible refine SameAll.trans (writePortCfg_core ..) ?_ | with_reducible refine SameAll.trans (w1cEvents_core ..) ?_ | with_reducible refine SameAll.trans (SameAll.foldl (fun _ _ => ?_) _ _) ?_ | with_reducible refine SameAll.trans (SameAll.foldr (fun _ _ => ?_) _ _) ?_ | with_reducible refine SameAll.trans ⟨rfl, rfl, rfl⟩ ?_)); done) | (refine SameAll.foldl ?_ _ _; intro st x; (try dsimp only); (repeat' split); all_goals (first | (simp [SameAll]; done) | (simp_all [SameAll]; done) | grind [SameAll])))

@[simp] theorem ilWrite_copies (o : Nat) (p : Put) (s : State) : (ilWrite o p s).lc.copies = s.lc.copies := (ilWrite_core o p s).1

@[simp] theorem ilWrite_life (o : Nat) (p : Put) (s : State) : (ilWrite o p s).fv.life = s.fv.life := (ilWrite_core o p s).2.1

@[simp] theorem ilWrite_pending (o : Nat) (p : Put) (s : State) : (ilWrite o p s).pending = s.pending := (ilWrite_core o p s).2.2

theorem coreBlockWrite_core (who : Who) (c i : Nat) (p : Put) (s : State) : SameAll (coreBlockWrite who c i p s) s := by
  unfold coreBlockWrite
  try dsimp only
  repeat' split
  all_goals (first | (simp [SameAll]; done) | exact ⟨rfl, rfl, rfl⟩ | (simp_all [SameAll]; done) | grind [SameAll] | (simp [SameAll]; grind [SameAll]) | (simp +zetaDelta [SameAll]; done) | ((try dsimp only); (repeat' (first | (exact SameAll.refl _) | assumption | (simp [SameAll]; done) | split | with_reducible refine SameAll.trans (updCore_core ..) ?_ | with_reducible refine SameAll.trans (writeSpill_core ..) ?_ | with_reducible refine SameAll.trans (clearStack_core ..) ?_ | with_reducible refine SameAll.trans (writeWmsg_core ..) ?_ | with_reducible refine SameAll.trans (SameAll.foldl (fun _ _ => ?_) _ _) ?_ | with_reducible refine SameAll.trans (SameAll.foldr (fun _ _ => ?_) _ _) ?_ | with_reducible refine SameAll.trans ⟨rfl, rfl, rfl⟩ ?_)); done) | (refine SameAll.foldl ?_ _ _; intro st x; (try dsimp only); (repeat' split); all_goals (first | (simp [SameAll]; done) | (simp_all [SameAll]; done) | grind [SameAll])))

@[simp] theorem coreBlockWrite_copies (who : Who) (c i : Nat) (p : Put) (s : State) : (coreBlockWrite who c i p s).lc.copies = s.lc.copies := (coreBlockWrite_core who c i p s).1

@[simp] theorem coreBlockWrite_life (who : Who) (c i : Nat) (p : Put) (s : State) : (coreBlockWrite who c i p s).fv.life = s.fv.life := (coreBlockWrite_core who c i p s).2.1

@[simp] theorem coreBlockWrite_pending (who : Who) (c i : Nat) (p : Put) (s : State) : (coreBlockWrite who c i p s).pending = s.pending := (coreBlockWrite_core who c i p s).2.2

theorem pcWrite_core (who : Who) (o : Nat) (p : Put) (s : State) : SameAll (pcWrite who o p s) s := by
  unfold pcWrite
  try dsimp only
  repeat' split
  all_goals (first | (simp [SameAll]; done) | exact ⟨rfl, rfl, rfl⟩ | (simp_all [SameAll]; done) | grind [SameAll] | (simp [SameAll]; grind [SameAll]) | (simp +zetaDelta [SameAll]; done) | ((try dsimp only); (repeat' (first | (exact SameAll.refl _) | assumption | (simp [SameAll]; done) | split | with_reducible refine SameAll.trans (writeFence_core ..) ?_ | with_reducible refine SameAll.trans (w1cEvents_core ..) ?_ | with_reducible refine SameAll.trans (coreBlockWrite_core ..) ?_ | with_reducible refine SameAll.trans (SameAll.foldl (fun _ _ => ?_) _ _) ?_ | with_reducible refine SameAll.trans (SameAll.foldr (fun _ _ => ?_) _ _) ?_ | with_reducible refine SameAll.trans ⟨rfl, rfl, rfl⟩ ?_)); done) | (refine SameAll.foldl ?_ _ _; intro st x; (try dsimp only); (repeat' split); all_goals (first | (simp [SameAll]; done) | (simp_all [SameAll]; done) | grind [SameAll])))

@[simp] theorem pcWrite_copies (who : Who) (o : Nat) (p : Put) (s : State) : (pcWrite who o p s).lc.copies = s.lc.copies := (pcWrite_core who o p s).1

@[simp] theorem pcWrite_life (who : Who) (o : Nat) (p : Put) (s : State) : (pcWrite who o p s).fv.life = s.fv.life := (pcWrite_core who o p s).2.1

@[simp] theorem pcWrite_pending (who : Who) (o : Nat) (p : Put) (s : State) : (pcWrite who o p s).pending = s.pending := (pcWrite_core who o p s).2.2

theorem brWrite_core (o : Nat) (p : Put) (s : State) : SameAll (brWrite o p s) s := by
  unfold brWrite
  try dsimp only
  repeat' split
  all_goals (first | (simp [SameAll]; done) | exact ⟨rfl, rfl, rfl⟩ | (simp_all [SameAll]; done) | grind [SameAll] | (simp [SameAll]; grind [SameAll]) | (simp +zetaDelta [SameAll]; done) | ((try dsimp only); (repeat' (first | (exact SameAll.refl _) | assumption | (simp [SameAll]; done) | split | with_reducible refine SameAll.trans (writeRegion_core ..) ?_ | with_reducible refine SameAll.trans (w1cEvents_core ..) ?_ | with_reducible refine SameAll.trans (SameAll.foldl (fun _ _ => ?_) _ _) ?_ | with_reducible refine SameAll.trans (SameAll.foldr (fun _ _ => ?_) _ _) ?_ | with_reducible refine SameAll.trans ⟨rfl, rfl, rfl⟩ ?_)); done) | (refine SameAll.foldl ?_ _ _; intro st x; (try dsimp only); (repeat' split); all_goals (first | (simp [SameAll]; done) | (simp_all [SameAll]; done) | grind [SameAll])))

@[simp] theorem brWrite_copies (o : Nat) (p : Put) (s : State) : (brWrite o p s).lc.copies = s.lc.copies := (brWrite_core o p s).1

@[simp] theorem brWrite_life (o : Nat) (p : Put) (s : State) : (brWrite o p s).fv.life = s.fv.life := (brWrite_core o p s).2.1

@[simp] theorem brWrite_pending (o : Nat) (p : Put) (s : State) : (brWrite o p s).pending = s.pending := (brWrite_core o p s).2.2

theorem fvWrite_core (warden : Bool) (o : Nat) (p : Put) (s : State) : SameAll (fvWrite warden o p s) s := by
  unfold fvWrite
  try dsimp only
  repeat' split
  all_goals (first | (simp [SameAll]; done) | exact ⟨rfl, rfl, rfl⟩ | (simp_all [SameAll]; done) | grind [SameAll] | (simp [SameAll]; grind [SameAll]) | (simp +zetaDelta [SameAll]; done) | ((try dsimp only); (repeat' (first | (exact SameAll.refl _) | assumption | (simp [SameAll]; done) | split | with_reducible refine SameAll.trans (w1cEvents_core ..) ?_ | with_reducible refine SameAll.trans (SameAll.foldl (fun _ _ => ?_) _ _) ?_ | with_reducible refine SameAll.trans (SameAll.foldr (fun _ _ => ?_) _ _) ?_ | with_reducible refine SameAll.trans ⟨rfl, rfl, rfl⟩ ?_)); done) | (refine SameAll.foldl ?_ _ _; intro st x; (try dsimp only); (repeat' split); all_goals (first | (simp [SameAll]; done) | (simp_all [SameAll]; done) | grind [SameAll])))

@[simp] theorem fvWrite_copies (warden : Bool) (o : Nat) (p : Put) (s : State) : (fvWrite warden o p s).lc.copies = s.lc.copies := (fvWrite_core warden o p s).1

@[simp] theorem fvWrite_life (warden : Bool) (o : Nat) (p : Put) (s : State) : (fvWrite warden o p s).fv.life = s.fv.life := (fvWrite_core warden o p s).2.1

@[simp] theorem fvWrite_pending (warden : Bool) (o : Nat) (p : Put) (s : State) : (fvWrite warden o p s).pending = s.pending := (fvWrite_core warden o p s).2.2

theorem cvWrite_core (warden : Bool) (o : Nat) (p : Put) (s : State) : SameAll (cvWrite warden o p s) s := by
  unfold cvWrite
  try dsimp only
  repeat' split
  all_goals (first | (simp [SameAll]; done) | exact ⟨rfl, rfl, rfl⟩ | (simp_all [SameAll]; done) | grind [SameAll] | (simp [SameAll]; grind [SameAll]) | (simp +zetaDelta [SameAll]; done) | ((try dsimp only); (repeat' (first | (exact SameAll.refl _) | assumption | (simp [SameAll]; done) | split | with_reducible refine SameAll.trans (writeCvOwn_core ..) ?_ | with_reducible refine SameAll.trans (w1cEvents_core ..) ?_ | with_reducible refine SameAll.trans (SameAll.foldl (fun _ _ => ?_) _ _) ?_ | with_reducible refine SameAll.trans (SameAll.foldr (fun _ _ => ?_) _ _) ?_ | with_reducible refine SameAll.trans ⟨rfl, rfl, rfl⟩ ?_)); done) | (refine SameAll.foldl ?_ _ _; intro st x; (try dsimp only); (repeat' split); all_goals (first | (simp [SameAll]; done) | (simp_all [SameAll]; done) | grind [SameAll])))

@[simp] theorem cvWrite_copies (warden : Bool) (o : Nat) (p : Put) (s : State) : (cvWrite warden o p s).lc.copies = s.lc.copies := (cvWrite_core warden o p s).1

@[simp] theorem cvWrite_life (warden : Bool) (o : Nat) (p : Put) (s : State) : (cvWrite warden o p s).fv.life = s.fv.life := (cvWrite_core warden o p s).2.1

@[simp] theorem cvWrite_pending (warden : Bool) (o : Nat) (p : Put) (s : State) : (cvWrite warden o p s).pending = s.pending := (cvWrite_core warden o p s).2.2

theorem cdWrite_core (o : Nat) (p : Put) (s : State) : SameAll (cdWrite o p s) s := by
  unfold cdWrite
  try dsimp only
  repeat' split
  all_goals (first | (simp [SameAll]; done) | exact ⟨rfl, rfl, rfl⟩ | (simp_all [SameAll]; done) | grind [SameAll] | (simp [SameAll]; grind [SameAll]) | (simp +zetaDelta [SameAll]; done) | ((try dsimp only); (repeat' (first | (exact SameAll.refl _) | assumption | (simp [SameAll]; done) | split | with_reducible refine SameAll.trans (updSc_core ..) ?_ | with_reducible refine SameAll.trans (writeMcCfg_core ..) ?_ | with_reducible refine SameAll.trans (writeScCfg_core ..) ?_ | with_reducible refine SameAll.trans (w1cEvents_core ..) ?_ | with_reducible refine SameAll.trans (SameAll.foldl (fun _ _ => ?_) _ _) ?_ | with_reducible refine SameAll.trans (SameAll.foldr (fun _ _ => ?_) _ _) ?_ | with_reducible refine SameAll.trans ⟨rfl, rfl, rfl⟩ ?_)); done) | (refine SameAll.foldl ?_ _ _; intro st x; (try dsimp only); (repeat' split); all_goals (first | (simp [SameAll]; done) | (simp_all [SameAll]; done) | grind [SameAll])))

@[simp] theorem cdWrite_copies (o : Nat) (p : Put) (s : State) : (cdWrite o p s).lc.copies = s.lc.copies := (cdWrite_core o p s).1

@[simp] theorem cdWrite_life (o : Nat) (p : Put) (s : State) : (cdWrite o p s).fv.life = s.fv.life := (cdWrite_core o p s).2.1

@[simp] theorem cdWrite_pending (o : Nat) (p : Put) (s : State) : (cdWrite o p s).pending = s.pending := (cdWrite_core o p s).2.2

theorem nfWrite_core (o : Nat) (p : Put) (s : State) : SameAll (nfWrite o p s) s := by
  unfold nfWrite
  try dsimp only
  repeat' split
  all_goals (first | (simp [SameAll]; done) | exact ⟨rfl, rfl, rfl⟩ | (simp_all [SameAll]; done) | grind [SameAll] | (simp [SameAll]; grind [SameAll]) | (simp +zetaDelta [SameAll]; done) | ((try dsimp only); (repeat' (first | (exact SameAll.refl _) | assumption | (simp [SameAll]; done) | split | with_reducible refine SameAll.trans (w1cEvents_core ..) ?_ | with_reducible refine SameAll.trans (SameAll.foldl (fun _ _ => ?_) _ _) ?_ | with_reducible refine SameAll.trans (SameAll.foldr (fun _ _ => ?_) _ _) ?_ | with_reducible refine SameAll.trans ⟨rfl, rfl, rfl⟩ ?_)); done) | (refine SameAll.foldl ?_ _ _; intro st x; (try dsimp only); (repeat' split); all_goals (first | (simp [SameAll]; done) | (simp_all [SameAll]; done) | grind [SameAll])))

@[simp] theorem nfWrite_copies (o : Nat) (p : Put) (s : State) : (nfWrite o p s).lc.copies = s.lc.copies := (nfWrite_core o p s).1

@[simp] theorem nfWrite_life (o : Nat) (p : Put) (s : State) : (nfWrite o p s).fv.life = s.fv.life := (nfWrite_core o p s).2.1

@[simp] theorem nfWrite_pending (o : Nat) (p : Put) (s : State) : (nfWrite o p s).pending = s.pending := (nfWrite_core o p s).2.2

theorem respPut_core (i : Nat) (v : W32) (s : State) : SameAll (respPut i v s) s := by
  unfold respPut
  try dsimp only
  repeat' split
  all_goals (first | (simp [SameAll]; done) | exact ⟨rfl, rfl, rfl⟩ | (simp_all [SameAll]; done) | grind [SameAll, writeResp_core] | (simp [SameAll]; grind [SameAll, writeResp_core]) | (simp +zetaDelta [SameAll]; done) | ((try dsimp only); (repeat' (first | (exact SameAll.refl _) | assumption | (simp [SameAll]; done) | split | with_reducible refine SameAll.trans (writeResp_core ..) ?_ | with_reducible refine SameAll.trans (SameAll.foldl (fun _ _ => ?_) _ _) ?_ | with_reducible refine SameAll.trans (SameAll.foldr (fun _ _ => ?_) _ _) ?_ | with_reducible refine SameAll.trans ⟨rfl, rfl, rfl⟩ ?_)); done) | (refine SameAll.foldl ?_ _ _; intro st x; (try dsimp only); (repeat' split); all_goals (first | (simp [SameAll]; done) | (simp_all [SameAll]; done) | grind [SameAll, writeResp_core])))

@[simp] theorem respPut_copies (i : Nat) (v : W32) (s : State) : (respPut i v s).lc.copies = s.lc.copies := (respPut_core i v s).1

@[simp] theorem respPut_life (i : Nat) (v : W32) (s : State) : (respPut i v s).fv.life = s.fv.life := (respPut_core i v s).2.1

@[simp] theorem respPut_pending (i : Nat) (v : W32) (s : State) : (respPut i v s).pending = s.pending := (respPut_core i v s).2.2

theorem tmWrite_core (o : Nat) (p : Put) (s : State) : SameAll (tmWrite o p s) s := by
  unfold tmWrite
  try dsimp only
  repeat' split
  all_goals (first | (simp [SameAll]; done) | exact ⟨rfl, rfl, rfl⟩ | (simp_all [SameAll]; done) | grind [SameAll] | (simp [SameAll]; grind [SameAll]) | (simp +zetaDelta [SameAll]; done) | ((try dsimp only); (repeat' (first | (exact SameAll.refl _) | assumption | (simp [SameAll]; done) | split | with_reducible refine SameAll.trans (writeLock_core ..) ?_ | with_reducible refine SameAll.trans (w1cEvents_core ..) ?_ | with_reducible refine SameAll.trans (respPut_core ..) ?_ | with_reducible refine SameAll.trans (SameAll.foldl (fun _ _ => ?_) _ _) ?_ | with_reducible refine SameAll.trans (SameAll.foldr (fun _ _ => ?_) _ _) ?_ | with_reducible refine SameAll.trans ⟨rfl, rfl, rfl⟩ ?_)); done) | (refine SameAll.foldl ?_ _ _; intro st x; (try dsimp only); (repeat' split); all_goals (first | (simp [SameAll]; done) | (simp_all [SameAll]; done) | grind [SameAll])))

@[simp] theorem tmWrite_copies (o : Nat) (p : Put) (s : State) : (tmWrite o p s).lc.copies = s.lc.copies := (tmWrite_core o p s).1

@[simp] theorem tmWrite_life (o : Nat) (p : Put) (s : State) : (tmWrite o p s).fv.life = s.fv.life := (tmWrite_core o p s).2.1

@[simp] theorem tmWrite_pending (o : Nat) (p : Put) (s : State) : (tmWrite o p s).pending = s.pending := (tmWrite_core o p s).2.2

theorem lcWrite_core (o : Nat) (p : Put) (s : State) : SameAll (lcWrite o p s) s := by
  unfold lcWrite
  try dsimp only
  repeat' split
  all_goals (first | (simp [SameAll]; done) | exact ⟨rfl, rfl, rfl⟩ | (simp_all [SameAll]; done) | grind [SameAll, transition_core] | (simp [SameAll]; grind [SameAll, transition_core]) | (simp +zetaDelta [SameAll]; done) | ((try dsimp only); (repeat' (first | (exact SameAll.refl _) | assumption | (simp [SameAll]; done) | split | with_reducible refine SameAll.trans (transition_core ..) ?_ | with_reducible refine SameAll.trans (w1cEvents_core ..) ?_ | with_reducible refine SameAll.trans (SameAll.foldl (fun _ _ => ?_) _ _) ?_ | with_reducible refine SameAll.trans (SameAll.foldr (fun _ _ => ?_) _ _) ?_ | with_reducible refine SameAll.trans ⟨rfl, rfl, rfl⟩ ?_)); done) | (refine SameAll.foldl ?_ _ _; intro st x; (try dsimp only); (repeat' split); all_goals (first | (simp [SameAll]; done) | (simp_all [SameAll]; done) | grind [SameAll, transition_core])))

@[simp] theorem lcWrite_copies (o : Nat) (p : Put) (s : State) : (lcWrite o p s).lc.copies = s.lc.copies := (lcWrite_core o p s).1

@[simp] theorem lcWrite_life (o : Nat) (p : Put) (s : State) : (lcWrite o p s).fv.life = s.fv.life := (lcWrite_core o p s).2.1

@[simp] theorem lcWrite_pending (o : Nat) (p : Put) (s : State) : (lcWrite o p s).pending = s.pending := (lcWrite_core o p s).2.2

theorem odWrite_core (o : Nat) (p : Put) (s : State) : SameAll (odWrite o p s) s := by
  unfold odWrite
  try dsimp only
  repeat' split
  all_goals (first | (simp [SameAll]; done) | exact ⟨rfl, rfl, rfl⟩ | (simp_all [SameAll]; done) | grind [SameAll] | (simp [SameAll]; grind [SameAll]) | (simp +zetaDelta [SameAll]; done) | ((try dsimp only); (repeat' (first | (exact SameAll.refl _) | assumption | (simp [SameAll]; done) | split | with_reducible refine SameAll.trans (w1cEvents_core ..) ?_ | with_reducible refine SameAll.trans (SameAll.foldl (fun _ _ => ?_) _ _) ?_ | with_reducible refine SameAll.trans (SameAll.foldr (fun _ _ => ?_) _ _) ?_ | with_reducible refine SameAll.trans ⟨rfl, rfl, rfl⟩ ?_)); done) | (refine SameAll.foldl ?_ _ _; intro st x; (try dsimp only); (repeat' split); all_goals (first | (simp [SameAll]; done) | (simp_all [SameAll]; done) | grind [SameAll])))

@[simp] theorem odWrite_copies (o : Nat) (p : Put) (s : State) : (odWrite o p s).lc.copies = s.lc.copies := (odWrite_core o p s).1

@[simp] theorem odWrite_life (o : Nat) (p : Put) (s : State) : (odWrite o p s).fv.life = s.fv.life := (odWrite_core o p s).2.1

@[simp] theorem odWrite_pending (o : Nat) (p : Put) (s : State) : (odWrite o p s).pending = s.pending := (odWrite_core o p s).2.2

theorem usWrite_core (o : Nat) (p : Put) (s : State) : SameAll (usWrite o p s) s := by
  unfold usWrite
  try dsimp only
  repeat' split
  all_goals (first | (simp [SameAll]; done) | exact ⟨rfl, rfl, rfl⟩ | (simp_all [SameAll]; done) | grind [SameAll] | (simp [SameAll]; grind [SameAll]) | (simp +zetaDelta [SameAll]; done) | ((try dsimp only); (repeat' (first | (exact SameAll.refl _) | assumption | (simp [SameAll]; done) | split | with_reducible refine SameAll.trans (unitRequest_core ..) ?_ | with_reducible refine SameAll.trans (w1cEvents_core ..) ?_ | with_reducible refine SameAll.trans (SameAll.foldl (fun _ _ => ?_) _ _) ?_ | with_reducible refine SameAll.trans (SameAll.foldr (fun _ _ => ?_) _ _) ?_ | with_reducible refine SameAll.trans ⟨rfl, rfl, rfl⟩ ?_)); done) | (refine SameAll.foldl ?_ _ _; intro st x; (try dsimp only); (repeat' split); all_goals (first | (simp [SameAll]; done) | (simp_all [SameAll]; done) | grind [SameAll])))

@[simp] theorem usWrite_copies (o : Nat) (p : Put) (s : State) : (usWrite o p s).lc.copies = s.lc.copies := (usWrite_core o p s).1

@[simp] theorem usWrite_life (o : Nat) (p : Put) (s : State) : (usWrite o p s).fv.life = s.fv.life := (usWrite_core o p s).2.1

@[simp] theorem usWrite_pending (o : Nat) (p : Put) (s : State) : (usWrite o p s).pending = s.pending := (usWrite_core o p s).2.2

theorem pmWrite_core (o : Nat) (p : Put) (s : State) : SameAll (pmWrite o p s) s := by
  unfold pmWrite
  try dsimp only
  repeat' split
  all_goals (first | (simp [SameAll]; done) | exact ⟨rfl, rfl, rfl⟩ | (simp_all [SameAll]; done) | grind [SameAll] | (simp [SameAll]; grind [SameAll]) | (simp +zetaDelta [SameAll]; done) | ((try dsimp only); (repeat' (first | (exact SameAll.refl _) | assumption | (simp [SameAll]; done) | split | with_reducible refine SameAll.trans (w1cEvents_core ..) ?_ | with_reducible refine SameAll.trans (SameAll.foldl (fun _ _ => ?_) _ _) ?_ | with_reducible refine SameAll.trans (SameAll.foldr (fun _ _ => ?_) _ _) ?_ | with_reducible refine SameAll.trans ⟨rfl, rfl, rfl⟩ ?_)); done) | (refine SameAll.foldl ?_ _ _; intro st x; (try dsimp only); (repeat' split); all_goals (first | (simp [SameAll]; done) | (simp_all [SameAll]; done) | grind [SameAll])))

@[simp] theorem pmWrite_copies (o : Nat) (p : Put) (s : State) : (pmWrite o p s).lc.copies = s.lc.copies := (pmWrite_core o p s).1

@[simp] theorem pmWrite_life (o : Nat) (p : Put) (s : State) : (pmWrite o p s).fv.life = s.fv.life := (pmWrite_core o p s).2.1

@[simp] theorem pmWrite_pending (o : Nat) (p : Put) (s : State) : (pmWrite o p s).pending = s.pending := (pmWrite_core o p s).2.2

theorem slotWrite_core (who : Who) (n o : Nat) (p : Put) (s : State) : SameAll (slotWrite who n o p s) s := by
  unfold slotWrite
  try dsimp only
  repeat' split
  all_goals (first | (simp [SameAll]; done) | exact ⟨rfl, rfl, rfl⟩ | (simp_all [SameAll]; done) | grind [SameAll] | (simp [SameAll]; grind [SameAll]) | (simp +zetaDelta [SameAll]; done) | ((try dsimp only); (repeat' (first | (exact SameAll.refl _) | assumption | (simp [SameAll]; done) | split | with_reducible refine SameAll.trans (winsWrite_core ..) ?_ | with_reducible refine SameAll.trans (cvWinWrite_core ..) ?_ | with_reducible refine SameAll.trans (exWrite_core ..) ?_ | with_reducible refine SameAll.trans (fwWinWrite_core ..) ?_ | with_reducible refine SameAll.trans (alWrite_core ..) ?_ | with_reducible refine SameAll.trans (tiWrite_core ..) ?_ | with_reducible refine SameAll.trans (cfWrite_core ..) ?_ | with_reducible refine SameAll.trans (stWrite_core ..) ?_ | with_reducible refine SameAll.trans (pkWrite_core ..) ?_ | with_reducible refine SameAll.trans (cnWrite_core ..) ?_ | with_reducible refine SameAll.trans (tkWrite_core ..) ?_ | with_reducible refine SameAll.trans (cqWrite_core ..) ?_ | with_reducible refine SameAll.trans (ilWrite_core ..) ?_ | with_reducible refine SameAll.trans (pcWrite_core ..) ?_ | with_reducible refine SameAll.trans (brWrite_core ..) ?_ | with_reducible refine SameAll.trans (fvWrite_core ..) ?_ | with_reducible refine SameAll.trans (cvWrite_core ..) ?_ | with_reducible refine SameAll.trans (cdWrite_core ..) ?_ | with_reducible refine SameAll.trans (nfWrite_core ..) ?_ | with_reducible refine SameAll.trans (tmWrite_core ..) ?_ | with_reducible refine SameAll.trans (lcWrite_core ..) ?_ | with_reducible refine SameAll.trans (odWrite_core ..) ?_ | with_reducible refine SameAll.trans (usWrite_core ..) ?_ | with_reducible refine SameAll.trans (pmWrite_core ..) ?_ | with_reducible refine SameAll.trans (SameAll.foldl (fun _ _ => ?_) _ _) ?_ | with_reducible refine SameAll.trans (SameAll.foldr (fun _ _ => ?_) _ _) ?_ | with_reducible refine SameAll.trans ⟨rfl, rfl, rfl⟩ ?_)); done) | (refine SameAll.foldl ?_ _ _; intro st x; (try dsimp only); (repeat' split); all_goals (first | (simp [SameAll]; done) | (simp_all [SameAll]; done) | grind [SameAll])))

@[simp] theorem slotWrite_copies (who : Who) (n o : Nat) (p : Put) (s : State) : (slotWrite who n o p s).lc.copies = s.lc.copies := (slotWrite_core who n o p s).1

@[simp] theorem slotWrite_life (who : Who) (n o : Nat) (p : Put) (s : State) : (slotWrite who n o p s).fv.life = s.fv.life := (slotWrite_core who n o p s).2.1

@[simp] theorem slotWrite_pending (who : Who) (n o : Nat) (p : Put) (s : State) : (slotWrite who n o p s).pending = s.pending := (slotWrite_core who n o p s).2.2

theorem csrRead_core (who : Who) (a width : Nat) (s : State) : SameAll (csrRead who a width s).2 s := slotRead_core ..

@[simp] theorem csrRead_copies (who : Who) (a width : Nat) (s : State) : (csrRead who a width s).2.lc.copies = s.lc.copies := (csrRead_core who a width s).1

@[simp] theorem csrRead_life (who : Who) (a width : Nat) (s : State) : (csrRead who a width s).2.fv.life = s.fv.life := (csrRead_core who a width s).2.1

@[simp] theorem csrRead_pending (who : Who) (a width : Nat) (s : State) : (csrRead who a width s).2.pending = s.pending := (csrRead_core who a width s).2.2

theorem csrWrite_core (who : Who) (a width : Nat) (v : W64) (s : State) : SameAll (csrWrite who a width v s) s := by
  unfold csrWrite
  try dsimp only
  repeat' split
  all_goals (first | (simp [SameAll]; done) | exact ⟨rfl, rfl, rfl⟩ | (simp_all [SameAll]; done) | grind [SameAll] | (simp [SameAll]; grind [SameAll]) | (simp +zetaDelta [SameAll]; done) | ((try dsimp only); (repeat' (first | (exact SameAll.refl _) | assumption | (simp [SameAll]; done) | split | with_reducible refine SameAll.trans (slotWrite_core ..) ?_ | with_reducible refine SameAll.trans (SameAll.foldl (fun _ _ => ?_) _ _) ?_ | with_reducible refine SameAll.trans (SameAll.foldr (fun _ _ => ?_) _ _) ?_ | with_reducible refine SameAll.trans ⟨rfl, rfl, rfl⟩ ?_)); done) | (refine SameAll.foldl ?_ _ _; intro st x; (try dsimp only); (repeat' split); all_goals (first | (simp [SameAll]; done) | (simp_all [SameAll]; done) | grind [SameAll])))

@[simp] theorem csrWrite_copies (who : Who) (a width : Nat) (v : W64) (s : State) : (csrWrite who a width v s).lc.copies = s.lc.copies := (csrWrite_core who a width v s).1

@[simp] theorem csrWrite_life (who : Who) (a width : Nat) (v : W64) (s : State) : (csrWrite who a width v s).fv.life = s.fv.life := (csrWrite_core who a width v s).2.1

@[simp] theorem csrWrite_pending (who : Who) (a width : Nat) (v : W64) (s : State) : (csrWrite who a width v s).pending = s.pending := (csrWrite_core who a width v s).2.2

theorem csrKst_core (c : Nat) (f : ReinField) (r : Rein) (s : State) : SameAll (csrKst c f r s) s := by
  unfold csrKst
  try dsimp only
  repeat' split
  all_goals (first | (simp [SameAll]; done) | exact ⟨rfl, rfl, rfl⟩ | (simp_all [SameAll]; done) | grind [SameAll] | (simp [SameAll]; grind [SameAll]) | (simp +zetaDelta [SameAll]; done) | ((try dsimp only); (repeat' (first | (exact SameAll.refl _) | assumption | (simp [SameAll]; done) | split | with_reducible refine SameAll.trans (writeSpill_core ..) ?_ | with_reducible refine SameAll.trans (winPut_core ..) ?_ | with_reducible refine SameAll.trans (updCvWin_core ..) ?_ | with_reducible refine SameAll.trans (SameAll.foldl (fun _ _ => ?_) _ _) ?_ | with_reducible refine SameAll.trans (SameAll.foldr (fun _ _ => ?_) _ _) ?_ | with_reducible refine SameAll.trans ⟨rfl, rfl, rfl⟩ ?_)); done) | (refine SameAll.foldl ?_ _ _; intro st x; (try dsimp only); (repeat' split); all_goals (first | (simp [SameAll]; done) | (simp_all [SameAll]; done) | grind [SameAll])))

@[simp] theorem csrKst_copies (c : Nat) (f : ReinField) (r : Rein) (s : State) : (csrKst c f r s).lc.copies = s.lc.copies := (csrKst_core c f r s).1

@[simp] theorem csrKst_life (c : Nat) (f : ReinField) (r : Rein) (s : State) : (csrKst c f r s).fv.life = s.fv.life := (csrKst_core c f r s).2.1

@[simp] theorem csrKst_pending (c : Nat) (f : ReinField) (r : Rein) (s : State) : (csrKst c f r s).pending = s.pending := (csrKst_core c f r s).2.2

@[simp] theorem onLow_mem (p : Put) (f : W32 → State → State) (s : State) (h : ∀ v t, (f v t).mem = t.mem) : (onLow p f s).mem = s.mem := by
  unfold onLow
  split
  · exact h _ _
  · rfl

theorem onLow_wf (p : Put) (f : W32 → State → State) (s : State) (h : ∀ v t, KeepMem (f v t) t) : KeepMem (onLow p f s) s := by
  unfold onLow
  split
  · exact h _ _
  · exact KeepMem.refl _

@[simp] theorem onHigh_mem (p : Put) (f : W32 → State → State) (s : State) (h : ∀ v t, (f v t).mem = t.mem) : (onHigh p f s).mem = s.mem := by
  unfold onHigh
  split
  · exact h _ _
  · rfl

theorem onHigh_wf (p : Put) (f : W32 → State → State) (s : State) (h : ∀ v t, KeepMem (f v t) t) : KeepMem (onHigh p f s) s := by
  unfold onHigh
  split
  · exact h _ _
  · exact KeepMem.refl _

theorem winRead_same (lo : Bool) (u c w : Nat) (f : Field) (s : State) : SameMem (winRead lo u c w f s).2 s := by
  unfold winRead
  try dsimp only
  repeat' split
  all_goals (first | (simp [SameMem]; done) | exact rfl | (simp_all [SameMem]; done) | grind [SameMem] | (simp [SameMem]; grind [SameMem]) | (simp +zetaDelta [SameMem]; done) | ((try dsimp only); (repeat' (first | (exact SameMem.refl _) | assumption | (simp [SameMem]; done) | split | with_reducible refine SameMem.trans (updWin_same ..) ?_ | with_reducible refine SameMem.trans (SameMem.foldl (fun _ _ => ?_) _ _) ?_ | with_reducible refine SameMem.trans (SameMem.foldr (fun _ _ => ?_) _ _) ?_ | with_reducible refine SameMem.trans rfl ?_)); done) | (refine SameMem.foldl ?_ _ _; intro st x; (try dsimp only); (repeat' split); all_goals (first | (simp [SameMem]; done) | (simp_all [SameMem]; done) | grind [SameMem])))

@[simp] theorem winRead_mem (lo : Bool) (u c w : Nat) (f : Field) (s : State) : (winRead lo u c w f s).2.mem = s.mem := winRead_same lo u c w f s

theorem winPut_same (u c w : Nat) (f : Win → Win) (s : State) : SameMem (winPut u c w f s) s := by
  unfold winPut
  try dsimp only
  repeat' split
  all_goals (first | (simp [SameMem]; done) | exact rfl | (simp_all [SameMem]; done) | grind [SameMem] | (simp [SameMem]; grind [SameMem]) | (simp +zetaDelta [SameMem]; done) | ((try dsimp only); (repeat' (first | (exact SameMem.refl _) | assumption | (simp [SameMem]; done) | split | with_reducible refine SameMem.trans (updWin_same ..) ?_ | with_reducible refine SameMem.trans (SameMem.foldl (fun _ _ => ?_) _ _) ?_ | with_reducible refine SameMem.trans (SameMem.foldr (fun _ _ => ?_) _ _) ?_ | with_reducible refine SameMem.trans rfl ?_)); done) | (refine SameMem.foldl ?_ _ _; intro st x; (try dsimp only); (repeat' split); all_goals (first | (simp [SameMem]; done) | (simp_all [SameMem]; done) | grind [SameMem])))

@[simp] theorem winPut_mem (u c w : Nat) (f : Win → Win) (s : State) : (winPut u c w f s).mem = s.mem := winPut_same u c w f s

theorem winWrite_wf (u c w : Nat) (f : Field) (p : Put) (s : State) : KeepMem (winWrite u c w f p s) s := by
  unfold winWrite
  try dsimp only
  iterate 30 all_goals (try first | with_reducible exact KeepMem.refl _ | assumption | split | with_reducible refine KeepMem.trans (winGo_wf ..) ?_ | with_reducible refine KeepMem.trans (KeepMem.of_eq (updWin_mem ..)) ?_ | with_reducible refine KeepMem.trans (KeepMem.of_eq (winPut_mem ..)) ?_ | with_reducible refine KeepMem.trans (KeepMem.foldl (fun _ _ => ?_) _ _) ?_ | with_reducible refine KeepMem.trans (KeepMem.foldr (fun _ _ => ?_) _ _) ?_ | with_reducible refine KeepMem.trans (KeepMem.foldl_fst (fun _ _ => ?_) _ _) ?_ | with_reducible refine KeepMem.trans (KeepMem.foldl_snd (fun _ _ => ?_) _ _) ?_ | with_reducible refine KeepMem.trans (KeepMem.foldl_thd (fun _ _ => ?_) _ _) ?_ | (apply KeepMem.of_eq; simp; done) | with_reducible refine KeepMem.trans (KeepMem.record ..) ?_)

theorem winsRead_same (who : Who) (lo : Bool) (u o : Nat) (s : State) : SameMem (winsRead who lo u o s).2 s := by
  unfold winsRead
  try dsimp only
  repeat' split
  all_goals (first | (simp [SameMem]; done) | exact rfl | (simp_all [SameMem]; done) | grind [SameMem, winRead_same] | (simp [SameMem]; grind [SameMem, winRead_same]) | (simp +zetaDelta [SameMem]; done) | ((try dsimp only); (repeat' (first | (exact SameMem.refl _) | assumption | (simp [SameMem]; done) | split | with_reducible refine SameMem.trans (winRead_same ..) ?_ | with_reducible refine SameMem.trans (SameMem.foldl (fun _ _ => ?_) _ _) ?_ | with_reducible refine SameMem.trans (SameMem.foldr (fun _ _ => ?_) _ _) ?_ | with_reducible refine SameMem.trans rfl ?_)); done) | (refine SameMem.foldl ?_ _ _; intro st x; (try dsimp only); (repeat' split); all_goals (first | (simp [SameMem]; done) | (simp_all [SameMem]; done) | grind [SameMem, winRead_same])))

@[simp] theorem winsRead_mem (who : Who) (lo : Bool) (u o : Nat) (s : State) : (winsRead who lo u o s).2.mem = s.mem := winsRead_same who lo u o s

theorem winsWrite_wf (who : Who) (u o : Nat) (p : Put) (s : State) : KeepMem (winsWrite who u o p s) s := by
  unfold winsWrite
  try dsimp only
  iterate 30 all_goals (try first | with_reducible exact KeepMem.refl _ | assumption | split | with_reducible refine KeepMem.trans (winWrite_wf ..) ?_ | with_reducible refine KeepMem.trans (KeepMem.foldl (fun _ _ => ?_) _ _) ?_ | with_reducible refine KeepMem.trans (KeepMem.foldr (fun _ _ => ?_) _ _) ?_ | with_reducible refine KeepMem.trans (KeepMem.foldl_fst (fun _ _ => ?_) _ _) ?_ | with_reducible refine KeepMem.trans (KeepMem.foldl_snd (fun _ _ => ?_) _ _) ?_ | with_reducible refine KeepMem.trans (KeepMem.foldl_thd (fun _ _ => ?_) _ _) ?_ | (apply KeepMem.of_eq; simp; done) | with_reducible refine KeepMem.trans (KeepMem.record ..) ?_)

theorem updCvWin_same (c : Nat) (f : Win → Win) (s : State) : SameMem (updCvWin c f s) s := by
  unfold updCvWin
  try dsimp only
  repeat' split
  all_goals (first | (simp [SameMem]; done) | exact rfl | (simp_all [SameMem]; done) | grind [SameMem] | (simp [SameMem]; grind [SameMem]) | (simp +zetaDelta [SameMem]; done) | ((try dsimp only); (repeat' (first | (exact SameMem.refl _) | assumption | (simp [SameMem]; done) | split | with_reducible refine SameMem.trans (SameMem.foldl (fun _ _ => ?_) _ _) ?_ | with_reducible refine SameMem.trans (SameMem.foldr (fun _ _ => ?_) _ _) ?_ | with_reducible refine SameMem.trans rfl ?_)); done) | (refine SameMem.foldl ?_ _ _; intro st x; (try dsimp only); (repeat' split); all_goals (first | (simp [SameMem]; done) | (simp_all [SameMem]; done) | grind [SameMem])))

@[simp] theorem updCvWin_mem (c : Nat) (f : Win → Win) (s : State) : (updCvWin c f s).mem = s.mem := updCvWin_same c f s

theorem cvWinRead_same (who : Who) (lo : Bool) (o : Nat) (s : State) : SameMem (cvWinRead who lo o s).2 s := by
  unfold cvWinRead
  try dsimp only
  repeat' split
  all_goals (first | (simp [SameMem]; done) | exact rfl | (simp_all [SameMem]; done) | grind [SameMem] | (simp [SameMem]; grind [SameMem]) | (simp +zetaDelta [SameMem]; done) | ((try dsimp only); (repeat' (first | (exact SameMem.refl _) | assumption | (simp [SameMem]; done) | split | with_reducible refine SameMem.trans (updCvWin_same ..) ?_ | with_reducible refine SameMem.trans (SameMem.foldl (fun _ _ => ?_) _ _) ?_ | with_reducible refine SameMem.trans (SameMem.foldr (fun _ _ => ?_) _ _) ?_ | with_reducible refine SameMem.trans rfl ?_)); done) | (refine SameMem.foldl ?_ _ _; intro st x; (try dsimp only); (repeat' split); all_goals (first | (simp [SameMem]; done) | (simp_all [SameMem]; done) | grind [SameMem])))

@[simp] theorem cvWinRead_mem (who : Who) (lo : Bool) (o : Nat) (s : State) : (cvWinRead who lo o s).2.mem = s.mem := cvWinRead_same who lo o s

theorem cvWinWrite_same (who : Who) (o : Nat) (p : Put) (s : State) : SameMem (cvWinWrite who o p s) s := by
  unfold cvWinWrite
  try dsimp only
  repeat' split
  all_goals (first | (simp [SameMem]; done) | exact rfl | (simp_all [SameMem]; done) | grind [SameMem] | (simp [SameMem]; grind [SameMem]) | (simp +zetaDelta [SameMem]; done) | ((try dsimp only); (repeat' (first | (exact SameMem.refl _) | assumption | (simp [SameMem]; done) | split | with_reducible refine SameMem.trans (cvGo_same ..) ?_ | with_reducible refine SameMem.trans (updCvWin_same ..) ?_ | with_reducible refine SameMem.trans (SameMem.foldl (fun _ _ => ?_) _ _) ?_ | with_reducible refine SameMem.trans (SameMem.foldr (fun _ _ => ?_) _ _) ?_ | with_reducible refine SameMem.trans rfl ?_)); done) | (refine SameMem.foldl ?_ _ _; intro st x; (try dsimp only); (repeat' split); all_goals (first | (simp [SameMem]; done) | (simp_all [SameMem]; done) | grind [SameMem])))

@[simp] theorem cvWinWrite_mem (who : Who) (o : Nat) (p : Put) (s : State) : (cvWinWrite who o p s).mem = s.mem := cvWinWrite_same who o p s

theorem exRead_same (who : Who) (lo : Bool) (k i : Nat) (s : State) : SameMem (exRead who lo k i s).2 s := by
  unfold exRead
  try dsimp only
  repeat' split
  all_goals (first | (simp [SameMem]; done) | exact rfl | (simp_all [SameMem]; done) | grind [SameMem] | (simp [SameMem]; grind [SameMem]) | (simp +zetaDelta [SameMem]; done) | ((try dsimp only); (repeat' (first | (exact SameMem.refl _) | assumption | (simp [SameMem]; done) | split | with_reducible refine SameMem.trans (updEx_same ..) ?_ | with_reducible refine SameMem.trans (SameMem.foldl (fun _ _ => ?_) _ _) ?_ | with_reducible refine SameMem.trans (SameMem.foldr (fun _ _ => ?_) _ _) ?_ | with_reducible refine SameMem.trans rfl ?_)); done) | (refine SameMem.foldl ?_ _ _; intro st x; (try dsimp only); (repeat' split); all_goals (first | (simp [SameMem]; done) | (simp_all [SameMem]; done) | grind [SameMem])))

@[simp] theorem exRead_mem (who : Who) (lo : Bool) (k i : Nat) (s : State) : (exRead who lo k i s).2.mem = s.mem := exRead_same who lo k i s

theorem exWrite_same (who : Who) (k i : Nat) (p : Put) (s : State) : SameMem (exWrite who k i p s) s := by
  unfold exWrite
  try dsimp only
  repeat' split
  all_goals (first | (simp [SameMem]; done) | exact rfl | (simp_all [SameMem]; done) | grind [SameMem] | (simp [SameMem]; grind [SameMem]) | (simp +zetaDelta [SameMem]; done) | ((try dsimp only); (repeat' (first | (exact SameMem.refl _) | assumption | (simp [SameMem]; done) | split | with_reducible refine SameMem.trans (updEx_same ..) ?_ | with_reducible refine SameMem.trans (exGo_same ..) ?_ | with_reducible refine SameMem.trans (SameMem.foldl (fun _ _ => ?_) _ _) ?_ | with_reducible refine SameMem.trans (SameMem.foldr (fun _ _ => ?_) _ _) ?_ | with_reducible refine SameMem.trans rfl ?_)); done) | (refine SameMem.foldl ?_ _ _; intro st x; (try dsimp only); (repeat' split); all_goals (first | (simp [SameMem]; done) | (simp_all [SameMem]; done) | grind [SameMem])))

@[simp] theorem exWrite_mem (who : Who) (k i : Nat) (p : Put) (s : State) : (exWrite who k i p s).mem = s.mem := exWrite_same who k i p s

theorem fwWinRead_same (who : Who) (o : Nat) (s : State) : SameMem (fwWinRead who o s).2 s := by
  unfold fwWinRead
  try dsimp only
  repeat' split
  all_goals (first | (simp [SameMem]; done) | exact rfl | (simp_all [SameMem]; done) | grind [SameMem] | (simp [SameMem]; grind [SameMem]) | (simp +zetaDelta [SameMem]; done) | ((try dsimp only); (repeat' (first | (exact SameMem.refl _) | assumption | (simp [SameMem]; done) | split | with_reducible refine SameMem.trans (SameMem.foldl (fun _ _ => ?_) _ _) ?_ | with_reducible refine SameMem.trans (SameMem.foldr (fun _ _ => ?_) _ _) ?_ | with_reducible refine SameMem.trans rfl ?_)); done) | (refine SameMem.foldl ?_ _ _; intro st x; (try dsimp only); (repeat' split); all_goals (first | (simp [SameMem]; done) | (simp_all [SameMem]; done) | grind [SameMem])))

@[simp] theorem fwWinRead_mem (who : Who) (o : Nat) (s : State) : (fwWinRead who o s).2.mem = s.mem := fwWinRead_same who o s

theorem fwWinWrite_same (who : Who) (o : Nat) (p : Put) (s : State) : SameMem (fwWinWrite who o p s) s := by
  unfold fwWinWrite
  try dsimp only
  repeat' split
  all_goals (first | (simp [SameMem]; done) | exact rfl | (simp_all [SameMem]; done) | grind [SameMem] | (simp [SameMem]; grind [SameMem]) | (simp +zetaDelta [SameMem]; done) | ((try dsimp only); (repeat' (first | (exact SameMem.refl _) | assumption | (simp [SameMem]; done) | split | with_reducible refine SameMem.trans (updFwWin_same ..) ?_ | with_reducible refine SameMem.trans (fwTake_same ..) ?_ | with_reducible refine SameMem.trans (fwPost_same ..) ?_ | with_reducible refine SameMem.trans (SameMem.foldl (fun _ _ => ?_) _ _) ?_ | with_reducible refine SameMem.trans (SameMem.foldr (fun _ _ => ?_) _ _) ?_ | with_reducible refine SameMem.trans rfl ?_)); done) | (refine SameMem.foldl ?_ _ _; intro st x; (try dsimp only); (repeat' split); all_goals (first | (simp [SameMem]; done) | (simp_all [SameMem]; done) | grind [SameMem])))

@[simp] theorem fwWinWrite_mem (who : Who) (o : Nat) (p : Put) (s : State) : (fwWinWrite who o p s).mem = s.mem := fwWinWrite_same who o p s

theorem slotRead_same (who : Who) (lo : Bool) (n o : Nat) (s : State) : SameMem (slotRead who lo n o s).2 s := by
  unfold slotRead
  try dsimp only
  repeat' split
  all_goals (first | (simp [SameMem]; done) | exact rfl | (simp_all [SameMem]; done) | grind [SameMem, readExpq_same, readNoteq_same, readRaw_same, readDiag_same, winsRead_same, cvWinRead_same, exRead_same, fwWinRead_same] | (simp [SameMem]; grind [SameMem, readExpq_same, readNoteq_same, readRaw_same, readDiag_same, winsRead_same, cvWinRead_same, exRead_same, fwWinRead_same]) | (simp +zetaDelta [SameMem]; done) | ((try dsimp only); (repeat' (first | (exact SameMem.refl _) | assumption | (simp [SameMem]; done) | split | with_reducible refine SameMem.trans (readExpq_same ..) ?_ | with_reducible refine SameMem.trans (readNoteq_same ..) ?_ | with_reducible refine SameMem.trans (readRaw_same ..) ?_ | with_reducible refine SameMem.trans (readDiag_same ..) ?_ | with_reducible refine SameMem.trans (newNonce_same ..) ?_ | with_reducible refine SameMem.trans (winsRead_same ..) ?_ | with_reducible refine SameMem.trans (cvWinRead_same ..) ?_ | with_reducible refine SameMem.trans (exRead_same ..) ?_ | with_reducible refine SameMem.trans (fwWinRead_same ..) ?_ | with_reducible refine SameMem.trans (SameMem.foldl (fun _ _ => ?_) _ _) ?_ | with_reducible refine SameMem.trans (SameMem.foldr (fun _ _ => ?_) _ _) ?_ | with_reducible refine SameMem.trans rfl ?_)); done) | (refine SameMem.foldl ?_ _ _; intro st x; (try dsimp only); (repeat' split); all_goals (first | (simp [SameMem]; done) | (simp_all [SameMem]; done) | grind [SameMem, readExpq_same, readNoteq_same, readRaw_same, readDiag_same, winsRead_same, cvWinRead_same, exRead_same, fwWinRead_same])))

@[simp] theorem slotRead_mem (who : Who) (lo : Bool) (n o : Nat) (s : State) : (slotRead who lo n o s).2.mem = s.mem := slotRead_same who lo n o s

theorem w1cEvents_same (n : Nat) (p : Put) (s : State) : SameMem (w1cEvents n p s) s := by
  unfold w1cEvents
  try dsimp only
  repeat' split
  all_goals (first | (simp [SameMem]; done) | exact rfl | (simp_all [SameMem]; done) | grind [SameMem] | (simp [SameMem]; grind [SameMem]) | (simp +zetaDelta [SameMem]; done) | ((try dsimp only); (repeat' (first | (exact SameMem.refl _) | assumption | (simp [SameMem]; done) | split | with_reducible refine SameMem.trans (clearEvents_same ..) ?_ | with_reducible refine SameMem.trans (SameMem.foldl (fun _ _ => ?_) _ _) ?_ | with_reducible refine SameMem.trans (SameMem.foldr (fun _ _ => ?_) _ _) ?_ | with_reducible refine SameMem.trans rfl ?_)); done) | (refine SameMem.foldl ?_ _ _; intro st x; (try dsimp only); (repeat' split); all_goals (first | (simp [SameMem]; done) | (simp_all [SameMem]; done) | grind [SameMem])))

@[simp] theorem w1cEvents_mem (n : Nat) (p : Put) (s : State) : (w1cEvents n p s).mem = s.mem := w1cEvents_same n p s

theorem setLeafEn_same (w : Nat) (p : Put) (s : State) : SameMem (setLeafEn w p s) s := by
  unfold setLeafEn
  try dsimp only
  repeat' split
  all_goals (first | (simp [SameMem]; done) | exact rfl | (simp_all [SameMem]; done) | grind [SameMem] | (simp [SameMem]; grind [SameMem]) | (simp +zetaDelta [SameMem]; done) | ((try dsimp only); (repeat' (first | (exact SameMem.refl _) | assumption | (simp [SameMem]; done) | split | with_reducible refine SameMem.trans (noteRise_same ..) ?_ | with_reducible refine SameMem.trans (SameMem.foldl (fun _ _ => ?_) _ _) ?_ | with_reducible refine SameMem.trans (SameMem.foldr (fun _ _ => ?_) _ _) ?_ | with_reducible refine SameMem.trans rfl ?_)); done) | (refine SameMem.foldl ?_ _ _; intro st x; (try dsimp only); (repeat' split); all_goals (first | (simp [SameMem]; done) | (simp_all [SameMem]; done) | grind [SameMem])))

@[simp] theorem setLeafEn_mem (w : Nat) (p : Put) (s : State) : (setLeafEn w p s).mem = s.mem := setLeafEn_same w p s

theorem alWrite_same (o : Nat) (p : Put) (s : State) : SameMem (alWrite o p s) s := by
  unfold alWrite
  try dsimp only
  repeat' split
  all_goals (first | (simp [SameMem]; done) | exact rfl | (simp_all [SameMem]; done) | grind [SameMem] | (simp [SameMem]; grind [SameMem]) | (simp +zetaDelta [SameMem]; done) | ((try dsimp only); (repeat' (first | (exact SameMem.refl _) | assumption | (simp [SameMem]; done) | split | with_reducible refine SameMem.trans (noteRise_same ..) ?_ | with_reducible refine SameMem.trans (w1cEvents_same ..) ?_ | with_reducible refine SameMem.trans (setLeafEn_same ..) ?_ | with_reducible refine SameMem.trans (SameMem.foldl (fun _ _ => ?_) _ _) ?_ | with_reducible refine SameMem.trans (SameMem.foldr (fun _ _ => ?_) _ _) ?_ | with_reducible refine SameMem.trans rfl ?_)); done) | (refine SameMem.foldl ?_ _ _; intro st x; (try dsimp only); (repeat' split); all_goals (first | (simp [SameMem]; done) | (simp_all [SameMem]; done) | grind [SameMem])))

@[simp] theorem alWrite_mem (o : Nat) (p : Put) (s : State) : (alWrite o p s).mem = s.mem := alWrite_same o p s

theorem tiWrite_same (warden : Bool) (o : Nat) (p : Put) (s : State) : SameMem (tiWrite warden o p s) s := by
  unfold tiWrite
  try dsimp only
  repeat' split
  all_goals (first | (simp [SameMem]; done) | exact rfl | (simp_all [SameMem]; done) | grind [SameMem] | (simp [SameMem]; grind [SameMem]) | (simp +zetaDelta [SameMem]; done) | ((try dsimp only); (repeat' (first | (exact SameMem.refl _) | assumption | (simp [SameMem]; done) | split | with_reducible refine SameMem.trans (noteUnsure_same ..) ?_ | with_reducible refine SameMem.trans (reacquire_same ..) ?_ | with_reducible refine SameMem.trans (setCfg_same ..) ?_ | with_reducible refine SameMem.trans (writeShare_same ..) ?_ | with_reducible refine SameMem.trans (w1cEvents_same ..) ?_ | with_reducible refine SameMem.trans (SameMem.foldl (fun _ _ => ?_) _ _) ?_ | with_reducible refine SameMem.trans (SameMem.foldr (fun _ _ => ?_) _ _) ?_ | with_reducible refine SameMem.trans rfl ?_)); done) | (refine SameMem.foldl ?_ _ _; intro st x; (try dsimp only); (repeat' split); all_goals (first | (simp [SameMem]; done) | (simp_all [SameMem]; done) | grind [SameMem])))

@[simp] theorem tiWrite_mem (warden : Bool) (o : Nat) (p : Put) (s : State) : (tiWrite warden o p s).mem = s.mem := tiWrite_same warden o p s

theorem cfWrite_same (o : Nat) (p : Put) (s : State) : SameMem (cfWrite o p s) s := by
  unfold cfWrite
  try dsimp only
  repeat' split
  all_goals (first | (simp [SameMem]; done) | exact rfl | (simp_all [SameMem]; done) | grind [SameMem] | (simp [SameMem]; grind [SameMem]) | (simp +zetaDelta [SameMem]; done) | ((try dsimp only); (repeat' (first | (exact SameMem.refl _) | assumption | (simp [SameMem]; done) | split | with_reducible refine SameMem.trans (writeCfRsv_same ..) ?_ | with_reducible refine SameMem.trans (writeCfCtx_same ..) ?_ | with_reducible refine SameMem.trans (w1cEvents_same ..) ?_ | with_reducible refine SameMem.trans (SameMem.foldl (fun _ _ => ?_) _ _) ?_ | with_reducible refine SameMem.trans (SameMem.foldr (fun _ _ => ?_) _ _) ?_ | with_reducible refine SameMem.trans rfl ?_)); done) | (refine SameMem.foldl ?_ _ _; intro st x; (try dsimp only); (repeat' split); all_goals (first | (simp [SameMem]; done) | (simp_all [SameMem]; done) | grind [SameMem])))

@[simp] theorem cfWrite_mem (o : Nat) (p : Put) (s : State) : (cfWrite o p s).mem = s.mem := cfWrite_same o p s

theorem stWrite_same (o : Nat) (p : Put) (s : State) : SameMem (stWrite o p s) s := by
  unfold stWrite
  try dsimp only
  repeat' split
  all_goals (first | (simp [SameMem]; done) | exact rfl | (simp_all [SameMem]; done) | grind [SameMem] | (simp [SameMem]; grind [SameMem]) | (simp +zetaDelta [SameMem]; done) | ((try dsimp only); (repeat' (first | (exact SameMem.refl _) | assumption | (simp [SameMem]; done) | split | with_reducible refine SameMem.trans (writeStQuota_same ..) ?_ | with_reducible refine SameMem.trans (w1cEvents_same ..) ?_ | with_reducible refine SameMem.trans (SameMem.foldl (fun _ _ => ?_) _ _) ?_ | with_reducible refine SameMem.trans (SameMem.foldr (fun _ _ => ?_) _ _) ?_ | with_reducible refine SameMem.trans rfl ?_)); done) | (refine SameMem.foldl ?_ _ _; intro st x; (try dsimp only); (repeat' split); all_goals (first | (simp [SameMem]; done) | (simp_all [SameMem]; done) | grind [SameMem])))

@[simp] theorem stWrite_mem (o : Nat) (p : Put) (s : State) : (stWrite o p s).mem = s.mem := stWrite_same o p s

theorem pkWrite_same (warden : Bool) (o : Nat) (p : Put) (s : State) : SameMem (pkWrite warden o p s) s := by
  unfold pkWrite
  try dsimp only
  repeat' split
  all_goals (first | (simp [SameMem]; done) | exact rfl | (simp_all [SameMem]; done) | grind [SameMem] | (simp [SameMem]; grind [SameMem]) | (simp +zetaDelta [SameMem]; done) | ((try dsimp only); (repeat' (first | (exact SameMem.refl _) | assumption | (simp [SameMem]; done) | split | with_reducible refine SameMem.trans (w1cEvents_same ..) ?_ | with_reducible refine SameMem.trans (SameMem.foldl (fun _ _ => ?_) _ _) ?_ | with_reducible refine SameMem.trans (SameMem.foldr (fun _ _ => ?_) _ _) ?_ | with_reducible refine SameMem.trans rfl ?_)); done) | (refine SameMem.foldl ?_ _ _; intro st x; (try dsimp only); (repeat' split); all_goals (first | (simp [SameMem]; done) | (simp_all [SameMem]; done) | grind [SameMem])))

@[simp] theorem pkWrite_mem (warden : Bool) (o : Nat) (p : Put) (s : State) : (pkWrite warden o p s).mem = s.mem := pkWrite_same warden o p s

theorem cnWrite_same (o : Nat) (p : Put) (s : State) : SameMem (cnWrite o p s) s := by
  unfold cnWrite
  try dsimp only
  repeat' split
  all_goals (first | (simp [SameMem]; done) | exact rfl | (simp_all [SameMem]; done) | grind [SameMem] | (simp [SameMem]; grind [SameMem]) | (simp +zetaDelta [SameMem]; done) | ((try dsimp only); (repeat' (first | (exact SameMem.refl _) | assumption | (simp [SameMem]; done) | split | with_reducible refine SameMem.trans (writeCnQuota_same ..) ?_ | with_reducible refine SameMem.trans (w1cEvents_same ..) ?_ | with_reducible refine SameMem.trans (SameMem.foldl (fun _ _ => ?_) _ _) ?_ | with_reducible refine SameMem.trans (SameMem.foldr (fun _ _ => ?_) _ _) ?_ | with_reducible refine SameMem.trans rfl ?_)); done) | (refine SameMem.foldl ?_ _ _; intro st x; (try dsimp only); (repeat' split); all_goals (first | (simp [SameMem]; done) | (simp_all [SameMem]; done) | grind [SameMem])))

@[simp] theorem cnWrite_mem (o : Nat) (p : Put) (s : State) : (cnWrite o p s).mem = s.mem := cnWrite_same o p s

theorem tkWrite_same (warden : Bool) (o : Nat) (p : Put) (s : State) : SameMem (tkWrite warden o p s) s := by
  unfold tkWrite
  try dsimp only
  repeat' split
  all_goals (first | (simp [SameMem]; done) | exact rfl | (simp_all [SameMem]; done) | grind [SameMem] | (simp [SameMem]; grind [SameMem]) | (simp +zetaDelta [SameMem]; done) | ((try dsimp only); (repeat' (first | (exact SameMem.refl _) | assumption | (simp [SameMem]; done) | split | with_reducible refine SameMem.trans (writeTkQuota_same ..) ?_ | with_reducible refine SameMem.trans (askAct_same ..) ?_ | with_reducible refine SameMem.trans (w1cEvents_same ..) ?_ | with_reducible refine SameMem.trans (SameMem.foldl (fun _ _ => ?_) _ _) ?_ | with_reducible refine SameMem.trans (SameMem.foldr (fun _ _ => ?_) _ _) ?_ | with_reducible refine SameMem.trans rfl ?_)); done) | (refine SameMem.foldl ?_ _ _; intro st x; (try dsimp only); (repeat' split); all_goals (first | (simp [SameMem]; done) | (simp_all [SameMem]; done) | grind [SameMem])))

@[simp] theorem tkWrite_mem (warden : Bool) (o : Nat) (p : Put) (s : State) : (tkWrite warden o p s).mem = s.mem := tkWrite_same warden o p s

theorem cqWrite_same (warden : Bool) (o : Nat) (p : Put) (s : State) : SameMem (cqWrite warden o p s) s := by
  unfold cqWrite
  try dsimp only
  repeat' split
  all_goals (first | (simp [SameMem]; done) | exact rfl | (simp_all [SameMem]; done) | grind [SameMem] | (simp [SameMem]; grind [SameMem]) | (simp +zetaDelta [SameMem]; done) | ((try dsimp only); (repeat' (first | (exact SameMem.refl _) | assumption | (simp [SameMem]; done) | split | with_reducible refine SameMem.trans (writeAllot_same ..) ?_ | with_reducible refine SameMem.trans (w1cEvents_same ..) ?_ | with_reducible refine SameMem.trans (SameMem.foldl (fun _ _ => ?_) _ _) ?_ | with_reducible refine SameMem.trans (SameMem.foldr (fun _ _ => ?_) _ _) ?_ | with_reducible refine SameMem.trans rfl ?_)); done) | (refine SameMem.foldl ?_ _ _; intro st x; (try dsimp only); (repeat' split); all_goals (first | (simp [SameMem]; done) | (simp_all [SameMem]; done) | grind [SameMem])))

@[simp] theorem cqWrite_mem (warden : Bool) (o : Nat) (p : Put) (s : State) : (cqWrite warden o p s).mem = s.mem := cqWrite_same warden o p s

theorem ilWrite_same (o : Nat) (p : Put) (s : State) : SameMem (ilWrite o p s) s := by
  unfold ilWrite
  try dsimp only
  repeat' split
  all_goals (first | (simp [SameMem]; done) | exact rfl | (simp_all [SameMem]; done) | grind [SameMem] | (simp [SameMem]; grind [SameMem]) | (simp +zetaDelta [SameMem]; done) | ((try dsimp only); (repeat' (first | (exact SameMem.refl _) | assumption | (simp [SameMem]; done) | split | with_reducible refine SameMem.trans (writePortCfg_same ..) ?_ | with_reducible refine SameMem.trans (w1cEvents_same ..) ?_ | with_reducible refine SameMem.trans (SameMem.foldl (fun _ _ => ?_) _ _) ?_ | with_reducible refine SameMem.trans (SameMem.foldr (fun _ _ => ?_) _ _) ?_ | with_reducible refine SameMem.trans rfl ?_)); done) | (refine SameMem.foldl ?_ _ _; intro st x; (try dsimp only); (repeat' split); all_goals (first | (simp [SameMem]; done) | (simp_all [SameMem]; done) | grind [SameMem])))

@[simp] theorem ilWrite_mem (o : Nat) (p : Put) (s : State) : (ilWrite o p s).mem = s.mem := ilWrite_same o p s

theorem coreBlockWrite_same (who : Who) (c i : Nat) (p : Put) (s : State) : SameMem (coreBlockWrite who c i p s) s := by
  unfold coreBlockWrite
  try dsimp only
  repeat' split
  all_goals (first | (simp [SameMem]; done) | exact rfl | (simp_all [SameMem]; done) | grind [SameMem] | (simp [SameMem]; grind [SameMem]) | (simp +zetaDelta [SameMem]; done) | ((try dsimp only); (repeat' (first | (exact SameMem.refl _) | assumption | (simp [SameMem]; done) | split | with_reducible refine SameMem.trans (updCore_same ..) ?_ | with_reducible refine SameMem.trans (writeSpill_same ..) ?_ | with_reducible refine SameMem.trans (clearStack_same ..) ?_ | with_reducible refine SameMem.trans (writeWmsg_same ..) ?_ | with_reducible refine SameMem.trans (SameMem.foldl (fun _ _ => ?_) _ _) ?_ | with_reducible refine SameMem.trans (SameMem.foldr (fun _ _ => ?_) _ _) ?_ | with_reducible refine SameMem.trans rfl ?_)); done) | (refine SameMem.foldl ?_ _ _; intro st x; (try dsimp only); (repeat' split); all_goals (first | (simp [SameMem]; done) | (simp_all [SameMem]; done) | grind [SameMem])))

@[simp] theorem coreBlockWrite_mem (who : Who) (c i : Nat) (p : Put) (s : State) : (coreBlockWrite who c i p s).mem = s.mem := coreBlockWrite_same who c i p s

theorem pcWrite_same (who : Who) (o : Nat) (p : Put) (s : State) : SameMem (pcWrite who o p s) s := by
  unfold pcWrite
  try dsimp only
  repeat' split
  all_goals (first | (simp [SameMem]; done) | exact rfl | (simp_all [SameMem]; done) | grind [SameMem] | (simp [SameMem]; grind [SameMem]) | (simp +zetaDelta [SameMem]; done) | ((try dsimp only); (repeat' (first | (exact SameMem.refl _) | assumption | (simp [SameMem]; done) | split | with_reducible refine SameMem.trans (writeFence_same ..) ?_ | with_reducible refine SameMem.trans (w1cEvents_same ..) ?_ | with_reducible refine SameMem.trans (coreBlockWrite_same ..) ?_ | with_reducible refine SameMem.trans (SameMem.foldl (fun _ _ => ?_) _ _) ?_ | with_reducible refine SameMem.trans (SameMem.foldr (fun _ _ => ?_) _ _) ?_ | with_reducible refine SameMem.trans rfl ?_)); done) | (refine SameMem.foldl ?_ _ _; intro st x; (try dsimp only); (repeat' split); all_goals (first | (simp [SameMem]; done) | (simp_all [SameMem]; done) | grind [SameMem])))

@[simp] theorem pcWrite_mem (who : Who) (o : Nat) (p : Put) (s : State) : (pcWrite who o p s).mem = s.mem := pcWrite_same who o p s

theorem brWrite_same (o : Nat) (p : Put) (s : State) : SameMem (brWrite o p s) s := by
  unfold brWrite
  try dsimp only
  repeat' split
  all_goals (first | (simp [SameMem]; done) | exact rfl | (simp_all [SameMem]; done) | grind [SameMem] | (simp [SameMem]; grind [SameMem]) | (simp +zetaDelta [SameMem]; done) | ((try dsimp only); (repeat' (first | (exact SameMem.refl _) | assumption | (simp [SameMem]; done) | split | with_reducible refine SameMem.trans (writeRegion_same ..) ?_ | with_reducible refine SameMem.trans (w1cEvents_same ..) ?_ | with_reducible refine SameMem.trans (SameMem.foldl (fun _ _ => ?_) _ _) ?_ | with_reducible refine SameMem.trans (SameMem.foldr (fun _ _ => ?_) _ _) ?_ | with_reducible refine SameMem.trans rfl ?_)); done) | (refine SameMem.foldl ?_ _ _; intro st x; (try dsimp only); (repeat' split); all_goals (first | (simp [SameMem]; done) | (simp_all [SameMem]; done) | grind [SameMem])))

@[simp] theorem brWrite_mem (o : Nat) (p : Put) (s : State) : (brWrite o p s).mem = s.mem := brWrite_same o p s

theorem fvWrite_same (warden : Bool) (o : Nat) (p : Put) (s : State) : SameMem (fvWrite warden o p s) s := by
  unfold fvWrite
  try dsimp only
  repeat' split
  all_goals (first | (simp [SameMem]; done) | exact rfl | (simp_all [SameMem]; done) | grind [SameMem] | (simp [SameMem]; grind [SameMem]) | (simp +zetaDelta [SameMem]; done) | ((try dsimp only); (repeat' (first | (exact SameMem.refl _) | assumption | (simp [SameMem]; done) | split | with_reducible refine SameMem.trans (w1cEvents_same ..) ?_ | with_reducible refine SameMem.trans (SameMem.foldl (fun _ _ => ?_) _ _) ?_ | with_reducible refine SameMem.trans (SameMem.foldr (fun _ _ => ?_) _ _) ?_ | with_reducible refine SameMem.trans rfl ?_)); done) | (refine SameMem.foldl ?_ _ _; intro st x; (try dsimp only); (repeat' split); all_goals (first | (simp [SameMem]; done) | (simp_all [SameMem]; done) | grind [SameMem])))

@[simp] theorem fvWrite_mem (warden : Bool) (o : Nat) (p : Put) (s : State) : (fvWrite warden o p s).mem = s.mem := fvWrite_same warden o p s

theorem cvWrite_same (warden : Bool) (o : Nat) (p : Put) (s : State) : SameMem (cvWrite warden o p s) s := by
  unfold cvWrite
  try dsimp only
  repeat' split
  all_goals (first | (simp [SameMem]; done) | exact rfl | (simp_all [SameMem]; done) | grind [SameMem] | (simp [SameMem]; grind [SameMem]) | (simp +zetaDelta [SameMem]; done) | ((try dsimp only); (repeat' (first | (exact SameMem.refl _) | assumption | (simp [SameMem]; done) | split | with_reducible refine SameMem.trans (writeCvOwn_same ..) ?_ | with_reducible refine SameMem.trans (w1cEvents_same ..) ?_ | with_reducible refine SameMem.trans (SameMem.foldl (fun _ _ => ?_) _ _) ?_ | with_reducible refine SameMem.trans (SameMem.foldr (fun _ _ => ?_) _ _) ?_ | with_reducible refine SameMem.trans rfl ?_)); done) | (refine SameMem.foldl ?_ _ _; intro st x; (try dsimp only); (repeat' split); all_goals (first | (simp [SameMem]; done) | (simp_all [SameMem]; done) | grind [SameMem])))

@[simp] theorem cvWrite_mem (warden : Bool) (o : Nat) (p : Put) (s : State) : (cvWrite warden o p s).mem = s.mem := cvWrite_same warden o p s

theorem cdWrite_same (o : Nat) (p : Put) (s : State) : SameMem (cdWrite o p s) s := by
  unfold cdWrite
  try dsimp only
  repeat' split
  all_goals (first | (simp [SameMem]; done) | exact rfl | (simp_all [SameMem]; done) | grind [SameMem] | (simp [SameMem]; grind [SameMem]) | (simp +zetaDelta [SameMem]; done) | ((try dsimp only); (repeat' (first | (exact SameMem.refl _) | assumption | (simp [SameMem]; done) | split | with_reducible refine SameMem.trans (updSc_same ..) ?_ | with_reducible refine SameMem.trans (writeMcCfg_same ..) ?_ | with_reducible refine SameMem.trans (writeScCfg_same ..) ?_ | with_reducible refine SameMem.trans (w1cEvents_same ..) ?_ | with_reducible refine SameMem.trans (SameMem.foldl (fun _ _ => ?_) _ _) ?_ | with_reducible refine SameMem.trans (SameMem.foldr (fun _ _ => ?_) _ _) ?_ | with_reducible refine SameMem.trans rfl ?_)); done) | (refine SameMem.foldl ?_ _ _; intro st x; (try dsimp only); (repeat' split); all_goals (first | (simp [SameMem]; done) | (simp_all [SameMem]; done) | grind [SameMem])))

@[simp] theorem cdWrite_mem (o : Nat) (p : Put) (s : State) : (cdWrite o p s).mem = s.mem := cdWrite_same o p s

theorem nfWrite_same (o : Nat) (p : Put) (s : State) : SameMem (nfWrite o p s) s := by
  unfold nfWrite
  try dsimp only
  repeat' split
  all_goals (first | (simp [SameMem]; done) | exact rfl | (simp_all [SameMem]; done) | grind [SameMem] | (simp [SameMem]; grind [SameMem]) | (simp +zetaDelta [SameMem]; done) | ((try dsimp only); (repeat' (first | (exact SameMem.refl _) | assumption | (simp [SameMem]; done) | split | with_reducible refine SameMem.trans (w1cEvents_same ..) ?_ | with_reducible refine SameMem.trans (SameMem.foldl (fun _ _ => ?_) _ _) ?_ | with_reducible refine SameMem.trans (SameMem.foldr (fun _ _ => ?_) _ _) ?_ | with_reducible refine SameMem.trans rfl ?_)); done) | (refine SameMem.foldl ?_ _ _; intro st x; (try dsimp only); (repeat' split); all_goals (first | (simp [SameMem]; done) | (simp_all [SameMem]; done) | grind [SameMem])))

@[simp] theorem nfWrite_mem (o : Nat) (p : Put) (s : State) : (nfWrite o p s).mem = s.mem := nfWrite_same o p s

theorem respPut_same (i : Nat) (v : W32) (s : State) : SameMem (respPut i v s) s := by
  unfold respPut
  try dsimp only
  repeat' split
  all_goals (first | (simp [SameMem]; done) | exact rfl | (simp_all [SameMem]; done) | grind [SameMem, writeResp_same] | (simp [SameMem]; grind [SameMem, writeResp_same]) | (simp +zetaDelta [SameMem]; done) | ((try dsimp only); (repeat' (first | (exact SameMem.refl _) | assumption | (simp [SameMem]; done) | split | with_reducible refine SameMem.trans (writeResp_same ..) ?_ | with_reducible refine SameMem.trans (SameMem.foldl (fun _ _ => ?_) _ _) ?_ | with_reducible refine SameMem.trans (SameMem.foldr (fun _ _ => ?_) _ _) ?_ | with_reducible refine SameMem.trans rfl ?_)); done) | (refine SameMem.foldl ?_ _ _; intro st x; (try dsimp only); (repeat' split); all_goals (first | (simp [SameMem]; done) | (simp_all [SameMem]; done) | grind [SameMem, writeResp_same])))

@[simp] theorem respPut_mem (i : Nat) (v : W32) (s : State) : (respPut i v s).mem = s.mem := respPut_same i v s

theorem tmWrite_same (o : Nat) (p : Put) (s : State) : SameMem (tmWrite o p s) s := by
  unfold tmWrite
  try dsimp only
  repeat' split
  all_goals (first | (simp [SameMem]; done) | exact rfl | (simp_all [SameMem]; done) | grind [SameMem] | (simp [SameMem]; grind [SameMem]) | (simp +zetaDelta [SameMem]; done) | ((try dsimp only); (repeat' (first | (exact SameMem.refl _) | assumption | (simp [SameMem]; done) | split | with_reducible refine SameMem.trans (writeLock_same ..) ?_ | with_reducible refine SameMem.trans (w1cEvents_same ..) ?_ | with_reducible refine SameMem.trans (respPut_same ..) ?_ | with_reducible refine SameMem.trans (SameMem.foldl (fun _ _ => ?_) _ _) ?_ | with_reducible refine SameMem.trans (SameMem.foldr (fun _ _ => ?_) _ _) ?_ | with_reducible refine SameMem.trans rfl ?_)); done) | (refine SameMem.foldl ?_ _ _; intro st x; (try dsimp only); (repeat' split); all_goals (first | (simp [SameMem]; done) | (simp_all [SameMem]; done) | grind [SameMem])))

@[simp] theorem tmWrite_mem (o : Nat) (p : Put) (s : State) : (tmWrite o p s).mem = s.mem := tmWrite_same o p s

theorem lcWrite_wf (o : Nat) (p : Put) (s : State) : KeepMem (lcWrite o p s) s := by
  unfold lcWrite
  try dsimp only
  iterate 30 all_goals (try first | with_reducible exact KeepMem.refl _ | assumption | split | with_reducible refine KeepMem.trans (onLow_wf _ _ _ (fun _ _ => ?_)) ?_ | with_reducible refine KeepMem.trans (transition_wf ..) ?_ | with_reducible refine KeepMem.trans (KeepMem.of_eq (w1cEvents_mem ..)) ?_ | with_reducible refine KeepMem.trans (KeepMem.foldl (fun _ _ => ?_) _ _) ?_ | with_reducible refine KeepMem.trans (KeepMem.foldr (fun _ _ => ?_) _ _) ?_ | with_reducible refine KeepMem.trans (KeepMem.foldl_fst (fun _ _ => ?_) _ _) ?_ | with_reducible refine KeepMem.trans (KeepMem.foldl_snd (fun _ _ => ?_) _ _) ?_ | with_reducible refine KeepMem.trans (KeepMem.foldl_thd (fun _ _ => ?_) _ _) ?_ | (apply KeepMem.of_eq; simp; done) | with_reducible refine KeepMem.trans (KeepMem.record ..) ?_)
  all_goals (first | grind [transition_wf])

theorem odWrite_same (o : Nat) (p : Put) (s : State) : SameMem (odWrite o p s) s := by
  unfold odWrite
  try dsimp only
  repeat' split
  all_goals (first | (simp [SameMem]; done) | exact rfl | (simp_all [SameMem]; done) | grind [SameMem] | (simp [SameMem]; grind [SameMem]) | (simp +zetaDelta [SameMem]; done) | ((try dsimp only); (repeat' (first | (exact SameMem.refl _) | assumption | (simp [SameMem]; done) | split | with_reducible refine SameMem.trans (w1cEvents_same ..) ?_ | with_reducible refine SameMem.trans (SameMem.foldl (fun _ _ => ?_) _ _) ?_ | with_reducible refine SameMem.trans (SameMem.foldr (fun _ _ => ?_) _ _) ?_ | with_reducible refine SameMem.trans rfl ?_)); done) | (refine SameMem.foldl ?_ _ _; intro st x; (try dsimp only); (repeat' split); all_goals (first | (simp [SameMem]; done) | (simp_all [SameMem]; done) | grind [SameMem])))

@[simp] theorem odWrite_mem (o : Nat) (p : Put) (s : State) : (odWrite o p s).mem = s.mem := odWrite_same o p s

theorem usWrite_same (o : Nat) (p : Put) (s : State) : SameMem (usWrite o p s) s := by
  unfold usWrite
  try dsimp only
  repeat' split
  all_goals (first | (simp [SameMem]; done) | exact rfl | (simp_all [SameMem]; done) | grind [SameMem] | (simp [SameMem]; grind [SameMem]) | (simp +zetaDelta [SameMem]; done) | ((try dsimp only); (repeat' (first | (exact SameMem.refl _) | assumption | (simp [SameMem]; done) | split | with_reducible refine SameMem.trans (unitRequest_same ..) ?_ | with_reducible refine SameMem.trans (w1cEvents_same ..) ?_ | with_reducible refine SameMem.trans (SameMem.foldl (fun _ _ => ?_) _ _) ?_ | with_reducible refine SameMem.trans (SameMem.foldr (fun _ _ => ?_) _ _) ?_ | with_reducible refine SameMem.trans rfl ?_)); done) | (refine SameMem.foldl ?_ _ _; intro st x; (try dsimp only); (repeat' split); all_goals (first | (simp [SameMem]; done) | (simp_all [SameMem]; done) | grind [SameMem])))

@[simp] theorem usWrite_mem (o : Nat) (p : Put) (s : State) : (usWrite o p s).mem = s.mem := usWrite_same o p s

theorem pmWrite_same (o : Nat) (p : Put) (s : State) : SameMem (pmWrite o p s) s := by
  unfold pmWrite
  try dsimp only
  repeat' split
  all_goals (first | (simp [SameMem]; done) | exact rfl | (simp_all [SameMem]; done) | grind [SameMem] | (simp [SameMem]; grind [SameMem]) | (simp +zetaDelta [SameMem]; done) | ((try dsimp only); (repeat' (first | (exact SameMem.refl _) | assumption | (simp [SameMem]; done) | split | with_reducible refine SameMem.trans (w1cEvents_same ..) ?_ | with_reducible refine SameMem.trans (SameMem.foldl (fun _ _ => ?_) _ _) ?_ | with_reducible refine SameMem.trans (SameMem.foldr (fun _ _ => ?_) _ _) ?_ | with_reducible refine SameMem.trans rfl ?_)); done) | (refine SameMem.foldl ?_ _ _; intro st x; (try dsimp only); (repeat' split); all_goals (first | (simp [SameMem]; done) | (simp_all [SameMem]; done) | grind [SameMem])))

@[simp] theorem pmWrite_mem (o : Nat) (p : Put) (s : State) : (pmWrite o p s).mem = s.mem := pmWrite_same o p s

theorem slotWrite_wf (who : Who) (n o : Nat) (p : Put) (s : State) : KeepMem (slotWrite who n o p s) s := by
  unfold slotWrite
  try dsimp only
  iterate 30 all_goals (try first | with_reducible exact KeepMem.refl _ | assumption | split | with_reducible refine KeepMem.trans (winsWrite_wf ..) ?_ | with_reducible refine KeepMem.trans (lcWrite_wf ..) ?_ | with_reducible refine KeepMem.trans (KeepMem.of_eq (cvWinWrite_mem ..)) ?_ | with_reducible refine KeepMem.trans (KeepMem.of_eq (exWrite_mem ..)) ?_ | with_reducible refine KeepMem.trans (KeepMem.of_eq (fwWinWrite_mem ..)) ?_ | with_reducible refine KeepMem.trans (KeepMem.of_eq (alWrite_mem ..)) ?_ | with_reducible refine KeepMem.trans (KeepMem.of_eq (tiWrite_mem ..)) ?_ | with_reducible refine KeepMem.trans (KeepMem.of_eq (cfWrite_mem ..)) ?_ | with_reducible refine KeepMem.trans (KeepMem.of_eq (stWrite_mem ..)) ?_ | with_reducible refine KeepMem.trans (KeepMem.of_eq (pkWrite_mem ..)) ?_ | with_reducible refine KeepMem.trans (KeepMem.of_eq (cnWrite_mem ..)) ?_ | with_reducible refine KeepMem.trans (KeepMem.of_eq (tkWrite_mem ..)) ?_ | with_reducible refine KeepMem.trans (KeepMem.of_eq (cqWrite_mem ..)) ?_ | with_reducible refine KeepMem.trans (KeepMem.of_eq (ilWrite_mem ..)) ?_ | with_reducible refine KeepMem.trans (KeepMem.of_eq (pcWrite_mem ..)) ?_ | with_reducible refine KeepMem.trans (KeepMem.of_eq (brWrite_mem ..)) ?_ | with_reducible refine KeepMem.trans (KeepMem.of_eq (fvWrite_mem ..)) ?_ | with_reducible refine KeepMem.trans (KeepMem.of_eq (cvWrite_mem ..)) ?_ | with_reducible refine KeepMem.trans (KeepMem.of_eq (cdWrite_mem ..)) ?_ | with_reducible refine KeepMem.trans (KeepMem.of_eq (nfWrite_mem ..)) ?_ | with_reducible refine KeepMem.trans (KeepMem.of_eq (tmWrite_mem ..)) ?_ | with_reducible refine KeepMem.trans (KeepMem.of_eq (odWrite_mem ..)) ?_ | with_reducible refine KeepMem.trans (KeepMem.of_eq (usWrite_mem ..)) ?_ | with_reducible refine KeepMem.trans (KeepMem.of_eq (pmWrite_mem ..)) ?_ | with_reducible refine KeepMem.trans (KeepMem.foldl (fun _ _ => ?_) _ _) ?_ | with_reducible refine KeepMem.trans (KeepMem.foldr (fun _ _ => ?_) _ _) ?_ | with_reducible refine KeepMem.trans (KeepMem.foldl_fst (fun _ _ => ?_) _ _) ?_ | with_reducible refine KeepMem.trans (KeepMem.foldl_snd (fun _ _ => ?_) _ _) ?_ | with_reducible refine KeepMem.trans (KeepMem.foldl_thd (fun _ _ => ?_) _ _) ?_ | (apply KeepMem.of_eq; simp; done) | with_reducible refine KeepMem.trans (KeepMem.record ..) ?_)

theorem csrRead_same (who : Who) (a width : Nat) (s : State) : SameMem (csrRead who a width s).2 s := slotRead_same ..

@[simp] theorem csrRead_mem (who : Who) (a width : Nat) (s : State) : (csrRead who a width s).2.mem = s.mem := csrRead_same who a width s

theorem csrWrite_wf (who : Who) (a width : Nat) (v : W64) (s : State) : KeepMem (csrWrite who a width v s) s := by
  unfold csrWrite
  try dsimp only
  iterate 30 all_goals (try first | with_reducible exact KeepMem.refl _ | assumption | split | with_reducible refine KeepMem.trans (slotWrite_wf ..) ?_ | with_reducible refine KeepMem.trans (KeepMem.foldl (fun _ _ => ?_) _ _) ?_ | with_reducible refine KeepMem.trans (KeepMem.foldr (fun _ _ => ?_) _ _) ?_ | with_reducible refine KeepMem.trans (KeepMem.foldl_fst (fun _ _ => ?_) _ _) ?_ | with_reducible refine KeepMem.trans (KeepMem.foldl_snd (fun _ _ => ?_) _ _) ?_ | with_reducible refine KeepMem.trans (KeepMem.foldl_thd (fun _ _ => ?_) _ _) ?_ | (apply KeepMem.of_eq; simp; done) | with_reducible refine KeepMem.trans (KeepMem.record ..) ?_)

theorem csrKst_same (c : Nat) (f : ReinField) (r : Rein) (s : State) : SameMem (csrKst c f r s) s := by
  unfold csrKst
  try dsimp only
  repeat' split
  all_goals (first | (simp [SameMem]; done) | exact rfl | (simp_all [SameMem]; done) | grind [SameMem] | (simp [SameMem]; grind [SameMem]) | (simp +zetaDelta [SameMem]; done) | ((try dsimp only); (repeat' (first | (exact SameMem.refl _) | assumption | (simp [SameMem]; done) | split | with_reducible refine SameMem.trans (writeSpill_same ..) ?_ | with_reducible refine SameMem.trans (winPut_same ..) ?_ | with_reducible refine SameMem.trans (updCvWin_same ..) ?_ | with_reducible refine SameMem.trans (SameMem.foldl (fun _ _ => ?_) _ _) ?_ | with_reducible refine SameMem.trans (SameMem.foldr (fun _ _ => ?_) _ _) ?_ | with_reducible refine SameMem.trans rfl ?_)); done) | (refine SameMem.foldl ?_ _ _; intro st x; (try dsimp only); (repeat' split); all_goals (first | (simp [SameMem]; done) | (simp_all [SameMem]; done) | grind [SameMem])))

@[simp] theorem csrKst_mem (c : Nat) (f : ReinField) (r : Rein) (s : State) : (csrKst c f r s).mem = s.mem := csrKst_same c f r s

end Sys2Proof.Machine
end

