-- ==== Sys2Proof/Laws/KeptObjects.lean ====
section
/-! SUPPORT. What each operation of Machine/Objects.lean keeps: the fuses, the life counters, the queue, and memory or its form. -/

namespace Sys2Proof.Machine

theorem objRead_core (i sub : Nat) (s : State) : SameAll (objRead i sub s).2 s := by
  unfold objRead
  split <;> simp [SameAll]

@[simp] theorem objRead_copies (i sub : Nat) (s : State) : (objRead i sub s).2.lc.copies = s.lc.copies := (objRead_core i sub s).1

@[simp] theorem objRead_life (i sub : Nat) (s : State) : (objRead i sub s).2.fv.life = s.fv.life := (objRead_core i sub s).2.1

@[simp] theorem objRead_pending (i sub : Nat) (s : State) : (objRead i sub s).2.pending = s.pending := (objRead_core i sub s).2.2

theorem orDenied_core (f : State → State) (s : State) (h : ∀ t, SameAll (f t) t) : SameAll (orDenied f s).2 s := by
  unfold orDenied
  split
  · exact h s
  · exact SameAll.refl _

@[simp] theorem orDenied_copies (f : State → State) (s : State) (h : ∀ t, (f t).lc.copies = t.lc.copies) : (orDenied f s).2.lc.copies = s.lc.copies := by
  unfold orDenied
  split
  · exact h s
  · rfl

@[simp] theorem orDenied_life (f : State → State) (s : State) (h : ∀ t, (f t).fv.life = t.fv.life) : (orDenied f s).2.fv.life = s.fv.life := by
  unfold orDenied
  split
  · exact h s
  · rfl

@[simp] theorem orDenied_pending (f : State → State) (s : State) (h : ∀ t, (f t).pending = t.pending) : (orDenied f s).2.pending = s.pending := by
  unfold orDenied
  split
  · exact h s
  · rfl

@[simp] theorem orKept_snd (r : Bool × State) : (orKept r).2 = r.2 := rfl

theorem keep_core (key v settle : Nat) (s : State) : SameAll (keep key v settle s) s := ⟨rfl, rfl, rfl⟩

@[simp] theorem keep_copies (key v settle : Nat) (s : State) : (keep key v settle s).lc.copies = s.lc.copies := (keep_core key v settle s).1

@[simp] theorem keep_life (key v settle : Nat) (s : State) : (keep key v settle s).fv.life = s.fv.life := (keep_core key v settle s).2.1

@[simp] theorem keep_pending (key v settle : Nat) (s : State) : (keep key v settle s).pending = s.pending := (keep_core key v settle s).2.2

theorem writeShareObj_core (res p v : Nat) (s : State) : SameAll (writeShareObj res p v s).2 s := by simp [writeShareObj, SameAll]

@[simp] theorem writeShareObj_copies (res p v : Nat) (s : State) : (writeShareObj res p v s).2.lc.copies = s.lc.copies := (writeShareObj_core res p v s).1

@[simp] theorem writeShareObj_life (res p v : Nat) (s : State) : (writeShareObj res p v s).2.fv.life = s.fv.life := (writeShareObj_core res p v s).2.1

@[simp] theorem writeShareObj_pending (res p v : Nat) (s : State) : (writeShareObj res p v s).2.pending = s.pending := (writeShareObj_core res p v s).2.2

theorem writeQuotaObj_core (i p : Nat) (v : W32) (s : State) : SameAll (writeQuotaObj i p v s).2 s := by
  unfold writeQuotaObj
  split <;> simp [SameAll]

@[simp] theorem writeQuotaObj_copies (i p : Nat) (v : W32) (s : State) : (writeQuotaObj i p v s).2.lc.copies = s.lc.copies := (writeQuotaObj_core i p v s).1

@[simp] theorem writeQuotaObj_life (i p : Nat) (v : W32) (s : State) : (writeQuotaObj i p v s).2.fv.life = s.fv.life := (writeQuotaObj_core i p v s).2.1

@[simp] theorem writeQuotaObj_pending (i p : Nat) (v : W32) (s : State) : (writeQuotaObj i p v s).2.pending = s.pending := (writeQuotaObj_core i p v s).2.2

theorem writeCred_core (c : Nat) (b : List Byte) (cred : Nat) (s : State) : SameAll (writeCred c b cred s).2 s := by
  unfold writeCred
  split <;> simp [SameAll]

@[simp] theorem writeCred_copies (c : Nat) (b : List Byte) (cred : Nat) (s : State) : (writeCred c b cred s).2.lc.copies = s.lc.copies := (writeCred_core c b cred s).1

@[simp] theorem writeCred_life (c : Nat) (b : List Byte) (cred : Nat) (s : State) : (writeCred c b cred s).2.fv.life = s.fv.life := (writeCred_core c b cred s).2.1

@[simp] theorem writeCred_pending (c : Nat) (b : List Byte) (cred : Nat) (s : State) : (writeCred c b cred s).2.pending = s.pending := (writeCred_core c b cred s).2.2

theorem closeBound_core (addr : Nat) (s : State) : SameAll (closeBound addr s) s := by simp [closeBound, SameAll]

@[simp] theorem closeBound_copies (addr : Nat) (s : State) : (closeBound addr s).lc.copies = s.lc.copies := (closeBound_core addr s).1

@[simp] theorem closeBound_life (addr : Nat) (s : State) : (closeBound addr s).fv.life = s.fv.life := (closeBound_core addr s).2.1

@[simp] theorem closeBound_pending (addr : Nat) (s : State) : (closeBound addr s).pending = s.pending := (closeBound_core addr s).2.2

theorem writeLow_core (i sub : Nat) (b : List Byte) (cred : Nat) (s : State) : SameAll (writeLow i sub b cred s).2 s := by
  unfold writeLow
  try dsimp only
  repeat' split
  all_goals simp [SameAll]

@[simp] theorem writeLow_copies (i sub : Nat) (b : List Byte) (cred : Nat) (s : State) : (writeLow i sub b cred s).2.lc.copies = s.lc.copies := (writeLow_core i sub b cred s).1

@[simp] theorem writeLow_life (i sub : Nat) (b : List Byte) (cred : Nat) (s : State) : (writeLow i sub b cred s).2.fv.life = s.fv.life := (writeLow_core i sub b cred s).2.1

@[simp] theorem writeLow_pending (i sub : Nat) (b : List Byte) (cred : Nat) (s : State) : (writeLow i sub b cred s).2.pending = s.pending := (writeLow_core i sub b cred s).2.2

theorem writeHigh_core (i sub : Nat) (b : List Byte) (cred : Nat) (s : State) : SameAll (writeHigh i sub b cred s).2 s := by
  unfold writeHigh
  split <;> simp [SameAll]

@[simp] theorem writeHigh_copies (i sub : Nat) (b : List Byte) (cred : Nat) (s : State) : (writeHigh i sub b cred s).2.lc.copies = s.lc.copies := (writeHigh_core i sub b cred s).1

@[simp] theorem writeHigh_life (i sub : Nat) (b : List Byte) (cred : Nat) (s : State) : (writeHigh i sub b cred s).2.fv.life = s.fv.life := (writeHigh_core i sub b cred s).2.1

@[simp] theorem writeHigh_pending (i sub : Nat) (b : List Byte) (cred : Nat) (s : State) : (writeHigh i sub b cred s).2.pending = s.pending := (writeHigh_core i sub b cred s).2.2

theorem objWrite_core (i sub : Nat) (b : List Byte) (cred : Nat) (s : State) : SameAll (objWrite i sub b cred s).2 s := by
  unfold objWrite
  split <;> simp [SameAll]

@[simp] theorem objWrite_copies (i sub : Nat) (b : List Byte) (cred : Nat) (s : State) : (objWrite i sub b cred s).2.lc.copies = s.lc.copies := (objWrite_core i sub b cred s).1

@[simp] theorem objWrite_life (i sub : Nat) (b : List Byte) (cred : Nat) (s : State) : (objWrite i sub b cred s).2.fv.life = s.fv.life := (objWrite_core i sub b cred s).2.1

@[simp] theorem objWrite_pending (i sub : Nat) (b : List Byte) (cred : Nat) (s : State) : (objWrite i sub b cred s).2.pending = s.pending := (objWrite_core i sub b cred s).2.2

theorem noteDisagree_core (s : State) : SameAll (noteDisagree s) s := by simp [noteDisagree, SameAll]

@[simp] theorem noteDisagree_copies (s : State) : (noteDisagree s).lc.copies = s.lc.copies := (noteDisagree_core s).1

@[simp] theorem noteDisagree_life (s : State) : (noteDisagree s).fv.life = s.fv.life := (noteDisagree_core s).2.1

@[simp] theorem noteDisagree_pending (s : State) : (noteDisagree s).pending = s.pending := (noteDisagree_core s).2.2

theorem objRead_same (i sub : Nat) (s : State) : SameMem (objRead i sub s).2 s := by
  unfold objRead
  split <;> simp [SameMem]

@[simp] theorem objRead_mem (i sub : Nat) (s : State) : (objRead i sub s).2.mem = s.mem := objRead_same i sub s

@[simp] theorem orDenied_mem (f : State → State) (s : State) (h : ∀ t, (f t).mem = t.mem) : (orDenied f s).2.mem = s.mem := by
  unfold orDenied
  split
  · exact h s
  · rfl

theorem keep_wf (key v settle : Nat) (s : State) : KeepMem (keep key v settle s) s := by
  unfold keep
  try dsimp only
  iterate 30 all_goals (try first | with_reducible exact KeepMem.refl _ | assumption | split | (apply KeepMem.of_eq; simp; done))

theorem writeShareObj_same (res p v : Nat) (s : State) : SameMem (writeShareObj res p v s).2 s := by simp [writeShareObj, SameMem]

@[simp] theorem writeShareObj_mem (res p v : Nat) (s : State) : (writeShareObj res p v s).2.mem = s.mem := writeShareObj_same res p v s

theorem writeQuotaObj_same (i p : Nat) (v : W32) (s : State) : SameMem (writeQuotaObj i p v s).2 s := by
  unfold writeQuotaObj
  split <;> simp [SameMem]

@[simp] theorem writeQuotaObj_mem (i p : Nat) (v : W32) (s : State) : (writeQuotaObj i p v s).2.mem = s.mem := writeQuotaObj_same i p v s

theorem writeCred_same (c : Nat) (b : List Byte) (cred : Nat) (s : State) : SameMem (writeCred c b cred s).2 s := by
  unfold writeCred
  split <;> simp [SameMem]

@[simp] theorem writeCred_mem (c : Nat) (b : List Byte) (cred : Nat) (s : State) : (writeCred c b cred s).2.mem = s.mem := writeCred_same c b cred s

theorem closeBound_same (addr : Nat) (s : State) : SameMem (closeBound addr s) s := by simp [closeBound, SameMem]

@[simp] theorem closeBound_mem (addr : Nat) (s : State) : (closeBound addr s).mem = s.mem := closeBound_same addr s

theorem writeLow_wf (i sub : Nat) (b : List Byte) (cred : Nat) (s : State) : KeepMem (writeLow i sub b cred s).2 s := by
  unfold writeLow
  try dsimp only
  iterate 30 all_goals (try first | with_reducible exact KeepMem.refl _ | assumption | split | with_reducible refine KeepMem.trans (transition_wf ..) ?_ | with_reducible refine KeepMem.trans (keep_wf ..) ?_ | with_reducible refine KeepMem.trans (KeepMem.of_eq (reacquire_mem ..)) ?_ | with_reducible refine KeepMem.trans (KeepMem.of_eq (endSession_mem ..)) ?_ | with_reducible refine KeepMem.trans (KeepMem.of_eq (presentCert_mem ..)) ?_ | with_reducible refine KeepMem.trans (KeepMem.of_eq (enrolDebugKey_mem ..)) ?_ | with_reducible refine KeepMem.trans (KeepMem.of_eq (unitRequest_mem ..)) ?_ | with_reducible refine KeepMem.trans (KeepMem.of_eq (fwChunk_mem ..)) ?_ | with_reducible refine KeepMem.trans (KeepMem.of_eq (fwVerify_mem ..)) ?_ | with_reducible refine KeepMem.trans (KeepMem.of_eq (fwSwitch_mem ..)) ?_ | with_reducible refine KeepMem.trans (KeepMem.of_eq (fwCancel_mem ..)) ?_ | with_reducible refine KeepMem.trans (KeepMem.of_eq (writeShareObj_mem ..)) ?_ | with_reducible refine KeepMem.trans (KeepMem.of_eq (writeCred_mem ..)) ?_ | (apply KeepMem.of_eq; simp; done))

theorem writeHigh_wf (i sub : Nat) (b : List Byte) (cred : Nat) (s : State) : KeepMem (writeHigh i sub b cred s).2 s := by
  unfold writeHigh
  try dsimp only
  iterate 30 all_goals (try first | with_reducible exact KeepMem.refl _ | assumption | split | with_reducible refine KeepMem.trans (keep_wf ..) ?_ | with_reducible refine KeepMem.trans (KeepMem.of_eq (clearEvents_mem ..)) ?_ | with_reducible refine KeepMem.trans (KeepMem.of_eq (askAct_mem ..)) ?_ | with_reducible refine KeepMem.trans (KeepMem.of_eq (actPaddock_mem ..)) ?_ | with_reducible refine KeepMem.trans (KeepMem.of_eq (forceOutcome_mem ..)) ?_ | with_reducible refine KeepMem.trans (KeepMem.of_eq (cfgRefused_mem ..)) ?_ | with_reducible refine KeepMem.trans (KeepMem.of_eq (writeResp_mem ..)) ?_ | with_reducible refine KeepMem.trans (KeepMem.of_eq (writeQuotaObj_mem ..)) ?_ | (apply KeepMem.of_eq; simp; done))

theorem objWrite_wf (i sub : Nat) (b : List Byte) (cred : Nat) (s : State) : KeepMem (objWrite i sub b cred s).2 s := by
  unfold objWrite
  try dsimp only
  iterate 8 all_goals (try first | with_reducible exact KeepMem.refl _ | assumption | split | with_reducible refine KeepMem.trans (csrWrite_wf ..) ?_ | with_reducible refine KeepMem.trans (writeLow_wf ..) ?_ | with_reducible refine KeepMem.trans (writeHigh_wf ..) ?_)

theorem noteDisagree_same (s : State) : SameMem (noteDisagree s) s := by simp [noteDisagree, SameMem]

@[simp] theorem noteDisagree_mem (s : State) : (noteDisagree s).mem = s.mem := noteDisagree_same s

end Sys2Proof.Machine
end

