-- ==== Sys2Proof/Laws/KeptDict.lean ====
section
/-! SUPPORT. What each operation of Machine/Dict.lean keeps: the fuses, the life counters, the queue, and memory or its form. -/

namespace Sys2Proof.Machine

theorem portSend_core (b : List Byte) (s : State) : SameAll (portSend b s) s := ⟨rfl, rfl, rfl⟩

@[simp] theorem portSend_copies (b : List Byte) (s : State) : (portSend b s).lc.copies = s.lc.copies := (portSend_core b s).1

@[simp] theorem portSend_life (b : List Byte) (s : State) : (portSend b s).fv.life = s.fv.life := (portSend_core b s).2.1

@[simp] theorem portSend_pending (b : List Byte) (s : State) : (portSend b s).pending = s.pending := (portSend_core b s).2.2

theorem sendMac_core (m : MgmtSession) (t seq : Nat) (body : List Byte) (s : State) : SameAll (sendMac m t seq body s) s := ⟨rfl, rfl, rfl⟩

@[simp] theorem sendMac_copies (m : MgmtSession) (t seq : Nat) (body : List Byte) (s : State) : (sendMac m t seq body s).lc.copies = s.lc.copies := (sendMac_core m t seq body s).1

@[simp] theorem sendMac_life (m : MgmtSession) (t seq : Nat) (body : List Byte) (s : State) : (sendMac m t seq body s).fv.life = s.fv.life := (sendMac_core m t seq body s).2.1

@[simp] theorem sendMac_pending (m : MgmtSession) (t seq : Nat) (body : List Byte) (s : State) : (sendMac m t seq body s).pending = s.pending := (sendMac_core m t seq body s).2.2

theorem putSession_core (m : MgmtSession) (s : State) : SameAll (putSession m s) s := ⟨rfl, rfl, rfl⟩

@[simp] theorem putSession_copies (m : MgmtSession) (s : State) : (putSession m s).lc.copies = s.lc.copies := (putSession_core m s).1

@[simp] theorem putSession_life (m : MgmtSession) (s : State) : (putSession m s).fv.life = s.fv.life := (putSession_core m s).2.1

@[simp] theorem putSession_pending (m : MgmtSession) (s : State) : (putSession m s).pending = s.pending := (putSession_core m s).2.2

theorem closeSession_core (sid : Nat) (s : State) : SameAll (closeSession sid s) s := by simp [closeSession, SameAll]

@[simp] theorem closeSession_copies (sid : Nat) (s : State) : (closeSession sid s).lc.copies = s.lc.copies := (closeSession_core sid s).1

@[simp] theorem closeSession_life (sid : Nat) (s : State) : (closeSession sid s).fv.life = s.fv.life := (closeSession_core sid s).2.1

@[simp] theorem closeSession_pending (sid : Nat) (s : State) : (closeSession sid s).pending = s.pending := (closeSession_core sid s).2.2

theorem deviceClose_core (m : MgmtSession) (s : State) : SameAll (deviceClose m s) s := by simp [deviceClose, SameAll]

@[simp] theorem deviceClose_copies (m : MgmtSession) (s : State) : (deviceClose m s).lc.copies = s.lc.copies := (deviceClose_core m s).1

@[simp] theorem deviceClose_life (m : MgmtSession) (s : State) : (deviceClose m s).fv.life = s.fv.life := (deviceClose_core m s).2.1

@[simp] theorem deviceClose_pending (m : MgmtSession) (s : State) : (deviceClose m s).pending = s.pending := (deviceClose_core m s).2.2

theorem agreed_core (priv pt : List Byte) (s : State) : SameAll (agreed priv pt s).2 s := by simp [agreed, SameAll]

@[simp] theorem agreed_copies (priv pt : List Byte) (s : State) : (agreed priv pt s).2.lc.copies = s.lc.copies := (agreed_core priv pt s).1

@[simp] theorem agreed_life (priv pt : List Byte) (s : State) : (agreed priv pt s).2.fv.life = s.fv.life := (agreed_core priv pt s).2.1

@[simp] theorem agreed_pending (priv pt : List Byte) (s : State) : (agreed priv pt s).2.pending = s.pending := (agreed_core priv pt s).2.2

theorem openDict_core (d : List Byte) (addr : Nat) (s : State) : SameAll (openDict d addr s) s := by simp [openDict, SameAll]

@[simp] theorem openDict_copies (d : List Byte) (addr : Nat) (s : State) : (openDict d addr s).lc.copies = s.lc.copies := (openDict_core d addr s).1

@[simp] theorem openDict_life (d : List Byte) (addr : Nat) (s : State) : (openDict d addr s).fv.life = s.fv.life := (openDict_core d addr s).2.1

@[simp] theorem openDict_pending (d : List Byte) (addr : Nat) (s : State) : (openDict d addr s).pending = s.pending := (openDict_core d addr s).2.2

theorem respondTo_core (r : MgmtReq) (status : Nat) (v : List Byte) (s : State) : SameAll (respondTo r status v s) s := by
  unfold respondTo
  split <;> simp [SameAll]

@[simp] theorem respondTo_copies (r : MgmtReq) (status : Nat) (v : List Byte) (s : State) : (respondTo r status v s).lc.copies = s.lc.copies := (respondTo_core r status v s).1

@[simp] theorem respondTo_life (r : MgmtReq) (status : Nat) (v : List Byte) (s : State) : (respondTo r status v s).fv.life = s.fv.life := (respondTo_core r status v s).2.1

@[simp] theorem respondTo_pending (r : MgmtReq) (status : Nat) (v : List Byte) (s : State) : (respondTo r status v s).pending = s.pending := (respondTo_core r status v s).2.2

theorem setSubs_core (m : MgmtSession) (key : Nat) (v : Option (List Byte)) (s : State) : SameAll (setSubs m key v s) s := ⟨rfl, rfl, rfl⟩

@[simp] theorem setSubs_copies (m : MgmtSession) (key : Nat) (v : Option (List Byte)) (s : State) : (setSubs m key v s).lc.copies = s.lc.copies := (setSubs_core m key v s).1

@[simp] theorem setSubs_life (m : MgmtSession) (key : Nat) (v : Option (List Byte)) (s : State) : (setSubs m key v s).fv.life = s.fv.life := (setSubs_core m key v s).2.1

@[simp] theorem setSubs_pending (m : MgmtSession) (key : Nat) (v : Option (List Byte)) (s : State) : (setSubs m key v s).pending = s.pending := (setSubs_core m key v s).2.2

theorem serveOne_core (m : MgmtSession) (r : MgmtReq) (s : State) : SameAll (serveOne m r s) s := by
  unfold serveOne
  try dsimp only
  repeat' split
  all_goals simp [SameAll]

@[simp] theorem serveOne_copies (m : MgmtSession) (r : MgmtReq) (s : State) : (serveOne m r s).lc.copies = s.lc.copies := (serveOne_core m r s).1

@[simp] theorem serveOne_life (m : MgmtSession) (r : MgmtReq) (s : State) : (serveOne m r s).fv.life = s.fv.life := (serveOne_core m r s).2.1

@[simp] theorem serveOne_pending (m : MgmtSession) (r : MgmtReq) (s : State) : (serveOne m r s).pending = s.pending := (serveOne_core m r s).2.2

theorem serveInbox_core (x0 : Nat) (s : State) : SameAll (serveInbox x0 s) s := by
  fun_induction serveInbox x0 s
  all_goals (first | (exact SameAll.refl _) | (simp [SameAll]; done) | skip)
  rename_i ih
  refine SameAll.trans ih ?_
  split
  · refine SameAll.trans (serveOne_core ..) ⟨rfl, rfl, rfl⟩
  · exact ⟨rfl, rfl, rfl⟩

@[simp] theorem serveInbox_copies (x0 : Nat) (s : State) : (serveInbox x0 s).lc.copies = s.lc.copies := (serveInbox_core x0 s).1

@[simp] theorem serveInbox_life (x0 : Nat) (s : State) : (serveInbox x0 s).fv.life = s.fv.life := (serveInbox_core x0 s).2.1

@[simp] theorem serveInbox_pending (x0 : Nat) (s : State) : (serveInbox x0 s).pending = s.pending := (serveInbox_core x0 s).2.2

theorem serveAll_core (s : State) : SameAll (serveAll s) s := by simp [serveAll, SameAll]

@[simp] theorem serveAll_copies (s : State) : (serveAll s).lc.copies = s.lc.copies := (serveAll_core s).1

@[simp] theorem serveAll_life (s : State) : (serveAll s).fv.life = s.fv.life := (serveAll_core s).2.1

@[simp] theorem serveAll_pending (s : State) : (serveAll s).pending = s.pending := (serveAll_core s).2.2

theorem macFailed_core (m : MgmtSession) (s : State) : SameAll (macFailed m s) s := by simp [macFailed, SameAll]

@[simp] theorem macFailed_copies (m : MgmtSession) (s : State) : (macFailed m s).lc.copies = s.lc.copies := (macFailed_core m s).1

@[simp] theorem macFailed_life (m : MgmtSession) (s : State) : (macFailed m s).fv.life = s.fv.life := (macFailed_core m s).2.1

@[simp] theorem macFailed_pending (m : MgmtSession) (s : State) : (macFailed m s).pending = s.pending := (macFailed_core m s).2.2

theorem receiveDgram_core (d : List Byte) (s : State) : SameAll (receiveDgram d s) s := by
  unfold receiveDgram
  try dsimp only
  repeat' split
  all_goals simp [SameAll]

@[simp] theorem receiveDgram_copies (d : List Byte) (s : State) : (receiveDgram d s).lc.copies = s.lc.copies := (receiveDgram_core d s).1

@[simp] theorem receiveDgram_life (d : List Byte) (s : State) : (receiveDgram d s).fv.life = s.fv.life := (receiveDgram_core d s).2.1

@[simp] theorem receiveDgram_pending (d : List Byte) (s : State) : (receiveDgram d s).pending = s.pending := (receiveDgram_core d s).2.2

theorem receiveKind_core (ks : List Nat) (d : List Byte) (s : State) : SameAll (receiveKind ks d s) s := by simp [receiveKind, SameAll]

@[simp] theorem receiveKind_copies (ks : List Nat) (d : List Byte) (s : State) : (receiveKind ks d s).lc.copies = s.lc.copies := (receiveKind_core ks d s).1

@[simp] theorem receiveKind_life (ks : List Nat) (d : List Byte) (s : State) : (receiveKind ks d s).fv.life = s.fv.life := (receiveKind_core ks d s).2.1

@[simp] theorem receiveKind_pending (ks : List Nat) (d : List Byte) (s : State) : (receiveKind ks d s).pending = s.pending := (receiveKind_core ks d s).2.2

theorem endWrite_core (w : MgmtWrite) (status : Nat) (v : List Byte) (s : State) : SameAll (endWrite w status v s) s := by simp [endWrite, SameAll]

@[simp] theorem endWrite_copies (w : MgmtWrite) (status : Nat) (v : List Byte) (s : State) : (endWrite w status v s).lc.copies = s.lc.copies := (endWrite_core w status v s).1

@[simp] theorem endWrite_life (w : MgmtWrite) (status : Nat) (v : List Byte) (s : State) : (endWrite w status v s).fv.life = s.fv.life := (endWrite_core w status v s).2.1

@[simp] theorem endWrite_pending (w : MgmtWrite) (status : Nat) (v : List Byte) (s : State) : (endWrite w status v s).pending = s.pending := (endWrite_core w status v s).2.2

theorem storeValue_core (w : MgmtWrite) (s : State) : SameAll (storeValue w s) s := by simp [storeValue, SameAll]

@[simp] theorem storeValue_copies (w : MgmtWrite) (s : State) : (storeValue w s).lc.copies = s.lc.copies := (storeValue_core w s).1

@[simp] theorem storeValue_life (w : MgmtWrite) (s : State) : (storeValue w s).fv.life = s.fv.life := (storeValue_core w s).2.1

@[simp] theorem storeValue_pending (w : MgmtWrite) (s : State) : (storeValue w s).pending = s.pending := (storeValue_core w s).2.2

theorem noticesOf_core (sid : Nat) (s : State) : SameAll (noticesOf sid s) s := by
  unfold noticesOf
  try dsimp only
  repeat' split
  all_goals (first | (simp [SameAll]; done) | exact ⟨rfl, rfl, rfl⟩ | (simp_all [SameAll]; done) | grind [SameAll] | (simp [SameAll]; grind [SameAll]) | (simp +zetaDelta [SameAll]; done) | ((try dsimp only); (repeat' (first | (exact SameAll.refl _) | assumption | (simp [SameAll]; done) | split | with_reducible refine SameAll.trans (sendMac_core ..) ?_ | with_reducible refine SameAll.trans (putSession_core ..) ?_ | with_reducible refine SameAll.trans (SameAll.foldl (fun _ _ => ?_) _ _) ?_ | with_reducible refine SameAll.trans (SameAll.foldr (fun _ _ => ?_) _ _) ?_ | with_reducible refine SameAll.trans ⟨rfl, rfl, rfl⟩ ?_)); done) | (refine SameAll.foldl ?_ _ _; intro st x; (try dsimp only); (repeat' split); all_goals (first | (simp [SameAll]; done) | (simp_all [SameAll]; done) | grind [SameAll])))

@[simp] theorem noticesOf_copies (sid : Nat) (s : State) : (noticesOf sid s).lc.copies = s.lc.copies := (noticesOf_core sid s).1

@[simp] theorem noticesOf_life (sid : Nat) (s : State) : (noticesOf sid s).fv.life = s.fv.life := (noticesOf_core sid s).2.1

@[simp] theorem noticesOf_pending (sid : Nat) (s : State) : (noticesOf sid s).pending = s.pending := (noticesOf_core sid s).2.2

theorem pushNotices_core (s : State) : SameAll (pushNotices s) s := by simp [pushNotices, SameAll]

@[simp] theorem pushNotices_copies (s : State) : (pushNotices s).lc.copies = s.lc.copies := (pushNotices_core s).1

@[simp] theorem pushNotices_life (s : State) : (pushNotices s).fv.life = s.fv.life := (pushNotices_core s).2.1

@[simp] theorem pushNotices_pending (s : State) : (pushNotices s).pending = s.pending := (pushNotices_core s).2.2

theorem echo4_core (frame : List Byte) (s : State) : SameAll (echo4 frame s) s := by simp [echo4, SameAll]

@[simp] theorem echo4_copies (frame : List Byte) (s : State) : (echo4 frame s).lc.copies = s.lc.copies := (echo4_core frame s).1

@[simp] theorem echo4_life (frame : List Byte) (s : State) : (echo4 frame s).fv.life = s.fv.life := (echo4_core frame s).2.1

@[simp] theorem echo4_pending (frame : List Byte) (s : State) : (echo4 frame s).pending = s.pending := (echo4_core frame s).2.2

theorem echo6_core (frame : List Byte) (s : State) : SameAll (echo6 frame s) s := by
  unfold echo6
  split <;> simp [SameAll]

@[simp] theorem echo6_copies (frame : List Byte) (s : State) : (echo6 frame s).lc.copies = s.lc.copies := (echo6_core frame s).1

@[simp] theorem echo6_life (frame : List Byte) (s : State) : (echo6 frame s).fv.life = s.fv.life := (echo6_core frame s).2.1

@[simp] theorem echo6_pending (frame : List Byte) (s : State) : (echo6 frame s).pending = s.pending := (echo6_core frame s).2.2

theorem portSend_same (b : List Byte) (s : State) : SameMem (portSend b s) s := rfl

@[simp] theorem portSend_mem (b : List Byte) (s : State) : (portSend b s).mem = s.mem := portSend_same b s

theorem sendMac_same (m : MgmtSession) (t seq : Nat) (body : List Byte) (s : State) : SameMem (sendMac m t seq body s) s := rfl

@[simp] theorem sendMac_mem (m : MgmtSession) (t seq : Nat) (body : List Byte) (s : State) : (sendMac m t seq body s).mem = s.mem := sendMac_same m t seq body s

theorem putSession_same (m : MgmtSession) (s : State) : SameMem (putSession m s) s := rfl

@[simp] theorem putSession_mem (m : MgmtSession) (s : State) : (putSession m s).mem = s.mem := putSession_same m s

theorem closeSession_same (sid : Nat) (s : State) : SameMem (closeSession sid s) s := by simp [closeSession, SameMem]

@[simp] theorem closeSession_mem (sid : Nat) (s : State) : (closeSession sid s).mem = s.mem := closeSession_same sid s

theorem deviceClose_same (m : MgmtSession) (s : State) : SameMem (deviceClose m s) s := by simp [deviceClose, SameMem]

@[simp] theorem deviceClose_mem (m : MgmtSession) (s : State) : (deviceClose m s).mem = s.mem := deviceClose_same m s

theorem agreed_same (priv pt : List Byte) (s : State) : SameMem (agreed priv pt s).2 s := by simp [agreed, SameMem]

@[simp] theorem agreed_mem (priv pt : List Byte) (s : State) : (agreed priv pt s).2.mem = s.mem := agreed_same priv pt s

theorem openDict_same (d : List Byte) (addr : Nat) (s : State) : SameMem (openDict d addr s) s := by simp [openDict, SameMem]

@[simp] theorem openDict_mem (d : List Byte) (addr : Nat) (s : State) : (openDict d addr s).mem = s.mem := openDict_same d addr s

theorem respondTo_same (r : MgmtReq) (status : Nat) (v : List Byte) (s : State) : SameMem (respondTo r status v s) s := by
  unfold respondTo
  split <;> simp [SameMem]

@[simp] theorem respondTo_mem (r : MgmtReq) (status : Nat) (v : List Byte) (s : State) : (respondTo r status v s).mem = s.mem := respondTo_same r status v s

theorem setSubs_same (m : MgmtSession) (key : Nat) (v : Option (List Byte)) (s : State) : SameMem (setSubs m key v s) s := rfl

@[simp] theorem setSubs_mem (m : MgmtSession) (key : Nat) (v : Option (List Byte)) (s : State) : (setSubs m key v s).mem = s.mem := setSubs_same m key v s

theorem serveOne_wf (m : MgmtSession) (r : MgmtReq) (s : State) : KeepMem (serveOne m r s) s := by
  unfold serveOne
  try dsimp only
  iterate 30 all_goals (try first | with_reducible exact KeepMem.refl _ | assumption | split | with_reducible refine KeepMem.trans (objWrite_wf ..) ?_ | with_reducible refine KeepMem.trans (KeepMem.of_eq (objRead_mem ..)) ?_ | with_reducible refine KeepMem.trans (KeepMem.of_eq (respondTo_mem ..)) ?_ | with_reducible refine KeepMem.trans (KeepMem.of_eq (setSubs_mem ..)) ?_ | (apply KeepMem.of_eq; simp; done))

theorem serveInbox_wf (x0 : Nat) (s : State) : KeepMem (serveInbox x0 s) s := by
  fun_induction serveInbox x0 s
  iterate 30 all_goals (try first | with_reducible exact KeepMem.refl _ | (refine KeepMem.trans (by assumption) ?_) | split | with_reducible refine KeepMem.trans (serveOne_wf ..) ?_ | with_reducible refine KeepMem.trans (KeepMem.foldl (fun _ _ => ?_) _ _) ?_ | with_reducible refine KeepMem.trans (KeepMem.foldr (fun _ _ => ?_) _ _) ?_ | with_reducible refine KeepMem.trans (KeepMem.foldl_fst (fun _ _ => ?_) _ _) ?_ | with_reducible refine KeepMem.trans (KeepMem.foldl_snd (fun _ _ => ?_) _ _) ?_ | with_reducible refine KeepMem.trans (KeepMem.foldl_thd (fun _ _ => ?_) _ _) ?_ | (apply KeepMem.of_eq; simp; done) | with_reducible refine KeepMem.trans (KeepMem.record ..) ?_)

theorem serveAll_wf (s : State) : KeepMem (serveAll s) s := by
  unfold serveAll
  try dsimp only
  iterate 8 all_goals (try first | with_reducible exact KeepMem.refl _ | assumption | split | with_reducible refine KeepMem.trans (serveInbox_wf ..) ?_)

theorem macFailed_same (m : MgmtSession) (s : State) : SameMem (macFailed m s) s := by simp [macFailed, SameMem]

@[simp] theorem macFailed_mem (m : MgmtSession) (s : State) : (macFailed m s).mem = s.mem := macFailed_same m s

theorem receiveDgram_wf (d : List Byte) (s : State) : KeepMem (receiveDgram d s) s := by
  unfold receiveDgram
  try dsimp only
  iterate 30 all_goals (try first | with_reducible exact KeepMem.refl _ | assumption | split | with_reducible refine KeepMem.trans (serveAll_wf ..) ?_ | with_reducible refine KeepMem.trans (KeepMem.of_eq (setEventIf_mem ..)) ?_ | with_reducible refine KeepMem.trans (KeepMem.of_eq (putSession_mem ..)) ?_ | with_reducible refine KeepMem.trans (KeepMem.of_eq (closeSession_mem ..)) ?_ | with_reducible refine KeepMem.trans (KeepMem.of_eq (macFailed_mem ..)) ?_)

theorem receiveKind_wf (ks : List Nat) (d : List Byte) (s : State) : KeepMem (receiveKind ks d s) s := by
  unfold receiveKind
  try dsimp only
  iterate 8 all_goals (try first | with_reducible exact KeepMem.refl _ | assumption | split | with_reducible refine KeepMem.trans (receiveDgram_wf ..) ?_)

theorem endWrite_wf (w : MgmtWrite) (status : Nat) (v : List Byte) (s : State) : KeepMem (endWrite w status v s) s := by
  unfold endWrite
  try dsimp only
  iterate 30 all_goals (try first | with_reducible exact KeepMem.refl _ | assumption | split | with_reducible refine KeepMem.trans (serveAll_wf ..) ?_ | with_reducible refine KeepMem.trans (KeepMem.of_eq (closeBound_mem ..)) ?_ | with_reducible refine KeepMem.trans (KeepMem.of_eq (respondTo_mem ..)) ?_ | (apply KeepMem.of_eq; simp; done))

theorem storeValue_same (w : MgmtWrite) (s : State) : SameMem (storeValue w s) s := by simp [storeValue, SameMem]

@[simp] theorem storeValue_mem (w : MgmtWrite) (s : State) : (storeValue w s).mem = s.mem := storeValue_same w s

theorem noticesOf_same (sid : Nat) (s : State) : SameMem (noticesOf sid s) s := by
  unfold noticesOf
  try dsimp only
  repeat' split
  all_goals (first | (simp [SameMem]; done) | exact rfl | (simp_all [SameMem]; done) | grind [SameMem] | (simp [SameMem]; grind [SameMem]) | (simp +zetaDelta [SameMem]; done) | ((try dsimp only); (repeat' (first | (exact SameMem.refl _) | assumption | (simp [SameMem]; done) | split | with_reducible refine SameMem.trans (sendMac_same ..) ?_ | with_reducible refine SameMem.trans (putSession_same ..) ?_ | with_reducible refine SameMem.trans (SameMem.foldl (fun _ _ => ?_) _ _) ?_ | with_reducible refine SameMem.trans (SameMem.foldr (fun _ _ => ?_) _ _) ?_ | with_reducible refine SameMem.trans rfl ?_)); done) | (refine SameMem.foldl ?_ _ _; intro st x; (try dsimp only); (repeat' split); all_goals (first | (simp [SameMem]; done) | (simp_all [SameMem]; done) | grind [SameMem])))

@[simp] theorem noticesOf_mem (sid : Nat) (s : State) : (noticesOf sid s).mem = s.mem := noticesOf_same sid s

theorem pushNotices_same (s : State) : SameMem (pushNotices s) s := by simp [pushNotices, SameMem]

@[simp] theorem pushNotices_mem (s : State) : (pushNotices s).mem = s.mem := pushNotices_same s

theorem echo4_same (frame : List Byte) (s : State) : SameMem (echo4 frame s) s := by simp [echo4, SameMem]

@[simp] theorem echo4_mem (frame : List Byte) (s : State) : (echo4 frame s).mem = s.mem := echo4_same frame s

theorem echo6_same (frame : List Byte) (s : State) : SameMem (echo6 frame s) s := by
  unfold echo6
  split <;> simp [SameMem]

@[simp] theorem echo6_mem (frame : List Byte) (s : State) : (echo6 frame s).mem = s.mem := echo6_same frame s

end Sys2Proof.Machine
end

