-- ==== Sys2Proof/Laws/KeptBoot.lean ====
section
/-! SUPPORT. What each operation of Machine/Boot.lean keeps: the fuses, the life counters, the queue, and memory or its form. -/

namespace Sys2Proof.Machine

theorem takeShares_core (s : State) : SameAll (takeShares s) s := ⟨rfl, rfl, rfl⟩

@[simp] theorem takeShares_copies (s : State) : (takeShares s).lc.copies = s.lc.copies := (takeShares_core s).1

@[simp] theorem takeShares_life (s : State) : (takeShares s).fv.life = s.fv.life := (takeShares_core s).2.1

@[simp] theorem takeShares_pending (s : State) : (takeShares s).pending = s.pending := (takeShares_core s).2.2

theorem frameEffects_core (s : State) : SameAll (frameEffects s) s := by simp [frameEffects, SameAll]

@[simp] theorem frameEffects_copies (s : State) : (frameEffects s).lc.copies = s.lc.copies := (frameEffects_core s).1

@[simp] theorem frameEffects_life (s : State) : (frameEffects s).fv.life = s.fv.life := (frameEffects_core s).2.1

@[simp] theorem frameEffects_pending (s : State) : (frameEffects s).pending = s.pending := (frameEffects_core s).2.2

theorem followRail_core (r mv : Nat) (s : State) : SameAll (followRail r mv s) s := by simp [followRail, SameAll]

@[simp] theorem followRail_copies (r mv : Nat) (s : State) : (followRail r mv s).lc.copies = s.lc.copies := (followRail_core r mv s).1

@[simp] theorem followRail_life (r mv : Nat) (s : State) : (followRail r mv s).fv.life = s.fv.life := (followRail_core r mv s).2.1

@[simp] theorem followRail_pending (r mv : Nat) (s : State) : (followRail r mv s).pending = s.pending := (followRail_core r mv s).2.2

theorem lossActs_core (s : State) : SameAll (lossActs s) s := by simp [lossActs, SameAll]

@[simp] theorem lossActs_copies (s : State) : (lossActs s).lc.copies = s.lc.copies := (lossActs_core s).1

@[simp] theorem lossActs_life (s : State) : (lossActs s).fv.life = s.fv.life := (lossActs_core s).2.1

@[simp] theorem lossActs_pending (s : State) : (lossActs s).pending = s.pending := (lossActs_core s).2.2

theorem lossWrite_core (s : State) : SameAll (lossWrite s) s := by
  unfold lossWrite
  split <;> simp [SameAll]

@[simp] theorem lossWrite_copies (s : State) : (lossWrite s).lc.copies = s.lc.copies := (lossWrite_core s).1

@[simp] theorem lossWrite_life (s : State) : (lossWrite s).fv.life = s.fv.life := (lossWrite_core s).2.1

@[simp] theorem lossWrite_pending (s : State) : (lossWrite s).pending = s.pending := (lossWrite_core s).2.2

theorem powerLoss_core (s0 : State) : SameAll (powerLoss s0) s0 := by simp [powerLoss, SameAll]

@[simp] theorem powerLoss_copies (s0 : State) : (powerLoss s0).lc.copies = s0.lc.copies := (powerLoss_core s0).1

@[simp] theorem powerLoss_life (s0 : State) : (powerLoss s0).fv.life = s0.fv.life := (powerLoss_core s0).2.1

@[simp] theorem powerLoss_pending (s0 : State) : (powerLoss s0).pending = s0.pending := (powerLoss_core s0).2.2

theorem startFlush_core (s : State) : SameAll (startFlush s) s := by simp [startFlush, SameAll]

@[simp] theorem startFlush_copies (s : State) : (startFlush s).lc.copies = s.lc.copies := (startFlush_core s).1

@[simp] theorem startFlush_life (s : State) : (startFlush s).fv.life = s.fv.life := (startFlush_core s).2.1

@[simp] theorem startFlush_pending (s : State) : (startFlush s).pending = s.pending := (startFlush_core s).2.2

theorem cutLock_core (s : State) : SameAll (cutLock s) s := by simp [cutLock, SameAll]

@[simp] theorem cutLock_copies (s : State) : (cutLock s).lc.copies = s.lc.copies := (cutLock_core s).1

@[simp] theorem cutLock_life (s : State) : (cutLock s).fv.life = s.fv.life := (cutLock_core s).2.1

@[simp] theorem cutLock_pending (s : State) : (cutLock s).pending = s.pending := (cutLock_core s).2.2

theorem commitLatches_core (s : State) : SameAll (commitLatches s) s := ⟨rfl, rfl, rfl⟩

@[simp] theorem commitLatches_copies (s : State) : (commitLatches s).lc.copies = s.lc.copies := (commitLatches_core s).1

@[simp] theorem commitLatches_life (s : State) : (commitLatches s).fv.life = s.fv.life := (commitLatches_core s).2.1

@[simp] theorem commitLatches_pending (s : State) : (commitLatches s).pending = s.pending := (commitLatches_core s).2.2

theorem settleFuses_core (s : State) : SameLp (settleFuses s) s := by
  unfold settleFuses
  split <;> simp [SameLp]

@[simp] theorem settleFuses_life (s : State) : (settleFuses s).fv.life = s.fv.life := (settleFuses_core s).1

@[simp] theorem settleFuses_pending (s : State) : (settleFuses s).pending = s.pending := (settleFuses_core s).2

theorem checkRetention_core (ok : Bool) (s : State) : SameAll (checkRetention ok s) s := by simp [checkRetention, SameAll]

@[simp] theorem checkRetention_copies (ok : Bool) (s : State) : (checkRetention ok s).lc.copies = s.lc.copies := (checkRetention_core ok s).1

@[simp] theorem checkRetention_life (ok : Bool) (s : State) : (checkRetention ok s).fv.life = s.fv.life := (checkRetention_core ok s).2.1

@[simp] theorem checkRetention_pending (ok : Bool) (s : State) : (checkRetention ok s).pending = s.pending := (checkRetention_core ok s).2.2

theorem evalPowerUp_core (mask : Nat) (s : State) : SameAll (evalPowerUp mask s) s := by simp [evalPowerUp, SameAll]

@[simp] theorem evalPowerUp_copies (mask : Nat) (s : State) : (evalPowerUp mask s).lc.copies = s.lc.copies := (evalPowerUp_core mask s).1

@[simp] theorem evalPowerUp_life (mask : Nat) (s : State) : (evalPowerUp mask s).fv.life = s.fv.life := (evalPowerUp_core mask s).2.1

@[simp] theorem evalPowerUp_pending (mask : Nat) (s : State) : (evalPowerUp mask s).pending = s.pending := (evalPowerUp_core mask s).2.2

theorem mountLedger_core (s : State) : SameAll (mountLedger s) s := by simp [mountLedger, SameAll]

@[simp] theorem mountLedger_copies (s : State) : (mountLedger s).lc.copies = s.lc.copies := (mountLedger_core s).1

@[simp] theorem mountLedger_life (s : State) : (mountLedger s).fv.life = s.fv.life := (mountLedger_core s).2.1

@[simp] theorem mountLedger_pending (s : State) : (mountLedger s).pending = s.pending := (mountLedger_core s).2.2

theorem loadRecord_core (r : ResvFound) (s : State) : SameAll (loadRecord r s) s := by
  unfold loadRecord
  try dsimp only
  repeat' split
  all_goals simp [SameAll]

@[simp] theorem loadRecord_copies (r : ResvFound) (s : State) : (loadRecord r s).lc.copies = s.lc.copies := (loadRecord_core r s).1

@[simp] theorem loadRecord_life (r : ResvFound) (s : State) : (loadRecord r s).fv.life = s.fv.life := (loadRecord_core r s).2.1

@[simp] theorem loadRecord_pending (r : ResvFound) (s : State) : (loadRecord r s).pending = s.pending := (loadRecord_core r s).2.2

theorem loadReserve_core (bad : List Nat) (s : State) : SameAll (loadReserve bad s) s := by simp [loadReserve, SameAll]

@[simp] theorem loadReserve_copies (bad : List Nat) (s : State) : (loadReserve bad s).lc.copies = s.lc.copies := (loadReserve_core bad s).1

@[simp] theorem loadReserve_life (bad : List Nat) (s : State) : (loadReserve bad s).fv.life = s.fv.life := (loadReserve_core bad s).2.1

@[simp] theorem loadReserve_pending (bad : List Nat) (s : State) : (loadReserve bad s).pending = s.pending := (loadReserve_core bad s).2.2

theorem bootBegin_core (f : BootFacts) (cause : Nat) (s : State) : SameLp (bootBegin f cause s) s := by simp [bootBegin, SameLp]

@[simp] theorem bootBegin_life (f : BootFacts) (cause : Nat) (s : State) : (bootBegin f cause s).fv.life = s.fv.life := (bootBegin_core f cause s).1

@[simp] theorem bootBegin_pending (f : BootFacts) (cause : Nat) (s : State) : (bootBegin f cause s).pending = s.pending := (bootBegin_core f cause s).2

theorem verifyBanks_core (s : State) : SameAll (verifyBanks s) s := by
  unfold verifyBanks
  split <;> simp [SameAll]

@[simp] theorem verifyBanks_copies (s : State) : (verifyBanks s).lc.copies = s.lc.copies := (verifyBanks_core s).1

@[simp] theorem verifyBanks_life (s : State) : (verifyBanks s).fv.life = s.fv.life := (verifyBanks_core s).2.1

@[simp] theorem verifyBanks_pending (s : State) : (verifyBanks s).pending = s.pending := (verifyBanks_core s).2.2

theorem applyValue_core (k : Nat) (v : List Byte) (s : State) : SameAll (applyValue k v s) s := by simp [applyValue, SameAll]

@[simp] theorem applyValue_copies (k : Nat) (v : List Byte) (s : State) : (applyValue k v s).lc.copies = s.lc.copies := (applyValue_core k v s).1

@[simp] theorem applyValue_life (k : Nat) (v : List Byte) (s : State) : (applyValue k v s).fv.life = s.fv.life := (applyValue_core k v s).2.1

@[simp] theorem applyValue_pending (k : Nat) (v : List Byte) (s : State) : (applyValue k v s).pending = s.pending := (applyValue_core k v s).2.2

theorem takeAllots_core (s : State) : SameAll (takeAllots s) s := by simp [takeAllots, SameAll]

@[simp] theorem takeAllots_copies (s : State) : (takeAllots s).lc.copies = s.lc.copies := (takeAllots_core s).1

@[simp] theorem takeAllots_life (s : State) : (takeAllots s).fv.life = s.fv.life := (takeAllots_core s).2.1

@[simp] theorem takeAllots_pending (s : State) : (takeAllots s).pending = s.pending := (takeAllots_core s).2.2

theorem enrolImageCreds_core (s : State) : SameAll (enrolImageCreds s) s := by simp [enrolImageCreds, SameAll]

@[simp] theorem enrolImageCreds_copies (s : State) : (enrolImageCreds s).lc.copies = s.lc.copies := (enrolImageCreds_core s).1

@[simp] theorem enrolImageCreds_life (s : State) : (enrolImageCreds s).fv.life = s.fv.life := (enrolImageCreds_core s).2.1

@[simp] theorem enrolImageCreds_pending (s : State) : (enrolImageCreds s).pending = s.pending := (enrolImageCreds_core s).2.2

theorem bootStep3_core (s : State) : SameAll (bootStep3 s) s := by simp [bootStep3, SameAll]

@[simp] theorem bootStep3_copies (s : State) : (bootStep3 s).lc.copies = s.lc.copies := (bootStep3_core s).1

@[simp] theorem bootStep3_life (s : State) : (bootStep3 s).fv.life = s.fv.life := (bootStep3_core s).2.1

@[simp] theorem bootStep3_pending (s : State) : (bootStep3 s).pending = s.pending := (bootStep3_core s).2.2

theorem mountTacks_core (s : State) : SameAll (mountTacks s) s := ⟨rfl, rfl, rfl⟩

@[simp] theorem mountTacks_copies (s : State) : (mountTacks s).lc.copies = s.lc.copies := (mountTacks_core s).1

@[simp] theorem mountTacks_life (s : State) : (mountTacks s).fv.life = s.fv.life := (mountTacks_core s).2.1

@[simp] theorem mountTacks_pending (s : State) : (mountTacks s).pending = s.pending := (mountTacks_core s).2.2

theorem bootStep4_core (s : State) : SameCp (bootStep4 s) s := by simp [bootStep4, SameCp]

@[simp] theorem bootStep4_copies (s : State) : (bootStep4 s).lc.copies = s.lc.copies := (bootStep4_core s).1

@[simp] theorem bootStep4_pending (s : State) : (bootStep4 s).pending = s.pending := (bootStep4_core s).2

theorem bootStep5_core (s : State) : SameAll (bootStep5 s) s := by simp [bootStep5, SameAll]

@[simp] theorem bootStep5_copies (s : State) : (bootStep5 s).lc.copies = s.lc.copies := (bootStep5_core s).1

@[simp] theorem bootStep5_life (s : State) : (bootStep5 s).fv.life = s.fv.life := (bootStep5_core s).2.1

@[simp] theorem bootStep5_pending (s : State) : (bootStep5 s).pending = s.pending := (bootStep5_core s).2.2

theorem bootStep7_core (s : State) : SameAll (bootStep7 s) s := by
  unfold bootStep7
  refine SameAll.foldl (fun st l => ?_) _ _
  split
  · split
    · simp [SameAll]
    · exact SameAll.refl _
  · exact SameAll.refl _

@[simp] theorem bootStep7_copies (s : State) : (bootStep7 s).lc.copies = s.lc.copies := (bootStep7_core s).1

@[simp] theorem bootStep7_life (s : State) : (bootStep7 s).fv.life = s.fv.life := (bootStep7_core s).2.1

@[simp] theorem bootStep7_pending (s : State) : (bootStep7 s).pending = s.pending := (bootStep7_core s).2.2

theorem bootStep8_core (s : State) : SameCp (bootStep8 s) s := by simp [bootStep8, SameCp]

@[simp] theorem bootStep8_copies (s : State) : (bootStep8 s).lc.copies = s.lc.copies := (bootStep8_core s).1

@[simp] theorem bootStep8_pending (s : State) : (bootStep8 s).pending = s.pending := (bootStep8_core s).2

theorem endStep_core (s : State) : SameAll (endStep s) s := ⟨rfl, rfl, rfl⟩

@[simp] theorem endStep_copies (s : State) : (endStep s).lc.copies = s.lc.copies := (endStep_core s).1

@[simp] theorem endStep_life (s : State) : (endStep s).fv.life = s.fv.life := (endStep_core s).2.1

@[simp] theorem endStep_pending (s : State) : (endStep s).pending = s.pending := (endStep_core s).2.2

theorem stopBoot_core (s : State) : SameAll (stopBoot s) s := ⟨rfl, rfl, rfl⟩

@[simp] theorem stopBoot_copies (s : State) : (stopBoot s).lc.copies = s.lc.copies := (stopBoot_core s).1

@[simp] theorem stopBoot_life (s : State) : (stopBoot s).fv.life = s.fv.life := (stopBoot_core s).2.1

@[simp] theorem stopBoot_pending (s : State) : (stopBoot s).pending = s.pending := (stopBoot_core s).2.2

theorem bootAdvance_core (s : State) : SameCp (bootAdvance s) s := by
  unfold bootAdvance
  try dsimp only
  repeat' split
  all_goals simp [SameCp]

@[simp] theorem bootAdvance_copies (s : State) : (bootAdvance s).lc.copies = s.lc.copies := (bootAdvance_core s).1

@[simp] theorem bootAdvance_pending (s : State) : (bootAdvance s).pending = s.pending := (bootAdvance_core s).2

theorem bootRun_core (x0 : Nat) (s : State) : SameCp (bootRun x0 s) s := by
  fun_induction bootRun x0 s
  all_goals simp_all [SameCp]

@[simp] theorem bootRun_copies (x0 : Nat) (s : State) : (bootRun x0 s).lc.copies = s.lc.copies := (bootRun_core x0 s).1

@[simp] theorem bootRun_pending (x0 : Nat) (s : State) : (bootRun x0 s).pending = s.pending := (bootRun_core x0 s).2

theorem takeShares_same (s : State) : SameMem (takeShares s) s := by
  unfold takeShares
  try dsimp only
  repeat' split
  all_goals (first | (simp [SameMem]; done) | exact rfl | (simp_all [SameMem]; done) | grind [SameMem] | (simp [SameMem]; grind [SameMem]) | (simp +zetaDelta [SameMem]; done) | ((try dsimp only); (repeat' (first | (exact SameMem.refl _) | assumption | (simp [SameMem]; done) | split | with_reducible refine SameMem.trans (SameMem.foldl (fun _ _ => ?_) _ _) ?_ | with_reducible refine SameMem.trans (SameMem.foldr (fun _ _ => ?_) _ _) ?_ | with_reducible refine SameMem.trans rfl ?_)); done) | (refine SameMem.foldl ?_ _ _; intro st x; (try dsimp only); (repeat' split); all_goals (first | (simp [SameMem]; done) | (simp_all [SameMem]; done) | grind [SameMem])))

@[simp] theorem takeShares_mem (s : State) : (takeShares s).mem = s.mem := takeShares_same s

theorem frameEffects_same (s : State) : SameMem (frameEffects s) s := by
  unfold frameEffects
  try dsimp only
  repeat' split
  all_goals (first | (simp [SameMem]; done) | exact rfl | (simp_all [SameMem]; done) | grind [SameMem] | (simp [SameMem]; grind [SameMem]) | (simp +zetaDelta [SameMem]; done) | ((try dsimp only); (repeat' (first | (exact SameMem.refl _) | assumption | (simp [SameMem]; done) | split | with_reducible refine SameMem.trans (cipherFrame_same ..) ?_ | with_reducible refine SameMem.trans (wearPacing_same ..) ?_ | with_reducible refine SameMem.trans (pkeLayout_same ..) ?_ | with_reducible refine SameMem.trans (takeShares_same ..) ?_ | with_reducible refine SameMem.trans (SameMem.foldl (fun _ _ => ?_) _ _) ?_ | with_reducible refine SameMem.trans (SameMem.foldr (fun _ _ => ?_) _ _) ?_ | with_reducible refine SameMem.trans rfl ?_)); done) | (refine SameMem.foldl ?_ _ _; intro st x; (try dsimp only); (repeat' split); all_goals (first | (simp [SameMem]; done) | (simp_all [SameMem]; done) | grind [SameMem])))

@[simp] theorem frameEffects_mem (s : State) : (frameEffects s).mem = s.mem := frameEffects_same s

theorem followRail_same (r mv : Nat) (s : State) : SameMem (followRail r mv s) s := by
  unfold followRail
  try dsimp only
  repeat' split
  all_goals (first | (simp [SameMem]; done) | exact rfl | (simp_all [SameMem]; done) | grind [SameMem] | (simp [SameMem]; grind [SameMem]) | (simp +zetaDelta [SameMem]; done) | ((try dsimp only); (repeat' (first | (exact SameMem.refl _) | assumption | (simp [SameMem]; done) | split | with_reducible refine SameMem.trans (setEventIf_same ..) ?_ | with_reducible refine SameMem.trans (itemAddQuiet_same ..) ?_ | with_reducible refine SameMem.trans (SameMem.foldl (fun _ _ => ?_) _ _) ?_ | with_reducible refine SameMem.trans (SameMem.foldr (fun _ _ => ?_) _ _) ?_ | with_reducible refine SameMem.trans rfl ?_)); done) | (refine SameMem.foldl ?_ _ _; intro st x; (try dsimp only); (repeat' split); all_goals (first | (simp [SameMem]; done) | (simp_all [SameMem]; done) | grind [SameMem])))

@[simp] theorem followRail_mem (r mv : Nat) (s : State) : (followRail r mv s).mem = s.mem := followRail_same r mv s

theorem lossActs_same (s : State) : SameMem (lossActs s) s := by
  unfold lossActs
  try dsimp only
  repeat' split
  all_goals (first | (simp [SameMem]; done) | exact rfl | (simp_all [SameMem]; done) | grind [SameMem, drawNat_same] | (simp [SameMem]; grind [SameMem, drawNat_same]) | (simp +zetaDelta [SameMem]; done) | ((try dsimp only); (repeat' (first | (exact SameMem.refl _) | assumption | (simp [SameMem]; done) | split | with_reducible refine SameMem.trans (drawNat_same ..) ?_ | with_reducible refine SameMem.trans (actPaddock_same ..) ?_ | with_reducible refine SameMem.trans (SameMem.foldl (fun _ _ => ?_) _ _) ?_ | with_reducible refine SameMem.trans (SameMem.foldr (fun _ _ => ?_) _ _) ?_ | with_reducible refine SameMem.trans rfl ?_)); done) | (refine SameMem.foldl ?_ _ _; intro st x; (try dsimp only); (repeat' split); all_goals (first | (simp [SameMem]; done) | (simp_all [SameMem]; done) | grind [SameMem, drawNat_same])))

@[simp] theorem lossActs_mem (s : State) : (lossActs s).mem = s.mem := lossActs_same s

theorem lossWrite_same (s : State) : SameMem (lossWrite s) s := by
  unfold lossWrite
  try dsimp only
  repeat' split
  all_goals (first | (simp [SameMem]; done) | exact rfl | (simp_all [SameMem]; done) | grind [SameMem, drawNat_same, writeCred_same] | (simp [SameMem]; grind [SameMem, drawNat_same, writeCred_same]) | (simp +zetaDelta [SameMem]; done) | ((try dsimp only); (repeat' (first | (exact SameMem.refl _) | assumption | (simp [SameMem]; done) | split | with_reducible refine SameMem.trans (drawNat_same ..) ?_ | with_reducible refine SameMem.trans (writeCred_same ..) ?_ | with_reducible refine SameMem.trans (storeValue_same ..) ?_ | with_reducible refine SameMem.trans (SameMem.foldl (fun _ _ => ?_) _ _) ?_ | with_reducible refine SameMem.trans (SameMem.foldr (fun _ _ => ?_) _ _) ?_ | with_reducible refine SameMem.trans rfl ?_)); done) | (refine SameMem.foldl ?_ _ _; intro st x; (try dsimp only); (repeat' split); all_goals (first | (simp [SameMem]; done) | (simp_all [SameMem]; done) | grind [SameMem, drawNat_same, writeCred_same])))

@[simp] theorem lossWrite_mem (s : State) : (lossWrite s).mem = s.mem := lossWrite_same s

theorem powerLoss_wf (s : State) : KeepMem (powerLoss s) s := by
  refine ⟨fun h => ?_⟩
  have h1 : (cinchPowerLoss (lossWrite (lossActs s))).mem = s.mem := by simp
  have h2 : (powerLoss s).mem = { Memory.reset with host := s.mem.host, hostBad := s.mem.hostBad } := by
    show ({ Memory.reset with host := _, hostBad := _ } : Memory) = _
    rw [h1]
  rw [h2, memWf_iff]
  exact ⟨rfl, rfl, rfl, ((memWf_iff _).mp h).2.2.2⟩

theorem startFlush_wf (s : State) : KeepMem (startFlush s) s := by
  unfold startFlush
  try dsimp only
  iterate 30 all_goals (try first | with_reducible exact KeepMem.refl _ | assumption | split | with_reducible refine KeepMem.trans (powerLoss_wf ..) ?_ | with_reducible refine KeepMem.trans (KeepMem.foldl (fun _ _ => ?_) _ _) ?_ | with_reducible refine KeepMem.trans (KeepMem.foldr (fun _ _ => ?_) _ _) ?_ | with_reducible refine KeepMem.trans (KeepMem.foldl_fst (fun _ _ => ?_) _ _) ?_ | with_reducible refine KeepMem.trans (KeepMem.foldl_snd (fun _ _ => ?_) _ _) ?_ | with_reducible refine KeepMem.trans (KeepMem.foldl_thd (fun _ _ => ?_) _ _) ?_ | (apply KeepMem.of_eq; simp; done) | with_reducible refine KeepMem.trans (KeepMem.record ..) ?_)

theorem cutLock_same (s : State) : SameMem (cutLock s) s := by
  unfold cutLock
  try dsimp only
  repeat' split
  all_goals (first | (simp [SameMem]; done) | exact rfl | (simp_all [SameMem]; done) | grind [SameMem, drawNat_same] | (simp [SameMem]; grind [SameMem, drawNat_same]) | (simp +zetaDelta [SameMem]; done) | ((try dsimp only); (repeat' (first | (exact SameMem.refl _) | assumption | (simp [SameMem]; done) | split | with_reducible refine SameMem.trans (drawNat_same ..) ?_ | with_reducible refine SameMem.trans (SameMem.foldl (fun _ _ => ?_) _ _) ?_ | with_reducible refine SameMem.trans (SameMem.foldr (fun _ _ => ?_) _ _) ?_ | with_reducible refine SameMem.trans rfl ?_)); done) | (refine SameMem.foldl ?_ _ _; intro st x; (try dsimp only); (repeat' split); all_goals (first | (simp [SameMem]; done) | (simp_all [SameMem]; done) | grind [SameMem, drawNat_same])))

@[simp] theorem cutLock_mem (s : State) : (cutLock s).mem = s.mem := cutLock_same s

theorem commitLatches_same (s : State) : SameMem (commitLatches s) s := by
  unfold commitLatches
  try dsimp only
  repeat' split
  all_goals (first | (simp [SameMem]; done) | exact rfl | (simp_all [SameMem]; done) | grind [SameMem] | (simp [SameMem]; grind [SameMem]) | (simp +zetaDelta [SameMem]; done) | ((try dsimp only); (repeat' (first | (exact SameMem.refl _) | assumption | (simp [SameMem]; done) | split | with_reducible refine SameMem.trans (SameMem.foldl (fun _ _ => ?_) _ _) ?_ | with_reducible refine SameMem.trans (SameMem.foldr (fun _ _ => ?_) _ _) ?_ | with_reducible refine SameMem.trans rfl ?_)); done) | (refine SameMem.foldl ?_ _ _; intro st x; (try dsimp only); (repeat' split); all_goals (first | (simp [SameMem]; done) | (simp_all [SameMem]; done) | grind [SameMem])))

@[simp] theorem commitLatches_mem (s : State) : (commitLatches s).mem = s.mem := commitLatches_same s

theorem settleFuses_same (s : State) : SameMem (settleFuses s) s := by
  unfold settleFuses
  try dsimp only
  repeat' split
  all_goals (first | (simp [SameMem]; done) | exact rfl | (simp_all [SameMem]; done) | grind [SameMem] | (simp [SameMem]; grind [SameMem]) | (simp +zetaDelta [SameMem]; done) | ((try dsimp only); (repeat' (first | (exact SameMem.refl _) | assumption | (simp [SameMem]; done) | split | with_reducible refine SameMem.trans (custodyResp_same ..) ?_ | with_reducible refine SameMem.trans (readCopies_same ..) ?_ | with_reducible refine SameMem.trans (programCopies_same ..) ?_ | with_reducible refine SameMem.trans (SameMem.foldl (fun _ _ => ?_) _ _) ?_ | with_reducible refine SameMem.trans (SameMem.foldr (fun _ _ => ?_) _ _) ?_ | with_reducible refine SameMem.trans rfl ?_)); done) | (refine SameMem.foldl ?_ _ _; intro st x; (try dsimp only); (repeat' split); all_goals (first | (simp [SameMem]; done) | (simp_all [SameMem]; done) | grind [SameMem])))

@[simp] theorem settleFuses_mem (s : State) : (settleFuses s).mem = s.mem := settleFuses_same s

theorem checkRetention_wf (ok : Bool) (s : State) : KeepMem (checkRetention ok s) s := by
  unfold checkRetention
  try dsimp only
  iterate 30 all_goals (try first | with_reducible exact KeepMem.refl _ | assumption | split | with_reducible refine KeepMem.trans (fireGroup_wf ..) ?_ | with_reducible refine KeepMem.trans (KeepMem.of_eq (setEvent_mem ..)) ?_ | with_reducible refine KeepMem.trans (KeepMem.foldl (fun _ _ => ?_) _ _) ?_ | with_reducible refine KeepMem.trans (KeepMem.foldr (fun _ _ => ?_) _ _) ?_ | with_reducible refine KeepMem.trans (KeepMem.foldl_fst (fun _ _ => ?_) _ _) ?_ | with_reducible refine KeepMem.trans (KeepMem.foldl_snd (fun _ _ => ?_) _ _) ?_ | with_reducible refine KeepMem.trans (KeepMem.foldl_thd (fun _ _ => ?_) _ _) ?_ | (apply KeepMem.of_eq; simp; done) | with_reducible refine KeepMem.trans (KeepMem.record ..) ?_)

theorem evalPowerUp_wf (mask : Nat) (s : State) : KeepMem (evalPowerUp mask s) s := by
  unfold evalPowerUp
  try dsimp only
  iterate 30 all_goals (try first | with_reducible exact KeepMem.refl _ | assumption | split | with_reducible refine KeepMem.trans (evalSensors_wf ..) ?_ | with_reducible refine KeepMem.trans (KeepMem.foldl (fun _ _ => ?_) _ _) ?_ | with_reducible refine KeepMem.trans (KeepMem.foldr (fun _ _ => ?_) _ _) ?_ | with_reducible refine KeepMem.trans (KeepMem.foldl_fst (fun _ _ => ?_) _ _) ?_ | with_reducible refine KeepMem.trans (KeepMem.foldl_snd (fun _ _ => ?_) _ _) ?_ | with_reducible refine KeepMem.trans (KeepMem.foldl_thd (fun _ _ => ?_) _ _) ?_ | (apply KeepMem.of_eq; simp; done) | with_reducible refine KeepMem.trans (KeepMem.record ..) ?_)

theorem mountLedger_same (s : State) : SameMem (mountLedger s) s := by
  unfold mountLedger
  try dsimp only
  repeat' split
  all_goals (first | (simp [SameMem]; done) | exact rfl | (simp_all [SameMem]; done) | grind [SameMem] | (simp [SameMem]; grind [SameMem]) | (simp +zetaDelta [SameMem]; done) | ((try dsimp only); (repeat' (first | (exact SameMem.refl _) | assumption | (simp [SameMem]; done) | split | with_reducible refine SameMem.trans (setEvent_same ..) ?_ | with_reducible refine SameMem.trans (setEventIf_same ..) ?_ | with_reducible refine SameMem.trans (itemAdd_same ..) ?_ | with_reducible refine SameMem.trans (SameMem.foldl (fun _ _ => ?_) _ _) ?_ | with_reducible refine SameMem.trans (SameMem.foldr (fun _ _ => ?_) _ _) ?_ | with_reducible refine SameMem.trans rfl ?_)); done) | (refine SameMem.foldl ?_ _ _; intro st x; (try dsimp only); (repeat' split); all_goals (first | (simp [SameMem]; done) | (simp_all [SameMem]; done) | grind [SameMem])))

@[simp] theorem mountLedger_mem (s : State) : (mountLedger s).mem = s.mem := mountLedger_same s

theorem loadRecord_same (r : ResvFound) (s : State) : SameMem (loadRecord r s) s := by
  unfold loadRecord
  try dsimp only
  repeat' split
  all_goals (first | (simp [SameMem]; done) | exact rfl | (simp_all [SameMem]; done) | grind [SameMem] | (simp [SameMem]; grind [SameMem]) | (simp +zetaDelta [SameMem]; done) | ((try dsimp only); (repeat' (first | (exact SameMem.refl _) | assumption | (simp [SameMem]; done) | split | with_reducible refine SameMem.trans (setPaddock_same ..) ?_ | with_reducible refine SameMem.trans (SameMem.foldl (fun _ _ => ?_) _ _) ?_ | with_reducible refine SameMem.trans (SameMem.foldr (fun _ _ => ?_) _ _) ?_ | with_reducible refine SameMem.trans rfl ?_)); done) | (refine SameMem.foldl ?_ _ _; intro st x; (try dsimp only); (repeat' split); all_goals (first | (simp [SameMem]; done) | (simp_all [SameMem]; done) | grind [SameMem])))

@[simp] theorem loadRecord_mem (r : ResvFound) (s : State) : (loadRecord r s).mem = s.mem := loadRecord_same r s

theorem loadReserve_same (bad : List Nat) (s : State) : SameMem (loadReserve bad s) s := by
  unfold loadReserve
  try dsimp only
  repeat' split
  all_goals (first | (simp [SameMem]; done) | exact rfl | (simp_all [SameMem]; done) | grind [SameMem] | (simp [SameMem]; grind [SameMem]) | (simp +zetaDelta [SameMem]; done) | ((try dsimp only); (repeat' (first | (exact SameMem.refl _) | assumption | (simp [SameMem]; done) | split | with_reducible refine SameMem.trans (loadRecord_same ..) ?_ | with_reducible refine SameMem.trans (SameMem.foldl (fun _ _ => ?_) _ _) ?_ | with_reducible refine SameMem.trans (SameMem.foldr (fun _ _ => ?_) _ _) ?_ | with_reducible refine SameMem.trans rfl ?_)); done) | (refine SameMem.foldl ?_ _ _; intro st x; (try dsimp only); (repeat' split); all_goals (first | (simp [SameMem]; done) | (simp_all [SameMem]; done) | grind [SameMem])))

@[simp] theorem loadReserve_mem (bad : List Nat) (s : State) : (loadReserve bad s).mem = s.mem := loadReserve_same bad s

theorem bootBegin_wf (f : BootFacts) (cause : Nat) (s : State) : KeepMem (bootBegin f cause s) s := by
  unfold bootBegin
  extract_lets s1 t
  have h1 : KeepMem s1 s := KeepMem.trans (lifeBoot_wf ..) (KeepMem.of_same (settleFuses_same ..))
  clear_value s1 t
  split
  extract_lets s2 s3 s4 tm5 s5 pm6 s6
  have h2 : KeepMem s2 s1 := ⟨fun h => by
    rw [memWf_iff] at h ⊢
    exact ⟨rfl, rfl, rfl, h.2.2.2⟩⟩
  clear_value s2
  have h3 : KeepMem s3 s2 := (checkRetention_wf ..).trans (KeepMem.of_same ((mountLedger_same _).trans (loadReserve_same ..)))
  clear_value s3
  have h4 : KeepMem s4 s3 := by
    simp only [s4]
    split
    · exact KeepMem.of_same ((commitLatches_same _).trans (norMount_same ..))
    · exact KeepMem.refl _
  clear_value s4
  have h5 : KeepMem s5 s4 := KeepMem.trans (KeepMem.of_same (setEventIf_same ..)) (KeepMem.of_eq rfl)
  clear_value s5
  have h6 : KeepMem s6 s5 := KeepMem.trans (KeepMem.of_same (setEventIf_same ..)) (KeepMem.of_eq rfl)
  clear_value s6
  exact ((KeepMem.of_same (updHeld_same _)).trans ((evalPowerUp_wf ..).trans (KeepMem.of_same (drawSeeds_same _)))).trans
    (h6.trans (h5.trans (h4.trans (h3.trans (h2.trans h1)))))

theorem verifyBanks_same (s : State) : SameMem (verifyBanks s) s := by
  unfold verifyBanks
  try dsimp only
  repeat' split
  all_goals (first | (simp [SameMem]; done) | exact rfl | (simp_all [SameMem]; done) | grind [SameMem] | (simp [SameMem]; grind [SameMem]) | (simp +zetaDelta [SameMem]; done) | ((try dsimp only); (repeat' (first | (exact SameMem.refl _) | assumption | (simp [SameMem]; done) | split | with_reducible refine SameMem.trans (setEvent_same ..) ?_ | with_reducible refine SameMem.trans (SameMem.foldl (fun _ _ => ?_) _ _) ?_ | with_reducible refine SameMem.trans (SameMem.foldr (fun _ _ => ?_) _ _) ?_ | with_reducible refine SameMem.trans rfl ?_)); done) | (refine SameMem.foldl ?_ _ _; intro st x; (try dsimp only); (repeat' split); all_goals (first | (simp [SameMem]; done) | (simp_all [SameMem]; done) | grind [SameMem])))

@[simp] theorem verifyBanks_mem (s : State) : (verifyBanks s).mem = s.mem := verifyBanks_same s

theorem applyValue_wf (k : Nat) (v : List Byte) (s : State) : KeepMem (applyValue k v s) s := by
  unfold applyValue
  try dsimp only
  iterate 30 all_goals (try first | with_reducible exact KeepMem.refl _ | assumption | split | with_reducible refine KeepMem.trans (keep_wf ..) ?_ | with_reducible refine KeepMem.trans (objWrite_wf ..) ?_ | with_reducible refine KeepMem.trans (KeepMem.of_eq (updUnit_mem ..)) ?_ | with_reducible refine KeepMem.trans (KeepMem.of_eq (writeQuotaObj_mem ..)) ?_ | with_reducible refine KeepMem.trans (KeepMem.foldl (fun _ _ => ?_) _ _) ?_ | with_reducible refine KeepMem.trans (KeepMem.foldr (fun _ _ => ?_) _ _) ?_ | with_reducible refine KeepMem.trans (KeepMem.foldl_fst (fun _ _ => ?_) _ _) ?_ | with_reducible refine KeepMem.trans (KeepMem.foldl_snd (fun _ _ => ?_) _ _) ?_ | with_reducible refine KeepMem.trans (KeepMem.foldl_thd (fun _ _ => ?_) _ _) ?_ | (apply KeepMem.of_eq; simp; done) | with_reducible refine KeepMem.trans (KeepMem.record ..) ?_)
  all_goals (first | (apply KeepMem.of_eq; grind [writeQuotaObj_mem]) | grind [objWrite_wf])

theorem takeAllots_same (s : State) : SameMem (takeAllots s) s := by
  unfold takeAllots
  try dsimp only
  repeat' split
  all_goals (first | (simp [SameMem]; done) | exact rfl | (simp_all [SameMem]; done) | grind [SameMem] | (simp [SameMem]; grind [SameMem]) | (simp +zetaDelta [SameMem]; done) | ((try dsimp only); (repeat' (first | (exact SameMem.refl _) | assumption | (simp [SameMem]; done) | split | with_reducible refine SameMem.trans (updFunc_same ..) ?_ | with_reducible refine SameMem.trans (SameMem.foldl (fun _ _ => ?_) _ _) ?_ | with_reducible refine SameMem.trans (SameMem.foldr (fun _ _ => ?_) _ _) ?_ | with_reducible refine SameMem.trans rfl ?_)); done) | (refine SameMem.foldl ?_ _ _; intro st x; (try dsimp only); (repeat' split); all_goals (first | (simp [SameMem]; done) | (simp_all [SameMem]; done) | grind [SameMem])))

@[simp] theorem takeAllots_mem (s : State) : (takeAllots s).mem = s.mem := takeAllots_same s

theorem enrolImageCreds_same (s : State) : SameMem (enrolImageCreds s) s := by
  unfold enrolImageCreds
  try dsimp only
  repeat' split
  all_goals (first | (simp [SameMem]; done) | exact rfl | (simp_all [SameMem]; done) | grind [SameMem] | (simp [SameMem]; grind [SameMem]) | (simp +zetaDelta [SameMem]; done) | ((try dsimp only); (repeat' (first | (exact SameMem.refl _) | assumption | (simp [SameMem]; done) | split | with_reducible refine SameMem.trans (SameMem.foldl (fun _ _ => ?_) _ _) ?_ | with_reducible refine SameMem.trans (SameMem.foldr (fun _ _ => ?_) _ _) ?_ | with_reducible refine SameMem.trans rfl ?_)); done) | (refine SameMem.foldl ?_ _ _; intro st x; (try dsimp only); (repeat' split); all_goals (first | (simp [SameMem]; done) | (simp_all [SameMem]; done) | grind [SameMem])))

@[simp] theorem enrolImageCreds_mem (s : State) : (enrolImageCreds s).mem = s.mem := enrolImageCreds_same s

theorem bootStep3_wf (s : State) : KeepMem (bootStep3 s) s := by
  unfold bootStep3
  try dsimp only
  iterate 30 all_goals (try first | with_reducible exact KeepMem.refl _ | assumption | split | with_reducible refine KeepMem.trans (bootUnits_wf ..) ?_ | with_reducible refine KeepMem.trans (applyValue_wf ..) ?_ | with_reducible refine KeepMem.trans (KeepMem.of_eq (drawBytes_mem ..)) ?_ | with_reducible refine KeepMem.trans (KeepMem.of_eq (seedDrbgs_mem ..)) ?_ | with_reducible refine KeepMem.trans (KeepMem.of_eq (takeShares_mem ..)) ?_ | with_reducible refine KeepMem.trans (KeepMem.of_eq (takeAllots_mem ..)) ?_ | with_reducible refine KeepMem.trans (KeepMem.of_eq (enrolImageCreds_mem ..)) ?_ | with_reducible refine KeepMem.trans (KeepMem.foldl (fun _ _ => ?_) _ _) ?_ | with_reducible refine KeepMem.trans (KeepMem.foldr (fun _ _ => ?_) _ _) ?_ | with_reducible refine KeepMem.trans (KeepMem.foldl_fst (fun _ _ => ?_) _ _) ?_ | with_reducible refine KeepMem.trans (KeepMem.foldl_snd (fun _ _ => ?_) _ _) ?_ | with_reducible refine KeepMem.trans (KeepMem.foldl_thd (fun _ _ => ?_) _ _) ?_ | (apply KeepMem.of_eq; simp; done) | with_reducible refine KeepMem.trans (KeepMem.record ..) ?_)
  all_goals (first | (apply KeepMem.of_eq; grind [drawBytes_mem]))

theorem mountTacks_same (s : State) : SameMem (mountTacks s) s := by
  unfold mountTacks
  try dsimp only
  repeat' split
  all_goals (first | (simp [SameMem]; done) | exact rfl | (simp_all [SameMem]; done) | grind [SameMem] | (simp [SameMem]; grind [SameMem]) | (simp +zetaDelta [SameMem]; done) | ((try dsimp only); (repeat' (first | (exact SameMem.refl _) | assumption | (simp [SameMem]; done) | split | with_reducible refine SameMem.trans (SameMem.foldl (fun _ _ => ?_) _ _) ?_ | with_reducible refine SameMem.trans (SameMem.foldr (fun _ _ => ?_) _ _) ?_ | with_reducible refine SameMem.trans rfl ?_)); done) | (refine SameMem.foldl ?_ _ _; intro st x; (try dsimp only); (repeat' split); all_goals (first | (simp [SameMem]; done) | (simp_all [SameMem]; done) | grind [SameMem])))

@[simp] theorem mountTacks_mem (s : State) : (mountTacks s).mem = s.mem := mountTacks_same s

theorem bootStep4_same (s : State) : SameMem (bootStep4 s) s := by
  unfold bootStep4
  try dsimp only
  repeat' split
  all_goals (first | (simp [SameMem]; done) | exact rfl | (simp_all [SameMem]; done) | grind [SameMem] | (simp [SameMem]; grind [SameMem]) | (simp +zetaDelta [SameMem]; done) | ((try dsimp only); (repeat' (first | (exact SameMem.refl _) | assumption | (simp [SameMem]; done) | split | with_reducible refine SameMem.trans (setEvent_same ..) ?_ | with_reducible refine SameMem.trans (writeLife_same ..) ?_ | with_reducible refine SameMem.trans (norMount_same ..) ?_ | with_reducible refine SameMem.trans (cinchReplay_same ..) ?_ | with_reducible refine SameMem.trans (vaultMount_same ..) ?_ | with_reducible refine SameMem.trans (commitLatches_same ..) ?_ | with_reducible refine SameMem.trans (mountTacks_same ..) ?_ | with_reducible refine SameMem.trans (SameMem.foldl (fun _ _ => ?_) _ _) ?_ | with_reducible refine SameMem.trans (SameMem.foldr (fun _ _ => ?_) _ _) ?_ | with_reducible refine SameMem.trans rfl ?_)); done) | (refine SameMem.foldl ?_ _ _; intro st x; (try dsimp only); (repeat' split); all_goals (first | (simp [SameMem]; done) | (simp_all [SameMem]; done) | grind [SameMem])))

@[simp] theorem bootStep4_mem (s : State) : (bootStep4 s).mem = s.mem := bootStep4_same s

theorem bootStep5_same (s : State) : SameMem (bootStep5 s) s := by
  unfold bootStep5
  try dsimp only
  repeat' split
  all_goals (first | (simp [SameMem]; done) | exact rfl | (simp_all [SameMem]; done) | grind [SameMem] | (simp [SameMem]; grind [SameMem]) | (simp +zetaDelta [SameMem]; done) | ((try dsimp only); (repeat' (first | (exact SameMem.refl _) | assumption | (simp [SameMem]; done) | split | with_reducible refine SameMem.trans (setEventIf_same ..) ?_ | with_reducible refine SameMem.trans (unsealMaster_same ..) ?_ | with_reducible refine SameMem.trans (SameMem.foldl (fun _ _ => ?_) _ _) ?_ | with_reducible refine SameMem.trans (SameMem.foldr (fun _ _ => ?_) _ _) ?_ | with_reducible refine SameMem.trans rfl ?_)); done) | (refine SameMem.foldl ?_ _ _; intro st x; (try dsimp only); (repeat' split); all_goals (first | (simp [SameMem]; done) | (simp_all [SameMem]; done) | grind [SameMem])))

@[simp] theorem bootStep5_mem (s : State) : (bootStep5 s).mem = s.mem := bootStep5_same s

theorem bootStep7_wf (s : State) : KeepMem (bootStep7 s) s := by
  unfold bootStep7
  try dsimp only
  iterate 30 all_goals (try first | with_reducible exact KeepMem.refl _ | assumption | split | with_reducible refine KeepMem.trans (scheduleCore_wf ..) ?_ | with_reducible refine KeepMem.trans (loadCore_wf ..) ?_ | with_reducible refine KeepMem.trans (KeepMem.foldl (fun _ _ => ?_) _ _) ?_ | with_reducible refine KeepMem.trans (KeepMem.foldr (fun _ _ => ?_) _ _) ?_ | with_reducible refine KeepMem.trans (KeepMem.foldl_fst (fun _ _ => ?_) _ _) ?_ | with_reducible refine KeepMem.trans (KeepMem.foldl_snd (fun _ _ => ?_) _ _) ?_ | with_reducible refine KeepMem.trans (KeepMem.foldl_thd (fun _ _ => ?_) _ _) ?_ | (apply KeepMem.of_eq; simp; done) | with_reducible refine KeepMem.trans (KeepMem.record ..) ?_)

theorem bootStep8_same (s : State) : SameMem (bootStep8 s) s := by
  unfold bootStep8
  try dsimp only
  repeat' split
  all_goals (first | (simp [SameMem]; done) | exact rfl | (simp_all [SameMem]; done) | grind [SameMem] | (simp [SameMem]; grind [SameMem]) | (simp +zetaDelta [SameMem]; done) | ((try dsimp only); (repeat' (first | (exact SameMem.refl _) | assumption | (simp [SameMem]; done) | split | with_reducible refine SameMem.trans (setEvent_same ..) ?_ | with_reducible refine SameMem.trans (writeLife_same ..) ?_ | with_reducible refine SameMem.trans (SameMem.foldl (fun _ _ => ?_) _ _) ?_ | with_reducible refine SameMem.trans (SameMem.foldr (fun _ _ => ?_) _ _) ?_ | with_reducible refine SameMem.trans rfl ?_)); done) | (refine SameMem.foldl ?_ _ _; intro st x; (try dsimp only); (repeat' split); all_goals (first | (simp [SameMem]; done) | (simp_all [SameMem]; done) | grind [SameMem])))

@[simp] theorem bootStep8_mem (s : State) : (bootStep8 s).mem = s.mem := bootStep8_same s

theorem endStep_same (s : State) : SameMem (endStep s) s := by
  unfold endStep
  try dsimp only
  repeat' split
  all_goals (first | (simp [SameMem]; done) | exact rfl | (simp_all [SameMem]; done) | grind [SameMem] | (simp [SameMem]; grind [SameMem]) | (simp +zetaDelta [SameMem]; done) | ((try dsimp only); (repeat' (first | (exact SameMem.refl _) | assumption | (simp [SameMem]; done) | split | with_reducible refine SameMem.trans (SameMem.foldl (fun _ _ => ?_) _ _) ?_ | with_reducible refine SameMem.trans (SameMem.foldr (fun _ _ => ?_) _ _) ?_ | with_reducible refine SameMem.trans rfl ?_)); done) | (refine SameMem.foldl ?_ _ _; intro st x; (try dsimp only); (repeat' split); all_goals (first | (simp [SameMem]; done) | (simp_all [SameMem]; done) | grind [SameMem])))

@[simp] theorem endStep_mem (s : State) : (endStep s).mem = s.mem := endStep_same s

theorem stopBoot_same (s : State) : SameMem (stopBoot s) s := by
  unfold stopBoot
  try dsimp only
  repeat' split
  all_goals (first | (simp [SameMem]; done) | exact rfl | (simp_all [SameMem]; done) | grind [SameMem] | (simp [SameMem]; grind [SameMem]) | (simp +zetaDelta [SameMem]; done) | ((try dsimp only); (repeat' (first | (exact SameMem.refl _) | assumption | (simp [SameMem]; done) | split | with_reducible refine SameMem.trans (SameMem.foldl (fun _ _ => ?_) _ _) ?_ | with_reducible refine SameMem.trans (SameMem.foldr (fun _ _ => ?_) _ _) ?_ | with_reducible refine SameMem.trans rfl ?_)); done) | (refine SameMem.foldl ?_ _ _; intro st x; (try dsimp only); (repeat' split); all_goals (first | (simp [SameMem]; done) | (simp_all [SameMem]; done) | grind [SameMem])))

@[simp] theorem stopBoot_mem (s : State) : (stopBoot s).mem = s.mem := stopBoot_same s

theorem bootAdvance_wf (s : State) : KeepMem (bootAdvance s) s := by
  unfold bootAdvance
  try dsimp only
  iterate 30 all_goals (try first | with_reducible exact KeepMem.refl _ | assumption | split | with_reducible refine KeepMem.trans (bootStep3_wf ..) ?_ | with_reducible refine KeepMem.trans (bootStep7_wf ..) ?_ | with_reducible refine KeepMem.trans (KeepMem.of_eq (setEvent_mem ..)) ?_ | with_reducible refine KeepMem.trans (KeepMem.of_eq (verifyBanks_mem ..)) ?_ | with_reducible refine KeepMem.trans (KeepMem.of_eq (bootStep4_mem ..)) ?_ | with_reducible refine KeepMem.trans (KeepMem.of_eq (bootStep5_mem ..)) ?_ | with_reducible refine KeepMem.trans (KeepMem.of_eq (bootStep8_mem ..)) ?_ | with_reducible refine KeepMem.trans (KeepMem.of_eq (endStep_mem ..)) ?_ | with_reducible refine KeepMem.trans (KeepMem.of_eq (stopBoot_mem ..)) ?_ | with_reducible refine KeepMem.trans (KeepMem.foldl (fun _ _ => ?_) _ _) ?_ | with_reducible refine KeepMem.trans (KeepMem.foldr (fun _ _ => ?_) _ _) ?_ | with_reducible refine KeepMem.trans (KeepMem.foldl_fst (fun _ _ => ?_) _ _) ?_ | with_reducible refine KeepMem.trans (KeepMem.foldl_snd (fun _ _ => ?_) _ _) ?_ | with_reducible refine KeepMem.trans (KeepMem.foldl_thd (fun _ _ => ?_) _ _) ?_ | (apply KeepMem.of_eq; simp; done) | with_reducible refine KeepMem.trans (KeepMem.record ..) ?_)

theorem bootRun_wf (x0 : Nat) (s : State) : KeepMem (bootRun x0 s) s := by
  fun_induction bootRun x0 s
  iterate 30 all_goals (try first | with_reducible exact KeepMem.refl _ | (refine KeepMem.trans (by assumption) ?_) | split | with_reducible refine KeepMem.trans (bootAdvance_wf ..) ?_ | with_reducible refine KeepMem.trans (KeepMem.foldl (fun _ _ => ?_) _ _) ?_ | with_reducible refine KeepMem.trans (KeepMem.foldr (fun _ _ => ?_) _ _) ?_ | with_reducible refine KeepMem.trans (KeepMem.foldl_fst (fun _ _ => ?_) _ _) ?_ | with_reducible refine KeepMem.trans (KeepMem.foldl_snd (fun _ _ => ?_) _ _) ?_ | with_reducible refine KeepMem.trans (KeepMem.foldl_thd (fun _ _ => ?_) _ _) ?_ | (apply KeepMem.of_eq; simp; done) | with_reducible refine KeepMem.trans (KeepMem.record ..) ?_)

end Sys2Proof.Machine
end

