-- ==== Sys2Proof/Laws/KeptPacer.lean ====
section
/-! SUPPORT. What each operation of Machine/Pacer.lean keeps: the fuses, the life counters, the queue, and memory or its form. -/

namespace Sys2Proof.Machine

theorem putReg_core (c i : Nat) (v : W64) (s : State) : SameAll (putReg c i v s) s := ⟨rfl, rfl, rfl⟩

@[simp] theorem putReg_copies (c i : Nat) (v : W64) (s : State) : (putReg c i v s).lc.copies = s.lc.copies := (putReg_core c i v s).1

@[simp] theorem putReg_life (c i : Nat) (v : W64) (s : State) : (putReg c i v s).fv.life = s.fv.life := (putReg_core c i v s).2.1

@[simp] theorem putReg_pending (c i : Nat) (v : W64) (s : State) : (putReg c i v s).pending = s.pending := (putReg_core c i v s).2.2

theorem putK_core (c i : Nat) (r : Rein) (s : State) : SameAll (putK c i r s) s := ⟨rfl, rfl, rfl⟩

@[simp] theorem putK_copies (c i : Nat) (r : Rein) (s : State) : (putK c i r s).lc.copies = s.lc.copies := (putK_core c i r s).1

@[simp] theorem putK_life (c i : Nat) (r : Rein) (s : State) : (putK c i r s).fv.life = s.fv.life := (putK_core c i r s).2.1

@[simp] theorem putK_pending (c i : Nat) (r : Rein) (s : State) : (putK c i r s).pending = s.pending := (putK_core c i r s).2.2

theorem impreciseArrive_core (c a : Nat) (s : State) : SameAll (impreciseArrive c a s) s := by simp [impreciseArrive, SameAll]

@[simp] theorem impreciseArrive_copies (c a : Nat) (s : State) : (impreciseArrive c a s).lc.copies = s.lc.copies := (impreciseArrive_core c a s).1

@[simp] theorem impreciseArrive_life (c a : Nat) (s : State) : (impreciseArrive c a s).fv.life = s.fv.life := (impreciseArrive_core c a s).2.1

@[simp] theorem impreciseArrive_pending (c a : Nat) (s : State) : (impreciseArrive c a s).pending = s.pending := (impreciseArrive_core c a s).2.2

theorem storePerform_core (c : Nat) (s : State) : SameAll (storePerform c s) s := by
  unfold storePerform
  try dsimp only
  repeat' split
  all_goals simp [SameAll]

@[simp] theorem storePerform_copies (c : Nat) (s : State) : (storePerform c s).lc.copies = s.lc.copies := (storePerform_core c s).1

@[simp] theorem storePerform_life (c : Nat) (s : State) : (storePerform c s).fv.life = s.fv.life := (storePerform_core c s).2.1

@[simp] theorem storePerform_pending (c : Nat) (s : State) : (storePerform c s).pending = s.pending := (storePerform_core c s).2.2

theorem storesDrain_core (c : Nat) (s : State) : SameAll (storesDrain c s) s := by simp [storesDrain, SameAll]

@[simp] theorem storesDrain_copies (c : Nat) (s : State) : (storesDrain c s).lc.copies = s.lc.copies := (storesDrain_core c s).1

@[simp] theorem storesDrain_life (c : Nat) (s : State) : (storesDrain c s).fv.life = s.fv.life := (storesDrain_core c s).2.1

@[simp] theorem storesDrain_pending (c : Nat) (s : State) : (storesDrain c s).pending = s.pending := (storesDrain_core c s).2.2

theorem storesBefore_core (c a n : Nat) (s : State) : SameAll (storesBefore c a n s) s := by simp [storesBefore, SameAll]

@[simp] theorem storesBefore_copies (c a n : Nat) (s : State) : (storesBefore c a n s).lc.copies = s.lc.copies := (storesBefore_core c a n s).1

@[simp] theorem storesBefore_life (c a n : Nat) (s : State) : (storesBefore c a n s).fv.life = s.fv.life := (storesBefore_core c a n s).2.1

@[simp] theorem storesBefore_pending (c a n : Nat) (s : State) : (storesBefore c a n s).pending = s.pending := (storesBefore_core c a n s).2.2

theorem noteSpill_core (s : State) (c n : Nat) (wr : Bool) : SameAll (noteSpill s c n wr) s := by simp [noteSpill, SameAll]

@[simp] theorem noteSpill_copies (s : State) (c n : Nat) (wr : Bool) : (noteSpill s c n wr).lc.copies = s.lc.copies := (noteSpill_core s c n wr).1

@[simp] theorem noteSpill_life (s : State) (c n : Nat) (wr : Bool) : (noteSpill s c n wr).fv.life = s.fv.life := (noteSpill_core s c n wr).2.1

@[simp] theorem noteSpill_pending (s : State) (c n : Nat) (wr : Bool) : (noteSpill s c n wr).pending = s.pending := (noteSpill_core s c n wr).2.2

theorem spillOldest_core {c : Nat} {s t : State} (h : spillOldest c s = some t) : SameAll t s := by
  unfold spillOldest at h
  dsimp only at h
  repeat' split at h
  all_goals (first | contradiction | (simp only [Option.some.injEq] at h; subst h; simp [SameAll]))

theorem pushEntry_core (c : Nat) (ws : List W64) (s : State) : SameAll (pushEntry c ws s).2 s := by
  unfold pushEntry
  dsimp only
  split
  · simp [SameAll]
  · split
    · rename_i h
      have h1 := spillOldest_core h
      exact SameAll.trans (updCore_core ..) h1
    · simp [SameAll]

@[simp] theorem pushEntry_copies (c : Nat) (ws : List W64) (s : State) : (pushEntry c ws s).2.lc.copies = s.lc.copies := (pushEntry_core c ws s).1

@[simp] theorem pushEntry_life (c : Nat) (ws : List W64) (s : State) : (pushEntry c ws s).2.fv.life = s.fv.life := (pushEntry_core c ws s).2.1

@[simp] theorem pushEntry_pending (c : Nat) (ws : List W64) (s : State) : (pushEntry c ws s).2.pending = s.pending := (pushEntry_core c ws s).2.2

theorem popEntry_core (c : Nat) (s : State) : SameAll (popEntry c s) s := ⟨rfl, rfl, rfl⟩

@[simp] theorem popEntry_copies (c : Nat) (s : State) : (popEntry c s).lc.copies = s.lc.copies := (popEntry_core c s).1

@[simp] theorem popEntry_life (c : Nat) (s : State) : (popEntry c s).fv.life = s.fv.life := (popEntry_core c s).2.1

@[simp] theorem popEntry_pending (c : Nat) (s : State) : (popEntry c s).pending = s.pending := (popEntry_core c s).2.2

theorem takeExc_core (c cause : Nat) (info : W64) (wpc resume : Nat) (s : State) : SameAll (takeExc c cause info wpc resume s) s := by simp [takeExc, SameAll]

@[simp] theorem takeExc_copies (c cause : Nat) (info : W64) (wpc resume : Nat) (s : State) : (takeExc c cause info wpc resume s).lc.copies = s.lc.copies := (takeExc_core c cause info wpc resume s).1

@[simp] theorem takeExc_life (c cause : Nat) (info : W64) (wpc resume : Nat) (s : State) : (takeExc c cause info wpc resume s).fv.life = s.fv.life := (takeExc_core c cause info wpc resume s).2.1

@[simp] theorem takeExc_pending (c cause : Nat) (info : W64) (wpc resume : Nat) (s : State) : (takeExc c cause info wpc resume s).pending = s.pending := (takeExc_core c cause info wpc resume s).2.2

theorem takeImprecise_core (c a : Nat) (s : State) : SameAll (takeImprecise c a s) s := by simp [takeImprecise, SameAll]

@[simp] theorem takeImprecise_copies (c a : Nat) (s : State) : (takeImprecise c a s).lc.copies = s.lc.copies := (takeImprecise_core c a s).1

@[simp] theorem takeImprecise_life (c a : Nat) (s : State) : (takeImprecise c a s).fv.life = s.fv.life := (takeImprecise_core c a s).2.1

@[simp] theorem takeImprecise_pending (c a : Nat) (s : State) : (takeImprecise c a s).pending = s.pending := (takeImprecise_core c a s).2.2

theorem takeInterrupt_core (c : Nat) (s : State) : SameAll (takeInterrupt c s) s := by
  unfold takeInterrupt
  try dsimp only
  repeat' split
  all_goals simp [SameAll]

@[simp] theorem takeInterrupt_copies (c : Nat) (s : State) : (takeInterrupt c s).lc.copies = s.lc.copies := (takeInterrupt_core c s).1

@[simp] theorem takeInterrupt_life (c : Nat) (s : State) : (takeInterrupt c s).fv.life = s.fv.life := (takeInterrupt_core c s).2.1

@[simp] theorem takeInterrupt_pending (c : Nat) (s : State) : (takeInterrupt c s).pending = s.pending := (takeInterrupt_core c s).2.2

theorem complete_core (c : Nat) (old : Core) (next : Nat) (s : State) : SameAll (complete c old next s) s := by simp [complete, SameAll]

@[simp] theorem complete_copies (c : Nat) (old : Core) (next : Nat) (s : State) : (complete c old next s).lc.copies = s.lc.copies := (complete_core c old next s).1

@[simp] theorem complete_life (c : Nat) (old : Core) (next : Nat) (s : State) : (complete c old next s).fv.life = s.fv.life := (complete_core c old next s).2.1

@[simp] theorem complete_pending (c : Nat) (old : Core) (next : Nat) (s : State) : (complete c old next s).pending = s.pending := (complete_core c old next s).2.2

theorem traceBranch_core (c : Nat) (src dst : Nat) (s : State) : SameAll (traceBranch c src dst s) s := by simp [traceBranch, SameAll]

@[simp] theorem traceBranch_copies (c : Nat) (src dst : Nat) (s : State) : (traceBranch c src dst s).lc.copies = s.lc.copies := (traceBranch_core c src dst s).1

@[simp] theorem traceBranch_life (c : Nat) (src dst : Nat) (s : State) : (traceBranch c src dst s).fv.life = s.fv.life := (traceBranch_core c src dst s).2.1

@[simp] theorem traceBranch_pending (c : Nat) (src dst : Nat) (s : State) : (traceBranch c src dst s).pending = s.pending := (traceBranch_core c src dst s).2.2

/-- The state that a result carries. -/
def Res.st : Res → State
  | .done s => s
  | .goto _ s => s
  | .moved s => s
  | .again s => s
  | .raise _ _ _ s => s
  | .stop s => s

@[simp] theorem Res.st_done (s : State) : (Res.done s).st = s := rfl
@[simp] theorem Res.st_goto (pc : Nat) (s : State) : (Res.goto pc s).st = s := rfl
@[simp] theorem Res.st_moved (s : State) : (Res.moved s).st = s := rfl
@[simp] theorem Res.st_again (s : State) : (Res.again s).st = s := rfl
@[simp] theorem Res.st_raise (a : Nat) (b : W64) (i : Nat) (s : State) : (Res.raise a b i s).st = s := rfl
@[simp] theorem Res.st_stop (s : State) : (Res.stop s).st = s := rfl
@[simp] theorem Res.st_ite (c : Prop) [Decidable c] (a b : Res) : (if c then a else b).st = if c then a.st else b.st := by split <;> rfl

theorem settle_core (c : Nat) (old : Core) (r : Res) : SameAll (settle c old r) r.st := by
  unfold settle
  split <;> simp [SameAll]

@[simp] theorem settle_copies (c : Nat) (old : Core) (r : Res) : (settle c old r).lc.copies = r.st.lc.copies := (settle_core c old r).1

@[simp] theorem settle_life (c : Nat) (old : Core) (r : Res) : (settle c old r).fv.life = r.st.fv.life := (settle_core c old r).2.1

@[simp] theorem settle_pending (c : Nat) (old : Core) (r : Res) : (settle c old r).pending = r.st.pending := (settle_core c old r).2.2

theorem execute_core (c : Nat) (f : Form) (body : Nat → State → Res) (s : State) (h : ∀ c t, SameAll (body c t).st t) :
    SameAll (execute c f body s).st s := by
  unfold execute
  dsimp only
  repeat' split
  all_goals (first | (exact h _ _) | (simp [SameAll]; done))

@[simp] theorem execute_copies (c : Nat) (f : Form) (body : Nat → State → Res) (s : State) (h : ∀ c t, (body c t).st.lc.copies = t.lc.copies) :
    (execute c f body s).st.lc.copies = s.lc.copies := by
  unfold execute
  dsimp only
  repeat' split
  all_goals (first | (simp; done) | (simp [h]; done))

@[simp] theorem execute_life (c : Nat) (f : Form) (body : Nat → State → Res) (s : State) (h : ∀ c t, (body c t).st.fv.life = t.fv.life) :
    (execute c f body s).st.fv.life = s.fv.life := by
  unfold execute
  dsimp only
  repeat' split
  all_goals (first | (simp; done) | (simp [h]; done))

@[simp] theorem execute_pending (c : Nat) (f : Form) (body : Nat → State → Res) (s : State) (h : ∀ c t, (body c t).st.pending = t.pending) :
    (execute c f body s).st.pending = s.pending := by
  unfold execute
  dsimp only
  repeat' split
  all_goals (first | (simp; done) | (simp [h]; done))

theorem fetched_core (c : Nat) (f : Form) (body : Nat → State → Res) (s : State) (h : ∀ c t, SameAll (body c t).st t) :
    SameAll (fetched c f body s).st s := by
  unfold fetched
  dsimp only
  repeat' split
  all_goals (first | (exact (execute_core _ _ _ _ h)) | (simp [SameAll]; done))

@[simp] theorem fetched_copies (c : Nat) (f : Form) (body : Nat → State → Res) (s : State) (h : ∀ c t, (body c t).st.lc.copies = t.lc.copies) :
    (fetched c f body s).st.lc.copies = s.lc.copies := by
  unfold fetched
  dsimp only
  repeat' split
  all_goals (first | (simp; done) | (simp [execute_copies, h]; done))

@[simp] theorem fetched_life (c : Nat) (f : Form) (body : Nat → State → Res) (s : State) (h : ∀ c t, (body c t).st.fv.life = t.fv.life) :
    (fetched c f body s).st.fv.life = s.fv.life := by
  unfold fetched
  dsimp only
  repeat' split
  all_goals (first | (simp; done) | (simp [execute_life, h]; done))

@[simp] theorem fetched_pending (c : Nat) (f : Form) (body : Nat → State → Res) (s : State) (h : ∀ c t, (body c t).st.pending = t.pending) :
    (fetched c f body s).st.pending = s.pending := by
  unfold fetched
  dsimp only
  repeat' split
  all_goals (first | (simp; done) | (simp [execute_pending, h]; done))

theorem issue_core (c : Nat) (f : Form) (body : Nat → State → Res) (s : State) (h : ∀ c t, SameAll (body c t).st t) :
    SameAll (issue c f body s) s := by
  unfold issue
  dsimp only
  repeat' split
  all_goals (first | (exact (settle_core ..).trans ((fetched_core _ _ _ _ h).trans ⟨rfl, rfl, rfl⟩)) | (simp [SameAll]; done))

@[simp] theorem issue_copies (c : Nat) (f : Form) (body : Nat → State → Res) (s : State) (h : ∀ c t, (body c t).st.lc.copies = t.lc.copies) :
    (issue c f body s).lc.copies = s.lc.copies := by
  unfold issue
  dsimp only
  repeat' split
  all_goals (first | (simp; done) | (simp [fetched_copies, h]; done))

@[simp] theorem issue_life (c : Nat) (f : Form) (body : Nat → State → Res) (s : State) (h : ∀ c t, (body c t).st.fv.life = t.fv.life) :
    (issue c f body s).fv.life = s.fv.life := by
  unfold issue
  dsimp only
  repeat' split
  all_goals (first | (simp; done) | (simp [fetched_life, h]; done))

@[simp] theorem issue_pending (c : Nat) (f : Form) (body : Nat → State → Res) (s : State) (h : ∀ c t, (body c t).st.pending = t.pending) :
    (issue c f body s).pending = s.pending := by
  unfold issue
  dsimp only
  repeat' split
  all_goals (first | (simp; done) | (simp [fetched_pending, h]; done))

theorem putReg_same (c i : Nat) (v : W64) (s : State) : SameMem (putReg c i v s) s := rfl

@[simp] theorem putReg_mem (c i : Nat) (v : W64) (s : State) : (putReg c i v s).mem = s.mem := putReg_same c i v s

theorem putK_same (c i : Nat) (r : Rein) (s : State) : SameMem (putK c i r s) s := rfl

@[simp] theorem putK_mem (c i : Nat) (r : Rein) (s : State) : (putK c i r s).mem = s.mem := putK_same c i r s

theorem impreciseArrive_same (c a : Nat) (s : State) : SameMem (impreciseArrive c a s) s := by simp [impreciseArrive, SameMem]

@[simp] theorem impreciseArrive_mem (c a : Nat) (s : State) : (impreciseArrive c a s).mem = s.mem := impreciseArrive_same c a s

theorem storePerform_wf (c : Nat) (s : State) : KeepMem (storePerform c s) s := by
  unfold storePerform
  try dsimp only
  iterate 30 all_goals (try first | with_reducible exact KeepMem.refl _ | assumption | split | with_reducible refine KeepMem.trans (busWrite_wf ..) ?_ | with_reducible refine KeepMem.trans (csrWrite_wf ..) ?_ | with_reducible refine KeepMem.trans (KeepMem.of_eq (bridleFault_mem ..)) ?_ | with_reducible refine KeepMem.trans (KeepMem.of_eq (updCore_mem ..)) ?_ | with_reducible refine KeepMem.trans (KeepMem.of_eq (fenceCore_mem ..)) ?_ | with_reducible refine KeepMem.trans (KeepMem.of_eq (impreciseArrive_mem ..)) ?_)

theorem storesDrain_wf (c : Nat) (s : State) : KeepMem (storesDrain c s) s := by
  unfold storesDrain
  try dsimp only
  iterate 30 all_goals (try first | with_reducible exact KeepMem.refl _ | assumption | split | with_reducible refine KeepMem.trans (storePerform_wf ..) ?_ | with_reducible refine KeepMem.trans (KeepMem.foldl (fun _ _ => ?_) _ _) ?_)

theorem storesBefore_wf (c a n : Nat) (s : State) : KeepMem (storesBefore c a n s) s := by
  unfold storesBefore
  try dsimp only
  iterate 8 all_goals (try first | with_reducible exact KeepMem.refl _ | assumption | split | with_reducible refine KeepMem.trans (storesDrain_wf ..) ?_)

theorem noteSpill_same (s : State) (c n : Nat) (wr : Bool) : SameMem (noteSpill s c n wr) s := by simp [noteSpill, SameMem]

@[simp] theorem noteSpill_mem (s : State) (c n : Nat) (wr : Bool) : (noteSpill s c n wr).mem = s.mem := noteSpill_same s c n wr

theorem spillOldest_wf {c : Nat} {s t : State} (h : spillOldest c s = some t) : KeepMem t s := by
  unfold spillOldest at h
  dsimp only at h
  repeat' split at h
  all_goals (first | contradiction | (simp only [Option.some.injEq] at h; subst h))
  · exact KeepMem.refl _
  · exact KeepMem.trans (u := (ramWrite s _ _).1) (KeepMem.of_eq (by simp; rfl)) (ramWrite_wf ..)

theorem pushEntry_wf (c : Nat) (ws : List W64) (s : State) : KeepMem (pushEntry c ws s).2 s := by
  unfold pushEntry
  dsimp only
  split
  · exact KeepMem.of_eq (by simp)
  · split
    · rename_i h
      exact KeepMem.trans (KeepMem.of_eq (by simp)) (spillOldest_wf h)
    · exact KeepMem.of_eq (by simp)

theorem popEntry_same (c : Nat) (s : State) : SameMem (popEntry c s) s := rfl

@[simp] theorem popEntry_mem (c : Nat) (s : State) : (popEntry c s).mem = s.mem := popEntry_same c s

theorem takeExc_wf (c cause : Nat) (info : W64) (wpc resume : Nat) (s : State) : KeepMem (takeExc c cause info wpc resume s) s := by
  unfold takeExc
  try dsimp only
  iterate 8 all_goals (try first | with_reducible exact KeepMem.refl _ | assumption | split | with_reducible refine KeepMem.trans (pushEntry_wf ..) ?_ | with_reducible refine KeepMem.trans (KeepMem.of_eq (updCore_mem ..)) ?_ | with_reducible refine KeepMem.trans (KeepMem.of_eq (abortOnBridle_mem ..)) ?_)

theorem takeImprecise_wf (c a : Nat) (s : State) : KeepMem (takeImprecise c a s) s := by
  unfold takeImprecise
  try dsimp only
  iterate 8 all_goals (try first | with_reducible exact KeepMem.refl _ | assumption | split | with_reducible refine KeepMem.trans (takeExc_wf ..) ?_ | with_reducible refine KeepMem.trans (KeepMem.of_eq (updCore_mem ..)) ?_)

theorem takeInterrupt_wf (c : Nat) (s : State) : KeepMem (takeInterrupt c s) s := by
  unfold takeInterrupt
  try dsimp only
  iterate 8 all_goals (try first | with_reducible exact KeepMem.refl _ | assumption | split | with_reducible refine KeepMem.trans (takeExc_wf ..) ?_)

theorem complete_same (c : Nat) (old : Core) (next : Nat) (s : State) : SameMem (complete c old next s) s := by simp [complete, SameMem]

@[simp] theorem complete_mem (c : Nat) (old : Core) (next : Nat) (s : State) : (complete c old next s).mem = s.mem := complete_same c old next s

theorem traceBranch_same (c : Nat) (src dst : Nat) (s : State) : SameMem (traceBranch c src dst s) s := by simp [traceBranch, SameMem]

@[simp] theorem traceBranch_mem (c : Nat) (src dst : Nat) (s : State) : (traceBranch c src dst s).mem = s.mem := traceBranch_same c src dst s

theorem settle_wf (c : Nat) (old : Core) (r : Res) : KeepMem (settle c old r) r.st := by
  unfold settle
  split
  all_goals dsimp only [Res.st]
  all_goals (first | exact KeepMem.refl _ | (with_reducible exact takeExc_wf ..) | (apply KeepMem.of_eq; simp; done))

theorem execute_wf (c : Nat) (f : Form) (body : Nat → State → Res) (s : State) (h : ∀ c t, KeepMem (body c t).st t) :
    KeepMem (execute c f body s).st s := by
  unfold execute
  dsimp only
  repeat' split
  all_goals (first | (exact h _ _) | (apply KeepMem.of_eq; simp; done) | exact KeepMem.refl _ | exact KeepMem.trans (takeImprecise_wf ..) (KeepMem.of_eq rfl) | exact KeepMem.trans (takeInterrupt_wf ..) (KeepMem.of_eq rfl))

theorem fetched_wf (c : Nat) (f : Form) (body : Nat → State → Res) (s : State) (h : ∀ c t, KeepMem (body c t).st t) :
    KeepMem (fetched c f body s).st s := by
  unfold fetched
  dsimp only
  repeat' split
  all_goals (first | (exact (execute_wf _ _ _ _ h)) | (apply KeepMem.of_eq; simp; done) | exact KeepMem.refl _ | exact KeepMem.trans (takeImprecise_wf ..) (KeepMem.of_eq rfl) | exact KeepMem.trans (takeInterrupt_wf ..) (KeepMem.of_eq rfl))

theorem issue_wf (c : Nat) (f : Form) (body : Nat → State → Res) (s : State) (h : ∀ c t, KeepMem (body c t).st t) :
    KeepMem (issue c f body s) s := by
  unfold issue
  dsimp only
  repeat' split
  all_goals (first | (exact (settle_wf ..).trans ((fetched_wf _ _ _ _ h).trans (KeepMem.of_eq rfl))) | (apply KeepMem.of_eq; simp; done) | exact KeepMem.refl _ | exact KeepMem.trans (takeImprecise_wf ..) (KeepMem.of_eq rfl) | exact KeepMem.trans (takeInterrupt_wf ..) (KeepMem.of_eq rfl))

end Sys2Proof.Machine
end

