-- ==== Sys2Proof/Laws/KeptHostBar.lean ====
section
/-! SUPPORT. What each operation of Machine/HostBar.lean keeps: the fuses, the life counters, the queue, and memory or its form. -/

namespace Sys2Proof.Machine

theorem writeQueueReg_core (fn : Nat) (f : Queue → Queue) (s : State) : SameAll (writeQueueReg fn f s) s := by simp [writeQueueReg, SameAll]

@[simp] theorem writeQueueReg_copies (fn : Nat) (f : Queue → Queue) (s : State) : (writeQueueReg fn f s).lc.copies = s.lc.copies := (writeQueueReg_core fn f s).1

@[simp] theorem writeQueueReg_life (fn : Nat) (f : Queue → Queue) (s : State) : (writeQueueReg fn f s).fv.life = s.fv.life := (writeQueueReg_core fn f s).2.1

@[simp] theorem writeQueueReg_pending (fn : Nat) (f : Queue → Queue) (s : State) : (writeQueueReg fn f s).pending = s.pending := (writeQueueReg_core fn f s).2.2

theorem queueCmd_core (fn cmd : Nat) (s : State) : SameAll (queueCmd fn cmd s) s := by
  unfold queueCmd
  split <;> simp [SameAll]

@[simp] theorem queueCmd_copies (fn cmd : Nat) (s : State) : (queueCmd fn cmd s).lc.copies = s.lc.copies := (queueCmd_core fn cmd s).1

@[simp] theorem queueCmd_life (fn cmd : Nat) (s : State) : (queueCmd fn cmd s).fv.life = s.fv.life := (queueCmd_core fn cmd s).2.1

@[simp] theorem queueCmd_pending (fn cmd : Nat) (s : State) : (queueCmd fn cmd s).pending = s.pending := (queueCmd_core fn cmd s).2.2

theorem bar0Word_core (fn o : Nat) (v : W32) (s : State) : SameAll (bar0Word fn o v s) s := by
  unfold bar0Word
  try dsimp only
  repeat' split
  all_goals simp [SameAll]

@[simp] theorem bar0Word_copies (fn o : Nat) (v : W32) (s : State) : (bar0Word fn o v s).lc.copies = s.lc.copies := (bar0Word_core fn o v s).1

@[simp] theorem bar0Word_life (fn o : Nat) (v : W32) (s : State) : (bar0Word fn o v s).fv.life = s.fv.life := (bar0Word_core fn o v s).2.1

@[simp] theorem bar0Word_pending (fn o : Nat) (v : W32) (s : State) : (bar0Word fn o v s).pending = s.pending := (bar0Word_core fn o v s).2.2

theorem bar0Write_core (fn a width : Nat) (v : W64) (s : State) : SameAll (bar0Write fn a width v s) s := by simp [bar0Write, SameAll]

@[simp] theorem bar0Write_copies (fn a width : Nat) (v : W64) (s : State) : (bar0Write fn a width v s).lc.copies = s.lc.copies := (bar0Write_core fn a width v s).1

@[simp] theorem bar0Write_life (fn a width : Nat) (v : W64) (s : State) : (bar0Write fn a width v s).fv.life = s.fv.life := (bar0Write_core fn a width v s).2.1

@[simp] theorem bar0Write_pending (fn a width : Nat) (v : W64) (s : State) : (bar0Write fn a width v s).pending = s.pending := (bar0Write_core fn a width v s).2.2

theorem writeQueueReg_same (fn : Nat) (f : Queue → Queue) (s : State) : SameMem (writeQueueReg fn f s) s := by simp [writeQueueReg, SameMem]

@[simp] theorem writeQueueReg_mem (fn : Nat) (f : Queue → Queue) (s : State) : (writeQueueReg fn f s).mem = s.mem := writeQueueReg_same fn f s

theorem queueCmd_same (fn cmd : Nat) (s : State) : SameMem (queueCmd fn cmd s) s := by
  unfold queueCmd
  split <;> simp [SameMem]

@[simp] theorem queueCmd_mem (fn cmd : Nat) (s : State) : (queueCmd fn cmd s).mem = s.mem := queueCmd_same fn cmd s

theorem bar0Word_same (fn o : Nat) (v : W32) (s : State) : SameMem (bar0Word fn o v s) s := by
  unfold bar0Word
  try dsimp only
  repeat' split
  all_goals simp [SameMem]

@[simp] theorem bar0Word_mem (fn o : Nat) (v : W32) (s : State) : (bar0Word fn o v s).mem = s.mem := bar0Word_same fn o v s

theorem bar0Write_same (fn a width : Nat) (v : W64) (s : State) : SameMem (bar0Write fn a width v s) s := by simp [bar0Write, SameMem]

@[simp] theorem bar0Write_mem (fn a width : Nat) (v : W64) (s : State) : (bar0Write fn a width v s).mem = s.mem := bar0Write_same fn a width v s

end Sys2Proof.Machine
end

