-- ==== Sys2Proof/Laws/KeptPacerMem.lean ====
section
/-! SUPPORT. What each operation of Machine/PacerMem.lean keeps: the fuses, the life counters, the queue, and memory or its form. -/

namespace Sys2Proof.Machine

theorem accessed_core (c i off size : Nat) (perms : List Nat) (wr judged : Bool) (s : State) (f : Nat → State → Res) (h : ∀ a t, SameAll (f a t).st t) :
    SameAll (accessed c i off size perms wr judged s f).st s := by
  unfold accessed
  dsimp only
  repeat' split
  all_goals (first | exact h .. | exact SameAll.trans (h ..) (by simp [SameAll]) | (simp [SameAll]; done))

@[simp] theorem accessed_copies (c i off size : Nat) (perms : List Nat) (wr judged : Bool) (s : State) (f : Nat → State → Res) (h : ∀ a t, (f a t).st.lc.copies = t.lc.copies) :
    (accessed c i off size perms wr judged s f).st.lc.copies = s.lc.copies := by
  unfold accessed
  dsimp only
  repeat' split
  all_goals (first | (simp; done) | (simp [h]; done))

@[simp] theorem accessed_life (c i off size : Nat) (perms : List Nat) (wr judged : Bool) (s : State) (f : Nat → State → Res) (h : ∀ a t, (f a t).st.fv.life = t.fv.life) :
    (accessed c i off size perms wr judged s f).st.fv.life = s.fv.life := by
  unfold accessed
  dsimp only
  repeat' split
  all_goals (first | (simp; done) | (simp [h]; done))

@[simp] theorem accessed_pending (c i off size : Nat) (perms : List Nat) (wr judged : Bool) (s : State) (f : Nat → State → Res) (h : ∀ a t, (f a t).st.pending = t.pending) :
    (accessed c i off size perms wr judged s f).st.pending = s.pending := by
  unfold accessed
  dsimp only
  repeat' split
  all_goals (first | (simp; done) | (simp [h]; done))

theorem fetchData_core (c a size : Nat) (s : State) (f : W64 → State → Res) (h : ∀ v t, SameAll (f v t).st t) :
    SameAll (fetchData c a size s f).st s := by
  unfold fetchData
  dsimp only
  repeat' split
  all_goals (first | exact h .. | exact SameAll.trans (h ..) (by simp [SameAll]) | (simp [SameAll]; done))

@[simp] theorem fetchData_copies (c a size : Nat) (s : State) (f : W64 → State → Res) (h : ∀ v t, (f v t).st.lc.copies = t.lc.copies) :
    (fetchData c a size s f).st.lc.copies = s.lc.copies := by
  unfold fetchData
  dsimp only
  repeat' split
  all_goals (first | (simp; done) | (simp [h]; done))

@[simp] theorem fetchData_life (c a size : Nat) (s : State) (f : W64 → State → Res) (h : ∀ v t, (f v t).st.fv.life = t.fv.life) :
    (fetchData c a size s f).st.fv.life = s.fv.life := by
  unfold fetchData
  dsimp only
  repeat' split
  all_goals (first | (simp; done) | (simp [h]; done))

@[simp] theorem fetchData_pending (c a size : Nat) (s : State) (f : W64 → State → Res) (h : ∀ v t, (f v t).st.pending = t.pending) :
    (fetchData c a size s f).st.pending = s.pending := by
  unfold fetchData
  dsimp only
  repeat' split
  all_goals (first | (simp; done) | (simp [h]; done))

theorem loadM_core (c op size : Nat) (signed : Bool) (r : BitVec 6) (k : BitVec 4) (a : BitVec 6) (imm : BitVec 9) (s : State) : SameAll (loadM c op size signed r k a imm s) s := by
  unfold loadM
  repeat' (first | (exact SameAll.refl _) | assumption | (simp [SameAll]; done) | split | with_reducible refine SameAll.trans (issue_core _ _ _ _ (fun _ _ => ?_)) ?_ | with_reducible refine SameAll.trans (accessed_core _ _ _ _ _ _ _ _ _ (fun _ _ => ?_)) ?_ | with_reducible refine SameAll.trans (fetchData_core _ _ _ _ _ (fun _ _ => ?_)) ?_ | with_reducible refine SameAll.trans (putReg_core ..) ?_)

@[simp] theorem loadM_copies (c op size : Nat) (signed : Bool) (r : BitVec 6) (k : BitVec 4) (a : BitVec 6) (imm : BitVec 9) (s : State) : (loadM c op size signed r k a imm s).lc.copies = s.lc.copies := (loadM_core c op size signed r k a imm s).1

@[simp] theorem loadM_life (c op size : Nat) (signed : Bool) (r : BitVec 6) (k : BitVec 4) (a : BitVec 6) (imm : BitVec 9) (s : State) : (loadM c op size signed r k a imm s).fv.life = s.fv.life := (loadM_core c op size signed r k a imm s).2.1

@[simp] theorem loadM_pending (c op size : Nat) (signed : Bool) (r : BitVec 6) (k : BitVec 4) (a : BitVec 6) (imm : BitVec 9) (s : State) : (loadM c op size signed r k a imm s).pending = s.pending := (loadM_core c op size signed r k a imm s).2.2

theorem bufferStore_core (c a size : Nat) (v : W64) (s : State) : SameAll (bufferStore c a size v s) s := ⟨rfl, rfl, rfl⟩

@[simp] theorem bufferStore_copies (c a size : Nat) (v : W64) (s : State) : (bufferStore c a size v s).lc.copies = s.lc.copies := (bufferStore_core c a size v s).1

@[simp] theorem bufferStore_life (c a size : Nat) (v : W64) (s : State) : (bufferStore c a size v s).fv.life = s.fv.life := (bufferStore_core c a size v s).2.1

@[simp] theorem bufferStore_pending (c a size : Nat) (v : W64) (s : State) : (bufferStore c a size v s).pending = s.pending := (bufferStore_core c a size v s).2.2

theorem storeM_core (c op size : Nat) (r : BitVec 6) (k : BitVec 4) (a : BitVec 6) (imm : BitVec 9) (s : State) : SameAll (storeM c op size r k a imm s) s := by simp [storeM, SameAll]

@[simp] theorem storeM_copies (c op size : Nat) (r : BitVec 6) (k : BitVec 4) (a : BitVec 6) (imm : BitVec 9) (s : State) : (storeM c op size r k a imm s).lc.copies = s.lc.copies := (storeM_core c op size r k a imm s).1

@[simp] theorem storeM_life (c op size : Nat) (r : BitVec 6) (k : BitVec 4) (a : BitVec 6) (imm : BitVec 9) (s : State) : (storeM c op size r k a imm s).fv.life = s.fv.life := (storeM_core c op size r k a imm s).2.1

@[simp] theorem storeM_pending (c op size : Nat) (r : BitVec 6) (k : BitVec 4) (a : BitVec 6) (imm : BitVec 9) (s : State) : (storeM c op size r k a imm s).pending = s.pending := (storeM_core c op size r k a imm s).2.2

theorem writeRein_core (s : State) (a : Nat) (r : Rein) : SameAll (writeRein s a r) s := by simp [writeRein, SameAll]

@[simp] theorem writeRein_copies (s : State) (a : Nat) (r : Rein) : (writeRein s a r).lc.copies = s.lc.copies := (writeRein_core s a r).1

@[simp] theorem writeRein_life (s : State) (a : Nat) (r : Rein) : (writeRein s a r).fv.life = s.fv.life := (writeRein_core s a r).2.1

@[simp] theorem writeRein_pending (s : State) (a : Nat) (r : Rein) : (writeRein s a r).pending = s.pending := (writeRein_core s a r).2.2

theorem loadRein_core (c : Nat) (r : BitVec 6) (k : BitVec 4) (a : BitVec 6) (imm : BitVec 9) (s : State) : SameAll (loadRein c r k a imm s) s := by
  unfold loadRein
  repeat' (first | (exact SameAll.refl _) | assumption | (simp [SameAll]; done) | split | with_reducible refine SameAll.trans (issue_core _ _ _ _ (fun _ _ => ?_)) ?_ | with_reducible refine SameAll.trans (accessed_core _ _ _ _ _ _ _ _ _ (fun _ _ => ?_)) ?_ | with_reducible refine SameAll.trans (noteUncorrectable_core ..) ?_ | with_reducible refine SameAll.trans (fenceCore_core ..) ?_ | with_reducible refine SameAll.trans (putK_core ..) ?_ | with_reducible refine SameAll.trans (storesBefore_core ..) ?_)

@[simp] theorem loadRein_copies (c : Nat) (r : BitVec 6) (k : BitVec 4) (a : BitVec 6) (imm : BitVec 9) (s : State) : (loadRein c r k a imm s).lc.copies = s.lc.copies := (loadRein_core c r k a imm s).1

@[simp] theorem loadRein_life (c : Nat) (r : BitVec 6) (k : BitVec 4) (a : BitVec 6) (imm : BitVec 9) (s : State) : (loadRein c r k a imm s).fv.life = s.fv.life := (loadRein_core c r k a imm s).2.1

@[simp] theorem loadRein_pending (c : Nat) (r : BitVec 6) (k : BitVec 4) (a : BitVec 6) (imm : BitVec 9) (s : State) : (loadRein c r k a imm s).pending = s.pending := (loadRein_core c r k a imm s).2.2

theorem storeRein_core (c : Nat) (r : BitVec 6) (k : BitVec 4) (a : BitVec 6) (imm : BitVec 9) (s : State) : SameAll (storeRein c r k a imm s) s := by
  unfold storeRein
  repeat' (first | (exact SameAll.refl _) | assumption | (simp [SameAll]; done) | split | with_reducible refine SameAll.trans (issue_core _ _ _ _ (fun _ _ => ?_)) ?_ | with_reducible refine SameAll.trans (accessed_core _ _ _ _ _ _ _ _ _ (fun _ _ => ?_)) ?_ | with_reducible refine SameAll.trans (csrKst_core ..) ?_ | with_reducible refine SameAll.trans (storesBefore_core ..) ?_ | with_reducible refine SameAll.trans (writeRein_core ..) ?_)

@[simp] theorem storeRein_copies (c : Nat) (r : BitVec 6) (k : BitVec 4) (a : BitVec 6) (imm : BitVec 9) (s : State) : (storeRein c r k a imm s).lc.copies = s.lc.copies := (storeRein_core c r k a imm s).1

@[simp] theorem storeRein_life (c : Nat) (r : BitVec 6) (k : BitVec 4) (a : BitVec 6) (imm : BitVec 9) (s : State) : (storeRein c r k a imm s).fv.life = s.fv.life := (storeRein_core c r k a imm s).2.1

@[simp] theorem storeRein_pending (c : Nat) (r : BitVec 6) (k : BitVec 4) (a : BitVec 6) (imm : BitVec 9) (s : State) : (storeRein c r k a imm s).pending = s.pending := (storeRein_core c r k a imm s).2.2

theorem coreRegWrite_core (c a width : Nat) (v : W64) (s : State) : SameAll (coreRegWrite c a width v s) s := by
  unfold coreRegWrite
  try dsimp only
  repeat' split
  all_goals simp [SameAll]

@[simp] theorem coreRegWrite_copies (c a width : Nat) (v : W64) (s : State) : (coreRegWrite c a width v s).lc.copies = s.lc.copies := (coreRegWrite_core c a width v s).1

@[simp] theorem coreRegWrite_life (c a width : Nat) (v : W64) (s : State) : (coreRegWrite c a width v s).fv.life = s.fv.life := (coreRegWrite_core c a width v s).2.1

@[simp] theorem coreRegWrite_pending (c a width : Nat) (v : W64) (s : State) : (coreRegWrite c a width v s).pending = s.pending := (coreRegWrite_core c a width v s).2.2

theorem accessed_wf (c i off size : Nat) (perms : List Nat) (wr judged : Bool) (s : State) (f : Nat → State → Res)
    (h : ∀ a t, KeepMem (f a t).st t) : KeepMem (accessed c i off size perms wr judged s f).st s := by
  unfold accessed
  dsimp only
  repeat' split
  all_goals (first | exact h _ _ | (apply KeepMem.of_eq; simp; done))

theorem fetchData_wf (c a size : Nat) (s : State) (f : W64 → State → Res)
    (h : ∀ v t, KeepMem (f v t).st t) : KeepMem (fetchData c a size s f).st s := by
  unfold fetchData
  dsimp only
  repeat' split
  all_goals (first | exact storesBefore_wf .. | exact KeepMem.trans (h _ _) (KeepMem.trans (KeepMem.of_eq (csrRead_mem ..)) (storesBefore_wf c a size s)) | exact (h _ _).trans (storesBefore_wf c a size s) | exact KeepMem.trans (KeepMem.of_eq (fenceCore_mem ..)) (KeepMem.trans (KeepMem.of_eq (noteUncorrectable_mem ..)) (storesBefore_wf c a size s)))

theorem loadM_wf (c op size : Nat) (signed : Bool) (r : BitVec 6) (k : BitVec 4) (a : BitVec 6) (imm : BitVec 9) (s : State) : KeepMem (loadM c op size signed r k a imm s) s := by
  unfold loadM
  try dsimp only
  iterate 8 all_goals (try first | with_reducible exact KeepMem.refl _ | assumption | split | with_reducible refine KeepMem.trans (issue_wf _ _ _ _ (fun _ _ => ?_)) ?_ | with_reducible refine KeepMem.trans (accessed_wf _ _ _ _ _ _ _ _ _ (fun _ _ => ?_)) ?_ | with_reducible refine KeepMem.trans (fetchData_wf _ _ _ _ _ (fun _ _ => ?_)) ?_ | simp only [Res.st_done, Res.st_goto, Res.st_moved, Res.st_again, Res.st_raise, Res.st_stop] | with_reducible refine KeepMem.trans (KeepMem.of_eq (putReg_mem ..)) ?_)

theorem bufferStore_same (c a size : Nat) (v : W64) (s : State) : SameMem (bufferStore c a size v s) s := rfl

@[simp] theorem bufferStore_mem (c a size : Nat) (v : W64) (s : State) : (bufferStore c a size v s).mem = s.mem := bufferStore_same c a size v s

theorem storeM_wf (c op size : Nat) (r : BitVec 6) (k : BitVec 4) (a : BitVec 6) (imm : BitVec 9) (s : State) : KeepMem (storeM c op size r k a imm s) s := by
  unfold storeM
  try dsimp only
  iterate 8 all_goals (try first | with_reducible exact KeepMem.refl _ | assumption | split | with_reducible refine KeepMem.trans (issue_wf _ _ _ _ (fun _ _ => ?_)) ?_ | with_reducible refine KeepMem.trans (accessed_wf _ _ _ _ _ _ _ _ _ (fun _ _ => ?_)) ?_ | simp only [Res.st_done, Res.st_goto, Res.st_moved, Res.st_again, Res.st_raise, Res.st_stop] | with_reducible refine KeepMem.trans (KeepMem.of_eq (bufferStore_mem ..)) ?_)

theorem writeRein_wf (s : State) (a : Nat) (r : Rein) : KeepMem (writeRein s a r) s := by
  unfold writeRein
  refine ite_of (P := fun t => KeepMem t s) (KeepMem.refl _) ?_
  refine ⟨fun h => ?_⟩
  have h1 := (ramWrite_wf s a (natToLE 16 r.bits.toNat)).keep h
  generalize (ramWrite s a (natToLE 16 r.bits.toNat)).1 = t at h1 ⊢
  rw [memWf_iff] at h1 ⊢
  exact ⟨h1.1, h1.2.1, Tab.set_wf _ _ h1.2.2.1, h1.2.2.2⟩

theorem loadRein_wf (c : Nat) (r : BitVec 6) (k : BitVec 4) (a : BitVec 6) (imm : BitVec 9) (s : State) : KeepMem (loadRein c r k a imm s) s := by
  unfold loadRein
  try dsimp only
  iterate 30 all_goals (try first | with_reducible exact KeepMem.refl _ | assumption | split | with_reducible refine KeepMem.trans (issue_wf _ _ _ _ (fun _ _ => ?_)) ?_ | with_reducible refine KeepMem.trans (accessed_wf _ _ _ _ _ _ _ _ _ (fun _ _ => ?_)) ?_ | simp only [Res.st_done, Res.st_goto, Res.st_moved, Res.st_again, Res.st_raise, Res.st_stop] | with_reducible refine KeepMem.trans (storesBefore_wf ..) ?_ | with_reducible refine KeepMem.trans (KeepMem.of_eq (noteUncorrectable_mem ..)) ?_ | with_reducible refine KeepMem.trans (KeepMem.of_eq (fenceCore_mem ..)) ?_ | with_reducible refine KeepMem.trans (KeepMem.of_eq (putK_mem ..)) ?_)

theorem storeRein_wf (c : Nat) (r : BitVec 6) (k : BitVec 4) (a : BitVec 6) (imm : BitVec 9) (s : State) : KeepMem (storeRein c r k a imm s) s := by
  unfold storeRein
  try dsimp only
  iterate 30 all_goals (try first | with_reducible exact KeepMem.refl _ | assumption | split | with_reducible refine KeepMem.trans (issue_wf _ _ _ _ (fun _ _ => ?_)) ?_ | with_reducible refine KeepMem.trans (accessed_wf _ _ _ _ _ _ _ _ _ (fun _ _ => ?_)) ?_ | simp only [Res.st_done, Res.st_goto, Res.st_moved, Res.st_again, Res.st_raise, Res.st_stop] | with_reducible refine KeepMem.trans (storesBefore_wf ..) ?_ | with_reducible refine KeepMem.trans (writeRein_wf ..) ?_ | with_reducible refine KeepMem.trans (KeepMem.of_eq (csrKst_mem ..)) ?_)

theorem coreRegWrite_wf (c a width : Nat) (v : W64) (s : State) : KeepMem (coreRegWrite c a width v s) s := by
  unfold coreRegWrite
  try dsimp only
  iterate 8 all_goals (try first | with_reducible exact KeepMem.refl _ | assumption | split | with_reducible refine KeepMem.trans (csrWrite_wf ..) ?_ | with_reducible refine KeepMem.trans (takeExc_wf ..) ?_ | with_reducible refine KeepMem.trans (KeepMem.of_eq (bridleFault_mem ..)) ?_ | with_reducible refine KeepMem.trans (KeepMem.of_eq (impreciseArrive_mem ..)) ?_)

end Sys2Proof.Machine
end

