-- ==== Sys2Proof/Laws/KeptPacerFlow.lean ====
section
/-! SUPPORT. What each operation of Machine/PacerFlow.lean keeps: the fuses, the life counters, the queue, and memory or its form. -/

namespace Sys2Proof.Machine

theorem branch_core (c op : Nat) (a : BitVec 6) (disp : BitVec 19) (test : W64 → Bool) (s : State) : SameAll (branch c op a disp test s) s := by simp [branch, SameAll]

@[simp] theorem branch_copies (c op : Nat) (a : BitVec 6) (disp : BitVec 19) (test : W64 → Bool) (s : State) : (branch c op a disp test s).lc.copies = s.lc.copies := (branch_core c op a disp test s).1

@[simp] theorem branch_life (c op : Nat) (a : BitVec 6) (disp : BitVec 19) (test : W64 → Bool) (s : State) : (branch c op a disp test s).fv.life = s.fv.life := (branch_core c op a disp test s).2.1

@[simp] theorem branch_pending (c op : Nat) (a : BitVec 6) (disp : BitVec 19) (test : W64 → Bool) (s : State) : (branch c op a disp test s).pending = s.pending := (branch_core c op a disp test s).2.2

theorem mismatch_core (why : Nat) (s : State) : SameAll (mismatch why s).st s := by simp [mismatch, SameAll]

@[simp] theorem mismatch_copies (why : Nat) (s : State) : (mismatch why s).st.lc.copies = s.lc.copies := (mismatch_core why s).1

@[simp] theorem mismatch_life (why : Nat) (s : State) : (mismatch why s).st.fv.life = s.fv.life := (mismatch_core why s).2.1

@[simp] theorem mismatch_pending (why : Nat) (s : State) : (mismatch why s).st.pending = s.pending := (mismatch_core why s).2.2

theorem restoreFrame_core (c : Nat) (e : RsEntry) (s : State) : SameAll (restoreFrame c e s) s := ⟨rfl, rfl, rfl⟩

@[simp] theorem restoreFrame_copies (c : Nat) (e : RsEntry) (s : State) : (restoreFrame c e s).lc.copies = s.lc.copies := (restoreFrame_core c e s).1

@[simp] theorem restoreFrame_life (c : Nat) (e : RsEntry) (s : State) : (restoreFrame c e s).fv.life = s.fv.life := (restoreFrame_core c e s).2.1

@[simp] theorem restoreFrame_pending (c : Nat) (e : RsEntry) (s : State) : (restoreFrame c e s).pending = s.pending := (restoreFrame_core c e s).2.2

theorem branch_wf (c op : Nat) (a : BitVec 6) (disp : BitVec 19) (test : W64 → Bool) (s : State) : KeepMem (branch c op a disp test s) s := by
  unfold branch
  try dsimp only
  iterate 8 all_goals (try first | with_reducible exact KeepMem.refl _ | assumption | split | with_reducible refine KeepMem.trans (issue_wf _ _ _ _ (fun _ _ => ?_)) ?_ | simp only [Res.st_done, Res.st_goto, Res.st_moved, Res.st_again, Res.st_raise, Res.st_stop])

theorem mismatch_same (why : Nat) (s : State) : SameMem (mismatch why s).st s := by simp [mismatch, SameMem]

@[simp] theorem mismatch_mem (why : Nat) (s : State) : (mismatch why s).st.mem = s.mem := mismatch_same why s

theorem restoreFrame_same (c : Nat) (e : RsEntry) (s : State) : SameMem (restoreFrame c e s) s := rfl

@[simp] theorem restoreFrame_mem (c : Nat) (e : RsEntry) (s : State) : (restoreFrame c e s).mem = s.mem := restoreFrame_same c e s

end Sys2Proof.Machine
end

