-- ==== Sys2Proof/Laws/KeptPacerRein.lean ====
section
/-! SUPPORT. What each operation of Machine/PacerRein.lean keeps: the fuses, the life counters, the queue, and memory or its form. -/

namespace Sys2Proof.Machine

theorem reinFail_core (cause i : Nat) (s : State) : SameAll (reinFail cause i s).st s := ⟨rfl, rfl, rfl⟩

@[simp] theorem reinFail_copies (cause i : Nat) (s : State) : (reinFail cause i s).st.lc.copies = s.lc.copies := (reinFail_core cause i s).1

@[simp] theorem reinFail_life (cause i : Nat) (s : State) : (reinFail cause i s).st.fv.life = s.fv.life := (reinFail_core cause i s).2.1

@[simp] theorem reinFail_pending (cause i : Nat) (s : State) : (reinFail cause i s).st.pending = s.pending := (reinFail_core cause i s).2.2

theorem reinRead_core (c fn : Nat) (d a b : BitVec 6) (f : Rein → Nat) (s : State) : SameAll (reinRead c fn d a b f s) s := by simp [reinRead, SameAll]

@[simp] theorem reinRead_copies (c fn : Nat) (d a b : BitVec 6) (f : Rein → Nat) (s : State) : (reinRead c fn d a b f s).lc.copies = s.lc.copies := (reinRead_core c fn d a b f s).1

@[simp] theorem reinRead_life (c fn : Nat) (d a b : BitVec 6) (f : Rein → Nat) (s : State) : (reinRead c fn d a b f s).fv.life = s.fv.life := (reinRead_core c fn d a b f s).2.1

@[simp] theorem reinRead_pending (c fn : Nat) (d a b : BitVec 6) (f : Rein → Nat) (s : State) : (reinRead c fn d a b f s).pending = s.pending := (reinRead_core c fn d a b f s).2.2

theorem sealWith_core (c fn perm : Nat) (d a b : BitVec 6) (sealed : Bool) (s : State) : SameAll (sealWith c fn perm d a b sealed s) s := by
  unfold sealWith
  (try dsimp only); (repeat' (first | (exact SameAll.refl _) | assumption | (simp [SameAll]; done) | split | with_reducible refine SameAll.trans (issue_core _ _ _ _ (fun _ _ => ?_)) ?_ | with_reducible refine SameAll.trans (putK_core ..) ?_ | with_reducible refine SameAll.trans (reinFail_core ..) ?_ | with_reducible refine SameAll.trans (SameAll.foldl (fun _ _ => ?_) _ _) ?_ | with_reducible refine SameAll.trans (SameAll.foldr (fun _ _ => ?_) _ _) ?_ | with_reducible refine SameAll.trans ⟨rfl, rfl, rfl⟩ ?_)); done

@[simp] theorem sealWith_copies (c fn perm : Nat) (d a b : BitVec 6) (sealed : Bool) (s : State) : (sealWith c fn perm d a b sealed s).lc.copies = s.lc.copies := (sealWith_core c fn perm d a b sealed s).1

@[simp] theorem sealWith_life (c fn perm : Nat) (d a b : BitVec 6) (sealed : Bool) (s : State) : (sealWith c fn perm d a b sealed s).fv.life = s.fv.life := (sealWith_core c fn perm d a b sealed s).2.1

@[simp] theorem sealWith_pending (c fn perm : Nat) (d a b : BitVec 6) (sealed : Bool) (s : State) : (sealWith c fn perm d a b sealed s).pending = s.pending := (sealWith_core c fn perm d a b sealed s).2.2

theorem reinFail_same (cause i : Nat) (s : State) : SameMem (reinFail cause i s).st s := rfl

@[simp] theorem reinFail_mem (cause i : Nat) (s : State) : (reinFail cause i s).st.mem = s.mem := reinFail_same cause i s

theorem reinRead_wf (c fn : Nat) (d a b : BitVec 6) (f : Rein → Nat) (s : State) : KeepMem (reinRead c fn d a b f s) s := by
  unfold reinRead
  try dsimp only
  iterate 8 all_goals (try first | with_reducible exact KeepMem.refl _ | assumption | split | with_reducible refine KeepMem.trans (issue_wf _ _ _ _ (fun _ _ => ?_)) ?_ | simp only [Res.st_done, Res.st_goto, Res.st_moved, Res.st_again, Res.st_raise, Res.st_stop] | with_reducible refine KeepMem.trans (KeepMem.of_eq (putReg_mem ..)) ?_ | with_reducible refine KeepMem.trans (KeepMem.of_eq (reinFail_mem ..)) ?_)

theorem sealWith_wf (c fn perm : Nat) (d a b : BitVec 6) (sealed : Bool) (s : State) : KeepMem (sealWith c fn perm d a b sealed s) s := by
  unfold sealWith
  try dsimp only
  iterate 8 all_goals (try first | with_reducible exact KeepMem.refl _ | assumption | split | with_reducible refine KeepMem.trans (issue_wf _ _ _ _ (fun _ _ => ?_)) ?_ | simp only [Res.st_done, Res.st_goto, Res.st_moved, Res.st_again, Res.st_raise, Res.st_stop] | with_reducible refine KeepMem.trans (KeepMem.of_eq (putK_mem ..)) ?_ | with_reducible refine KeepMem.trans (KeepMem.of_eq (reinFail_mem ..)) ?_)

end Sys2Proof.Machine
end

