-- ==== Sys2Proof/Laws/KeptMonitor.lean ====
section
/-! SUPPORT. What each operation of Machine/Monitor.lean keeps: the fuses, the life counters, the queue, and memory or its form. -/

namespace Sys2Proof.Machine

theorem returnWith_core (c : Nat) (f : SavedCtx → SavedCtx) (s : State) : SameAll (returnWith c f s) s := by
  unfold returnWith
  split <;> simp [SameAll]

@[simp] theorem returnWith_copies (c : Nat) (f : SavedCtx → SavedCtx) (s : State) : (returnWith c f s).lc.copies = s.lc.copies := (returnWith_core c f s).1

@[simp] theorem returnWith_life (c : Nat) (f : SavedCtx → SavedCtx) (s : State) : (returnWith c f s).fv.life = s.fv.life := (returnWith_core c f s).2.1

@[simp] theorem returnWith_pending (c : Nat) (f : SavedCtx → SavedCtx) (s : State) : (returnWith c f s).pending = s.pending := (returnWith_core c f s).2.2

theorem clearPend_core (c : Nat) (m : W32) (s : State) : SameAll (clearPend c m s) s := ⟨rfl, rfl, rfl⟩

@[simp] theorem clearPend_copies (c : Nat) (m : W32) (s : State) : (clearPend c m s).lc.copies = s.lc.copies := (clearPend_core c m s).1

@[simp] theorem clearPend_life (c : Nat) (m : W32) (s : State) : (clearPend c m s).fv.life = s.fv.life := (clearPend_core c m s).2.1

@[simp] theorem clearPend_pending (c : Nat) (m : W32) (s : State) : (clearPend c m s).pending = s.pending := (clearPend_core c m s).2.2

theorem enterHandler_core (c p : Nat) (d : Rein) (x : SavedCtx) (s : State) : SameAll (enterHandler c p d x s) s := by simp [enterHandler, SameAll]

@[simp] theorem enterHandler_copies (c p : Nat) (d : Rein) (x : SavedCtx) (s : State) : (enterHandler c p d x s).lc.copies = s.lc.copies := (enterHandler_core c p d x s).1

@[simp] theorem enterHandler_life (c p : Nat) (d : Rein) (x : SavedCtx) (s : State) : (enterHandler c p d x s).fv.life = s.fv.life := (enterHandler_core c p d x s).2.1

@[simp] theorem enterHandler_pending (c p : Nat) (d : Rein) (x : SavedCtx) (s : State) : (enterHandler c p d x s).pending = s.pending := (enterHandler_core c p d x s).2.2

theorem discardIdle_core (c p cause : Nat) (s : State) : SameAll (discardIdle c p cause s) s := by simp [discardIdle, SameAll]

@[simp] theorem discardIdle_copies (c p cause : Nat) (s : State) : (discardIdle c p cause s).lc.copies = s.lc.copies := (discardIdle_core c p cause s).1

@[simp] theorem discardIdle_life (c p cause : Nat) (s : State) : (discardIdle c p cause s).fv.life = s.fv.life := (discardIdle_core c p cause s).2.1

@[simp] theorem discardIdle_pending (c p cause : Nat) (s : State) : (discardIdle c p cause s).pending = s.pending := (discardIdle_core c p cause s).2.2

theorem faultDispatch_core (c p cause : Nat) (s : State) : SameAll (faultDispatch c p cause s) s := by
  unfold faultDispatch
  split <;> simp [SameAll]

@[simp] theorem faultDispatch_copies (c p cause : Nat) (s : State) : (faultDispatch c p cause s).lc.copies = s.lc.copies := (faultDispatch_core c p cause s).1

@[simp] theorem faultDispatch_life (c p cause : Nat) (s : State) : (faultDispatch c p cause s).fv.life = s.fv.life := (faultDispatch_core c p cause s).2.1

@[simp] theorem faultDispatch_pending (c p cause : Nat) (s : State) : (faultDispatch c p cause s).pending = s.pending := (faultDispatch_core c p cause s).2.2

theorem holdEvent_core (c p i : Nat) (s : State) : SameAll (holdEvent c p i s) s := ⟨rfl, rfl, rfl⟩

@[simp] theorem holdEvent_copies (c p i : Nat) (s : State) : (holdEvent c p i s).lc.copies = s.lc.copies := (holdEvent_core c p i s).1

@[simp] theorem holdEvent_life (c p i : Nat) (s : State) : (holdEvent c p i s).fv.life = s.fv.life := (holdEvent_core c p i s).2.1

@[simp] theorem holdEvent_pending (c p i : Nat) (s : State) : (holdEvent c p i s).pending = s.pending := (holdEvent_core c p i s).2.2

theorem eventDispatch_core (c p i : Nat) (s : State) : SameAll (eventDispatch c p i s) s := by
  unfold eventDispatch
  try dsimp only
  repeat' split
  all_goals simp [SameAll]

@[simp] theorem eventDispatch_copies (c p i : Nat) (s : State) : (eventDispatch c p i s).lc.copies = s.lc.copies := (eventDispatch_core c p i s).1

@[simp] theorem eventDispatch_life (c p i : Nat) (s : State) : (eventDispatch c p i s).fv.life = s.fv.life := (eventDispatch_core c p i s).2.1

@[simp] theorem eventDispatch_pending (c p i : Nat) (s : State) : (eventDispatch c p i s).pending = s.pending := (eventDispatch_core c p i s).2.2

theorem scheduleRunning_core (c : Nat) (s : State) : SameAll (scheduleRunning c s) s := by simp [scheduleRunning, SameAll]

@[simp] theorem scheduleRunning_copies (c : Nat) (s : State) : (scheduleRunning c s).lc.copies = s.lc.copies := (scheduleRunning_core c s).1

@[simp] theorem scheduleRunning_life (c : Nat) (s : State) : (scheduleRunning c s).fv.life = s.fv.life := (scheduleRunning_core c s).2.1

@[simp] theorem scheduleRunning_pending (c : Nat) (s : State) : (scheduleRunning c s).pending = s.pending := (scheduleRunning_core c s).2.2

theorem tickDispatch_core (c p : Nat) (s : State) : SameAll (tickDispatch c p s) s := by
  unfold tickDispatch
  try dsimp only
  repeat' split
  all_goals simp [SameAll]

@[simp] theorem tickDispatch_copies (c p : Nat) (s : State) : (tickDispatch c p s).lc.copies = s.lc.copies := (tickDispatch_core c p s).1

@[simp] theorem tickDispatch_life (c p : Nat) (s : State) : (tickDispatch c p s).fv.life = s.fv.life := (tickDispatch_core c p s).2.1

@[simp] theorem tickDispatch_pending (c p : Nat) (s : State) : (tickDispatch c p s).pending = s.pending := (tickDispatch_core c p s).2.2

theorem breakDispatch_core (c p : Nat) (s : State) : SameAll (breakDispatch c p s) s := by simp [breakDispatch, SameAll]

@[simp] theorem breakDispatch_copies (c p : Nat) (s : State) : (breakDispatch c p s).lc.copies = s.lc.copies := (breakDispatch_core c p s).1

@[simp] theorem breakDispatch_life (c p : Nat) (s : State) : (breakDispatch c p s).fv.life = s.fv.life := (breakDispatch_core c p s).2.1

@[simp] theorem breakDispatch_pending (c p : Nat) (s : State) : (breakDispatch c p s).pending = s.pending := (breakDispatch_core c p s).2.2

theorem dispatch_core (c cause : Nat) (fromWarden : Bool) (s : State) : SameAll (dispatch c cause fromWarden s) s := by simp [dispatch, SameAll]

@[simp] theorem dispatch_copies (c cause : Nat) (fromWarden : Bool) (s : State) : (dispatch c cause fromWarden s).lc.copies = s.lc.copies := (dispatch_core c cause fromWarden s).1

@[simp] theorem dispatch_life (c cause : Nat) (fromWarden : Bool) (s : State) : (dispatch c cause fromWarden s).fv.life = s.fv.life := (dispatch_core c cause fromWarden s).2.1

@[simp] theorem dispatch_pending (c cause : Nat) (fromWarden : Bool) (s : State) : (dispatch c cause fromWarden s).pending = s.pending := (dispatch_core c cause fromWarden s).2.2

theorem monitorStep_core (c : Nat) (s : State) : SameAll (monitorStep c s) s := by
  unfold monitorStep
  split <;> simp [SameAll]

@[simp] theorem monitorStep_copies (c : Nat) (s : State) : (monitorStep c s).lc.copies = s.lc.copies := (monitorStep_core c s).1

@[simp] theorem monitorStep_life (c : Nat) (s : State) : (monitorStep c s).fv.life = s.fv.life := (monitorStep_core c s).2.1

@[simp] theorem monitorStep_pending (c : Nat) (s : State) : (monitorStep c s).pending = s.pending := (monitorStep_core c s).2.2

theorem returnWith_wf (c : Nat) (f : SavedCtx → SavedCtx) (s : State) : KeepMem (returnWith c f s) s := by
  unfold returnWith
  try dsimp only
  iterate 8 all_goals (try first | with_reducible exact KeepMem.refl _ | assumption | split | with_reducible refine KeepMem.trans (loadCtx_wf ..) ?_ | with_reducible refine KeepMem.trans (KeepMem.of_eq (fenceCore_mem ..)) ?_)

theorem clearPend_same (c : Nat) (m : W32) (s : State) : SameMem (clearPend c m s) s := rfl

@[simp] theorem clearPend_mem (c : Nat) (m : W32) (s : State) : (clearPend c m s).mem = s.mem := clearPend_same c m s

theorem enterHandler_same (c p : Nat) (d : Rein) (x : SavedCtx) (s : State) : SameMem (enterHandler c p d x s) s := by simp [enterHandler, SameMem]

@[simp] theorem enterHandler_mem (c p : Nat) (d : Rein) (x : SavedCtx) (s : State) : (enterHandler c p d x s).mem = s.mem := enterHandler_same c p d x s

theorem discardIdle_same (c p cause : Nat) (s : State) : SameMem (discardIdle c p cause s) s := by simp [discardIdle, SameMem]

@[simp] theorem discardIdle_mem (c p cause : Nat) (s : State) : (discardIdle c p cause s).mem = s.mem := discardIdle_same c p cause s

theorem faultDispatch_same (c p cause : Nat) (s : State) : SameMem (faultDispatch c p cause s) s := by
  unfold faultDispatch
  split <;> simp [SameMem]

@[simp] theorem faultDispatch_mem (c p cause : Nat) (s : State) : (faultDispatch c p cause s).mem = s.mem := faultDispatch_same c p cause s

theorem holdEvent_same (c p i : Nat) (s : State) : SameMem (holdEvent c p i s) s := rfl

@[simp] theorem holdEvent_mem (c p i : Nat) (s : State) : (holdEvent c p i s).mem = s.mem := holdEvent_same c p i s

theorem eventDispatch_wf (c p i : Nat) (s : State) : KeepMem (eventDispatch c p i s) s := by
  unfold eventDispatch
  try dsimp only
  iterate 30 all_goals (try first | with_reducible exact KeepMem.refl _ | assumption | split | with_reducible refine KeepMem.trans (returnWith_wf ..) ?_ | with_reducible refine KeepMem.trans (KeepMem.of_eq (fenceCore_mem ..)) ?_ | with_reducible refine KeepMem.trans (KeepMem.of_eq (clearPend_mem ..)) ?_ | with_reducible refine KeepMem.trans (KeepMem.of_eq (enterHandler_mem ..)) ?_ | with_reducible refine KeepMem.trans (KeepMem.of_eq (holdEvent_mem ..)) ?_ | (apply KeepMem.of_eq; simp; done))

theorem scheduleRunning_wf (c : Nat) (s : State) : KeepMem (scheduleRunning c s) s := by
  unfold scheduleRunning
  try dsimp only
  iterate 8 all_goals (try first | with_reducible exact KeepMem.refl _ | assumption | split | with_reducible refine KeepMem.trans (scheduleCore_wf ..) ?_)

theorem tickDispatch_wf (c p : Nat) (s : State) : KeepMem (tickDispatch c p s) s := by
  unfold tickDispatch
  try dsimp only
  iterate 8 all_goals (try first | with_reducible exact KeepMem.refl _ | assumption | split | with_reducible refine KeepMem.trans (returnWith_wf ..) ?_ | with_reducible refine KeepMem.trans (scheduleRunning_wf ..) ?_ | with_reducible refine KeepMem.trans (KeepMem.of_eq (saveCtx_mem ..)) ?_ | with_reducible refine KeepMem.trans (KeepMem.of_eq (clearPend_mem ..)) ?_)

theorem breakDispatch_wf (c p : Nat) (s : State) : KeepMem (breakDispatch c p s) s := by
  unfold breakDispatch
  try dsimp only
  iterate 30 all_goals (try first | with_reducible exact KeepMem.refl _ | assumption | split | with_reducible refine KeepMem.trans (returnWith_wf ..) ?_ | with_reducible refine KeepMem.trans (KeepMem.of_eq (faultDispatch_mem ..)) ?_ | (apply KeepMem.of_eq; simp; done))

theorem dispatch_wf (c cause : Nat) (fromWarden : Bool) (s : State) : KeepMem (dispatch c cause fromWarden s) s := by
  unfold dispatch
  try dsimp only
  iterate 30 all_goals (try first | with_reducible exact KeepMem.refl _ | assumption | split | with_reducible refine KeepMem.trans (returnWith_wf ..) ?_ | with_reducible refine KeepMem.trans (eventDispatch_wf ..) ?_ | with_reducible refine KeepMem.trans (tickDispatch_wf ..) ?_ | with_reducible refine KeepMem.trans (breakDispatch_wf ..) ?_ | with_reducible refine KeepMem.trans (KeepMem.of_eq (fenceCore_mem ..)) ?_ | with_reducible refine KeepMem.trans (KeepMem.of_eq (discardIdle_mem ..)) ?_ | with_reducible refine KeepMem.trans (KeepMem.of_eq (faultDispatch_mem ..)) ?_)

theorem monitorStep_wf (c : Nat) (s : State) : KeepMem (monitorStep c s) s := by
  unfold monitorStep
  try dsimp only
  iterate 8 all_goals (try first | with_reducible exact KeepMem.refl _ | assumption | split | with_reducible refine KeepMem.trans (scheduleCore_wf ..) ?_ | with_reducible refine KeepMem.trans (dispatch_wf ..) ?_ | with_reducible refine KeepMem.trans (KeepMem.of_eq (clearPend_mem ..)) ?_)

end Sys2Proof.Machine
end

