-- ==== Sys2Proof/Laws/KeptDebug.lean ====
section
/-! SUPPORT. What each operation of Machine/Debug.lean keeps: the fuses, the life counters, the queue, and memory or its form. -/

namespace Sys2Proof.Machine

theorem dapGive_core (bs : List Byte) (s : State) : SameAll (dapGive bs s) s := ⟨rfl, rfl, rfl⟩

@[simp] theorem dapGive_copies (bs : List Byte) (s : State) : (dapGive bs s).lc.copies = s.lc.copies := (dapGive_core bs s).1

@[simp] theorem dapGive_life (bs : List Byte) (s : State) : (dapGive bs s).fv.life = s.fv.life := (dapGive_core bs s).2.1

@[simp] theorem dapGive_pending (bs : List Byte) (s : State) : (dapGive bs s).pending = s.pending := (dapGive_core bs s).2.2

theorem dapRefuse_core (wr : Bool) (a n : Nat) (s : State) : SameAll (dapRefuse wr a n s) s := by simp [dapRefuse, SameAll]

@[simp] theorem dapRefuse_copies (wr : Bool) (a n : Nat) (s : State) : (dapRefuse wr a n s).lc.copies = s.lc.copies := (dapRefuse_core wr a n s).1

@[simp] theorem dapRefuse_life (wr : Bool) (a n : Nat) (s : State) : (dapRefuse wr a n s).fv.life = s.fv.life := (dapRefuse_core wr a n s).2.1

@[simp] theorem dapRefuse_pending (wr : Bool) (a n : Nat) (s : State) : (dapRefuse wr a n s).pending = s.pending := (dapRefuse_core wr a n s).2.2

theorem dapNote_core (wr : Bool) (ref : Option (Nat × Nat)) (s : State) : SameAll (dapNote wr ref s) s := by
  unfold dapNote
  split <;> simp [SameAll]

@[simp] theorem dapNote_copies (wr : Bool) (ref : Option (Nat × Nat)) (s : State) : (dapNote wr ref s).lc.copies = s.lc.copies := (dapNote_core wr ref s).1

@[simp] theorem dapNote_life (wr : Bool) (ref : Option (Nat × Nat)) (s : State) : (dapNote wr ref s).fv.life = s.fv.life := (dapNote_core wr ref s).2.1

@[simp] theorem dapNote_pending (wr : Bool) (ref : Option (Nat × Nat)) (s : State) : (dapNote wr ref s).pending = s.pending := (dapNote_core wr ref s).2.2

theorem dapMem_core (wr : Bool) (a width : Nat) (v : W64) (s : State) : SameAll (dapMem wr a width v s) s := by
  unfold dapMem
  try dsimp only
  repeat' split
  all_goals simp [SameAll]

@[simp] theorem dapMem_copies (wr : Bool) (a width : Nat) (v : W64) (s : State) : (dapMem wr a width v s).lc.copies = s.lc.copies := (dapMem_core wr a width v s).1

@[simp] theorem dapMem_life (wr : Bool) (a width : Nat) (v : W64) (s : State) : (dapMem wr a width v s).fv.life = s.fv.life := (dapMem_core wr a width v s).2.1

@[simp] theorem dapMem_pending (wr : Bool) (a width : Nat) (v : W64) (s : State) : (dapMem wr a width v s).pending = s.pending := (dapMem_core wr a width v s).2.2

theorem dapReg_core (wr : Bool) (c bank i : Nat) (v : W128) (s : State) : SameAll (dapReg wr c bank i v s) s := by
  unfold dapReg
  try dsimp only
  repeat' split
  all_goals simp [SameAll]

@[simp] theorem dapReg_copies (wr : Bool) (c bank i : Nat) (v : W128) (s : State) : (dapReg wr c bank i v s).lc.copies = s.lc.copies := (dapReg_core wr c bank i v s).1

@[simp] theorem dapReg_life (wr : Bool) (c bank i : Nat) (v : W128) (s : State) : (dapReg wr c bank i v s).fv.life = s.fv.life := (dapReg_core wr c bank i v s).2.1

@[simp] theorem dapReg_pending (wr : Bool) (c bank i : Nat) (v : W128) (s : State) : (dapReg wr c bank i v s).pending = s.pending := (dapReg_core wr c bank i v s).2.2

theorem dapGive_same (bs : List Byte) (s : State) : SameMem (dapGive bs s) s := rfl

@[simp] theorem dapGive_mem (bs : List Byte) (s : State) : (dapGive bs s).mem = s.mem := dapGive_same bs s

theorem dapRefuse_same (wr : Bool) (a n : Nat) (s : State) : SameMem (dapRefuse wr a n s) s := by simp [dapRefuse, SameMem]

@[simp] theorem dapRefuse_mem (wr : Bool) (a n : Nat) (s : State) : (dapRefuse wr a n s).mem = s.mem := dapRefuse_same wr a n s

theorem dapNote_same (wr : Bool) (ref : Option (Nat × Nat)) (s : State) : SameMem (dapNote wr ref s) s := by
  unfold dapNote
  split <;> simp [SameMem]

@[simp] theorem dapNote_mem (wr : Bool) (ref : Option (Nat × Nat)) (s : State) : (dapNote wr ref s).mem = s.mem := dapNote_same wr ref s

theorem dapMem_wf (wr : Bool) (a width : Nat) (v : W64) (s : State) : KeepMem (dapMem wr a width v s) s := by
  unfold dapMem
  try dsimp only
  iterate 30 all_goals (try first | with_reducible exact KeepMem.refl _ | assumption | split | with_reducible refine KeepMem.trans (busWrite_wf ..) ?_ | with_reducible refine KeepMem.trans (lcWrite_wf ..) ?_ | with_reducible refine KeepMem.trans (csrWrite_wf ..) ?_ | with_reducible refine KeepMem.trans (KeepMem.of_eq (bridleFault_mem ..)) ?_ | with_reducible refine KeepMem.trans (KeepMem.of_eq (noteRead_mem ..)) ?_ | with_reducible refine KeepMem.trans (KeepMem.of_eq (csrRead_mem ..)) ?_ | with_reducible refine KeepMem.trans (KeepMem.of_eq (dapGive_mem ..)) ?_ | with_reducible refine KeepMem.trans (KeepMem.of_eq (dapRefuse_mem ..)) ?_ | with_reducible refine KeepMem.trans (KeepMem.of_eq (dapNote_mem ..)) ?_)

theorem dapReg_same (wr : Bool) (c bank i : Nat) (v : W128) (s : State) : SameMem (dapReg wr c bank i v s) s := by
  unfold dapReg
  try dsimp only
  repeat' split
  all_goals simp [SameMem]

@[simp] theorem dapReg_mem (wr : Bool) (c bank i : Nat) (v : W128) (s : State) : (dapReg wr c bank i v s).mem = s.mem := dapReg_same wr c bank i v s

end Sys2Proof.Machine
end

