-- ==== Sys2Proof/Laws/KeptPacerStr.lean ====
section
/-! SUPPORT. What each operation of Machine/PacerStr.lean keeps: the fuses, the life counters, the queue, and memory or its form. -/

namespace Sys2Proof.Machine

theorem advance_core (c n : Nat) (spans : List Span) (s : State) : SameAll (advance c n spans s) s := ⟨rfl, rfl, rfl⟩

@[simp] theorem advance_copies (c n : Nat) (spans : List Span) (s : State) : (advance c n spans s).lc.copies = s.lc.copies := (advance_core c n spans s).1

@[simp] theorem advance_life (c n : Nat) (spans : List Span) (s : State) : (advance c n spans s).fv.life = s.fv.life := (advance_core c n spans s).2.1

@[simp] theorem advance_pending (c n : Nat) (spans : List Span) (s : State) : (advance c n spans s).pending = s.pending := (advance_core c n spans s).2.2

theorem chunkEnd_core (c : Nat) (stop : Option Stopped) (s : State) : SameAll (chunkEnd c stop s).st s := by
  unfold chunkEnd
  try dsimp only
  repeat' split
  all_goals simp [SameAll]

@[simp] theorem chunkEnd_copies (c : Nat) (stop : Option Stopped) (s : State) : (chunkEnd c stop s).st.lc.copies = s.lc.copies := (chunkEnd_core c stop s).1

@[simp] theorem chunkEnd_life (c : Nat) (stop : Option Stopped) (s : State) : (chunkEnd c stop s).st.fv.life = s.fv.life := (chunkEnd_core c stop s).2.1

@[simp] theorem chunkEnd_pending (c : Nat) (stop : Option Stopped) (s : State) : (chunkEnd c stop s).st.pending = s.pending := (chunkEnd_core c stop s).2.2

theorem strChunk_core (c : Nat) (spans : List Span) (perform : Nat → State → State × Option Nat) (s0 : State)
    (h : ∀ n t, SameAll (perform n t).1 t) : SameAll (strChunk c spans perform s0).st s0 := by
  unfold strChunk
  refine ite_of (P := fun r : Res => SameAll r.st s0) (SameAll.refl _) ?_
  dsimp only
  have h1 : SameAll (spans.foldl (fun st p => storesBefore c (p.addr (getCore s0 c) 0) (chunkLen (getCore s0 c) spans) st) s0) s0 :=
    SameAll.foldl (fun st p => storesBefore_core ..) _ _
  generalize spans.foldl (fun st p => storesBefore c (p.addr (getCore s0 c) 0) (chunkLen (getCore s0 c) spans) st) s0 = s at h1 ⊢
  split
  · exact h1
  split
  · exact SameAll.trans (by simp [SameAll]) h1
  split
  · rename_i heq
    refine SameAll.trans (SameAll.trans (advance_core ..) ?_) h1
    have := h (chunkPass s c spans).1 s
    rw [heq] at this
    exact this
  · rename_i heq
    have h2 := h (chunkPass s c spans).1 s
    rw [heq] at h2
    split
    · exact h2.trans h1
    · exact (chunkEnd_core ..).trans ((advance_core ..).trans (h2.trans h1))

theorem chunkWrite_core (c a : Nat) (bs : List Byte) (s : State) : SameAll (chunkWrite c a bs s) s := by simp [chunkWrite, SameAll]

@[simp] theorem chunkWrite_copies (c a : Nat) (bs : List Byte) (s : State) : (chunkWrite c a bs s).lc.copies = s.lc.copies := (chunkWrite_core c a bs s).1

@[simp] theorem chunkWrite_life (c a : Nat) (bs : List Byte) (s : State) : (chunkWrite c a bs s).fv.life = s.fv.life := (chunkWrite_core c a bs s).2.1

@[simp] theorem chunkWrite_pending (c a : Nat) (bs : List Byte) (s : State) : (chunkWrite c a bs s).pending = s.pending := (chunkWrite_core c a bs s).2.2

theorem strCombine_core (c fn : Nat) (d a b : BitVec 6) (perms : List Nat) (f : Byte → Byte → Byte) (s : State) : SameAll (strCombine c fn d a b perms f s) s := by
  unfold strCombine
  repeat' (first | (exact SameAll.refl _) | assumption | (simp [SameAll]; done) | split | with_reducible refine SameAll.trans (issue_core _ _ _ _ (fun _ _ => ?_)) ?_ | with_reducible refine SameAll.trans (strChunk_core _ _ _ _ (fun _ _ => ?_)) ?_ | with_reducible refine SameAll.trans (chunkWrite_core ..) ?_)

@[simp] theorem strCombine_copies (c fn : Nat) (d a b : BitVec 6) (perms : List Nat) (f : Byte → Byte → Byte) (s : State) : (strCombine c fn d a b perms f s).lc.copies = s.lc.copies := (strCombine_core c fn d a b perms f s).1

@[simp] theorem strCombine_life (c fn : Nat) (d a b : BitVec 6) (perms : List Nat) (f : Byte → Byte → Byte) (s : State) : (strCombine c fn d a b perms f s).fv.life = s.fv.life := (strCombine_core c fn d a b perms f s).2.1

@[simp] theorem strCombine_pending (c fn : Nat) (d a b : BitVec 6) (perms : List Nat) (f : Byte → Byte → Byte) (s : State) : (strCombine c fn d a b perms f s).pending = s.pending := (strCombine_core c fn d a b perms f s).2.2

theorem advance_same (c n : Nat) (spans : List Span) (s : State) : SameMem (advance c n spans s) s := rfl

@[simp] theorem advance_mem (c n : Nat) (spans : List Span) (s : State) : (advance c n spans s).mem = s.mem := advance_same c n spans s

theorem chunkEnd_same (c : Nat) (stop : Option Stopped) (s : State) : SameMem (chunkEnd c stop s).st s := by
  unfold chunkEnd
  try dsimp only
  repeat' split
  all_goals simp [SameMem]

@[simp] theorem chunkEnd_mem (c : Nat) (stop : Option Stopped) (s : State) : (chunkEnd c stop s).st.mem = s.mem := chunkEnd_same c stop s

theorem strChunk_wf (c : Nat) (spans : List Span) (perform : Nat → State → State × Option Nat) (s0 : State)
    (h : ∀ n t, KeepMem (perform n t).1 t) : KeepMem (strChunk c spans perform s0).st s0 := by
  unfold strChunk
  refine ite_of (P := fun r : Res => KeepMem r.st s0) (KeepMem.refl _) ?_
  dsimp only
  have h1 : KeepMem (spans.foldl (fun st p => storesBefore c (p.addr (getCore s0 c) 0) (chunkLen (getCore s0 c) spans) st) s0) s0 :=
    KeepMem.foldl (fun st p => storesBefore_wf ..) _ _
  generalize spans.foldl (fun st p => storesBefore c (p.addr (getCore s0 c) 0) (chunkLen (getCore s0 c) spans) st) s0 = s at h1 ⊢
  split
  · exact h1
  split
  · exact KeepMem.trans (KeepMem.of_eq (by simp)) h1
  split
  · rename_i heq
    refine KeepMem.trans (KeepMem.trans (KeepMem.of_eq (advance_mem ..)) ?_) h1
    have := h (chunkPass s c spans).1 s
    rw [heq] at this
    exact this
  · rename_i heq
    have h2 := h (chunkPass s c spans).1 s
    rw [heq] at h2
    split
    · exact h2.trans h1
    · exact (KeepMem.of_eq (chunkEnd_mem ..)).trans ((KeepMem.of_eq (advance_mem ..)).trans (h2.trans h1))

theorem chunkWrite_wf (c a : Nat) (bs : List Byte) (s : State) : KeepMem (chunkWrite c a bs s) s := by
  unfold chunkWrite
  try dsimp only
  iterate 8 all_goals (try first | with_reducible exact KeepMem.refl _ | assumption | split | with_reducible refine KeepMem.trans (ramWrite_wf ..) ?_ | with_reducible refine KeepMem.trans (KeepMem.of_eq (noteUncorrectable_mem ..)) ?_ | with_reducible refine KeepMem.trans (KeepMem.of_eq (fenceCore_mem ..)) ?_)

theorem strCombine_wf (c fn : Nat) (d a b : BitVec 6) (perms : List Nat) (f : Byte → Byte → Byte) (s : State) : KeepMem (strCombine c fn d a b perms f s) s := by
  unfold strCombine
  try dsimp only
  iterate 8 all_goals (try first | with_reducible exact KeepMem.refl _ | assumption | split | with_reducible refine KeepMem.trans (issue_wf _ _ _ _ (fun _ _ => ?_)) ?_ | with_reducible refine KeepMem.trans (strChunk_wf _ _ _ _ (fun _ _ => ?_)) ?_ | simp only [Res.st_done, Res.st_goto, Res.st_moved, Res.st_again, Res.st_raise, Res.st_stop] | with_reducible refine KeepMem.trans (chunkWrite_wf ..) ?_)

end Sys2Proof.Machine
end

