-- ==== Sys2Proof/Laws/KeptPacerDec.lean ====
section
/-! SUPPORT. What each operation of Machine/PacerDec.lean keeps: the fuses, the life counters, the queue, and memory or its form. -/

namespace Sys2Proof.Machine

theorem decimal_core (c fn : Nat) (legal cx cy : Bool) (d a b : BitVec 6) (f : W64 → W64 → W64) (s : State) : SameAll (decimal c fn legal cx cy d a b f s) s := by simp [decimal, SameAll]

@[simp] theorem decimal_copies (c fn : Nat) (legal cx cy : Bool) (d a b : BitVec 6) (f : W64 → W64 → W64) (s : State) : (decimal c fn legal cx cy d a b f s).lc.copies = s.lc.copies := (decimal_core c fn legal cx cy d a b f s).1

@[simp] theorem decimal_life (c fn : Nat) (legal cx cy : Bool) (d a b : BitVec 6) (f : W64 → W64 → W64) (s : State) : (decimal c fn legal cx cy d a b f s).fv.life = s.fv.life := (decimal_core c fn legal cx cy d a b f s).2.1

@[simp] theorem decimal_pending (c fn : Nat) (legal cx cy : Bool) (d a b : BitVec 6) (f : W64 → W64 → W64) (s : State) : (decimal c fn legal cx cy d a b f s).pending = s.pending := (decimal_core c fn legal cx cy d a b f s).2.2

theorem decimal_wf (c fn : Nat) (legal cx cy : Bool) (d a b : BitVec 6) (f : W64 → W64 → W64) (s : State) : KeepMem (decimal c fn legal cx cy d a b f s) s := by
  unfold decimal
  try dsimp only
  iterate 8 all_goals (try first | with_reducible exact KeepMem.refl _ | assumption | split | with_reducible refine KeepMem.trans (issue_wf _ _ _ _ (fun _ _ => ?_)) ?_ | simp only [Res.st_done, Res.st_goto, Res.st_moved, Res.st_again, Res.st_raise, Res.st_stop] | with_reducible refine KeepMem.trans (KeepMem.of_eq (putReg_mem ..)) ?_)

end Sys2Proof.Machine
end

