-- ==== Sys2Proof/Laws/KeptPacerAlu.lean ====
section
/-! SUPPORT. What each operation of Machine/PacerAlu.lean keeps: the fuses, the life counters, the queue, and memory or its form. -/

namespace Sys2Proof.Machine

theorem alu3_core (c op fn : Nat) (d a b : BitVec 6) (f : W64 → W64 → W64) (s : State) : SameAll (alu3 c op fn d a b f s) s := by simp [alu3, SameAll]

@[simp] theorem alu3_copies (c op fn : Nat) (d a b : BitVec 6) (f : W64 → W64 → W64) (s : State) : (alu3 c op fn d a b f s).lc.copies = s.lc.copies := (alu3_core c op fn d a b f s).1

@[simp] theorem alu3_life (c op fn : Nat) (d a b : BitVec 6) (f : W64 → W64 → W64) (s : State) : (alu3 c op fn d a b f s).fv.life = s.fv.life := (alu3_core c op fn d a b f s).2.1

@[simp] theorem alu3_pending (c op fn : Nat) (d a b : BitVec 6) (f : W64 → W64 → W64) (s : State) : (alu3 c op fn d a b f s).pending = s.pending := (alu3_core c op fn d a b f s).2.2

theorem alu2_core (c op fn : Nat) (d a b : BitVec 6) (f : W64 → W64) (s : State) : SameAll (alu2 c op fn d a b f s) s := by simp [alu2, SameAll]

@[simp] theorem alu2_copies (c op fn : Nat) (d a b : BitVec 6) (f : W64 → W64) (s : State) : (alu2 c op fn d a b f s).lc.copies = s.lc.copies := (alu2_core c op fn d a b f s).1

@[simp] theorem alu2_life (c op fn : Nat) (d a b : BitVec 6) (f : W64 → W64) (s : State) : (alu2 c op fn d a b f s).fv.life = s.fv.life := (alu2_core c op fn d a b f s).2.1

@[simp] theorem alu2_pending (c op fn : Nat) (d a b : BitVec 6) (f : W64 → W64) (s : State) : (alu2 c op fn d a b f s).pending = s.pending := (alu2_core c op fn d a b f s).2.2

theorem aluDiv_core (c fn : Nat) (d a b : BitVec 6) (f : W64 → W64 → W64) (s : State) : SameAll (aluDiv c fn d a b f s) s := by simp [aluDiv, SameAll]

@[simp] theorem aluDiv_copies (c fn : Nat) (d a b : BitVec 6) (f : W64 → W64 → W64) (s : State) : (aluDiv c fn d a b f s).lc.copies = s.lc.copies := (aluDiv_core c fn d a b f s).1

@[simp] theorem aluDiv_life (c fn : Nat) (d a b : BitVec 6) (f : W64 → W64 → W64) (s : State) : (aluDiv c fn d a b f s).fv.life = s.fv.life := (aluDiv_core c fn d a b f s).2.1

@[simp] theorem aluDiv_pending (c fn : Nat) (d a b : BitVec 6) (f : W64 → W64 → W64) (s : State) : (aluDiv c fn d a b f s).pending = s.pending := (aluDiv_core c fn d a b f s).2.2

theorem aluImm_core (c op : Nat) (legal : Bool) (d a : BitVec 6) (imm : BitVec 13) (f : W64 → W64) (s : State) : SameAll (aluImm c op legal d a imm f s) s := by simp [aluImm, SameAll]

@[simp] theorem aluImm_copies (c op : Nat) (legal : Bool) (d a : BitVec 6) (imm : BitVec 13) (f : W64 → W64) (s : State) : (aluImm c op legal d a imm f s).lc.copies = s.lc.copies := (aluImm_core c op legal d a imm f s).1

@[simp] theorem aluImm_life (c op : Nat) (legal : Bool) (d a : BitVec 6) (imm : BitVec 13) (f : W64 → W64) (s : State) : (aluImm c op legal d a imm f s).fv.life = s.fv.life := (aluImm_core c op legal d a imm f s).2.1

@[simp] theorem aluImm_pending (c op : Nat) (legal : Bool) (d a : BitVec 6) (imm : BitVec 13) (f : W64 → W64) (s : State) : (aluImm c op legal d a imm f s).pending = s.pending := (aluImm_core c op legal d a imm f s).2.2

theorem alu3_wf (c op fn : Nat) (d a b : BitVec 6) (f : W64 → W64 → W64) (s : State) : KeepMem (alu3 c op fn d a b f s) s := by
  unfold alu3
  try dsimp only
  iterate 8 all_goals (try first | with_reducible exact KeepMem.refl _ | assumption | split | with_reducible refine KeepMem.trans (issue_wf _ _ _ _ (fun _ _ => ?_)) ?_ | simp only [Res.st_done, Res.st_goto, Res.st_moved, Res.st_again, Res.st_raise, Res.st_stop] | with_reducible refine KeepMem.trans (KeepMem.of_eq (putReg_mem ..)) ?_)

theorem alu2_wf (c op fn : Nat) (d a b : BitVec 6) (f : W64 → W64) (s : State) : KeepMem (alu2 c op fn d a b f s) s := by
  unfold alu2
  try dsimp only
  iterate 8 all_goals (try first | with_reducible exact KeepMem.refl _ | assumption | split | with_reducible refine KeepMem.trans (issue_wf _ _ _ _ (fun _ _ => ?_)) ?_ | simp only [Res.st_done, Res.st_goto, Res.st_moved, Res.st_again, Res.st_raise, Res.st_stop] | with_reducible refine KeepMem.trans (KeepMem.of_eq (putReg_mem ..)) ?_)

theorem aluDiv_wf (c fn : Nat) (d a b : BitVec 6) (f : W64 → W64 → W64) (s : State) : KeepMem (aluDiv c fn d a b f s) s := by
  unfold aluDiv
  try dsimp only
  iterate 8 all_goals (try first | with_reducible exact KeepMem.refl _ | assumption | split | with_reducible refine KeepMem.trans (issue_wf _ _ _ _ (fun _ _ => ?_)) ?_ | simp only [Res.st_done, Res.st_goto, Res.st_moved, Res.st_again, Res.st_raise, Res.st_stop] | with_reducible refine KeepMem.trans (KeepMem.of_eq (putReg_mem ..)) ?_)

theorem aluImm_wf (c op : Nat) (legal : Bool) (d a : BitVec 6) (imm : BitVec 13) (f : W64 → W64) (s : State) : KeepMem (aluImm c op legal d a imm f s) s := by
  unfold aluImm
  try dsimp only
  iterate 8 all_goals (try first | with_reducible exact KeepMem.refl _ | assumption | split | with_reducible refine KeepMem.trans (issue_wf _ _ _ _ (fun _ _ => ?_)) ?_ | simp only [Res.st_done, Res.st_goto, Res.st_moved, Res.st_again, Res.st_raise, Res.st_stop] | with_reducible refine KeepMem.trans (KeepMem.of_eq (putReg_mem ..)) ?_)

end Sys2Proof.Machine
end

