-- ==== Sys2Proof/Laws/KeptStride.lean ====
section
/-! SUPPORT. What each operation of Machine/Stride.lean keeps: the fuses, the life counters, the queue, and memory or its form. -/

namespace Sys2Proof.Machine

theorem alertMessage_core (s : State) : SameAll (alertMessage s) s := by simp [alertMessage, SameAll]

@[simp] theorem alertMessage_copies (s : State) : (alertMessage s).lc.copies = s.lc.copies := (alertMessage_core s).1

@[simp] theorem alertMessage_life (s : State) : (alertMessage s).fv.life = s.fv.life := (alertMessage_core s).2.1

@[simp] theorem alertMessage_pending (s : State) : (alertMessage s).pending = s.pending := (alertMessage_core s).2.2

theorem strideWork_core (fs : List HwFault) (s : State) : SameAll (strideWork fs s) s := by simp [strideWork, SameAll]

@[simp] theorem strideWork_copies (fs : List HwFault) (s : State) : (strideWork fs s).lc.copies = s.lc.copies := (strideWork_core fs s).1

@[simp] theorem strideWork_life (fs : List HwFault) (s : State) : (strideWork fs s).fv.life = s.fv.life := (strideWork_core fs s).2.1

@[simp] theorem strideWork_pending (fs : List HwFault) (s : State) : (strideWork fs s).pending = s.pending := (strideWork_core fs s).2.2

theorem strideEnd_core (fs : List HwFault) (s : State) : SameAll (strideEnd fs s) s := by simp [strideEnd, SameAll]

@[simp] theorem strideEnd_copies (fs : List HwFault) (s : State) : (strideEnd fs s).lc.copies = s.lc.copies := (strideEnd_core fs s).1

@[simp] theorem strideEnd_life (fs : List HwFault) (s : State) : (strideEnd fs s).fv.life = s.fv.life := (strideEnd_core fs s).2.1

@[simp] theorem strideEnd_pending (fs : List HwFault) (s : State) : (strideEnd fs s).pending = s.pending := (strideEnd_core fs s).2.2

theorem unitEffects_core (s : State) : SameAll (unitEffects s) s := by simp [unitEffects, SameAll]

@[simp] theorem unitEffects_copies (s : State) : (unitEffects s).lc.copies = s.lc.copies := (unitEffects_core s).1

@[simp] theorem unitEffects_life (s : State) : (unitEffects s).fv.life = s.fv.life := (unitEffects_core s).2.1

@[simp] theorem unitEffects_pending (s : State) : (unitEffects s).pending = s.pending := (unitEffects_core s).2.2

theorem recordEffects_core (s : State) : SameAll (recordEffects s) s := by simp [recordEffects, SameAll]

@[simp] theorem recordEffects_copies (s : State) : (recordEffects s).lc.copies = s.lc.copies := (recordEffects_core s).1

@[simp] theorem recordEffects_life (s : State) : (recordEffects s).fv.life = s.fv.life := (recordEffects_core s).2.1

@[simp] theorem recordEffects_pending (s : State) : (recordEffects s).pending = s.pending := (recordEffects_core s).2.2

theorem raiseTicks_core (s : State) : SameAll (raiseTicks s) s := by simp [raiseTicks, SameAll]

@[simp] theorem raiseTicks_copies (s : State) : (raiseTicks s).lc.copies = s.lc.copies := (raiseTicks_core s).1

@[simp] theorem raiseTicks_life (s : State) : (raiseTicks s).fv.life = s.fv.life := (raiseTicks_core s).2.1

@[simp] theorem raiseTicks_pending (s : State) : (raiseTicks s).pending = s.pending := (raiseTicks_core s).2.2

theorem drivePin_core (s : State) : SameAll (drivePin s) s := ⟨rfl, rfl, rfl⟩

@[simp] theorem drivePin_copies (s : State) : (drivePin s).lc.copies = s.lc.copies := (drivePin_core s).1

@[simp] theorem drivePin_life (s : State) : (drivePin s).fv.life = s.fv.life := (drivePin_core s).2.1

@[simp] theorem drivePin_pending (s : State) : (drivePin s).pending = s.pending := (drivePin_core s).2.2

theorem strideBegin_core (s : State) : SameCp (strideBegin s) s := by simp [strideBegin, SameCp]

@[simp] theorem strideBegin_copies (s : State) : (strideBegin s).lc.copies = s.lc.copies := (strideBegin_core s).1

@[simp] theorem strideBegin_pending (s : State) : (strideBegin s).pending = s.pending := (strideBegin_core s).2

theorem alertMessage_same (s : State) : SameMem (alertMessage s) s := by simp [alertMessage, SameMem]

@[simp] theorem alertMessage_mem (s : State) : (alertMessage s).mem = s.mem := alertMessage_same s

theorem strideWork_wf (fs : List HwFault) (s : State) : KeepMem (strideWork fs s) s := by
  unfold strideWork
  try dsimp only
  iterate 30 all_goals (try first | with_reducible exact KeepMem.refl _ | assumption | split | with_reducible refine KeepMem.trans (snapReads_wf ..) ?_ | with_reducible refine KeepMem.trans (cipherSlices_wf ..) ?_ | with_reducible refine KeepMem.trans (cvSlices_wf ..) ?_ | with_reducible refine KeepMem.trans (pkeSlicesRun_wf ..) ?_ | with_reducible refine KeepMem.trans (KeepMem.of_eq (countStops_mem ..)) ?_ | (apply KeepMem.of_eq; simp; done))

theorem strideEnd_wf (fs : List HwFault) (s : State) : KeepMem (strideEnd fs s) s := by
  unfold strideEnd
  try dsimp only
  iterate 8 all_goals (try first | with_reducible exact KeepMem.refl _ | assumption | split | with_reducible refine KeepMem.trans (flushCompletions_wf ..) ?_ | with_reducible refine KeepMem.trans (strideWork_wf ..) ?_ | with_reducible refine KeepMem.trans (KeepMem.of_eq (pushNotices_mem ..)) ?_ | with_reducible refine KeepMem.trans (KeepMem.of_eq (alertMessage_mem ..)) ?_)

theorem unitEffects_wf (s : State) : KeepMem (unitEffects s) s := by
  unfold unitEffects
  try dsimp only
  iterate 8 all_goals (try first | with_reducible exact KeepMem.refl _ | assumption | split | with_reducible refine KeepMem.trans (cipherCuts_wf ..) ?_ | with_reducible refine KeepMem.trans (standbyTakeover_wf ..) ?_ | with_reducible refine KeepMem.trans (KeepMem.of_eq (cipherFences_mem ..)) ?_ | with_reducible refine KeepMem.trans (KeepMem.of_eq (cvCuts_mem ..)) ?_ | with_reducible refine KeepMem.trans (KeepMem.of_eq (pkeCuts_mem ..)) ?_ | with_reducible refine KeepMem.trans (KeepMem.of_eq (pkeFences_mem ..)) ?_ | with_reducible refine KeepMem.trans (KeepMem.of_eq (unitsBoundary_mem ..)) ?_)

theorem recordEffects_wf (s : State) : KeepMem (recordEffects s) s := by
  unfold recordEffects
  try dsimp only
  iterate 30 all_goals (try first | with_reducible exact KeepMem.refl _ | assumption | split | with_reducible refine KeepMem.trans (stableBoundary_wf ..) ?_ | with_reducible refine KeepMem.trans (KeepMem.of_eq (serveDoorbells_mem ..)) ?_ | with_reducible refine KeepMem.trans (KeepMem.of_eq (flushJournal_mem ..)) ?_ | with_reducible refine KeepMem.trans (KeepMem.of_eq (leaseCheck_mem ..)) ?_ | with_reducible refine KeepMem.trans (KeepMem.of_eq (retireBoundary_mem ..)) ?_ | with_reducible refine KeepMem.trans (KeepMem.of_eq (cinchBoundary_mem ..)) ?_ | with_reducible refine KeepMem.trans (KeepMem.of_eq (ilBoundary_mem ..)) ?_ | with_reducible refine KeepMem.trans (KeepMem.of_eq (quorumBoundary_mem ..)) ?_ | with_reducible refine KeepMem.trans (KeepMem.foldl (fun _ _ => ?_) _ _) ?_)

theorem raiseTicks_same (s : State) : SameMem (raiseTicks s) s := by simp [raiseTicks, SameMem]

@[simp] theorem raiseTicks_mem (s : State) : (raiseTicks s).mem = s.mem := raiseTicks_same s

theorem drivePin_same (s : State) : SameMem (drivePin s) s := rfl

@[simp] theorem drivePin_mem (s : State) : (drivePin s).mem = s.mem := drivePin_same s

theorem strideBegin_wf (s : State) : KeepMem (strideBegin s) s := by
  unfold strideBegin
  try dsimp only
  iterate 30 all_goals (try first | with_reducible exact KeepMem.refl _ | assumption | split | with_reducible refine KeepMem.trans (retryWaits_wf ..) ?_ | with_reducible refine KeepMem.trans (bootRun_wf ..) ?_ | with_reducible refine KeepMem.trans (unitEffects_wf ..) ?_ | with_reducible refine KeepMem.trans (recordEffects_wf ..) ?_ | with_reducible refine KeepMem.trans (KeepMem.of_eq (advanceTime_mem ..)) ?_ | with_reducible refine KeepMem.trans (KeepMem.of_eq (noteDisagree_mem ..)) ?_ | with_reducible refine KeepMem.trans (KeepMem.of_eq (frameEffects_mem ..)) ?_ | with_reducible refine KeepMem.trans (KeepMem.of_eq (raiseTicks_mem ..)) ?_ | with_reducible refine KeepMem.trans (KeepMem.of_eq (drivePin_mem ..)) ?_)

end Sys2Proof.Machine
end

