-- ==== Sys2Proof/Laws/Seal.lean ====
section
/-! SUPPORT. Sealed records: bytewise exclusive-or, block lengths, and that the record of a sealed key unseals to that key. -/

namespace Sys2Proof.Machine

@[simp] theorem xorBytes_length : ∀ a b : List Byte, (xorBytes a b).length = min a.length b.length
  | [], _ => by simp [xorBytes]
  | _ :: _, [] => by simp [xorBytes]
  | x :: as, y :: bs => by simp [xorBytes, xorBytes_length as bs]

/-- A second exclusive-or with the same key stream undoes the first. -/
theorem xorBytes_xorBytes : ∀ a b : List Byte, a.length ≤ b.length → xorBytes (xorBytes a b) b = a
  | [], _, _ => rfl
  | _ :: _, [], h => by simp at h
  | x :: as, y :: bs, h => by
    have := xorBytes_xorBytes as bs (by simpa using h)
    simp [xorBytes, this, BitVec.xor_assoc]

@[simp] theorem takePad_length (n : Nat) (b : List Byte) : (takePad n b).length = n := by simp [takePad, zeros]

/-- Bytes of the full length are taken as they are. -/
theorem takePad_of_length {n : Nat} {b : List Byte} (h : b.length = n) : takePad n b = b := by
  subst h; simp [takePad]

@[simp] theorem natToLE_length : ∀ n v : Nat, (natToLE n v).length = n
  | 0, _ => rfl
  | n + 1, v => by simp [natToLE, natToLE_length n]

@[simp] theorem natToBE_length (n v : Nat) : (natToBE n v).length = n := by simp [natToBE]

@[simp] theorem blockFn_aes_length (key b : List Byte) : ((blockFn 2 key).enc b).length = 16 := by simp [blockFn]

@[simp] theorem gcmTag_aes_length (key iv aad ct : List Byte) : (gcmTag (blockFn 2 key) iv aad ct).length = 16 := by
  simp [gcmTag, gcmSeal]

/-- 32 bytes are two blocks. -/
theorem chunks_of_32 {b : List Byte} (h : b.length = 32) : chunks 16 b = [b.take 16, b.drop 16] := by
  have h1 : b ≠ [] := fun e => by simp [e] at h
  have h2 : b.drop 16 ≠ [] := fun e => by have := congrArg List.length e; simp [h] at this
  have h3 : (b.drop 16).take 16 = b.drop 16 := List.take_of_length_le (by simp [h])
  simp [chunks, chunksAux, h, h1, h2, h3]

@[simp] theorem gcmData_length_32 (key iv : List Byte) {b : List Byte} (h : b.length = 32) :
    (gcmData (blockFn 2 key) iv b).length = 32 := by simp [gcmData, chunks_of_32 h, ctr, h]

/-- GCM's data transform undoes itself. -/
theorem gcmData_gcmData_32 (key iv : List Byte) {b : List Byte} (h : b.length = 32) :
    gcmData (blockFn 2 key) iv (gcmData (blockFn 2 key) iv b) = b := by
  rw [gcmData, chunks_of_32 (gcmData_length_32 key iv h), gcmData, chunks_of_32 h]
  simp only [ctr, List.append_nil]
  rw [List.take_left' (by simp [h]), List.drop_left' (by simp [h]), xorBytes_xorBytes _ _ (by simp [h]),
    xorBytes_xorBytes _ _ (by simp [h]), List.take_append_drop]

@[simp] theorem sealKey_length (keep : List Byte) (d : Nat) (head key : List Byte) : (sealKey keep d head key).length = 48 := by
  simp only [sealKey, List.length_append, gcmTag_aes_length]
  rw [gcmData_length_32 _ _ (takePad_length 32 key)]

/-- Text and tag in one list come apart again. -/
theorem if_sealed (f g : List Byte → List Byte) {ct : List Byte} (hl : ct.length = 32) (ht : (g ct).length = 16) :
    (if g ((ct ++ g ct).take 32) = ((ct ++ g ct).drop 32).take 16 then some (f ((ct ++ g ct).take 32)) else none) =
      some (f ct) := by
  rw [List.take_left' hl, List.drop_left' hl, List.take_of_length_le (Nat.le_of_eq ht), if_pos rfl]

/-- A sealed key unseals under the same head. -/
theorem unsealKey_sealKey (keep : List Byte) (d : Nat) (head key : List Byte) :
    unsealKey keep d head (sealKey keep d head key) = some (takePad 32 key) :=
  (if_sealed (gcmData (blockFn 2 keep) (sealIv d head)) (gcmTag (blockFn 2 keep) (sealIv d head) head)
    (gcmData_length_32 _ _ (takePad_length 32 key)) (gcmTag_aes_length ..)).trans
    (congrArg some (gcmData_gcmData_32 _ _ (takePad_length 32 key)))

/-- A record made under the keep key opens to its key while custody may unseal it (R199, R332). -/
theorem openRecord_keyRecord (s : State) (d : Nat) (keep key : List Byte) (hp : s.keepPresent = true) (hk : s.tk.keep = some keep) :
    s.openRecord d (some (keyRecord keep d key)) = some (takePad 32 key) := by
  have h8 : (sealHead 0 0xFF 0 1).length = 8 := by simp [sealHead]
  unfold State.openRecord keyRecord
  generalize sealHead 0 0xFF 0 1 = head at h8 ⊢
  have h1 : (head ++ sealKey keep d head key ++ zeros 8).take 8 = head := by
    rw [List.append_assoc]; exact List.take_left' h8
  have h2 : ((head ++ sealKey keep d head key ++ zeros 8).drop 8).take 48 = sealKey keep d head key := by
    rw [List.append_assoc, List.drop_left' h8]; exact List.take_left' (sealKey_length ..)
  rw [hp, hk]
  show unsealKey keep d _ _ = _
  rw [h1, h2, unsealKey_sealKey]

end Sys2Proof.Machine
end

