-- ==== Sys2Proof/Laws/State.lean ====
section
/-! SUPPORT. The state after each named update, field by field, and what a read finds after a write: no proof over these
updates has to unfold them. -/

namespace Sys2Proof.Laws

open Sys2Proof Sys2Proof.Machine

variable (s : State)

/-! ### What an update leaves alone -/

@[simp] theorem setCore_mem (c : Nat) (k : Core) : (setCore c k s).mem = s.mem := rfl
@[simp] theorem setCore_time (c : Nat) (k : Core) : (setCore c k s).time = s.time := rfl
@[simp] theorem setCore_br (c : Nat) (k : Core) : (setCore c k s).br = s.br := rfl
@[simp] theorem setCore_al (c : Nat) (k : Core) : (setCore c k s).al = s.al := rfl
@[simp] theorem setCore_ledger (c : Nat) (k : Core) : (setCore c k s).ledger = s.ledger := rfl
@[simp] theorem setCore_tk (c : Nat) (k : Core) : (setCore c k s).tk = s.tk := rfl
@[simp] theorem setCore_cn (c : Nat) (k : Core) : (setCore c k s).cn = s.cn := rfl
@[simp] theorem setCore_cq (c : Nat) (k : Core) : (setCore c k s).cq = s.cq := rfl
@[simp] theorem setCore_us (c : Nat) (k : Core) : (setCore c k s).us = s.us := rfl
@[simp] theorem setCore_st (c : Nat) (k : Core) : (setCore c k s).st = s.st := rfl
@[simp] theorem setCore_cf (c : Nat) (k : Core) : (setCore c k s).cf = s.cf := rfl
@[simp] theorem setCore_pk (c : Nat) (k : Core) : (setCore c k s).pk = s.pk := rfl
@[simp] theorem setCore_il (c : Nat) (k : Core) : (setCore c k s).il = s.il := rfl
@[simp] theorem setCore_tm (c : Nat) (k : Core) : (setCore c k s).tm = s.tm := rfl
@[simp] theorem setCore_fv (c : Nat) (k : Core) : (setCore c k s).fv = s.fv := rfl
@[simp] theorem setCore_cv (c : Nat) (k : Core) : (setCore c k s).cv = s.cv := rfl
@[simp] theorem setCore_cd (c : Nat) (k : Core) : (setCore c k s).cd = s.cd := rfl
@[simp] theorem setCore_nf (c : Nat) (k : Core) : (setCore c k s).nf = s.nf := rfl
@[simp] theorem setCore_pm (c : Nat) (k : Core) : (setCore c k s).pm = s.pm := rfl
@[simp] theorem setCore_lc (c : Nat) (k : Core) : (setCore c k s).lc = s.lc := rfl
@[simp] theorem setCore_od (c : Nat) (k : Core) : (setCore c k s).od = s.od := rfl
@[simp] theorem setCore_events (c : Nat) (k : Core) : (setCore c k s).events = s.events := rfl
@[simp] theorem setCore_free (c : Nat) (k : Core) : (setCore c k s).free = s.free := rfl
@[simp] theorem setCore_waits (c : Nat) (k : Core) : (setCore c k s).waits = s.waits := rfl
@[simp] theorem setCore_pending (c : Nat) (k : Core) : (setCore c k s).pending = s.pending := rfl

@[simp] theorem updCore_mem (c : Nat) (f : Core → Core) : (updCore c f s).mem = s.mem := rfl
@[simp] theorem updCore_time (c : Nat) (f : Core → Core) : (updCore c f s).time = s.time := rfl
@[simp] theorem updCore_br (c : Nat) (f : Core → Core) : (updCore c f s).br = s.br := rfl
@[simp] theorem updCore_al (c : Nat) (f : Core → Core) : (updCore c f s).al = s.al := rfl
@[simp] theorem updCore_ledger (c : Nat) (f : Core → Core) : (updCore c f s).ledger = s.ledger := rfl
@[simp] theorem updCore_tk (c : Nat) (f : Core → Core) : (updCore c f s).tk = s.tk := rfl
@[simp] theorem updCore_cn (c : Nat) (f : Core → Core) : (updCore c f s).cn = s.cn := rfl
@[simp] theorem updCore_cq (c : Nat) (f : Core → Core) : (updCore c f s).cq = s.cq := rfl
@[simp] theorem updCore_us (c : Nat) (f : Core → Core) : (updCore c f s).us = s.us := rfl
@[simp] theorem updCore_st (c : Nat) (f : Core → Core) : (updCore c f s).st = s.st := rfl
@[simp] theorem updCore_cf (c : Nat) (f : Core → Core) : (updCore c f s).cf = s.cf := rfl
@[simp] theorem updCore_pk (c : Nat) (f : Core → Core) : (updCore c f s).pk = s.pk := rfl
@[simp] theorem updCore_il (c : Nat) (f : Core → Core) : (updCore c f s).il = s.il := rfl
@[simp] theorem updCore_tm (c : Nat) (f : Core → Core) : (updCore c f s).tm = s.tm := rfl
@[simp] theorem updCore_fv (c : Nat) (f : Core → Core) : (updCore c f s).fv = s.fv := rfl
@[simp] theorem updCore_cv (c : Nat) (f : Core → Core) : (updCore c f s).cv = s.cv := rfl
@[simp] theorem updCore_cd (c : Nat) (f : Core → Core) : (updCore c f s).cd = s.cd := rfl
@[simp] theorem updCore_nf (c : Nat) (f : Core → Core) : (updCore c f s).nf = s.nf := rfl
@[simp] theorem updCore_pm (c : Nat) (f : Core → Core) : (updCore c f s).pm = s.pm := rfl
@[simp] theorem updCore_lc (c : Nat) (f : Core → Core) : (updCore c f s).lc = s.lc := rfl
@[simp] theorem updCore_od (c : Nat) (f : Core → Core) : (updCore c f s).od = s.od := rfl
@[simp] theorem updCore_events (c : Nat) (f : Core → Core) : (updCore c f s).events = s.events := rfl
@[simp] theorem updCore_free (c : Nat) (f : Core → Core) : (updCore c f s).free = s.free := rfl
@[simp] theorem updCore_waits (c : Nat) (f : Core → Core) : (updCore c f s).waits = s.waits := rfl
@[simp] theorem updCore_pending (c : Nat) (f : Core → Core) : (updCore c f s).pending = s.pending := rfl

@[simp] theorem putReg_mem (c i : Nat) (v : W64) : (putReg c i v s).mem = s.mem := rfl
@[simp] theorem putReg_time (c i : Nat) (v : W64) : (putReg c i v s).time = s.time := rfl
@[simp] theorem putReg_br (c i : Nat) (v : W64) : (putReg c i v s).br = s.br := rfl
@[simp] theorem putReg_al (c i : Nat) (v : W64) : (putReg c i v s).al = s.al := rfl
@[simp] theorem putReg_ledger (c i : Nat) (v : W64) : (putReg c i v s).ledger = s.ledger := rfl
@[simp] theorem putReg_tk (c i : Nat) (v : W64) : (putReg c i v s).tk = s.tk := rfl
@[simp] theorem putReg_cn (c i : Nat) (v : W64) : (putReg c i v s).cn = s.cn := rfl
@[simp] theorem putReg_cq (c i : Nat) (v : W64) : (putReg c i v s).cq = s.cq := rfl
@[simp] theorem putReg_us (c i : Nat) (v : W64) : (putReg c i v s).us = s.us := rfl
@[simp] theorem putReg_st (c i : Nat) (v : W64) : (putReg c i v s).st = s.st := rfl
@[simp] theorem putReg_cf (c i : Nat) (v : W64) : (putReg c i v s).cf = s.cf := rfl
@[simp] theorem putReg_pk (c i : Nat) (v : W64) : (putReg c i v s).pk = s.pk := rfl
@[simp] theorem putReg_il (c i : Nat) (v : W64) : (putReg c i v s).il = s.il := rfl
@[simp] theorem putReg_tm (c i : Nat) (v : W64) : (putReg c i v s).tm = s.tm := rfl
@[simp] theorem putReg_fv (c i : Nat) (v : W64) : (putReg c i v s).fv = s.fv := rfl
@[simp] theorem putReg_cv (c i : Nat) (v : W64) : (putReg c i v s).cv = s.cv := rfl
@[simp] theorem putReg_cd (c i : Nat) (v : W64) : (putReg c i v s).cd = s.cd := rfl
@[simp] theorem putReg_nf (c i : Nat) (v : W64) : (putReg c i v s).nf = s.nf := rfl
@[simp] theorem putReg_pm (c i : Nat) (v : W64) : (putReg c i v s).pm = s.pm := rfl
@[simp] theorem putReg_lc (c i : Nat) (v : W64) : (putReg c i v s).lc = s.lc := rfl
@[simp] theorem putReg_od (c i : Nat) (v : W64) : (putReg c i v s).od = s.od := rfl
@[simp] theorem putReg_events (c i : Nat) (v : W64) : (putReg c i v s).events = s.events := rfl
@[simp] theorem putReg_free (c i : Nat) (v : W64) : (putReg c i v s).free = s.free := rfl
@[simp] theorem putReg_waits (c i : Nat) (v : W64) : (putReg c i v s).waits = s.waits := rfl
@[simp] theorem putReg_pending (c i : Nat) (v : W64) : (putReg c i v s).pending = s.pending := rfl

@[simp] theorem putK_mem (c i : Nat) (r : Rein) : (putK c i r s).mem = s.mem := rfl
@[simp] theorem putK_time (c i : Nat) (r : Rein) : (putK c i r s).time = s.time := rfl
@[simp] theorem putK_br (c i : Nat) (r : Rein) : (putK c i r s).br = s.br := rfl
@[simp] theorem putK_al (c i : Nat) (r : Rein) : (putK c i r s).al = s.al := rfl
@[simp] theorem putK_ledger (c i : Nat) (r : Rein) : (putK c i r s).ledger = s.ledger := rfl
@[simp] theorem putK_tk (c i : Nat) (r : Rein) : (putK c i r s).tk = s.tk := rfl
@[simp] theorem putK_cn (c i : Nat) (r : Rein) : (putK c i r s).cn = s.cn := rfl
@[simp] theorem putK_cq (c i : Nat) (r : Rein) : (putK c i r s).cq = s.cq := rfl
@[simp] theorem putK_us (c i : Nat) (r : Rein) : (putK c i r s).us = s.us := rfl
@[simp] theorem putK_st (c i : Nat) (r : Rein) : (putK c i r s).st = s.st := rfl
@[simp] theorem putK_cf (c i : Nat) (r : Rein) : (putK c i r s).cf = s.cf := rfl
@[simp] theorem putK_pk (c i : Nat) (r : Rein) : (putK c i r s).pk = s.pk := rfl
@[simp] theorem putK_il (c i : Nat) (r : Rein) : (putK c i r s).il = s.il := rfl
@[simp] theorem putK_tm (c i : Nat) (r : Rein) : (putK c i r s).tm = s.tm := rfl
@[simp] theorem putK_fv (c i : Nat) (r : Rein) : (putK c i r s).fv = s.fv := rfl
@[simp] theorem putK_cv (c i : Nat) (r : Rein) : (putK c i r s).cv = s.cv := rfl
@[simp] theorem putK_cd (c i : Nat) (r : Rein) : (putK c i r s).cd = s.cd := rfl
@[simp] theorem putK_nf (c i : Nat) (r : Rein) : (putK c i r s).nf = s.nf := rfl
@[simp] theorem putK_pm (c i : Nat) (r : Rein) : (putK c i r s).pm = s.pm := rfl
@[simp] theorem putK_lc (c i : Nat) (r : Rein) : (putK c i r s).lc = s.lc := rfl
@[simp] theorem putK_od (c i : Nat) (r : Rein) : (putK c i r s).od = s.od := rfl
@[simp] theorem putK_events (c i : Nat) (r : Rein) : (putK c i r s).events = s.events := rfl
@[simp] theorem putK_free (c i : Nat) (r : Rein) : (putK c i r s).free = s.free := rfl
@[simp] theorem putK_waits (c i : Nat) (r : Rein) : (putK c i r s).waits = s.waits := rfl
@[simp] theorem putK_pending (c i : Nat) (r : Rein) : (putK c i r s).pending = s.pending := rfl

@[simp] theorem setPend_mem (c i : Nat) : (setPend c i s).mem = s.mem := rfl
@[simp] theorem setPend_time (c i : Nat) : (setPend c i s).time = s.time := rfl
@[simp] theorem setPend_br (c i : Nat) : (setPend c i s).br = s.br := rfl
@[simp] theorem setPend_al (c i : Nat) : (setPend c i s).al = s.al := rfl
@[simp] theorem setPend_ledger (c i : Nat) : (setPend c i s).ledger = s.ledger := rfl
@[simp] theorem setPend_tk (c i : Nat) : (setPend c i s).tk = s.tk := rfl
@[simp] theorem setPend_cn (c i : Nat) : (setPend c i s).cn = s.cn := rfl
@[simp] theorem setPend_cq (c i : Nat) : (setPend c i s).cq = s.cq := rfl
@[simp] theorem setPend_us (c i : Nat) : (setPend c i s).us = s.us := rfl
@[simp] theorem setPend_st (c i : Nat) : (setPend c i s).st = s.st := rfl
@[simp] theorem setPend_cf (c i : Nat) : (setPend c i s).cf = s.cf := rfl
@[simp] theorem setPend_pk (c i : Nat) : (setPend c i s).pk = s.pk := rfl
@[simp] theorem setPend_il (c i : Nat) : (setPend c i s).il = s.il := rfl
@[simp] theorem setPend_tm (c i : Nat) : (setPend c i s).tm = s.tm := rfl
@[simp] theorem setPend_fv (c i : Nat) : (setPend c i s).fv = s.fv := rfl
@[simp] theorem setPend_cv (c i : Nat) : (setPend c i s).cv = s.cv := rfl
@[simp] theorem setPend_cd (c i : Nat) : (setPend c i s).cd = s.cd := rfl
@[simp] theorem setPend_nf (c i : Nat) : (setPend c i s).nf = s.nf := rfl
@[simp] theorem setPend_pm (c i : Nat) : (setPend c i s).pm = s.pm := rfl
@[simp] theorem setPend_lc (c i : Nat) : (setPend c i s).lc = s.lc := rfl
@[simp] theorem setPend_od (c i : Nat) : (setPend c i s).od = s.od := rfl
@[simp] theorem setPend_events (c i : Nat) : (setPend c i s).events = s.events := rfl
@[simp] theorem setPend_free (c i : Nat) : (setPend c i s).free = s.free := rfl
@[simp] theorem setPend_waits (c i : Nat) : (setPend c i s).waits = s.waits := rfl
@[simp] theorem setPend_pending (c i : Nat) : (setPend c i s).pending = s.pending := rfl

@[simp] theorem setPendFor_mem (c i p : Nat) : (setPendFor c i p s).mem = s.mem := rfl
@[simp] theorem setPendFor_time (c i p : Nat) : (setPendFor c i p s).time = s.time := rfl
@[simp] theorem setPendFor_br (c i p : Nat) : (setPendFor c i p s).br = s.br := rfl
@[simp] theorem setPendFor_al (c i p : Nat) : (setPendFor c i p s).al = s.al := rfl
@[simp] theorem setPendFor_ledger (c i p : Nat) : (setPendFor c i p s).ledger = s.ledger := rfl
@[simp] theorem setPendFor_tk (c i p : Nat) : (setPendFor c i p s).tk = s.tk := rfl
@[simp] theorem setPendFor_cn (c i p : Nat) : (setPendFor c i p s).cn = s.cn := rfl
@[simp] theorem setPendFor_cq (c i p : Nat) : (setPendFor c i p s).cq = s.cq := rfl
@[simp] theorem setPendFor_us (c i p : Nat) : (setPendFor c i p s).us = s.us := rfl
@[simp] theorem setPendFor_st (c i p : Nat) : (setPendFor c i p s).st = s.st := rfl
@[simp] theorem setPendFor_cf (c i p : Nat) : (setPendFor c i p s).cf = s.cf := rfl
@[simp] theorem setPendFor_pk (c i p : Nat) : (setPendFor c i p s).pk = s.pk := rfl
@[simp] theorem setPendFor_il (c i p : Nat) : (setPendFor c i p s).il = s.il := rfl
@[simp] theorem setPendFor_tm (c i p : Nat) : (setPendFor c i p s).tm = s.tm := rfl
@[simp] theorem setPendFor_fv (c i p : Nat) : (setPendFor c i p s).fv = s.fv := rfl
@[simp] theorem setPendFor_cv (c i p : Nat) : (setPendFor c i p s).cv = s.cv := rfl
@[simp] theorem setPendFor_cd (c i p : Nat) : (setPendFor c i p s).cd = s.cd := rfl
@[simp] theorem setPendFor_nf (c i p : Nat) : (setPendFor c i p s).nf = s.nf := rfl
@[simp] theorem setPendFor_pm (c i p : Nat) : (setPendFor c i p s).pm = s.pm := rfl
@[simp] theorem setPendFor_lc (c i p : Nat) : (setPendFor c i p s).lc = s.lc := rfl
@[simp] theorem setPendFor_od (c i p : Nat) : (setPendFor c i p s).od = s.od := rfl
@[simp] theorem setPendFor_events (c i p : Nat) : (setPendFor c i p s).events = s.events := rfl
@[simp] theorem setPendFor_free (c i p : Nat) : (setPendFor c i p s).free = s.free := rfl
@[simp] theorem setPendFor_waits (c i p : Nat) : (setPendFor c i p s).waits = s.waits := rfl
@[simp] theorem setPendFor_pending (c i p : Nat) : (setPendFor c i p s).pending = s.pending := rfl

@[simp] theorem updUnit_mem (p u : Nat) (f : UnitRec → UnitRec) : (updUnit p u f s).mem = s.mem := rfl
@[simp] theorem updUnit_time (p u : Nat) (f : UnitRec → UnitRec) : (updUnit p u f s).time = s.time := rfl
@[simp] theorem updUnit_br (p u : Nat) (f : UnitRec → UnitRec) : (updUnit p u f s).br = s.br := rfl
@[simp] theorem updUnit_al (p u : Nat) (f : UnitRec → UnitRec) : (updUnit p u f s).al = s.al := rfl
@[simp] theorem updUnit_ledger (p u : Nat) (f : UnitRec → UnitRec) : (updUnit p u f s).ledger = s.ledger := rfl
@[simp] theorem updUnit_tk (p u : Nat) (f : UnitRec → UnitRec) : (updUnit p u f s).tk = s.tk := rfl
@[simp] theorem updUnit_cn (p u : Nat) (f : UnitRec → UnitRec) : (updUnit p u f s).cn = s.cn := rfl
@[simp] theorem updUnit_cq (p u : Nat) (f : UnitRec → UnitRec) : (updUnit p u f s).cq = s.cq := rfl
@[simp] theorem updUnit_pc (p u : Nat) (f : UnitRec → UnitRec) : (updUnit p u f s).pc = s.pc := rfl
@[simp] theorem updUnit_st (p u : Nat) (f : UnitRec → UnitRec) : (updUnit p u f s).st = s.st := rfl
@[simp] theorem updUnit_cf (p u : Nat) (f : UnitRec → UnitRec) : (updUnit p u f s).cf = s.cf := rfl
@[simp] theorem updUnit_pk (p u : Nat) (f : UnitRec → UnitRec) : (updUnit p u f s).pk = s.pk := rfl
@[simp] theorem updUnit_il (p u : Nat) (f : UnitRec → UnitRec) : (updUnit p u f s).il = s.il := rfl
@[simp] theorem updUnit_tm (p u : Nat) (f : UnitRec → UnitRec) : (updUnit p u f s).tm = s.tm := rfl
@[simp] theorem updUnit_fv (p u : Nat) (f : UnitRec → UnitRec) : (updUnit p u f s).fv = s.fv := rfl
@[simp] theorem updUnit_cv (p u : Nat) (f : UnitRec → UnitRec) : (updUnit p u f s).cv = s.cv := rfl
@[simp] theorem updUnit_cd (p u : Nat) (f : UnitRec → UnitRec) : (updUnit p u f s).cd = s.cd := rfl
@[simp] theorem updUnit_nf (p u : Nat) (f : UnitRec → UnitRec) : (updUnit p u f s).nf = s.nf := rfl
@[simp] theorem updUnit_pm (p u : Nat) (f : UnitRec → UnitRec) : (updUnit p u f s).pm = s.pm := rfl
@[simp] theorem updUnit_lc (p u : Nat) (f : UnitRec → UnitRec) : (updUnit p u f s).lc = s.lc := rfl
@[simp] theorem updUnit_od (p u : Nat) (f : UnitRec → UnitRec) : (updUnit p u f s).od = s.od := rfl
@[simp] theorem updUnit_events (p u : Nat) (f : UnitRec → UnitRec) : (updUnit p u f s).events = s.events := rfl
@[simp] theorem updUnit_free (p u : Nat) (f : UnitRec → UnitRec) : (updUnit p u f s).free = s.free := rfl
@[simp] theorem updUnit_waits (p u : Nat) (f : UnitRec → UnitRec) : (updUnit p u f s).waits = s.waits := rfl
@[simp] theorem updUnit_pending (p u : Nat) (f : UnitRec → UnitRec) : (updUnit p u f s).pending = s.pending := rfl

@[simp] theorem updFw_mem (f : FwReplace → FwReplace) : (updFw f s).mem = s.mem := rfl
@[simp] theorem updFw_time (f : FwReplace → FwReplace) : (updFw f s).time = s.time := rfl
@[simp] theorem updFw_br (f : FwReplace → FwReplace) : (updFw f s).br = s.br := rfl
@[simp] theorem updFw_al (f : FwReplace → FwReplace) : (updFw f s).al = s.al := rfl
@[simp] theorem updFw_ledger (f : FwReplace → FwReplace) : (updFw f s).ledger = s.ledger := rfl
@[simp] theorem updFw_tk (f : FwReplace → FwReplace) : (updFw f s).tk = s.tk := rfl
@[simp] theorem updFw_cn (f : FwReplace → FwReplace) : (updFw f s).cn = s.cn := rfl
@[simp] theorem updFw_cq (f : FwReplace → FwReplace) : (updFw f s).cq = s.cq := rfl
@[simp] theorem updFw_pc (f : FwReplace → FwReplace) : (updFw f s).pc = s.pc := rfl
@[simp] theorem updFw_st (f : FwReplace → FwReplace) : (updFw f s).st = s.st := rfl
@[simp] theorem updFw_cf (f : FwReplace → FwReplace) : (updFw f s).cf = s.cf := rfl
@[simp] theorem updFw_pk (f : FwReplace → FwReplace) : (updFw f s).pk = s.pk := rfl
@[simp] theorem updFw_il (f : FwReplace → FwReplace) : (updFw f s).il = s.il := rfl
@[simp] theorem updFw_tm (f : FwReplace → FwReplace) : (updFw f s).tm = s.tm := rfl
@[simp] theorem updFw_fv (f : FwReplace → FwReplace) : (updFw f s).fv = s.fv := rfl
@[simp] theorem updFw_cv (f : FwReplace → FwReplace) : (updFw f s).cv = s.cv := rfl
@[simp] theorem updFw_cd (f : FwReplace → FwReplace) : (updFw f s).cd = s.cd := rfl
@[simp] theorem updFw_nf (f : FwReplace → FwReplace) : (updFw f s).nf = s.nf := rfl
@[simp] theorem updFw_pm (f : FwReplace → FwReplace) : (updFw f s).pm = s.pm := rfl
@[simp] theorem updFw_lc (f : FwReplace → FwReplace) : (updFw f s).lc = s.lc := rfl
@[simp] theorem updFw_od (f : FwReplace → FwReplace) : (updFw f s).od = s.od := rfl
@[simp] theorem updFw_events (f : FwReplace → FwReplace) : (updFw f s).events = s.events := rfl
@[simp] theorem updFw_free (f : FwReplace → FwReplace) : (updFw f s).free = s.free := rfl
@[simp] theorem updFw_waits (f : FwReplace → FwReplace) : (updFw f s).waits = s.waits := rfl
@[simp] theorem updFw_pending (f : FwReplace → FwReplace) : (updFw f s).pending = s.pending := rfl

@[simp] theorem updTack_mem (h : Nat) (f : Tack → Tack) : (updTack h f s).mem = s.mem := rfl
@[simp] theorem updTack_time (h : Nat) (f : Tack → Tack) : (updTack h f s).time = s.time := rfl
@[simp] theorem updTack_br (h : Nat) (f : Tack → Tack) : (updTack h f s).br = s.br := rfl
@[simp] theorem updTack_al (h : Nat) (f : Tack → Tack) : (updTack h f s).al = s.al := rfl
@[simp] theorem updTack_ledger (h : Nat) (f : Tack → Tack) : (updTack h f s).ledger = s.ledger := rfl
@[simp] theorem updTack_cn (h : Nat) (f : Tack → Tack) : (updTack h f s).cn = s.cn := rfl
@[simp] theorem updTack_cq (h : Nat) (f : Tack → Tack) : (updTack h f s).cq = s.cq := rfl
@[simp] theorem updTack_pc (h : Nat) (f : Tack → Tack) : (updTack h f s).pc = s.pc := rfl
@[simp] theorem updTack_us (h : Nat) (f : Tack → Tack) : (updTack h f s).us = s.us := rfl
@[simp] theorem updTack_st (h : Nat) (f : Tack → Tack) : (updTack h f s).st = s.st := rfl
@[simp] theorem updTack_cf (h : Nat) (f : Tack → Tack) : (updTack h f s).cf = s.cf := rfl
@[simp] theorem updTack_pk (h : Nat) (f : Tack → Tack) : (updTack h f s).pk = s.pk := rfl
@[simp] theorem updTack_il (h : Nat) (f : Tack → Tack) : (updTack h f s).il = s.il := rfl
@[simp] theorem updTack_tm (h : Nat) (f : Tack → Tack) : (updTack h f s).tm = s.tm := rfl
@[simp] theorem updTack_fv (h : Nat) (f : Tack → Tack) : (updTack h f s).fv = s.fv := rfl
@[simp] theorem updTack_cv (h : Nat) (f : Tack → Tack) : (updTack h f s).cv = s.cv := rfl
@[simp] theorem updTack_cd (h : Nat) (f : Tack → Tack) : (updTack h f s).cd = s.cd := rfl
@[simp] theorem updTack_nf (h : Nat) (f : Tack → Tack) : (updTack h f s).nf = s.nf := rfl
@[simp] theorem updTack_pm (h : Nat) (f : Tack → Tack) : (updTack h f s).pm = s.pm := rfl
@[simp] theorem updTack_lc (h : Nat) (f : Tack → Tack) : (updTack h f s).lc = s.lc := rfl
@[simp] theorem updTack_od (h : Nat) (f : Tack → Tack) : (updTack h f s).od = s.od := rfl
@[simp] theorem updTack_events (h : Nat) (f : Tack → Tack) : (updTack h f s).events = s.events := rfl
@[simp] theorem updTack_free (h : Nat) (f : Tack → Tack) : (updTack h f s).free = s.free := rfl
@[simp] theorem updTack_waits (h : Nat) (f : Tack → Tack) : (updTack h f s).waits = s.waits := rfl
@[simp] theorem updTack_pending (h : Nat) (f : Tack → Tack) : (updTack h f s).pending = s.pending := rfl

@[simp] theorem setCinch_mem (i : Nat) (x : Cinch) : (setCinch i x s).mem = s.mem := rfl
@[simp] theorem setCinch_time (i : Nat) (x : Cinch) : (setCinch i x s).time = s.time := rfl
@[simp] theorem setCinch_br (i : Nat) (x : Cinch) : (setCinch i x s).br = s.br := rfl
@[simp] theorem setCinch_al (i : Nat) (x : Cinch) : (setCinch i x s).al = s.al := rfl
@[simp] theorem setCinch_ledger (i : Nat) (x : Cinch) : (setCinch i x s).ledger = s.ledger := rfl
@[simp] theorem setCinch_tk (i : Nat) (x : Cinch) : (setCinch i x s).tk = s.tk := rfl
@[simp] theorem setCinch_cq (i : Nat) (x : Cinch) : (setCinch i x s).cq = s.cq := rfl
@[simp] theorem setCinch_pc (i : Nat) (x : Cinch) : (setCinch i x s).pc = s.pc := rfl
@[simp] theorem setCinch_us (i : Nat) (x : Cinch) : (setCinch i x s).us = s.us := rfl
@[simp] theorem setCinch_st (i : Nat) (x : Cinch) : (setCinch i x s).st = s.st := rfl
@[simp] theorem setCinch_cf (i : Nat) (x : Cinch) : (setCinch i x s).cf = s.cf := rfl
@[simp] theorem setCinch_pk (i : Nat) (x : Cinch) : (setCinch i x s).pk = s.pk := rfl
@[simp] theorem setCinch_il (i : Nat) (x : Cinch) : (setCinch i x s).il = s.il := rfl
@[simp] theorem setCinch_tm (i : Nat) (x : Cinch) : (setCinch i x s).tm = s.tm := rfl
@[simp] theorem setCinch_fv (i : Nat) (x : Cinch) : (setCinch i x s).fv = s.fv := rfl
@[simp] theorem setCinch_cv (i : Nat) (x : Cinch) : (setCinch i x s).cv = s.cv := rfl
@[simp] theorem setCinch_cd (i : Nat) (x : Cinch) : (setCinch i x s).cd = s.cd := rfl
@[simp] theorem setCinch_nf (i : Nat) (x : Cinch) : (setCinch i x s).nf = s.nf := rfl
@[simp] theorem setCinch_pm (i : Nat) (x : Cinch) : (setCinch i x s).pm = s.pm := rfl
@[simp] theorem setCinch_lc (i : Nat) (x : Cinch) : (setCinch i x s).lc = s.lc := rfl
@[simp] theorem setCinch_od (i : Nat) (x : Cinch) : (setCinch i x s).od = s.od := rfl
@[simp] theorem setCinch_events (i : Nat) (x : Cinch) : (setCinch i x s).events = s.events := rfl
@[simp] theorem setCinch_free (i : Nat) (x : Cinch) : (setCinch i x s).free = s.free := rfl
@[simp] theorem setCinch_waits (i : Nat) (x : Cinch) : (setCinch i x s).waits = s.waits := rfl
@[simp] theorem setCinch_pending (i : Nat) (x : Cinch) : (setCinch i x s).pending = s.pending := rfl

@[simp] theorem updCinch_mem (i : Nat) (f : Cinch → Cinch) : (updCinch i f s).mem = s.mem := rfl
@[simp] theorem updCinch_time (i : Nat) (f : Cinch → Cinch) : (updCinch i f s).time = s.time := rfl
@[simp] theorem updCinch_br (i : Nat) (f : Cinch → Cinch) : (updCinch i f s).br = s.br := rfl
@[simp] theorem updCinch_al (i : Nat) (f : Cinch → Cinch) : (updCinch i f s).al = s.al := rfl
@[simp] theorem updCinch_ledger (i : Nat) (f : Cinch → Cinch) : (updCinch i f s).ledger = s.ledger := rfl
@[simp] theorem updCinch_tk (i : Nat) (f : Cinch → Cinch) : (updCinch i f s).tk = s.tk := rfl
@[simp] theorem updCinch_cq (i : Nat) (f : Cinch → Cinch) : (updCinch i f s).cq = s.cq := rfl
@[simp] theorem updCinch_pc (i : Nat) (f : Cinch → Cinch) : (updCinch i f s).pc = s.pc := rfl
@[simp] theorem updCinch_us (i : Nat) (f : Cinch → Cinch) : (updCinch i f s).us = s.us := rfl
@[simp] theorem updCinch_st (i : Nat) (f : Cinch → Cinch) : (updCinch i f s).st = s.st := rfl
@[simp] theorem updCinch_cf (i : Nat) (f : Cinch → Cinch) : (updCinch i f s).cf = s.cf := rfl
@[simp] theorem updCinch_pk (i : Nat) (f : Cinch → Cinch) : (updCinch i f s).pk = s.pk := rfl
@[simp] theorem updCinch_il (i : Nat) (f : Cinch → Cinch) : (updCinch i f s).il = s.il := rfl
@[simp] theorem updCinch_tm (i : Nat) (f : Cinch → Cinch) : (updCinch i f s).tm = s.tm := rfl
@[simp] theorem updCinch_fv (i : Nat) (f : Cinch → Cinch) : (updCinch i f s).fv = s.fv := rfl
@[simp] theorem updCinch_cv (i : Nat) (f : Cinch → Cinch) : (updCinch i f s).cv = s.cv := rfl
@[simp] theorem updCinch_cd (i : Nat) (f : Cinch → Cinch) : (updCinch i f s).cd = s.cd := rfl
@[simp] theorem updCinch_nf (i : Nat) (f : Cinch → Cinch) : (updCinch i f s).nf = s.nf := rfl
@[simp] theorem updCinch_pm (i : Nat) (f : Cinch → Cinch) : (updCinch i f s).pm = s.pm := rfl
@[simp] theorem updCinch_lc (i : Nat) (f : Cinch → Cinch) : (updCinch i f s).lc = s.lc := rfl
@[simp] theorem updCinch_od (i : Nat) (f : Cinch → Cinch) : (updCinch i f s).od = s.od := rfl
@[simp] theorem updCinch_events (i : Nat) (f : Cinch → Cinch) : (updCinch i f s).events = s.events := rfl
@[simp] theorem updCinch_free (i : Nat) (f : Cinch → Cinch) : (updCinch i f s).free = s.free := rfl
@[simp] theorem updCinch_waits (i : Nat) (f : Cinch → Cinch) : (updCinch i f s).waits = s.waits := rfl
@[simp] theorem updCinch_pending (i : Nat) (f : Cinch → Cinch) : (updCinch i f s).pending = s.pending := rfl

@[simp] theorem setDrbg_mem (u : Nat) (d : Drbg) : (setDrbg u d s).mem = s.mem := rfl
@[simp] theorem setDrbg_time (u : Nat) (d : Drbg) : (setDrbg u d s).time = s.time := rfl
@[simp] theorem setDrbg_br (u : Nat) (d : Drbg) : (setDrbg u d s).br = s.br := rfl
@[simp] theorem setDrbg_al (u : Nat) (d : Drbg) : (setDrbg u d s).al = s.al := rfl
@[simp] theorem setDrbg_ledger (u : Nat) (d : Drbg) : (setDrbg u d s).ledger = s.ledger := rfl
@[simp] theorem setDrbg_tk (u : Nat) (d : Drbg) : (setDrbg u d s).tk = s.tk := rfl
@[simp] theorem setDrbg_cn (u : Nat) (d : Drbg) : (setDrbg u d s).cn = s.cn := rfl
@[simp] theorem setDrbg_cq (u : Nat) (d : Drbg) : (setDrbg u d s).cq = s.cq := rfl
@[simp] theorem setDrbg_pc (u : Nat) (d : Drbg) : (setDrbg u d s).pc = s.pc := rfl
@[simp] theorem setDrbg_us (u : Nat) (d : Drbg) : (setDrbg u d s).us = s.us := rfl
@[simp] theorem setDrbg_st (u : Nat) (d : Drbg) : (setDrbg u d s).st = s.st := rfl
@[simp] theorem setDrbg_cf (u : Nat) (d : Drbg) : (setDrbg u d s).cf = s.cf := rfl
@[simp] theorem setDrbg_il (u : Nat) (d : Drbg) : (setDrbg u d s).il = s.il := rfl
@[simp] theorem setDrbg_tm (u : Nat) (d : Drbg) : (setDrbg u d s).tm = s.tm := rfl
@[simp] theorem setDrbg_fv (u : Nat) (d : Drbg) : (setDrbg u d s).fv = s.fv := rfl
@[simp] theorem setDrbg_cv (u : Nat) (d : Drbg) : (setDrbg u d s).cv = s.cv := rfl
@[simp] theorem setDrbg_cd (u : Nat) (d : Drbg) : (setDrbg u d s).cd = s.cd := rfl
@[simp] theorem setDrbg_nf (u : Nat) (d : Drbg) : (setDrbg u d s).nf = s.nf := rfl
@[simp] theorem setDrbg_pm (u : Nat) (d : Drbg) : (setDrbg u d s).pm = s.pm := rfl
@[simp] theorem setDrbg_lc (u : Nat) (d : Drbg) : (setDrbg u d s).lc = s.lc := rfl
@[simp] theorem setDrbg_od (u : Nat) (d : Drbg) : (setDrbg u d s).od = s.od := rfl
@[simp] theorem setDrbg_events (u : Nat) (d : Drbg) : (setDrbg u d s).events = s.events := rfl
@[simp] theorem setDrbg_free (u : Nat) (d : Drbg) : (setDrbg u d s).free = s.free := rfl
@[simp] theorem setDrbg_waits (u : Nat) (d : Drbg) : (setDrbg u d s).waits = s.waits := rfl
@[simp] theorem setDrbg_pending (u : Nat) (d : Drbg) : (setDrbg u d s).pending = s.pending := rfl

@[simp] theorem setPaddock_mem (p : Nat) (q : Paddock) : (setPaddock p q s).mem = s.mem := rfl
@[simp] theorem setPaddock_time (p : Nat) (q : Paddock) : (setPaddock p q s).time = s.time := rfl
@[simp] theorem setPaddock_br (p : Nat) (q : Paddock) : (setPaddock p q s).br = s.br := rfl
@[simp] theorem setPaddock_al (p : Nat) (q : Paddock) : (setPaddock p q s).al = s.al := rfl
@[simp] theorem setPaddock_ledger (p : Nat) (q : Paddock) : (setPaddock p q s).ledger = s.ledger := rfl
@[simp] theorem setPaddock_cn (p : Nat) (q : Paddock) : (setPaddock p q s).cn = s.cn := rfl
@[simp] theorem setPaddock_cq (p : Nat) (q : Paddock) : (setPaddock p q s).cq = s.cq := rfl
@[simp] theorem setPaddock_pc (p : Nat) (q : Paddock) : (setPaddock p q s).pc = s.pc := rfl
@[simp] theorem setPaddock_us (p : Nat) (q : Paddock) : (setPaddock p q s).us = s.us := rfl
@[simp] theorem setPaddock_st (p : Nat) (q : Paddock) : (setPaddock p q s).st = s.st := rfl
@[simp] theorem setPaddock_cf (p : Nat) (q : Paddock) : (setPaddock p q s).cf = s.cf := rfl
@[simp] theorem setPaddock_pk (p : Nat) (q : Paddock) : (setPaddock p q s).pk = s.pk := rfl
@[simp] theorem setPaddock_il (p : Nat) (q : Paddock) : (setPaddock p q s).il = s.il := rfl
@[simp] theorem setPaddock_tm (p : Nat) (q : Paddock) : (setPaddock p q s).tm = s.tm := rfl
@[simp] theorem setPaddock_fv (p : Nat) (q : Paddock) : (setPaddock p q s).fv = s.fv := rfl
@[simp] theorem setPaddock_cv (p : Nat) (q : Paddock) : (setPaddock p q s).cv = s.cv := rfl
@[simp] theorem setPaddock_cd (p : Nat) (q : Paddock) : (setPaddock p q s).cd = s.cd := rfl
@[simp] theorem setPaddock_nf (p : Nat) (q : Paddock) : (setPaddock p q s).nf = s.nf := rfl
@[simp] theorem setPaddock_pm (p : Nat) (q : Paddock) : (setPaddock p q s).pm = s.pm := rfl
@[simp] theorem setPaddock_lc (p : Nat) (q : Paddock) : (setPaddock p q s).lc = s.lc := rfl
@[simp] theorem setPaddock_od (p : Nat) (q : Paddock) : (setPaddock p q s).od = s.od := rfl
@[simp] theorem setPaddock_events (p : Nat) (q : Paddock) : (setPaddock p q s).events = s.events := rfl
@[simp] theorem setPaddock_free (p : Nat) (q : Paddock) : (setPaddock p q s).free = s.free := rfl
@[simp] theorem setPaddock_waits (p : Nat) (q : Paddock) : (setPaddock p q s).waits = s.waits := rfl
@[simp] theorem setPaddock_pending (p : Nat) (q : Paddock) : (setPaddock p q s).pending = s.pending := rfl

@[simp] theorem putNor_mem (a : Nat) (w : W64) : (putNor a w s).mem = s.mem := rfl
@[simp] theorem putNor_time (a : Nat) (w : W64) : (putNor a w s).time = s.time := rfl
@[simp] theorem putNor_br (a : Nat) (w : W64) : (putNor a w s).br = s.br := rfl
@[simp] theorem putNor_al (a : Nat) (w : W64) : (putNor a w s).al = s.al := rfl
@[simp] theorem putNor_ledger (a : Nat) (w : W64) : (putNor a w s).ledger = s.ledger := rfl
@[simp] theorem putNor_tk (a : Nat) (w : W64) : (putNor a w s).tk = s.tk := rfl
@[simp] theorem putNor_cn (a : Nat) (w : W64) : (putNor a w s).cn = s.cn := rfl
@[simp] theorem putNor_cq (a : Nat) (w : W64) : (putNor a w s).cq = s.cq := rfl
@[simp] theorem putNor_pc (a : Nat) (w : W64) : (putNor a w s).pc = s.pc := rfl
@[simp] theorem putNor_us (a : Nat) (w : W64) : (putNor a w s).us = s.us := rfl
@[simp] theorem putNor_st (a : Nat) (w : W64) : (putNor a w s).st = s.st := rfl
@[simp] theorem putNor_cf (a : Nat) (w : W64) : (putNor a w s).cf = s.cf := rfl
@[simp] theorem putNor_pk (a : Nat) (w : W64) : (putNor a w s).pk = s.pk := rfl
@[simp] theorem putNor_il (a : Nat) (w : W64) : (putNor a w s).il = s.il := rfl
@[simp] theorem putNor_tm (a : Nat) (w : W64) : (putNor a w s).tm = s.tm := rfl
@[simp] theorem putNor_cv (a : Nat) (w : W64) : (putNor a w s).cv = s.cv := rfl
@[simp] theorem putNor_cd (a : Nat) (w : W64) : (putNor a w s).cd = s.cd := rfl
@[simp] theorem putNor_nf (a : Nat) (w : W64) : (putNor a w s).nf = s.nf := rfl
@[simp] theorem putNor_pm (a : Nat) (w : W64) : (putNor a w s).pm = s.pm := rfl
@[simp] theorem putNor_lc (a : Nat) (w : W64) : (putNor a w s).lc = s.lc := rfl
@[simp] theorem putNor_od (a : Nat) (w : W64) : (putNor a w s).od = s.od := rfl
@[simp] theorem putNor_events (a : Nat) (w : W64) : (putNor a w s).events = s.events := rfl
@[simp] theorem putNor_free (a : Nat) (w : W64) : (putNor a w s).free = s.free := rfl
@[simp] theorem putNor_waits (a : Nat) (w : W64) : (putNor a w s).waits = s.waits := rfl
@[simp] theorem putNor_pending (a : Nat) (w : W64) : (putNor a w s).pending = s.pending := rfl

@[simp] theorem putJob_mem (j : CJob) : (putJob j s).mem = s.mem := rfl
@[simp] theorem putJob_time (j : CJob) : (putJob j s).time = s.time := rfl
@[simp] theorem putJob_br (j : CJob) : (putJob j s).br = s.br := rfl
@[simp] theorem putJob_al (j : CJob) : (putJob j s).al = s.al := rfl
@[simp] theorem putJob_ledger (j : CJob) : (putJob j s).ledger = s.ledger := rfl
@[simp] theorem putJob_tk (j : CJob) : (putJob j s).tk = s.tk := rfl
@[simp] theorem putJob_cn (j : CJob) : (putJob j s).cn = s.cn := rfl
@[simp] theorem putJob_cq (j : CJob) : (putJob j s).cq = s.cq := rfl
@[simp] theorem putJob_pc (j : CJob) : (putJob j s).pc = s.pc := rfl
@[simp] theorem putJob_us (j : CJob) : (putJob j s).us = s.us := rfl
@[simp] theorem putJob_st (j : CJob) : (putJob j s).st = s.st := rfl
@[simp] theorem putJob_pk (j : CJob) : (putJob j s).pk = s.pk := rfl
@[simp] theorem putJob_il (j : CJob) : (putJob j s).il = s.il := rfl
@[simp] theorem putJob_tm (j : CJob) : (putJob j s).tm = s.tm := rfl
@[simp] theorem putJob_fv (j : CJob) : (putJob j s).fv = s.fv := rfl
@[simp] theorem putJob_cv (j : CJob) : (putJob j s).cv = s.cv := rfl
@[simp] theorem putJob_cd (j : CJob) : (putJob j s).cd = s.cd := rfl
@[simp] theorem putJob_nf (j : CJob) : (putJob j s).nf = s.nf := rfl
@[simp] theorem putJob_pm (j : CJob) : (putJob j s).pm = s.pm := rfl
@[simp] theorem putJob_lc (j : CJob) : (putJob j s).lc = s.lc := rfl
@[simp] theorem putJob_od (j : CJob) : (putJob j s).od = s.od := rfl
@[simp] theorem putJob_events (j : CJob) : (putJob j s).events = s.events := rfl
@[simp] theorem putJob_free (j : CJob) : (putJob j s).free = s.free := rfl
@[simp] theorem putJob_waits (j : CJob) : (putJob j s).waits = s.waits := rfl
@[simp] theorem putJob_pending (j : CJob) : (putJob j s).pending = s.pending := rfl

@[simp] theorem putPJob_mem (j : PJob) : (putPJob j s).mem = s.mem := rfl
@[simp] theorem putPJob_time (j : PJob) : (putPJob j s).time = s.time := rfl
@[simp] theorem putPJob_br (j : PJob) : (putPJob j s).br = s.br := rfl
@[simp] theorem putPJob_al (j : PJob) : (putPJob j s).al = s.al := rfl
@[simp] theorem putPJob_ledger (j : PJob) : (putPJob j s).ledger = s.ledger := rfl
@[simp] theorem putPJob_tk (j : PJob) : (putPJob j s).tk = s.tk := rfl
@[simp] theorem putPJob_cn (j : PJob) : (putPJob j s).cn = s.cn := rfl
@[simp] theorem putPJob_cq (j : PJob) : (putPJob j s).cq = s.cq := rfl
@[simp] theorem putPJob_pc (j : PJob) : (putPJob j s).pc = s.pc := rfl
@[simp] theorem putPJob_us (j : PJob) : (putPJob j s).us = s.us := rfl
@[simp] theorem putPJob_st (j : PJob) : (putPJob j s).st = s.st := rfl
@[simp] theorem putPJob_cf (j : PJob) : (putPJob j s).cf = s.cf := rfl
@[simp] theorem putPJob_il (j : PJob) : (putPJob j s).il = s.il := rfl
@[simp] theorem putPJob_tm (j : PJob) : (putPJob j s).tm = s.tm := rfl
@[simp] theorem putPJob_fv (j : PJob) : (putPJob j s).fv = s.fv := rfl
@[simp] theorem putPJob_cv (j : PJob) : (putPJob j s).cv = s.cv := rfl
@[simp] theorem putPJob_cd (j : PJob) : (putPJob j s).cd = s.cd := rfl
@[simp] theorem putPJob_nf (j : PJob) : (putPJob j s).nf = s.nf := rfl
@[simp] theorem putPJob_pm (j : PJob) : (putPJob j s).pm = s.pm := rfl
@[simp] theorem putPJob_lc (j : PJob) : (putPJob j s).lc = s.lc := rfl
@[simp] theorem putPJob_od (j : PJob) : (putPJob j s).od = s.od := rfl
@[simp] theorem putPJob_events (j : PJob) : (putPJob j s).events = s.events := rfl
@[simp] theorem putPJob_free (j : PJob) : (putPJob j s).free = s.free := rfl
@[simp] theorem putPJob_waits (j : PJob) : (putPJob j s).waits = s.waits := rfl
@[simp] theorem putPJob_pending (j : PJob) : (putPJob j s).pending = s.pending := rfl

@[simp] theorem updFunc_mem (fn : Nat) (f : Func → Func) : (updFunc fn f s).mem = s.mem := rfl
@[simp] theorem updFunc_time (fn : Nat) (f : Func → Func) : (updFunc fn f s).time = s.time := rfl
@[simp] theorem updFunc_br (fn : Nat) (f : Func → Func) : (updFunc fn f s).br = s.br := rfl
@[simp] theorem updFunc_al (fn : Nat) (f : Func → Func) : (updFunc fn f s).al = s.al := rfl
@[simp] theorem updFunc_ledger (fn : Nat) (f : Func → Func) : (updFunc fn f s).ledger = s.ledger := rfl
@[simp] theorem updFunc_tk (fn : Nat) (f : Func → Func) : (updFunc fn f s).tk = s.tk := rfl
@[simp] theorem updFunc_cn (fn : Nat) (f : Func → Func) : (updFunc fn f s).cn = s.cn := rfl
@[simp] theorem updFunc_pc (fn : Nat) (f : Func → Func) : (updFunc fn f s).pc = s.pc := rfl
@[simp] theorem updFunc_us (fn : Nat) (f : Func → Func) : (updFunc fn f s).us = s.us := rfl
@[simp] theorem updFunc_st (fn : Nat) (f : Func → Func) : (updFunc fn f s).st = s.st := rfl
@[simp] theorem updFunc_cf (fn : Nat) (f : Func → Func) : (updFunc fn f s).cf = s.cf := rfl
@[simp] theorem updFunc_pk (fn : Nat) (f : Func → Func) : (updFunc fn f s).pk = s.pk := rfl
@[simp] theorem updFunc_il (fn : Nat) (f : Func → Func) : (updFunc fn f s).il = s.il := rfl
@[simp] theorem updFunc_tm (fn : Nat) (f : Func → Func) : (updFunc fn f s).tm = s.tm := rfl
@[simp] theorem updFunc_fv (fn : Nat) (f : Func → Func) : (updFunc fn f s).fv = s.fv := rfl
@[simp] theorem updFunc_cv (fn : Nat) (f : Func → Func) : (updFunc fn f s).cv = s.cv := rfl
@[simp] theorem updFunc_cd (fn : Nat) (f : Func → Func) : (updFunc fn f s).cd = s.cd := rfl
@[simp] theorem updFunc_nf (fn : Nat) (f : Func → Func) : (updFunc fn f s).nf = s.nf := rfl
@[simp] theorem updFunc_pm (fn : Nat) (f : Func → Func) : (updFunc fn f s).pm = s.pm := rfl
@[simp] theorem updFunc_lc (fn : Nat) (f : Func → Func) : (updFunc fn f s).lc = s.lc := rfl
@[simp] theorem updFunc_od (fn : Nat) (f : Func → Func) : (updFunc fn f s).od = s.od := rfl
@[simp] theorem updFunc_events (fn : Nat) (f : Func → Func) : (updFunc fn f s).events = s.events := rfl
@[simp] theorem updFunc_free (fn : Nat) (f : Func → Func) : (updFunc fn f s).free = s.free := rfl
@[simp] theorem updFunc_waits (fn : Nat) (f : Func → Func) : (updFunc fn f s).waits = s.waits := rfl
@[simp] theorem updFunc_pending (fn : Nat) (f : Func → Func) : (updFunc fn f s).pending = s.pending := rfl

@[simp] theorem updQueue_mem (fn q : Nat) (f : Queue → Queue) : (updQueue fn q f s).mem = s.mem := rfl
@[simp] theorem updQueue_time (fn q : Nat) (f : Queue → Queue) : (updQueue fn q f s).time = s.time := rfl
@[simp] theorem updQueue_br (fn q : Nat) (f : Queue → Queue) : (updQueue fn q f s).br = s.br := rfl
@[simp] theorem updQueue_al (fn q : Nat) (f : Queue → Queue) : (updQueue fn q f s).al = s.al := rfl
@[simp] theorem updQueue_ledger (fn q : Nat) (f : Queue → Queue) : (updQueue fn q f s).ledger = s.ledger := rfl
@[simp] theorem updQueue_tk (fn q : Nat) (f : Queue → Queue) : (updQueue fn q f s).tk = s.tk := rfl
@[simp] theorem updQueue_cn (fn q : Nat) (f : Queue → Queue) : (updQueue fn q f s).cn = s.cn := rfl
@[simp] theorem updQueue_pc (fn q : Nat) (f : Queue → Queue) : (updQueue fn q f s).pc = s.pc := rfl
@[simp] theorem updQueue_us (fn q : Nat) (f : Queue → Queue) : (updQueue fn q f s).us = s.us := rfl
@[simp] theorem updQueue_st (fn q : Nat) (f : Queue → Queue) : (updQueue fn q f s).st = s.st := rfl
@[simp] theorem updQueue_cf (fn q : Nat) (f : Queue → Queue) : (updQueue fn q f s).cf = s.cf := rfl
@[simp] theorem updQueue_pk (fn q : Nat) (f : Queue → Queue) : (updQueue fn q f s).pk = s.pk := rfl
@[simp] theorem updQueue_il (fn q : Nat) (f : Queue → Queue) : (updQueue fn q f s).il = s.il := rfl
@[simp] theorem updQueue_tm (fn q : Nat) (f : Queue → Queue) : (updQueue fn q f s).tm = s.tm := rfl
@[simp] theorem updQueue_fv (fn q : Nat) (f : Queue → Queue) : (updQueue fn q f s).fv = s.fv := rfl
@[simp] theorem updQueue_cv (fn q : Nat) (f : Queue → Queue) : (updQueue fn q f s).cv = s.cv := rfl
@[simp] theorem updQueue_cd (fn q : Nat) (f : Queue → Queue) : (updQueue fn q f s).cd = s.cd := rfl
@[simp] theorem updQueue_nf (fn q : Nat) (f : Queue → Queue) : (updQueue fn q f s).nf = s.nf := rfl
@[simp] theorem updQueue_pm (fn q : Nat) (f : Queue → Queue) : (updQueue fn q f s).pm = s.pm := rfl
@[simp] theorem updQueue_lc (fn q : Nat) (f : Queue → Queue) : (updQueue fn q f s).lc = s.lc := rfl
@[simp] theorem updQueue_od (fn q : Nat) (f : Queue → Queue) : (updQueue fn q f s).od = s.od := rfl
@[simp] theorem updQueue_events (fn q : Nat) (f : Queue → Queue) : (updQueue fn q f s).events = s.events := rfl
@[simp] theorem updQueue_free (fn q : Nat) (f : Queue → Queue) : (updQueue fn q f s).free = s.free := rfl
@[simp] theorem updQueue_waits (fn q : Nat) (f : Queue → Queue) : (updQueue fn q f s).waits = s.waits := rfl
@[simp] theorem updQueue_pending (fn q : Nat) (f : Queue → Queue) : (updQueue fn q f s).pending = s.pending := rfl

@[simp] theorem updFwWin_mem (c : Nat) (f : FwWin → FwWin) : (updFwWin c f s).mem = s.mem := rfl
@[simp] theorem updFwWin_time (c : Nat) (f : FwWin → FwWin) : (updFwWin c f s).time = s.time := rfl
@[simp] theorem updFwWin_br (c : Nat) (f : FwWin → FwWin) : (updFwWin c f s).br = s.br := rfl
@[simp] theorem updFwWin_al (c : Nat) (f : FwWin → FwWin) : (updFwWin c f s).al = s.al := rfl
@[simp] theorem updFwWin_ledger (c : Nat) (f : FwWin → FwWin) : (updFwWin c f s).ledger = s.ledger := rfl
@[simp] theorem updFwWin_tk (c : Nat) (f : FwWin → FwWin) : (updFwWin c f s).tk = s.tk := rfl
@[simp] theorem updFwWin_cn (c : Nat) (f : FwWin → FwWin) : (updFwWin c f s).cn = s.cn := rfl
@[simp] theorem updFwWin_pc (c : Nat) (f : FwWin → FwWin) : (updFwWin c f s).pc = s.pc := rfl
@[simp] theorem updFwWin_us (c : Nat) (f : FwWin → FwWin) : (updFwWin c f s).us = s.us := rfl
@[simp] theorem updFwWin_st (c : Nat) (f : FwWin → FwWin) : (updFwWin c f s).st = s.st := rfl
@[simp] theorem updFwWin_cf (c : Nat) (f : FwWin → FwWin) : (updFwWin c f s).cf = s.cf := rfl
@[simp] theorem updFwWin_pk (c : Nat) (f : FwWin → FwWin) : (updFwWin c f s).pk = s.pk := rfl
@[simp] theorem updFwWin_il (c : Nat) (f : FwWin → FwWin) : (updFwWin c f s).il = s.il := rfl
@[simp] theorem updFwWin_tm (c : Nat) (f : FwWin → FwWin) : (updFwWin c f s).tm = s.tm := rfl
@[simp] theorem updFwWin_fv (c : Nat) (f : FwWin → FwWin) : (updFwWin c f s).fv = s.fv := rfl
@[simp] theorem updFwWin_cv (c : Nat) (f : FwWin → FwWin) : (updFwWin c f s).cv = s.cv := rfl
@[simp] theorem updFwWin_cd (c : Nat) (f : FwWin → FwWin) : (updFwWin c f s).cd = s.cd := rfl
@[simp] theorem updFwWin_nf (c : Nat) (f : FwWin → FwWin) : (updFwWin c f s).nf = s.nf := rfl
@[simp] theorem updFwWin_pm (c : Nat) (f : FwWin → FwWin) : (updFwWin c f s).pm = s.pm := rfl
@[simp] theorem updFwWin_lc (c : Nat) (f : FwWin → FwWin) : (updFwWin c f s).lc = s.lc := rfl
@[simp] theorem updFwWin_od (c : Nat) (f : FwWin → FwWin) : (updFwWin c f s).od = s.od := rfl
@[simp] theorem updFwWin_events (c : Nat) (f : FwWin → FwWin) : (updFwWin c f s).events = s.events := rfl
@[simp] theorem updFwWin_free (c : Nat) (f : FwWin → FwWin) : (updFwWin c f s).free = s.free := rfl
@[simp] theorem updFwWin_waits (c : Nat) (f : FwWin → FwWin) : (updFwWin c f s).waits = s.waits := rfl
@[simp] theorem updFwWin_pending (c : Nat) (f : FwWin → FwWin) : (updFwWin c f s).pending = s.pending := rfl

@[simp] theorem setFifo_mem (p : Nat) (l : List FwEntry) : (setFifo p l s).mem = s.mem := rfl
@[simp] theorem setFifo_time (p : Nat) (l : List FwEntry) : (setFifo p l s).time = s.time := rfl
@[simp] theorem setFifo_br (p : Nat) (l : List FwEntry) : (setFifo p l s).br = s.br := rfl
@[simp] theorem setFifo_al (p : Nat) (l : List FwEntry) : (setFifo p l s).al = s.al := rfl
@[simp] theorem setFifo_ledger (p : Nat) (l : List FwEntry) : (setFifo p l s).ledger = s.ledger := rfl
@[simp] theorem setFifo_tk (p : Nat) (l : List FwEntry) : (setFifo p l s).tk = s.tk := rfl
@[simp] theorem setFifo_cn (p : Nat) (l : List FwEntry) : (setFifo p l s).cn = s.cn := rfl
@[simp] theorem setFifo_pc (p : Nat) (l : List FwEntry) : (setFifo p l s).pc = s.pc := rfl
@[simp] theorem setFifo_us (p : Nat) (l : List FwEntry) : (setFifo p l s).us = s.us := rfl
@[simp] theorem setFifo_st (p : Nat) (l : List FwEntry) : (setFifo p l s).st = s.st := rfl
@[simp] theorem setFifo_cf (p : Nat) (l : List FwEntry) : (setFifo p l s).cf = s.cf := rfl
@[simp] theorem setFifo_pk (p : Nat) (l : List FwEntry) : (setFifo p l s).pk = s.pk := rfl
@[simp] theorem setFifo_il (p : Nat) (l : List FwEntry) : (setFifo p l s).il = s.il := rfl
@[simp] theorem setFifo_tm (p : Nat) (l : List FwEntry) : (setFifo p l s).tm = s.tm := rfl
@[simp] theorem setFifo_fv (p : Nat) (l : List FwEntry) : (setFifo p l s).fv = s.fv := rfl
@[simp] theorem setFifo_cv (p : Nat) (l : List FwEntry) : (setFifo p l s).cv = s.cv := rfl
@[simp] theorem setFifo_cd (p : Nat) (l : List FwEntry) : (setFifo p l s).cd = s.cd := rfl
@[simp] theorem setFifo_nf (p : Nat) (l : List FwEntry) : (setFifo p l s).nf = s.nf := rfl
@[simp] theorem setFifo_pm (p : Nat) (l : List FwEntry) : (setFifo p l s).pm = s.pm := rfl
@[simp] theorem setFifo_lc (p : Nat) (l : List FwEntry) : (setFifo p l s).lc = s.lc := rfl
@[simp] theorem setFifo_od (p : Nat) (l : List FwEntry) : (setFifo p l s).od = s.od := rfl
@[simp] theorem setFifo_events (p : Nat) (l : List FwEntry) : (setFifo p l s).events = s.events := rfl
@[simp] theorem setFifo_free (p : Nat) (l : List FwEntry) : (setFifo p l s).free = s.free := rfl
@[simp] theorem setFifo_waits (p : Nat) (l : List FwEntry) : (setFifo p l s).waits = s.waits := rfl
@[simp] theorem setFifo_pending (p : Nat) (l : List FwEntry) : (setFifo p l s).pending = s.pending := rfl

@[simp] theorem updMc_mem (n : Nat) (f : McSlot → McSlot) : (updMc n f s).mem = s.mem := rfl
@[simp] theorem updMc_time (n : Nat) (f : McSlot → McSlot) : (updMc n f s).time = s.time := rfl
@[simp] theorem updMc_br (n : Nat) (f : McSlot → McSlot) : (updMc n f s).br = s.br := rfl
@[simp] theorem updMc_al (n : Nat) (f : McSlot → McSlot) : (updMc n f s).al = s.al := rfl
@[simp] theorem updMc_ledger (n : Nat) (f : McSlot → McSlot) : (updMc n f s).ledger = s.ledger := rfl
@[simp] theorem updMc_tk (n : Nat) (f : McSlot → McSlot) : (updMc n f s).tk = s.tk := rfl
@[simp] theorem updMc_cn (n : Nat) (f : McSlot → McSlot) : (updMc n f s).cn = s.cn := rfl
@[simp] theorem updMc_cq (n : Nat) (f : McSlot → McSlot) : (updMc n f s).cq = s.cq := rfl
@[simp] theorem updMc_pc (n : Nat) (f : McSlot → McSlot) : (updMc n f s).pc = s.pc := rfl
@[simp] theorem updMc_us (n : Nat) (f : McSlot → McSlot) : (updMc n f s).us = s.us := rfl
@[simp] theorem updMc_st (n : Nat) (f : McSlot → McSlot) : (updMc n f s).st = s.st := rfl
@[simp] theorem updMc_cf (n : Nat) (f : McSlot → McSlot) : (updMc n f s).cf = s.cf := rfl
@[simp] theorem updMc_pk (n : Nat) (f : McSlot → McSlot) : (updMc n f s).pk = s.pk := rfl
@[simp] theorem updMc_il (n : Nat) (f : McSlot → McSlot) : (updMc n f s).il = s.il := rfl
@[simp] theorem updMc_tm (n : Nat) (f : McSlot → McSlot) : (updMc n f s).tm = s.tm := rfl
@[simp] theorem updMc_fv (n : Nat) (f : McSlot → McSlot) : (updMc n f s).fv = s.fv := rfl
@[simp] theorem updMc_cv (n : Nat) (f : McSlot → McSlot) : (updMc n f s).cv = s.cv := rfl
@[simp] theorem updMc_nf (n : Nat) (f : McSlot → McSlot) : (updMc n f s).nf = s.nf := rfl
@[simp] theorem updMc_pm (n : Nat) (f : McSlot → McSlot) : (updMc n f s).pm = s.pm := rfl
@[simp] theorem updMc_lc (n : Nat) (f : McSlot → McSlot) : (updMc n f s).lc = s.lc := rfl
@[simp] theorem updMc_od (n : Nat) (f : McSlot → McSlot) : (updMc n f s).od = s.od := rfl
@[simp] theorem updMc_events (n : Nat) (f : McSlot → McSlot) : (updMc n f s).events = s.events := rfl
@[simp] theorem updMc_free (n : Nat) (f : McSlot → McSlot) : (updMc n f s).free = s.free := rfl
@[simp] theorem updMc_waits (n : Nat) (f : McSlot → McSlot) : (updMc n f s).waits = s.waits := rfl
@[simp] theorem updMc_pending (n : Nat) (f : McSlot → McSlot) : (updMc n f s).pending = s.pending := rfl

@[simp] theorem updSc_mem (n : Nat) (f : ScSlot → ScSlot) : (updSc n f s).mem = s.mem := rfl
@[simp] theorem updSc_time (n : Nat) (f : ScSlot → ScSlot) : (updSc n f s).time = s.time := rfl
@[simp] theorem updSc_br (n : Nat) (f : ScSlot → ScSlot) : (updSc n f s).br = s.br := rfl
@[simp] theorem updSc_al (n : Nat) (f : ScSlot → ScSlot) : (updSc n f s).al = s.al := rfl
@[simp] theorem updSc_ledger (n : Nat) (f : ScSlot → ScSlot) : (updSc n f s).ledger = s.ledger := rfl
@[simp] theorem updSc_tk (n : Nat) (f : ScSlot → ScSlot) : (updSc n f s).tk = s.tk := rfl
@[simp] theorem updSc_cn (n : Nat) (f : ScSlot → ScSlot) : (updSc n f s).cn = s.cn := rfl
@[simp] theorem updSc_cq (n : Nat) (f : ScSlot → ScSlot) : (updSc n f s).cq = s.cq := rfl
@[simp] theorem updSc_pc (n : Nat) (f : ScSlot → ScSlot) : (updSc n f s).pc = s.pc := rfl
@[simp] theorem updSc_us (n : Nat) (f : ScSlot → ScSlot) : (updSc n f s).us = s.us := rfl
@[simp] theorem updSc_st (n : Nat) (f : ScSlot → ScSlot) : (updSc n f s).st = s.st := rfl
@[simp] theorem updSc_cf (n : Nat) (f : ScSlot → ScSlot) : (updSc n f s).cf = s.cf := rfl
@[simp] theorem updSc_pk (n : Nat) (f : ScSlot → ScSlot) : (updSc n f s).pk = s.pk := rfl
@[simp] theorem updSc_il (n : Nat) (f : ScSlot → ScSlot) : (updSc n f s).il = s.il := rfl
@[simp] theorem updSc_tm (n : Nat) (f : ScSlot → ScSlot) : (updSc n f s).tm = s.tm := rfl
@[simp] theorem updSc_fv (n : Nat) (f : ScSlot → ScSlot) : (updSc n f s).fv = s.fv := rfl
@[simp] theorem updSc_cv (n : Nat) (f : ScSlot → ScSlot) : (updSc n f s).cv = s.cv := rfl
@[simp] theorem updSc_nf (n : Nat) (f : ScSlot → ScSlot) : (updSc n f s).nf = s.nf := rfl
@[simp] theorem updSc_pm (n : Nat) (f : ScSlot → ScSlot) : (updSc n f s).pm = s.pm := rfl
@[simp] theorem updSc_lc (n : Nat) (f : ScSlot → ScSlot) : (updSc n f s).lc = s.lc := rfl
@[simp] theorem updSc_od (n : Nat) (f : ScSlot → ScSlot) : (updSc n f s).od = s.od := rfl
@[simp] theorem updSc_events (n : Nat) (f : ScSlot → ScSlot) : (updSc n f s).events = s.events := rfl
@[simp] theorem updSc_free (n : Nat) (f : ScSlot → ScSlot) : (updSc n f s).free = s.free := rfl
@[simp] theorem updSc_waits (n : Nat) (f : ScSlot → ScSlot) : (updSc n f s).waits = s.waits := rfl
@[simp] theorem updSc_pending (n : Nat) (f : ScSlot → ScSlot) : (updSc n f s).pending = s.pending := rfl

@[simp] theorem updEx_mem (k : Nat) (f : ExWin → ExWin) : (updEx k f s).mem = s.mem := rfl
@[simp] theorem updEx_time (k : Nat) (f : ExWin → ExWin) : (updEx k f s).time = s.time := rfl
@[simp] theorem updEx_br (k : Nat) (f : ExWin → ExWin) : (updEx k f s).br = s.br := rfl
@[simp] theorem updEx_al (k : Nat) (f : ExWin → ExWin) : (updEx k f s).al = s.al := rfl
@[simp] theorem updEx_ledger (k : Nat) (f : ExWin → ExWin) : (updEx k f s).ledger = s.ledger := rfl
@[simp] theorem updEx_tk (k : Nat) (f : ExWin → ExWin) : (updEx k f s).tk = s.tk := rfl
@[simp] theorem updEx_cn (k : Nat) (f : ExWin → ExWin) : (updEx k f s).cn = s.cn := rfl
@[simp] theorem updEx_cq (k : Nat) (f : ExWin → ExWin) : (updEx k f s).cq = s.cq := rfl
@[simp] theorem updEx_pc (k : Nat) (f : ExWin → ExWin) : (updEx k f s).pc = s.pc := rfl
@[simp] theorem updEx_us (k : Nat) (f : ExWin → ExWin) : (updEx k f s).us = s.us := rfl
@[simp] theorem updEx_st (k : Nat) (f : ExWin → ExWin) : (updEx k f s).st = s.st := rfl
@[simp] theorem updEx_cf (k : Nat) (f : ExWin → ExWin) : (updEx k f s).cf = s.cf := rfl
@[simp] theorem updEx_pk (k : Nat) (f : ExWin → ExWin) : (updEx k f s).pk = s.pk := rfl
@[simp] theorem updEx_il (k : Nat) (f : ExWin → ExWin) : (updEx k f s).il = s.il := rfl
@[simp] theorem updEx_tm (k : Nat) (f : ExWin → ExWin) : (updEx k f s).tm = s.tm := rfl
@[simp] theorem updEx_fv (k : Nat) (f : ExWin → ExWin) : (updEx k f s).fv = s.fv := rfl
@[simp] theorem updEx_cv (k : Nat) (f : ExWin → ExWin) : (updEx k f s).cv = s.cv := rfl
@[simp] theorem updEx_nf (k : Nat) (f : ExWin → ExWin) : (updEx k f s).nf = s.nf := rfl
@[simp] theorem updEx_pm (k : Nat) (f : ExWin → ExWin) : (updEx k f s).pm = s.pm := rfl
@[simp] theorem updEx_lc (k : Nat) (f : ExWin → ExWin) : (updEx k f s).lc = s.lc := rfl
@[simp] theorem updEx_od (k : Nat) (f : ExWin → ExWin) : (updEx k f s).od = s.od := rfl
@[simp] theorem updEx_events (k : Nat) (f : ExWin → ExWin) : (updEx k f s).events = s.events := rfl
@[simp] theorem updEx_free (k : Nat) (f : ExWin → ExWin) : (updEx k f s).free = s.free := rfl
@[simp] theorem updEx_waits (k : Nat) (f : ExWin → ExWin) : (updEx k f s).waits = s.waits := rfl
@[simp] theorem updEx_pending (k : Nat) (f : ExWin → ExWin) : (updEx k f s).pending = s.pending := rfl

@[simp] theorem updCv_mem (u : Nat) (f : CvRec → CvRec) : (updCv u f s).mem = s.mem := rfl
@[simp] theorem updCv_time (u : Nat) (f : CvRec → CvRec) : (updCv u f s).time = s.time := rfl
@[simp] theorem updCv_br (u : Nat) (f : CvRec → CvRec) : (updCv u f s).br = s.br := rfl
@[simp] theorem updCv_al (u : Nat) (f : CvRec → CvRec) : (updCv u f s).al = s.al := rfl
@[simp] theorem updCv_ledger (u : Nat) (f : CvRec → CvRec) : (updCv u f s).ledger = s.ledger := rfl
@[simp] theorem updCv_tk (u : Nat) (f : CvRec → CvRec) : (updCv u f s).tk = s.tk := rfl
@[simp] theorem updCv_cn (u : Nat) (f : CvRec → CvRec) : (updCv u f s).cn = s.cn := rfl
@[simp] theorem updCv_cq (u : Nat) (f : CvRec → CvRec) : (updCv u f s).cq = s.cq := rfl
@[simp] theorem updCv_pc (u : Nat) (f : CvRec → CvRec) : (updCv u f s).pc = s.pc := rfl
@[simp] theorem updCv_us (u : Nat) (f : CvRec → CvRec) : (updCv u f s).us = s.us := rfl
@[simp] theorem updCv_st (u : Nat) (f : CvRec → CvRec) : (updCv u f s).st = s.st := rfl
@[simp] theorem updCv_cf (u : Nat) (f : CvRec → CvRec) : (updCv u f s).cf = s.cf := rfl
@[simp] theorem updCv_pk (u : Nat) (f : CvRec → CvRec) : (updCv u f s).pk = s.pk := rfl
@[simp] theorem updCv_il (u : Nat) (f : CvRec → CvRec) : (updCv u f s).il = s.il := rfl
@[simp] theorem updCv_tm (u : Nat) (f : CvRec → CvRec) : (updCv u f s).tm = s.tm := rfl
@[simp] theorem updCv_fv (u : Nat) (f : CvRec → CvRec) : (updCv u f s).fv = s.fv := rfl
@[simp] theorem updCv_cd (u : Nat) (f : CvRec → CvRec) : (updCv u f s).cd = s.cd := rfl
@[simp] theorem updCv_nf (u : Nat) (f : CvRec → CvRec) : (updCv u f s).nf = s.nf := rfl
@[simp] theorem updCv_pm (u : Nat) (f : CvRec → CvRec) : (updCv u f s).pm = s.pm := rfl
@[simp] theorem updCv_lc (u : Nat) (f : CvRec → CvRec) : (updCv u f s).lc = s.lc := rfl
@[simp] theorem updCv_od (u : Nat) (f : CvRec → CvRec) : (updCv u f s).od = s.od := rfl
@[simp] theorem updCv_events (u : Nat) (f : CvRec → CvRec) : (updCv u f s).events = s.events := rfl
@[simp] theorem updCv_free (u : Nat) (f : CvRec → CvRec) : (updCv u f s).free = s.free := rfl
@[simp] theorem updCv_waits (u : Nat) (f : CvRec → CvRec) : (updCv u f s).waits = s.waits := rfl
@[simp] theorem updCv_pending (u : Nat) (f : CvRec → CvRec) : (updCv u f s).pending = s.pending := rfl

@[simp] theorem setBank_mem (b : Nat) (k : Bank) : (setBank b k s).mem = s.mem := rfl
@[simp] theorem setBank_time (b : Nat) (k : Bank) : (setBank b k s).time = s.time := rfl
@[simp] theorem setBank_br (b : Nat) (k : Bank) : (setBank b k s).br = s.br := rfl
@[simp] theorem setBank_al (b : Nat) (k : Bank) : (setBank b k s).al = s.al := rfl
@[simp] theorem setBank_ledger (b : Nat) (k : Bank) : (setBank b k s).ledger = s.ledger := rfl
@[simp] theorem setBank_tk (b : Nat) (k : Bank) : (setBank b k s).tk = s.tk := rfl
@[simp] theorem setBank_cn (b : Nat) (k : Bank) : (setBank b k s).cn = s.cn := rfl
@[simp] theorem setBank_cq (b : Nat) (k : Bank) : (setBank b k s).cq = s.cq := rfl
@[simp] theorem setBank_pc (b : Nat) (k : Bank) : (setBank b k s).pc = s.pc := rfl
@[simp] theorem setBank_us (b : Nat) (k : Bank) : (setBank b k s).us = s.us := rfl
@[simp] theorem setBank_st (b : Nat) (k : Bank) : (setBank b k s).st = s.st := rfl
@[simp] theorem setBank_cf (b : Nat) (k : Bank) : (setBank b k s).cf = s.cf := rfl
@[simp] theorem setBank_pk (b : Nat) (k : Bank) : (setBank b k s).pk = s.pk := rfl
@[simp] theorem setBank_il (b : Nat) (k : Bank) : (setBank b k s).il = s.il := rfl
@[simp] theorem setBank_tm (b : Nat) (k : Bank) : (setBank b k s).tm = s.tm := rfl
@[simp] theorem setBank_cv (b : Nat) (k : Bank) : (setBank b k s).cv = s.cv := rfl
@[simp] theorem setBank_cd (b : Nat) (k : Bank) : (setBank b k s).cd = s.cd := rfl
@[simp] theorem setBank_nf (b : Nat) (k : Bank) : (setBank b k s).nf = s.nf := rfl
@[simp] theorem setBank_pm (b : Nat) (k : Bank) : (setBank b k s).pm = s.pm := rfl
@[simp] theorem setBank_lc (b : Nat) (k : Bank) : (setBank b k s).lc = s.lc := rfl
@[simp] theorem setBank_od (b : Nat) (k : Bank) : (setBank b k s).od = s.od := rfl
@[simp] theorem setBank_events (b : Nat) (k : Bank) : (setBank b k s).events = s.events := rfl
@[simp] theorem setBank_free (b : Nat) (k : Bank) : (setBank b k s).free = s.free := rfl
@[simp] theorem setBank_waits (b : Nat) (k : Bank) : (setBank b k s).waits = s.waits := rfl
@[simp] theorem setBank_pending (b : Nat) (k : Bank) : (setBank b k s).pending = s.pending := rfl

@[simp] theorem putByte_time (a : Nat) (b : Byte) : (putByte s a b).time = s.time := rfl
@[simp] theorem putByte_br (a : Nat) (b : Byte) : (putByte s a b).br = s.br := rfl
@[simp] theorem putByte_al (a : Nat) (b : Byte) : (putByte s a b).al = s.al := rfl
@[simp] theorem putByte_ledger (a : Nat) (b : Byte) : (putByte s a b).ledger = s.ledger := rfl
@[simp] theorem putByte_tk (a : Nat) (b : Byte) : (putByte s a b).tk = s.tk := rfl
@[simp] theorem putByte_cn (a : Nat) (b : Byte) : (putByte s a b).cn = s.cn := rfl
@[simp] theorem putByte_cq (a : Nat) (b : Byte) : (putByte s a b).cq = s.cq := rfl
@[simp] theorem putByte_pc (a : Nat) (b : Byte) : (putByte s a b).pc = s.pc := rfl
@[simp] theorem putByte_us (a : Nat) (b : Byte) : (putByte s a b).us = s.us := rfl
@[simp] theorem putByte_st (a : Nat) (b : Byte) : (putByte s a b).st = s.st := rfl
@[simp] theorem putByte_cf (a : Nat) (b : Byte) : (putByte s a b).cf = s.cf := rfl
@[simp] theorem putByte_pk (a : Nat) (b : Byte) : (putByte s a b).pk = s.pk := rfl
@[simp] theorem putByte_il (a : Nat) (b : Byte) : (putByte s a b).il = s.il := rfl
@[simp] theorem putByte_tm (a : Nat) (b : Byte) : (putByte s a b).tm = s.tm := rfl
@[simp] theorem putByte_fv (a : Nat) (b : Byte) : (putByte s a b).fv = s.fv := rfl
@[simp] theorem putByte_cv (a : Nat) (b : Byte) : (putByte s a b).cv = s.cv := rfl
@[simp] theorem putByte_cd (a : Nat) (b : Byte) : (putByte s a b).cd = s.cd := rfl
@[simp] theorem putByte_nf (a : Nat) (b : Byte) : (putByte s a b).nf = s.nf := rfl
@[simp] theorem putByte_pm (a : Nat) (b : Byte) : (putByte s a b).pm = s.pm := rfl
@[simp] theorem putByte_lc (a : Nat) (b : Byte) : (putByte s a b).lc = s.lc := rfl
@[simp] theorem putByte_od (a : Nat) (b : Byte) : (putByte s a b).od = s.od := rfl
@[simp] theorem putByte_events (a : Nat) (b : Byte) : (putByte s a b).events = s.events := rfl
@[simp] theorem putByte_free (a : Nat) (b : Byte) : (putByte s a b).free = s.free := rfl
@[simp] theorem putByte_waits (a : Nat) (b : Byte) : (putByte s a b).waits = s.waits := rfl
@[simp] theorem putByte_pending (a : Nat) (b : Byte) : (putByte s a b).pending = s.pending := rfl

@[simp] theorem clearEvents_mem (w : Nat) (ones : W32) : (clearEvents w ones s).mem = s.mem := rfl
@[simp] theorem clearEvents_time (w : Nat) (ones : W32) : (clearEvents w ones s).time = s.time := rfl
@[simp] theorem clearEvents_br (w : Nat) (ones : W32) : (clearEvents w ones s).br = s.br := rfl
@[simp] theorem clearEvents_al (w : Nat) (ones : W32) : (clearEvents w ones s).al = s.al := rfl
@[simp] theorem clearEvents_ledger (w : Nat) (ones : W32) : (clearEvents w ones s).ledger = s.ledger := rfl
@[simp] theorem clearEvents_tk (w : Nat) (ones : W32) : (clearEvents w ones s).tk = s.tk := rfl
@[simp] theorem clearEvents_cn (w : Nat) (ones : W32) : (clearEvents w ones s).cn = s.cn := rfl
@[simp] theorem clearEvents_cq (w : Nat) (ones : W32) : (clearEvents w ones s).cq = s.cq := rfl
@[simp] theorem clearEvents_pc (w : Nat) (ones : W32) : (clearEvents w ones s).pc = s.pc := rfl
@[simp] theorem clearEvents_us (w : Nat) (ones : W32) : (clearEvents w ones s).us = s.us := rfl
@[simp] theorem clearEvents_st (w : Nat) (ones : W32) : (clearEvents w ones s).st = s.st := rfl
@[simp] theorem clearEvents_cf (w : Nat) (ones : W32) : (clearEvents w ones s).cf = s.cf := rfl
@[simp] theorem clearEvents_pk (w : Nat) (ones : W32) : (clearEvents w ones s).pk = s.pk := rfl
@[simp] theorem clearEvents_il (w : Nat) (ones : W32) : (clearEvents w ones s).il = s.il := rfl
@[simp] theorem clearEvents_tm (w : Nat) (ones : W32) : (clearEvents w ones s).tm = s.tm := rfl
@[simp] theorem clearEvents_fv (w : Nat) (ones : W32) : (clearEvents w ones s).fv = s.fv := rfl
@[simp] theorem clearEvents_cv (w : Nat) (ones : W32) : (clearEvents w ones s).cv = s.cv := rfl
@[simp] theorem clearEvents_cd (w : Nat) (ones : W32) : (clearEvents w ones s).cd = s.cd := rfl
@[simp] theorem clearEvents_nf (w : Nat) (ones : W32) : (clearEvents w ones s).nf = s.nf := rfl
@[simp] theorem clearEvents_pm (w : Nat) (ones : W32) : (clearEvents w ones s).pm = s.pm := rfl
@[simp] theorem clearEvents_lc (w : Nat) (ones : W32) : (clearEvents w ones s).lc = s.lc := rfl
@[simp] theorem clearEvents_od (w : Nat) (ones : W32) : (clearEvents w ones s).od = s.od := rfl
@[simp] theorem clearEvents_free (w : Nat) (ones : W32) : (clearEvents w ones s).free = s.free := rfl
@[simp] theorem clearEvents_waits (w : Nat) (ones : W32) : (clearEvents w ones s).waits = s.waits := rfl
@[simp] theorem clearEvents_pending (w : Nat) (ones : W32) : (clearEvents w ones s).pending = s.pending := rfl

/-! ### Raising an event changes its leaf and at most one flag of the alert tree -/

@[simp] theorem setEvent_mem (w b : Nat) : (setEvent w b s).mem = s.mem := by unfold setEvent noteRise; split <;> rfl
@[simp] theorem setEvent_time (w b : Nat) : (setEvent w b s).time = s.time := by unfold setEvent noteRise; split <;> rfl
@[simp] theorem setEvent_br (w b : Nat) : (setEvent w b s).br = s.br := by unfold setEvent noteRise; split <;> rfl
@[simp] theorem setEvent_ledger (w b : Nat) : (setEvent w b s).ledger = s.ledger := by unfold setEvent noteRise; split <;> rfl
@[simp] theorem setEvent_tk (w b : Nat) : (setEvent w b s).tk = s.tk := by unfold setEvent noteRise; split <;> rfl
@[simp] theorem setEvent_cn (w b : Nat) : (setEvent w b s).cn = s.cn := by unfold setEvent noteRise; split <;> rfl
@[simp] theorem setEvent_cq (w b : Nat) : (setEvent w b s).cq = s.cq := by unfold setEvent noteRise; split <;> rfl
@[simp] theorem setEvent_pc (w b : Nat) : (setEvent w b s).pc = s.pc := by unfold setEvent noteRise; split <;> rfl
@[simp] theorem setEvent_us (w b : Nat) : (setEvent w b s).us = s.us := by unfold setEvent noteRise; split <;> rfl
@[simp] theorem setEvent_st (w b : Nat) : (setEvent w b s).st = s.st := by unfold setEvent noteRise; split <;> rfl
@[simp] theorem setEvent_cf (w b : Nat) : (setEvent w b s).cf = s.cf := by unfold setEvent noteRise; split <;> rfl
@[simp] theorem setEvent_pk (w b : Nat) : (setEvent w b s).pk = s.pk := by unfold setEvent noteRise; split <;> rfl
@[simp] theorem setEvent_il (w b : Nat) : (setEvent w b s).il = s.il := by unfold setEvent noteRise; split <;> rfl
@[simp] theorem setEvent_tm (w b : Nat) : (setEvent w b s).tm = s.tm := by unfold setEvent noteRise; split <;> rfl
@[simp] theorem setEvent_fv (w b : Nat) : (setEvent w b s).fv = s.fv := by unfold setEvent noteRise; split <;> rfl
@[simp] theorem setEvent_cv (w b : Nat) : (setEvent w b s).cv = s.cv := by unfold setEvent noteRise; split <;> rfl
@[simp] theorem setEvent_cd (w b : Nat) : (setEvent w b s).cd = s.cd := by unfold setEvent noteRise; split <;> rfl
@[simp] theorem setEvent_nf (w b : Nat) : (setEvent w b s).nf = s.nf := by unfold setEvent noteRise; split <;> rfl
@[simp] theorem setEvent_pm (w b : Nat) : (setEvent w b s).pm = s.pm := by unfold setEvent noteRise; split <;> rfl
@[simp] theorem setEvent_lc (w b : Nat) : (setEvent w b s).lc = s.lc := by unfold setEvent noteRise; split <;> rfl
@[simp] theorem setEvent_od (w b : Nat) : (setEvent w b s).od = s.od := by unfold setEvent noteRise; split <;> rfl
@[simp] theorem setEvent_free (w b : Nat) : (setEvent w b s).free = s.free := by unfold setEvent noteRise; split <;> rfl
@[simp] theorem setEvent_waits (w b : Nat) : (setEvent w b s).waits = s.waits := by unfold setEvent noteRise; split <;> rfl
@[simp] theorem setEvent_pending (w b : Nat) : (setEvent w b s).pending = s.pending := by unfold setEvent noteRise; split <;> rfl

theorem setEvent_events (w b : Nat) :
    (setEvent w b s).events = Tab.upd 0 s.events w (fun v => v ||| BitVec.ofNat 32 (2 ^ b)) := by
  unfold setEvent noteRise; split <;> rfl

/-- An event raised reads set. -/
theorem setEvent_self (w b : Nat) (h : b < 32) : (Tab.get 0 (setEvent w b s).events w).getLsbD b = true := by
  rw [setEvent_events, Tab.get_upd_self, BitVec.getLsbD_or, BitVec.getLsbD_ofNat]
  simp only [h, decide_true, Nat.testBit_two_pow_self, Bool.and_self, Bool.or_true]

/-- An event raised elsewhere leaves the register. -/
theorem setEvent_ne {w x : Nat} (b : Nat) (h : x ≠ w) : Tab.get 0 (setEvent w b s).events x = Tab.get 0 s.events x := by
  rw [setEvent_events, Tab.get_upd_ne _ _ h]

/-! ### A read after a write -/

@[simp] theorem getCore_setCore_self (c : Nat) (k : Core) : getCore (setCore c k s) c = k := Tab.get_set_self ..
theorem getCore_setCore_ne {c e : Nat} (k : Core) (h : e ≠ c) : getCore (setCore c k s) e = getCore s e := Tab.get_set_ne _ _ h
@[simp] theorem getCore_updCore_self (c : Nat) (f : Core → Core) : getCore (updCore c f s) c = f (getCore s c) := Tab.get_set_self ..
theorem getCore_updCore_ne {c e : Nat} (f : Core → Core) (h : e ≠ c) : getCore (updCore c f s) e = getCore s e := Tab.get_set_ne _ _ h
@[simp] theorem getUnit_updUnit_self (p u : Nat) (f : UnitRec → UnitRec) : getUnit (updUnit p u f s) p u = f (getUnit s p u) :=
  Tab.get_upd_self ..
@[simp] theorem getCinch_setCinch_self (i : Nat) (x : Cinch) : getCinch (setCinch i x s) i = x := Tab.get_set_self ..
theorem getCinch_setCinch_ne {i j : Nat} (x : Cinch) (h : j ≠ i) : getCinch (setCinch i x s) j = getCinch s j := Tab.get_set_ne _ _ h
@[simp] theorem getCinch_updCinch_self (i : Nat) (f : Cinch → Cinch) : getCinch (updCinch i f s) i = f (getCinch s i) :=
  Tab.get_set_self ..
theorem getCinch_updCinch_ne {i j : Nat} (f : Cinch → Cinch) (h : j ≠ i) : getCinch (updCinch i f s) j = getCinch s j :=
  Tab.get_set_ne _ _ h
@[simp] theorem getFunc_updFunc_self (fn : Nat) (f : Func → Func) : getFunc (updFunc fn f s) fn = f (getFunc s fn) := Tab.get_upd_self ..
@[simp] theorem getQueue_updQueue_self (fn q : Nat) (f : Queue → Queue) : getQueue (updQueue fn q f s) fn q = f (getQueue s fn q) :=
  Tab.get_upd_self ..
@[simp] theorem getFwWin_updFwWin_self (c : Nat) (f : FwWin → FwWin) : getFwWin (updFwWin c f s) c = f (getFwWin s c) :=
  Tab.get_upd_self ..
@[simp] theorem getMc_updMc_self (n : Nat) (f : McSlot → McSlot) : getMc (updMc n f s) n = f (getMc s n) := Tab.get_upd_self ..
@[simp] theorem getSc_updSc_self (n : Nat) (f : ScSlot → ScSlot) : getSc (updSc n f s) n = f (getSc s n) := Tab.get_upd_self ..
@[simp] theorem getEx_updEx_self (k : Nat) (f : ExWin → ExWin) : getEx (updEx k f s) k = f (getEx s k) := Tab.get_upd_self ..
@[simp] theorem getCv_updCv_self (u : Nat) (f : CvRec → CvRec) : getCv (updCv u f s) u = f (getCv s u) := Tab.get_upd_self ..
@[simp] theorem getBank_setBank_self (b : Nat) (k : Bank) : getBank (setBank b k s) b = k := Tab.get_set_self ..
@[simp] theorem paddock_setPaddock_self (p : Nat) (q : Paddock) : (setPaddock p q s).paddock p = q := Tab.get_set_self ..
theorem paddock_setPaddock_ne {p r : Nat} (q : Paddock) (h : r ≠ p) : (setPaddock p q s).paddock r = s.paddock r :=
  Tab.get_set_ne _ _ h
@[simp] theorem norWord_putNor_self (a : Nat) (w : W64) : norWord (putNor a w s) a = w := Tab.get_set_self ..
theorem norWord_putNor_ne {a b : Nat} (w : W64) (h : b / 8 ≠ a / 8) : norWord (putNor a w s) b = norWord s b :=
  Tab.get_set_ne _ _ h

/-- One byte after a byte is put. -/
theorem ramByte_putByte (a x : Nat) (b : Byte) : ramByte (putByte s a b) x = if x = a then b else ramByte s x := Tab.get_set ..

/-- One byte after a list of bytes is put from address `a` on. -/
theorem ramByte_putBytes (s : State) (a x : Nat) (bs : List Byte) :
    ramByte (putBytes s a bs) x = if a ≤ x ∧ x < a + bs.length then bs.getD (x - a) 0 else ramByte s x := by
  induction bs generalizing s a with
  | nil =>
    have h : ¬ (a ≤ x ∧ x < a + ([] : List Byte).length) := by simp only [List.length_nil]; omega
    rw [if_neg h]; rfl
  | cons b bs ih =>
    simp only [putBytes, ih, ramByte_putByte, List.length_cons]
    by_cases h1 : x = a
    · subst h1
      have h2 : ¬ (x + 1 ≤ x ∧ x < x + 1 + bs.length) := by omega
      have h3 : x ≤ x ∧ x < x + (bs.length + 1) := by omega
      simp [h2, h3]
    · by_cases h2 : a + 1 ≤ x ∧ x < a + 1 + bs.length
      · have h3 : a ≤ x ∧ x < a + (bs.length + 1) := by omega
        rw [if_pos h2, if_pos h3]
        have h4 : x - a = (x - (a + 1)) + 1 := by omega
        simp [h4]
      · have h3 : ¬ (a ≤ x ∧ x < a + (bs.length + 1)) := by omega
        rw [if_neg h2, if_neg h3, if_neg h1]

end Sys2Proof.Laws
end

