-- ==== Sys2Proof/WellFormed.lean ====
section
/-! DEFINITION. Which commands are well formed: every number names something the spec has. A meaning is total all the same;
a command that is not well formed names no occurrence of the spec. -/

namespace Sys2Proof

/-- A Pacer core's physical number (R246). -/
def coreOk (c : Nat) : Bool := decide (c < 26)

/-- A width of R23. -/
def accessWidth (w : Nat) : Bool := w == 1 || w == 2 || w == 4 || w == 8

/-- A source of a register write: a core or a function that exists. -/
def RegSrc.wf : RegSrc → Bool
  | .core c => coreOk c
  | .warden => true
  | .bar0 fn => decide (fn < 256)
  | .bar2 fn => decide (fn < 256)

/-- An SRAM word that exists. -/
def SramWord.wf : SramWord → Bool
  | .addr a => a % 8 == 0
  | .tack _ => true
  | .bank e b w => decide (e < 68) && decide (b < 8) && decide (w < 1024)

/-- A unit of a pool (R467). -/
def unitExists (pool u : Nat) : Bool :=
  (pool == 0 && decide (u < 34)) || (pool == 1 && decide (u < 68)) || (pool == 2 && decide (u < 26)) || (pool == 3 && decide (u < 16))

/-- A source that exists: one of a core's eight windows at most, a queue of a function, a Cinch slot. -/
def Src.wf : Src → Bool
  | .win c w => coreOk c && decide (w < 8)
  | .host fn q _ => decide (fn < 256) && decide (q < 4096)
  | .auto slot => decide (slot < 4096)

/-- At most eight custodians, each with an identity of a token that R199 enrols. -/
def enrolOk (es : List Custodian) : Bool := decide (es.length ≤ 8) && es.all (fun c => decide (c.ident.length ≤ 16) && decide (c.idsrc ≤ 1))

/-- Interfaces of R374 and R384 where share writes go. -/
def placesOk (ps : List Nat) : Bool := ps.all (fun p => decide (p ≤ 4))

/-- Boot facts: sensors that exist, a time for each of the eight steps, units and NOR words that exist. -/
def BootFacts.wf (f : BootFacts) : Bool :=
  decide (f.mask < 2 ^ 22) && f.ends.length == 8 && f.badUnits.all (fun e => unitExists e.1 e.2) &&
    f.badNor.all (fun a => decide (a < 2 ^ 25) && a % 8 == 0)

/-- Whether a command is well formed. -/
def Instr.wf : Instr → Bool
  | .strideBoundary _ => true
  | .frameBoundary => true
  | .ptpSync src seq _ _ _ _ => decide (src.dom < 256) && decide (seq < 65536)
  | .ptpFollowUp src seq _ _ => decide (src.dom < 256) && decide (seq < 65536)
  | .ptpDelayResp src seq _ _ => decide (src.dom < 256) && decide (seq < 65536)
  | .delayReqSend seq _ => decide (seq < 65536)
  | .ptpAnnounce src _ _ _ => decide (src.dom < 256)
  | .ptpPdelayReq dom seq _ => decide (dom < 256) && decide (seq < 65536)
  | .ptpPdelayResp src seq _ _ _ => decide (src.dom < 256) && decide (seq < 65536)
  | .masterLoss => true
  | .reacquire => true
  | .backupCounterCopy => true
  | .ppsRise => true
  | .ppsFall => true
  | .shareWrite core _ => coreOk core
  | .unitOverrun pool unit => unitExists pool unit
  | .registerWrite src _ width _ => src.wf && accessWidth width
  | .resultDoneRead core _ => coreOk core
  | .dieLinkTransfer _ _ _ => true
  | .sramScrub bad corrected => bad.all SramWord.wf && corrected.all SramWord.wf
  | .cipherJob src => src.wf
  | .cipherJobComplete src => src.wf
  | .cfRsvWrite core _ => coreOk core
  | .cfCtxWrite core _ => coreOk core
  | .stallAlloc src => src.wf
  | .stallLoad src => src.wf
  | .stallArm src => src.wf
  | .stallExpire src => src.wf
  | .stallRetire src => src.wf
  | .stallRead src => src.wf
  | .stallCommandComplete src => src.wf
  | .stallRetiringEnd stall => decide (stall < 65536)
  | .stallWipingEnd stall => decide (stall < 65536)
  | .stallWindowExpiry stall => decide (stall < 65536)
  | .stQuotaWrite core _ => coreOk core
  | .expqRead core rd => coreOk core && decide (rd < 64)
  | .rsaPrivateRaw src => src.wf
  | .rsaPublicRaw src => src.wf
  | .rsassaPssSign src => src.wf
  | .rsassaPkcs1V15Sign src => src.wf
  | .rsassaPssVerify src => src.wf
  | .rsassaPkcs1V15Verify src => src.wf
  | .rsaesOaepEncrypt src => src.wf
  | .rsaesOaepDecrypt src => src.wf
  | .modularExponentiation src => src.wf
  | .ffdh src => src.wf
  | .ecdsaSign src => src.wf
  | .ecdsaVerify src => src.wf
  | .ecdh src => src.wf
  | .eddsaSign src => src.wf
  | .eddsaVerify src => src.wf
  | .x25519OrX448 src => src.wf
  | .keyPairCurveOrGroup src => src.wf
  | .keyPairRsa src => src.wf
  | .pkeJobComplete src => src.wf
  | .drbgReseed => true
  | .entropyHealthFail => true
  | .pkDiagRead core rd => coreOk core && decide (rd < 64)
  | .cinchOpen src => src.wf
  | .cinchStage src => src.wf
  | .cinchCommit src => src.wf
  | .cinchAbort src => src.wf
  | .cinchQuery src => src.wf
  | .cinchLookup src => src.wf
  | .cinchResolve src => src.wf
  | .recordStoreAnswer core _ => coreOk core
  | .cinchRequestComplete core => coreOk core
  | .cinchDecision slot => decide (slot < 4096)
  | .journalBatchDurable _ => true
  | .cinchApply slot => decide (slot < 4096)
  | .cinchExternalWrite slot _ => decide (slot < 4096)
  | .externalWriteEnd slot _ _ => decide (slot < 4096)
  | .resolutionEnd slot _ => decide (slot < 4096)
  | .cinchTimeout slot => decide (slot < 4096)
  | .forceCommit _ => true
  | .forceAbort _ => true
  | .checkpoint => true
  | .noteqRead core rd => coreOk core && decide (rd < 64)
  | .cnQuotaWrite core _ _ => coreOk core
  | .paddockCreate paddock _ => decide (paddock < 256)
  | .paddockDelete paddock _ => decide (paddock < 256)
  | .paddockRevoke paddock _ => decide (paddock < 256)
  | .paddockActEffect paddock => decide (paddock < 256)
  | .paddockAbsent paddock => decide (paddock < 256)
  | .tackReserve src => src.wf
  | .tackInstall src => src.wf
  | .tackRetire src => src.wf
  | .tackRestrict src => src.wf
  | .tackPin src => src.wf
  | .tackDescribe src => src.wf
  | .tackCommandComplete src => src.wf
  | .reservationExpiry _ => true
  | .tackFetchComplete _ _ => true
  | .leaseDurable _ => true
  | .tkMintRead core kd => coreOk core && decide (kd < 16)
  | .tkQuotaWrite core _ _ => coreOk core
  | .quorumSplit _ _ _ dest => enrolOk dest.enrol && placesOk dest.places
  | .quorumBackup _ slot _ _ _ => decide (slot < 2)
  | .quorumJoin _ _ _ expects => enrolOk expects.enrol
  | .quorumResplit _ _ dest => enrolOk dest.enrol && placesOk dest.places
  | .quorumRestore _ _ _ enrol _ _ => enrolOk enrol
  | .quorumShareReceived place _ _ => placesOk [place]
  | .quorumWindowEnd => true
  | .sqDoorbell fn q _ => decide (fn < 256) && decide (q < 4096)
  | .cqDoorbell fn q _ => decide (fn < 256) && decide (q < 4096)
  | .queueCreate fn => decide (fn < 256)
  | .queueDelete fn => decide (fn < 256)
  | .queueReset fn => decide (fn < 256)
  | .queueDrained fn q => decide (fn < 256) && decide (q < 4096)
  | .descriptorArrival fn q _ => decide (fn < 256) && decide (q < 4096)
  | .descriptorAdmit fn q => decide (fn < 256) && decide (q < 4096)
  | .controlNop fn q _ => decide (fn < 256) && decide (q < 4096)
  | .controlCancel fn q _ => decide (fn < 256) && decide (q < 4096)
  | .notifyCompletion => true
  | .msixMessage fn q => decide (fn < 256) && decide (q < 4096)
  | .msixUnmask fn _ _ => decide (fn < 256)
  | .functionLevelReset fn => decide (fn < 256)
  | .hotReset => true
  | .pcieLinkDown => true
  | .perst => true
  | .functionResetEffect fn => decide (fn < 256)
  | .functionResetReady fn => decide (fn < 256)
  | .pcieConfigRequest access => decide (access.fn < 256)
  | .cqAllotWrite core _ _ => coreOk core
  | .fwTake core => coreOk core
  | .fwPost core slot => coreOk core && decide (slot < 4)
  | .firmwareResultCompletion => true
  | .frameReceived pair sub _ bytes _ => decide (pair < 4) && decide (sub < 4) && decide (bytes.length ≤ 9600)
  | .frameHandoff _ => true
  | .pauseRepeat pair _ => decide (pair < 4)
  | .pauseReceived pair sub _ _ => decide (pair < 4) && decide (sub < 4)
  | .frameEgress pair sub _ => decide (pair < 4) && decide (sub < 4)
  | .portLinkChange pair _ sub _ => decide (pair < 4) && decide (sub < 4)
  | .ilPortcfgWrite core pair _ => coreOk core && decide (pair < 4)
  | .ld8 core _ _ _ _ => coreOk core
  | .ld16 core _ _ _ _ => coreOk core
  | .ld32 core _ _ _ _ => coreOk core
  | .ld64 core _ _ _ _ => coreOk core
  | .lds8 core _ _ _ _ => coreOk core
  | .lds16 core _ _ _ _ => coreOk core
  | .lds32 core _ _ _ _ => coreOk core
  | .st8 core _ _ _ _ => coreOk core
  | .st16 core _ _ _ _ => coreOk core
  | .st32 core _ _ _ _ => coreOk core
  | .st64 core _ _ _ _ => coreOk core
  | .storePerformed core => coreOk core
  | .kld core _ _ _ _ => coreOk core
  | .kst core _ _ _ _ => coreOk core
  | .opAdd core _ _ _ => coreOk core
  | .opSub core _ _ _ => coreOk core
  | .opAnd core _ _ _ => coreOk core
  | .opOr core _ _ _ => coreOk core
  | .opXor core _ _ _ => coreOk core
  | .andn core _ _ _ => coreOk core
  | .shl core _ _ _ => coreOk core
  | .shr core _ _ _ => coreOk core
  | .sar core _ _ _ => coreOk core
  | .rol core _ _ _ => coreOk core
  | .ror core _ _ _ => coreOk core
  | .opMin core _ _ _ => coreOk core
  | .opMax core _ _ _ => coreOk core
  | .minu core _ _ _ => coreOk core
  | .maxu core _ _ _ => coreOk core
  | .clz core _ _ _ => coreOk core
  | .popc core _ _ _ => coreOk core
  | .bswap core _ _ _ => coreOk core
  | .mul core _ _ _ => coreOk core
  | .mulh core _ _ _ => coreOk core
  | .mulhu core _ _ _ => coreOk core
  | .div core _ _ _ => coreOk core
  | .divu core _ _ _ => coreOk core
  | .rem core _ _ _ => coreOk core
  | .remu core _ _ _ => coreOk core
  | .ceq core _ _ _ => coreOk core
  | .cne core _ _ _ => coreOk core
  | .clt core _ _ _ => coreOk core
  | .cltu core _ _ _ => coreOk core
  | .cle core _ _ _ => coreOk core
  | .cleu core _ _ _ => coreOk core
  | .addi core _ _ _ => coreOk core
  | .andi core _ _ _ => coreOk core
  | .ori core _ _ _ => coreOk core
  | .xori core _ _ _ => coreOk core
  | .shli core _ _ _ => coreOk core
  | .shri core _ _ _ => coreOk core
  | .sari core _ _ _ => coreOk core
  | .ceqi core _ _ _ => coreOk core
  | .cnei core _ _ _ => coreOk core
  | .clti core _ _ _ => coreOk core
  | .cltui core _ _ _ => coreOk core
  | .clei core _ _ _ => coreOk core
  | .cleui core _ _ _ => coreOk core
  | .lui core _ _ => coreOk core
  | .bz core _ _ => coreOk core
  | .bnz core _ _ => coreOk core
  | .loop core _ _ => coreOk core
  | .jmp core _ => coreOk core
  | .call core _ => coreOk core
  | .ret core _ _ _ => coreOk core
  | .jmpr core _ _ _ => coreOk core
  | .trap core _ _ _ => coreOk core
  | .brk core _ _ _ => coreOk core
  | .wret core _ _ _ => coreOk core
  | .push core _ _ _ => coreOk core
  | .pop core _ _ _ => coreOk core
  | .sync core _ _ _ => coreOk core
  | .wait core _ _ _ => coreOk core
  | .mfs core _ _ _ => coreOk core
  | .mts core _ _ _ => coreOk core
  | .kmov core _ _ _ => coreOk core
  | .kbound core _ _ _ => coreOk core
  | .kperm core _ _ _ => coreOk core
  | .kbase core _ _ _ => coreOk core
  | .klen core _ _ _ => coreOk core
  | .kinfo core _ _ _ => coreOk core
  | .kclr core _ _ _ => coreOk core
  | .kseal core _ _ _ => coreOk core
  | .kunseal core _ _ _ => coreOk core
  | .enter core _ _ _ => coreOk core
  | .movb core _ _ _ => coreOk core
  | .cmpb core _ _ _ => coreOk core
  | .scanb core _ _ _ => coreOk core
  | .fillb core _ _ _ => coreOk core
  | .xorb core _ _ _ => coreOk core
  | .crcb core _ _ _ => coreOk core
  | .dadd core _ _ _ => coreOk core
  | .dsub core _ _ _ => coreOk core
  | .dcryA core _ _ _ => coreOk core
  | .dcryS core _ _ _ => coreOk core
  | .daddm core _ _ _ => coreOk core
  | .dadj core _ _ _ => coreOk core
  | .dval core _ _ _ => coreOk core
  | .ddec core _ _ _ => coreOk core
  | .dcvb core _ _ _ => coreOk core
  | .dcvd core _ _ _ => coreOk core
  | .dshl core _ _ _ => coreOk core
  | .dshr core _ _ _ => coreOk core
  | .interruptTaken core _ => coreOk core
  | .impreciseFaultTaken core => coreOk core
  | .timerExpiry core => coreOk core
  | .maskBudgetExceeded core _ => coreOk core
  | .pcFenceWrite core _ => coreOk core
  | .wardenMessage core target _ => coreOk core && coreOk target
  | .spillWrite core target _ _ => coreOk core && coreOk target
  | .returnStackClear core target => coreOk core && coreOk target
  | .monitorYield core => coreOk core
  | .monitorResume core => coreOk core
  | .monitorDoors core => coreOk core
  | .monitorSend core => coreOk core
  | .monitorKeyrein core => coreOk core
  | .regionWrite _ unit rgn width _ => decide (unit < 41) && decide (rgn < 32) && accessWidth width
  | .norProgramDone _ _ _ _ => true
  | .norEraseDone sector _ => decide (sector < 512)
  | .nandProgramDone _ _ _ _ slot => slot.all (fun i => decide (i < 4096))
  | .nandEraseDone stack blk _ _ _ => decide (stack < 4) && decide (blk < 4096)
  | .nandReadDone _ _ _ _ _ => true
  | .stageMigration _ _ => true
  | .stackLost stack _ => decide (stack < 4)
  | .rawRead core rd => coreOk core && decide (rd < 64)
  | .cvuConfig core => coreOk core
  | .cvuReset core => coreOk core
  | .cvuRead core _ => coreOk core
  | .scanGen core => coreOk core
  | .scanCheck core => coreOk core
  | .cvuRequestComplete core => coreOk core
  | .cvOwnWrite core unit _ => coreOk core && decide (unit < 16)
  | .mcDetectChange slot _ => decide (slot < 2)
  | .mcInsert slot => decide (slot < 2)
  | .mcInitComplete slot _ => decide (slot < 2)
  | .mcRemove slot => decide (slot < 2)
  | .mcBusyTimeout slot => decide (slot < 2)
  | .mcRead slot => decide (slot < 2)
  | .mcWrite slot => decide (slot < 2)
  | .rpmbCounter slot => decide (slot < 2)
  | .rpmbRead slot => decide (slot < 2)
  | .rpmbKeyprog slot => decide (slot < 2)
  | .scActivate iface => decide (iface < 4)
  | .scApdu iface => decide (iface < 4)
  | .scDeactivate iface => decide (iface < 4)
  | .scInsert iface => decide (iface < 4)
  | .scRemove iface => decide (iface < 4)
  | .scResponseTimeout iface => decide (iface < 4)
  | .cardExchangeComplete slot _ => (decide (slot < 4) || slot == 0x10 || slot == 0x11)
  | .csMeasure _ _ _ => true
  | .nfPoll => true
  | .nfActivate => true
  | .nfApdu => true
  | .nfDeactivate => true
  | .fieldCollapse _ => true
  | .nfResponseTimeout => true
  | .fieldResetEnd => true
  | .nfExchangeComplete _ => true
  | .witnessWake => true
  | .witnessReqa => true
  | .witnessAnticollision _ => true
  | .witnessRats => true
  | .witnessSelect _ => true
  | .witnessReadBinary _ => true
  | .witnessSessionEnd => true
  | .witnessSessionTimeout => true
  | .witnessDayWindow => true
  | .tamperEvalTick mask _ => decide (mask < 2 ^ 22)
  | .sensorRearm sensor => decide (sensor < 22)
  | .shedBoundary => true
  | .shedWipeComplete => true
  | .shedReloadComplete => true
  | .bistDaily outcomes => decide (outcomes < 2 ^ 44)
  | .bistNow outcomes => decide (outcomes < 2 ^ 44)
  | .tmRespWrite core sensor _ => core.all coreOk && decide (sensor < 22)
  | .tamperLock core _ => coreOk core
  | .transitionToTest => true
  | .transitionToCustody => true
  | .transitionToField => true
  | .transitionToReturn => true
  | .transitionToScrap _ => true
  | .transitionComplete => true
  | .tapBypass => true
  | .tapIdcode => true
  | .tapSamplePreload => true
  | .tapExtest => true
  | .tapClamp => true
  | .tapHighz => true
  | .bscanEffect => true
  | .tapMailbox => true
  | .tapDap => true
  | .testLogicReset => true
  | .mailboxNonce => true
  | .mailboxPresent _ => true
  | .mailboxEnd => true
  | .mailboxStatus => true
  | .mailboxFwkey hash => hash.length == 48
  | .nonceRead => true
  | .certificatePresent _ => true
  | .certVerifyComplete => true
  | .debugEndRequest => true
  | .debugSessionExpiry => true
  | .ownerDebugKeyEnrol hash => hash.length == 48
  | .dapAccess _ => true
  | .debugHalt core => coreOk core
  | .debugStep core => coreOk core
  | .debugResume core => coreOk core
  | .hello dgram _ => decide (dgram.length ≤ 65507)
  | .dictRead msg => decide (msg.length ≤ 65507)
  | .dictWrite msg => decide (msg.length ≤ 65507)
  | .dictWriteApply _ => true
  | .dictDescribe msg => decide (msg.length ≤ 65507)
  | .dictSubscribe msg => decide (msg.length ≤ 65507)
  | .dictUnsubscribe msg => decide (msg.length ≤ 65507)
  | .sessionClose msg => decide (msg.length ≤ 65507)
  | .sessionIdleTimeout => true
  | .credentialWrite msg => decide (msg.length ≤ 65507)
  | .addressConfigWrite msg => decide (msg.length ≤ 65507)
  | .arpRequest frame => decide (frame.length ≤ 1518)
  | .neighborSolicitation frame => decide (frame.length ≤ 1518)
  | .icmpEcho frame => decide (frame.length ≤ 1518)
  | .mgmtLinkChange _ => true
  | .ledgerPeriod minutes => minutes.length == 16
  | .ledgerWordDrain _ => true
  | .ledgerCursorRead msg => decide (msg.length ≤ 65507)
  | .feedRead msg => decide (msg.length ≤ 65507)
  | .unitRequest pool unit _ => unitExists pool unit
  | .unitDrainEnd pool unit => unitExists pool unit
  | .fencedToWiping pool unit => unitExists pool unit
  | .unitWipeEnd pool unit => unitExists pool unit
  | .unitTestEnd pool unit _ => unitExists pool unit
  | .fwChunk _ => true
  | .fwVerify => true
  | .fwSwitch => true
  | .fwCancel => true
  | .fwCoreDrained => true
  | .fwDrainTimeout => true
  | .brownOutTrip _ => true
  | .flushComplete => true
  | .brownOutRestart facts => facts.wf
  | .cellSwitch => true
  | .porAssert => true
  | .bootStart facts => facts.wf
  | .holdupRecovered => true
  | .lockwaitExpiry => true
  | .railMeasure mv => mv.length == 10
  | .vddVaultPresent => true
  | .pcieLinkUp _ _ _ => true
  | .pauseTimerExpiry pair sub _ => decide (pair < 4) && decide (sub < 4)
  | .entropyHealthRecovered => true
  | .stageCounterRead core _ => coreOk core
  | .tamperLockComplete => true

end Sys2Proof
end

