-- ==== Sys2Proof/Tests/Slice0.lean ====
section
/-! SUPPORT. Tests: terms that WellFormed refuses, small single steps whose result is worked out from the spec, and for each
statement a state and operands that meet its hypotheses. -/

namespace Sys2Proof.Tests

open Sys2Proof Sys2Proof.Machine

set_option Elab.async false

/-! ### What is not well formed -/

theorem test_wf_core : (Instr.opAdd 26 0 0 0).wf = false ∧ (Instr.opAdd 25 0 0 0).wf = true := by decide
theorem test_wf_register_core : (Instr.registerWrite (.core 26) 0 4 0).wf = false := by decide
theorem test_wf_width : (Instr.registerWrite .warden 0 3 0).wf = false ∧ (Instr.registerWrite .warden 0 8 0).wf = true := by decide
theorem test_wf_unit : (Instr.unitOverrun 0 34).wf = false ∧ (Instr.unitOverrun 1 67).wf = true ∧ (Instr.unitOverrun 3 16).wf = false ∧
    (Instr.unitOverrun 4 0).wf = false := by decide
theorem test_wf_window : (Instr.cipherJob (.win 0 8)).wf = false ∧ (Instr.cipherJob (.host 256 0 0)).wf = false ∧
    (Instr.cipherJob (.host 0 4096 0)).wf = false ∧ (Instr.cipherJob (.auto 4096)).wf = false := by decide
/-- Boot facts with nothing in alarm and eight steps. -/
def facts : BootFacts :=
  { retained := true, backupOk := true, offTime := 0, mask := 0, ends := List.replicate 8 0, badUnits := [], nandOk := true, badNor := [] }

theorem test_wf_boot : facts.wf = true ∧ (Instr.bootStart { facts with ends := [] }).wf = false ∧
    BootFacts.wf { facts with mask := 2 ^ 22 } = false ∧ BootFacts.wf { facts with badUnits := [(0, 34)] } = false := by decide
theorem test_wf_seq : (Instr.delayReqSend 65536 0).wf = false := by decide
theorem test_wf_stall : (Instr.stallRetiringEnd 65536).wf = false := by decide
theorem test_wf_reg : (Instr.expqRead 0 64).wf = false ∧ (Instr.tkMintRead 0 16).wf = false := by decide
theorem test_wf_slot : (Instr.cinchDecision 4096).wf = false ∧ (Instr.fwPost 0 4).wf = false := by decide
theorem test_wf_paddock : (Instr.paddockCreate 256 0).wf = false := by decide
theorem test_wf_card : (Instr.quorumBackup 0 2 [] [] ⟨[], ⟨0, [], 0, 0, [], []⟩⟩).wf = false ∧ (Instr.mcInsert 2).wf = false ∧ (Instr.scInsert 4).wf = false ∧
    (Instr.cardExchangeComplete 0x12 ⟨0, [], 0, 0, [], []⟩).wf = false := by decide
theorem test_wf_queue : (Instr.sqDoorbell 256 0 0).wf = false ∧ (Instr.sqDoorbell 0 4096 0).wf = false := by decide
theorem test_wf_port : (Instr.pauseRepeat 4 true).wf = false ∧ (Instr.frameEgress 0 4 true).wf = false := by decide
theorem test_wf_region : (Instr.regionWrite true 41 0 8 0).wf = false ∧ (Instr.regionWrite true 0 32 8 0).wf = false := by decide
theorem test_wf_media : (Instr.norEraseDone 512 1).wf = false ∧ (Instr.nandEraseDone 4 0 true 1 false).wf = false ∧
    (Instr.stackLost 4 true).wf = false := by decide
theorem test_wf_cvu : (Instr.cvOwnWrite 0 16 0).wf = false := by decide
theorem test_wf_sensor : (Instr.sensorRearm 22).wf = false ∧ (Instr.tamperEvalTick (2 ^ 22) 0).wf = false ∧
    (Instr.bistNow (2 ^ 44)).wf = false := by decide
theorem test_wf_hash : (Instr.mailboxFwkey []).wf = false := by decide
theorem test_wf_period : (Instr.ledgerPeriod []).wf = false := by decide
theorem test_wf_rails : (Instr.railMeasure []).wf = false := by decide
theorem test_wf_frame : (Instr.frameReceived 0 0 true (List.replicate 9601 0) true).wf = false ∧
    (Instr.arpRequest (List.replicate 1519 0)).wf = false ∧ (Instr.dictRead (List.replicate 65508 0)).wf = false := by
  simp only [Instr.wf, List.length_replicate]; decide


/-! ### States that the witnesses start from -/

/-- A unit in service. -/
def unitOn : UnitRec := { UnitRec.reset with st := 1 }

/-- A device that has booted, an hour after the TAI epoch: lane 0, engine 0 and Pacers 0 and 1 are in service. -/
def live : State :=
  { State.reset with
    time := { TimeUnit.reset with now := 3600000000000, executed := 5000000 },
    pm := { PowerUnit.reset with running := true, porLow := false, step := 15 },
    us := { UnitService.reset with units := [(0, unitOn), (128, unitOn), (256, unitOn), (257, unitOn)] } }

/-- `live` with paddock 0 ACTIVE in generation 1. -/
def live0 : State :=
  { live with tk := { live.tk with paddocks := [(0, { Paddock.absent with st := 1, gen := 1, master := some (zeros 32) })] } }

/-- A change of core 0. -/
def onCore (f : Core → Core) (s : State) : State := updCore 0 f s

/-- Core 0 at the paddock level of paddock 0. -/
def asPaddock (s : State) : State := onCore (fun k => { k with status := 0 }) s

/-! ### The queue, memory, and what no command undoes -/

theorem witness_StepRunsFrontCommand_StepRunsFrontCommand : ({ live with pending := [.ppsRise, .ppsFall] } : State).pending = .ppsRise :: [.ppsFall] := rfl
theorem witness_StepRunsFrontCommand_EmptyQueueIdles : live.pending = [] := rfl
theorem witness_CommandsLeaveQueue : ∃ t, exec .masterLoss live = .next t := ⟨_, rfl⟩
theorem witness_StepKeepsMemoryForm : Memory.wf (hostPut { live with pending := [.entropyHealthRecovered] } 8 [1, 0, 2]).mem = true ∧
    ∃ t, step (hostPut { live with pending := [.entropyHealthRecovered] } 8 [1, 0, 2]) = .next t := ⟨by decide, _, rfl⟩
theorem witness_FusesOnlyProgram :
    (Tab.get 0 ({ live with lc := { live.lc with copies := [(2, 0x8000000000000000)] }, pending := [.ppsFall] } : State).lc.copies 2).getLsbD 63 =
      true ∧ ∃ t, step { live with lc := { live.lc with copies := [(2, 0x8000000000000000)] }, pending := [.ppsFall] } = .next t :=
  ⟨by decide, _, rfl⟩
theorem witness_LifeCountersNeverFall : ∃ t, step { live with pending := [.stackLost 3 false] } = .next t := ⟨_, rfl⟩

/-! ### The stride and network time -/

/-- A data set of the default profile. -/
def dataset (gm : W64) : PtpDataset := { prio1 := 128, cls := 6, accuracy := 0x21, variance := 0, prio2 := 128, gm := gm, steps := 0 }

/-- A master of domain 0. -/
def master (c : W64) : ForeignMaster :=
  { dom := 0, clockId := c, data := dataset c, utc := 37, utcValid := true, heard := 5000000, logInt := 0 }

/-- A master heard, with the path known: the servo has locked on it once. -/
def synced : State :=
  { live with time := { live.time with
    masters := [master 7], master := 7, pathKnown := true, firstLock := true, mode := .locked,
    u := 100, delayReq := some (1, 50), lastSync := some (10, 20), syncPend := some (7, 2, 3000) } }

theorem witness_ClockAndStrideCommands_PtpExchangesMeasurePath :
    (stridesRun synced = true ∧ ptpDomain synced.time = 0 ∧ fromMaster synced.time 7 = true ∧ syncIntervalOk 1 = true ∧
      syncIntervalOk (-4) = true ∧ synced.time.delayReq = some (1, 50) ∧ synced.time.lastSync = some (10, 20) ∧
      powerProfile synced.time = false) ∧
    (powerProfile { synced.time with cfg := 4, pdelayPend := some (7, 1, 2, 3, 4) } = true) ∧
    ((∀ x ∈ synced.time.masters, ¬(x.dom = 0 ∧ x.clockId = 8)) ∧ synced.time.masters.length < 8 ∧
      selected { synced.time with masters := synced.time.masters ++ [master 6] } = some (master 6)) ∧ ((1 : Nat) ≠ 0) := by decide

/-- Offsets 1,100 and 1,101 ns stand on both sides of U + 1 µs. -/
theorem witness_ClockAndStrideCommands_PtpSamplesAreJudged :
    (synced.time.syncPend = some (7, 2, 3000) ∧ fromMaster synced.time 7 = true ∧ synced.time.pathKnown = true) ∧
    (synced.time.disagree = false ∧ synced.time.firstLock = true ∧ synced.time.reacquire = false ∧
      ((3000 + natBits synced.time.phyLat.toNat 16 16 : Nat) : Int) - 1900 - 0 - synced.time.path.toNat = 1100 ∧
      ((1100 : Int).natAbs ≤ synced.time.uNow + 1000) ∧ synced.time.uNow + 1000 < (1101 : Int).natAbs ∧ synced.time.discards < 7 ∧
      synced.time.mode = .locked) ∧
    (7 ≤ { synced.time with discards := 7 }.discards ∧ { synced.time with reacquire := true }.reacquire = true ∧
      { synced.time with disagree := true }.disagree = true) := by decide

theorem witness_ClockAndStrideCommands_ClockEventsComplete : synced.time.mode = .locked ∧ selected synced.time = some (master 7) ∧
    3 * 1000000 * 2 ^ (master 7).logInt.toNat ≤ (8000000 - (master 7).heard) * 2 ^ (-(master 7).logInt).toNat ∧
    stridesRun synced = true ∧ stridesRun { synced with pm := { synced.pm with onCell := true } } = false := by decide

theorem witness_ClockAndStrideCommands_PulseOutputFollowsState :
    (synced.time.now % 1000000000 = 0 ∧ timeState synced.time = 1 ∧ synced.time.pps.getLsbD 0 = true ∧
      synced.time.ppsFall ≤ synced.time.now) ∧
    (¬(timeState live.time = 1 ∨ timeState live.time = 2)) ∧
    ({ synced.time with ppsFall := 3600000000001 }.now < 3600000000001) := by decide

theorem witness_FrameSharesTakeEffect_FrameBoundaryTakesShares : stridesRun live = true ∧ frameDue live = true := by decide

/-- The write that reaches the total of R43 exactly is staged and the next one refused. -/
theorem witness_FrameSharesTakeEffect_SharesAndOverruns : coreMay live 0 true 0x100100090 = true ∧ natBits live.time.shrSel.toNat 8 2 = 0 ∧
    stagedSum live.time 0 - Tab.get 0 live.time.staged (shareKey 0 0) + (65536#32).toNat % 2 ^ 20 ≤ fullTotal 0 ∧
    fullTotal 0 < stagedSum live.time 0 - Tab.get 0 live.time.staged (shareKey 0 0) + (65537#32).toNat % 2 ^ 20 ∧
    natBits { live.time with shrSel := 0x100 }.shrSel.toNat 8 2 = 1 ∧ (16384#32).toNat % 64 = 0 ∧
    unitOk 1 0 = true ∧ (getUnit live 1 0).st = 1 := by decide

theorem witness_ClockAndStrideCommands_StrideBoundaryCompletes : stridesRun live = true ∧ live.pm.flushing = false ∧
    stridesRun { live with pm := { live.pm with flushing := true } } = true := by decide

/-! ### Registers, the die link and the scrubber -/

theorem witness_RegisterAccessesAct_RegisterWritesAct :
    (live.off = false ∧ isCsr 0x100000020 = true ∧ csrWidthBad 0x100000020 4 = false ∧ csrShape 0x100000020 4 = true ∧
      firstRefused live (coreAccess live 0) true false 0x100000020 4 = none ∧ csrWidthBad 0x100000021 4 = true) ∧
    (firstRefused (asPaddock live) (coreAccess (asPaddock live) 0) true false 0x100000020 4 = some (0x100000020, 1)) ∧
    (({ live with pm := { live.pm with onCell := true } } : State).off = true) ∧
    (funcReady { live with cq := { live.cq with link := 1 } } 0 = true ∧ (getQueue live 0 0).st = 0 ∧
      (getQueue (updQueue 0 0 (fun q => { q with st := 2 }) live) 0 0).st ≠ 0) := by decide


/-- A device whose life-cycle word and copies hold `w`. -/
def inLife (w : W64) (s : State) : State := { s with lc := { s.lc with word := w, copies := [(0, w), (1, w), (2, w)] } }

/-- Sensor 14 warns in BLANK and zeroes where CUSTODY assigns it ZERO; NF_TO is a register of the vault die and AL_PINEN none. -/
theorem witness_RegisterAccessesAct_DieLinkIsAuthenticated : live.off = false ∧
    (zeros 32 = ({ live with pm := { live.pm with linkKey := zeros 32 } } : State).pm.linkKey ∧ zeros 32 ≠ [] ∧
      onVaultDie 0x100E00040 = true ∧ csrShape 0x100E00040 8 = true ∧ onVaultDie 0x100000020 = false) ∧
    (([1] : List Byte) ≠ live.pm.linkKey ∧ Tab.get false live.tm.fired 14 = false ∧ 1 ≤ effResp live 14 ∧
      effResp (inLife 0xFFFFFFFF { live with tm := { live.tm with resp := [(14, 3)] } }) 14 = 3 ∧ live.tm.running < 3) := by decide

/-- The status slots of a cipher window, a CVU window and a card window of core 0. -/
theorem witness_RegisterAccessesAct_StatusReadClearsDone : (csrShape 0x100210048 8 = true ∧ coreMay live 0 false 0x100210048 = true ∧
      csrWindow 0x100210048 = 2 ∧ 0x10000 ≤ csrSlot 0x100210048 ∧ winOff (csrSlot 0x100210048) = 0x48) ∧
    (csrShape 0x100C10058 8 = true ∧ coreMay live 0 false 0x100C10058 = true) ∧
    (csrShape 0x100D30048 8 = true ∧ coreMay live 0 false 0x100D30048 = true ∧ (getCore live 0).warden = true) := by decide

theorem witness_StatusReadClearsDone_field : winField 0 0x48 = (0, 0, .status) := rfl

/-- Words of mapped memory, of a bank, and of a tack that the cache holds. -/
theorem witness_RegisterAccessesAct_ScrubPoisonsAndCounts : live.off = false ∧ wordExists live (.addr 0x10000000) = true ∧
    isSram 0x62BFFFFF = true ∧ wordExists live (.bank 67 7 1023) = true ∧ wordExists live (.tack 5) = false := by decide

/-- Bit 0 and ORDER 29 are refused, ORDER 28 at FRAME 0 is taken. -/
theorem witness_RegionWritesAreChecked : (0x8000000000000001#64).getLsbD 0 = true ∧
    (28 < (0xF400000000000000#64).toNat / 2 ^ 58 % 32 ∧ (0xF400000000000000#64).getLsbD 63 = true) ∧
    (¬(8 ≠ 8 ∨ (0xF000000000000000#64).getLsbD 0 = true ∨ ((0xF000000000000000#64).getLsbD 63 = true ∧
      (28 < (0xF000000000000000#64).toNat / 2 ^ 58 % 32 ∨
        (0xF000000000000000#64).toNat / 2 ^ 30 % 2 ^ 28 % 2 ^ ((0xF000000000000000#64).toNat / 2 ^ 58 % 32) ≠ 0)))) := by decide

/-! ### Jobs of the cipher fabric and the public-key engines -/

/-- A resident LIVE tack 5 of paddock 0 with every usage. -/
def tackOf (algo param lenb : Nat) : Tack :=
  { handle := 5, paddock := 0, algo := algo, param := param, lenb := lenb, usage := 0x3FF, policy := 1, volatile := false, pinned := false,
    fromT := 0, untilT := noEnd, limit := noEnd, label := zeros 16, st := 3, resident := true, material := zeros 16, wcount := 1,
    count := 0, bound := 1024, boundNext := none, pendingUses := 0, fillPending := false, rsvAt := 0, lru := 0, fetching := false,
    errAt := 0, retired := false, finalKey := [], hashKey := [], bad := false, dseq := 0, unlinked := none, fillCinch := none }

/-- `live0` with the keep key and some tacks. -/
def keyed (ts : List Tack) : State :=
  { live0 with tk := { live0.tk with keep := some (zeros 32), tacks := ts.map (fun t => (t.handle, t)) } }

/-- A key rein of paddock 0 for a tack. -/
def keyRein (h : Nat) : Rein := Rein.make true 1 0 0x02 0x3FF 0 h

/-- A window whose BODY holds these 64-bit words. -/
def winOf (ws : List Nat) : Win := { Win.reset with body := Tab.setSlice 0 [] 0 (ws.map (fun n => BitVec.ofNat 64 n)) }

/-- Window 0 of core 0 in unit `u` holds `x`. -/
def withWin (u : Nat) (x : Win) (s : State) : State := updWin u 0 0 (fun _ => x) s

/-- One block under AES-128 in ECB from local SRAM to local SRAM. -/
def ecbWin (key : Rein) : Win := { winOf [0, 0x10040000, 0x10050000, 16] with key := key }
/-- The GO taken, with a key. -/
def ecbGo (key : Rein) : State := started 0 0 0 (withWin 0 (ecbWin key) (keyed [tackOf 0 0 16]))
/-- Its body. -/
def ecbBody : List Byte := winBody 0 0 0 (ecbGo (keyRein 5))
/-- Its request. -/
def ecbReq : Req := sampleReq live0 0 0

/-- A job that runs, and one denied because its window holds no key. -/
theorem witness_CipherJobIsAdmitted :
    (getWin 0 0 0 (withWin 0 (ecbWin (keyRein 5)) (keyed [tackOf 0 0 16]))).busy = false ∧ (ecbGo (keyRein 5)).shedding = false ∧
    ((ecbGo (keyRein 5)).paddock ecbReq.paddock).st = 1 ∧ cipherBad ecbBody true 32 0 = false ∧ cSrct ecbBody = false ∧
    cDstt ecbBody = false ∧ cHold ecbBody = false ∧ badHostRef (ecbGo (keyRein 5)) ecbReq (cSrc ecbBody) (readSpan ecbBody) false = false ∧
    badHostRef (ecbGo (keyRein 5)) ecbReq (cDst ecbBody) (writeSpan ecbBody 32) true = false ∧
    (cipherDenied (ecbGo (keyRein 5)) ecbReq ecbBody (keyRein 5) Rein.zero 32 = false ∧
      liveTack (ecbGo (keyRein 5)) 0 (reinHandle (keyRein 5)) = some (tackOf 0 0 16) ∧
      windowStatus (ecbGo (keyRein 5)) [tackOf 0 0 16] = stOK ∧ fetchFailed (ecbGo (keyRein 5)) (tackOf 0 0 16) = false ∧
      needFetch (ecbGo (keyRein 5)) (tackOf 0 0 16) = false ∧ useOverLimit (ecbGo (keyRein 5)) (tackOf 0 0 16) = false ∧
      useWithinBound (ecbGo (keyRein 5)) (tackOf 0 0 16) = true ∧ costSlices ecbBody 32 ≤ 1) ∧
    (cipherDenied (ecbGo Rein.zero) ecbReq ecbBody Rein.zero Rein.zero 32 = true ∧
      liveTack (ecbGo Rein.zero) 0 (reinHandle Rein.zero) = none ∧ windowStatus (ecbGo Rein.zero) [] = stOK) := by decide

/-- A result of window 0 of core 0, and one of descriptor 4 of queue 1 of function 2, both due. -/
def dueWin : Pend := { req := ecbReq, due := 5000000, status := 0, result := [] }
def dueHost : Pend := { req := { ecbReq with src := .host 2 1 4 }, due := 1, status := 5, result := [] }

theorem witness_ResultsAndServiceCommands_JobResultsAreDelivered : dueWin.due ≤ live.tick ∧ dueWin.status ≠ stUnitFenced ∧
    [dueHost, dueWin].find? (fun x => decide (x.req.src = .win 0 0)) = some dueWin ∧
    dueHost.due ≤ live.tick ∧ dueHost.status ≠ stUnitFenced ∧ hostTurn live (.host 2 1 4) = true ∧
    [dueHost, dueWin].find? (fun x => decide (x.req.src = .host 2 1 4)) = some dueHost := by decide

/-- 256 and the sum 512 are taken: 255 paddocks stage 2 each. -/
theorem witness_ResultsAndServiceCommands_CipherReservesAreBounded : coreMay live 0 true 0x100200028 = true ∧ coreMay live 0 true 0x100200030 = true ∧
    (256#32).toNat % 512 ≤ 256 ∧ 256 < (257#32).toNat % 512 ∧
    ((List.range 256).map (fun p => if p = live.cf.psel then (2#32).toNat % 1024 else Tab.get 2 live.cf.ctxStaged p)).sum ≤ 512 ∧
    512 < ((List.range 256).map (fun p => if p = live.cf.psel then (3#32).toNat % 1024 else Tab.get 2 live.cf.ctxStaged p)).sum := by
  decide +kernel

/-- For each operation: WORDS, CURVE, HASH, DSTT, LEN, AUX, the key tack and the slot to be filled. -/
def pkeCases : List (Nat × Nat × Nat × Nat × Bool × Nat × Nat × Tack × Tack) :=
  [(0x01, 16, 0, 0, false, 128, 0, tackOf 0x10 0 128, tackOf 0 0 16), (0x02, 16, 0, 0, false, 128, 0, tackOf 0x11 0 128, tackOf 0 0 16),
   (0x03, 16, 0, 1, false, 32, 0, tackOf 0x10 0 128, tackOf 0 0 16), (0x04, 16, 0, 1, false, 32, 0, tackOf 0x10 0 128, tackOf 0 0 16),
   (0x05, 16, 0, 1, false, 160, 0, tackOf 0x11 0 128, tackOf 0 0 16), (0x06, 16, 0, 1, false, 160, 0, tackOf 0x11 0 128, tackOf 0 0 16),
   (0x07, 16, 0, 1, false, 62, 0, tackOf 0x11 0 128, tackOf 0 0 16), (0x08, 16, 0, 1, false, 128, 0, tackOf 0x10 0 128, tackOf 0 0 16),
   (0x09, 1, 0, 0, false, 24, 0, tackOf 0 0 16, tackOf 0 0 16), (0x0A, 0, 9, 0, true, 256, 0, tackOf 0x17 9 64, tackOf 0 0 16),
   (0x10, 0, 1, 1, false, 32, 0, tackOf 0x12 1 32, tackOf 0 0 16), (0x11, 0, 1, 1, false, 96, 0, tackOf 0x13 1 32, tackOf 0 0 16),
   (0x12, 0, 1, 0, true, 64, 0, tackOf 0x12 1 32, tackOf 0 0 16), (0x13, 0, 7, 0, false, 1024, 0, tackOf 0x14 7 32, tackOf 0 0 16),
   (0x14, 0, 7, 0, false, 64, 0, tackOf 0x15 7 32, tackOf 0 0 16), (0x15, 0, 7, 0, true, 32, 0, tackOf 0x16 7 32, tackOf 0 0 16),
   (0x18, 0, 1, 0, true, 0, 0, tackOf 0 0 16, tackOf 0x12 1 32), (0x19, 32, 0, 0, true, 0, 65537, tackOf 0 0 16, tackOf 0x10 0 256)]

/-- The window of a case. -/
def pkeWin (e : Nat × Nat × Nat × Nat × Bool × Nat × Nat × Tack × Tack) : Win :=
  let (op, words, curve, hash, fill, len, aux, _, _) := e
  { winOf [op * 2 ^ 26 + words * 2 ^ 18 + curve * 2 ^ 14 + hash * 2 ^ 11 + b2n fill * 256, 0x10040000, if fill then 6 else 0x10050000,
      len + aux * 2 ^ 32, if 0x18 ≤ op then 0x10060000 else 0] with
    key := if opKeyless op then Rein.zero else keyRein 5, aux := if fill then keyRein 6 else Rein.zero }

/-- The state at a case's GO: its tack LIVE, its slot RESERVED, the entropy source good. -/
def pkeGo (e : Nat × Nat × Nat × Nat × Bool × Nat × Nat × Tack × Tack) : State :=
  let s := keyed [e.2.2.2.2.2.2.2.1, { e.2.2.2.2.2.2.2.2 with handle := 6, st := 1 }]
  started 1 0 0 (withWin 1 (pkeWin e) { s with pk := { s.pk with entropyOk := true } })

/-- What the statement asks of a case that runs. -/
def pkeRuns (e : Nat × Nat × Nat × Nat × Bool × Nat × Nat × Tack × Tack) : Bool :=
  let s := pkeGo e
  let b := winBody 1 0 0 s
  let x := getWin 1 0 0 s
  let kt := if pkeCites b then liveTack s 0 (reinHandle x.key) else none
  let dt := if pDstt b then getTack s 0 (pDst b) else none
  pOp b == e.1 && !pkeBad b true x.key.tag 0 && !pSrct b && !pHold b && !badHostRef s ecbReq (pSrc b) (pLen b) false &&
    !badHostRef s ecbReq (pDst b) (dstSpan b) true && !badHostRef s ecbReq (pDst2 b) (dst2Span b) true &&
    !pkeDenied s ecbReq b x.key x.aux && windowStatus s (kt.toList ++ dt.toList) == stOK &&
    kt.all (fun k => !fetchFailed s k && !needFetch s k && !useOverLimit s k && useWithinBound s k) && kt.isSome == pkeCites b &&
    dt.isSome == pDstt b && pkeCommands.any (fun p => p.1 == e.1)

/-- A job of each of the eighteen operations runs; with the entropy source failed, those that draw are turned away. -/
theorem witness_PkeJobIsAdmitted : pkeCases.length = 18 ∧ (∀ e ∈ pkeCases, pkeRuns e = true) ∧
    (opNoEntropy 0x10 = false ∧ live.pk.entropyOk = false) := by decide +kernel

/-- The first seed is due at once, one drawn just now not; the bank that PK_DIAG_SEL names holds no job, and may be poisoned. -/
theorem witness_ResultsAndServiceCommands_PkeServiceCommands :
    (live.pm.onCell = false ∧ 4 ≤ live.pm.step ∧ live.pk.drbgs = [] ∧
      ({ live with pk := { live.pk with drbgs := [(0, Drbg.empty)] } } : State).pk.drbgs ≠ []) ∧
    (({ Drbg.empty with count := 1, seeded := 4000000 } : Drbg).due live.tick = true ∧
      ({ Drbg.empty with count := 65537, seeded := live.tick } : Drbg).due live.tick = true ∧
      ({ Drbg.empty with count := 65536, seeded := 4000001 } : Drbg).due live.tick = false) ∧
    (coreMay live 0 false 0x100400030 = true ∧ (getCore live 0).warden = true ∧ diagBusy live = false ∧
      Tab.get false live.pk.poison 0 = false ∧ Tab.get false ({ live with pk := { live.pk with poison := [(0, true)] } } : State).pk.poison 0 = true) ∧
    (live.pk.entropyOk = false ∧ ({ live with pk := { live.pk with entropyOk := true } } : State).pk.entropyOk = true) := by
  decide


/-! ### The Stable -/

/-- `keyed` with an AES-256 tack, a quota of ten stalls, and stall 3 LOADING, 4 LOADING with what ARM asks for, 6 LIVE, all of
paddock 0. -/
def stalled : State :=
  let s := keyed [tackOf 2 0 32]
  putStall 6 0 [2, 1, 0, 0, 1] (putStall 4 0xE8 (natToLE 8 noEnd) (putStall 4 0x30 (natToLE 8 1 ++ natToLE 8 0xFFFFFFFF) (putStall 4 0x10
    (natToLE 4 5 ++ natToLE 2 1) (putStall 4 0 [1, 1, 0, 0, 1, 0, 0, 0, 16] (putStall 3 0 [1, 1, 0, 0, 1]
      { s with time := { s.time with mode := .locked }, st := { s.st with quota := [(0, 10)] } })))))

/-- A stall window's GO: OP, TYPE, stall, ADDR. -/
def stallGo (op typ n addr : Nat) : State := started 2 0 0 (withWin 2 (winOf [op + typ * 256 + n * 2 ^ 32, addr]) stalled)
/-- Its body and its status before any image is read. -/
def stallPre (op typ n addr : Nat) : Nat := stallStatus (stallGo op typ n addr) 0 none ecbReq.owns (winBody 2 0 0 (stallGo op typ n addr)) (some (zeros 256))

theorem witness_StallCommandsTakeEffect :
    (getWin 2 0 0 stalled).busy = false ∧ stalled.shedding = false ∧ stallPre 2 0 7 0x10040000 = stDenied ∧ stallPre 1 8 0 0 = stOK ∧
    (stallPre 2 0 3 0x10040000 = stOK ∧ (reqRead ecbReq 0x10040000 256 (stallGo 2 0 3 0x10040000)).1 = some (zeros 256)) ∧
    (stallPre 2 0 3 0x70000000 = stOK ∧ (reqRead ecbReq 0x70000000 256 (stallGo 2 0 3 0x70000000)).1 = none) ∧
    (stallPre 3 0 4 0 = stOK ∧ armWaits (stallGo 3 0 4 0) 0 4 = false ∧
      stallStatus (stallGo 3 0 4 0) 0 none ecbReq.owns (winBody 2 0 0 (stallGo 3 0 4 0)) (some []) = stOK) ∧
    (stallPre 4 0 6 0 = stOK ∧ stallPre 5 0 3 0 = stOK ∧ stallPre 6 0 6 0x10040000 = stOK ∧
      stallStatus (stallGo 6 0 6 0x10040000) 0 none ecbReq.owns (winBody 2 0 0 (stallGo 6 0 6 0x10040000)) (some []) = stOK) := by decide +kernel

theorem witness_StallEventsComplete_AllocDrawsFreeStall : 65535 < 65536 ∧ stallState stalled 65535 = 0 ∧ stallDrawn stalled 65535 = false := by decide +kernel

/-- Two results due, one of a window and one of a host's command. -/
def stallWin : StReq := { pend := dueWin, op := 5, stall := 3, addr := 0, snap := false }
def stallHost : StReq := { pend := dueHost, op := 4, stall := 6, addr := 0, snap := false }

theorem witness_ResultsAndServiceCommands_StallResultsAreDelivered : stallWin.pend.due ≤ live.tick ∧ stallWin.snap = false ∧ stallHost.pend.due ≤ live.tick ∧
    [stallHost, stallWin].find? (fun x => decide (x.pend.req.src = .win 0 0)) = some stallWin ∧
    [stallHost, stallWin].find? (fun x => decide (x.pend.req.src = .host 2 1 4)) = some stallHost ∧ hostTurn live (.host 2 1 4) = true := by
  decide

theorem witness_StallEventsComplete_RetiredStallsAreWiped : 65535 < 65536 ∧ Tab.get 0 live.st.since 65535 < live.tick ∧
    stallState (putStall 65535 0 [4] live) 65535 = 4 ∧ stallState (putStall 65535 0 [5] live) 65535 = 5 := by decide +kernel

/-- A LIVE stall of tack 5: UNTIL of the stall and of the tack, at the present stride and a microsecond later. -/
def stallUntil (stall tack : Nat) : State :=
  let s := keyed [{ tackOf 2 0 32 with untilT := tack }]
  putStall 6 0xE8 (natToLE 8 stall) (putStall 6 0x10 [5] (putStall 6 0 [2] { s with time := { s.time with mode := .locked } }))

theorem witness_StallEventsComplete_StallWindowsExpire :
    (stallState (stallUntil 3600000001000 3600000000000) 6 = 2 ∧ windowOver (stallUntil 3600000001000 3600000000000).time (0, 3600000000000) = true ∧
      windowOver (stallUntil 3600000001000 3600000000000).time (stallWindow (stallUntil 3600000001000 3600000000000) 6) = false) ∧
    (tackRec (stallUntil 3600000000000 3600000001000) (stallTack (stallUntil 3600000000000 3600000001000) 6) =
        some { tackOf 2 0 32 with untilT := 3600000001000 } ∧
      windowOver (stallUntil 3600000000000 3600000001000).time (0, 3600000001000) = false ∧
      windowOver (stallUntil 3600000000000 3600000001000).time (stallWindow (stallUntil 3600000000000 3600000001000) 6) = true) := by
  decide +kernel

/-- A quota of all 65,536 stalls is taken, one more is not, and one below the three in use is not. -/
theorem witness_StallEventsComplete_StableRegisterCommands : coreMay stalled 0 true 0x100300028 = true ∧ coreMay stalled 0 false 0x100300040 = true ∧
    Tab.total stalled.st.quota (fun q k => if q = stalled.st.psel then 0 else k) + (65536#32).toNat % 131072 ≤ 65536 ∧
    stallsUsed stalled stalled.st.psel ≤ (3#32).toNat % 131072 ∧ (2#32).toNat % 131072 < stallsUsed stalled stalled.st.psel ∧
    65536 < Tab.total stalled.st.quota (fun q k => if q = stalled.st.psel then 0 else k) + (65537#32).toNat % 131072 ∧
    stalled.st.expq = [] := by decide +kernel


/-! ### Cinch transactions -/

/-- `keyed` with quotas of four Cinches, 32 actions and 8 pages for paddock 0, and slot 2 as given. -/
def cinched (x : Cinch) : State :=
  let s := keyed [tackOf 2 0 32]
  { s with
    time := { s.time with mode := .locked, eff := [(shareKey 3 0, 256)] },
    cn := { s.cn with quotaOpen := [(0, 4)], quotaAct := [(0, 32)], quotaHold := [(0, 8)], slots := [(2, x)] } }

/-- Slot 2 OPEN, DURABLE, with SEQ 1, of core 0 and paddock 0. -/
def opened : Cinch := { Cinch.free with st := 1, seq := 1, durable := true, gen := 1 }
/-- Its handle. -/
def handle2 : Nat := cinchHandle opened 2

/-- A Cinch window of core 0. -/
def cinchWin (opc h : Nat) (ws : List Nat) : Win := { winOf ws with opc := BitVec.ofNat 32 opc, handle := BitVec.ofNat 32 h }
/-- Its GO taken over a slot 2. -/
def cinchGo (x : Cinch) (opc h : Nat) (ws : List Nat) : State := started 4 0 0 (withWin 4 (cinchWin opc h ws) (cinched x))
/-- Its body. -/
def cinchBody (opc h : Nat) (ws : List Nat) : List Byte := winBody 4 0 0 (cinchGo opened opc h ws)

theorem witness_CinchRequestsAct_CinchOpenTakesFreeSlot :
    (getWin 4 0 0 (withWin 4 (cinchWin 1 0 [1]) (cinched opened))).busy = false ∧ (cinched opened).shedding = false ∧
    (getWin 4 0 0 (withWin 4 (cinchWin 1 0 [1]) (cinched opened))).opc = 1 ∧ byteAt (cinchBody 1 0 [1]) 0 ≤ 1 ∧
    zeroSpan (cinchBody 1 0 [1]) 1 63 = true ∧ ((cinchGo opened 1 0 [1]).paddock 0).st = 1 ∧
    openUsed (cinchGo opened 1 0 [1]) 0 < Tab.get 0 (cinched opened).cn.quotaOpen 0 ∧ freeSlot (cinchGo opened 1 0 [1]) = some 0 ∧
    (cinched opened).pm.nandFail = false := by decide +kernel

/-- What the statement asks of a STAGE whose body is `ws`. -/
def stageRuns (ws : List Nat) (typ : Nat) : Bool :=
  let s := { cinchGo opened 2 handle2 ws with cn := { (cinchGo opened 2 handle2 ws).cn with counters := [(9, { value := 1, limit := 3, dseq := 0 })] } }
  let b := winBody 4 0 0 s
  let a := stageAction b (getWin 4 0 0 s).key
  handleOk s ecbReq 0 handle2 true && (getCinch s 2).st == 1 && a.typ == typ &&
    stageStatus s 2 (getCinch s 2) a (stageBodyBad b) (some (zeros 256)) none == stOK && a.typ != 1 &&
    (field b 0x18 4 == 0 || ((cinchRead ecbReq (field b 0x10 8) (field b 0x18 4) s).1.isSome &&
      !(cinchRead ecbReq (field b 0x10 8) (field b 0x18 4) s).2.1))

/-- COUNTER_ADD that reaches the limit of counter 9 exactly, and an INSERT of 440 bytes. -/
theorem witness_CinchRequestsAct_CinchStageAddsAction : handle2 % 4096 = 2 ∧ stageRuns [0x900000103, 2] 3 = true ∧
    stageRuns [0x104, 0, 0x10040000, 440] 4 = true := by decide +kernel

/-- A CARD_RPMB action on slot 1 of the saddlebag. -/
def cardAct : Action :=
  { typ := 7, sub := 1, obj := 1, arg := 0, inl := [], data := zeros 256, key := Rein.zero, tack := 0, stall := 0, pages := 1,
    cidHash := 0, wstaged := 6, held := none }
/-- Slot 2 in a later state with some actions. -/
def inState (st : Nat) (as : List Action) : Cinch := { opened with st := st, actions := as, batchDurable := true }

theorem witness_CinchRequestsAct_CinchRequestsAct :
    (handleOk (cinchGo opened 3 handle2 []) ecbReq 0 handle2 true = true ∧ (getCinch (cinchGo opened 3 handle2 []) (handle2 % 4096)).st = 1 ∧
      zeroSpan (cinchBody 3 handle2 []) 0 64 = true ∧ (BitVec.ofNat 32 handle2).toNat = handle2) ∧
    (zeroSpan (cinchBody 6 0 [0xFF00000000, 0, 0, 0]) 0 4 = true ∧ field (cinchBody 6 0 [0xFF00000000, 0, 0, 0]) 4 4 ≤ 255 ∧
      zeroSpan (cinchBody 6 0 [0xFF00000000, 0, 0, 0]) 8 8 = true ∧ zeroSpan (cinchBody 6 0 [0xFF00000000, 0, 0, 0]) 0x18 4 = true ∧
      zeroSpan (cinchBody 6 0 [0xFF00000000, 0, 0, 0]) 0x3C 4 = true ∧ (cinched opened).pm.nandFail = false) ∧
    (handleOk (cinchGo (inState 5 [cardAct]) 7 handle2 []) ecbReq 0 handle2 false = true ∧
      (getCinch (cinchGo (inState 5 [cardAct]) 7 handle2 []) (handle2 % 4096)).st = 5 ∧ byteAt (cinchBody 7 handle2 []) 0 = 0 ∧
      zeroSpan (cinchBody 7 handle2 []) 1 63 = true ∧ (inState 5 [cardAct]).outcomeForced = 0) ∧
    (byteAt (cinchBody 7 handle2 [4]) 0 ≤ 4 ∧
      (extAction (inState 5 [{ cardAct with typ := 8 }])).any (fun p => p.2.typ == 7) = false) := by decide +kernel

/-- A LOOKUP of table 1 that waits for the record store. -/
def lookup : CnReq := { cnReq ecbReq 0 6 4096 0 1 none with waitsStore := true, dest := 0x10040000, vkey := zeros 32, table := 1 }
/-- A VAULT INSERT and a CARD_RPMB STAGE that wait. -/
def insertReq : CnReq :=
  { cnReq ecbReq 0 2 2 handle2 1 none with waitsStore := true, act := some { cardAct with typ := 4, inl := zeros 32, data := [1] } }
def counterReq : CnReq := { cnReq ecbReq 0 2 2 handle2 1 none with waitsCard := true, act := some cardAct }
/-- A request whose result is ready and says ENDED. -/
def endedReq : CnReq := cnReq ecbReq 0 3 2 handle2 1 (some (cinchHead stAborted 7 1 255 handle2 0))
/-- A Cinch of slot 2 with one waiting request. -/
def asked (x : Cinch) (q : CnReq) : State := { cinched x with cn := { (cinched x).cn with reqs := [q] } }
/-- The record that LOOKUP asks for. -/
def withRecord (s : State) : State :=
  { s with cn := { s.cn with vault := [{ paddock := 0, table := 1, key := zeros 32, value := some [7, 8], dseq := 3 }] } }
/-- A READY card in slot 1. -/
def carded (s : State) : State :=
  { s with cd := { s.cd with mc := [(1, { McSlot.reset with ready := true, powered := true, secCount := 4096 })] } }

theorem witness_CinchAnswersComplete :
    ((asked opened lookup).cn.reqs.find? (fun x => x.core == 0 && x.waitsStore) = some lookup ∧ lookup.opc = 6 ∧
      vaultValue (asked opened lookup) 0 1 (zeros 32) = none ∧ vaultValue (withRecord (asked opened lookup)) 0 1 (zeros 32) = some [7, 8] ∧
      (reqWrite ecbReq 0x10040000 [7, 8] (withRecord (asked opened lookup))).1 = true) ∧
    ((asked opened insertReq).cn.reqs.find? (fun x => x.core == 0 && x.waitsStore) = some insertReq ∧ insertReq.opc ≠ 6 ∧
      insertReq.readFault = false ∧ (getCinch (cinched opened) 2).st = 1 ∧
      recordStatus (cinched opened) 2 (getCinch (cinched opened) 2) { cardAct with typ := 4, inl := zeros 32, data := [1] } insertReq.rows false =
        stOK) ∧
    ((asked opened counterReq).cn.reqs.find? (fun x => x.core == 0 && x.waitsCard && x.opc == 2) = some counterReq ∧
      (getMc (carded (asked opened counterReq)) 1).ready = true ∧ (getMc (carded (asked opened counterReq)) 1).expired = false) ∧
    ((asked (inState 7 []) endedReq).cn.reqs.find? (fun x => x.core == 0) = some endedReq ∧ endedReq.due ≤ live.tick ∧
      endedReq.waitsStore = false ∧ endedReq.waitsCard = false ∧ byteAt (cinchHead stAborted 7 1 255 handle2 0) 1 = 7 ∧
      (getCinch (asked (inState 7 []) endedReq) 2).st = 7 ∧ cinchHandle (getCinch (asked (inState 7 []) endedReq) 2) 2 = endedReq.handle) := by
  decide +kernel

/-- A COMMITTING Cinch whose envelope is durable. -/
def committing (durable : Bool) (as : List Action) : Cinch :=
  { opened with st := 2, durable := durable, commitAt := 4999999, commitPending := true, envelopeDurable := true, actions := as }
/-- A TACK_RETIRE of tack 5, and of a tack that is not there. -/
def retireAct (h : Nat) : Action := { cardAct with typ := 2, sub := 2, obj := 0, data := [], tack := h, pages := 0, key := keyRein h }

theorem witness_CinchDecidesAndApplies :
    (decisionReady (cinched (committing true [retireAct 5])) (committing true [retireAct 5]) = true ∧
      commitSlotFree (cinched (committing true [retireAct 5])) 0 = true ∧
      failingAction (cinched (committing true [retireAct 5])) 2 (committing true [retireAct 5]) = none) ∧
    (decisionReady (cinched (committing false [])) (committing false []) = true ∧
      failingAction (cinched (committing false [])) 2 (committing false []) = none ∧
      decisionReady (cinched (committing false [retireAct 9])) (committing false [retireAct 9]) = true ∧
      failingAction (cinched (committing false [retireAct 9])) 2 (committing false [retireAct 9]) = some 0) ∧
    (live.stride - 1 < live.stride ∧ live.cn.ckptNext = none) ∧
    (({ inState 5 [] with outcome := 3, outcomeForced := 1, outcomeDurable := true } : Cinch).outcomeDurable = true ∧
      ({ inState 4 [] with outcome := 1 } : Cinch).applyDue ≤ live.tick) ∧
    ((inState 3 []).st = 3 ∧ (inState 3 []).batchDurable = true ∧ (inState 3 []).applyDue ≤ live.tick ∧ (inState 3 []).external = false) ∧
    ((getCinch (cinched opened) 2).openedAt + cinchTimeout (cinched opened) ≤ (cinched opened).tick ∧ opened.cmd = none ∧
      opened.undecided = true ∧ opened.abortCause = 0 ∧ (inState 7 []).openedAt + cinchTimeout live ≤ live.tick) := by decide +kernel

/-- The CID hash that the READY card gives, whatever the hash function is. -/
def cardHash : Nat := cidHash []
/-- A CARD_RPMB action staged on that card, and a TOKEN action of the contactless interface. -/
def staged : Action := { cardAct with cidHash := cardHash }
def tokenAct : Action := { cardAct with typ := 8, obj := 4 }

/-- The tag's answers: a token that is not there, and a counter that a response carries. -/
def tokenAns : ExAnswer := ⟨0, [], 0x6300, 0, [], [0, 6]⟩

theorem witness_ExternalWritesSettle :
    (extAction (inState 3 [staged]) = some (0, staged) ∧ exBusy (carded (cinched (inState 3 [staged]))) (extCode staged) = false ∧
      (getMc (carded (cinched (inState 3 [staged]))) 1).ready = true) ∧
    (cidHash (getMc (carded (cinched (inState 3 [staged]))) 1).cid = staged.cidHash) ∧
    (cidHash (getMc (carded (cinched (inState 3 [staged]))) 1).cid ≠ ({ staged with cidHash := cardHash + 1 } : Action).cidHash) ∧
    (staged.obj < 2 ∧ (getMc ({ carded (cinched (inState 4 [staged])) with cd := { live.cd with
      mc := [(1, { McSlot.reset with ready := true, ext := some 2 })] } } : State) staged.obj).ext = some 2) ∧
    (extAction (inState 4 [tokenAct]) = some (0, tokenAct) ∧ tokenAns.sw / 256 = 0x63 ∧
      ({ cinched (inState 4 [tokenAct]) with nf := { live.nf with ext := some 2 } } : State).nf.ext = some 2) ∧
    (extAction (inState 3 [tokenAct]) = some (0, tokenAct) ∧ live.nf.resetting = false) ∧
    (extAction (inState 5 [staged]) = some (0, staged) ∧ (inState 5 [staged]).outcomeForced = 0) := by
  refine ⟨⟨rfl, by decide +kernel, by decide +kernel⟩, rfl, Nat.ne_of_lt (Nat.lt_succ_self _), ⟨by decide, by decide +kernel⟩,
    ⟨by decide +kernel, by decide +kernel, by decide +kernel⟩, ⟨by decide +kernel, rfl⟩, rfl, by decide +kernel⟩

theorem witness_CinchServiceCommands :
    (({ cinched (inState 5 []) with cn := { (cinched (inState 5 [])).cn with forceHandle := BitVec.ofNat 32 handle2 } } : State).cn.forceHandle.toNat
        % 4096 = 2 ∧ (getCinch (cinched (inState 5 [])) 2).st = 5 ∧
      cinchHandle (getCinch (cinched (inState 5 [])) 2) 2 = (BitVec.ofNat 32 handle2).toNat ∧ (inState 5 []).outcomeForced = 0) ∧
    ((getCinch live (live.cn.forceHandle.toNat % 4096)).st ≠ 5) ∧
    (({ live with time := { live.time with executed := 5 * 2 ^ 20 } } : State).tick % 2 ^ 20 = 0 ∧ live.cn.ckptNext = none) ∧
    ((getCore live 0).warden = true ∧ coreMay live 0 false 0x100500050 = true ∧ coreMay live 0 true 0x100500030 = true ∧
      coreMay live 0 true 0x100500028 = true) ∧
    (Tab.total live.cn.quotaHold (fun q k => if q = live.cn.psel then 0 else k) + (1024#32).toNat % 2048 ≤ 1024 ∧
      holdUsed live live.cn.psel ≤ 1024 ∧
      1024 < Tab.total live.cn.quotaHold (fun q k => if q = live.cn.psel then 0 else k) + (1025#32).toNat % 2048) ∧
    (natBits (0x10008000#32).toNat 16 13 = 4096 ∧ natBits (0x10008000#32).toNat 0 16 = 32768 ∧
      openUsed live live.cn.psel ≤ 4096 ∧ actionsUsed live live.cn.psel ≤ 32768) := by decide +kernel


/-! ### Tack custody -/

/-- Tack 5 LIVE, tack 7 FILLED, tack 8 RESERVED; quotas of eight entries, units and vault entries. -/
def custody : State :=
  let s := keyed [tackOf 2 0 32, { tackOf 0 0 16 with handle := 7, st := 2 }, { tackOf 0 0 16 with handle := 8, st := 1 }]
  { s with tk := { s.tk with quota := [(0, 8 + 8 * 2 ^ 17)], vquota := [(0, 8)], nextIndex := 20 } }

/-- The attribute block of an AES-128 tack, put at 0x10040000. -/
def blockBytes : List Byte := [0, 0, 16, 0, 3, 0, 1, 0] ++ zeros 16 ++ natToLE 8 noEnd ++ natToLE 8 noEnd ++ zeros 24
/-- The block of tack 5 with fewer usages. -/
def narrowBytes : List Byte := attrBlock { tackOf 2 0 32 with usage := 1 }
/-- A tack window's GO: OP, ARG, handle, ADDR. -/
def tackGo (op arg h addr : Nat) : State :=
  started 3 0 0 (withWin 3 (winOf [op + arg * 256 + h * 2 ^ 32, addr])
    (putBytes (putBytes custody 0x10040000 blockBytes) 0x10040100 narrowBytes))
/-- Its status with a block. -/
def tackSt (op arg h addr : Nat) (blk : Option (List Byte)) : Nat :=
  tackStatus (tackGo op arg h addr) 0 ecbReq.owns (winBody 3 0 0 (tackGo op arg h addr)) blk

theorem witness_TackCommandsTakeEffect :
    (getWin 3 0 0 custody).busy = false ∧ custody.shedding = false ∧ freeSlot custody = some 0 ∧ tackSt 5 0 9 0 (some []) = stDenied ∧
    (tackSt 1 0 0 0x10040000 none = stMediaError ∧ (reqRead ecbReq 0x10040000 64 (tackGo 1 0 0 0x10040000)).1 = some blockBytes ∧
      tackSt 1 0 0 0x10040000 (some blockBytes) = stOK) ∧
    (tackSt 2 0 7 0 (some []) = stOK ∧ tackSt 3 0 5 0 (some []) = stOK ∧ tackSt 3 0 8 0 (some []) = stOK ∧
      tackSt 5 1 5 0 (some []) = stOK ∧ tackSt 6 0 5 0x10050000 (some []) = stOK) ∧
    (reqWrite ecbReq 0x10050000 (describeBytes (tackOf 2 0 32)) (tackGo 6 0 5 0x10050000)).1 = true ∧
    (tackSt 4 0 5 0x10040100 none = stMediaError ∧ (reqRead ecbReq 0x10040100 64 (tackGo 4 0 5 0x10040100)).1 = some narrowBytes ∧
      tackSt 4 0 5 0x10040100 (some narrowBytes) = stOK) := by decide +kernel

theorem witness_TackEventsComplete_ReserveTakesFreeHandle : findHandle custody (envelopeSlots (byteAt blockBytes 0) (field blockBytes 2 2)) = some 20 ∧
    (reserveTack 0 blockBytes false custody).1 = 20 ∧
    findHandle { custody with tk := { custody.tk with nextIndex := 0x0FFFFFFF } } 1 = some 0x0FFFFFFF := by decide +kernel

theorem witness_TackEventsComplete_TackEventsComplete :
    ([dueHost, dueWin].find? (fun x => decide (x.req.src = .win 0 0)) = some dueWin ∧ dueWin.due ≤ live.tick ∧ dueWin.req.src = .win 0 0 ∧
      [dueHost, dueWin].find? (fun x => decide (x.req.src = .host 2 1 4)) = some dueHost ∧ dueHost.req.src = .host 2 1 4) ∧
    (tackRec custody 8 = some { tackOf 0 0 16 with handle := 8, st := 1 } ∧ 0 + rsvEff custody ≤ custody.tick ∧
      installCites custody 8 = false) ∧
    (cacheRoom custody { tackOf 2 0 32 with resident := false, fetching := true } = true ∧ custody.pm.nandFail = false) ∧
    (coreMay custody 0 false 0x100600070 = true ∧ (getCore custody 0).paddock = 0 ∧ getTack custody 0 5 = some (tackOf 2 0 32) ∧
      BitVec.ofNat 16 0x3FF &&& ~~~(BitVec.ofNat 16 (tackOf 2 0 32).usage) = 0 ∧
      natBits ((5#64).toNat + (0x3FF0000#64).toNat * 2 ^ 64) 0 32 = 5 ∧ natBits ((5#64).toNat + (0x3FF0000#64).toNat * 2 ^ 64) 80 16 = 0x3FF) ∧
    (coreMay custody 0 true 0x100600038 = true ∧ coreMay custody 0 true 0x100600030 = true ∧
      Tab.total custody.tk.vquota (fun q k => if q = custody.tk.psel then 0 else k) + (0xFFFFFFF#32).toNat % 2 ^ 28 ≤ 2 ^ 28 ∧
      vaultUsed custody custody.tk.psel ≤ 0xFFFFFFF ∧ entriesUsed custody custody.tk.psel ≤ natBits (0x80010000#32).toNat 0 17 ∧
      natBits (0x80010000#32).toNat 0 17 = 65536 ∧ natBits (0x80010000#32).toNat 17 15 = 16384 ∧
      unitsUsed custody custody.tk.psel ≤ 16384) := by decide +kernel

/-- A CREATE of paddock 9 and a DELETE and REVOKE of paddock 0 asked for a stride ago. -/
def actOn (p a : Nat) : PadAct := { paddock := p, act := a, asked := 4999999, cred := 1 }

theorem witness_PaddockActsComplete_PaddockActsComplete : actAccepted custody 255 1 = true ∧ actAccepted custody 0 2 = true ∧ actAccepted custody 0 3 = true ∧
    [actOn 0 3, actOn 9 1].find? (fun x => x.paddock == 9) = some (actOn 9 1) ∧ (actOn 9 1).asked < custody.tick ∧
    (({ custody with tk := { custody.tk with paddocks := [(9, { Paddock.absent with st := 2 })] } } : State).paddock 9).st = 2 := by decide +kernel

theorem witness_PaddockActsComplete_RevocationAdvancesGeneration : [actOn 0 3].find? (fun x => x.paddock == 0) = some (actOn 0 3) ∧
    (actOn 0 3).asked < custody.tick ∧ (custody.paddock 0).gen < 0xFFFF ∧ (Rein.make true 1 0 1 3 16 0).isWarden = false ∧
    (Rein.make true 1 0 1 3 16 0).pad = 0 ∧ (Rein.make true 1 0 1 3 16 0).gen = (custody.paddock 0).gen := by decide +kernel

/-- `carded` custody with three custodians and an act asked for by credential 1. -/
def quorate (act : Nat) : State :=
  let s := carded custody
  { s with
    tk := { s.tk with custodians := (List.range 3).map (fun i => (i + 1, { ident := [], idsrc := 0, key := [] })) },
    od := { s.od with actKind := act, actCred := 1 } }
/-- The same with the saddlebag key sealed in its record. -/
def bagged (act : Nat) : State :=
  { quorate act with tk := { (quorate act).tk with sbRec := some (keyRecord (zeros 32) 1 (zeros 32)), sbShares := some (2, 3) } }
/-- A JOIN session of two shares out of three that holds custodian 1's share and waits for custodian 3's. -/
def joining (m : Nat) : Quorum :=
  { openAt := 3600000000000, act := 3, cred := 1, m := m, n := 3, kid := keyId (shamirJoin [(1, zeros 32)]), next := (0, 0),
    acc := [(1, zeros 32)], addr := 0, record := [], image := [], dev := zeros 48, places := [] }
/-- A SPLIT whose share writes have all committed. -/
def splitDone : QuorumJob := { act := 1, key := zeros 32, m := 2, n := 3, gen := 0, sums := [], todo := [], slot := none }

theorem bagged_sbKey (act : Nat) : (bagged act).sbKey = some (takePad 32 (zeros 32)) :=
  openRecord_keyRecord (bagged act) 1 (zeros 32) (zeros 32) rfl rfl

theorem witness_QuorumActsComplete :
    (actAsked (quorate 1) 1 1 = true ∧ (quorate 1).tk.sbRec = none ∧ (quorate 1).keepPresent = true ∧ sharesOk (quorate 1) 2 3 = true ∧
      quorumBusy (quorate 1) = false ∧ enrolCustodians [] (quorate 1) = quorate 1 ∧ actAsked (quorate 3) 3 1 = true ∧
      actAsked (quorate 5) 5 1 = true) ∧
    ((bagged 4).sbKey = some (takePad 32 (zeros 32)) ∧ (bagged 4).tk.sbShares = some (2, 3) ∧ actAsked (bagged 4) 4 1 = true ∧
      sharesOk (bagged 4) 3 3 = true ∧ quorumBusy (bagged 4) = false) ∧
    ((joining 2).opened (quorate 0) = true ∧ (quorate 0).tk.job = none ∧ (∀ e ∈ (joining 2).acc, e.1 ≠ 3) ∧
      keyId (shamirJoin (joining 2).acc) = (joining 2).kid ∧ (joining 2).act = 3 ∧ ({ joining 2 with act := 5 } : Quorum).act = 5 ∧
      (([] : List Byte).drop 0x10).take 48 ≠ takePad 48 (1 :: zeros 47)) ∧
    (keyId (shamirJoin (joining 2).acc) ≠ ({ joining 2 with kid := (joining 2).kid + 1 } : Quorum).kid) ∧
    (splitDone.slot = none ∧ splitDone.todo = [] ∧ (quorate 0).tk.keep = some (zeros 32)) ∧
    ((bagged 2).sbKey = some (takePad 32 (zeros 32)) ∧ actAsked (bagged 2) 2 1 = true ∧ quorumBusy (bagged 2) = false ∧
      (getMc (bagged 2) 1).ready = true ∧ nextImage [] = (1, 0) ∧ nextImage ([1, 1, 0, 0, 5, 0, 0, 0] ++ zeros 248) = (6, 0) ∧
      (backupImage (bagged 2) (zeros 32) 1 [1] (backupTacks (bagged 2) [1])).length ≤
        (((getMc (bagged 2) 1).secCount - 2048) / 2) * 512 ∧ imageCrc [1] ≠ imageCrc []) ∧
    (({ joining 2 with openAt := 0 } : Quorum).opened ({ quorate 0 with tk := { (quorate 0).tk with qwin := 0 } } : State) = false) := by
  refine ⟨by decide +kernel, ⟨bagged_sbKey 4, by decide +kernel, by decide +kernel, by decide +kernel, by decide +kernel⟩,
    ⟨by decide +kernel, by decide +kernel, by decide +kernel, rfl, rfl, rfl, by decide⟩, Nat.ne_of_lt (Nat.lt_succ_self _),
    ⟨rfl, rfl, rfl⟩, ⟨bagged_sbKey 2, by decide +kernel, by decide +kernel, by decide +kernel, by decide, by decide +kernel, ?_,
      by decide +kernel⟩, by decide +kernel⟩
  have h0 : backupTacks (bagged 2) [1] = [] := by decide +kernel
  have h : (backupImage (bagged 2) (zeros 32) 1 [1] []).length = 64 := by
    simp only [backupImage, List.zipIdx_nil, List.flatMap_nil, List.append_nil, List.length_append]; rfl
  rw [h0, h]; decide +kernel

/-! ### Host queues -/

/-- A 64-byte descriptor of a class with a body, its check value formed for a sequence number. -/
def descOf (cls seq : Nat) (body : List Byte) : List Byte :=
  let d := takePad 60 ([BitVec.ofNat 8 cls, 0, 7, 0, 0, 0, 0, 0] ++ body)
  d ++ natToLE 4 (seqCrc seq d)

/-- An ACTIVE queue 1 of function 0 with 16 entries, holding what has arrived. -/
def queueOf (as : List (Nat × Option (List Byte))) : Queue :=
  { Queue.absent with st := 1, seq := 4, seqAdm := 3, tail := 5, readTo := 5, arrived := as }
/-- `live0` with it and an allotment. -/
def queued (q : Queue) : State :=
  { live0 with cq := { live0.cq with
    funcs := [(0, { Func.reset with adm := 4, quota := 4, vectors := 4, qsel := 2 })],
    queues := [(1, q), (2, { Queue.absent with cfg := 0x00040001 })] } }

theorem witness_DescriptorsAreAdmitted_HostFormsAdmitTheirDescriptor :
    (getQueue (queued (queueOf [(3, some (descOf 6 3 [1]))])) 0 1).arrived = [(3, some (descOf 6 3 [1]))] ∧ dClass (descOf 6 3 [1]) = 6 ∧
    byteAt (dBody (descOf 6 3 [1])) 0 = 1 ∧ (dClass (descOf 2 3 (natToLE 4 (0x19 * 2 ^ 26))) = 2 ∧
      pOp (dBody (descOf 2 3 (natToLE 4 (0x19 * 2 ^ 26)))) = 0x19) ∧ (dClass (descOf 1 3 []) = 1) ∧
    (dClass (descOf 3 3 [6]) = 3 ∧ byteAt (dBody (descOf 3 3 [6])) 0 = 6) ∧ (dClass (descOf 4 3 [1]) = 4 ∧ byteAt (dBody (descOf 4 3 [1])) 0 = 1) ∧
    (dClass (descOf 6 3 [2]) = 6 ∧ byteAt (dBody (descOf 6 3 [2])) 0 = 2) := by decide +kernel

/-- What the statement asks of the head descriptor of queue 1. -/
def headReady (data : Option (List Byte)) : Bool :=
  let s := queued (queueOf [(3, data)])
  admitOpen s 0 && !((serveOrder s 0).takeWhile (fun p => p != 1)).any (fun p => (tryHead 0 p s).1) && (getQueue s 0 1).st == 1 &&
    (getQueue s 0 1).room && data.all (fun d => seqCrc 3 (d.take 0x3C) == field d 0x3C 4)

theorem witness_DescriptorsAreAdmitted_DescriptorsAreAdmitted :
    headReady none = true ∧ (headReady (some (descOf 6 4 [1])) = false ∧ seqCrc 3 ((descOf 6 4 [1]).take 0x3C) ≠ field (descOf 6 4 [1]) 0x3C 4) ∧
    (headReady (some (descOf 7 3 [])) = true ∧ dBad (descOf 7 3 []) = true) ∧
    (headReady (some (descOf 5 3 [])) = true ∧ dBad (descOf 5 3 []) = false ∧ ((queued (queueOf [])).paddock 0).st = 1 ∧
      (live.paddock 0).st ≠ 1 ∧ (1, 3) ∉ (getFunc (queued (queueOf [])) 0).cancels ∧ natBit (byteAt (descOf 5 3 []) 1) 0 = false ∧
      (fwFifo (queued (queueOf [])) 0).length < 256) ∧
    (headReady (some (descOf 6 3 [1])) = true ∧ dBad (descOf 6 3 [1]) = false) ∧
    (headReady (some (descOf 6 3 [2, 0, 1])) = true ∧ dBad (descOf 6 3 [2, 0, 1]) = false ∧
      (getFunc (queued (queueOf [])) 0).cancels.length < 16) := by decide +kernel

theorem witness_QueuesFollowCommands_QueuesFollowCommands :
    (funcReady (queued (queueOf [])) 0 = true ∧ (getFunc (queued (queueOf [])) 0).qsel = 2 ∧ createRefused (queued (queueOf [])) 0 2 = false ∧
      createRefused live0 0 2 = true ∧ (getQueue (queued (queueOf [])) 0 1).st = 1) ∧
    (({ queueOf [] with st := 3 } : Queue).admitted = [] ∧ ({ queueOf [] with st := 3 } : Queue).changeAt ≤ live.tick) ∧
    (bellTaken (queued (queueOf [])) 0 1 = true ∧ ({ queueOf [] with sqDoors := [15] } : Queue).sqDoors = [15#32] ∧ (queueOf []).size = 16 ∧
      (queueOf []).event = false ∧ (15#32).toNat < (queueOf []).size ∧ (queueOf []).size ≤ (16#32).toNat ∧
      ({ queueOf [] with cqDoors := [3], cqSeq := 3 } : Queue).cqDoors = [3#32] ∧
      ({ queueOf [] with cqSeq := 3 } : Queue).cqUsed + cqHeadMove { queueOf [] with cqSeq := 3 } (3#32).toNat ≤ 3) ∧
    ((queueOf []).seq % (queueOf []).size ≠ (queueOf []).readTo ∧ (queueOf []).changeAt ≤ live.tick) := by decide +kernel

theorem witness_QueuesFollowCommands_BarsReadAsListed : (3 : Nat) < 256 ∧ (511 : Nat) < 512 ∧ (0x48 : Nat) ≤ 0x48 ∧ (3 : Nat) ≠ 0 ∧
    bar0Read (queued (queueOf [])) 0 0 4 = 0x01000004 ∧ bar0Read (queued (queueOf [])) 0 0x28 4 = 0x00040001 := by
  decide +kernel

/-- A firmware entry. -/
def fwEntry : FwEntry := { fn := 0, q := 1, seq := 3, desc := [], order := 1, redelivered := false, cancelled := false, gone := false }

theorem witness_HostEventsComplete :
    (({ queueOf [] with msgDue := true, lastMsg := some 4999999 } : Queue).msgDue = true ∧
      4999999 + max 1 (queueOf []).coal ≤ live.tick) ∧
    (Tab.get false ({ Func.reset with pendMsg := [(4095, true)], msixEn := true } : Func).pendMsg 4095 = true ∧
      Tab.wf false ({ Func.reset with pendMsg := [(4095, true)], msixEn := true } : Func).pendMsg = true ∧ Func.reset.msixMask = false ∧
      Func.reset.d3hot = false ∧ hostTurn live (.host 0 1 3) = true) ∧
    (0 < live.stride ∧ eventQueue (queued { queueOf [] with cfg := 0x00048000 }) 0 = some 1 ∧
      (getQueue (queued { queueOf [] with cfg := 0x00048000 }) 0 1).room = true) ∧
    ((List.range 4).find? (fun i => (Tab.get none (getFwWin live 0).held i).isNone) = some 0 ∧
      fwFifo { live with cq := { live.cq with fifo := [(0, [fwEntry])] } } (getCore live 0).paddock = [fwEntry]) ∧
    (Tab.get none (getFwWin { live with cq := { live.cq with fwWins := [(0, { FwWin.reset with held := [(3, some fwEntry)] })] } } 0).held 3 =
      some fwEntry) ∧
    ((∀ p ∈ live.cq.comps, p.due ≤ live.tick) ∧ (getFunc live 0).resetAsked = none ∧ (getFunc live 0).readyAt ≤ live.tick ∧
      live.pm.step = 15 ∧ State.reset.pm.step ≠ 15 ∧ 16 ∈ [1, 2, 4, 8, 16]) ∧
    (wardenMay live 0 0x100700030 = true ∧ wardenMay live 0 0x100700028 = true ∧
      live.cq.allotA.foldl (fun a p => a + p.2) 0 - Tab.get 0 live.cq.allotA live.cq.psel + natBits (1024#32).toNat 0 11 ≤ 1024 ∧
      natBits (0x10001000#32).toNat 0 13 = 4096 ∧ natBits (0x10001000#32).toNat 16 13 = 4096 ∧ queueUse live live.cq.psel ≤ 4096 ∧
      vectorUse live live.cq.psel ≤ 4096) := by decide +kernel

/-! ### Inline ports -/

/-- Pair 0 enabled with bypass of unmatched frames and PAUSE, both of its links up, and a frame that waits. -/
def ported (rx : List RxFrame) : State :=
  { stalled with il := { stalled.il with portcfg := [(0, 0x1F1), (3, 1)], link := [(0, 0x11)], rx := rx } }
/-- A frame of 60 bytes with an EtherType. -/
def frameOf (et : List Byte) : RxFrame :=
  { pair := 0, sub := 0, outbound := true, bytes := takePad 60 (zeros 12 ++ et), fcsOk := true, at_ := 1 }
/-- The LOADING stall 3 with a key of a transmit stall. -/
def txStall (s : State) : State := { s with st := { s.st with keys := [(3, 1 :: zeros 26)] } }
/-- An egress queue whose head is ready. -/
def egressOf : TxFrame := { bytes := zeros 60, block := 1, guarded := false, ready := 5000000 }

theorem witness_FramesArriveAndLeave :
    (portLive (ported []) 0 0 = true ∧ portLive (ported []) 3 0 = true ∧ (ported []).shedding = false ∧ pauseQuanta (zeros 60) = none ∧
      ({ ported [] with tm := { live.tm with shedStart := some 5000000 } } : State).shedding = true) ∧
    (nextFrame (ported [frameOf [8, 0]]) = some (frameOf [8, 0]) ∧ classify (frameOf [8, 0]) (ported []) = .bypass ∧
      (portSubs (ported []) 0).contains 0 = true ∧ bufFill (ported []) 0 true + 60 + 4 ≤ bufSize) ∧
    (nextFrame (txStall (ported [frameOf [8, 0]])) = some (frameOf [8, 0]) ∧
      classify (frameOf [8, 0]) (txStall (ported [])) = .job (jobMacsecOut (frameOf [8, 0]) 3 (txStall (ported []))) ∧
      rowsBefore (frameOf [8, 0]) (jobMacsecOut (frameOf [8, 0]) 3 (ported [])) 0 (ported []) = some 7) ∧
    (Tab.get [] [(1, [egressOf])] (ilBlock 0 0 true) = [egressOf] ∧ egressOf.ready ≤ (ported []).tick ∧
      Tab.get 0 (ported []).il.halted (ilBlock 0 0 false) = 0 ∧ egressUp (ported []) 0 0 true = true ∧
      egressUp (ported []) 3 0 true = false) := by decide +kernel

/-- XOFF at 0 KiB with a frame queued. -/
def full : State :=
  { ported [] with il := { (ported []).il with xoff := 0, egress := [(1, [egressOf])], halted := [(1, 3600000001000)] } }

theorem witness_PortsFollowPauseAndLink : (portLive full 0 0 = true ∧ full.shedding = false ∧ portBit full 0 8 = true ∧
      portBit full 3 8 = false) ∧
    (Tab.get 0 full.il.halted (ilBlock 0 0 true) ≠ 0 ∧ Tab.get 0 full.il.halted (ilBlock 0 0 true) ≤ full.time.now + 1000) ∧
    (portBit full 0 0 = true ∧ bufAbove full 0 true = true ∧
      Tab.get 0 full.il.pauseAt (2 * 0 + b2n true) + (if broken full 0 then 160 else 40) ≤ full.tick) ∧
    (0 ∈ portSubs full 3 ∧ coreMay full 0 true (0x100800100 + 8 * 3) = true) := by decide +kernel


/-! ### Pacer instructions -/

/-- A Warden memory rein with every permission. -/
def memRein (len base : Nat) : Rein := Rein.make true 1 0 0x41 0x7F len base

/-- Core 0 at the Warden level in ROM. G1 = 7, G2 = 9, G3 = 12, G4 holds a stray nibble, G5 = 16. K1 covers local SRAM, K2 is
untagged, K3 names the frame buffer, K4 registers, K5 tagged memory with a poisoned word at 0x20, K15 a data stack. -/
def armed : State :=
  let s := onCore (fun k => { k with g := [(1, 7), (2, 9), (3, 12), (4, 0xA5), (5, 16)], dsp := 0x40, k := [(1, memRein 0x100 0x10040000),
    (3, memRein 0x100 0x60000000), (4, memRein 0x1000000 0x100000000), (5, memRein 0x100 0x10040000), (14, resetCodeRein),
    (15, memRein 0x40 0x10041000)] }) live0
  { s with mem := { s.mem with poison := [(0x10040020 / 8, true)] } }
/-- The same with a doubleword store in the write buffer, at an address. -/
def storing (a : Nat) : State :=
  onCore (fun k => { k with wbuf := [{ addr := a, width := 8, val := 0x1122334455667788, paddock := 0, warden := true }] }) armed

theorem reaches_armed : reaches 0 armed := by unfold reaches boundaryClear; decide +kernel
theorem names_armed (is : List Nat) : mayName 0 armed is := fun _ _ => .inl (by decide)

theorem witness_RegisterFormsCompute : reaches 0 armed := reaches_armed

/-- The example word of R253, written out by its fields: op 0x23, r = G10, K3, a = G0, imm9 = 2. -/
theorem witness_WordsSpellInstructions :
    decodeWord 0 (0x23 * 2 ^ 25 + 10 * 2 ^ 19 + 3 * 2 ^ 15 + 0 * 2 ^ 9 + 2) = some (.ld64 0 0x0A 0x3 0x00 0x002) ∧
    encodeWord (.ld64 0 0x0A 0x3 0x00 0x002) = some 0x46518002 := by decide +kernel

/-- A checked operand with a stray nibble, with and without DTRAP, and an unchecked one. -/
theorem witness_DecimalFormsCompute_DecimalFormsCompute : reaches 0 (onCore (fun k => { k with status := 0x203 }) armed) ∧ reaches 0 armed ∧
    ((getCore (onCore (fun k => { k with status := 0x203 }) armed) 0).dtrap = true ∧ strayMask (genReg armed 0 4) ≠ 0) ∧
    (getCore armed 0).dtrap = false ∧ strayMask (genReg armed 0 2) = 0 ∧ (16#6).toNat ≤ 16 ∧ 16 < (17#6).toNat :=
  ⟨by unfold reaches boundaryClear; decide +kernel, reaches_armed, by decide⟩
theorem witness_DecimalFormsCompute_DecimalSumsAreModular : reaches 0 armed ∧ allDigits (genReg armed 0 1) ∧ allDigits (genReg armed 0 2) :=
  ⟨reaches_armed, by unfold allDigits; decide⟩
/-- A core away from LEND, and one that stands there for the last time. -/
theorem witness_RegisterFormsFrame : 0 < 26 ∧ (getCore live 0).lcount = 0 ∧
    ((getCore (onCore (fun k => { k with lcount := 1 }) live) 0).lcount = 1 ∧ (getCore (onCore (fun k => { k with lcount := 1 }) live) 0).pc = 0) := by
  decide

theorem witness_LoadsReadMemory : reaches 0 armed ∧ mayName 0 armed [1] ∧
    reinCheck armed 0 1 0 8 [permLoad] = none ∧ reinCheck armed 0 2 0 8 [permLoad] = some 2 ∧ reinCheck armed 0 1 0xF9 8 [permLoad] = some 3 ∧
    (reinCheck armed 0 4 0 1 [permLoad] = none ∧ csrWidthBad (reinAddr armed 0 4 0) 1 = true) ∧
    firstRefused armed (coreAccess armed 0) false false (reinAddr armed 0 3 0) 8 = some (0x60000000, 4) ∧
    reinCheck armed 0 3 0 8 [permLoad] = none ∧
    (firstRefused armed (coreAccess armed 0) false false (reinAddr armed 0 4 0) 8 = none ∧ isCsr (reinAddr armed 0 4 0) = true ∧
      csrWidthBad (reinAddr armed 0 4 0) 8 = false ∧ reinCheck armed 0 4 0 8 [permLoad] = none ∧
      (getCore (storesBefore 0 (reinAddr armed 0 4 0) 8 (stepSpent 0 armed)) 0).halted = false) ∧
    (firstRefused armed (coreAccess armed 0) false false (reinAddr armed 0 1 0) 8 = none ∧ isCsr (reinAddr armed 0 1 0) = false ∧
      meetsPoison (storesBefore 0 (reinAddr armed 0 1 0) 8 (stepSpent 0 armed)) (reinAddr armed 0 1 0) 8 = false ∧
      meetsPoison (storesBefore 0 (reinAddr armed 0 1 0x20) 8 (stepSpent 0 armed)) (reinAddr armed 0 1 0x20) 8 = true) :=
  ⟨reaches_armed, names_armed _, by decide +kernel⟩

/-- Offset 0xF8 is the last one of K1. -/
theorem witness_StoresReachMemory_StoresEnterWriteBuffer : reaches 0 armed ∧ mayName 0 armed [1] ∧ reinCheck armed 0 1 0xF8 8 [permStore] = none ∧
    csrWidthBad (reinAddr armed 0 1 0xF8) 8 = false ∧ reinCheck armed 0 1 0xF9 8 [permStore] = some 3 ∧
    (reinCheck armed 0 4 2 2 [permStore] = none ∧ csrWidthBad (reinAddr armed 0 4 2) 2 = true) :=
  ⟨reaches_armed, names_armed _, by decide +kernel⟩

/-- A store to local SRAM, and a byte for the frame buffer that the Bridle unit refuses. -/
theorem witness_StoresReachMemory_BufferedStoresArePerformed : (getCore armed 0).wbuf = [] ∧
    (firstRefused armed { unit := 0, paddock := 0, cls := 1 } true false 0x10040000 8 = none ∧ (∀ i < 8, isSram (0x10040000 + i) = true) ∧
      meetsPoison armed 0x10040000 8 = false ∧ (0x1122334455667788#64).toNat < 2 ^ (8 * 8) ∧ isCsr 0x10040000 = false) ∧
    ∃ code, firstRefused armed { unit := 0, paddock := 0, cls := 1 } true false 0x60000000 1 = some (0x60000000, code) :=
  ⟨by decide, by decide +kernel, 4, by decide +kernel⟩

theorem witness_StackAndReinTransfers : reaches 0 armed ∧ (getCore armed 0).wbuf = [] ∧ mayName 0 armed [15] ∧ mayName 0 armed [5, 1] ∧
    (reinCheck armed 0 15 ((getCore armed 0).dsp - 8).toNat 8 [permStore] = none ∧
      csrWidthBad (reinAddr armed 0 15 ((getCore armed 0).dsp - 8).toNat) 8 = false ∧
      reinCheck armed 0 15 (getCore armed 0).dsp.toNat 8 [permLoad] = some 3) ∧
    (let s := onCore (fun k => { k with dsp := 0 }) armed
     reinCheck s 0 15 ((getCore s 0).dsp - 8).toNat 8 [permStore] = some 3 ∧ reinCheck s 0 15 0 8 [permLoad] = none ∧
      isCsr (reinAddr s 0 15 0) = false ∧ firstRefused s (coreAccess s 0) false false (reinAddr s 0 15 0) 8 = none ∧
      meetsPoison s (reinAddr s 0 15 0) 8 = false) ∧
    (reinCheck armed 0 2 0 16 [permLoadRein] = some 2 ∧ reinCheck armed 0 2 0 16 [permStoreRein] = some 2 ∧
      reinCheck armed 0 4 0 16 [permLoadRein] = none ∧ reinCheck armed 0 4 0 16 [permStoreRein] = none ∧
      isCsr (reinAddr armed 0 4 0) = true ∧ reinField (reinAddr armed 0 4 0) = none) ∧
    ((reinField (reinAddr armed 0 4 0x910000)).isSome = true ∧ reinCheck armed 0 4 0x910000 16 [permLoadRein] = none ∧
      reinCheck armed 0 4 0x910000 16 [permStoreRein] = none ∧
      firstRefused armed (coreAccess armed 0) true false (reinAddr armed 0 4 0x910000) 16 = none ∧
      firstRefused armed (coreAccess armed 0) false false (reinAddr armed 0 4 0x910000) 16 = none) ∧
    (reinCheck armed 0 5 0xF0 16 [permLoadRein] = none ∧ reinCheck armed 0 5 0xF0 16 [permStoreRein] = none ∧
      isTagged (reinAddr armed 0 5 0xF0) = true ∧ firstRefused armed (coreAccess armed 0) true false (reinAddr armed 0 5 0xF0) 16 = none ∧
      firstRefused armed (coreAccess armed 0) false false (reinAddr armed 0 5 0xF0) 16 = none ∧
      meetsPoison armed (reinAddr armed 0 5 0xF0) 16 = false) :=
  ⟨reaches_armed, by decide, names_armed _, names_armed _, by decide +kernel⟩

/-- A RETURN entry and a FRAME entry as `armed` makes them, and one whose copies disagree. -/
def returnEntry : RsEntry := mkEntry armed (returnWords 0x44)
def frameEntry : RsEntry := mkEntry armed (frameWords (getCore armed 0) 0x48)
def torn (e : RsEntry) : RsEntry := { e with shad := [] }
/-- `armed` with this return stack. -/
def onStack (es : List RsEntry) : State := onCore (fun k => { k with onchip := es }) armed
/-- `armed` at LEND of an armed loop. -/
def atLend : State := onCore (fun k => { k with lcount := 2 }) armed

theorem reaches_onStack : ∀ es ∈ [[], [returnEntry], [frameEntry], [torn returnEntry], [torn frameEntry]], reaches 0 (onStack es) := by
  unfold reaches boundaryClear; decide +kernel

theorem witness_BranchesLoopsAndCalls : reaches 0 armed ∧ (reaches 0 atLend ∧ (getCore atLend 0).atEnd = true) ∧ (getCore armed 0).atEnd = false ∧
    (genReg armed 0 0 = 0 ∧ genReg armed 0 1 ≠ 0) ∧ ((0#19).toInt < 1 ∧ 1024 < (1025#19).toInt ∧ 1 ≤ (1#19).toInt ∧ (1024#19).toInt ≤ 1024) ∧
    (mayName 0 armed [5] ∧ reinCheck armed 0 5 0xFC 4 [permExec] = none ∧ csrWidthBad (reinAddr armed 0 5 0xFC) 4 = false ∧
      reinCheck armed 0 5 0x100 4 [permExec] = some 3) ∧
    ((getCore armed 0).onchip.length < 64 ∧ (getCore armed 0).onchip = [] ∧ (getCore armed 0).spilled = 0) ∧
    (frameEntry.kind ≠ 1 ∧ returnEntry.kind = 1 ∧ entryGood (onStack [returnEntry]) returnEntry = true ∧
      (torn returnEntry).kind = 1 ∧ entryGood (onStack [torn returnEntry]) (torn returnEntry) = false) :=
  ⟨reaches_armed, ⟨by unfold reaches boundaryClear; decide +kernel, by decide⟩, by decide, by decide, by decide,
    ⟨names_armed _, by decide +kernel⟩, by decide, by decide +kernel⟩

/-- Interrupts 0 and 9, the lowest and the highest, each alone; an imprecise fault at the highest address. -/
theorem witness_ExceptionsPushAndRestoreFrames_ExceptionsPushFrames : reaches 0 armed ∧ (getCore armed 0).atEnd = false ∧ (getCore armed 0).onchip.length < 64 ∧
    (let s := onCore (fun k => { k with imprecise := some 0xFFFFFFFFFF }) armed
     coreRuns s 0 = true ∧ (getCore s 0).imprecise = some 0xFFFFFFFFFF ∧ (getCore s 0).onchip.length < 64) ∧
    (∀ i ∈ [0, 9], let s := onCore (fun k => { k with status := 0x200, ie := BitVec.ofNat 32 (2 ^ i), pend := BitVec.ofNat 32 (2 ^ i) }) armed
     coreRuns s 0 = true ∧ (getCore s 0).imprecise = none ∧ (getCore s 0).masked = false ∧ (getCore s 0).ie.getLsbD i = true ∧
      (getCore s 0).pend.getLsbD i = true ∧ ∀ j < i, (getCore s 0).ie.getLsbD j = false ∨ (getCore s 0).pend.getLsbD j = false) :=
  ⟨reaches_armed, by decide +kernel⟩

/-- `armed` at the paddock level, in local SRAM that region 0 of its Bridle unit opens to it. -/
def lowered : State :=
  let s := onCore (fun k => { k with status := 0, k := [(14, Rein.make true 1 0 0x01 5 0x1000 0x10040000)], pc := 0x10040040 }) armed
  { s with br := { s.br with rgn := [(0, BitVec.ofNat 64 (2 ^ 63 + 7 * 2 ^ 58 + 0x10000 * 2 ^ 30 + 0xE))] } }

theorem witness_ExceptionsPushAndRestoreFrames_WretRestoresFrame : reaches 0 armed ∧ (getCore armed 0).atEnd = false ∧ (reaches 0 lowered ∧ (getCore lowered 0).warden = false) ∧
    ((getCore armed 0).warden = true ∧ (getCore armed 0).onchip = [] ∧ (getCore armed 0).spilled = 0) ∧
    (returnEntry.kind ≠ 2 ∧ frameEntry.kind = 2 ∧ entryGood (onStack [frameEntry]) frameEntry = true ∧ (torn frameEntry).kind = 2 ∧
      entryGood (onStack [torn frameEntry]) (torn frameEntry) = false) :=
  ⟨reaches_armed, by decide, ⟨by unfold reaches boundaryClear; decide +kernel, by decide⟩, by decide, by decide +kernel⟩

theorem witness_SystemInstructions : reaches 0 armed ∧ reaches 0 lowered ∧ (reaches 0 atLend ∧ (getCore atLend 0).atEnd = true) ∧
    ((getCore armed 0).atEnd = false ∧ (getCore armed 0).warden = true ∧ (getCore lowered 0).warden = false) ∧
    ((getCore (storesDrain 0 (stepSpent 0 (storing 0x10040000))) 0).halted = false ∧ reaches 0 (storing 0x10040000) ∧
      ∀ b ∈ (getCore (storing 0x10040000) 0).wbuf, isCsr b.addr = false) :=
  ⟨reaches_armed, by unfold reaches boundaryClear; decide +kernel, ⟨by unfold reaches boundaryClear; decide +kernel, by decide⟩, by decide,
    by decide +kernel, by unfold reaches boundaryClear; decide +kernel, by decide +kernel⟩


/-- `armed` with further reins: K6 of 15 bytes, K7 sealed, K8 a sealed door of paddock 0, K9 a CVU rein, K10 of another generation,
K11 of paddock 3, K12 of no kind. -/
def reined : State :=
  { onCore (fun k => { k with k := Tab.setSlice Rein.zero k.k 6 [memRein 15 0x10040100, Rein.make true 1 0 0xC1 0x7F 64 0x10040200,
      Rein.make true 1 0 0x84 3 64 0x10042000, Rein.make true 1 0 0x03 3 0 0x0C05, Rein.make true 2 0 0x41 0x7F 64 0x10040200,
      Rein.make true 1 3 0x41 0x7F 64 0x10040200, Rein.make true 1 0 0x40 0x7F 64 0x10040200] }) armed with
    us := { live.us with units := live.us.units ++ [(389, unitOn)] },
    cv := { live.cv with units := [(5, { CvRec.reset with own := 1 })] } }
/-- Rein register `i` of core 0 in it. -/
def kOf (i : Nat) : Rein := (getCore reined 0).getK i
theorem reaches_reined : reaches 0 reined := by unfold reaches boundaryClear; decide +kernel
theorem names_reined (is : List Nat) : mayName 0 reined is := fun _ _ => .inl (by decide)

/-- KBOUND of 16 bytes passes K1 and exceeds K6; at the paddock level K7 is a Warden rein. -/
theorem witness_ReinFormsAct : reaches 0 reined ∧ mayName 0 reined [1, 7] ∧ (kOf 2).tag = false ∧
    ((kOf 7).tag = true ∧ (kOf 7).isSealed = true ∧ (kOf 8).kind = 4 ∧ (kOf 8).tag = true ∧ (kOf 12).kind < 1 ∧ (kOf 12).tag = true) ∧
    ((kOf 6).tag = true ∧ (kOf 6).kind = 1 ∧ (kOf 6).isSealed = false ∧ (kOf 6).len < (genReg reined 0 1).toNat + (genReg reined 0 2).toNat) ∧
    ((kOf 1).tag = true ∧ (kOf 1).kind = 1 ∧ (kOf 1).isSealed = false ∧ (genReg reined 0 1).toNat + (genReg reined 0 2).toNat ≤ (kOf 1).len) ∧
    (let s := onCore (fun k => { k with k := Tab.set Rein.zero k.k 7 (kOf 7) }) lowered
     reaches 0 s ∧ (getCore s 0).warden = false ∧ ((getCore s 0).getK 7).tag = true ∧ ((getCore s 0).getK 7).isWarden = true) ∧ 16 ≤ (16#6).toNat :=
  ⟨reaches_reined, names_reined _, by decide, by decide, by decide, by decide, ⟨by unfold reaches boundaryClear; decide +kernel, by decide⟩, by decide⟩

/-- K1 seals K6 and unseals K7; K2 is untagged, K10 of an old generation, K7 itself sealed, K11 of another paddock. -/
theorem witness_SealingChecksInOrder : reaches 0 reined ∧ mayName 0 reined [6, 1] ∧ (kOf 2).tag = false ∧
    ((kOf 1).tag = true ∧ (kOf 1).genOk reined = true ∧ (kOf 10).tag = true ∧ (kOf 10).genOk reined = false) ∧
    ((kOf 7).isSealed = true ∧ (kOf 7).genOk reined = true ∧ (kOf 11).pad ≠ (kOf 1).pad ∧ (kOf 11).genOk reined = true ∧ (kOf 11).kind = 1) ∧
    (¬ ((kOf 1).isSealed = true ∨ (kOf 1).kind ≠ 1 ∨ natBit (kOf 1).perm 5 = false) ∧ natBit (kOf 1).perm 6 = true ∧
      (∀ d ∈ [6, 7], ¬ ((kOf d).pad ≠ (kOf 1).pad ∨ (kOf d).isWarden ≠ (kOf 1).isWarden) ∧ 1 ≤ (kOf d).kind ∧ (kOf d).kind ≤ 5 ∧
        (kOf d).tag = true ∧ (kOf d).genOk reined = true) ∧ (kOf 6).isSealed = false) :=
  ⟨reaches_reined, names_reined _, by decide +kernel⟩

/-- Doors: K8 passes; its variants fail one check each, LEN 12 being too short for ENTRY 3. -/
theorem witness_EnterPassesDoors : reaches 0 reined ∧ (getCore reined 0).atEnd = false ∧ mayName 0 reined [8] ∧ (getCore reined 0).wbuf = [] ∧
    ((kOf 8).tag = true ∧ ¬ ((kOf 8).kind ≠ 4 ∨ (kOf 8).isSealed = false ∨ (kOf 8).isWarden = true) ∧
      ¬ ((reined.paddock (kOf 8).pad).st ≠ 1 ∨ (reined.paddock (kOf 8).pad).gen ≠ (kOf 8).gen) ∧ 4 * (kOf 8).perm < (kOf 8).len ∧
      (kOf 8).base % 4 = 0) ∧
    ((kOf 2).tag = false ∧ (kOf 1).kind ≠ 4 ∧ (Rein.make true 2 0 0x84 3 64 0x10042000).gen ≠ (reined.paddock 0).gen ∧
      (Rein.make true 1 0 0x84 3 12 0x10042000).len ≤ 4 * (Rein.make true 1 0 0x84 3 12 0x10042000).perm ∧
      (Rein.make true 1 0 0x84 3 64 0x10042002).base % 4 ≠ 0) :=
  ⟨reaches_reined, by decide, names_reined _, by decide +kernel⟩

/-- Core 0 before a string instruction of `n` bytes from offset `o` of K1 to offset 0 of K6, SPAT 0x55. -/
def stringy (n o : Nat) : State :=
  onCore (fun k => { k with g := Tab.setSlice 0 k.g 56 [0, BitVec.ofNat 64 o, BitVec.ofNat 64 n, 0x55] }) reined
theorem chunk_of {s : State} {spans : List (BitVec 6 × Nat)} {m : Nat} (h : 0 < m ∧ m ≤ 64 ∧ m ≤ ((getCore s 0).getG 58).toNat ∧
    (∀ i < m, 0 < i → ∀ p ∈ spans, spanAt s 0 p.1 p.2 i % 64 ≠ 0) ∧
    (m = 64 ∨ m = ((getCore s 0).getG 58).toNat ∨ ∃ p ∈ spans, spanAt s 0 p.1 p.2 m % 64 = 0)) : isChunk s 0 spans m :=
  ⟨h.1, h.2.1, h.2.2.1, fun i a b => h.2.2.2.1 i b a, h.2.2.2.2⟩

/-- Three bytes; the first equal on both sides, and a second that is the pattern. -/
theorem witness_StringChunksAdvance : reaches 0 (stringy 3 0) ∧ (getCore (stringy 3 0) 0).wbuf = [] ∧ mayName 0 (stringy 3 0) [6, 1, 9] ∧
    (reaches 0 (stringy 0 0) ∧ (getCore (stringy 0 0) 0).getG 58 = 0) ∧
    (isChunk (stringy 3 0) 0 [(6, 56), (1, 57)] 3 ∧ isChunk (stringy 3 0) 0 [(1, 57)] 3 ∧ isChunk (stringy 3 0) 0 [(6, 56)] 3 ∧
      ∀ i < 3, bytePasses (stringy 3 0) 0 1 57 true false i ∧ bytePasses (stringy 3 0) 0 6 56 true true i ∧
        bytePasses (stringy 3 0) 0 6 56 true false i ∧ bytePasses (stringy 3 0) 0 6 56 false true i) ∧
    (meetsPoison (stringy 3 0) (spanAt (stringy 3 0) 0 1 57 0) 3 = false ∧ meetsPoison (stringy 3 0) (spanAt (stringy 3 0) 0 6 56 0) 3 = false ∧
      (∀ i < 3, isSram (spanAt (stringy 3 0) 0 6 56 i) = true) ∧
      (∀ i < 3, plainByte (stringy 3 0) (spanAt (stringy 3 0) 0 6 56 i) = plainByte (stringy 3 0) (spanAt (stringy 3 0) 0 1 57 i)) ∧
      ∀ i < 3, plainByte (stringy 3 0) (spanAt (stringy 3 0) 0 1 57 i) ≠ ((getCore (stringy 3 0) 0).getG 59).setWidth 8) ∧
    (let s := putByte (stringy 3 0) 0x10040001 0x55
     plainByte s (spanAt s 0 6 56 0) = plainByte s (spanAt s 0 1 57 0) ∧ plainByte s (spanAt s 0 6 56 1) ≠ plainByte s (spanAt s 0 1 57 1) ∧
      plainByte s (spanAt s 0 1 57 1) = ((getCore s 0).getG 59).setWidth 8) ∧
    (cvUnitOf (kOf 9) = some 5 ∧ (kOf 9).tag = true ∧ (kOf 9).genOk reined = true ∧ (kOf 9).isSealed = false ∧ cvRefused reined (kOf 9) = false ∧
      cvBusy reined 5 = false) ∧
    (isChunk (stringy 3 0xFF) 0 [(1, 57)] 1 ∧ isChunk (stringy 3 0x100) 0 [(1, 57)] 3 ∧
      reinCheck (stringy 3 0x100) 0 1 (0x100 + 0) 1 [permLoad] = some 3) := by
  refine ⟨by unfold reaches boundaryClear; decide +kernel, by decide, fun _ _ => .inl (by decide),
    ⟨by unfold reaches boundaryClear; decide +kernel, by decide⟩, ⟨chunk_of (by decide +kernel), chunk_of (by decide +kernel),
      chunk_of (by decide +kernel), by unfold bytePasses; decide +kernel⟩, by decide +kernel, by decide +kernel, by decide +kernel,
    chunk_of (by decide +kernel), chunk_of (by decide +kernel), by decide +kernel⟩

/-! ### The monitor and a core's service -/

/-- The FRAME of an interrupted paddock context. -/
def userFrame : RsEntry := mkEntry live0 (frameWords { Core.reset with status := 0 } 0x10040044)
/-- Core 0 at WARDEN_ENTRY from the paddock level with a cause, a WINFO and K0, K1; tack 5 of the paddock is LIVE; logical core 0 is
core 0, and paddock 0 owns all its slots. -/
def handling (cause info : Nat) (k0 k1 : Rein) : State :=
  let s := onCore (fun k => { k with
    pc := 0x100, wcause := BitVec.ofNat 64 cause, winfo := BitVec.ofNat 64 info, onchip := [userFrame], g := [(2, 5), (3, 3)],
    k := [(0, k0), (1, k1), (14, resetCodeRein)] }) (keyed [tackOf 2 0 32])
  { s with us := { s.us with maps := [(256, 1)] }, time := { s.time with eff := [(shareKey 2 0, 6144)] } }
/-- A sealed door of paddock 0, and an event-queue rein of core 1. -/
def door0 : Rein := Rein.make true 1 0 0x84 3 64 0x10042000
def queueOf1 : Rein := Rein.make true 1 0 0x05 2 0 1
/-- A context that a door handler interrupted. -/
def savedCtx : SavedCtx :=
  { g := [], k := [], dsp := 0, pc := 0x10040000, status := 0, lstart := 0, lend := 0, lcount := 0, stack := [] }

theorem atHandler_handling : ∀ cause ∈ [1, 0x0B, 0x10, 0x12, 0x20], ∀ n ∈ [0, 1, 2, 3, 4, 5], ∀ k0 ∈ [Rein.zero, door0, queueOf1],
    atHandler (handling cause n k0 door0) 0 cause userFrame [] := by
  unfold atHandler; decide +kernel

theorem witness_MonitorServesTraps_MonitorServesTraps :
    (atHandler (handling 0x10 0 Rein.zero door0) 0 0x10 userFrame [] ∧ (getCore (handling 0x10 1 Rein.zero door0) 0).winfo.toNat % 64 = 1) ∧
    (Tab.get none (handling 0x10 1 Rein.zero door0).pc.handler (ctxKey 0 0) = none ∧
      Tab.get none [(ctxKey 0 0, some savedCtx)] (ctxKey 0 0) = some savedCtx ∧ savedCtx.stack.length ≤ 64) ∧
    (doorGiven (handling 0x10 2 door0 door0) 0 door0 = true ∧ doorGiven (handling 0x10 2 Rein.zero door0) 0 Rein.zero = false) ∧
    (queueGiven (handling 0x10 3 Rein.zero door0) Rein.zero = false ∧ queueGiven (handling 0x10 3 queueOf1 door0) queueOf1 = true ∧
      queueOf1.base % 32 = 1 ∧ (getCore (handling 0x10 3 queueOf1 door0) 1).pend.getLsbD 9 = false ∧
      ({ Core.reset with pend := 0x200 } : Core).pend.getLsbD 9 = true) ∧
    ((mintKeyRein (handling 0x10 4 Rein.zero door0) 0 5 3).tag = true ∧ (mintKeyRein (handling 0x10 4 Rein.zero door0) 0 6 3).tag = false) ∧
    (atHandler (handling 0x20 0 Rein.zero door0) 0 0x20 userFrame [] ∧
      (logicalOf (handling 0x20 0 Rein.zero door0) 2 0).bind (fun l => slotOwner (handling 0x20 0 Rein.zero door0) l
        (handling 0x20 0 Rein.zero door0).stride) = some 0) ∧
    (Tab.get Rein.zero (handling 0x0B 0 Rein.zero door0).pc.faultDoor (ctxKey 0 0) = Rein.zero ∧
      atHandler (handling 0x0B 0 Rein.zero door0) 0 0x0B userFrame [] ∧ atHandler (handling 0x12 0 Rein.zero door0) 0 0x12 userFrame []) :=
  ⟨⟨atHandler_handling _ (by simp) _ (by simp) _ (by simp), by decide⟩, by decide, by decide +kernel, by decide +kernel, by decide +kernel,
    ⟨atHandler_handling _ (by simp) _ (by simp) _ (by simp), by decide +kernel⟩, by decide,
    atHandler_handling _ (by simp) _ (by simp) _ (by simp), atHandler_handling _ (by simp) _ (by simp) _ (by simp)⟩

theorem witness_MonitorServesTraps_MonitorAnswersAnyStack :
    (∀ n ∈ [0, 1, 2, 3, 4], (frameCtx (handling 0x10 n door0 door0) 0).isSome = true ∧ atTrap (handling 0x10 n door0 door0) 0 n = true) ∧
    (let s := handling 0x10 0 door0 door0
     stackBad s (getCore s 0) = none) := by decide +kernel

/-- The mask budget of 2,000 cycles holds at 2,000 and is exceeded at 2,001. -/
theorem witness_CoreServiceCommands :
    ((getCore live 0).halted = false ∧ (getCore (onCore (fun k => { k with timer := BitVec.ofNat 64 live.stride }) live) 0).timer.toNat =
      (onCore (fun k => { k with timer := BitVec.ofNat 64 live.stride }) live).stride) ∧
    (let s := onCore (fun k => { k with ie := 1, pend := 1 }) live
     (getCore s 0).halted = false ∧ (getCore s 0).masked = true ∧ (getCore s 0).wanted = true ∧ (getUnit s 2 0).st = 1 ∧
      2000 ≤ min (max s.pc.maskBud.toNat 100) 20000 ∧ min (max s.pc.maskBud.toNat 100) 20000 < 2001) ∧
    (wardenMay live 0 0x100900020 = true ∧ (0x1A501#32).toNat / 256 % 256 = 0xA5 ∧ (0x1A501#32).toNat % 32 = 1 ∧ (getUnit live 2 1).st = 1 ∧
      (0x100#32).toNat / 256 % 256 ≠ 0xA5) ∧
    (wardenMay live 0 (0x100910000 + 0x100 * 25 + 0x30) = true ∧ (getCore live 25).pend.getLsbD 9 = false ∧
      (getCore (onCore (fun k => { k with pend := 0x200 }) live) 0).pend.getLsbD 9 = true ∧
      wardenMay live 0 (0x100910000 + 0x100 * 25) = true ∧ wardenMay live 0 (0x100910000 + 0x100 * 25 + 0x10) = true) ∧
    ((getCore live 25).spilled = 0 ∧ ¬ (({ Core.reset with spilled := 1 } : Core).spilled = 0 ∨
      (Rein.zero.base = ({ Core.reset with spilled := 1 } : Core).spill.base ∧ ({ Core.reset with spilled := 1 } : Core).spilled * 128 ≤ Rein.zero.len))) ∧
    (getCore (asPaddock live) 0).warden = false := by decide +kernel


/-! ### Vault storage, check values, cards and the contactless front end -/

/-- A change of the Vault's records. -/
def inVault (f : VaultUnit → VaultUnit) (s : State) : State := { s with fv := f s.fv }
/-- A staged record that is in its log page but not in the map. -/
def stagedRec : StageRec := { store := 0, paddock := 0, key := 9, dseq := 3, page := false, map := false, pca := 0 }

/-- Sector 511 in use in the reserve, with INDEX 1 and SSEQ 7. -/
def reserved : State :=
  inVault (fun v => { v with nor := [(511 * 8192, twiceWord (511 * 65536) (5 * 2 ^ 40 + 2 ^ 32 + 7) true)] }) live

/-- The first slot of that sector, and a record of the longest payload. -/
theorem witness_StorageCommandsComplete_ReserveCopyReadsBack : 0x100 ≤ (511 * 65536 + 0x100) % 65536 ∧ (511 * 65536 + 0x100) % 256 = 0 ∧ 255 < 256 ∧
    2 ^ 24 - 1 < 2 ^ 24 ∧ (List.replicate 28 (1#64)).length ≤ 28 ∧
    (∀ j < 32, norWord reserved (511 * 65536 + 0x100 + 8 * j) = 0xFFFFFFFFFFFFFFFF) ∧
    sectorRetired reserved ((511 * 65536 + 0x100) / 65536) = false ∧
    (sectorRole reserved ((511 * 65536 + 0x100) / 65536)).any (fun e => e.1 == 5) = true := by decide +kernel

/-- The last sector and the first TLC block; 40 erase loops stand and 41 retire. Stack 2 is lost in the second state. -/
theorem witness_StorageCommandsComplete_StorageCommandsComplete :
    (0x1FF0008 / 65536 < 512 ∧ 0x1FF0008 % 8 = 0 ∧ sectorRetired live 511 = false ∧ Tab.get 0 live.fv.norProg (0x1FF0010 / 8) = 0 ∧
      (5#64) &&& ~~~(norWord live 0x1FF0010) = 0 ∧ 16 < 17 ∧ 0x1FF0010 % 65536 ≠ 8) ∧
    (40 ≤ live.fv.retireCfg.toNat / 2 ^ 24 % 2 ^ 8 ∧ live.fv.retireCfg.toNat / 2 ^ 24 % 2 ^ 8 < 41) ∧
    (0x3FFFFFFF < 2 ^ 30 ∧ Tab.get false live.fv.retired (blkKey (pcaStack 0x3FFFFFFF) (pcaBlk 0x3FFFFFFF)) = false ∧
      Tab.get false live.fv.lost (pcaStack 0x3FFFFFFF) = false ∧ (getCinch (cinched (committing false [])) 2).holds = true) ∧
    (Tab.get false live.fv.retired (blkKey 3 4095) = false ∧ Tab.get false live.fv.lost 3 = false) ∧
    (sectorRole reserved 511 = some (5, 1, 7, true) ∧ sectorRole live 511 = none ∧ pcaSlc 0 = false ∧ pcaSlc 0x3FFFFFFF = true ∧
      stageHolds 3 4095 live.fv.stage = false ∧ stageHolds (pcaStack 0) (pcaBlk 0) [stagedRec] = true) ∧
    (20 ≤ retireBits live true ∧ 80 ≤ retireBits live false ∧ live.fv.lost = []) ∧
    (let s := inVault (fun v => { v with stage := [stagedRec, { stagedRec with page := true }] }) live
     (∀ x ∈ s.fv.stage, (x.page && x.map) = false) ∧ s.fv.stage[0]? = some stagedRec ∧ stagedRec.map = false ∧
      s.fv.stage[1]? = some { stagedRec with page := true }) ∧
    (Tab.get 0 live.fv.life 3 + 1 < 2 ^ 42 ∧ Tab.get false (inVault (fun v => { v with lost := [(2, true)] }) live).fv.lost 2 = true) ∧
    (coreMay live 0 false 0x100B00208 = true ∧ (getCore live 0).warden = true ∧ live.fv.rawSel.toNat / 2 ^ 62 = 0 ∧
      live.fv.rawSel.toNat % 2 ^ 30 < 0x2000000) ∧
    (coreMay (asPaddock { live with br := { live.br with rgn := [(0, 0xC00400000000000E)] } }) 0 false 0x100B00208 = true ∧
      (getCore (asPaddock { live with br := { live.br with rgn := [(0, 0xC00400000000000E)] } }) 0).warden = false) := by decide +kernel

/-- A CVU window of core 0 whose KEY is a rein of unit 5, with OP and preset. -/
def cvWin (op preset : Nat) : Win := { winOf [op + preset * 256] with key := Rein.make true 1 0 0x03 3 0 0x0C05 }
/-- `reined` with it. -/
def cvState (op preset : Nat) : State := { reined with cv := { reined.cv with wins := [(0, cvWin op preset)] } }
/-- Its GO as the stride's end judges it. -/
def cvGo (op preset : Nat) : CvGo :=
  { req := ecbReq, core := 0, body := wordsBytes (cvWin op preset).body 8, unit := (cvWin op preset).key, value := none }

/-- CONFIG of CRC-12 (preset 3), RESET without fold and READ. -/
theorem witness_CvuCommandsTakeEffect :
    (∀ op ∈ [1, 2, 3, 4, 5], Tab.get Win.reset (cvState op 3).cv.wins 0 = cvWin op 3 ∧ (cvWin op 3).busy = false ∧
      byteAt (wordsBytes (cvWin op 3).body 8) 0 = op) ∧
    (cvUnitOf (cvWin 1 3).key = some 5 ∧ (getCv reined 5).lost = false) ∧
    ([dueHost, dueWin].find? (fun p => decide (p.req.src = .win 0 0)) = some dueWin ∧ dueWin.due ≤ live.tick) ∧
    (∀ op ∈ [1, 2, 3], cvUnitOf (cvGo op 3).unit = some 5 ∧ cvBad (cvGo op 3).body (getCv reined 5).w = false ∧
      cvDenied reined (cvGo op 3).req (cvGo op 3).unit = false ∧ cvBusy reined 5 = false ∧ ([] : List Nat).contains 5 = false ∧
      vOp (cvGo op 3).body = op ∧ (vParams (cvGo op 3).body).isSome = true ∧ vFoldValue (cvGo op 3).body = none) ∧
    ((getCore live 0).warden = true ∧ (getCore (asPaddock live) 0).warden = false) := by decide +kernel

/-- Cards in every slot, a token in the field, an ALGO 0x08 tack, and every window with an OP. -/
def equipped (op : Nat) : State :=
  let s := keyed [tackOf 8 0 32]
  let body := Tab.setSlice 0 [] 0 [BitVec.ofNat 64 (op + (if op = 0x22 then 0x400 else 0) + (if op = 0x12 ∨ op = 0x23 then 4 * 2 ^ 16 else 0) +
    (if op ≤ 2 then 2 ^ 32 else 0)), 0, if op < 0x20 then 0x10040000 else 0, if op = 5 then 5 else 0]
  { s with
    nf := { s.nf with cfg := 1, active := some [] },
    cd := { s.cd with
      mc := [0, 1].map (fun n => (n, { McSlot.reset with cfg := 1, ready := true, powered := true, secCount := 1 })),
      sc := [0, 1, 2, 3].map (fun n => (n, { ScSlot.reset with cfg := 3, inserted := true, active := true })),
      wins := [0, 1, 2, 3, 0x10, 0x11, 0x20].map (fun k => (k, { ExWin.reset with win := { Win.reset with body := body } })) } }
/-- An exchange that runs and one that has ended. -/
def exRun (op : Nat) (e : Option ExEnd) : ExRun := { body := takePad 32 [BitVec.ofNat 8 op], data := zeros 768, ended := e, nonce := zeros 16 }
def exLost : ExEnd := { status := 0x10, sw := 0, outlen := 0, value := 0, data := none }
/-- Window `k` with an exchange. -/
def running (k op : Nat) (e : Option ExEnd) (s : State) : State :=
  updEx k (fun w => { w with run := some (exRun op e), win := { w.win with busy := true } }) s

/-- Each of the twelve exchanges runs with cards in place, and is refused without them; of the answers that R379 distinguishes one each. -/
theorem witness_ExchangesStartAndEnd :
    (∀ p ∈ [(1, 0x11), (2, 0x11), (3, 0x11), (4, 0x11), (5, 0x11), (0x11, 3), (0x12, 3), (0x13, 3), (0x21, 0x20), (0x22, 0x20), (0x23, 0x20),
        (0x24, 0x20)],
      xOp (wordsBytes (getEx (equipped p.1) p.2).win.body 4) = p.1 ∧ (getEx (equipped p.1) p.2).win.busy = false ∧
      exRefusal (equipped p.1) p.2 (wordsBytes (getEx (equipped p.1) p.2).win.body 4) = 0 ∧
      (getEx (running p.2 p.1 none (equipped p.1)) p.2).win.busy = true ∧
      exRefusal live p.2 (wordsBytes (getEx (equipped p.1) p.2).win.body 4) ≠ 0) ∧
    ((equipped 0x21).nf.resetting = false) ∧
    ((getEx (running 3 0x12 (some exLost) live) 3).run = some (exRun 0x12 (some exLost)) ∧ exLost.status < 256 ∧
      (getEx (running 0x20 0x23 (some exLost) live) 0x20).run = some (exRun 0x23 (some exLost))) ∧
    (∀ op ∈ [1, 2, 3, 4, 5, 0x11, 0x12, 0x13, 0x23, 0x24], xOp (exRun op none).body = op ∧ (exRun op none).ended = none) ∧
    (1 &&& (getSc (equipped 0x11) 0).cfg.toNat / 2 % 4 ≠ 0 ∧ 2 &&& (getSc (equipped 0x11) 0).cfg.toNat / 2 % 4 = 0) ∧
    ({ live.nf with carrier := true } : NfUnit).carrier = true := by decide +kernel

/-- What initialisation finds of a good card, of one without RPMB and of one that keeps byte addresses. -/
def goodCard : CardInfo := { cid := zeros 16, secCount := 2 ^ 21, rpmb := 1, width := 3, mode := 2, byteMode := false, answered := true }

/-- The debounce of slot 1 ends at 10,000 strides exactly. -/
theorem witness_CardAndFieldEventsComplete_CardEventsComplete :
    (let m : McSlot := { McSlot.reset with cfg := 0x81, det := true, since := 4990000 }
     m.det = m.cfg.getLsbD 7 ∧ m.cfg.getLsbD 0 = true ∧ m.powered = false ∧ m.rejected = false ∧ m.since + 10000 ≤ live.tick ∧
      m.det ≠ false) ∧
    (let m : McSlot := { McSlot.reset with powered := true }
     m.powered = true ∧ m.ready = false ∧ (goodCard.byteMode = false ∧ goodCard.rpmb ≠ 0 ∧ goodCard.answered = true) ∧
      { goodCard with rpmb := 0 }.rpmb = 0 ∧ { goodCard with byteMode := true }.byteMode = true ∧ { goodCard with answered := false }.answered = false ∧
      m.det ≠ m.cfg.getLsbD 7) ∧
    (let s := running 0x11 1 none (equipped 1)
     (getMc s 1).ready = true ∧ (getMc s 1).ext = none ∧ (getEx s (0x10 + 1)).run = some (exRun 1 none) ∧ (exRun 1 none).ended = none) ∧
    (let m : ScSlot := { ScSlot.reset with cfg := 1 }
     m.cfg.getLsbD 0 = true ∧ m.inserted = false ∧ { m with inserted := true }.inserted = true) ∧
    ((getEx (running 3 0x12 none live) 3).run = some (exRun 0x12 none)) := by decide +kernel

/-- The field reset ends at 10,000 strides exactly; the wake electrode departs at 65 above a threshold of 64. -/
theorem witness_CardAndFieldEventsComplete_FieldEventsComplete :
    (let s := running 0x20 0x23 none { live with nf := { live.nf with carrier := true } }
     s.nf.carrier = true ∧ (getEx s 0x20).run = some (exRun 0x23 none) ∧ (exRun 0x23 none).ended = none) ∧
    (let n : NfUnit := { live.nf with resetting := true, offAt := 4990000 }
     n.resetting = true ∧ n.offAt + 10000 ≤ live.tick ∧ live.tick < { n with offAt := 4990001 }.offAt + 10000) ∧
    (let n : NfUnit := { live.nf with cfg := 0x30F }
     n.cfg.getLsbD 0 = true ∧ n.cfg.getLsbD 1 = true ∧ live.pm.onCell = false ∧
      n.csAt + max 10 (n.cs.toNat / 2 ^ 16 % 2 ^ 16) * 1000 ≤ live.tick ∧ max 164 100 - min 164 100 ≤ n.cs.toNat % 2 ^ 16 ∧
      n.cs.toNat % 2 ^ 16 < max 165 100 - min 165 100 ∧ n.departs = 0 ∧ 1 ≤ { n with departs := 1 }.departs) := by decide +kernel

/-- The witness logic on the cell, in a session that has reached `level`. -/
def witnessing (level : Nat) (sel : Bool) : State :=
  { live with
    pm := { live.pm with onCell := true, running := false }, tm := { live.tm with vbat := 2500 },
    nf := { live.nf with witEn := true, woke := true, uid := [1, 2, 3, 4, 5, 6, 7], witStart := some 0, witLevel := level, selected := sel } }

theorem witness_WitnessTagAnswers :
    ((witnessing 1 false).nf.witEn = true ∧ (witnessing 1 false).pm.onCell = true ∧ 2500 ≤ (witnessing 1 false).tm.vbat.toNat) ∧
    ((witnessing 1 false).nf.woke = true ∧ ({ (witnessing 1 false).nf with witStart := none, sessions := 64 } : NfUnit).sessions = 64 ∧
      (witnessing 1 false).nf.sessions < 64) ∧
    (∀ l ∈ [1, 2, 3, 4], (witnessing l false).nf.witStart = some 0 ∧ (witnessing l false).nf.uid = [1, 2, 3, 4, 5, 6, 7] ∧
      (witnessing l false).nf.witLevel = l ∧ (witnessing l false).nf.selected = false ∧ (witnessing l true).nf.selected = true) ∧
    ((0x02#8).toNat * 256 + (0x7F#8).toNat < 0x280 ∧ 0x280 ≤ (0x02#8).toNat * 256 + (0x80#8).toNat ∧
      (0x02#8).toNat * 256 + (0x7F#8).toNat + (1#8).toNat ≤ 0x280 ∧ 0x280 < (0x02#8).toNat * 256 + (0x7F#8).toNat + (2#8).toNat) ∧
    (let t : TimeUnit := { live.time with backupSince := 500000000 }
     0 + 500000000 ≤ ({ witnessing 4 false with time := t } : State).cellNow ∧ (witnessing 4 false).cellNow < 0 + 500000000) ∧
    (let s : State := { live with time := { live.time with backupSince := 86400000000000 } }
     s.nf.day < s.cellNow / 86400000000000) := by decide +kernel


/-! ### Tamper, life cycle and debug -/

/-- A change of the tamper state. -/
def inTamper (f : TamperUnit → TamperUnit) (s : State) : State := { s with tm := f s.tm }

/-- Sensor 12 fires with ZERO in CUSTODY; in a second state it has fired, its condition absent for a second exactly. -/
theorem witness_TamperSensorsRespond_TamperTicksFireSensors :
    (let s := inLife 0xFFFFFFFF (inTamper (fun t => { t with resp := [(12, 3)] }) live)
     s.pm.onCell = false ∧ natBit (2 ^ 12) 12 = true ∧ sensorLive s 12 = true ∧ Tab.get false s.tm.fired 12 = false ∧ effResp s 12 = 3 ∧
      s.tm.running = 0 ∧ shedNow s = true ∧ s.tm.shedBusy = false ∧ s.tm.shedDue = none ∧ freeLatch s = some 0 ∧ effResp s 12 < 4 ∧
      sensorLive s 20 = true ∧ effResp s 20 = 0) ∧
    (let s := inTamper (fun t => { t with fired := [(12, true)], absent := [(12, 1)] }) live
     (∀ i < 21, natBit (2 ^ 12) i = true → sensorLive s i = true → Tab.get false s.tm.fired i = true) ∧
      Tab.get false s.tm.fired 12 = true ∧ Tab.get 0 s.tm.absent 12 = 0 + 1 ∧ s.cellNow < 0 + 1000000000 ∧
      0 + 1000000000 ≤ ({ s with time := { s.time with backupSince := 1000000000 } } : State).cellNow) ∧
    shedNow (State.reset) = false := by decide +kernel

theorem witness_TamperSensorsRespond_TamperSettingsAreGuarded :
    (let s := inLife 0xFFFFFFFF live
     wardenMay s 0 (0x100F00100 + 4 * 0) = true ∧ wardenMay s 0 (0x100F00100 + 4 * 21) = true ∧ wardenMay s 0 0x100F00028 = true ∧
      s.life = 2 ∧ s.tm.locked = false ∧ s.tm.lockDue = none ∧ tamperFloor 12 ≤ (2#32).toNat % 4 ∧ ¬ tamperFloor 12 ≤ (1#32).toNat % 4 ∧
      (2#32).toNat < 4 ∧ (0xB#32).toNat / 4 % 4 ≤ 2 ∧ Tab.get 0 s.tm.mode 11 ≤ 2 ∧ s.tm.lockSets < 2 ∧ (0x5A#32).toNat % 256 = 0x5A) ∧
    live.life ≠ 2 ∧ 2 ≤ ({ live.tm with lockSets := 2 } : TamperUnit).lockSets ∧
    ((5000001 : Nat) ≤ live.tick + 1 ∧ live.tick < 5000001 ∧ (5000000 : Nat) ≤ live.tick) ∧
    (let s : State := { live with time := { live.time with now := 2 * 3600000000000 } }
     s.pm.onCell = false ∧ s.time.now / 3600000000000 % 24 = min (s.tm.hour.toNat % 32) 23 ∧ s.tm.bistDay < s.time.now / 86400000000000 + 1) ∧
    live.time.now / 3600000000000 % 24 ≠ min (live.tm.hour.toNat % 32) 23 := by decide +kernel

theorem witness_ShedClearsTheDevice :
    ((inTamper (fun t => { t with shedDue := some 4999999 }) live).tm.shedDue = some 4999999 ∧ 4999999 < live.tick ∧ live.tick ≤ 5000000) ∧
    (let s := inTamper (fun t => { t with shedStart := some 4994936, shedBusy := true }) live
     s.tm.shedStart = some 4994936 ∧ s.tm.shedBusy = true ∧ 4994936 + 64 ≤ s.tick ∧ 4994936 + 5064 ≤ s.tick ∧ s.tick < 4994937 + 5064) := by
  decide +kernel

/-- A device in a life-cycle state with its hashes programmed, the tamper table locked and VHOLD at 11 V. -/
def fused (w : W64) (tap : Nat) : State :=
  let s := inLife w (inTamper (fun t => { t with locked := true }) { live with pm := { live.pm with rails := [(8, 11000)] } })
  { s with lc := { s.lc with tap := tap, fwHash := zeros 48, dkeyHash := zeros 48 } }

theorem witness_TransitionsProgramFuses :
    (∀ p ∈ [(1, 0#64), (2, 0xFFFF#64), (5, 0#64), (5, 0xFFFF#64)], let s := fused p.2 0x10
      s.lc.tap = 0x10 ∧ s.life ≤ 1 ∧ transitionListed s p.1 true = true ∧ s.lc.busy = none ∧ holdupOk s = true) ∧
    (∀ p ∈ [(3, 0xFFFFFFFF#64), (4, 0xFFFFFFFFFFFF#64), (5, 0x00FFFFFFFFFFFFFF#64)], let s := fused p.2 1
      transitionListed s p.1 false = true ∧ s.lc.busy = none ∧ holdupOk s = true ∧ s.tm.running = 0 ∧
      holdupOk { s with pm := { s.pm with rails := [(8, 10999)] } } = false) ∧
    (transitionListed (fused 0xFFFF 0x10) 1 true = false ∧ transitionListed (fused 0 1) 3 false = false) ∧
    (let s : State := { fused 0 1 with lc := { (fused 0 1).lc with busy := some (1, some 4998800) } }
     s.lc.busy = some (1, some 4998800) ∧ 4998800 + 1200 ≤ s.tick ∧ s.tick < 4998801 + 1200 ∧ (∀ i < 3, Tab.get 0 s.lc.copies i = 0) ∧
      s.lc.word = 0 ∧ lcCode 0 ≤ 4 ∧ 1 = lcCode 0 + 1) := by decide +kernel

/-- A certificate of the owner for CUSTODY, rights 0x3F, serial 0, nonce of zeros, from 0 to an hour and two microseconds. -/
def cert : List Byte :=
  [1, 2, 1, 0, 0x3F, 0, 0, 0] ++ zeros 24 ++ natToLE 8 1 ++ natToLE 8 3600000002000 ++ zeros 240
/-- A debug session with those rights. -/
def session (jtag : Bool) : DbgSession :=
  { rights := 0x3F, signer := 1, jtag := jtag, fromT := 0, untilT := 3600000000000, mask := List.replicate 32 0xFF, csrMask := 0xFFFFF }
/-- CUSTODY, time locked, with the owner's key hash programmed to that of the certificate's key, and a presentation waiting. -/
def presented : State :=
  let s := inLife 0xFFFFFFFF { live with time := { live.time with mode := .locked } }
  { s with lc := { s.lc with
    dkeyHash := hashOf 2 ((cert.drop 0x60).take 96), verify := [{ bytes := cert, jtag := true, since := 5000000, nonceOk := true }] } }

theorem length_takePad (n : Nat) (l : List Byte) : (takePad n l).length = n := by simp [takePad, zeros]
theorem hash_filled (d : List Byte) : (hashOf 2 d).isEmpty = false := by
  have h := length_takePad 48 (Config.hash (8 * 48) d)
  change (takePad 48 (Config.hash (8 * 48) d)).isEmpty = false
  generalize takePad 48 (Config.hash (8 * 48) d) = l at h
  cases l with
  | nil => cases h
  | cons => rfl

/-- What is left to judge of a presentation whose bytes, state, serial number, key and time pass. -/
theorem certResult_rest {j : CertJob} {s : State} (h1 : certMalformed j.bytes = false) (h2 : byteAt j.bytes 1 = s.life)
    (h3 : certState s = true) (h4 : byteAt j.bytes 2 = 1) (h5 : s.lc.dkeyHash.isEmpty = false) (h6 : field j.bytes 8 8 = s.lc.serial.toNat)
    (h7 : hashOf 2 ((j.bytes.drop 0x60).take 96) = s.lc.dkeyHash)
    (h8 : judgeWindow s.time (field j.bytes 0x20 8, field j.bytes 0x28 8) = .inside) (h9 : s.lc.session = none) :
    certResult j s = if j.nonceOk = false then 4
      else if p384Verify ((j.bytes.drop 0x60).take 96) ((j.bytes.drop 0xC0).take 96) (j.bytes.take 0xC0) then 0 else 6 := by
  unfold certResult
  simp only [h1, h2, h3, h4, h5, h6, h7, h8, h9]
  cases j.nonceOk <;> cases p384Verify ((j.bytes.drop 0x60).take 96) ((j.bytes.drop 0xC0).take 96) (j.bytes.take 0xC0) <;> simp [firstStatus, stOK]

/-- The presentation passes every check but the signature, which is the curve's. -/
theorem witness_TapAndMailboxCommands :
    ((inLife 0 live).life ≠ 2 ∧ (inLife 0 live).life ≠ 3 ∧ (inLife 0xFFFFFFFF live).life = 2 ∧ shedNow (inLife 0xFFFFFFFF live) = true ∧
      live.tm.shedBusy = false ∧ live.tm.shedDue = none ∧ live.tm.shedPending = false) ∧
    ((fused 0xFFFFFFFF 0x10).lc.tap = 0x10 ∧ (fused 0xFFFFFFFF 0x10).life = 2 ∧ (fused 0xFFFFFFFF 0x10).lc.verify = [] ∧
      certMalformed cert = false ∧ (inLife 0xFFFF live).life = 1 ∧ (inLife 0xFFFF live).lc.fwHash = [] ∧ (fused 0 1).lc.fwHash ≠ []) ∧
    (∀ ok, certResult { bytes := cert, jtag := true, since := 5000000, nonceOk := ok } presented = if ok = false then 4
      else if p384Verify ((cert.drop 0x60).take 96) ((cert.drop 0xC0).take 96) (cert.take 0xC0) then 0 else 6) ∧
    (timeState synced.time ≠ 3 ∧ synced.time.now / 1000 * 1000 = (session true).untilT) ∧
    ((inLife 0xFFFFFFFF live).lc.dkeyHash = [] ∧ (fused 0xFFFFFFFF 1).lc.dkeyHash ≠ []) := by
  refine ⟨by decide +kernel, by decide +kernel, fun ok => ?_, by decide +kernel, by decide +kernel⟩
  have h : certMalformed cert = false ∧ byteAt cert 1 = presented.life ∧ certState presented = true ∧ byteAt cert 2 = 1 ∧
      field cert 8 8 = presented.lc.serial.toNat ∧ judgeWindow presented.time (field cert 0x20 8, field cert 0x28 8) = .inside := by
    decide +kernel
  exact certResult_rest h.1 h.2.1 h.2.2.1 h.2.2.2.1 (hash_filled _) h.2.2.2.2.1 rfl h.2.2.2.2.2 rfl

/-- CUSTODY with a session, core 0 halted; and without one. -/
def debugging : State :=
  let s := inLife 0xFFFFFFFF live
  { s with
    lc := { s.lc with session := some (session true), halts := [(0, 1)], tap := 0x11 },
    br := { s.br with rgn := [(39 * 32, BitVec.ofNat 64 (2 ^ 63 + 7 * 2 ^ 58 + 0x10000 * 2 ^ 30 + 0x26))] } }

/-- Core 0 at the paddock level, halted before a word in its local SRAM. -/
def stepping (w : Nat) : State :=
  { putBytes lowered 0x10040040 (natToLE 4 w) with lc := { debugging.lc with steps := [(0, true)] } }

theorem witness_DebugAccessNeedsRights :
    (hasRight debugging 0 = true ∧ dbgMask debugging debugging.lc.sel = true ∧ hasRight debugging 1 = true ∧ isHalted debugging 0 = true ∧
      debugging.lc.tap = 0x11 ∧ dbgRights debugging ≠ 0) ∧
    (hasRight (inLife 0xFFFFFFFF live) 0 = false ∧ hasRight (inLife 0xFFFFFFFF live) 1 = false ∧ hasRight (inLife 0xFFFFFFFF live) 2 = false ∧
      live.lc.tap ≠ 0x11) ∧
    (dapMay (inLife 0xFFFFFFFF live) false 0x10040000 = false ∧ isCsr 0x10040000 = false ∧ dapMay debugging false 0x10040000 = true ∧
      firstRefused debugging { unit := 39, paddock := debugging.lc.sel, cls := 2 } false false 0x10040000 8 = none ∧
      meetsPoison debugging 0x10040000 8 = false) ∧
    (hasRight (stepping 0) 1 = true ∧ isHalted (stepping 0) 0 = true ∧ decodeWord 0 (wordAtPc 0 (stepping 0)) = none ∧ reaches 0 (stepping 0) ∧
      decodeWord 0 (wordAtPc 0 (stepping 0x46518002)) = some (.ld64 0 10 3 0 2)) := by
  unfold reaches boundaryClear; decide +kernel


/-! ### Dictionary and ledger -/

/-- An open session under SID 7, of a role. -/
def mgmt (role : Nat) : MgmtSession :=
  { sid := 7, addr := 0, role := role, cred := 1, kc := zeros 32, kd := zeros 32, seqNext := 1, noticeNo := 1, fails := 0, used := true,
    lastAt := 0, subs := [] }
/-- `live` with the management link up, the objects ready and that session open. -/
def managed (role : Nat) : State :=
  { live with od := { live.od with
    link := true, ready := true, mac := 0x020000000001, sessions := [mgmt role],
    values := [(objKey 0xB011 0, [192, 168, 0, 9, 24, 0, 0, 0, 0, 0, 0, 0])] } }
/-- A datagram of the session: header and body with its MAC. -/
def signed (h : List Byte) : List Byte := h ++ dictMac (zeros 32) h
/-- The header of TYPE `t` with a SEQ, and a body. -/
def plainDgram (t seq : Nat) (body : List Byte) : List Byte := dictHeader t 7 seq ++ body

theorem length_enc (k b : List Byte) : ((blockFn 2 k).enc b).length = 16 := length_takePad 16 _
theorem length_dictMac (k m : List Byte) : (dictMac k m).length = 16 := by
  unfold dictMac cmac cmacFrom cbcMac
  simp only [List.foldl_append, List.foldl_cons, List.foldl_nil]
  exact length_enc k _

/-- What a reader of a signed datagram finds, for any header and body that fit. -/
theorem signed_reads {h : List Byte} (lo : 16 ≤ h.length) (hi : h.length ≤ 1216) :
    (∀ t, headerOk (signed h) t = (byteAt h 0 == 1 && byteAt h 1 == t && zeroSpan h 2 2)) ∧ 32 ≤ (signed h).length ∧
    field (signed h) 4 4 = field h 4 4 ∧ field (signed h) 8 8 = field h 8 8 ∧ requestBody (signed h) = h.drop 16 ∧
    dictMac (zeros 32) ((signed h).take ((signed h).length - 16)) = (signed h).drop ((signed h).length - 16) ∧
    byteAt (signed h) 1 = byteAt h 1 := by
  have hl := length_dictMac (zeros 32) h
  unfold signed
  generalize hd : dictMac (zeros 32) h = l at hl ⊢
  have len : (h ++ l).length - 16 = h.length := by simp [hl]
  have at_ (i : Nat) (hi : i < 16) : byteAt (h ++ l) i = byteAt h i := by
    unfold byteAt
    rw [List.getD_eq_getElem?_getD, List.getElem?_append_left (by omega), ← List.getD_eq_getElem?_getD]
  have cut (a n : Nat) (ha : a + n ≤ 16) : ((h ++ l).drop a).take n = (h.drop a).take n := by
    rw [List.drop_append_of_le_length (by omega), List.take_append_of_le_length (by simp; omega)]
  refine ⟨fun t => ?_, by simp [hl]; omega, by unfold field; rw [cut 4 4 (by omega)], by unfold field; rw [cut 8 8 (by omega)], ?_, ?_, at_ 1 (by omega)⟩
  · unfold headerOk zeroSpan
    rw [at_ 0 (by omega), at_ 1 (by omega), cut 2 2 (by omega)]
    have a : decide (16 ≤ (h ++ l).length) = true := decide_eq_true (by simp; omega)
    have b : decide ((h ++ l).length ≤ 1232) = true := decide_eq_true (by simp [hl]; omega)
    rw [a, b]; rfl
  · unfold requestBody; rw [len, List.take_left]
  · rw [len, List.take_left, List.drop_left, hd]


/-- Bodies: OP, FLAGS, INDEX, SUB, LEN and a value. -/
def body (op idx sub : Nat) (v : List Byte) : List Byte :=
  [BitVec.ofNat 8 op, 0] ++ natToLE 2 idx ++ [BitVec.ofNat 8 sub, 0] ++ natToLE 2 v.length ++ v
/-- Bodies that are served, with their kind. -/
def goodBodies : List (Nat × List Byte) :=
  [(1, body 1 0x1001 0 []), (2, body 2 0x2012 0 [100, 0, 0, 0]), (3, body 3 0x1001 0 []), (4, body 4 0x1001 0 []), (5, body 5 0x1001 0 []),
    (9, body 1 0xA100 2 []), (10, body 1 0xA200 0 [])]
/-- Bodies that row 1 of R448 turns away, with their kind. -/
def badBodies : List (Nat × List Byte) :=
  [(0, body 0 0 0 []), (1, body 1 0xFFFF 0 []), (2, body 2 0x2012 0 [1]), (3, body 3 0xFFFF 0 []), (4, body 4 0x1001 0 [0]),
    (5, body 5 0x1001 0 [0]), (7, body 2 0x1030 0 [1]), (8, body 2 0xB010 0 [1]), (9, body 1 0xA100 2 [0]), (10, body 1 0xA200 0 [0])]

/-- A request of the session arrives: its header has the next SEQ, 1. -/
theorem arrives {role : Nat} {b : List Byte} (hi : b.length ≤ 1200) (up : dictUp (managed role) = true) :
    requestArrives (managed role) (signed (plainDgram 3 1 b)) (mgmt role) ∧ requestBody (signed (plainDgram 3 1 b)) = b := by
  have n : (plainDgram 3 1 b).length = 16 + b.length := by simp [plainDgram, dictHeader, natToLE]; omega
  have r := signed_reads (h := plainDgram 3 1 b) (by omega) (by omega)
  have f (a n : Nat) (ha : a + n ≤ 16) : field (plainDgram 3 1 b) a n = field (dictHeader 3 7 1) a n := by
    have e : (dictHeader 3 7 1).length = 16 := by decide
    unfold field plainDgram
    rw [List.drop_append_of_le_length (by omega), List.take_append_of_le_length (by simp; omega)]
  refine ⟨⟨up, ?_, r.2.1, ?_, ?_, ?_⟩, ?_⟩
  · rw [r.1 3]; rfl
  · rw [r.2.2.1, f 4 4 (by decide), show field (dictHeader 3 7 1) 4 4 = 7 by decide]; rfl
  · exact r.2.2.2.2.2.1
  · rw [r.2.2.2.1, f 8 8 (by decide), show field (dictHeader 3 7 1) 8 8 = 1 by decide]; exact Nat.le_refl 1
  · rw [r.2.2.2.2.1]; rfl

theorem witness_DictRequestsAreServed :
    ((managed 3).od.inbox = [] ∧ (managed 3).od.write = none) ∧
    (∀ p ∈ goodBodies ++ badBodies, requestArrives (managed 3) (signed (plainDgram 3 1 p.2)) (mgmt 3) ∧
      requestBody (signed (plainDgram 3 1 p.2)) = p.2) ∧
    (∀ p ∈ badBodies, rqMalformed p.2 = true) ∧
    (∀ p ∈ goodBodies, rqMalformed p.2 = false ∧ ∃ o ∈ (objOf (rqIndex p.2) (rqSub p.2)).toList, rqDenied 3 o (rqOp p.2) = false ∧
      (rqOp p.2 = 2 → inBounds o (rqValue o p.2) = true)) ∧
    ((∃ o ∈ (objOf 0x2012 0).toList, rqDenied 1 o 2 = true) ∧
      requestArrives (managed 1) (signed (plainDgram 3 1 (body 2 0x2012 0 [100, 0, 0, 0]))) (mgmt 1)) ∧
    ((managed 3).od.ready = true ∧ (mgmt 3).subs.length < 64 ∧ (mgmt 3).fails < 15 ∧ (∀ a, (objWrite 0x2012 0 [100, 0, 0, 0] 1 a).1 = 0)) := by
  refine ⟨by decide +kernel, fun p hp => arrives ?_ (by decide +kernel), by decide +kernel, by decide +kernel,
    ⟨by decide +kernel, (arrives (by decide) (by decide +kernel)).1⟩, by decide, by decide, by decide, fun _ => rfl⟩
  revert p; decide +kernel

/-- The kinds of those bodies in a REQUEST. -/
theorem witness_DictRequestsAreServed_kinds : ∀ p ∈ goodBodies ++ badBodies, ∀ l : List Byte, l.length = 16 → dictKind (plainDgram 3 1 p.2 ++ l) = p.1 := by
  intro p hp l hl
  have n : (plainDgram 3 1 p.2).length = 16 + p.2.length := by simp [plainDgram, dictHeader, natToLE]; omega
  have e : ((plainDgram 3 1 p.2 ++ l).drop 16).take ((plainDgram 3 1 p.2 ++ l).length - 32) = p.2 := by
    rw [List.length_append, n, hl, List.drop_append_of_le_length (by omega), show 16 + p.2.length + 16 - 32 = p.2.length by omega]
    exact List.take_left
  unfold dictKind
  rw [e]
  have f : byteAt (plainDgram 3 1 p.2 ++ l) 1 = 3 := rfl
  rw [f]
  clear f e n
  revert p; decide +kernel


/-- The MAC of a datagram with each bit inverted: never the MAC. -/
theorem wrong_mac (h : List Byte) : dictMac (zeros 32) h ≠ (dictMac (zeros 32) h).map (fun b => ~~~b) := by
  have hl := length_dictMac (zeros 32) h
  generalize dictMac (zeros 32) h = l at hl ⊢
  cases l with
  | nil => cases hl
  | cons b bs =>
    intro e
    have c : b = ~~~b := (List.cons.inj e).1
    exact (show ∀ x : Byte, x ≠ ~~~x by decide) b c

/-- A datagram with a wrong MAC, one with SEQ 0 that was used, and a CLOSE. -/
theorem witness_DictRequestsAreServed_datagrams : dictUp (managed 3) = true ∧ sessionOf (managed 3) 7 = some (mgmt 3) ∧
    (∀ p ∈ [(3, 1), (3, 0), (6, 0)], ∀ h, h = plainDgram p.1 p.2 (if p.1 = 3 then body 1 0x1001 0 [] else []) →
      headerOk (signed h) p.1 = true ∧ 32 ≤ (signed h).length ∧ field (signed h) 4 4 = 7 ∧ field (signed h) 8 8 = p.2 ∧
      dictMac (zeros 32) ((signed h).take ((signed h).length - 16)) = (signed h).drop ((signed h).length - 16) ∧
      dictMac (zeros 32) h ≠ (dictMac (zeros 32) h).map (fun b => ~~~b)) ∧ 0 < (mgmt 3).seqNext := by
  refine ⟨by decide, by decide, fun p hp h e => ?_, by decide⟩
  have g : 16 ≤ h.length ∧ h.length ≤ 1216 ∧ (byteAt h 0 == 1 && byteAt h 1 == p.1 && zeroSpan h 2 2) = true ∧ field h 4 4 = 7 ∧
      field h 8 8 = p.2 := by
    subst e
    revert p; decide +kernel
  have r := signed_reads g.1 g.2.1
  exact ⟨(r.1 p.1).trans g.2.2.1, r.2.1, r.2.2.1.trans g.2.2.2.1, r.2.2.2.1.trans g.2.2.2.2, r.2.2.2.2.2.1, wrong_mac h⟩

/-- A HELLO, and a WRITE of 0x2012:00 that waits. -/
def helloDgram : List Byte := dictHeader 1 0 0 ++ zeros 120
def waiting : MgmtWrite :=
  { req := { sid := 7, seq := 1, body := body 2 0x2012 0 [100, 0, 0, 0] }, role := 3, cred := 1, value := [100, 0, 0, 0], nor := true,
    asked := 4999999, begun := false }
/-- `managed 3` with it. -/
def writing : State := { managed 3 with od := { (managed 3).od with write := some waiting } }

/-- Ten HELLOs within the second, of which the oldest came a second ago. -/
theorem witness_DictSessionsAndWrites :
    (dictUp (managed 3) = true ∧ headerOk helloDgram 1 = true ∧ helloDgram.length = 136 ∧ field helloDgram 4 4 = 0 ∧
      localAddr (managed 3) 0 ≠ none ∧ localAddr (managed 3) 2 ≠ none ∧
      10 ≤ ((List.replicate 10 4000001).filter (fun x => decide ((managed 3).tick < x + 1000000))).length ∧
      ((4000000 :: List.replicate 9 4000001).filter (fun x => decide ((managed 3).tick < x + 1000000))).length < 10 ∧
      (managed 3).od.sessions.length < 8 ∧ 8 ≤ (List.replicate 8 (mgmt 3)).length) ∧
    (writing.od.write = some waiting ∧ writing.od.inbox = [] ∧ sessionOf writing waiting.req.sid = some (mgmt 3) ∧
      waiting.asked < writing.tick ∧ writing.tick ≤ { waiting with asked := 5000000 }.asked ∧ waiting.begun = false ∧ waiting.nor = true ∧
      rqIndex waiting.req.body ∉ [0xB010, 0xB011, 0x1012]) ∧
    (let x := objWrite (rqIndex waiting.req.body) (rqSub waiting.req.body) waiting.value waiting.cred writing
     x.1 = 0 ∧ x.2.od.write = writing.od.write ∧ x.2.od.inbox = [] ∧ x.2.od.sent = writing.od.sent ∧
      sessionOf x.2 waiting.req.sid = some (mgmt 3) ∧ actRuns (rqIndex waiting.req.body) (rqSub waiting.req.body) x.2 = false ∧
      objKey (rqIndex waiting.req.body) (rqSub waiting.req.body) / 256 ≠ 0x1030) ∧
    ((managed 3).od.sessions.map (fun m => m.sid)).Nodup := by decide +kernel

/-- A Neighbor Solicitation of fe80::1 for the port's own address, and an echo request. -/
def solicitation : List Byte :=
  let own := linkLocal (managed 3)
  etherFrame (managed 3) (ownMac (managed 3)) 0x86DD
    (packet6 ([0xFE, 0x80] ++ zeros 13 ++ [1]) own 255 ([135, 0, 0, 0, 0, 0, 0, 0] ++ own))
def echoFrame : List Byte :=
  etherFrame (managed 3) (ownMac (managed 3)) 0x86DD
    (packet6 ([0xFE, 0x80] ++ zeros 13 ++ [1]) (linkLocal (managed 3)) 64 [128, 0, 0, 0, 0, 1, 0, 1, 9, 8, 7])

theorem witness_PortAndLedgerCommands_PortAnswersItsOwnTraffic :
    (dictUp (managed 3) = true ∧ localAddr (managed 3) 2 = some [192, 168, 0, 9] ∧ (zeros 18).length ≤ 1400) ∧
    (∃ x ∈ (parse6 solicitation).toList, x.2.2.1 = 255 ∧ solicitation.take 6 = ownMac (managed 3) ∧ ownV6 (managed 3) x.2.1 = true ∧
      byteAt x.2.2.2 0 = 135 ∧ byteAt x.2.2.2 1 = 0 ∧ 24 ≤ x.2.2.2.length ∧ ownV6 (managed 3) ((x.2.2.2.drop 8).take 16) = true ∧
      (∃ y ∈ x.1, y ≠ 0) ∧ linkOption 64 (x.2.2.2.drop 24) = none) ∧
    (∃ x ∈ (parse6 echoFrame).toList, etherType echoFrame = 0x86DD ∧ echoFrame.take 6 = ownMac (managed 3) ∧ ownV6 (managed 3) x.2.1 = true ∧
      byteAt x.2.2.2 0 = 128 ∧ byteAt x.2.2.2 1 = 0 ∧ 8 ≤ x.2.2.2.length ∧ echoFrame.length ≤ 1514) := by decide +kernel

/-- The pace admits a word, and an event of 8,184 words with nothing before it. -/
theorem witness_PortAndLedgerCommands_LedgerDrainsInOrder :
    (live.tick < live.ledger.lastPeriod + live.ledger.period * 1000000 ∧
      ({ live.ledger with lastPeriod := 0, period := 5 } : Ledger).lastPeriod + 5 * 1000000 ≤ live.tick) ∧
    (nextWords live = none ∧ live.ledger.snapQ = [] ∧ live.tm.latches = [] ∧ live.ledger.eventQ = [] ∧ live.ledger.window.length < 31 ∧
      0 < paceRoom live ∧ 8184 ≤ paceRoom live) ∧
    paceRoom { live with ledger := { live.ledger with paceHist := [(5000000, 8184)] } } = 0 := by decide +kernel

/-! ### Unit service, firmware and power -/

/-- `live` with unit `u` of pool `pool` in a state that may end now. -/
def unitIn (pool u st : Nat) : State := updUnit pool u (fun _ => { UnitRec.reset with st := st, due := 5000000 }) live

theorem witness_UnitAndFirmwareCommands_UnitServiceCommands : ∀ p ∈ [(0, 33), (1, 67), (2, 25), (3, 15)],
    unitOk p.1 p.2 = true ∧ (getUnit (unitIn p.1 p.2 1) p.1 p.2).st < 2 ∧ 2 ≤ (getUnit (unitIn p.1 p.2 2) p.1 p.2).st ∧
    (getUnit (unitIn p.1 p.2 2) p.1 p.2).latched = none ∧ (getUnit (unitIn p.1 p.2 2) p.1 p.2).due ≤ live.tick ∧
    unitBusy (unitIn p.1 p.2 2) p.1 p.2 = false ∧ (getUnit (unitIn p.1 p.2 5) p.1 p.2).st = 5 ∧ (getUnit (unitIn p.1 p.2 3) p.1 p.2).st = 3 ∧
    (getUnit (unitIn p.1 p.2 4) p.1 p.2).st = 4 ∧ live.tick < { UnitRec.reset with due := 5000001 }.due := by decide +kernel

/-- `handling`'s device with a replacement in a state, an image of one byte in the bank that was not booted, and core 0 reached
since stride 4,995,904. -/
def replacing (st : Nat) (moved : List (Nat × Nat)) : State :=
  let s := handling 0x10 0 Rein.zero door0
  { s with
    us := { s.us with fw := { s.us.fw with st := st, moved := moved, since := 4995904 } },
    fv := { s.fv with banks := [(1, { st := 1, seq := 0, sectors := 1, image := [7] })] } }

/-- The drain limit of 4,096 strides passes exactly. Whether the image is signed, and its number, the image decides. -/
theorem witness_UnitAndFirmwareCommands_FirmwareReplacementProceeds :
    ((replacing 0 []).us.fw.st ≠ 3 ∧ (replacing 0 []).us.fw.st ≠ 4 ∧ 4 ≤ ([0, 0xE0, 0x7F, 0] : List Byte).length ∧
      field [0xFE, 0xDF, 0x7F, 0, 1, 2] 0 4 + (([0xFE, 0xDF, 0x7F, 0, 1, 2] : List Byte).length - 4) = 8380416) ∧
    ((replacing 3 []).us.fw.st = 3 ∧ (replacing 2 []).us.fw.st = 2 ∧ (replacing 4 []).us.fw.st = 4 ∧ (replacing 0 []).us.fw.st ≠ 5) ∧
    ((getBank (replacing 0 []) 1).st ≠ 0 ∧ (getBank live 1).st = 0 ∧ 1 - (replacing 0 []).us.fw.bootedBank = 1) ∧
    (bankHolds { live with fv := { live.fv with nor := [(5 * 8192, twiceWord (5 * 65536) (2 * 2 ^ 40 + 7) true)] } } 1 0 65472 = true ∧
      bankHolds { live with fv := { live.fv with nor := [(5 * 8192, twiceWord (5 * 65536) (2 * 2 ^ 40 + 7) true)] } } 1 0 65473 = false) ∧
    (Config.imageSigned [7] [] = true ∨ Config.imageSigned [7] [] = false) ∧
    ((replacing 0 []).us.fw.moved = [] ∧ (replacing 3 [(0, 0)]).us.fw.moved ≠ []) ∧
    (let s := replacing 3 []
     s.us.fw.cancelling = false ∧ s.tm.shedBusy = false ∧ physOf s 2 s.us.fw.core = some 0 ∧
      slotOwner s s.us.fw.core s.stride = some s.us.fw.paddock ∧ s.us.fw.since + max 256 s.us.fwDrain.toNat ≤ s.tick ∧
      s.tick < s.us.fw.since + 1 + max 256 s.us.fwDrain.toNat) ∧
    fwDrained (onCore (fun _ => { Core.reset with yielded := true }) (replacing 3 [])) 0 0 = true := by
  refine ⟨by decide +kernel, by decide +kernel, by decide +kernel, by decide +kernel, ?_, by decide +kernel, by decide +kernel,
    by decide +kernel⟩
  cases Config.imageSigned [7] [] <;> simp

/-- A change of the power state. -/
def inPower (f : PowerUnit → PowerUnit) (s : State) : State := { s with pm := f s.pm }

/-- The lock wait of 500 ms ends at 500,000 strides exactly. -/
theorem witness_PowerEventsComplete :
    (live.pm.onCell = false ∧ live.pm.running = true ∧ live.pm.held = false ∧ live.pm.flushing = false) ∧
    ((inPower (fun p => { p with flushing := true }) live).pm.flushing = true ∧ live.pm.porPending = false) ∧
    (State.reset.pm.porLow = true ∧ State.reset.pm.onCell = false ∧ State.reset.pm.flushing = false ∧ State.reset.pm.tripped = false ∧
      (inPower (fun p => { p with tripped := true }) State.reset).pm.tripped = true ∧ live.pm.powerUp = true) ∧
    (let p : PowerUnit := { live.pm with held := true, tripped := true }
     p.held = true ∧ p.tripped = true ∧ p.porLow = false ∧ p.vaultBo = false ∧ p.vholdBo = false ∧ p.onCell = false) ∧
    (holdupOk (inPower (fun p => { p with hold := true, rails := [(8, 11000)] }) live) = true) ∧
    (let s := inPower (fun p => { p with step := 6, stepTick := 4500000 }) live
     s.pm.step = 6 ∧ s.pm.running = true ∧ s.pm.stepTick + 1000 * min 500 s.pm.bootCfg.toNat ≤ s.tick ∧
      s.tick < 4500001 + 1000 * min 500 s.pm.bootCfg.toNat) ∧
    (([1000, 1000, 1000, 1000, 1000, 1000, 1000, 1741, 11201, 70000] : List Nat).length = 10 ∧ 1740 < 1741 ∧ 11200 < 11201) ∧
    (inPower (fun p => { p with onCell := true, running := false }) live).pm.onCell = true := by decide +kernel


/-! ### Single steps whose results the spec works out -/

/-- G[d] of core 0 after an instruction that meets these general registers, with DTRAP set. -/
def after (g : List (Nat × W64)) (d : Nat) (i : Instr) : Option W64 :=
  match exec i (onCore (fun k => { k with g := g, status := 0x203 }) live) with
  | .next t => some ((getCore t 0).getG d)
  | _ => none
/-- Cause and WINFO after it. -/
def trapped (g : List (Nat × W64)) (i : Instr) : Option (W64 × W64) :=
  match exec i (onCore (fun k => { k with g := g, status := 0x203 }) live) with
  | .next t => some ((getCore t 0).wcause &&& 0xFF, (getCore t 0).winfo)
  | _ => none

/- The PIN offset example of R275, step by step. -/
theorem test_dval_pin : after [(15, 0x8521)] 21 (.dval 0 21 15 0) = some 1 := by decide +kernel
theorem test_dval_letter : after [(15, 0x85A1)] 21 (.dval 0 21 15 0) = some 0 := by decide +kernel
theorem test_ddec_table :
    after [(10, 0x3E9A07C45B1FD2A8), (12, 0x5432109876543210)] 11 (.ddec 0 11 10 12) = some 0x3490072451153208 := by decide +kernel
theorem test_dshr_twelve : after [(11, 0x3490072451153208)] 13 (.dshr 0 13 11 12) = some 0x3490 := by decide +kernel
theorem test_lui_four : after [] 17 (.lui 0 17 4) = some 0x8000 := by decide +kernel
theorem test_ori_mask : after [(17, 0x8000)] 17 (.ori 0 17 17 0x1999) = some 0x9999 := by decide +kernel
theorem test_dsub_nines : after [(13, 0x3490), (17, 0x9999)] 16 (.dsub 0 16 17 13) = some 0x6509 := by decide +kernel
theorem test_daddm_tens : after [(16, 0x6509), (18, 0x1111)] 16 (.daddm 0 16 16 18) = some 0x7610 := by decide +kernel
theorem test_daddm_offset : after [(15, 0x8521), (16, 0x7610)] 19 (.daddm 0 19 15 16) = some 0x5131 := by decide +kernel
theorem test_ceq_pin : after [(15, 0x8521), (20, 0x8521)] 22 (.ceq 0 22 20 15) = some 1 := by decide +kernel
theorem test_daddm_stray_digit : trapped [(15, 0x85A1), (16, 0x7610)] (.daddm 0 19 15 16) = some (0x0A, 2) := by decide +kernel

/- R259, R260: sums wrap, the quotient of the least number by -1 is itself, a division by 0 raises cause 0x0B. -/
theorem test_add_wraps : after [(1, 0xFFFFFFFFFFFFFFFF), (2, 1)] 3 (.opAdd 0 3 1 2) = some 0 := by decide +kernel
theorem test_sub_borrows : after [(2, 1)] 3 (.opSub 0 3 0 2) = some 0xFFFFFFFFFFFFFFFF := by decide +kernel
theorem test_g0_discards : after [(1, 5)] 0 (.opAdd 0 0 1 1) = some 0 := by decide +kernel
theorem test_div_by_zero : trapped [(1, 5)] (.div 0 3 1 0) = some (0x0B, 0) := by decide +kernel

/- The checks of R351, over the digits 1 to 9. -/
theorem test_crc32c_digits : crcValue crc32c none [0x31, 0x32, 0x33, 0x34, 0x35, 0x36, 0x37, 0x38, 0x39] = 0xE3069283 := by decide +kernel
theorem test_crc64_digits : crcValue crc64 none [0x31, 0x32, 0x33, 0x34, 0x35, 0x36, 0x37, 0x38, 0x39] = 0x995DC9BBDF1939FA := by
  decide +kernel
/-- The example of R358: the sequence number folded in gives the same stream. -/
theorem test_crc32c_fold : crcValue crc32c (some 0x3837363534333231) [0x39] = 0xE3069283 := by decide +kernel

/- The worked region of R308, for unit 7 and paddock 0x2A. -/
theorem test_region_hole : (rgnCovers 0x980040F0200ABFCE 0x103F7FFF, rgnCovers 0x980040F0200ABFCE 0x103F8000) = (true, false) := by
  decide +kernel
theorem test_region_store :
    (bridleCode (writeRegion 7 0 true 0x980040F0200ABFCE live) { unit := 7, paddock := 0x2A, cls := 0 } true false 0x103F8000,
      bridleCode (writeRegion 7 0 true 0x980040F0200ABFCE live) { unit := 7, paddock := 0x2A, cls := 1 } true false 0x103F8000,
      bridleCode (writeRegion 7 0 true 0x980040F0200ABFCE live) { unit := 7, paddock := 0x2A, cls := 0 } true false 0x103C0000) =
      (some 1, none, none) := by decide +kernel

/- Envelope sizes of R196: AES-256, a P-256 private key, RSA-2048. -/
theorem test_envelope_indices : (envelopeSlots 2 32, envelopeSlots 0x12 32, envelopeSlots 0x10 256) = (1, 2, 8) := by decide +kernel

/-! ### Words written out from the formats of R253, one of each group -/

/-- An R word: op, rd, ra, rb, fn. -/
def rWord (op rd ra rb fn : Nat) : W32 := BitVec.ofNat 32 (op * 2 ^ 25 + rd * 2 ^ 19 + ra * 2 ^ 13 + rb * 2 ^ 7 + fn)

theorem test_word_add : decodeWord 3 0b0000001_111110_000001_000010_0000000 = some (.opAdd 3 62 1 2) := by decide +kernel
theorem test_word_divu : decodeWord 0 0b0000010_000011_000100_000101_0000100 = some (.divu 0 3 4 5) := by decide +kernel
theorem test_word_clt : decodeWord 0 0b0000011_000011_000100_000101_0000010 = some (.clt 0 3 4 5) := by decide +kernel
theorem test_word_dsub : decodeWord 0 0b0000100_010000_010001_001101_0000001 = some (.dsub 0 16 17 13) := by decide +kernel
theorem test_word_addi : decodeWord 0 0b0001000_000001_000010_1111111111111 = some (.addi 0 1 2 0x1FFF) := by decide +kernel
theorem test_word_lui : decodeWord 0 0b0011000_010001_0000000000000000100 = some (.lui 0 17 4) := by decide +kernel
theorem test_word_st8 : decodeWord 0 0b0101000_000001_0010_000011_111111111 = some (.st8 0 1 2 3 0x1FF) := by decide +kernel
theorem test_word_bnz : decodeWord 0 0b0111001_000101_1111111111111111110 = some (.bnz 0 5 0x7FFFE) := by decide +kernel
theorem test_word_call : decodeWord 0 0b0111101_0000000000000000000000011 = some (.call 0 3) := by decide +kernel
theorem test_word_mts : decodeWord 0 0b0011101_000000_000111_0000000000101 = some (.mts 0 0 7 5) := by decide +kernel
theorem test_word_kbound : decodeWord 0 (rWord 0x05 1 2 3 1) = some (.kbound 0 1 2 3) := by decide +kernel
theorem test_word_movb : decodeWord 0 (rWord 0x07 1 2 0 0) = some (.movb 0 1 2 0) := by decide +kernel
/-- Unassigned op and fn, and the zero word (R254). -/
theorem test_word_unassigned : decodeWord 0 0 = none ∧ decodeWord 0 (rWord 0x01 1 2 3 0x13) = none ∧ decodeWord 0 0xFE000000 = none ∧
    decodeWord 0 (rWord 0x06 0 0 0 9) = none := by decide +kernel

end Sys2Proof.Tests
end

section
/-! Register accesses, the die link and the scrubber (R4, R9, R17, R18, R22–R25, R77, R208, R209, R454). -/

namespace Sys2Proof.Proofs

open Sys2Proof Sys2Proof.Machine Sys2Proof.Laws

/-! ### What a write of a register takes from its slot -/

theorem getLsbD_halves {lo hi : W32} {i : Nat} (h : i < 32) : (halves lo hi).getLsbD i = lo[i] := by
  have happ : (halves lo hi).getLsbD i = if i < 32 then lo.getLsbD i else hi.getLsbD (i - 32) := BitVec.getLsbD_append
  rw [happ, if_pos h, BitVec.getLsbD_eq_getElem h]

/-- A 32-bit register whose low half is written takes the value, whatever the high half carries. -/
theorem rw_whole_of_lo (v old : W32) (hi : Option W32) : rw { lo := some v, hi := hi } 0xFFFFFFFF old = v := by
  have ones : ∀ (i : Nat) (h : i < 32), (4294967295#32)[i] = true := by
    intro i h
    rw [show (4294967295#32 : W32) = BitVec.allOnes 32 from rfl, BitVec.getElem_allOnes]
  apply BitVec.eq_of_getLsbD_eq
  intro i hi
  simp [rw, rw32, rwField, Put.mask, Put.val, getLsbD_halves, ones, hi]

theorem csrPut_four_aligned {a : Nat} (v : W64) (h : a % 8 = 0) :
    csrPut a 4 v = { lo := some (v.setWidth 32), hi := none } := by
  simp [csrPut, h]

/-! ### Registers of the alert tree (R454) -/

theorem csrWrite_al_pinen (core : Option Nat) (v : W64) (s : State) :
    csrWrite { core := core, warden := true } 0x100000020 4 v s =
      { s with al := { s.al with pinen := v.setWidth 32 } } := by
  have h : csrWrite { core := core, warden := true } 0x100000020 4 v s =
      { s with al := { s.al with pinen := rw { lo := some (v.setWidth 32), hi := none } 0xFFFFFFFF s.al.pinen } } := rfl
  rw [h, rw_whole_of_lo]

theorem csrWrite_al_paddock_level (core : Option Nat) (v : W64) (s : State) :
    csrWrite { core := core, warden := false } 0x100000020 4 v s = s := rfl

theorem slotIn_element {base step n i : Nat} (hs : 0 < step) (hi : i < n) : slotIn (base + step * i) base step n = some i := by
  have h1 : step * i < step * n := Nat.mul_lt_mul_of_pos_left hi hs
  have h2 : base ≤ base + step * i ∧ base + step * i < base + step * n := by omega
  simp [slotIn, h2, Nat.mul_div_cancel_left i hs]

theorem alWrite_leaf {w : Nat} (p : Put) (s : State) (h : w < 32) : alWrite (0x200 + 8 * w) p s = w1cEvents w p s := by
  unfold alWrite
  split
  · omega
  · omega
  · omega
  · omega
  · rw [slotIn_element (by decide) h]

theorem csrWrite_al_leaf {w : Nat} (core : Option Nat) (v : W64) (s : State) (h : w < 20) :
    csrWrite { core := core, warden := true } (0x100000200 + 8 * w) 4 v s =
      clearEvents w (v.setWidth 32 &&& BitVec.ofNat 32 (eventMask w)) s := by
  have hwin : csrWindow (0x100000200 + 8 * w) = 0 := by unfold csrWindow; omega
  have hslot : csrSlot (0x100000200 + 8 * w) = 0x200 + 8 * w := by unfold csrSlot; omega
  rw [csrWrite, hwin, hslot, csrPut_four_aligned v (by omega)]
  exact alWrite_leaf _ s (by omega)

/-! ### Register writes (R4, R22–R25, R208, R209) -/

theorem exec_registerWrite_off {s : State} (src : RegSrc) (a width : Nat) (v : W64) (h : s.off = true) :
    exec (.registerWrite src a width v) s = .next s := by
  show execRegisterWrite src a width v s = _
  simp [execRegisterWrite, h]

theorem exec_registerWrite_core {s : State} {c a : Nat} (width : Nat) (v : W64) (hon : s.off = false) (hc : c < 26)
    (ha : isCsr a = true) : exec (.registerWrite (.core c) a width v) s = .next (coreRegWrite c a width v s) := by
  show execRegisterWrite (.core c) a width v s = _
  simp [execRegisterWrite, hon, hc, ha]

theorem exec_registerWrite_warden {s : State} {a width : Nat} (v : W64) (hon : s.off = false)
    (h : csrShape a width = true) :
    exec (.registerWrite .warden a width v) s = .next (csrWrite { core := none, warden := true } a width v s) := by
  show execRegisterWrite .warden a width v s = _
  simp [execRegisterWrite, hon, h]

theorem exec_registerWrite_bar0 {s : State} (fn a width : Nat) (v : W64) (hon : s.off = false) :
    exec (.registerWrite (.bar0 fn) a width v) s = .next (bar0Write fn a width v s) := by
  show execRegisterWrite (.bar0 fn) a width v s = _
  simp [execRegisterWrite, hon]

theorem exec_registerWrite_bar2 {s : State} (fn a width : Nat) (v : W64) (hon : s.off = false) :
    exec (.registerWrite (.bar2 fn) a width v) s = .next s := by
  show execRegisterWrite (.bar2 fn) a width v s = _
  simp [execRegisterWrite, hon]

/-- What R23 and the Bridle unit make of a core's register write. -/
theorem coreRegWrite_eq (c a width : Nat) (v : W64) (s : State) :
    (csrWidthBad a width = true →
      coreRegWrite c a width v s = takeExc c 0x05 (reinInfo 0 width a false) (getCore s c).pc (getCore s c).pc s) ∧
    (csrWidthBad a width = false → firstRefused s (coreAccess s c) true false a width = none →
      coreRegWrite c a width v s = csrWrite (whoCore s c) a width v s) ∧
    (∀ fa code, csrWidthBad a width = false → firstRefused s (coreAccess s c) true false a width = some (fa, code) →
      coreRegWrite c a width v s = impreciseArrive c fa (bridleFault (coreAccess s c) true fa code s)) := by
  refine ⟨fun hw => ?_, fun hw hr => ?_, fun fa code hw hr => ?_⟩
  · simp [coreRegWrite, hw]
  · simp [coreRegWrite, hw, hr]
  · simp [coreRegWrite, hw, hr]

/-! ### The host's BAR0 (R208, R227) -/

/-- An aligned 32-bit write of BAR0 at a ready function. -/
theorem bar0Write_word {fn : Nat} {s : State} (a : Nat) (v : W64) (h : funcReady s fn = true) :
    bar0Write fn a 4 v s = bar0Word fn a (v.setWidth 32) s := by
  simp [bar0Write, h]

theorem bar0Word_qsel (fn : Nat) (v : W64) (s : State) :
    bar0Word fn 0x10 (v.setWidth 32) s = updFunc fn (fun f => { f with qsel := v.toNat % 2 ^ 12 }) s := by
  have hv : natBits (v.setWidth 32).toNat 0 12 = v.toNat % 2 ^ 12 := by
    simp only [natBits, BitVec.toNat_setWidth]; omega
  rw [← hv]; rfl

theorem bar0Word_sqb_absent {fn : Nat} {s : State} (v : W64) (h : (getQueue s fn (getFunc s fn).qsel).st = 0) :
    bar0Word fn 0x18 (v.setWidth 32) s = updQueue fn (getFunc s fn).qsel (fun q => { q with
      sqb := (q.sqb &&& 0xFFFFFFFF00000000) ||| ((v.setWidth 32).setWidth 64 &&& 0xFFFFF000) }) s :=
  if_pos h

theorem bar0Word_sqb_in_use {fn : Nat} {s : State} (v : W32) (h : (getQueue s fn (getFunc s fn).qsel).st ≠ 0) :
    bar0Word fn 0x18 v s = s :=
  if_neg h

theorem bar0Word_ferr (fn : Nat) (v : W32) (s : State) :
    bar0Word fn 0x40 v s = updFunc fn (fun f => { f with ferr := f.ferr &&& ~~~(v &&& 0x1F) }) s := rfl

/-! ### Status reads (R77) -/

theorem exec_resultDoneRead {s : State} {c a : Nat} (hs : csrShape a 8 = true) (hm : coreMay s c false a = true) :
    exec (.resultDoneRead c a) s = .next (csrRead (whoCore s c) a 8 s).2 := by
  show execResultDoneRead c a s = _
  simp [execResultDoneRead, hs, hm]

theorem winsRead_status {u c w o : Nat} {who : Who} (s : State) (hw : who.core = some c) (hc : c < 26)
    (hf : winField u o = (c, w, .status)) :
    (winsRead who true u o s).2 = updWin u c w (fun x => { x with done := false }) s := by
  simp [winsRead, hf, hw, hc, winRead]

/-- The CSR windows of the five request units: a slot past the unit's own registers is one of its submission windows. -/
theorem slotRead_winsRead {n u o : Nat} (who : Who) (lo : Bool) (s : State)
    (hn : (n, u) ∈ [(2, 0), (4, 1), (3, 2), (6, 3), (5, 4)]) (ho : 0x10000 ≤ o) :
    slotRead who lo n o s = winsRead who lo u (winOff o) s := by
  simp only [List.mem_cons, Prod.mk.injEq, List.not_mem_nil, or_false] at hn
  obtain ⟨rfl, rfl⟩ | ⟨rfl, rfl⟩ | ⟨rfl, rfl⟩ | ⟨rfl, rfl⟩ | ⟨rfl, rfl⟩ := hn <;> exact if_pos ho

theorem csrRead_status {c a u w : Nat} (s : State) (hc : c < 26)
    (hn : (csrWindow a, u) ∈ [(2, 0), (4, 1), (3, 2), (6, 3), (5, 4)]) (ho : 0x10000 ≤ csrSlot a)
    (hf : winField u (winOff (csrSlot a)) = (c, w, .status)) :
    (csrRead (whoCore s c) a 8 s).2 = updWin u c w (fun x => { x with done := false }) s := by
  simp only [csrRead, slotRead_winsRead _ _ s hn ho, true_or, decide_true]
  exact winsRead_status s rfl hc hf

/-- Offset above 0x1_0000 of a slot that lies there. -/
theorem winOff_of_le {o : Nat} (h : 0x10000 ≤ o) : winOff o = o - 0x10000 := by unfold winOff; omega

theorem csrRead_cipher_status {c w : Nat} (s : State) (hc : c < 26) (hw : w < 8) :
    (csrRead (whoCore s c) (0x100210048 + 0x400 * c + 0x80 * w) 8 s).2 =
      updWin 0 c w (fun x => { x with done := false }) s := by
  have hwin : csrWindow (0x100210048 + 0x400 * c + 0x80 * w) = 2 := by unfold csrWindow; omega
  have hslot : csrSlot (0x100210048 + 0x400 * c + 0x80 * w) = 0x10048 + 0x400 * c + 0x80 * w := by unfold csrSlot; omega
  refine csrRead_status s hc (by rw [hwin]; decide) (by omega) ?_
  rw [hslot, winOff_of_le (by omega)]
  have h1 : (0x10048 + 0x400 * c + 0x80 * w - 0x10000) / 0x400 = c := by omega
  have h2 : (0x10048 + 0x400 * c + 0x80 * w - 0x10000) % 0x400 / 0x80 = w := by omega
  have h3 : (0x10048 + 0x400 * c + 0x80 * w - 0x10000) % 0x80 = 0x48 := by omega
  simp [winField, h1, h2, h3, fieldJob]

theorem csrRead_cv_status {c : Nat} (s : State) (hc : c < 26) :
    (csrRead (whoCore s c) (0x100C10058 + 0x80 * c) 8 s).2 = updCvWin c (fun x => { x with done := false }) s := by
  have hwin : csrWindow (0x100C10058 + 0x80 * c) = 12 := by unfold csrWindow; omega
  have hslot : csrSlot (0x100C10058 + 0x80 * c) = 0x10058 + 0x80 * c := by unfold csrSlot; omega
  have h1 : winOff (0x10058 + 0x80 * c) / 0x80 = c := by rw [winOff_of_le (by omega)]; omega
  have h2 : winOff (0x10058 + 0x80 * c) % 0x80 = 0x58 := by rw [winOff_of_le (by omega)]; omega
  have h3 : 0x10000 ≤ 0x10058 + 0x80 * c := by omega
  have h4 : ¬ 26 ≤ c := by omega
  simp [csrRead, hwin, hslot, slotRead, h3, cvWinRead, h1, h2, h4, whoCore]

theorem csrRead_card_status {c k : Nat} {s : State} (hw : (getCore s c).warden = true) (hk : k < 4) :
    (csrRead (whoCore s c) (0x100D30048 + 0x1000 * k) 8 s).2 =
      updEx k (fun w => { w with win := { w.win with done := false } }) s := by
  have hwin : csrWindow (0x100D30048 + 0x1000 * k) = 13 := by unfold csrWindow; omega
  have hslot : csrSlot (0x100D30048 + 0x1000 * k) = 0x30048 + 0x1000 * k := by unfold csrSlot; omega
  have h1 : slotIn (0x30048 + 0x1000 * k) 0x10000 0x1000 2 = none := if_neg (by omega)
  have h2 : slotIn (0x30048 + 0x1000 * k) 0x30000 0x1000 4 = some k := by
    have hk1 : (0x30048 + 0x1000 * k - 0x30000) / 0x1000 = k := by omega
    rw [slotIn, if_pos (by omega), hk1]
  have h3 : (0x30048 + 0x1000 * k) % 0x1000 = 0x48 := by omega
  simp [csrRead, hwin, hslot, slotRead, h1, h2, h3, exRead, whoCore, hw]

/-! ### Events only rise while they are raised -/

/-- Raising an event clears no leaf. -/
theorem setEvent_keeps_leaf {s : State} (w b : Nat) {x i : Nat} (h : (Tab.get 0 s.events x).getLsbD i = true) :
    (Tab.get 0 (setEvent w b s).events x).getLsbD i = true := by
  by_cases hx : x = w
  · subst hx
    rw [setEvent_events, Tab.get_upd_self, BitVec.getLsbD_or, h, Bool.true_or]
  · rw [setEvent_ne s b hx, h]

/-! ### What the response to a firing leaves alone (R405, R407, R411) -/

/-- Between a state and what a tamper response makes of it: memory, the Pacers, the contactless unit and the record of
what has fired stand, and no leaf of the alert tree falls. -/
structure ResponseFrame (s t : State) : Prop where
  mem : t.mem = s.mem
  pc : t.pc = s.pc
  nf : t.nf = s.nf
  fired : t.tm.fired = s.tm.fired
  leaves : ∀ w b, (Tab.get 0 s.events w).getLsbD b = true → (Tab.get 0 t.events w).getLsbD b = true

theorem ResponseFrame.refl (s : State) : ResponseFrame s s := ⟨rfl, rfl, rfl, rfl, fun _ _ h => h⟩

theorem ResponseFrame.trans {s t u : State} (h1 : ResponseFrame s t) (h2 : ResponseFrame t u) : ResponseFrame s u where
  mem := h2.mem.trans h1.mem
  pc := h2.pc.trans h1.pc
  nf := h2.nf.trans h1.nf
  fired := h2.fired.trans h1.fired
  leaves w b h := h2.leaves w b (h1.leaves w b h)

theorem setEventIf_frame (c : Bool) (w b : Nat) (s : State) : ResponseFrame s (setEventIf c w b s) := by
  cases c
  · exact ResponseFrame.refl s
  · exact ⟨Laws.setEvent_mem .., setEvent_pc .., setEvent_nf .., congrArg TamperUnit.fired (setEvent_tm ..),
      fun _ _ h => setEvent_keeps_leaf w b h⟩

theorem zeroKeep_frame (s : State) : ResponseFrame s (zeroKeep s) :=
  ResponseFrame.trans (t := { s with tk := { s.tk with
      keep := none, sbRec := none,
      paddocks := Tab.mapVals Paddock.absent (fun _ p => { p with master := none }) s.tk.paddocks } })
    ⟨rfl, rfl, rfl, rfl, fun _ _ h => h⟩ ((setEventIf_frame ..).trans (setEventIf_frame ..))

theorem askShed_frame (s : State) : ResponseFrame s (askShed s) := by
  unfold askShed
  split
  · exact ⟨rfl, rfl, rfl, rfl, fun _ _ h => h⟩
  · split
    · exact ResponseFrame.refl s
    · exact ⟨rfl, rfl, rfl, rfl, fun _ _ h => h⟩

/-- What executes is noted in the tamper unit alone. -/
theorem ResponseFrame.note_running {s t : State} (h : ResponseFrame s t) (r : Nat) :
    ResponseFrame s { t with tm := { t.tm with running := r } } :=
  h.trans ⟨rfl, rfl, rfl, rfl, fun _ _ h => h⟩

theorem respond_frame (r : Nat) (s : State) : ResponseFrame s (respond r s) := by
  unfold respond
  split
  · exact ResponseFrame.refl s
  · split
    · refine ResponseFrame.note_running ?_ _
      split
      · exact zeroKeep_frame s
      · exact (zeroKeep_frame s).trans (askShed_frame _)
    · split
      · exact (askShed_frame s).note_running 2
      · exact ResponseFrame.refl s

theorem updHeld_frame (s : State) : ResponseFrame s (updHeld s) := ⟨rfl, rfl, rfl, rfl, fun _ _ h => h⟩

theorem setEventIf_tk (c : Bool) (w b : Nat) (s : State) : (setEventIf c w b s).tk = s.tk := by
  cases c
  · rfl
  · exact setEvent_tk ..

theorem setEventIf_tm (c : Bool) (w b : Nat) (s : State) : (setEventIf c w b s).tm = s.tm := by
  cases c
  · rfl
  · exact setEvent_tm ..

theorem askShed_tk (s : State) : (askShed s).tk = s.tk := by
  unfold askShed
  split
  · rfl
  · split <;> rfl

theorem zeroKeep_keep (s : State) : (zeroKeep s).tk.keep = none := by
  simp only [zeroKeep, setEventIf_tk]

/-- A ZERO that is above what executes clears the keep key (R405, R409). -/
theorem respond_zero_keep {r : Nat} {s : State} (hr : 3 ≤ r) (hs : s.tm.running < 3) : (respond r s).tk.keep = none := by
  have h1 : ¬ (r ≤ s.tm.running ∧ 2 ≤ s.tm.running) := by omega
  simp only [respond, if_neg h1, if_pos hr]
  split
  · exact zeroKeep_keep s
  · rw [askShed_tk, zeroKeep_keep]

/-! ### A firing (R9, R404, R411, R412) -/

/-- A firing takes a latch: it is recorded as fired and executes nothing yet. -/
theorem takeLatch_spec (i resp : Nat) (simul bist : Bool) (s : State) :
    (takeLatch i resp simul bist s).mem = s.mem ∧ (takeLatch i resp simul bist s).pc = s.pc ∧
      (takeLatch i resp simul bist s).nf = s.nf ∧ (takeLatch i resp simul bist s).tm.running = s.tm.running ∧
      (takeLatch i resp simul bist s).tm.fired = Tab.set false s.tm.fired i true := by
  unfold takeLatch
  dsimp only
  cases freeLatch s <;> cases s.pm.onCell <;> simp [setEventIf, itemAdd, itemAddQuiet]

/-- One sensor alone fires: it takes its latch, its warning is raised and the response assigned to it is executed. -/
theorem fireGroup_single (i : Nat) (bist : Bool) (s : State) :
    fireGroup [i] bist s = updHeld (respond (effResp s i) (setEventIf (!s.pm.onCell && decide (1 ≤ effResp s i)) 15 0
      (takeLatch i (max (effResp s i) s.tm.running) false bist s))) := by
  simp [fireGroup]

/-- A sensor that had not fired fires on the running device. -/
theorem fireBrief_fires {i : Nat} (bist : Bool) {s : State} (hf : Tab.get false s.tm.fired i = false)
    (hc : s.pm.onCell = false) :
    Tab.get false (fireBrief i bist s).tm.fired i = true ∧ (fireBrief i bist s).mem = s.mem ∧
      (fireBrief i bist s).pc = s.pc ∧ (fireBrief i bist s).nf = s.nf ∧
      (1 ≤ effResp s i → (Tab.get 0 (fireBrief i bist s).events 15).getLsbD 0 = true) ∧
      (effResp s i = 3 → s.tm.running < 3 → (fireBrief i bist s).tk.keep = none) := by
  obtain ⟨hmem, hpc, hnf, hrun, hfired⟩ := takeLatch_spec i (max (effResp s i) s.tm.running) false bist s
  simp only [fireBrief, hf, Bool.false_eq_true, if_false, fireGroup_single, hc, Bool.not_false, Bool.true_and]
  generalize takeLatch i (max (effResp s i) s.tm.running) false bist s = l at *
  generalize hw : setEventIf (decide (1 ≤ effResp s i)) 15 0 l = w
  have warned : ResponseFrame l w := hw ▸ setEventIf_frame ..
  have done : ResponseFrame w (updHeld (respond (effResp s i) w)) := (respond_frame _ w).trans (updHeld_frame _)
  have all : ResponseFrame l (updHeld (respond (effResp s i) w)) := warned.trans done
  refine ⟨?_, all.mem.trans hmem, all.pc.trans hpc, all.nf.trans hnf, fun h1 => done.leaves 15 0 ?_, fun h3 hr => ?_⟩
  · rw [all.fired, hfired, Tab.get_set_self]
  · rw [← hw, decide_eq_true h1]
    exact setEvent_self l 15 0 (by decide)
  · refine respond_zero_keep (r := effResp s i) (s := w) (by omega) ?_
    rw [← hw, setEventIf_tm, hrun]
    exact hr

/-! ### The die link (R9, R24) -/

theorem onCell_eq_false_of_not_off {s : State} (h : s.off = false) : s.pm.onCell = false := by
  simp only [State.off, Bool.or_eq_false_iff] at h
  exact h.1

theorem exec_dieLink_bad {s : State} {key : List Byte} {intact : Bool} (a : Nat) (v : W64) (hon : s.off = false)
    (h : linkGood s key intact = false) :
    exec (.dieLinkTransfer ⟨key, intact⟩ a v) s = .next (fireBrief 14 false s) := by
  show execDieLinkTransfer ⟨key, intact⟩ a v s = _
  simp [execDieLinkTransfer, hon, h]

theorem exec_dieLink_good {s : State} {key : List Byte} {intact : Bool} (a : Nat) (v : W64) (hon : s.off = false)
    (h : linkGood s key intact = true) :
    exec (.dieLinkTransfer ⟨key, intact⟩ a v) s =
      if onVaultDie a ∧ csrShape a 8 then .next (csrWrite { core := none, warden := true } a 8 v s) else .next s := by
  show execDieLinkTransfer ⟨key, intact⟩ a v s = _
  simp [execDieLinkTransfer, hon, h]

theorem linkGood_of_key {s : State} {key : List Byte} (hk : key = s.pm.linkKey) (hne : key ≠ []) :
    linkGood s key true = true := by
  subst hk
  simp [linkGood, hne]

theorem linkGood_eq_false {s : State} {key : List Byte} {intact : Bool}
    (h : intact = false ∨ key ≠ s.pm.linkKey ∨ key = []) : linkGood s key intact = false := by
  rw [Bool.eq_false_iff]
  intro hg
  simp only [linkGood, Bool.and_eq_true, Bool.not_eq_true', List.isEmpty_eq_false_iff, beq_iff_eq] at hg
  obtain ⟨⟨hi, hne⟩, hk⟩ := hg
  rcases h with h | h | h
  · rw [hi] at h; cases h
  · exact h hk
  · exact hne (hk ▸ h)

theorem csrWrite_nf_timeout (v : W64) (s : State) :
    csrWrite { core := none, warden := true } 0x100E00040 8 v s = { s with nf := { s.nf with timeout := v.setWidth 32 } } := by
  have h : csrWrite { core := none, warden := true } 0x100E00040 8 v s = { s with nf := { s.nf with
      timeout := rw { lo := some (v.setWidth 32), hi := some ((v >>> 32).setWidth 32) } 0xFFFFFFFF s.nf.timeout } } := rfl
  rw [h, rw_whole_of_lo]

/-! ### A scrub round (R17, R18, R457) -/

/-- A word that the scrubber corrects. -/
def scrubFixed (s : State) (w : SramWord) : State := itemAddQuiet (eccItem (wordArea w)) 1 s

/-- A word that the scrubber finds uncorrectable. -/
def scrubBad (s : State) (w : SramWord) : State := eccFound (wordArea w) (poisonWord w s)

/-- The state after a round. -/
def scrubbed (bad fixed : List SramWord) (s : State) : State :=
  (bad.filter (wordExists s)).foldl scrubBad ((fixed.filter (wordExists s)).foldl scrubFixed s)

theorem exec_sramScrub {s : State} (bad fixed : List SramWord) (hon : s.off = false) :
    exec (.sramScrub bad fixed) s = .next (scrubbed bad fixed s) := by
  show execSramScrub bad fixed s = _
  simp only [execSramScrub, hon, Bool.false_eq_true, if_false]
  rfl

/-! #### Folds over the words of a round -/

section Fold
variable {f : State → SramWord → State}

/-- What no word changes the round does not change. -/
theorem foldl_unchanged {β : Type} {g : State → β} {l : List SramWord} (h : ∀ st, ∀ w ∈ l, g (f st w) = g st) (s : State) :
    g (l.foldl f s) = g s :=
  List.foldlRecOn (motive := fun t => g t = g s) l f rfl fun st hst w hw => (h st w hw).trans hst

/-- What one word of the round brings about and every word keeps holds at its end. -/
theorem foldl_of_mem {P : State → Prop} {w : SramWord} {l : List SramWord} (hw : w ∈ l) (brings : ∀ st, P (f st w))
    (keeps : ∀ st x, P st → P (f st x)) (s : State) : P (l.foldl f s) := by
  induction l generalizing s with
  | nil => cases hw
  | cons x l ih =>
    rw [List.foldl_cons]
    rcases List.mem_cons.mp hw with rfl | hmem
    · exact List.foldlRecOn l f (brings s) fun st hst y _ => keeps st y hst
    · exact ih hmem _

/-- A number to which each word of a kind adds one. -/
theorem foldl_counts {g : State → Nat} {p : SramWord → Bool} (h : ∀ st w, g (f st w) = g st + if p w then 1 else 0)
    (l : List SramWord) (s : State) : g (l.foldl f s) = g s + (l.filter p).length := by
  induction l generalizing s with
  | nil => rfl
  | cons w l ih =>
    rw [List.foldl_cons, ih, h, List.filter_cons]
    split
    · rw [List.length_cons]; omega
    · rw [Nat.add_zero]

end Fold

/-! #### One word -/

/-- A word poisoned leaves everything but the poison of its area. -/
theorem poisonWord_frame (w : SramWord) (s : State) :
    (poisonWord w s).mem.ram = s.mem.ram ∧ (poisonWord w s).mem.tags = s.mem.tags ∧ (poisonWord w s).pc = s.pc ∧
      (poisonWord w s).time = s.time ∧ (poisonWord w s).ledger = s.ledger ∧ (poisonWord w s).events = s.events := by
  cases w <;> exact ⟨rfl, rfl, rfl, rfl, rfl, rfl⟩

/-- An uncorrectable word met changes the ledger and the alert tree alone. -/
theorem eccFound_frame (area : Nat) (s : State) :
    (eccFound area s).pc = s.pc ∧ (eccFound area s).time = s.time ∧ (eccFound area s).tk = s.tk ∧
      (eccFound area s).pk = s.pk := by
  simp only [eccFound, raiseLeaf, setEvent_pc, setEvent_time, setEvent_tk, setEvent_pk]
  exact ⟨rfl, rfl, rfl, rfl⟩

theorem get_items_itemAddQuiet (code n k : Nat) (s : State) :
    Tab.get 0 (itemAddQuiet code n s).ledger.items k = Tab.get 0 s.ledger.items k + if k = code then n else 0 := by
  simp only [itemAddQuiet, Tab.get_upd]
  split
  · next h => rw [h]
  · rfl

theorem queueItem_items (code : Nat) (l : Ledger) : (queueItem code l).items = l.items := by
  unfold queueItem
  dsimp only
  split <;> rfl

theorem itemAdd_items (code n : Nat) (s : State) : (itemAdd code n s).ledger.items = (itemAddQuiet code n s).ledger.items :=
  queueItem_items ..

theorem get_items_scrubFixed (s : State) (w : SramWord) (k : Nat) :
    Tab.get 0 (scrubFixed s w).ledger.items k = Tab.get 0 s.ledger.items k + if k = eccItem (wordArea w) then 1 else 0 :=
  get_items_itemAddQuiet ..

theorem get_items_scrubBad (s : State) (w : SramWord) (k : Nat) :
    Tab.get 0 (scrubBad s w).ledger.items k = Tab.get 0 s.ledger.items k + if k = eccItem (wordArea w) + 1 then 1 else 0 := by
  obtain ⟨-, -, -, -, hledger, -⟩ := poisonWord_frame w s
  simp only [scrubBad, eccFound, raiseLeaf, setEvent_ledger, itemAdd_items, get_items_itemAddQuiet, hledger]

/-- The leaf an alert names is raised. -/
theorem raiseLeaf_raised (v : Nat) (s : State) :
    (Tab.get 0 (raiseLeaf v s).events (v / 32 % 20)).getLsbD (v % 32 % Nat.log2 (eventMask (v / 32 % 20) + 1)) = true :=
  setEvent_self _ _ _ (Nat.lt_of_le_of_lt (Nat.mod_le ..) (Nat.mod_lt _ (by decide)))

theorem scrubBad_raised (s : State) (w : SramWord) :
    (Tab.get 0 (scrubBad s w).events (Config.eccLeaf (wordArea w) / 32 % 20)).getLsbD
      (Config.eccLeaf (wordArea w) % 32 % Nat.log2 (eventMask (Config.eccLeaf (wordArea w) / 32 % 20) + 1)) = true :=
  raiseLeaf_raised ..

theorem scrubBad_keeps_leaf (s : State) (w : SramWord) {x i : Nat} (h : (Tab.get 0 s.events x).getLsbD i = true) :
    (Tab.get 0 (scrubBad s w).events x).getLsbD i = true := by
  obtain ⟨-, -, -, -, -, hevents⟩ := poisonWord_frame w s
  refine setEvent_keeps_leaf _ _ ?_
  show (Tab.get 0 (poisonWord w s).events x).getLsbD i = true
  rw [hevents, h]

theorem scrubBad_mem (s : State) (w : SramWord) : (scrubBad s w).mem = (poisonWord w s).mem := eccFound_mem ..

/-- An uncorrectable word leaves every byte, every tag, the Pacers and the time. -/
theorem scrubBad_frame (s : State) (w : SramWord) :
    (scrubBad s w).mem.ram = s.mem.ram ∧ (scrubBad s w).mem.tags = s.mem.tags ∧ (scrubBad s w).pc = s.pc ∧
      (scrubBad s w).time = s.time := by
  obtain ⟨hram, htags, hpc, htime, -, -⟩ := poisonWord_frame w s
  obtain ⟨hpc', htime', -, -⟩ := eccFound_frame (wordArea w) (poisonWord w s)
  rw [scrubBad_mem]
  exact ⟨hram, htags, hpc'.trans hpc, htime'.trans htime⟩

/-- Whether a word is one of the mapped word `i`. -/
def isMappedWord (i : Nat) : SramWord → Bool
  | .addr a => a / 8 == i
  | _ => false

/-- Whether a word is the bank word whose poison stands at `i`. -/
def isBankWord (i : Nat) : SramWord → Bool
  | .bank e b j => 8192 * e + 1024 * b + j == i
  | _ => false

/-- Whether a word is of the tack `h`. -/
def isTackWord (h : Nat) : SramWord → Bool
  | .tack k => k == h
  | _ => false

theorem get_set_true (t : Tab Bool) (k i : Nat) : Tab.get false (Tab.set false t k true) i = (Tab.get false t i || k == i) := by
  rw [Tab.get_set]
  by_cases h : i = k
  · simp [h]
  · simp [h, Ne.symm h]

/-- Poison of mapped memory after one word. -/
theorem get_poison_scrubBad (s : State) (w : SramWord) (i : Nat) :
    Tab.get false (scrubBad s w).mem.poison i = (Tab.get false s.mem.poison i || isMappedWord i w) := by
  rw [scrubBad_mem]
  cases w with
  | addr a => exact get_set_true ..
  | tack h => exact (Bool.or_false _).symm
  | bank e b j => exact (Bool.or_false _).symm

/-- Poison of the operand banks after one word. -/
theorem get_bankPoison_scrubBad (s : State) (w : SramWord) (i : Nat) :
    Tab.get false (scrubBad s w).pk.poison i = (Tab.get false s.pk.poison i || isBankWord i w) := by
  obtain ⟨-, -, -, hpk⟩ := eccFound_frame (wordArea w) (poisonWord w s)
  rw [scrubBad, hpk]
  cases w with
  | addr a => exact (Bool.or_false _).symm
  | tack h => exact (Bool.or_false _).symm
  | bank e b j => exact get_set_true ..

/-- A tack's record after one tack is changed. -/
theorem tackRec_updTack (k h : Nat) (f : Tack → Tack) (s : State) :
    tackRec (updTack k f s) h = if k = h then (tackRec s h).map f else tackRec s h := by
  unfold tackRec updTack
  dsimp only
  induction s.tk.tacks with
  | nil => simp
  | cons p l ih =>
    simp only [List.map_cons, List.find?_cons]
    by_cases hp : p.1 = h
    · by_cases hk : k = h
      · simp [hp, hk]
      · simp [hp, hk, Ne.symm hk]
    · have hne : ((if p.1 = k then (p.1, f p.2) else p).1 == h) = false := by
        split <;> simp [hp]
      have hpf : (p.1 == h) = false := by simp [hp]
      simp only [hne, hpf, ih]

/-- A tack's record after one word. -/
theorem tackRec_scrubBad (s : State) (w : SramWord) (h : Nat) :
    tackRec (scrubBad s w) h =
      if isTackWord h w then (tackRec s h).map (fun t => { t with bad := true }) else tackRec s h := by
  obtain ⟨-, -, htk, -⟩ := eccFound_frame (wordArea w) (poisonWord w s)
  have hrec : tackRec (scrubBad s w) h = tackRec (poisonWord w s) h := by simp only [tackRec, scrubBad, htk]
  rw [hrec]
  cases w with
  | addr a => rfl
  | tack k => simp [poisonWord, tackRec_updTack, isTackWord]
  | bank e b j => rfl

/-! #### The round -/

/-- What neither a corrected nor an uncorrectable word changes, a round leaves as it is. -/
theorem scrubbed_unchanged {β : Type} (g : State → β) {bad : List SramWord} (hfix : ∀ st w, g (scrubFixed st w) = g st)
    (hbad : ∀ st, ∀ w ∈ bad, g (scrubBad st w) = g st) (fixed : List SramWord) (s : State) :
    g (scrubbed bad fixed s) = g s :=
  (foldl_unchanged (fun st w hw => hbad st w (List.mem_filter.mp hw).1) _).trans
    (foldl_unchanged (fun st w _ => hfix st w) s)

/-- What an existing uncorrectable word brings about and every such word keeps holds after the round. -/
theorem scrubbed_of_mem {P : State → Prop} {w : SramWord} {bad : List SramWord} {s : State} (hw : w ∈ bad)
    (hex : wordExists s w = true) (brings : ∀ st, P (scrubBad st w)) (keeps : ∀ st x, P st → P (scrubBad st x))
    (fixed : List SramWord) : P (scrubbed bad fixed s) :=
  foldl_of_mem (List.mem_filter.mpr ⟨hw, hex⟩) brings keeps _

theorem scrubbed_frame (bad fixed : List SramWord) (s : State) :
    (scrubbed bad fixed s).mem.ram = s.mem.ram ∧ (scrubbed bad fixed s).mem.tags = s.mem.tags ∧
      (scrubbed bad fixed s).pc = s.pc ∧ (scrubbed bad fixed s).time = s.time := by
  have h := scrubbed_unchanged (fun st => (st.mem.ram, st.mem.tags, st.pc, st.time)) (bad := bad) (fun _ _ => rfl)
    (fun st w _ => by
      obtain ⟨hram, htags, hpc, htime⟩ := scrubBad_frame st w
      rw [hram, htags, hpc, htime]) fixed s
  simpa only [Prod.mk.injEq] using h

/-- Each area's two items count its words of the round: correction items are odd, those of uncorrectable words even. -/
theorem scrubbed_items (bad fixed : List SramWord) (s : State) (area : Nat) :
    Tab.get 0 (scrubbed bad fixed s).ledger.items (eccItem area + 1) = Tab.get 0 s.ledger.items (eccItem area + 1) +
        (bad.filter (fun w => wordExists s w && wordArea w == area)).length ∧
      Tab.get 0 (scrubbed bad fixed s).ledger.items (eccItem area) = Tab.get 0 s.ledger.items (eccItem area) +
        (fixed.filter (fun w => wordExists s w && wordArea w == area)).length := by
  have same : ∀ w, eccItem area = eccItem (wordArea w) ↔ (wordArea w == area) = true := fun w => by
    rw [beq_iff_eq]; unfold eccItem; omega
  have apart : ∀ w, eccItem area + 1 ≠ eccItem (wordArea w) := fun w => by unfold eccItem; omega
  have apart' : ∀ w, eccItem area ≠ eccItem (wordArea w) + 1 := fun w => by unfold eccItem; omega
  have hfilter : ∀ l : List SramWord, l.filter (fun w => wordExists s w && wordArea w == area) =
      (l.filter (wordExists s)).filter (fun w => wordArea w == area) := fun l => by
    simp only [List.filter_filter, Bool.and_comm]
  simp only [hfilter, scrubbed]
  constructor
  · rw [foldl_counts (g := fun st => Tab.get 0 st.ledger.items (eccItem area + 1)) (p := fun w => wordArea w == area)
      (fun st w => by simp only [get_items_scrubBad, Nat.add_right_cancel_iff, same])]
    congr 1
    exact foldl_unchanged (g := fun st => Tab.get 0 st.ledger.items (eccItem area + 1))
      (fun st w _ => by simp only [get_items_scrubFixed, apart, if_false, Nat.add_zero]) s
  · rw [foldl_unchanged (g := fun st => Tab.get 0 st.ledger.items (eccItem area))
      (fun st w _ => by simp only [get_items_scrubBad, apart', if_false, Nat.add_zero])]
    exact foldl_counts (g := fun st => Tab.get 0 st.ledger.items (eccItem area)) (p := fun w => wordArea w == area)
      (fun st w => by simp only [get_items_scrubFixed, same]) _ s

theorem scrubbed_raised {bad : List SramWord} {w : SramWord} {s : State} (fixed : List SramWord) (hw : w ∈ bad)
    (hex : wordExists s w = true) :
    (Tab.get 0 (scrubbed bad fixed s).events (Config.eccLeaf (wordArea w) / 32 % 20)).getLsbD
      (Config.eccLeaf (wordArea w) % 32 % Nat.log2 (eventMask (Config.eccLeaf (wordArea w) / 32 % 20) + 1)) = true :=
  scrubbed_of_mem (P := fun st => (Tab.get 0 st.events (Config.eccLeaf (wordArea w) / 32 % 20)).getLsbD
      (Config.eccLeaf (wordArea w) % 32 % Nat.log2 (eventMask (Config.eccLeaf (wordArea w) / 32 % 20) + 1)) = true)
    hw hex (fun st => scrubBad_raised st w) (fun st x h => scrubBad_keeps_leaf st x h) fixed

theorem scrubbed_poisons_addr {bad : List SramWord} {a : Nat} (fixed : List SramWord) (s : State) (ha : .addr a ∈ bad)
    (hs : isSram a = true) : Tab.get false (scrubbed bad fixed s).mem.poison (a / 8) = true :=
  scrubbed_of_mem (P := fun st => Tab.get false st.mem.poison (a / 8) = true) ha hs
    (fun st => by simp [get_poison_scrubBad, isMappedWord]) (fun st x h => by rw [get_poison_scrubBad, h, Bool.true_or]) fixed

theorem scrubbed_poison_elsewhere {bad : List SramWord} {i : Nat} (fixed : List SramWord) (s : State)
    (h : ∀ a, .addr a ∈ bad → a / 8 ≠ i) :
    Tab.get false (scrubbed bad fixed s).mem.poison i = Tab.get false s.mem.poison i := by
  refine scrubbed_unchanged (fun st => Tab.get false st.mem.poison i) (fun _ _ => rfl) (fun st w hw => ?_) fixed s
  have hi : isMappedWord i w = false := by
    cases w with
    | addr a => exact beq_false_of_ne (h a hw)
    | tack k => rfl
    | bank e b j => rfl
  simp only [get_poison_scrubBad, hi, Bool.or_false]

theorem scrubbed_poisons_bank {bad : List SramWord} {e b i : Nat} (fixed : List SramWord) (s : State)
    (hw : .bank e b i ∈ bad) (he : e < 68) (hb : b < 8) (hi : i < 1024) :
    Tab.get false (scrubbed bad fixed s).pk.poison (8192 * e + 1024 * b + i) = true :=
  scrubbed_of_mem (P := fun st => Tab.get false st.pk.poison (8192 * e + 1024 * b + i) = true) hw
    (by simp [wordExists, he, hb, hi])
    (fun st => by simp [get_bankPoison_scrubBad, isBankWord])
    (fun st x h => by rw [get_bankPoison_scrubBad, h, Bool.true_or]) fixed

theorem scrubbed_tack_elsewhere {bad : List SramWord} {h : Nat} (fixed : List SramWord) (s : State) (hn : .tack h ∉ bad) :
    tackRec (scrubbed bad fixed s) h = tackRec s h := by
  refine scrubbed_unchanged (fun st => tackRec st h) (fun _ _ => rfl) (fun st w hw => ?_) fixed s
  have hw' : isTackWord h w = false := by
    cases w with
    | addr a => rfl
    | tack k => exact beq_false_of_ne fun e => hn (e ▸ hw)
    | bank e b j => rfl
  simp [tackRec_scrubBad, hw']

/-- A resident tack found uncorrectable stands poisoned: its record remains, and every record it has is poisoned. -/
theorem scrubbed_poisons_tack {bad : List SramWord} {h : Nat} {x : Tack} {s : State} (fixed : List SramWord)
    (hw : .tack h ∈ bad) (hx : tackRec s h = some x) (hr : x.resident = true) :
    (tackRec (scrubbed bad fixed s) h).any (fun y => y.bad) = true := by
  have hall : (tackRec (scrubbed bad fixed s) h).all (fun y => y.bad) = true :=
    scrubbed_of_mem (P := fun st => (tackRec st h).all (fun y => y.bad) = true) hw
      (by simp [wordExists, hx, hr])
      (fun st => by cases hrec : tackRec st h <;> simp [tackRec_scrubBad, isTackWord, hrec])
      (fun st y hst => by
        rw [tackRec_scrubBad]
        split
        · cases tackRec st h <;> rfl
        · exact hst) fixed
  have hsome : (tackRec (scrubbed bad fixed s) h).isSome = (tackRec s h).isSome :=
    scrubbed_unchanged (fun st => (tackRec st h).isSome) (fun _ _ => rfl)
      (fun st w _ => by simp only [tackRec_scrubBad]; split <;> simp) fixed s
  rw [hx] at hsome
  cases hrec : tackRec (scrubbed bad fixed s) h with
  | none => rw [hrec] at hsome; cases hsome
  | some y => rw [hrec] at hall; exact hall

/-! ### The statement -/

/-- Settles O8, clause by clause: what a write's source, shape and Bridle judgement make of it, the DONE bit of each window
kind, a firing of sensor 14, and a fold over the words of a scrub round. -/
theorem registerAccessesAct : Obligations.RegisterAccessesAct := by
  unfold Obligations.RegisterAccessesAct
  refine ⟨?registerWrites, ?statusReads, ?dieLink, ?scrub⟩
  case registerWrites =>
    intro s c a width v
    obtain ⟨badShape, lets, refuses⟩ := coreRegWrite_eq c a width v s
    refine ⟨fun hoff src => exec_registerWrite_off src a width v hoff, fun hon => ⟨?_, ?_, ?_, ?_, ?_⟩,
      csrWrite_al_pinen (some c) v s, csrWrite_al_paddock_level (some c) v s,
      fun w hw => csrWrite_al_leaf (some c) v s hw, fun fn hon hr => ?_⟩
    · intro hc ha hw hr
      rw [exec_registerWrite_core width v hon hc ha, lets hw hr]
    · intro hc ha hw
      rw [exec_registerWrite_core width v hon hc ha, badShape hw]
    · intro fa code hc ha hw hr
      rw [exec_registerWrite_core width v hon hc ha, refuses fa code hw hr]
    · exact fun hshape => exec_registerWrite_warden v hon hshape
    · exact fun fn => exec_registerWrite_bar2 fn a width v hon
    · simp only [exec_registerWrite_bar0 fn _ 4 v hon, bar0Write_word _ v hr]
      refine ⟨?_, fun hq => ?_, fun hq => ?_, ?_⟩
      · rw [bar0Word_qsel]
      · rw [bar0Word_sqb_absent v hq]
      · rw [bar0Word_sqb_in_use _ hq]
      · rw [bar0Word_ferr]
  case statusReads =>
    intro s c a hc hs hm
    simp only [exec_resultDoneRead hs hm, Host.Outcome.next.injEq]
    refine ⟨trivial, fun u w hu ho hf => csrRead_status s hc hu ho hf, fun w hw ha => ?_, fun ha => ?_, fun k hk hwd ha => ?_⟩
    · rw [ha, csrRead_cipher_status s hc hw]
    · rw [ha, csrRead_cv_status s hc]
    · rw [ha, csrRead_card_status hwd hk]
  case dieLink =>
    intro s key a v hon
    refine ⟨fun hk hne => ⟨fun hv hshape => ?_, fun hv => ?_, ?_⟩, fun intact hbad hf => ?_⟩
    · rw [exec_dieLink_good a v hon (linkGood_of_key hk hne), if_pos ⟨hv, hshape⟩]
    · rw [exec_dieLink_good a v hon (linkGood_of_key hk hne), if_neg (by simp [hv])]
    · rw [exec_dieLink_good _ v hon (linkGood_of_key hk hne), if_pos (by decide), csrWrite_nf_timeout]
    · obtain ⟨hfired, hmem, hpc, hnf, hleaf, hkeep⟩ := fireBrief_fires false hf (onCell_eq_false_of_not_off hon)
      exact ⟨_, exec_dieLink_bad a v hon (linkGood_eq_false hbad), hfired, hmem, hpc, hnf, hleaf, hkeep⟩
  case scrub =>
    intro s bad fixed hon
    obtain ⟨hram, htags, hpc, htime⟩ := scrubbed_frame bad fixed s
    exact ⟨_, exec_sramScrub bad fixed hon, hram, htags, hpc, htime, fun area _ => scrubbed_items bad fixed s area,
      fun w hw hex => scrubbed_raised fixed hw hex, fun a ha hs => scrubbed_poisons_addr fixed s ha hs,
      fun i hi => scrubbed_poison_elsewhere fixed s hi, fun h x hw hx hr => scrubbed_poisons_tack fixed hw hx hr,
      fun h hn => scrubbed_tack_elsewhere fixed s hn,
      fun e b i hw he hb hi => scrubbed_poisons_bank fixed s hw he hb hi⟩

end Sys2Proof.Proofs
end

section
/-! Every command keeps memory in its canonical form: what an outcome keeps, the Pacer instructions, the commands that
branch, and the dispatch over all of them. -/

namespace Sys2Proof.Proofs

open Sys2Proof Sys2Proof.Machine

/-! ### Outcomes that keep memory's form -/

/-- Every state that an outcome goes on in has memory in canonical form if `s` has. -/
structure OutKeeps (s : State) (o : Host.Outcome State Fault Refusal) : Prop where
  keep : ∀ t, o = .next t → KeepMem t s

section Rules
variable {s t u : State} {o p : Host.Outcome State Fault Refusal} {c : Prop} {dec : Decidable c}

theorem OutKeeps.next (h : KeepMem t s) : OutKeeps s (.next t) where
  keep := by
    rintro _ ⟨⟩
    exact h

/-- A command that leaves memory as it is. -/
theorem OutKeeps.same (h : t.mem = s.mem) : OutKeeps s (.next t) := .next (.of_eq h)

theorem OutKeeps.idle : OutKeeps s (.next s) := .next (.refl s)

theorem OutKeeps.ite (ho : OutKeeps s o) (hp : OutKeeps s p) : OutKeeps s (if c then o else p) := by
  split
  · exact ho
  · exact hp

/-- A command that acts under a condition. -/
theorem OutKeeps.guard (h : KeepMem t s) : OutKeeps s (if c then .next t else .next s) := .ite (.next h) .idle

/-- A command that acts unless a condition holds. -/
theorem OutKeeps.unless (h : KeepMem t s) : OutKeeps s (if c then .next s else .next t) := .ite .idle (.next h)

/-- A command that runs from a state of the same memory. -/
theorem OutKeeps.of_mem (ho : OutKeeps u o) (h : u.mem = s.mem) : OutKeeps s o where
  keep t ht := (ho.keep t ht).trans (.of_eq h)

/-- A change outside memory after an operation that keeps its form. -/
theorem keepMem_then (hu : KeepMem u s) (h : t.mem = u.mem) : KeepMem t s := (KeepMem.of_eq h).trans hu

/-- Only the body of an instruction has to be looked at: fetch, exceptions and completion keep memory's form. -/
theorem OutKeeps.issue {k : Nat} {f : Form} {body : Nat → State → Res} (h : ∀ c t, KeepMem (body c t).st t) :
    OutKeeps s (.next (issue k f body s)) := .next (issue_wf k f body s h)

end Rules

/-! ### Pacer instructions (R253–R300) -/

/-- An entry found on top of the return stack, refilled from memory or not, has been read only. -/
theorem mem_of_topEntry_entry {s t : State} {c : Nat} {e : RsEntry} (h : topEntry c s = .entry e t) : t.mem = s.mem := by
  unfold topEntry at h
  dsimp only at h
  repeat' split at h
  all_goals cases h <;> rfl

/-- A refill that fails leaves memory as it is. -/
theorem mem_of_topEntry_failed {s t : State} {c n : Nat} (h : topEntry c s = .failed n t) : t.mem = s.mem := by
  unfold topEntry at h
  dsimp only at h
  repeat' split at h
  all_goals cases h <;> simp

section Pacer
variable (k : Nat) (d a b : BitVec 6) (s : State)

theorem execLoop_keeps (disp : BitVec 19) : OutKeeps s (execLoop k a disp s) :=
  .issue fun _ _ => by dsimp only; split <;> exact .of_eq rfl

theorem execCall_keeps (disp : BitVec 25) : OutKeeps s (execCall k disp s) :=
  .issue fun c t => by dsimp only; split <;> exact pushEntry_wf c _ t

theorem execRet_keeps : OutKeeps s (execRet k d a b s) :=
  .issue fun c t => by
    split
    · exact .of_eq (mismatch_mem ..)
    · next h => exact .of_eq (mem_of_topEntry_failed h)
    · next h =>
      have ht := mem_of_topEntry_entry h
      split
      · exact .of_eq ((mismatch_mem ..).trans ht)
      · exact .of_eq ((popEntry_mem ..).trans ht)

theorem execWret_keeps : OutKeeps s (execWret k d a b s) :=
  .issue fun c t => by
    split
    · exact .of_eq (mismatch_mem ..)
    · next h => exact .of_eq ((fenceCore_mem ..).trans (mem_of_topEntry_failed h))
    · next h =>
      have ht := mem_of_topEntry_entry h
      split
      · exact .of_eq ((mismatch_mem ..).trans ht)
      · exact .of_eq ((restoreFrame_mem ..).trans ht)

theorem execJmpr_keeps : OutKeeps s (execJmpr k d a b s) :=
  .issue fun _ _ => accessed_wf _ _ _ _ _ _ _ _ _ fun _ _ => .of_eq rfl

theorem execPush_keeps : OutKeeps s (execPush k d a b s) :=
  .issue fun _ _ => accessed_wf _ _ _ _ _ _ _ _ _ fun _ _ => .of_eq rfl

theorem execPop_keeps : OutKeeps s (execPop k d a b s) :=
  .issue fun _ _ => accessed_wf _ _ _ _ _ _ _ _ _ fun _ _ => fetchData_wf _ _ _ _ _ fun _ _ => .of_eq rfl

theorem execSync_keeps : OutKeeps s (execSync k d a b s) :=
  .issue fun c t => by dsimp only; split <;> exact storesDrain_wf c t

theorem execMfs_keeps (i : BitVec 13) : OutKeeps s (execMfs k d a i s) :=
  .issue fun _ _ => by split <;> exact .of_eq rfl

theorem execMts_keeps (i : BitVec 13) : OutKeeps s (execMts k d a i s) :=
  .issue fun _ _ => by dsimp only; split <;> exact .of_eq rfl

theorem execKbound_keeps : OutKeeps s (execKbound k d a b s) :=
  .issue fun _ _ => .of_eq (by simp)

theorem execKperm_keeps : OutKeeps s (execKperm k d a b s) :=
  .issue fun _ _ => .of_eq (by simp)

/-- A door is entered with the core's stores performed and its imprecise fault, if any, taken first (R283). -/
theorem execEnter_keeps : OutKeeps s (execEnter k d a b s) :=
  .issue fun c t => by
    have hdrain := storesDrain_wf c t
    dsimp only
    split
    · exact hdrain
    · split
      · exact (takeImprecise_wf ..).trans hdrain
      · split
        · exact .trans (.of_eq (reinFail_mem ..)) hdrain
        · exact .trans (.of_eq (enterDoor_mem ..)) hdrain

theorem execCmpb_keeps : OutKeeps s (execCmpb k d a b s) :=
  .issue fun c t => by
    dsimp only
    split
    · exact .of_eq rfl
    · refine strChunk_wf _ _ _ _ fun n u => ?_
      split
      · exact .of_eq rfl
      · exact .of_eq (by simp)

theorem execScanb_keeps : OutKeeps s (execScanb k d a b s) :=
  .issue fun _ _ => strChunk_wf _ _ _ _ fun _ _ => by dsimp only; split <;> exact .refl _

theorem execFillb_keeps : OutKeeps s (execFillb k d a b s) :=
  .issue fun _ _ => strChunk_wf _ _ _ _ fun _ _ => by
    dsimp only
    split
    · exact .refl _
    · exact chunkWrite_wf ..

theorem execCrcb_keeps : OutKeeps s (execCrcb k d a b s) :=
  .issue fun c t => by
    dsimp only
    split
    · exact .refl _
    · split
      · exact .of_eq (reinFail_mem ..)
      · split
        · exact .refl _
        · exact strChunk_wf _ _ _ _ fun _ _ => .of_eq (cvFeed_mem ..)

end Pacer

/-- No Pacer instruction takes memory out of its canonical form. -/
theorem runInstr_keeps (i : Instr) (s : State) : OutKeeps s (runInstr i s) := by
  cases i with
  | ld8 | ld16 | ld32 | ld64 | lds8 | lds16 | lds32 => exact .next (loadM_wf ..)
  | st8 | st16 | st32 | st64 => exact .next (storeM_wf ..)
  | kld => exact .next (loadRein_wf ..)
  | kst => exact .next (storeRein_wf ..)
  | opAdd | opSub | opAnd | opOr | opXor | andn | shl | shr | sar | rol | ror | opMin | opMax | minu | maxu | mul | mulh
  | mulhu | ceq | cne | clt | cltu | cle | cleu => exact .next (alu3_wf ..)
  | clz | popc | bswap => exact .next (alu2_wf ..)
  | div | divu | rem | remu => exact .next (aluDiv_wf ..)
  | addi | andi | ori | xori | shli | shri | sari | ceqi | cnei | clti | cltui | clei | cleui => exact .next (aluImm_wf ..)
  | dadd | dsub | dcryA | dcryS | daddm | dadj | dval | ddec | dcvb | dcvd | dshl | dshr => exact .next (decimal_wf ..)
  | movb | xorb => exact .next (strCombine_wf ..)
  | kbase | klen => exact .next (reinRead_wf ..)
  | kseal | kunseal => exact .next (sealWith_wf ..)
  | bz | bnz => exact .next (branch_wf ..)
  | lui | jmp | trap | brk | wait | kmov | kinfo | kclr => exact .issue fun _ _ => .of_eq rfl
  | loop => exact execLoop_keeps ..
  | call => exact execCall_keeps ..
  | ret => exact execRet_keeps ..
  | wret => exact execWret_keeps ..
  | jmpr => exact execJmpr_keeps ..
  | push => exact execPush_keeps ..
  | pop => exact execPop_keeps ..
  | sync => exact execSync_keeps ..
  | mfs => exact execMfs_keeps ..
  | mts => exact execMts_keeps ..
  | kbound => exact execKbound_keeps ..
  | kperm => exact execKperm_keeps ..
  | enter => exact execEnter_keeps ..
  | cmpb => exact execCmpb_keeps ..
  | scanb => exact execScanb_keeps ..
  | fillb => exact execFillb_keeps ..
  | crcb => exact execCrcb_keeps ..
  | _ => exact .idle

/-- A word that no table assigns has no body (R254). -/
theorem runWord_keeps (c : Nat) (w : W32) (s : State) : OutKeeps s (runWord c w s) := by
  unfold runWord
  split
  · exact runInstr_keeps ..
  · exact .issue fun _ _ => .refl _

/-! ### Commands that branch and on no branch write memory -/

section MemoryFree
variable (s : State)

theorem execPtpFollowUp_keeps (src : PtpSource) (seq origin corr : Nat) :
    OutKeeps s (execPtpFollowUp src seq origin corr s) := by
  unfold execPtpFollowUp
  split
  · exact .guard (.of_eq (completeSync_mem ..))
  · exact .idle

theorem execPtpDelayResp_keeps (src : PtpSource) (seq receive corr : Nat) :
    OutKeeps s (execPtpDelayResp src seq receive corr s) := by
  unfold execPtpDelayResp
  split
  · exact .guard (.of_eq (setPath_mem ..))
  · exact .idle

theorem execPtpPdelayResp_keeps (src : PtpSource) (seq : Nat) (part : PdelayPart) (time corr : Nat) :
    OutKeeps s (execPtpPdelayResp src seq part time corr s) := by
  unfold execPtpPdelayResp
  split
  · exact .idle
  · refine .ite .idle ?_
    cases part with
    | followUp =>
      dsimp only
      split
      · exact .guard (.of_eq (setPath_mem ..))
      · exact .idle
    | resp twoStep ingress => exact .ite (.same rfl) (.same (setPath_mem ..))

theorem execStallWindowExpiry_keeps (n : Nat) : OutKeeps s (execStallWindowExpiry n s) := by
  refine .guard (.of_eq ?_)
  repeat' split
  all_goals simp

theorem execCinchRequestComplete_keeps (c : Nat) : OutKeeps s (execCinchRequestComplete c s) := by
  unfold execCinchRequestComplete
  split
  · exact .idle
  · exact .unless (.of_eq (by simp))

theorem execJournalBatchDurable_keeps (batch : Nat) : OutKeeps s (execJournalBatchDurable batch s) := by
  refine .unless (.of_eq ?_)
  rw [reclaimJournal_mem]
  split
  · split <;> rfl
  · rfl

theorem execCinchExternalWrite_keeps (i : Nat) (a : ExAnswer) : OutKeeps s (execCinchExternalWrite i a s) := by
  unfold execCinchExternalWrite
  dsimp only
  split
  · exact .idle
  · exact .ite .idle <| .ite (.ite (.same (by simp)) (.ite (.same (by simp)) (.same (by simp))))
      (.ite (.same (by simp)) (.same (by simp)))

theorem execExternalWriteEnd_keeps (i step : Nat) (a : ExAnswer) : OutKeeps s (execExternalWriteEnd i step a s) := by
  unfold execExternalWriteEnd
  extract_lets x
  split
  · exact .idle
  · extract_lets k running s1 kind s2
    have hs2 : s2.mem = s.mem := by simp [s2, s1]
    clear_value s2
    refine .ite .idle ?_
    split
    · split
      · exact .same (by simp [hs2])
      · exact .same (by simp [hs2])
      · exact .ite (.same (by simp [hs2])) (.ite (.same (by simp [hs2])) (.same (by simp [hs2])))
      · exact .same (by simp [hs2])
    · split
      · exact .same (by simp [hs2])
      · refine .ite (.same (by simp [hs2])) (.ite (.ite (.same (by simp [hs2])) ?_) (.same (by simp [hs2])))
        split <;> exact .same (by simp [hs2])
      · exact .same (by simp [hs2])

theorem execResolutionEnd_keeps (i : Nat) (a : ExAnswer) : OutKeeps s (execResolutionEnd i a s) := by
  unfold execResolutionEnd
  dsimp only
  split
  · exact .idle
  · refine .ite .idle (.ite (.ite (.same (by simp)) (.ite (.same (by simp)) ?_)) ?_)
    · exact .ite (.same (by simp)) (.same (by simp))
    split
    · exact .idle
    · refine .ite .idle (.ite (.same (by simp)) (.ite (.same (by simp)) ?_))
      split <;> exact .same (by simp)

theorem execTackFetchComplete_keeps (h outcome : Nat) : OutKeeps s (execTackFetchComplete h outcome s) := by
  unfold execTackFetchComplete
  split
  · exact .idle
  · refine .ite .idle (.ite (.ite ?_ (.same (makeRoom_mem ..))) (.same (failFetch_mem ..)))
    dsimp only
    split
    · exact .same (by simp)
    · exact .same (by simp)

theorem execQuorumBackup_keeps (cred slot : Nat) (mask record : List Byte) (card : CardAnswer) :
    OutKeeps s (execQuorumBackup cred slot mask record card s) := by
  unfold execQuorumBackup
  split
  · exact .idle
  · exact .ite .idle <| .ite (.same (by simp)) <| .ite (.same (by simp)) <| .ite (.same (by simp)) <|
      .ite (.same (by simp)) (.same (by simp))

theorem execQuorumResplit_keeps (cred : Nat) (scheme : ShareScheme) (dest : ShareTargets) :
    OutKeeps s (execQuorumResplit cred scheme dest s) := by
  unfold execQuorumResplit
  split
  · exact .unless (.of_eq (by simp))
  · exact .idle

theorem execQuorumWindowEnd_keeps : OutKeeps s (execQuorumWindowEnd s) := by
  unfold execQuorumWindowEnd
  split
  · exact .unless (.of_eq (endQuorum_mem ..))
  · exact .idle

theorem execFrameReceived_keeps (pair sub : Nat) (outbound : Bool) (bytes : List Byte) (fcsOk : Bool) :
    OutKeeps s (execFrameReceived pair sub outbound bytes fcsOk s) := by
  refine .ite (.ite (.same (by simp)) (.same ?_)) .idle
  repeat' split
  all_goals simp

theorem execFrameEgress_keeps (pair sub : Nat) (outbound : Bool) : OutKeeps s (execFrameEgress pair sub outbound s) := by
  unfold execFrameEgress
  dsimp only
  split
  · exact .idle
  · exact .unless (.of_eq (by simp))

theorem execNorEraseDone_keeps (sector loops : Nat) : OutKeeps s (execNorEraseDone sector loops s) := by
  refine .ite .idle (.ite (.same (retireSector_mem ..)) ?_)
  split
  · exact .same (renewSector_mem ..)
  · exact .same (eraseSector_mem ..)

theorem execNandProgramDone_keeps (pca : Nat) (data : List Byte) (loops : Nat) (failed : Bool) (slot : Option Nat) :
    OutKeeps s (execNandProgramDone pca data loops failed slot s) := by
  refine .ite .idle (.ite (.same (by simp)) (.same ?_))
  split <;> simp

theorem execCvuRead_keeps (c : Nat) (mismatch : Bool) : OutKeeps s (execCvuRead c mismatch s) := by
  refine .same ?_
  rw [cvGoIf_mem]
  repeat' split
  all_goals simp

theorem execCvuRequestComplete_keeps (c : Nat) : OutKeeps s (execCvuRequestComplete c s) := by
  unfold execCvuRequestComplete
  split
  · exact .idle
  · exact .unless (.of_eq (by simp))

theorem execMcBusyTimeout_keeps (n : Nat) : OutKeeps s (execMcBusyTimeout n s) := by
  refine .guard (.of_eq ?_)
  rw [setEvent_mem, updMc_mem]
  split <;> simp

theorem execScResponseTimeout_keeps (n : Nat) : OutKeeps s (execScResponseTimeout n s) := by
  refine .ite .idle ?_
  split
  · exact .same (by simp)
  · exact .guard (.of_eq (by simp))
  · exact .idle

theorem execNfResponseTimeout_keeps : OutKeeps s (execNfResponseTimeout s) := by
  unfold execNfResponseTimeout
  split
  · exact .guard (.of_eq (by simp))
  · exact .idle

theorem execNfExchangeComplete_keeps (a : ExAnswer) : OutKeeps s (execNfExchangeComplete a s) := by
  unfold execNfExchangeComplete
  split
  · exact .idle
  · split
    · exact .same (exDone_mem ..)
    · exact .unless (.of_eq (by simp))

theorem execWitnessReqa_keeps : OutKeeps s (execWitnessReqa s) := by
  refine .ite .idle ?_
  dsimp only
  split
  · exact .same rfl
  · exact .ite (.same rfl) (.same rfl)

theorem execWitnessSessionTimeout_keeps : OutKeeps s (execWitnessSessionTimeout s) := by
  unfold execWitnessSessionTimeout
  split
  · exact .guard (.of_eq (witnessStop_mem s))
  · exact .idle

theorem execTmRespWrite_keeps (core : Option Nat) (i : Nat) (v : W32) : OutKeeps s (execTmRespWrite core i v s) := by
  refine .ite .idle ?_
  cases core with
  | some c => exact .guard (.of_eq (writeResp_mem ..))
  | none => exact .ite (.same (writeResp_mem ..)) (.same (cfgRefused_mem s))

theorem execTransitionComplete_keeps : OutKeeps s (execTransitionComplete s) := by
  unfold execTransitionComplete
  split
  · exact .unless (.of_eq (by simp))
  · exact .idle

theorem execBscanEffect_keeps : OutKeeps s (execBscanEffect s) := by
  unfold execBscanEffect
  split
  · exact .guard (.of_eq (tapSelect_mem ..))
  · exact .idle

theorem execCertVerifyComplete_keeps : OutKeeps s (execCertVerifyComplete s) := by
  unfold execCertVerifyComplete
  split
  · exact .idle
  · exact .ite (.same (by simp)) (.same (by simp))

theorem execDebugSessionExpiry_keeps : OutKeeps s (execDebugSessionExpiry s) := by
  unfold execDebugSessionExpiry
  split
  · exact .idle
  · exact .guard (.of_eq (endSession_mem ..))

theorem execNeighborSolicitation_keeps (frame : List Byte) : OutKeeps s (execNeighborSolicitation frame s) := by
  unfold execNeighborSolicitation
  split
  · exact .idle
  · exact .guard (.of_eq (portSend_mem ..))

theorem execTamperLockComplete_keeps : OutKeeps s (execTamperLockComplete s) := by
  unfold execTamperLockComplete
  split
  · exact .idle
  · exact .unless (.of_eq rfl)

end MemoryFree

/-! ### Commands that write memory on some of their branches -/

section Commands
variable (s : State)

theorem execRegisterWrite_keeps (src : RegSrc) (a width : Nat) (v : W64) :
    OutKeeps s (execRegisterWrite src a width v s) := by
  refine .ite .idle ?_
  cases src with
  | core c => exact .guard (coreRegWrite_wf ..)
  | warden => exact .guard (csrWrite_wf ..)
  | bar0 fn => exact .same (bar0Write_mem ..)
  | bar2 fn => exact .idle

/-- A word of a scrub round is counted, or poisoned and counted (R18). -/
theorem execSramScrub_keeps (bad corrected : List SramWord) : OutKeeps s (execSramScrub bad corrected s) :=
  .unless <| .trans
    (.foldl (fun _ _ => .trans (.of_eq (eccFound_mem ..)) (poisonWord_wf ..)) _ _)
    (.foldl (fun _ _ => .of_eq (itemAddQuiet_mem ..)) _ _)

theorem execCipherJobComplete_keeps (src : Src) : OutKeeps s (execCipherJobComplete src s) := by
  unfold execCipherJobComplete
  split
  · exact .idle
  · refine .ite .idle ?_
    cases src with
    | win c w => exact .same (by simp)
    | host fn q seq => exact .next (.trans (hostComplete_wf ..) (.of_eq (by simp)))
    | auto n => exact .same (by simp)

theorem execPkeJobComplete_keeps (src : Src) : OutKeeps s (execPkeJobComplete src s) := by
  unfold execPkeJobComplete
  split
  · exact .idle
  · refine .ite .idle ?_
    cases src with
    | win c w => exact .same (by simp)
    | host fn q seq => exact .next (.trans (hostComplete_wf ..) (.of_eq (by simp)))
    | auto n => exact .same (by simp)

theorem execStallCommandComplete_keeps (src : Src) : OutKeeps s (execStallCommandComplete src s) := by
  unfold execStallCommandComplete
  split
  · exact .idle
  · exact .unless (.trans (finishStall_wf ..) (.of_eq rfl))

theorem execTackCommandComplete_keeps (src : Src) : OutKeeps s (execTackCommandComplete src s) := by
  unfold execTackCommandComplete
  split
  · exact .unless (.trans (finishTack_wf ..) (.of_eq rfl))
  · split
    · exact .idle
    · exact .unless (.trans (.of_eq (updCinch_mem ..)) (finishTack_wf ..))

theorem reseedDue_mem (u : Nat) : (reseedDue u s).mem = s.mem := by
  unfold reseedDue
  dsimp only
  repeat' split
  all_goals simp

/-- What a LOOKUP reads goes to its destination; a STAGE goes on (R150). -/
theorem execRecordStoreAnswer_keeps (c : Nat) (full : Bool) : OutKeeps s (execRecordStoreAnswer c full s) := by
  unfold execRecordStoreAnswer
  split
  · exact .idle
  · refine .ite ?_ ?_
    · split
      · exact .same (by simp)
      · next q _ _ v _ =>
        have hwrite : KeepMem (if v.isEmpty then (true, s) else reqWrite q.req q.dest v s).2 s := by
          split
          · exact .refl s
          · exact reqWrite_wf ..
        exact .next (keepMem_then hwrite rfl)
    · split
      · exact .idle
      · exact .ite (.same (by simp)) (.ite (.same (by simp)) (.next (.trans (stageFinish_wf ..) (.of_eq rfl))))

theorem execCinchDecision_keeps (i : Nat) : OutKeeps s (execCinchDecision i s) := by
  unfold execCinchDecision
  refine .ite .idle ?_
  split
  · exact .same (markAbort_mem ..)
  · exact .ite (.next (applyCinch_wf ..)) (.same (by simp))

theorem execCinchApply_keeps (i : Nat) : OutKeeps s (execCinchApply i s) :=
  .ite (.next (applyCopies_wf ..)) <| .ite (.next (applyCinch_wf ..)) <| .ite
    (.ite (.next (.trans (applyCinch_wf ..) (.of_eq (updCinch_mem ..)))) (.same (by simp)))
    (.guard (applyCinch_wf ..))

theorem execPaddockActEffect_keeps (p : Nat) : OutKeeps s (execPaddockActEffect p s) := by
  unfold execPaddockActEffect
  split
  · exact .guard (actEffect_wf ..)
  · exact .idle

theorem execQuorumShareReceived_keeps (place who : Nat) (wrapped : List Byte) :
    OutKeeps s (execQuorumShareReceived place who wrapped s) := by
  unfold execQuorumShareReceived
  split
  · exact .idle
  · refine .ite .idle ?_
    dsimp only
    split
    · exact .same (setEvent_mem ..)
    · exact .ite (.next (.trans (quorumMet_wf ..) (.of_eq rfl))) (.same rfl)

theorem execNotifyCompletion_keeps : OutKeeps s (execNotifyCompletion s) := by
  unfold execNotifyCompletion
  split
  · exact .idle
  · refine .ite .idle ?_
    dsimp only
    split
    · exact .same rfl
    · refine .ite (.next ?_) (.same (by simp))
      exact .trans (.of_eq (updQueue_mem ..)) (.trans (putCompletion_wf ..) (.of_eq rfl))

theorem execFunctionResetEffect_keeps (fn : Nat) : OutKeeps s (execFunctionResetEffect fn s) := by
  unfold execFunctionResetEffect
  split
  · exact .guard (.trans (functionReset_wf ..) (.of_eq (by simp)))
  · exact .idle

theorem execFrameHandoff_keeps (faults : List HwFault) : OutKeeps s (execFrameHandoff faults s) := by
  unfold execFrameHandoff
  split
  · exact .idle
  · exact .next (.trans (judgeFrame_wf ..) (.of_eq rfl))

theorem execImpreciseFaultTaken_keeps (c : Nat) : OutKeeps s (execImpreciseFaultTaken c s) := by
  unfold execImpreciseFaultTaken
  split
  · exact .guard (takeImprecise_wf ..)
  · exact .idle

theorem execMonitorResume_keeps (c : Nat) : OutKeeps s (execMonitorResume c s) := by
  refine .ite .idle ?_
  dsimp only
  split
  · exact .next (.trans (.of_eq (raiseHeld_mem ..)) (.trans (loadCtx_wf ..) (.of_eq rfl)))
  · exact .next (returnWith_wf ..)

theorem execCardExchangeComplete_keeps (k : Nat) (a : ExAnswer) : OutKeeps s (execCardExchangeComplete k a s) := by
  unfold execCardExchangeComplete
  split
  · exact .idle
  · refine .ite .idle ?_
    split
    · exact .same (exDone_mem ..)
    · refine .next (.trans (.of_eq (exDone_mem ..)) ?_)
      split
      · exact mcAnswered_wf ..
      · exact .of_eq (scAnswered_mem ..)

theorem execShedBoundary_keeps : OutKeeps s (execShedBoundary s) := by
  unfold execShedBoundary
  split
  · exact .guard (shedBoundary_wf s)
  · exact .idle

theorem execShedWipeComplete_keeps : OutKeeps s (execShedWipeComplete s) := by
  unfold execShedWipeComplete
  split
  · exact .guard (.trans (.of_eq (clearStable_mem ..)) (shedMemory_wf s))
  · exact .idle

theorem execShedReloadComplete_keeps : OutKeeps s (execShedReloadComplete s) := by
  unfold execShedReloadComplete
  split
  · refine .guard (.trans (.of_eq ?_) (shedReload_wf s))
    split
    · exact fwBegin_mem ..
    · rfl
  · exact .idle

theorem execDapAccess_keeps (req : DapReq) : OutKeeps s (execDapAccess req s) := by
  refine .ite .idle ?_
  cases req with
  | mem wr a width v => exact .next (dapMem_wf ..)
  | reg wr c bank i v => exact .same (dapReg_mem ..)
  | ring => exact .same (by simp)
  | select p => exact .same (by simp)

/-- The word executes in a state that differs from this one in the step allowed (R430). -/
theorem execDebugStep_keeps (c : Nat) : OutKeeps s (execDebugStep c s) :=
  .ite (.of_mem (runWord_keeps ..) rfl) (.same (dbgDenied_mem ..))

theorem execDictWriteApply_keeps (ok : Bool) : OutKeeps s (execDictWriteApply ok s) := by
  unfold execDictWriteApply
  split
  · exact .idle
  · next w _ =>
    have hobj := objWrite_wf (rqIndex w.req.body) (rqSub w.req.body) w.value w.cred s
    refine .ite .idle (.ite (.unless (endWrite_wf ..)) (.ite (.next (endWrite_wf ..)) ?_))
    refine .ite (.next (.trans (endWrite_wf ..) hobj)) (.ite (.next (keepMem_then hobj rfl)) (.next ?_))
    exact .trans (endWrite_wf ..) (.trans (.of_eq (storeValue_mem ..)) hobj)

theorem execFwCoreDrained_keeps : OutKeeps s (execFwCoreDrained s) := by
  unfold execFwCoreDrained
  extract_lets w
  split
  · exact .idle
  · exact .guard (.trans (.of_eq (fwBegin_mem ..)) (fwMove_wf ..))

/-- A stopping device writes what it must keep, unless it stops already (R482). -/
theorem execBrownOutTrip_keeps (vhold : Bool) : OutKeeps s (execBrownOutTrip vhold s) :=
  .unless (.trans (.record _ ..) (ite_of (P := (KeepMem · s)) (.trans (startFlush_wf _) (.record s ..)) (.record s ..)))

theorem execPorAssert_keeps : OutKeeps s (execPorAssert s) :=
  .next (.trans (.record _ ..) (ite_of (P := (KeepMem · s)) (startFlush_wf s) (.refl s)))

theorem execCellSwitch_keeps : OutKeeps s (execCellSwitch s) :=
  .unless <| .trans (.record _ ..) <| .trans (.of_eq (drawSeeds_mem _)) <| .trans (.of_eq (cutLock_mem _)) <|
    .trans (.of_eq (cutTransition_mem _)) (ite_of (P := (KeepMem · s)) (powerLoss_wf s) (.refl s))

theorem execStageCounterRead_keeps (c : Nat) (a : ExAnswer) : OutKeeps s (execStageCounterRead c a s) := by
  unfold execStageCounterRead
  split
  · exact .idle
  · split
    · exact .idle
    · exact .ite (.same (by simp)) (.next (.trans (stageFinish_wf ..) (.of_eq (by simp))))

end Commands

/-! ### Every command -/

/-- A Pacer instruction in the queue does what the same instruction spelled by a word of memory does (R253). -/
theorem exec_keeps_of_runInstr {i : Instr} {s : State} (h : exec i s = runInstr i s) : OutKeeps s (exec i s) :=
  h ▸ runInstr_keeps i s

/-- No command takes memory out of its canonical form. -/
theorem exec_keeps (i : Instr) (s : State) : OutKeeps s (exec i s) := by
  cases i with
  -- Pacer instructions
  | ld8 | ld16 | ld32 | ld64 | lds8 | lds16 | lds32 | st8 | st16 | st32 | st64 | kld | kst | opAdd | opSub | opAnd
  | opOr | opXor | andn | shl | shr | sar | rol | ror | opMin | opMax | minu | maxu | clz | popc | bswap | mul | mulh
  | mulhu | div | divu | rem | remu | ceq | cne | clt | cltu | cle | cleu | addi | andi | ori | xori | shli | shri
  | sari | ceqi | cnei | clti | cltui | clei | cleui | lui | bz | bnz | loop | jmp | call | ret | jmpr | trap | brk
  | wret | push | pop | sync | wait | mfs | mts | kmov | kbound | kperm | kbase | klen | kinfo | kclr | kseal | kunseal
  | enter | movb | cmpb | scanb | fillb | xorb | crcb | dadd | dsub | dcryA | dcryS | daddm | dadj | dval | ddec
  | dcvb | dcvd | dshl | dshr => exact exec_keeps_of_runInstr rfl
  -- an operation outside memory, under a condition
  | frameBoundary | delayReqSend | ptpPdelayReq | masterLoss | reacquire | backupCounterCopy | ppsRise | ppsFall
  | shareWrite | unitOverrun | resultDoneRead | cfRsvWrite | cfCtxWrite | stQuotaWrite | checkpoint | cnQuotaWrite
  | paddockAbsent | tkMintRead | tkQuotaWrite | queueDrained | descriptorArrival | msixMessage | functionResetReady
  | cqAllotWrite | pauseRepeat | portLinkChange | ilPortcfgWrite | timerExpiry | pcFenceWrite | wardenMessage
  | spillWrite | returnStackClear | regionWrite | cvOwnWrite | mcDetectChange | mcInsert | mcRemove | scInsert
  | scRemove | fieldCollapse | fieldResetEnd | witnessWake | witnessAnticollision | witnessRats | witnessDayWindow
  | sensorRearm | tamperLock | mailboxNonce | mailboxPresent | mailboxEnd | mailboxStatus | mailboxFwkey | arpRequest
  | fencedToWiping | fwDrainTimeout | flushComplete | holdupRecovered | lockwaitExpiry | vddVaultPresent | pcieLinkUp
  | pauseTimerExpiry => exact .guard (.of_eq (by simp))
  -- an operation outside memory
  | forceCommit | forceAbort | paddockCreate | paddockDelete | paddockRevoke | reservationExpiry | leaseDurable
  | sqDoorbell | cqDoorbell | queueCreate | queueDelete | queueReset | msixUnmask | functionLevelReset | hotReset
  | pcieLinkDown | pcieConfigRequest | fwTake | fwPost | stageMigration | cvuConfig | cvuReset | scanGen | scanCheck
  | mcRead | mcWrite | rpmbCounter | rpmbRead | rpmbKeyprog | scActivate | scApdu | scDeactivate | nfPoll | nfActivate
  | nfApdu | nfDeactivate | witnessSelect | witnessReadBinary | witnessSessionEnd | tapBypass | tapIdcode
  | tapSamplePreload | tapMailbox | tapDap | testLogicReset | nonceRead | certificatePresent | debugEndRequest
  | ownerDebugKeyEnrol | sessionIdleTimeout | mgmtLinkChange | ledgerWordDrain | unitRequest | fwChunk | fwVerify
  | fwSwitch | fwCancel => exact .same (by simp)
  -- requests: through a window, from a host queue or by a Cinch
  | cipherJob | stallAlloc | stallLoad | stallArm | stallExpire | stallRetire | stallRead | rsaPrivateRaw
  | rsaPublicRaw | rsassaPssSign | rsassaPkcs1V15Sign | rsassaPssVerify | rsassaPkcs1V15Verify | rsaesOaepEncrypt
  | rsaesOaepDecrypt | modularExponentiation | ffdh | ecdsaSign | ecdsaVerify | ecdh | eddsaSign | eddsaVerify
  | x25519OrX448 | keyPairCurveOrGroup | keyPairRsa | tackReserve | tackInstall | tackRetire | tackRestrict | tackPin
  | tackDescribe => exact .next (submitBy_wf ..)
  | dictRead | dictWrite | dictDescribe | dictSubscribe | dictUnsubscribe | sessionClose | credentialWrite
  | addressConfigWrite | ledgerCursorRead | feedRead => exact .next (receiveKind_wf ..)
  | ptpAnnounce | entropyHealthFail | quorumSplit | quorumJoin | quorumRestore | monitorYield | norProgramDone
  | ledgerPeriod | railMeasure => exact .unless (.of_eq (by simp))
  | cinchOpen | cinchStage | cinchCommit | cinchAbort | cinchQuery | cinchLookup | cinchResolve =>
    exact .next (cinchBy_wf ..)
  -- a few branches, each an operation or nothing
  | ptpSync | pauseReceived | maskBudgetExceeded | mcInitComplete =>
    exact .ite (.ite (.same (by simp)) (.same (by simp))) .idle
  | nandEraseDone | stackLost | hello => exact .ite .idle (.ite (.same (by simp)) (.same (by simp)))
  | tapExtest | tapClamp | tapHighz => exact .next (tapBscan_wf ..)
  | stallRetiringEnd | stallWipingEnd => exact .guard (.trans (.record _ ..) (putStall_wf ..))
  | controlNop | controlCancel => exact .next (admitIf_wf ..)
  | transitionToTest | transitionToCustody => exact .next (mailTransition_wf ..)
  | transitionToField | transitionToReturn => exact .next (transition_wf ..)
  | debugHalt | debugResume => exact .ite (.same rfl) (.same (dbgDenied_mem ..))
  | strideBoundary =>
    exact .ite .idle (.ite (.same (advanceTime_mem s)) (.next (.trans (strideBegin_wf _) (strideEnd_wf ..))))
  | dieLinkTransfer => exact .ite .idle (.ite (.next (fireBrief_wf ..)) (.guard (csrWrite_wf ..)))
  | expqRead => exact .unless (.of_eq (readExpq_mem s))
  | drbgReseed => exact .same (foldl_mem _ (fun _ _ => reseedDue_mem ..) _ _)
  | pkDiagRead => exact .unless (.of_eq (readDiag_mem _ s))
  | cinchTimeout => exact .ite (.ite (.same (by simp)) (.guard (.of_eq (by simp)))) .idle
  | noteqRead => exact .guard (.of_eq (readNoteq_mem s))
  | descriptorAdmit => exact .next (admitFrom_wf ..)
  | perst => exact .ite (.same (by simp)) (.same (by simp))
  | firmwareResultCompletion => exact .next (flushCompletions_wf ..)
  | storePerformed => exact .guard (storePerform_wf ..)
  | interruptTaken => exact .ite (.next (monitorStep_wf ..)) (.guard (takeInterrupt_wf ..))
  | monitorDoors => exact .ite .idle (.ite (.next (.trans (returnWith_wf ..) (.of_eq rfl))) (.next (returnWith_wf ..)))
  | monitorSend =>
    exact .ite .idle (.ite (.next (.trans (returnWith_wf ..) (.of_eq (writeWmsg_mem ..)))) (.next (returnWith_wf ..)))
  | monitorKeyrein =>
    exact .ite .idle (.ite (.next (.trans (returnWith_wf ..) (.of_eq rfl))) (.next (.trans (returnWith_wf ..) (.of_eq rfl))))
  | nandReadDone =>
    exact .ite .idle (.ite (.same (by simp)) (.ite (.same (by simp)) (.ite (.same (by simp)) (.same (by simp)))))
  | rawRead => exact .unless (.of_eq (readRaw_mem _ s))
  | csMeasure => exact .ite (.ite (.same rfl) (.ite (.same (by simp)) (.same (by simp)))) .idle
  | tamperEvalTick => exact .next (.trans (evalSensors_wf ..) (.of_eq (by simp)))
  | bistDaily => exact .guard (.trans (bistRun_wf ..) (.of_eq rfl))
  | bistNow => exact .next (bistRun_wf ..)
  | transitionToScrap => exact .next (ite_of (P := (KeepMem · s)) (mailTransition_wf ..) (transition_wf ..))
  | icmpEcho => exact .ite .idle (.ite (.same (echo4_mem ..)) (.same (echo6_mem ..)))
  | unitDrainEnd => exact .guard (.trans (standbyTakeover_wf _) (.of_eq (updUnit_mem ..)))
  | unitWipeEnd => exact .guard (.trans (wipeUnit_wf ..) (.of_eq (updUnit_mem ..)))
  | unitTestEnd => exact .guard (.trans (standbyTakeover_wf _) (.of_eq (testEnd_mem ..)))
  | brownOutRestart => exact .guard (.trans (bootRun_wf ..) (bootBegin_wf ..))
  | bootStart => exact .ite .idle (.ite (.same rfl) (.next (.trans (bootRun_wf ..) (bootBegin_wf ..))))
  | entropyHealthRecovered => exact .ite (.same rfl) (.ite (.same (by simp)) (.same rfl))
  -- commands with a lemma of their own above
  | ptpFollowUp => exact execPtpFollowUp_keeps ..
  | ptpDelayResp => exact execPtpDelayResp_keeps ..
  | ptpPdelayResp => exact execPtpPdelayResp_keeps ..
  | registerWrite => exact execRegisterWrite_keeps ..
  | sramScrub => exact execSramScrub_keeps ..
  | cipherJobComplete => exact execCipherJobComplete_keeps ..
  | stallCommandComplete => exact execStallCommandComplete_keeps ..
  | stallWindowExpiry => exact execStallWindowExpiry_keeps ..
  | pkeJobComplete => exact execPkeJobComplete_keeps ..
  | recordStoreAnswer => exact execRecordStoreAnswer_keeps ..
  | cinchRequestComplete => exact execCinchRequestComplete_keeps ..
  | cinchDecision => exact execCinchDecision_keeps ..
  | journalBatchDurable => exact execJournalBatchDurable_keeps ..
  | cinchApply => exact execCinchApply_keeps ..
  | cinchExternalWrite => exact execCinchExternalWrite_keeps ..
  | externalWriteEnd => exact execExternalWriteEnd_keeps ..
  | resolutionEnd => exact execResolutionEnd_keeps ..
  | paddockActEffect => exact execPaddockActEffect_keeps ..
  | tackCommandComplete => exact execTackCommandComplete_keeps ..
  | tackFetchComplete => exact execTackFetchComplete_keeps ..
  | quorumBackup => exact execQuorumBackup_keeps ..
  | quorumResplit => exact execQuorumResplit_keeps ..
  | quorumShareReceived place => exact execQuorumShareReceived_keeps s place _ _
  | quorumWindowEnd => exact execQuorumWindowEnd_keeps ..
  | notifyCompletion => exact execNotifyCompletion_keeps ..
  | functionResetEffect => exact execFunctionResetEffect_keeps ..
  | frameReceived => exact execFrameReceived_keeps ..
  | frameHandoff => exact execFrameHandoff_keeps ..
  | frameEgress => exact execFrameEgress_keeps ..
  | impreciseFaultTaken => exact execImpreciseFaultTaken_keeps ..
  | monitorResume => exact execMonitorResume_keeps ..
  | norEraseDone => exact execNorEraseDone_keeps ..
  | nandProgramDone => exact execNandProgramDone_keeps ..
  | cvuRead => exact execCvuRead_keeps ..
  | cvuRequestComplete => exact execCvuRequestComplete_keeps ..
  | mcBusyTimeout => exact execMcBusyTimeout_keeps ..
  | scResponseTimeout => exact execScResponseTimeout_keeps ..
  | cardExchangeComplete => exact execCardExchangeComplete_keeps ..
  | nfResponseTimeout => exact execNfResponseTimeout_keeps ..
  | nfExchangeComplete => exact execNfExchangeComplete_keeps ..
  | witnessReqa => exact execWitnessReqa_keeps ..
  | witnessSessionTimeout => exact execWitnessSessionTimeout_keeps ..
  | shedBoundary => exact execShedBoundary_keeps ..
  | shedWipeComplete => exact execShedWipeComplete_keeps ..
  | shedReloadComplete => exact execShedReloadComplete_keeps ..
  | tmRespWrite => exact execTmRespWrite_keeps ..
  | transitionComplete => exact execTransitionComplete_keeps ..
  | bscanEffect => exact execBscanEffect_keeps ..
  | certVerifyComplete => exact execCertVerifyComplete_keeps ..
  | debugSessionExpiry => exact execDebugSessionExpiry_keeps ..
  | dapAccess => exact execDapAccess_keeps ..
  | debugStep => exact execDebugStep_keeps ..
  | dictWriteApply => exact execDictWriteApply_keeps ..
  | neighborSolicitation => exact execNeighborSolicitation_keeps ..
  | fwCoreDrained => exact execFwCoreDrained_keeps ..
  | brownOutTrip => exact execBrownOutTrip_keeps ..
  | cellSwitch => exact execCellSwitch_keeps ..
  | porAssert => exact execPorAssert_keeps ..
  | stageCounterRead => exact execStageCounterRead_keeps ..
  | tamperLockComplete => exact execTamperLockComplete_keeps ..

/-- Settles O3: the front command keeps the form whatever it is, and idling changes nothing. That memory is held in a
canonical form is the model's own choice of data: no rule of the spec asks for it. -/
theorem stepKeepsMemoryForm : Obligations.StepKeepsMemoryForm := by
  unfold Obligations.StepKeepsMemoryForm
  intro s t hs hstep
  unfold step at hstep
  split at hstep
  · cases hstep
    exact hs
  · next c cs _ => exact ((exec_keeps c { s with pending := cs }).keep t hstep).keep hs

end Sys2Proof.Proofs
end

section
/-! Network time and the stride (R31–R39, R50, R53, R455, R482): what a sample, a lost master and a change of the master list
make of the time unit, the PTP exchanges, the pulse output and the stride boundary. -/

namespace Sys2Proof.Proofs

open Sys2Proof Sys2Proof.Machine Sys2Proof.Laws

/-! ### Events and ledger words leave the clock and the Pacers -/

@[simp] theorem setEventIf_time (c : Bool) (w b : Nat) (s : State) : (setEventIf c w b s).time = s.time := by
  cases c
  · rfl
  · exact setEvent_time ..

@[simp] theorem setEventIf_pc (c : Bool) (w b : Nat) (s : State) : (setEventIf c w b s).pc = s.pc := by
  cases c
  · rfl
  · exact setEvent_pc ..

@[simp] theorem ledgerEvent_time (code detail : Nat) (conts : List Nat) (s : State) :
    (ledgerEvent code detail conts s).time = s.time := by
  unfold ledgerEvent
  dsimp only
  split
  · rfl
  · exact setEvent_time ..

/-! ### What follows a change of the time state (R39, R50, R53) -/

theorem noteUnsure_time (s : State) : (noteUnsure s).time = { s.time with
    unsureWas := timeState s.time == 3, u := s.time.uNow, ppsOut := s.time.ppsOut && ppsMay s.time,
    holdStartUsed := holdStart s.time && s.time.mode == .provisional } := by
  unfold noteUnsure
  dsimp only
  split
  · rw [setEvent_time]
  · rfl

@[simp] theorem noteUnsure_pc (s : State) : (noteUnsure s).pc = s.pc := by
  unfold noteUnsure
  dsimp only
  split
  · exact setEvent_pc ..
  · rfl

theorem noteUnsure_keeps_leaf {s : State} {w b : Nat} (h : (Tab.get 0 s.events w).getLsbD b = true) :
    (Tab.get 0 (noteUnsure s).events w).getLsbD b = true := by
  unfold noteUnsure
  dsimp only
  split
  · exact setEvent_keeps_leaf 1 2 h
  · exact h

/-! ### The list of foreign masters (R36, R37) -/

section Masters
variable (ms : List ForeignMaster) (t : TimeUnit)

/-- What forgetting the exchanges leaves alone, and the two that it always forgets. -/
theorem newExchange_frame :
    (newExchange t).now = t.now ∧ (newExchange t).mode = t.mode ∧ (newExchange t).disagree = t.disagree ∧
      (newExchange t).discards = t.discards ∧ (newExchange t).cfg = t.cfg ∧ (newExchange t).syncPend = none ∧
      (newExchange t).lastSync = none := by
  unfold newExchange
  split <;> exact ⟨rfl, rfl, rfl, rfl, rfl, rfl, rfl⟩

theorem newExchange_pathKnown (h : powerProfile t = false) : (newExchange t).pathKnown = false := by
  simp [newExchange, h]

/-- The selected master follows from the list and from TI_CFG alone. -/
theorem selected_congr {t u : TimeUnit} (hm : u.masters = t.masters) (hc : u.cfg = t.cfg) : selected u = selected t := by
  simp only [selected, ptpDomain, hm, hc]

theorem setMasters_none (h : selected { t with masters := ms } = none) :
    setMasters ms t = { newExchange { t with masters := ms } with master := 0, utc := 0 } := by
  simp only [setMasters, h]

theorem setMasters_some {b : ForeignMaster} (h : selected { t with masters := ms } = some b) :
    setMasters ms t =
      { (if b.clockId = t.master then { t with masters := ms } else newExchange { t with masters := ms }) with
        master := b.clockId, utc := BitVec.ofNat 32 (b.utc.toNat + b2n b.utcValid * 65536) } := by
  simp only [setMasters, h]

/-- A new list leaves the count, the mode and the judgement of samples, and forgotten exchanges stay forgotten. -/
theorem setMasters_frame :
    (setMasters ms t).masters = ms ∧ (setMasters ms t).now = t.now ∧ (setMasters ms t).mode = t.mode ∧
      (setMasters ms t).disagree = t.disagree ∧ (setMasters ms t).discards = t.discards ∧ (setMasters ms t).cfg = t.cfg ∧
      (t.syncPend = none → (setMasters ms t).syncPend = none) := by
  obtain ⟨hnow, hmode, hdis, hcnt, hcfg, hpend, -⟩ := newExchange_frame { t with masters := ms }
  have hms : (newExchange { t with masters := ms }).masters = ms := by unfold newExchange; split <;> rfl
  cases h : selected { t with masters := ms } with
  | none =>
    rw [setMasters_none ms t h]
    exact ⟨hms, hnow, hmode, hdis, hcnt, hcfg, fun _ => hpend⟩
  | some b =>
    rw [setMasters_some ms t h]
    split
    · exact ⟨rfl, rfl, rfl, rfl, rfl, rfl, id⟩
    · exact ⟨hms, hnow, hmode, hdis, hcnt, hcfg, fun _ => hpend⟩

/-- What a new list shows of the master it selects, and that only another master's exchanges are forgotten. -/
theorem setMasters_selected {b : ForeignMaster} (h : selected (setMasters ms t) = some b) :
    (setMasters ms t).master = b.clockId ∧
      (setMasters ms t).utc = BitVec.ofNat 32 (b.utc.toNat + b2n b.utcValid * 65536) ∧
      (b.clockId ≠ t.master → (setMasters ms t).syncPend = none ∧ (setMasters ms t).lastSync = none ∧
        (powerProfile t = false → (setMasters ms t).pathKnown = false)) ∧
      (b.clockId = t.master → (setMasters ms t).path = t.path ∧ (setMasters ms t).lastSync = t.lastSync) := by
  obtain ⟨hms, -, -, -, -, hcfg, -⟩ := setMasters_frame ms t
  rw [selected_congr (t := { t with masters := ms }) hms hcfg] at h
  rw [setMasters_some ms t h]
  refine ⟨rfl, rfl, fun hne => ?_, fun heq => ?_⟩
  · obtain ⟨-, -, -, -, -, hpend, hlast⟩ := newExchange_frame { t with masters := ms }
    rw [if_neg hne]
    exact ⟨hpend, hlast, fun hp => newExchange_pathKnown _ hp⟩
  · rw [if_pos heq]
    exact ⟨rfl, rfl⟩

end Masters

/-! ### A lost master (R36, R37, R50) -/

/-- The masters that stay when the selected one is lost. -/
def mastersLeft (t : TimeUnit) : List ForeignMaster :=
  match selected t with
  | some b => t.masters.filter (fun m => !(m.dom == b.dom && m.clockId == b.clockId))
  | none => t.masters

theorem mastersLeft_some {t : TimeUnit} {b : ForeignMaster} (h : selected t = some b) :
    mastersLeft t = t.masters.filter (fun m => !(m.dom == b.dom && m.clockId == b.clockId)) := by
  simp only [mastersLeft, h]

/-- The time unit after the loss, before the mode moves. -/
def withoutMaster (t : TimeUnit) : TimeUnit := setMasters (mastersLeft t) (newExchange t)

theorem withoutMaster_frame (t : TimeUnit) :
    (withoutMaster t).masters = mastersLeft t ∧ (withoutMaster t).now = t.now ∧ (withoutMaster t).mode = t.mode ∧
      (withoutMaster t).disagree = t.disagree ∧ (withoutMaster t).discards = t.discards ∧
      (withoutMaster t).syncPend = none := by
  obtain ⟨hnow, hmode, hdis, hcnt, -, hpend, -⟩ := newExchange_frame t
  obtain ⟨hms, hnow', hmode', hdis', hcnt', -, hpend'⟩ := setMasters_frame (mastersLeft t) (newExchange t)
  exact ⟨hms, hnow'.trans hnow, hmode'.trans hmode, hdis'.trans hdis, hcnt'.trans hcnt, hpend' hpend⟩

theorem loseMaster_locked {s : State} (h : s.time.mode = .locked) :
    loseMaster s = noteUnsure (setEvent 1 1 { s with time := { withoutMaster s.time with
      mode := .holdover, u0 := s.time.u, t0 := s.time.now, accepted := [] } }) :=
  if_pos h

theorem loseMaster_unlocked {s : State} (h : s.time.mode ≠ .locked) :
    loseMaster s = { s with time := withoutMaster s.time } :=
  if_neg h

/-- A lost master leaves the list, and with it every exchange; nothing but the clock and the alert tree moves. -/
theorem loseMaster_frame (s : State) :
    (loseMaster s).time.masters = mastersLeft s.time ∧ (loseMaster s).time.now = s.time.now ∧
      (loseMaster s).time.disagree = s.time.disagree ∧ (loseMaster s).time.discards = s.time.discards ∧
      (loseMaster s).time.syncPend = none ∧ (loseMaster s).pc = s.pc ∧
      ∀ w b, (Tab.get 0 s.events w).getLsbD b = true → (Tab.get 0 (loseMaster s).events w).getLsbD b = true := by
  obtain ⟨hms, hnow, -, hdis, hcnt, hpend⟩ := withoutMaster_frame s.time
  by_cases h : s.time.mode = .locked
  · rw [loseMaster_locked h, noteUnsure_time, setEvent_time, noteUnsure_pc, setEvent_pc]
    exact ⟨hms, hnow, hdis, hcnt, hpend, rfl, fun w b hb => noteUnsure_keeps_leaf (setEvent_keeps_leaf 1 1 hb)⟩
  · rw [loseMaster_unlocked h]
    exact ⟨hms, hnow, hdis, hcnt, hpend, rfl, fun _ _ hb => hb⟩

/-- A locked counter goes into holdover from the U in force. -/
theorem loseMaster_holdover {s : State} (h : s.time.mode = .locked) :
    (loseMaster s).time.mode = .holdover ∧ (loseMaster s).time.u0 = s.time.u ∧ (loseMaster s).time.t0 = s.time.now ∧
      (Tab.get 0 (loseMaster s).events 1).getLsbD 1 = true := by
  rw [loseMaster_locked h, noteUnsure_time, setEvent_time]
  exact ⟨rfl, rfl, rfl, noteUnsure_keeps_leaf (setEvent_self _ 1 1 (by decide))⟩

theorem loseMaster_mode {s : State} (h : s.time.mode ≠ .locked) : (loseMaster s).time.mode = s.time.mode := by
  obtain ⟨-, -, hmode, -⟩ := withoutMaster_frame s.time
  rw [loseMaster_unlocked h]
  exact hmode

theorem exec_masterLoss {s : State} (hr : stridesRun s = true) (hs : masterSilent s = true) :
    exec .masterLoss s = .next (loseMaster s) := by
  show execMasterLoss s = _
  simp [execMasterLoss, hr, hs]

/-- No Announce of the selected master for 3 intervals, or no Sync for 4, is silence. -/
theorem masterSilent_of {s : State} {b : ForeignMaster} (hb : selected s.time = some b)
    (h : 3 * 1000000 * 2 ^ b.logInt.toNat ≤ (s.tick - b.heard) * 2 ^ (-b.logInt).toNat ∨
      ∃ at0 l, s.time.syncAt = some (at0, l) ∧ 4 * 1000000 * 2 ^ l.toNat ≤ (s.tick - at0) * 2 ^ (-l).toNat) :
    masterSilent s = true := by
  rw [masterSilent, hb, Bool.or_eq_true]
  refine h.imp (fun ha => decide_eq_true ha) ?_
  rintro ⟨at0, l, hat, hl⟩
  rw [hat]
  exact decide_eq_true hl

/-! ### Samples (R33, R36) -/

section Samples
variable {off : Int} {c : W64} {s : State}

/-- What a sample that is taken sets: the lock, and whole strides of step only where the lock is taken afresh. -/
theorem acceptSample_time (off : Int) (c : W64) (s : State) :
    let t := (acceptSample off c s).time
    t.mode = .locked ∧ t.firstLock = true ∧ t.reacquire = false ∧ t.discards = 0 ∧ t.offset = BitVec.ofInt 64 off ∧
      t.stepPending = s.time.stepPending +
        (if (!s.time.firstLock || s.time.reacquire) && off < 0 then off.natAbs / 1000 else 0) ∧
      t.now = s.time.now ∧ t.syncPend = s.time.syncPend := by
  simp only [acceptSample, noteUnsure_time, setEventIf_time, freeRate, drawNat, and_self]

theorem acceptSample_pc (off : Int) (c : W64) (s : State) : (acceptSample off c s).pc = s.pc := by
  simp only [acceptSample, noteUnsure_pc, setEventIf_pc, freeRate, drawNat]

theorem takeSample_ignored (hd : s.time.disagree = true) : takeSample off c s = s := by
  simp [takeSample, hd]

theorem takeSample_acquires (hd : s.time.disagree = false) (h : s.time.firstLock = false ∨ s.time.reacquire = true) :
    takeSample off c s = acceptSample off c s := by
  have h' : (!s.time.firstLock || s.time.reacquire) = true := by simpa using h
  simp only [takeSample, hd, h', Bool.false_eq_true, if_false, if_true]

/-- A sample while the lock stands is judged by its offset. -/
theorem takeSample_locked (hd : s.time.disagree = false) (hf : s.time.firstLock = true) (hr : s.time.reacquire = false) :
    takeSample off c s =
      if s.time.uNow + 1000 < off.natAbs then
        if s.time.discards + 1 < 8 then { s with time := { s.time with discards := s.time.discards + 1 } }
        else loseMaster (setEvent 1 3 { s with time := { s.time with discards := 0, disagree := true } })
      else acceptSample off c s := by
  simp [takeSample, hd, hf, hr]

/-- The eighth sample out of bounds in a row: DISAGREE, and a locked servo loses its master. -/
theorem disagreement_spec (s : State) :
    let t := loseMaster (setEvent 1 3 { s with time := { s.time with discards := 0, disagree := true } })
    t.time.disagree = true ∧ t.time.discards = 0 ∧ (Tab.get 0 t.events 1).getLsbD 3 = true ∧
      (s.time.mode = .locked → t.time.mode = .holdover) := by
  intro t
  obtain ⟨-, -, hdis, hcnt, -, -, hleaf⟩ :=
    loseMaster_frame (setEvent 1 3 { s with time := { s.time with discards := 0, disagree := true } })
  rw [setEvent_time] at hdis hcnt
  refine ⟨hdis, hcnt, hleaf 1 3 (setEvent_self _ 1 3 (by decide)), fun h => ?_⟩
  obtain ⟨hmode, -⟩ := loseMaster_holdover
    (s := setEvent 1 3 { s with time := { s.time with discards := 0, disagree := true } }) (by rw [setEvent_time]; exact h)
  exact hmode

/-- How a sample is judged (R36): ignored under DISAGREE, taken whatever its size for the lock, and beyond U + 1 µs
discarded and counted until the eighth in a row. -/
theorem takeSample_judged (off : Int) (c : W64) (s : State) :
    let t := takeSample off c s
    (s.time.disagree = true → t = s) ∧
    (s.time.disagree = false → s.time.firstLock = false ∨ s.time.reacquire = true →
      t.time.mode = .locked ∧ t.time.firstLock = true ∧ t.time.reacquire = false ∧ t.time.discards = 0 ∧
      t.time.offset = BitVec.ofInt 64 off ∧
      t.time.stepPending = s.time.stepPending + (if off < 0 then off.natAbs / 1000 else 0)) ∧
    (s.time.disagree = false → s.time.firstLock = true → s.time.reacquire = false →
      s.time.uNow + 1000 < off.natAbs → s.time.discards < 7 →
      t = { s with time := { s.time with discards := s.time.discards + 1 } }) ∧
    (s.time.disagree = false → s.time.firstLock = true → s.time.reacquire = false →
      s.time.uNow + 1000 < off.natAbs → 7 ≤ s.time.discards →
      t.time.disagree = true ∧ t.time.discards = 0 ∧ (Tab.get 0 t.events 1).getLsbD 3 = true ∧
      (s.time.mode = .locked → t.time.mode = .holdover)) ∧
    (s.time.disagree = false → s.time.firstLock = true → s.time.reacquire = false →
      off.natAbs ≤ s.time.uNow + 1000 →
      t.time.mode = .locked ∧ t.time.offset = BitVec.ofInt 64 off ∧ t.time.stepPending = s.time.stepPending) := by
  intro t
  obtain ⟨hmode, hfirst, hre, hcnt, hofs, hstep, -, -⟩ := acceptSample_time off c s
  refine ⟨takeSample_ignored, fun hdis hacq => ?_, fun hdis hf hq hbig hfew => ?_, fun hdis hf hq hbig hmany => ?_,
    fun hdis hf hq hsmall => ?_⟩
  · have ht : t = acceptSample off c s := takeSample_acquires hdis hacq
    have hok : (!s.time.firstLock || s.time.reacquire) = true := by simpa using hacq
    simp only [hok, Bool.true_and, decide_eq_true_eq] at hstep
    rw [ht]
    exact ⟨hmode, hfirst, hre, hcnt, hofs, hstep⟩
  · exact (takeSample_locked hdis hf hq).trans ((if_pos hbig).trans (if_pos (by omega)))
  · have ht : t = loseMaster (setEvent 1 3 { s with time := { s.time with discards := 0, disagree := true } }) :=
      (takeSample_locked hdis hf hq).trans ((if_pos hbig).trans (if_neg (by omega)))
    rw [ht]
    exact disagreement_spec s
  · have ht : t = acceptSample off c s := (takeSample_locked hdis hf hq).trans (if_neg (by omega))
    simp only [hf, hq, Bool.not_true, Bool.or_false, Bool.false_and, Bool.false_eq_true, if_false, Nat.add_zero] at hstep
    rw [ht]
    exact ⟨hmode, hofs, hstep⟩

/-- What can become of a sample (R36). -/
theorem takeSample_cases (off : Int) (c : W64) (s : State) :
    takeSample off c s = s ∨ takeSample off c s = acceptSample off c s ∨
      takeSample off c s = { s with time := { s.time with discards := s.time.discards + 1 } } ∨
      takeSample off c s = loseMaster (setEvent 1 3 { s with time := { s.time with discards := 0, disagree := true } }) := by
  unfold takeSample
  dsimp only
  repeat' split
  · exact .inl rfl
  · exact .inr (.inl rfl)
  · exact .inr (.inr (.inl rfl))
  · exact .inr (.inr (.inr rfl))
  · exact .inr (.inl rfl)

/-- Whatever becomes of a sample, the count, memory and the Pacers stand, and no Sync waits that did not. -/
theorem takeSample_frame (off : Int) (c : W64) (hp : s.time.syncPend = none) :
    (takeSample off c s).time.syncPend = none ∧ (takeSample off c s).time.now = s.time.now ∧
      (takeSample off c s).mem = s.mem ∧ (takeSample off c s).pc = s.pc := by
  rcases takeSample_cases off c s with h | h | h | h
  · rw [h]
    exact ⟨hp, rfl, rfl, rfl⟩
  · obtain ⟨-, -, -, -, -, -, hnow, hpend⟩ := acceptSample_time off c s
    rw [h]
    exact ⟨hpend.trans hp, hnow, acceptSample_mem off c s, acceptSample_pc off c s⟩
  · rw [h]
    exact ⟨hp, rfl, rfl, rfl⟩
  · obtain ⟨-, hnow, -, -, hpend, hpc, -⟩ :=
      loseMaster_frame (setEvent 1 3 { s with time := { s.time with discards := 0, disagree := true } })
    rw [setEvent_time] at hnow
    rw [setEvent_pc] at hpc
    rw [h]
    exact ⟨hpend, hnow, (loseMaster_mem _).trans (Laws.setEvent_mem ..), hpc⟩

end Samples

/-! ### PTP exchanges (R36, R37, R38) -/

section Exchanges
variable {s : State} {dom : Nat}

/-- The port takes a message of the domain of TI_CFG while strides run. -/
theorem ptpTakes_own (hr : stridesRun s = true) (hd : dom = ptpDomain s.time) : ptpTakes s dom = true := by
  rw [ptpTakes, hr, hd, beq_self_eq_true, Bool.and_self]

theorem ptpTakes_other {d : Nat} (hd : d ≠ ptpDomain s.time) : ptpTakes s d = false := by
  rw [ptpTakes, beq_false_of_ne hd, Bool.and_false]

variable (ht : ptpTakes s dom = true)
include ht

theorem exec_ptpSync_twoStep {c : W64} {l : Int} (seq t1 t2 corr : Nat) (hm : fromMaster s.time c = true)
    (hl : syncIntervalOk l = true) :
    exec (.ptpSync ⟨dom, c, l⟩ seq true t1 t2 corr) s = .next { s with time := { s.time with
      syncAt := some (s.tick, l), syncPend := some (c, seq, t2) } } := by
  show execPtpSync ⟨dom, c, l⟩ seq true t1 t2 corr s = _
  simp [execPtpSync, ht, hm, hl]

theorem exec_ptpSync_oneStep {c : W64} {l : Int} (seq t1 t2 corr : Nat) (hm : fromMaster s.time c = true)
    (hl : syncIntervalOk l = true) :
    exec (.ptpSync ⟨dom, c, l⟩ seq false t1 t2 corr) s =
      .next (completeSync c t1 t2 corr { s with time := { s.time with syncAt := some (s.tick, l) } }) := by
  show execPtpSync ⟨dom, c, l⟩ seq false t1 t2 corr s = _
  simp [execPtpSync, ht, hm, hl]

theorem exec_ptpFollowUp {c : W64} {seq t2 : Nat} (l : Int) (t1 corr : Nat) (hm : fromMaster s.time c = true)
    (hp : s.time.syncPend = some (c, seq, t2)) :
    exec (.ptpFollowUp ⟨dom, c, l⟩ seq t1 corr) s = .next (completeSync c t1 t2 corr s) := by
  show execPtpFollowUp ⟨dom, c, l⟩ seq t1 corr s = _
  simp [execPtpFollowUp, ht, hm, hp]

theorem exec_ptpDelayResp {c : W64} {seq t1 t2 t3 : Nat} (l : Int) (receive corr : Nat)
    (hq : s.time.delayReq = some (seq, t3)) (hs : s.time.lastSync = some (t1, t2)) (hm : fromMaster s.time c = true)
    (hpw : powerProfile s.time = false) :
    exec (.ptpDelayResp ⟨dom, c, l⟩ seq receive corr) s =
      .next (setPath ((((t2 : Int) - t1) + ((receive : Int) - corr - t3)) / 2) s) := by
  show execPtpDelayResp ⟨dom, c, l⟩ seq receive corr s = _
  simp [execPtpDelayResp, ht, hm, hq, hs, hpw]

/-- A one-step Pdelay_Resp carries the turnaround in its correction. -/
theorem exec_ptpPdelayResp_oneStep {seq t1 : Nat} (c : W64) (l : Int) (ingress time corr : Nat)
    (hq : s.time.delayReq = some (seq, t1)) (hpw : powerProfile s.time = true) :
    exec (.ptpPdelayResp ⟨dom, c, l⟩ seq (.resp false ingress) time corr) s =
      .next (setPath ((((ingress + natBits s.time.phyLat.toNat 16 16 : Nat) : Int) - t1 - corr) / 2) s) := by
  show execPtpPdelayResp ⟨dom, c, l⟩ seq (.resp false ingress) time corr s = _
  simp [execPtpPdelayResp, ht, hq, hpw]

theorem exec_ptpPdelayResp_twoStep {seq t1 : Nat} (c : W64) (l : Int) (ingress time corr : Nat)
    (hq : s.time.delayReq = some (seq, t1)) (hpw : powerProfile s.time = true) :
    exec (.ptpPdelayResp ⟨dom, c, l⟩ seq (.resp true ingress) time corr) s = .next { s with time := { s.time with
      pdelayPend := some (c, seq, time, ingress + natBits s.time.phyLat.toNat 16 16, corr) } } := by
  show execPtpPdelayResp ⟨dom, c, l⟩ seq (.resp true ingress) time corr s = _
  simp [execPtpPdelayResp, ht, hq, hpw]

theorem exec_ptpPdelayResp_followUp {c : W64} {seq t1 t2 t4 corr1 : Nat} (l : Int) (time corr : Nat)
    (hq : s.time.delayReq = some (seq, t1)) (hpw : powerProfile s.time = true)
    (hp : s.time.pdelayPend = some (c, seq, t2, t4, corr1)) :
    exec (.ptpPdelayResp ⟨dom, c, l⟩ seq .followUp time corr) s =
      .next (setPath (((t4 : Int) - t1 - ((time : Int) - t2) - corr1 - corr) / 2) s) := by
  show execPtpPdelayResp ⟨dom, c, l⟩ seq .followUp time corr s = _
  simp [execPtpPdelayResp, ht, hq, hpw, hp]

theorem exec_ptpPdelayReq (seq ingress egress : Nat) (hpw : powerProfile s.time = true) :
    exec (.ptpPdelayReq dom seq ⟨ingress, egress⟩) s = .next { s with time := { s.time with
      pdelayAnswer := some (seq, ingress + natBits s.time.phyLat.toNat 16 16,
        egress + natBits s.time.phyLat.toNat 0 16) } } := by
  show execPtpPdelayReq dom seq ⟨ingress, egress⟩ s = _
  simp [execPtpPdelayReq, ht, hpw]

end Exchanges

/-- The list after an Announce: the master that sent it is renewed, or entered while fewer than 8 are kept. -/
def announced (dom : Nat) (c : W64) (m : ForeignMaster) (ms : List ForeignMaster) : List ForeignMaster :=
  if ms.any (fun x => x.dom == dom && x.clockId == c) then
    ms.map (fun x => if x.dom == dom && x.clockId == c then m else x)
  else if ms.length < 8 then ms ++ [m] else ms

theorem announced_known {dom : Nat} {c : W64} {ms : List ForeignMaster} (m : ForeignMaster)
    (h : ∃ x ∈ ms, x.dom = dom ∧ x.clockId = c) :
    announced dom c m ms = ms.map (fun x => if x.dom == dom && x.clockId == c then m else x) :=
  if_pos (by simpa using h)

theorem announced_new {dom : Nat} {c : W64} {ms : List ForeignMaster} (m : ForeignMaster)
    (h : ∀ x ∈ ms, ¬(x.dom = dom ∧ x.clockId = c)) (hl : ms.length < 8) : announced dom c m ms = ms ++ [m] := by
  have hn : ¬ ms.any (fun x => x.dom == dom && x.clockId == c) = true := by simpa using h
  rw [announced, if_neg hn, if_pos hl]

theorem exec_ptpAnnounce {s : State} {dom : Nat} {c : W64} {l : Int} {d : PtpDataset} {utc : BitVec 16} {ok : Bool}
    {m : ForeignMaster} (ht : ptpTakes s dom = true)
    (hm : m = { dom := dom, clockId := c, data := d, utc := utc, utcValid := ok, heard := s.tick, logInt := l }) :
    exec (.ptpAnnounce ⟨dom, c, l⟩ d utc ok) s =
      .next { s with time := setMasters (announced dom c m s.time.masters) s.time } := by
  subst hm
  show execPtpAnnounce ⟨dom, c, l⟩ d utc ok s = _
  simp only [execPtpAnnounce, ht, Bool.not_true, Bool.false_eq_true, if_false, announced]

theorem exec_ptpSync_foreign {s : State} {d : Nat} (hd : d ≠ ptpDomain s.time) (c : W64) (l : Int) (seq : Nat) (two : Bool)
    (t1 t2 corr : Nat) : exec (.ptpSync ⟨d, c, l⟩ seq two t1 t2 corr) s = .next s := by
  show execPtpSync ⟨d, c, l⟩ seq two t1 t2 corr s = _
  simp [execPtpSync, ptpTakes_other hd]

theorem exec_ptpAnnounce_foreign {s : State} {dom : Nat} (hd : dom ≠ ptpDomain s.time) (c : W64) (l : Int) (d : PtpDataset)
    (utc : BitVec 16) (ok : Bool) : exec (.ptpAnnounce ⟨dom, c, l⟩ d utc ok) s = .next s := by
  show execPtpAnnounce ⟨dom, c, l⟩ d utc ok s = _
  simp [execPtpAnnounce, ptpTakes_other hd]

theorem exec_delayReqSend {s : State} (hr : stridesRun s = true) (seq egress : Nat) :
    exec (.delayReqSend seq egress) s = .next { s with time := { s.time with
      delayReq := some (seq, egress + natBits s.time.phyLat.toNat 0 16), pdelayPend := none } } := by
  show execDelayReqSend seq egress s = _
  simp [execDelayReqSend, hr]

/-- With a path delay known, a complete Sync gives a sample. -/
theorem completeSync_sample {s : State} (c : W64) (t1 t2 corr : Nat) (hk : s.time.pathKnown = true) :
    completeSync c t1 t2 corr s =
      takeSample (((t2 + natBits s.time.phyLat.toNat 16 16 : Nat) : Int) - t1 - corr - (s.time.path.toNat : Int)) c
        { s with time := { s.time with
          lastSync := some (t1 + corr, t2 + natBits s.time.phyLat.toNat 16 16), syncPend := none } } :=
  if_pos hk

/-- The state in which the sample of a complete Sync is judged. -/
def syncComplete (heard : Option (Nat × Int)) (origin rx : Nat) (s : State) : State :=
  { s with time := { s.time with lastSync := some (origin, rx), syncPend := none, syncAt := heard } }

/-- A one-step Sync, or the Follow_Up of a two-step one, whose sample is judged. -/
theorem exec_sample {s : State} {i : Instr} {dom : Nat} {c : W64} {t1 t2 corr : Nat} {heard : Option (Nat × Int)}
    (hi : (∃ seq l, i = .ptpSync ⟨dom, c, l⟩ seq false t1 t2 corr ∧ syncIntervalOk l = true ∧ heard = some (s.tick, l)) ∨
      (∃ seq l, s.time.syncPend = some (c, seq, t2) ∧ i = .ptpFollowUp ⟨dom, c, l⟩ seq t1 corr ∧ heard = s.time.syncAt))
    (ht : ptpTakes s dom = true) (hm : fromMaster s.time c = true) (hk : s.time.pathKnown = true) {rx : Nat} {off : Int}
    (hrx : rx = t2 + natBits s.time.phyLat.toNat 16 16) (hoff : off = (rx : Int) - t1 - corr - (s.time.path.toNat : Int)) :
    exec i s = .next (takeSample off c (syncComplete heard (t1 + corr) rx s)) := by
  subst hoff hrx
  rcases hi with ⟨seq, l, rfl, hl, rfl⟩ | ⟨seq, l, hp, rfl, rfl⟩
  · rw [exec_ptpSync_oneStep ht seq t1 t2 corr hm hl]
    exact congrArg _ (completeSync_sample c t1 t2 corr hk)
  · rw [exec_ptpFollowUp ht l t1 corr hm hp]
    exact congrArg _ (completeSync_sample c t1 t2 corr hk)

/-! ### Requests and the backup copy (R35, R36) -/

theorem exec_reacquire {s : State} (hr : stridesRun s = true) :
    exec .reacquire s = .next { s with time := { s.time with disagree := false, reacquire := true, discards := 0 } } := by
  show execReacquire s = _
  simp [execReacquire, hr, reacquire]

theorem exec_backupCounterCopy (s : State) :
    exec .backupCounterCopy s = if stridesRun s then
      .next { s with time := { s.time with backupValid := true, backupValue := s.time.now, backupSince := 0 } }
    else .next s := rfl

/-! ### The pulse output (R39) -/

theorem ppsMay_iff (t : TimeUnit) :
    ppsMay t = true ↔ (timeState t = 1 ∨ timeState t = 2) ∧ t.pps.getLsbD 0 = true := by
  simp [ppsMay]

theorem ppsMay_eq_false {t : TimeUnit} (h : ¬(timeState t = 1 ∨ timeState t = 2) ∨ t.pps.getLsbD 0 = false) :
    ppsMay t = false := by
  rw [Bool.eq_false_iff]
  intro hmay
  obtain ⟨hst, hen⟩ := (ppsMay_iff t).mp hmay
  rcases h with hno | hoff
  · exact hno hst
  · rw [hen] at hoff
    cases hoff

theorem exec_ppsRise {s : State} (hr : stridesRun s = true) (hn : s.time.now % 1000000000 = 0) (hm : ppsMay s.time = true) :
    exec .ppsRise s = .next { s with time := { s.time with
      ppsOut := true, ppsFall := s.time.now + 1000 * max 1 (natBits s.time.pps.toNat 16 16) } } := by
  show execPpsRise s = _
  simp [execPpsRise, hr, hn, hm]

theorem exec_ppsRise_held {s : State} (hm : ppsMay s.time = false) : exec .ppsRise s = .next s := by
  show execPpsRise s = _
  simp [execPpsRise, hm]

theorem exec_ppsFall {s : State} (h : s.time.ppsFall ≤ s.time.now ∨ ppsMay s.time = false) :
    exec .ppsFall s = .next { s with time := { s.time with ppsOut := false } } := by
  have hfalls : s.time.ppsFall ≤ s.time.now ∨ (!ppsMay s.time) = true := h.imp_right fun hm => by rw [hm]; rfl
  exact if_pos hfalls

theorem exec_ppsFall_early {s : State} (hn : s.time.now < s.time.ppsFall) (hm : ppsMay s.time = true) :
    exec .ppsFall s = .next s := by
  have hstays : ¬(s.time.ppsFall ≤ s.time.now ∨ (!ppsMay s.time) = true) := by
    rw [hm]
    exact not_or.mpr ⟨Nat.not_le.mpr hn, by decide⟩
  exact if_neg hstays

theorem noteUnsure_ppsOut {s : State} (hm : ppsMay s.time = false) : (noteUnsure s).time.ppsOut = false := by
  simp only [noteUnsure_time, hm, Bool.and_false]

/-! ### The stride boundary (R31, R33, R455, R482) -/

/-- TI_NOW gains a stride and the step that is due. -/
theorem advanceTime_time (s : State) :
    (advanceTime s).time.now = s.time.now + 1000 + 1000 * s.time.stepPending ∧
      (advanceTime s).time.executed = s.time.executed + 1 ∧ (advanceTime s).time.stepPending = 0 := by
  unfold advanceTime
  dsimp only
  rw [noteUnsure_time]
  split
  · exact ⟨rfl, rfl, rfl⟩
  · rw [ledgerEvent_time, setEvent_time]
    exact ⟨rfl, rfl, rfl⟩

/-- An event raised on one core leaves what is pending on every core. -/
theorem setPend_keeps_pend {s : State} {c i : Nat} (d j : Nat) (h : (getCore s c).pend.getLsbD i = true) :
    (getCore (setPend d j s) c).pend.getLsbD i = true := by
  by_cases hd : c = d
  · subst hd
    simp [setPend, h]
  · rw [setPend, getCore_updCore_ne _ _ hd]
    exact h

theorem setPend_self (s : State) (c : Nat) {i : Nat} (hi : i < 32) : (getCore (setPend c i s) c).pend.getLsbD i = true := by
  rw [setPend, getCore_updCore_self]
  simp only [BitVec.getLsbD_or, BitVec.getLsbD_ofNat, hi, decide_true, Nat.testBit_two_pow_self, Bool.and_self, Bool.or_true]

/-- What one element's turn brings about and every turn keeps holds at the end of a fold. -/
theorem foldl_reaches {α : Type} {f : State → α → State} {P : State → Prop} {x : α} {l : List α} (hx : x ∈ l)
    (brings : ∀ st, P (f st x)) (keeps : ∀ st y, P st → P (f st y)) (s : State) : P (l.foldl f s) := by
  induction l generalizing s with
  | nil => cases hx
  | cons y l ih =>
    rcases List.mem_cons.mp hx with rfl | hl
    · exact List.foldlRecOn l f (brings s) fun st hst z _ => keeps st z hst
    · exact ih hl _

theorem raiseTicks_pend {c : Nat} (hc : c < 26) (s : State) : (getCore (raiseTicks s) c).pend.getLsbD 0 = true := by
  unfold raiseTicks
  exact foldl_reaches (f := fun st d => setPend d 0 st) (P := fun st => (getCore st c).pend.getLsbD 0 = true)
    (List.mem_range.mpr hc) (fun st => setPend_self st c (by decide)) (fun _ d h => setPend_keeps_pend d 0 h) s

theorem noteDisagree_pc (s : State) : (noteDisagree s).pc = s.pc := setEventIf_pc ..

theorem exec_strideBoundary {s : State} (fs : List HwFault) (hr : stridesRun s = true) :
    exec (.strideBoundary fs) s =
      if s.pm.flushing then .next (advanceTime s) else .next (strideBegin (strideEnd fs s)) := by
  show execStrideBoundary fs s = _
  simp [execStrideBoundary, hr]

theorem exec_strideBoundary_stopped {s : State} (fs : List HwFault) (hr : stridesRun s = false) :
    exec (.strideBoundary fs) s = .next s := by
  show execStrideBoundary fs s = _
  simp [execStrideBoundary, hr]

theorem drivePin_pc (s : State) : (drivePin s).pc = s.pc := rfl

/-- A core is what the Pacer unit holds. -/
theorem getCore_congr {s t : State} (h : t.pc = s.pc) (c : Nat) : getCore t c = getCore s c := by
  rw [getCore, getCore, h]

theorem drivePin_pin (s : State) : (drivePin s).al.pin = (!(drivePin s).pm.porLow && !(drivePin s).pm.onCell &&
    ((drivePin s).al.force || ((drivePin s).summary &&& (drivePin s).al.pinen) != 0)) := rfl

/-- The stride begins with the ticks, the list of disagreeing pairs and the pin. -/
theorem strideBegin_ends (s : State) : ∃ u, strideBegin s = drivePin (noteDisagree (raiseTicks u)) := ⟨_, rfl⟩

/-- As a stride begins the pin is driven and the tick is pending on every core. -/
theorem strideBegin_shows (s : State) :
    (strideBegin s).al.pin = (!(strideBegin s).pm.porLow && !(strideBegin s).pm.onCell &&
      ((strideBegin s).al.force || ((strideBegin s).summary &&& (strideBegin s).al.pinen) != 0)) ∧
    ∀ c, c < 26 → (getCore (strideBegin s) c).pend.getLsbD 0 = true := by
  obtain ⟨u, hu⟩ := strideBegin_ends s
  rw [hu]
  refine ⟨drivePin_pin _, fun c hc => ?_⟩
  rw [getCore_congr ((drivePin_pc _).trans (noteDisagree_pc _))]
  exact raiseTicks_pend hc u

/-! ### The statement -/

/-- Settles O6, clause by clause: the exchanges, the judgement of a sample, the loss of a master with the requests, the
pulse output, and the stride boundary. -/
theorem clockAndStrideCommands : Obligations.ClockAndStrideCommands := by
  unfold Obligations.ClockAndStrideCommands
  refine ⟨?exchanges, ?samples, ?loss, ?pulse, ?stride⟩
  case exchanges =>
    intro s hr dom hd
    have ht : ptpTakes s dom = true := ptpTakes_own hr hd
    refine ⟨fun c seq l t1 t2 corr hm hl => exec_ptpSync_twoStep ht seq t1 t2 corr hm hl,
      fun seq egress => exec_delayReqSend hr seq egress,
      fun c l seq receive corr t1 t2 t3 hq hs hm hp => exec_ptpDelayResp ht l receive corr hq hs hm hp,
      fun c l seq t1 time ingress corr hq hp => ⟨exec_ptpPdelayResp_oneStep ht c l ingress time corr hq hp,
        exec_ptpPdelayResp_twoStep ht c l ingress time corr hq hp,
        fun t2 t4 corr1 hw => exec_ptpPdelayResp_followUp ht l time corr hq hp hw⟩,
      fun seq ingress egress hp => exec_ptpPdelayReq ht seq ingress egress hp,
      fun c l d utc ok m hm => ?_, fun d2 hne c seq l two t1 t2 corr d utc ok => ?_⟩
    · obtain ⟨hms, hnow, -⟩ := setMasters_frame (announced dom c m s.time.masters) s.time
      refine ⟨_, exec_ptpAnnounce ht hm, hnow, fun hnew hlen => ?_, fun hold => ?_,
        fun b hb => setMasters_selected _ _ hb⟩
      · rw [hms, announced_new m hnew hlen]
      · rw [hms, announced_known m hold]
    · exact ⟨exec_ptpSync_foreign (hd ▸ hne) c l seq two t1 t2 corr, exec_ptpAnnounce_foreign (hd ▸ hne) c l d utc ok⟩
  case samples =>
    intro s i dom c t1 t2 corr heard hi hr hd hm hk rx off hrx hoff
    refine ⟨_, exec_sample hi (ptpTakes_own hr hd) hm hk hrx hoff, ?_⟩
    obtain ⟨hpend, hnow, hmem, hpc⟩ := takeSample_frame (s := syncComplete heard (t1 + corr) rx s) off c rfl
    exact ⟨hpend, hnow, hmem, hpc, takeSample_judged off c (syncComplete heard (t1 + corr) rx s)⟩
  case loss =>
    intro s hr
    refine ⟨fun b hb hsil => ?_, exec_reacquire hr, ?_, fun u hu => ?_⟩
    · obtain ⟨hms, hnow, -, -, -, hpc, -⟩ := loseMaster_frame s
      exact ⟨_, exec_masterLoss hr (masterSilent_of hb hsil), hnow, loseMaster_mem s, hpc, hms.trans (mastersLeft_some hb),
        loseMaster_holdover, loseMaster_mode⟩
    · rw [exec_backupCounterCopy, if_pos hr]
    · rw [exec_backupCounterCopy, hu]
      rfl
  case pulse =>
    intro s
    refine ⟨fun hr hn hst hen => exec_ppsRise hr hn ((ppsMay_iff _).mpr ⟨hst, hen⟩), fun h => ?_,
      fun h => exec_ppsFall (.inl h), fun hn hst hen => exec_ppsFall_early hn ((ppsMay_iff _).mpr ⟨hst, hen⟩)⟩
    have hm : ppsMay s.time = false := ppsMay_eq_false h
    exact ⟨exec_ppsRise_held hm, exec_ppsFall (.inr hm), noteUnsure_ppsOut hm⟩
  case stride =>
    intro s fs
    refine ⟨fun hr hf => ⟨_, ?_, rfl, strideBegin_shows (strideEnd fs s)⟩, fun hr hf => ?_,
      fun hr => exec_strideBoundary_stopped fs hr, advanceTime_time s⟩
    · rw [exec_strideBoundary fs hr, hf]
      rfl
    · rw [exec_strideBoundary fs hr, hf]
      rfl

end Sys2Proof.Proofs
end

section
/-! The frame of shares (R41–R44, R46): what a frame boundary puts into force, how a share is staged, how slots spread over the
strides of a frame, and an overrun. -/

namespace Sys2Proof.Proofs

open Sys2Proof Sys2Proof.Machine Sys2Proof.Laws

/-! ### A frame boundary (R43, R44) -/

theorem shareKey_res {res p : Nat} (hp : p < 256) : shareKey res p / 256 = res := by
  unfold shareKey
  omega

/-- No slots stay no slots. -/
theorem scaledShare_zero (s : State) (res : Nat) : scaledShare s res 0 = 0 := by
  simp [scaledShare]

/-- Every effective share is the share in force, scaled to the units in service. -/
theorem takeShares_eff (s : State) (res : Nat) {p : Nat} (hp : p < 256) :
    effShare (takeShares s).time res p = scaledShare s res (Tab.get 0 s.time.inForce (shareKey res p)) := by
  have h : effShare (takeShares s).time res p =
      scaledShare s (shareKey res p / 256) (Tab.get 0 s.time.inForce (shareKey res p)) :=
    Tab.get_mapVals (fun k n => scaledShare s (k / 256) n) (fun k => scaledShare_zero s (k / 256)) s.time.inForce _
  rw [h, shareKey_res hp]

/-! ### What the other units do at a frame boundary leaves the time unit -/

theorem endHeld_time (slot act job status : Nat) (data : List Byte) (s : State) :
    (endHeld slot act job status data s).time = s.time := by
  unfold endHeld
  dsimp only
  repeat' split
  all_goals rfl

theorem wipeBank_time (j : PJob) (s : State) : (wipeBank j s).time = s.time := rfl

theorem pkeEnd_time (j : PJob) (status outlen due : Nat) (s : State) : (pkeEnd j status outlen due s).time = s.time := by
  have dropped : ∀ (b : Bool) (h : Nat) (u : State), (if b then dropUse h u else u).time = u.time := fun b h u => by
    cases b <;> rfl
  have unfilled : ∀ (b : Bool) (h : Nat) (u : State), (if b then unfillTack h u else u).time = u.time := fun b h u => by
    cases b <;> rfl
  unfold pkeEnd
  dsimp only
  split
  · rw [endHeld_time, unfilled, dropped]
    split <;> rfl
  · rw [unfilled, dropped]
    split <;> rfl

theorem pkeAbort_time (j : PJob) (status : Nat) (s : State) : (pkeAbort j status s).time = s.time := by
  unfold pkeAbort
  dsimp only
  split
  · exact pkeEnd_time ..
  · exact pkeEnd_time ..

theorem pkeLayout_time (s : State) : (pkeLayout s).time = s.time := by
  unfold pkeLayout
  refine List.foldlRecOn (motive := fun t : State => t.time = s.time) _ _ rfl fun st hst j _ => ?_
  dsimp only
  split
  · exact hst
  · split
    · exact hst
    · rw [setEvent_time, pkeAbort_time, hst]

theorem wearPacing_time (s : State) : (wearPacing s).time = s.time := setEventIf_time ..

/-- At a frame boundary the staged shares come into force. -/
def sharesInForce (s : State) : State :=
  takeShares { s with time := { s.time with inForce := s.time.staged, frameDone := some (s.stride / 256) } }

theorem frameEffects_time (s : State) : (frameEffects s).time = (sharesInForce s).time := by
  show (wearPacing (pkeLayout (cipherFrame (sharesInForce s)))).time = _
  rw [wearPacing_time, pkeLayout_time]
  rfl

theorem exec_frameBoundary {s : State} (hr : stridesRun s = true) (hd : frameDue s = true) :
    exec .frameBoundary s = .next (frameEffects s) := by
  show execFrameBoundary s = _
  simp [execFrameBoundary, hr, hd]

/-! ### Staging (R43) -/

theorem exec_shareWrite {s : State} {c : Nat} (v : W32) (hm : coreMay s c true 0x100100090 = true) :
    exec (.shareWrite c v) s = .next (writeShare v.toNat s) :=
  if_pos hm

/-- A share within its resource's total is staged; a PKE share is a multiple of 64 (R123). -/
theorem writeShare_staged {s : State} {v res p : Nat} (hres : res = natBits s.time.shrSel.toNat 8 2)
    (hp : p = natBits s.time.shrSel.toNat 0 8)
    (hfit : stagedSum s.time res - Tab.get 0 s.time.staged (shareKey res p) + v % 2 ^ 20 ≤ fullTotal res)
    (hpke : res = 1 → v % 64 = 0) :
    writeShare v s =
      { s with time := { s.time with staged := Tab.set 0 s.time.staged (shareKey res p) (v % 2 ^ 20) } } := by
  subst hres hp
  refine if_neg ?_
  rintro (h | ⟨h1, h2⟩)
  · exact absurd hfit (Nat.not_le.mpr h)
  · have := hpke h1
    omega

theorem writeShare_refused {s : State} {v res p : Nat} (hres : res = natBits s.time.shrSel.toNat 8 2)
    (hp : p = natBits s.time.shrSel.toNat 0 8)
    (hover : fullTotal res < stagedSum s.time res - Tab.get 0 s.time.staged (shareKey res p) + v % 2 ^ 20) :
    writeShare v s = { s with time := { s.time with shrRefused := true } } := by
  subst hres hp
  exact if_pos (.inl hover)

/-! ### Overruns (R46) -/

theorem exec_unitOverrun {s : State} {pool u : Nat} (hu : unitOk pool u = true) (hp : pool ≠ 2)
    (hst : (getUnit s pool u).st = 1 ∨ (getUnit s pool u).st = 2) :
    exec (.unitOverrun pool u) s = .next (setEvent 1 5 (itemAdd 0x1040 1 { s with
      us := { s.us with overruns := s.us.overruns ++ [(pool, u)] },
      time := { s.time with
        overruns := if s.time.overruns = -1 then s.time.overruns else s.time.overruns + 1 } })) := by
  show execUnitOverrun pool u s = _
  simp [execUnitOverrun, hu, hp, hst]

/-! ### Slots over the strides of a frame (R42) -/

/-- Of the positions below `x`, those in stride `k` of the frame. -/
def slotsBelow (x k : Nat) : Nat := (x + 255 - k) / 256

/-- One more position is one more slot in the one stride of the frame that it falls in. -/
theorem slotsBelow_succ (x : Nat) {k : Nat} (hk : k < 256) :
    slotsBelow (x + 1) k = slotsBelow x k + if k = x % 256 then 1 else 0 := by
  unfold slotsBelow
  split <;> omega

theorem sum_range_succ (f : Nat → Nat) (n : Nat) :
    ((List.range (n + 1)).map f).sum = ((List.range n).map f).sum + f n := by
  simp only [List.range_succ, List.map_append, List.map_cons, List.map_nil, List.sum_append_nat, List.sum_cons, List.sum_nil,
    Nat.add_zero]

/-- Numbers that grow by one in one place grow by one in all. -/
theorem sum_range_one_more {f g : Nat → Nat} {n r : Nat} (h : ∀ k, k < n → g k = f k + if k = r then 1 else 0) :
    ((List.range n).map g).sum = ((List.range n).map f).sum + if r < n then 1 else 0 := by
  induction n with
  | zero => rfl
  | succ n ih =>
    rw [sum_range_succ, sum_range_succ, ih fun k hk => h k (by omega), h n (by omega)]
    split <;> split <;> split <;> omega

/-- Numbers that add up place by place add up in all. -/
theorem sum_range_add {d f g : Nat → Nat} {n : Nat} (h : ∀ k, k < n → d k + f k = g k) :
    ((List.range n).map d).sum + ((List.range n).map f).sum = ((List.range n).map g).sum := by
  induction n with
  | zero => rfl
  | succ n ih =>
    have hrest := ih fun k hk => h k (by omega)
    have hlast := h n (by omega)
    simp only [sum_range_succ]
    omega

theorem sum_range_zero {f : Nat → Nat} {n : Nat} (h : ∀ k, k < n → f k = 0) : ((List.range n).map f).sum = 0 := by
  induction n with
  | zero => rfl
  | succ n ih => rw [sum_range_succ, ih fun k hk => h k (by omega), h n (by omega)]

theorem slotsBelow_zero {k : Nat} (hk : k < 256) : slotsBelow 0 k = 0 := by
  unfold slotsBelow
  omega

/-- Over a frame every position falls in one stride. -/
theorem sum_slotsBelow (x : Nat) : ((List.range 256).map (slotsBelow x)).sum = x := by
  induction x with
  | zero => exact sum_range_zero fun k hk => slotsBelow_zero hk
  | succ x ih => rw [sum_range_one_more fun k hk => slotsBelow_succ x hk, ih, if_pos (Nat.mod_lt _ (by decide))]

theorem slotsBelow_mono {x y : Nat} (h : x ≤ y) (k : Nat) : slotsBelow x k ≤ slotsBelow y k :=
  Nat.div_le_div_right (by omega)

theorem slotsIn_eq (t : TimeUnit) (res p stride : Nat) :
    slotsIn t res p stride = slotsBelow (runStart t res p + effShare t res p) (stride % 256) -
      slotsBelow (runStart t res p) (stride % 256) := rfl

/-- A paddock has the floor or the ceiling of its share in each stride. -/
theorem slotsIn_floor_or_ceiling (t : TimeUnit) (res p stride : Nat) :
    slotsIn t res p stride = effShare t res p / 256 ∨ slotsIn t res p stride = (effShare t res p + 255) / 256 := by
  rw [slotsIn_eq]
  unfold slotsBelow
  omega

/-- A paddock's slots of a stride are those between the start and the end of its run. -/
theorem slotsIn_add_slotsBelow (t : TimeUnit) (res p : Nat) {k : Nat} (hk : k < 256) :
    slotsIn t res p k + slotsBelow (runStart t res p) k = slotsBelow (runStart t res p + effShare t res p) k := by
  rw [slotsIn_eq, Nat.mod_eq_of_lt hk]
  exact Nat.sub_add_cancel (slotsBelow_mono (Nat.le_add_right ..) k)

/-- Over a whole frame a paddock has its share. -/
theorem sum_slotsIn (t : TimeUnit) (res p : Nat) :
    ((List.range 256).map (fun k => slotsIn t res p k)).sum = effShare t res p := by
  have h := sum_range_add fun k hk => slotsIn_add_slotsBelow t res p (k := k) hk
  rw [sum_slotsBelow, sum_slotsBelow] at h
  exact Nat.add_right_cancel (h.trans (Nat.add_comm ..))

/-! ### The statement -/

/-- Settles O7, clause by clause: the table that a boundary scales, the two judgements of a staged share with the overrun,
and the count of positions in each stride of a frame. -/
theorem frameSharesTakeEffect : Obligations.FrameSharesTakeEffect := by
  unfold Obligations.FrameSharesTakeEffect
  refine ⟨?boundary, ?staging, fun t res p => ⟨slotsIn_floor_or_ceiling t res p, sum_slotsIn t res p⟩⟩
  case boundary =>
    intro s hr hd
    refine ⟨_, exec_frameBoundary hr hd, ?_⟩
    rw [frameEffects_time]
    exact ⟨rfl, rfl, frameEffects_mem s, rfl, fun res p hp => takeShares_eff _ res hp⟩
  case staging =>
    intro s c v res p hm hres hp
    rw [exec_shareWrite v hm]
    refine ⟨fun hfit hpke => ?_, fun hover => ?_, fun pool u hu hpool hst => ?_⟩
    · rw [writeShare_staged hres hp hfit hpke]
    · rw [writeShare_refused hres hp hover]
    · refine ⟨_, exec_unitOverrun hu hpool hst, ?_, ?_, ?_, setEvent_self _ 1 5 (by decide), Laws.setEvent_mem ..,
        setEvent_pc ..⟩
      · rw [setEvent_us]
        rfl
      · rw [setEvent_time]
        rfl
      · rw [setEvent_ledger, itemAdd_items, get_items_itemAddQuiet, if_pos rfl]

end Sys2Proof.Proofs
end

section
/-! Results and service of the request units (R45, R76, R77, R83, R96, R113, R118, R131, R133): what a completion writes, the
cipher reserves, the seeds of every DRBG, and the diagnosis read of an operand bank. -/

namespace Sys2Proof.Proofs

open Sys2Proof Sys2Proof.Machine Sys2Proof.Laws

/-! ### Results of cipher and PKE jobs (R45, R76, R77, R118, R221) -/

/-- With IE the core is told of a window's result. -/
def tellCore (ie : Bool) (c i p : Nat) (s : State) : State := if ie then setPendFor c i p s else s

/-- Telling the core leaves memory and the two units, and without IE the Pacers. -/
theorem tellCore_spec (ie : Bool) (c p : Nat) {i : Nat} (hi : i < 32) (s : State) :
    (tellCore ie c i p s).cf = s.cf ∧ (tellCore ie c i p s).pk = s.pk ∧ (tellCore ie c i p s).mem = s.mem ∧
      (ie = true → (getCore (tellCore ie c i p s) c).pend.getLsbD i = true) ∧
      (ie = false → (tellCore ie c i p s).pc = s.pc) := by
  cases ie
  · exact ⟨rfl, rfl, rfl, nofun, fun _ => rfl⟩
  · exact ⟨rfl, rfl, rfl, fun _ => setPend_self _ c hi, nofun⟩

section Jobs
variable {s : State} {p : Pend} (hdue : p.due ≤ s.tick) (hst : p.status ≠ stUnitFenced)
include hdue hst

theorem exec_cipherJobComplete_win {c w : Nat} (hf : s.cf.pend.find? (fun x => decide (x.req.src = .win c w)) = some p) :
    exec (.cipherJobComplete (.win c w)) s = .next (tellCore (getWin 0 c w s).ie c 5 p.req.paddock { s with cf := { s.cf with
      pend := s.cf.pend.filter (fun x => decide (x.req.src ≠ .win c w)),
      wins := Tab.upd Win.reset s.cf.wins (c * 8 + w) (fun x => x.finish (p.bytes (s.stride % 2 ^ 32))) } }) := by
  have turn : hostTurn s (.win c w) = true := rfl
  show execCipherJobComplete (.win c w) s = _
  simp only [execCipherJobComplete, hf, turn, hst, decide_eq_false (Nat.not_lt.mpr hdue), Bool.not_true, Bool.or_self,
    Bool.false_eq_true, if_false]
  rfl

theorem exec_pkeJobComplete_win {c w : Nat} (hf : s.pk.pend.find? (fun x => decide (x.req.src = .win c w)) = some p) :
    exec (.pkeJobComplete (.win c w)) s = .next (tellCore (getWin 1 c w s).ie c 4 p.req.paddock { s with pk := { s.pk with
      pend := s.pk.pend.filter (fun x => decide (x.req.src ≠ .win c w)),
      wins := Tab.upd Win.reset s.pk.wins (c * 8 + w) (fun x => x.finish (p.bytes (s.stride % 2 ^ 32))) } }) := by
  have turn : hostTurn s (.win c w) = true := rfl
  show execPkeJobComplete (.win c w) s = _
  simp only [execPkeJobComplete, hf, turn, hst, decide_eq_false (Nat.not_lt.mpr hdue), Bool.not_true, Bool.or_self,
    Bool.false_eq_true, if_false]
  rfl

theorem exec_cipherJobComplete_host {fn q n : Nat}
    (hf : s.cf.pend.find? (fun x => decide (x.req.src = .host fn q n)) = some p) (turn : hostTurn s (.host fn q n) = true) :
    exec (.cipherJobComplete (.host fn q n)) s = .next (hostComplete fn q n (p.bytes (s.stride % 2 ^ 32))
      { s with cf := { s.cf with pend := s.cf.pend.filter (fun x => decide (x.req.src ≠ .host fn q n)) } }) := by
  show execCipherJobComplete (.host fn q n) s = _
  simp only [execCipherJobComplete, hf, turn, hst, decide_eq_false (Nat.not_lt.mpr hdue), Bool.not_true, Bool.or_self,
    Bool.false_eq_true, if_false]

theorem exec_pkeJobComplete_host {fn q n : Nat}
    (hf : s.pk.pend.find? (fun x => decide (x.req.src = .host fn q n)) = some p) (turn : hostTurn s (.host fn q n) = true) :
    exec (.pkeJobComplete (.host fn q n)) s = .next (hostComplete fn q n (p.bytes (s.stride % 2 ^ 32))
      { s with pk := { s.pk with pend := s.pk.pend.filter (fun x => decide (x.req.src ≠ .host fn q n)) } }) := by
  show execPkeJobComplete (.host fn q n) s = _
  simp only [execPkeJobComplete, hf, turn, hst, decide_eq_false (Nat.not_lt.mpr hdue), Bool.not_true, Bool.or_self,
    Bool.false_eq_true, if_false]

end Jobs

/-! ### Results of stall commands (R96, R221) -/

/-- The result of a stall command: STATUS, the stall's STATE and REASON where OK, the stall and the two strides. -/
def stallResult (s : State) (q : StReq) : List Byte :=
  [BitVec.ofNat 8 q.pend.status, if q.pend.status = stOK then BitVec.ofNat 8 (stallState s q.stall) else 0,
    if q.pend.status = stOK then BitVec.ofNat 8 (stallField s q.stall 3 1) else 0, 0] ++
    natToLE 4 q.stall ++ q.pend.result ++ natToLE 4 s.stride

/-- A stall command's result goes where its source reads it. -/
theorem exec_stallCommandComplete {s : State} {q : StReq} {src : Src} (hdue : q.pend.due ≤ s.tick) (hsnap : q.snap = false)
    (hf : s.st.pend.find? (fun x => decide (x.pend.req.src = src)) = some q) (turn : hostTurn s src = true) :
    exec (.stallCommandComplete src) s = .next (finishStall q.pend.req (stallResult s q)
      { s with st := { s.st with pend := s.st.pend.filter (fun x => decide (x.pend.req.src ≠ src)) } }) := by
  have hgo : ¬(s.tick < q.pend.due ∨ q.snap = true ∨ (!hostTurn s src) = true) := by
    simp [hsnap, turn, hdue]
  show execStallCommandComplete src s = _
  simp only [execStallCommandComplete, hf, hgo, if_false, stallResult, beq_iff_eq]

theorem finishStall_win {r : Req} {c w : Nat} (hr : r.src = .win c w) (bs : List Byte) (s : State) :
    finishStall r bs s = { s with st := { s.st with wins := Tab.upd Win.reset s.st.wins c (fun x => x.finish bs) } } := by
  simp only [finishStall, hr]

theorem finishStall_host {r : Req} {fn q n : Nat} (hr : r.src = .host fn q n) (bs : List Byte) (s : State) :
    finishStall r bs s = hostComplete fn q n bs s := by
  simp only [finishStall, hr]

/-! ### Reserves of the cipher fabric (R83) -/

theorem exec_cfRsvWrite {s : State} {c : Nat} (v : W32) (hm : coreMay s c true 0x100200028 = true) :
    exec (.cfRsvWrite c v) s = .next (if 256 < v.toNat % 512 then setEvent 2 4 s
      else { s with cf := { s.cf with rsvStaged := Tab.set 0 s.cf.rsvStaged s.cf.psel (v.toNat % 512) } }) := by
  have hn : natBits v.toNat 0 9 = v.toNat % 512 := by simp [natBits]
  show execCfRsvWrite c v s = _
  simp only [execCfRsvWrite, hm, if_true, writeCfRsv, hn, gt_iff_lt]

theorem foldl_add_eq_sum (g : Nat → Nat) (l : List Nat) : l.foldl (fun a p => a + g p) 0 = (l.map g).sum := by
  rw [List.sum_eq_foldl, List.foldl_map]

theorem exec_cfCtxWrite {s : State} {c sum : Nat} {v : W32} (hm : coreMay s c true 0x100200030 = true)
    (hsum : sum = ((List.range 256).map (fun p =>
      if p = s.cf.psel then v.toNat % 1024 else Tab.get 2 s.cf.ctxStaged p)).sum) :
    exec (.cfCtxWrite c v) s = .next (if 512 < sum then setEvent 2 5 s
      else { s with cf := { s.cf with ctxStaged := Tab.set 2 s.cf.ctxStaged s.cf.psel (v.toNat % 1024) } }) := by
  have hn : natBits v.toNat 0 10 = v.toNat % 1024 := by simp [natBits]
  show execCfCtxWrite c v s = _
  simp only [execCfCtxWrite, hm, if_true, writeCfCtx, hn, gt_iff_lt, foldl_add_eq_sum, ← hsum]

/-! ### Seeds (R113, R133) -/

/-- The DRBG of an engine, or of tack custody (68). -/
def drbgOf (s : State) (u : Nat) : Drbg := if u < 68 then engineDrbg s u else s.tk.drbg

/-- Replace it. -/
def putDrbg (u : Nat) (d : Drbg) (s : State) : State :=
  if u < 68 then setDrbg u d s else { s with tk := { s.tk with drbg := d } }

theorem engineDrbg_setDrbg (s : State) (u v : Nat) (d : Drbg) :
    engineDrbg (setDrbg u d s) v = if v = u then d else engineDrbg s v := Tab.get_set ..

theorem drbgOf_putDrbg (s : State) {u v : Nat} (hu : u ≤ 68) (hv : v ≤ 68) (d : Drbg) :
    drbgOf (putDrbg u d s) v = if v = u then d else drbgOf s v := by
  by_cases h : u < 68
  · simp only [putDrbg, if_pos h, drbgOf]
    by_cases h' : v < 68
    · simp only [if_pos h', engineDrbg_setDrbg]
    · have hne : v ≠ u := by omega
      simp only [if_neg h', if_neg hne]
      rfl
  · have hu68 : u = 68 := by omega
    subst hu68
    by_cases h' : v < 68
    · have hne : v ≠ 68 := by omega
      simp only [putDrbg, drbgOf, Nat.lt_irrefl, if_false, if_pos h', if_neg hne]
      rfl
    · have hv68 : v = 68 := by omega
      simp only [putDrbg, drbgOf, Nat.lt_irrefl, if_false, if_neg h', if_pos hv68]

theorem putDrbg_frame (u : Nat) (d : Drbg) (s : State) :
    (putDrbg u d s).mem = s.mem ∧ (putDrbg u d s).pc = s.pc ∧ (putDrbg u d s).time = s.time ∧
      (putDrbg u d s).pk.entropyOk = s.pk.entropyOk ∧ (putDrbg u d s).pk.reseedFails = s.pk.reseedFails := by
  unfold putDrbg
  split <;> exact ⟨rfl, rfl, rfl, rfl, rfl⟩

/-- A DRBG that is due reseeds, or without entropy the refusal is counted. -/
theorem drbgReady_due {d : Drbg} {s : State} (h : d.due s.tick = true) :
    drbgReady d s = if s.pk.entropyOk then drbgSeed d s
      else (d, { s with pk := { s.pk with reseedFails := min (s.pk.reseedFails + 1) 0xFFFF } }) := by
  have hc : ¬ d.count = 0 := fun h0 => by simp [Drbg.due, h0] at h
  simp only [drbgReady, hc, h, if_false, Bool.not_true, Bool.false_eq_true]

theorem reseedDue_idle {u : Nat} {s : State} (h : (drbgOf s u).due s.tick = false) : reseedDue u s = s :=
  if_pos (Bool.not_eq_true' _ ▸ h)

theorem reseedDue_due {u : Nat} {s : State} (h : (drbgOf s u).due s.tick = true) :
    reseedDue u s = if s.pk.entropyOk then putDrbg u (drbgSeed (drbgOf s u) s).1 (drbgSeed (drbgOf s u) s).2
      else putDrbg u (drbgOf s u) { s with pk := { s.pk with reseedFails := min (s.pk.reseedFails + 1) 0xFFFF } } := by
  have hr : reseedDue u s = putDrbg u (drbgReady (drbgOf s u) s).1 (drbgReady (drbgOf s u) s).2 :=
    if_neg (by rw [show (if u < 68 then engineDrbg s u else s.tk.drbg) = drbgOf s u from rfl, h]; decide)
  rw [hr, drbgReady_due h]
  split <;> rfl

/-- The turn of one DRBG leaves memory, the Pacers, the time and the entropy source. -/
theorem reseedDue_frame (u : Nat) (s : State) :
    (reseedDue u s).mem = s.mem ∧ (reseedDue u s).pc = s.pc ∧ (reseedDue u s).time = s.time ∧
      (reseedDue u s).pk.entropyOk = s.pk.entropyOk := by
  cases h : (drbgOf s u).due s.tick with
  | false =>
    rw [reseedDue_idle h]
    exact ⟨rfl, rfl, rfl, rfl⟩
  | true =>
    rw [reseedDue_due h]
    split
    · obtain ⟨hmem, hpc, htime, hok, -⟩ := putDrbg_frame u (drbgSeed (drbgOf s u) s).1 (drbgSeed (drbgOf s u) s).2
      exact ⟨hmem, hpc, htime, hok⟩
    · obtain ⟨hmem, hpc, htime, hok, -⟩ := putDrbg_frame u (drbgOf s u)
        { s with pk := { s.pk with reseedFails := min (s.pk.reseedFails + 1) 0xFFFF } }
      exact ⟨hmem, hpc, htime, hok⟩

theorem reseedDue_other (s : State) {u v : Nat} (hu : u ≤ 68) (hv : v ≤ 68) (hne : v ≠ u) :
    drbgOf (reseedDue u s) v = drbgOf s v := by
  cases h : (drbgOf s u).due s.tick with
  | false => rw [reseedDue_idle h]
  | true =>
    rw [reseedDue_due h]
    split
    · rw [drbgOf_putDrbg _ hu hv, if_neg hne]
      rfl
    · rw [drbgOf_putDrbg _ hu hv, if_neg hne]
      rfl

theorem reseedDue_seeds {u : Nat} {s : State} (hu : u ≤ 68) (hok : s.pk.entropyOk = true)
    (h : (drbgOf s u).due s.tick = true) :
    (drbgOf (reseedDue u s) u).count = 1 ∧ (drbgOf (reseedDue u s) u).seeded = s.tick := by
  rw [reseedDue_due h, if_pos hok, drbgOf_putDrbg _ hu hu, if_pos rfl]
  exact ⟨rfl, rfl⟩

theorem reseedDue_refused {u : Nat} {s : State} (hu : u ≤ 68) (hok : s.pk.entropyOk = false) :
    drbgOf (reseedDue u s) u = drbgOf s u := by
  cases h : (drbgOf s u).due s.tick with
  | false => rw [reseedDue_idle h]
  | true => rw [reseedDue_due h, hok, if_neg (by decide), drbgOf_putDrbg _ hu hu, if_pos rfl]

/-- Refused reseeds are counted, up to the count's end. -/
theorem reseedDue_fails (u : Nat) (s : State) :
    (reseedDue u s).pk.reseedFails =
      if s.pk.entropyOk = false ∧ (drbgOf s u).due s.tick = true then min (s.pk.reseedFails + 1) 0xFFFF
      else s.pk.reseedFails := by
  cases h : (drbgOf s u).due s.tick with
  | false => rw [reseedDue_idle h]; simp
  | true =>
    rw [reseedDue_due h]
    cases hok : s.pk.entropyOk with
    | false =>
      obtain ⟨-, -, -, -, hfails⟩ := putDrbg_frame u (drbgOf s u)
        { s with pk := { s.pk with reseedFails := min (s.pk.reseedFails + 1) 0xFFFF } }
      rw [if_neg (by decide), if_pos ⟨rfl, rfl⟩]
      exact hfails
    | true =>
      obtain ⟨-, -, -, -, hfails⟩ := putDrbg_frame u (drbgSeed (drbgOf s u) s).1 (drbgSeed (drbgOf s u) s).2
      rw [if_pos rfl, if_neg (by simp)]
      exact hfails

/-- The turns of the DRBGs below `n`. -/
def reseeds (n : Nat) (s : State) : State := (List.range n).foldl (fun st u => reseedDue u st) s

theorem reseeds_succ (n : Nat) (s : State) : reseeds (n + 1) s = reseedDue n (reseeds n s) := by
  simp only [reseeds, List.range_succ, List.foldl_append, List.foldl_cons, List.foldl_nil]

theorem reseeds_frame (n : Nat) (s : State) :
    (reseeds n s).mem = s.mem ∧ (reseeds n s).pc = s.pc ∧ (reseeds n s).time = s.time ∧
      (reseeds n s).pk.entropyOk = s.pk.entropyOk := by
  induction n with
  | zero => exact ⟨rfl, rfl, rfl, rfl⟩
  | succ n ih =>
    obtain ⟨hmem, hpc, htime, hok⟩ := reseedDue_frame n (reseeds n s)
    obtain ⟨ihmem, ihpc, ihtime, ihok⟩ := ih
    rw [reseeds_succ]
    exact ⟨hmem.trans ihmem, hpc.trans ihpc, htime.trans ihtime, hok.trans ihok⟩

theorem reseeds_tick (n : Nat) (s : State) : (reseeds n s).tick = s.tick := by
  obtain ⟨-, -, htime, -⟩ := reseeds_frame n s
  exact congrArg TimeUnit.executed htime

theorem reseeds_idle {n : Nat} {s : State} (h : ∀ u, u < n → (drbgOf s u).due s.tick = false) : reseeds n s = s := by
  induction n with
  | zero => rfl
  | succ n ih =>
    rw [reseeds_succ, ih fun u hu => h u (by omega)]
    exact reseedDue_idle (h n (by omega))

/-- A DRBG whose turn has not come is as it was. -/
theorem drbgOf_reseeds_before {n v : Nat} (s : State) (hn : n ≤ v) (hv : v ≤ 68) : drbgOf (reseeds n s) v = drbgOf s v := by
  induction n with
  | zero => rfl
  | succ n ih => rw [reseeds_succ, reseedDue_other _ (by omega) hv (by omega), ih (by omega)]

/-- A DRBG is what its own turn made of it. -/
theorem drbgOf_reseeds_after {n v : Nat} (s : State) (hn : v < n) (hn' : n ≤ 69) :
    drbgOf (reseeds n s) v = drbgOf (reseedDue v (reseeds v s)) v := by
  induction n with
  | zero => omega
  | succ n ih =>
    rw [reseeds_succ]
    by_cases h : v = n
    · rw [h]
    · rw [reseedDue_other _ (by omega) (by omega) h, ih (by omega) (by omega)]

/-- Its turn finds a DRBG as it was, and due if it was due. -/
theorem due_at_turn (s : State) {u : Nat} (hu : u ≤ 68) :
    (drbgOf (reseeds u s) u).due (reseeds u s).tick = (drbgOf s u).due s.tick := by
  rw [drbgOf_reseeds_before s (Nat.le_refl _) hu, reseeds_tick]

theorem drbgOf_reseeds_idle {s : State} {u : Nat} (hu : u ≤ 68) (hdue : (drbgOf s u).due s.tick = false) :
    drbgOf (reseeds 69 s) u = drbgOf s u := by
  rw [drbgOf_reseeds_after s (Nat.lt_succ_of_le hu) (Nat.le_refl _), reseedDue_idle ((due_at_turn s hu).trans hdue),
    drbgOf_reseeds_before s (Nat.le_refl _) hu]

theorem drbgOf_reseeds_seeds {s : State} {u : Nat} (hok : s.pk.entropyOk = true) (hu : u ≤ 68)
    (hdue : (drbgOf s u).due s.tick = true) :
    (drbgOf (reseeds 69 s) u).count = 1 ∧ (drbgOf (reseeds 69 s) u).seeded = s.tick := by
  obtain ⟨-, -, -, hsource⟩ := reseeds_frame u s
  rw [drbgOf_reseeds_after s (Nat.lt_succ_of_le hu) (Nat.le_refl _), ← reseeds_tick u s]
  exact reseedDue_seeds hu (hsource.trans hok) ((due_at_turn s hu).trans hdue)

theorem drbgOf_reseeds_refused {s : State} {u : Nat} (hok : s.pk.entropyOk = false) (hu : u ≤ 68) :
    drbgOf (reseeds 69 s) u = drbgOf s u := by
  obtain ⟨-, -, -, hsource⟩ := reseeds_frame u s
  rw [drbgOf_reseeds_after s (Nat.lt_succ_of_le hu) (Nat.le_refl _), reseedDue_refused hu (hsource.trans hok),
    drbgOf_reseeds_before s (Nat.le_refl _) hu]

/-- How many of the DRBGs below `n` are due. -/
def dueBelow (n : Nat) (s : State) : Nat := ((List.range n).filter (fun u => (drbgOf s u).due s.tick)).length

theorem dueBelow_succ (n : Nat) (s : State) :
    dueBelow (n + 1) s = dueBelow n s + if (drbgOf s n).due s.tick = true then 1 else 0 := by
  simp only [dueBelow, List.range_succ, List.filter_append, List.length_append, List.filter_cons, List.filter_nil]
  split <;> rfl

theorem reseeds_fails_entropy {s : State} (hok : s.pk.entropyOk = true) (n : Nat) :
    (reseeds n s).pk.reseedFails = s.pk.reseedFails := by
  induction n with
  | zero => rfl
  | succ n ih =>
    obtain ⟨-, -, -, hok'⟩ := reseeds_frame n s
    rw [reseeds_succ, reseedDue_fails, hok', hok, if_neg (by simp), ih]

theorem reseeds_fails_counted {s : State} (hok : s.pk.entropyOk = false) {n : Nat} (hn : n ≤ 69) :
    (reseeds n s).pk.reseedFails =
      if dueBelow n s = 0 then s.pk.reseedFails else min (s.pk.reseedFails + dueBelow n s) 0xFFFF := by
  induction n with
  | zero => rfl
  | succ n ih =>
    obtain ⟨-, -, -, hok'⟩ := reseeds_frame n s
    rw [reseeds_succ, reseedDue_fails, hok', hok, reseeds_tick, drbgOf_reseeds_before s (Nat.le_refl _) (by omega),
      ih (by omega), dueBelow_succ]
    cases (drbgOf s n).due s.tick
    · simp
    · simp only [true_and, if_true]
      split <;> split <;> omega

theorem exec_drbgReseed (s : State) : exec .drbgReseed s = .next (reseeds 69 s) := rfl

/-! ### Entropy failure and recovery (R113, R133) -/

theorem exec_entropyHealthFail {s : State} (h : s.pm.onCell = false) : exec .entropyHealthFail s =
    .next (setEvent 4 3 { s with pk := { s.pk with entropyOk := false, sourceBad := true } }) := by
  show execEntropyHealthFail s = _
  simp [execEntropyHealthFail, h]

theorem exec_entropyHealthRecovered {s : State} (h : s.pm.onCell = false) (hs : 4 ≤ s.pm.step) :
    exec .entropyHealthRecovered s =
      if s.pk.drbgs.isEmpty then .next (seedDrbgs { s with pk := { s.pk with sourceBad := false } })
      else .next { s with pk := { s.pk with sourceBad := false, entropyOk := true } } := by
  show execEntropyHealthRecovered s = _
  simp [execEntropyHealthRecovered, h, Nat.not_lt.mpr hs]

/-- An engine's DRBG takes its first seed. -/
def firstSeed (s : State) (u : Nat) : State := setDrbg u (drbgSeed Drbg.empty s).1 (drbgSeed Drbg.empty s).2

theorem firstSeed_count (s : State) (u v : Nat) (h : v = u ∨ (engineDrbg s v).count = 1) :
    (engineDrbg (firstSeed s u) v).count = 1 := by
  rw [firstSeed, engineDrbg_setDrbg]
  split
  · rfl
  · next hne => exact h.resolve_left hne

/-- Every engine's DRBG has its first seed once its turn has come. -/
theorem firstSeeds_count {l : List Nat} {v : Nat} (hv : v ∈ l) (s : State) :
    (engineDrbg (l.foldl firstSeed s) v).count = 1 :=
  foldl_reaches (P := fun st => (engineDrbg st v).count = 1) hv (fun st => firstSeed_count st v v (.inl rfl))
    (fun st u h => firstSeed_count st u v (.inr h)) s

theorem firstSeeds_frame (l : List Nat) (s : State) :
    (l.foldl firstSeed s).mem = s.mem ∧ (l.foldl firstSeed s).pc = s.pc ∧
      (l.foldl firstSeed s).pk.sourceBad = s.pk.sourceBad :=
  List.foldlRecOn (motive := fun t : State => t.mem = s.mem ∧ t.pc = s.pc ∧ t.pk.sourceBad = s.pk.sourceBad) l firstSeed
    ⟨rfl, rfl, rfl⟩ fun _ h _ _ => h

/-- Custody's DRBG takes its first seed, and with it the source is in order again. -/
def custodySeed (s : State) : State :=
  { (drbgSeed Drbg.empty s).2 with
    tk := { (drbgSeed Drbg.empty s).2.tk with drbg := (drbgSeed Drbg.empty s).1 },
    pk := { (drbgSeed Drbg.empty s).2.pk with entropyOk := true } }

theorem seedDrbgs_eq (s : State) : seedDrbgs s = custodySeed ((List.range 68).foldl firstSeed s) := rfl

theorem custodySeed_spec (s : State) :
    (custodySeed s).pk.entropyOk = true ∧ (custodySeed s).pk.sourceBad = s.pk.sourceBad ∧
      (∀ u, engineDrbg (custodySeed s) u = engineDrbg s u) ∧ (custodySeed s).tk.drbg.count = 1 ∧
      (custodySeed s).mem = s.mem ∧ (custodySeed s).pc = s.pc := ⟨rfl, rfl, fun _ => rfl, rfl, rfl, rfl⟩

/-- Every DRBG, custody's last, takes its first seed. -/
theorem seedDrbgs_spec (s : State) :
    (seedDrbgs s).pk.entropyOk = true ∧ (seedDrbgs s).pk.sourceBad = s.pk.sourceBad ∧
      (∀ u, u < 68 → (engineDrbg (seedDrbgs s) u).count = 1) ∧ (seedDrbgs s).tk.drbg.count = 1 ∧
      (seedDrbgs s).mem = s.mem ∧ (seedDrbgs s).pc = s.pc := by
  obtain ⟨hmem, hpc, hbad⟩ := firstSeeds_frame (List.range 68) s
  obtain ⟨hok, hbad', hengines, hcustody, hmem', hpc'⟩ := custodySeed_spec ((List.range 68).foldl firstSeed s)
  rw [seedDrbgs_eq]
  refine ⟨hok, hbad'.trans hbad, fun u hu => ?_, hcustody, hmem'.trans hmem, hpc'.trans hpc⟩
  rw [hengines]
  exact firstSeeds_count (List.mem_range.mpr hu) s

/-! ### Diagnosis (R131, R133) -/

theorem exec_pkDiagRead {s : State} {c rd : Nat} (hm : coreMay s c false 0x100400030 = true) (h0 : 0 < rd) (h64 : rd < 64) :
    exec (.pkDiagRead c rd) s =
      .next (updCore c (fun k => { k with g := Tab.set 0 k.g rd (readDiag (getCore s c).warden s).1 })
        (readDiag (getCore s c).warden s).2) := by
  have hrd : rd % 64 = rd := Nat.mod_eq_of_lt h64
  have hne : ¬ rd = 0 := by omega
  show execPkDiagRead c rd s = _
  simp only [execPkDiagRead, hm, Bool.not_true, Bool.false_eq_true, if_false, hrd, hne]

theorem eccFound_pk (area : Nat) (s : State) : (eccFound area s).pk = s.pk := by
  obtain ⟨-, -, -, hpk⟩ := eccFound_frame area s
  exact hpk

/-- A diagnosis read leaves the public-key engines. -/
theorem readDiag_pk (w : Bool) (s : State) : (readDiag w s).2.pk = s.pk := by
  unfold readDiag
  dsimp only
  repeat' split
  · rfl
  · exact setEvent_pk ..
  · exact eccFound_pk ..
  · rfl

/-- What a diagnosis read finds: zeros below the Warden level, in a bank that holds a job and in a poisoned word. -/
theorem readDiag_spec (s : State) {k : Nat}
    (hk : k = 8192 * natBits s.pk.diagSel.toNat 16 7 + natBits s.pk.diagSel.toNat 0 13) :
    readDiag false s = (0, s) ∧ (diagBusy s = true → readDiag true s = (0, setEvent 4 4 s)) ∧
      (diagBusy s = false → Tab.get false s.pk.poison k = true → readDiag true s = (0, eccFound 5 s)) ∧
      (diagBusy s = false → Tab.get false s.pk.poison k = false → readDiag true s = (Tab.get 0 s.pk.words k, s)) := by
  subst hk
  refine ⟨rfl, fun hb => ?_, fun hb hp => ?_, fun hb hp => ?_⟩
  · simp [readDiag, hb]
  · simp [readDiag, hb, hp]
  · simp [readDiag, hb, hp]

/-! ### The statement -/

/-- Settles O12, clause by clause: results of jobs and of stall commands, the two reserves, and entropy, reseeds and
diagnosis. -/
theorem resultsAndServiceCommands : Obligations.ResultsAndServiceCommands := by
  unfold Obligations.ResultsAndServiceCommands
  refine ⟨?jobs, ?stalls, ?reserves, fun s => ⟨fun hcell => ?entropy, ?reseed, ?diagnosis⟩⟩
  case jobs =>
    intro s p hdue hst
    refine ⟨fun c w hf => ?_, fun c w hf => ?_, fun fn q n hf turn => exec_cipherJobComplete_host hdue hst hf turn,
      fun fn q n hf turn => exec_pkeJobComplete_host hdue hst hf turn⟩
    · obtain ⟨hcf, -, hmem, htold, hnot⟩ := tellCore_spec (getWin 0 c w s).ie c p.req.paddock (i := 5) (by decide)
        { s with cf := { s.cf with
          pend := s.cf.pend.filter (fun x => decide (x.req.src ≠ .win c w)),
          wins := Tab.upd Win.reset s.cf.wins (c * 8 + w) (fun x => x.finish (p.bytes (s.stride % 2 ^ 32))) } }
      exact ⟨_, exec_cipherJobComplete_win hdue hst hf, hcf, hmem, htold, hnot⟩
    · obtain ⟨-, hpk, hmem, htold, hnot⟩ := tellCore_spec (getWin 1 c w s).ie c p.req.paddock (i := 4) (by decide)
        { s with pk := { s.pk with
          pend := s.pk.pend.filter (fun x => decide (x.req.src ≠ .win c w)),
          wins := Tab.upd Win.reset s.pk.wins (c * 8 + w) (fun x => x.finish (p.bytes (s.stride % 2 ^ 32))) } }
      exact ⟨_, exec_pkeJobComplete_win hdue hst hf, hpk, hmem, htold, hnot⟩
  case stalls =>
    intro s q bs hdue hsnap hbs
    have hbs' : bs = stallResult s q := hbs
    subst hbs'
    refine ⟨fun c w hf => ?_, fun fn qq m hf turn => ?_⟩
    · have hsrc : q.pend.req.src = .win c w := by simpa using List.find?_some hf
      rw [exec_stallCommandComplete hdue hsnap hf rfl, finishStall_win hsrc]
    · have hsrc : q.pend.req.src = .host fn qq m := by simpa using List.find?_some hf
      rw [exec_stallCommandComplete hdue hsnap hf turn, finishStall_host hsrc]
  case reserves =>
    intro s c v
    refine ⟨fun hm => ?_, fun hm sum hsum => ?_⟩
    · rw [exec_cfRsvWrite v hm]
      exact ⟨fun h => by rw [if_neg (Nat.not_lt.mpr h)], fun h => by rw [if_pos h]⟩
    · rw [exec_cfCtxWrite hm hsum]
      exact ⟨fun h => by rw [if_neg (Nat.not_lt.mpr h)], fun h => by rw [if_pos h]⟩
  case entropy =>
    refine ⟨exec_entropyHealthFail hcell, fun hstep hd => ?_, fun hstep hd => ?_⟩
    · rw [exec_entropyHealthRecovered hcell hstep, if_neg (by simpa using hd)]
    · obtain ⟨hok, hbad, hcount, htk, hmem, hpc⟩ := seedDrbgs_spec { s with pk := { s.pk with sourceBad := false } }
      refine ⟨_, (exec_entropyHealthRecovered hcell hstep).trans (if_pos (by rw [hd]; rfl)), hok, hbad, hcount, htk, hmem, hpc⟩
  case reseed =>
    intro drbgs hdrbgs
    have hof : drbgs = drbgOf := hdrbgs
    subst hof
    obtain ⟨hmem, hpc, -, -⟩ := reseeds_frame 69 s
    refine ⟨fun hidle => ?_, _, exec_drbgReseed s, hmem, hpc, fun u hu hdue => drbgOf_reseeds_idle hu hdue,
      fun hok => ⟨reseeds_fails_entropy hok 69, fun u hu hdue => drbgOf_reseeds_seeds hok hu hdue⟩,
      fun hok => ⟨fun u hu => drbgOf_reseeds_refused hok hu, fun n hn hcount => ?_⟩⟩
    · rw [exec_drbgReseed, reseeds_idle fun u hu => hidle u (by omega)]
    · have hbelow : dueBelow 69 s = n := hcount.symm
      rw [reseeds_fails_counted hok (Nat.le_refl _), hbelow, if_neg (by omega)]
  case diagnosis =>
    intro c rd k hm h0 h64 hk
    obtain ⟨hlow, hbusy, hbad, hgood⟩ := readDiag_spec s hk
    refine ⟨_, exec_pkDiagRead hm h0 h64, readDiag_pk _ s, readDiag_mem _ s, ?_⟩
    rw [getCore_updCore_self, updCore_events, Tab.get_set_self]
    refine ⟨fun hw => ?_, fun hw hb => ?_, fun hw hb hp => ?_, fun hw hb hp => ?_⟩
    · rw [hw, hlow]
      exact ⟨rfl, rfl⟩
    · rw [hw, hbusy hb]
      exact ⟨rfl, setEvent_self s 4 4 (by decide)⟩
    · rw [hw, hbad hb hp]
    · rw [hw, hgood hb hp]
      exact ⟨rfl, rfl⟩

end Sys2Proof.Proofs
end

section
/-! The state after reset (R35, R173, R204, R220, R249–R251, R281, R306, R381, R400, R417, R418, R463, R464, R490). -/

namespace Sys2Proof.Proofs

open Sys2Proof Sys2Proof.Machine Sys2Proof.Laws

/-- No core's record is listed after reset. -/
theorem getCore_reset (c : Nat) : getCore State.reset c = Core.reset := rfl

/-- Settles O60: memory after reset lists nothing, every core stands as `Core.reset`, and each register is a field of
`State.reset`. That the device is BLANK and holds no keep key at reset is the model's own choice (log 2). -/
theorem resetLeavesSpecValues : Obligations.ResetLeavesSpecValues := by
  unfold Obligations.ResetLeavesSpecValues
  refine ⟨by decide, ?_⟩
  intro s
  refine ⟨rfl, rfl, rfl, by decide, rfl, rfl, fun c _ => ?cores, by decide⟩
  case cores =>
    rw [getCore_reset]
    decide

end Sys2Proof.Proofs
end

section
/-! Admission of cipher jobs (R62, R64, R76, R77, R78): what a GO in an idle window does, what staging a HOLD job's OUTPUT
leaves alone, and what a job that need not wait leaves in the fabric and in its tacks. -/

namespace Sys2Proof.Proofs

open Sys2Proof Sys2Proof.Machine Sys2Proof.Laws

/-! ### Staging of a held OUTPUT leaves the clock (R144) -/

theorem bridleFault_time (acc : Access) (wr : Bool) (a code : Nat) (s : State) : (bridleFault acc wr a code s).time = s.time := by
  rw [bridleFault, setEventIf_time, setEvent_time]

theorem noteRefused_time (s : State) (acc : Access) (wr : Bool) (a n : Nat) : (noteRefused s acc wr a n).time = s.time := by
  unfold noteRefused
  split
  · exact bridleFault_time ..
  · rfl

theorem stageOutput_time (r : Req) (c h job span dst : Nat) (hostDst : Bool) (s : State) :
    (stageOutput r c h job span dst hostDst s).2.time = s.time := by
  unfold stageOutput
  dsimp only
  split <;> rfl

theorem holdStage_time (r : Req) (cinch span dst code : Nat) (s : State) : (holdStage r cinch span dst code s).2.time = s.time := by
  have output (c : Nat) := stageOutput_time r c cinch cinch span dst (isHostRef dst) s
  unfold holdStage
  split
  · rfl
  · split
    next c _ _ =>
      split
      next heq =>
        have staged := output c
        rw [heq] at staged
        split
        · exact staged
        · rw [markAbort, updCinch_time, noteRefused_time, staged]
      next heq =>
        have staged := output c
        rw [heq] at staged
        exact staged
    · rfl

/-! ### A GO in an idle window (R77, R507) -/

section Go
variable {s t : State} {c w code : Nat}

/-- A request that is admitted at its GO does not join those that wait. -/
theorem winGo_admitted {u : Nat} (hbusy : (getWin u c w s).busy = false) (hshed : s.shedding = false)
    (hsub : submitWin u (sampleReq s c w) c w 0 (started u c w s) = (true, code, t)) : winGo u c w s = t := by
  have go : winGo u c w s = tryWait { unit := u, req := sampleReq s c w, staged := 0 } (started u c w s) := by
    simp only [winGo, hbusy, hshed, Bool.false_eq_true, if_false]
    rfl
  have src : (sampleReq s c w).src = .win c w := rfl
  rw [go, tryWait]
  simp only [src, hsub, if_true]

theorem exec_cipherJob_admitted (hfree : windowFree 0 c w s)
    (hsub : submitWin 0 (sampleReq s c w) c w 0 (started 0 c w s) = (true, code, t)) :
    exec (.cipherJob (.win c w)) s = .next t := by
  obtain ⟨hc, hw, hbusy, hshed⟩ := hfree
  show Host.Outcome.next (submitBy 0 1 (fun _ => true) (.win c w) s) = _
  simp only [submitBy, hc, hw, and_self, if_true, winGo_admitted hbusy hshed hsub]

end Go

/-! ### A job that need not wait (R62, R64, R76, R78) -/

/-- The status that rows 2 to 4 of R78 give a job, from whether it is denied, what the windows of its tacks say, and its key;
0 where it runs. -/
def admissionRow (s : State) (denied : Bool) (windows : Nat) (kt : Option Tack) : Nat :=
  if denied then stDenied else if windows ≠ stOK then windows else if kt.any (useOverLimit s) then stQuota else stOK

/-- What a cipher job takes of its tacks as it is admitted: where it runs, a use of its key `h` and the fill of its destination. -/
def takeTacks (b : List Byte) (h row : Nat) (s : State) : State :=
  let s2 := if row = stOK then pendUse h s else s
  if row = stOK && cDstt b then updTack (cDst b) (fun k => { k with fillPending := true }) s2 else s2

/-- A cipher job as it is admitted, no slice of it run. -/
def admittedJob (r : Req) (b : List Byte) (h cinch lenb row code : Nat) (s : State) : CJob :=
  { no := s.cf.nextNo, req := r, body := b, tack := h, tack2 := if cSrct b then cSrc b else if cDstt b then cDst b else 0,
    row := row, blocks := costBlocks b lenb, ghash := costGhash b, slices := costSlices b lenb, span := writeSpan b lenb, done := 0,
    cut := 0, lane := 0xFF, adm := s.stride % 2 ^ 32, admTick := s.tick,
    ctx := CtxEntry.empty, res := 0, out := [], wrote := 0, old := [],
    held := match code with | 0 => none | 1 => none | k + 2 => some (cinch % 4096, k) }

/-- A job joins the fabric's queue. -/
def queueJob (j : CJob) (s : State) : State :=
  { s with cf := { s.cf with jobs := s.cf.jobs ++ [j], nextNo := s.cf.nextNo + 1 } }

/-- A job takes nothing but of its tacks, and nothing of those where it does not run. -/
theorem takeTacks_frame (b : List Byte) (h row : Nat) (s : State) :
    (takeTacks b h row s).cf = s.cf ∧ (takeTacks b h row s).mem = s.mem ∧ (takeTacks b h row s).pc = s.pc ∧
      (takeTacks b h row s).time = s.time ∧ (row ≠ stOK → (takeTacks b h row s).tk = s.tk) := by
  unfold takeTacks
  by_cases hrow : row = stOK
  · cases cDstt b <;> simp [hrow, pendUse]
  · simp [hrow]

theorem takeTacks_runs (b : List Byte) (h : Nat) (s : State) :
    takeTacks b h stOK s =
      if cDstt b then updTack (cDst b) (fun k => { k with fillPending := true }) (pendUse h s) else pendUse h s := by
  simp only [takeTacks, if_true, decide_true, Bool.true_and]

/-- A check made only where `p` fails finds nothing where `p` holds or the check is clear. -/
theorem not_and_false {p q : Bool} (h : p = true ∨ q = false) : (!p && q) = false := by
  obtain h | h := h
  · rw [h, Bool.not_true, Bool.false_and]
  · rw [h, Bool.and_false]

section Admission
variable {s s1 : State} {r : Req} {b : List Byte} {key aux : Rein} {c w cinch staged code lenb row : Nat}
  {kt st dt : Option Tack} {denied : Bool}

/-- A window's job that R75 finds well-formed is admitted where no tack's window makes it wait, its tacks are in the cache or it is
denied, a context entry is free for it, and its use is within the durable bound. -/
theorem cipherSubmit_admitted (hsrc : r.src = .win c w) (hpad : (s.paddock r.paddock).st = 1) (hlenb : lenb = wrapLenb s r b)
    (hbad : cipherBad b true lenb cinch = false)
    (href : cSrct b = true ∨ badHostRef s r (cSrc b) (readSpan b) false = false)
    (hdref : cDstt b = true ∨ badHostRef s r (cDst b) (writeSpan b lenb) true = false)
    (hstage : (code, s1) = if cHold b then holdStage r cinch (writeSpan b lenb) (cDst b) staged s else (0, s))
    (hkt : kt = liveTack s1 r.paddock (reinHandle key))
    (hst : st = if cSrct b then liveTack s1 r.paddock (cSrc b) else none)
    (hdt : dt = if cDstt b then getTack s1 r.paddock (cDst b) else none)
    (hdenied : denied = (code == 1 || cipherDenied s1 r b key aux lenb))
    (hwin : windowStatus s1 (kt.toList ++ st.toList ++ dt.toList) ≠ 255)
    (hcache : denied = true ∨ ∀ k ∈ kt.toList ++ st.toList, fetchFailed s1 k = false ∧ needFetch s1 k = false)
    (hctx : costSlices b lenb ≤ 1 ∨ ctxUsed s1 r.paddock < ctxAllowed s1 r.paddock)
    (hrow : row = admissionRow s1 denied (windowStatus s1 (kt.toList ++ st.toList ++ dt.toList)) kt)
    (hbound : row ≠ stOK ∨ kt.all (useWithinBound s1) = true) :
    cipherSubmit r b key aux cinch staged s =
      (true, code, queueJob (admittedJob r b (reinHandle key) cinch lenb row code (takeTacks b (reinHandle key) row s1))
        (takeTacks b (reinHandle key) row s1)) := by
  have cited : citedHandle r key (cKeyref b) = reinHandle key := by simp only [citedHandle, hsrc]
  have wellFormed : (cipherBad b true lenb cinch || (!cSrct b && badHostRef s r (cSrc b) (readSpan b) false) ||
      (!cDstt b && badHostRef s r (cDst b) (writeSpan b lenb) true)) = false := by
    simp only [hbad, not_and_false href, not_and_false hdref, Bool.or_self]
  have noFailure : (!denied && (kt.toList ++ st.toList).any (fetchFailed s1)) = false :=
    not_and_false (hcache.imp_right fun h => List.any_eq_false.2 fun k hk => Bool.eq_false_iff.1 (h k hk).1)
  have noFetch : (!denied && (kt.toList ++ st.toList).any (needFetch s1)) = false :=
    not_and_false (hcache.imp_right fun h => List.any_eq_false.2 fun k hk => Bool.eq_false_iff.1 (h k hk).2)
  have entry : (decide (1 < costSlices b lenb) && decide (ctxAllowed s1 r.paddock ≤ ctxUsed s1 r.paddock)) = false := by
    rw [Bool.and_eq_false_iff, decide_eq_false_iff_not, decide_eq_false_iff_not]
    omega
  have bound : ¬(row = stOK ∧ (!kt.all (useWithinBound s1)) = true) := by
    rintro ⟨hok, hover⟩
    obtain h | h := hbound
    · exact h hok
    · rw [h] at hover
      exact Bool.noConfusion hover
  rw [cipherSubmit]
  simp only [hsrc, hpad, ← hlenb, wellFormed, ← hstage, cited, ← hkt, ← hst, ← hdt, ← hdenied, hwin, noFailure, noFetch, entry,
    bne_self_eq_false, Bool.and_false, Bool.false_eq_true, if_false]
  rw [admissionRow] at hrow
  simp only [← hrow, bound, if_false]
  rfl

end Admission

/-! ### The statement -/

/-- Settles O10: the window's GO is one `cipherSubmit`, which `cipherSubmit_admitted` evaluates. Rows 2 to 4 of R78 are judged at
admission (log 77). -/
theorem cipherJobIsAdmitted : Obligations.CipherJobIsAdmitted := by
  unfold Obligations.CipherJobIsAdmitted
  intro s c w hfree s0 s1 r x b lenb code row kt st dt denied hs0 hr hx hb hlenb hpad hbad href hdref hstage hkt hst hdt hdenied
    hwin hcache hctx hrow hbound
  let u := takeTacks b (reinHandle x.key) row s1
  let j := admittedJob r b (reinHandle x.key) x.handle.toNat lenb row code u
  have submitted : cipherSubmit r b x.key x.aux x.handle.toNat 0 s0 = (true, code, queueJob j u) :=
    cipherSubmit_admitted (congrArg Req.src hr) hpad hlenb hbad href hdref hstage hkt hst hdt hdenied hwin hcache hctx hrow hbound
  have admitted : exec (.cipherJob (.win c w)) s = .next (queueJob j u) :=
    exec_cipherJob_admitted hfree (by subst hs0 hr hx hb; exact submitted)
  have clock : s1.time = s.time := by
    have time : s1.time = s0.time := by
      rw [show s1 = (code, s1).2 from rfl, hstage]
      split
      · exact holdStage_time ..
      · rfl
    rw [time, hs0]
    rfl
  obtain ⟨hcf, hmem, hpc, htime, hrefused⟩ := takeTacks_frame b (reinHandle x.key) row s1
  have stride : u.stride = s.stride := by
    rw [State.stride, htime, clock, State.stride]
  refine ⟨queueJob j u, j, admitted, congrArg (fun f : CipherUnit => f.jobs ++ [j]) hcf,
    congrArg (fun f : CipherUnit => f.nextNo + 1) hcf, congrArg CipherUnit.nextNo hcf, rfl, rfl, rfl, rfl, rfl, rfl,
    congrArg (· % 2 ^ 32) stride, hmem, hpc, hrefused, ?runs⟩
  case runs =>
    intro hok
    show u.tk = _
    rw [show u = takeTacks b (reinHandle x.key) stOK s1 by rw [← hok], takeTacks_runs]

end Sys2Proof.Proofs
end

section
/-! Stall commands (R93, R95, R96): how a command reaches the Stable, and what its admission does by the status that R95
gives it. -/

namespace Sys2Proof.Proofs

open Sys2Proof Sys2Proof.Machine Sys2Proof.Laws

/-! ### A GO that asks for a stall command (R77, R93) -/

section StallGo
variable {s t : State} {c w op : Nat} {mk : Src → Instr}

/-- Each stall command is the submission whose BODY asks for its OP. -/
theorem exec_stallCommand (hcmd : (op, mk) ∈ stallCommands) (src : Src) (s : State) :
    exec (mk src) s = .next (submitBy 2 3 (fun b => byteAt b 0 == op) src s) := by
  simp only [stallCommands, List.mem_cons, Prod.mk.injEq, List.not_mem_nil, or_false] at hcmd
  obtain ⟨rfl, rfl⟩ | ⟨rfl, rfl⟩ | ⟨rfl, rfl⟩ | ⟨rfl, rfl⟩ | ⟨rfl, rfl⟩ | ⟨rfl, rfl⟩ := hcmd
  all_goals rfl

/-- Taking its GO leaves the BODY of a stall window. -/
theorem stallBody_started (c w : Nat) (s : State) : winBody 2 c w (started 2 c w s) = winBody 2 c w s := by
  have win : getWin 2 c w (started 2 c w s) = { getWin 2 c w s with busy := true, done := false } :=
    Tab.get_upd_self s.st.wins c fun x => { x with busy := true, done := false }
  rw [winBody, win]
  rfl

theorem exec_stallCommand_admitted (hcmd : (op, mk) ∈ stallCommands) (hfree : windowFree 2 c w s)
    (hop : byteAt (winBody 2 c w (started 2 c w s)) 0 = op)
    (hsub : stallSubmit (sampleReq s c w) (winBody 2 c w (started 2 c w s)) (started 2 c w s) = (true, t)) :
    exec (mk (.win c w)) s = .next t := by
  obtain ⟨hc, hw, hbusy, hshed⟩ := hfree
  have asked : (byteAt (winBody 2 c w s) 0 == op) = true := by rw [← stallBody_started, hop, beq_self_eq_true]
  have go : winGo 2 c w s = t := winGo_admitted (code := 0) hbusy hshed (by simp only [submitWin, hsub])
  rw [exec_stallCommand hcmd, submitBy, if_pos ⟨hc, hw, asked⟩, go]

end StallGo

/-! ### Admission by status (R93, R95, R96) -/

/-- A stall command with OP and stall `num` owes its result in the next stride. -/
def oweStall (r : Req) (b : List Byte) (s : State) (status num : Nat) (t : State) : State :=
  { t with st := { t.st with pend := t.st.pend ++
    [{ pend := { req := r, due := s.tick + 1, status := status, result := natToLE 4 s.stride },
       op := byteAt b 0, stall := num, addr := field b 8 8, snap := status = stOK && byteAt b 0 == 6 }] } }

/-- The image that admission reads, and the state after the read: only a LOAD that rows 1 and 2 of R95 let pass reads one. -/
def imageRead (r : Req) (b : List Byte) (s : State) : Option (List Byte) × State :=
  if byteAt b 0 == 2 && !stallBodyBad b && (s.paddock r.paddock).st == 1 then reqRead r (field b 8 8) 256 s else (some [], s)

section StallAdmission
variable {s s1 : State} {r : Req} {b : List Byte} {img : Option (List Byte)} {status : Nat}

/-- The admission of a stall command, from the image it reads and its status by R95. -/
theorem stallSubmit_eq (himg : imageRead r b s = (img, s1))
    (hst : stallStatus s1 r.paddock none r.owns b img = status) :
    stallSubmit r b s =
      if status = stOK && byteAt b 0 == 3 && armWaits s r.paddock (field b 4 4) then
        (false, leaseWait (stallTack s (field b 4 4)) s)
      else if status = stOK && byteAt b 0 == 1 then
        (true, oweStall r b s status (drawStall s1).1 (allocStall r.paddock (byteAt b 1) (drawStall s1).1 (drawStall s1).2))
      else (true, oweStall r b s status (if byteAt b 0 = 1 then 0xFFFFFFFF else field b 4 4)
        (if status ≠ stOK then s1 else stallEffect (byteAt b 0) (field b 4 4) (img.getD []) s1)) := by
  unfold imageRead at himg
  simp only [stallSubmit, himg, hst]
  by_cases hok : status = stOK
  · by_cases halloc : byteAt b 0 = 1
    · simp [hok, halloc, oweStall]
    · simp [hok, halloc, oweStall]
  · simp [hok, oweStall]

/-- A command that fails R95 owes its status alone. -/
theorem stallSubmit_refused (himg : imageRead r b s = (img, s1))
    (hst : stallStatus s1 r.paddock none r.owns b img = status) (hne : status ≠ stOK) :
    stallSubmit r b s = (true, oweStall r b s status (if byteAt b 0 = 1 then 0xFFFFFFFF else field b 4 4) s1) := by
  simp [stallSubmit_eq himg hst, hne]

/-- Only a LOAD reads an image. -/
theorem noImage_of_op (h : byteAt b 0 ≠ 2) : imageRead r b s = (some [], s) := by
  simp only [imageRead, beq_false_of_ne h, Bool.false_and, Bool.false_eq_true, if_false]

theorem stallSubmit_alloc (hop : byteAt b 0 = 1) (hst : stallStatus s r.paddock none r.owns b (some []) = stOK) :
    stallSubmit r b s = (true, oweStall r b s stOK (drawStall s).1
      (allocStall r.paddock (byteAt b 1) (drawStall s).1 (drawStall s).2)) := by
  simp [stallSubmit_eq (noImage_of_op (by omega)) hst, hop]

/-- A command on a stall that passes R95 has its effect, unless it is an ARM that waits (R198). -/
theorem stallSubmit_passed (himg : imageRead r b s = (img, s1))
    (hst : stallStatus s1 r.paddock none r.owns b img = stOK) (hop : byteAt b 0 ≠ 1)
    (harm : byteAt b 0 = 3 → armWaits s r.paddock (field b 4 4) = false) :
    stallSubmit r b s =
      (true, oweStall r b s stOK (field b 4 4) (stallEffect (byteAt b 0) (field b 4 4) (img.getD []) s1)) := by
  have noWait : ¬(byteAt b 0 = 3 ∧ armWaits s r.paddock (field b 4 4) = true) := fun ⟨h, hwait⟩ =>
    Bool.noConfusion ((harm h).symm.trans hwait)
  simp [stallSubmit_eq himg hst, hop, noWait]

theorem stallStatus_malformed (hbad : stallBodyBad b = true) : stallStatus s r.paddock none r.owns b img = stMalformed := by
  simp only [stallStatus, firstStatus, hbad, Bool.true_or, if_true]

/-- Rows 1 and 2 of R95: a bad BODY, or a paddock that is not ACTIVE, is refused. -/
theorem stallStatus_refused (h : stallBodyBad b = true ∨ (s.paddock r.paddock).st ≠ 1) :
    stallStatus s r.paddock none r.owns b img ≠ stOK := by
  obtain hbad | hpad := h
  · rw [stallStatus_malformed hbad]
    decide
  · have inactive : ((s.paddock r.paddock).st != 1) = true := bne_iff_ne.2 hpad
    simp only [stallStatus, firstStatus, inactive, if_true]
    split
    · decide
    · decide

/-- Such a LOAD reads nothing. -/
theorem noImage_of_refused (h : stallBodyBad b = true ∨ (s.paddock r.paddock).st ≠ 1) : imageRead r b s = (some [], s) := by
  refine if_neg ?_
  simp only [Bool.and_eq_true, Bool.not_eq_true', beq_iff_eq]
  rintro ⟨⟨_, hgood⟩, hactive⟩
  obtain hbad | hpad := h
  · rw [hbad] at hgood
    exact Bool.noConfusion hgood
  · exact hpad hactive

/-- What EXPIRE and RETIRE record; READ has no effect on its stall. -/
theorem stallEffect_of_four_le {op : Nat} (h : 4 ≤ op) (n : Nat) (l : List Byte) (s : State) :
    stallEffect op n l s =
      if op = 4 then causeLeave n 4 s
      else if op = 5 then { s with st := { s.st with move := Tab.set 0 s.st.move n 4 } } else s :=
  match op, h with
  | 4, _ => rfl
  | 5, _ => rfl
  | _ + 6, _ => rfl

end StallAdmission

/-! ### The statement -/

/-- Settles O13: each command by its status, the LOAD with the image it reads. That a LOAD which R95 then refuses has still
read its image is the model's own choice (log 142). -/
theorem stallCommandsTakeEffect : Obligations.StallCommandsTakeEffect := by
  unfold Obligations.StallCommandsTakeEffect
  intro s c w op mk hcmd hfree s0 r b n pre hs0 hr hb hop hn hpre owes howes
  have run {t : State} (h : stallSubmit r b s0 = (true, t)) : exec (mk (.win c w)) s = .next t := by
    subst hs0 hr hb
    exact exec_stallCommand_admitted hcmd hfree hop h
  replace howes : owes = oweStall r b s0 := by
    subst howes hs0 hop
    rfl
  subst hop hn howes
  have passed (hok : pre = stOK) (hlo : 3 ≤ byteAt b 0)
      (harm : byteAt b 0 = 3 → armWaits s0 r.paddock (field b 4 4) = false) : exec (mk (.win c w)) s =
        .next (oweStall r b s0 stOK (field b 4 4) (stallEffect (byteAt b 0) (field b 4 4) [] s0)) :=
    run (stallSubmit_passed (noImage_of_op (by omega)) (hpre.symm.trans hok) (by omega) harm)
  refine ⟨?refused, ?alloc, ?load, ?unread, ?arm, ?moves⟩
  case refused => exact fun hload hne => run (stallSubmit_refused (noImage_of_op hload) hpre.symm hne)
  case alloc => exact fun hok halloc => run (stallSubmit_alloc halloc (hpre.symm.trans hok))
  case load =>
    intro hload hgood hpad img s1 status hread hstatus
    have image : imageRead r b s0 = (img, s1) := by
      rw [← hread]
      exact if_pos (by rw [hload, hgood, hpad]; rfl)
    by_cases hok : status = stOK
    · rw [if_pos hok, run (stallSubmit_passed image (hstatus.symm.trans hok) (by omega) (by omega)), hok, hload]
      rfl
    · rw [if_neg hok, run (stallSubmit_refused image hstatus.symm hok), if_neg (by omega)]
  case unread =>
    intro hload
    refine ⟨fun hbad => hpre.trans (stallStatus_malformed hbad), fun h => ?_⟩
    have hne : pre ≠ stOK := hpre ▸ stallStatus_refused h
    refine ⟨hne, ?_⟩
    rw [run (stallSubmit_refused (noImage_of_refused h) hpre.symm hne), if_neg (by omega)]
  case arm =>
    intro hok harm hwait
    rw [passed hok (by omega) fun _ => hwait, harm]
  case moves =>
    intro hok hlo
    rw [passed hok (by omega) (by omega), stallEffect_of_four_le hlo]

end Sys2Proof.Proofs
end

section
/-! The life of a stall (R89, R91–R93, R102, R104): the stall that ALLOC draws, the wipe after RETIRING, the windows that end,
and the Stable's registers. -/

namespace Sys2Proof.Proofs

open Sys2Proof Sys2Proof.Machine Sys2Proof.Laws

/-! ### The draw of a FREE stall (R93) -/

/-- A stall that ALLOC may draw. -/
def drawable (s : State) (n : Nat) : Prop := n < 65536 ∧ stallState s n = 0 ∧ stallDrawn s n = false

/-- Where one of the next `fuel` stalls in turn may be drawn, the search ends at one that may. -/
theorem freeStallFrom_drawable {s : State} {fuel n : Nat} (hn : n < 65536)
    (h : ∃ k, k < fuel ∧ drawable s ((n + k) % 65536)) : drawable s (freeStallFrom s fuel n) := by
  induction fuel generalizing n with
  | zero =>
    obtain ⟨k, hk, -⟩ := h
    exact absurd hk (Nat.not_lt_zero k)
  | succ fuel ih =>
    obtain ⟨k, hk, hfree⟩ := h
    rw [freeStallFrom]
    split
    next hhere =>
      rw [Bool.and_eq_true, decide_eq_true_eq, Bool.not_eq_true'] at hhere
      exact ⟨hn, hhere⟩
    next hnot =>
      refine ih (Nat.mod_lt _ (by decide)) ?_
      cases k with
      | zero =>
        rw [Nat.add_zero, Nat.mod_eq_of_lt hn] at hfree
        obtain ⟨-, hst, hdrawn⟩ := hfree
        exact absurd (by rw [hst, hdrawn]; rfl) hnot
      | succ k => exact ⟨k, by omega, by rwa [show ((n + 1) % 65536 + k) % 65536 = (n + (k + 1)) % 65536 by omega]⟩

/-- The search comes round to every stall. -/
theorem drawStall_drawable {s : State} {m : Nat} (h : drawable s m) : drawable s (drawStall s).1 := by
  obtain ⟨hm, hfree⟩ := h
  have drawn : drawable (drawBelow 65536 s).2 (freeStallFrom (drawBelow 65536 s).2 65536 (drawBelow 65536 s).1) := by
    have hv : (drawBelow 65536 s).1 < 65536 := Nat.mod_lt _ (by decide)
    refine freeStallFrom_drawable hv ⟨(m + 65536 - (drawBelow 65536 s).1) % 65536, Nat.mod_lt _ (by decide), ?_⟩
    rw [show ((drawBelow 65536 s).1 + (m + 65536 - (drawBelow 65536 s).1) % 65536) % 65536 = m by omega]
    exact ⟨hm, hfree⟩
  exact drawn

/-! ### Stall bytes -/

section StallBytes
variable (s : State) (n : Nat)

/-- The device's own write of bytes moves memory alone. -/
theorem putBytes_frame (a : Nat) (bs : List Byte) :
    (putBytes s a bs).st = s.st ∧ (putBytes s a bs).pc = s.pc ∧ (putBytes s a bs).events = s.events := by
  induction bs generalizing s a with
  | nil => exact ⟨rfl, rfl, rfl⟩
  | cons b bs ih => exact ih (putByte s a b) (a + 1)

/-- A one-byte field is its byte. -/
theorem ofNat_stallField_one (off : Nat) : BitVec.ofNat 8 (stallField s n off 1) = ramByte s (stallAddr n + off) :=
  BitVec.ofNat_toNat ..

/-- Once its 256 bytes are put and the Stable records `u`, the stall reads as them, and no byte outside it has changed. -/
theorem putStall_whole {bs : List Byte} (hlen : bs.length = 256) (u : StableUnit) :
    ∃ t, { putStall n 0 bs s with st := u } = t ∧ (∀ i, i < 256 → ramByte t (stallAddr n + i) = bs.getD i 0) ∧
      (∀ a, a < stallAddr n ∨ stallAddr n + 256 ≤ a → ramByte t a = ramByte s a) ∧ t.st = u ∧ t.pc = s.pc ∧
      t.events = s.events := by
  have bytes (a : Nat) : ramByte { putStall n 0 bs s with st := u } a = ramByte (putBytes s (stallAddr n) bs) a := rfl
  obtain ⟨-, hpc, hev⟩ := putBytes_frame s (stallAddr n) bs
  refine ⟨_, rfl, fun i hi => ?_, fun a ha => ?_, rfl, hpc, hev⟩
  · rw [bytes, ramByte_putBytes, if_pos (by omega), Nat.add_sub_cancel_left]
  · rw [bytes, ramByte_putBytes, if_neg (by omega)]

/-- The bytes of a stall in WIPING: its STATE and its PADDOCK. -/
def wipingBytes : List Byte := [5, 0, BitVec.ofNat 8 (stallPad s n)] ++ zeros 253

theorem length_wipingBytes : (wipingBytes s n).length = 256 := by
  simp only [wipingBytes, zeros, List.length_append, List.length_replicate, List.length_cons, List.length_nil]

theorem getD_zeros (k i : Nat) : (zeros k).getD i 0 = 0 := by
  rw [zeros, List.getD_eq_getElem?_getD, List.getElem?_replicate]
  split
  · rfl
  · rfl

theorem getD_wipingBytes (i : Nat) :
    (wipingBytes s n).getD i 0 = if i = 0 then 5 else if i = 2 then ramByte s (stallAddr n + 2) else 0 :=
  match i with
  | 0 => rfl
  | 1 => rfl
  | 2 => ofNat_stallField_one s n 2
  | i + 3 => getD_zeros 253 i

end StallBytes

/-! ### The end of RETIRING and of WIPING (R89, R91) -/

section StallEnds
variable {s : State} {n : Nat}

theorem exec_stallRetiringEnd (hst : stallState s n = 4) (hdue : Tab.get 0 s.st.since n < s.tick) :
    exec (.stallRetiringEnd n) s = .next { putStall n 0 (wipingBytes s n) s with
      st := { s.st with since := Tab.set 0 s.st.since n s.tick } } :=
  if_pos ⟨hst, hdue⟩

theorem exec_stallWipingEnd (hst : stallState s n = 5) (hdue : Tab.get 0 s.st.since n < s.tick) :
    exec (.stallWipingEnd n) s = .next { putStall n 0 (zeros 256) s with
      st := { s.st with since := Tab.set 0 s.st.since n 0 } } :=
  if_pos ⟨hst, hdue⟩

/-! ### Windows that end (R92, R102) -/

/-- The tack that a stall cites lies outside its window for good. -/
def tackOver (s : State) (n : Nat) : Bool :=
  (tackRec s (stallTack s n)).any (fun t => windowOver s.time (t.fromT, t.untilT))

theorem tackOver_of_tack {t : Tack} (ht : tackRec s (stallTack s n) = some t)
    (hover : windowOver s.time (t.fromT, t.untilT) = true) : tackOver s n = true := by
  rw [tackOver, ht]
  exact hover

theorem tackOver_eq_false (h : ∀ t, tackRec s (stallTack s n) = some t → windowOver s.time (t.fromT, t.untilT) = false) :
    tackOver s n = false := by
  unfold tackOver
  cases ht : tackRec s (stallTack s n) with
  | none => rfl
  | some t => exact h t ht

theorem causeLeave_time (n reason : Nat) (s : State) : (causeLeave n reason s).time = s.time := by
  unfold causeLeave
  dsimp only
  split
  · rfl
  · rfl

/-- A LIVE stall is recorded to leave with reason 7 by its tack's window and with reason 1 by its own. -/
theorem exec_stallWindowExpiry (hlive : stallState s n = 2) :
    exec (.stallWindowExpiry n) s = .next (if windowOver s.time (stallWindow s n) then
      causeLeave n 1 (if tackOver s n then causeLeave n 7 s else s) else if tackOver s n then causeLeave n 7 s else s) := by
  show execStallWindowExpiry n s = _
  rw [execStallWindowExpiry, if_pos hlive, tackOver]
  cases tackRec s (stallTack s n) with
  | none => rfl
  | some t =>
    by_cases hover : windowOver s.time (t.fromT, t.untilT) = true
    · simp only [hover, Option.any_some, if_true, causeLeave_time]
    · simp only [hover, Option.any_some, Bool.false_eq_true, if_false]

end StallEnds

/-! ### ST_QUOTA and ST_EXPQ (R92, R104) -/

theorem exec_stQuotaWrite {s : State} {c : Nat} (v : W32) (hm : coreMay s c true 0x100300028 = true) :
    exec (.stQuotaWrite c v) s = .next (writeStQuota v s) :=
  if_pos hm

/-- A quota is taken where the sum of all stays at 65,536 and the paddock's use fits. -/
theorem writeStQuota_eq {s : State} {v : W32} {sum : Nat}
    (hsum : sum = Tab.total s.st.quota (fun q k => if q = s.st.psel then 0 else k) + v.toNat % 131072) :
    writeStQuota v s = if 65536 < sum ∨ v.toNat % 131072 < stallsUsed s s.st.psel then setEvent 3 3 s
      else { s with st := { s.st with quota := Tab.set 0 s.st.quota s.st.psel (v.toNat % 131072) } } := by
  have bits : natBits v.toNat 0 17 = v.toNat % 131072 := by simp [natBits]
  rw [writeStQuota, bits, ← hsum]

theorem exec_expqRead {s : State} {c rd : Nat} (hm : coreMay s c false 0x100300040 = true) (h0 : 0 < rd) (h64 : rd < 64) :
    exec (.expqRead c rd) s = .next (updCore c (fun k => { k with g := Tab.set 0 k.g rd (readExpq s).1 }) (readExpq s).2) := by
  show execExpqRead c rd s = _
  have hrd : ¬rd = 0 := by omega
  simp only [execExpqRead, hm, Nat.mod_eq_of_lt h64, hrd, Bool.not_true, Bool.false_eq_true, if_false]

/-! ### The statement -/

/-- Settles O14, clause by clause. Which FREE stall is drawn is a free value (log 3). -/
theorem stallEventsComplete : Obligations.StallEventsComplete := by
  unfold Obligations.StallEventsComplete
  refine ⟨?draw, ?wipe, ?windows, ?registers⟩
  case draw => exact fun s ⟨m, h⟩ => drawStall_drawable h
  case wipe =>
    intro s n _ hdue
    refine ⟨fun hst => ?_, fun hst => ?_⟩
    · obtain ⟨t, ht, inside, frame⟩ := putStall_whole s n (length_wipingBytes s n)
        { s.st with since := Tab.set 0 s.st.since n s.tick }
      rw [exec_stallRetiringEnd hst hdue, ht]
      exact ⟨t, rfl, fun i hi => (inside i hi).trans (getD_wipingBytes s n i), frame⟩
    · obtain ⟨t, ht, inside, frame⟩ := putStall_whole s n (bs := zeros 256) List.length_replicate
        { s.st with since := Tab.set 0 s.st.since n 0 }
      rw [exec_stallWipingEnd hst hdue, ht]
      exact ⟨t, rfl, fun i hi => (inside i hi).trans (getD_zeros 256 i), frame⟩
  case windows =>
    intro s n hlive
    rw [exec_stallWindowExpiry hlive]
    refine ⟨fun t ht hover hin => ?_, fun hin hover => ?_, fun hin hin' => ?_⟩
    · simp only [hin, tackOver_of_tack ht hover, Bool.false_eq_true, if_false, if_true]
    · simp only [hover, tackOver_eq_false hin, Bool.false_eq_true, if_false, if_true]
    · simp only [hin', tackOver_eq_false hin, Bool.false_eq_true, if_false]
  case registers =>
    intro s c
    refine ⟨fun v sum hm hsum => ?_, fun rd hm h0 h64 => ?_⟩
    · rw [exec_stQuotaWrite v hm, writeStQuota_eq hsum]
      exact ⟨fun hfit huse => by rw [if_neg (by omega)], fun hover => by rw [if_pos hover]⟩
    · rw [exec_expqRead hm h0 h64]
      refine ⟨fun e rest he => ?_, fun he => ?_⟩
      · simp only [readExpq, he]
      · simp only [readExpq, he]

end Sys2Proof.Proofs
end

section
/-! Inline frames (R100, R230, R231, R240, R242–R244): what an arrival counts, what counting, dropping and forwarding change,
the verdict at hand-off, and the head of an egress queue. -/

namespace Sys2Proof.Proofs

open Sys2Proof Sys2Proof.Machine Sys2Proof.Laws

/-! ### What the inline operations leave (R243–R245) -/

/-- `t` comes of `s` by counting and PAUSE alone: the frames that arrived, wait and were sent stand, memory, the Stable and the
tacks stand, and no alert has changed. -/
structure SameFrames (s t : State) : Prop where
  rx : t.il.rx = s.il.rx
  egress : t.il.egress = s.il.egress
  sent : t.il.sent = s.il.sent
  mem : t.mem = s.mem
  st : t.st = s.st
  tk : t.tk = s.tk
  events : t.events = s.events

theorem SameFrames.refl (s : State) : SameFrames s s := ⟨rfl, rfl, rfl, rfl, rfl, rfl, rfl⟩

theorem SameFrames.trans {s t u : State} (h : SameFrames s t) (g : SameFrames t u) : SameFrames s u :=
  ⟨g.rx.trans h.rx, g.egress.trans h.egress, g.sent.trans h.sent, g.mem.trans h.mem, g.st.trans h.st, g.tk.trans h.tk,
    g.events.trans h.events⟩

theorem ilCount_sameFrames (block c : Nat) (s : State) : SameFrames s (ilCount block c s) := ⟨rfl, rfl, rfl, rfl, rfl, rfl, rfl⟩

/-- PAUSE sent on one ingress sub-port: it is counted, and noted with its quanta. -/
def pauseOn (pair : Nat) (outbound : Bool) (quanta : Nat) (s : State) (u : Nat) : State :=
  ilCount (ilBlock pair u outbound) 19 { s with il := { s.il with
    pauseSent := Tab.set 0 s.il.pauseSent (ilBlock pair u outbound) (quanta + 1) } }

theorem pauseOn_sameFrames (pair : Nat) (outbound : Bool) (quanta : Nat) (s : State) (u : Nat) :
    SameFrames s (pauseOn pair outbound quanta s u) := ⟨rfl, rfl, rfl, rfl, rfl, rfl, rfl⟩

theorem sendPause_sameFrames (pair : Nat) (outbound : Bool) (quanta : Nat) (s : State) :
    SameFrames s (sendPause pair outbound quanta s) := by
  have sent : SameFrames s ((portSubs s pair).foldl (pauseOn pair outbound quanta) s) :=
    List.foldlRecOn _ _ (.refl s) fun _ hst u _ => hst.trans (pauseOn_sameFrames _ _ _ _ u)
  exact sent.trans ⟨rfl, rfl, rfl, rfl, rfl, rfl, rfl⟩

theorem bufMoved_sameFrames (pair : Nat) (outbound : Bool) (was : Nat) (s : State) :
    SameFrames s (bufMoved pair outbound was s) := by
  unfold bufMoved
  split
  · exact sendPause_sameFrames ..
  · split
    · exact sendPause_sameFrames ..
    · exact .refl s

/-! ### Arrival (R230, R231, R243, R244) -/

section Arrival
variable {s : State} {pair sub : Nat} {outbound ok : Bool} {bytes : List Byte}

/-- A received frame is counted, and a PAUSE that step 1 of R236 would not drop halts at once. -/
def arrived (s : State) (pair sub : Nat) (outbound : Bool) (bytes : List Byte) (ok : Bool) : State :=
  match pauseQuanta bytes with
  | some q =>
    if rxBad bytes ok = false ∧ portBit s pair 8 = true then
      pauseHalt (ilBlock pair sub outbound) q (broken s pair) (ilCount (ilBlock pair sub outbound) 0 s)
    else ilCount (ilBlock pair sub outbound) 0 s
  | none => ilCount (ilBlock pair sub outbound) 0 s

theorem arrived_rx : (arrived s pair sub outbound bytes ok).il.rx = s.il.rx := by
  unfold arrived
  split
  · split
    · rfl
    · rfl
  · rfl

theorem exec_frameReceived (hlive : portLive s pair sub = true) (hshed : s.shedding = false) :
    exec (.frameReceived pair sub outbound bytes ok) s =
      .next { arrived s pair sub outbound bytes ok with il := { (arrived s pair sub outbound bytes ok).il with
        rx := s.il.rx ++ [{ pair := pair, sub := sub, outbound := outbound, bytes := bytes, fcsOk := ok, at_ := s.tick }] } } := by
  rw [← arrived_rx (s := s) (pair := pair) (sub := sub) (outbound := outbound) (ok := ok) (bytes := bytes)]
  show execFrameReceived pair sub outbound bytes ok s = _
  cases hq : pauseQuanta bytes with
  | none => simp only [execFrameReceived, hlive, hshed, arrived, hq, if_true, Bool.false_eq_true, if_false]
  | some q =>
    simp only [execFrameReceived, hlive, hshed, arrived, hq, if_true, Bool.false_eq_true, if_false, Bool.and_eq_true,
      Bool.not_eq_true']

/-- During a SHED an arrival is dropped as FENCED. -/
theorem exec_frameReceived_shedding (hlive : portLive s pair sub = true) (hshed : s.shedding = true) :
    exec (.frameReceived pair sub outbound bytes ok) s =
      .next (ilCount (ilBlock pair sub outbound) 14 (ilCount (ilBlock pair sub outbound) 0 s)) := by
  show execFrameReceived pair sub outbound bytes ok s = _
  simp only [execFrameReceived, hlive, hshed, if_true]

end Arrival

/-! ### The verdict at hand-off (R240, R242, R244) -/

section Verdict
variable {s : State} {f : RxFrame} {j : FrameJob} {fs : List HwFault} {k : Nat}

/-- A frame dropped under a counter is counted there; no other frame has moved. -/
theorem frameDrop_spec (block c : Nat) (s : State) :
    (frameDrop block c s).il = (ilCount block c s).il ∧ (frameDrop block c s).mem = s.mem ∧ (frameDrop block c s).st = s.st ∧
      (frameDrop block c s).tk = s.tk := by
  unfold frameDrop
  split
  all_goals simp [ilCount]

theorem ilCount_cnt (block c : Nat) (s : State) : Tab.get 0 (ilCount block c s).il.cnt (32 * block + c) =
    min (Tab.get 0 s.il.cnt (32 * block + c) + 1) 0xFFFFFFFFFFFFFFFF :=
  Tab.get_upd_self s.il.cnt _ fun v => min (v + 1) 0xFFFFFFFFFFFFFFFF

/-- The sub-port exists and the direction buffer has room for the frame (R240, R243). -/
def hasRoom (s : State) (f : RxFrame) : Prop :=
  (portSubs s f.pair).contains f.sub = true ∧ bufFill s f.pair f.outbound + f.bytes.length + 4 ≤ bufSize

theorem hasRoom_spec (h : hasRoom s f) :
    (decide (bufSize < bufFill s f.pair f.outbound + f.bytes.length + 4) || !(portSubs s f.pair).contains f.sub) = false := by
  obtain ⟨hsub, hfits⟩ := h
  rw [hsub, decide_eq_false (Nat.not_lt.2 hfits)]
  rfl

theorem judgeFrame_bypass (hc : classify f s = .bypass) (hroom : hasRoom s f) :
    judgeFrame f fs s = enqueueFrame f f.bytes false s := by
  simp only [judgeFrame, hc, hasRoom_spec hroom, Bool.false_eq_true, if_false]

/-- A frame that fails a row of R240 other than CHECK (8) and REPLAY (11), the two that also touch its stall, is dropped under the
counter of its row alone. -/
theorem judgeFrame_dropped (hc : classify f s = .job j) (hroom : hasRoom s f)
    (hrow : rowsBefore f j (if f.outbound then 0 else recoverPN s j.stall j.pn) s = some k) (h8 : k ≠ 8) (h11 : k ≠ 11) :
    judgeFrame f fs s = frameDrop (ilBlock f.pair f.sub f.outbound) k s := by
  -- `h8` and `h11` leave the last arm of the verdict's match on the row
  simp only [judgeFrame, hc, hasRoom_spec hroom, Bool.false_eq_true, if_false, hrow]

/-- A forwarded frame joins its egress queue, to leave from the next stride on. -/
theorem enqueueFrame_spec (f : RxFrame) (bytes : List Byte) (guarded : Bool) (s : State) :
    (enqueueFrame f bytes guarded s).il.rx = s.il.rx ∧
      Tab.get [] (enqueueFrame f bytes guarded s).il.egress (ilBlock f.pair f.sub f.outbound) =
        Tab.get [] s.il.egress (ilBlock f.pair f.sub f.outbound) ++
          [{ bytes := padFrame bytes, block := ilBlock f.pair f.sub f.outbound, guarded := guarded, ready := s.tick + 1 }] ∧
      (enqueueFrame f bytes guarded s).mem = s.mem ∧ (enqueueFrame f bytes guarded s).st = s.st ∧
      (enqueueFrame f bytes guarded s).tk = s.tk := by
  have moved (t : State) := bufMoved_sameFrames f.pair f.outbound (bufFill s f.pair f.outbound) t
  unfold enqueueFrame
  refine ⟨(moved _).rx, ?_, (moved _).mem, (moved _).st, (moved _).tk⟩
  rw [(moved _).egress]
  exact Tab.get_upd_self s.il.egress _ (· ++ [_])

theorem exec_frameHandoff (hf : nextFrame s = some f) :
    exec (.frameHandoff fs) s = .next (judgeFrame f fs { s with il := { s.il with rx := s.il.rx.erase f } }) := by
  show execFrameHandoff fs s = _
  simp only [execFrameHandoff, hf]

/-- Rows 8 to 11 of R240 for a placed inbound frame: a wrong ICV counts there, and with the ICV correct the PN is accepted. Where
the ESP trailer is wrong the octets of the job are counted, which is the model's own choice (log 169). -/
def inboundVerdict (f : RxFrame) (j : FrameJob) (pn : Nat) (s : State) : State :=
  match openFrame j pn s with
  | (false, _) => frameDrop (ilBlock f.pair f.sub false) 15 (stallCount j.stall 0xD0 1 s)
  | (true, none) => frameDrop (ilBlock f.pair f.sub false) 6 (acceptPN j.stall pn j.octets s)
  | (true, some (out, oct)) => enqueueFrame f out true (acceptPN j.stall pn oct s)

/-- In a stride without faults, the ICV of a placed inbound frame decides. -/
theorem runFrame_inbound {pn lane rounds : Nat} {parts : List (Cell × Nat)} (hin : f.outbound = false)
    (hplace : placeFrame j s = some (parts, lane, rounds)) :
    runFrame f j pn [] s = inboundVerdict f j pn (chargeFrame j parts lane rounds s) := by
  simp only [runFrame, hplace, hin, strike, Bool.false_eq_true, if_false]
  rfl

end Verdict

/-! ### The head of an egress queue (R242, R243) -/

section Egress
variable {s : State} {pair sub : Nat} {outbound : Bool}

/-- The state once the head of an egress queue has left it: it is sent on a link that is up, else dropped as TAIL. -/
def headLeft (pair sub : Nat) (outbound : Bool) (f : TxFrame) (rest : List TxFrame) (s : State) : State :=
  let b := ilBlock pair sub outbound
  let s1 := { s with il := { s.il with egress := Tab.set [] s.il.egress b rest } }
  if egressUp s pair sub outbound then
    ilCount b 18 (ilCount b (if f.guarded then 16 else 3)
      { s1 with il := { s1.il with sent := Tab.upd [] s1.il.sent b (fun l => l ++ [f.bytes]) } })
  else ilTail b s1

variable {f : TxFrame} {rest : List TxFrame}

theorem exec_frameEgress (hhead : Tab.get [] s.il.egress (ilBlock pair sub outbound) = f :: rest) (hready : f.ready ≤ s.tick)
    (hlive : portLive s pair sub = true) (hhalt : Tab.get 0 s.il.halted (ilBlock pair sub (!outbound)) = 0) :
    exec (.frameEgress pair sub outbound) s =
      .next (bufMoved pair outbound (bufFill s pair outbound) (headLeft pair sub outbound f rest s)) := by
  have leaves : (decide (s.tick < f.ready) || !portLive s pair sub ||
      Tab.get 0 s.il.halted (ilBlock pair sub (!outbound)) != 0) = false := by
    rw [decide_eq_false (Nat.not_lt.2 hready), hlive, hhalt]
    rfl
  show execFrameEgress pair sub outbound s = _
  simp only [execFrameEgress, hhead, leaves, Bool.false_eq_true, if_false]
  rfl

theorem headLeft_up (hup : egressUp s pair sub outbound = true) :
    Tab.get [] (headLeft pair sub outbound f rest s).il.egress (ilBlock pair sub outbound) = rest ∧
      Tab.get [] (headLeft pair sub outbound f rest s).il.sent (ilBlock pair sub outbound) =
        Tab.get [] s.il.sent (ilBlock pair sub outbound) ++ [f.bytes] ∧
      (headLeft pair sub outbound f rest s).mem = s.mem := by
  rw [headLeft, if_pos hup]
  exact ⟨Tab.get_set_self .., Tab.get_upd_self s.il.sent _ fun l => l ++ [f.bytes], rfl⟩

theorem headLeft_down (hdown : egressUp s pair sub outbound = false) :
    Tab.get [] (headLeft pair sub outbound f rest s).il.egress (ilBlock pair sub outbound) = rest ∧
      (headLeft pair sub outbound f rest s).il.sent = s.il.sent ∧
      (Tab.get 0 (headLeft pair sub outbound f rest s).events 8).getLsbD 3 = true ∧
      (headLeft pair sub outbound f rest s).mem = s.mem := by
  rw [headLeft, if_neg (by rw [hdown]; exact Bool.false_ne_true), ilTail, setEvent_il, Laws.setEvent_mem]
  exact ⟨Tab.get_set_self .., rfl, setEvent_self _ 8 3 (by decide), rfl⟩

end Egress

/-! ### The statement -/

/-- Settles O27: arrival, the verdicts at hand-off, and the head of an egress queue, each by what its operations leave. -/
theorem framesArriveAndLeave : Obligations.FramesArriveAndLeave := by
  unfold Obligations.FramesArriveAndLeave
  intro s pair sub outbound b hb
  subst hb
  refine ⟨?arrives, fun bytes ok => exec_frameReceived_shedding, ?handoff, ?inbound, ?leaves⟩
  case arrives =>
    intro bytes ok u hlive hshed hu
    have hu : u = arrived s pair sub outbound bytes ok := hu
    rw [exec_frameReceived hlive hshed, hu]
  case handoff =>
    intro f fs s1 hf hs1
    rw [exec_frameHandoff hf, ← hs1]
    refine ⟨rfl, fun hc hsub hfits => ?_, fun j k hc hsub hfits hrow h8 h11 => ?_⟩
    · rw [judgeFrame_bypass hc (by subst hs1; exact ⟨hsub, hfits⟩)]
      subst hs1
      exact ⟨_, rfl, enqueueFrame_spec f f.bytes false _⟩
    · rw [judgeFrame_dropped hc (by subst hs1; exact ⟨hsub, hfits⟩) hrow h8 h11]
      obtain ⟨il, mem, st, tk⟩ := frameDrop_spec (ilBlock f.pair f.sub f.outbound) k s1
      subst hs1
      refine ⟨_, rfl, ?_, ?_, ?_, mem, st, tk⟩
      · rw [il]
        rfl
      · rw [il]
        rfl
      · rw [il, ilCount_cnt]
  case inbound =>
    intro f j pn parts lane rounds s2 hin hplace hs2
    subst hs2
    exact runFrame_inbound hin hplace
  case leaves =>
    intro f rest hhead hready hlive hhalt
    rw [exec_frameEgress hhead hready hlive hhalt]
    have moved := bufMoved_sameFrames pair outbound (bufFill s pair outbound) (headLeft pair sub outbound f rest s)
    refine ⟨fun hup => ⟨_, rfl, ?_⟩, fun hdown => ⟨_, rfl, ?_⟩⟩
    · rw [moved.egress, moved.sent, moved.mem]
      exact headLeft_up hup
    · rw [moved.egress, moved.sent, moved.mem, moved.events]
      exact headLeft_down hdown

end Sys2Proof.Proofs
end

section
/-! Admission of PKE jobs (R107, R113, R117, R119, R121, R122, R128): how a GO reaches the engines, the turning away of an
operation that draws while the entropy source fails, and what a job that need not wait leaves in the queue and in its tacks. -/

namespace Sys2Proof.Proofs

open Sys2Proof Sys2Proof.Machine Sys2Proof.Laws

/-! ### A GO that asks for a public-key operation (R77, R107) -/

section PkeGo
variable {s t : State} {c w op code : Nat} {mk : Src → Instr}

/-- Each public-key command is the submission whose BODY asks for its OP. -/
theorem exec_pkeCommand (hcmd : (op, mk) ∈ pkeCommands) (src : Src) (s : State) :
    exec (mk src) s = .next (submitBy 1 2 (fun b => pOp b == op) src s) := by
  simp only [pkeCommands, List.mem_cons, Prod.mk.injEq, List.not_mem_nil, or_false] at hcmd
  obtain ⟨rfl, rfl⟩ | ⟨rfl, rfl⟩ | ⟨rfl, rfl⟩ | ⟨rfl, rfl⟩ | ⟨rfl, rfl⟩ | ⟨rfl, rfl⟩ | ⟨rfl, rfl⟩ | ⟨rfl, rfl⟩ | ⟨rfl, rfl⟩ |
    ⟨rfl, rfl⟩ | ⟨rfl, rfl⟩ | ⟨rfl, rfl⟩ | ⟨rfl, rfl⟩ | ⟨rfl, rfl⟩ | ⟨rfl, rfl⟩ | ⟨rfl, rfl⟩ | ⟨rfl, rfl⟩ | ⟨rfl, rfl⟩ := hcmd
  all_goals rfl

/-- Taking its GO leaves the BODY of a PKE window. -/
theorem pkeBody_started (c w : Nat) (s : State) : winBody 1 c w (started 1 c w s) = winBody 1 c w s := by
  have win : getWin 1 c w (started 1 c w s) = { getWin 1 c w s with busy := true, done := false } :=
    Tab.get_upd_self s.pk.wins (c * 8 + w) fun x => { x with busy := true, done := false }
  rw [winBody, win]
  rfl

theorem exec_pkeCommand_admitted (hcmd : (op, mk) ∈ pkeCommands) (hfree : windowFree 1 c w s)
    (hop : pOp (winBody 1 c w s) = op)
    (hsub : submitWin 1 (sampleReq s c w) c w 0 (started 1 c w s) = (true, code, t)) :
    exec (mk (.win c w)) s = .next t := by
  obtain ⟨hc, hw, hbusy, hshed⟩ := hfree
  calc exec (mk (.win c w)) s
    _ = .next (submitBy 1 2 (fun b => pOp b == op) (.win c w) s) := exec_pkeCommand hcmd (.win c w) s
    _ = .next t := by rw [submitBy, if_pos ⟨hc, hw, beq_iff_eq.2 hop⟩, winGo_admitted hbusy hshed hsub]

end PkeGo

/-! ### A job that need not wait (R113, R119, R121, R122, R128) -/

/-- What a PKE job takes of its tacks as it is admitted: where it runs, a use of its key `h` where it cites one (`cites`), and
the fill of its slot. -/
def takePkeTacks (b : List Byte) (cites : Bool) (h row : Nat) (s : State) : State :=
  let s2 := if row = stOK && cites then pendUse h s else s
  if row = stOK && pDstt b then updTack (pDst b) (fun k => { k with fillPending := true }) s2 else s2

/-- A PKE job as it is admitted, on no track yet. -/
def admittedPkeJob (r : Req) (b : List Byte) (cites : Bool) (h cinch row code : Nat) (s : State) : PJob :=
  { no := s.pk.nextNo, req := r, body := b, tack := if cites then h else 0,
    tack2 := if pSrct b then pSrc b else if pDstt b then pDst b else 0, usesKey := row == stOK && cites, row := row,
    slices := pkeSlices b, wide := pkeWide b, done := 0, eng := none, phys := 0xFF, bank := 0, cut := 0,
    adm := s.stride % 2 ^ 32, admTick := s.tick, res := 0, out := [], fill := [],
    held := match code with | 0 => none | 1 => none | k + 2 => some (cinch % 4096, k) }

/-- A job joins the queue of the engines. -/
def queuePkeJob (j : PJob) (s : State) : State :=
  { s with pk := { s.pk with jobs := s.pk.jobs ++ [j], nextNo := s.pk.nextNo + 1 } }

/-- A job takes nothing but of its tacks, and nothing of those where it does not run. -/
theorem takePkeTacks_frame (b : List Byte) (cites : Bool) (h row : Nat) (s : State) :
    (takePkeTacks b cites h row s).pk = s.pk ∧ (takePkeTacks b cites h row s).mem = s.mem ∧
      (takePkeTacks b cites h row s).pc = s.pc ∧ (takePkeTacks b cites h row s).time = s.time ∧
      (row ≠ stOK → (takePkeTacks b cites h row s).tk = s.tk) := by
  unfold takePkeTacks
  by_cases hrow : row = stOK
  · cases cites <;> cases pDstt b <;> simp [hrow, pendUse]
  · simp [hrow]

/-- Where no OUTPUT was staged, a refusal is a result alone. -/
theorem pkeRefuseHeld_unstaged {code : Nat} (hcode : code ≤ 1) (r : Req) (status cinch : Nat) (s : State) :
    pkeRefuseHeld r status cinch code s = pkeRefuse r status s :=
  match code, hcode with
  | 0, _ => rfl
  | 1, _ => rfl

/-- A search of a job's tacks finds none where the job is denied or none of them is one. -/
theorem noneFound {denied : Bool} {ts : List Tack} {p : Tack → Bool} (h : denied = true ∨ ∀ k ∈ ts, p k = false) :
    (!denied && ts.any p) = false :=
  not_and_false (h.imp_right fun none => List.any_eq_false.2 fun k hk => Bool.eq_false_iff.1 (none k hk))

section PkeAdmission
variable {s s1 : State} {r : Req} {b : List Byte} {key aux : Rein} {c w cinch staged code row : Nat}
  {kt st dt : Option Tack} {denied : Bool}

/-- The staging of an OUTPUT at a GO, where the job has one, leaves the clock (R144). -/
theorem pkeStaged_time
    (hstage : (code, s1) = if pHold b then holdStage r cinch (dstSpan b) (pDst b) staged s else (0, s)) : s1.time = s.time := by
  rw [show s1 = (code, s1).2 from rfl, hstage]
  split
  · exact holdStage_time ..
  · rfl

/-- The checks that would end a job MALFORMED all pass (R117). -/
theorem pke_wellFormed (hbad : pkeBad b true key.tag cinch = false)
    (href : pSrct b = true ∨ badHostRef s r (pSrc b) (pLen b) false = false)
    (hdst : badHostRef s r (pDst b) (dstSpan b) true = false) (hdst2 : badHostRef s r (pDst2 b) (dst2Span b) true = false) :
    (pkeBad b true key.tag cinch || (!pSrct b && badHostRef s r (pSrc b) (pLen b) false) ||
      badHostRef s r (pDst b) (dstSpan b) true || badHostRef s r (pDst2 b) (dst2Span b) true) = false := by
  simp only [hbad, not_and_false href, hdst, hdst2, Bool.or_self]

variable (hsrc : r.src = .win c w) (hpad : (s.paddock r.paddock).st = 1) (hbad : pkeBad b true key.tag cinch = false)
  (href : pSrct b = true ∨ badHostRef s r (pSrc b) (pLen b) false = false)
  (hdst : badHostRef s r (pDst b) (dstSpan b) true = false) (hdst2 : badHostRef s r (pDst2 b) (dst2Span b) true = false)
  (hstage : (code, s1) = if pHold b then holdStage r cinch (dstSpan b) (pDst b) staged s else (0, s))
include hsrc hpad hbad href hdst hdst2 hstage

/-- Without entropy a well-formed job of an operation that draws ends BUSY_RETRY, whatever else R128 says of it (R113). -/
theorem pkeSubmit_noEntropy (hent : s1.pk.entropyOk = false) (hdraws : opNoEntropy (pOp b) = false) :
    pkeSubmit r b key aux cinch staged s = (true, code, pkeRefuseHeld r stBusyRetry cinch code s1) := by
  have wellFormed := pke_wellFormed hbad href hdst hdst2
  rw [pkeSubmit]
  simp only [hsrc, hpad, wellFormed, ← hstage, hent, hdraws, bne_self_eq_false, Bool.and_false, Bool.false_eq_true, if_false,
    Bool.not_false, Bool.and_self, if_true]

/-- A window's job that R117 finds well-formed is admitted where the entropy source serves it, no tack's window makes it wait, its
tacks are in the cache or it is denied, and its use is within the durable bound. -/
theorem pkeSubmit_admitted (hent : s1.pk.entropyOk = true ∨ opNoEntropy (pOp b) = true)
    (hkt : kt = if pkeCites b then liveTack s1 r.paddock (reinHandle key) else none)
    (hst : st = if pSrct b then liveTack s1 r.paddock (pSrc b) else none)
    (hdt : dt = if pDstt b then getTack s1 r.paddock (pDst b) else none)
    (hdenied : denied = (code == 1 || pkeDenied s1 r b key aux))
    (hwin : windowStatus s1 (kt.toList ++ st.toList ++ dt.toList) ≠ 255)
    (hcache : denied = true ∨ ∀ k ∈ kt.toList ++ st.toList, fetchFailed s1 k = false ∧ needFetch s1 k = false)
    (hrow : row = admissionRow s1 denied (windowStatus s1 (kt.toList ++ st.toList ++ dt.toList)) kt)
    (hbound : row ≠ stOK ∨ kt.all (useWithinBound s1) = true) :
    pkeSubmit r b key aux cinch staged s =
      (true, code, queuePkeJob
        (admittedPkeJob r b kt.isSome (reinHandle key) cinch row code (takePkeTacks b kt.isSome (reinHandle key) row s1))
        (takePkeTacks b kt.isSome (reinHandle key) row s1)) := by
  have cited : citedHandle r key (pKeyref b) = reinHandle key := by simp only [citedHandle, hsrc]
  have wellFormed := pke_wellFormed hbad href hdst hdst2
  have served : (!s1.pk.entropyOk && !opNoEntropy (pOp b)) = false :=
    not_and_false (hent.imp_right fun h => by rw [h, Bool.not_true])
  have noFailure : (!denied && (kt.toList ++ st.toList).any (fetchFailed s1)) = false :=
    noneFound (hcache.imp_right fun h k hk => (h k hk).1)
  have noFetch : (!denied && (kt.toList ++ st.toList).any (needFetch s1)) = false :=
    noneFound (hcache.imp_right fun h k hk => (h k hk).2)
  have bound : ¬(row = stOK ∧ (!kt.all (useWithinBound s1)) = true) := by
    obtain h | h := hbound
    · exact fun exceeds => h exceeds.1
    · simp only [h, Bool.not_true, Bool.false_eq_true, and_false, not_false_iff]
  rw [pkeSubmit]
  simp only [hsrc, hpad, wellFormed, ← hstage, cited, ← hkt, ← hst, ← hdt, ← hdenied, served, hwin, noFailure, noFetch,
    bne_self_eq_false, Bool.and_false, Bool.false_eq_true, if_false]
  rw [admissionRow] at hrow
  simp only [← hrow, bound, if_false]
  rfl

end PkeAdmission

/-! ### The statement -/

/-- Settles O11: the window's GO is one `pkeSubmit`, which `pkeSubmit_noEntropy` and `pkeSubmit_admitted` evaluate. That rows 4
to 6 of R128 are judged at admission is the model's own choice, as log 77 makes it for the cipher. -/
theorem pkeJobIsAdmitted : Obligations.PkeJobIsAdmitted := by
  unfold Obligations.PkeJobIsAdmitted
  intro s c w op mk hcmd hfree s0 s1 r x b code row kt st dt denied hop hs0 hr hx hb hpad hbad href hdst hdst2 hstage hkt hst hdt
    hdenied
  have hsrc : r.src = .win c w := congrArg Req.src hr
  have opc : pOp b = op := by rw [hb, hs0, pkeBody_started, hop]
  have run {t : State} (h : pkeSubmit r b x.key x.aux x.handle.toNat 0 s0 = (true, code, t)) :
      exec (mk (.win c w)) s = .next t := by
    subst hs0 hr hx hb
    exact exec_pkeCommand_admitted hcmd hfree hop h
  refine ⟨?noEntropy, ?admitted⟩
  case noEntropy =>
    intro hent hdraws hcode
    have refused := pkeSubmit_noEntropy (aux := x.aux) hsrc hpad hbad href hdst hdst2 hstage hent (opc ▸ hdraws)
    rw [pkeRefuseHeld_unstaged hcode] at refused
    exact ⟨pkeRefuse r stBusyRetry s1, run refused, rfl, rfl⟩
  case admitted =>
    intro hent hwin hcache hrow hbound
    let u := takePkeTacks b kt.isSome (reinHandle x.key) row s1
    let j := admittedPkeJob r b kt.isSome (reinHandle x.key) x.handle.toNat row code u
    have submitted : pkeSubmit r b x.key x.aux x.handle.toNat 0 s0 = (true, code, queuePkeJob j u) :=
      pkeSubmit_admitted hsrc hpad hbad href hdst hdst2 hstage (opc ▸ hent) hkt hst hdt hdenied hwin hcache hrow hbound
    obtain ⟨hpk, hmem, hpc, htime, hrefused⟩ := takePkeTacks_frame b kt.isSome (reinHandle x.key) row s1
    have stride : u.stride = s.stride := by
      rw [State.stride, htime, pkeStaged_time hstage, hs0]
      rfl
    exact ⟨queuePkeJob j u, j, run submitted, congrArg (fun f : PkeUnit => f.jobs ++ [j]) hpk,
      congrArg (fun f : PkeUnit => f.nextNo + 1) hpk, congrArg PkeUnit.nextNo hpk, rfl, rfl, rfl, rfl, rfl, rfl, rfl,
      congrArg (· % 2 ^ 32) stride, hmem, hpc, hrefused⟩

end Sys2Proof.Proofs
end

section
/-! Cinch requests (R134, R140–R142, R145, R150, R151, R164): how a GO reaches the Cinch engine, and what OPEN, STAGE, COMMIT,
ABORT, QUERY, LOOKUP and RESOLVE do once their checks pass. -/

namespace Sys2Proof.Proofs

open Sys2Proof Sys2Proof.Machine Sys2Proof.Laws

/-! ### A GO that asks for a Cinch request (R140) -/

section CinchGo
variable {s t : State} {c opc : Nat} {mk : Src → Instr}

/-- Taking its GO leaves all of a Cinch window but BUSY and DONE. -/
theorem cinchWin_started (c : Nat) (s : State) :
    getWin 4 c 0 (started 4 c 0 s) = { getWin 4 c 0 s with busy := true, done := false } :=
  Tab.get_upd_self s.cn.wins c fun x => { x with busy := true, done := false }

/-- The request that OPC asks for, with BODY `b`, handle `h` and key `key`: whether it was admitted, and the state. -/
def cinchRequest (r : Req) (c opc : Nat) (b : List Byte) (h : Nat) (key : Rein) (s : State) : Bool × State :=
  match opc with
  | 1 => (true, cinchOpen r c b h s)
  | 2 => cinchStage r c b h key s
  | 3 => (true, cinchCommit r c b h s)
  | 4 => (true, cinchAbort r c b h s)
  | 5 => (true, cinchQuery r c b h s)
  | 6 => (true, cinchLookup r c b h s)
  | 7 => (true, cinchResolve r c b h s)
  | n => (true, refuseReq r c n h stMalformed s)

theorem submitWin_cinch (r : Req) (c : Nat) (s : State) :
    submitWin 4 r c 0 0 s =
      let x := getWin 4 c 0 s
      let out := cinchRequest r c x.opc.toNat (winBody 4 c 0 s) x.handle.toNat x.key s
      (out.1, 0, out.2) := by
  simp only [submitWin]
  generalize (getWin 4 c 0 s).opc.toNat = n
  split
  all_goals simp only [cinchRequest]

/-- A request that an idle window makes, and that is admitted, is the command's whole effect. -/
theorem exec_cinchRequest (hcmd : exec (mk (.win c 0)) s = .next (cinchBy opc (.win c 0) s)) (hfree : windowFree 4 c 0 s)
    (hopc : (getWin 4 c 0 s).opc.toNat = opc)
    (hreq : cinchRequest (sampleReq s c 0) c opc (winBody 4 c 0 (started 4 c 0 s)) (getWin 4 c 0 s).handle.toNat
      (getWin 4 c 0 (started 4 c 0 s)).key (started 4 c 0 s) = (true, t)) :
    exec (mk (.win c 0)) s = .next t := by
  obtain ⟨hc, -, hbusy, hshed⟩ := hfree
  have sub : submitWin 4 (sampleReq s c 0) c 0 0 (started 4 c 0 s) = (true, 0, t) := by
    rw [submitWin_cinch]
    simp only [cinchWin_started] at hreq ⊢
    rw [hopc, hreq]
  rw [hcmd, cinchBy, if_pos ⟨hc, rfl, hopc⟩, winGo_admitted hbusy hshed sub]

end CinchGo

/-! ### OPEN (R134, R141) -/

section Requests
variable {s s1 : State} {r : Req} {b : List Byte} {c h i : Nat} {key : Rein}

/-- The Cinch that an OPEN makes in slot `i`. -/
def openedCinch (r : Req) (c i : Nat) (b : List Byte) (s : State) : Cinch :=
  { Cinch.free with
    st := 1, seq := nextSeq (getCinch s i).seq, durable := byteAt b 0 == 1, owner := c, paddock := r.paddock,
    gen := (s.paddock r.paddock).gen, openedAt := s.tick }

theorem cinchOpen_passed (hclass : byteAt b 0 ≤ 1) (hzero : zeroSpan b 1 63 = true) (hpad : (s.paddock r.paddock).st = 1)
    (hquota : openUsed s r.paddock < Tab.get 0 s.cn.quotaOpen r.paddock) (hslot : freeSlot s = some i)
    (hstore : s.pm.nandFail = false ∨ byteAt b 0 = 0) :
    cinchOpen r c b 0 s =
      addReq (cnReq r c 1 i (cinchHandle (openedCinch r c i b s) i) (s.tick + 1)
        (some (cinchHead stOK 1 0 255 (cinchHandle (openedCinch r c i b s) i) 0))) (setCinch i (openedCinch r c i b s) s) := by
  have wellFormed : decide (1 < byteAt b 0) = false := decide_eq_false (Nat.not_lt.2 hclass)
  have room : decide (openUsed s r.paddock + 1 > Tab.get 0 s.cn.quotaOpen r.paddock) = false :=
    decide_eq_false (Nat.not_lt.2 (Nat.succ_le_of_lt hquota))
  have mounted : (s.pm.nandFail && byteAt b 0 == 1) = false := by
    obtain h | h := hstore
    · rw [h, Bool.false_and]
    · rw [h, Bool.and_eq_false_imp]
      exact fun _ => rfl
  unfold cinchOpen
  rw [hslot]
  simp only [firstStatus, wellFormed, hzero, hpad, room, mounted, Option.isNone_some, bne_self_eq_false, Bool.not_true,
    Bool.or_self, Bool.false_eq_true, if_false, if_true]
  rfl

/-! ### COMMIT, ABORT, QUERY, LOOKUP and RESOLVE (R141, R145, R151, R164) -/

/-- `t` differs from `s` in tacks alone, of what a request of Cinch may reach. -/
structure TacksOnly (s t : State) : Prop where
  cn : t.cn = s.cn
  mem : t.mem = s.mem
  pc : t.pc = s.pc

theorem TacksOnly.trans {t u : State} (h : TacksOnly s t) (g : TacksOnly t u) : TacksOnly s u :=
  ⟨g.cn.trans h.cn, g.mem.trans h.mem, g.pc.trans h.pc⟩

theorem TacksOnly.foldl {f : State → Action → State} (hf : ∀ u a, TacksOnly u (f u a)) (as : List Action) (s : State) :
    TacksOnly s (as.foldl f s) :=
  List.foldlRecOn as f ⟨rfl, rfl, rfl⟩ fun u hu a _ => hu.trans (hf u a)

theorem handled_ok (hown : handleOk s r c h true = true) (hst : (getCinch s (h % 4096)).st = 1) :
    (!handleOk s r c h true || (getCinch s (h % 4096)).st != 1) = false := by
  rw [hown, hst]
  rfl

/-- The Cinch that a COMMIT leaves COMMITTING. -/
def committedCinch (now : Nat) (y : Cinch) : Cinch :=
  { y with
    st := 2, commitAt := now, commitPending := true,
    envelopeDurable := !(y.actions.any (fun a => a.typ == 2 && a.sub == 1)) }

/-- A COMMIT asks for the bounds of the tacks of its TACK_ADDs (R198). -/
def boundsAsked (s : State) (x : Cinch) (u : State) : State :=
  (x.actions.filter (fun a => a.typ = 3 && a.sub = 2)).foldl (fun st a =>
    updTack a.tack (fun t => if t.volatile ∨ t.count + tackReserved s a.tack ≤ t.bound then t
      else { t with boundNext := some (min (t.count + tackReserved s a.tack + leaseEff s) t.limit) }) st) u

/-- It writes the envelopes of its INSTALLs (R192). -/
def envelopesWritten (x : Cinch) (u : State) : State :=
  (x.actions.filter (fun a => a.typ = 2 && a.sub = 1)).foldl (fun st a => writeEnvelope a.tack id st) u

theorem boundsAsked_tacksOnly (s : State) (x : Cinch) (u : State) : TacksOnly u (boundsAsked s x u) := by
  unfold boundsAsked
  refine .foldl (fun v a => ?_) _ u
  exact ⟨rfl, rfl, rfl⟩

theorem envelopesWritten_tacksOnly (x : Cinch) (u : State) : TacksOnly u (envelopesWritten x u) := by
  unfold envelopesWritten
  refine .foldl (fun v a => ?_) _ u
  exact ⟨rfl, rfl, rfl⟩

/-- A COMMIT makes its Cinch COMMITTING; besides, it changes tacks alone. -/
theorem cinchCommit_passed (hzero : zeroSpan b 0 64 = true) (hown : handleOk s r c h true = true)
    (hst : (getCinch s (h % 4096)).st = 1) :
    ∃ u, TacksOnly (updCinch (h % 4096) (committedCinch s.tick) s) u ∧
      cinchCommit r c b h s = addReq (cnReq r c 3 (h % 4096) h (s.tick + 1) none) u := by
  refine ⟨_, (boundsAsked_tacksOnly s (getCinch s (h % 4096)) _).trans
    (envelopesWritten_tacksOnly (getCinch s (h % 4096)) _), ?_⟩
  simp only [cinchCommit, firstStatus, hzero, handled_ok hown hst, Bool.not_true, Bool.false_eq_true, if_false, ne_eq,
    not_true_eq_false]
  rfl

theorem cinchAbort_passed (hzero : zeroSpan b 0 64 = true) (hown : handleOk s r c h true = true)
    (hst : (getCinch s (h % 4096)).st = 1) :
    cinchAbort r c b h s =
      addReq (cnReq r c 4 (h % 4096) h (s.tick + 1) none) (markAbort (h % 4096) 1 stAborted 255 s) := by
  simp only [cinchAbort, firstStatus, hzero, handled_ok hown hst, Bool.not_true, Bool.false_eq_true, if_false, ne_eq,
    not_true_eq_false]

theorem cinchQuery_passed (hzero : zeroSpan b 0 64 = true) (hown : handleOk s r c h false = true) :
    cinchQuery r c b h s = addReq (cnReq r c 5 (h % 4096) h (s.tick + 1) none) s := by
  simp only [cinchQuery, firstStatus, hzero, hown, Bool.not_true, Bool.false_eq_true, if_false, ne_eq, not_true_eq_false]

theorem cinchLookup_passed (h0 : zeroSpan b 0 4 = true) (htable : field b 4 4 ≤ 255) (h8 : zeroSpan b 8 8 = true)
    (h18 : zeroSpan b 0x18 4 = true) (h3C : zeroSpan b 0x3C 4 = true) (hpad : (s.paddock r.paddock).st = 1)
    (hstore : s.pm.nandFail = false) :
    cinchLookup r c b 0 s = addReq { cnReq r c 6 4096 0 (s.tick + 1) none with
      waitsStore := true, dest := field b 0x10 8, vkey := (b.drop 0x1C).take 32, table := field b 4 4 } s := by
  have table : decide (255 < field b 4 4) = false := decide_eq_false (Nat.not_lt.2 htable)
  simp only [cinchLookup, firstStatus, h0, h8, h18, h3C, table, hpad, hstore, bne_self_eq_false, Bool.not_true, Bool.or_self,
    Bool.false_eq_true, if_false, ne_eq, not_true_eq_false]

theorem cinchResolve_passed (hdest : byteAt b 0 ≤ 4) (hzero : zeroSpan b 1 63 = true) (hown : handleOk s r c h false = true)
    (hst : (getCinch s (h % 4096)).st = 5) (hforced : (getCinch s (h % 4096)).outcomeForced = 0)
    (hcard : (extAction (getCinch s (h % 4096))).any (fun p => p.2.typ == 7) = false ∨ byteAt b 0 = 0) :
    cinchResolve r c b h s = addReq { cnReq r c 7 (h % 4096) h (s.tick + 1) none with
      waitsCard := true, dest := byteAt b 0 } s := by
  have iface : decide (4 < byteAt b 0) = false := decide_eq_false (Nat.not_lt.2 hdest)
  have card : ((extAction (getCinch s (h % 4096))).any (fun p => p.2.typ == 7) && byteAt b 0 != 0) = false := by
    obtain h | h := hcard
    · rw [h, Bool.false_and]
    · rw [h, bne_self_eq_false, Bool.and_false]
  simp only [cinchResolve, firstStatus, iface, card, hzero, hown, hst, hforced, bne_self_eq_false, Bool.not_true, Bool.or_self,
    Bool.false_eq_true, if_false, ne_eq, not_true_eq_false]

/-! ### STAGE (R142, R150) -/

/-- A read for a request that gives its bytes changes nothing. -/
theorem cinchRead_clean {a n : Nat} {d : List Byte} (h : cinchRead r a n s = (some d, false, s1)) : s1 = s := by
  unfold cinchRead at h
  split at h
  · dsimp only at h
    split at h
    · cases h
    next hrefused =>
      split at h
      · cases h
      next hecc =>
        obtain ⟨-, rfl⟩ := Prod.mk.inj (Prod.mk.inj h).2
        rw [noteRead, Option.not_isSome_iff_eq_none.1 hrefused, if_neg hecc]
  · cases h

/-- The data of a STAGE (row 6 of R150): whether a Bridle unit refused them, and the state after the read. -/
def stageRead (r : Req) (b : List Byte) (s : State) : Option (List Byte) × Bool × State :=
  if field b 0x18 4 = 0 then (some [], false, s) else cinchRead r (field b 0x10 8) (field b 0x18 4) s

theorem stageRead_clean {d : List Byte} (h : stageRead r b s = (some d, false, s1)) : s1 = s := by
  unfold stageRead at h
  split at h
  · cases h
    rfl
  · exact cinchRead_clean h

/-- A STAGE that the table passes finds room for its action. -/
theorem room_of_stageStatus {x : Cinch} {a : Action} {bad : Bool} {img : Option (List Byte)} {rec : Option Bool}
    (h : stageStatus s i x a bad img rec = stOK) : x.actions.length < 16 := by
  refine Nat.lt_of_not_le fun hfull => ?_
  have full : decide (x.actions.length ≥ 16) = true := decide_eq_true hfull
  simp only [stageStatus, firstStatus, full, Bool.or_true, Bool.true_or, if_true] at h
  exact absurd h (by decide)

/-- An action that is staged joins its Cinch, with the stall that an ALLOC draws or the tack that an ARM uses. -/
theorem stageIt_adds (i : Nat) (a : Action) (s : State) :
    ∃ a1, (getCinch (stageIt i a s).2 i).actions = (getCinch s i).actions ++ [a1] ∧ a1.typ = a.typ ∧ a1.sub = a.sub ∧
      a1.obj = a.obj ∧ a1.arg = a.arg ∧ a1.data = a.data ∧ (stageIt i a s).2.mem = s.mem ∧
      (stageIt i a s).2.pc = s.pc := by
  have adds (a1 : Action) (u : State) :
      (getCinch (updCinch i (fun x => { x with actions := x.actions ++ [a1] }) u) i).actions =
        (getCinch u i).actions ++ [a1] := by
    rw [getCinch_updCinch_self]
  unfold stageIt
  split
  · exact ⟨{ a with stall := (drawStall s).1 }, adds _ (drawStall s).2, rfl, rfl, rfl, rfl, rfl, rfl, rfl⟩
  · split
    · exact ⟨_, adds _ (pendUse _ s), rfl, rfl, rfl, rfl, rfl, rfl, rfl⟩
    · exact ⟨a, adds a s, rfl, rfl, rfl, rfl, rfl, rfl, rfl⟩

theorem stageFinish_granted {a : Action} (hroom : (getCinch s i).actions.length < 16) :
    stageFinish r c i h a false s =
      addReq { cnReq r c 2 i h (s.tick + 1)
        (some (cinchHead stOK 1 0 (getCinch s i).actions.length h (stageIt i a s).1)) with live := true } (stageIt i a s).2 := by
  simp only [stageFinish, Bool.false_eq_true, if_false, Nat.not_le.2 hroom]

/-- A STAGE on an OPEN Cinch of the requester that passes rows 1 to 5 of R150, need not wait for its tack's bound, and whose data
can be read: a VAULT action waits for the record store, a CARD_RPMB action for the card, another is taken. -/
theorem cinchStage_passed {a : Action} {d : List Byte} (ha : a = stageAction b key) (hown : handleOk s r c h true = true)
    (hst : (getCinch s (h % 4096)).st = 1) (hpad : (s.paddock r.paddock).st = 1)
    (hrow : stageStatus s (h % 4096) (getCinch s (h % 4096)) a (stageBodyBad b) (some (zeros 256)) none = stOK)
    (hstore : a.typ = 4 → s.pm.nandFail = false)
    (harm : ¬(a.typ = 1 ∧ a.sub = 3 ∧
      armWaits (stallsAfter s (getCinch s (h % 4096))) (getCinch s (h % 4096)).paddock a.obj = true))
    (hread : stageRead r b s = (some d, false, s1)) (himg : a.typ = 1 → a.sub = 2 → imageClean d = true) :
    cinchStage r c b h key s = (true,
      if a.typ = 4 then addReq { cnReq r c 2 (h % 4096) h (s.tick + 1) none with
        waitsStore := true, act := some { a with data := d } } s1
      else if a.typ = 7 then addReq { cnReq r c 2 (h % 4096) h (s.tick + 1) none with
        waitsCard := true, act := some { a with data := d } } s1
      else stageFinish r c (h % 4096) h { a with data := d } false s1) := by
  obtain rfl : s1 = s := stageRead_clean hread
  subst ha
  rw [stageRead] at hread
  have mounted : ¬((stageAction b key).typ = 4 ∧ s1.pm.nandFail = true) := fun ⟨htyp, hfail⟩ =>
    Bool.noConfusion ((hstore htyp).symm.trans hfail)
  have clean : ¬((stageAction b key).typ = 1 ∧ (stageAction b key).sub = 2 ∧ (!imageClean d) = true) :=
    fun ⟨htyp, hsub, hbad⟩ => Bool.noConfusion (hbad.symm.trans (congrArg not (himg htyp hsub)))
  have conflictless : ¬stOK = stCinchConflict := by decide
  simp only [cinchStage, hown, hst, hpad, hrow, hread, mounted, harm, clean, conflictless, beq_self_eq_true, Bool.and_self,
    if_true, ne_eq, not_true_eq_false, false_and, if_false, Option.getD_some, Option.isNone_some, Bool.not_false, Bool.false_and,
    Bool.false_eq_true, true_and]
  split
  · rfl
  · split
    · rfl
    · rfl

end Requests

/-! ### The statement -/

/-- Settles O15: each GO is one request of `cinchRequest`, which the lemma of its command evaluates. Which free slot an OPEN
takes is the model's own choice (log 22). -/
theorem cinchRequestsAct : Obligations.CinchRequestsAct := by
  unfold Obligations.CinchRequestsAct
  refine ⟨?opens, ?stages, ?others⟩
  case opens =>
    intro s c i s0 r b hfree hopc hs0 hr hb hh hclass hzero hpad hquota hslot hstore
    subst hs0 hr hb
    have opened := cinchOpen_passed (c := c) hclass hzero hpad hquota hslot hstore
    have run := exec_cinchRequest (mk := .cinchOpen) rfl hfree (congrArg BitVec.toNat hopc)
      (by rw [hh]; exact congrArg (Prod.mk true) opened)
    exact ⟨_, _, run, getCinch_setCinch_self .., rfl, fun j hj => getCinch_setCinch_ne _ _ hj, rfl, rfl, rfl⟩
  case stages =>
    intro s c i h s0 s1 r b a d hfree hopc hs0 hr hb hh hi ha hown hst hpad hrow hstore harm hread
    obtain rfl : s1 = s0 := stageRead_clean hread
    subst hs0 hr hb hi hh
    have run (himg : a.typ = 1 → a.sub = 2 → imageClean d = true) :=
      exec_cinchRequest (mk := .cinchStage) rfl hfree (congrArg BitVec.toNat hopc)
        (cinchStage_passed ha hown hst hpad hrow hstore harm hread himg)
    refine ⟨fun h4 h7 himg => ?taken, fun h4 => ?vault, fun h7 => ?card⟩
    case taken =>
      have ran := run himg
      rw [if_neg h4, if_neg h7] at ran
      obtain ⟨a1, hacts, htyp, hsub, hobj, harg, hdata, hmem, hpc⟩ :=
        stageIt_adds ((getWin 4 c 0 s).handle.toNat % 4096) { a with data := d } (started 4 c 0 s)
      have granted := stageFinish_granted (r := sampleReq s c 0) (c := c) (h := (getWin 4 c 0 s).handle.toNat)
        (a := { a with data := d }) (room_of_stageStatus hrow)
      exact ⟨ran, _, a1, ran.trans (congrArg Host.Outcome.next granted), hacts, htyp, hsub, hobj, harg, hdata, hmem, hpc⟩
    case vault =>
      have ran := run (by omega)
      rwa [if_pos h4] at ran
    case card =>
      have ran := run (by omega)
      rwa [if_neg (by omega), if_pos h7] at ran
  case others =>
    intro s c h s0 r b hfree hs0 hr hb hh
    subst hs0 hr hb hh
    refine ⟨?commit, ?abort, ?query, ?lookup, ?resolve⟩
    case commit =>
      intro hopc hzero hown hst
      obtain ⟨u, ⟨hcn, hmem, hpc⟩, hu⟩ := cinchCommit_passed hzero hown hst
      have run := exec_cinchRequest (mk := .cinchCommit) rfl hfree (congrArg BitVec.toNat hopc) (congrArg (Prod.mk true) hu)
      refine ⟨_, run, ?_, ?_, hmem, hpc⟩
      · exact (congrArg (fun n : CinchUnit => Tab.get Cinch.free n.slots _) hcn).trans (getCinch_updCinch_self ..)
      · show u.cn.reqs ++ _ = _
        rw [hcn]
        rfl
    case abort =>
      exact fun hopc hzero hown hst => exec_cinchRequest (mk := .cinchAbort) rfl hfree (congrArg BitVec.toNat hopc)
        (congrArg (Prod.mk true) (cinchAbort_passed hzero hown hst))
    case query =>
      exact fun hopc hzero hown => exec_cinchRequest (mk := .cinchQuery) rfl hfree (congrArg BitVec.toNat hopc)
        (congrArg (Prod.mk true) (cinchQuery_passed hzero hown))
    case lookup =>
      intro hopc h0 htable h8 h18 h3C hh hpad hstore
      exact exec_cinchRequest (mk := .cinchLookup) rfl hfree (congrArg BitVec.toNat hopc)
        (by rw [hh]; exact congrArg (Prod.mk true) (cinchLookup_passed h0 htable h8 h18 h3C hpad hstore))
    case resolve =>
      exact fun hopc hdest hzero hown hst hforced hcard => exec_cinchRequest (mk := .cinchResolve) rfl hfree
        (congrArg BitVec.toNat hopc) (congrArg (Prod.mk true) (cinchResolve_passed hdest hzero hown hst hforced hcard))

end Sys2Proof.Proofs
end

section
/-! Answers to Cinch requests (R137, R141, R143, R145, R160, R368, R372): what the record store's answer and a card's counter
make of a request that waits for them, and what a due result does to its window and its Cinch. -/

namespace Sys2Proof.Proofs

open Sys2Proof Sys2Proof.Machine Sys2Proof.Laws

/-- The requests of core `c` leave the engine. -/
def dropReqs (c : Nat) (s : State) : State :=
  { s with cn := { s.cn with reqs := s.cn.reqs.filter (fun x => x.core != c) } }

section Answers
variable {s s2 : State} {c : Nat} {q : CnReq} {a : Action}

/-! ### The record store (R137, R141) -/

section Store
variable (hq : s.cn.reqs.find? (fun x => x.core == c && x.waitsStore) = some q)
include hq

theorem exec_recordStoreAnswer_absent (hopc : q.opc = 6) (hv : vaultValue s q.req.paddock q.table q.vkey = none) (full : Bool) :
    exec (.recordStoreAnswer c full) s =
      .next (addReq (cnReq q.req c 6 0 0 (s.tick + 1) (some (cinchHead stOK 0 0 255 0 0xFFFFFFFF))) (dropReqs c s)) := by
  show execRecordStoreAnswer c full s = _
  simp only [execRecordStoreAnswer, hq, hopc, hv, if_true]
  rfl

theorem exec_recordStoreAnswer_found {v : List Byte} (hopc : q.opc = 6)
    (hv : vaultValue s q.req.paddock q.table q.vkey = some v) (hne : v ≠ []) (hwrite : reqWrite q.req q.dest v s = (true, s2))
    (full : Bool) :
    exec (.recordStoreAnswer c full) s =
      .next (addReq (cnReq q.req c 6 0 0 (s.tick + 1) (some (cinchHead stOK 0 0 255 0 v.length))) (dropReqs c s2)) := by
  have some_bytes : v.isEmpty = false := List.isEmpty_eq_false_iff.2 hne
  show execRecordStoreAnswer c full s = _
  simp only [execRecordStoreAnswer, hq, hopc, hv, some_bytes, hwrite, Bool.false_eq_true, if_true, if_false]
  rfl

/-- A VAULT action that waits on an OPEN Cinch is staged, or refused with its status by R150. -/
theorem exec_recordStoreAnswer_stage {status : Nat} {full : Bool} (hopc : q.opc ≠ 6) (hact : q.act = some a)
    (hst : (getCinch (dropReqs c s) q.slot).st = 1)
    (hstatus : recordStatus (dropReqs c s) q.slot (getCinch (dropReqs c s) q.slot) a q.rows full = status)
    (hdata : status = stOK → a.data = [] → a.pages = 0) :
    exec (.recordStoreAnswer c full) s = .next (
      if status = stOK then stageFinish q.req c q.slot q.handle a q.readFault (dropReqs c s)
      else refuseReq q.req c 2 q.handle status (dropReqs c s)) := by
  show execRecordStoreAnswer c full s = _
  unfold dropReqs at *
  simp only [execRecordStoreAnswer, hq, hopc, hact, hst, hstatus, ne_eq, not_true_eq_false, if_false]
  by_cases hok : status = stOK
  · have read : ¬(a.data.isEmpty && a.pages != 0 && !q.readFault) = true := by
      simp only [Bool.and_eq_true, List.isEmpty_iff, bne_iff_ne]
      exact fun ⟨⟨hempty, hpages⟩, _⟩ => hpages (hdata hok hempty)
    rw [if_neg (fun h => h hok), if_neg read, if_pos hok]
  · rw [if_pos hok, if_neg hok]

end Store

/-! ### A card's counter (R160, R368, R372) -/

section Card
variable (hq : s.cn.reqs.find? (fun x => x.core == c && x.waitsCard && x.opc == 2) = some q) (hact : q.act = some a)
  (hst : (getCinch s q.slot).st = 1)
include hq hact hst

/-- A counter that was read stages the action where the response is believed and the card's counter has not expired. -/
theorem exec_stageCounterRead_ready {ans : ExAnswer} {k : Nat} (hready : (getMc s a.obj).ready = true)
    (hread : cardCounter a ans.kind ans.data (dropReqs c s) = (k, s2)) :
    exec (.stageCounterRead c ans) s = .next (
      if (getMc s2 a.obj).expired = true then refuseReq q.req c 2 q.handle stDenied s2
      else if k = 0 then stageFinish q.req c q.slot q.handle
        { a with cidHash := cidHash (getMc s a.obj).cid, wstaged := rpmbCount ans.data } false s2
      else refuseReq q.req c 2 q.handle (if k = 3 then stCheckFail else stMediaError) s2) := by
  show execStageCounterRead c ans s = _
  unfold dropReqs at hread
  simp only [execStageCounterRead, hq, hact, hst, hready, hread, firstStatus, bne_self_eq_false, Bool.not_true,
    Bool.false_eq_true, if_false, if_true]
  by_cases hexpired : (getMc s2 a.obj).expired = true
  · simp [hexpired, stDenied, stOK]
  · by_cases hk : k = 0
    · simp [hexpired, hk]
    · by_cases hk3 : k = 3
      · simp [hexpired, hk3, stCheckFail, stOK]
      · simp [hexpired, hk, hk3, stMediaError, stOK]

theorem exec_stageCounterRead_absent {ans : ExAnswer} (hready : (getMc s a.obj).ready = false) :
    exec (.stageCounterRead c ans) s = .next (refuseReq q.req c 2 q.handle stCardAbsent (dropReqs c s)) := by
  have refused : stCardAbsent ≠ stOK := by decide
  show execStageCounterRead c ans s = _
  simp only [execStageCounterRead, hq, hact, hst, hready, firstStatus, bne_self_eq_false, Bool.not_false, Bool.false_eq_true,
    if_false, if_true, refused, ne_eq, not_false_eq_true]
  rfl

end Card
end Answers

/-! ### Results (R143, R145) -/

section Results
variable {s : State} {c : Nat} {q : CnReq} {head : List Byte}

/-- The result of a request as it is written: of a QUERY or ABORT what the slot says now, of a STAGE or a refusal what was kept,
with the STATE and CAUSE of now. -/
def resultHead (s : State) (q : CnReq) : List Byte :=
  match q.result with
  | none => slotHead (getCinch s q.slot) q.slot
  | some hd => if q.live then liveHead (getCinch s q.slot) q.slot q.handle hd else hd

/-- A result that carries an ending collects the Cinch that ended. -/
def resultCollects (s : State) (q : CnReq) (head : List Byte) : Bool :=
  byteAt head 1 == 7 && (getCinch s q.slot).st == 7 && cinchHandle (getCinch s q.slot) q.slot == q.handle && !q.live

/-- A result goes to the window of core `c`. -/
def writeResult (c : Nat) (head : List Byte) (s : State) : State :=
  { s with cn := { s.cn with
    reqs := s.cn.reqs.filter (fun y => y.core != c),
    wins := Tab.upd Win.reset s.cn.wins c (fun w => w.finish (head ++ natToLE 4 s.stride)) } }

/-- The state once the result is written, its ending collected. -/
def requestDone (c : Nat) (q : CnReq) (head : List Byte) (s : State) : State :=
  if resultCollects s q head then freeCinch q.slot (writeResult c head s) else writeResult c head s

theorem requestDone_frame (c : Nat) (q : CnReq) (head : List Byte) (s : State) :
    (requestDone c q head s).cn.reqs = s.cn.reqs.filter (fun y => y.core != c) ∧
      (requestDone c q head s).cn.wins = Tab.upd Win.reset s.cn.wins c (fun w => w.finish (head ++ natToLE 4 s.stride)) ∧
      (requestDone c q head s).mem = s.mem := by
  unfold requestDone
  split
  · exact ⟨rfl, rfl, rfl⟩
  · exact ⟨rfl, rfl, rfl⟩

theorem requestDone_frees (hends : byteAt head 1 = 7) (hst : (getCinch s q.slot).st = 7)
    (hhandle : cinchHandle (getCinch s q.slot) q.slot = q.handle) (hlive : q.live = false) :
    (getCinch (requestDone c q head s) q.slot).st = 0 := by
  have ending : resultCollects s q head = true := by
    rw [resultCollects, hends, hst, hhandle, hlive, beq_self_eq_true, beq_self_eq_true]
    rfl
  rw [requestDone, if_pos ending, freeCinch, getCinch_updCinch_self]
  rfl

theorem requestDone_slots (hkept : byteAt head 1 ≠ 7 ∨ q.live = true) : (requestDone c q head s).cn.slots = s.cn.slots := by
  have standing : resultCollects s q head = false := by
    obtain h | h := hkept
    · rw [resultCollects, beq_false_of_ne h]
      rfl
    · rw [resultCollects, h, Bool.not_true, Bool.and_false]
  rw [requestDone, standing]
  rfl

theorem exec_cinchRequestComplete (hq : s.cn.reqs.find? (fun x => x.core == c) = some q) (hdue : q.due ≤ s.tick)
    (hstore : q.waitsStore = false) (hcard : q.waitsCard = false) (hknown : q.result = none → q.opc ≠ 3 ∧ q.opc ≠ 7)
    (hhead : resultHead s q = head) :
    exec (.cinchRequestComplete c) s =
      .next (tellCore (getWin 4 c 0 s).ie c 3 q.req.paddock (requestDone c q head s)) := by
  have go : ¬(s.tick < q.due ∨ q.waitsStore = true ∨ q.waitsCard = true ∨
      (q.result.isNone = true ∧ (q.opc = 3 ∨ q.opc = 7))) := by
    rw [hstore, hcard]
    rintro (h | h | h | ⟨hnone, hopc⟩)
    · omega
    · cases h
    · cases h
    · have := hknown (Option.isNone_iff_eq_none.1 hnone)
      omega
  subst hhead
  show execCinchRequestComplete c s = _
  simp only [execCinchRequestComplete, hq, if_neg go]
  rfl

theorem tellCore_cn (ie : Bool) (c i p : Nat) (s : State) : (tellCore ie c i p s).cn = s.cn := by
  cases ie
  · rfl
  · rfl

end Results

/-! ### The statement -/

/-- Settles O16, answer by answer. CARD_ABSENT, CHECK_FAIL and MEDIA_ERROR of a card's counter at staging are the model's own
choice (log 111). -/
theorem cinchAnswersComplete : Obligations.CinchAnswersComplete := by
  unfold Obligations.CinchAnswersComplete
  intro s c q s1 hs1
  obtain rfl : s1 = dropReqs c s := hs1
  refine ⟨?lookup, ?vault, ?card, ?result⟩
  case lookup =>
    exact fun hq hopc => ⟨exec_recordStoreAnswer_absent hq hopc, fun v s2 hv hne hwrite =>
      exec_recordStoreAnswer_found hq hopc hv hne hwrite⟩
  case vault =>
    intro a full hq hopc hact hst
    refine ⟨fun hok hdata hread => ?_, fun hne => ?_⟩
    · rw [exec_recordStoreAnswer_stage hq hopc hact hst rfl fun _ => hdata, if_pos hok, hread]
    · rw [exec_recordStoreAnswer_stage hq hopc hact hst rfl fun hok => absurd hok hne, if_neg hne]
  case card =>
    exact fun a ans hq hact hst => ⟨fun hready k s2 hread => exec_stageCounterRead_ready hq hact hst hready hread,
      fun hready => exec_stageCounterRead_absent hq hact hst hready⟩
  case result =>
    intro hq hdue hstore hcard head hhead
    have ⟨written, known⟩ : resultHead s q = head ∧ (q.result = none → q.opc ≠ 3 ∧ q.opc ≠ 7) := by
      obtain ⟨hlive, hres | ⟨hres, h3, h7, rfl⟩⟩ | ⟨h0, hlive, hres, rfl⟩ := hhead
      · simp [resultHead, hres, hlive]
      · simp [resultHead, hres, h3, h7]
      · simp [resultHead, hres, hlive]
    obtain ⟨hreqs, hwins, hmem⟩ := requestDone_frame c q head s
    obtain ⟨-, -, told_mem, told_pend, -⟩ :=
      tellCore_spec (getWin 4 c 0 s).ie c q.req.paddock (by decide : 3 < 32) (requestDone c q head s)
    refine ⟨_, exec_cinchRequestComplete hq hdue hstore hcard known written, ?_, ?_, told_mem.trans hmem, ?_, ?_, told_pend⟩
    · rw [tellCore_cn, hreqs]
    · rw [tellCore_cn, hwins]
    · intro hlive hends hst hhandle
      rw [getCinch, tellCore_cn]
      exact requestDone_frees hends hst hhandle hlive
    · intro hkept
      rw [tellCore_cn, requestDone_slots hkept]

end Sys2Proof.Proofs
end

section
/-! From the decision point to APPLY (R145–R147, R157, R158, R165–R168): the batch of a stride, the decision point, a batch
that becomes durable, and the timeout. -/

namespace Sys2Proof.Proofs

open Sys2Proof Sys2Proof.Machine Sys2Proof.Laws

/-! ### The batch of this stride (R166) -/

section Batch
variable (s : State) (rs : List (List Byte))

theorem openBatch_spec : (openBatch s).stride = s.stride ∧ (openBatch s).durable = false := by
  unfold openBatch
  split
  · split
    next h => exact ⟨h.1, (Bool.not_eq_true' _).mp h.2⟩
    next => exact ⟨rfl, rfl⟩
  · exact ⟨rfl, rfl⟩

/-- This stride's batch once records have joined it: a header anew, the records before, and the new ones sealed. -/
def batchWith : JBatch :=
  let recs := (openBatch s).recs.drop 1 ++ rs.zipIdx.map (fun p => jSealed (nextRecord s + p.2) p.1)
  { openBatch s with recs := jSealed (openBatch s).first (batchHeader s (openBatch s).first (recs.length + 1)) :: recs }

theorem putRecords_last : (putRecords rs s).cn.journal.getLast? = some (batchWith s rs) := List.getLast?_concat

theorem batchWith_stride : (batchWith s rs).stride = s.stride := (openBatch_spec s).1

/-- A record that joins stands sealed in the batch. -/
theorem mem_batchWith {rs : List (List Byte)} {r : List Byte} (h : r ∈ rs) : ∃ j, jSealed j r ∈ (batchWith s rs).recs := by
  obtain ⟨k, hk, rfl⟩ := List.mem_iff_getElem.1 h
  refine ⟨nextRecord s + k, List.mem_cons_of_mem _ (List.mem_append_right _ (List.mem_map.2 ⟨(rs[k], k), ?_, rfl⟩))⟩
  exact List.mem_zipIdx_iff_getElem?.2 (List.getElem?_eq_getElem hk)

end Batch

/-! ### The decision point (R146, R167, R168) -/

section Decision
variable {s : State} {i : Nat} {x : Cinch}

/-- The place of a decision: its own slot taken, where the Cinch is a paddock's. -/
def commitSlotTaken (x : Cinch) (s : State) : State := if x.custody then s else takeCommitSlot x.paddock s

/-- A commit slot taken leaves the journal, the Cinches and all other units. -/
theorem commitSlotTaken_frame (x : Cinch) (s : State) :
    openBatch (commitSlotTaken x s) = openBatch s ∧ (commitSlotTaken x s).cn.slots = s.cn.slots ∧
      (commitSlotTaken x s).mem = s.mem ∧ (commitSlotTaken x s).tk = s.tk ∧ (commitSlotTaken x s).pc = s.pc ∧
      (commitSlotTaken x s).time = s.time := by
  unfold commitSlotTaken
  split
  · exact ⟨rfl, rfl, rfl, rfl, rfl, rfl⟩
  · exact ⟨rfl, rfl, rfl, rfl, rfl, rfl⟩

/-- The Cinch of a DURABLE decision whose DECIDE record is `d`. -/
def decidedCinch (x : Cinch) (d stride : Nat) : Cinch := { x with st := 3, dseq := d, decidedAt := stride, batchDurable := false }

section Ready
variable (hready : decisionReady s x = true)
  (hslot : x.durable = true → x.custody = false → commitSlotFree s x.paddock = true)
include hready hslot

/-- Nothing holds the decision point up. -/
theorem decision_open : (!decisionReady s x || (x.durable && !x.custody && !commitSlotFree s x.paddock)) = false := by
  rw [hready, Bool.not_true, Bool.false_or, Bool.and_eq_false_imp, Bool.and_eq_true, Bool.not_eq_true', Bool.not_eq_false']
  exact fun ⟨hdur, hcust⟩ => hslot hdur hcust

variable (hx : x = getCinch s i)
include hx

theorem exec_cinchDecision_fails {k : Nat} (hfail : failingAction s i x = some k) :
    exec (.cinchDecision i) s = .next (markAbort i 2 stDenied k s) := by
  have go := decision_open hready hslot
  subst hx
  show execCinchDecision i s = _
  simp only [execCinchDecision, go, hfail, Bool.false_eq_true, if_false]

theorem exec_cinchDecision_volatile (hfail : failingAction s i x = none) (hvol : x.durable = false) :
    exec (.cinchDecision i) s = .next (applyCinch i s) := by
  have go := decision_open hready hslot
  subst hx
  show execCinchDecision i s = _
  simp only [execCinchDecision, go, hfail, Bool.false_eq_true, if_false]
  rw [hvol]
  rfl

theorem exec_cinchDecision_durable (hfail : failingAction s i x = none) (hdur : x.durable = true) {d : Nat}
    {rs : List (List Byte)}
    (hd : d = nextRecord s + (intentRecords x (cinchHandle x i) 0).length) (hrs : rs = intentRecords x (cinchHandle x i) d) :
    exec (.cinchDecision i) s = .next (putRecords (rs ++ [decideRecord x (cinchHandle x i) d s.stride rs])
      (setCinch i (decidedCinch x d s.stride) (commitSlotTaken x s))) := by
  have go := decision_open hready hslot
  have next : nextRecord (commitSlotTaken x s) = nextRecord s := by rw [nextRecord, (commitSlotTaken_frame x s).1, nextRecord]
  rw [← next] at hd
  subst hx hrs hd
  show execCinchDecision i s = _
  simp only [execCinchDecision, go, hfail, Bool.false_eq_true, if_false]
  rw [if_neg (by rw [hdur]; exact Bool.false_ne_true)]
  rfl

end Ready
end Decision

/-! ### A batch becomes durable (R158, R166, R169) -/

section Durable
variable {s : State} {batch : Nat}

/-- A Cinch as the batch of a stride becomes durable: a decision in it applies in the next stride, an outcome in it counts. -/
def batchReaches (s : State) (batch : Nat) (x : Cinch) : Cinch :=
  if (x.st = 3 ∨ x.st = 4) ∧ x.decidedAt = batch ∧ !x.batchDurable then
    { x with batchDurable := true, applyDue := s.tick + 1 }
  else if x.st = 5 ∧ x.outcome ≠ 0 ∧ outcomeIn s batch x.dseq then { x with outcomeDurable := true } else x

/-- The batch of a stride is durable, and the Cinches see it. -/
def landBatch (batch : Nat) (s : State) : State :=
  { s with cn := { s.cn with
    journal := s.cn.journal.map (fun b => if b.stride = batch then { b with durable := true } else b),
    slots := Tab.mapVals Cinch.free (fun _ x => batchReaches s batch x) s.cn.slots } }

/-- A checkpoint that is written. -/
def landCheckpoint (k : Checkpoint) (s : State) : State :=
  { s with cn := { s.cn with ckpt := k.ckid, ckptCounters := k.counters, ckptNext := none } }

/-- The state before the journal is reclaimed: the checkpoint that the batch names is written with it. -/
def batchLanded (batch : Nat) (s : State) : State :=
  match s.cn.ckptNext with
  | some k => if k.stride = batch then landCheckpoint k (landBatch batch s) else landBatch batch s
  | none => landBatch batch s

theorem exec_journalBatchDurable (h : batch < s.stride) :
    exec (.journalBatchDurable batch) s = .next (reclaimJournal (batchLanded batch s)) :=
  if_neg (Nat.not_le.2 h)

theorem batchLanded_named {k : Checkpoint} (hk : s.cn.ckptNext = some k) (hb : k.stride = batch) :
    batchLanded batch s = landCheckpoint k (landBatch batch s) := by
  simp only [batchLanded, hk, if_pos hb]

theorem batchLanded_unnamed (hk : ∀ k, s.cn.ckptNext = some k → k.stride ≠ batch) :
    batchLanded batch s = landBatch batch s := by
  unfold batchLanded
  split
  next k hnext => exact if_neg (hk k hnext)
  next => rfl

/-- What a reclaim keeps of `u` (R169, R170): batches not durable, records with a value, and all but the journal and the vault. -/
structure Reclaims (u t : State) : Prop where
  durable : ∀ b ∈ t.cn.journal, b ∈ u.cn.journal
  unfinished : ∀ b ∈ u.cn.journal, b.durable = false → b ∈ t.cn.journal
  vault : ∀ v ∈ u.cn.vault, v.value ≠ none → v ∈ t.cn.vault
  slots : t.cn.slots = u.cn.slots
  ckpt : t.cn.ckpt = u.cn.ckpt
  ckptCounters : t.cn.ckptCounters = u.cn.ckptCounters
  ckptNext : t.cn.ckptNext = u.cn.ckptNext
  counters : t.cn.counters = u.cn.counters
  mem : t.mem = u.mem
  tk : t.tk = u.tk

theorem reclaims_reclaimJournal (u : State) : Reclaims u (reclaimJournal u) where
  durable _ hb := (List.mem_filter.1 hb).1
  unfinished b hb hopen := List.mem_filter.2 ⟨hb, by rw [hopen]; rfl⟩
  vault v hv hval := List.mem_filter.2 ⟨hv, by rw [Option.isSome_iff_ne_none.2 hval]; rfl⟩
  slots := rfl
  ckpt := rfl
  ckptCounters := rfl
  ckptNext := rfl
  counters := rfl
  mem := rfl
  tk := rfl

/-- Every batch of that stride is durable, and one of another stride is as it was. -/
theorem landBatch_journal (s : State) (batch : Nat) :
    (∀ b ∈ (landBatch batch s).cn.journal, b.stride = batch → b.durable = true) ∧
      ∀ b ∈ s.cn.journal, b.stride ≠ batch → b ∈ (landBatch batch s).cn.journal := by
  refine ⟨fun b hb hstride => ?_, fun b hb hstride => List.mem_map.2 ⟨b, hb, if_neg hstride⟩⟩
  obtain ⟨a, -, rfl⟩ := List.mem_map.1 hb
  by_cases ha : a.stride = batch
  · rw [if_pos ha]
  · rw [if_neg ha] at hstride
    exact absurd hstride ha

end Durable

/-! ### APPLY (R147, R158, R165) and the timeout (R145, R157) -/

section Apply
variable {s : State} {i : Nat}

theorem exec_cinchApply_decided (hst : (getCinch s i).st = 3) (hbatch : (getCinch s i).batchDurable = true)
    (hdue : (getCinch s i).applyDue ≤ s.tick) (hext : (getCinch s i).external = false) :
    exec (.cinchApply i) s = .next (applyCinch i s) := by
  show execCinchApply i s = _
  simp [execCinchApply, hst, hbatch, hdue, hext]

theorem exec_cinchApply_copies (hst : (getCinch s i).st = 6) (hdue : (getCinch s i).applyDue ≤ s.tick) :
    exec (.cinchApply i) s = .next (applyCopies i s) := by
  show execCinchApply i s = _
  simp [execCinchApply, hst, hdue]

theorem exec_cinchApply_applied (hst : (getCinch s i).st = 4) (hout : (getCinch s i).outcome = 1)
    (hdue : (getCinch s i).applyDue ≤ s.tick) : exec (.cinchApply i) s = .next (applyCinch i s) := by
  show execCinchApply i s = _
  simp [execCinchApply, hst, hout, hdue]

theorem exec_cinchApply_forced (hst : (getCinch s i).st = 5) (hdur : (getCinch s i).outcomeDurable = true)
    (hforced : (getCinch s i).outcomeForced ≠ 0) :
    exec (.cinchApply i) s = .next (
      if (getCinch s i).outcomeForced = 1 then applyCinch i (updCinch i (fun y => { y with cause := 0x12 }) s)
      else abortCinch i 0x13 stAborted 255 (journalClosed i s)) := by
  show execCinchApply i s = _
  simp only [execCinchApply, hst, hdur, hforced, ne_eq, not_false_eq_true, and_self, if_true, Nat.reduceEqDiff, false_and,
    if_false]
  split
  · rfl
  · rfl

section Timeout
variable (htime : (getCinch s i).openedAt + cinchTimeout s ≤ s.tick) (hcmd : (getCinch s i).cmd = none)
include htime hcmd

theorem exec_cinchTimeout_undecided (hund : (getCinch s i).undecided = true) (hcause : (getCinch s i).abortCause = 0) :
    exec (.cinchTimeout i) s = .next (setEvent 5 3 (markAbort i 5 stAborted 255 s)) := by
  show execCinchTimeout i s = _
  simp [execCinchTimeout, htime, hcmd, hund, hcause]

theorem exec_cinchTimeout_ended (hst : (getCinch s i).st = 7) :
    exec (.cinchTimeout i) s = .next (freeCinch i
      (pushNoteq (cinchHandle (getCinch s i) i) (getCinch s i).paddock (getCinch s i).status (getCinch s i).cause s)) := by
  show execCinchTimeout i s = _
  simp [execCinchTimeout, htime, hcmd, hst, Cinch.undecided]

end Timeout

theorem pushNoteq_slots (h p st cause : Nat) (s : State) : (pushNoteq h p st cause s).cn.slots = s.cn.slots := by
  unfold pushNoteq
  split
  · rfl
  · rw [setEvent_cn]

/-- A slot that is freed keeps its SEQ. -/
theorem freeCinch_slot (i : Nat) (s : State) :
    (getCinch (freeCinch i s) i).st = 0 ∧ (getCinch (freeCinch i s) i).seq = (getCinch s i).seq := by
  rw [freeCinch, getCinch_updCinch_self]
  exact ⟨rfl, rfl⟩

end Apply

/-! ### The statement -/

/-- Settles O17, clause by clause. That a checkpoint is durable with the batch that names it is the model's own choice
(log 150). -/
theorem cinchDecidesAndApplies : Obligations.CinchDecidesAndApplies := by
  unfold Obligations.CinchDecidesAndApplies
  intro s i x hx
  refine ⟨?decision, ?durable, ?applies, ?copies, ?known, ?forced, ?timeout⟩
  case decision =>
    intro hready hslot
    refine ⟨fun k => exec_cinchDecision_fails hready hslot hx, exec_cinchDecision_volatile hready hslot hx, ?_⟩
    intro hfail hdur d rs all hd hrs hall
    have run := exec_cinchDecision_durable hready hslot hx hfail hdur hd hrs
    rw [← hall] at run
    obtain ⟨hbatch, hslots, hmem, htk, hpc, htime⟩ := commitSlotTaken_frame x s
    have opened : openBatch (setCinch i (decidedCinch x d s.stride) (commitSlotTaken x s)) = openBatch s := hbatch
    have next : nextRecord (setCinch i (decidedCinch x d s.stride) (commitSlotTaken x s)) = nextRecord s := by
      rw [nextRecord, opened, nextRecord]
    refine ⟨_, _, run, putRecords_last .., ?_, ?_, ?_, ?_, ?_, getCinch_setCinch_self .., fun j hj => ?_, hmem, htk, hpc⟩
    · exact (congrArg JBatch.stride opened).trans (openBatch_spec s).1
    · exact (congrArg JBatch.durable opened).trans (openBatch_spec s).2
    · exact (congrArg JBatch.first opened).trans rfl
    · show (openBatch _).recs.drop 1 ++ all.zipIdx.map (fun p => jSealed (nextRecord _ + p.2) p.1) = _
      rw [opened, next]
    · exact congrArg (· + all.length) next
    · refine (getCinch_setCinch_ne _ _ hj).trans ?_
      rw [getCinch, hslots, getCinch]
  case durable =>
    intro batch hbatch
    obtain ⟨batch_durable, others⟩ := landBatch_journal s batch
    have keeps := reclaims_reclaimJournal (batchLanded batch s)
    rw [exec_journalBatchDurable hbatch]
    by_cases hnamed : ∃ k, s.cn.ckptNext = some k ∧ k.stride = batch
    · obtain ⟨k, hk, hb⟩ := hnamed
      rw [batchLanded_named hk hb] at keeps ⊢
      refine ⟨_, rfl, fun b h => batch_durable b (keeps.durable b h),
        fun b h hne hopen => keeps.unfinished b (others b h hne) hopen, keeps.slots, fun k' hk' _ => ?_,
        fun hother => absurd hb (hother k hk), keeps.vault, keeps.counters, keeps.mem, keeps.tk⟩
      cases hk.symm.trans hk'
      exact ⟨keeps.ckpt, keeps.ckptCounters, keeps.ckptNext⟩
    · have hother (k : Checkpoint) (hk : s.cn.ckptNext = some k) : k.stride ≠ batch := fun hb => hnamed ⟨k, hk, hb⟩
      rw [batchLanded_unnamed hother] at keeps ⊢
      exact ⟨_, rfl, fun b h => batch_durable b (keeps.durable b h),
        fun b h hne hopen => keeps.unfinished b (others b h hne) hopen, keeps.slots, fun k hk hb => absurd hb (hother k hk),
        fun _ => ⟨keeps.ckpt, keeps.ckptCounters, keeps.ckptNext⟩, keeps.vault, keeps.counters, keeps.mem, keeps.tk⟩
  all_goals subst hx
  case applies => exact exec_cinchApply_decided
  case copies => exact exec_cinchApply_copies
  case known => exact exec_cinchApply_applied
  case forced =>
    intro hst hdur
    refine ⟨fun h1 => ?_, fun h2 => ?_⟩
    · rw [exec_cinchApply_forced hst hdur (by omega), if_pos h1]
    · rw [exec_cinchApply_forced hst hdur (by omega), if_neg (by omega)]
  case timeout =>
    intro htime hcmd
    refine ⟨exec_cinchTimeout_undecided htime hcmd, fun hst => ⟨_, exec_cinchTimeout_ended htime hcmd hst, ?_⟩⟩
    obtain ⟨hfree, hseq⟩ := freeCinch_slot i (pushNoteq (cinchHandle (getCinch s i) i) (getCinch s i).paddock
      (getCinch s i).status (getCinch s i).cause s)
    refine ⟨hfree, hseq.trans ?_, ?_⟩
    · rw [getCinch, pushNoteq_slots, getCinch]
    · rw [freeCinch, Laws.updCinch_mem, pushNoteq_mem]

end Sys2Proof.Proofs
end

section
/-! External writes of a Cinch (R158, R160–R164, R368): when one starts, what its end says, and what a resolution finds. -/

namespace Sys2Proof.Proofs

open Sys2Proof Sys2Proof.Machine Sys2Proof.Laws

section External
variable {s s1 : State} {i idx : Nat} {act : Action} {ans : ExAnswer} (hact : extAction (getCinch s i) = some (idx, act))

/-! ### The object of an external action (R148) -/

theorem extCode_card {act : Action} (htyp : act.typ = 7) : extCode act = 0x10 + act.obj := if_pos htyp

theorem extCode_token {act : Action} (htyp : act.typ = 8) : extCode act = if act.obj = 4 then 0x20 else act.obj :=
  if_neg (by omega)

/-- What follows a read-back, by its finding. -/
theorem outcome_of_finding (f : Nat) (applied notApplied doubt : State) :
    (match f with
      | 1 => .next applied
      | 2 => .next notApplied
      | _ => .next doubt : Host.Outcome State Fault Refusal) =
      .next (if f = 1 then applied else if f = 2 then notApplied else doubt) := by
  split
  · rfl
  · rfl
  next h1 h2 => rw [if_neg h1, if_neg h2]

/-! ### Start (R158, R160) -/

section Start
variable (hst : (getCinch s i).st = 3) (hbatch : (getCinch s i).batchDurable = true) (hdue : (getCinch s i).applyDue ≤ s.tick)
  (hfree : exBusy s (extCode act) = false)
include hact hst hbatch hdue hfree

/-- A card's write starts where the CID is the one staged and the card's counter is the staged one. -/
theorem exec_cinchExternalWrite_card (htyp : act.typ = 7) (hobj : act.obj < 2) (hready : (getMc s act.obj).ready = true) {k : Nat}
    (hread : cardCounter act ans.kind ans.data s = (k, s1)) :
    exec (.cinchExternalWrite i ans) s = .next (
      if cidHash (getMc s act.obj).cid ≠ act.cidHash then extNotApplied i 0x09 stCardAbsent idx s
      else if k = 0 ∧ rpmbCount ans.data = act.wstaged then setExt (extCode act) (some i)
        (updCinch i (fun y => { y with st := 4, applyDue := 0 }) (sendCardWrite act s1))
      else extNotApplied i 0x0A stMediaError idx s1) := by
  have go : ¬((getCinch s i).st ≠ 3 ∨ (!(getCinch s i).batchDurable) = true ∨ s.tick < (getCinch s i).applyDue ∨
      exBusy s (extCode act) = true ∨ extCode act = 0x20 ∧ s.nf.resetting = true) := by
    have other : extCode act ≠ 0x20 := by rw [extCode_card htyp]; omega
    simp [hst, hbatch, hdue, hfree, other]
  show execCinchExternalWrite i ans s = _
  simp only [execCinchExternalWrite, hact, if_neg go, htyp, hready, hread, if_true, Bool.not_true, Bool.false_or, bne_iff_ne]
  by_cases hcid : cidHash (getMc s act.obj).cid ≠ act.cidHash
  · rw [if_pos hcid, if_pos hcid]
  · by_cases hcount : k = 0 ∧ rpmbCount ans.data = act.wstaged
    · rw [if_neg hcid, if_neg hcid, if_pos hcount, if_neg (fun h => h.elim (· hcount.1) (· hcount.2))]
    · rw [if_neg hcid, if_neg hcid, if_neg hcount, if_pos (Decidable.not_and_iff_not_or_not.1 hcount)]

/-- A token's write starts where the token is there. -/
theorem exec_cinchExternalWrite_token (htyp : act.typ = 8) (hobj : act.obj ≤ 4)
    (hreset : act.obj = 4 → s.nf.resetting = false) {ok : Bool} (hcheck : tokenCheck act act.obj ans s = (ok, s1)) :
    exec (.cinchExternalWrite i ans) s = .next (
      if ok = true then setExt (extCode act) (some i) (updCinch i (fun y => { y with st := 4, applyDue := 0 }) s1)
      else extNotApplied i 0x09 stCardAbsent idx s1) := by
  have go : ¬((getCinch s i).st ≠ 3 ∨ (!(getCinch s i).batchDurable) = true ∨ s.tick < (getCinch s i).applyDue ∨
      exBusy s (extCode act) = true ∨ extCode act = 0x20 ∧ s.nf.resetting = true) := by
    have settled : ¬(extCode act = 0x20 ∧ s.nf.resetting = true) := by
      rw [extCode_token htyp]
      by_cases h4 : act.obj = 4
      · simp [hreset h4]
      · simp only [h4, if_false]
        omega
    simp [hst, hbatch, hdue, hfree, settled]
  have token : ¬act.typ = 7 := by omega
  show execCinchExternalWrite i ans s = _
  simp only [execCinchExternalWrite, hact, if_neg go, if_neg token, hcheck]
  cases ok <;> rfl

end Start

/-! ### End (R158, R161–R163) -/

section End
variable (hst : (getCinch s i).st = 4)
include hact hst

/-- The rows of R162, by the step that a card's write had reached. -/
def cardEnd (i idx step : Nat) (act : Action) (k : Nat) (f : List Byte) (s : State) : State :=
  if step = 1 then extNotApplied i 0x09 stCardAbsent idx s
  else if step = 2 then extNotApplied i 0x0A stMediaError idx s
  else if step = 5 then
    if k = 0 ∧ rpmbResult f = 0 ∧ rpmbCount f = act.wstaged + 1 then extApplied i 0 s
    else if k = 0 ∧ rpmbResult f ≠ 0 ∧ rpmbCount f = act.wstaged then extNotApplied i 0x0A stMediaError idx s
    else extIndoubt i s
  else extIndoubt i s

theorem exec_externalWriteEnd_card (htyp : act.typ = 7) (hobj : act.obj < 2) (hext : (getMc s act.obj).ext = some i)
    {step k : Nat} {u : State} (hk : k = rpmbFinding (cardKey s act) none ans.kind ans.data)
    (hu : u = if step = 5 then noteRpmb act.obj k ans.data (setExt (extCode act) none s) else setExt (extCode act) none s) :
    exec (.externalWriteEnd i step ans) s = .next (cardEnd i idx step act k ans.data u) := by
  have code := extCode_card htyp
  have running : (if extCode act = 0x20 then s.nf.ext == some i else if 0x10 ≤ extCode act then
      (getMc s (extCode act - 0x10)).ext == some i else (getSc s (extCode act)).ext == some i) = true := by
    rw [if_neg (by omega), if_pos (by omega), code, Nat.add_sub_cancel_left, hext, beq_self_eq_true]
  show execExternalWriteEnd i step ans s = _
  simp only [execExternalWriteEnd, hact, running, hst, htyp, ← hk, ← hu, ne_eq, not_true_eq_false, Bool.not_true,
    Bool.false_eq_true, or_self, if_false, if_true]
  split
  · rw [cardEnd, if_pos (rfl : 1 = 1)]
  · rw [cardEnd, if_neg (by decide : ¬2 = 1), if_pos (rfl : 2 = 2)]
  · rw [cardEnd, if_neg (by decide : ¬5 = 1), if_neg (by decide : ¬5 = 2), if_pos (rfl : 5 = 5)]
    split
    · rfl
    · split
      · rfl
      · rfl
  next h1 h2 h5 => rw [cardEnd, if_neg h1, if_neg h2, if_neg h5]

/-- The rows of R161, by the step that a token's write had reached and, at step 4, its status word and its read-back. -/
def tokenEnd (i idx step : Nat) (act : Action) (ans : ExAnswer) (s : State) : State :=
  if step = 1 then
    extNotApplied i (if act.obj = 4 then 0x08 else 0x09) (if act.obj = 4 then stFieldLost else stCardAbsent) idx s
  else if step = 4 then
    if ans.sw = 0x9000 then extApplied i 0 s
    else if ans.sw / 256 = 0x62 ∨ ans.sw / 256 = 0x63 then
      if ans.kind ≠ 0 then extIndoubt i s
      else if tokFinding act ans.resp = 1 then extApplied i 0x10 s
      else if tokFinding act ans.resp = 2 then extNotApplied i 0x11 stAborted idx s
      else setEvent 5 2 (extIndoubt i s)
    else extNotApplied i 0x0A stDenied idx s
  else extIndoubt i s

theorem exec_externalWriteEnd_token (htyp : act.typ = 8) (hobj : act.obj ≤ 4) (hnf : act.obj = 4 → s.nf.ext = some i)
    (hsc : act.obj < 4 → (getSc s act.obj).ext = some i) {u : State}
    (hu : u = if act.obj = 4 then carrierOff (setExt 0x20 none s) else setExt act.obj none s) (step : Nat) :
    exec (.externalWriteEnd i step ans) s = .next (tokenEnd i idx step act ans u) := by
  have code := extCode_token htyp
  have token : ¬act.typ = 7 := by omega
  have running : (if extCode act = 0x20 then s.nf.ext == some i else if 0x10 ≤ extCode act then
      (getMc s (extCode act - 0x10)).ext == some i else (getSc s (extCode act)).ext == some i) = true := by
    by_cases h4 : act.obj = 4
    · rw [if_pos h4] at code
      rw [if_pos code, hnf h4, beq_self_eq_true]
    · rw [if_neg h4] at code
      rw [if_neg (by omega), if_neg (by omega), code, hsc (by omega), beq_self_eq_true]
  have cleared : (if act.obj = 4 then carrierOff (setExt (extCode act) none s) else setExt (extCode act) none s) = u := by
    rw [hu, code]
    split
    · rfl
    · rfl
  show execExternalWriteEnd i step ans s = _
  simp only [execExternalWriteEnd, hact, running, hst, token, cleared, ne_eq, not_true_eq_false, Bool.not_true,
    Bool.false_eq_true, or_self, if_false]
  split
  · rw [tokenEnd, if_pos (rfl : 1 = 1)]
  · rw [tokenEnd, if_neg (by decide : ¬4 = 1), if_pos (rfl : 4 = 4)]
    by_cases hok : ans.sw = 0x9000
    · rw [if_pos hok, if_pos hok]
    · rw [if_neg hok, if_neg hok]
      by_cases hwarn : ans.sw / 256 = 0x62 ∨ ans.sw / 256 = 0x63
      · rw [if_pos hwarn, if_pos hwarn]
        by_cases hkind : ans.kind = 0
        · rw [if_neg (fun h => h hkind), if_neg (fun h => h hkind)]
          exact outcome_of_finding ..
        · rw [if_pos hkind, if_pos hkind]
      · rw [if_neg hwarn, if_neg hwarn]
  next h1 h4 => rw [tokenEnd, if_neg h1, if_neg h4]

end End

/-! ### Resolution (R164) -/

section Resolution
variable (hst : (getCinch s i).st = 5) (hforced : (getCinch s i).outcomeForced = 0)
include hact hst hforced

/-- The RESOLVE that waits is answered with a status, and the Cinch stays INDOUBT. -/
def stayIndoubt (i h st : Nat) (s : State) : State := answerResolve i (cinchHead st 5 0 255 h 0) s

theorem exec_resolutionEnd_card (htyp : act.typ = 7) (hready : (getMc s act.obj).ready = true) {k k2 : Nat}
    {n : List Byte} {s2 : State}
    (hread : cardCounter act ans.kind ans.data s = (k, s1)) (hask : rpmbAsk act.obj 4 (act.arg % 65536) s1 = (n, s2))
    (hk2 : k2 = rpmbFinding (cardKey s act) (some n) 0 ans.resp) :
    exec (.resolutionEnd i ans) s = .next (
      if cidHash (getMc s act.obj).cid ≠ act.cidHash then stayIndoubt i (cinchHandle (getCinch s i) i) stCardAbsent s
      else if k = 0 ∧ rpmbCount ans.data = act.wstaged then resolved i idx false s1
      else if k = 0 ∧ rpmbCount ans.data = act.wstaged + 1 ∧ k2 = 0 ∧ rpmbResult ans.resp = 0 ∧
        rpmbData ans.resp = takePad 256 act.data then resolved i idx true (noteRpmb act.obj k2 ans.resp s2)
      else setEvent 5 2
        (stayIndoubt i (cinchHandle (getCinch s i) i) stCinchIndoubt (noteRpmb act.obj k2 ans.resp s2))) := by
  have go : ¬((getCinch s i).st ≠ 5 ∨ (getCinch s i).outcomeForced ≠ 0) := by simp [hst, hforced]
  subst hk2
  show execResolutionEnd i ans s = _
  simp only [execResolutionEnd, hact, if_neg go, htyp, hready, hread, hask, if_true, Bool.not_true, Bool.false_or, bne_iff_ne]
  split
  · rfl
  · split
    · rfl
    · split
      · rfl
      · rfl

theorem exec_resolutionEnd_token (htyp : act.typ = 8) {q : CnReq}
    (hq : s.cn.reqs.find? (fun y => y.opc == 7 && y.slot == i && y.waitsCard) = some q)
    (hreset : q.dest = 4 → s.nf.resetting = false) {ok : Bool} (hcheck : tokenCheck act q.dest ans s = (ok, s1))
    {off : State → State} (hoff : off = fun u => if q.dest = 4 then carrierOff u else u) :
    exec (.resolutionEnd i ans) s = .next (off (
      if ans.kind = 1 ∨ ans.kind = 2 then stayIndoubt i (cinchHandle (getCinch s i) i) stCinchIndoubt s1
      else if ok = false then stayIndoubt i (cinchHandle (getCinch s i) i) stCardAbsent s1
      else if tokFinding act ans.resp = 1 then resolved i idx true s1
      else if tokFinding act ans.resp = 2 then resolved i idx false s1
      else setEvent 5 2 (stayIndoubt i (cinchHandle (getCinch s i) i) stCinchIndoubt s1))) := by
  have go : ¬((getCinch s i).st ≠ 5 ∨ (getCinch s i).outcomeForced ≠ 0) := by simp [hst, hforced]
  have token : ¬act.typ = 7 := by omega
  have settled : ¬(q.dest = 4 ∧ s.nf.resetting = true) := fun ⟨h, hon⟩ => Bool.noConfusion ((hreset h).symm.trans hon)
  have turnedOff (u : State) : (if q.dest = 4 then carrierOff u else u) = off u := by rw [hoff]
  show execResolutionEnd i ans s = _
  simp only [execResolutionEnd, hact, if_neg go, if_neg token, hq, if_neg settled, hcheck, turnedOff]
  by_cases hkind : ans.kind = 1 ∨ ans.kind = 2
  · rw [if_pos hkind, if_pos hkind]
    rfl
  · rw [if_neg hkind, if_neg hkind]
    cases ok with
    | false => rfl
    | true =>
      refine (outcome_of_finding ..).trans ?_
      rw [if_neg (by decide : ¬true = false), apply_ite off, apply_ite off]
      rfl

end Resolution
end External

/-! ### The statement -/

/-- Settles O18, stage by stage of the write. A check before the write that fails by an error counts as not applied with cause
0x0A: that is the model's own choice (log 111). -/
theorem externalWritesSettle : Obligations.ExternalWritesSettle := by
  unfold Obligations.ExternalWritesSettle
  intro s i idx x act ans hx hact
  subst hx
  refine ⟨?start, ?cardEnds, ?tokenEnds, ?cardResolves, ?tokenResolves⟩
  case start =>
    exact fun hst hbatch hdue hfree =>
      ⟨fun htyp hobj hready k s1 => exec_cinchExternalWrite_card hact hst hbatch hdue hfree htyp hobj hready,
        fun htyp hobj hreset ok s1 => exec_cinchExternalWrite_token hact hst hbatch hdue hfree htyp hobj hreset⟩
  case cardEnds =>
    intro hst htyp hobj hext s1 s5 k step hs1 hk hs5
    subst hs1 hk hs5
    have ends (n : Nat) := exec_externalWriteEnd_card (ans := ans) (step := n) hact hst htyp hobj hext rfl rfl
    refine ⟨?_, ?_, ?_, ?_⟩
    · rintro rfl
      simp only [ends, cardEnd, Nat.reduceEqDiff, if_true, if_false]
    · rintro rfl
      simp only [ends, cardEnd, Nat.reduceEqDiff, if_true, if_false]
    · rintro (rfl | rfl)
      · simp only [ends, cardEnd, Nat.reduceEqDiff, if_false]
      · simp only [ends, cardEnd, Nat.reduceEqDiff, if_false]
    · rintro rfl
      simp only [ends, cardEnd, Nat.reduceEqDiff, if_true, if_false]
  case tokenEnds =>
    intro hst htyp hobj hnf hsc s1 hs1
    have ends := exec_externalWriteEnd_token (ans := ans) hact hst htyp hobj hnf hsc hs1
    refine ⟨?_, ?_, ?_, ?_, ?_⟩
    · rw [ends 1, tokenEnd, if_pos (rfl : 1 = 1)]
    · rintro step (rfl | rfl)
      · rw [ends 2, tokenEnd, if_neg (by decide : ¬2 = 1), if_neg (by decide : ¬2 = 4)]
      · rw [ends 3, tokenEnd, if_neg (by decide : ¬3 = 1), if_neg (by decide : ¬3 = 4)]
    · intro hok
      rw [ends 4, tokenEnd, if_neg (by decide : ¬4 = 1), if_pos (rfl : 4 = 4), if_pos hok]
    · intro hwarn
      rw [ends 4, tokenEnd, if_neg (by decide : ¬4 = 1), if_pos (rfl : 4 = 4), if_neg (by omega), if_pos hwarn]
    · intro hok h62 h63
      rw [ends 4, tokenEnd, if_neg (by decide : ¬4 = 1), if_pos (rfl : 4 = 4), if_neg hok, if_neg (by omega)]
  case cardResolves =>
    intro hst hforced htyp hready k s1 n s2 k2 hread hask hk2 stay hstay
    subst hstay
    exact exec_resolutionEnd_card hact hst hforced htyp hready hread hask hk2
  case tokenResolves =>
    intro hst hforced htyp q hq hreset ok s1 stay off hcheck hoff hstay
    subst hstay
    exact exec_resolutionEnd_token hact hst hforced htyp hq hreset hcheck hoff

end Sys2Proof.Proofs
end

section
/-! Service of Cinch (R165, R169, R173): the outcome that an officer forces, the checkpoint, CN_NOTEQ and the quotas. -/

namespace Sys2Proof.Proofs

open Sys2Proof Sys2Proof.Machine Sys2Proof.Laws

/-! ### Records that join a batch (R147, R158, R166) -/

section Journal
variable (s : State) (rs : List (List Byte))

/-- A record waits for a batch, or stands sealed in this stride's. -/
def Journaled (s : State) (r : List Byte) (t : State) : Prop :=
  r ∈ t.cn.jwait ∨ ∃ b ∈ t.cn.journal, b.stride = s.stride ∧ ∃ j, jSealed j r ∈ b.recs

/-- Joining a batch moves the journal alone. -/
structure JournalOnly (s t : State) : Prop where
  slots : t.cn.slots = s.cn.slots
  ckpt : t.cn.ckpt = s.cn.ckpt
  ckptCounters : t.cn.ckptCounters = s.cn.ckptCounters
  ckptNext : t.cn.ckptNext = s.cn.ckptNext
  time : t.time = s.time
  mem : t.mem = s.mem
  tk : t.tk = s.tk

theorem joinBatch_journalOnly : JournalOnly s (joinBatch rs s) := by
  unfold joinBatch flushJournal
  dsimp only
  split
  · exact ⟨rfl, rfl, rfl, rfl, rfl, rfl, rfl⟩
  · exact ⟨rfl, rfl, rfl, rfl, rfl, rfl, rfl⟩

/-- A record that joins the next batch with room waits for it, or is in it. -/
theorem journaled_joinBatch {rs : List (List Byte)} {r : List Byte} (h : r ∈ rs) : Journaled s r (joinBatch rs s) := by
  unfold joinBatch flushJournal
  dsimp only
  have waits : r ∈ s.cn.jwait ++ rs := List.mem_append_right _ h
  split
  · exact .inl waits
  · have parts (n : Nat) : r ∈ (s.cn.jwait ++ rs).take n ∨ r ∈ (s.cn.jwait ++ rs).drop n :=
      List.mem_append.1 (by rwa [List.take_append_drop])
    obtain htaken | hleft := parts _
    · exact .inr ⟨_, List.mem_of_getLast? (putRecords_last ..), batchWith_stride .., mem_batchWith _ htaken⟩
    · exact .inl hleft

/-- The journal still ends with this stride's batch. -/
theorem joinBatch_last {b : JBatch} (hlast : s.cn.journal.getLast? = some b) (hstride : b.stride = s.stride) :
    ∃ b, (joinBatch rs s).cn.journal.getLast? = some b ∧ b.stride = s.stride := by
  unfold joinBatch flushJournal
  dsimp only
  split
  · exact ⟨b, hlast, hstride⟩
  · exact ⟨_, putRecords_last .., batchWith_stride ..⟩

end Journal

/-! ### An officer's force (R165) -/

section Force
variable {s : State} {i : Nat}

theorem ledgerEvent_frame (code detail : Nat) (conts : List Nat) (s : State) :
    (ledgerEvent code detail conts s).cn = s.cn ∧ (ledgerEvent code detail conts s).mem = s.mem ∧
      (ledgerEvent code detail conts s).tk = s.tk := by
  unfold ledgerEvent
  dsimp only
  split
  · exact ⟨rfl, rfl, rfl⟩
  · rw [setEvent_cn, Laws.setEvent_mem, setEvent_tk]
    exact ⟨rfl, rfl, rfl⟩

/-- An outcome is recorded in its slot and journaled. -/
theorem journalOutcome_spec (i result cause cred : Nat) (s : State) :
    getCinch (journalOutcome i result cause cred s) i = { getCinch s i with outcome := result } ∧
      Journaled s (outcomeRecord (getCinch s i) (cinchHandle (getCinch s i) i) result cause cred)
        (journalOutcome i result cause cred s) ∧
      (journalOutcome i result cause cred s).mem = s.mem ∧ (journalOutcome i result cause cred s).tk = s.tk := by
  obtain ⟨hslots, -, -, -, -, hmem, htk⟩ := joinBatch_journalOnly (updCinch i (fun y => { y with outcome := result }) s)
    [outcomeRecord (getCinch s i) (cinchHandle (getCinch s i) i) result cause cred]
  refine ⟨?_, journaled_joinBatch _ (List.mem_singleton.2 rfl), hmem, htk⟩
  exact (congrArg (fun slots => Tab.get Cinch.free slots i) hslots).trans (getCinch_updCinch_self ..)

/-- A force is reported: it is counted and entered in the ledger with the officer's credential, and FORCED is raised. -/
def forceReported (k h cred : Nat) (s : State) : State :=
  setEvent 5 9 (ledgerEvent 0x2042 k (h :: lowHigh cred) (itemAdd 0x1171 1 s))

theorem forceReported_frame (k h cred : Nat) (s : State) :
    (forceReported k h cred s).cn = s.cn ∧ (forceReported k h cred s).mem = s.mem ∧ (forceReported k h cred s).tk = s.tk := by
  obtain ⟨hcn, hmem, htk⟩ := ledgerEvent_frame 0x2042 k (h :: lowHigh cred) (itemAdd 0x1171 1 s)
  rw [forceReported, setEvent_cn, Laws.setEvent_mem, setEvent_tk, hcn, hmem, htk]
  exact ⟨rfl, rfl, rfl⟩

/-- The force on the INDOUBT Cinch that 0x6010:01 names: its outcome is recorded and journaled with the officer's credential. -/
theorem forceOutcome_named (commit : Bool) (cred : Nat) (hi : i = s.cn.forceHandle.toNat % 4096) (hst : (getCinch s i).st = 5)
    (hhandle : cinchHandle (getCinch s i) i = s.cn.forceHandle.toNat) (hforced : (getCinch s i).outcomeForced = 0)
    {t : State} (ht : t = (forceOutcome commit cred s).2) {k result cause : Nat} (hk : k = if commit then 1 else 2)
    (hresult : result = if commit then 3 else 4) (hcause : cause = if commit then 0x12 else 0x13) :
    getCinch t i = { getCinch s i with outcomeForced := k, outcome := result } ∧
      Journaled s (outcomeRecord (getCinch s i) s.cn.forceHandle.toNat result cause cred) t ∧
      (Tab.get 0 t.events 5).getLsbD 9 = true ∧ t.mem = s.mem ∧ t.tk = s.tk := by
  let v := updCinch i (fun y => { y with outcomeForced := k }) s
  have self : getCinch v i = { getCinch s i with outcomeForced := k } := getCinch_updCinch_self ..
  have forced : t = forceReported k s.cn.forceHandle.toNat cred (journalOutcome i result cause cred v) := by
    subst ht hk hresult hcause hi
    exact congrArg Prod.snd (if_pos ⟨hst, hhandle, hforced⟩)
  obtain ⟨hcinch, hjournal, hmem, htk⟩ := journalOutcome_spec i result cause cred v
  obtain ⟨hcn, hmem', htk'⟩ := forceReported_frame k s.cn.forceHandle.toNat cred (journalOutcome i result cause cred v)
  rw [self] at hcinch hjournal
  have handle : cinchHandle { getCinch s i with outcomeForced := k } i = s.cn.forceHandle.toNat := hhandle
  rw [handle] at hjournal
  rw [← forced] at hcn hmem' htk'
  refine ⟨?_, ?_, forced ▸ setEvent_self _ 5 9 (by decide), hmem'.trans hmem, htk'.trans htk⟩
  · rw [getCinch, hcn]
    exact hcinch
  · rw [Journaled, hcn]
    exact hjournal

end Force

/-! ### The checkpoint (R169, R170) -/

section Checkpoint
variable {s : State}

/-- The records of INDOUBT Cinches, as a checkpoint carries them forward. -/
def doubtRecords (s : State) : List (List Byte) :=
  ((s.cn.slots.filter (fun e => e.2.st == 5)).map (fun e => e.2.dseq)).flatMap (carriedRecords (durableRecs s.cn.journal))

/-- The checkpoint that this stride's batch names. -/
def namedCheckpoint (s : State) : Checkpoint := { stride := s.stride, ckid := (openBatch s).first, counters := s.cn.counters }

theorem exec_checkpoint (htick : s.tick % 2 ^ 20 = 0) (hnone : s.cn.ckptNext = none) :
    exec .checkpoint s = .next (joinBatch (doubtRecords s)
      (putRecords [] { s with cn := { s.cn with ckptNext := some (namedCheckpoint s) } })) :=
  if_pos ⟨htick, by rw [hnone]; rfl⟩

end Checkpoint

/-! ### Registers (R173) -/

section Registers
variable {s : State} {c : Nat}

theorem exec_noteqRead {rd : Nat} {e : W64} {rest : List W64} (hwarden : (getCore s c).warden = true)
    (hm : coreMay s c false 0x100500050 = true) (h0 : 0 < rd) (h64 : rd < 64) (hq : s.cn.noteq = e :: rest) :
    exec (.noteqRead c rd) s =
      .next (updCore c (fun k => { k with g := Tab.set 0 k.g rd e }) { s with cn := { s.cn with noteq := rest } }) := by
  have hrd : ¬rd = 0 := by omega
  show execNoteqRead c rd s = _
  simp only [execNoteqRead, hwarden, hm, readNoteq, hq, Nat.mod_eq_of_lt h64, hrd, Bool.and_self, if_true, if_false]

theorem exec_cnQuotaWrite {hold : Bool} (v : W32) (hm : coreMay s c true (if hold then 0x100500030 else 0x100500028) = true) :
    exec (.cnQuotaWrite c hold v) s = .next (writeCnQuota hold v s) :=
  if_pos hm

/-- CN_HOLDQ is taken where the sum of all stays at 1,024 and the paddock's use fits. -/
theorem writeCnQuota_hold {v : W32} {n sum : Nat} (hn : n = v.toNat % 2048)
    (hsum : sum = Tab.total s.cn.quotaHold (fun q k => if q = s.cn.psel then 0 else k) + n) :
    writeCnQuota true v s = if 1024 < sum ∨ n < holdUsed s s.cn.psel then setEvent 5 6 s
      else { s with cn := { s.cn with quotaHold := Tab.set 0 s.cn.quotaHold s.cn.psel n } } := by
  have bits : natBits v.toNat 0 11 = n := by simp [natBits, hn]
  subst hsum
  simp only [writeCnQuota, bits, if_true]

/-- CN_QUOTA is taken where both sums stay within R173 and the paddock's use fits. -/
theorem writeCnQuota_open {v : W32} {o a : Nat} (ho : o = natBits v.toNat 16 13) (ha : a = natBits v.toNat 0 16)
    (hsumo : Tab.total s.cn.quotaOpen (fun q k => if q = s.cn.psel then 0 else k) + o ≤ 4096)
    (hsuma : Tab.total s.cn.quotaAct (fun q k => if q = s.cn.psel then 0 else k) + a ≤ 32768)
    (huseo : openUsed s s.cn.psel ≤ o) (husea : actionsUsed s s.cn.psel ≤ a) :
    writeCnQuota false v s = { s with cn := { s.cn with
      quotaOpen := Tab.set 0 s.cn.quotaOpen s.cn.psel o, quotaAct := Tab.set 0 s.cn.quotaAct s.cn.psel a } } := by
  subst ho ha
  refine if_neg ?_
  rintro (h | h | h | h)
  · exact absurd hsumo (Nat.not_le.2 h)
  · exact absurd hsuma (Nat.not_le.2 h)
  · exact absurd huseo (Nat.not_le.2 h)
  · exact absurd husea (Nat.not_le.2 h)

end Registers

/-! ### The statement -/

/-- Settles O19, clause by clause. That the checkpoint's JSEQ is the first of this stride's batch, and that this batch names
it, is the model's own choice (log 150). -/
theorem cinchServiceCommands : Obligations.CinchServiceCommands := by
  unfold Obligations.CinchServiceCommands
  intro s
  refine ⟨?force, ?refused, ?checkpoint, ?noteq, ?hold, ?quota⟩
  case force =>
    intro i cred hi hst hhandle hforced
    have named (commit : Bool) := forceOutcome_named commit cred hi hst hhandle hforced rfl rfl rfl rfl
    obtain ⟨hcinch, hjournal, hevent, hmem, htk⟩ := named true
    obtain ⟨hcinch', hjournal', hevent', hmem', htk'⟩ := named false
    exact ⟨⟨_, _, rfl, rfl, hcinch, hjournal, hevent, hmem, htk⟩,
      ⟨_, _, rfl, rfl, hcinch', hjournal', hevent', hmem', htk'⟩⟩
  case refused =>
    intro cred hst
    have refused (commit : Bool) : (forceOutcome commit cred s).2 = s :=
      congrArg Prod.snd (if_neg fun h => hst h.1)
    exact ⟨congrArg _ (refused true), congrArg _ (refused false)⟩
  case checkpoint =>
    intro htick hnone
    let u := putRecords [] { s with cn := { s.cn with ckptNext := some (namedCheckpoint s) } }
    obtain ⟨hslots, hckpt, hcounters, hnext, -, hmem, htk⟩ := joinBatch_journalOnly u (doubtRecords s)
    obtain ⟨b, hlast, hstride⟩ := joinBatch_last u (doubtRecords s) (putRecords_last ..) (batchWith_stride ..)
    exact ⟨_, b, exec_checkpoint htick hnone, hnext, hlast, hstride, hckpt, hcounters, hslots, hmem, htk⟩
  case noteq => exact fun c rd e rest => exec_noteqRead
  case hold =>
    intro c v n sum hm hn hsum
    rw [exec_cnQuotaWrite v hm, writeCnQuota_hold hn hsum]
    exact ⟨fun hfit huse => by rw [if_neg (by omega)], fun hover => by rw [if_pos hover]⟩
  case quota =>
    intro c v o a hm ho ha hsumo hsuma huseo husea
    rw [exec_cnQuotaWrite v hm, writeCnQuota_open ho ha hsumo hsuma huseo husea]

end Sys2Proof.Proofs
end

section
/-! Tack commands (R190, R192, R194): how a command reaches tack custody, and what its admission does by the status that R192
gives it. -/

namespace Sys2Proof.Proofs

open Sys2Proof Sys2Proof.Machine Sys2Proof.Laws

/-! ### A GO that asks for a tack command (R77, R192) -/

section TackGo
variable {s t : State} {c w op : Nat} {mk : Src → Instr}

/-- Each tack command is the submission whose BODY asks for its OP. -/
theorem exec_tackCommand (hcmd : (op, mk) ∈ tackCommands) (src : Src) (s : State) :
    exec (mk src) s = .next (submitBy 3 4 (fun b => byteAt b 0 == op) src s) := by
  simp only [tackCommands, List.mem_cons, Prod.mk.injEq, List.not_mem_nil, or_false] at hcmd
  obtain ⟨rfl, rfl⟩ | ⟨rfl, rfl⟩ | ⟨rfl, rfl⟩ | ⟨rfl, rfl⟩ | ⟨rfl, rfl⟩ | ⟨rfl, rfl⟩ := hcmd
  all_goals rfl

/-- Taking its GO leaves the BODY of a tack window. -/
theorem tackBody_started (c w : Nat) (s : State) : winBody 3 c w (started 3 c w s) = winBody 3 c w s := by
  have win : getWin 3 c w (started 3 c w s) = { getWin 3 c w s with busy := true, done := false } :=
    Tab.get_upd_self s.tk.wins c fun x => { x with busy := true, done := false }
  rw [winBody, win]
  rfl

theorem exec_tackCommand_admitted (hcmd : (op, mk) ∈ tackCommands) (hfree : windowFree 3 c w s)
    (hop : byteAt (winBody 3 c w (started 3 c w s)) 0 = op)
    (hsub : tackSubmit (sampleReq s c w) (winBody 3 c w (started 3 c w s)) (started 3 c w s) = (true, t)) :
    exec (mk (.win c w)) s = .next t := by
  obtain ⟨hc, hw, hbusy, hshed⟩ := hfree
  have asked : (byteAt (winBody 3 c w s) 0 == op) = true := by rw [← tackBody_started, hop, beq_self_eq_true]
  have go : winGo 3 c w s = t := winGo_admitted (code := 0) hbusy hshed (by simp only [submitWin, hsub])
  rw [exec_tackCommand hcmd, submitBy, if_pos ⟨hc, hw, asked⟩, go]

end TackGo

/-! ### Admission by status (R190, R192, R194) -/

/-- The attribute block that admission reads, and the state after the read: only a RESERVE or a RESTRICT of a good BODY reads one. -/
def blockRead (r : Req) (b : List Byte) (s : State) : Option (List Byte) × State :=
  if (byteAt b 0 == 1 || byteAt b 0 == 4) && !tackBodyBad b then reqRead r (field b 8 8) 64 s
  else (if byteAt b 0 == 1 || byteAt b 0 == 4 then none else some [], s)

theorem blockRead_eq (r : Req) (b : List Byte) (s : State) :
    blockRead r b s = if (byteAt b 0 = 1 ∨ byteAt b 0 = 4) ∧ tackBodyBad b = false then reqRead r (field b 8 8) 64 s
      else (if byteAt b 0 = 1 ∨ byteAt b 0 = 4 then none else some [], s) := by
  simp only [blockRead, Bool.and_eq_true, Bool.or_eq_true, beq_iff_eq, Bool.not_eq_true']

section TackAdmission
variable {s s1 : State} {r : Req} {b : List Byte} {blk : Option (List Byte)} {status : Nat}
  (hblk : blockRead r b s = (blk, s1)) (hst : tackStatus s1 r.paddock r.owns b blk = status)
include hblk hst

/-- A command that fails R192 owes its status alone. -/
theorem tackSubmit_refused (hne : status ≠ stOK) :
    tackSubmit r b s =
      (true, pendTack (byteAt b 0) 0 r status 0 (if byteAt b 0 = 1 then 0xFFFFFFFF else field b 4 4) s1) := by
  unfold blockRead at hblk
  simp only [tackSubmit, hblk, hst, hne, ne_eq, not_false_eq_true, if_true]

variable (hok : status = stOK)
include hok

theorem tackSubmit_reserve (hop : byteAt b 0 = 1) {n : Nat} {s2 : State}
    (hmade : reserveTack r.paddock (blk.getD []) (natBit (byteAt b 1) 0) s1 = (n, s2)) :
    tackSubmit r b s = (true, pendTack 1 0 r stOK (((tackRec s2 n).map (fun x => x.st)).getD 0) n s2) := by
  rw [blockRead, hop] at hblk
  simp only [tackSubmit, hblk, hst, hok, ne_eq, not_true_eq_false, if_false, hop, hmade]

variable {t : Tack} (ht : getTack s1 r.paddock (field b 4 4) = some t)
include ht

theorem tackSubmit_pin (hop : byteAt b 0 = 5) :
    tackSubmit r b s = (true, pendTack 5 (b2n t.pinned) r stOK 3 (field b 4 4)
      (updTack (field b 4 4) (fun x => { x with pinned := natBit (byteAt b 1) 0 }) s1)) := by
  rw [blockRead, hop] at hblk
  simp only [tackSubmit, hblk, hst, hok, ne_eq, not_true_eq_false, if_false, hop, ht, Option.getD_some]

theorem tackSubmit_describe (hop : byteAt b 0 = 6) {ok : Bool} {s2 : State}
    (hwrite : reqWrite r (field b 8 8) (describeBytes t) s1 = (ok, s2)) :
    tackSubmit r b s = (true, pendTack 6 0 r (if ok = true then stOK else stMediaError) t.st (field b 4 4) s2) := by
  rw [blockRead, hop] at hblk
  simp only [tackSubmit, hblk, hst, hok, ne_eq, not_true_eq_false, if_false, hop, ht, Option.getD_some, hwrite]

/-- A tack that no record names retires at once. -/
theorem tackSubmit_retire (hop : byteAt b 0 = 3) (hnow : t.st ≠ 3 ∨ t.volatile = true) :
    tackSubmit r b s = (true, pendTack 3 0 r stOK 4 (field b 4 4) (retireTack (field b 4 4) s1)) := by
  rw [blockRead, hop] at hblk
  simp only [tackSubmit, hblk, hst, hok, ne_eq, not_true_eq_false, if_false, hop, ht, Option.getD_some]
  exact if_pos hnow

/-- A LIVE tack that is not VOLATILE retires in a Cinch. -/
theorem tackSubmit_retireDurable (hop : byteAt b 0 = 3) (hlive : t.st = 3) (hdur : t.volatile = false) {i : Nat}
    (hslot : freeSlot s1 = some i) : tackSubmit r b s = (true, tackCinch r 3 (field b 4 4) [] i s1) := by
  have durable : ¬(t.st ≠ 3 ∨ t.volatile = true) := by simp [hlive, hdur]
  rw [blockRead, hop] at hblk
  simp only [tackSubmit, hblk, hst, hok, ne_eq, not_true_eq_false, if_false, hop, ht, Option.getD_some]
  rw [hslot]
  exact if_neg durable

omit ht in
/-- INSTALL and RESTRICT run on in a Cinch. -/
theorem tackSubmit_cinch {op : Nat} (hop : byteAt b 0 = op) (hdur : op = 2 ∨ op = 4) {i : Nat}
    (hslot : freeSlot s1 = some i) : tackSubmit r b s = (true, tackCinch r op (field b 4 4) (blk.getD []) i s1) := by
  rw [blockRead, hop] at hblk
  obtain rfl | rfl := hdur
  all_goals simp only [tackSubmit, hblk, hst, hok, ne_eq, not_true_eq_false, if_false, hop, hslot]

end TackAdmission

/-! ### The statement -/

/-- Settles O20, by the status of R192 and then by OP. -/
theorem tackCommandsTakeEffect : Obligations.TackCommandsTakeEffect := by
  unfold Obligations.TackCommandsTakeEffect
  intro s c w op mk hcmd hfree s0 s1 r b h st blk hs0 hr hb hop hh hblk hst
  have run {t : State} (hsub : tackSubmit r b s0 = (true, t)) : exec (mk (.win c w)) s = .next t := by
    subst hs0 hr hb
    exact exec_tackCommand_admitted hcmd hfree hop hsub
  have read : blockRead r b s0 = (blk, s1) := by
    rw [blockRead_eq, hop]
    exact hblk.symm
  subst hh hop
  refine ⟨?refused, ?reserve, fun t hok ht => ⟨?pin, ?describe, ?retire, fun i hslot => ⟨?retireDurable, ?cinch⟩⟩⟩
  case refused => exact fun hne => run (tackSubmit_refused read hst.symm hne)
  case reserve => exact fun hok hop n s2 hmade => run (tackSubmit_reserve read hst.symm hok hop hmade)
  case pin => exact fun hop => run (tackSubmit_pin read hst.symm hok ht hop)
  case describe => exact fun hop ok s2 hwrite => run (tackSubmit_describe read hst.symm hok ht hop hwrite)
  case retire => exact fun hop hnow => run (tackSubmit_retire read hst.symm hok ht hop hnow)
  case retireDurable =>
    exact fun hop hlive hdur => run (tackSubmit_retireDurable read hst.symm hok ht hop hlive hdur hslot)
  case cinch => exact fun hop => run (tackSubmit_cinch read hst.symm hok rfl hop hslot)

end Sys2Proof.Proofs
end

section
/-! The life of a tack (R188, R190–R198, R204): the handle and the tack of a RESERVE, results, expiries, fetches and bounds, and
custody's registers. -/

namespace Sys2Proof.Proofs

open Sys2Proof Sys2Proof.Machine Sys2Proof.Laws

/-! ### A RESERVE (R188, R190) -/

section Reserve
variable {s : State} {h : Nat}

/-- A handle that the allocator gives names indices from 1 to 0x0FFF_FFFF that no tack holds. -/
theorem findHandle_free {n : Nat} (hfind : findHandle s n = some h) :
    1 ≤ h ∧ h + n ≤ 0x10000000 ∧ ∀ j, j < n → indexUsed s (h + j) = false := by
  unfold findHandle at hfind
  obtain ⟨k, -, hk⟩ := List.exists_of_findSome?_eq_some hfind
  dsimp only at hk
  split at hk
  next hfree =>
    obtain ⟨hend, hunused⟩ := hfree
    rw [Option.some.injEq] at hk
    subst hk
    refine ⟨Nat.le_add_left .., hend, fun j hj => ?_⟩
    have unused := List.all_eq_true.1 hunused j (List.mem_range.2 hj)
    rwa [Bool.not_eq_true'] at unused
  · cases hk

theorem makeRoom_frame (t : Tack) (fuel : Nat) (s : State) :
    (makeRoom t fuel s).mem = s.mem ∧ (makeRoom t fuel s).cn = s.cn := by
  induction fuel generalizing s with
  | zero => exact ⟨rfl, rfl⟩
  | succ fuel ih =>
    rw [makeRoom]
    split
    · exact ⟨rfl, rfl⟩
    · split
      · exact ⟨rfl, rfl⟩
      next v _ => exact ih (updTack v.handle Tack.unload s)

/-- Where there is room already, nothing is evicted. -/
theorem makeRoom_of_cacheRoom {t : Tack} (hroom : cacheRoom s t = true) (fuel : Nat) : makeRoom t fuel s = s :=
  match fuel with
  | 0 => rfl
  | _ + 1 => if_pos hroom

theorem mem_addTack (t : Tack) (s : State) : (t.handle, t) ∈ (addTack t s).tk.tacks :=
  List.mem_append_left _ (List.mem_append_right _ (List.mem_singleton.2 rfl))

/-- A RESERVE without a random fill puts its tack into custody. -/
theorem reserveTack_found {p : Nat} {blk : List Byte} (hfind : findHandle s (envelopeSlots (byteAt blk 0) (field blk 2 2)) = some h) :
    reserveTack p blk false s =
      (h, addTack (tackOfBlock blk p h s.tick) (makeRoom (tackOfBlock blk p h s.tick) s.tk.tacks.length s)) := by
  rw [reserveTack, hfind]
  rfl

end Reserve

/-! ### Results (R192, R221) -/

section Results
variable {s : State} {src : Src}

/-- A result that is due goes to its source. -/
theorem exec_tackCommandComplete_pend {q : Pend} (hf : s.tk.pend.find? (fun x => decide (x.req.src = src)) = some q)
    (hdue : q.due ≤ s.tick) (turn : hostTurn s src = true) :
    exec (.tackCommandComplete src) s = .next (finishTack q.req
      (tackResult q.status (byteAt q.result 0) (field q.result 1 4) (field q.result 5 4) s.stride)
      { s with tk := { s.tk with pend := s.tk.pend.filter (fun x => decide (x.req.src ≠ src)) } }) := by
  have go : ¬(s.tick < q.due ∨ (!hostTurn s src) = true) := by simp [turn, hdue]
  show execTackCommandComplete src s = _
  simp only [execTackCommandComplete, hf, go, if_false]

/-- A command whose Cinch has ended gives its result, and the Cinch's slot is freed. -/
theorem exec_tackCommandComplete_cinch {i : Nat} {x : Cinch} (hpend : ∀ y ∈ s.tk.pend, y.req.src ≠ src)
    (hf : s.cn.slots.find? (fun p => p.2.st == 7 && p.2.cmd.any (fun r => decide (r.src = src))) = some (i, x))
    (turn : hostTurn s src = true) :
    exec (.tackCommandComplete src) s =
      .next (updCinch i (fun y => { Cinch.free with seq := y.seq, freeAt := s.tick + 1 })
        (finishTack { src := src, paddock := x.paddock, warden := false, gen := x.gen }
          (tackResult x.status (if x.cmdOp = 3 then 4 else 3) ((x.actions.map (fun a => a.tack)).headD 0) x.cmdAdmit s.stride)
          s)) := by
  have none_pends : s.tk.pend.find? (fun y => decide (y.req.src = src)) = none :=
    List.find?_eq_none.2 fun y hy => by simp [hpend y hy]
  show execTackCommandComplete src s = _
  simp only [execTackCommandComplete, none_pends, hf, turn, Bool.not_true, Bool.false_eq_true, if_false]

theorem finishTack_win {r : Req} {c w : Nat} (hr : r.src = .win c w) (bs : List Byte) (s : State) :
    finishTack r bs s = { s with tk := { s.tk with wins := Tab.upd Win.reset s.tk.wins c (fun x => x.finish bs) } } := by
  simp only [finishTack, hr]

theorem finishTack_host {r : Req} {fn q n : Nat} (hr : r.src = .host fn q n) (bs : List Byte) (s : State) :
    finishTack r bs s = hostComplete fn q n bs s := by
  simp only [finishTack, hr]

end Results

/-! ### Expiry, fetch and bound (R191, R195, R196, R198) -/

section Events
variable {s : State} {h : Nat} {t : Tack} (ht : tackRec s h = some t)
include ht

theorem exec_reservationExpiry (hst : t.st = 1 ∨ (t.st = 2 ∧ installCites s h = false)) (hlate : t.rsvAt + rsvEff s ≤ s.tick) :
    exec (.reservationExpiry h) s =
      .next (setEvent 6 4 { s with tk := { s.tk with tacks := s.tk.tacks.filter (fun e => e.1 != h) } }) := by
  have released : (t.st = 1 ∨ (t.st = 2 ∧ (!installCites s h) = true)) ∧ t.rsvAt + rsvEff s ≤ s.tick := by
    rw [Bool.not_eq_true']
    exact ⟨hst, hlate⟩
  show Host.Outcome.next (releaseLate h s) = _
  simp only [releaseLate, ht]
  rw [if_pos released]

/-- A fetch with room in the cache brings the material that the envelope holds, or fails where it gives none. -/
theorem exec_tackFetchComplete_opened (hfetch : t.fetching = true) (hroom : cacheRoom s t = true) (hnand : s.pm.nandFail = false) :
    exec (.tackFetchComplete h 0) s = .next (match vaultMaterial (unsealMaster t.paddock s) t with
      | some m => updTack h (fun x => { x with fetching := false, lru := s.tick, material := m }.load) (unsealMaster t.paddock s)
      | none => failFetch h (if (Tab.get [] s.tk.vault h).isEmpty then 3 else 2) (unsealMaster t.paddock s)) := by
  show execTackFetchComplete h 0 s = _
  simp only [execTackFetchComplete, ht, hfetch, makeRoom_of_cacheRoom hroom, hroom, hnand, Bool.not_true, Bool.not_false,
    Bool.false_eq_true, and_self, if_false, if_true]
  cases vaultMaterial (unsealMaster t.paddock s) t with
  | none => rfl
  | some m => rfl

/-- A fetch that cannot be read back fails. -/
theorem exec_tackFetchComplete_failed (hfetch : t.fetching = true) {o : Nat} (ho : o = 1 ∨ o = 2) :
    exec (.tackFetchComplete h o) s = .next (failFetch h (if o = 1 then 2 else 3) s) := by
  have fails : ¬(o = 0 ∧ (!s.pm.nandFail) = true) := by omega
  show execTackFetchComplete h o s = _
  simp only [execTackFetchComplete, ht, hfetch, Bool.not_true, Bool.false_eq_true, if_false, if_neg fails]

end Events

/-! ### TK_MINT and the quotas (R185, R204) -/

section Registers
variable {s : State} {c : Nat}

theorem exec_tkMintRead {kd : Nat} (hm : coreMay s c false 0x100600070 = true) (hkd : kd < 16) :
    exec (.tkMintRead c kd) s = .next (updCore c (fun k => k.setK kd (readMint s c)) s) := by
  show execTkMintRead c kd s = _
  rw [execTkMintRead, if_pos hm, Nat.mod_eq_of_lt hkd]

/-- A tack of the ACTIVE paddock gives a key rein with permissions that its usage holds. -/
theorem mintKeyRein_granted {p h perm : Nat} {t : Tack} (ht : getTack s p h = some t) (hpad : (s.paddock p).st = 1)
    (hperm : BitVec.ofNat 16 perm &&& ~~~(BitVec.ofNat 16 t.usage) = 0) :
    mintKeyRein s p h perm = Rein.make true (s.paddock p).gen p 0x02 perm 0 h := by
  simp only [mintKeyRein, ht]
  exact if_pos ⟨hpad, hperm⟩

theorem exec_tkQuotaWrite {vault : Bool} (v : W32) (hm : coreMay s c true (if vault then 0x100600038 else 0x100600030) = true) :
    exec (.tkQuotaWrite c vault v) s = .next (writeTkQuota vault v s) :=
  if_pos hm

/-- TK_VQUOTA is taken where the sum of all stays within R204 and the paddock's use fits. -/
theorem writeTkQuota_vault {v : W32} {n : Nat} (hn : n = v.toNat % 2 ^ 28)
    (hsum : Tab.total s.tk.vquota (fun q k => if q = s.tk.psel then 0 else k) + n ≤ 2 ^ 28) (huse : vaultUsed s s.tk.psel ≤ n) :
    writeTkQuota true v s = { s with tk := { s.tk with vquota := Tab.set 0 s.tk.vquota s.tk.psel n } } := by
  have bits : natBits v.toNat 0 28 = n := by simp [natBits, hn]
  have fits : ¬(Tab.total s.tk.vquota (fun q k => if q = s.tk.psel then 0 else k) + n > 2 ^ 28 ∨ n < vaultUsed s s.tk.psel) := by
    omega
  simp only [writeTkQuota, bits, if_true]
  exact if_neg fits

/-- TK_QUOTA is taken where both sums stay within R204 and the paddock's use fits. -/
theorem writeTkQuota_cache {v : W32}
    (hentries : Tab.total s.tk.quota (fun q n => if q = s.tk.psel then 0 else natBits n 0 17) + natBits v.toNat 0 17 ≤ 65536)
    (hunits : Tab.total s.tk.quota (fun q n => if q = s.tk.psel then 0 else natBits n 17 15) + natBits v.toNat 17 15 ≤ 16384)
    (huse : entriesUsed s s.tk.psel ≤ natBits v.toNat 0 17) (huseu : unitsUsed s s.tk.psel ≤ natBits v.toNat 17 15) :
    writeTkQuota false v s = { s with tk := { s.tk with quota := Tab.set 0 s.tk.quota s.tk.psel v.toNat } } := by
  refine if_neg ?_
  rintro (h | h | h | h)
  · exact absurd hentries (Nat.not_le.2 h)
  · exact absurd hunits (Nat.not_le.2 h)
  · exact absurd huse (Nat.not_le.2 h)
  · exact absurd huseu (Nat.not_le.2 h)

end Registers

/-! ### The statement -/

/-- Settles O21, clause by clause. -/
theorem tackEventsComplete : Obligations.TackEventsComplete := by
  unfold Obligations.TackEventsComplete
  refine ⟨?reserve, fun s => ⟨?window, ?host, ?cinch, ?expiry, ?opened, ?failed, fun _ => rfl, ?mint, ?vquota, ?quota⟩⟩
  case reserve =>
    intro s t p h blk hmade hfind
    obtain ⟨hlo, hhi, hfree⟩ := findHandle_free hfind
    rw [reserveTack_found hfind, Prod.mk.injEq] at hmade
    obtain ⟨-, rfl⟩ := hmade
    obtain ⟨hmem, hcn⟩ := makeRoom_frame (tackOfBlock blk p h s.tick) s.tk.tacks.length s
    exact ⟨hlo, hhi, hfree, mem_addTack (tackOfBlock blk p h s.tick) _, hmem, hcn⟩
  case window =>
    intro q c w hf hdue hsrc
    rw [exec_tackCommandComplete_pend hf hdue rfl, finishTack_win hsrc]
  case host =>
    intro q fn qq m hf hdue hsrc turn
    rw [exec_tackCommandComplete_pend hf hdue turn, finishTack_host hsrc]
  case cinch => exact fun i x r src hpend hf _ turn => exec_tackCommandComplete_cinch hpend hf turn
  case expiry => exact fun h t ht => exec_reservationExpiry ht
  case opened =>
    intro h t s2 ht hfetch hroom hnand hs2
    subst hs2
    exact exec_tackFetchComplete_opened ht hfetch hroom hnand
  case failed => exact fun h t o ht hfetch ho => exec_tackFetchComplete_failed ht hfetch ho
  case mint =>
    intro c kd t h perm hm hkd hh hperm ht hpad huse
    subst hh hperm
    rw [exec_tkMintRead hm hkd, readMint, mintKeyRein_granted ht hpad huse]
  case vquota =>
    intro c v n hm hn hsum huse
    rw [exec_tkQuotaWrite v hm, writeTkQuota_vault hn hsum huse]
  case quota =>
    intro c v hm hentries hunits huse huseu
    rw [exec_tkQuotaWrite v hm, writeTkQuota_cache hentries hunits huse huseu]

end Sys2Proof.Proofs
end

section
/-! What an act of custody does beside its own record (R113, R323–R325, R457): it writes the reserve, draws values, and reports to
the ledger. -/

namespace Sys2Proof.Proofs

open Sys2Proof Sys2Proof.Machine Sys2Proof.Laws

/-- `t` differs from `s` in the reserve, in draws and in reports alone, of what an act of custody may reach. -/
structure Aside (s t : State) : Prop where
  tk : t.tk = { s.tk with drbg := t.tk.drbg }
  mem : t.mem = s.mem
  time : t.time = s.time
  pc : t.pc = s.pc
  cn : t.cn = s.cn
  od : t.od = s.od
  cd : t.cd = s.cd

namespace Aside
variable {s t u : State}

theorem refl (s : State) : Aside s s := ⟨rfl, rfl, rfl, rfl, rfl, rfl, rfl⟩

theorem trans (h : Aside s t) (g : Aside t u) : Aside s u where
  tk := by rw [g.tk, h.tk]
  mem := g.mem.trans h.mem
  time := g.time.trans h.time
  pc := g.pc.trans h.pc
  cn := g.cn.trans h.cn
  od := g.od.trans h.od
  cd := g.cd.trans h.cd

theorem foldl {α : Type} {f : State → α → State} (hf : ∀ v x, Aside v (f v x)) (l : List α) (s : State) : Aside s (l.foldl f s) :=
  List.foldlRecOn (motive := Aside s) l f (refl s) fun v hv x _ => hv.trans (hf v x)

/-- What does not read the DRBG reads alike. -/
theorem part (h : Aside s t) {β : Type} (g : TackUnit → β) (hg : ∀ k d, g { k with drbg := d } = g k := by intros; rfl) :
    g t.tk = g s.tk := by
  rw [h.tk, hg]

theorem paddock (h : Aside s t) (p : Nat) : t.paddock p = s.paddock p := by
  rw [State.paddock, h.tk, State.paddock]

end Aside

/-! ### The reserve (R323–R325) -/

theorem aside_useSector (role : Nat) (e : Sector) (s : State) : Aside s (useSector role e s) := by
  unfold useSector
  split
  · exact .refl s
  · exact ⟨rfl, rfl, rfl, rfl, rfl, rfl, rfl⟩

theorem aside_putNor (a : Nat) (w : W64) (s : State) : Aside s (putNor a w s) := ⟨rfl, rfl, rfl, rfl, rfl, rfl, rfl⟩

theorem aside_putCopy (a kind key rseq : Nat) (ws : List W64) (s : State) : Aside s (putCopy a kind key rseq ws s) := by
  unfold putCopy
  refine .trans (.trans (.trans (aside_putNor ..) (aside_putNor ..)) (.foldl (fun v p => ?_) _ _)) (aside_putNor ..)
  exact aside_putNor ..

theorem aside_putCopies (kind key : Nat) (ws : List W64) (s : State) : Aside s (putCopies kind key ws s) := by
  unfold putCopies
  split
  · exact .refl s
  · refine .trans (.foldl (fun v e => ?_) _ _) (.foldl (fun v c => ?_) _ _)
    · split
      · exact (aside_useSector ..).trans (aside_putCopy ..)
      · exact .refl v
    · exact aside_putNor ..

theorem aside_renewSector (role index n : Nat) (s : State) : Aside s (renewSector role index n s) :=
  ⟨rfl, rfl, rfl, rfl, rfl, rfl, rfl⟩

theorem aside_compactOne {s t : State} (h : compactOne s = some t) : Aside s t := by
  unfold compactOne at h
  dsimp only at h
  split at h
  · cases h
  · obtain ⟨e, -, rfl⟩ := Option.map_eq_some_iff.1 h
    exact (Aside.foldl (fun v c => aside_putCopies ..) _ s).trans (aside_renewSector ..)

theorem aside_compactReserve (fuel : Nat) (s : State) : Aside s (compactReserve fuel s) := by
  induction fuel generalizing s with
  | zero => exact .refl s
  | succ fuel ih =>
    rw [compactReserve]
    cases hone : compactOne s with
    | none => exact .refl s
    | some t => exact (aside_compactOne hone).trans (ih t)

theorem aside_reservePut (kind key : Nat) (bs : List Byte) (s : State) : Aside s (reservePut kind key bs s) := by
  unfold reservePut
  dsimp only
  split
  · exact .refl s
  · exact (aside_compactReserve ..).trans (aside_putCopies ..)

/-! ### Draws (R113, R190) -/

theorem aside_drawNat (s : State) : Aside s (drawNat s).2 := ⟨rfl, rfl, rfl, rfl, rfl, rfl, rfl⟩

theorem drawBytes_spec (n : Nat) (s : State) : (drawBytes n s).1.length = n ∧ Aside s (drawBytes n s).2 := by
  induction n generalizing s with
  | zero => exact ⟨rfl, .refl s⟩
  | succ n ih =>
    obtain ⟨hlen, haside⟩ := ih (drawNat s).2
    exact ⟨congrArg (· + 1) hlen, (aside_drawNat s).trans haside⟩

theorem aside_drbgReady (d : Drbg) (s : State) : Aside s (drbgReady d s).2 := by
  unfold drbgReady
  split
  · exact aside_drawNat s
  · split
    · exact .refl s
    · split
      · exact aside_drawNat s
      · exact ⟨rfl, rfl, rfl, rfl, rfl, rfl, rfl⟩

theorem aside_custodyBytes (n : Nat) (s : State) : Aside s (custodyBytes n s).2 :=
  (aside_drbgReady s.tk.drbg s).trans ⟨rfl, rfl, rfl, rfl, rfl, rfl, rfl⟩

/-! ### Reports (R453, R457) -/

theorem aside_setEvent (w b : Nat) (s : State) : Aside s (setEvent w b s) where
  tk := by rw [setEvent_tk]
  mem := Laws.setEvent_mem ..
  time := setEvent_time ..
  pc := setEvent_pc ..
  cn := setEvent_cn ..
  od := setEvent_od ..
  cd := setEvent_cd ..

theorem aside_ledgerEvent (code detail : Nat) (conts : List Nat) (s : State) : Aside s (ledgerEvent code detail conts s) := by
  unfold ledgerEvent
  dsimp only
  split
  · exact ⟨rfl, rfl, rfl, rfl, rfl, rfl, rfl⟩
  · exact .trans (t := itemAdd 0x1181 1 s) ⟨rfl, rfl, rfl, rfl, rfl, rfl, rfl⟩ (aside_setEvent ..)

end Sys2Proof.Proofs
end

section
/-! Acts on paddocks (R176–R182): an accepted act waits, a CREATE seals a new master key, a DELETE or REVOKE advances the
generation and ends the paddock's work, and a deleted paddock becomes ABSENT. -/

namespace Sys2Proof.Proofs

open Sys2Proof Sys2Proof.Machine Sys2Proof.Laws

/-! ### Ending a paddock's work leaves the records of all paddocks (R178, R180) -/

/-- From `s` to `t` no paddock's record changes and no raised leaf falls. -/
structure KeepsRecords (s t : State) : Prop where
  paddocks : t.tk.paddocks = s.tk.paddocks
  leaf : ∀ {w b}, (Tab.get 0 s.events w).getLsbD b = true → (Tab.get 0 t.events w).getLsbD b = true

namespace KeepsRecords
variable {s t u : State}

theorem of_eq (hp : t.tk.paddocks = s.tk.paddocks) (he : t.events = s.events) : KeepsRecords s t where
  paddocks := hp
  leaf h := by rw [he, h]

theorem refl (s : State) : KeepsRecords s s := of_eq rfl rfl

theorem trans (h : KeepsRecords s t) (g : KeepsRecords t u) : KeepsRecords s u where
  paddocks := g.paddocks.trans h.paddocks
  leaf hb := g.leaf (h.leaf hb)

/-- The last part of a way first. -/
theorem since (g : KeepsRecords t u) (h : KeepsRecords s t) : KeepsRecords s u := h.trans g

theorem since_eq (g : KeepsRecords t u) (hp : t.tk.paddocks = s.tk.paddocks) (he : t.events = s.events) : KeepsRecords s u :=
  g.since (of_eq hp he)

theorem foldl {α : Type} {f : State → α → State} (hf : ∀ v x, KeepsRecords v (f v x)) (l : List α) (s : State) :
    KeepsRecords s (l.foldl f s) :=
  List.foldlRecOn (motive := KeepsRecords s) l f (refl s) fun v hv x _ => hv.trans (hf v x)

theorem ite {c : Prop} [Decidable c] (ht : KeepsRecords s t) (hu : KeepsRecords s u) : KeepsRecords s (if c then t else u) := by
  split
  · exact ht
  · exact hu

theorem paddock (h : KeepsRecords s t) (p : Nat) : t.paddock p = s.paddock p := by
  rw [State.paddock, h.paddocks, State.paddock]

end KeepsRecords

section WorkEnds
variable (s : State)

theorem setEvent_keepsRecords (w b : Nat) : KeepsRecords s (setEvent w b s) where
  paddocks := by rw [setEvent_tk]
  leaf := setEvent_keeps_leaf w b

theorem setEventIf_keepsRecords (c : Bool) (w b : Nat) : KeepsRecords s (setEventIf c w b s) :=
  .ite (setEvent_keepsRecords ..) (.refl s)

theorem ledgerEvent_keepsRecords (code detail : Nat) (conts : List Nat) : KeepsRecords s (ledgerEvent code detail conts s) := by
  unfold ledgerEvent
  refine .ite (.of_eq rfl rfl) (.trans (t := itemAdd 0x1181 1 s) (.of_eq rfl rfl) (setEvent_keepsRecords ..))

theorem updTack_keepsRecords (h : Nat) (f : Tack → Tack) : KeepsRecords s (updTack h f s) := .of_eq rfl rfl

/-! #### Stalls and Cinches (R103, R151) -/

theorem causeLeave_keepsRecords (n reason : Nat) : KeepsRecords s (causeLeave n reason s) := .ite (.of_eq rfl rfl) (.refl s)

theorem revokeStalls_keepsRecords (p : Nat) : KeepsRecords s (revokeStalls p s) := by
  unfold revokeStalls
  refine .trans (.foldl (fun v e => ?_) _ s) (.foldl (fun v n => ?_) _ _)
  · exact .ite (causeLeave_keepsRecords ..) (.refl v)
  · exact .ite (causeLeave_keepsRecords ..) (.refl v)

theorem markAbort_keepsRecords (i cause status failing : Nat) : KeepsRecords s (markAbort i cause status failing s) := .of_eq rfl rfl

theorem markAbortAll_keepsRecords (test : Cinch → Bool) (cause status : Nat) :
    KeepsRecords s (markAbortAll test cause status s) :=
  .foldl (fun v _ => .ite (markAbort_keepsRecords ..) (.refl v)) _ s

theorem endHeld_keepsRecords (slot act job status : Nat) (data : List Byte) :
    KeepsRecords s (endHeld slot act job status data s) := by
  unfold endHeld
  refine .ite ?_ (.refl s)
  exact .ite (.of_eq rfl rfl) ((markAbort_keepsRecords ..).since_eq rfl rfl)

/-! #### Memory that a broken job leaves (R80) -/

theorem bridleFault_keepsRecords (acc : Access) (wr : Bool) (a code : Nat) : KeepsRecords s (bridleFault acc wr a code s) :=
  (setEventIf_keepsRecords ..).since ((setEvent_keepsRecords ..).since_eq rfl rfl)

theorem noteUncorrectable_keepsRecords (a : Nat) : KeepsRecords s (noteUncorrectable a s) :=
  .trans (t := itemAdd (eccItem (sramArea a) + 1) 1 s) (.of_eq rfl rfl) (setEvent_keepsRecords ..)

theorem putBytes_keepsRecords (a : Nat) (bs : List Byte) : KeepsRecords s (putBytes s a bs) := by
  induction bs generalizing s a with
  | nil => exact .refl s
  | cons b bs ih => exact (ih (putByte s a b) (a + 1)).since_eq rfl rfl

theorem ramWrite_keepsRecords (a : Nat) (bs : List Byte) : KeepsRecords s (ramWrite s a bs).1 := by
  unfold ramWrite
  dsimp only
  split
  · exact (putBytes_keepsRecords ..).since_eq rfl rfl
  · refine (KeepsRecords.foldl (fun v p => ?_) _ _).since_eq rfl rfl
    exact .ite (.refl v) (.of_eq rfl rfl)

theorem busWrite_keepsRecords (acc : Access) (a : Nat) (bs : List Byte) : KeepsRecords s (busWrite s acc a bs).st := by
  have runs (l : List (Nat × List Byte)) : KeepsRecords s (l.foldl
      (fun (st : State × Bool) r => let (x, e) := ramWrite st.1 r.1 r.2; (x, st.2 || e)) (s, false)).1 :=
    List.foldlRecOn (motive := fun st : State × Bool => KeepsRecords s st.1) l _ (.refl s) fun st hst r _ =>
      hst.trans (ramWrite_keepsRecords ..)
  have faulted (v : State) (ref : Option (Nat × Nat)) : KeepsRecords v (match ref with
      | some (fa, c) => bridleFault acc true fa c v
      | none => v) := by
    split
    · exact bridleFault_keepsRecords ..
    · exact .refl v
  unfold busWrite
  dsimp only
  split
  · exact (noteUncorrectable_keepsRecords ..).since ((faulted _ _).since (runs _))
  · exact (faulted _ _).since (runs _)

theorem jobWrite_keepsRecords (r : Req) (a : Nat) (bs : List Byte) : KeepsRecords s (jobWrite r a bs s).2 := by
  have hostWrite (c : Prop) [Decidable c] (h : Nat) : KeepsRecords s (if c then (false, s) else (true, hostPut s h bs)).2 := by
    split
    · exact .refl s
    · exact .of_eq rfl rfl
  unfold jobWrite
  split
  · exact .refl s
  · split
    · split
      · split
        · exact hostWrite ..
        · exact .refl s
      · exact busWrite_keepsRecords ..
    · exact hostWrite ..
    · exact .refl s

theorem partialUnits_keepsRecords (r : Req) (fuel base : Nat) (old out : List Byte) :
    KeepsRecords s (partialUnits r fuel base old out s) := by
  induction fuel generalizing base old out s with
  | zero => exact .refl s
  | succ fuel ih =>
    rw [partialUnits]
    exact .ite (.refl s) ((ih ..).since ((jobWrite_keepsRecords ..).since_eq rfl rfl))

/-! #### Jobs and scans (R80, R129, R358) -/

theorem dropUse_keepsRecords (c : Prop) [Decidable c] (h : Nat) : KeepsRecords s (if c then dropUse h s else s) :=
  .ite (updTack_keepsRecords ..) (.refl s)

theorem unfillTack_keepsRecords (c : Prop) [Decidable c] (h : Nat) : KeepsRecords s (if c then unfillTack h s else s) :=
  .ite (updTack_keepsRecords ..) (.refl s)

theorem cipherEnd_keepsRecords (j : CJob) (status outlen due : Nat) : KeepsRecords s (cipherEnd j status outlen due s) := by
  unfold cipherEnd
  dsimp only
  split
  · exact (endHeld_keepsRecords ..).since ((unfillTack_keepsRecords ..).since ((dropUse_keepsRecords ..).since_eq rfl rfl))
  · exact (unfillTack_keepsRecords ..).since ((dropUse_keepsRecords ..).since_eq rfl rfl)

theorem cipherBreak_keepsRecords (j : CJob) (status due : Nat) : KeepsRecords s (cipherBreak j status due s) := by
  unfold cipherBreak
  exact (cipherEnd_keepsRecords ..).since (.ite (partialUnits_keepsRecords ..) (.refl s))

theorem cipherCuts_keepsRecords : KeepsRecords s (cipherCuts s) :=
  .foldl (fun v _ => .ite (.refl v) (cipherBreak_keepsRecords ..)) _ s

theorem wipeBank_keepsRecords (c : Prop) [Decidable c] (j : PJob) : KeepsRecords s (if c then wipeBank j s else s) :=
  .ite (.of_eq rfl rfl) (.refl s)

theorem pkeEnd_keepsRecords (j : PJob) (status outlen due : Nat) : KeepsRecords s (pkeEnd j status outlen due s) := by
  have wiped := wipeBank_keepsRecords s (j.eng.isSome = true) j
  unfold pkeEnd
  dsimp only
  split
  · exact (endHeld_keepsRecords ..).since ((unfillTack_keepsRecords ..).since
      ((dropUse_keepsRecords ..).since (wiped.trans (.of_eq rfl rfl))))
  · exact (unfillTack_keepsRecords ..).since ((dropUse_keepsRecords ..).since (wiped.trans (.of_eq rfl rfl)))

theorem pkeAbort_keepsRecords (j : PJob) (status : Nat) : KeepsRecords s (pkeAbort j status s) := by
  unfold pkeAbort
  exact .ite (.trans (pkeEnd_keepsRecords ..) (.of_eq rfl rfl)) (pkeEnd_keepsRecords ..)

theorem pkeCuts_keepsRecords : KeepsRecords s (pkeCuts s) :=
  .foldl (fun v _ => .ite (.refl v) (pkeAbort_keepsRecords ..)) _ s

theorem cvPend_keepsRecords (r : Req) (due status unit slices outlen value : Nat) :
    KeepsRecords s (cvPend r due status unit slices outlen value s) := .of_eq rfl rfl

theorem scanEnd_keepsRecords (j : CvJob) (status outlen value due : Nat) :
    KeepsRecords s (scanEnd j status outlen value due s) := by
  unfold scanEnd
  exact (cvPend_keepsRecords ..).since ((setEventIf_keepsRecords ..).since ((setEventIf_keepsRecords ..).since_eq rfl rfl))

theorem cvCuts_keepsRecords : KeepsRecords s (cvCuts s) := .foldl (fun _ _ => scanEnd_keepsRecords ..) _ s

theorem abortWait_keepsRecords (w : WaitReq) : KeepsRecords s (abortWait w s) := by
  unfold abortWait
  split
  · dsimp only
    split
    · split
      · exact (endHeld_keepsRecords ..).since_eq rfl rfl
      · exact .of_eq rfl rfl
    · unfold pkeRefuseHeld
      split
      · exact .of_eq rfl rfl
      · exact .of_eq rfl rfl
      · exact (endHeld_keepsRecords ..).since_eq rfl rfl
    · exact .of_eq rfl rfl
    · exact .of_eq rfl rfl
    · exact .of_eq rfl rfl
  · exact .refl s

theorem endWaits_keepsRecords (test : Req → Bool) : KeepsRecords s (endWaits test s) := by
  unfold endWaits
  exact (KeepsRecords.foldl (fun v w => abortWait_keepsRecords v w) _ _).since_eq rfl rfl

theorem cutCipher_keepsRecords (test : CJob → Bool) (status : Nat) : KeepsRecords s (cutCipher test status s) := .of_eq rfl rfl

theorem cutPke_keepsRecords (test : PJob → Bool) (status : Nat) : KeepsRecords s (cutPke test status s) := .of_eq rfl rfl

theorem cutCv_keepsRecords (test : CvJob → Bool) : KeepsRecords s (cutCv test s) := .of_eq rfl rfl

theorem endJobs_keepsRecords (test : Req → Bool) : KeepsRecords s (endJobs test s) := by
  have cipher := (cutCipher_keepsRecords s (fun j => test j.req) stAborted).trans (cipherCuts_keepsRecords ..)
  have pke := cipher.trans ((cutPke_keepsRecords _ (fun j => test j.req) stAborted).trans (pkeCuts_keepsRecords ..))
  have cv := pke.trans ((cutCv_keepsRecords _ (fun j => test j.req)).trans (cvCuts_keepsRecords ..))
  exact cv.trans (endWaits_keepsRecords ..)

/-- A revocation ends the paddock's work and nothing of any paddock's record. -/
theorem revokeWork_keepsRecords (p : Nat) : KeepsRecords s (revokeWork p s) :=
  (revokeStalls_keepsRecords s p).trans ((markAbortAll_keepsRecords ..).trans (endJobs_keepsRecords ..))

end WorkEnds

/-! ### Records of paddocks (R181) -/

section Records
variable {s : State} {p : Nat}

theorem setPaddock_aside {t : State} (h : Aside s t) (q : Paddock) : Aside (setPaddock p q s) (setPaddock p q t) where
  tk := by
    show { t.tk with paddocks := Tab.set Paddock.absent t.tk.paddocks p q } = _
    rw [h.tk]
    rfl
  mem := h.mem
  time := h.time
  pc := h.pc
  cn := h.cn
  od := h.od
  cd := h.cd

/-- A record kept is that paddock's, and only its. -/
theorem keepPaddock_spec (p : Nat) (q : Paddock) (s : State) :
    Aside (setPaddock p q s) (keepPaddock p q s) ∧ (keepPaddock p q s).paddock p = q ∧
      ∀ r, r ≠ p → (keepPaddock p q s).paddock r = s.paddock r := by
  have kept := aside_reservePut 0x01 p (padRecord p q) (setPaddock p q s)
  exact ⟨kept, (kept.paddock p).trans (paddock_setPaddock_self ..),
    fun r hr => (kept.paddock r).trans (paddock_setPaddock_ne _ q hr)⟩

/-- Sealing anew leaves STATE and GEN. -/
theorem resealed_frame (s : State) (p : Nat) (q : Paddock) (key : Option (List Byte)) :
    (resealed s p q key).st = q.st ∧ (resealed s p q key).gen = q.gen := by
  unfold resealed
  dsimp only
  split
  · exact ⟨rfl, rfl⟩
  · exact ⟨rfl, rfl⟩

end Records

/-! ### An act that is asked for (R177, R178) -/

theorem askAct_accepted {s : State} {p act : Nat} (hp : p < 256) (cred : Nat) (h : actAccepted s p act = true) :
    askAct (p % 256) act cred s =
      { s with tk := { s.tk with acts := s.tk.acts ++ [{ paddock := p, act := act, asked := s.tick, cred := cred }] } } := by
  rw [Nat.mod_eq_of_lt hp]
  exact if_pos h

section Effects
variable {s : State} {p : Nat} {a : PadAct}

/-- The act is no longer asked for. -/
def actTaken (a : PadAct) (s : State) : State := { s with tk := { s.tk with acts := s.tk.acts.erase a } }

/-- The act's effect on the record, reported. -/
def actReported (a : PadAct) (s : State) : State :=
  let s1 := actPaddock a (actTaken a s)
  ledgerEvent 0x2040 (a.act * 256 + a.paddock) ((s1.paddock a.paddock).gen :: lowHigh a.cred) s1

theorem exec_paddockActEffect (hf : s.tk.acts.find? (fun x => x.paddock == p) = some a) (hasked : a.asked < s.tick) :
    exec (.paddockActEffect p) s = .next (actEffect a s) := by
  show execPaddockActEffect p s = _
  simp only [execPaddockActEffect, hf, hasked, if_true]

theorem actEffect_create {keep : List Byte} (ha : a.act = 1) (hk : s.tk.keep = some keep) : actEffect a s = actReported a s := by
  have present : ¬(a.act = 1 ∧ s.tk.keep.isNone = true) := by simp [hk]
  exact (if_neg present).trans (if_pos ha)

theorem actEffect_revoke (ha : a.act ≠ 1) : actEffect a s = revokeWork a.paddock (actReported a s) :=
  (if_neg fun h => ha h.1).trans (if_neg ha)

/-! #### CREATE (R177, R181, R182) -/

/-- The record that a CREATE makes, with a master key sealed under the keep key. -/
def createdPaddock (s : State) (p : Nat) (keep key : List Byte) : Paddock where
  st := 1
  gen := (s.paddock p).gen + 1
  sealSeq := (s.paddock p).sealSeq + 1
  sealed := sealKey keep 0 (sealHead p 1 ((s.paddock p).gen + 1) ((s.paddock p).sealSeq + 1)) key
  master := if s.keepPresent then some key else none

/-- A created paddock's record unseals to its master key. -/
theorem createdPaddock_unseals (s : State) (p : Nat) (keep : List Byte) {key : List Byte} (hlen : key.length = 32) :
    unsealKey keep 0 ((createdPaddock s p keep key).head p) (createdPaddock s p keep key).sealed = some key :=
  (unsealKey_sealKey ..).trans (congrArg some (takePad_of_length hlen))

/-- The record at a CREATE's boundary, and the quotas of 0. -/
theorem actPaddock_create {keep : List Byte} (ha : a.act = 1) (hk : s.tk.keep = some keep) :
    ∃ key u, key.length = 32 ∧ Aside (setPaddock a.paddock (createdPaddock s a.paddock keep key) s) u ∧ actPaddock a s =
      { u with tk := { u.tk with
        quota := Tab.set 0 u.tk.quota a.paddock 0, vquota := Tab.set 0 u.tk.vquota a.paddock 0 } } := by
  obtain ⟨hlen, drawn⟩ := drawBytes_spec 32 s
  have record : resealed s a.paddock (actLeaves a.act (s.paddock a.paddock)) (some (drawBytes 32 s).1) =
      createdPaddock s a.paddock keep (drawBytes 32 s).1 := by
    simp only [resealed, actLeaves, ha, hk, if_true]
    rfl
  obtain ⟨kept, -, -⟩ := keepPaddock_spec a.paddock (createdPaddock s a.paddock keep (drawBytes 32 s).1) (drawBytes 32 s).2
  refine ⟨(drawBytes 32 s).1, _, hlen, (setPaddock_aside drawn _).trans kept, ?_⟩
  simp only [actPaddock, record]
  rw [if_pos ha]

/-! #### DELETE and REVOKE (R177, R178, R180) -/

/-- The record at a DELETE's or REVOKE's boundary, and its event. -/
theorem actPaddock_advance (ha : a.act = 2 ∨ a.act = 3) (hgen : (s.paddock a.paddock).gen < 0xFFFF) :
    ((actPaddock a s).paddock a.paddock).gen = (s.paddock a.paddock).gen + 1 ∧
      (a.act = 2 → ((actPaddock a s).paddock a.paddock).st = 2 ∧ ((actPaddock a s).paddock a.paddock).master = none) ∧
      (a.act = 3 → ((actPaddock a s).paddock a.paddock).st = (s.paddock a.paddock).st) ∧
      (Tab.get 0 (actPaddock a s).events 6).getLsbD 1 = true := by
  have kept (q : Paddock) : (setEvent 6 1 (keepPaddock a.paddock q s)).paddock a.paddock = q :=
    ((aside_setEvent ..).paddock _).trans (keepPaddock_spec ..).2.1
  have raised (u : State) : (Tab.get 0 (setEvent 6 1 u).events 6).getLsbD 1 = true := setEvent_self _ 6 1 (by decide)
  obtain ha | ha := ha
  · have run : actPaddock a s = setEvent 6 1 (keepPaddock a.paddock { actLeaves a.act (s.paddock a.paddock) with
        sealSeq := (s.paddock a.paddock).sealSeq + 1, sealed := [], master := none } s) := by
      simp only [actPaddock, ha, Nat.reduceEqDiff, if_false, if_true]
    rw [run, kept]
    refine ⟨?_, fun _ => ⟨?_, rfl⟩, fun h3 => ?_, raised _⟩
    · simp only [actLeaves, ha, hgen, Nat.reduceEqDiff, if_false, if_true]
    · simp only [actLeaves, ha, Nat.reduceEqDiff, if_false, if_true]
    · omega
  · have run : actPaddock a s = setEvent 6 1 (keepPaddock a.paddock (resealed s a.paddock
        (actLeaves a.act (s.paddock a.paddock)) (if (s.paddock a.paddock).master.isSome then (s.paddock a.paddock).master
          else sealedMaster s a.paddock)) s) := by
      simp only [actPaddock, ha, Nat.reduceEqDiff, if_false]
    obtain ⟨hst, hg⟩ := resealed_frame s a.paddock (actLeaves a.act (s.paddock a.paddock))
      (if (s.paddock a.paddock).master.isSome then (s.paddock a.paddock).master else sealedMaster s a.paddock)
    rw [run, kept, hst, hg]
    refine ⟨?_, fun h2 => ?_, fun _ => ?_, raised _⟩
    · simp only [actLeaves, ha, Nat.reduceEqDiff, if_false]
    · omega
    · simp only [actLeaves, ha, Nat.reduceEqDiff, if_false]

/-- What follows the record's own change keeps it, and its event. -/
theorem actReported_keepsRecords : KeepsRecords (actPaddock a (actTaken a s)) (actReported a s) := ledgerEvent_keepsRecords ..

/-- No rein of a generation that has passed is current. -/
theorem genOk_of_advanced {t : State} {r : Rein} (hw : r.isWarden = false) (hgen : (t.paddock r.pad).gen = r.gen + 1) :
    Rein.genOk t r = false := by
  have passed : ((t.paddock r.pad).gen == r.gen) = false := beq_false_of_ne (by omega)
  simp only [Rein.genOk, hw, genCurrent, passed, Bool.and_false, Bool.false_eq_true, if_false]

end Effects

/-! ### The last entry of a deleted paddock (R179) -/

theorem exec_paddockAbsent {s : State} {p : Nat} (hst : (s.paddock p).st = 2) :
    exec (.paddockAbsent p) s = .next (keepPaddock p { s.paddock p with st := 0 } { s with tk := { s.tk with
      tacks := s.tk.tacks.filter (fun e => e.2.paddock != p), vault := s.tk.vault.filter (fun e => byteAt e.2 7 != p) } }) :=
  if_pos hst

/-! ### The statement -/

/-- Settles O22, clause by clause. -/
theorem paddockActsComplete : Obligations.PaddockActsComplete := by
  unfold Obligations.PaddockActsComplete
  refine ⟨fun s p cred hp => ⟨?create, ?delete, ?revoke, ?created, ?absent⟩, ?advanced⟩
  case create => exact fun h => congrArg Host.Outcome.next (askAct_accepted hp cred h)
  case delete => exact fun h => congrArg Host.Outcome.next (askAct_accepted hp cred h)
  case revoke => exact fun h => congrArg Host.Outcome.next (askAct_accepted hp cred h)
  case created =>
    intro a keep hf hasked ha hk
    obtain rfl : a.paddock = p := by simpa using List.find?_some hf
    obtain ⟨key, u, hlen, haside, run⟩ := actPaddock_create (s := actTaken a s) ha hk
    have reported : Aside (actPaddock a (actTaken a s)) (actReported a s) := aside_ledgerEvent ..
    have record : (actReported a s).paddock a.paddock = createdPaddock s a.paddock keep key := by
      rw [reported.paddock, run]
      exact (haside.paddock _).trans (paddock_setPaddock_self ..)
    refine ⟨actReported a s, key, (exec_paddockActEffect hf hasked).trans (congrArg _ (actEffect_create ha hk)), hlen, record, ?_,
      fun q hq => ?_, ?_, ?_, ?_, ?_, ?_⟩
    · rw [record]
      exact createdPaddock_unseals s a.paddock keep hlen
    · rw [reported.paddock, run]
      exact (haside.paddock _).trans (paddock_setPaddock_ne _ _ hq)
    · rw [reported.part (·.acts), run]
      exact haside.part (·.acts)
    · rw [reported.part (·.quota), run]
      exact Tab.get_set_self ..
    · rw [reported.part (·.vquota), run]
      exact Tab.get_set_self ..
    · rw [reported.part (·.tacks), run]
      exact haside.part (·.tacks)
    · rw [reported.mem, run]
      exact haside.mem
  case absent =>
    intro hst
    obtain ⟨haside, hself, hother⟩ := keepPaddock_spec p { s.paddock p with st := 0 } { s with tk := { s.tk with
      tacks := s.tk.tacks.filter (fun e => e.2.paddock != p), vault := s.tk.vault.filter (fun e => byteAt e.2 7 != p) } }
    exact ⟨_, exec_paddockAbsent hst, by rw [hself], by rw [hself], hother, haside.part (·.tacks), haside.part (·.vault),
      haside.mem⟩
  case advanced =>
    intro s p a hf hasked ha hgen
    obtain rfl : a.paddock = p := by simpa using List.find?_some hf
    obtain ⟨hadv, hdelete, hrevoke, hleaf⟩ := actPaddock_advance (s := actTaken a s) ha hgen
    have kept : KeepsRecords (actPaddock a (actTaken a s)) (actEffect a s) := by
      rw [actEffect_revoke (by omega)]
      exact actReported_keepsRecords.trans (revokeWork_keepsRecords ..)
    have record := kept.paddock a.paddock
    rw [← record] at hadv hdelete hrevoke
    refine ⟨_, exec_paddockActEffect hf hasked, hadv, fun r hw hpad hold => ?_, hdelete, hrevoke, kept.leaf hleaf⟩
    refine genOk_of_advanced hw ?_
    rw [hpad, hold]
    exact hadv

end Sys2Proof.Proofs
end

section
/-! The acts of the custodian quorum (R199–R203, R371): how an act begins, how its shares are written, what a share decides, and
how an image is backed up. -/

namespace Sys2Proof.Proofs

open Sys2Proof Sys2Proof.Machine Sys2Proof.Laws

/-! ### The start of an act (R199, R200) -/

theorem aside_freshKey (s : State) : Aside s (freshKey s).2 := aside_custodyBytes 72 s

/-- An enrolment replaces the custodians, and its records go to the reserve. -/
theorem aside_enrolCustodians (es : List Custodian) (s : State) :
    ∃ cs, Aside { s with tk := { s.tk with custodians := cs } } (enrolCustodians es s) := by
  unfold enrolCustodians
  split
  · exact ⟨s.tk.custodians, .refl s⟩
  · exact ⟨_, .foldl (fun v p => aside_reservePut ..) _ _⟩

theorem aside_beginAct (act cred : Nat) (s : State) :
    Aside { s with od := { s.od with actKind := 0 } } (beginAct act cred s) := aside_ledgerEvent ..

theorem aside_keepSaddlebag (rec : Option (List Byte)) (s : State) :
    Aside { s with tk := { s.tk with sbRec := rec } } (keepSaddlebag rec s) := by
  cases rec with
  | none => exact .refl _
  | some r => exact aside_reservePut ..

/-- From `s` to `t` the officer's write is spent and custodians may be enrolled; nothing else that a quorum act keeps has changed. -/
structure ActBegun (s t : State) : Prop where
  tk : t.tk = { s.tk with drbg := t.tk.drbg, custodians := t.tk.custodians }
  spent : t.od.actKind = 0
  mem : t.mem = s.mem
  time : t.time = s.time
  pc : t.pc = s.pc
  cn : t.cn = s.cn

theorem actBegun_of_aside {act cred : Nat} {es : List Custodian} {s t : State}
    (h : Aside (beginAct act cred (enrolCustodians es s)) t) : ActBegun s t := by
  obtain ⟨cs, enrolled⟩ := aside_enrolCustodians es s
  have begun : Aside { enrolCustodians es s with od := { (enrolCustodians es s).od with actKind := 0 } } t :=
    (aside_beginAct ..).trans h
  exact {
    tk := by rw [begun.tk, enrolled.tk]
    spent := by rw [begun.od]
    mem := begun.mem.trans enrolled.mem
    time := begun.time.trans enrolled.time
    pc := begun.pc.trans enrolled.pc
    cn := begun.cn.trans enrolled.cn }

/-- A session opens now, with a fresh device key. -/
theorem openQuorum_spec (act cred m n kid addr : Nat) (next : Nat × Nat) (places : List Nat) (record image : List Byte)
    (es : List Custodian) (s : State) :
    ∃ t dev, openQuorum act cred m n kid addr next places record image (enrolCustodians es s) = t ∧ t.tk.quorum = some {
        openAt := s.time.now, act := act, cred := cred, m := m, n := n, kid := kid, next := next, acc := [], addr := addr,
        record := record, image := image, dev := dev, places := places } ∧ t.od.actKind = 0 ∧ t.mem = s.mem ∧ t.cn = s.cn := by
  have begun : ActBegun s (freshKey (beginAct act cred (enrolCustodians es s))).2 := actBegun_of_aside (aside_freshKey _)
  obtain ⟨cs, enrolled⟩ := aside_enrolCustodians es s
  have opened : (enrolCustodians es s).time.now = s.time.now := congrArg _ enrolled.time
  refine ⟨_, (freshKey (beginAct act cred (enrolCustodians es s))).1, rfl, ?_, begun.spent, begun.mem, begun.cn⟩
  rw [← opened]
  rfl

/-! ### The writes of an act (R199, R200) -/

theorem aside_drawCoeffs (n : Nat) (s : State) : Aside s (drawCoeffs n s).2 := by
  induction n generalizing s with
  | zero => exact .refl s
  | succ n ih => exact (aside_custodyBytes 32 s).trans (ih _)

/-- The writes of shares so far, and the next one, under a fresh device key. -/
def addShareWrite (share : Nat → List Byte) (places : List Nat) (acc : List Action × State) (i : Nat) : List Action × State :=
  (acc.1 ++ [shareAction (freshKey acc.2).2 (i + 1) (places.getD i 0) (freshKey acc.2).1 (share (i + 1))], (freshKey acc.2).2)

theorem addShareWrite_foldl (share : Nat → List Byte) (places l : List Nat) (acc : List Action × State) :
    (l.foldl (addShareWrite share places) acc).1.length = acc.1.length + l.length ∧
      Aside acc.2 (l.foldl (addShareWrite share places) acc).2 := by
  induction l generalizing acc with
  | nil => exact ⟨rfl, .refl _⟩
  | cons i l ih =>
    obtain ⟨hlen, haside⟩ := ih (addShareWrite share places acc i)
    refine ⟨hlen.trans ?_, (aside_freshKey _).trans haside⟩
    simp only [addShareWrite, List.length_append, List.length_cons, List.length_nil]
    omega

/-- A job of new shares: one write and one digest for each of the custodians 1 to n, and no write begun. -/
structure SplitsKey (act : Nat) (key : List Byte) (m n : Nat) (j : QuorumJob) : Prop where
  act_eq : j.act = act
  key_eq : j.key = key
  m_eq : j.m = m
  n_eq : j.n = n
  sums_eq : j.sums.map (fun e => e.1) = (List.range n).map (fun i => i + 1)
  todo_eq : j.todo.length = n
  slot_eq : j.slot = none

theorem splitJob_spec (act : Nat) (key : List Byte) (m n : Nat) (places : List Nat) (s : State) :
    ∃ u j, Aside s u ∧ SplitsKey act key m n j ∧ splitJob act key m n places s = { u with tk := { u.tk with job := some j } } := by
  obtain ⟨hlen, haside⟩ := addShareWrite_foldl (shamirShare key (drawCoeffs (m - 1) s).1) places (List.range n)
    ([], (drawCoeffs (m - 1) s).2)
  refine ⟨_, _, (aside_drawCoeffs ..).trans haside, ⟨rfl, rfl, rfl, rfl, ?_, hlen.trans ?_, rfl⟩, rfl⟩
  · exact List.map_map ..
  · simp

theorem freeSlot_congr {s t : State} (hcn : t.cn = s.cn) (htime : t.time = s.time) : freeSlot t = freeSlot s := by
  unfold freeSlot getCinch State.tick
  rw [hcn, htime]

section Boundary
variable {s : State} {j : QuorumJob}

/-- The job once its next write, if any slot is free for it, has begun. -/
def WriteBegun (s : State) (j : QuorumJob) (rest : List Action) (j1 : QuorumJob) : Prop :=
  j1 = j ∨ ∃ i, freeSlot s = some i ∧ j1 = { j with todo := rest, slot := some i }

/-- The next write begins where a slot and its objects are free; otherwise it stays to do. -/
theorem openWrite_spec (hj : s.tk.job = some j) (a : Action) (rest : List Action) :
    ∃ j1, WriteBegun s j rest j1 ∧ (openWrite j a rest s).tk = { s.tk with job := some j1 } ∧
      (openWrite j a rest s).od = s.od ∧ (openWrite j a rest s).pc = s.pc ∧ (openWrite j a rest s).cd = s.cd := by
  have waits : WriteBegun s j rest j ∧ s.tk = { s.tk with job := some j } := ⟨.inl rfl, by rw [← hj]⟩
  unfold openWrite
  dsimp only
  split
  next i hi =>
    split
    · exact ⟨j, waits.1, waits.2, rfl, rfl, rfl⟩
    · exact ⟨_, .inr ⟨i, hi, rfl⟩, rfl, rfl, rfl, rfl⟩
  next => exact ⟨j, waits.1, waits.2, rfl, rfl, rfl⟩

theorem quorumBoundary_write {a : Action} {rest : List Action} (hj : s.tk.job = some j) (hslot : j.slot = none)
    (htodo : j.todo = a :: rest) : quorumBoundary s = openWrite j a rest s := by
  simp only [quorumBoundary, hj, hslot, htodo, Option.isSome_none, Bool.false_eq_true, if_false]

theorem quorumBoundary_finish (hj : s.tk.job = some j) (hslot : j.slot = none) (htodo : j.todo = []) :
    quorumBoundary s = finishJob j s := by
  simp only [quorumBoundary, hj, hslot, htodo, Option.isSome_none, Bool.false_eq_true, if_false]

/-- With a begun write counted, as many writes are left as before. -/
theorem WriteBegun.count {a : Action} {rest : List Action} {j1 : QuorumJob} (h : WriteBegun s j rest j1) (hslot : j.slot = none)
    (htodo : j.todo = a :: rest) : j1.todo.length + (if j1.slot.isSome then 1 else 0) = j.todo.length := by
  obtain rfl | ⟨i, -, rfl⟩ := h
  · simp [hslot]
  · simp [htodo]

theorem WriteBegun.keeps {rest : List Action} {j1 : QuorumJob} (h : WriteBegun s j rest j1) :
    j1.act = j.act ∧ j1.m = j.m ∧ j1.n = j.n ∧ j1.key = j.key ∧ j1.sums = j.sums := by
  obtain rfl | ⟨i, -, rfl⟩ := h
  · exact ⟨rfl, rfl, rfl, rfl, rfl⟩
  · exact ⟨rfl, rfl, rfl, rfl, rfl⟩

theorem WriteBegun.slot {rest : List Action} {j1 : QuorumJob} (h : WriteBegun s j rest j1) (hslot : j.slot = none) :
    j1.slot.isSome = (freeSlot s).isSome ∨ j1.slot = none := by
  obtain rfl | ⟨i, hi, rfl⟩ := h
  · exact .inr hslot
  · exact .inl (by rw [hi])

/-! ### SPLIT (R199, R200) -/

/-- A SPLIT draws a key and begins the first of its writes where it can. -/
theorem execQuorumSplit_spec {cred m n : Nat} {enrol : List Custodian} {places : List Nat} (hasked : actAsked s 1 cred = true)
    (hrec : s.tk.sbRec = none) (hkeep : s.keepPresent = true) (hshares : sharesOk (enrolCustodians enrol s) m n = true)
    (hidle : quorumBusy s = false) :
    ∃ t j, exec (.quorumSplit cred m n ⟨enrol, places⟩) s = .next t ∧ t.tk.job = some j ∧ j.act = 1 ∧ j.m = m ∧ j.n = n ∧
      j.key.length = 32 ∧ j.sums.map (fun e => e.1) = (List.range n).map (fun i => i + 1) ∧
      j.todo.length + (if j.slot.isSome then 1 else 0) = n ∧ (j.slot.isSome = (freeSlot s).isSome ∨ j.slot = none) ∧
      t.tk.sbRec = none ∧ t.od.actKind = 0 ∧ t.mem = s.mem ∧ t.pc = s.pc := by
  obtain ⟨hlen, drawn⟩ := drawBytes_spec 32 (beginAct 1 cred (enrolCustodians enrol s))
  obtain ⟨u, j, shared, hj, hsplit⟩ := splitJob_spec 1 (drawBytes 32 (beginAct 1 cred (enrolCustodians enrol s))).1 m n places
    (drawBytes 32 (beginAct 1 cred (enrolCustodians enrol s))).2
  have begun : ActBegun s u := actBegun_of_aside (drawn.trans shared)
  have many : 2 ≤ n := by
    simp only [sharesOk, Bool.and_eq_true, decide_eq_true_eq] at hshares
    omega
  obtain ⟨a, rest, htodo⟩ := List.exists_cons_of_length_pos (l := j.todo) (by have := hj.todo_eq; omega)
  have run : exec (.quorumSplit cred m n ⟨enrol, places⟩) s = .next (quorumBoundary (splitJob 1
      (drawBytes 32 (beginAct 1 cred (enrolCustodians enrol s))).1 m n places
      (drawBytes 32 (beginAct 1 cred (enrolCustodians enrol s))).2)) := by
    show execQuorumSplit cred m n ⟨enrol, places⟩ s = _
    simp only [execQuorumSplit, hasked, hrec, hkeep, hshares, hidle]
    rfl
  rw [run, hsplit]
  obtain ⟨j1, hbegun, htk, hod, hpc, -⟩ := openWrite_spec (s := { u with tk := { u.tk with job := some j } }) rfl a rest
  rw [quorumBoundary_write rfl hj.slot_eq htodo]
  have slots : freeSlot u = freeSlot s := freeSlot_congr begun.cn begun.time
  obtain ⟨hact, hm, hn, hkey, hsums⟩ := hbegun.keeps
  refine ⟨_, j1, rfl, by rw [htk], hact.trans hj.act_eq, hm.trans hj.m_eq, hn.trans hj.n_eq, ?key, ?sums, ?todo,
    ?slot, ?record, ?spent, ?mem, hpc.trans begun.pc⟩
  case key => rw [hkey, hj.key_eq, hlen]
  case sums => rw [hsums, hj.sums_eq]
  case todo => rw [hbegun.count hj.slot_eq htodo, hj.todo_eq]
  case slot =>
    rw [← slots]
    exact hbegun.slot hj.slot_eq
  case record => rw [htk, begun.tk, hrec]
  case spent => rw [hod, begun.spent]
  case mem => exact (openWrite_mem ..).trans begun.mem

/-! ### The end of an act (R200, R202) -/

theorem finishJob_backup (hact : j.act = 2) : finishJob j s =
    { s with tk := { s.tk with job := none, actEnd := (j.act, stOK), generation := j.gen } } := if_pos hact

/-- A SPLIT's or RESPLIT's end: only the new shares are accepted, and a SPLIT's key is kept sealed. -/
theorem finishJob_shares (hact : j.act ≠ 2) : ∃ t, finishJob j s = t ∧ t.tk.job = none ∧ t.tk.actEnd = (j.act, stOK) ∧
    t.tk.sbShares = some (j.m, j.n) ∧ t.tk.shareSum = j.sums ∧ t.tk.quorum = none ∧
    (j.act = 1 → t.tk.sbRec = s.tk.keep.map (fun k => keyRecord k 1 j.key)) := by
  unfold finishJob
  by_cases h1 : j.act = 1
  · have kept := aside_keepSaddlebag (s.tk.keep.map (fun k => keyRecord k 1 j.key))
      { s with tk := { s.tk with job := none, actEnd := (j.act, stOK) } }
    rw [if_neg hact, if_pos h1]
    exact ⟨_, rfl, kept.part (·.job), kept.part (·.actEnd), rfl, rfl, rfl, fun _ => kept.part (·.sbRec)⟩
  · rw [if_neg hact, if_neg h1]
    exact ⟨_, rfl, rfl, rfl, rfl, rfl, rfl, fun h => absurd h h1⟩

end Boundary

/-! ### The m-th share (R201, R203) -/

section Met
variable {s : State} {q : Quorum}

theorem quorumMet_mismatch (h : keyId (shamirJoin q.acc) ≠ q.kid) : quorumMet q s =
    setEvent 6 6 { s with tk := { s.tk with quorum := none, actEnd := (q.act, stCheckFail) } } := if_pos h

/-- A JOIN's end: the rebuilt key is kept sealed under the keep key. -/
theorem quorumMet_join (hkid : keyId (shamirJoin q.acc) = q.kid) (hact : q.act = 3) :
    (quorumMet q s).tk.quorum = none ∧ (quorumMet q s).tk.sbShares = some (q.m, q.n) ∧
      (quorumMet q s).tk.sbRec =
        if s.keepPresent then s.tk.keep.map (fun k => keyRecord k 1 (shamirJoin q.acc)) else none := by
  have kept := aside_keepSaddlebag
    (if s.keepPresent then s.tk.keep.map (fun k => keyRecord k 1 (shamirJoin q.acc)) else none) (endQuorum s)
  unfold quorumMet
  rw [if_neg (not_not_intro hkid), if_pos hact]
  exact ⟨kept.part (·.quorum), rfl, kept.part (·.sbRec)⟩

theorem quorumMet_restore (hkid : keyId (shamirJoin q.acc) = q.kid) (hact : q.act = 5) :
    quorumMet q s = restoreImage q (shamirJoin q.acc) (endQuorum s) := by
  simp only [quorumMet, hkid, hact, ne_eq, not_true_eq_false, Nat.reduceEqDiff, if_false]

theorem restoreImage_mismatch {key : List Byte} (h : field q.record 4 4 ≠ field q.image 4 4 ∨
    (q.record.drop 0x10).take 48 ≠ takePad 48 (Config.hash 384 q.image)) :
    restoreImage q key s = { s with tk := { s.tk with actEnd := (5, stCheckFail) } } := if_pos h

end Met

/-! ### A share comes in (R199, R201) -/

section Shares
variable {s : State} {q : Quorum} {who : Nat} {wrapped : List Byte}

/-- The share that custodian `who` gives, where it unwraps to 32 bytes that its hash does not contradict. -/
def goodShare (s : State) (q : Quorum) (who : Nat) (wrapped : List Byte) : Option (List Byte) :=
  (kwpUnwrap (shareCipher q.dev (custodian s who)) wrapped).filter (fun b => 1 ≤ who && who ≤ q.n &&
    b.length == 32 && !((s.tk.shareSum.find? (fun e => e.1 == who)).any (fun e => e.2 != Config.hash 256 b)))

/-- The session with one more share. -/
def withShare (q : Quorum) (who : Nat) (b : List Byte) : Quorum := { q with acc := insertShare (who, b) q.acc }

variable (hq : s.tk.quorum = some q) (hopen : q.opened s = true) (hjob : s.tk.job = none) (hnew : ∀ e ∈ q.acc, e.1 ≠ who)
include hq hopen hjob hnew

theorem exec_quorumShareReceived_bad (hbad : goodShare s q who wrapped = none) (place : Nat) :
    exec (.quorumShareReceived place who wrapped) s = .next (setEvent 6 6 s) := by
  have unseen : q.acc.any (fun e => e.1 == who) = false := by simpa using fun a b hab => hnew (a, b) hab
  unfold goodShare at hbad
  show execQuorumShareReceived place who wrapped s = _
  simp only [execQuorumShareReceived, hq, hopen, hjob, unseen, Bool.not_true, Option.isSome_none, Bool.or_false,
    Bool.false_eq_true, if_false, Option.any_map, hbad]

theorem exec_quorumShareReceived_good {b : List Byte} (hgood : goodShare s q who wrapped = some b) (place : Nat) :
    exec (.quorumShareReceived place who wrapped) s = .next (if (withShare q who b).acc.length = q.m then
      quorumMet (withShare q who b) { s with tk := { s.tk with quorum := some (withShare q who b) } }
    else { s with tk := { s.tk with quorum := some (withShare q who b) } }) := by
  have unseen : q.acc.any (fun e => e.1 == who) = false := by simpa using fun a b hab => hnew (a, b) hab
  unfold goodShare at hgood
  show execQuorumShareReceived place who wrapped s = _
  simp only [execQuorumShareReceived, hq, hopen, hjob, unseen, Bool.not_true, Option.isSome_none, Bool.or_false,
    Bool.false_eq_true, if_false, Option.any_map, hgood]
  exact (apply_ite Host.Outcome.next _ _ _).symm

end Shares

/-! ### BACKUP (R202, R368, R371) -/

theorem noteRpmb_frame (n kind : Nat) (f : List Byte) (s : State) : (noteRpmb n kind f s).tk = s.tk ∧
    (noteRpmb n kind f s).od = s.od ∧ (noteRpmb n kind f s).cd.toCard = s.cd.toCard := by
  have event : Aside s (setEventIf (kind == 3) 13 9 s) := by
    unfold setEventIf
    split
    · exact aside_setEvent ..
    · exact .refl s
  unfold noteRpmb
  dsimp only
  split
  · exact ⟨setEventIf_tk .., event.od, by rw [← event.cd]; rfl⟩
  · exact ⟨setEventIf_tk .., event.od, by rw [event.cd]⟩

/-- Reading a card's write counter leaves the job in progress, the officer's commands and what goes to the card's user area. -/
theorem cardCounter_frame (a : Action) (kind : Nat) (f : List Byte) (s : State) :
    (cardCounter a kind f s).2.tk.job = s.tk.job ∧ (cardCounter a kind f s).2.od = s.od ∧
      (cardCounter a kind f s).2.cd.toCard = s.cd.toCard := by
  obtain ⟨htk, hod, hcard⟩ := noteRpmb_frame a.obj (rpmbFinding (cardKey s a) (some (rpmbAsk a.obj 2 0 s).1) kind f) f
    (rpmbAsk a.obj 2 0 s).2
  have asked : Aside s (drawBytes 16 s).2 := (drawBytes_spec 16 s).2
  refine ⟨(congrArg TackUnit.job htk).trans (asked.part (·.job)), hod.trans asked.od, hcard.trans ?_⟩
  exact (congrArg CardUnit.toCard asked.cd :)

section Backup
variable {s : State} {cred slot gen area : Nat} {mask record back key img : List Byte} {ans : ExAnswer}

/-- The state in which a BACKUP has begun and its image has gone to the card's user area. -/
def imageSent (s : State) (cred slot lba : Nat) (img : List Byte) : State :=
  beginAct 2 cred { s with cd := { s.cd with toCard := s.cd.toCard ++ [(0x10 + slot, lba, img)] } }

theorem imageSent_frame (s : State) (cred slot lba : Nat) (img : List Byte) :
    (imageSent s cred slot lba img).mem = s.mem ∧ (imageSent s cred slot lba img).od.actKind = 0 ∧
      (imageSent s cred slot lba img).tk.job = s.tk.job ∧
      (imageSent s cred slot lba img).cd.toCard = s.cd.toCard ++ [(0x10 + slot, lba, img)] := by
  have begun := aside_beginAct 2 cred { s with cd := { s.cd with toCard := s.cd.toCard ++ [(0x10 + slot, lba, img)] } }
  refine ⟨begun.mem, ?_, begun.part (·.job), ?_⟩
  · exact congrArg (·.actKind) begun.od
  · exact congrArg CardUnit.toCard begun.cd

/-- The job that commits an image's generation record. -/
def imageJob (act : Action) (gen : Nat) : QuorumJob where
  act := 2
  key := []
  m := 0
  n := 0
  gen := gen
  sums := []
  todo := [act]
  slot := none

/-- What follows a good read-back: the card's counter is read, and a CARD_RPMB action commits the generation record or the act
ends with a failure. -/
def commitImage (act : Action) (slot gen : Nat) (ans : ExAnswer) (s : State) : State :=
  let r := cardCounter act ans.kind ans.data s
  if r.1 = 3 then { r.2 with tk := { r.2.tk with actEnd := (2, stCheckFail) } }
  else if r.1 ≠ 0 ∨ (getMc r.2 slot).expired then { r.2 with tk := { r.2.tk with actEnd := (2, stMediaError) } }
  else quorumBoundary { r.2 with tk := { r.2.tk with job := some (imageJob act gen) } }

theorem checkFail_ne_ok : stCheckFail ≠ stOK := by decide

theorem mediaError_ne_ok : stMediaError ≠ stOK := by decide

theorem commitImage_spec (act : Action) (slot gen : Nat) (ans : ExAnswer) (s : State) (hjob : s.tk.job = none) :
    ∃ t, commitImage act slot gen ans s = t ∧ t.mem = s.mem ∧ t.od = s.od ∧ t.cd.toCard = s.cd.toCard ∧
      ((t.tk.actEnd.2 ≠ stOK ∧ t.tk.job = none ∧ t.tk.actEnd.1 = 2) ∨ ∃ j, t.tk.job = some j ∧ j.act = 2 ∧ j.gen = gen) := by
  obtain ⟨hkept, hod, hcard⟩ := cardCounter_frame act ans.kind ans.data s
  have hmem := cardCounter_mem act ans.kind ans.data s
  have idle := hkept.trans hjob
  unfold commitImage
  generalize cardCounter act ans.kind ans.data s = r at *
  dsimp only
  split
  · exact ⟨_, rfl, hmem, hod, hcard, .inl ⟨checkFail_ne_ok, idle, rfl⟩⟩
  · split
    · exact ⟨_, rfl, hmem, hod, hcard, .inl ⟨mediaError_ne_ok, idle, rfl⟩⟩
    · obtain ⟨j, hbegun, htk, hod1, -, hcd1⟩ := openWrite_spec
        (s := { r.2 with tk := { r.2.tk with job := some (imageJob act gen) } }) rfl act []
      rw [quorumBoundary_write (j := imageJob act gen) rfl rfl rfl]
      refine ⟨_, rfl, (openWrite_mem ..).trans hmem, hod1.trans hod, by rw [hcd1, hcard], .inr ⟨j, by rw [htk], ?_⟩⟩
      obtain rfl | ⟨i, -, rfl⟩ := hbegun
      · exact ⟨rfl, rfl⟩
      · exact ⟨rfl, rfl⟩

variable (hkey : s.sbKey = some key) (hasked : actAsked s 2 cred = true) (hidle : quorumBusy s = false) (hslot : slot < 2)
  (hready : (getMc s slot).ready = true) (hnext : (gen, area) = nextImage record)
  (himg : img = backupImage s key gen mask (backupTacks s mask))
include hkey hasked hidle hslot hready hnext himg

/-- A BACKUP's three ways: the image does not fit, does not read back, or goes on to its commit. -/
theorem exec_quorumBackup : ∃ act, exec (.quorumBackup cred slot mask record ⟨back, ans⟩) s = .next (
    if ((getMc s slot).secCount - 2048) / 2 * 512 < img.length then
      { beginAct 2 cred s with tk := { s.tk with actEnd := (2, stDenied) } }
    else
      let s1 := imageSent s cred slot (2048 + area * (((getMc s slot).secCount - 2048) / 2)) img
      if imageCrc back ≠ imageCrc img then { s1 with tk := { s1.tk with actEnd := (2, stCheckFail) } }
      else commitImage act slot gen ans s1) := by
  have passes : ¬((!actAsked s 2 cred) = true ∨ quorumBusy s = true ∨ 2 ≤ slot ∨ (!(getMc s slot).ready) = true) := by
    simp [hasked, hidle, hready, hslot]
  refine ⟨backupAction slot (rpmbCount ans.data) (getMc s slot).cid (genRecord s area gen img key), ?_⟩
  show execQuorumBackup cred slot mask record ⟨back, ans⟩ s = _
  simp only [execQuorumBackup, hkey, ← hnext]
  rw [if_neg passes, ← himg]
  simp only [commitImage, apply_ite Host.Outcome.next]
  rfl

/-- Where the image goes, and how the act goes on. -/
theorem execQuorumBackup_spec {h : Nat} (hh : h = ((getMc s slot).secCount - 2048) / 2) :
    ∃ t, exec (.quorumBackup cred slot mask record ⟨back, ans⟩) s = .next t ∧ t.mem = s.mem ∧ t.od.actKind = 0 ∧
    (h * 512 < img.length → t.tk.actEnd = (2, stDenied) ∧ t.cd = s.cd) ∧
    (img.length ≤ h * 512 →
      t.cd.toCard = s.cd.toCard ++ [(0x10 + slot, 2048 + area * h, img)] ∧
      (imageCrc back ≠ imageCrc img → t.tk.actEnd = (2, stCheckFail) ∧ t.tk.job = none) ∧
      (imageCrc back = imageCrc img → (t.tk.actEnd.2 ≠ stOK ∧ t.tk.job = none ∧ t.tk.actEnd.1 = 2) ∨
        ∃ j, t.tk.job = some j ∧ j.act = 2 ∧ j.gen = gen)) := by
  obtain ⟨act, run⟩ := exec_quorumBackup (back := back) (ans := ans) hkey hasked hidle hslot hready hnext himg
  rw [← hh] at run
  have idle : s.tk.job = none := by
    simp only [quorumBusy, Bool.or_eq_false_iff, Option.isSome_eq_false_iff, Option.isNone_iff_eq_none] at hidle
    exact hidle.2
  obtain ⟨hmem, hspent, hjob, hcard⟩ := imageSent_frame s cred slot (2048 + area * h) img
  by_cases hfull : h * 512 < img.length
  · have begun := aside_beginAct 2 cred s
    rw [if_pos hfull] at run
    exact ⟨_, run, begun.mem, congrArg (·.actKind) begun.od, fun _ => ⟨rfl, begun.cd⟩,
      fun hroom => absurd hroom (Nat.not_le.2 hfull)⟩
  · rw [if_neg hfull] at run
    by_cases hback : imageCrc back = imageCrc img
    · obtain ⟨t, went, hmem1, hod1, hcard1, hways⟩ := commitImage_spec act slot gen ans
        (imageSent s cred slot (2048 + area * h) img) (hjob.trans idle)
      rw [if_neg (not_not_intro hback), went] at run
      exact ⟨t, run, hmem1.trans hmem, by rw [hod1, hspent], fun h => absurd h hfull,
        fun _ => ⟨hcard1.trans hcard, fun hbad => absurd hback hbad, fun _ => hways⟩⟩
    · rw [if_pos hback] at run
      exact ⟨_, run, hmem, hspent, fun h => absurd h hfull,
        fun _ => ⟨hcard, fun _ => ⟨rfl, hjob.trans idle⟩, fun h => absurd h hback⟩⟩

end Backup

/-! ### The statement -/

/-- Settles O23, clause by clause. That an act is asked for through 0x4610 with its operands (log 26), that the officer enrols
custodians with the act (log 155), that the writes follow one another, and that a KID that does not agree ends the act CHECK_FAIL
(log 158) are the model's choices. -/
theorem quorumActsComplete : Obligations.QuorumActsComplete := by
  unfold Obligations.QuorumActsComplete
  intro s cred m n enrol s0 hs0
  subst hs0
  refine ⟨?split, ?join, ?resplit, ?restore, ?share, ?met, ?mismatch, ?written, ?backup, ?windowEnd⟩
  case split =>
    intro places hasked hrec hkeep hshares hidle
    exact execQuorumSplit_spec hasked hrec hkeep hshares hidle
  case join =>
    intro kid hasked hrec hkeep hshares hidle
    obtain ⟨t, dev, run, opened⟩ := openQuorum_spec 3 cred m n kid 0 (0, 0) [] [] [] enrol s
    refine ⟨t, dev, ?_, opened⟩
    show execQuorumJoin cred m n ⟨kid, enrol⟩ s = _
    simp only [execQuorumJoin, hasked, hrec, hkeep, hshares, hidle, run]
    rfl
  case resplit =>
    intro key m0 n0 places hkey hscheme hasked hshares hidle
    obtain ⟨t, dev, run, opened⟩ := openQuorum_spec 4 cred m0 n0 (keyId key) 0 (m, n) places [] [] enrol s
    refine ⟨t, dev, ?_, opened⟩
    show execQuorumResplit cred ⟨m, n⟩ ⟨enrol, places⟩ s = _
    simp only [execQuorumResplit, hkey, hscheme, hasked, hshares, hidle, run]
    rfl
  case restore =>
    intro addr record image hasked hshares hidle
    obtain ⟨t, dev, run, opened⟩ := openQuorum_spec 5 cred m n (field record 0x40 8) addr (0, 0) [] record image enrol s
    refine ⟨t, dev, ?_, opened⟩
    show execQuorumRestore cred ⟨m, n⟩ addr enrol record image s = _
    simp only [execQuorumRestore, hasked, hshares, hidle, run]
    rfl
  case share =>
    intro q place who wrapped hq hopen hjob hnew
    generalize hshare : Option.filter _ _ = share
    cases share with
    | none => exact exec_quorumShareReceived_bad hq hopen hjob hnew hshare place
    | some b => exact exec_quorumShareReceived_good hq hopen hjob hnew hshare place
  case met =>
    refine fun q hkid => ⟨fun hact => ?_, fun hact hbad => ?_⟩
    · obtain ⟨hended, hscheme, hrec⟩ := quorumMet_join (s := s) hkid hact
      refine ⟨hended, hscheme, fun k hkeep hk => ?_⟩
      rw [hrec, if_pos hkeep, hk]
      rfl
    · rw [quorumMet_restore hkid hact, restoreImage_mismatch hbad]
      rfl
  case mismatch => exact fun q hkid => quorumMet_mismatch hkid
  case written =>
    intro j hj hslot htodo
    refine ⟨_, rfl, ?_⟩
    rw [quorumBoundary_finish hj hslot htodo]
    by_cases h2 : j.act = 2
    · rw [finishJob_backup h2]
      exact ⟨rfl, rfl, rfl, fun _ => rfl, by omega, by omega⟩
    · obtain ⟨t, run, hjob, hend, hscheme, hsums, hquorum, hrec⟩ := finishJob_shares (s := s) h2
      rw [run]
      refine ⟨hjob, hend, ?_, fun h => absurd h h2, fun _ => ⟨hscheme, hsums, hquorum⟩, fun k h1 hk => ?_⟩
      · rw [← run, finishJob_mem]
      · rw [hrec h1, hk]
        rfl
  case backup =>
    intro key slot mask record back ans gen area img h hkey hasked hidle hslot hready hnext himg hh
    exact execQuorumBackup_spec hkey hasked hidle hslot hready hnext himg hh
  case windowEnd =>
    intro q hq hclosed
    show execQuorumWindowEnd s = _
    simp only [execQuorumWindowEnd, hq, hclosed, Bool.false_eq_true, if_false]
    rfl

end Sys2Proof.Proofs
end

section
/-! Admission of host descriptors (R213, R215–R220, R223, R225): the command that names the descriptor at the head of its queue, the
checks that this descriptor meets in turn, and what its class makes of it. -/

namespace Sys2Proof.Proofs

open Sys2Proof Sys2Proof.Machine Sys2Proof.Laws

/-! ### Host forms of commands (R213, R215) -/

section HostForms
variable {s : State} {fn q seq cls : Nat} {d : List Byte} {rest : List (Nat × Option (List Byte))} {op : List Byte → Bool}
  {i : Instr}

theorem exec_descriptorAdmit (fn q : Nat) (s : State) : exec (.descriptorAdmit fn q) s = .next (admitFrom fn q s) := rfl

/-- A host form whose class and operation the head descriptor has admits that descriptor. -/
theorem exec_hostForm (harr : (getQueue s fn q).arrived = (seq, some d) :: rest)
    (hform : exec i s = .next (admitIf cls op fn q seq s)) (hcls : dClass d = cls) (hop : op (dBody d) = true) :
    exec i s = exec (.descriptorAdmit fn q) s := by
  have named : admitIf cls op fn q seq s = admitFrom fn q s := by
    simp only [admitIf, harr, hcls, hop, and_self, if_true]
  rw [hform, named, exec_descriptorAdmit]

theorem exec_controlNop_admits (harr : (getQueue s fn q).arrived = (seq, some d) :: rest) (hcls : dClass d = 6)
    (hop : byteAt (dBody d) 0 = 1) : exec (.controlNop fn q seq) s = exec (.descriptorAdmit fn q) s :=
  exec_hostForm (op := fun b => byteAt b 0 == 1) harr rfl hcls (beq_iff_eq.2 hop)

theorem exec_controlCancel_admits (harr : (getQueue s fn q).arrived = (seq, some d) :: rest) (hcls : dClass d = 6)
    (hop : byteAt (dBody d) 0 = 2) : exec (.controlCancel fn q seq) s = exec (.descriptorAdmit fn q) s :=
  exec_hostForm (op := fun b => byteAt b 0 == 2) harr rfl hcls (beq_iff_eq.2 hop)

end HostForms

/-! ### The head descriptor (R216–R220) -/

/-- The descriptor at the head of queue `q` is the one its function serves next: admission is open, no queue before it in the order
of R217 has one that is admitted, and the queue is ACTIVE with room for one more completion. -/
structure HeadServed (s : State) (fn q seq : Nat) (data : Option (List Byte)) : Prop where
  arrived : ∃ rest, (getQueue s fn q).arrived = (seq, data) :: rest
  admits : admitOpen s fn = true
  turn : ((serveOrder s fn).takeWhile (fun p => p != q)).any (fun p => (tryHead fn p s).1) = false
  active : (getQueue s fn q).st = 1
  room : (getQueue s fn q).room = true

section Head
variable {s : State} {fn q seq : Nat} {d : List Byte}

theorem HeadServed.exec_descriptorAdmit {data : Option (List Byte)} (h : HeadServed s fn q seq data) :
    exec (.descriptorAdmit fn q) s = .next (tryHead fn q s).2 := by
  rw [Proofs.exec_descriptorAdmit, admitFrom]
  simp only [h.admits, h.turn, Bool.not_true, Bool.false_eq_true, if_false]

theorem HeadServed.unread (h : HeadServed s fn q seq none) :
    exec (.descriptorAdmit fn q) s = .next (queueError fn q 1 (refuseDescriptor fn q seq [] stMediaError s)) := by
  obtain ⟨rest, harr⟩ := h.arrived
  rw [h.exec_descriptorAdmit]
  simp [tryHead, harr, h.active, h.room]

variable (h : HeadServed s fn q seq (some d))
include h

theorem HeadServed.badCheck (hcrc : seqCrc seq (d.take 0x3C) ≠ field d 0x3C 4) :
    exec (.descriptorAdmit fn q) s = .next (queueError fn q 2 (refuseDescriptor fn q seq d stCheckFail s)) := by
  obtain ⟨rest, harr⟩ := h.arrived
  rw [h.exec_descriptorAdmit]
  simp [tryHead, harr, h.active, h.room, hcrc]

/-- A descriptor that was read whole, and that no fence holds back, meets the rows of R220 in their order. -/
theorem HeadServed.checked (hcrc : seqCrc seq (d.take 0x3C) = field d 0x3C 4)
    (hfence : natBit (byteAt d 1) 0 = false ∨ (getQueue s fn q).admitted = []) :
    exec (.descriptorAdmit fn q) s = .next (
      if dClass d = 5 ∧ 256 ≤ (fwFifo s fn).length then setEvent 7 4 s
      else if dBad d = true then refuseDescriptor fn q seq d stMalformed s
      else if (s.paddock fn).st ≠ 1 then refuseDescriptor fn q seq d stDenied s
      else if (q, seq) ∈ (getFunc s fn).cancels then refuseDescriptor fn q seq d stAborted s
      else if (handOver fn q seq d s).1 = true then
        takeDescriptor fn q seq (field d 2 2) (dClass d) (handOver fn q seq d s).2
      else (handOver fn q seq d s).2) := by
  obtain ⟨rest, harr⟩ := h.arrived
  have unfenced : ¬(natBit (byteAt d 1) 0 = true ∧ (!(getQueue s fn q).admitted.isEmpty) = true) := by
    rintro ⟨hset, hwaits⟩
    obtain hclear | hnone := hfence
    · exact Bool.false_ne_true (hclear.symm.trans hset)
    · simp [hnone] at hwaits
  rw [h.exec_descriptorAdmit]
  simp only [tryHead, harr, Option.getD_some, Option.isNone_some, h.active, h.room, hcrc, unfenced, ne_eq, not_true_eq_false,
    Bool.not_true, Bool.false_eq_true, or_self, if_false, List.contains_iff_mem, apply_ite Prod.snd]

end Head

/-! ### What a class makes of a descriptor (R215, R223, R225) -/

section Classes
variable {s : State} {fn q seq : Nat} {d : List Byte}

theorem handOver_firmware (hcls : dClass d = 5) : handOver fn q seq d s = (true, fwEnter fn q seq d s) := by
  simp only [handOver, hcls]

theorem handOver_control (hcls : dClass d = 6) : handOver fn q seq d s = (true, control fn q seq (dBody d) s) := by
  simp only [handOver, hcls]

variable {b : List Byte}

theorem control_nop (hop : byteAt b 0 = 1) : control fn q seq b s = hostCompleteLater fn q seq [0, 0] s := if_pos hop

theorem control_cancelQuota (hop : byteAt b 0 = 2) (hfull : 16 ≤ (getFunc s fn).cancels.length) :
    control fn q seq b s = hostCompleteLater fn q seq [BitVec.ofNat 8 stQuota, 0] s := by
  rw [Machine.control, if_neg (by omega), if_pos hfull]

theorem control_cancel (hop : byteAt b 0 = 2) (hroom : (getFunc s fn).cancels.length < 16) {e : Nat} {s1 : State}
    (heff : cancelEffect fn (field b 2 2) (field b 8 8) s = (e, s1)) :
    control fn q seq b s = hostCompleteLater fn q seq [0, BitVec.ofNat 8 e] s1 := by
  rw [Machine.control, if_neg (by omega), if_neg (by omega), heff]

end Classes

/-! ### The statement -/

/-- Settles O24: first the host forms, which are DESCRIPTOR_ADMIT under a name, then the checks in the order of R220. -/
theorem descriptorsAreAdmitted : Obligations.DescriptorsAreAdmitted := by
  unfold Obligations.DescriptorsAreAdmitted
  refine ⟨?forms, ?head⟩
  case forms =>
    intro s fn q seq d rest harr
    refine ⟨?cipher, ?pke, ?stall, ?tack, exec_controlNop_admits harr, exec_controlCancel_admits harr⟩
    case cipher => exact fun hcls => exec_hostForm (op := fun _ => true) harr rfl hcls rfl
    case pke => exact fun e he hcls hop =>
      exec_hostForm (op := fun b => pOp b == e.1) harr (exec_pkeCommand he _ s) hcls (beq_iff_eq.2 hop)
    case stall => exact fun e he hcls hop =>
      exec_hostForm (op := fun b => byteAt b 0 == e.1) harr (exec_stallCommand he _ s) hcls (beq_iff_eq.2 hop)
    case tack => exact fun e he hcls hop =>
      exec_hostForm (op := fun b => byteAt b 0 == e.1) harr (exec_tackCommand he _ s) hcls (beq_iff_eq.2 hop)
  case head =>
    intro s fn q seq data rest d harr hopen hturn hactive hroom hd
    have served : HeadServed s fn q seq data := ⟨⟨rest, harr⟩, hopen, hturn, hactive, hroom⟩
    cases data with
    | none =>
      subst hd
      exact ⟨fun _ => served.unread, nofun, nofun⟩
    | some _ =>
      obtain rfl : d = _ := hd
      refine ⟨nofun, fun _ => served.badCheck, fun _ hcrc hfence => ?_⟩
      have run := served.checked hcrc hfence
      refine ⟨fun hcls hfull => ?full, fun hfits => ⟨fun hbad => ?malformed, fun hgood hpad => ?denied,
        fun hgood hpad hcancel => ?cancelled, fun hgood hpad hkept => ?taken⟩⟩
      case full => rw [run, if_pos ⟨hcls, hfull⟩]
      all_goals
        have fits : ¬(dClass d = 5 ∧ 256 ≤ (fwFifo s fn).length) := fun hfull => absurd hfull.2 (Nat.not_le.2 (hfits hfull.1))
        rw [if_neg fits] at run
      case malformed => rw [run, if_pos hbad]
      all_goals rw [if_neg (Bool.eq_false_iff.1 hgood)] at run
      case denied => rw [run, if_pos hpad]
      all_goals rw [if_neg (not_not_intro hpad)] at run
      case cancelled => rw [run, if_pos hcancel]
      case taken =>
        rw [if_neg hkept] at run
        refine ⟨fun ok s1 hover => ?handed, fun hcls => ?firmware, fun hcls hop => ?nop, fun hcls hop hfull => ?quota,
          fun hcls hop hfree e s1 heff => ?cancel⟩
        case handed => rw [run, hover]
        case firmware => rw [run, handOver_firmware hcls, if_pos rfl, hcls]
        all_goals rw [handOver_control hcls, if_pos rfl, hcls] at run
        case nop => rw [exec_controlNop_admits harr hcls hop, run, control_nop hop]
        case quota => rw [exec_controlCancel_admits harr hcls hop, run, control_cancelQuota hop hfull]
        case cancel => rw [exec_controlCancel_admits harr hcls hop, run, control_cancel hop hfree heff]

end Sys2Proof.Proofs
end

section
/-! What happens on the host side (R205–R207, R210, R221–R223, R228): messages and their masks, an owed NOTIFY, the firmware window,
completions that fall due, resets, the link, configuration and the allotments. -/

namespace Sys2Proof.Proofs

open Sys2Proof Sys2Proof.Machine Sys2Proof.Laws

/-! ### Tables in canonical form -/

section Table
variable {α : Type} [DecidableEq α] {d : α}

theorem sorted_of_wfFrom {lo : Option Nat} {t : Tab α} (w : Tab.wfFrom d lo t = true) :
    (∀ p ∈ t, Tab.Above lo p.1) ∧ (t.map (fun p => p.1)).Pairwise (· < ·) := by
  induction t generalizing lo with
  | nil => exact ⟨nofun, List.Pairwise.nil⟩
  | cons e t ih =>
    obtain ⟨hlo, -, w⟩ := Tab.wfFrom_cons.mp w
    obtain ⟨above, sorted⟩ := ih w
    refine ⟨fun p hp l hl => ?_, List.pairwise_cons.mpr ⟨fun k hk => ?_, sorted⟩⟩
    · obtain rfl | hp := List.mem_cons.mp hp
      · exact hlo l hl
      · exact Nat.lt_trans (hlo l hl) (above p hp e.1 rfl)
    · obtain ⟨p, hp, rfl⟩ := List.mem_map.mp hk
      exact above p hp e.1 rfl

omit [DecidableEq α] in
/-- What a table reads beside its default it lists. -/
theorem mem_of_get_ne {t : Tab α} {k : Nat} (h : Tab.get d t k ≠ d) : (k, Tab.get d t k) ∈ t := by
  induction t with
  | nil => exact absurd rfl h
  | cons e t ih =>
    obtain ⟨j, v⟩ := e
    simp only [Tab.get] at h ⊢
    split at h
    · exact absurd rfl h
    · split at h
      · next hlt hk => simp [hk]
      · next hlt hne => simpa [hlt, hne] using ih h

end Table

/-! ### Messages and masks (R222) -/

/-- One held message of vector `v` goes out. -/
def sendHeld (f : Func) (v : Nat) : Func :=
  { f with pendMsg := Tab.set false f.pendMsg v false, sent := Tab.upd 0 f.sent v (· + 1) }

/-- The vectors whose held message may go out now. -/
def heldVectors (f : Func) : List Nat := (f.pendMsg.filter (fun e => e.2 && f.sends e.1)).map (fun e => e.1)

theorem getFunc_sendPending (fn : Nat) (s : State) :
    getFunc (sendPending fn s) fn = (heldVectors (getFunc s fn)).foldl sendHeld (getFunc s fn) := getFunc_updFunc_self ..

/-- A table of held messages names each vector once. -/
theorem count_heldVectors {f : Func} {v : Nat} (hwf : Tab.wf false f.pendMsg = true) (hheld : Tab.get false f.pendMsg v = true)
    (hsends : f.sends v = true) : (heldVectors f).count v = 1 := by
  have listed : (v, true) ∈ f.pendMsg := by
    have h : Tab.get false f.pendMsg v ≠ false := by simp [hheld]
    simpa [hheld] using mem_of_get_ne h
  have named : v ∈ heldVectors f :=
    List.mem_map.mpr ⟨(v, true), List.mem_filter.mpr ⟨listed, by simp only [hsends, Bool.and_self]⟩, rfl⟩
  have nodup : (f.pendMsg.map (fun e => e.1)).Nodup := (sorted_of_wfFrom hwf).2.imp Nat.ne_of_lt
  have once : (heldVectors f).Nodup := nodup.sublist (List.filter_sublist.map _)
  rw [once.count, if_pos named]

/-- Sending leaves the masks, MSI-X Enable and the power state. -/
theorem foldl_sendHeld_frame (vs : List Nat) (f : Func) :
    (vs.foldl sendHeld f).unmasked = f.unmasked ∧ (vs.foldl sendHeld f).msixEn = f.msixEn ∧
      (vs.foldl sendHeld f).msixMask = f.msixMask ∧ (vs.foldl sendHeld f).d3hot = f.d3hot :=
  List.foldlRecOn (motive := fun g : Func => g.unmasked = f.unmasked ∧ g.msixEn = f.msixEn ∧ g.msixMask = f.msixMask ∧
    g.d3hot = f.d3hot) vs sendHeld ⟨rfl, rfl, rfl, rfl⟩ fun _ h _ _ => h

theorem foldl_sendHeld_sent (vs : List Nat) (f : Func) (v : Nat) :
    Tab.get 0 (vs.foldl sendHeld f).sent v = Tab.get 0 f.sent v + vs.count v := by
  induction vs generalizing f with
  | nil => rfl
  | cons w vs ih =>
    rw [List.foldl_cons, ih, sendHeld, Tab.get_upd, List.count_cons]
    by_cases hv : v = w
    · subst hv
      simp only [if_true, beq_self_eq_true]
      omega
    · simp [hv, Ne.symm hv]

theorem foldl_sendHeld_pendMsg (vs : List Nat) (f : Func) (v : Nat) :
    Tab.get false (vs.foldl sendHeld f).pendMsg v = (Tab.get false f.pendMsg v && decide (v ∉ vs)) := by
  induction vs generalizing f with
  | nil => simp
  | cons w vs ih =>
    rw [List.foldl_cons, ih, sendHeld, Tab.get_set]
    by_cases hv : v = w
    · simp [hv]
    · simp [hv]

section Messages
variable {s : State} {fn q v : Nat}

theorem exec_msixMessage (hdue : (getQueue s fn q).msgDue = true)
    (hfree : ∀ t, (getQueue s fn q).lastMsg = some t → t + max 1 (getQueue s fn q).coal ≤ s.tick) :
    exec (.msixMessage fn q) s = .next (sendVector fn (getQueue s fn q).vector
      (updQueue fn q (fun x => { x with msgDue := false, lastMsg := some s.tick }) s)) := by
  show execMsixMessage fn q s = _
  unfold execMsixMessage
  cases hlast : (getQueue s fn q).lastMsg with
  | none => simp only [hdue, hlast, Bool.and_self, if_true]
  | some t => simp only [hdue, hlast, hfree t hlast, decide_true, Bool.and_self, if_true]

theorem exec_msixUnmask (fn v : Nat) (mask : Bool) (s : State) : exec (.msixUnmask fn v mask) s =
    .next (sendPending fn (updFunc fn (fun f => { f with unmasked := Tab.set false f.unmasked v (!mask) }) s)) := rfl

/-- The function with vector `v` unmasked. -/
def unmask (v : Nat) (f : Func) : Func := { f with unmasked := Tab.set false f.unmasked v true }

/-- A held message goes out once, when its vector is unmasked. -/
theorem sendPending_unmask (hwf : Tab.wf false (getFunc s fn).pendMsg = true)
    (hheld : Tab.get false (getFunc s fn).pendMsg v = true) (hen : (getFunc s fn).msixEn = true)
    (hmask : (getFunc s fn).msixMask = false) (hpow : (getFunc s fn).d3hot = false) :
    Tab.get false (getFunc (sendPending fn (updFunc fn (unmask v) s)) fn).unmasked v = true ∧
      Tab.get false (getFunc (sendPending fn (updFunc fn (unmask v) s)) fn).pendMsg v = false ∧
      Tab.get 0 (getFunc (sendPending fn (updFunc fn (unmask v) s)) fn).sent v = Tab.get 0 (getFunc s fn).sent v + 1 := by
  have hsends : (unmask v (getFunc s fn)).sends v = true := by simp [Func.sends, unmask, hen, hmask, hpow]
  have once : (heldVectors (unmask v (getFunc s fn))).count v = 1 := count_heldVectors hwf hheld hsends
  have listed : v ∈ heldVectors (unmask v (getFunc s fn)) := List.count_pos_iff.mp (once ▸ Nat.one_pos)
  rw [getFunc_sendPending, getFunc_updFunc_self, (foldl_sendHeld_frame _ _).1, foldl_sendHeld_pendMsg, foldl_sendHeld_sent, once]
  exact ⟨Tab.get_set_self .., by simp [listed], rfl⟩

end Messages

/-! ### NOTIFY, the firmware window and completions (R221, R223, R228) -/

section Firmware
variable {s : State}

theorem exec_notifyCompletion {p stall reason k qn : Nat} {rest : List (Nat × Nat × Nat × Nat)}
    (hnotes : s.cq.notes = (p, stall, reason, k) :: rest) (hlate : k < s.stride) (hevent : eventQueue s p = some qn)
    (hroom : (getQueue s p qn).room = true) :
    exec .notifyCompletion s = .next (updQueue p qn (fun x => { x with evLost := false })
      (putCompletion p qn 0xFFFF 7 0 (getQueue s p qn).evLost
        ([0, 1, BitVec.ofNat 8 reason, 0] ++ natToLE 4 stall ++ natToLE 4 k) { s with cq := { s.cq with notes := rest } })) := by
  show execNotifyCompletion s = _
  unfold execNotifyCompletion
  simp only [hnotes, Nat.not_le.2 hlate, if_false, hevent]
  exact if_pos hroom

theorem exec_fwTake {c i : Nat} {e : FwEntry} {rest : List FwEntry}
    (hfree : (List.range 4).find? (fun i => (Tab.get none (getFwWin s c).held i).isNone) = some i)
    (hfifo : fwFifo s (getCore s c).paddock = e :: rest) :
    exec (.fwTake c) s = .next (setFifo (getCore s c).paddock rest (updFwWin c (fun w => { w with
      entry := e.desc, valid := true, redelivered := e.redelivered, slot := i, held := Tab.set none w.held i (some e) }) s)) := by
  show Host.Outcome.next (fwTake c s) = _
  simp only [fwTake, hfree, hfifo]

theorem exec_fwPost {c slot : Nat} {e : FwEntry} (hheld : Tab.get none (getFwWin s c).held slot = some e) :
    exec (.fwPost c slot) s = .next (
      if e.gone = true then updFwWin c (fun w => { w with held := Tab.set none w.held slot none }) s
      else hostCompleteLater e.fn e.q e.seq (wordsBytes (getFwWin s c).result 2)
        (updFwWin c (fun w => { w with held := Tab.set none w.held slot none }) s)) := by
  show Host.Outcome.next (fwPost c slot s) = _
  simp only [fwPost, hheld]

/-- The only completion that waits is written once its stride and its turn have come. -/
theorem flushCompletions_one {p : HostPend} (hcomps : s.cq.comps = [p]) (hdue : p.due ≤ s.tick)
    (hturn : hostTurn s (.host p.fn p.q p.seq) = true) :
    flushCompletions s = hostComplete p.fn p.q p.seq p.result { s with cq := { s.cq with comps := [] } } := by
  simp only [flushCompletions, hcomps, hdue, decide_true, List.filter_cons_of_pos, List.filter_nil, List.foldr_cons, List.foldr_nil,
    insertPend, List.foldl_cons, List.foldl_nil, hturn, if_true, List.erase_cons_head]

end Firmware

/-! ### Resets (R207) -/

section Resets
variable {s : State} {fn : Nat}

theorem askReset_eq_of_none (h : (getFunc s fn).resetAsked = none) :
    askReset fn s = updFunc fn (fun f => { f with resetAsked := some s.tick }) s := by
  have asked : (if (getFunc s fn).resetAsked.isSome then getFunc s fn else { getFunc s fn with resetAsked := some s.tick }) =
      { getFunc s fn with resetAsked := some s.tick } := by
    rw [h]
    rfl
  exact congrArg (fun f => { s with cq := { s.cq with funcs := Tab.set Func.reset s.cq.funcs fn f } }) asked

theorem askReset_asks (fn : Nat) (s : State) : (getFunc (askReset fn s) fn).resetAsked.isSome = true := by
  rw [askReset, getFunc_updFunc_self]
  split
  · assumption
  · rfl

theorem askReset_keeps_asked (g : Nat) (h : (getFunc s fn).resetAsked.isSome = true) :
    (getFunc (askReset g s) fn).resetAsked.isSome = true := by
  by_cases hfn : fn = g
  · subst hfn
    exact askReset_asks fn s
  · rw [askReset, getFunc, updFunc, Tab.get_upd_ne _ _ hfn]
    exact h

theorem askResetAll_asks (hfn : fn < 256) (s : State) : (getFunc (askResetAll s) fn).resetAsked.isSome = true :=
  foldl_reaches (f := fun st g => askReset g st) (P := fun st => (getFunc st fn).resetAsked.isSome = true)
    (List.mem_range.mpr hfn) (askReset_asks fn) (fun _ g h => askReset_keeps_asked g h) s

/-- Asking for resets changes the functions alone. -/
theorem askResetAll_eq (s : State) : askResetAll s = { s with cq := { s.cq with funcs := (askResetAll s).cq.funcs } } :=
  List.foldlRecOn (motive := fun t : State => t = { s with cq := { s.cq with funcs := t.cq.funcs } }) (List.range 256) _ rfl
    fun t ht g _ => by
      rw [ht]
      rfl

theorem askResetAll_pc (s : State) : (askResetAll s).pc = s.pc := by rw [askResetAll_eq]
theorem askResetAll_events (s : State) : (askResetAll s).events = s.events := by rw [askResetAll_eq]
theorem askResetAll_link (s : State) : (askResetAll s).cq.link = s.cq.link := by rw [askResetAll_eq]

theorem setEventIf_cq (c : Bool) (w b : Nat) (s : State) : (setEventIf c w b s).cq = s.cq := by
  cases c
  · rfl
  · exact setEvent_cq ..

theorem getFunc_setEvent (w b g : Nat) (s : State) : getFunc (setEvent w b s) g = getFunc s g := by
  rw [getFunc, setEvent_cq, getFunc]

theorem exec_perst (s : State) : exec .perst s = .next (
    if s.pm.step = 15 then askResetAll (setEventIf (s.cq.link.getLsbD 0) 7 0 { s with cq := { s.cq with link := 0 } })
    else setEventIf (s.cq.link.getLsbD 0) 7 0 { s with cq := { s.cq with link := 0 } }) := by
  show execPerst s = _
  rw [execPerst, apply_ite Host.Outcome.next]

theorem exec_functionResetEffect {a : Nat} (hasked : (getFunc s fn).resetAsked = some a) (hlate : a < s.tick) :
    exec (.functionResetEffect fn) s = .next (functionReset fn (if fn = 0 then resetVFs s else s)) := by
  show execFunctionResetEffect fn s = _
  simp only [execFunctionResetEffect, hasked, hlate, if_true]

/-- A function reset leaves none of the function's queues listed, and its FIFO is empty. -/
theorem resetFunctionQueues_cq (fn : Nat) (s : State) :
    (resetFunctionQueues fn s).cq.queues = s.cq.queues.filter (fun p => p.1 / 4096 != fn) ∧
      (resetFunctionQueues fn s).cq.fifo = Tab.set [] s.cq.fifo fn [] := by
  unfold resetFunctionQueues
  generalize List.range 26 = cores
  rw [setEvent_cq]
  exact List.foldlRecOn (motive := fun t : State => t.cq.queues = s.cq.queues.filter (fun p => p.1 / 4096 != fn) ∧
    t.cq.fifo = Tab.set [] s.cq.fifo fn []) cores _ ⟨rfl, rfl⟩ fun _ h _ _ => h

theorem getQueue_resetFunctionQueues (fn : Nat) {q : Nat} (hq : q < 4096) (s : State) :
    getQueue (resetFunctionQueues fn s) fn q = Queue.absent := by
  rw [getQueue, (resetFunctionQueues_cq fn s).1]
  refine Tab.get_unlisted fun p hp hkey => ?_
  obtain ⟨-, hother⟩ := List.mem_filter.mp hp
  rw [hkey, bne_iff_ne] at hother
  omega

theorem fwFifo_resetFunctionQueues (fn : Nat) (s : State) : fwFifo (resetFunctionQueues fn s) fn = [] := by
  rw [fwFifo, (resetFunctionQueues_cq fn s).2, Tab.get_set_self]

end Resets

/-! ### The link, configuration and allotments (R205, R206, R210, R228) -/

section Settings
variable {s : State}

theorem exec_pcieLinkUp {rate width : Nat} {flit : Bool} (hlo : 1 ≤ rate) (hhi : rate ≤ 3) (hwidth : width ∈ [1, 2, 4, 8, 16])
    (hflit : rate = 3 → flit = true) : exec (.pcieLinkUp rate width flit) s =
      .next { s with cq := { s.cq with link := BitVec.ofNat 32 (1 + rate * 2 + width * 8 + b2n flit * 256) } } := by
  simp only [List.mem_cons, List.not_mem_nil, or_false] at hwidth
  exact if_pos ⟨hlo, hhi, hwidth, hflit⟩

theorem exec_pcieConfigRequest (fn : Nat) (req : ConfigReq) (s : State) : exec (.pcieConfigRequest ⟨fn, req⟩) s =
    .next (if (s.cq.cfgReady && funcOpen s fn) = true then
        configWrite fn req { s with cq := { s.cq with lastConfig := some (fn, s.cq.cfgReady && funcOpen s fn) } }
      else { s with cq := { s.cq with lastConfig := some (fn, s.cq.cfgReady && funcOpen s fn) } }) := rfl

theorem configWrite_sriov {n : Nat} (hn : n ≤ 255) (s : State) :
    (configWrite 0 (.sriov true n) s).cq.numVFs = n ∧ (configWrite 0 (.sriov true n) s).cq.vfEnable = true := by
  have served : ¬((0 : Nat) ≠ 0 ∨ 255 < n) := by omega
  rw [configWrite, if_neg served]
  exact ⟨rfl, rfl⟩

theorem configWrite_power (fn : Nat) (d3 : Bool) (s : State) : (getFunc (configWrite fn (.power d3) s) fn).d3hot = d3 := by
  obtain ⟨-, -, -, hpow⟩ := foldl_sendHeld_frame (heldVectors { getFunc s fn with d3hot := d3 }) { getFunc s fn with d3hot := d3 }
  rw [configWrite, getFunc_sendPending, getFunc_updFunc_self, hpow]

theorem configWrite_msix (fn : Nat) (on mask : Bool) (s : State) : (getFunc (configWrite fn (.msix on mask) s) fn).msixEn = on ∧
    (getFunc (configWrite fn (.msix on mask) s) fn).msixMask = mask := by
  obtain ⟨-, hen, hmask, -⟩ := foldl_sendHeld_frame (heldVectors { getFunc s fn with msixEn := on, msixMask := mask })
    { getFunc s fn with msixEn := on, msixMask := mask }
  rw [configWrite, getFunc_sendPending, getFunc_updFunc_self]
  exact ⟨hen, hmask⟩

theorem exec_cqAllotWrite {c : Nat} {adm : Bool} (v : W32) (hm : wardenMay s c (if adm then 0x100700030 else 0x100700028) = true) :
    exec (.cqAllotWrite c adm v) s = .next (writeAllot adm v s) := if_pos hm

/-- CQ_ADM is taken where the sum of all stays within 1,024. -/
theorem writeAllot_adm {v : W32} (hsum : s.cq.allotA.foldl (fun a p => a + p.2) 0 - Tab.get 0 s.cq.allotA s.cq.psel +
    natBits v.toNat 0 11 ≤ 1024) :
    writeAllot true v s =
      { s with cq := { s.cq with allotA := Tab.set 0 s.cq.allotA s.cq.psel (natBits v.toNat 0 11) } } :=
  if_neg (Nat.not_lt.2 hsum)

/-- CQ_ALLOT is taken where both sums stay within 4,096 and the function's use fits. -/
theorem writeAllot_queues {v : W32}
    (hqueues : s.cq.allotQ.foldl (fun a p => a + p.2) 0 - Tab.get 0 s.cq.allotQ s.cq.psel + natBits v.toNat 0 13 ≤ 4096)
    (hvectors : s.cq.allotV.foldl (fun a p => a + p.2) 0 - Tab.get 0 s.cq.allotV s.cq.psel + natBits v.toNat 16 13 ≤ 4096)
    (huse : queueUse s s.cq.psel ≤ natBits v.toNat 0 13) (husev : vectorUse s s.cq.psel ≤ natBits v.toNat 16 13) :
    writeAllot false v s = { s with cq := { s.cq with
      allotQ := Tab.set 0 s.cq.allotQ s.cq.psel (natBits v.toNat 0 13),
      allotV := Tab.set 0 s.cq.allotV s.cq.psel (natBits v.toNat 16 13) } } := by
  refine if_neg ?_
  rintro (h | h | h | h)
  · exact absurd hqueues (Nat.not_le.2 h)
  · exact absurd hvectors (Nat.not_le.2 h)
  · exact absurd huse (Nat.not_le.2 h)
  · exact absurd husev (Nat.not_le.2 h)

end Settings

/-! ### The statement -/

/-- Settles O26, clause by clause. What a configuration write sets (SR-IOV, the power state, MSI-X) is the model's own choice
(log 163). -/
theorem hostEventsComplete : Obligations.HostEventsComplete := by
  unfold Obligations.HostEventsComplete
  intro s
  refine ⟨fun _ _ => exec_msixMessage, fun fn v mask => exec_msixUnmask fn v mask s, ?unmask,
    fun _ _ _ _ _ _ => exec_notifyCompletion, fun _ _ _ _ => exec_fwTake, ?post, ?completions, ?askOne, ?hot, ?down, fun _ _ _ => exec_pcieLinkUp, ?perst, ?perstBoot,
    ?effect, fun _ hready => if_pos hready, ?config, ?settings, ?adm, ?queues⟩
  case unmask =>
    intro fn v hwf hheld hen hmask hpow
    obtain ⟨hclear, hsent, hcount⟩ := sendPending_unmask hwf hheld hen hmask hpow
    exact ⟨_, exec_msixUnmask fn v false s, hclear, hsent, hcount, rfl⟩
  case post =>
    intro c slot e s1 hheld hs1
    rw [exec_fwPost hheld, hs1]
  case completions =>
    exact fun p hcomps hdue hturn => congrArg Host.Outcome.next (flushCompletions_one hcomps hdue hturn)
  case askOne => exact fun fn hnone => congrArg Host.Outcome.next (askReset_eq_of_none hnone)
  case hot => exact ⟨_, rfl, fun fn hfn => askResetAll_asks hfn s, askResetAll_mem s, askResetAll_pc s⟩
  case down =>
    refine ⟨_, rfl, ?_, setEvent_self _ 7 0 (by decide), fun fn hfn => ?_, ?_⟩
    · rw [setEvent_cq, askResetAll_link]
    · rw [getFunc_setEvent]
      exact askResetAll_asks hfn _
    · rw [Laws.setEvent_mem, askResetAll_mem]
  case perst =>
    intro hrun
    refine ⟨_, (exec_perst s).trans (congrArg _ (if_pos hrun)), ?_, fun fn hfn => askResetAll_asks hfn _, ?_, fun hup => ?_⟩
    · rw [askResetAll_link, setEventIf_cq]
    · rw [askResetAll_mem, Machine.setEventIf_mem]
    · rw [askResetAll_events, hup]
      exact setEvent_self _ 7 0 (by decide)
  case perstBoot => exact fun hboot => (exec_perst s).trans (congrArg _ (if_neg hboot))
  case effect =>
    exact fun fn a hasked hlate => ⟨exec_functionResetEffect hasked hlate, fun q hq => getQueue_resetFunctionQueues fn hq s,
      fwFifo_resetFunctionQueues fn s⟩
  case config =>
    intro fn req ok s1 hok hs1
    subst hok hs1
    exact exec_pcieConfigRequest fn req s
  case settings =>
    intro fn n mask d3 hn
    obtain ⟨hnum, hena⟩ := configWrite_sriov hn s
    exact ⟨hnum, hena, configWrite_power fn d3 s, configWrite_msix fn true mask s⟩
  case adm =>
    intro c v hm hsum
    rw [exec_cqAllotWrite (adm := true) v hm, writeAllot_adm hsum]
  case queues =>
    intro c v hm hqueues hvectors huse husev
    rw [exec_cqAllotWrite (adm := false) v hm, writeAllot_queues hqueues hvectors huse husev]

end Sys2Proof.Proofs
end

section
/-! Ports under PAUSE and link changes (R229, R230, R243, R245): what a received PAUSE halts, what a PAUSE sent marks, what a link
change moves in IL_LINK, and what a write of IL_PORTCFG keeps. -/

namespace Sys2Proof.Proofs

open Sys2Proof Sys2Proof.Machine Sys2Proof.Laws

/-! ### PAUSE received, and its expiry (R243) -/

section PauseIn
variable {s : State} {pair sub : Nat} {outbound : Bool}

theorem exec_pauseReceived (quanta : Nat) (hlive : portLive s pair sub = true) (hshed : s.shedding = false) :
    exec (.pauseReceived pair sub outbound quanta) s =
      .next (if portBit s pair 8 = true then
          pauseHalt (ilBlock pair sub outbound) (quanta % 65536) (broken s pair)
            (ilCount (ilBlock pair sub outbound) 2 (ilCount (ilBlock pair sub outbound) 0 s))
        else ilCount (ilBlock pair sub outbound) 2 (ilCount (ilBlock pair sub outbound) 0 s)) := by
  show execPauseReceived pair sub outbound quanta s = _
  simp only [execPauseReceived, hlive, hshed, if_true, Bool.false_eq_true, if_false]

/-- A running pause that ends within the current stride is over; that it acts so early is the model's own choice (log 98). -/
theorem exec_pauseTimerExpiry (hruns : Tab.get 0 s.il.halted (ilBlock pair sub outbound) ≠ 0)
    (hends : Tab.get 0 s.il.halted (ilBlock pair sub outbound) ≤ s.time.now + 1000) :
    exec (.pauseTimerExpiry pair sub outbound) s =
      .next { s with il := { s.il with halted := Tab.set 0 s.il.halted (ilBlock pair sub outbound) 0 } } :=
  if_pos ⟨hruns, hends⟩

end PauseIn

/-! ### PAUSE sent (R229, R243) -/

section PauseOut
variable {s : State} {pair : Nat} {outbound : Bool} {quanta : Nat}

theorem sendPause_pausing : Tab.get false (sendPause pair outbound quanta s).il.pausing (2 * pair + b2n outbound) = (quanta != 0) :=
  Tab.get_set_self ..

theorem sendPause_pauseAt : Tab.get 0 (sendPause pair outbound quanta s).il.pauseAt (2 * pair + b2n outbound) = s.tick :=
  Tab.get_set_self ..

theorem pauseOn_pauseSent_self (u : Nat) :
    Tab.get 0 (pauseOn pair outbound quanta s u).il.pauseSent (ilBlock pair u outbound) = quanta + 1 := Tab.get_set_self ..

/-- PAUSE on another sub-port, or again on this one, leaves the quanta noted. -/
theorem pauseOn_pauseSent_keeps {b : Nat} (u : Nat) (h : Tab.get 0 s.il.pauseSent b = quanta + 1) :
    Tab.get 0 (pauseOn pair outbound quanta s u).il.pauseSent b = quanta + 1 := by
  refine (Tab.get_set ..).trans ?_
  split
  · rfl
  · exact h

/-- PAUSE goes out on every sub-port that exists. -/
theorem sendPause_pauseSent {u : Nat} (hu : u ∈ portSubs s pair) :
    Tab.get 0 (sendPause pair outbound quanta s).il.pauseSent (ilBlock pair u outbound) = quanta + 1 :=
  foldl_reaches (f := pauseOn pair outbound quanta)
    (P := fun st => Tab.get 0 st.il.pauseSent (ilBlock pair u outbound) = quanta + 1) hu
    (fun _ => pauseOn_pauseSent_self u) (fun _ v h => pauseOn_pauseSent_keeps v h) s

theorem portBit_of_bufAbove (h : bufAbove s pair outbound = true) : portBit s pair 0 = true := by
  simp only [bufAbove, pauses, Bool.and_eq_true] at h
  exact h.1.1

theorem exec_pauseRepeat (hpair : pair < 4) (habove : bufAbove s pair outbound = true)
    (hdue : Tab.get 0 s.il.pauseAt (2 * pair + b2n outbound) + (if broken s pair then 160 else 40) ≤ s.tick) :
    exec (.pauseRepeat pair outbound) s = .next (sendPause pair outbound 0xFFFF s) := by
  refine if_pos ?_
  rw [decide_eq_true hpair, portBit_of_bufAbove habove, habove, decide_eq_true hdue, Bool.or_true]
  rfl

end PauseOut

/-! ### A link change (R245) -/

section Link
variable {s : State} {pair sub : Nat}

theorem lt_four_of_mem_portSubs (h : sub ∈ portSubs s pair) : sub < 4 := by
  unfold portSubs at h
  split at h
  · simp only [List.mem_cons, List.not_mem_nil, or_false] at h
    omega
  · rw [List.mem_singleton.mp h]
    decide

/-- A register with bit `k` put at a level. -/
def putBit (old : W32) (k : Nat) (up : Bool) : W32 :=
  if up then old ||| BitVec.ofNat 32 (2 ^ k) else old &&& ~~~BitVec.ofNat 32 (2 ^ k)

theorem getLsbD_putBit_self (old : W32) {k : Nat} (up : Bool) (hk : k < 32) : (putBit old k up).getLsbD k = up := by
  have hbit : (BitVec.ofNat 32 (2 ^ k)).getLsbD k = true := by
    rw [BitVec.getLsbD_ofNat, decide_eq_true hk, Nat.testBit_two_pow_self, Bool.and_self]
  cases up
  · simp only [putBit, Bool.false_eq_true, if_false, BitVec.getLsbD_and, BitVec.getLsbD_not, hbit, Bool.not_true, Bool.and_false]
  · simp only [putBit, if_true, BitVec.getLsbD_or, hbit, Bool.or_true]

theorem getLsbD_putBit_ne (old : W32) {k i : Nat} (up : Bool) (h : i ≠ k) : (putBit old k up).getLsbD i = old.getLsbD i := by
  have hbit : (BitVec.ofNat 32 (2 ^ k)).getLsbD i = false := by
    rw [BitVec.getLsbD_ofNat, Nat.testBit_two_pow_of_ne h.symm, Bool.and_false]
  cases up
  · simp only [putBit, Bool.false_eq_true, if_false, BitVec.getLsbD_and, BitVec.getLsbD_not, hbit, Bool.not_false, Bool.and_true]
    simpa using BitVec.lt_of_getLsbD
  · simp only [putBit, if_true, BitVec.getLsbD_or, hbit, Bool.or_false]

/-- The bit of IL_LINK for a side of a sub-port. -/
def linkBit (system : Bool) (sub : Nat) : Nat := sub + if system then 4 else 0

theorem exec_portLinkChange (system up : Bool) (hpair : pair < 4) (hsub : sub ∈ portSubs s pair) :
    exec (.portLinkChange pair system sub up) s =
      .next (setEventIf (Tab.get 0 s.il.link pair != putBit (Tab.get 0 s.il.link pair) (linkBit system sub) up) 8 0
        { s with il := { s.il with
          link := Tab.set 0 s.il.link pair (putBit (Tab.get 0 s.il.link pair) (linkBit system sub) up) } }) := by
  refine if_pos ?_
  rw [decide_eq_true hpair, List.contains_iff_mem.mpr hsub]
  rfl

theorem setEventIf_il (c : Bool) (w b : Nat) (s : State) : (setEventIf c w b s).il = s.il := by
  cases c
  · rfl
  · exact setEvent_il ..

/-- A link change moves its own bit of IL_LINK alone, and sets LINK_CHANGE where the bit was at the other level. -/
theorem portLinkChange_spec (system up : Bool) (hpair : pair < 4) (hsub : sub ∈ portSubs s pair) :
    ∃ t, exec (.portLinkChange pair system sub up) s = .next t ∧
      (Tab.get 0 t.il.link pair).getLsbD (linkBit system sub) = up ∧
      (∀ i, i ≠ linkBit system sub → (Tab.get 0 t.il.link pair).getLsbD i = (Tab.get 0 s.il.link pair).getLsbD i) ∧
      ((Tab.get 0 s.il.link pair).getLsbD (linkBit system sub) ≠ up → (Tab.get 0 t.events 8).getLsbD 0 = true) ∧
      t.mem = s.mem := by
  have hbit : linkBit system sub < 32 := by
    have h := lt_four_of_mem_portSubs hsub
    unfold linkBit
    split <;> omega
  refine ⟨_, exec_portLinkChange system up hpair hsub, ?_, fun i hi => ?_, fun hmoves => ?_, Machine.setEventIf_mem ..⟩
  · rw [setEventIf_il, Tab.get_set_self, getLsbD_putBit_self _ up hbit]
  · rw [setEventIf_il, Tab.get_set_self, getLsbD_putBit_ne _ up hi]
  · have differs : Tab.get 0 s.il.link pair ≠ putBit (Tab.get 0 s.il.link pair) (linkBit system sub) up := fun h =>
      hmoves ((congrArg (BitVec.getLsbD · _) h).trans (getLsbD_putBit_self _ up hbit))
    rw [bne_iff_ne.mpr differs]
    exact setEvent_self _ 8 0 (by decide)

end Link

/-! ### A write of IL_PORTCFG (R230, R245) -/

section PortCfg
variable {s : State} {pair : Nat}

/-- A 32-bit write moves the RW bits of a 32-bit register to the value, and no others. -/
theorem rw32_whole (old v : W32) (f : Nat) :
    rw32 old 0xFFFFFFFF (v.setWidth 64) f = (old &&& ~~~BitVec.ofNat 32 f) ||| (v &&& BitVec.ofNat 32 f) := by
  have ones (x : W32) : 4294967295#32 &&& x = x := BitVec.allOnes_and
  have low (n : Nat) : (BitVec.ofNat 64 n).setWidth 32 = BitVec.ofNat 32 n := BitVec.setWidth_ofNat_of_le (by decide) n
  have width (x : W32) : (x.setWidth 64).setWidth 32 = x := BitVec.setWidth_setWidth_of_le x (by decide)
  have compl (x : W64) : (~~~x).setWidth 32 = ~~~x.setWidth 32 := BitVec.setWidth_not (by decide)
  simp only [rw32, rwField, BitVec.setWidth_or, BitVec.setWidth_and, BitVec.reduceSetWidth, BitVec.and_assoc, ones, low, width,
    compl]

/-- IL_PORTCFG of a pair written with the whole register, before any PAUSE that it sets off. -/
def withPortCfg (pair : Nat) (v : W32) (s : State) : State :=
  { s with il := { s.il with
    portcfg := Tab.set 0x1C0 s.il.portcfg pair ((portCfg s pair &&& ~~~(0x1F3 : W32)) ||| (v &&& 0x1F3)) } }

theorem portCfg_withPortCfg_self (v : W32) :
    portCfg (withPortCfg pair v s) pair = (portCfg s pair &&& ~~~(0x1F3 : W32)) ||| (v &&& 0x1F3) := Tab.get_set_self ..

theorem portCfg_withPortCfg_ne {p : Nat} (v : W32) (h : p ≠ pair) : portCfg (withPortCfg pair v s) p = portCfg s p :=
  Tab.get_set_ne _ _ h

/-- `t` comes of `s` by counting and PAUSE alone, and IL_PORTCFG of every pair stands. -/
structure SamePorts (s t : State) : Prop where
  frames : SameFrames s t
  portcfg : t.il.portcfg = s.il.portcfg

theorem SamePorts.refl (s : State) : SamePorts s s := ⟨.refl s, rfl⟩

theorem SamePorts.trans {s t u : State} (h : SamePorts s t) (g : SamePorts t u) : SamePorts s u :=
  ⟨h.frames.trans g.frames, g.portcfg.trans h.portcfg⟩

theorem sendPause_portcfg (pair : Nat) (outbound : Bool) (quanta : Nat) (s : State) :
    (sendPause pair outbound quanta s).il.portcfg = s.il.portcfg :=
  List.foldlRecOn (motive := fun st => st.il.portcfg = s.il.portcfg) (portSubs s pair) (pauseOn pair outbound quanta) rfl
    fun st hst u _ =>
      show (pauseOn pair outbound quanta st u).il.portcfg = _ from hst

/-- A PAUSE sent under a condition. -/
theorem SamePorts.sendPause_if (c : Bool) (pair : Nat) (outbound : Bool) (quanta : Nat) (s : State) :
    SamePorts s (if c then sendPause pair outbound quanta s else s) := by
  cases c
  · exact .refl s
  · exact ⟨sendPause_sameFrames .., sendPause_portcfg ..⟩

theorem writePortCfg_samePorts (v : W32) :
    SamePorts (withPortCfg pair v s) (writePortCfg pair 0xFFFFFFFF (v.setWidth 64) s) := by
  rw [writePortCfg, rw32_whole]
  exact (SamePorts.sendPause_if _ pair false 0xFFFF (withPortCfg pair v s)).trans (.sendPause_if _ pair true 0xFFFF _)

theorem exec_ilPortcfgWrite {c : Nat} (v : W32) (hpair : pair < 4) (hmay : coreMay s c true (0x100800100 + 8 * pair) = true) :
    exec (.ilPortcfgWrite c pair v) s = .next (writePortCfg pair 0xFFFFFFFF (v.setWidth 64) s) := if_pos ⟨hpair, hmay⟩

end PortCfg

/-! ### The statement -/

/-- Settles O28, clause by clause. Two answers in it are the model's own: a PAUSE received with PAUSE_EN clear is consumed and not
honoured (log 97), and a running pause ends where its time lies within the current stride (log 98). -/
theorem portsFollowPauseAndLink : Obligations.PortsFollowPauseAndLink := by
  unfold Obligations.PortsFollowPauseAndLink
  intro s pair sub outbound b hb
  subst hb
  refine ⟨?received, exec_pauseTimerExpiry, ?again, fun up => portLinkChange_spec false up, ?system, ?config⟩
  case received =>
    intro quanta hlive hshed
    rw [exec_pauseReceived quanta hlive hshed]
    exact ⟨fun hen => congrArg _ (if_pos hen), fun hoff => congrArg _ (if_neg (Bool.eq_false_iff.mp hoff))⟩
  case again =>
    intro hpair habove hdue
    exact ⟨_, exec_pauseRepeat hpair habove hdue, sendPause_pausing, sendPause_pauseAt, fun _ hu => sendPause_pauseSent hu,
      (sendPause_sameFrames ..).mem⟩
  case system =>
    intro up hpair hsub
    obtain ⟨t, hrun, hself, hne, -, hmem⟩ := portLinkChange_spec true up hpair hsub
    exact ⟨t, hrun, hself, hne, hmem⟩
  case config =>
    intro c v hpair hmay
    obtain ⟨frames, portcfg⟩ := writePortCfg_samePorts (s := s) (pair := pair) v
    have hcfg (p : Nat) : portCfg (writePortCfg pair 0xFFFFFFFF (v.setWidth 64) s) p = portCfg (withPortCfg pair v s) p :=
      congrArg (Tab.get 0x1C0 · p) portcfg
    exact ⟨_, exec_ilPortcfgWrite v hpair hmay, (hcfg pair).trans (portCfg_withPortCfg_self v),
      fun p hp => (hcfg p).trans (portCfg_withPortCfg_ne v hp), frames.mem, frames.st⟩

end Sys2Proof.Proofs
end
